-- ==== Sys2Proof/Word.lean ====
section
/-! DEFINITION. The word types of the IT9632 base die and their plainest arithmetic (R7, R9, R341). -/
namespace Sys2Proof

/-- One byte. -/
abbrev Byte := BitVec 8
/-- A management-window register (R13): every register is 32 bits wide. -/
abbrev Reg32 := BitVec 32
/-- One data word of the SECDED code (R7). -/
abbrev Word64 := BitVec 64
/-- One stored word: check bits in [71:64], data bits in [63:0] (R342). -/
abbrev Raw72 := BitVec 72
/-- The eight words of a 64 B line, word k holding line bytes 8k to 8k + 7 (R342). -/
abbrev Line := Vector Word64 8
/-- The eight raw channel beats of a burst (R342). -/
abbrev RawLine := Vector Raw72 8
/-- A port number, 0 to 15. -/
abbrev PortId := Fin 16
/-- A pavilion number, P0 to P31. -/
abbrev PavId := Fin 32
/-- A mailbox number, MBX0 to MBX17. -/
abbrev MbxId := Fin 18
/-- A lane's position within its port, 0 to 7 (R46). -/
abbrev Pos := Fin 8
/-- A rank of a pavilion, 0 to 3. -/
abbrev RankId := Fin 4
/-- A bank index 16 × rank + 4 × bank group + bank (R249). -/
abbrev BankId := Fin 64
/-- A source of configuration writes and commands: port n is n, the sideband is 16 (R500). -/
abbrev Source := Fin 17
/-- A monitor unit (R559). -/
abbrev UnitId := Fin 48

end Sys2Proof
end

