-- ==== Sys2Proof/Syntax.lean ====
section
/-! DEFINITION. The commands the stack takes from outside and from its own engines: one constructor per row of the table
of operations and events, with the row's operands. What only physics can supply (bits flipped in cells, conversion
results, disagreement counts, fuse verify results) is an operand of the command that observes it. -/
namespace Sys2Proof

/-- A memory request slot (R150): RD, WR, WRP, WRM and the atomics. -/
structure MemReq where
  lcount : BitVec 3
  src : BitVec 4
  hop : BitVec 3
  panic : Bool
  hint : BitVec 2
  tc : BitVec 2
  line : BitVec 42
  tag : BitVec 12
  deriving DecidableEq, Repr

/-- A FENCE slot (R163). -/
structure FenceReq where
  tc : BitVec 2
  hold : Bool
  classes : BitVec 4
  tag : BitVec 12
  deriving DecidableEq, Repr

/-- A CFG_RD or CFG_WR slot (R165); `offset` holds window offset bits [19:2]. -/
structure CfgReq where
  src : BitVec 4
  hop : BitVec 3
  tc : BitVec 2
  isLocal : Bool
  window : BitVec 11
  be : BitVec 4
  offset : BitVec 18
  tag : BitVec 12
  deriving DecidableEq, Repr

/-- A MSG slot (R168). -/
structure MsgReq where
  tc : BitVec 2
  value : BitVec 16
  data : Bool
  mtype : BitVec 4
  deriving DecidableEq, Repr

/-- A response slot (R172). `spec` holds slot bits [79:31], the opcode-specific fields. -/
structure RspSlot where
  hop : BitVec 3
  src : BitVec 4
  status : BitVec 4
  tc : BitVec 2
  tag : BitVec 12
  spec : BitVec 49
  deriving DecidableEq, Repr

/-- A CREDIT slot (R128). -/
structure CreditSlot where
  rsp : BitVec 10
  dat : BitVec 10
  req : BitVec 10
  init : Bool
  tc : BitVec 2
  deriving DecidableEq, Repr

/-- The fields of a training ordered set (R98). It has none by which a partner could ask for loopback or PRBS test in training, as
the table of R67 says it may: no such request reaches the stack. [DEDUCED, notes/assumptions/64.md] -/
structure OrderedSet where
  rates : BitVec 5
  rate : BitVec 3
  seen : Bool
  recov : Bool
  x1 : Bool
  full : Bool
  preset : BitVec 3
  presetV : Bool
  usable : BitVec 8
  kind : BitVec 2
  expect : BitVec 2
  attempt : BitVec 8
  deriving DecidableEq, Repr

/-- The promenade agents (R19). -/
inductive Agent where
  | port (n : PortId)
  | pav (p : PavId)
  | mgmt
  | bulk
  | signpost
  deriving DecidableEq, Repr

/-- The kinds of OTP item that can be marginal (R614 KIND 1 to 6). -/
inductive MarginKind where
  | array | spareRow | directField | redirection | secret | counter
  deriving DecidableEq, Repr

/-- The class of a slice failure (R394, R420). -/
inductive SliceClass where
  | stuck | intermittent | unclassified | verify
  deriving DecidableEq, Repr

/-- A word of the management SRAM whose bits have flipped (R495): one the core reads, one of a command's snapshot, or one of a mailbox's
areas (0 to 127 command, 128 to 255 response), past correction or not. -/
inductive SramWord where
  | core
  | snapshot (m : MbxId) (w : Fin 128)
  | area (m : MbxId) (w : Fin 256) (bad : Bool)
  deriving DecidableEq, Repr

/-- A mismatch met by a slice: its element (0 to 5 March elements, 6 verify), column, word and failing bits, and the bits that fail
in the second read which the checked form makes of the column (R394). -/
structure SliceFail where
  element : Fin 7
  col : Fin 32
  word : Fin 8
  bits : BitVec 72
  again : BitVec 72
  deriving DecidableEq, Repr

/-- What a slice's compares found. `verifySpare` is the verify of the spare that took a failing row's place. -/
inductive SliceResult where
  | passed
  | failed (f : SliceFail) (verifySpare : Bool)
  deriving DecidableEq, Repr

/-- Bits received on the lane at a position, the first first. -/
structure LaneBits where
  pos : Pos
  rx : List Bool
  deriving DecidableEq, Repr

/-- The bytes of an ordered set received on the lane at a position (R98, R99). -/
structure LaneSet where
  pos : Pos
  set : List Byte
  deriving DecidableEq, Repr

/-- The bytes of an ordered set, and when its alignment marker came, in UI (R65, R98). -/
structure TimedSet where
  set : List Byte
  arrival : Nat
  deriving DecidableEq, Repr

/-- What the pulses and verifies of one OTP word showed (R601, R602). -/
inductive FuseOutcome where
  | verified (attempts : Fin 4)
  | failed
  | supplyFell
  deriving DecidableEq, Repr

/-- The bus faults of R665, with whether a write was in progress; the byte refusals of R654; and the end of a write before every byte of
its protocol (R653). -/
inductive SbFaultCause where
  | sdaRoseInAck (partWrite : Bool)
  | startStopInByte (partWrite : Bool)
  | byteRefused
  | writeEndedEarly
  deriving DecidableEq, Repr

/-- The commands of the block: one constructor per row of the table of operations and events. -/
inductive Instr where
  /-- POWER_ON_RESET (R731): All five rails have been within limits for 1 ms; the stack leaves power-on reset and begins the power-on read. -/
  | powerOnReset (strap : BitVec 2)
  /-- SUPPLY_DIP (R732): A rail stays below 92 % of nominal for more than 2 µs, which causes a power-on reset with no drain. -/
  | supplyDip
  /-- OTP_DIRECT_FIELD_READY (R593): The direct field reaches its wires; the variant enables are latched and the oscillator moves to OSC_BOOT. -/
  | otpDirectFieldReady (marginals : List Nat) (tb : BitVec 16)
  /-- OTP_POWER_ON_READ_DONE (R593): The power-on read of the redirection table, counter, secret block and array completes and its values are latched. -/
  | otpPowerOnReadDone (marginals : List (MarginKind × Nat)) (tb : BitVec 16)
  /-- RESET_N_LOW (R737): RESET_N stays low for 125 oscillator samples and a cold reset begins with a reset drain. -/
  | resetNLow
  /-- RESET_DRAIN_DONE (R686): The reset drain ends with every rank in self-refresh, and the cold reset takes effect. -/
  | resetDrainDone
  /-- REFCLK_LOSS (R678): REFCLK is absent for more than 1 µs in Run, Rest or Hold, which starts the reset drain and a cold reset. -/
  | refclkLoss
  /-- REFCLK_RETURN (R678): REFCLK has been present for 100 µs and the stack starts as after RESET_N, with start cause 2. -/
  | refclkReturn
  /-- CORE_PLL_LOCK (R697): The core PLLs lock, DRAM initialisation and the Omuis-R boot begin, and links begin to train. -/
  | corePllLock
  /-- CORE_PLL_LOCK_TIMEOUT (R701): A core PLL has not locked within 50 µs; the stack retries, and after the third failure start-up stops with PHASE 15. -/
  | corePllLockTimeout
  /-- DRAM_INIT_DONE (R697): Core-die power-up and TSV trim loading complete, and the ranks enter FORCED. -/
  | dramInitDone
  /-- FIRMWARE_READY (R522): The firmware sets READY and begins to take pending commands. -/
  | firmwareReady
  /-- CERT_WINDOW_EXPIRY (R700): CERT_WAIT has passed since READY and the certificate window ends. -/
  | certWindowExpiry
  /-- CERT_CHECK_DONE (R697): Start-up step 5 ends: the certificate is checked and applied, the repair map and held repairs are applied, and the map is chosen. -/
  | certCheckDone
  /-- LOGIC_TEST_DONE (R405): The 40 ms scan self-test of the base-die logic ends and its failures are acted on. -/
  | logicTestDone (failPavs : BitVec 32) (failPorts : BitVec 16)
  /-- TSV_TEST_DONE (R406): The TSV, save-buffer and lane tests end, failures are acted on and the ports retrain. -/
  | tsvTestDone (tsvFail : List (PavId × Fin 16)) (saveFail : BitVec 32) (laneFail : BitVec 128)
  /-- STARTUP_TEST_DONE (R410): The start-up test ends and the start-up test done event is raised. -/
  | startupTestDone
  /-- STARTUP_DONE (R705): Start-up step 7 ends: refresh windows are written, the start-up record is written and held requests are dispatched. -/
  | startupDone
  /-- RECOV_WAIT_EXPIRY (R703): No host port is up RECOV_WAIT × 100 ms after step 7, so port 0 retrains with X1 = 1 and selects the recovery link. -/
  | recovWaitExpiry
  /-- LANE_PLL_LOCK_LOST (R55): A port's lane PLL loses lock: its lanes park, the link goes down and the PLL lock lost event is raised. -/
  | lanePllLockLost (n : PortId)
  /-- LANE_PLL_LOCK_HELD (R55): The lane PLL has held lock for 10 µs and the port retrains. -/
  | lanePllLockHeld (n : PortId)
  /-- FIFO_SLIP (R64): The receive FIFO pointers meet: a word is dropped or repeated, the slip is counted and the FIFO slip event is raised. -/
  | fifoSlip (n : PortId) (p : Pos)
  /-- CDR_LOCK_LOST (R84): A lane in active loses CDR lock; the loss is counted and the CDR lock lost event is raised. -/
  | cdrLockLost (n : PortId) (p : Pos)
  /-- GRADING_WINDOW_END (R81): A margin grading window of two to the (20 + WIN) bits ends and the lane is graded from its disagreement count. -/
  | gradingWindowEnd (n : PortId) (p : Pos) (d : Nat)
  /-- LANE_EXIT_LOCK (R67): A lane leaving coast or parked locks and can deliver bits to the link layer. -/
  | laneExitLock (n : PortId) (p : Pos)
  /-- COAST_EXIT_WATCHDOG (R68): A coast exit has not locked within 256 ns; the lane parks and the port retrains. -/
  | coastExitWatchdog (n : PortId) (p : Pos)
  /-- PARKED_EXIT_WATCHDOG (R68): A parked exit has not locked within 100 µs; the lane is unusable until the next training. -/
  | parkedExitWatchdog (n : PortId) (p : Pos)
  /-- SQUELCH_ACTIVITY (R67): Squelch activity on position 0 wakes a parked port, or ends Hold on a host port. -/
  | squelchActivity (n : PortId)
  /-- TEST_STATE_WRITE (R75): A steward write of PRT_LANE_CTRL.TEST_STATE moves lanes to loopback, PRBS test or normal, taking the link down when needed. -/
  | testStateWrite (n : PortId) (p : Pos) (src : Source) (be : BitVec 4) (v : Reg32)
  /-- DELAYED_CHANGE_APPLY (R138): 100 ns after the completion of a write or command that affects its own port, the test state, link control, role or reset is applied. -/
  | delayedChangeApply (n : PortId)
  /-- PRBS_CLR (R80): Writing 1 to PRT_PRBS_CTRL.CLR clears the PRBS counters of the selected lanes. -/
  | prbsClr (n : PortId) (src : Source) (be : BitVec 4) (v : Reg32)
  /-- PRBS_CHECKER_LOCK (R79): The checker has loaded its state and seen 64 error-free bits, and it locks. -/
  | prbsCheckerLock (n : PortId) (b : LaneBits)
  /-- PRBS_RELOCK (R79): A locked checker counts more than 512 errors in 1,024 bits, unlocks and relocks, and the PRBS relock event is raised. -/
  | prbsRelock (n : PortId) (p : Pos) (bits errs : Nat)
  /-- INJECT_WRITE (R83): A write of PRT_INJ_CTRL.MODE arms single, periodic or burst error injection on the selected lanes. -/
  | injectWrite (n : PortId) (src : Source) (be : BitVec 4) (v : Reg32)
  /-- PERIODIC_INJECT (R83): 2^P transmitted bits have passed in periodic mode and one bit is flipped. -/
  | periodicInject (n : PortId) (p : Pos)
  /-- PRBS_BITS_LO_READ (R80): A read of PRT_LANE_PRBS_BITS_LO snapshots the high half for the next read. -/
  | prbsBitsLoRead (n : PortId) (p : Pos) (src : Source) (bits errs : Nat)
  /-- TS1 (R99): Eight identical TS1 ordered sets are received on a lane and the training or recovery state acts on them. -/
  | ts1 (n : PortId) (p : Pos) (set : List Byte)
  /-- TS2 (R99): Eight identical TS2 ordered sets are received and T_CONFIG or T_VERIFY acts on them. -/
  | ts2 (n : PortId) (p : Pos) (r : TimedSet)
  /-- EIOS (R99): Two EIOS ordered sets are received and the lane enters electrical idle. -/
  | eios (n : PortId) (r : LaneSet)
  /-- EXIT (R136): Two EXIT ordered sets are received during a coast exit. -/
  | exitSets (n : PortId) (r : LaneSet)
  /-- SDS (R101): Two SDS ordered sets are received on every active lane and the link reaches LINK_UP. -/
  | sds (n : PortId) (r : LaneSet)
  /-- T_LOCK_TIMEOUT (R101): T_LOCK times out after 100 µs. -/
  | tLockTimeout (n : PortId)
  /-- T_CONFIG_TIMEOUT (R101): T_CONFIG times out after 50 µs and a new attempt follows 1 ms later. -/
  | tConfigTimeout (n : PortId)
  /-- T_RATE_TIMEOUT (R102): T_RATE times out after 200 µs and training falls back one rate. -/
  | tRateTimeout (n : PortId)
  /-- T_VERIFY_TIMEOUT (R102): T_VERIFY times out after 50 µs and training falls back one rate. -/
  | tVerifyTimeout (n : PortId)
  /-- T_START_TIMEOUT (R101): T_START times out after 10 µs and a new attempt follows 1 ms later. -/
  | tStartTimeout (n : PortId)
  /-- TRAINING_RETRY_TIMER (R101): 1 ms has passed after a failed attempt and training starts again. -/
  | trainingRetryTimer (n : PortId)
  /-- PRESET_MEASURE_END (R104): The 5 µs measurement of a transmitter preset ends, and the next preset or the best one is requested. -/
  | presetMeasureEnd (n : PortId) (p : Pos) (d : Nat)
  /-- FLIT_RECEIVE (R113): A flit is received whole and is checked, accepted, dropped or answered with a replay request. -/
  | flitReceive (n : PortId) (lanes : List (List Bool))
  /-- REPLAY (R119): A REPLAY flit is received and the sender retransmits its held flits from SEQ. -/
  | replay (n : PortId) (seq : BitVec 10)
  /-- ACK (R116): An ACK slot is received and the acknowledged flits are freed from the retry buffer. -/
  | ack (n : PortId) (seq : BitVec 10)
  /-- ACK_TIMER (R115): 100 ns have passed since the first unacknowledged accepted flit, and an ACK is sent. -/
  | ackTimer (n : PortId)
  /-- REPLAY_REPEAT_TIMER (R118): 1 µs has passed without flit E being accepted, and the REPLAY may be sent again. -/
  | replayRepeatTimer (n : PortId)
  /-- REPLAY_TIMER (R120): The 1 µs replay timer expires and every held flit is replayed. -/
  | replayTimer (n : PortId)
  /-- RECOVERY_FALLBACK_TIMER (R123): Recovery has not reached SDS within 20 µs and full training with RECOV = 1 follows. -/
  | recoveryFallbackTimer (n : PortId)
  /-- RECOVERY_TIMEOUT (R123): Recovery has not reached LINK_UP within 2 ms and the link goes down. -/
  | recoveryTimeout (n : PortId)
  /-- FULL_TRAINING_TIMER (R124): 4 µs have passed since an end began sending TS1 with FULL = 1, and it goes to T_LOCK. -/
  | fullTrainingTimer (n : PortId)
  /-- CREDIT (R128): A CREDIT slot is received and its credits are added, or the initial grant is taken. -/
  | credit (n : PortId) (c : CreditSlot)
  /-- CREDIT_RETURN_TIMER (R131): 100 ns have passed since a credit became pending and a CREDIT slot is sent. -/
  | creditReturnTimer (n : PortId) (tc : BitVec 2)
  /-- CREDIT_STALL_TIMER (R132): A pool has waited 1 ms with no credit returned and the credit stall event is raised. -/
  | creditStallTimer (n : PortId) (pool : Fin 3) (tc : BitVec 2)
  /-- TURN (R133): A TURN slot is received and, on the cadence port, it is a turn marker. -/
  | turn (n : PortId) (lo : BitVec 16) (late : BitVec 12) (age : Nat)
  /-- POWER (R135): A POWER request, accept or decline slot is received and the power handshake advances. -/
  | power (n : PortId) (kind target : BitVec 2)
  /-- COAST_IDLE_TIMER (R135): In Rest the port has been idle for 64 ns × 2^COAST_IDLE, and the stack requests coast. -/
  | coastIdleTimer (n : PortId)
  /-- RETRAIN (R125): A RETRAIN slot is received and the port enters recovery, with WIDEN when set. -/
  | retrain (n : PortId) (widen : Bool)
  /-- LINK_DIS_WRITE (R138): A write of PRT_LINK_CTRL.LINK_DIS takes the link down and parks it, or lets it retrain. -/
  | linkDisWrite (n : PortId) (src : Source) (be : BitVec 4) (v : Reg32)
  /-- RETRAIN_WRITE (R138): Writing 1 to PRT_LINK_CTRL.RETRAIN starts recovery. -/
  | retrainWrite (n : PortId) (src : Source) (be : BitVec 4) (v : Reg32)
  /-- WIDEN_WRITE (R138): Writing 1 to PRT_LINK_CTRL.WIDEN starts recovery with full training on every position. -/
  | widenWrite (n : PortId) (src : Source) (be : BitVec 4) (v : Reg32)
  /-- RD (R153): A read request is checked and dispatched, forwarded or refused. -/
  | rd (n : PortId) (r : MemReq)
  /-- WR (R154): A write request is checked and its lines are dispatched with fresh check bits. -/
  | wr (n : PortId) (r : MemReq) (data : List Line)
  /-- WRP (R155): A poison write request stores the poison marker in its lines. -/
  | wrp (n : PortId) (r : MemReq)
  /-- WRM (R156): A masked write request merges the enabled bytes into one line. -/
  | wrm (n : PortId) (r : MemReq) (data : List Line)
  /-- AT_SWAP (R159): An atomic swap request is executed as a read-modify-write of one word. -/
  | atSwap (n : PortId) (r : MemReq) (data : List Line)
  /-- AT_CAS (R159): An atomic compare-and-swap request is executed on one word. -/
  | atCas (n : PortId) (r : MemReq) (data : List Line)
  /-- AT_ADD (R159): An atomic add request is executed on one word. -/
  | atAdd (n : PortId) (r : MemReq) (data : List Line)
  /-- AT_AND (R159): An atomic AND request is executed on one word. -/
  | atAnd (n : PortId) (r : MemReq) (data : List Line)
  /-- AT_OR (R159): An atomic OR request is executed on one word. -/
  | atOr (n : PortId) (r : MemReq) (data : List Line)
  /-- AT_XOR (R159): An atomic XOR request is executed on one word. -/
  | atXor (n : PortId) (r : MemReq) (data : List Line)
  /-- AT_SMAX (R159): An atomic signed maximum request is executed on one word. -/
  | atSmax (n : PortId) (r : MemReq) (data : List Line)
  /-- AT_SMIN (R159): An atomic signed minimum request is executed on one word. -/
  | atSmin (n : PortId) (r : MemReq) (data : List Line)
  /-- AT_UMAX (R159): An atomic unsigned maximum request is executed on one word. -/
  | atUmax (n : PortId) (r : MemReq) (data : List Line)
  /-- AT_UMIN (R159): An atomic unsigned minimum request is executed on one word. -/
  | atUmin (n : PortId) (r : MemReq) (data : List Line)
  /-- FENCE (R164): A FENCE request waits for the final responses of earlier requests in its classes, and holds later ones when HOLD = 1. -/
  | fence (n : PortId) (r : FenceReq)
  /-- CFG_RD (R167): A configuration read is served in hardware, or forwarded, and answered with CFG_DATA. -/
  | cfgRd (n : PortId) (r : CfgReq)
  /-- CFG_WR (R167): A configuration write applies its enabled bytes under their access types, with privilege judged. -/
  | cfgWr (n : PortId) (r : CfgReq) (v : Reg32)
  /-- DOORBELL (R170): A DOORBELL message in TC3 on a host port writes its value to the doorbell of the port's mailbox. -/
  | doorbell (n : PortId) (v : BitVec 16)
  /-- MSG (R170): A message other than an accepted DOORBELL is discarded, counted and reported. -/
  | msg (n : PortId) (r : MsgReq)
  /-- RESERVED_REQUEST (R754): A request slot with a reserved opcode consumes a credit and completes MALFORMED. -/
  | reservedRequest (n : PortId) (op : BitVec 6) (tc : BitVec 2) (tag : BitVec 12)
  /-- RD_DATA (R216): A RD_DATA response received on a peer port is relayed to its context's ingress port. -/
  | rdData (n : PortId) (r : RspSlot) (data : List Line)
  /-- CMP (R216): A CMP response received on a peer port is relayed to its ingress port. -/
  | cmp (n : PortId) (r : RspSlot)
  /-- AT_DATA (R216): An AT_DATA response received on a peer port is relayed to its ingress port. -/
  | atData (n : PortId) (r : RspSlot) (data : List Line)
  /-- CFG_DATA (R216): A CFG_DATA response received on a peer port is relayed to its ingress port. -/
  | cfgData (n : PortId) (r : RspSlot)
  /-- RESERVED_RESPONSE (R175): A response slot with a reserved opcode on a peer port is discarded and counted. -/
  | reservedResponse (n : PortId) (op : BitVec 6)
  /-- RESPONSE_SEND (R179): A ready response is sent with the partner's RSP and DAT credits, and a final response frees its tag. -/
  | responseSend (n : PortId)
  /-- PROMENADE_GRANT (R22): A destination arbiter grants a ready request that its destination can admit. -/
  | promenadeGrant (dest : Agent)
  /-- ARBITER_AGE_LIMIT (R23): A request has waited 64 fabric cycles at an arbiter and is promoted ahead of every class. -/
  | arbiterAgeLimit (id : Nat)
  /-- READ_DATA_RETURN (R188): Read data leave the ECC check stage, are decoded and corrected, and a response becomes ready. -/
  | readDataReturn (p : PavId) (flips : RawLine)
  /-- RMW_COMPLETE (R266): A read-modify-write reaches its encode step, its line enters the write buffer, and its AT_DATA or CMP becomes ready. -/
  | rmwComplete (p : PavId)
  /-- FORWARD_HOLD_TIMEOUT (R230): A request has waited 2^HOLD_TO µs for an egress credit or context and completes with PATH_DOWN. -/
  | forwardHoldTimeout (n : PortId)
  /-- CONTEXT_TIMEOUT (R232): A context has waited 2^CTX_TO µs for its response; the request completes PATH_DOWN and the context is quarantined. -/
  | contextTimeout (n : PortId) (ctx : BitVec 12)
  /-- ROLE_WRITE (R204): A write of PRT_POOL_CTRL.ROLE changes the port role and takes the link down. -/
  | roleWrite (n : PortId) (src : Source) (be : BitVec 4) (v : Reg32)
  /-- WINDOW_BASE_WRITE (R206): A write of GLB_POOL_WINDOW.BASE sets the window base until the lock. -/
  | windowBaseWrite (src : Source) (be : BitVec 4) (v : Reg32)
  /-- SP_LO_WRITE (R209): A write to GLB_SP_LO_e stages the low half of a signpost entry. -/
  | spLoWrite (e : Fin 32) (src : Source) (be : BitVec 4) (v : Reg32)
  /-- SP_HI_WRITE (R209): A write to GLB_SP_HI_e commits the signpost entry, or refuses it as MALFORMED. -/
  | spHiWrite (e : Fin 32) (src : Source) (be : BitVec 4) (v : Reg32)
  /-- PORT_ROLE_SET (R236): Command 0x0210: sets a port's role. -/
  | portRoleSet (m : MbxId) (payload : List Byte)
  /-- WINDOW_SET (R236): Command 0x0211: sets the window base. -/
  | windowSet (m : MbxId) (payload : List Byte)
  /-- SIGNPOST_SET (R236): Command 0x0212: writes a signpost entry. -/
  | signpostSet (m : MbxId) (payload : List Byte)
  /-- POOL_STATUS (R236): Command 0x0213: returns the window, the peer ports and the signpost table. -/
  | poolStatus (m : MbxId) (payload : List Byte)
  /-- SCHEDULER_ISSUE (R251): In a pavilion cycle the scheduler issues at most one row and one column command by priority. -/
  | schedulerIssue (p : PavId)
  /-- AGED_1 (R261): A request's age exceeds the starvation limit and it becomes aged-1. -/
  | aged1 (p : PavId) (id : Nat)
  /-- AGED_2 (R261): A request's age exceeds twice the limit, it becomes aged-2, and the starvation event may be raised. -/
  | aged2 (p : PavId) (id : Nat)
  /-- ACCEPTANCE_STALL_TIMER (R271): A line has waited 1 µs without a grant and the acceptance stall event is raised. -/
  | acceptanceStallTimer (p : PavId)
  /-- THROTTLE_WINDOW_BOUNDARY (R272): A 1,024-cycle throttle window begins, a pause is applied, and level or pause changes take effect. -/
  | throttleWindowBoundary (p : PavId)
  /-- ADAPTIVE_CLOSE_TIMER (R253): An adaptive-policy row has been idle OPEN_IDLE × 4 cycles and is precharged. -/
  | adaptiveCloseTimer (p : PavId) (b : BankId)
  /-- POWER_DOWN_ENTRY (R274): In Rest a rank has been idle PD_IDLE cycles and enters power-down. -/
  | powerDownEntry (p : PavId) (r : RankId)
  /-- MASK_LO_WRITE (R245): A write to a map mask LO register is staged. -/
  | maskLoWrite (partitioned : Bool) (m : Fin 11) (src : Source) (be : BitVec 4) (v : Reg32)
  /-- MASK_HI_WRITE (R245): A write to a map mask HI register commits the mask, or refuses it as MALFORMED. -/
  | maskHiWrite (partitioned : Bool) (m : Fin 11) (src : Source) (be : BitVec 4) (v : Reg32)
  /-- MAP_SEL_WRITE (R37): A write of GLB_MAP_CTRL.SEL requests a map before the lock. -/
  | mapSelWrite (src : Source) (be : BitVec 4) (v : Reg32)
  /-- MAP_SET (R248): Command 0x0220: selects the map and loads mask sets. -/
  | mapSet (m : MbxId) (payload : List Byte)
  /-- MAP_STATUS (R248): Command 0x0221: returns the map control and masks. -/
  | mapStatus (m : MbxId) (payload : List Byte)
  /-- MAP_TRANSLATE (R248): Command 0x0222: translates a local address to its location. -/
  | mapTranslate (m : MbxId) (payload : List Byte)
  /-- ANGLE_STEP (R293): An angle step is delivered to the pavilions, ports and management agent. -/
  | angleStep
  /-- TURN_BOUNDARY (R291): A turn ends after LEN with no marker and the turn number increases. -/
  | turnBoundary
  /-- MARKER_MISS_EXPIRY (R298): No marker by t0 + 1.02 × LEN: the turn ends without a marker and, after two such turns, SEEK follows. -/
  | markerMissExpiry
  /-- CAD_TURN_EDGE (R295): A filtered rising edge on CAD_TURN is a turn marker. -/
  | cadTurnEdge (age : Nat)
  /-- CAD_CTRL_WRITE (R300): A write of CAD_CTRL.SRC or PORT with a new value changes the source and enters SEEK. -/
  | cadCtrlWrite (src : Source) (be : BitVec 4) (v : Reg32)
  /-- CAD_NOW_LO_READ (R330): A read of CAD_NOW_LO snapshots CAD_NOW_HI. -/
  | cadNowLoRead (src : Source)
  /-- REFRESH_ACCRUAL (R307): ACC reaches 9,375 and a rank's DEBT increases by one. -/
  | refreshAccrual (p : PavId) (r : RankId)
  /-- RATE_CHANGE_APPLY (R311): A pavilion applies a declared refresh-rate and throttle change 20 ns × p after the declaration. -/
  | rateChangeApply (p : PavId)
  /-- SELF_REFRESH_EXIT (R309): tXS has elapsed after self-refresh exit and the rank enters FORCED with DEBT 1. -/
  | selfRefreshExit (p : PavId) (r : RankId)
  /-- NEIGHBOUR_ESCALATION (R321): A neighbour refresh entry reaches 64 µs of age and escalates to level 2. -/
  | neighbourEscalation (p : PavId)
  /-- CAD_SET (R324): Command 0x0301: sets the cadence source. -/
  | cadSet (m : MbxId) (payload : List Byte)
  /-- CAD_STATUS (R324): Command 0x0302: returns the cadence registers. -/
  | cadStatus (m : MbxId) (payload : List Byte)
  /-- SLOT_SET (R324): Command 0x0303: writes an angle slot. -/
  | slotSet (m : MbxId) (payload : List Byte)
  /-- REF_WINDOWS_SET (R324): Command 0x0310: writes refresh windows. -/
  | refWindowsSet (m : MbxId) (payload : List Byte)
  /-- REF_SPREAD (R324): Command 0x0311: writes an evenly spread window set. -/
  | refSpread (m : MbxId) (payload : List Byte)
  /-- REF_STATUS (R324): Command 0x0312: returns a pavilion's refresh state. -/
  | refStatus (m : MbxId) (payload : List Byte)
  /-- NEIGH_SET (R324): Command 0x0320: configures neighbour refresh. -/
  | neighSet (m : MbxId) (payload : List Byte)
  /-- SPARING_COPY_DONE (R369): A runtime sparing copy finishes, the substitution switches and the row spared event is raised. -/
  | sparingCopyDone (p : PavId) (flips : List RawLine)
  /-- REPEAT_ENTRY_EXPIRY (R357): A repeat-corrector entry has had no correction for 2^EXPIRE turns and is freed. -/
  | repeatEntryExpiry (p : PavId)
  /-- SCRUB_STEP_DUE (R359): INTERVAL + 1 turns have passed and a scrub step falls due. -/
  | scrubStepDue (p : PavId)
  /-- SCRUB_ESCALATION (R361): A due step has not started in four turns and escalates to level 4. -/
  | scrubEscalation (p : PavId)
  /-- BULK_LINE_ISSUE (R351): The bulk engine issues lines of a FILL or COPY to the pavilions. -/
  | bulkLineIssue
  /-- BULK_COMPLETE (R349): Every line of a FILL or COPY has entered its write buffer, and the command completes. -/
  | bulkComplete
  /-- ECC_LOG_3_READ (R375): A read of PAV_ECC_LOG_3 removes the head error record. -/
  | eccLog3Read (src : Source) (p : PavId)
  /-- REPEAT_EN_WRITE (R380): Writing 0 to PAV_ECC_CTRL.REPEAT_EN frees every repeat-corrector entry. -/
  | repeatEnWrite (p : PavId) (src : Source) (be : BitVec 4) (v : Reg32)
  /-- ECC_STATUS (R376): Command 0x0401: returns a pavilion's ECC state. -/
  | eccStatus (m : MbxId) (payload : List Byte)
  /-- ECC_CLEAR (R756): Command 0x0402: clears counters, bucket, repeat corrector or records. -/
  | eccClear (m : MbxId) (payload : List Byte)
  /-- SCRUB_REGIONS (R376): Command 0x0410: changes the scrub region bitmap. -/
  | scrubRegions (m : MbxId) (payload : List Byte)
  /-- REPAIR_MAP_READ (R376): Command 0x0420: returns repair-map entries. -/
  | repairMapRead (m : MbxId) (payload : List Byte)
  /-- SPARE_LIST (R376): Command 0x0421: lists runtime spares. -/
  | spareList (m : MbxId) (payload : List Byte)
  /-- SPARE_COMMIT (R607): Command 0x0422: writes runtime spares to the repair map. -/
  | spareCommit (m : MbxId) (payload : List Byte)
  /-- ROW_SPARE (R757): Command 0x0423: spares a row on request. -/
  | rowSpare (m : MbxId) (payload : List Byte)
  /-- PAV_RETIRE (R373): Command 0x0424: retires a pavilion. -/
  | pavRetire (m : MbxId) (payload : List Byte)
  /-- FILL (R349): Command 0x0D01: fills a range with a pattern. -/
  | fill (m : MbxId) (payload : List Byte)
  /-- COPY (R350): Command 0x0D02: copies a range. -/
  | copy (m : MbxId) (payload : List Byte)
  /-- BULK_STATUS (R377): Command 0x0D03: returns the bulk engine state. -/
  | bulkStatus (m : MbxId) (payload : List Byte)
  /-- BULK_ABORT (R351): Command 0x0D04: aborts the running bulk command. -/
  | bulkAbort (m : MbxId) (payload : List Byte)
  /-- SLICE_START (R396): A slice claims its bank and begins its save phase. -/
  | sliceStart (p : PavId)
  /-- SLICE_END (R391): A slice's verify phase ends and its bank is released. -/
  | sliceEnd (p : PavId) (result : SliceResult)
  /-- SLICE_WATCHDOG (R400): A slice has held its bank 8,192 cycles and its watchdog fires. -/
  | sliceWatchdog (p : PavId)
  /-- SWEEP_SLICE_DUE (R404): A sweep interval of INTERVAL + 1 turns begins and a slice falls due at the sweep position. -/
  | sweepSliceDue
  /-- PARKING_TEST_DONE (R411): The parking test's slices end and the certificate is built for signing. -/
  | parkingTestDone (u : Unit)
  /-- BIST_FAIL_1_READ (R430): A read of PAV_BIST_FAIL_1 clears VALID. -/
  | bistFail1Read (src : Source) (p : PavId)
  /-- BIST_STATUS (R419): Command 0x0501: returns BIST state. -/
  | bistStatus (m : MbxId) (payload : List Byte)
  /-- SWEEP_START (R419): Command 0x0502: starts a background sweep. -/
  | sweepStart (m : MbxId) (payload : List Byte)
  /-- BIST_STOP (R419): Command 0x0503: stops sweeps and slices. -/
  | bistStop (m : MbxId) (payload : List Byte)
  /-- SLICE_ROW (R419): Command 0x0504: tests one row. -/
  | sliceRow (m : MbxId) (payload : List Byte)
  /-- PARK_START (R411): Command 0x0510: runs the parking test. -/
  | parkStart (m : MbxId) (payload : List Byte)
  /-- CERT_READ (R419): Command 0x0511: reads certificate bytes. -/
  | certRead (m : MbxId) (payload : List Byte)
  /-- CERT_LOAD (R419): Command 0x0512: loads certificate bytes. -/
  | certLoad (m : MbxId) (payload : List Byte)
  /-- CERT_SUBMIT (R410): Command 0x0513: submits a certificate and ends the window. -/
  | certSubmit (m : MbxId) (payload : List Byte)
  /-- ARRAY_TEST (R418): Command 0x0520: runs a destructive March test. -/
  | arrayTest (m : MbxId) (payload : List Byte)
  /-- ARRAY_RAW_READ (R418): Command 0x0521: reads raw words. -/
  | arrayRawRead (m : MbxId) (payload : List Byte)
  /-- ARRAY_RAW_WRITE (R418): Command 0x0522: writes raw words. -/
  | arrayRawWrite (m : MbxId) (payload : List Byte)
  /-- SENSOR_SLOT_END (R432): A 4 µs conversion slot ends and its reading takes effect. -/
  | sensorSlotEnd (conv : Option (BitVec 16))
  /-- HALT_DRAIN_DONE (R315): The critical-halt drain ends and ranks pay debt and enter self-refresh. -/
  | haltDrainDone
  /-- HALT_CLEAR_WRITE (R444): Writing 1 to THM_HALT.CLEAR requests the halt clear. -/
  | haltClearWrite (src : Source) (be : BitVec 4) (v : Reg32)
  /-- HOST_THR_WRITE (R441): A write of THM_CTRL.HOST_THR sets the host throttle level. -/
  | hostThrWrite (src : Source) (be : BitVec 4) (v : Reg32)
  /-- THM_PEAK_READ (R455): A read of THM_PEAK returns the peaks and restarts them. -/
  | thmPeakRead (src : Source)
  /-- THM_STATUS (R450): Command 0x0601: returns thermal state. -/
  | thmStatus (m : MbxId) (payload : List Byte)
  /-- THROTTLE_SET (R441): Command 0x0602: sets the host throttle level. -/
  | throttleSet (m : MbxId) (payload : List Byte)
  /-- HALT_CLEAR (R444): Command 0x0603: clears a latched critical halt. -/
  | haltClear (m : MbxId) (payload : List Byte)
  /-- ALERT_SET (R450): Command 0x0604: configures an alert. -/
  | alertSet (m : MbxId) (payload : List Byte)
  /-- EXT_SET (R450): Command 0x0605: configures external inputs. -/
  | extSet (m : MbxId) (payload : List Byte)
  /-- EYE_POINT_END (R468): An eye-scan point of 2^DWELL bits ends and the next is taken, or the scan ends. -/
  | eyePointEnd (n : PortId) (ds : List (Pos × Nat))
  /-- TSV_STEP_END (R475): A TSV step completes and its trims are set, or margin low is reported. -/
  | tsvStepEnd (p : PavId) (passes : List (BitVec 64))
  /-- TSV_WATCHDOG (R476): A TSV step has held 8,192 cycles and aborts. -/
  | tsvWatchdog (p : PavId)
  /-- TSV_AUTO_DUE (R477): AUTO × 1,024 turns have passed and an automatic TSV calibration begins. -/
  | tsvAutoDue (p : PavId)
  /-- OSC_LEARN_PERIOD_END (R480): A 16-round oscillator measurement ends and the table point may move. -/
  | oscLearnPeriodEnd (count : Nat)
  /-- OSC_LEARN_WRITE (R480): A write of GLB_CAL_CTRL.OSC_LEARN starts or stops oscillator learning. -/
  | oscLearnWrite (src : Source) (be : BitVec 4) (v : Reg32)
  /-- CAL_STATUS (R482): Command 0x0701: returns calibration state. -/
  | calStatus (m : MbxId) (payload : List Byte)
  /-- LANE_RETUNE (R465): Command 0x0702: retunes a port. -/
  | laneRetune (m : MbxId) (payload : List Byte)
  /-- EYE_SCAN (R468): Command 0x0703: scans lane eyes. -/
  | eyeScan (m : MbxId) (payload : List Byte)
  /-- TSV_CAL (R472): Command 0x0704: calibrates TSV timing. -/
  | tsvCal (m : MbxId) (payload : List Byte)
  /-- SENSOR_CAL (R478): Command 0x0705: calibrates sensor offsets. -/
  | sensorCal (m : MbxId) (payload : List Byte)
  /-- OSC_LEARN (R480): Command 0x0706: starts or stops oscillator learning. -/
  | oscLearn (m : MbxId) (payload : List Byte)
  /-- CAL_ABORT (R482): Command 0x0707: aborts a calibration. -/
  | calAbort (m : MbxId) (payload : List Byte)
  /-- FIRMWARE_WATCHDOG (R496): The firmware has not restarted the watchdog for WDT_MS and a management reset follows. -/
  | firmwareWatchdog
  /-- CORE_RESET_WRITE (R497): A steward write of 1 to GLB_FW_CTRL.CORE_RESET performs a management reset. -/
  | coreResetWrite (src : Source) (be : BitVec 4) (v : Reg32)
  /-- GO (R512): A doorbell GO snapshots the command area and makes the command pending, or records an overrun. -/
  | goDoorbell (m : MbxId) (src : Source)
  /-- ABORT (R511): A doorbell ABORT ends a pending command or starts aborting a running one. -/
  | abortDoorbell (m : MbxId) (src : Source)
  /-- OVERRUN_CLEAR (R541): The owner writes 1 to MBX_STAT.OVERRUN and clears it. -/
  | overrunClear (m : MbxId) (src : Source) (be : BitVec 4) (v : Reg32)
  /-- COMMAND_TAKEN (R514): The firmware takes a pending command round-robin, checks it and runs it. -/
  | commandTaken
  /-- COMMAND_COMPLETE (R515): A command's work ends, the response is written, DONE is set, and MBX_DONE or attention follows. -/
  | commandComplete (m : MbxId)
  /-- COMMAND_TIMER (R517): A command's timer expires and it completes or aborts with timeout. -/
  | commandTimer (m : MbxId)
  /-- STEWARD_WRITE (R504): A write of GLB_STEWARD changes MASK and LOCK, or is refused. -/
  | stewardWrite (src : Source) (be : BitVec 4) (v : Reg32)
  /-- IMAGE_VERIFY_DONE (R627): Verification of a staged image ends and the core restarts into it or FW_ACTIVATE fails. -/
  | imageVerifyDone
  /-- ID_GET (R525): Command 0x0101: returns identity. -/
  | idGet (m : MbxId) (payload : List Byte)
  /-- ECHO (R525): Command 0x0102: echoes its payload. -/
  | echo (m : MbxId) (payload : List Byte)
  /-- STARTUP_RECORD_READ (R709): Command 0x0103: returns the start-up record. -/
  | startupRecordRead (m : MbxId) (payload : List Byte)
  /-- STEWARD_STATUS (R525): Command 0x0201: returns privilege state. -/
  | stewardStatus (m : MbxId) (payload : List Byte)
  /-- STEWARD_SET (R504): Command 0x0202: sets the steward mask and lock. -/
  | stewardSet (m : MbxId) (payload : List Byte)
  /-- FW_LOAD (R524): Command 0x0A01: writes image bytes to staging. -/
  | fwLoad (m : MbxId) (payload : List Byte)
  /-- FW_ACTIVATE (R522): Command 0x0A02: starts firmware switchover. -/
  | fwActivate (m : MbxId) (payload : List Byte)
  /-- FW_STATUS (R524): Command 0x0A03: returns firmware state. -/
  | fwStatus (m : MbxId) (payload : List Byte)
  /-- EVENT_RAISE (R546): A raising reaches the event logic and its latch captures it or merges it. -/
  | eventRaise (ev : Fin 1024) (detail : Byte)
  /-- EVENT_RECORD_WRITE (R548): The event logic writes one captured record to the ring. -/
  | eventRecordWrite
  /-- EVENT_MESSAGE_SEND (R556): Up to four stream records are sent in an EVENT message when credit is held. -/
  | eventMessageSend (n : PortId)
  /-- TELEMETRY_SEND (R568): A queued TELEMETRY message is sent. -/
  | telemetrySend (n : PortId)
  /-- EVT_PORTS_WRITE (R555): Setting a bit of EVT_ROUTE.PORTS sets that port's send position to EVT_SEQ. -/
  | evtPortsWrite (src : Source) (be : BitVec 4) (v : Reg32)
  /-- EVT_SEEN_CLEAR (R548): Writing 1 to an EVT_SEEN bit clears it. -/
  | evtSeenClear (i : Fin 32) (src : Source) (be : BitVec 4) (v : Reg32)
  /-- MONITOR_WINDOW_END (R564): A monitor window ends and its accumulators are copied into the snapshot. -/
  | monitorWindowEnd (u : UnitId)
  /-- MON_RESTART_WRITE (R566): Writing 1 to MON_CTRL.RESTART discards the current window. -/
  | monRestartWrite (u : UnitId) (src : Source) (be : BitVec 4) (v : Reg32)
  /-- MON_SUM_LO_READ (R565): A read of MON_SUM_LO or MON_LVL_SUM_LO snapshots the HI register. -/
  | monSumLoRead (src : Source) (u : UnitId) (lvl : Bool)
  /-- MON_CONFIG (R571): Command 0x0801: configures monitor units. -/
  | monConfig (m : MbxId) (payload : List Byte)
  /-- MON_READ (R571): Command 0x0802: returns a snapshot. -/
  | monRead (m : MbxId) (payload : List Byte)
  /-- MON_SNAPSHOT (R571): Command 0x0803: ends windows at the next boundary. -/
  | monSnapshot (m : MbxId) (payload : List Byte)
  /-- TELEMETRY_SET (R571): Command 0x0804: configures telemetry. -/
  | telemetrySet (m : MbxId) (payload : List Byte)
  /-- EVT_CONFIG (R571): Command 0x0C01: sets levels and routing. -/
  | evtConfig (m : MbxId) (payload : List Byte)
  /-- EVT_READ (R571): Command 0x0C02: returns ring records. -/
  | evtRead (m : MbxId) (payload : List Byte)
  /-- EVT_STATUS (R571): Command 0x0C03: returns event state. -/
  | evtStatus (m : MbxId) (payload : List Byte)
  /-- EVT_CLEAR (R571): Command 0x0C04: clears SEEN, MERGED or LOST. -/
  | evtClear (m : MbxId) (payload : List Byte)
  /-- OTP_WORD_DONE (R601): A programming pulse and verify of a word end, and the next attempt or word follows, or the sequence stops. -/
  | otpWordDone (o : FuseOutcome)
  /-- VDD_OTPP_CHANGE (R733): VDD_OTPP crosses its thresholds and OTP_STAT.SUPPLY changes. -/
  | vddOtppChange (present : Bool)
  /-- OTP_READ (R608): Command 0x0901: reads OTP words. -/
  | otpRead (m : MbxId) (payload : List Byte)
  /-- OTP_PROGRAM (R600): Command 0x0902: programs OTP words. -/
  | otpProgram (m : MbxId) (payload : List Byte)
  /-- OTP_LOCK (R604): Command 0x0903: locks a region. -/
  | otpLock (m : MbxId) (payload : List Byte)
  /-- OTP_LOCK_FORCE (R605): Command 0x0904: seals a region with a token. -/
  | otpLockForce (m : MbxId) (payload : List Byte)
  /-- REPAIR_OTP (R606): Command 0x0905: repairs a marginal word or bit. -/
  | repairOtp (m : MbxId) (payload : List Byte)
  /-- OTP_STATUS (R608): Command 0x0906: returns OTP state. -/
  | otpStatus (m : MbxId) (payload : List Byte)
  /-- OTP_JOURNAL_READ (R603): Command 0x0907: returns journal entries. -/
  | otpJournalRead (m : MbxId) (payload : List Byte)
  /-- DEVICE_KEY_DERIVED (R621): The signing engine derives the device public key after the power-on read. -/
  | deviceKeyDerived
  /-- SIGNING_DONE (R618): The signing engine returns a signature or a verification result. -/
  | signingDone
  /-- ID_CERT_READ (R622): Command 0x0A10: returns a signed identity certificate. -/
  | idCertRead (m : MbxId) (payload : List Byte)
  /-- ATTEST (R623): Command 0x0A11: returns a signed attestation report. -/
  | attest (m : MbxId) (payload : List Byte)
  /-- KEY_ENROL (R631): Command 0x0A12: enrols the customer key. -/
  | keyEnrol (m : MbxId) (payload : List Byte)
  /-- WORKSHOP_ENTER (R635): Command 0x0A20: enters workshop mode. -/
  | workshopEnter (m : MbxId) (payload : List Byte)
  /-- WORKSHOP_EXIT (R638): Command 0x0A21: leaves workshop mode. -/
  | workshopExit (m : MbxId) (payload : List Byte)
  /-- SB_STATUS_BYTE (R649): A Receive Byte returns byte 0 of the STATUS block. -/
  | sbStatusByte
  /-- SB_STATUS (R650): Sideband code 0x01 returns the STATUS block. -/
  | sbStatus
  /-- SB_WIN_PTR (R649): Sideband code 0x10 sets the window pointer. -/
  | sbWinPtr (ptr : BitVec 24) (pec : Option Byte)
  /-- SB_WIN_READ (R651): Sideband code 0x11 reads a register and advances the pointer. -/
  | sbWinRead
  /-- SB_WIN_WRITE (R651): Sideband code 0x12 writes a register and advances the pointer. -/
  | sbWinWrite (bytes : List Byte) (pec : Option Byte)
  /-- SB_MBX_WRITE (R652): Sideband code 0x20 writes a mailbox command area. -/
  | sbMbxWrite (bytes : List Byte) (pec : Option Byte)
  /-- SB_MBX_GO (R652): Sideband code 0x21 rings GO or ABORT on MBX16 or MBX17. -/
  | sbMbxGo (v : Byte) (pec : Option Byte)
  /-- SB_MBX_READ (R649): Sideband code 0x22 reads response bytes and advances the pointer. -/
  | sbMbxRead
  /-- SB_MBX_PTR (R649): Sideband code 0x23 sets the mailbox pointer. -/
  | sbMbxPtr (v : BitVec 16) (pec : Option Byte)
  /-- SB_MBX_STAT (R649): Sideband code 0x24 returns MBX_STAT. -/
  | sbMbxStat
  /-- SB_QUICK_COMMAND (R649): A Quick Command or a write ending after its code changes nothing except as a wake. -/
  | sbQuickCommand (code : Option Byte)
  /-- SB_STRETCH_LIMIT (R656): Data are not ready after 20 µs of stretching, so SCL is released and CODE 3 is stored. -/
  | sbStretchLimit (u : Unit)
  /-- SB_BUS_FAULT (R665): A START or STOP within a byte, or SDA rising in an acknowledge, ends the transaction. -/
  | sbBusFault (cause : SbFaultCause)
  /-- SB_REPEATED_START_IN_ACK (R664): A repeated START in the controller's acknowledge slot ends a read cleanly. -/
  | sbRepeatedStartInAck
  /-- WAKE_BY_ADDRESS (R657): In Sleep a matching address byte is acknowledged, SCL is stretched and the Sleep exit starts. -/
  | wakeByAddress (addr : BitVec 7)
  /-- WAKE_STRETCH_LIMIT (R658): The clocks are not running 200 µs into the wake stretch; SCL is released and the transaction is discarded. -/
  | wakeStretchLimit
  /-- ATTENTION_ASSERT (R660): After 50 µs of idle with ATTN_PEND set, the stack pulls SDA low. -/
  | attentionAssert
  /-- ATTENTION_ARBITRATION (R661): The arbitration byte is clocked and the winner clears ATTN_PEND. -/
  | attentionArbitration (won acked : Bool)
  /-- ATTENTION_WAIT_EXPIRY (R663): SCL has not fallen within 100 µs of the assertion and SDA is released. -/
  | attentionWaitExpiry
  /-- ATTENTION_RETRY_TIMER (R663): 2^ATTN_RETRY ms have passed with no STOP, and attention is asserted again. -/
  | attentionRetryTimer
  /-- SDA_RELEASE_TIMEOUT (R666): SDA has been held low with SCL high for 1 ms and the sideband logic resets. -/
  | sdaReleaseTimeout
  /-- SCL_LOW_TIMEOUT (R666): SCL has been low for 35 ms and the sideband logic resets. -/
  | sclLowTimeout
  /-- POWER_SET (R689): Command 0x0B01: moves the stack to Run, Rest, Hold or Sleep. -/
  | powerSet (m : MbxId) (payload : List Byte)
  /-- HOLD_HANDSHAKE_TIMEOUT (R691): A port has not answered the stack's POWER request within 100 µs, and Hold entry is abandoned. -/
  | holdHandshakeTimeout (n : PortId)
  /-- PAVILION_DRAIN_DONE (R276): A pavilion has written its buffer, paid its debt and entered self-refresh, and is clock-gated. -/
  | pavilionDrainDone (p : PavId)
  /-- SLEEP_EXIT_CLOCKS_RUN (R693): After a Sleep wake source and REFCLK, the PLLs lock and the stack is in Hold. -/
  | sleepExitClocksRun
  /-- WAKE_N_INPUT (R694): WAKE_N is held low by another device for 1 µs and acts as a wake source. -/
  | wakeNInput
  /-- WAKE_N_DRIVE_END (R695): The stack's 100 µs drive of WAKE_N ends. -/
  | wakeNDriveEnd
  /-- POWER_STATUS (R709): Command 0x0B02: returns power and boot state. -/
  | powerStatus (m : MbxId) (payload : List Byte)
  /-- SHUTDOWN (R706): Command 0x0B03: prepares the stack for power removal. -/
  | shutdown (m : MbxId) (payload : List Byte)
  /-- GLB_RST_PORT_WRITE (R687): Writing 1 to a bit of GLB_RST_PORT resets that port. -/
  | glbRstPortWrite (src : Source) (be : BitVec 4) (v : Reg32)
  /-- GLB_RST_PAV_WRITE (R687): Writing 1 to a bit of GLB_RST_PAV starts a pavilion reset. -/
  | glbRstPavWrite (src : Source) (be : BitVec 4) (v : Reg32)
  /-- PAVILION_RESET (R687): The pavilion has completed its lines and buffer, resets, and starts in BAND with debt 8. -/
  | pavilionReset (p : PavId)
  /-- TRST_N_LOW (R743): TRST_N low puts the TAP in Test-Logic-Reset. -/
  | trstNLow
  /-- TAP_INSTRUCTION_UPDATE (R742): A new instruction is updated into the test port's instruction register. -/
  | tapInstructionUpdate (code : Byte)
  /-- REGISTER_WRITE (R11): A write to a register with no row of its own applies under the field access types. -/
  | registerWrite (off : BitVec 20) (src : Source) (be : BitVec 4) (v : Reg32)
  /-- READ_CLEAR_COUNTER (R11): A read of an RC field returns its value and clears it. -/
  | readClearCounter (src : Source) (off : BitVec 20)
  /-- RESET_N_RISE (R697): RESET_N rises, ending the cold reset hold, starting step 2 (core PLL lock) once the power-on read has ended, and starting the ELAPSED count. -/
  | resetNRise
  /-- PLL_RELOCK_DONE (R101): In T_RATE the lane PLL finishes relocking at the chosen rate, and the stack stops sending idle and begins TS1 with preset requests. -/
  | pllRelockDone (n : PortId)
  /-- MANAGEMENT_SRAM_UNCORRECTABLE (R495): The management core reads an uncorrectable management SRAM word, the stack counts it and performs a management reset with cause 1. -/
  | managementSramUncorrectable (word : SramWord)
  deriving DecidableEq, Repr

end Sys2Proof
end

