-- ==== Sys2Proof/Decode.lean ====
section
/-! DEFINITION. The table of commands gives its rows no bits: the block takes commands, not words, and no word spells one. -/
namespace Sys2Proof

/-- The command a word spells by the table's bits: no row has any. [DEDUCED, notes/assumptions/3.md] -/
def decodeTableWord (_nbits _w : Nat) : Option Instr := none

end Sys2Proof
end

