-- ==== Sys2Proof/Config.lean ====
section
/-! DEFINITION. The values the manual leaves open: constants without a body, so that no proof can see what they are. -/
namespace Sys2Proof.Config

/-- What byte `k` (8 data bytes, then the check byte) of a stored word reads as when nothing has written it since the
DRAM last lost its contents (R190, R347): `epoch` counts those losses, `addr` is the cell byte's address.
[DEDUCED, notes/assumptions/9.md] -/
opaque neverWritten (epoch addr : Nat) : Byte

/-- The ring-oscillator entropy source (R319, R621, R633): the i-th value drawn. [DEDUCED, notes/assumptions/10.md] -/
opaque entropy (i : Nat) : BitVec 256

/-- A value the hardware leaves to circumstance: the i-th one drawn (equaliser codes, words lost in a FIFO slip).
[DEDUCED, notes/assumptions/10.md] -/
opaque freeBits (i : Nat) : BitVec 64

/-- The public key of an Ed25519 seed (R618). [DEDUCED, notes/assumptions/10.md] -/
opaque publicKey (seed : BitVec 256) : BitVec 256

/-- The Ed25519 signature of a message under a seed (R618). [DEDUCED, notes/assumptions/10.md] -/
opaque sign (seed : BitVec 256) (msg : List Byte) : BitVec 512

/-- Whether an Ed25519 signature of a message verifies under a public key (R618). [DEDUCED, notes/assumptions/10.md] -/
opaque verify (key : BitVec 256) (msg : List Byte) (sig : BitVec 512) : Bool

/-- The SHA-512 digest of a message (R618). [DEDUCED, notes/assumptions/10.md] -/
opaque sha512 (msg : List Byte) : BitVec 512

/-- The digest of the 128 KiB boot ROM, whose contents the manual does not give (R623). [DEDUCED, notes/assumptions/10.md] -/
opaque romDigest : BitVec 512

end Sys2Proof.Config
end

