-- ==== Sys2Proof/Machine/Tab.lean ====
section
/-! DEFINITION. Sparse tables in one canonical form: keys strictly rising, and no entry equal to what an unlisted key
reads as. Every indexed piece of State (registers, ports, pavilions, banks, fuses …) is held in one, so that equal
machines are equal data. -/
namespace Sys2Proof.Machine

/-- A sparse table from numbers to values. -/
abbrev Tab (α : Type) := List (Nat × α)

/-- The value at a key; `d` is what an unlisted key reads as. -/
def tabGet {α : Type} (d : α) : Tab α → Nat → α
  | [], _ => d
  | (k, v) :: t, i => if k = i then v else tabGet d t i

/-- The table without a key. -/
def tabErase {α : Type} : Tab α → Nat → Tab α
  | [], _ => []
  | (k, v) :: t, i => if k = i then tabErase t i else (k, v) :: tabErase t i

/-- The table with a value placed at its key in rising order. -/
def tabInsert {α : Type} : Tab α → Nat → α → Tab α
  | [], i, x => [(i, x)]
  | (k, v) :: t, i, x =>
    if i < k then (i, x) :: (k, v) :: t
    else if i = k then (i, x) :: t
    else (k, v) :: tabInsert t i x

/-- Writes a value; a value that an unlisted key reads as removes the entry. -/
def tabSet {α : Type} [DecidableEq α] (d : α) (t : Tab α) (i : Nat) (x : α) : Tab α :=
  match t with
  | [] => if x = d then [] else [(i, x)]
  | _ :: _ => if x = d then tabErase t i else tabInsert t i x

/-- Keys strictly rising, all above `lo`. -/
def tabSortedFrom {α : Type} : Nat → Tab α → Bool
  | _, [] => true
  | lo, (k, _) :: t => decide (lo ≤ k) && tabSortedFrom (k + 1) t

/-- The canonical form. -/
def tabWf {α : Type} [DecidableEq α] (d : Nat → α) (t : Tab α) : Bool :=
  tabSortedFrom 0 t && t.all (fun e => decide (e.2 ≠ d e.1))

end Sys2Proof.Machine
end

