-- ==== Sys2Proof/Machine/Regs.lean ====
section
/-! DEFINITION. The registers of the 1 MiB management window (R13) as the chapters define them: one row per register with
its window offset, its index strides and its fields with access type (R11) and reset value. Reserved bits are in no row
(R12). A row `prt …` repeats for every port, and so on. -/
namespace Sys2Proof.Machine

/-- The register access types of R11. -/
inductive Access where
  | ro | rw | w1c | wo | rc | rwl | rws
  deriving DecidableEq, Repr

/-- A field of a register: bits [hi:lo], its access type and its reset value. -/
structure FieldRow where
  hi : Nat
  lo : Nat
  acc : Access
  reset : Nat
  deriving DecidableEq, Repr

/-- A register: its first window offset, up to three index dimensions (count, stride), and its fields. -/
structure RegRow where
  name : String
  base : Nat
  dims : List (Nat × Nat)
  fields : List FieldRow
  deriving DecidableEq, Repr

/-- A named field of one register: window offset, lowest bit, width. -/
structure Fld where
  off : Nat
  lo : Nat
  w : Nat
  deriving DecidableEq, Repr

/-- Registers of block GLB (R278, R279, R528, R529, R530, R531, R532, R533, R534, R535, R536, R537, R538). -/
def regsGlb0 : List RegRow := [
  ⟨"GLB_ID", 0x0, [], [⟨31, 16, .ro, 0x9632⟩, ⟨15, 12, .ro, 0⟩, ⟨7, 0, .ro, 0x11⟩]⟩,
  ⟨"GLB_FEATURES", 0x4, [], [⟨25, 24, .ro, 0⟩, ⟨22, 20, .ro, 0⟩, ⟨17, 17, .ro, 0⟩, ⟨16, 16, .ro, 0⟩, ⟨15, 0, .ro, 0⟩]⟩,
  ⟨"GLB_DEVID", 0x10, [(4, 0x4)], [⟨31, 0, .ro, 0⟩]⟩,
  ⟨"GLB_FW_STAT", 0x20, [], [⟨31, 24, .ro, 0⟩, ⟨23, 16, .ro, 3⟩, ⟨3, 3, .ro, 0⟩, ⟨2, 0, .ro, 1⟩]⟩,
  ⟨"GLB_FW_VER", 0x24, [], [⟨31, 24, .ro, 0⟩, ⟨23, 16, .ro, 0⟩, ⟨15, 0, .ro, 0⟩]⟩,
  ⟨"GLB_FW_SVN", 0x28, [], [⟨31, 0, .ro, 0⟩]⟩,
  ⟨"GLB_FW_CAP", 0x2C, [], [⟨16, 0, .ro, 0x1f9ff⟩]⟩,
  ⟨"GLB_FW_CTRL", 0x30, [], [⟨31, 31, .rws, 0⟩, ⟨15, 0, .rws, 0x64⟩]⟩,
  ⟨"GLB_STEWARD", 0x40, [], [⟨31, 31, .rws, 0⟩, ⟨16, 0, .rws, 0⟩]⟩,
  ⟨"GLB_WHOAMI", 0x44, [], [⟨6, 6, .ro, 0⟩, ⟨5, 5, .ro, 0⟩, ⟨4, 0, .ro, 0⟩]⟩,
  ⟨"GLB_DENY", 0x48, [], [⟨15, 0, .rc, 0⟩]⟩,
  ⟨"GLB_DENY_LAST", 0x4C, [], [⟨31, 31, .ro, 0⟩, ⟨24, 20, .ro, 0⟩, ⟨19, 0, .ro, 0⟩]⟩,
  ⟨"GLB_MSRAM_ERR", 0x50, [], [⟨31, 16, .rc, 0⟩, ⟨15, 0, .rc, 0⟩]⟩,
  ⟨"GLB_MAP_CTRL", 0x400, [], [⟨31, 31, .ro, 0⟩, ⟨13, 8, .ro, 0⟩, ⟨1, 1, .ro, 0⟩, ⟨0, 0, .rws, 0⟩]⟩,
  ⟨"GLB_MAP_I_LO", 0x410, [(11, 0x8)], [⟨31, 0, .rws, 0⟩]⟩,
  ⟨"GLB_MAP_I_HI", 0x414, [(11, 0x8)], [⟨4, 0, .rws, 0⟩]⟩]

/-- Registers of block GLB (R240, R241, R242, R280, R379, R422, R423, R424, R425, R491, R492, R493, R641, R642, R643). -/
def regsGlb1 : List RegRow := [
  ⟨"GLB_MAP_P_LO", 0x470, [(6, 0x8)], [⟨31, 0, .rws, 0⟩]⟩,
  ⟨"GLB_MAP_P_HI", 0x474, [(6, 0x8)], [⟨4, 0, .rws, 0⟩]⟩,
  ⟨"GLB_SCRUB_EN", 0x600, [(16, 0x4)], [⟨31, 0, .rws, 0⟩]⟩,
  ⟨"GLB_POOL_WINDOW", 0x800, [], [⟨31, 31, .ro, 0⟩, ⟨21, 16, .ro, 0x20⟩, ⟨10, 0, .rws, 0⟩]⟩,
  ⟨"GLB_SP_LO", 0x900, [(32, 0x8)], [⟨19, 16, .rws, 0⟩, ⟨10, 0, .rws, 0⟩]⟩,
  ⟨"GLB_SP_HI", 0x904, [(32, 0x8)], [⟨31, 31, .rws, 0⟩, ⟨30, 30, .rws, 0⟩, ⟨29, 29, .rws, 0⟩, ⟨11, 8, .rws, 0⟩, ⟨3, 0, .rws, 0⟩]⟩,
  ⟨"GLB_BIST_CTRL", 0xA00, [], [⟨11, 8, .rws, 8⟩, ⟨5, 4, .rws, 0⟩, ⟨0, 0, .ro, 0⟩]⟩,
  ⟨"GLB_BIST_SWEEP", 0xA04, [], [⟨31, 16, .ro, 0⟩, ⟨15, 0, .rws, 0xff⟩]⟩,
  ⟨"GLB_BIST_STAT", 0xA08, [], [⟨23, 20, .ro, 0⟩, ⟨15, 13, .ro, 0⟩, ⟨12, 12, .ro, 0⟩, ⟨11, 10, .ro, 0⟩, ⟨2, 0, .ro, 0⟩]⟩,
  ⟨"GLB_PARK_SEQ", 0xA0C, [], [⟨31, 0, .ro, 0⟩]⟩,
  ⟨"GLB_CAL_CTRL", 0xB00, [], [⟨0, 0, .rws, 0⟩]⟩,
  ⟨"GLB_OSC_TRIM", 0xB04, [], [⟨31, 16, .ro, 0⟩, ⟨7, 0, .ro, 0⟩]⟩,
  ⟨"GLB_OSC_TABLE", 0xB10, [(16, 0x4)], [⟨7, 0, .rws, 0⟩]⟩,
  ⟨"GLB_SEC_STAT", 0xC00, [], [⟨31, 31, .ro, 0⟩, ⟨30, 30, .ro, 0⟩, ⟨29, 29, .ro, 0⟩, ⟨28, 28, .ro, 0⟩, ⟨8, 8, .ro, 0⟩, ⟨5, 4, .ro, 0⟩]⟩,
  ⟨"GLB_SEC_CTRL", 0xC04, [], [⟨0, 0, .rws, 1⟩]⟩,
  ⟨"GLB_SEC_ARB", 0xC08, [], [⟨14, 8, .ro, 0⟩, ⟨6, 0, .ro, 0⟩]⟩]

/-- Registers of block GLB (R644, R645, R710, R711, R712, R713, R714, R715, R741). -/
def regsGlb2 : List RegRow := [
  ⟨"GLB_SEC_KEYID_V", 0xC10, [], [⟨31, 0, .ro, 0⟩]⟩,
  ⟨"GLB_SEC_KEYID_C", 0xC14, [], [⟨31, 0, .ro, 0⟩]⟩,
  ⟨"GLB_SEC_CHAL", 0xC20, [(8, 0x4)], [⟨31, 0, .ro, 0⟩]⟩,
  ⟨"GLB_PWR_CTRL", 0xD00, [], [⟨3, 3, .rws, 0⟩, ⟨2, 2, .rws, 1⟩]⟩,
  ⟨"GLB_PWR_STAT", 0xD04, [], [⟨28, 28, .ro, 0⟩, ⟨27, 24, .ro, 0⟩, ⟨23, 20, .ro, 0⟩, ⟨19, 16, .ro, 0⟩, ⟨8, 8, .ro, 0⟩, ⟨4, 4, .ro, 0⟩, ⟨3, 3, .ro, 0⟩, ⟨2, 0, .ro, 0⟩]⟩,
  ⟨"GLB_RST_PORT", 0xD08, [], [⟨15, 0, .rws, 0⟩]⟩,
  ⟨"GLB_RST_PAV", 0xD0C, [], [⟨31, 0, .rws, 0⟩]⟩,
  ⟨"GLB_RST_STAT", 0xD10, [], [⟨31, 24, .rc, 0⟩, ⟨23, 16, .rc, 0⟩, ⟨1, 0, .ro, 0⟩]⟩,
  ⟨"GLB_BOOT_CTRL", 0xD20, [], [⟨23, 16, .rws, 0xa⟩, ⟨15, 0, .rws, 0xfa⟩]⟩,
  ⟨"GLB_BOOT_STAT", 0xD24, [], [⟨31, 8, .ro, 0⟩, ⟨4, 4, .ro, 0⟩, ⟨3, 0, .ro, 0⟩]⟩,
  ⟨"GLB_PAD_CTRL", 0xE00, [], [⟨9, 8, .rws, 0⟩, ⟨4, 4, .rws, 1⟩, ⟨0, 0, .rws, 0⟩]⟩]

/-- Registers of block CAD (R327, R328, R329, R330, R331, R332, R333, R334). -/
def regsCad : List RegRow := [
  ⟨"CAD_CTRL", 0x1000, [], [⟨7, 4, .rws, 0⟩, ⟨1, 0, .rws, 0⟩]⟩,
  ⟨"CAD_STAT", 0x1004, [], [⟨9, 8, .ro, 0⟩, ⟨5, 5, .ro, 0⟩, ⟨4, 4, .ro, 0⟩, ⟨3, 2, .ro, 0⟩, ⟨1, 1, .ro, 0⟩, ⟨0, 0, .ro, 0⟩]⟩,
  ⟨"CAD_LEN", 0x1008, [], [⟨22, 0, .ro, 0x186a00⟩]⟩,
  ⟨"CAD_NOW_LO", 0x1010, [], [⟨31, 10, .ro, 0⟩, ⟨9, 0, .ro, 0⟩]⟩,
  ⟨"CAD_NOW_HI", 0x1014, [], [⟨17, 0, .ro, 0⟩]⟩,
  ⟨"CAD_RELOCK", 0x1018, [], [⟨25, 10, .ro, 0⟩, ⟨9, 0, .ro, 0⟩]⟩,
  ⟨"CAD_PORT_OFS", 0x101C, [], [⟨15, 0, .ro, 0⟩]⟩,
  ⟨"CAD_SLOT", 0x1020, [(4, 0x4)], [⟨27, 20, .rws, 0⟩, ⟨19, 10, .rws, 0⟩, ⟨9, 0, .rws, 0⟩]⟩,
  ⟨"CAD_CNT", 0x1030, [], [⟨31, 24, .rc, 0⟩, ⟨23, 16, .rc, 0⟩, ⟨15, 8, .rc, 0⟩, ⟨7, 0, .rc, 0⟩]⟩]

/-- Registers of block THM (R452, R453, R454, R455, R456, R457, R458, R459, R460, R461, R462, R490). -/
def regsThm : List RegRow := [
  ⟨"THM_CTRL", 0x2000, [], [⟨5, 5, .rws, 0⟩, ⟨4, 4, .rws, 0⟩, ⟨3, 3, .rws, 0⟩, ⟨1, 0, .rws, 0⟩]⟩,
  ⟨"THM_STAT", 0x2004, [], [⟨23, 20, .ro, 0⟩, ⟨11, 11, .ro, 0⟩, ⟨10, 10, .ro, 0⟩, ⟨9, 9, .ro, 0⟩, ⟨8, 8, .ro, 0⟩, ⟨5, 4, .ro, 0⟩, ⟨2, 0, .ro, 7⟩]⟩,
  ⟨"THM_TDRAM", 0x2008, [], [⟨15, 0, .ro, 0⟩]⟩,
  ⟨"THM_TBASE", 0x200C, [], [⟨15, 0, .ro, 0⟩]⟩,
  ⟨"THM_PEAK", 0x2010, [], [⟨31, 16, .rc, 0⟩, ⟨15, 0, .rc, 0⟩]⟩,
  ⟨"THM_HALT", 0x2014, [], [⟨31, 31, .rws, 0⟩, ⟨15, 0, .ro, 0⟩]⟩,
  ⟨"THM_BAND_CNT", 0x2018, [], [⟨31, 24, .rc, 0⟩, ⟨15, 8, .rc, 0⟩, ⟨7, 0, .rc, 0⟩]⟩,
  ⟨"THM_FAULT", 0x201C, [], [⟨26, 0, .ro, 0⟩]⟩,
  ⟨"THM_ALERT", 0x2020, [(5, 0x4)], [⟨31, 31, .rws, 0⟩, ⟨30, 30, .ro, 0⟩, ⟨15, 0, .rws, 0x320⟩]⟩,
  ⟨"THM_EXT_CFG", 0x2040, [], [⟨25, 16, .rws, 8⟩, ⟨9, 0, .rws, 8⟩]⟩,
  ⟨"THM_THERM_CFG", 0x2044, [], [⟨31, 16, .rws, 0xd6b⟩, ⟨15, 0, .rws, 0x3e8⟩]⟩,
  ⟨"THM_SENSOR", 0x2100, [(27, 0x4)], [⟨31, 31, .ro, 0⟩, ⟨30, 30, .ro, 0⟩, ⟨15, 0, .ro, 0⟩]⟩,
  ⟨"THM_TRIM", 0x2200, [(24, 0x4)], [⟨15, 0, .rws, 0⟩]⟩]

/-- Registers of block OTP (R610, R611, R612, R613, R614, R615). -/
def regsOtp : List RegRow := [
  ⟨"OTP_STAT", 0x3000, [], [⟨13, 8, .ro, 0⟩, ⟨3, 3, .ro, 0⟩, ⟨2, 2, .ro, 0⟩, ⟨1, 1, .ro, 0⟩, ⟨0, 0, .ro, 0⟩]⟩,
  ⟨"OTP_ARB", 0x3004, [], [⟨6, 0, .ro, 0⟩]⟩,
  ⟨"OTP_PROG", 0x3008, [], [⟨31, 16, .ro, 0⟩, ⟨12, 0, .ro, 0⟩]⟩,
  ⟨"OTP_REGION", 0x3010, [(6, 0x4)], [⟨31, 31, .ro, 0⟩, ⟨30, 30, .ro, 0⟩, ⟨29, 29, .ro, 0⟩, ⟨15, 0, .ro, 0⟩]⟩,
  ⟨"OTP_MARGIN_STAT", 0x3040, [], [⟨7, 0, .ro, 0⟩]⟩,
  ⟨"OTP_MARGIN", 0x3080, [(16, 0x4)], [⟨31, 16, .ro, 0⟩, ⟨15, 13, .ro, 0⟩, ⟨12, 0, .ro, 0⟩]⟩,
  ⟨"OTP_DF", 0x3100, [(16, 0x4)], [⟨31, 0, .ro, 0⟩]⟩]

/-- Registers of block SB (R670, R671, R672, R673, R674, R675, R676). -/
def regsSb : List RegRow := [
  ⟨"SB_CTRL", 0x4000, [], [⟨11, 8, .rws, 4⟩, ⟨2, 2, .rws, 1⟩, ⟨1, 1, .rws, 0⟩, ⟨0, 0, .rws, 0⟩]⟩,
  ⟨"SB_STAT", 0x4004, [], [⟨15, 15, .ro, 0⟩, ⟨13, 12, .ro, 0⟩, ⟨6, 0, .ro, 0⟩]⟩,
  ⟨"SB_WIN_PTR", 0x4008, [], [⟨19, 2, .ro, 0⟩]⟩,
  ⟨"SB_MBX_PTR", 0x400C, [], [⟨15, 15, .ro, 0⟩, ⟨8, 0, .ro, 0⟩]⟩,
  ⟨"SB_RESULT", 0x4010, [], [⟨31, 28, .ro, 0⟩, ⟨20, 20, .ro, 0⟩, ⟨19, 0, .ro, 0⟩]⟩,
  ⟨"SB_CNT", 0x4014, [], [⟨31, 24, .rc, 0⟩, ⟨23, 16, .rc, 0⟩, ⟨15, 8, .rc, 0⟩, ⟨7, 0, .rc, 0⟩]⟩,
  ⟨"SB_XACT", 0x4018, [], [⟨31, 0, .rc, 0⟩]⟩]

/-- Registers of block EVT (R572, R573, R574, R575, R576, R577). -/
def regsEvt : List RegRow := [
  ⟨"EVT_ROUTE", 0x10000, [], [⟨19, 19, .rws, 0⟩, ⟨18, 18, .rws, 0⟩, ⟨17, 16, .rws, 3⟩, ⟨15, 0, .rws, 0⟩]⟩,
  ⟨"EVT_SEQ", 0x10004, [], [⟨31, 0, .ro, 0⟩]⟩,
  ⟨"EVT_MERGED", 0x10008, [], [⟨31, 0, .rc, 0⟩]⟩,
  ⟨"EVT_STAT", 0x1000C, [], [⟨10, 0, .ro, 0⟩]⟩,
  ⟨"EVT_PORT", 0x10040, [(16, 0x4)], [⟨31, 16, .rc, 0⟩, ⟨11, 0, .ro, 0⟩]⟩,
  ⟨"EVT_LEVEL", 0x10100, [(64, 0x4)], [⟨31, 30, .rws, 2⟩, ⟨29, 28, .rws, 2⟩, ⟨27, 26, .rws, 2⟩, ⟨25, 24, .rws, 2⟩, ⟨23, 22, .rws, 2⟩, ⟨21, 20, .rws, 2⟩, ⟨19, 18, .rws, 2⟩, ⟨17, 16, .rws, 2⟩, ⟨15, 14, .rws, 2⟩, ⟨13, 12, .rws, 2⟩, ⟨11, 10, .rws, 2⟩, ⟨9, 8, .rws, 2⟩, ⟨7, 6, .rws, 2⟩, ⟨5, 4, .rws, 2⟩, ⟨3, 2, .rws, 2⟩, ⟨1, 0, .rws, 2⟩]⟩,
  ⟨"EVT_SEEN", 0x10200, [(32, 0x4)], [⟨31, 0, .w1c, 0⟩]⟩,
  ⟨"EVT_RING", 0x18000, [(2048, 0x10), (4, 0x4)], [⟨31, 0, .ro, 0⟩]⟩]

/-- Registers of block MBX (R539, R540, R541, R542, R543). -/
def regsMbx : List RegRow := [
  ⟨"MBX_CMD", 0x20000, [(18, 0x1000), (128, 0x4)], [⟨31, 0, .rw, 0⟩]⟩,
  ⟨"MBX_RSP", 0x20200, [(18, 0x1000), (128, 0x4)], [⟨31, 0, .ro, 0⟩]⟩,
  ⟨"MBX_DOORBELL", 0x20400, [(18, 0x1000)], [⟨15, 0, .wo, 0⟩]⟩,
  ⟨"MBX_STAT", 0x20404, [(18, 0x1000)], [⟨31, 16, .ro, 0⟩, ⟨15, 8, .ro, 0⟩, ⟨7, 7, .w1c, 0⟩, ⟨2, 0, .ro, 0⟩]⟩,
  ⟨"MBX_CNT", 0x20408, [(18, 0x1000)], [⟨31, 16, .rc, 0⟩, ⟨15, 8, .rc, 0⟩, ⟨7, 0, .rc, 0⟩]⟩,
  ⟨"MBX_OWNER", 0x2040C, [(18, 0x1000)], [⟨4, 0, .ro, 0⟩]⟩]

/-- Registers of block MON (R578, R579, R580, R581, R582). -/
def regsMon0 : List RegRow := [
  ⟨"MON_TELE", 0x40000, [], [⟨18, 18, .rws, 0⟩, ⟨17, 16, .rws, 3⟩, ⟨15, 0, .rws, 0⟩]⟩,
  ⟨"MON_TELE_MASK_LO", 0x40004, [], [⟨31, 0, .rws, 0⟩]⟩,
  ⟨"MON_TELE_MASK_HI", 0x40008, [], [⟨15, 0, .rws, 0⟩]⟩,
  ⟨"MON_TELE_STAT", 0x4000C, [], [⟨31, 16, .rc, 0⟩, ⟨15, 0, .rc, 0⟩]⟩,
  ⟨"MON_CTRL", 0x41000, [(48, 0x100)], [⟨31, 31, .wo, 0⟩, ⟨23, 20, .rws, 0⟩, ⟨17, 16, .rws, 0⟩, ⟨13, 12, .rws, 2⟩, ⟨7, 4, .rws, 0xf⟩, ⟨1, 1, .rws, 0⟩, ⟨0, 0, .rws, 1⟩]⟩,
  ⟨"MON_BIN", 0x41004, [(48, 0x100)], [⟨21, 21, .rws, 1⟩, ⟨20, 16, .rws, 2⟩, ⟨15, 0, .rws, 0x10⟩]⟩,
  ⟨"MON_WIN", 0x41008, [(48, 0x100)], [⟨15, 0, .rws, 0xff⟩]⟩,
  ⟨"MON_SEQ_A", 0x41010, [(48, 0x100)], [⟨31, 0, .ro, 0⟩]⟩,
  ⟨"MON_TS_LO", 0x41014, [(48, 0x100)], [⟨31, 0, .ro, 0⟩]⟩,
  ⟨"MON_TS_HI", 0x41018, [(48, 0x100)], [⟨17, 0, .ro, 0⟩]⟩,
  ⟨"MON_COUNT", 0x4101C, [(48, 0x100)], [⟨31, 0, .ro, 0⟩]⟩,
  ⟨"MON_MIN", 0x41020, [(48, 0x100)], [⟨31, 0, .ro, 0⟩]⟩,
  ⟨"MON_MAX", 0x41024, [(48, 0x100)], [⟨31, 0, .ro, 0⟩]⟩,
  ⟨"MON_SUM_LO", 0x41028, [(48, 0x100)], [⟨31, 0, .ro, 0⟩]⟩,
  ⟨"MON_SUM_HI", 0x4102C, [(48, 0x100)], [⟨31, 0, .ro, 0⟩]⟩,
  ⟨"MON_LVL", 0x41030, [(48, 0x100)], [⟨31, 16, .ro, 0⟩, ⟨15, 0, .ro, 0⟩]⟩]

/-- Registers of block MON (R582, R583). -/
def regsMon1 : List RegRow := [
  ⟨"MON_LVL_SUM_LO", 0x41034, [(48, 0x100)], [⟨31, 0, .ro, 0⟩]⟩,
  ⟨"MON_LVL_SUM_HI", 0x41038, [(48, 0x100)], [⟨31, 0, .ro, 0⟩]⟩,
  ⟨"MON_LVL_N", 0x4103C, [(48, 0x100)], [⟨31, 0, .ro, 0⟩]⟩,
  ⟨"MON_SEQ_B", 0x41040, [(48, 0x100)], [⟨31, 0, .ro, 0⟩]⟩,
  ⟨"MON_HIST", 0x41080, [(48, 0x100), (32, 0x4)], [⟨31, 0, .ro, 0⟩]⟩]

/-- Registers of block PRT (R85, R86, R87, R88, R89, R90, R91, R92, R93, R94, R95, R96, R97, R484, R485). -/
def regsPrt0 : List RegRow := [
  ⟨"PRT_PHY_CTRL", 0x80000, [(16, 0x1000)], [⟨4, 3, .rws, 2⟩, ⟨2, 0, .rws, 4⟩]⟩,
  ⟨"PRT_PHY_STAT", 0x80004, [(16, 0x1000)], [⟨19, 19, .ro, 0⟩, ⟨18, 18, .ro, 0⟩, ⟨17, 17, .ro, 0⟩, ⟨16, 14, .ro, 0⟩, ⟨13, 12, .ro, 0⟩, ⟨7, 0, .ro, 0⟩]⟩,
  ⟨"PRT_PRBS_CTRL", 0x80010, [(16, 0x1000)], [⟨13, 13, .wo, 0⟩, ⟨12, 12, .rws, 0⟩, ⟨11, 11, .rws, 0⟩, ⟨10, 10, .rws, 0⟩, ⟨9, 8, .rws, 3⟩, ⟨7, 0, .rws, 0xff⟩]⟩,
  ⟨"PRT_INJ_CTRL", 0x80014, [(16, 0x1000)], [⟨27, 22, .rws, 0⟩, ⟨21, 16, .rws, 1⟩, ⟨15, 10, .rws, 0x14⟩, ⟨9, 8, .rws, 0⟩, ⟨7, 0, .rws, 0⟩]⟩,
  ⟨"PRT_CAL_CTRL", 0x80020, [(16, 0x1000)], [⟨15, 8, .rws, 0⟩, ⟨4, 0, .rws, 0x14⟩]⟩,
  ⟨"PRT_CAL_STAT", 0x80024, [(16, 0x1000)], [⟨31, 24, .rc, 0⟩, ⟨23, 16, .ro, 0⟩, ⟨1, 0, .ro, 0⟩]⟩,
  ⟨"PRT_LANE_CTRL", 0x80100, [(16, 0x1000), (8, 0x40)], [⟨10, 8, .rws, 0⟩, ⟨5, 4, .rws, 0⟩, ⟨2, 0, .rws, 4⟩]⟩,
  ⟨"PRT_LANE_TXEQ", 0x80104, [(16, 0x1000), (8, 0x40)], [⟨14, 12, .ro, 0⟩, ⟨8, 4, .rws, 0⟩, ⟨3, 0, .rws, 0⟩]⟩,
  ⟨"PRT_LANE_STAT", 0x80108, [(16, 0x1000), (8, 0x40)], [⟨11, 10, .ro, 0⟩, ⟨9, 8, .ro, 0⟩, ⟨7, 7, .ro, 0⟩, ⟨6, 6, .ro, 0⟩, ⟨5, 5, .ro, 0⟩, ⟨4, 4, .ro, 0⟩, ⟨2, 0, .ro, 2⟩]⟩,
  ⟨"PRT_LANE_RXEQ", 0x8010C, [(16, 0x1000), (8, 0x40)], [⟨31, 28, .ro, 0⟩, ⟨27, 22, .ro, 0⟩, ⟨21, 16, .ro, 0⟩, ⟨15, 10, .ro, 0⟩, ⟨9, 4, .ro, 0⟩]⟩,
  ⟨"PRT_LANE_PRBS_ERR", 0x80110, [(16, 0x1000), (8, 0x40)], [⟨31, 0, .ro, 0⟩]⟩,
  ⟨"PRT_LANE_PRBS_BITS_LO", 0x80114, [(16, 0x1000), (8, 0x40)], [⟨31, 0, .ro, 0⟩]⟩,
  ⟨"PRT_LANE_PRBS_BITS_HI", 0x80118, [(16, 0x1000), (8, 0x40)], [⟨31, 0, .ro, 0⟩]⟩,
  ⟨"PRT_LANE_MARGIN_CFG", 0x8011C, [(16, 0x1000), (8, 0x40)], [⟨19, 16, .rw, 0xa⟩, ⟨13, 8, .rw, 0xc⟩, ⟨6, 0, .rw, 0⟩]⟩,
  ⟨"PRT_LANE_MARGIN_ERR", 0x80120, [(16, 0x1000), (8, 0x40)], [⟨31, 0, .ro, 0⟩]⟩,
  ⟨"PRT_LANE_FAULTS", 0x80124, [(16, 0x1000), (8, 0x40)], [⟨23, 16, .rc, 0⟩, ⟨15, 8, .rc, 0⟩, ⟨7, 0, .rc, 0⟩]⟩]

/-- Registers of block PRT (R138, R139, R140, R141, R142, R143, R144, R197, R198, R199, R200, R201, R237, R238, R239, R486). -/
def regsPrt1 : List RegRow := [
  ⟨"PRT_LANE_EYE", 0x80128, [(16, 0x1000), (8, 0x40)], [⟨31, 31, .ro, 0⟩, ⟨30, 30, .ro, 0⟩, ⟨29, 24, .ro, 0⟩, ⟨23, 16, .ro, 0⟩, ⟨6, 0, .ro, 0⟩]⟩,
  ⟨"PRT_LINK_CTRL", 0x80300, [(16, 0x1000)], [⟨23, 16, .rws, 0x10⟩, ⟨15, 12, .rws, 4⟩, ⟨11, 8, .rws, 0xf⟩, ⟨4, 4, .wo, 0⟩, ⟨3, 3, .wo, 0⟩, ⟨2, 2, .rws, 0⟩]⟩,
  ⟨"PRT_LINK_STAT", 0x80304, [(16, 0x1000)], [⟨31, 28, .ro, 0⟩, ⟨25, 24, .ro, 0⟩, ⟨19, 16, .ro, 0⟩, ⟨15, 8, .rc, 0⟩, ⟨0, 0, .ro, 0⟩]⟩,
  ⟨"PRT_LINK_SEQ", 0x80308, [(16, 0x1000)], [⟨29, 20, .ro, 0⟩, ⟨19, 10, .ro, 0⟩, ⟨9, 0, .ro, 0⟩]⟩,
  ⟨"PRT_LINK_ERR", 0x8030C, [(16, 0x1000)], [⟨31, 24, .rc, 0⟩, ⟨23, 16, .rc, 0⟩, ⟨15, 8, .rc, 0⟩, ⟨7, 0, .rc, 0⟩]⟩,
  ⟨"PRT_LINK_CRC_ERR", 0x80310, [(16, 0x1000)], [⟨31, 0, .rc, 0⟩]⟩,
  ⟨"PRT_CREDIT_TX_TC", 0x80320, [(16, 0x1000), (4, 0x4)], [⟨29, 20, .ro, 0⟩, ⟨19, 10, .ro, 0⟩, ⟨9, 0, .ro, 0⟩]⟩,
  ⟨"PRT_CREDIT_RX_TC", 0x80330, [(16, 0x1000), (4, 0x4)], [⟨29, 20, .ro, 0⟩, ⟨19, 10, .ro, 0⟩, ⟨9, 0, .ro, 0⟩]⟩,
  ⟨"PRT_TXN_CTRL", 0x80400, [(16, 0x1000)], [⟨3, 3, .rws, 1⟩, ⟨2, 0, .rw, 7⟩]⟩,
  ⟨"PRT_TXN_STAT", 0x80404, [(16, 0x1000)], [⟨29, 29, .ro, 0⟩, ⟨28, 16, .ro, 0⟩, ⟨11, 0, .ro, 0⟩]⟩,
  ⟨"PRT_TXN_ERR", 0x80408, [(16, 0x1000)], [⟨31, 24, .rc, 0⟩, ⟨23, 16, .rc, 0⟩, ⟨15, 8, .rc, 0⟩, ⟨7, 0, .rc, 0⟩]⟩,
  ⟨"PRT_TXN_REFUSED", 0x8040C, [(16, 0x1000)], [⟨31, 24, .rc, 0⟩, ⟨23, 16, .rc, 0⟩, ⟨15, 8, .rc, 0⟩, ⟨7, 0, .rc, 0⟩]⟩,
  ⟨"PRT_TXN_LOST", 0x80410, [(16, 0x1000)], [⟨15, 0, .rc, 0⟩]⟩,
  ⟨"PRT_POOL_CTRL", 0x80500, [(16, 0x1000)], [⟨15, 12, .rws, 7⟩, ⟨11, 8, .rws, 0xa⟩, ⟨2, 2, .rws, 0⟩, ⟨1, 0, .rws, 0⟩]⟩,
  ⟨"PRT_POOL_STAT", 0x80504, [(16, 0x1000)], [⟨26, 16, .ro, 0⟩, ⟨10, 0, .ro, 0⟩]⟩,
  ⟨"PRT_POOL_REFUSED", 0x80508, [(16, 0x1000)], [⟨31, 24, .rc, 0⟩, ⟨23, 16, .rc, 0⟩, ⟨15, 8, .rc, 0⟩, ⟨7, 0, .rc, 0⟩]⟩]

/-- Registers of block PAV (R281, R282, R283, R284, R285, R286, R287, R288, R289, R290, R335, R336, R337, R338, R339). -/
def regsPav0 : List RegRow := [
  ⟨"PAV_SCHED_CTRL", 0xC0000, [(32, 0x1000)], [⟨31, 24, .rws, 0x10⟩, ⟨23, 16, .rws, 0x20⟩, ⟨1, 0, .rws, 2⟩]⟩,
  ⟨"PAV_AGE", 0xC0004, [(32, 0x1000)], [⟨7, 0, .rws, 0x14⟩]⟩,
  ⟨"PAV_BUF_CTRL", 0xC0008, [(32, 0x1000)], [⟨29, 20, .rws, 0x200⟩, ⟨19, 10, .rws, 0x100⟩, ⟨8, 0, .rws, 0x100⟩]⟩,
  ⟨"PAV_PWR", 0xC000C, [(32, 0x1000)], [⟨15, 0, .rws, 0x4b0⟩]⟩,
  ⟨"PAV_THROTTLE", 0xC0010, [(32, 0x1000)], [⟨31, 30, .ro, 0⟩, ⟨25, 16, .rws, 0x200⟩, ⟨9, 0, .rws, 0x100⟩]⟩,
  ⟨"PAV_SCHED_STAT", 0xC0020, [(32, 0x1000)], [⟨29, 20, .ro, 0⟩, ⟨19, 10, .ro, 0⟩, ⟨9, 0, .ro, 0⟩]⟩,
  ⟨"PAV_BANK_OPEN_LO", 0xC0024, [(32, 0x1000)], [⟨31, 0, .ro, 0⟩]⟩,
  ⟨"PAV_BANK_OPEN_HI", 0xC0028, [(32, 0x1000)], [⟨31, 0, .ro, 0⟩]⟩,
  ⟨"PAV_RANK_STAT", 0xC002C, [(32, 0x1000)], [⟨2, 0, .ro, 3⟩, ⟨6, 4, .ro, 3⟩, ⟨10, 8, .ro, 3⟩, ⟨14, 12, .ro, 3⟩]⟩,
  ⟨"PAV_SCHED_CNT", 0xC0030, [(32, 0x1000)], [⟨31, 24, .rc, 0⟩, ⟨23, 16, .rc, 0⟩, ⟨15, 8, .rc, 0⟩, ⟨7, 0, .rc, 0⟩]⟩,
  ⟨"PAV_PANIC_CNT", 0xC0034, [(32, 0x1000)], [⟨31, 0, .rc, 0⟩]⟩,
  ⟨"PAV_REF_WIN", 0xC0100, [(32, 0x1000), (4, 0x10), (4, 0x4)], [⟨31, 31, .rws, 1⟩, ⟨21, 16, .rws, 0x20⟩, ⟨9, 0, .rws, 0⟩]⟩,
  ⟨"PAV_REF_STAT", 0xC0140, [(32, 0x1000)], [⟨29, 28, .ro, 0⟩, ⟨23, 20, .ro, 0⟩, ⟨19, 16, .ro, 0⟩, ⟨15, 12, .ro, 0⟩, ⟨11, 8, .ro, 0⟩, ⟨7, 4, .ro, 0⟩, ⟨3, 0, .ro, 0⟩]⟩,
  ⟨"PAV_REF_CNT", 0xC0144, [(32, 0x1000)], [⟨31, 24, .rc, 0⟩, ⟨23, 16, .rc, 0⟩, ⟨15, 8, .rc, 0⟩]⟩,
  ⟨"PAV_NEIGH_CTRL", 0xC0150, [(32, 0x1000)], [⟨5, 5, .rws, 0⟩, ⟨4, 4, .rws, 1⟩, ⟨3, 0, .rws, 0xa⟩]⟩,
  ⟨"PAV_NEIGH_STAT", 0xC0154, [(32, 0x1000)], [⟨31, 24, .rc, 0⟩, ⟨23, 16, .rc, 0⟩, ⟨5, 0, .ro, 0⟩]⟩]

/-- Registers of block PAV (R340, R380, R381, R382, R383, R384, R385, R386, R387, R388, R389, R390). -/
def regsPav1 : List RegRow := [
  ⟨"PAV_NEIGH_DRAWN", 0xC0158, [(32, 0x1000)], [⟨31, 0, .rc, 0⟩]⟩,
  ⟨"PAV_ECC_CTRL", 0xC0200, [(32, 0x1000)], [⟨12, 8, .rws, 0x18⟩, ⟨3, 3, .rws, 1⟩, ⟨2, 2, .rws, 1⟩, ⟨1, 1, .rws, 1⟩, ⟨0, 0, .rws, 1⟩]⟩,
  ⟨"PAV_BUCKET_CFG", 0xC0204, [(32, 0x1000)], [⟨31, 16, .rws, 0x100⟩, ⟨15, 0, .rws, 0x100⟩]⟩,
  ⟨"PAV_BUCKET_STAT", 0xC0208, [(32, 0x1000)], [⟨23, 16, .rc, 0⟩, ⟨15, 0, .ro, 0⟩]⟩,
  ⟨"PAV_SCRUB_CTRL", 0xC020C, [(32, 0x1000)], [⟨15, 0, .rws, 0xff⟩]⟩,
  ⟨"PAV_SCRUB_POS", 0xC0210, [(32, 0x1000)], [⟨31, 24, .rc, 0⟩, ⟨20, 6, .ro, 0⟩, ⟨5, 0, .ro, 0⟩]⟩,
  ⟨"PAV_ECC_CE", 0xC0214, [(32, 0x1000)], [⟨31, 0, .rc, 0⟩]⟩,
  ⟨"PAV_ECC_UE", 0xC0218, [(32, 0x1000)], [⟨31, 0, .rc, 0⟩]⟩,
  ⟨"PAV_ECC_CNT", 0xC021C, [(32, 0x1000)], [⟨31, 24, .rc, 0⟩, ⟨23, 16, .rc, 0⟩, ⟨15, 8, .rc, 0⟩, ⟨7, 0, .rc, 0⟩]⟩,
  ⟨"PAV_SCRUB_CNT", 0xC0220, [(32, 0x1000)], [⟨31, 24, .rc, 0⟩, ⟨23, 16, .rc, 0⟩, ⟨15, 0, .rc, 0⟩]⟩,
  ⟨"PAV_REPAIR_STAT", 0xC0224, [(32, 0x1000)], [⟨31, 31, .ro, 0⟩, ⟨26, 24, .ro, 0⟩, ⟨23, 23, .ro, 0⟩, ⟨22, 16, .ro, 0⟩, ⟨12, 0, .ro, 0⟩]⟩,
  ⟨"PAV_ECC_LOG_0", 0xC0230, [(32, 0x1000)], [⟨31, 0, .ro, 0⟩]⟩,
  ⟨"PAV_ECC_LOG_1", 0xC0234, [(32, 0x1000)], [⟨31, 24, .ro, 0⟩, ⟨20, 18, .ro, 0⟩, ⟨17, 0, .ro, 0⟩]⟩,
  ⟨"PAV_ECC_LOG_2", 0xC0238, [(32, 0x1000)], [⟨31, 30, .ro, 0⟩, ⟨29, 29, .ro, 0⟩, ⟨28, 26, .ro, 0⟩, ⟨25, 21, .ro, 0⟩, ⟨20, 6, .ro, 0⟩, ⟨5, 0, .ro, 0⟩]⟩,
  ⟨"PAV_ECC_LOG_3", 0xC023C, [(32, 0x1000)], [⟨7, 7, .ro, 0⟩, ⟨6, 0, .ro, 0⟩]⟩,
  ⟨"PAV_ECC_LOG_STAT", 0xC0240, [(32, 0x1000)], [⟨15, 8, .rc, 0⟩, ⟨4, 0, .ro, 0⟩]⟩]

/-- Registers of block PAV (R426, R427, R428, R429, R430, R487, R488, R489). -/
def regsPav2 : List RegRow := [
  ⟨"PAV_BIST_POS", 0xC0300, [(32, 0x1000)], [⟨31, 24, .rc, 0⟩, ⟨21, 0, .ro, 0⟩]⟩,
  ⟨"PAV_BIST_STAT", 0xC0304, [(32, 0x1000)], [⟨7, 7, .ro, 0⟩, ⟨5, 4, .ro, 0⟩, ⟨3, 0, .ro, 0⟩]⟩,
  ⟨"PAV_BIST_DONE", 0xC0308, [(32, 0x1000)], [⟨31, 0, .rc, 0⟩]⟩,
  ⟨"PAV_BIST_CNT", 0xC030C, [(32, 0x1000)], [⟨31, 16, .rc, 0⟩, ⟨15, 8, .rc, 0⟩, ⟨7, 0, .rc, 0⟩]⟩,
  ⟨"PAV_BIST_FAIL_0", 0xC0310, [(32, 0x1000)], [⟨31, 31, .ro, 0⟩, ⟨30, 29, .ro, 0⟩, ⟨28, 26, .ro, 0⟩, ⟨25, 21, .ro, 0⟩, ⟨20, 6, .ro, 0⟩, ⟨5, 0, .ro, 0⟩]⟩,
  ⟨"PAV_BIST_FAIL_1", 0xC0314, [(32, 0x1000)], [⟨31, 31, .ro, 0⟩, ⟨26, 24, .ro, 0⟩, ⟨23, 16, .ro, 0⟩, ⟨6, 0, .ro, 0⟩]⟩,
  ⟨"PAV_TSV_CTRL", 0xC0400, [(32, 0x1000)], [⟨21, 16, .rws, 0xc⟩, ⟨15, 0, .rws, 0⟩]⟩,
  ⟨"PAV_TSV_STAT", 0xC0404, [(32, 0x1000)], [⟨31, 24, .ro, 0⟩, ⟨22, 16, .ro, 0⟩, ⟨14, 8, .ro, 0⟩, ⟨5, 4, .ro, 0⟩, ⟨2, 0, .ro, 0⟩]⟩,
  ⟨"PAV_TSV_TRIM", 0xC0410, [(32, 0x1000), (4, 0x10), (4, 0x4)], [⟨29, 24, .ro, 0⟩, ⟨21, 16, .ro, 0⟩, ⟨13, 8, .ro, 0⟩, ⟨5, 0, .ro, 0⟩]⟩]

/-- Every register of the management window. -/
def regTable : List RegRow :=
  regsGlb0 ++ regsGlb1 ++ regsGlb2 ++ regsCad ++ regsThm ++ regsOtp ++ regsSb ++ regsEvt ++ regsMbx ++ regsMon0 ++ regsMon1 ++ regsPrt0 ++ regsPrt1 ++ regsPav0 ++ regsPav1 ++ regsPav2

/-- The window offset of GLB_ID (R528). -/
def Off.GLB_ID : Nat := 0x0
/-- GLB_ID.PART (R528). -/
def Fld.GLB_ID_PART : Fld := ⟨0x0, 16, 16⟩
/-- GLB_ID.VARIANT (R528). -/
def Fld.GLB_ID_VARIANT : Fld := ⟨0x0, 12, 4⟩
/-- GLB_ID.REV (R528). -/
def Fld.GLB_ID_REV : Fld := ⟨0x0, 0, 8⟩
/-- The window offset of GLB_FEATURES (R529). -/
def Off.GLB_FEATURES : Nat := 0x4
/-- GLB_FEATURES.POLICY (R529). -/
def Fld.GLB_FEATURES_POLICY : Fld := ⟨0x4, 24, 2⟩
/-- GLB_FEATURES.RATE_MAX (R529). -/
def Fld.GLB_FEATURES_RATE_MAX : Fld := ⟨0x4, 20, 3⟩
/-- GLB_FEATURES.ATOMICS (R529). -/
def Fld.GLB_FEATURES_ATOMICS : Fld := ⟨0x4, 17, 1⟩
/-- GLB_FEATURES.POOL (R529). -/
def Fld.GLB_FEATURES_POOL : Fld := ⟨0x4, 16, 1⟩
/-- GLB_FEATURES.PORTS (R529). -/
def Fld.GLB_FEATURES_PORTS : Fld := ⟨0x4, 0, 16⟩
/-- The window offset of GLB_DEVID (R530). -/
def Off.GLB_DEVID (i : Nat) : Nat := 0x10 + 0x4 * i
/-- GLB_DEVID.ID (R530). -/
def Fld.GLB_DEVID_ID (i : Nat) : Fld := ⟨0x10 + 0x4 * i, 0, 32⟩
/-- The window offset of GLB_FW_STAT (R531). -/
def Off.GLB_FW_STAT : Nat := 0x20
/-- GLB_FW_STAT.RESTARTS (R531). -/
def Fld.GLB_FW_STAT_RESTARTS : Fld := ⟨0x20, 24, 8⟩
/-- GLB_FW_STAT.IFACE (R531). -/
def Fld.GLB_FW_STAT_IFACE : Fld := ⟨0x20, 16, 8⟩
/-- GLB_FW_STAT.READY (R531). -/
def Fld.GLB_FW_STAT_READY : Fld := ⟨0x20, 3, 1⟩
/-- GLB_FW_STAT.IMAGE (R531). -/
def Fld.GLB_FW_STAT_IMAGE : Fld := ⟨0x20, 0, 3⟩
/-- The window offset of GLB_FW_VER (R532). -/
def Off.GLB_FW_VER : Nat := 0x24
/-- GLB_FW_VER.MAJOR (R532). -/
def Fld.GLB_FW_VER_MAJOR : Fld := ⟨0x24, 24, 8⟩
/-- GLB_FW_VER.MINOR (R532). -/
def Fld.GLB_FW_VER_MINOR : Fld := ⟨0x24, 16, 8⟩
/-- GLB_FW_VER.BUILD (R532). -/
def Fld.GLB_FW_VER_BUILD : Fld := ⟨0x24, 0, 16⟩
/-- The window offset of GLB_FW_SVN (R532). -/
def Off.GLB_FW_SVN : Nat := 0x28
/-- GLB_FW_SVN.SVN (R532). -/
def Fld.GLB_FW_SVN_SVN : Fld := ⟨0x28, 0, 32⟩
/-- The window offset of GLB_FW_CAP (R533). -/
def Off.GLB_FW_CAP : Nat := 0x2C
/-- GLB_FW_CAP.CAP (R533). -/
def Fld.GLB_FW_CAP_CAP : Fld := ⟨0x2C, 0, 17⟩
/-- The window offset of GLB_FW_CTRL (R534). -/
def Off.GLB_FW_CTRL : Nat := 0x30
/-- GLB_FW_CTRL.CORE_RESET (R534). -/
def Fld.GLB_FW_CTRL_CORE_RESET : Fld := ⟨0x30, 31, 1⟩
/-- GLB_FW_CTRL.WDT_MS (R534). -/
def Fld.GLB_FW_CTRL_WDT_MS : Fld := ⟨0x30, 0, 16⟩
/-- The window offset of GLB_STEWARD (R535). -/
def Off.GLB_STEWARD : Nat := 0x40
/-- GLB_STEWARD.LOCK (R535). -/
def Fld.GLB_STEWARD_LOCK : Fld := ⟨0x40, 31, 1⟩
/-- GLB_STEWARD.MASK (R535). -/
def Fld.GLB_STEWARD_MASK : Fld := ⟨0x40, 0, 17⟩
/-- The window offset of GLB_WHOAMI (R536). -/
def Off.GLB_WHOAMI : Nat := 0x44
/-- GLB_WHOAMI.WORKSHOP (R536). -/
def Fld.GLB_WHOAMI_WORKSHOP : Fld := ⟨0x44, 6, 1⟩
/-- GLB_WHOAMI.STEWARD (R536). -/
def Fld.GLB_WHOAMI_STEWARD : Fld := ⟨0x44, 5, 1⟩
/-- GLB_WHOAMI.SOURCE (R536). -/
def Fld.GLB_WHOAMI_SOURCE : Fld := ⟨0x44, 0, 5⟩
/-- The window offset of GLB_DENY (R537). -/
def Off.GLB_DENY : Nat := 0x48
/-- GLB_DENY.COUNT (R537). -/
def Fld.GLB_DENY_COUNT : Fld := ⟨0x48, 0, 16⟩
/-- The window offset of GLB_DENY_LAST (R537). -/
def Off.GLB_DENY_LAST : Nat := 0x4C
/-- GLB_DENY_LAST.KIND (R537). -/
def Fld.GLB_DENY_LAST_KIND : Fld := ⟨0x4C, 31, 1⟩
/-- GLB_DENY_LAST.SOURCE (R537). -/
def Fld.GLB_DENY_LAST_SOURCE : Fld := ⟨0x4C, 20, 5⟩
/-- GLB_DENY_LAST.TARGET (R537). -/
def Fld.GLB_DENY_LAST_TARGET : Fld := ⟨0x4C, 0, 20⟩
/-- The window offset of GLB_MSRAM_ERR (R538). -/
def Off.GLB_MSRAM_ERR : Nat := 0x50
/-- GLB_MSRAM_ERR.UE (R538). -/
def Fld.GLB_MSRAM_ERR_UE : Fld := ⟨0x50, 16, 16⟩
/-- GLB_MSRAM_ERR.CE (R538). -/
def Fld.GLB_MSRAM_ERR_CE : Fld := ⟨0x50, 0, 16⟩
/-- The window offset of GLB_MAP_CTRL (R278). -/
def Off.GLB_MAP_CTRL : Nat := 0x400
/-- GLB_MAP_CTRL.LOCKED (R278). -/
def Fld.GLB_MAP_CTRL_LOCKED : Fld := ⟨0x400, 31, 1⟩
/-- GLB_MAP_CTRL.RETIRED (R278). -/
def Fld.GLB_MAP_CTRL_RETIRED : Fld := ⟨0x400, 8, 6⟩
/-- GLB_MAP_CTRL.MAP (R278). -/
def Fld.GLB_MAP_CTRL_MAP : Fld := ⟨0x400, 1, 1⟩
/-- GLB_MAP_CTRL.SEL (R278). -/
def Fld.GLB_MAP_CTRL_SEL : Fld := ⟨0x400, 0, 1⟩
/-- The window offset of GLB_MAP_I_LO (R279). -/
def Off.GLB_MAP_I_LO (i : Nat) : Nat := 0x410 + 0x8 * i
/-- GLB_MAP_I_LO.MASK (R279). -/
def Fld.GLB_MAP_I_LO_MASK (i : Nat) : Fld := ⟨0x410 + 0x8 * i, 0, 32⟩
/-- The window offset of GLB_MAP_I_HI (R279). -/
def Off.GLB_MAP_I_HI (i : Nat) : Nat := 0x414 + 0x8 * i
/-- GLB_MAP_I_HI.MASK (R279). -/
def Fld.GLB_MAP_I_HI_MASK (i : Nat) : Fld := ⟨0x414 + 0x8 * i, 0, 5⟩
/-- The window offset of GLB_MAP_P_LO (R280). -/
def Off.GLB_MAP_P_LO (i : Nat) : Nat := 0x470 + 0x8 * i
/-- GLB_MAP_P_LO.MASK (R280). -/
def Fld.GLB_MAP_P_LO_MASK (i : Nat) : Fld := ⟨0x470 + 0x8 * i, 0, 32⟩
/-- The window offset of GLB_MAP_P_HI (R280). -/
def Off.GLB_MAP_P_HI (i : Nat) : Nat := 0x474 + 0x8 * i
/-- GLB_MAP_P_HI.MASK (R280). -/
def Fld.GLB_MAP_P_HI_MASK (i : Nat) : Fld := ⟨0x474 + 0x8 * i, 0, 5⟩
/-- The window offset of GLB_SCRUB_EN (R379). -/
def Off.GLB_SCRUB_EN (i : Nat) : Nat := 0x600 + 0x4 * i
/-- GLB_SCRUB_EN.EN (R379). -/
def Fld.GLB_SCRUB_EN_EN (i : Nat) : Fld := ⟨0x600 + 0x4 * i, 0, 32⟩
/-- The window offset of GLB_POOL_WINDOW (R240). -/
def Off.GLB_POOL_WINDOW : Nat := 0x800
/-- GLB_POOL_WINDOW.LOCKED (R240). -/
def Fld.GLB_POOL_WINDOW_LOCKED : Fld := ⟨0x800, 31, 1⟩
/-- GLB_POOL_WINDOW.SIZE (R240). -/
def Fld.GLB_POOL_WINDOW_SIZE : Fld := ⟨0x800, 16, 6⟩
/-- GLB_POOL_WINDOW.BASE (R240). -/
def Fld.GLB_POOL_WINDOW_BASE : Fld := ⟨0x800, 0, 11⟩
/-- The window offset of GLB_SP_LO (R241). -/
def Off.GLB_SP_LO (i : Nat) : Nat := 0x900 + 0x8 * i
/-- GLB_SP_LO.SIZE (R241). -/
def Fld.GLB_SP_LO_SIZE (i : Nat) : Fld := ⟨0x900 + 0x8 * i, 16, 4⟩
/-- GLB_SP_LO.BASE (R241). -/
def Fld.GLB_SP_LO_BASE (i : Nat) : Fld := ⟨0x900 + 0x8 * i, 0, 11⟩
/-- The window offset of GLB_SP_HI (R242). -/
def Off.GLB_SP_HI (i : Nat) : Nat := 0x904 + 0x8 * i
/-- GLB_SP_HI.VALID (R242). -/
def Fld.GLB_SP_HI_VALID (i : Nat) : Fld := ⟨0x904 + 0x8 * i, 31, 1⟩
/-- GLB_SP_HI.CFG_LOCAL (R242). -/
def Fld.GLB_SP_HI_CFG_LOCAL (i : Nat) : Fld := ⟨0x904 + 0x8 * i, 30, 1⟩
/-- GLB_SP_HI.ALT_V (R242). -/
def Fld.GLB_SP_HI_ALT_V (i : Nat) : Fld := ⟨0x904 + 0x8 * i, 29, 1⟩
/-- GLB_SP_HI.ALT_PORT (R242). -/
def Fld.GLB_SP_HI_ALT_PORT (i : Nat) : Fld := ⟨0x904 + 0x8 * i, 8, 4⟩
/-- GLB_SP_HI.PORT (R242). -/
def Fld.GLB_SP_HI_PORT (i : Nat) : Fld := ⟨0x904 + 0x8 * i, 0, 4⟩
/-- The window offset of GLB_BIST_CTRL (R422). -/
def Off.GLB_BIST_CTRL : Nat := 0xA00
/-- GLB_BIST_CTRL.MAX (R422). -/
def Fld.GLB_BIST_CTRL_MAX : Fld := ⟨0xA00, 8, 4⟩
/-- GLB_BIST_CTRL.BG (R422). -/
def Fld.GLB_BIST_CTRL_BG : Fld := ⟨0xA00, 4, 2⟩
/-- GLB_BIST_CTRL.SWEEP (R422). -/
def Fld.GLB_BIST_CTRL_SWEEP : Fld := ⟨0xA00, 0, 1⟩
/-- The window offset of GLB_BIST_SWEEP (R423). -/
def Off.GLB_BIST_SWEEP : Nat := 0xA04
/-- GLB_BIST_SWEEP.MASK (R423). -/
def Fld.GLB_BIST_SWEEP_MASK : Fld := ⟨0xA04, 16, 16⟩
/-- GLB_BIST_SWEEP.INTERVAL (R423). -/
def Fld.GLB_BIST_SWEEP_INTERVAL : Fld := ⟨0xA04, 0, 16⟩
/-- The window offset of GLB_BIST_STAT (R424). -/
def Off.GLB_BIST_STAT : Nat := 0xA08
/-- GLB_BIST_STAT.ACTIVE (R424). -/
def Fld.GLB_BIST_STAT_ACTIVE : Fld := ⟨0xA08, 20, 4⟩
/-- GLB_BIST_STAT.CERT (R424). -/
def Fld.GLB_BIST_STAT_CERT : Fld := ⟨0xA08, 13, 3⟩
/-- GLB_BIST_STAT.PARK_DONE (R424). -/
def Fld.GLB_BIST_STAT_PARK_DONE : Fld := ⟨0xA08, 12, 1⟩
/-- GLB_BIST_STAT.POLICY (R424). -/
def Fld.GLB_BIST_STAT_POLICY : Fld := ⟨0xA08, 10, 2⟩
/-- GLB_BIST_STAT.PHASE (R424). -/
def Fld.GLB_BIST_STAT_PHASE : Fld := ⟨0xA08, 0, 3⟩
/-- The window offset of GLB_PARK_SEQ (R425). -/
def Off.GLB_PARK_SEQ : Nat := 0xA0C
/-- GLB_PARK_SEQ.S (R425). -/
def Fld.GLB_PARK_SEQ_S : Fld := ⟨0xA0C, 0, 32⟩
/-- The window offset of GLB_CAL_CTRL (R491). -/
def Off.GLB_CAL_CTRL : Nat := 0xB00
/-- GLB_CAL_CTRL.OSC_LEARN (R491). -/
def Fld.GLB_CAL_CTRL_OSC_LEARN : Fld := ⟨0xB00, 0, 1⟩
/-- The window offset of GLB_OSC_TRIM (R492). -/
def Off.GLB_OSC_TRIM : Nat := 0xB04
/-- GLB_OSC_TRIM.ERR (R492). -/
def Fld.GLB_OSC_TRIM_ERR : Fld := ⟨0xB04, 16, 16⟩
/-- GLB_OSC_TRIM.CODE (R492). -/
def Fld.GLB_OSC_TRIM_CODE : Fld := ⟨0xB04, 0, 8⟩
/-- The window offset of GLB_OSC_TABLE (R493). -/
def Off.GLB_OSC_TABLE (i : Nat) : Nat := 0xB10 + 0x4 * i
/-- GLB_OSC_TABLE.CODE (R493). -/
def Fld.GLB_OSC_TABLE_CODE (i : Nat) : Fld := ⟨0xB10 + 0x4 * i, 0, 8⟩
/-- The window offset of GLB_SEC_STAT (R641). -/
def Off.GLB_SEC_STAT : Nat := 0xC00
/-- GLB_SEC_STAT.IDENT (R641). -/
def Fld.GLB_SEC_STAT_IDENT : Fld := ⟨0xC00, 31, 1⟩
/-- GLB_SEC_STAT.PROVISIONED (R641). -/
def Fld.GLB_SEC_STAT_PROVISIONED : Fld := ⟨0xC00, 30, 1⟩
/-- GLB_SEC_STAT.VKEY (R641). -/
def Fld.GLB_SEC_STAT_VKEY : Fld := ⟨0xC00, 29, 1⟩
/-- GLB_SEC_STAT.CKEY (R641). -/
def Fld.GLB_SEC_STAT_CKEY : Fld := ⟨0xC00, 28, 1⟩
/-- GLB_SEC_STAT.WORKSHOP (R641). -/
def Fld.GLB_SEC_STAT_WORKSHOP : Fld := ⟨0xC00, 8, 1⟩
/-- GLB_SEC_STAT.SIGNER (R641). -/
def Fld.GLB_SEC_STAT_SIGNER : Fld := ⟨0xC00, 4, 2⟩
/-- The window offset of GLB_SEC_CTRL (R642). -/
def Off.GLB_SEC_CTRL : Nat := 0xC04
/-- GLB_SEC_CTRL.ARB_AUTO (R642). -/
def Fld.GLB_SEC_CTRL_ARB_AUTO : Fld := ⟨0xC04, 0, 1⟩
/-- The window offset of GLB_SEC_ARB (R643). -/
def Off.GLB_SEC_ARB : Nat := 0xC08
/-- GLB_SEC_ARB.PENDING (R643). -/
def Fld.GLB_SEC_ARB_PENDING : Fld := ⟨0xC08, 8, 7⟩
/-- GLB_SEC_ARB.FLOOR (R643). -/
def Fld.GLB_SEC_ARB_FLOOR : Fld := ⟨0xC08, 0, 7⟩
/-- The window offset of GLB_SEC_KEYID_V (R644). -/
def Off.GLB_SEC_KEYID_V : Nat := 0xC10
/-- GLB_SEC_KEYID_V.KEY_ID (R644). -/
def Fld.GLB_SEC_KEYID_V_KEY_ID : Fld := ⟨0xC10, 0, 32⟩
/-- The window offset of GLB_SEC_KEYID_C (R644). -/
def Off.GLB_SEC_KEYID_C : Nat := 0xC14
/-- GLB_SEC_KEYID_C.KEY_ID (R644). -/
def Fld.GLB_SEC_KEYID_C_KEY_ID : Fld := ⟨0xC14, 0, 32⟩
/-- The window offset of GLB_SEC_CHAL (R645). -/
def Off.GLB_SEC_CHAL (i : Nat) : Nat := 0xC20 + 0x4 * i
/-- GLB_SEC_CHAL.CHAL (R645). -/
def Fld.GLB_SEC_CHAL_CHAL (i : Nat) : Fld := ⟨0xC20 + 0x4 * i, 0, 32⟩
/-- The window offset of GLB_PWR_CTRL (R710). -/
def Off.GLB_PWR_CTRL : Nat := 0xD00
/-- GLB_PWR_CTRL.EVT_WAKE (R710). -/
def Fld.GLB_PWR_CTRL_EVT_WAKE : Fld := ⟨0xD00, 3, 1⟩
/-- GLB_PWR_CTRL.WAKE_IN_EN (R710). -/
def Fld.GLB_PWR_CTRL_WAKE_IN_EN : Fld := ⟨0xD00, 2, 1⟩
/-- The window offset of GLB_PWR_STAT (R711). -/
def Off.GLB_PWR_STAT : Nat := 0xD04
/-- GLB_PWR_STAT.DECLINED (R711). -/
def Fld.GLB_PWR_STAT_DECLINED : Fld := ⟨0xD04, 28, 1⟩
/-- GLB_PWR_STAT.DECLINE_PORT (R711). -/
def Fld.GLB_PWR_STAT_DECLINE_PORT : Fld := ⟨0xD04, 24, 4⟩
/-- GLB_PWR_STAT.WAKE_PORT (R711). -/
def Fld.GLB_PWR_STAT_WAKE_PORT : Fld := ⟨0xD04, 20, 4⟩
/-- GLB_PWR_STAT.WAKE_CAUSE (R711). -/
def Fld.GLB_PWR_STAT_WAKE_CAUSE : Fld := ⟨0xD04, 16, 4⟩
/-- GLB_PWR_STAT.SHUT (R711). -/
def Fld.GLB_PWR_STAT_SHUT : Fld := ⟨0xD04, 8, 1⟩
/-- GLB_PWR_STAT.RETURN (R711). -/
def Fld.GLB_PWR_STAT_RETURN : Fld := ⟨0xD04, 4, 1⟩
/-- GLB_PWR_STAT.TRANS (R711). -/
def Fld.GLB_PWR_STAT_TRANS : Fld := ⟨0xD04, 3, 1⟩
/-- GLB_PWR_STAT.STATE (R711). -/
def Fld.GLB_PWR_STAT_STATE : Fld := ⟨0xD04, 0, 3⟩
/-- The window offset of GLB_RST_PORT (R712). -/
def Off.GLB_RST_PORT : Nat := 0xD08
/-- GLB_RST_PORT.RESET (R712). -/
def Fld.GLB_RST_PORT_RESET : Fld := ⟨0xD08, 0, 16⟩
/-- The window offset of GLB_RST_PAV (R712). -/
def Off.GLB_RST_PAV : Nat := 0xD0C
/-- GLB_RST_PAV.RESET (R712). -/
def Fld.GLB_RST_PAV_RESET : Fld := ⟨0xD0C, 0, 32⟩
/-- The window offset of GLB_RST_STAT (R713). -/
def Off.GLB_RST_STAT : Nat := 0xD10
/-- GLB_RST_STAT.COLD (R713). -/
def Fld.GLB_RST_STAT_COLD : Fld := ⟨0xD10, 24, 8⟩
/-- GLB_RST_STAT.REFCLK (R713). -/
def Fld.GLB_RST_STAT_REFCLK : Fld := ⟨0xD10, 16, 8⟩
/-- GLB_RST_STAT.CAUSE (R713). -/
def Fld.GLB_RST_STAT_CAUSE : Fld := ⟨0xD10, 0, 2⟩
/-- The window offset of GLB_BOOT_CTRL (R714). -/
def Off.GLB_BOOT_CTRL : Nat := 0xD20
/-- GLB_BOOT_CTRL.RECOV_WAIT (R714). -/
def Fld.GLB_BOOT_CTRL_RECOV_WAIT : Fld := ⟨0xD20, 16, 8⟩
/-- GLB_BOOT_CTRL.CERT_WAIT (R714). -/
def Fld.GLB_BOOT_CTRL_CERT_WAIT : Fld := ⟨0xD20, 0, 16⟩
/-- The window offset of GLB_BOOT_STAT (R715). -/
def Off.GLB_BOOT_STAT : Nat := 0xD24
/-- GLB_BOOT_STAT.ELAPSED (R715). -/
def Fld.GLB_BOOT_STAT_ELAPSED : Fld := ⟨0xD24, 8, 24⟩
/-- GLB_BOOT_STAT.DONE (R715). -/
def Fld.GLB_BOOT_STAT_DONE : Fld := ⟨0xD24, 4, 1⟩
/-- GLB_BOOT_STAT.PHASE (R715). -/
def Fld.GLB_BOOT_STAT_PHASE : Fld := ⟨0xD24, 0, 4⟩
/-- The window offset of GLB_PAD_CTRL (R741). -/
def Off.GLB_PAD_CTRL : Nat := 0xE00
/-- GLB_PAD_CTRL.CAD_FILT (R741). -/
def Fld.GLB_PAD_CTRL_CAD_FILT : Fld := ⟨0xE00, 8, 2⟩
/-- GLB_PAD_CTRL.SDA_FALL (R741). -/
def Fld.GLB_PAD_CTRL_SDA_FALL : Fld := ⟨0xE00, 4, 1⟩
/-- GLB_PAD_CTRL.TDO_DRV (R741). -/
def Fld.GLB_PAD_CTRL_TDO_DRV : Fld := ⟨0xE00, 0, 1⟩
/-- The window offset of CAD_CTRL (R327). -/
def Off.CAD_CTRL : Nat := 0x1000
/-- CAD_CTRL.PORT (R327). -/
def Fld.CAD_CTRL_PORT : Fld := ⟨0x1000, 4, 4⟩
/-- CAD_CTRL.SRC (R327). -/
def Fld.CAD_CTRL_SRC : Fld := ⟨0x1000, 0, 2⟩
/-- The window offset of CAD_STAT (R328). -/
def Off.CAD_STAT : Nat := 0x1004
/-- CAD_STAT.FW_CAUSE (R328). -/
def Fld.CAD_STAT_FW_CAUSE : Fld := ⟨0x1004, 8, 2⟩
/-- CAD_STAT.LEARNT (R328). -/
def Fld.CAD_STAT_LEARNT : Fld := ⟨0x1004, 5, 1⟩
/-- CAD_STAT.OSC (R328). -/
def Fld.CAD_STAT_OSC : Fld := ⟨0x1004, 4, 1⟩
/-- CAD_STAT.STATE (R328). -/
def Fld.CAD_STAT_STATE : Fld := ⟨0x1004, 2, 2⟩
/-- CAD_STAT.MISS (R328). -/
def Fld.CAD_STAT_MISS : Fld := ⟨0x1004, 1, 1⟩
/-- CAD_STAT.LOCK (R328). -/
def Fld.CAD_STAT_LOCK : Fld := ⟨0x1004, 0, 1⟩
/-- The window offset of CAD_LEN (R329). -/
def Off.CAD_LEN : Nat := 0x1008
/-- CAD_LEN.LEN (R329). -/
def Fld.CAD_LEN_LEN : Fld := ⟨0x1008, 0, 23⟩
/-- The window offset of CAD_NOW_LO (R330). -/
def Off.CAD_NOW_LO : Nat := 0x1010
/-- CAD_NOW_LO.TURN (R330). -/
def Fld.CAD_NOW_LO_TURN : Fld := ⟨0x1010, 10, 22⟩
/-- CAD_NOW_LO.ANGLE (R330). -/
def Fld.CAD_NOW_LO_ANGLE : Fld := ⟨0x1010, 0, 10⟩
/-- The window offset of CAD_NOW_HI (R330). -/
def Off.CAD_NOW_HI : Nat := 0x1014
/-- CAD_NOW_HI.TURN (R330). -/
def Fld.CAD_NOW_HI_TURN : Fld := ⟨0x1014, 0, 18⟩
/-- The window offset of CAD_RELOCK (R331). -/
def Off.CAD_RELOCK : Nat := 0x1018
/-- CAD_RELOCK.TURN (R331). -/
def Fld.CAD_RELOCK_TURN : Fld := ⟨0x1018, 10, 16⟩
/-- CAD_RELOCK.OFFSET (R331). -/
def Fld.CAD_RELOCK_OFFSET : Fld := ⟨0x1018, 0, 10⟩
/-- The window offset of CAD_PORT_OFS (R332). -/
def Off.CAD_PORT_OFS : Nat := 0x101C
/-- CAD_PORT_OFS.OFS (R332). -/
def Fld.CAD_PORT_OFS_OFS : Fld := ⟨0x101C, 0, 16⟩
/-- The window offset of CAD_SLOT (R333). -/
def Off.CAD_SLOT (i : Nat) : Nat := 0x1020 + 0x4 * i
/-- CAD_SLOT.STAGGER (R333). -/
def Fld.CAD_SLOT_STAGGER (i : Nat) : Fld := ⟨0x1020 + 0x4 * i, 20, 8⟩
/-- CAD_SLOT.WIDTH (R333). -/
def Fld.CAD_SLOT_WIDTH (i : Nat) : Fld := ⟨0x1020 + 0x4 * i, 10, 10⟩
/-- CAD_SLOT.ANGLE (R333). -/
def Fld.CAD_SLOT_ANGLE (i : Nat) : Fld := ⟨0x1020 + 0x4 * i, 0, 10⟩
/-- The window offset of CAD_CNT (R334). -/
def Off.CAD_CNT : Nat := 0x1030
/-- CAD_CNT.MISMATCH (R334). -/
def Fld.CAD_CNT_MISMATCH : Fld := ⟨0x1030, 24, 8⟩
/-- CAD_CNT.LOCKS (R334). -/
def Fld.CAD_CNT_LOCKS : Fld := ⟨0x1030, 16, 8⟩
/-- CAD_CNT.MISSED (R334). -/
def Fld.CAD_CNT_MISSED : Fld := ⟨0x1030, 8, 8⟩
/-- CAD_CNT.FREEWHEEL (R334). -/
def Fld.CAD_CNT_FREEWHEEL : Fld := ⟨0x1030, 0, 8⟩
/-- The window offset of THM_CTRL (R452). -/
def Off.THM_CTRL : Nat := 0x2000
/-- THM_CTRL.THM_EN (R452). -/
def Fld.THM_CTRL_THM_EN : Fld := ⟨0x2000, 5, 1⟩
/-- THM_CTRL.TD2_EN (R452). -/
def Fld.THM_CTRL_TD2_EN : Fld := ⟨0x2000, 4, 1⟩
/-- THM_CTRL.TD1_EN (R452). -/
def Fld.THM_CTRL_TD1_EN : Fld := ⟨0x2000, 3, 1⟩
/-- THM_CTRL.HOST_THR (R452). -/
def Fld.THM_CTRL_HOST_THR : Fld := ⟨0x2000, 0, 2⟩
/-- The window offset of THM_STAT (R453). -/
def Off.THM_STAT : Nat := 0x2004
/-- THM_STAT.HOT_DIE (R453). -/
def Fld.THM_STAT_HOT_DIE : Fld := ⟨0x2004, 20, 4⟩
/-- THM_STAT.INIT (R453). -/
def Fld.THM_STAT_INIT : Fld := ⟨0x2004, 11, 1⟩
/-- THM_STAT.FALLBACK (R453). -/
def Fld.THM_STAT_FALLBACK : Fld := ⟨0x2004, 10, 1⟩
/-- THM_STAT.TRIP (R453). -/
def Fld.THM_STAT_TRIP : Fld := ⟨0x2004, 9, 1⟩
/-- THM_STAT.HALT (R453). -/
def Fld.THM_STAT_HALT : Fld := ⟨0x2004, 8, 1⟩
/-- THM_STAT.THR (R453). -/
def Fld.THM_STAT_THR : Fld := ⟨0x2004, 4, 2⟩
/-- THM_STAT.BAND (R453). -/
def Fld.THM_STAT_BAND : Fld := ⟨0x2004, 0, 3⟩
/-- The window offset of THM_TDRAM (R454). -/
def Off.THM_TDRAM : Nat := 0x2008
/-- THM_TDRAM.TEMP (R454). -/
def Fld.THM_TDRAM_TEMP : Fld := ⟨0x2008, 0, 16⟩
/-- The window offset of THM_TBASE (R454). -/
def Off.THM_TBASE : Nat := 0x200C
/-- THM_TBASE.TEMP (R454). -/
def Fld.THM_TBASE_TEMP : Fld := ⟨0x200C, 0, 16⟩
/-- The window offset of THM_PEAK (R455). -/
def Off.THM_PEAK : Nat := 0x2010
/-- THM_PEAK.TBASE (R455). -/
def Fld.THM_PEAK_TBASE : Fld := ⟨0x2010, 16, 16⟩
/-- THM_PEAK.TDRAM (R455). -/
def Fld.THM_PEAK_TDRAM : Fld := ⟨0x2010, 0, 16⟩
/-- The window offset of THM_HALT (R456). -/
def Off.THM_HALT : Nat := 0x2014
/-- THM_HALT.CLEAR (R456). -/
def Fld.THM_HALT_CLEAR : Fld := ⟨0x2014, 31, 1⟩
/-- THM_HALT.TDRAM_AT_HALT (R456). -/
def Fld.THM_HALT_TDRAM_AT_HALT : Fld := ⟨0x2014, 0, 16⟩
/-- The window offset of THM_BAND_CNT (R457). -/
def Off.THM_BAND_CNT : Nat := 0x2018
/-- THM_BAND_CNT.HALTS (R457). -/
def Fld.THM_BAND_CNT_HALTS : Fld := ⟨0x2018, 24, 8⟩
/-- THM_BAND_CNT.DOWN (R457). -/
def Fld.THM_BAND_CNT_DOWN : Fld := ⟨0x2018, 8, 8⟩
/-- THM_BAND_CNT.UP (R457). -/
def Fld.THM_BAND_CNT_UP : Fld := ⟨0x2018, 0, 8⟩
/-- The window offset of THM_FAULT (R458). -/
def Off.THM_FAULT : Nat := 0x201C
/-- THM_FAULT.FAULT (R458). -/
def Fld.THM_FAULT_FAULT : Fld := ⟨0x201C, 0, 27⟩
/-- The window offset of THM_ALERT (R459). -/
def Off.THM_ALERT (i : Nat) : Nat := 0x2020 + 0x4 * i
/-- THM_ALERT.EN (R459). -/
def Fld.THM_ALERT_EN (i : Nat) : Fld := ⟨0x2020 + 0x4 * i, 31, 1⟩
/-- THM_ALERT.ACTIVE (R459). -/
def Fld.THM_ALERT_ACTIVE (i : Nat) : Fld := ⟨0x2020 + 0x4 * i, 30, 1⟩
/-- THM_ALERT.HIGH (R459). -/
def Fld.THM_ALERT_HIGH (i : Nat) : Fld := ⟨0x2020 + 0x4 * i, 0, 16⟩
/-- The window offset of THM_EXT_CFG (R460). -/
def Off.THM_EXT_CFG : Nat := 0x2040
/-- THM_EXT_CFG.IDEAL2 (R460). -/
def Fld.THM_EXT_CFG_IDEAL2 : Fld := ⟨0x2040, 16, 10⟩
/-- THM_EXT_CFG.IDEAL1 (R460). -/
def Fld.THM_EXT_CFG_IDEAL1 : Fld := ⟨0x2040, 0, 10⟩
/-- The window offset of THM_THERM_CFG (R461). -/
def Off.THM_THERM_CFG : Nat := 0x2044
/-- THM_THERM_CFG.BETA (R461). -/
def Fld.THM_THERM_CFG_BETA : Fld := ⟨0x2044, 16, 16⟩
/-- THM_THERM_CFG.RNOM (R461). -/
def Fld.THM_THERM_CFG_RNOM : Fld := ⟨0x2044, 0, 16⟩
/-- The window offset of THM_SENSOR (R462). -/
def Off.THM_SENSOR (i : Nat) : Nat := 0x2100 + 0x4 * i
/-- THM_SENSOR.VALID (R462). -/
def Fld.THM_SENSOR_VALID (i : Nat) : Fld := ⟨0x2100 + 0x4 * i, 31, 1⟩
/-- THM_SENSOR.FAULT (R462). -/
def Fld.THM_SENSOR_FAULT (i : Nat) : Fld := ⟨0x2100 + 0x4 * i, 30, 1⟩
/-- THM_SENSOR.TEMP (R462). -/
def Fld.THM_SENSOR_TEMP (i : Nat) : Fld := ⟨0x2100 + 0x4 * i, 0, 16⟩
/-- The window offset of THM_TRIM (R490). -/
def Off.THM_TRIM (i : Nat) : Nat := 0x2200 + 0x4 * i
/-- THM_TRIM.OFFSET (R490). -/
def Fld.THM_TRIM_OFFSET (i : Nat) : Fld := ⟨0x2200 + 0x4 * i, 0, 16⟩
/-- The window offset of OTP_STAT (R610). -/
def Off.OTP_STAT : Nat := 0x3000
/-- OTP_STAT.SPARES_USED (R610). -/
def Fld.OTP_STAT_SPARES_USED : Fld := ⟨0x3000, 8, 6⟩
/-- OTP_STAT.KEY_MARGINAL (R610). -/
def Fld.OTP_STAT_KEY_MARGINAL : Fld := ⟨0x3000, 3, 1⟩
/-- OTP_STAT.BUSY (R610). -/
def Fld.OTP_STAT_BUSY : Fld := ⟨0x3000, 2, 1⟩
/-- OTP_STAT.SUPPLY (R610). -/
def Fld.OTP_STAT_SUPPLY : Fld := ⟨0x3000, 1, 1⟩
/-- OTP_STAT.READ_DONE (R610). -/
def Fld.OTP_STAT_READ_DONE : Fld := ⟨0x3000, 0, 1⟩
/-- The window offset of OTP_ARB (R611). -/
def Off.OTP_ARB : Nat := 0x3004
/-- OTP_ARB.VALUE (R611). -/
def Fld.OTP_ARB_VALUE : Fld := ⟨0x3004, 0, 7⟩
/-- The window offset of OTP_PROG (R612). -/
def Off.OTP_PROG : Nat := 0x3008
/-- OTP_PROG.WORDS (R612). -/
def Fld.OTP_PROG_WORDS : Fld := ⟨0x3008, 16, 16⟩
/-- OTP_PROG.LAST (R612). -/
def Fld.OTP_PROG_LAST : Fld := ⟨0x3008, 0, 13⟩
/-- The window offset of OTP_REGION (R613). -/
def Off.OTP_REGION (i : Nat) : Nat := 0x3010 + 0x4 * i
/-- OTP_REGION.PRESENT (R613). -/
def Fld.OTP_REGION_PRESENT (i : Nat) : Fld := ⟨0x3010 + 0x4 * i, 31, 1⟩
/-- OTP_REGION.LOCKED (R613). -/
def Fld.OTP_REGION_LOCKED (i : Nat) : Fld := ⟨0x3010 + 0x4 * i, 30, 1⟩
/-- OTP_REGION.SEALED (R613). -/
def Fld.OTP_REGION_SEALED (i : Nat) : Fld := ⟨0x3010 + 0x4 * i, 29, 1⟩
/-- OTP_REGION.LENGTH (R613). -/
def Fld.OTP_REGION_LENGTH (i : Nat) : Fld := ⟨0x3010 + 0x4 * i, 0, 16⟩
/-- The window offset of OTP_MARGIN_STAT (R614). -/
def Off.OTP_MARGIN_STAT : Nat := 0x3040
/-- OTP_MARGIN_STAT.COUNT (R614). -/
def Fld.OTP_MARGIN_STAT_COUNT : Fld := ⟨0x3040, 0, 8⟩
/-- The window offset of OTP_MARGIN (R614). -/
def Off.OTP_MARGIN (i : Nat) : Nat := 0x3080 + 0x4 * i
/-- OTP_MARGIN.TBASE (R614). -/
def Fld.OTP_MARGIN_TBASE (i : Nat) : Fld := ⟨0x3080 + 0x4 * i, 16, 16⟩
/-- OTP_MARGIN.KIND (R614). -/
def Fld.OTP_MARGIN_KIND (i : Nat) : Fld := ⟨0x3080 + 0x4 * i, 13, 3⟩
/-- OTP_MARGIN.INDEX (R614). -/
def Fld.OTP_MARGIN_INDEX (i : Nat) : Fld := ⟨0x3080 + 0x4 * i, 0, 13⟩
/-- The window offset of OTP_DF (R615). -/
def Off.OTP_DF (i : Nat) : Nat := 0x3100 + 0x4 * i
/-- OTP_DF.BITS (R615). -/
def Fld.OTP_DF_BITS (i : Nat) : Fld := ⟨0x3100 + 0x4 * i, 0, 32⟩
/-- The window offset of SB_CTRL (R670). -/
def Off.SB_CTRL : Nat := 0x4000
/-- SB_CTRL.ATTN_RETRY (R670). -/
def Fld.SB_CTRL_ATTN_RETRY : Fld := ⟨0x4000, 8, 4⟩
/-- SB_CTRL.WAKE_EN (R670). -/
def Fld.SB_CTRL_WAKE_EN : Fld := ⟨0x4000, 2, 1⟩
/-- SB_CTRL.PEC_REQ (R670). -/
def Fld.SB_CTRL_PEC_REQ : Fld := ⟨0x4000, 1, 1⟩
/-- SB_CTRL.ATTN_EN (R670). -/
def Fld.SB_CTRL_ATTN_EN : Fld := ⟨0x4000, 0, 1⟩
/-- The window offset of SB_STAT (R671). -/
def Off.SB_STAT : Nat := 0x4004
/-- SB_STAT.ATTN_PEND (R671). -/
def Fld.SB_STAT_ATTN_PEND : Fld := ⟨0x4004, 15, 1⟩
/-- SB_STAT.STATE (R671). -/
def Fld.SB_STAT_STATE : Fld := ⟨0x4004, 12, 2⟩
/-- SB_STAT.ADDR (R671). -/
def Fld.SB_STAT_ADDR : Fld := ⟨0x4004, 0, 7⟩
/-- The window offset of SB_WIN_PTR (R672). -/
def Off.SB_WIN_PTR : Nat := 0x4008
/-- SB_WIN_PTR.OFFSET (R672). -/
def Fld.SB_WIN_PTR_OFFSET : Fld := ⟨0x4008, 2, 18⟩
/-- The window offset of SB_MBX_PTR (R673). -/
def Off.SB_MBX_PTR : Nat := 0x400C
/-- SB_MBX_PTR.MBX17 (R673). -/
def Fld.SB_MBX_PTR_MBX17 : Fld := ⟨0x400C, 15, 1⟩
/-- SB_MBX_PTR.OFFSET (R673). -/
def Fld.SB_MBX_PTR_OFFSET : Fld := ⟨0x400C, 0, 9⟩
/-- The window offset of SB_RESULT (R674). -/
def Off.SB_RESULT : Nat := 0x4010
/-- SB_RESULT.CODE (R674). -/
def Fld.SB_RESULT_CODE : Fld := ⟨0x4010, 28, 4⟩
/-- SB_RESULT.WRITE (R674). -/
def Fld.SB_RESULT_WRITE : Fld := ⟨0x4010, 20, 1⟩
/-- SB_RESULT.OFFSET (R674). -/
def Fld.SB_RESULT_OFFSET : Fld := ⟨0x4010, 0, 20⟩
/-- The window offset of SB_CNT (R675). -/
def Off.SB_CNT : Nat := 0x4014
/-- SB_CNT.PROTO (R675). -/
def Fld.SB_CNT_PROTO : Fld := ⟨0x4014, 24, 8⟩
/-- SB_CNT.PEC (R675). -/
def Fld.SB_CNT_PEC : Fld := ⟨0x4014, 16, 8⟩
/-- SB_CNT.TIMEOUT (R675). -/
def Fld.SB_CNT_TIMEOUT : Fld := ⟨0x4014, 8, 8⟩
/-- SB_CNT.ATTN_MISS (R675). -/
def Fld.SB_CNT_ATTN_MISS : Fld := ⟨0x4014, 0, 8⟩
/-- The window offset of SB_XACT (R676). -/
def Off.SB_XACT : Nat := 0x4018
/-- SB_XACT.COUNT (R676). -/
def Fld.SB_XACT_COUNT : Fld := ⟨0x4018, 0, 32⟩
/-- The window offset of EVT_ROUTE (R572). -/
def Off.EVT_ROUTE : Nat := 0x10000
/-- EVT_ROUTE.WAKE (R572). -/
def Fld.EVT_ROUTE_WAKE : Fld := ⟨0x10000, 19, 1⟩
/-- EVT_ROUTE.SB_ATTN (R572). -/
def Fld.EVT_ROUTE_SB_ATTN : Fld := ⟨0x10000, 18, 1⟩
/-- EVT_ROUTE.TC (R572). -/
def Fld.EVT_ROUTE_TC : Fld := ⟨0x10000, 16, 2⟩
/-- EVT_ROUTE.PORTS (R572). -/
def Fld.EVT_ROUTE_PORTS : Fld := ⟨0x10000, 0, 16⟩
/-- The window offset of EVT_SEQ (R573). -/
def Off.EVT_SEQ : Nat := 0x10004
/-- EVT_SEQ.NEXT (R573). -/
def Fld.EVT_SEQ_NEXT : Fld := ⟨0x10004, 0, 32⟩
/-- The window offset of EVT_MERGED (R573). -/
def Off.EVT_MERGED : Nat := 0x10008
/-- EVT_MERGED.COUNT (R573). -/
def Fld.EVT_MERGED_COUNT : Fld := ⟨0x10008, 0, 32⟩
/-- The window offset of EVT_STAT (R573). -/
def Off.EVT_STAT : Nat := 0x1000C
/-- EVT_STAT.PENDING (R573). -/
def Fld.EVT_STAT_PENDING : Fld := ⟨0x1000C, 0, 11⟩
/-- The window offset of EVT_PORT (R574). -/
def Off.EVT_PORT (i : Nat) : Nat := 0x10040 + 0x4 * i
/-- EVT_PORT.LOST (R574). -/
def Fld.EVT_PORT_LOST (i : Nat) : Fld := ⟨0x10040 + 0x4 * i, 16, 16⟩
/-- EVT_PORT.BEHIND (R574). -/
def Fld.EVT_PORT_BEHIND (i : Nat) : Fld := ⟨0x10040 + 0x4 * i, 0, 12⟩
/-- The window offset of EVT_LEVEL (R575). -/
def Off.EVT_LEVEL (i : Nat) : Nat := 0x10100 + 0x4 * i
/-- EVT_LEVEL.LEVEL_15 (R575). -/
def Fld.EVT_LEVEL_LEVEL_15 (i : Nat) : Fld := ⟨0x10100 + 0x4 * i, 30, 2⟩
/-- EVT_LEVEL.LEVEL_14 (R575). -/
def Fld.EVT_LEVEL_LEVEL_14 (i : Nat) : Fld := ⟨0x10100 + 0x4 * i, 28, 2⟩
/-- EVT_LEVEL.LEVEL_13 (R575). -/
def Fld.EVT_LEVEL_LEVEL_13 (i : Nat) : Fld := ⟨0x10100 + 0x4 * i, 26, 2⟩
/-- EVT_LEVEL.LEVEL_12 (R575). -/
def Fld.EVT_LEVEL_LEVEL_12 (i : Nat) : Fld := ⟨0x10100 + 0x4 * i, 24, 2⟩
/-- EVT_LEVEL.LEVEL_11 (R575). -/
def Fld.EVT_LEVEL_LEVEL_11 (i : Nat) : Fld := ⟨0x10100 + 0x4 * i, 22, 2⟩
/-- EVT_LEVEL.LEVEL_10 (R575). -/
def Fld.EVT_LEVEL_LEVEL_10 (i : Nat) : Fld := ⟨0x10100 + 0x4 * i, 20, 2⟩
/-- EVT_LEVEL.LEVEL_9 (R575). -/
def Fld.EVT_LEVEL_LEVEL_9 (i : Nat) : Fld := ⟨0x10100 + 0x4 * i, 18, 2⟩
/-- EVT_LEVEL.LEVEL_8 (R575). -/
def Fld.EVT_LEVEL_LEVEL_8 (i : Nat) : Fld := ⟨0x10100 + 0x4 * i, 16, 2⟩
/-- EVT_LEVEL.LEVEL_7 (R575). -/
def Fld.EVT_LEVEL_LEVEL_7 (i : Nat) : Fld := ⟨0x10100 + 0x4 * i, 14, 2⟩
/-- EVT_LEVEL.LEVEL_6 (R575). -/
def Fld.EVT_LEVEL_LEVEL_6 (i : Nat) : Fld := ⟨0x10100 + 0x4 * i, 12, 2⟩
/-- EVT_LEVEL.LEVEL_5 (R575). -/
def Fld.EVT_LEVEL_LEVEL_5 (i : Nat) : Fld := ⟨0x10100 + 0x4 * i, 10, 2⟩
/-- EVT_LEVEL.LEVEL_4 (R575). -/
def Fld.EVT_LEVEL_LEVEL_4 (i : Nat) : Fld := ⟨0x10100 + 0x4 * i, 8, 2⟩
/-- EVT_LEVEL.LEVEL_3 (R575). -/
def Fld.EVT_LEVEL_LEVEL_3 (i : Nat) : Fld := ⟨0x10100 + 0x4 * i, 6, 2⟩
/-- EVT_LEVEL.LEVEL_2 (R575). -/
def Fld.EVT_LEVEL_LEVEL_2 (i : Nat) : Fld := ⟨0x10100 + 0x4 * i, 4, 2⟩
/-- EVT_LEVEL.LEVEL_1 (R575). -/
def Fld.EVT_LEVEL_LEVEL_1 (i : Nat) : Fld := ⟨0x10100 + 0x4 * i, 2, 2⟩
/-- EVT_LEVEL.LEVEL_0 (R575). -/
def Fld.EVT_LEVEL_LEVEL_0 (i : Nat) : Fld := ⟨0x10100 + 0x4 * i, 0, 2⟩
/-- The window offset of EVT_SEEN (R576). -/
def Off.EVT_SEEN (i : Nat) : Nat := 0x10200 + 0x4 * i
/-- EVT_SEEN.SEEN (R576). -/
def Fld.EVT_SEEN_SEEN (i : Nat) : Fld := ⟨0x10200 + 0x4 * i, 0, 32⟩
/-- The window offset of EVT_RING (R577). -/
def Off.EVT_RING (i : Nat) (j : Nat) : Nat := 0x18000 + 0x10 * i + 0x4 * j
/-- EVT_RING.DATA (R577). -/
def Fld.EVT_RING_DATA (i : Nat) (j : Nat) : Fld := ⟨0x18000 + 0x10 * i + 0x4 * j, 0, 32⟩
/-- The window offset of MBX_CMD (R539). -/
def Off.MBX_CMD (i : Nat) (j : Nat) : Nat := 0x20000 + 0x1000 * i + 0x4 * j
/-- MBX_CMD.DATA (R539). -/
def Fld.MBX_CMD_DATA (i : Nat) (j : Nat) : Fld := ⟨0x20000 + 0x1000 * i + 0x4 * j, 0, 32⟩
/-- The window offset of MBX_RSP (R539). -/
def Off.MBX_RSP (i : Nat) (j : Nat) : Nat := 0x20200 + 0x1000 * i + 0x4 * j
/-- MBX_RSP.DATA (R539). -/
def Fld.MBX_RSP_DATA (i : Nat) (j : Nat) : Fld := ⟨0x20200 + 0x1000 * i + 0x4 * j, 0, 32⟩
/-- The window offset of MBX_DOORBELL (R540). -/
def Off.MBX_DOORBELL (i : Nat) : Nat := 0x20400 + 0x1000 * i
/-- MBX_DOORBELL.VALUE (R540). -/
def Fld.MBX_DOORBELL_VALUE (i : Nat) : Fld := ⟨0x20400 + 0x1000 * i, 0, 16⟩
/-- The window offset of MBX_STAT (R541). -/
def Off.MBX_STAT (i : Nat) : Nat := 0x20404 + 0x1000 * i
/-- MBX_STAT.SEQ (R541). -/
def Fld.MBX_STAT_SEQ (i : Nat) : Fld := ⟨0x20404 + 0x1000 * i, 16, 16⟩
/-- MBX_STAT.CODE (R541). -/
def Fld.MBX_STAT_CODE (i : Nat) : Fld := ⟨0x20404 + 0x1000 * i, 8, 8⟩
/-- MBX_STAT.OVERRUN (R541). -/
def Fld.MBX_STAT_OVERRUN (i : Nat) : Fld := ⟨0x20404 + 0x1000 * i, 7, 1⟩
/-- MBX_STAT.STATE (R541). -/
def Fld.MBX_STAT_STATE (i : Nat) : Fld := ⟨0x20404 + 0x1000 * i, 0, 3⟩
/-- The window offset of MBX_CNT (R542). -/
def Off.MBX_CNT (i : Nat) : Nat := 0x20408 + 0x1000 * i
/-- MBX_CNT.COMPLETED (R542). -/
def Fld.MBX_CNT_COMPLETED (i : Nat) : Fld := ⟨0x20408 + 0x1000 * i, 16, 16⟩
/-- MBX_CNT.OVERRUN (R542). -/
def Fld.MBX_CNT_OVERRUN (i : Nat) : Fld := ⟨0x20408 + 0x1000 * i, 8, 8⟩
/-- MBX_CNT.DENIED (R542). -/
def Fld.MBX_CNT_DENIED (i : Nat) : Fld := ⟨0x20408 + 0x1000 * i, 0, 8⟩
/-- The window offset of MBX_OWNER (R543). -/
def Off.MBX_OWNER (i : Nat) : Nat := 0x2040C + 0x1000 * i
/-- MBX_OWNER.SOURCE (R543). -/
def Fld.MBX_OWNER_SOURCE (i : Nat) : Fld := ⟨0x2040C + 0x1000 * i, 0, 5⟩
/-- The window offset of MON_TELE (R578). -/
def Off.MON_TELE : Nat := 0x40000
/-- MON_TELE.HIST (R578). -/
def Fld.MON_TELE_HIST : Fld := ⟨0x40000, 18, 1⟩
/-- MON_TELE.TC (R578). -/
def Fld.MON_TELE_TC : Fld := ⟨0x40000, 16, 2⟩
/-- MON_TELE.PORTS (R578). -/
def Fld.MON_TELE_PORTS : Fld := ⟨0x40000, 0, 16⟩
/-- The window offset of MON_TELE_MASK_LO (R578). -/
def Off.MON_TELE_MASK_LO : Nat := 0x40004
/-- MON_TELE_MASK_LO.MASK (R578). -/
def Fld.MON_TELE_MASK_LO_MASK : Fld := ⟨0x40004, 0, 32⟩
/-- The window offset of MON_TELE_MASK_HI (R578). -/
def Off.MON_TELE_MASK_HI : Nat := 0x40008
/-- MON_TELE_MASK_HI.MASK (R578). -/
def Fld.MON_TELE_MASK_HI_MASK : Fld := ⟨0x40008, 0, 16⟩
/-- The window offset of MON_TELE_STAT (R579). -/
def Off.MON_TELE_STAT : Nat := 0x4000C
/-- MON_TELE_STAT.SENT (R579). -/
def Fld.MON_TELE_STAT_SENT : Fld := ⟨0x4000C, 16, 16⟩
/-- MON_TELE_STAT.DROPPED (R579). -/
def Fld.MON_TELE_STAT_DROPPED : Fld := ⟨0x4000C, 0, 16⟩
/-- The window offset of MON_CTRL (R580). -/
def Off.MON_CTRL (i : Nat) : Nat := 0x41000 + 0x100 * i
/-- MON_CTRL.RESTART (R580). -/
def Fld.MON_CTRL_RESTART (i : Nat) : Fld := ⟨0x41000 + 0x100 * i, 31, 1⟩
/-- MON_CTRL.LSEL (R580). -/
def Fld.MON_CTRL_LSEL (i : Nat) : Fld := ⟨0x41000 + 0x100 * i, 20, 4⟩
/-- MON_CTRL.SCOPE (R580). -/
def Fld.MON_CTRL_SCOPE (i : Nat) : Fld := ⟨0x41000 + 0x100 * i, 16, 2⟩
/-- MON_CTRL.KIND (R580). -/
def Fld.MON_CTRL_KIND (i : Nat) : Fld := ⟨0x41000 + 0x100 * i, 12, 2⟩
/-- MON_CTRL.CLASSES (R580). -/
def Fld.MON_CTRL_CLASSES (i : Nat) : Fld := ⟨0x41000 + 0x100 * i, 4, 4⟩
/-- MON_CTRL.SINGLE (R580). -/
def Fld.MON_CTRL_SINGLE (i : Nat) : Fld := ⟨0x41000 + 0x100 * i, 1, 1⟩
/-- MON_CTRL.EN (R580). -/
def Fld.MON_CTRL_EN (i : Nat) : Fld := ⟨0x41000 + 0x100 * i, 0, 1⟩
/-- The window offset of MON_BIN (R581). -/
def Off.MON_BIN (i : Nat) : Nat := 0x41004 + 0x100 * i
/-- MON_BIN.LOG (R581). -/
def Fld.MON_BIN_LOG (i : Nat) : Fld := ⟨0x41004 + 0x100 * i, 21, 1⟩
/-- MON_BIN.SHIFT (R581). -/
def Fld.MON_BIN_SHIFT (i : Nat) : Fld := ⟨0x41004 + 0x100 * i, 16, 5⟩
/-- MON_BIN.BASE (R581). -/
def Fld.MON_BIN_BASE (i : Nat) : Fld := ⟨0x41004 + 0x100 * i, 0, 16⟩
/-- The window offset of MON_WIN (R581). -/
def Off.MON_WIN (i : Nat) : Nat := 0x41008 + 0x100 * i
/-- MON_WIN.WIN (R581). -/
def Fld.MON_WIN_WIN (i : Nat) : Fld := ⟨0x41008 + 0x100 * i, 0, 16⟩
/-- The window offset of MON_SEQ_A (R582). -/
def Off.MON_SEQ_A (i : Nat) : Nat := 0x41010 + 0x100 * i
/-- MON_SEQ_A.SEQ (R582). -/
def Fld.MON_SEQ_A_SEQ (i : Nat) : Fld := ⟨0x41010 + 0x100 * i, 0, 32⟩
/-- The window offset of MON_TS_LO (R582). -/
def Off.MON_TS_LO (i : Nat) : Nat := 0x41014 + 0x100 * i
/-- MON_TS_LO.TS (R582). -/
def Fld.MON_TS_LO_TS (i : Nat) : Fld := ⟨0x41014 + 0x100 * i, 0, 32⟩
/-- The window offset of MON_TS_HI (R582). -/
def Off.MON_TS_HI (i : Nat) : Nat := 0x41018 + 0x100 * i
/-- MON_TS_HI.TS (R582). -/
def Fld.MON_TS_HI_TS (i : Nat) : Fld := ⟨0x41018 + 0x100 * i, 0, 18⟩
/-- The window offset of MON_COUNT (R582). -/
def Off.MON_COUNT (i : Nat) : Nat := 0x4101C + 0x100 * i
/-- MON_COUNT.N (R582). -/
def Fld.MON_COUNT_N (i : Nat) : Fld := ⟨0x4101C + 0x100 * i, 0, 32⟩
/-- The window offset of MON_MIN (R582). -/
def Off.MON_MIN (i : Nat) : Nat := 0x41020 + 0x100 * i
/-- MON_MIN.LAT (R582). -/
def Fld.MON_MIN_LAT (i : Nat) : Fld := ⟨0x41020 + 0x100 * i, 0, 32⟩
/-- The window offset of MON_MAX (R582). -/
def Off.MON_MAX (i : Nat) : Nat := 0x41024 + 0x100 * i
/-- MON_MAX.LAT (R582). -/
def Fld.MON_MAX_LAT (i : Nat) : Fld := ⟨0x41024 + 0x100 * i, 0, 32⟩
/-- The window offset of MON_SUM_LO (R582). -/
def Off.MON_SUM_LO (i : Nat) : Nat := 0x41028 + 0x100 * i
/-- MON_SUM_LO.SUM (R582). -/
def Fld.MON_SUM_LO_SUM (i : Nat) : Fld := ⟨0x41028 + 0x100 * i, 0, 32⟩
/-- The window offset of MON_SUM_HI (R582). -/
def Off.MON_SUM_HI (i : Nat) : Nat := 0x4102C + 0x100 * i
/-- MON_SUM_HI.SUM (R582). -/
def Fld.MON_SUM_HI_SUM (i : Nat) : Fld := ⟨0x4102C + 0x100 * i, 0, 32⟩
/-- The window offset of MON_LVL (R582). -/
def Off.MON_LVL (i : Nat) : Nat := 0x41030 + 0x100 * i
/-- MON_LVL.HI (R582). -/
def Fld.MON_LVL_HI (i : Nat) : Fld := ⟨0x41030 + 0x100 * i, 16, 16⟩
/-- MON_LVL.LO (R582). -/
def Fld.MON_LVL_LO (i : Nat) : Fld := ⟨0x41030 + 0x100 * i, 0, 16⟩
/-- The window offset of MON_LVL_SUM_LO (R582). -/
def Off.MON_LVL_SUM_LO (i : Nat) : Nat := 0x41034 + 0x100 * i
/-- MON_LVL_SUM_LO.SUM (R582). -/
def Fld.MON_LVL_SUM_LO_SUM (i : Nat) : Fld := ⟨0x41034 + 0x100 * i, 0, 32⟩
/-- The window offset of MON_LVL_SUM_HI (R582). -/
def Off.MON_LVL_SUM_HI (i : Nat) : Nat := 0x41038 + 0x100 * i
/-- MON_LVL_SUM_HI.SUM (R582). -/
def Fld.MON_LVL_SUM_HI_SUM (i : Nat) : Fld := ⟨0x41038 + 0x100 * i, 0, 32⟩
/-- The window offset of MON_LVL_N (R582). -/
def Off.MON_LVL_N (i : Nat) : Nat := 0x4103C + 0x100 * i
/-- MON_LVL_N.N (R582). -/
def Fld.MON_LVL_N_N (i : Nat) : Fld := ⟨0x4103C + 0x100 * i, 0, 32⟩
/-- The window offset of MON_SEQ_B (R582). -/
def Off.MON_SEQ_B (i : Nat) : Nat := 0x41040 + 0x100 * i
/-- MON_SEQ_B.SEQ (R582). -/
def Fld.MON_SEQ_B_SEQ (i : Nat) : Fld := ⟨0x41040 + 0x100 * i, 0, 32⟩
/-- The window offset of MON_HIST (R583). -/
def Off.MON_HIST (i : Nat) (j : Nat) : Nat := 0x41080 + 0x100 * i + 0x4 * j
/-- MON_HIST.COUNT (R583). -/
def Fld.MON_HIST_COUNT (i : Nat) (j : Nat) : Fld := ⟨0x41080 + 0x100 * i + 0x4 * j, 0, 32⟩
/-- The window offset of PRT_PHY_CTRL (R85). -/
def Off.PRT_PHY_CTRL (i : Nat) : Nat := 0x80000 + 0x1000 * i
/-- PRT_PHY_CTRL.MIN_WIDTH (R85). -/
def Fld.PRT_PHY_CTRL_MIN_WIDTH (i : Nat) : Fld := ⟨0x80000 + 0x1000 * i, 3, 2⟩
/-- PRT_PHY_CTRL.MAX_RATE (R85). -/
def Fld.PRT_PHY_CTRL_MAX_RATE (i : Nat) : Fld := ⟨0x80000 + 0x1000 * i, 0, 3⟩
/-- The window offset of PRT_PHY_STAT (R86). -/
def Off.PRT_PHY_STAT (i : Nat) : Nat := 0x80004 + 0x1000 * i
/-- PRT_PHY_STAT.RECOVERY (R86). -/
def Fld.PRT_PHY_STAT_RECOVERY (i : Nat) : Fld := ⟨0x80004 + 0x1000 * i, 19, 1⟩
/-- PRT_PHY_STAT.DOWN (R86). -/
def Fld.PRT_PHY_STAT_DOWN (i : Nat) : Fld := ⟨0x80004 + 0x1000 * i, 18, 1⟩
/-- PRT_PHY_STAT.PLL_LOCK (R86). -/
def Fld.PRT_PHY_STAT_PLL_LOCK (i : Nat) : Fld := ⟨0x80004 + 0x1000 * i, 17, 1⟩
/-- PRT_PHY_STAT.RATE (R86). -/
def Fld.PRT_PHY_STAT_RATE (i : Nat) : Fld := ⟨0x80004 + 0x1000 * i, 14, 3⟩
/-- PRT_PHY_STAT.WIDTH (R86). -/
def Fld.PRT_PHY_STAT_WIDTH (i : Nat) : Fld := ⟨0x80004 + 0x1000 * i, 12, 2⟩
/-- PRT_PHY_STAT.ACTIVE (R86). -/
def Fld.PRT_PHY_STAT_ACTIVE (i : Nat) : Fld := ⟨0x80004 + 0x1000 * i, 0, 8⟩
/-- The window offset of PRT_PRBS_CTRL (R87). -/
def Off.PRT_PRBS_CTRL (i : Nat) : Nat := 0x80010 + 0x1000 * i
/-- PRT_PRBS_CTRL.CLR (R87). -/
def Fld.PRT_PRBS_CTRL_CLR (i : Nat) : Fld := ⟨0x80010 + 0x1000 * i, 13, 1⟩
/-- PRT_PRBS_CTRL.INV_ODD (R87). -/
def Fld.PRT_PRBS_CTRL_INV_ODD (i : Nat) : Fld := ⟨0x80010 + 0x1000 * i, 12, 1⟩
/-- PRT_PRBS_CTRL.CHK_EN (R87). -/
def Fld.PRT_PRBS_CTRL_CHK_EN (i : Nat) : Fld := ⟨0x80010 + 0x1000 * i, 11, 1⟩
/-- PRT_PRBS_CTRL.GEN_EN (R87). -/
def Fld.PRT_PRBS_CTRL_GEN_EN (i : Nat) : Fld := ⟨0x80010 + 0x1000 * i, 10, 1⟩
/-- PRT_PRBS_CTRL.POLY (R87). -/
def Fld.PRT_PRBS_CTRL_POLY (i : Nat) : Fld := ⟨0x80010 + 0x1000 * i, 8, 2⟩
/-- PRT_PRBS_CTRL.LANE_MASK (R87). -/
def Fld.PRT_PRBS_CTRL_LANE_MASK (i : Nat) : Fld := ⟨0x80010 + 0x1000 * i, 0, 8⟩
/-- The window offset of PRT_INJ_CTRL (R88). -/
def Off.PRT_INJ_CTRL (i : Nat) : Nat := 0x80014 + 0x1000 * i
/-- PRT_INJ_CTRL.POS (R88). -/
def Fld.PRT_INJ_CTRL_POS (i : Nat) : Fld := ⟨0x80014 + 0x1000 * i, 22, 6⟩
/-- PRT_INJ_CTRL.LEN (R88). -/
def Fld.PRT_INJ_CTRL_LEN (i : Nat) : Fld := ⟨0x80014 + 0x1000 * i, 16, 6⟩
/-- PRT_INJ_CTRL.PERIOD (R88). -/
def Fld.PRT_INJ_CTRL_PERIOD (i : Nat) : Fld := ⟨0x80014 + 0x1000 * i, 10, 6⟩
/-- PRT_INJ_CTRL.MODE (R88). -/
def Fld.PRT_INJ_CTRL_MODE (i : Nat) : Fld := ⟨0x80014 + 0x1000 * i, 8, 2⟩
/-- PRT_INJ_CTRL.LANE_MASK (R88). -/
def Fld.PRT_INJ_CTRL_LANE_MASK (i : Nat) : Fld := ⟨0x80014 + 0x1000 * i, 0, 8⟩
/-- The window offset of PRT_CAL_CTRL (R484). -/
def Off.PRT_CAL_CTRL (i : Nat) : Nat := 0x80020 + 0x1000 * i
/-- PRT_CAL_CTRL.THRESH (R484). -/
def Fld.PRT_CAL_CTRL_THRESH (i : Nat) : Fld := ⟨0x80020 + 0x1000 * i, 8, 8⟩
/-- PRT_CAL_CTRL.DWELL (R484). -/
def Fld.PRT_CAL_CTRL_DWELL (i : Nat) : Fld := ⟨0x80020 + 0x1000 * i, 0, 5⟩
/-- The window offset of PRT_CAL_STAT (R485). -/
def Off.PRT_CAL_STAT (i : Nat) : Nat := 0x80024 + 0x1000 * i
/-- PRT_CAL_STAT.RETUNES (R485). -/
def Fld.PRT_CAL_STAT_RETUNES (i : Nat) : Fld := ⟨0x80024 + 0x1000 * i, 24, 8⟩
/-- PRT_CAL_STAT.SCANNING (R485). -/
def Fld.PRT_CAL_STAT_SCANNING (i : Nat) : Fld := ⟨0x80024 + 0x1000 * i, 16, 8⟩
/-- PRT_CAL_STAT.STATE (R485). -/
def Fld.PRT_CAL_STAT_STATE (i : Nat) : Fld := ⟨0x80024 + 0x1000 * i, 0, 2⟩
/-- The window offset of PRT_LANE_CTRL (R89). -/
def Off.PRT_LANE_CTRL (i : Nat) (j : Nat) : Nat := 0x80100 + 0x1000 * i + 0x40 * j
/-- PRT_LANE_CTRL.TEST_STATE (R89). -/
def Fld.PRT_LANE_CTRL_TEST_STATE (i : Nat) (j : Nat) : Fld := ⟨0x80100 + 0x1000 * i + 0x40 * j, 8, 3⟩
/-- PRT_LANE_CTRL.EDGE (R89). -/
def Fld.PRT_LANE_CTRL_EDGE (i : Nat) (j : Nat) : Fld := ⟨0x80100 + 0x1000 * i + 0x40 * j, 4, 2⟩
/-- PRT_LANE_CTRL.TX_SWING (R89). -/
def Fld.PRT_LANE_CTRL_TX_SWING (i : Nat) (j : Nat) : Fld := ⟨0x80100 + 0x1000 * i + 0x40 * j, 0, 3⟩
/-- The window offset of PRT_LANE_TXEQ (R90). -/
def Off.PRT_LANE_TXEQ (i : Nat) (j : Nat) : Nat := 0x80104 + 0x1000 * i + 0x40 * j
/-- PRT_LANE_TXEQ.PRESET (R90). -/
def Fld.PRT_LANE_TXEQ_PRESET (i : Nat) (j : Nat) : Fld := ⟨0x80104 + 0x1000 * i + 0x40 * j, 12, 3⟩
/-- PRT_LANE_TXEQ.POST (R90). -/
def Fld.PRT_LANE_TXEQ_POST (i : Nat) (j : Nat) : Fld := ⟨0x80104 + 0x1000 * i + 0x40 * j, 4, 5⟩
/-- PRT_LANE_TXEQ.PRE (R90). -/
def Fld.PRT_LANE_TXEQ_PRE (i : Nat) (j : Nat) : Fld := ⟨0x80104 + 0x1000 * i + 0x40 * j, 0, 4⟩
/-- The window offset of PRT_LANE_STAT (R91). -/
def Off.PRT_LANE_STAT (i : Nat) (j : Nat) : Nat := 0x80108 + 0x1000 * i + 0x40 * j
/-- PRT_LANE_STAT.HEALTH (R91). -/
def Fld.PRT_LANE_STAT_HEALTH (i : Nat) (j : Nat) : Fld := ⟨0x80108 + 0x1000 * i + 0x40 * j, 10, 2⟩
/-- PRT_LANE_STAT.EDGE_EFF (R91). -/
def Fld.PRT_LANE_STAT_EDGE_EFF (i : Nat) (j : Nat) : Fld := ⟨0x80108 + 0x1000 * i + 0x40 * j, 8, 2⟩
/-- PRT_LANE_STAT.PRBS_LOCK (R91). -/
def Fld.PRT_LANE_STAT_PRBS_LOCK (i : Nat) (j : Nat) : Fld := ⟨0x80108 + 0x1000 * i + 0x40 * j, 7, 1⟩
/-- PRT_LANE_STAT.RX_INV (R91). -/
def Fld.PRT_LANE_STAT_RX_INV (i : Nat) (j : Nat) : Fld := ⟨0x80108 + 0x1000 * i + 0x40 * j, 6, 1⟩
/-- PRT_LANE_STAT.CDR_LOCK (R91). -/
def Fld.PRT_LANE_STAT_CDR_LOCK (i : Nat) (j : Nat) : Fld := ⟨0x80108 + 0x1000 * i + 0x40 * j, 5, 1⟩
/-- PRT_LANE_STAT.USABLE (R91). -/
def Fld.PRT_LANE_STAT_USABLE (i : Nat) (j : Nat) : Fld := ⟨0x80108 + 0x1000 * i + 0x40 * j, 4, 1⟩
/-- PRT_LANE_STAT.STATE (R91). -/
def Fld.PRT_LANE_STAT_STATE (i : Nat) (j : Nat) : Fld := ⟨0x80108 + 0x1000 * i + 0x40 * j, 0, 3⟩
/-- The window offset of PRT_LANE_RXEQ (R92). -/
def Off.PRT_LANE_RXEQ (i : Nat) (j : Nat) : Nat := 0x8010C + 0x1000 * i + 0x40 * j
/-- PRT_LANE_RXEQ.CTLE (R92). -/
def Fld.PRT_LANE_RXEQ_CTLE (i : Nat) (j : Nat) : Fld := ⟨0x8010C + 0x1000 * i + 0x40 * j, 28, 4⟩
/-- PRT_LANE_RXEQ.DFE4 (R92). -/
def Fld.PRT_LANE_RXEQ_DFE4 (i : Nat) (j : Nat) : Fld := ⟨0x8010C + 0x1000 * i + 0x40 * j, 22, 6⟩
/-- PRT_LANE_RXEQ.DFE3 (R92). -/
def Fld.PRT_LANE_RXEQ_DFE3 (i : Nat) (j : Nat) : Fld := ⟨0x8010C + 0x1000 * i + 0x40 * j, 16, 6⟩
/-- PRT_LANE_RXEQ.DFE2 (R92). -/
def Fld.PRT_LANE_RXEQ_DFE2 (i : Nat) (j : Nat) : Fld := ⟨0x8010C + 0x1000 * i + 0x40 * j, 10, 6⟩
/-- PRT_LANE_RXEQ.DFE1 (R92). -/
def Fld.PRT_LANE_RXEQ_DFE1 (i : Nat) (j : Nat) : Fld := ⟨0x8010C + 0x1000 * i + 0x40 * j, 4, 6⟩
/-- The window offset of PRT_LANE_PRBS_ERR (R93). -/
def Off.PRT_LANE_PRBS_ERR (i : Nat) (j : Nat) : Nat := 0x80110 + 0x1000 * i + 0x40 * j
/-- PRT_LANE_PRBS_ERR.COUNT (R93). -/
def Fld.PRT_LANE_PRBS_ERR_COUNT (i : Nat) (j : Nat) : Fld := ⟨0x80110 + 0x1000 * i + 0x40 * j, 0, 32⟩
/-- The window offset of PRT_LANE_PRBS_BITS_LO (R94). -/
def Off.PRT_LANE_PRBS_BITS_LO (i : Nat) (j : Nat) : Nat := 0x80114 + 0x1000 * i + 0x40 * j
/-- PRT_LANE_PRBS_BITS_LO.COUNT (R94). -/
def Fld.PRT_LANE_PRBS_BITS_LO_COUNT (i : Nat) (j : Nat) : Fld := ⟨0x80114 + 0x1000 * i + 0x40 * j, 0, 32⟩
/-- The window offset of PRT_LANE_PRBS_BITS_HI (R94). -/
def Off.PRT_LANE_PRBS_BITS_HI (i : Nat) (j : Nat) : Nat := 0x80118 + 0x1000 * i + 0x40 * j
/-- PRT_LANE_PRBS_BITS_HI.COUNT (R94). -/
def Fld.PRT_LANE_PRBS_BITS_HI_COUNT (i : Nat) (j : Nat) : Fld := ⟨0x80118 + 0x1000 * i + 0x40 * j, 0, 32⟩
/-- The window offset of PRT_LANE_MARGIN_CFG (R95). -/
def Off.PRT_LANE_MARGIN_CFG (i : Nat) (j : Nat) : Nat := 0x8011C + 0x1000 * i + 0x40 * j
/-- PRT_LANE_MARGIN_CFG.WIN (R95). -/
def Fld.PRT_LANE_MARGIN_CFG_WIN (i : Nat) (j : Nat) : Fld := ⟨0x8011C + 0x1000 * i + 0x40 * j, 16, 4⟩
/-- PRT_LANE_MARGIN_CFG.PH_OFF (R95). -/
def Fld.PRT_LANE_MARGIN_CFG_PH_OFF (i : Nat) (j : Nat) : Fld := ⟨0x8011C + 0x1000 * i + 0x40 * j, 8, 6⟩
/-- PRT_LANE_MARGIN_CFG.V_OFF (R95). -/
def Fld.PRT_LANE_MARGIN_CFG_V_OFF (i : Nat) (j : Nat) : Fld := ⟨0x8011C + 0x1000 * i + 0x40 * j, 0, 7⟩
/-- The window offset of PRT_LANE_MARGIN_ERR (R96). -/
def Off.PRT_LANE_MARGIN_ERR (i : Nat) (j : Nat) : Nat := 0x80120 + 0x1000 * i + 0x40 * j
/-- PRT_LANE_MARGIN_ERR.COUNT (R96). -/
def Fld.PRT_LANE_MARGIN_ERR_COUNT (i : Nat) (j : Nat) : Fld := ⟨0x80120 + 0x1000 * i + 0x40 * j, 0, 32⟩
/-- The window offset of PRT_LANE_FAULTS (R97). -/
def Off.PRT_LANE_FAULTS (i : Nat) (j : Nat) : Nat := 0x80124 + 0x1000 * i + 0x40 * j
/-- PRT_LANE_FAULTS.PRBS_RELOCK (R97). -/
def Fld.PRT_LANE_FAULTS_PRBS_RELOCK (i : Nat) (j : Nat) : Fld := ⟨0x80124 + 0x1000 * i + 0x40 * j, 16, 8⟩
/-- PRT_LANE_FAULTS.FIFO_SLIP (R97). -/
def Fld.PRT_LANE_FAULTS_FIFO_SLIP (i : Nat) (j : Nat) : Fld := ⟨0x80124 + 0x1000 * i + 0x40 * j, 8, 8⟩
/-- PRT_LANE_FAULTS.CDR_LOSS (R97). -/
def Fld.PRT_LANE_FAULTS_CDR_LOSS (i : Nat) (j : Nat) : Fld := ⟨0x80124 + 0x1000 * i + 0x40 * j, 0, 8⟩
/-- The window offset of PRT_LANE_EYE (R486). -/
def Off.PRT_LANE_EYE (i : Nat) (j : Nat) : Nat := 0x80128 + 0x1000 * i + 0x40 * j
/-- PRT_LANE_EYE.VALID (R486). -/
def Fld.PRT_LANE_EYE_VALID (i : Nat) (j : Nat) : Fld := ⟨0x80128 + 0x1000 * i + 0x40 * j, 31, 1⟩
/-- PRT_LANE_EYE.ABORT (R486). -/
def Fld.PRT_LANE_EYE_ABORT (i : Nat) (j : Nat) : Fld := ⟨0x80128 + 0x1000 * i + 0x40 * j, 30, 1⟩
/-- PRT_LANE_EYE.CENTRE (R486). -/
def Fld.PRT_LANE_EYE_CENTRE (i : Nat) (j : Nat) : Fld := ⟨0x80128 + 0x1000 * i + 0x40 * j, 24, 6⟩
/-- PRT_LANE_EYE.HEIGHT (R486). -/
def Fld.PRT_LANE_EYE_HEIGHT (i : Nat) (j : Nat) : Fld := ⟨0x80128 + 0x1000 * i + 0x40 * j, 16, 8⟩
/-- PRT_LANE_EYE.WIDTH (R486). -/
def Fld.PRT_LANE_EYE_WIDTH (i : Nat) (j : Nat) : Fld := ⟨0x80128 + 0x1000 * i + 0x40 * j, 0, 7⟩
/-- The window offset of PRT_LINK_CTRL (R138). -/
def Off.PRT_LINK_CTRL (i : Nat) : Nat := 0x80300 + 0x1000 * i
/-- PRT_LINK_CTRL.REPLAY_LIMIT (R138). -/
def Fld.PRT_LINK_CTRL_REPLAY_LIMIT (i : Nat) : Fld := ⟨0x80300 + 0x1000 * i, 16, 8⟩
/-- PRT_LINK_CTRL.COAST_IDLE (R138). -/
def Fld.PRT_LINK_CTRL_COAST_IDLE (i : Nat) : Fld := ⟨0x80300 + 0x1000 * i, 12, 4⟩
/-- PRT_LINK_CTRL.ACK_COUNT (R138). -/
def Fld.PRT_LINK_CTRL_ACK_COUNT (i : Nat) : Fld := ⟨0x80300 + 0x1000 * i, 8, 4⟩
/-- PRT_LINK_CTRL.WIDEN (R138). -/
def Fld.PRT_LINK_CTRL_WIDEN (i : Nat) : Fld := ⟨0x80300 + 0x1000 * i, 4, 1⟩
/-- PRT_LINK_CTRL.RETRAIN (R138). -/
def Fld.PRT_LINK_CTRL_RETRAIN (i : Nat) : Fld := ⟨0x80300 + 0x1000 * i, 3, 1⟩
/-- PRT_LINK_CTRL.LINK_DIS (R138). -/
def Fld.PRT_LINK_CTRL_LINK_DIS (i : Nat) : Fld := ⟨0x80300 + 0x1000 * i, 2, 1⟩
/-- The window offset of PRT_LINK_STAT (R139). -/
def Off.PRT_LINK_STAT (i : Nat) : Nat := 0x80304 + 0x1000 * i
/-- PRT_LINK_STAT.CAUSE (R139). -/
def Fld.PRT_LINK_STAT_CAUSE (i : Nat) : Fld := ⟨0x80304 + 0x1000 * i, 28, 4⟩
/-- PRT_LINK_STAT.ROLE (R139). -/
def Fld.PRT_LINK_STAT_ROLE (i : Nat) : Fld := ⟨0x80304 + 0x1000 * i, 24, 2⟩
/-- PRT_LINK_STAT.STATE (R139). -/
def Fld.PRT_LINK_STAT_STATE (i : Nat) : Fld := ⟨0x80304 + 0x1000 * i, 16, 4⟩
/-- PRT_LINK_STAT.RECOV_CNT (R139). -/
def Fld.PRT_LINK_STAT_RECOV_CNT (i : Nat) : Fld := ⟨0x80304 + 0x1000 * i, 8, 8⟩
/-- PRT_LINK_STAT.UP (R139). -/
def Fld.PRT_LINK_STAT_UP (i : Nat) : Fld := ⟨0x80304 + 0x1000 * i, 0, 1⟩
/-- The window offset of PRT_LINK_SEQ (R140). -/
def Off.PRT_LINK_SEQ (i : Nat) : Nat := 0x80308 + 0x1000 * i
/-- PRT_LINK_SEQ.RX_EXPECT (R140). -/
def Fld.PRT_LINK_SEQ_RX_EXPECT (i : Nat) : Fld := ⟨0x80308 + 0x1000 * i, 20, 10⟩
/-- PRT_LINK_SEQ.TX_OLDEST (R140). -/
def Fld.PRT_LINK_SEQ_TX_OLDEST (i : Nat) : Fld := ⟨0x80308 + 0x1000 * i, 10, 10⟩
/-- PRT_LINK_SEQ.TX_NEXT (R140). -/
def Fld.PRT_LINK_SEQ_TX_NEXT (i : Nat) : Fld := ⟨0x80308 + 0x1000 * i, 0, 10⟩
/-- The window offset of PRT_LINK_ERR (R141). -/
def Off.PRT_LINK_ERR (i : Nat) : Nat := 0x8030C + 0x1000 * i
/-- PRT_LINK_ERR.PROTO_ERR (R141). -/
def Fld.PRT_LINK_ERR_PROTO_ERR (i : Nat) : Fld := ⟨0x8030C + 0x1000 * i, 24, 8⟩
/-- PRT_LINK_ERR.REPLAY_TO (R141). -/
def Fld.PRT_LINK_ERR_REPLAY_TO (i : Nat) : Fld := ⟨0x8030C + 0x1000 * i, 16, 8⟩
/-- PRT_LINK_ERR.REPLAY_RX (R141). -/
def Fld.PRT_LINK_ERR_REPLAY_RX (i : Nat) : Fld := ⟨0x8030C + 0x1000 * i, 8, 8⟩
/-- PRT_LINK_ERR.REPLAY_TX (R141). -/
def Fld.PRT_LINK_ERR_REPLAY_TX (i : Nat) : Fld := ⟨0x8030C + 0x1000 * i, 0, 8⟩
/-- The window offset of PRT_LINK_CRC_ERR (R142). -/
def Off.PRT_LINK_CRC_ERR (i : Nat) : Nat := 0x80310 + 0x1000 * i
/-- PRT_LINK_CRC_ERR.COUNT (R142). -/
def Fld.PRT_LINK_CRC_ERR_COUNT (i : Nat) : Fld := ⟨0x80310 + 0x1000 * i, 0, 32⟩
/-- The window offset of PRT_CREDIT_TX_TC (R143). -/
def Off.PRT_CREDIT_TX_TC (i : Nat) (j : Nat) : Nat := 0x80320 + 0x1000 * i + 0x4 * j
/-- PRT_CREDIT_TX_TC.RSP (R143). -/
def Fld.PRT_CREDIT_TX_TC_RSP (i : Nat) (j : Nat) : Fld := ⟨0x80320 + 0x1000 * i + 0x4 * j, 20, 10⟩
/-- PRT_CREDIT_TX_TC.DAT (R143). -/
def Fld.PRT_CREDIT_TX_TC_DAT (i : Nat) (j : Nat) : Fld := ⟨0x80320 + 0x1000 * i + 0x4 * j, 10, 10⟩
/-- PRT_CREDIT_TX_TC.REQ (R143). -/
def Fld.PRT_CREDIT_TX_TC_REQ (i : Nat) (j : Nat) : Fld := ⟨0x80320 + 0x1000 * i + 0x4 * j, 0, 10⟩
/-- The window offset of PRT_CREDIT_RX_TC (R144). -/
def Off.PRT_CREDIT_RX_TC (i : Nat) (j : Nat) : Nat := 0x80330 + 0x1000 * i + 0x4 * j
/-- PRT_CREDIT_RX_TC.RSP (R144). -/
def Fld.PRT_CREDIT_RX_TC_RSP (i : Nat) (j : Nat) : Fld := ⟨0x80330 + 0x1000 * i + 0x4 * j, 20, 10⟩
/-- PRT_CREDIT_RX_TC.DAT (R144). -/
def Fld.PRT_CREDIT_RX_TC_DAT (i : Nat) (j : Nat) : Fld := ⟨0x80330 + 0x1000 * i + 0x4 * j, 10, 10⟩
/-- PRT_CREDIT_RX_TC.REQ (R144). -/
def Fld.PRT_CREDIT_RX_TC_REQ (i : Nat) (j : Nat) : Fld := ⟨0x80330 + 0x1000 * i + 0x4 * j, 0, 10⟩
/-- The window offset of PRT_TXN_CTRL (R197). -/
def Off.PRT_TXN_CTRL (i : Nat) : Nat := 0x80400 + 0x1000 * i
/-- PRT_TXN_CTRL.PANIC_EN (R197). -/
def Fld.PRT_TXN_CTRL_PANIC_EN (i : Nat) : Fld := ⟨0x80400 + 0x1000 * i, 3, 1⟩
/-- PRT_TXN_CTRL.RUN_MAX (R197). -/
def Fld.PRT_TXN_CTRL_RUN_MAX (i : Nat) : Fld := ⟨0x80400 + 0x1000 * i, 0, 3⟩
/-- The window offset of PRT_TXN_STAT (R198). -/
def Off.PRT_TXN_STAT (i : Nat) : Nat := 0x80404 + 0x1000 * i
/-- PRT_TXN_STAT.HOLDING (R198). -/
def Fld.PRT_TXN_STAT_HOLDING (i : Nat) : Fld := ⟨0x80404 + 0x1000 * i, 29, 1⟩
/-- PRT_TXN_STAT.OUTSTANDING (R198). -/
def Fld.PRT_TXN_STAT_OUTSTANDING (i : Nat) : Fld := ⟨0x80404 + 0x1000 * i, 16, 13⟩
/-- PRT_TXN_STAT.DATA_OWED (R198). -/
def Fld.PRT_TXN_STAT_DATA_OWED (i : Nat) : Fld := ⟨0x80404 + 0x1000 * i, 0, 12⟩
/-- The window offset of PRT_TXN_ERR (R199). -/
def Off.PRT_TXN_ERR (i : Nat) : Nat := 0x80408 + 0x1000 * i
/-- PRT_TXN_ERR.MSG_BAD (R199). -/
def Fld.PRT_TXN_ERR_MSG_BAD (i : Nat) : Fld := ⟨0x80408 + 0x1000 * i, 24, 8⟩
/-- PRT_TXN_ERR.TAG_DUP (R199). -/
def Fld.PRT_TXN_ERR_TAG_DUP (i : Nat) : Fld := ⟨0x80408 + 0x1000 * i, 16, 8⟩
/-- PRT_TXN_ERR.MALFORMED (R199). -/
def Fld.PRT_TXN_ERR_MALFORMED (i : Nat) : Fld := ⟨0x80408 + 0x1000 * i, 8, 8⟩
/-- PRT_TXN_ERR.ORPHAN (R199). -/
def Fld.PRT_TXN_ERR_ORPHAN (i : Nat) : Fld := ⟨0x80408 + 0x1000 * i, 0, 8⟩
/-- The window offset of PRT_TXN_REFUSED (R200). -/
def Off.PRT_TXN_REFUSED (i : Nat) : Nat := 0x8040C + 0x1000 * i
/-- PRT_TXN_REFUSED.UNSUPPORTED (R200). -/
def Fld.PRT_TXN_REFUSED_UNSUPPORTED (i : Nat) : Fld := ⟨0x8040C + 0x1000 * i, 24, 8⟩
/-- PRT_TXN_REFUSED.THERMAL_HALT (R200). -/
def Fld.PRT_TXN_REFUSED_THERMAL_HALT (i : Nat) : Fld := ⟨0x8040C + 0x1000 * i, 16, 8⟩
/-- PRT_TXN_REFUSED.RETIRED (R200). -/
def Fld.PRT_TXN_REFUSED_RETIRED (i : Nat) : Fld := ⟨0x8040C + 0x1000 * i, 8, 8⟩
/-- PRT_TXN_REFUSED.UNMAPPED (R200). -/
def Fld.PRT_TXN_REFUSED_UNMAPPED (i : Nat) : Fld := ⟨0x8040C + 0x1000 * i, 0, 8⟩
/-- The window offset of PRT_TXN_LOST (R201). -/
def Off.PRT_TXN_LOST (i : Nat) : Nat := 0x80410 + 0x1000 * i
/-- PRT_TXN_LOST.LOST (R201). -/
def Fld.PRT_TXN_LOST_LOST (i : Nat) : Fld := ⟨0x80410 + 0x1000 * i, 0, 16⟩
/-- The window offset of PRT_POOL_CTRL (R237). -/
def Off.PRT_POOL_CTRL (i : Nat) : Nat := 0x80500 + 0x1000 * i
/-- PRT_POOL_CTRL.HOLD_TO (R237). -/
def Fld.PRT_POOL_CTRL_HOLD_TO (i : Nat) : Fld := ⟨0x80500 + 0x1000 * i, 12, 4⟩
/-- PRT_POOL_CTRL.CTX_TO (R237). -/
def Fld.PRT_POOL_CTRL_CTX_TO (i : Nat) : Fld := ⟨0x80500 + 0x1000 * i, 8, 4⟩
/-- PRT_POOL_CTRL.TURN_OUT (R237). -/
def Fld.PRT_POOL_CTRL_TURN_OUT (i : Nat) : Fld := ⟨0x80500 + 0x1000 * i, 2, 1⟩
/-- PRT_POOL_CTRL.ROLE (R237). -/
def Fld.PRT_POOL_CTRL_ROLE (i : Nat) : Fld := ⟨0x80500 + 0x1000 * i, 0, 2⟩
/-- The window offset of PRT_POOL_STAT (R238). -/
def Off.PRT_POOL_STAT (i : Nat) : Nat := 0x80504 + 0x1000 * i
/-- PRT_POOL_STAT.QUARANTINED (R238). -/
def Fld.PRT_POOL_STAT_QUARANTINED (i : Nat) : Fld := ⟨0x80504 + 0x1000 * i, 16, 11⟩
/-- PRT_POOL_STAT.CTX_USED (R238). -/
def Fld.PRT_POOL_STAT_CTX_USED (i : Nat) : Fld := ⟨0x80504 + 0x1000 * i, 0, 11⟩
/-- The window offset of PRT_POOL_REFUSED (R239). -/
def Off.PRT_POOL_REFUSED (i : Nat) : Nat := 0x80508 + 0x1000 * i
/-- PRT_POOL_REFUSED.CTX_TIMEOUT (R239). -/
def Fld.PRT_POOL_REFUSED_CTX_TIMEOUT (i : Nat) : Fld := ⟨0x80508 + 0x1000 * i, 24, 8⟩
/-- PRT_POOL_REFUSED.LOOP (R239). -/
def Fld.PRT_POOL_REFUSED_LOOP (i : Nat) : Fld := ⟨0x80508 + 0x1000 * i, 16, 8⟩
/-- PRT_POOL_REFUSED.PATH_DOWN (R239). -/
def Fld.PRT_POOL_REFUSED_PATH_DOWN (i : Nat) : Fld := ⟨0x80508 + 0x1000 * i, 8, 8⟩
/-- PRT_POOL_REFUSED.HOP_LIMIT (R239). -/
def Fld.PRT_POOL_REFUSED_HOP_LIMIT (i : Nat) : Fld := ⟨0x80508 + 0x1000 * i, 0, 8⟩
/-- The window offset of PAV_SCHED_CTRL (R281). -/
def Off.PAV_SCHED_CTRL (i : Nat) : Nat := 0xC0000 + 0x1000 * i
/-- PAV_SCHED_CTRL.HIT_MAX (R281). -/
def Fld.PAV_SCHED_CTRL_HIT_MAX (i : Nat) : Fld := ⟨0xC0000 + 0x1000 * i, 24, 8⟩
/-- PAV_SCHED_CTRL.OPEN_IDLE (R281). -/
def Fld.PAV_SCHED_CTRL_OPEN_IDLE (i : Nat) : Fld := ⟨0xC0000 + 0x1000 * i, 16, 8⟩
/-- PAV_SCHED_CTRL.PAGE_POLICY (R281). -/
def Fld.PAV_SCHED_CTRL_PAGE_POLICY (i : Nat) : Fld := ⟨0xC0000 + 0x1000 * i, 0, 2⟩
/-- The window offset of PAV_AGE (R282). -/
def Off.PAV_AGE (i : Nat) : Nat := 0xC0004 + 0x1000 * i
/-- PAV_AGE.STARVE (R282). -/
def Fld.PAV_AGE_STARVE (i : Nat) : Fld := ⟨0xC0004 + 0x1000 * i, 0, 8⟩
/-- The window offset of PAV_BUF_CTRL (R283). -/
def Off.PAV_BUF_CTRL (i : Nat) : Nat := 0xC0008 + 0x1000 * i
/-- PAV_BUF_CTRL.WR_HI (R283). -/
def Fld.PAV_BUF_CTRL_WR_HI (i : Nat) : Fld := ⟨0xC0008 + 0x1000 * i, 20, 10⟩
/-- PAV_BUF_CTRL.WR_LO (R283). -/
def Fld.PAV_BUF_CTRL_WR_LO (i : Nat) : Fld := ⟨0xC0008 + 0x1000 * i, 10, 10⟩
/-- PAV_BUF_CTRL.TC0_MAX (R283). -/
def Fld.PAV_BUF_CTRL_TC0_MAX (i : Nat) : Fld := ⟨0xC0008 + 0x1000 * i, 0, 9⟩
/-- The window offset of PAV_PWR (R284). -/
def Off.PAV_PWR (i : Nat) : Nat := 0xC000C + 0x1000 * i
/-- PAV_PWR.PD_IDLE (R284). -/
def Fld.PAV_PWR_PD_IDLE (i : Nat) : Fld := ⟨0xC000C + 0x1000 * i, 0, 16⟩
/-- The window offset of PAV_THROTTLE (R285). -/
def Off.PAV_THROTTLE (i : Nat) : Nat := 0xC0010 + 0x1000 * i
/-- PAV_THROTTLE.LEVEL (R285). -/
def Fld.PAV_THROTTLE_LEVEL (i : Nat) : Fld := ⟨0xC0010 + 0x1000 * i, 30, 2⟩
/-- PAV_THROTTLE.PAUSE2 (R285). -/
def Fld.PAV_THROTTLE_PAUSE2 (i : Nat) : Fld := ⟨0xC0010 + 0x1000 * i, 16, 10⟩
/-- PAV_THROTTLE.PAUSE1 (R285). -/
def Fld.PAV_THROTTLE_PAUSE1 (i : Nat) : Fld := ⟨0xC0010 + 0x1000 * i, 0, 10⟩
/-- The window offset of PAV_SCHED_STAT (R286). -/
def Off.PAV_SCHED_STAT (i : Nat) : Nat := 0xC0020 + 0x1000 * i
/-- PAV_SCHED_STAT.RD_USED (R286). -/
def Fld.PAV_SCHED_STAT_RD_USED (i : Nat) : Fld := ⟨0xC0020 + 0x1000 * i, 20, 10⟩
/-- PAV_SCHED_STAT.WR_USED (R286). -/
def Fld.PAV_SCHED_STAT_WR_USED (i : Nat) : Fld := ⟨0xC0020 + 0x1000 * i, 10, 10⟩
/-- PAV_SCHED_STAT.REQ_USED (R286). -/
def Fld.PAV_SCHED_STAT_REQ_USED (i : Nat) : Fld := ⟨0xC0020 + 0x1000 * i, 0, 10⟩
/-- The window offset of PAV_BANK_OPEN_LO (R287). -/
def Off.PAV_BANK_OPEN_LO (i : Nat) : Nat := 0xC0024 + 0x1000 * i
/-- PAV_BANK_OPEN_LO.OPEN (R287). -/
def Fld.PAV_BANK_OPEN_LO_OPEN (i : Nat) : Fld := ⟨0xC0024 + 0x1000 * i, 0, 32⟩
/-- The window offset of PAV_BANK_OPEN_HI (R287). -/
def Off.PAV_BANK_OPEN_HI (i : Nat) : Nat := 0xC0028 + 0x1000 * i
/-- PAV_BANK_OPEN_HI.OPEN (R287). -/
def Fld.PAV_BANK_OPEN_HI_OPEN (i : Nat) : Fld := ⟨0xC0028 + 0x1000 * i, 0, 32⟩
/-- The window offset of PAV_RANK_STAT (R288). -/
def Off.PAV_RANK_STAT (i : Nat) : Nat := 0xC002C + 0x1000 * i
/-- PAV_RANK_STAT.STATE_0 (R288). -/
def Fld.PAV_RANK_STAT_STATE_0 (i : Nat) : Fld := ⟨0xC002C + 0x1000 * i, 0, 3⟩
/-- PAV_RANK_STAT.STATE_1 (R288). -/
def Fld.PAV_RANK_STAT_STATE_1 (i : Nat) : Fld := ⟨0xC002C + 0x1000 * i, 4, 3⟩
/-- PAV_RANK_STAT.STATE_2 (R288). -/
def Fld.PAV_RANK_STAT_STATE_2 (i : Nat) : Fld := ⟨0xC002C + 0x1000 * i, 8, 3⟩
/-- PAV_RANK_STAT.STATE_3 (R288). -/
def Fld.PAV_RANK_STAT_STATE_3 (i : Nat) : Fld := ⟨0xC002C + 0x1000 * i, 12, 3⟩
/-- The window offset of PAV_SCHED_CNT (R289). -/
def Off.PAV_SCHED_CNT (i : Nat) : Nat := 0xC0030 + 0x1000 * i
/-- PAV_SCHED_CNT.AGED2 (R289). -/
def Fld.PAV_SCHED_CNT_AGED2 (i : Nat) : Fld := ⟨0xC0030 + 0x1000 * i, 24, 8⟩
/-- PAV_SCHED_CNT.AGED1 (R289). -/
def Fld.PAV_SCHED_CNT_AGED1 (i : Nat) : Fld := ⟨0xC0030 + 0x1000 * i, 16, 8⟩
/-- PAV_SCHED_CNT.STALL (R289). -/
def Fld.PAV_SCHED_CNT_STALL (i : Nat) : Fld := ⟨0xC0030 + 0x1000 * i, 8, 8⟩
/-- PAV_SCHED_CNT.PAUSES (R289). -/
def Fld.PAV_SCHED_CNT_PAUSES (i : Nat) : Fld := ⟨0xC0030 + 0x1000 * i, 0, 8⟩
/-- The window offset of PAV_PANIC_CNT (R290). -/
def Off.PAV_PANIC_CNT (i : Nat) : Nat := 0xC0034 + 0x1000 * i
/-- PAV_PANIC_CNT.COUNT (R290). -/
def Fld.PAV_PANIC_CNT_COUNT (i : Nat) : Fld := ⟨0xC0034 + 0x1000 * i, 0, 32⟩
/-- The window offset of PAV_REF_WIN (R335). -/
def Off.PAV_REF_WIN (i : Nat) (j : Nat) (k : Nat) : Nat := 0xC0100 + 0x1000 * i + 0x10 * j + 0x4 * k
/-- PAV_REF_WIN.EN (R335). -/
def Fld.PAV_REF_WIN_EN (i : Nat) (j : Nat) (k : Nat) : Fld := ⟨0xC0100 + 0x1000 * i + 0x10 * j + 0x4 * k, 31, 1⟩
/-- PAV_REF_WIN.WIDTH (R335). -/
def Fld.PAV_REF_WIN_WIDTH (i : Nat) (j : Nat) (k : Nat) : Fld := ⟨0xC0100 + 0x1000 * i + 0x10 * j + 0x4 * k, 16, 6⟩
/-- PAV_REF_WIN.ANGLE (R335). -/
def Fld.PAV_REF_WIN_ANGLE (i : Nat) (j : Nat) (k : Nat) : Fld := ⟨0xC0100 + 0x1000 * i + 0x10 * j + 0x4 * k, 0, 10⟩
/-- The window offset of PAV_REF_STAT (R336). -/
def Off.PAV_REF_STAT (i : Nat) : Nat := 0xC0140 + 0x1000 * i
/-- PAV_REF_STAT.RATE (R336). -/
def Fld.PAV_REF_STAT_RATE (i : Nat) : Fld := ⟨0xC0140 + 0x1000 * i, 28, 2⟩
/-- PAV_REF_STAT.LEVEL1 (R336). -/
def Fld.PAV_REF_STAT_LEVEL1 (i : Nat) : Fld := ⟨0xC0140 + 0x1000 * i, 20, 4⟩
/-- PAV_REF_STAT.PAYING (R336). -/
def Fld.PAV_REF_STAT_PAYING (i : Nat) : Fld := ⟨0xC0140 + 0x1000 * i, 16, 4⟩
/-- PAV_REF_STAT.DEBT_3 (R336). -/
def Fld.PAV_REF_STAT_DEBT_3 (i : Nat) : Fld := ⟨0xC0140 + 0x1000 * i, 12, 4⟩
/-- PAV_REF_STAT.DEBT_2 (R336). -/
def Fld.PAV_REF_STAT_DEBT_2 (i : Nat) : Fld := ⟨0xC0140 + 0x1000 * i, 8, 4⟩
/-- PAV_REF_STAT.DEBT_1 (R336). -/
def Fld.PAV_REF_STAT_DEBT_1 (i : Nat) : Fld := ⟨0xC0140 + 0x1000 * i, 4, 4⟩
/-- PAV_REF_STAT.DEBT_0 (R336). -/
def Fld.PAV_REF_STAT_DEBT_0 (i : Nat) : Fld := ⟨0xC0140 + 0x1000 * i, 0, 4⟩
/-- The window offset of PAV_REF_CNT (R337). -/
def Off.PAV_REF_CNT (i : Nat) : Nat := 0xC0144 + 0x1000 * i
/-- PAV_REF_CNT.FORCED (R337). -/
def Fld.PAV_REF_CNT_FORCED (i : Nat) : Fld := ⟨0xC0144 + 0x1000 * i, 24, 8⟩
/-- PAV_REF_CNT.BAND (R337). -/
def Fld.PAV_REF_CNT_BAND (i : Nat) : Fld := ⟨0xC0144 + 0x1000 * i, 16, 8⟩
/-- PAV_REF_CNT.POSTPONED (R337). -/
def Fld.PAV_REF_CNT_POSTPONED (i : Nat) : Fld := ⟨0xC0144 + 0x1000 * i, 8, 8⟩
/-- The window offset of PAV_NEIGH_CTRL (R338). -/
def Off.PAV_NEIGH_CTRL (i : Nat) : Nat := 0xC0150 + 0x1000 * i
/-- PAV_NEIGH_CTRL.D2 (R338). -/
def Fld.PAV_NEIGH_CTRL_D2 (i : Nat) : Fld := ⟨0xC0150 + 0x1000 * i, 5, 1⟩
/-- PAV_NEIGH_CTRL.EN (R338). -/
def Fld.PAV_NEIGH_CTRL_EN (i : Nat) : Fld := ⟨0xC0150 + 0x1000 * i, 4, 1⟩
/-- PAV_NEIGH_CTRL.K (R338). -/
def Fld.PAV_NEIGH_CTRL_K (i : Nat) : Fld := ⟨0xC0150 + 0x1000 * i, 0, 4⟩
/-- The window offset of PAV_NEIGH_STAT (R339). -/
def Off.PAV_NEIGH_STAT (i : Nat) : Nat := 0xC0154 + 0x1000 * i
/-- PAV_NEIGH_STAT.ESCALATED (R339). -/
def Fld.PAV_NEIGH_STAT_ESCALATED (i : Nat) : Fld := ⟨0xC0154 + 0x1000 * i, 24, 8⟩
/-- PAV_NEIGH_STAT.FULL (R339). -/
def Fld.PAV_NEIGH_STAT_FULL (i : Nat) : Fld := ⟨0xC0154 + 0x1000 * i, 16, 8⟩
/-- PAV_NEIGH_STAT.OCC (R339). -/
def Fld.PAV_NEIGH_STAT_OCC (i : Nat) : Fld := ⟨0xC0154 + 0x1000 * i, 0, 6⟩
/-- The window offset of PAV_NEIGH_DRAWN (R340). -/
def Off.PAV_NEIGH_DRAWN (i : Nat) : Nat := 0xC0158 + 0x1000 * i
/-- PAV_NEIGH_DRAWN.COUNT (R340). -/
def Fld.PAV_NEIGH_DRAWN_COUNT (i : Nat) : Fld := ⟨0xC0158 + 0x1000 * i, 0, 32⟩
/-- The window offset of PAV_ECC_CTRL (R380). -/
def Off.PAV_ECC_CTRL (i : Nat) : Nat := 0xC0200 + 0x1000 * i
/-- PAV_ECC_CTRL.EXPIRE (R380). -/
def Fld.PAV_ECC_CTRL_EXPIRE (i : Nat) : Fld := ⟨0xC0200 + 0x1000 * i, 8, 5⟩
/-- PAV_ECC_CTRL.RETIRE_AUTO (R380). -/
def Fld.PAV_ECC_CTRL_RETIRE_AUTO (i : Nat) : Fld := ⟨0xC0200 + 0x1000 * i, 3, 1⟩
/-- PAV_ECC_CTRL.SPARE_EN (R380). -/
def Fld.PAV_ECC_CTRL_SPARE_EN (i : Nat) : Fld := ⟨0xC0200 + 0x1000 * i, 2, 1⟩
/-- PAV_ECC_CTRL.REPEAT_EN (R380). -/
def Fld.PAV_ECC_CTRL_REPEAT_EN (i : Nat) : Fld := ⟨0xC0200 + 0x1000 * i, 1, 1⟩
/-- PAV_ECC_CTRL.ACCOUNT (R380). -/
def Fld.PAV_ECC_CTRL_ACCOUNT (i : Nat) : Fld := ⟨0xC0200 + 0x1000 * i, 0, 1⟩
/-- The window offset of PAV_BUCKET_CFG (R381). -/
def Off.PAV_BUCKET_CFG (i : Nat) : Nat := 0xC0204 + 0x1000 * i
/-- PAV_BUCKET_CFG.LEAK (R381). -/
def Fld.PAV_BUCKET_CFG_LEAK (i : Nat) : Fld := ⟨0xC0204 + 0x1000 * i, 16, 16⟩
/-- PAV_BUCKET_CFG.DEPTH (R381). -/
def Fld.PAV_BUCKET_CFG_DEPTH (i : Nat) : Fld := ⟨0xC0204 + 0x1000 * i, 0, 16⟩
/-- The window offset of PAV_BUCKET_STAT (R382). -/
def Off.PAV_BUCKET_STAT (i : Nat) : Nat := 0xC0208 + 0x1000 * i
/-- PAV_BUCKET_STAT.OVERFLOWS (R382). -/
def Fld.PAV_BUCKET_STAT_OVERFLOWS (i : Nat) : Fld := ⟨0xC0208 + 0x1000 * i, 16, 8⟩
/-- PAV_BUCKET_STAT.LEVEL (R382). -/
def Fld.PAV_BUCKET_STAT_LEVEL (i : Nat) : Fld := ⟨0xC0208 + 0x1000 * i, 0, 16⟩
/-- The window offset of PAV_SCRUB_CTRL (R383). -/
def Off.PAV_SCRUB_CTRL (i : Nat) : Nat := 0xC020C + 0x1000 * i
/-- PAV_SCRUB_CTRL.INTERVAL (R383). -/
def Fld.PAV_SCRUB_CTRL_INTERVAL (i : Nat) : Fld := ⟨0xC020C + 0x1000 * i, 0, 16⟩
/-- The window offset of PAV_SCRUB_POS (R384). -/
def Off.PAV_SCRUB_POS (i : Nat) : Nat := 0xC0210 + 0x1000 * i
/-- PAV_SCRUB_POS.PASSES (R384). -/
def Fld.PAV_SCRUB_POS_PASSES (i : Nat) : Fld := ⟨0xC0210 + 0x1000 * i, 24, 8⟩
/-- PAV_SCRUB_POS.ROW (R384). -/
def Fld.PAV_SCRUB_POS_ROW (i : Nat) : Fld := ⟨0xC0210 + 0x1000 * i, 6, 15⟩
/-- PAV_SCRUB_POS.BANK (R384). -/
def Fld.PAV_SCRUB_POS_BANK (i : Nat) : Fld := ⟨0xC0210 + 0x1000 * i, 0, 6⟩
/-- The window offset of PAV_ECC_CE (R385). -/
def Off.PAV_ECC_CE (i : Nat) : Nat := 0xC0214 + 0x1000 * i
/-- PAV_ECC_CE.COUNT (R385). -/
def Fld.PAV_ECC_CE_COUNT (i : Nat) : Fld := ⟨0xC0214 + 0x1000 * i, 0, 32⟩
/-- The window offset of PAV_ECC_UE (R385). -/
def Off.PAV_ECC_UE (i : Nat) : Nat := 0xC0218 + 0x1000 * i
/-- PAV_ECC_UE.COUNT (R385). -/
def Fld.PAV_ECC_UE_COUNT (i : Nat) : Fld := ⟨0xC0218 + 0x1000 * i, 0, 32⟩
/-- The window offset of PAV_ECC_CNT (R386). -/
def Off.PAV_ECC_CNT (i : Nat) : Nat := 0xC021C + 0x1000 * i
/-- PAV_ECC_CNT.POISON_SEEN (R386). -/
def Fld.PAV_ECC_CNT_POISON_SEEN (i : Nat) : Fld := ⟨0xC021C + 0x1000 * i, 24, 8⟩
/-- PAV_ECC_CNT.WRITEBACK (R386). -/
def Fld.PAV_ECC_CNT_WRITEBACK (i : Nat) : Fld := ⟨0xC021C + 0x1000 * i, 16, 8⟩
/-- PAV_ECC_CNT.HARDFAIL (R386). -/
def Fld.PAV_ECC_CNT_HARDFAIL (i : Nat) : Fld := ⟨0xC021C + 0x1000 * i, 8, 8⟩
/-- PAV_ECC_CNT.EVICT (R386). -/
def Fld.PAV_ECC_CNT_EVICT (i : Nat) : Fld := ⟨0xC021C + 0x1000 * i, 0, 8⟩
/-- The window offset of PAV_SCRUB_CNT (R387). -/
def Off.PAV_SCRUB_CNT (i : Nat) : Nat := 0xC0220 + 0x1000 * i
/-- PAV_SCRUB_CNT.ESCALATED (R387). -/
def Fld.PAV_SCRUB_CNT_ESCALATED (i : Nat) : Fld := ⟨0xC0220 + 0x1000 * i, 24, 8⟩
/-- PAV_SCRUB_CNT.UE (R387). -/
def Fld.PAV_SCRUB_CNT_UE (i : Nat) : Fld := ⟨0xC0220 + 0x1000 * i, 16, 8⟩
/-- PAV_SCRUB_CNT.CORRECTED (R387). -/
def Fld.PAV_SCRUB_CNT_CORRECTED (i : Nat) : Fld := ⟨0xC0220 + 0x1000 * i, 0, 16⟩
/-- The window offset of PAV_REPAIR_STAT (R388). -/
def Off.PAV_REPAIR_STAT (i : Nat) : Nat := 0xC0224 + 0x1000 * i
/-- PAV_REPAIR_STAT.RETIRED (R388). -/
def Fld.PAV_REPAIR_STAT_RETIRED (i : Nat) : Fld := ⟨0xC0224 + 0x1000 * i, 31, 1⟩
/-- PAV_REPAIR_STAT.QUEUED (R388). -/
def Fld.PAV_REPAIR_STAT_QUEUED (i : Nat) : Fld := ⟨0xC0224 + 0x1000 * i, 24, 3⟩
/-- PAV_REPAIR_STAT.COPYING (R388). -/
def Fld.PAV_REPAIR_STAT_COPYING (i : Nat) : Fld := ⟨0xC0224 + 0x1000 * i, 23, 1⟩
/-- PAV_REPAIR_STAT.EXHAUSTED (R388). -/
def Fld.PAV_REPAIR_STAT_EXHAUSTED (i : Nat) : Fld := ⟨0xC0224 + 0x1000 * i, 16, 7⟩
/-- PAV_REPAIR_STAT.RUNTIME_USED (R388). -/
def Fld.PAV_REPAIR_STAT_RUNTIME_USED (i : Nat) : Fld := ⟨0xC0224 + 0x1000 * i, 0, 13⟩
/-- The window offset of PAV_ECC_LOG_0 (R389). -/
def Off.PAV_ECC_LOG_0 (i : Nat) : Nat := 0xC0230 + 0x1000 * i
/-- PAV_ECC_LOG_0.TS_LO (R389). -/
def Fld.PAV_ECC_LOG_0_TS_LO (i : Nat) : Fld := ⟨0xC0230 + 0x1000 * i, 0, 32⟩
/-- The window offset of PAV_ECC_LOG_1 (R389). -/
def Off.PAV_ECC_LOG_1 (i : Nat) : Nat := 0xC0234 + 0x1000 * i
/-- PAV_ECC_LOG_1.SYNDROME (R389). -/
def Fld.PAV_ECC_LOG_1_SYNDROME (i : Nat) : Fld := ⟨0xC0234 + 0x1000 * i, 24, 8⟩
/-- PAV_ECC_LOG_1.TYPE (R389). -/
def Fld.PAV_ECC_LOG_1_TYPE (i : Nat) : Fld := ⟨0xC0234 + 0x1000 * i, 18, 3⟩
/-- PAV_ECC_LOG_1.TS_HI (R389). -/
def Fld.PAV_ECC_LOG_1_TS_HI (i : Nat) : Fld := ⟨0xC0234 + 0x1000 * i, 0, 18⟩
/-- The window offset of PAV_ECC_LOG_2 (R389). -/
def Off.PAV_ECC_LOG_2 (i : Nat) : Nat := 0xC0238 + 0x1000 * i
/-- PAV_ECC_LOG_2.SOURCE (R389). -/
def Fld.PAV_ECC_LOG_2_SOURCE (i : Nat) : Fld := ⟨0xC0238 + 0x1000 * i, 30, 2⟩
/-- PAV_ECC_LOG_2.SPARE (R389). -/
def Fld.PAV_ECC_LOG_2_SPARE (i : Nat) : Fld := ⟨0xC0238 + 0x1000 * i, 29, 1⟩
/-- PAV_ECC_LOG_2.WORD (R389). -/
def Fld.PAV_ECC_LOG_2_WORD (i : Nat) : Fld := ⟨0xC0238 + 0x1000 * i, 26, 3⟩
/-- PAV_ECC_LOG_2.COL (R389). -/
def Fld.PAV_ECC_LOG_2_COL (i : Nat) : Fld := ⟨0xC0238 + 0x1000 * i, 21, 5⟩
/-- PAV_ECC_LOG_2.ROW (R389). -/
def Fld.PAV_ECC_LOG_2_ROW (i : Nat) : Fld := ⟨0xC0238 + 0x1000 * i, 6, 15⟩
/-- PAV_ECC_LOG_2.BANK (R389). -/
def Fld.PAV_ECC_LOG_2_BANK (i : Nat) : Fld := ⟨0xC0238 + 0x1000 * i, 0, 6⟩
/-- The window offset of PAV_ECC_LOG_3 (R389). -/
def Off.PAV_ECC_LOG_3 (i : Nat) : Nat := 0xC023C + 0x1000 * i
/-- PAV_ECC_LOG_3.MULTI (R389). -/
def Fld.PAV_ECC_LOG_3_MULTI (i : Nat) : Fld := ⟨0xC023C + 0x1000 * i, 7, 1⟩
/-- PAV_ECC_LOG_3.BIT (R389). -/
def Fld.PAV_ECC_LOG_3_BIT (i : Nat) : Fld := ⟨0xC023C + 0x1000 * i, 0, 7⟩
/-- The window offset of PAV_ECC_LOG_STAT (R390). -/
def Off.PAV_ECC_LOG_STAT (i : Nat) : Nat := 0xC0240 + 0x1000 * i
/-- PAV_ECC_LOG_STAT.LOST (R390). -/
def Fld.PAV_ECC_LOG_STAT_LOST (i : Nat) : Fld := ⟨0xC0240 + 0x1000 * i, 8, 8⟩
/-- PAV_ECC_LOG_STAT.COUNT (R390). -/
def Fld.PAV_ECC_LOG_STAT_COUNT (i : Nat) : Fld := ⟨0xC0240 + 0x1000 * i, 0, 5⟩
/-- The window offset of PAV_BIST_POS (R426). -/
def Off.PAV_BIST_POS (i : Nat) : Nat := 0xC0300 + 0x1000 * i
/-- PAV_BIST_POS.PASSES (R426). -/
def Fld.PAV_BIST_POS_PASSES (i : Nat) : Fld := ⟨0xC0300 + 0x1000 * i, 24, 8⟩
/-- PAV_BIST_POS.K (R426). -/
def Fld.PAV_BIST_POS_K (i : Nat) : Fld := ⟨0xC0300 + 0x1000 * i, 0, 22⟩
/-- The window offset of PAV_BIST_STAT (R427). -/
def Off.PAV_BIST_STAT (i : Nat) : Nat := 0xC0304 + 0x1000 * i
/-- PAV_BIST_STAT.SAVE_FAULT (R427). -/
def Fld.PAV_BIST_STAT_SAVE_FAULT (i : Nat) : Fld := ⟨0xC0304 + 0x1000 * i, 7, 1⟩
/-- PAV_BIST_STAT.FORM (R427). -/
def Fld.PAV_BIST_STAT_FORM (i : Nat) : Fld := ⟨0xC0304 + 0x1000 * i, 4, 2⟩
/-- PAV_BIST_STAT.PHASE (R427). -/
def Fld.PAV_BIST_STAT_PHASE (i : Nat) : Fld := ⟨0xC0304 + 0x1000 * i, 0, 4⟩
/-- The window offset of PAV_BIST_DONE (R428). -/
def Off.PAV_BIST_DONE (i : Nat) : Nat := 0xC0308 + 0x1000 * i
/-- PAV_BIST_DONE.COUNT (R428). -/
def Fld.PAV_BIST_DONE_COUNT (i : Nat) : Fld := ⟨0xC0308 + 0x1000 * i, 0, 32⟩
/-- The window offset of PAV_BIST_CNT (R429). -/
def Off.PAV_BIST_CNT (i : Nat) : Nat := 0xC030C + 0x1000 * i
/-- PAV_BIST_CNT.FAILED (R429). -/
def Fld.PAV_BIST_CNT_FAILED (i : Nat) : Fld := ⟨0xC030C + 0x1000 * i, 16, 16⟩
/-- PAV_BIST_CNT.ABORTED (R429). -/
def Fld.PAV_BIST_CNT_ABORTED (i : Nat) : Fld := ⟨0xC030C + 0x1000 * i, 8, 8⟩
/-- PAV_BIST_CNT.UNUSABLE (R429). -/
def Fld.PAV_BIST_CNT_UNUSABLE (i : Nat) : Fld := ⟨0xC030C + 0x1000 * i, 0, 8⟩
/-- The window offset of PAV_BIST_FAIL_0 (R430). -/
def Off.PAV_BIST_FAIL_0 (i : Nat) : Nat := 0xC0310 + 0x1000 * i
/-- PAV_BIST_FAIL_0.VALID (R430). -/
def Fld.PAV_BIST_FAIL_0_VALID (i : Nat) : Fld := ⟨0xC0310 + 0x1000 * i, 31, 1⟩
/-- PAV_BIST_FAIL_0.CLASS (R430). -/
def Fld.PAV_BIST_FAIL_0_CLASS (i : Nat) : Fld := ⟨0xC0310 + 0x1000 * i, 29, 2⟩
/-- PAV_BIST_FAIL_0.ELEMENT (R430). -/
def Fld.PAV_BIST_FAIL_0_ELEMENT (i : Nat) : Fld := ⟨0xC0310 + 0x1000 * i, 26, 3⟩
/-- PAV_BIST_FAIL_0.COL (R430). -/
def Fld.PAV_BIST_FAIL_0_COL (i : Nat) : Fld := ⟨0xC0310 + 0x1000 * i, 21, 5⟩
/-- PAV_BIST_FAIL_0.ROW (R430). -/
def Fld.PAV_BIST_FAIL_0_ROW (i : Nat) : Fld := ⟨0xC0310 + 0x1000 * i, 6, 15⟩
/-- PAV_BIST_FAIL_0.BANK (R430). -/
def Fld.PAV_BIST_FAIL_0_BANK (i : Nat) : Fld := ⟨0xC0310 + 0x1000 * i, 0, 6⟩
/-- The window offset of PAV_BIST_FAIL_1 (R430). -/
def Off.PAV_BIST_FAIL_1 (i : Nat) : Nat := 0xC0314 + 0x1000 * i
/-- PAV_BIST_FAIL_1.SPARE (R430). -/
def Fld.PAV_BIST_FAIL_1_SPARE (i : Nat) : Fld := ⟨0xC0314 + 0x1000 * i, 31, 1⟩
/-- PAV_BIST_FAIL_1.WORD (R430). -/
def Fld.PAV_BIST_FAIL_1_WORD (i : Nat) : Fld := ⟨0xC0314 + 0x1000 * i, 24, 3⟩
/-- PAV_BIST_FAIL_1.NBITS (R430). -/
def Fld.PAV_BIST_FAIL_1_NBITS (i : Nat) : Fld := ⟨0xC0314 + 0x1000 * i, 16, 8⟩
/-- PAV_BIST_FAIL_1.BIT (R430). -/
def Fld.PAV_BIST_FAIL_1_BIT (i : Nat) : Fld := ⟨0xC0314 + 0x1000 * i, 0, 7⟩
/-- The window offset of PAV_TSV_CTRL (R487). -/
def Off.PAV_TSV_CTRL (i : Nat) : Nat := 0xC0400 + 0x1000 * i
/-- PAV_TSV_CTRL.MIN_WIN (R487). -/
def Fld.PAV_TSV_CTRL_MIN_WIN (i : Nat) : Fld := ⟨0xC0400 + 0x1000 * i, 16, 6⟩
/-- PAV_TSV_CTRL.AUTO (R487). -/
def Fld.PAV_TSV_CTRL_AUTO (i : Nat) : Fld := ⟨0xC0400 + 0x1000 * i, 0, 16⟩
/-- The window offset of PAV_TSV_STAT (R488). -/
def Off.PAV_TSV_STAT (i : Nat) : Nat := 0xC0404 + 0x1000 * i
/-- PAV_TSV_STAT.FAIL_GROUPS (R488). -/
def Fld.PAV_TSV_STAT_FAIL_GROUPS (i : Nat) : Fld := ⟨0xC0404 + 0x1000 * i, 24, 8⟩
/-- PAV_TSV_STAT.WR_MARGIN (R488). -/
def Fld.PAV_TSV_STAT_WR_MARGIN (i : Nat) : Fld := ⟨0xC0404 + 0x1000 * i, 16, 7⟩
/-- PAV_TSV_STAT.RD_MARGIN (R488). -/
def Fld.PAV_TSV_STAT_RD_MARGIN (i : Nat) : Fld := ⟨0xC0404 + 0x1000 * i, 8, 7⟩
/-- PAV_TSV_STAT.RANK (R488). -/
def Fld.PAV_TSV_STAT_RANK (i : Nat) : Fld := ⟨0xC0404 + 0x1000 * i, 4, 2⟩
/-- PAV_TSV_STAT.STATE (R488). -/
def Fld.PAV_TSV_STAT_STATE (i : Nat) : Fld := ⟨0xC0404 + 0x1000 * i, 0, 3⟩
/-- The window offset of PAV_TSV_TRIM (R489). -/
def Off.PAV_TSV_TRIM (i : Nat) (j : Nat) (k : Nat) : Nat := 0xC0410 + 0x1000 * i + 0x10 * j + 0x4 * k
/-- PAV_TSV_TRIM.CODE_3 (R489). -/
def Fld.PAV_TSV_TRIM_CODE_3 (i : Nat) (j : Nat) (k : Nat) : Fld := ⟨0xC0410 + 0x1000 * i + 0x10 * j + 0x4 * k, 24, 6⟩
/-- PAV_TSV_TRIM.CODE_2 (R489). -/
def Fld.PAV_TSV_TRIM_CODE_2 (i : Nat) (j : Nat) (k : Nat) : Fld := ⟨0xC0410 + 0x1000 * i + 0x10 * j + 0x4 * k, 16, 6⟩
/-- PAV_TSV_TRIM.CODE_1 (R489). -/
def Fld.PAV_TSV_TRIM_CODE_1 (i : Nat) (j : Nat) (k : Nat) : Fld := ⟨0xC0410 + 0x1000 * i + 0x10 * j + 0x4 * k, 8, 6⟩
/-- PAV_TSV_TRIM.CODE_0 (R489). -/
def Fld.PAV_TSV_TRIM_CODE_0 (i : Nat) (j : Nat) (k : Nat) : Fld := ⟨0xC0410 + 0x1000 * i + 0x10 * j + 0x4 * k, 0, 6⟩

end Sys2Proof.Machine
end

