-- ==== Sys2Proof/Machine/State.lean ====
section
/-! DEFINITION. The state of the IT9632 base die as plain data. Every management-window register has its one home in
`State.regs` (unlisted offsets read as the reset values of Regs.lean); what the spec gives the machine besides registers
(retry buffers, request tables, DRAM cells, fuses, mailbox snapshots, timers …) has a field of its own. Times are ticks of
5/24 ns, deadlines are `Option Nat`. -/
namespace Sys2Proof.Machine
open Sys2Proof

/-! ## Transactions -/

/-- The kind of a memory request (R145). -/
inductive MemOp where
  | rd | wr | wrp | wrm | atSwap | atCas | atAdd | atAnd | atOr | atXor | atSmax | atSmin | atUmax | atUmin
  deriving DecidableEq, Repr

/-- One line of an RD as it came back: the data slot, whether it is poisoned, whether a word was corrected (R188). -/
structure LineBack where
  idx : Nat
  pav : Nat
  data : Line
  poison : Bool
  corr : Bool
  deriving DecidableEq, Repr

/-- A request whose slot a port accepted and whose final response has not been sent (R176). -/
structure Txn where
  serial : Nat
  /-- the request slot as received -/
  slot : BitVec 80
  /-- data slots owned and not yet received (R146) -/
  owed : Nat
  /-- data slots received, in order, not yet handed on -/
  data : List Line
  /-- the refusal decided at the check (R191), sent once the owed slots are in (R178) -/
  refused : Option (BitVec 4)
  /-- PANIC as honoured on this port (R185) -/
  panic : Bool
  /-- every line handed to the promenade, or the request served or forwarded -/
  dispatched : Bool
  /-- lines handed to the promenade so far (a multi-line WR hands each over as its data slot arrives, R158) -/
  handed : Nat
  /-- lines that have entered their write buffer (R157) or come back -/
  done : Nat
  /-- a line of a WRM met an uncorrectable word it had to merge (R156) -/
  poisoned : Bool
  /-- lines of an RD that have come back and are in no response yet -/
  back : List LineBack
  /-- RUN_MAX at acceptance (R197) -/
  runMax : Nat
  /-- lines already answered in RD_DATA runs -/
  answered : Nat
  /-- false for a request answered TAG_IN_USE (R176) -/
  holdsTag : Bool
  /-- its number at the arbiters, and whether it has waited 64 fabric cycles at one (R23) -/
  rid : Nat
  aged : Bool
  /-- the egress port of a request that is forwarded (R214) -/
  forwarded : Option Nat
  /-- the link on which it was accepted has gone down: its responses are discarded (R194) -/
  dead : Bool
  /-- when its flit was received (R560), and whether its first response has been sent and measured -/
  at_ : Nat
  measured : Bool
  deriving DecidableEq, Repr

/-- A FENCE waiting for earlier requests (R164). -/
structure Fence where
  serial : Nat
  tag : BitVec 12
  tc : BitVec 2
  hold : Bool
  classes : BitVec 4
  covers : List Nat
  deriving DecidableEq, Repr

/-- A response ready to be sent (R172), with the data slots it owns. -/
structure ReadyRsp where
  op : BitVec 6
  slot : RspSlot
  data : List Line
  serial : Nat
  final : Bool
  /-- the peer port it came in on, when it is relayed: its credits there go back as it leaves (R226) -/
  via : Option Nat := none
  deriving DecidableEq, Repr

/-- A data slot still to be sent, with its class (R149) and the peer port it came in on when it is relayed. -/
structure TxSlot where
  tc : BitVec 2
  data : Line
  via : Option Nat
  deriving DecidableEq, Repr

/-- A context of a peer port's store (R215). -/
structure Ctx where
  id : Nat
  ingress : Nat
  serial : Nat
  tag : BitVec 12
  tc : BitVec 2
  hop : BitVec 3
  src : BitVec 4
  op : BitVec 6
  since : Nat
  quarantined : Bool
  deriving DecidableEq, Repr

/-- A request that waits at the forwarder for a credit or context of its egress port (R225, R230). -/
structure FwdWait where
  egress : Nat
  serial : Nat
  slot : BitVec 80
  data : List Line
  since : Nat
  /-- since when it waits for a credit or a context (R230) -/
  starved : Option Nat
  deriving DecidableEq, Repr

/-- A message the stack queues on a host port (R169): its slot and its data slot, if it owns one. -/
structure OutMsg where
  value : BitVec 16
  mtype : BitVec 4
  tc : BitVec 2
  data : Option Line
  /-- telemetry key: unit and part (R570) -/
  key : Option (Nat × Nat)
  deriving DecidableEq, Repr

/-! ## Ports and lanes -/

/-- A flit as it stands on the wire (R107, R108): type, number, ACK, control slots and data slot. -/
structure Flit where
  type : BitVec 3
  seq : BitVec 10
  ackP : Bool
  slots : List (BitVec 80)
  data : Option Line
  deriving DecidableEq, Repr

/-- A change put off until 100 ns after the completion of the write or command that asked for it (R75, R138, R204, R687). -/
inductive Delayed where
  | testState (p : Pos) (v : BitVec 3)
  | linkDis (v : Bool)
  | retrain
  | widen
  | role (v : BitVec 2)
  | portReset
  deriving DecidableEq, Repr

/-- What completes a write or command whose change is put off: the CMP of a transaction of the port, or the MBX_DONE of a
mailbox. -/
inductive After where
  | cmp (serial : Nat)
  | mbxDone (m : Nat)
  deriving DecidableEq, Repr

/-- A change put off: what its time waits for, and its time once that has been sent. -/
structure Later where
  change : Delayed
  after : Option After
  due : Option Nat
  deriving DecidableEq, Repr

/-- Lane state outside the registers (R62, R64, R65, R67, R74, R77 to R83, R104, R469). -/
structure Lane where
  /-- bits compared, 64 bits, up to `prbsFrom`, since when a locked checker has compared more (R80) -/
  prbsBits : BitVec 64
  prbsFrom : Option Nat
  /-- shift register of the checker once loaded (R79) -/
  chkReg : BitVec 31
  /-- since when the PRBS generator runs from its seed (R77), and the bits of its output that the injector has inverted (R83) -/
  genFrom : Option Nat
  genBad : List Nat
  /-- high half taken at the LO read -/
  prbsHi : Option Reg32
  /-- exit from coast or parked under way: its watchdog (R68) and whether it left parked -/
  exitDeadline : Option Nat
  exitParked : Bool
  /-- times of the CDR lock losses of the last millisecond (R81) -/
  cdrLosses : List Nat
  /-- found unusable by a lane test, a certificate, a failing grade or a training (R48) -/
  bad : Bool
  /-- preset under measurement and the best so far, with its count (R104) -/
  presetNow : Nat
  presetBest : Option (Nat × Nat)
  presetsDone : Bool
  /-- the end of the measurement under way -/
  presetEnd : Option Nat
  /-- PRT_LANE_TXEQ of the link whose recovery trains again at 8 Gb/s (R104) -/
  eqHeld : Reg32
  /-- when the alignment marker of the last TS2 came, in UI, and the delay that deskew gives the lane (R65) -/
  arrival : Nat
  deskew : Nat
  /-- words in the receive FIFO, 0 while the receiver is off (R64), and whether a word of the stream has been dropped or repeated
  since the last flit (R54) -/
  fifo : Nat
  slipped : Bool
  /-- the grading window: received bits left of it at `winFrom`, since when it runs (R81) -/
  winLeft : Nat
  winFrom : Option Nat
  /-- bits flipped by the injector, whether its single flip or burst has gone out here, and when its next periodic flip is due
  (R83) -/
  flips : Nat
  injDone : Bool
  injAt : Option Nat
  /-- ordered sets retransmitted in far-end loopback (R74) -/
  echo : List (List Byte)
  /-- a MARGIN_CFG write held during an eye scan (R469) -/
  marginHeld : Option Reg32
  /-- an eye scan: next point, open runs (R468, R471) -/
  scan : Option (Nat × List (Bool))
  deriving DecidableEq, Repr

def Lane.reset : Lane :=
  { prbsBits := 0, prbsFrom := none, chkReg := 0, genFrom := none, genBad := [], prbsHi := none, exitDeadline := none,
    exitParked := false, cdrLosses := [], bad := false, presetNow := 0, presetBest := none, presetsDone := false, presetEnd := none,
    eqHeld := 0, arrival := 0, deskew := 0, fifo := 0, slipped := false, winLeft := 0, winFrom := none, flips := 0, injDone := false,
    injAt := none, echo := [], marginHeld := none, scan := none }

/-- Training and recovery (R98 to R106, R121 to R125). Masks are of lane positions. -/
structure Train where
  attempt : BitVec 8
  locked : BitVec 8
  got1 : BitVec 8
  got1seen : BitVec 8
  got2 : BitVec 8
  gotSds : BitVec 8
  gotExit : BitVec 8
  gotEios : BitVec 8
  pRates : BitVec 5
  pUsable : BitVec 8
  pX1 : Bool
  /-- this end sends X1 = 1 (R703) -/
  x1 : Bool
  deadline : Option Nat
  retryAt : Option Nat
  /-- the lane PLL is relocking at a new rate (T_RATE) -/
  relock : Bool
  /-- within recovery (RECOV = 1), and whether it runs or will run full training (R123) -/
  recov : Bool
  full : Bool
  fallbackAt : Option Nat
  recovEnd : Option Nat
  fullAt : Option Nat
  /-- recovery reached SDS and waits for the partner's NULL with ACK (R123 step 3) -/
  awaitNull : Bool
  /-- highest rate code this attempt may choose: one lower after a second REPLAY_LIMIT (R122) -/
  cap : Nat
  /-- PRT_PHY_CTRL.MAX_RATE as this training found it (R52) -/
  maxRate : Nat
  /-- rate and width codes of the previous link (R137) -/
  prevRate : Nat
  prevWidth : Nat
  everUp : Bool
  /-- reached T_CONFIG since power (R705 LANES_BAD) -/
  reachedConfig : Bool
  /-- the positions found unusable by the last attempt that reached T_CONFIG -/
  lanesOut : BitVec 8
  /-- link state (sequence numbers, credits) is held: up, recovery, coast or parked after a handshake -/
  hasLink : Bool
  deriving DecidableEq, Repr

def Train.reset : Train :=
  { attempt := 0, locked := 0, got1 := 0, got1seen := 0, got2 := 0, gotSds := 0, gotExit := 0, gotEios := 0,
    pRates := 0, pUsable := 0, pX1 := false, x1 := false, deadline := none, retryAt := none,
    relock := false, recov := false, full := false, fallbackAt := none, recovEnd := none, fullAt := none,
    awaitNull := false, cap := 4, maxRate := 4, prevRate := 0, prevWidth := 0, everUp := false, reachedConfig := false, lanesOut := 0, hasLink := false }

/-- Acknowledgement, retry and replay (R112 to R122). E, TX_OLDEST and TX_NEXT are PRT_LINK_SEQ. -/
structure Retry where
  /-- flits sent and not acknowledged, oldest first; the oldest is TX_OLDEST -/
  held : List Flit
  /-- flits accepted since the last ACK sent, and when the first of them must be acknowledged -/
  unacked : Nat
  ackAt : Option Nat
  /-- the E for which a REPLAY was sent, and the end of its 1 µs (R118) -/
  askedFor : Option (BitVec 10)
  askAgainAt : Option Nat
  /-- deadline of the replay timer (R120) -/
  replayAt : Option Nat
  /-- replay-timer expiries in a row; REPLAY flits sent in a row for one E (R121) -/
  expiries : Nat
  sameAsk : Option (BitVec 10 × Nat)
  /-- receive times of REPLAY flits of the last millisecond -/
  rxTimes : List Nat
  /-- last recovery caused by REPLAY_LIMIT, with the rate and width in force (R122) -/
  lastLimit : Option (Nat × Nat × Nat)
  /-- markers are not used before this time (R134) -/
  noMarkerUntil : Nat
  deriving DecidableEq, Repr

def Retry.reset : Retry :=
  { held := [], unacked := 0, ackAt := none, askedFor := none, askAgainAt := none, replayAt := none, expiries := 0,
    sameAsk := none, rxTimes := [], lastLimit := none, noMarkerUntil := 0 }

/-- Credits (R127 to R132). Pool index 4 × kind + class, kind 0 REQ, 1 DAT, 2 RSP. Credits held and outstanding are the
PRT_CREDIT registers. -/
structure Credit where
  /-- classes whose INIT has been received, and the grants received -/
  inited : BitVec 4
  grant : Tab Nat
  /-- credits pending return, and the deadline of each class -/
  ret : Tab Nat
  retAt : Tab (Option Nat)
  /-- since when the stack waits for a credit of a pool, and whether its event was raised -/
  stall : Tab (Option Nat)
  stalled : BitVec 12
  deriving DecidableEq, Repr

def Credit.reset : Credit :=
  { inited := 0, grant := [], ret := [], retAt := [], stall := [], stalled := 0 }

/-- The power handshake (R135): who asked, the target, and how far it is. -/
inductive Handshake where
  | idle
  /-- this end sent a request -/
  | asked (parked : Bool)
  /-- accepted by both: waiting for the retry buffer to empty, then 4 EIOS -/
  | agreed (parked : Bool)
  deriving DecidableEq, Repr

/-- Who owns the next data slot of a port's received-data queue (R146). -/
inductive OwedBy where
  | txn (serial : Nat)
  /-- a discarded MSG (R170) or response -/
  | none_
  | relay (ctx : Nat)
  deriving DecidableEq, Repr

/-- An entry of the received-data queue, with the class its DAT credit belongs to (R149). -/
structure Owed where
  who : OwedBy
  tc : BitVec 2
  deriving DecidableEq, Repr

/-- A multi-line response being relayed whose data slots have not all come (R216): context, opcode, slot, the data slots
received in order, and how many are owed. -/
structure Relay where
  ctx : Nat
  op : BitVec 6
  slot : RspSlot
  data : List Line
  owed : Nat
  deriving DecidableEq, Repr

/-- A port outside its registers. -/
structure Port where
  train : Train
  retry : Retry
  credit : Credit
  /-- the lane PLL has lost lock and not yet held it for 10 µs (R55) -/
  pllLost : Bool
  shake : Handshake
  shakeDeadline : Option Nat
  /-- since when the port has sent and received nothing but NULL flits (R135) -/
  idleSince : Nat
  /-- when this end began to send EXIT (R136), when the partner's exit pattern or squelch activity was last detected on the port in
  LINK_UP, and when the port last entered coast or parked (R69) -/
  exitFrom : Option Nat
  exitSeen : Option Nat
  enteredAt : Option Nat
  /-- the TARGET of a POWER request received and not yet answered (R135) -/
  powerAsk : Option Nat
  /-- changes of this port put off -/
  delayed : List Later
  /-- a TURN slot to be sent, with its turn boundary (R235) -/
  turnDue : Option Nat
  txns : List Txn
  fences : List Fence
  ready : List ReadyRsp
  /-- data slots of sent response and message slots still to be sent, in order, with their class (R146) -/
  txData : List TxSlot
  msgs : List OutMsg
  ctxs : List Ctx
  fwd : List FwdWait
  /-- data slots of a relayed response not yet received: context, slot, op, lines so far, lines owed -/
  relay : List Relay
  /-- received-data queue (R146), head first -/
  owedQ : List Owed
  nextSerial : Nat
  /-- send position of the port's event stream (R555) and a loss to be marked (R558) -/
  sendPos : Nat
  lostMark : Bool
  /-- retune requested or running for a mailbox (R465) -/
  retune : Option Nat
  scanMbx : Option Nat
  /-- when the scan's point in progress began (R468) -/
  pointAt : Nat
  /-- failed the logic test or has no usable pair (R408) -/
  markedDown : Bool
  /-- every flit the port has put on the wire since reset, oldest first: the model's own view of the wire -/
  txLog : List Flit
  /-- the flits of it on whose wire bits were inverted: place in txLog, bits of the flit (R83) -/
  txBad : List (Nat × List Nat)
  /-- the flits of it sent before the last SDS (R105) -/
  sdsMark : Nat
  deriving DecidableEq, Repr

def Port.reset : Port :=
  { train := Train.reset, retry := Retry.reset, credit := Credit.reset, pllLost := false, shake := .idle, shakeDeadline := none,
    idleSince := 0, exitFrom := none, exitSeen := none, enteredAt := none, powerAsk := none, delayed := [], turnDue := none, txns := [], fences := [], ready := [], txData := [], msgs := [], ctxs := [], fwd := [], relay := [],
    owedQ := [], nextSerial := 0, sendPos := 0, lostMark := false, retune := none, scanMbx := none, pointAt := 0, markedDown := false,
    txLog := [], txBad := [], sdsMark := 0 }

/-! ## Pavilions -/

/-- Who asked for a line: a port's transaction, or the bulk engine. -/
inductive Owner where
  | port (n : Nat) (serial : Nat)
  | bulk (write : Bool)
  /-- a pavilion's own: a read of a scrub step and its write-back (R360) -/
  | scrub
  deriving DecidableEq, Repr

/-- A location below the address map (R247): bank index, row, column of a pavilion. -/
structure Loc where
  pav : Nat
  bank : Nat
  row : Nat
  col : Nat
  deriving DecidableEq, Repr

/-- What is done to a line. -/
inductive LineOp where
  | read
  /-- words of the mask are stored as the poison marker -/
  | write (data : Line) (poison : BitVec 8)
  | masked (data : Line) (mask : BitVec 64)
  | atomic (op : MemOp) (word : Nat) (a c : Word64)
  deriving DecidableEq, Repr

/-- A line on its way through the promenade (R22 to R25), and as a pavilion holds it. -/
structure LineReq where
  id : Nat
  owner : Owner
  agent : Nat
  loc : Loc
  idx : Nat
  op : LineOp
  tc : BitVec 2
  panic : Bool
  hint : BitVec 2
  /-- when it began to wait at the arbiter, then when it entered the request table -/
  since : Nat
  /-- waited 64 fabric cycles (R23) -/
  promoted : Bool
  /-- the acceptance stall of this line has been raised (R271) -/
  stalled : Bool
  deriving DecidableEq, Repr

/-- Where a line stands at its pavilion: waiting for its read command, its read data on their way (the line is locked),
read and waiting for its merge (R265), or held in the write buffer (R270). -/
inductive EntSt where
  | waiting | flying | merging | buffered
  deriving DecidableEq, Repr

/-- What the read of a read-modify-write found (R265 step 3): raw words, decoded data, uncorrectable and corrected words. -/
structure Got where
  raw : RawLine
  data : Line
  uncorr : BitVec 8
  corr : BitVec 8
  deriving DecidableEq, Repr

/-- A line held by a pavilion, in order of arrival: a request-table entry (R257), a write-buffer line (R270) or both. -/
structure Ent where
  req : LineReq
  st : EntSt
  /-- 0, aged-1, aged-2 (R261) -/
  aged : Nat
  /-- the words a buffered line will store -/
  words : RawLine
  /-- holds a request-table entry: false for a write-back (R356) -/
  host : Bool
  /-- the level of a write-back: that of the read that caused it -/
  level : Nat
  got : Option Got
  deriving DecidableEq, Repr

/-- Why a line was read (R375 SOURCE). -/
inductive ReadSource where
  | host | rmw | scrub | bulk
  deriving DecidableEq, Repr

/-- A read whose command has issued and whose data leave the ECC check stage at `at_`; the words as the cells held them
when the command issued. `ent` is the line's request id, 0 for a scrub step; `last` marks the last line of a step. -/
structure Flight where
  ent : Nat
  loc : Loc
  raw : RawLine
  source : ReadSource
  /-- served from the write buffer: no decoding (R344) -/
  fromBuf : Bool
  at_ : Nat
  last : Bool
  deriving DecidableEq, Repr

/-- A bank (R249): open row, times of the last activate, read, write and precharge, hits since the activate (R255), and the
precharge a page policy ordered with its level (R253). A row activated for a neighbour refresh shows as 65536 plus its
physical position. -/
structure Bank where
  open_ : Option Nat
  act : Option Nat
  rd : Option Nat
  wr : Option Nat
  pre : Option Nat
  hits : Nat
  /-- level and earliest time of the precharge ordered by the page policy or a hint -/
  close : Option (Nat × Nat)
  /-- when the precharge that waiting work of a level needs becomes legal, as judged when that wait began (R258): level, time -/
  stop : List (Nat × Nat)
  deriving DecidableEq, Repr

def Bank.reset : Bank :=
  { open_ := none, act := none, rd := none, wr := none, pre := none, hits := 0, close := none, stop := [] }

/-- The states of a rank's refresh engine (R309). -/
inductive RefState where
  | quiet | owed | paying | forced | band | self_
  deriving DecidableEq, Repr

/-- A rank (R249, R307 to R316). DEBT is PAV_REF_STAT.DEBT_r. -/
structure Rank where
  st : RefState
  /-- refreshes pending of the payment under way -/
  n : Nat
  /-- accumulator at time `accAt` (R307) -/
  acc : Nat
  accAt : Nat
  /-- the last four activates with their bank groups, newest first, and the last refresh -/
  acts : List (Nat × Nat)
  lastRef : Option Nat
  /-- first command after power-down or self-refresh exit -/
  notBefore : Nat
  /-- last time a line for the rank was in the table (R274) -/
  lastUse : Nat
  /-- in power-down (R274) -/
  down : Bool
  /-- self-refresh actually entered (R759) -/
  inSelf : Bool
  /-- leaving self-refresh since this time: tXS runs -/
  leaving : Option Nat
  /-- when every open bank could be precharged for the pending refresh, as judged when it became pending (R310) -/
  stop : Option Nat
  /-- since when work of level 2, 3 or 4 waits for the rank (R309, R312) -/
  urgent : Option Nat
  /-- the windows that are open (R303) -/
  wins : BitVec 4
  deriving DecidableEq, Repr

/-- [DESIGN CHOICE, notes/assumptions/8.md] -/
def Rank.reset : Rank :=
  { st := .self_, n := 0, acc := 0, accAt := 0, acts := [], lastRef := none, notBefore := 0, lastUse := 0, down := false,
    inSelf := true, leaving := none, stop := none, urgent := none, wins := 0 }

/-- An entry of the neighbour refresh queue (R320, R321): targets are physical positions. -/
structure Neigh where
  bank : Nat
  targets : List Nat
  since : Nat
  escalated : Bool
  /-- its first activate has issued -/
  started : Bool
  /-- its bank is open for its first target -/
  active : Bool
  deriving DecidableEq, Repr

/-- A repeat-corrector entry (R354). -/
structure Repeat where
  bank : Nat
  phys : Nat
  col : Nat
  word : Nat
  writtenBack : Bool
  turn : Nat
  deriving DecidableEq, Repr

/-- An error record (R375). -/
structure EccRec where
  ts : BitVec 50
  syndrome : BitVec 8
  type : Nat
  source : Nat
  spare : Bool
  word : Nat
  col : Nat
  row : Nat
  bank : Nat
  multi : Bool
  bit : Nat
  deriving DecidableEq, Repr

/-- A runtime sparing copy (R369), the running one first; `mbx` is a ROW_SPARE that waits for it (R757). -/
structure Copy where
  bank : Nat
  row : Nat
  spare : Nat
  running : Bool
  mbx : Option Nat
  /-- its first activate -/
  since : Nat
  /-- the lines read so far, in order of column, and whether each was taken from the write buffer -/
  lines : List (RawLine × Bool)
  /-- the lines written to the spare so far -/
  wrote : Nat
  deriving DecidableEq, Repr

/-- A row served by a spare: bank, row number, spare index j, and whether it was taken while running (R368, R372). -/
structure Spared where
  bank : Nat
  row : Nat
  spare : Nat
  runtime : Bool
  deriving DecidableEq, Repr

/-- Which test a slice belongs to. -/
inductive SliceFor where
  | sweep | startup | parking | row (mbx : Nat)
  deriving DecidableEq, Repr

/-- A BIST slice in progress (R391 to R400). `phys` is the physical position in the bank, `row` the row number or spare. -/
structure Slice where
  bank : Nat
  phys : Nat
  row : Nat
  isSpare : Bool
  why : SliceFor
  /-- raw bits saved -/
  save : List RawLine
  /-- held cycles so far and since when they run -/
  held : Nat
  heldAt : Nat
  aborted : Option Nat
  /-- 0 save, 1 to 6 the elements M0 to M5, 7 restore, 8 verify, 9 all commands issued (R391, R393) -/
  phase : Nat
  /-- columns of the phase that are done, and whether the read of a read-and-write pair has issued -/
  col : Nat
  half : Bool
  /-- yields to a refresh, or has not activated its row yet: its cycles do not count (R397, R400) -/
  yielded : Bool
  /-- the background word is the checkerboard (R393) -/
  checker : Bool
  deriving DecidableEq, Repr

/-- A scrub step in progress (R360): its row, its level and the columns it has still to read. -/
structure ScrubStep where
  bank : Nat
  row : Nat
  level : Nat
  left : List Nat
  deriving DecidableEq, Repr

/-- A TSV calibration of a pavilion (R472 to R477): ranks left, the rank whose step runs (none while waiting for slot 2),
the cycles held so far and since when they run. -/
structure TsvCal where
  ranksLeft : BitVec 4
  step : Option (Fin 4)
  held : Nat
  heldAt : Nat
  /-- from when a refresh for which the step pauses may issue: the cycle after the pause begins (R474) -/
  refFrom : Option Nat
  /-- no step may start again before this turn: one step per turn -/
  turn : BitVec 40
  lowSeen : Bool
  deriving DecidableEq, Repr

/-- A TSV_CAL command that runs: its pavilions left, those with a low margin and those aborted (R482). -/
structure TsvCmd where
  mbx : Nat
  left : BitVec 32
  low : BitVec 32
  aborted : BitVec 32
  deriving DecidableEq, Repr

/-- Why a pavilion is being drained: into self-refresh for Hold, Sleep, halt or shutdown, or for a pavilion reset. -/
inductive DrainFor where
  | none_ | power | halt | reset_ | shutdown
  deriving DecidableEq, Repr

/-- A pavilion outside its registers. -/
structure Pav where
  /-- the lines it holds, in order of arrival -/
  ents : List Ent
  flight : List Flight
  /-- when the last row command and the last column command issued (R251) -/
  lastIssue : Option Nat
  lastCol : Option Nat
  banks : Tab Bank
  ranks : Tab Rank
  /-- write preference is on (R270) -/
  preferWrites : Bool
  /-- first cycle after reset: the throttle window counter starts here (R272) -/
  startAt : Nat
  /-- the last throttle window begun, and the end of its pause -/
  lastWin : Option Nat
  pausedUntil : Nat
  /-- level declared for the next window (R273) -/
  throttleNext : Nat
  /-- the multiplier m now applied, and the declared changes on their way: time, m, throttle level (R311) -/
  rate : Nat
  rateNext : List (Nat × Nat × Nat)
  /-- neighbour refresh (R318 to R322): the LFSR at time `lfsrAt` -/
  lfsr : BitVec 32
  lfsrAt : Nat
  neigh : List Neigh
  /-- a hold under R322 has been counted and goes on -/
  neighFull : Bool
  /-- repeat corrector, error records, sparing -/
  repeats : List Repeat
  records : List EccRec
  copies : List Copy
  spared : List Spared
  /-- spares found unusable: bank, index -/
  badSpares : List (Nat × Nat)
  /-- spares once taken whose row has been spared again: bank, index -/
  leftSpares : List (Nat × Nat)
  /-- column groups in use: bank, channel bit, column (R365) -/
  cols : List (Nat × Nat × Nat)
  /-- banks whose spares have been exhausted since power was applied (R371) -/
  exhausted : List Nat
  /-- scrub: a step is due, turns in which it could not start, escalated, turns to the next due step (R359, R361) -/
  scrubDue : Bool
  scrubMissed : Nat
  scrubEsc : Bool
  scrubLeft : Nat
  scrubStep : Option ScrubStep
  slice : Option Slice
  /-- a sweep slice is due in this interval (R404) -/
  sliceDue : Bool
  /-- SLICE_ROW waiting for its slot: bank, row, mailbox -/
  rowTest : Option (Nat × Nat × Nat)
  /-- start-up and parking tests: sweep position of the next row to test -/
  testPos : Nat
  /-- rows of the repeat corrector when the parking test began: bank, physical position (R411) -/
  suspects : List (Nat × Nat)
  tsv : Option TsvCal
  /-- turns since an automatic TSV calibration began (R477) -/
  tsvTurns : Nat
  drain : DrainFor
  /-- its clock is gated, since when -/
  gated : Bool
  gatedAt : Nat
  /-- the GLB_RST_PAV reset waits for the drain -/
  resetAsked : Bool
  deriving DecidableEq, Repr

/-- [DESIGN CHOICE, notes/assumptions/8.md] -/
def Pav.reset : Pav :=
  { ents := [], flight := [], lastIssue := none, lastCol := none, banks := [], ranks := [], preferWrites := false, startAt := 0,
    lastWin := none, pausedUntil := 0, throttleNext := 0, rate := 4, rateNext := [],
    lfsr := 1, lfsrAt := 0, neigh := [], neighFull := false, repeats := [], records := [], copies := [], spared := [],
    badSpares := [], leftSpares := [], cols := [], exhausted := [], scrubDue := false, scrubMissed := 0, scrubEsc := false, scrubLeft := 256,
    scrubStep := none, slice := none, sliceDue := false, rowTest := none, testPos := 0, suspects := [], tsv := none, tsvTurns := 0, drain := .none_,
    gated := false, gatedAt := 0, resetAsked := false }

/-! ## Cadence, heat, events -/

/-- The cadence unit outside its registers (R291 to R301). Times here are in 1/256 fabric cycle. -/
structure Cadence where
  turn : BitVec 40
  /-- time of the turn boundary t0 -/
  t0 : Nat
  /-- highest angle step delivered in this turn, none before step 0 -/
  angle : Option Nat
  prevMarker : Option Nat
  /-- marker intervals seen in SEEK, newest first -/
  intervals : List Nat
  lastByMarker : Bool
  /-- the next port marker writes CAD_PORT_OFS without comparing (R301) -/
  ofsFresh : Bool
  /-- CAD_NOW_HI taken at the LO read -/
  nowHi : Option Reg32
  /-- the count at a time from which the present source of counting has run, and the deviation of the oscillator while it is that source:
  9850 + `osc` of its cycles in 10000 nominal ones (R299) -/
  base : Nat
  from_ : Nat
  osc : Option Nat
  deriving DecidableEq, Repr

def Cadence.reset : Cadence :=
  { turn := 0, t0 := 0, angle := none, prevMarker := none, intervals := [], lastByMarker := false, ofsFresh := true,
    nowHi := none, base := 0, from_ := 0, osc := none }

/-- One of the 27 thermal inputs (R431 to R435). -/
structure Sensor where
  badRun : Nat
  goodRun : Nat
  /-- reading of this round, if valid -/
  now : Option Int
  /-- last valid reading since cold reset -/
  last : Option Int
  deriving DecidableEq, Repr

def Sensor.reset : Sensor := { badRun := 0, goodRun := 0, now := none, last := none }

/-- A sensor calibration in progress (R478). -/
structure SensorCal where
  mbx : Nat
  mask : BitVec 24
  ref : Int
  sums : Tab Int
  counts : Tab Nat
  set_ : BitVec 24
  clamped : BitVec 24
  deriving DecidableEq, Repr

/-- The thermal subsystem outside its registers (R432 to R449, R478, R480). -/
structure Thermal where
  slot : Nat
  sensors : Tab Sensor
  up : Nat
  dn : Nat
  upmin : Nat
  dnmax : Nat
  firstFour : List Int
  alertUp : Tab Nat
  alertDn : Tab Nat
  peakFreshD : Bool
  peakFreshB : Bool
  cal : Option SensorCal
  /-- sensor offsets in effect in this round (R464), and the end of the last conversion slot -/
  trimNow : Tab Int
  slotAt : Nat
  /-- oscillator learning: rounds in the period and the sum of Tbase -/
  learnRounds : Nat
  learnSum : Int
  deriving DecidableEq, Repr

def Thermal.reset : Thermal :=
  { slot := 0, sensors := [], up := 0, dn := 0, upmin := 4, dnmax := 0, firstFour := [], alertUp := [], alertDn := [],
    peakFreshD := true, peakFreshB := true, cal := none, trimNow := [], slotAt := 0, learnRounds := 0,
    learnSum := 0 }

/-- A capture waiting to be written (R546, R547). -/
structure Latch where
  detail : Byte
  merge : Nat
  ts : BitVec 50
  level : BitVec 2
  freewheel : Bool
  deriving DecidableEq, Repr

/-- Accumulators of a monitor unit (R562, R563). -/
structure MonAcc where
  count : Nat
  sum : Nat
  min : Nat
  max : Nat
  bins : Tab Nat
  lvlMin : Nat
  lvlMax : Nat
  lvlSum : Nat
  lvlN : Nat
  deriving DecidableEq, Repr

def MonAcc.reset : MonAcc :=
  { count := 0, sum := 0, min := 0xFFFFFFFF, max := 0, bins := [], lvlMin := 0xFFFF, lvlMax := 0, lvlSum := 0, lvlN := 0 }

/-- A monitor unit outside its registers (R564 to R567). `ctrl`, `bin` and `win` govern the current window. -/
structure Mon where
  acc : MonAcc
  turns : Nat
  ctrl : Reg32
  bin : Reg32
  win : Nat
  /-- a write has been made that the next window takes over -/
  restart : Bool
  sumHi : Option Reg32
  lvlHi : Option Reg32
  /-- a MON_SNAPSHOT asked for the window to end at the next boundary -/
  snap : Bool
  /-- a window has ended: its boundary's time stamp, and what it accumulated unless the clock was stopped (R564, R567) -/
  lateTs : Option (BitVec 50)
  lateAcc : Option MonAcc
  teleSeq : BitVec 32
  deriving DecidableEq, Repr

/-- [DESIGN CHOICE, notes/assumptions/8.md] -/
def Mon.reset : Mon :=
  { acc := MonAcc.reset, turns := 0, ctrl := 0x000020F1, bin := 0x00220010, win := 255, restart := false, sumHi := none,
    lvlHi := none, snap := false, lateTs := none, lateAcc := none, teleSeq := 0 }

/-! ## Management, OTP, security, sideband, power -/

/-- The end of a command's work: completion code, PARAM and response payload (R510). -/
structure Result where
  code : Byte
  param : BitVec 16
  payload : List Byte
  deriving DecidableEq, Repr

/-- A mailbox outside its registers (R507 to R518). -/
structure Mbx where
  /-- the snapshot taken at GO (R512) -/
  snap : List Byte
  opcode : BitVec 16
  payload : List Byte
  startAt : Nat
  deadline : Option Nat
  /-- the work has ended: what the completion will carry -/
  result : Option Result
  /-- the code an ended or aborting command will carry (R516 to R518) -/
  endCode : Option Byte
  /-- MBX_DONE is to be sent on completion: bit 0 of FLAGS (R508, R515) -/
  notify : Bool
  deriving DecidableEq, Repr

def Mbx.reset : Mbx :=
  { snap := [], opcode := 0, payload := [], startAt := 0, deadline := none, result := none, endCode := none, notify := false }

/-- A firmware switchover under way (R522). -/
structure Switch where
  mbx : Nat
  staged : Bool
  len : Nat
  prevImage : Nat
  verified : Bool
  deriving DecidableEq, Repr

/-- A running FILL or COPY (R349 to R351). -/
structure Bulk where
  copy : Bool
  mbx : Nat
  start : Nat
  dst : Nat
  lines : Nat
  pattern : Word64
  mark : Bool
  issued : Nat
  /-- lines that entered their write buffer; skipped; poisoned; read or write lines in flight -/
  written : Nat
  skipped : Nat
  poisoned : Nat
  flying : Nat
  /-- lines of each scrub region that have been written or skipped, and whether one was written (R349) -/
  marks : Tab (Nat × Bool)
  /-- COPY lines read and not yet sent on as writes: destination line index, data, marker words -/
  readBack : List (Nat × Line × BitVec 8)
  ending : Option Byte
  deriving DecidableEq, Repr

/-- What one step of the fuse programmer blows. -/
inductive FuseItem where
  | word (addr : Nat) (data : BitVec 32)
  | spareWord (idx : Nat) (data : BitVec 39)
  | redirect (entry : Nat) (row : Nat)
  | dfBit (bit : Nat)
  | redirBit (bit : Nat)
  | counter (fuse : Nat)
  deriving DecidableEq, Repr

/-- Journal status of an item (R603). -/
inductive JStatus where
  | pending | verified | failed | notReached
  deriving DecidableEq, Repr

/-- The fuse programmer (R600 to R607). -/
structure Prog where
  /-- issuing mailbox; none for the anti-rollback advance (R629) -/
  mbx : Option Nat
  opcode : BitVec 16
  todo : List FuseItem
  done : Nat
  maxAttempts : Nat
  /-- the record or region the sequence acts on -/
  target : Nat
  kind : Nat
  ending : Option Byte
  /-- the next word waits for the firmware to run (R45) -/
  held : Bool := false
  deriving DecidableEq, Repr

/-- The fuses (R584, R590) and the values latched at the power-on read (R593, R599). Every fuse bit is 1 when blown. -/
structure Otp where
  words : Tab (BitVec 39)
  spares : Tab (BitVec 39)
  /-- redirection entries, copy c of entry i at 3i + c -/
  redir : Tab (BitVec 11)
  df0 : BitVec 512
  df1 : BitVec 512
  df2 : BitVec 512
  secret : Tab (BitVec 39)
  arb : BitVec 64
  /-- latched: array words after SECDED, with the words found uncorrectable or marginal -/
  latched : Tab (BitVec 32)
  badWords : List Nat
  latDf : BitVec 512
  latSecretOk : Bool
  latSecretBlank : Bool
  latSecretWords : Tab (BitVec 32)
  /-- words verified since the power-on read -/
  fresh : List Nat
  prog : Option Prog
  journal : List (FuseItem × JStatus)
  journalEnd : Option Byte
  journalEarly : Bool
  /-- marginal items found and not repaired since, as kind and index; those that R598 names -/
  margs : List (Nat × Nat)
  keyMargs : List (Nat × Nat)
  /-- VDD_OTPP is present (R733) -/
  supply : Bool
  deriving DecidableEq, Repr

/-- The direct field of an IT9632-P64 (R591): PORTS 0xFFFF, RATE_MAX 0b100, POOL and ATOMICS 1, VARIANT 0.
[DESIGN CHOICE, notes/assumptions/5.md] -/
def Otp.p64Field : BitVec 512 := 0x1CFFFF

/-- [DESIGN CHOICE, notes/assumptions/5.md] -/
def Otp.reset : Otp :=
  { words := [], spares := [], redir := [], df0 := Otp.p64Field, df1 := Otp.p64Field, df2 := Otp.p64Field, secret := [],
    arb := 0, latched := [], badWords := [], latDf := 0, latSecretOk := false, latSecretBlank := true,
    latSecretWords := [], fresh := [], prog := none, journal := [], journalEnd := none,
    journalEarly := false, margs := [], keyMargs := [], supply := false }

/-- What the signing engine has in hand (R618). -/
inductive SignJob where
  | idCert (mbx : Nat) (body : List Byte)
  | attest (mbx : Nat) (report : List Byte)
  | parkCert (body : List Byte) (mbx : Nat)
  /-- the mailbox that waits, the source the command is attributed to, the region of OTP_LOCK_FORCE, the token -/
  | token (mbx src : Nat) (lockForce : Option Nat) (token : List Byte)
  /-- the mailbox that waits, whether it is MBX17, the payload of KEY_ENROL -/
  | keyProof (mbx : Nat) (from17 : Bool) (payload : List Byte)
  deriving DecidableEq, Repr

/-- A sideband access that waits for the management agent (R656): a read, or register writes shown under an offset. -/
inductive SbAccess where
  | winRead | mbxRead | mbxStat
  | put (shown : Nat) (ws : List (Nat × BitVec 4 × Reg32))
  deriving DecidableEq, Repr

/-- The sideband port outside its registers (R656 to R666). -/
structure Sb where
  /-- an access in hand and the end of its 20 µs (R656) -/
  hand : Option (SbAccess × Nat)
  /-- the address latched from the straps is SB_STAT.ADDR -/
  running : Bool
  /-- the bytes the last read transaction returned, PEC included when asked for -/
  out : List Byte
  /-- register writes that could not take effect within the stretch limit and are applied when they can (R656) -/
  late : List (Nat × BitVec 4 × Reg32)
  /-- since when the bus is idle, for the 50 µs of R660; after an unanswered attention only a STOP or ATTN_RETRY re-arms -/
  idleSince : Nat
  attnWait : Option Nat
  attnRetry : Option Nat
  /-- waiting for the next STOP before asserting again -/
  needStop : Bool
  wakeStretch : Option Nat
  wakeLate : Bool
  deriving DecidableEq, Repr

def Sb.reset : Sb :=
  { hand := none, running := false, out := [], late := [], idleSince := 0, attnWait := none, attnRetry := none, needStop := false,
    wakeStretch := none, wakeLate := false }

/-- Where the stack stands between supplies and Run (R685, R686, R697). -/
inductive Boot where
  /-- power-on reset: the rails are not yet good -/
  | off
  /-- power-on read in progress; `ready` once the direct field is on its wires -/
  | reading (df : Bool)
  /-- held in cold reset: waiting for RESET_N to rise or REFCLK to return -/
  | cold
  /-- steps 2 to 6 of R697 -/
  | pll (tries : Nat)
  | dram (dramDone : Bool)
  | certWindow
  | certCheck
  | test
  | finish
  | done
  | failed
  deriving DecidableEq, Repr

/-- A change of power state under way (R690, R692). -/
inductive Trans where
  | none_
  /-- Hold entry; `sleep` when Sleep follows; mailbox that asked; ports asked and ports that accepted. While step 3 waits for
  the dispatched requests no port is asked and `answered` is all ones -/
  | enter (sleep : Bool) (mbx : Nat) (asked answered : BitVec 16)
  /-- POWER_SET answered, pavilions draining -/
  | draining (sleep : Bool)
  /-- waiting for clocks after a Sleep wake; `on` when the return state follows -/
  | waking (on : Bool)
  deriving DecidableEq, Repr

/-- SHUTDOWN under way (R706): mailbox, whether parking was asked for, and its step. -/
structure Shut where
  mbx : Nat
  park : Bool
  step : Nat
  deriving DecidableEq, Repr

/-- Clocks, power and start-up outside the registers. -/
structure Power where
  boot : Boot
  /-- level of RESET_N past its filter; REFCLK present -/
  resetN : Bool
  refclk : Bool
  /-- a reset drain is in progress, with the start cause it leads to -/
  drain : Option Nat
  startNum : Nat
  riseAt : Nat
  readyAt : Nat
  /-- when the core last started (R496) -/
  coreAt : Nat
  testAt : Nat
  testMs : Nat
  doneAt : Option Nat
  trans : Trans
  shut : Option Shut
  /-- no memory request is dispatched: SHUTDOWN or PARK_START (R706, R411) -/
  noDispatch : Bool
  wakeDrive : Option Nat
  wakeIgnore : Nat
  /-- the recovery wait of R703 has been evaluated -/
  recovDone : Bool
  /-- image the core resumes at Sleep exit -/
  savedImage : Nat
  strap : BitVec 2
  tapIr : Byte
  tapHold : Bool
  deriving DecidableEq, Repr

/-- [DESIGN CHOICE, notes/assumptions/8.md] -/
def Power.reset : Power :=
  { boot := .off, resetN := false, refclk := true, drain := none, startNum := 0, riseAt := 0, readyAt := 0, coreAt := 0, testAt := 0,
    testMs := 0, doneAt := none, trans := .none_, shut := none, noDispatch := false, wakeDrive := none,
    wakeIgnore := 0, recovDone := false, savedImage := 1, strap := 0, tapIr := 1, tapHold := false }

/-- Start-up and parking tests, certificates and the start-up record (R405 to R415, R705). -/
structure Test where
  /-- start-up or parking test: 0 none, 1 waiting to begin, 2 logic, 3 TSV and lanes, 4 slices, 5 certificate being signed -/
  step : Nat
  certBytes : Tab Byte
  submitted : Option (Nat × Nat)
  certResult : Nat
  parkCert : Option (List Byte)
  parkMbx : Option Nat
  parkRun : Bool
  parkTested : Nat
  parkFailed : Nat
  /-- the highest Tdram of the parking test, in 0.125 °C (R414) -/
  parkTdram : Int
  /-- NEXT_POLICY of the parking test; 256 while none has begun since the start -/
  parkPolicy : Nat
  parkBits : BitVec 4
  parkAborted : Option Byte
  startBits : BitVec 4
  startRunning : Bool
  sampleS : Nat
  /-- turns left of the sweep interval (R404) -/
  sweepLeft : Nat
  record : List Byte
  retireCause : Tab Nat
  retiredStart : BitVec 32
  mapApplied : Nat
  heldApplied : Nat
  skipped : List Nat
  /-- held repair state (R704): row entries as pavilion, bank, row and spare, and pavilions retired while running -/
  heldSpares : List (Nat × Spared)
  heldRetired : BitVec 32
  sweepMask : BitVec 32
  /-- pavilions, ports and lanes that failed the parking test -/
  tsvFailed : BitVec 32
  failPorts : BitVec 16
  failLanes : BitVec 128
  deriving DecidableEq, Repr

/-- [DESIGN CHOICE, notes/assumptions/8.md] -/
def Test.reset : Test :=
  { step := 0, certBytes := [], submitted := none, certResult := 5, parkCert := none, parkMbx := none,
    parkRun := false, parkTested := 0, parkFailed := 0, parkTdram := 0, parkPolicy := 256, parkBits := 0, parkAborted := none,
    startBits := 0, startRunning := false, sampleS := 0, sweepLeft := 0, record := [], retireCause := [], retiredStart := 0, mapApplied := 0,
    heldApplied := 0, skipped := [], heldSpares := [], heldRetired := 0, sweepMask := 0, tsvFailed := 0,
    failPorts := 0, failLanes := 0 }

/-! ## The whole machine -/

/-- No step of this model stops with a fault: every command has its effect or finds nothing to act on. The type is kept
for the host's interface. -/
inductive Fault where
  /-- raised by no meaning; safe -/
  | none_
  deriving DecidableEq, Repr

/-- The refusals. -/
inductive Refusal where
  /-- a command whose meaning is not written yet; raised by the dispatch only; safe -/
  | notModelled (mnemonic : String)
  deriving DecidableEq, Repr

/-- The base die. -/
structure State where
  /-- commands waiting, first in, first out -/
  pending : List Instr
  /-- time in ticks of 5/24 ns (the model's own clock; fabric 3, pavilion 4, management 6, sensor 192 ticks) -/
  now : Nat
  /-- counts the free values taken so far (the model's own field) -/
  freeIdx : Nat
  /-- counts the losses of DRAM contents (the model's own field) -/
  epoch : Nat
  /-- every register of the management window that differs from its reset value, by window offset -/
  regs : Tab Reg32
  /-- values still in effect of registers whose written value waits for the next turn boundary (R304, R333, R737) -/
  eff : Tab Reg32
  /-- staged LO halves of mask and signpost registers (R209, R245) -/
  staged : Tab Reg32
  /-- value returned by the last register read and status of the last register write -/
  lastRead : Reg32
  lastStatus : BitVec 4
  /-- the DRAM cells: byte k of stored word w at 9w + k, byte 8 the check bits -/
  dram : List Host.Cell
  ports : Tab Port
  lanes : Tab Lane
  prom : List LineReq
  promRr : Tab Nat
  /-- one more than the fabric cycle in which an agent last sent a request into the promenade, by agent (R21); for the bulk engine by
  its pavilion, from 64 on -/
  sentAt : Tab Nat
  nextId : Nat
  pavs : Tab Pav
  tsvCmds : List TsvCmd
  cad : Cadence
  therm : Thermal
  /-- raisings crossing to the event logic (R546): source, detail, merges, time of the raising -/
  crossing : List (Nat × Byte × Nat × Nat)
  latches : Tab (Option Latch)
  /-- sources limited to once a turn that have been raised in this turn -/
  onceTurn : List Nat
  mons : Tab Mon
  monSnapMbx : List (Nat × BitVec 48)
  mbxs : Tab Mbx
  /-- mailbox words whose SRAM bits have flipped: mailbox, word (0 to 127 command area, 128 to 255 response area, 256 to 383
  snapshot), past correction (R495) -/
  sram : List (Nat × Nat × Bool)
  lastTaken : Nat
  staging : Tab Byte
  stagingHigh : Nat
  switch : Option Switch
  fwDigest : List Byte
  bulk : Option Bulk
  bulkLast : Nat × Nat × Nat
  otp : Otp
  signing : List SignJob
  sb : Sb
  power : Power
  test : Test
  deriving DecidableEq, Repr

/-- The machine before its supplies are good: every register at its reset value, nothing written, nothing fused but the
enables of an IT9632-P64.
[DESIGN CHOICE, notes/assumptions/4.md; DESIGN CHOICE, notes/assumptions/8.md; DESIGN CHOICE, notes/assumptions/61.md] -/
def State.reset : State :=
  { pending := [], now := 0, freeIdx := 0, epoch := 0, regs := [], eff := [], staged := [],
    lastRead := 0, lastStatus := 0, dram := [], ports := [], lanes := [], prom := [], promRr := [], sentAt := [], nextId := 1, pavs := [],
    tsvCmds := [], cad := Cadence.reset, therm := Thermal.reset, crossing := [], latches := [], onceTurn := [], mons := [],
    monSnapMbx := [], mbxs := [], sram := [], lastTaken := 17, staging := [], stagingHigh := 0, switch := none, fwDigest := [],
    bulk := none, bulkLast := (0, 0, 0), otp := Otp.reset, signing := [], sb := Sb.reset, power := Power.reset,
    test := Test.reset }

end Sys2Proof.Machine
end

