-- ==== Sys2Proof/Machine/Ops.lean ====
section
/-! DEFINITION. The named operations over the state: register fields, indexed parts, time, raisings, free values. -/
namespace Sys2Proof.Machine
open Sys2Proof

/-- What a command's meaning answers. -/
abbrev Out := Host.Outcome State Fault Refusal

/-! ## Bits and bytes -/

/-- Bits [lo + w - 1 : lo] of a number. -/
def bitsOf (x lo w : Nat) : Nat := x / 2 ^ lo % 2 ^ w

/-- A number with bits [lo + w - 1 : lo] replaced. -/
def bitsSet (x lo w v : Nat) : Nat := x / 2 ^ (lo + w) * 2 ^ (lo + w) + v % 2 ^ w * 2 ^ lo + x % 2 ^ lo

/-- Bit `i` of a number. -/
def bitAt (x i : Nat) : Bool := x / 2 ^ i % 2 == 1

/-- A number with bit `i` set to `b`. -/
def bitPut (x i : Nat) (b : Bool) : Nat := bitsSet x i 1 (if b then 1 else 0)

/-- One for true. -/
def b2n (b : Bool) : Nat := if b then 1 else 0

/-- The number a little-endian byte string spells (R9). -/
def leNat : List Byte → Nat
  | [] => 0
  | b :: t => b.toNat + 256 * leNat t

/-- `n` little-endian bytes of a number (R9). -/
def leBytes : Nat → Nat → List Byte
  | 0, _ => []
  | n + 1, x => BitVec.ofNat 8 x :: leBytes n (x / 256)

/-- Bytes `lo` to `lo + n - 1` of a string, as a little-endian number; bytes past its end read 0. -/
def leAt (bs : List Byte) (lo n : Nat) : Nat := leNat ((bs.drop lo).take n)

/-- The 64 bytes of a line (R342). -/
def lineBytes (l : Line) : List Byte := l.toList.flatMap (fun w => leBytes 8 w.toNat)

/-- The line 64 bytes spell; missing bytes are 0. -/
def lineOf (bs : List Byte) : Line := Vector.ofFn (fun k : Fin 8 => BitVec.ofNat 64 (leAt bs (8 * k.val) 8))

/-- The line of zeros. -/
def lineZero : Line := Vector.replicate 8 0

/-- A signed field of `w` bits as a whole number. -/
def signed (x w : Nat) : Int := if x < 2 ^ (w - 1) then (x : Int) else (x : Int) - (2 ^ w : Nat)

/-- A whole number as `w` bits, two's complement. -/
def unsigned (x : Int) (w : Nat) : Nat := (x % ((2 ^ w : Nat) : Int)).toNat

/-! ## Time -/

/-- Ticks of 5/24 ns in one microsecond. -/
def tUs : Nat := 4800
/-- Ticks in one millisecond. -/
def tMs : Nat := 4800000
/-- Ticks in `n` nanoseconds, rounded up. [DESIGN CHOICE, notes/assumptions/1.md] -/
def tNs (n : Nat) : Nat := (n * 24 + 4) / 5
/-- Ticks in a fabric cycle (1.6 GHz). -/
def tFab : Nat := 3
/-- Ticks in a pavilion cycle (1.2 GHz). -/
def tPav : Nat := 4
/-- Ticks in a management cycle (800 MHz). -/
def tMgmt : Nat := 6

/-- The state no earlier than `t`: an event that happens at `t` brings the time there.
[DESIGN CHOICE, notes/assumptions/2.md] -/
def State.atLeast (s : State) (t : Nat) : State := { s with now := max s.now t }

/-! ## Registers -/

/-- Whether a distance from a register's first offset falls on one of its repetitions. -/
def dimsHit : List (Nat × Nat) → Nat → Bool
  | [], d => d == 0
  | (c, st) :: t, d => decide (d / st < c) && dimsHit t (d % st)

/-- Whether a register row covers a window offset. -/
def RegRow.covers (r : RegRow) (off : Nat) : Bool := decide (r.base ≤ off) && dimsHit r.dims (off - r.base)

/-- The register rows of the block an offset lies in (R13). -/
def regBlock (off : Nat) : List RegRow :=
  if off < 0x400 then regsGlb0
  else if off < 0x1000 then regsGlb0 ++ regsGlb1 ++ regsGlb2
  else if off < 0x2000 then regsCad
  else if off < 0x3000 then regsThm
  else if off < 0x4000 then regsOtp
  else if off < 0x10000 then regsSb
  else if off < 0x20000 then regsEvt
  else if off < 0x40000 then regsMbx
  else if off < 0x80000 then regsMon0 ++ regsMon1
  else if off < 0xC0000 then regsPrt0 ++ regsPrt1
  else regsPav0 ++ regsPav1 ++ regsPav2

/-- The register at an offset, if there is one. [DESIGN CHOICE, notes/assumptions/6.md] -/
def regAt (off : Nat) : Option RegRow := (regBlock off).find? (fun r => r.covers off)

/-- The reset value a row's fields spell. -/
def fieldsReset (fs : List FieldRow) : Nat := fs.foldl (fun a f => a + f.reset * 2 ^ f.lo) 0

/-- The reset masks of R246: interleaved m = 0 to 10 as LO + 2^32 × HI. -/
def maskReset (m : Nat) : Nat :=
  if m < 5 then 2 ^ (11 + m) + 2 ^ (22 + m) + 2 ^ (27 + m) + 2 ^ (32 + m) else 2 ^ (11 + m) + 2 ^ (17 + m)

/-- The partitioned reset masks of R246, m = 0 to 5. -/
def maskResetP (m : Nat) : Nat := 2 ^ (11 + m) + 2 ^ (17 + m)

/-- The slots of R302: angle, width and stagger of slot n. -/
def slotReset (n : Nat) : Nat :=
  if n = 0 then 512 + 256 * 2 ^ 10 + 8 * 2 ^ 20
  else if n = 1 then 64 * 2 ^ 10 + 32 * 2 ^ 20
  else if n = 2 then 768 + 64 * 2 ^ 10
  else 1000 + 2 ^ 10

/-- The reset value of the register at an offset: the table's, but for those the manual gives by a formula (R246, R302,
R305, R543); 0 where there is no register (R13). [DESIGN CHOICE, notes/assumptions/6.md] -/
def regReset (off : Nat) : Reg32 :=
  if 0x410 ≤ off ∧ off < 0x468 then
    BitVec.ofNat 32 (if off % 8 = 0 then maskReset ((off - 0x410) / 8) else maskReset ((off - 0x410) / 8) / 2 ^ 32)
  else if 0x470 ≤ off ∧ off < 0x4A0 then
    BitVec.ofNat 32 (if off % 8 = 0 then maskResetP ((off - 0x470) / 8) else maskResetP ((off - 0x470) / 8) / 2 ^ 32)
  else if 0x1020 ≤ off ∧ off < 0x1030 then BitVec.ofNat 32 (slotReset ((off - 0x1020) / 4))
  else
    match regAt off with
    | none => 0
    | some r =>
      if 0xC0000 ≤ off ∧ 0x100 ≤ off % 0x1000 ∧ off % 0x1000 < 0x140 then
        let d := off - r.base
        let p := d / 0x1000
        let k := d % 0x1000 / 4
        BitVec.ofNat 32 (fieldsReset r.fields / 2 ^ 10 * 2 ^ 10 + (2 * (4 * p + k / 4) + 256 * (k % 4)) % 1024)
      else if 0x20000 ≤ off ∧ off < 0x40000 ∧ off % 0x1000 = 0x40C then
        let m := (off - r.base) / 0x1000
        BitVec.ofNat 32 (if m = 17 then 31 else m)
      else BitVec.ofNat 32 (fieldsReset r.fields)

/-- The stored value of the register at an offset. -/
def State.reg (s : State) (off : Nat) : Reg32 := tabGet (regReset off) s.regs off

/-- Stores a register whole. -/
def State.setReg (s : State) (off : Nat) (v : Reg32) : State := { s with regs := tabSet (regReset off) s.regs off v }

/-- The value of a register field. -/
def State.rd (s : State) (f : Fld) : Nat := bitsOf (s.reg f.off).toNat f.lo f.w

/-- Writes a register field, from inside. -/
def State.wr (s : State) (f : Fld) (v : Nat) : State :=
  s.setReg f.off (BitVec.ofNat 32 (bitsSet (s.reg f.off).toNat f.lo f.w v))

/-- Whether a one-bit field is set. -/
def State.on (s : State) (f : Fld) : Bool := s.rd f != 0

/-- Counts in a field that saturates. -/
def State.sat (s : State) (f : Fld) (n : Nat := 1) : State := s.wr f (min (2 ^ f.w - 1) (s.rd f + n))

/-- Returns every register of a range of window offsets to its reset value. -/
def State.resetRegs (s : State) (lo hi : Nat) : State :=
  { s with regs := s.regs.filter (fun e => decide (e.1 < lo ∨ hi < e.1)) }

/-- The value in effect of a register whose writes take effect at a turn boundary (R304, R333, R737). -/
def State.effective (s : State) (off : Nat) : Reg32 := tabGet (s.reg off) s.eff off

/-! ## Indexed parts -/

def State.port (s : State) (n : Nat) : Port := tabGet Port.reset s.ports n
def State.setPort (s : State) (n : Nat) (p : Port) : State := { s with ports := tabSet Port.reset s.ports n p }
def State.modPort (s : State) (n : Nat) (f : Port → Port) : State := s.setPort n (f (s.port n))

def State.lane (s : State) (n p : Nat) : Lane := tabGet Lane.reset s.lanes (8 * n + p)
def State.setLane (s : State) (n p : Nat) (l : Lane) : State := { s with lanes := tabSet Lane.reset s.lanes (8 * n + p) l }
def State.modLane (s : State) (n p : Nat) (f : Lane → Lane) : State := s.setLane n p (f (s.lane n p))

def State.pav (s : State) (p : Nat) : Pav := tabGet Pav.reset s.pavs p
def State.setPav (s : State) (p : Nat) (v : Pav) : State := { s with pavs := tabSet Pav.reset s.pavs p v }
def State.modPav (s : State) (p : Nat) (f : Pav → Pav) : State := s.setPav p (f (s.pav p))

def State.mbx (s : State) (m : Nat) : Mbx := tabGet Mbx.reset s.mbxs m
def State.setMbx (s : State) (m : Nat) (b : Mbx) : State := { s with mbxs := tabSet Mbx.reset s.mbxs m b }
def State.modMbx (s : State) (m : Nat) (f : Mbx → Mbx) : State := s.setMbx m (f (s.mbx m))

def State.mon (s : State) (u : Nat) : Mon := tabGet Mon.reset s.mons u
def State.setMon (s : State) (u : Nat) (b : Mon) : State := { s with mons := tabSet Mon.reset s.mons u b }
def State.modMon (s : State) (u : Nat) (f : Mon → Mon) : State := s.setMon u (f (s.mon u))

/-- Applies an operation for each number below `n`, in rising order. -/
def forUpto (n : Nat) (f : Nat → State → State) (s : State) : State := (List.range n).foldl (fun a i => f i a) s

/-! ## Variant, power state, free values -/

/-- Peer role and forwarding are enabled (R6, R592). -/
def State.poolOn (s : State) : Bool := s.on Fld.GLB_FEATURES_POOL
/-- Atomics are enabled (R162, R592). -/
def State.atomicsOn (s : State) : Bool := s.on Fld.GLB_FEATURES_ATOMICS
/-- Whether the variant enables a port (R3, R5). -/
def State.portEnabled (s : State) (n : Nat) : Bool := bitAt (s.rd Fld.GLB_FEATURES_PORTS) n
/-- The role of a port (R202): 0 host, 1 peer, 2 disabled. -/
def State.role (s : State) (n : Nat) : Nat := s.rd (Fld.PRT_POOL_CTRL_ROLE n)

/-- Power states of R711. -/
def psRun : Nat := 0
def psRest : Nat := 1
def psHold : Nat := 2
def psSleep : Nat := 3
def State.power? (s : State) : Nat := s.rd Fld.GLB_PWR_STAT_STATE

/-- Whether start-up has passed the step of R697 that shows `phase`. -/
def State.phase (s : State) : Nat := s.rd Fld.GLB_BOOT_STAT_PHASE

/-- Whether no memory request will be dispatched again until a new start: a parking test or a shutdown has begun (R411, R706). -/
def State.parked (s : State) : Bool := s.test.parkPolicy != 256 || s.power.shut.isSome || s.on Fld.GLB_PWR_STAT_SHUT

/-- Whether the critical halt is latched (R442). -/
def State.halted (s : State) : Bool := s.on Fld.THM_STAT_HALT

/-- Whether the start-up or the parking test runs. -/
def State.testRuns (s : State) : Bool := s.test.startRunning || s.test.parkRun

/-- Draws a value of the entropy source. [DEDUCED, notes/assumptions/10.md] -/
def State.drawEntropy (s : State) : BitVec 256 × State := (Config.entropy s.freeIdx, { s with freeIdx := s.freeIdx + 1 })

/-- Draws a value the hardware leaves to circumstance. [DEDUCED, notes/assumptions/10.md] -/
def State.drawFree (s : State) : BitVec 64 × State := (Config.freeBits s.freeIdx, { s with freeIdx := s.freeIdx + 1 })

/-! ## The time base (R291, R292) -/

/-- The turn number and the highest angle delivered, as the 50-bit time stamp of R292. -/
def State.stamp (s : State) : BitVec 50 :=
  BitVec.ofNat 50 (s.cad.turn.toNat * 1024 + (match s.cad.angle with | some a => a % 1024 | none => 0))

/-! ## Raisings (R546, R547) -/

/-- Raises an event: the raising sets out for the event logic, or merges with one of its source still crossing. -/
def State.raise (s : State) (ev detail : Nat) : State :=
  if s.crossing.any (fun c => c.1 == ev) then
    { s with crossing := s.crossing.map (fun c => if c.1 = ev then (c.1, c.2.1, min 255 (c.2.2.1 + 1), c.2.2.2) else c) }
  else { s with crossing := s.crossing ++ [(ev, BitVec.ofNat 8 detail, 0, s.now)] }

/-- Raises an event that is raised at most once in a turn. -/
def State.raiseOnce (s : State) (ev detail : Nat) : State :=
  if s.onceTurn.contains ev then s else { s.raise ev detail with onceTurn := s.onceTurn ++ [ev] }

/-- The event source of offset k of a port's block (R84, R137, R196). -/
def evPort (n k : Nat) : Nat := 640 + 16 * n + k
/-- The event source of offset k of a pavilion's block (R14). -/
def evPav (p k : Nat) : Nat := 20 * p + k

/-! ## Completion codes (R520) and the end of a command's work -/

def ccOk : Nat := 0x00
def ccInvalid : Nat := 0x01
def ccUnknown : Nat := 0x02
def ccUnsupported : Nat := 0x03
def ccBusy : Nat := 0x04
def ccDenied : Nat := 0x05
def ccWorkshop : Nat := 0x06
def ccAborted : Nat := 0x07
def ccHalt : Nat := 0x08
def ccTimeout : Nat := 0x09
def ccRestarted : Nat := 0x0A
def ccNoSupply : Nat := 0x0B
def ccFull : Nat := 0x0C
def ccLocked : Nat := 0x0D
def ccMismatch : Nat := 0x0E
def ccSignature : Nat := 0x0F
def ccRollback : Nat := 0x10
def ccMarginal : Nat := 0x11

/-- Mailbox states (R511). -/
def mbIdle : Nat := 0
def mbPending : Nat := 1
def mbRunning : Nat := 2
def mbAborting : Nat := 3
def mbDone : Nat := 4

/-- Ends the work of the command in mailbox `m`: the completion will carry the code an ABORT, a timer or another cause has
set, and else `code` (R516 to R518). Nothing once the command has a result, or when none is in hand. -/
def State.finish (s : State) (m code : Nat) (payload : List Byte) : State :=
  let st := s.rd (Fld.MBX_STAT_STATE m)
  let b := s.mbx m
  if (st == mbRunning || st == mbAborting) && b.result.isNone then
    s.setMbx m { b with result := some { code := (match b.endCode with | some c => c | none => BitVec.ofNat 8 code),
                                         param := 0xFFFF, payload := payload } }
  else s

/-- A command is refused: the completion carries a code, the command-area offset of the byte found invalid (0xFFFF for none)
and no payload (R510, R519). [DEDUCED, notes/assumptions/45.md] -/
def State.refuse (s : State) (m code param : Nat) : State :=
  if m < 18 then
    s.modMbx m (fun b => { b with result := some { code := BitVec.ofNat 8 code, param := BitVec.ofNat 16 param, payload := [] } })
  else s

/-- A payload byte is found invalid (R510): PARAM is its command-area offset. -/
def State.badByte (s : State) (m k : Nat) : State := s.refuse m ccInvalid (16 + k)

/-- Whether the management core and its hardware run: past the lock of the core PLLs, and not in Sleep. -/
def State.mgmtOn (s : State) : Bool :=
  decide (s.power? < 3) && s.power.drain.isNone &&
    (match s.power.boot with
     | .dram _ => true
     | .certWindow => true
     | .certCheck => true
     | .test => true
     | .finish => true
     | .done => true
     | .off => false
     | .reading _ => false
     | .cold => false
     | .pll _ => false
     | .failed => false)

/-- The SRAM words lo to hi - 1 of a mailbox are written anew (R495). -/
def sramClear (m lo hi : Nat) (s : State) : State :=
  { s with sram := s.sram.filter (fun e => !(e.1 == m && decide (lo ≤ e.2.1) && decide (e.2.1 < hi))) }

/-- A word of a mailbox is read from the management SRAM (R495): whether it is past correction; it is counted and reported, as a word
that is corrected is. -/
def sramMeets (m w : Nat) (s : State) : Bool × State :=
  match s.sram.find? (fun e => e.1 == m && e.2.1 == w) with
  | some (_, _, true) => (true, (s.sat Fld.GLB_MSRAM_ERR_UE).raise (968 + 10) 1)
  | some (_, _, false) => (false, (s.sat Fld.GLB_MSRAM_ERR_CE).raiseOnce (968 + 9) 0)
  | none => (false, s)

/-- Whether the firmware runs (R45): commands are executed, fuses programmed and signatures made only then. -/
def State.firmwareRuns (s : State) : Bool := s.mgmtOn && s.on Fld.GLB_FW_STAT_READY

end Sys2Proof.Machine
end

