-- ==== Sys2Proof/Machine/Flags.lean ====
section
/-! DEFINITION. The check codes the manual defines: the SECDED code of the DRAM words (R341 to R343), the CRC-32 of flits
(R110), the PEC of the sideband (R655), and the SECDED code of OTP words (R584). -/
namespace Sys2Proof.Machine
open Sys2Proof

/-- The number of ones among the low eight bits. -/
def weight8 (x : Nat) : Nat := (List.range 8).foldl (fun a i => a + x / 2 ^ i % 2) 0

/-- The parity-check columns of data bits 0 to 63 (R341). -/
def secdedCols : List Nat :=
  (List.range 256).filter (fun c => weight8 c == 3) ++ [0x1F, 0x2F, 0x37, 0x3B, 0x3D, 0x3E, 0x4F, 0x57]

/-- The check bits of a data word, over a list of columns with the index of the first one's data bit. -/
def checkFrom (w : Word64) : Nat → List Nat → Byte
  | _, [] => 0
  | i, c :: t => (if w.getLsbD i then BitVec.ofNat 8 c else 0) ^^^ checkFrom w (i + 1) t

/-- The check bits of a data word (R341). -/
def checkBits (w : Word64) : Byte := checkFrom w 0 secdedCols

/-- The stored word of a data word: check bits in [71:64] (R342). -/
def encode72 (w : Word64) : Raw72 := checkBits w ++ w

/-- The poison marker (R155): data 0 with check bits 0xFF. -/
def poison72 : Raw72 := (0xFF#8 ++ 0#64 : BitVec 72)

/-- The data bits of a stored word. -/
def dataOf72 (r : Raw72) : Word64 := r.extractLsb' 0 64

/-- What the decoder makes of a stored word (R343). -/
inductive Decoded where
  | clean (w : Word64)
  /-- a correction: the data returned and the bit in error, 0 to 63 data, 64 to 71 check -/
  | corrected (w : Word64) (bit : Nat)
  /-- uncorrectable: the data as stored, and whether the poison marker was seen -/
  | uncorrectable (w : Word64) (poison : Bool)
  deriving DecidableEq, Repr

/-- The syndrome of a stored word (R343). -/
def syndrome72 (r : Raw72) : Byte := r.extractLsb' 64 8 ^^^ checkBits (dataOf72 r)

/-- The SECDED decoder (R343). -/
def decode72 (r : Raw72) : Decoded :=
  let d := dataOf72 r
  let s := (syndrome72 r).toNat
  if s = 0 then .clean d
  else if s = 0xFF then .uncorrectable d true
  else
    match (List.range 8).find? (fun j => 2 ^ j == s) with
    | some j => .corrected d (64 + j)
    | none =>
      match secdedCols.findIdx? (fun c => c == s) with
      | some i => .corrected (d ^^^ BitVec.ofNat 64 (2 ^ i)) i
      | none => .uncorrectable d false

/-- The data a decoded word carries. -/
def Decoded.word : Decoded → Word64
  | .clean w => w
  | .corrected w _ => w
  | .uncorrectable w _ => w

/-- Whether a decoded word is uncorrectable. -/
def Decoded.bad : Decoded → Bool
  | .uncorrectable _ _ => true
  | _ => false

/-- Whether a decoded word was corrected. -/
def Decoded.fixed : Decoded → Bool
  | .corrected _ _ => true
  | _ => false

/-! ## CRC-32 (R110) -/

/-- One bit of the reflected CRC-32. -/
def crc32Bit (c : BitVec 32) : BitVec 32 := if c.getLsbD 0 then (c >>> 1) ^^^ 0xEDB88320#32 else c >>> 1

/-- One byte of the CRC-32, least significant bit first. -/
def crc32Byte (c : BitVec 32) (b : Byte) : BitVec 32 :=
  let x := c ^^^ BitVec.zeroExtend 32 b
  crc32Bit (crc32Bit (crc32Bit (crc32Bit (crc32Bit (crc32Bit (crc32Bit (crc32Bit x)))))))

/-- The CRC-32 of IEEE 802.3 over a byte string (R110). -/
def crc32 (bs : List Byte) : BitVec 32 := (bs.foldl crc32Byte 0xFFFFFFFF#32) ^^^ 0xFFFFFFFF#32

/-! ## The SMBus packet error code -/

/-- One bit of CRC-8 with polynomial x^8 + x^2 + x + 1. -/
def crc8Bit (c : Byte) : Byte := if c.getLsbD 7 then (c <<< 1) ^^^ 0x07#8 else c <<< 1

/-- One byte of CRC-8, most significant bit first. -/
def crc8Byte (c b : Byte) : Byte :=
  let x := c ^^^ b
  crc8Bit (crc8Bit (crc8Bit (crc8Bit (crc8Bit (crc8Bit (crc8Bit (crc8Bit x)))))))

/-- The packet error code over a byte string. -/
def crc8 (bs : List Byte) : Byte := bs.foldl crc8Byte 0

end Sys2Proof.Machine
end

