-- ==== Sys2Proof/Machine/Operands.lean ====
section
/-! DEFINITION. The operand forms: the 80-bit control slots (R109, R128, R133, R135, R150, R163, R165, R168, R172), the
80-byte flits (R107, R108), and the fields of the addresses and payloads the commands carry. -/
namespace Sys2Proof.Machine
open Sys2Proof

/-! ## Control slots -/

def slotOp (s : BitVec 80) : Nat := (s.extractLsb' 0 6).toNat
def slotTag (s : BitVec 80) : BitVec 12 := s.extractLsb' 6 12
def slotTc (s : BitVec 80) : BitVec 2 := s.extractLsb' 60 2
def slotLine (s : BitVec 80) : Nat := (s.extractLsb' 18 42).toNat
def slotHint (s : BitVec 80) : BitVec 2 := s.extractLsb' 62 2
def slotPanic (s : BitVec 80) : Bool := s.getLsbD 64
def slotHop (s : BitVec 80) : BitVec 3 := s.extractLsb' 65 3
def slotSrc (s : BitVec 80) : BitVec 4 := s.extractLsb' 68 4
def slotLcount (s : BitVec 80) : Nat := (s.extractLsb' 72 3).toNat
def slotHold (s : BitVec 80) : Bool := s.getLsbD 22
def slotClasses (s : BitVec 80) : BitVec 4 := s.extractLsb' 18 4
def slotLocal (s : BitVec 80) : Bool := s.getLsbD 51
def slotWindow (s : BitVec 80) : Nat := (s.extractLsb' 40 11).toNat
def slotBe (s : BitVec 80) : BitVec 4 := s.extractLsb' 36 4
def slotOffset (s : BitVec 80) : Nat := 4 * (s.extractLsb' 18 18).toNat
def slotMtype (s : BitVec 80) : Nat := (s.extractLsb' 6 4).toNat
def slotMsgData (s : BitVec 80) : Bool := s.getLsbD 10
def slotValue (s : BitVec 80) : BitVec 16 := s.extractLsb' 16 16
def slotRspTc (s : BitVec 80) : BitVec 2 := s.extractLsb' 18 2
def slotAckSeq (s : BitVec 80) : Nat := (s.extractLsb' 6 10).toNat

/-- A slot with bits [lo + w - 1 : lo] replaced. -/
def slotPut (s : BitVec 80) (lo w v : Nat) : BitVec 80 := BitVec.ofNat 80 (bitsSet s.toNat lo w v)

/-- The slot of a memory request (R150). -/
def encMem (op : Nat) (r : MemReq) : BitVec 80 :=
  (0#5 ++ r.lcount ++ r.src ++ r.hop ++ BitVec.ofBool r.panic ++ r.hint ++ r.tc ++ r.line ++ r.tag ++
    BitVec.ofNat 6 op : BitVec 80)

/-- The slot of a FENCE (R163). -/
def encFence (r : FenceReq) : BitVec 80 :=
  (0#18 ++ r.tc ++ 0#37 ++ BitVec.ofBool r.hold ++ r.classes ++ r.tag ++ 0x14#6 : BitVec 80)

/-- The slot of a CFG_RD or CFG_WR (R165). -/
def encCfg (op : Nat) (r : CfgReq) : BitVec 80 :=
  (0#8 ++ r.src ++ r.hop ++ 0#3 ++ r.tc ++ 0#8 ++ BitVec.ofBool r.isLocal ++ r.window ++ r.be ++ r.offset ++ r.tag ++
    BitVec.ofNat 6 op : BitVec 80)

/-- The slot of a MSG (R168). -/
def encMsg (r : MsgReq) : BitVec 80 :=
  (0#18 ++ r.tc ++ 0#28 ++ r.value ++ 0#5 ++ BitVec.ofBool r.data ++ r.mtype ++ 0x1C#6 : BitVec 80)

/-- The slot of a reserved request, as far as the stack reads it (R754). -/
def encReserved (op : BitVec 6) (tc : BitVec 2) (tag : BitVec 12) : BitVec 80 :=
  (0#18 ++ tc ++ 0#42 ++ tag ++ op : BitVec 80)

/-- The slot of a response (R172). -/
def encRsp (op : BitVec 6) (r : RspSlot) : BitVec 80 :=
  (r.spec ++ r.hop ++ r.src ++ r.status ++ r.tc ++ r.tag ++ op : BitVec 80)

/-- The response a slot spells (R172). -/
def rspOf (s : BitVec 80) : RspSlot :=
  { hop := s.extractLsb' 28 3, src := s.extractLsb' 24 4, status := s.extractLsb' 20 4, tc := s.extractLsb' 18 2,
    tag := s.extractLsb' 6 12, spec := s.extractLsb' 31 49 }

/-- The slot of an ACK (R114). -/
def encAck (seq : Nat) : BitVec 80 := BitVec.ofNat 80 (0x38 + seq % 1024 * 2 ^ 6)

/-- The slot of a CREDIT (R128). -/
def encCredit (c : CreditSlot) : BitVec 80 :=
  (0#40 ++ c.rsp ++ c.dat ++ c.req ++ 0#1 ++ BitVec.ofBool c.init ++ c.tc ++ 0x39#6 : BitVec 80)

/-- The credits a CREDIT slot spells (R128). -/
def creditOf (s : BitVec 80) : CreditSlot :=
  { rsp := s.extractLsb' 30 10, dat := s.extractLsb' 20 10, req := s.extractLsb' 10 10, init := s.getLsbD 8,
    tc := s.extractLsb' 6 2 }

/-- The slot of a TURN (R133). -/
def encTurn (lo late : Nat) : BitVec 80 := BitVec.ofNat 80 (0x3A + lo % 2 ^ 16 * 2 ^ 6 + late % 2 ^ 12 * 2 ^ 22)

/-- The slot of a POWER (R135). -/
def encPower (kind target : Nat) : BitVec 80 := BitVec.ofNat 80 (0x3B + kind % 4 * 2 ^ 6 + target % 4 * 2 ^ 8)

/-- The slot of a RETRAIN (R125). -/
def encRetrain (widen : Bool) : BitVec 80 := BitVec.ofNat 80 (0x3C + b2n widen * 2 ^ 6)

/-- Whether an opcode is a defined request (R145). -/
def reqDefined (op : Nat) : Bool :=
  op == 0x01 || op == 0x02 || op == 0x03 || op == 0x04 || (decide (0x08 ≤ op) && decide (op ≤ 0x11)) || op == 0x14 ||
    op == 0x18 || op == 0x19 || op == 0x1C

/-- Whether an opcode is that of a memory request (R150). -/
def reqMemory (op : Nat) : Bool :=
  op == 0x01 || op == 0x02 || op == 0x03 || op == 0x04 || (decide (0x08 ≤ op) && decide (op ≤ 0x11))

/-- Whether an opcode is an atomic (R159). -/
def reqAtomic (op : Nat) : Bool := decide (0x08 ≤ op) && decide (op ≤ 0x11)

/-- The data slots a request slot owns (R145, R754). -/
def reqOwns (s : BitVec 80) : Nat :=
  let op := slotOp s
  if op = 0x02 then slotLcount s + 1
  else if op = 0x04 then 2
  else if reqAtomic op then 1
  else if op = 0x19 then 1
  else if op = 0x1C then b2n (slotMsgData s)
  else 0

/-- The lines a memory request covers (R150). -/
def reqLines (s : BitVec 80) : Nat :=
  let op := slotOp s
  if op = 0x01 ∨ op = 0x02 ∨ op = 0x03 then slotLcount s + 1 else 1

/-- The data slots a response slot owns (R145). -/
def rspOwns (s : BitVec 80) : Nat :=
  let op := slotOp s
  if op = 0x20 then (s.extractLsb' 34 3).toNat + 1 else if op = 0x22 then 1 else 0

/-- Whether a response slot is the final one of its tag (R176). -/
def rspFinal (s : BitVec 80) : Bool := if slotOp s = 0x20 then s.getLsbD 37 else true

/-- The atomic of an opcode 0x08 to 0x11 (R145). -/
def atomicOf (op : Nat) : MemOp :=
  match op with
  | 0x08 => .atSwap
  | 0x09 => .atCas
  | 0x0A => .atAdd
  | 0x0B => .atAnd
  | 0x0C => .atOr
  | 0x0D => .atXor
  | 0x0E => .atSmax
  | 0x0F => .atSmin
  | 0x10 => .atUmax
  | _ => .atUmin

/-- What an atomic writes: the new word, when it writes one (R159). -/
def atomicNew (op : MemOp) (old a c : Word64) : Option Word64 :=
  match op with
  | .atSwap => some a
  | .atCas => if old = c then some a else none
  | .atAdd => some (old + a)
  | .atAnd => some (old &&& a)
  | .atOr => some (old ||| a)
  | .atXor => some (old ^^^ a)
  | .atSmax => if BitVec.slt old a then some a else none
  | .atSmin => if BitVec.slt a old then some a else none
  | .atUmax => if BitVec.ult old a then some a else none
  | .atUmin => if BitVec.ult a old then some a else none
  | .rd => none
  | .wr => none
  | .wrp => none
  | .wrm => none

/-! ## Statuses (R173) -/

def stOk : BitVec 4 := 0
def stPoison : BitVec 4 := 1
def stUnmapped : BitVec 4 := 2
def stRetired : BitVec 4 := 3
def stHalt : BitVec 4 := 4
def stUnsupported : BitVec 4 := 5
def stMalformed : BitVec 4 := 6
def stDenied : BitVec 4 := 7
def stTagInUse : BitVec 4 := 8
def stHopLimit : BitVec 4 := 9
def stPathDown : BitVec 4 := 10

/-! ## Flits (R107, R108, R110) -/

def ftNull : Nat := 0
def ftData : Nat := 1
def ftControl : Nat := 2
def ftReplay : Nat := 3

/-- The header of a flit (R107). -/
def flitHeader (bs : List Byte) : Nat := leAt bs 0 2
/-- Slot k of a flit's bytes. -/
def flitSlot (bs : List Byte) (k : Nat) : BitVec 80 := BitVec.ofNat 80 (leAt bs (2 + 10 * k) 10)

/-- Whether a flit is whole and its CRC is right (R110). -/
def flitCrcOk (bs : List Byte) : Bool :=
  bs.length == 80 && leAt bs 76 4 == (crc32 (bs.take 76)).toNat

/-- The flit its bytes spell; types 4 to 7 are kept for the check of R111. -/
def flitOf (bs : List Byte) : Flit :=
  let h := flitHeader bs
  let ty := bitsOf h 0 3
  { type := BitVec.ofNat 3 ty
    seq := BitVec.ofNat 10 (bitsOf h 3 10)
    ackP := bitAt h 13
    slots :=
      if ty = ftControl then (List.range 7).map (flitSlot bs)
      else if ty = ftData ∨ ty = ftNull then [flitSlot bs 0]
      else []
    data := if ty = ftData then some (lineOf ((bs.drop 12).take 64)) else none }

/-- The bytes of a flit with its CRC (R107 to R110). -/
def flitBytes (f : Flit) : List Byte :=
  let h := f.type.toNat + f.seq.toNat * 2 ^ 3 + b2n f.ackP * 2 ^ 13
  let ctl := f.slots.flatMap (fun s => leBytes 10 s.toNat)
  let body :=
    match f.data with
    | some d => (ctl ++ List.replicate 10 0).take 10 ++ lineBytes d
    | none => (ctl ++ List.replicate 74 0).take 74
  let hd := leBytes 2 h ++ body
  hd ++ leBytes 4 (crc32 hd).toNat

/-- Whether a flit with a good CRC breaks the protocol (R111). -/
def flitProtoBad (f : Flit) : Bool :=
  decide (4 ≤ f.type.toNat) || f.slots.any (fun s => decide (0x3D ≤ slotOp s)) ||
    (f.ackP && (match f.slots with | [] => true | s :: _ => slotOp s != 0x38))

/-! ## Addresses -/

/-- Parity of the bits of `x` under a 37-bit mask. -/
def maskParity (x m : Nat) : Nat := (List.range 37).foldl (fun a i => (a + x / 2 ^ i % 2 * (m / 2 ^ i % 2)) % 2) 0

/-- A select field: bit j is the parity under the j-th mask (R34). -/
def selectField (x : Nat) : Nat → List Nat → Nat
  | _, [] => 0
  | j, m :: t => maskParity x m * 2 ^ j + selectField x (j + 1) t

end Sys2Proof.Machine
end

