-- ==== Sys2Proof/Machine/Wire.lean ====
section
/-! DEFINITION. What the lanes carry: the place of a flit's bytes on them (R10, R49, R105), the training ordered sets (R98) and
the PRBS patterns (R77 to R79). -/
namespace Sys2Proof.Machine
open Sys2Proof

/-! ## Flits on lanes (R10, R49) -/

/-- The positions of a mask in ascending order: the active lanes by their index (R49). -/
def positions (act : Nat) : List Nat := (List.range 8).filter (fun p => bitAt act p)

/-- The index of the active lane that carries flit byte k at width w (R10, R49). -/
def laneIndex (w k : Nat) : Nat := k % w

/-- The bytes of a flit that travel on the active lane of index i at width w, in order. -/
def laneShare (w i : Nat) (bs : List Byte) : List Byte :=
  (List.range ((bs.length + w - 1 - i) / w)).map (fun j => bs.getD (w * j + i) 0)

/-- The bits of bytes in the order in which a lane carries them: least significant first (R10). -/
def laneBits (bs : List Byte) : List Bool := bs.flatMap (fun b => (List.range 8).map (fun i => b.getLsbD i))

/-- The byte that eight bits of a lane spell, the first the least significant (R10). -/
def bitsByte (b : List Bool) : Byte := BitVec.ofNat 8 ((List.range 8).foldl (fun a i => a + b2n (b.getD i false) * 2 ^ i) 0)

/-- Byte j that a lane's bits spell. -/
def laneByte (b : List Bool) (j : Nat) : Byte := bitsByte ((b.drop (8 * j)).take 8)

/-- The flit that the bits of the active lanes spell, the lanes by their index (R10, R49); nothing where they are not those of
a whole flit. -/
def gatherFlit (lanes : List (List Bool)) : List Byte :=
  let w := lanes.length
  if w ≠ 0 ∧ lanes.all (fun b => decide (w * b.length = 640)) = true then
    (List.range 80).map (fun k => laneByte (lanes.getD (laneIndex w k) []) (k / w))
  else []

/-- The bit of a flit that is bit b of the active lane of index i at width w (R10, R49). -/
def flitBit (w i b : Nat) : Nat := 8 * (w * (b / 8) + i) + b % 8

/-- Bytes with the numbered bits inverted. -/
def flipBits (bits : List Nat) (bs : List Byte) : List Byte :=
  bs.zipIdx.map (fun x => x.1 ^^^ bitsByte ((List.range 8).map (fun i => bits.contains (8 * x.2 + i))))

/-! ## Ordered sets (R98) -/

/-- The MARKER of an ordered set. -/
def osMarker : List Byte := [0xC5, 0x3A, 0x5C, 0xA3]

def osTs1 : Nat := 1
def osTs2 : Nat := 2
def osEios : Nat := 3
def osExit : Nat := 4
def osSds : Nat := 5

/-- The 16 bytes of an ordered set of a TYPE sent at a position (R98). -/
def osBytes (type pos : Nat) (o : OrderedSet) : List Byte :=
  osMarker ++ [BitVec.ofNat 8 type, BitVec.ofNat 8 (pos % 8), BitVec.ofNat 8 o.rates.toNat,
    BitVec.ofNat 8 (o.rate.toNat + 8 * b2n o.seen + 16 * b2n o.recov + 32 * b2n o.x1 + 64 * b2n o.full),
    BitVec.ofNat 8 (o.preset.toNat + 8 * b2n o.presetV), o.usable,
    BitVec.ofNat 8 (o.kind.toNat + 4 * o.expect.toNat), o.attempt, 0, 0, 0, 0]

/-- The fields of the 16 bytes of an ordered set (R98); reserved bits are ignored (R12). -/
def osFields (bs : List Byte) : OrderedSet :=
  let b (i : Nat) : Byte := bs.getD i 0
  { rates := (b 6).extractLsb' 0 5
    rate := (b 7).extractLsb' 0 3
    seen := (b 7).getLsbD 3
    recov := (b 7).getLsbD 4
    x1 := (b 7).getLsbD 5
    full := (b 7).getLsbD 6
    preset := (b 8).extractLsb' 0 3
    presetV := (b 8).getLsbD 3
    usable := b 9
    kind := (b 10).extractLsb' 0 2
    expect := (b 10).extractLsb' 2 2
    attempt := b 11 }

/-- What a lane reads in 16 bytes from its pads: whether the pair is inverted, and the set, when the MARKER stands there as it is
or inverted and the TYPE is `type` (R98, R99). -/
def osRead (type : Nat) (bs : List Byte) : Option (Bool × OrderedSet) :=
  let inv := (bs.take 4).map (fun b => ~~~b) == osMarker
  let cs := if inv then bs.map (fun b => ~~~b) else bs
  if bs.length = 16 ∧ cs.take 4 = osMarker ∧ (cs.getD 4 0).toNat = type then some (inv, osFields cs) else none

/-! ## PRBS patterns (R77) -/

/-- The degree of a pattern by its POLY code. -/
def prbsDegree (poly : Nat) : Nat := if poly = 0 then 7 else if poly = 1 then 15 else if poly = 2 then 23 else 31
/-- The middle term of its polynomial. -/
def prbsMiddle (poly : Nat) : Nat := if poly = 0 then 6 else if poly = 1 then 14 else if poly = 2 then 18 else 28

/-- The new bit of the shift register, which is the output bit: the XOR of the stages that the terms below the leading one name;
bit i of the register is stage x^i, the oldest bit stage x^0. [DEDUCED, notes/assumptions/65.md] -/
def prbsNew (poly : Nat) (r : BitVec 31) : Bool := r.getLsbD (prbsMiddle poly) ^^ r.getLsbD 0

/-- The register after one bit. -/
def prbsShift (poly : Nat) (r : BitVec 31) : BitVec 31 :=
  (r >>> 1) ||| (if prbsNew poly r then 1#31 <<< (prbsDegree poly - 1) else 0#31)

/-- The seed: all ones. -/
def prbsSeed (poly : Nat) : BitVec 31 := BitVec.ofNat 31 (2 ^ prbsDegree poly - 1)

/-- The register after k bits from the seed. -/
def prbsReg (poly : Nat) : Nat → BitVec 31
  | 0 => prbsSeed poly
  | k + 1 => prbsShift poly (prbsReg poly k)

/-- Bit k of a pattern, bit 0 the first on the lane. -/
def prbsOut (poly k : Nat) : Bool := prbsNew poly (prbsReg poly k)

/-- The register that bits received load: the first is the oldest (R79). -/
def prbsLoad (poly : Nat) (bits : List Bool) : BitVec 31 :=
  BitVec.ofNat 31 ((List.range (prbsDegree poly)).foldl (fun a i => a + b2n (bits.getD i false) * 2 ^ i) 0)

/-- Bits received against a register that runs on by itself: the errors, and the register after them. -/
def prbsCompare (poly : Nat) : BitVec 31 → List Bool → Nat × BitVec 31
  | r, [] => (0, r)
  | r, b :: t =>
    let x := prbsCompare poly (prbsShift poly r) t
    (b2n (b != prbsNew poly r) + x.1, x.2)

end Sys2Proof.Machine
end

