-- ==== Sys2Proof/Machine/Link.lean ====
section
/-! DEFINITION. The link layer of a port (R98 to R144): training, flits on the wire, acknowledgement, retry, recovery, link
down, credits and the power handshake, as operations shared by the commands. -/
namespace Sys2Proof.Machine
open Sys2Proof

/-! ## Link states (R139) -/

def lsIdle : Nat := 0
def lsLock : Nat := 1
def lsConfig : Nat := 2
def lsRate : Nat := 3
def lsVerify : Nat := 4
def lsStart : Nat := 5
def lsUp : Nat := 6
def lsRecovery : Nat := 7
def lsCoast : Nat := 8
def lsParked : Nat := 9
def lsDown : Nat := 10

/-- Lane states (R91). -/
def laActive : Nat := 0
def laCoast : Nat := 1
def laParked : Nat := 2
def laLoop : Nat := 3
def laPrbs : Nat := 4
def laTraining : Nat := 5

def State.link (s : State) (n : Nat) : Nat := s.rd (Fld.PRT_LINK_STAT_STATE n)
def State.up (s : State) (n : Nat) : Bool := s.link n == lsUp
def State.setLink (s : State) (n st : Nat) : State :=
  (s.wr (Fld.PRT_LINK_STAT_STATE n) st).wr (Fld.PRT_LINK_STAT_UP n) (b2n (st == lsUp))
def State.modTrain (s : State) (n : Nat) (f : Train → Train) : State := s.modPort n (fun p => { p with train := f p.train })
def State.modRetry (s : State) (n : Nat) (f : Retry → Retry) : State := s.modPort n (fun p => { p with retry := f p.retry })
def State.modCredit (s : State) (n : Nat) (f : Credit → Credit) : State :=
  s.modPort n (fun p => { p with credit := f p.credit })
def State.active (s : State) (n : Nat) : Nat := s.rd (Fld.PRT_PHY_STAT_ACTIVE n)
def State.txNext (s : State) (n : Nat) : Nat := s.rd (Fld.PRT_LINK_SEQ_TX_NEXT n)
def State.txOldest (s : State) (n : Nat) : Nat := s.rd (Fld.PRT_LINK_SEQ_TX_OLDEST n)
def State.expect (s : State) (n : Nat) : Nat := s.rd (Fld.PRT_LINK_SEQ_RX_EXPECT n)

/-- The mask of the lane positions that meet a test. -/
def laneMask (f : Nat → Bool) : Nat := (List.range 8).foldl (fun a p => a + b2n (f p) * 2 ^ p) 0

/-- The usable positions (R48). -/
def State.usable (s : State) (n : Nat) : Nat := laneMask (fun p => s.on (Fld.PRT_LANE_STAT_USABLE n p))

/-- The active positions and width code R48 picks from usable positions. -/
def pickActive (m : Nat) : Option (Nat × Nat) :=
  if m = 0xFF then some (0, 0xFF)
  else if m % 16 = 15 then some (1, 0x0F)
  else if m / 16 % 16 = 15 then some (1, 0xF0)
  else if m % 4 = 3 then some (2, 0x03)
  else if m / 4 % 4 = 3 then some (2, 0x0C)
  else if m / 16 % 4 = 3 then some (2, 0x30)
  else if m / 64 % 4 = 3 then some (2, 0xC0)
  else none

/-- The lane rate in Gb/s of a rate code (R51). -/
def rateGbps (code : Nat) : Nat := if code = 4 then 64 else if code = 3 then 48 else if code = 2 then 32 else if code = 1 then 16 else 8
/-- The lanes of a width code (R86). -/
def widthLanes (code : Nat) : Nat := if code = 0 then 8 else if code = 1 then 4 else if code = 2 then 2 else 1

/-- The bits that go by on a lane of a port in a time, at its rate (R51). -/
def State.bitsIn (s : State) (n dt : Nat) : Nat := dt * 5 * rateGbps (s.rd (Fld.PRT_PHY_STAT_RATE n)) / 24
/-- The time in which `k` bits go by on a lane of a port, rounded up. -/
def State.bitTicks (s : State) (n k : Nat) : Nat :=
  let d := 5 * rateGbps (s.rd (Fld.PRT_PHY_STAT_RATE n))
  (24 * k + d - 1) / d

/-! ## Lanes and their states (R62, R64, R66, R81, R83) -/

/-- The receiver codes adaptation has found by now (R62, R92): the hardware's own, left open.
[DEDUCED, notes/assumptions/66.md] -/
def adaptRx (n p : Nat) (s : State) : State :=
  let (v, s) := s.drawFree
  s.setReg (Off.PRT_LANE_RXEQ n p) (BitVec.ofNat 32 (v.toNat / 16 * 16))

/-- Whether the receiver of a lane in this state adapts (R62, R66): active, training, loopback or PRBS test. -/
def adapts (st : Nat) : Bool := st == laActive || st == laTraining || st == laLoop || st == laPrbs

/-- Whether the injector reaches a lane: selected, and in active or PRBS test (R83). -/
def State.injects (s : State) (n p : Nat) : Bool :=
  let st := s.rd (Fld.PRT_LANE_STAT_STATE n p)
  bitAt (s.rd (Fld.PRT_INJ_CTRL_LANE_MASK n)) p && (st == laActive || st == laTraining || st == laPrbs)

/-- `k` bits from bit POS of the lane's next word are inverted on the wire (R83): of the flits sent next on a lane that carries
flits, of the pattern in PRBS test. [DEDUCED, notes/assumptions/67.md] -/
def injectBits (n p k : Nat) (s : State) : State :=
  let pos := s.rd (Fld.PRT_INJ_CTRL_POS n)
  let st := s.rd (Fld.PRT_LANE_STAT_STATE n p)
  let bits := (List.range k).map (fun j => pos + j)
  let s := s.modLane n p (fun l => { l with
    flips := l.flips + k
    genBad := if st = laPrbs then
        (match l.genFrom with
         | some f => l.genBad ++ bits.map (fun b => (s.bitsIn n (s.now - f) + 63) / 64 * 64 + b)
         | none => l.genBad)
      else l.genBad })
  if st = laActive then
    let act := positions (s.active n)
    let w := act.length
    let share := 640 / w
    let at_ := (s.port n).txLog.length
    s.modPort n (fun q => { q with txBad := q.txBad ++
      (bits.map (fun b => (at_ + b / share, [flitBit w (act.idxOf p) (b % share)]))) })
  else s

/-- The exponent of the periodic injector: PERIOD at the nearer limit of 10 and 40 (R83). -/
def State.injPeriod (s : State) (n : Nat) : Nat := min 40 (max 10 (s.rd (Fld.PRT_INJ_CTRL_PERIOD n)))

/-- The injector at one lane (R83): a single flip or a burst goes out once where it reaches, periodic flips are timed there. -/
def injectLane (n p : Nat) (s : State) : State :=
  let m := s.rd (Fld.PRT_INJ_CTRL_MODE n)
  if s.injects n p then
    if m = 2 then
      (if (s.lane n p).injAt.isSome then s
       else s.modLane n p (fun l => { l with injAt := some (s.now + s.bitTicks n (2 ^ s.injPeriod n)) }))
    else if (m = 1 ∨ m = 3) ∧ (s.lane n p).injDone = false then
      (injectBits n p (if m = 1 then 1 else max 1 (s.rd (Fld.PRT_INJ_CTRL_LEN n))) s).modLane n p (fun l => { l with injDone := true })
    else s
  else if (s.lane n p).injAt.isSome then s.modLane n p (fun l => { l with injAt := none })
  else s

/-- MODE returns to 0 once the single flip or the burst has gone out on every selected lane (R83). -/
def injectEnd (n : Nat) (s : State) : State :=
  let m := s.rd (Fld.PRT_INJ_CTRL_MODE n)
  if (m = 1 ∨ m = 3) ∧
      (List.range 8).all (fun p => !bitAt (s.rd (Fld.PRT_INJ_CTRL_LANE_MASK n)) p || (s.lane n p).injDone) = true then
    s.wr (Fld.PRT_INJ_CTRL_MODE n) 0
  else s

/-- The bits of a grading window (R81). -/
def State.windowBits (s : State) (n p : Nat) : Nat := 2 ^ (20 + s.rd (Fld.PRT_LANE_MARGIN_CFG_WIN n p))

/-- A fresh grading window begins (R81, R82). -/
def freshWindow (n p : Nat) (s : State) : State :=
  s.modLane n p (fun l => { l with winLeft := s.windowBits n p, winFrom := some s.now })

/-- Whether the PRBS checker of a lane runs (R87). -/
def State.checkerRuns (s : State) (n p : Nat) : Bool :=
  s.rd (Fld.PRT_LANE_STAT_STATE n p) == laPrbs && s.on (Fld.PRT_PRBS_CTRL_CHK_EN n) && bitAt (s.rd (Fld.PRT_PRBS_CTRL_LANE_MASK n)) p

/-- Whether the PRBS generator of a lane runs (R87). -/
def State.generatorRuns (s : State) (n p : Nat) : Bool :=
  s.rd (Fld.PRT_LANE_STAT_STATE n p) == laPrbs && s.on (Fld.PRT_PRBS_CTRL_GEN_EN n) && bitAt (s.rd (Fld.PRT_PRBS_CTRL_LANE_MASK n)) p

/-- Whether the pattern of a lane is the complement (R78). -/
def State.prbsInv (s : State) (n p : Nat) : Bool := s.on (Fld.PRT_PRBS_CTRL_INV_ODD n) && p % 2 == 1

/-- The bits a lane's checker has compared by now (R80). -/
def State.prbsCount (s : State) (n p : Nat) : BitVec 64 :=
  (s.lane n p).prbsBits + (match (s.lane n p).prbsFrom with | some t => BitVec.ofNat 64 (s.bitsIn n (s.now - t)) | none => 0)

/-- The checker of a lane loses its lock, or has none: what it has compared is kept (R79, R80). -/
def prbsUnlock (n p : Nat) (s : State) : State :=
  let k := s.prbsCount n p
  (s.modLane n p (fun l => { l with prbsBits := k, prbsFrom := none })).wr (Fld.PRT_LANE_STAT_PRBS_LOCK n p) 0

/-- The generator and the checker of a lane follow its state and PRT_PRBS_CTRL (R66, R77, R87): a generator that begins to run sends
its pattern from the seed, and a checker that does not run has no lock. [DESIGN CHOICE, notes/assumptions/19.md] -/
def prbsSync (n p : Nat) (s : State) : State :=
  let s := s.modLane n p (fun l =>
    if s.generatorRuns n p then (if l.genFrom.isSome then l else { l with genFrom := some s.now, genBad := [] })
    else { l with genFrom := none, genBad := [] })
  if s.checkerRuns n p then s else prbsUnlock n p s

/-- A lane takes a state. One that stops adapting holds the codes it has (R62); a parked one has its CDR and its FIFO off (R66);
one whose receiver starts has its FIFO centred at 8 words (R64); in active, training included, a grading window runs (R81); PRBS
generator and checker follow (R87).
[DEDUCED, notes/assumptions/66.md] -/
def laneTo (n p st : Nat) (s : State) : State :=
  let s := if adapts (s.rd (Fld.PRT_LANE_STAT_STATE n p)) && !adapts st then adaptRx n p s else s
  let s := s.wr (Fld.PRT_LANE_STAT_STATE n p) st
  let s := if st = laParked then s.wr (Fld.PRT_LANE_STAT_CDR_LOCK n p) 0 else s
  let s := s.modLane n p (fun l => { l with
    fifo := if st = laParked then 0 else if l.fifo = 0 then 8 else l.fifo
    slipped := l.slipped && st != laParked
    winFrom := if st = laActive ∨ st = laTraining then l.winFrom else none })
  let s := if (st = laActive ∨ st = laTraining) ∧ (s.lane n p).winFrom = none ∧ (s.lane n p).scan.isNone = true then freshWindow n p s
    else s
  injectEnd n (injectLane n p (prbsSync n p s))

/-- Puts the lanes of a mask in a state. -/
def lanesTo (n mask st : Nat) (s : State) : State :=
  forUpto 8 (fun p a => if bitAt mask p then laneTo n p st a else a) s

/-- PRT_LANE_STAT.EDGE_EFF: the edge applied at the rate in force (R59). -/
def setEdge (n p : Nat) (s : State) : State :=
  let e := s.rd (Fld.PRT_LANE_CTRL_EDGE n p)
  s.wr (Fld.PRT_LANE_STAT_EDGE_EFF n p) (if 3 ≤ s.rd (Fld.PRT_PHY_STAT_RATE n) ∧ 2 ≤ e then 1 else e)

/-- The port takes a rate: the grading windows go on at it (R81), and the edges are those it allows (R59). -/
def setRate (n code : Nat) (s : State) : State :=
  let s := forUpto 8 (fun p a => a.modLane n p (fun l => { l with
    winLeft := (match l.winFrom with | some f => l.winLeft - a.bitsIn n (a.now - f) | none => l.winLeft)
    winFrom := l.winFrom.map (fun _ => a.now) })) s
  forUpto 8 (fun p a => setEdge n p a) (s.wr (Fld.PRT_PHY_STAT_RATE n) code)

/-- The duration of `k` flits at a port's rate and width (R49), in ticks, rounded up. -/
def State.flitTicks (s : State) (n k : Nat) : Nat :=
  let d := widthLanes (s.rd (Fld.PRT_PHY_STAT_WIDTH n)) * rateGbps (s.rd (Fld.PRT_PHY_STAT_RATE n))
  (3072 * k + d - 1) / d

/-- The replay span of R134. -/
def State.replaySpan (s : State) (n : Nat) : Nat := max (2 * tUs) (s.flitTicks n 256)

/-- The rate codes a port supports (R51, R102), as the mask RATES: up to the MAX_RATE that its training found (R52). -/
def State.ownRates (s : State) (n : Nat) : Nat :=
  2 ^ (min (s.port n).train.maxRate (s.rd Fld.GLB_FEATURES_RATE_MAX) + 1) - 1

/-- The highest rate code below `bound` in both masks. -/
def highestRate (a b bound : Nat) : Option Nat := ((List.range (min bound 5)).reverse).find? (fun c => bitAt a c && bitAt b c)

/-- Counts a protocol error of the link and raises its event (R111, R137). -/
def protoError (n : Nat) (s : State) : State :=
  let s := s.sat (Fld.PRT_LINK_ERR_PROTO_ERR n)
  s.raise (evPort n 12) (s.rd (Fld.PRT_LINK_ERR_PROTO_ERR n))

/-! ## The cadence loses its port (R300) -/

/-- Entry of the cadence unit into SEEK with a cause (R298, R300): a freewheel when it was LOCKED. -/
def cadSeek (cause : Nat) (s : State) : State :=
  let was := s.rd Fld.CAD_STAT_STATE
  let s := ((s.wr Fld.CAD_STAT_STATE 1).wr Fld.CAD_STAT_LOCK 0).wr Fld.CAD_STAT_FW_CAUSE cause
  let s := { s with cad := { s.cad with intervals := [] } }
  if was = 2 then (s.sat Fld.CAD_CNT_FREEWHEEL).raise (928 + 1) cause else s

/-- Whether port n is the designated cadence port (R295). -/
def State.isCadPort (s : State) (n : Nat) : Bool := s.rd Fld.CAD_CTRL_SRC == 2 && s.rd Fld.CAD_CTRL_PORT == n

/-- The CMP or MBX_DONE that a change of a port waits for has been sent: the change follows 100 ns later (R75, R138, R204, R687). -/
def changesDue (n : Nat) (sent : After) (s : State) : State :=
  s.modPort n (fun p => { p with delayed := p.delayed.map (fun d =>
    if d.after = some sent then { d with after := none, due := some (s.now + tNs 100) } else d) })

/-! ## Flits sent -/

/-- Whether a port can send a DATA or CONTROL flit at all: its retry buffer has room (R117), and a replay that follows a recovery
has gone first (R119, R123). -/
def State.hasRoom (s : State) (n : Nat) : Bool :=
  s.up n && decide ((s.port n).retry.held.length < 256) && !(s.port n).train.awaitNull

/-- Whether a port can send a new DATA or CONTROL flit now (R117, R135). -/
def State.canSend (s : State) (n : Nat) : Bool := s.hasRoom n && decide ((s.port n).shake = .idle)

/-- Something other than a NULL flit has come or gone on a port (R135). -/
def touch (n : Nat) (s : State) : State := s.modPort n (fun p => { p with idleSince := s.now })

/-- A DATA or CONTROL flit is sent, numbered and held (R112, R117); it starts the replay timer of an empty buffer (R120).
[DESIGN CHOICE, notes/assumptions/61.md] -/
def sendFlit (n ty : Nat) (slots : List (BitVec 80)) (data : Option Line) (s : State) : State :=
  let f : Flit := { type := BitVec.ofNat 3 ty, seq := BitVec.ofNat 10 (s.txNext n), ackP := false, slots := slots, data := data }
  let s := s.modPort n (fun p =>
    { p with
      txLog := p.txLog ++ [f]
      idleSince := s.now
      retry := { p.retry with
        held := p.retry.held ++ [f]
        replayAt := if p.retry.held.isEmpty then some (s.now + tUs) else p.retry.replayAt } })
  s.wr (Fld.PRT_LINK_SEQ_TX_NEXT n) ((s.txNext n + 1) % 1024)

/-- A CONTROL flit with these slots. -/
def sendControl (n : Nat) (slots : List (BitVec 80)) (s : State) : State := sendFlit n ftControl slots none s

/-- A flit that takes no number goes on the wire. -/
def sendPlain (n : Nat) (f : Flit) (s : State) : State := s.modPort n (fun p => { p with txLog := p.txLog ++ [f] })

/-- An ACK of the last flit accepted is sent (R114, R115): in a NULL flit of its own, whatever other flit comes next.
[DESIGN CHOICE, notes/assumptions/68.md] -/
def sendAck (n : Nat) (s : State) : State :=
  let f : Flit := { type := 0, seq := BitVec.ofNat 10 (s.txNext n), ackP := true,
                    slots := [encAck ((s.expect n + 1023) % 1024)], data := none }
  (sendPlain n f s).modRetry n (fun r => { r with unacked := 0, ackAt := none })

/-- A REPLAY of E is sent, unless one was sent for the same E within 1 µs (R118). [DEDUCED, notes/assumptions/17.md] -/
def requestReplay (n : Nat) (s : State) : State :=
  let e := BitVec.ofNat 10 (s.expect n)
  let r := (s.port n).retry
  if r.askedFor = some e ∧ (match r.askAgainAt with | some t => decide (s.now < t) | none => false) = true then s
  else
    let f : Flit := { type := 3, seq := e, ackP := false, slots := [], data := none }
    let s := (sendPlain n f s).sat (Fld.PRT_LINK_ERR_REPLAY_TX n)
    let same := match r.sameAsk with
      | some (q, k) => if q = e then k + 1 else 1
      | none => 1
    s.modRetry n (fun r => { r with askedFor := some e, askAgainAt := some (s.now + tUs), sameAsk := some (e, same),
                                    noMarkerUntil := max r.noMarkerUntil (s.now + s.replaySpan n) })

/-- Every held flit is sent again, oldest first, unchanged (R119, R120); a replay that a recovery owes is done with it (R123). -/
def resend (n : Nat) (s : State) : State :=
  s.modPort n (fun p => { p with
    txLog := p.txLog ++ p.retry.held
    idleSince := if p.retry.held.isEmpty then p.idleSince else s.now
    train := { p.train with awaitNull := false } })

/-! ## Credits (R127 to R132) -/

/-- The field of the credits the stack holds: kind 0 REQ, 1 DAT, 2 RSP. -/
def fldTx (n tc kind : Nat) : Fld :=
  if kind = 0 then Fld.PRT_CREDIT_TX_TC_REQ n tc else if kind = 1 then Fld.PRT_CREDIT_TX_TC_DAT n tc
  else Fld.PRT_CREDIT_TX_TC_RSP n tc
/-- The field of the credits granted and not yet used. -/
def fldRx (n tc kind : Nat) : Fld :=
  if kind = 0 then Fld.PRT_CREDIT_RX_TC_REQ n tc else if kind = 1 then Fld.PRT_CREDIT_RX_TC_DAT n tc
  else Fld.PRT_CREDIT_RX_TC_RSP n tc

/-- The initial grants of R130. -/
def initGrant (peer : Bool) (tc kind : Nat) : Nat :=
  if kind = 0 then (if tc = 1 then 192 else if tc = 3 then 16 else 96)
  else if kind = 1 then (if tc = 1 then 256 else if tc = 3 then 16 else 128)
  else if peer then (if tc = 3 then 16 else 256) else 0

/-- Whether the stack holds `k` credits of a pool. -/
def State.hasTx (s : State) (n tc kind k : Nat) : Bool := s.rd (fldTx n tc kind) == 0x3FF || decide (k ≤ s.rd (fldTx n tc kind))

/-- Uses credits of a pool; an unlimited pool is not counted (R129). -/
def useTx (n tc kind k : Nat) (s : State) : State :=
  if s.rd (fldTx n tc kind) = 0x3FF then s else s.wr (fldTx n tc kind) (s.rd (fldTx n tc kind) - k)

/-- The stack begins to wait for a credit of a pool (R132). -/
def stallOn (n tc kind : Nat) (s : State) : State :=
  let k := 4 * kind + tc
  if (tabGet none (s.port n).credit.stall k).isSome then s
  else s.modCredit n (fun c => { c with stall := tabSet none c.stall k (some s.now) })

/-- Sends the CREDIT slot of a class when credits are pending and a flit can be sent (R131). -/
def sendCredit (n tc : Nat) (s : State) : State :=
  let c := (s.port n).credit
  let q := tabGet 0 c.ret tc
  let d := tabGet 0 c.ret (4 + tc)
  let r := tabGet 0 c.ret (8 + tc)
  if s.canSend n && decide (0 < q + d + r) then
    let slot := encCredit { rsp := BitVec.ofNat 10 r, dat := BitVec.ofNat 10 d, req := BitVec.ofNat 10 q, init := false,
                            tc := BitVec.ofNat 2 tc }
    let s := sendControl n [slot] s
    let s := ((s.wr (fldRx n tc 0) (s.rd (fldRx n tc 0) + q)).wr (fldRx n tc 1) (s.rd (fldRx n tc 1) + d)).wr
      (fldRx n tc 2) (s.rd (fldRx n tc 2) + r)
    s.modCredit n (fun c => { c with
      ret := tabSet 0 (tabSet 0 (tabSet 0 c.ret tc 0) (4 + tc) 0) (8 + tc) 0
      retAt := tabSet none c.retAt tc none })
  else s

/-- `k` credits of a pool become pending return: 8 of a pool are sent at once, else within 100 ns (R131).
[DEDUCED, notes/assumptions/21.md] -/
def giveBack (n tc kind k : Nat) (s : State) : State :=
  if k = 0 ∨ (s.port n).train.hasLink = false then s
  else
    let s := s.modCredit n (fun c => { c with
      ret := tabSet 0 c.ret (4 * kind + tc) (tabGet 0 c.ret (4 * kind + tc) + k)
      retAt := if (tabGet none c.retAt tc).isSome then c.retAt else tabSet none c.retAt tc (some (s.now + tNs 100)) })
    if 8 ≤ tabGet 0 (s.port n).credit.ret (4 * kind + tc) then sendCredit n tc s else s

/-- The stack no longer waits for a credit of a pool (R132). -/
def unstall (n tc kind : Nat) (s : State) : State :=
  s.modCredit n (fun c => { c with
    stall := tabSet none c.stall (4 * kind + tc) none
    stalled := BitVec.ofNat 12 (bitPut c.stalled.toNat (4 * kind + tc) false) })

/-- Adds returned credits to a pool; above the initial grant the pool is held at it and a protocol error counted (R131). -/
def addTx (n tc kind k : Nat) (s : State) : State :=
  if k = 0 then s
  else
    let g := tabGet 0 (s.port n).credit.grant (4 * kind + tc)
    let cur := s.rd (fldTx n tc kind)
    let s := unstall n tc kind s
    if cur = 0x3FF then s
    else if g < cur + k then protoError n (s.wr (fldTx n tc kind) g)
    else s.wr (fldTx n tc kind) (cur + k)

/-- Takes a CREDIT slot (R128, R129). -/
def takeCredit (n : Nat) (c : CreditSlot) (s : State) : State :=
  let tc := c.tc.toNat
  if c.init then
    if (s.port n).credit.inited.getLsbD tc then protoError n s
    else
      let s := s.modCredit n (fun q => { q with
        inited := BitVec.ofNat 4 (bitPut q.inited.toNat tc true)
        grant := tabSet 0 (tabSet 0 (tabSet 0 q.grant tc c.req.toNat) (4 + tc) c.dat.toNat) (8 + tc) c.rsp.toNat })
      let s := ((s.wr (fldTx n tc 0) c.req.toNat).wr (fldTx n tc 1) c.dat.toNat).wr (fldTx n tc 2) c.rsp.toNat
      forUpto 3 (fun k a => if a.hasTx n tc k 1 then unstall n tc k a else a) s
  else addTx n tc 2 c.rsp.toNat (addTx n tc 1 c.dat.toNat (addTx n tc 0 c.req.toNat s))

/-! ## The power handshake (R135) -/

/-- Ends the eye scan of the lanes of a port (R470): ABORT is set and the calibration aborted event raised; grading starts over with a fresh window (R82). -/
def endScans (n : Nat) (s : State) : State :=
  let mask := s.rd (Fld.PRT_CAL_STAT_SCANNING n)
  if mask = 0 then s
  else
    let s := forUpto 8 (fun p a =>
      if bitAt mask p then
        let a := a.wr (Fld.PRT_LANE_EYE_ABORT n p) 1
        let a := match (a.lane n p).marginHeld with | some v => a.setReg (Off.PRT_LANE_MARGIN_CFG n p) v | none => a
        (freshWindow n p (a.modLane n p (fun l => { l with scan := none, marginHeld := none }))).raise (968 + 25) n
      else a) s
    let s := s.wr (Fld.PRT_CAL_STAT_SCANNING n) 0
    let s := if s.rd (Fld.PRT_CAL_STAT_STATE n) = 3 then s.wr (Fld.PRT_CAL_STAT_STATE n) 0 else s
    match (s.port n).scanMbx with
    | some m =>
      let body := (List.range 8).flatMap (fun p => leBytes 4 (s.reg (Off.PRT_LANE_EYE n p)).toNat)
      (s.finish m ccAborted body).modPort n (fun p => { p with scanMbx := none })
    | none => s

/-- Whether two times lie in one cycle of the lane parallel domain, 1.0 GHz (R51). -/
def sameLaneCycle (a b : Nat) : Bool := a * 5 / 24 == b * 5 / 24

/-- Both ends have agreed and the retry buffer is empty: 4 EIOS go out and the lanes enter the target state (R135, R67), unless the
partner's exit pattern or squelch activity is detected in that cycle (R69). [DEDUCED, notes/assumptions/69.md] -/
def tryEnter (n : Nat) (s : State) : State :=
  match (s.port n).shake with
  | .agreed parked =>
    if (s.port n).retry.held.isEmpty then
      if (match (s.port n).exitSeen with | some t => sameLaneCycle t s.now | none => false) then
        s.modPort n (fun p => { p with shake := .idle, shakeDeadline := none })
      else
        let s := endScans n (s.modPort n (fun p => { p with shake := .idle, shakeDeadline := none, exitFrom := none,
                                                            enteredAt := some s.now, train := { p.train with gotExit := 0 } }))
        if parked then
          ((lanesTo n 0xFF laParked s).setLink n lsParked).wr (Fld.PRT_PHY_STAT_PLL_LOCK n) 0
        else (lanesTo n (s.active n) laCoast s).setLink n lsCoast
    else s
  | .idle => s
  | .asked _ => s

/-- The partner's exit pattern or squelch activity comes in the cycle in which a port entered coast or parked by a handshake: the
entry is abandoned and the lanes are active (R69). -/
def abandonEntry (n : Nat) (s : State) : State :=
  let s := s.modPort n (fun p => { p with enteredAt := none, idleSince := s.now })
  ((lanesTo n (s.active n) laActive s).setLink n lsUp).wr (Fld.PRT_PHY_STAT_PLL_LOCK n) 1

/-- Whether a port entered coast or parked in the present cycle (R69). -/
def State.justEntered (s : State) (n : Nat) : Bool :=
  (s.link n == lsCoast || s.link n == lsParked) && (match (s.port n).enteredAt with | some t => sameLaneCycle t s.now | none => false)

/-- A POWER request is answered as soon as the retry buffer has room (R117, R135): declined on the cadence port (R71), while a
request of this end is open, and for a TARGET that the rule does not define; else accepted, the flits received acknowledged first
(R136). [DEDUCED, notes/assumptions/70.md] -/
def answerPower (n : Nat) (s : State) : State :=
  match (s.port n).powerAsk with
  | some target =>
    if s.hasRoom n then
      let s := s.modPort n (fun p => { p with powerAsk := none })
      if s.isCadPort n ∨ 2 ≤ target ∨ (s.port n).shake ≠ .idle then sendControl n [encPower 2 target] s
      else
        let s := sendControl n [encPower 1 target] (sendAck n s)
        tryEnter n (s.modPort n (fun p => { p with shake := .agreed (target == 1), shakeDeadline := none }))
    else s
  | none => s

/-! ## What waits for the transmitter -/

/-- Sends a due TURN slot (R133, R235). -/
def sendTurn (n : Nat) (s : State) : State :=
  match (s.port n).turnDue with
  | none => s
  | some t0 =>
    if s.canSend n then
      let late := (s.now - t0) / tFab
      let slot := encTurn s.cad.turn.toNat (if late ≤ 4094 then late else 0xFFF)
      sendControl n [slot] (s.modPort n (fun p => { p with turnDue := none }))
    else s

/-- Sends what has waited for a place in the retry buffer: a TURN slot, the answer to a POWER request, then CREDIT slots that are
due. -/
def pump (n : Nat) (s : State) : State :=
  let s := answerPower n (sendTurn n s)
  forUpto 4 (fun tc a =>
    let c := (a.port n).credit
    if decide (8 ≤ tabGet 0 c.ret tc) || decide (8 ≤ tabGet 0 c.ret (4 + tc)) || decide (8 ≤ tabGet 0 c.ret (8 + tc)) ||
       (match tabGet none c.retAt tc with | some t => decide (t ≤ a.now) | none => false)
    then sendCredit n tc a else a) s

/-! ## Entry into Hold (R690, R691) -/

/-- Lanes park, the lane PLL is off, and no recovery link runs (R66, R86). -/
def parkLanes (n : Nat) (s : State) : State :=
  let s := forUpto 8 (fun p a => a.modLane n p (fun l => { l with exitDeadline := none })) s
  ((lanesTo n 0xFF laParked s).wr (Fld.PRT_PHY_STAT_PLL_LOCK n) 0).wr (Fld.PRT_PHY_STAT_RECOVERY n) 0

/-- Every port asked for Hold has answered: POWER_SET completes, for Sleep later (R692 step 3), and the pavilions drain (R690
steps 5 to 7). -/
def holdReady (s : State) : State :=
  match s.power.trans with
  | .enter sleep mbx asked answered =>
    if answered = asked then
      let s := if sleep then s else s.finish mbx ccOk []
      let s := { s with power := { s.power with trans := .draining sleep } }
      let s := forUpto 32 (fun p a => a.modPav p (fun v => { v with drain := .power })) s
      forUpto 16 (fun n a =>
        if (a.port n).shake ≠ .idle then a
        else
          let a := parkLanes n (endScans n a)
          if a.link n = lsDown ∨ a.link n = lsIdle ∨ a.link n = lsParked then a
          else
            let held := (a.port n).train.hasLink
            (a.modTrain n (fun t => { t with deadline := none, retryAt := none, relock := false, fallbackAt := none, recovEnd := none,
                                             fullAt := none })).setLink n (if held then lsParked else lsDown)) s
    else s
  | .none_ => s
  | .draining _ => s
  | .waking _ => s

/-- The exit of a parked port begins (R67): PLL, CDR and equaliser lock under the 100 µs watchdog of R68. -/
def startParkedExit (n : Nat) (s : State) : State :=
  forUpto 8 (fun p a =>
    if bitAt (a.active n) p then
      laneTo n p laTraining (a.modLane n p (fun l => { l with exitDeadline := some (a.now + 100 * tUs), exitParked := true }))
    else a) (s.wr (Fld.PRT_PHY_STAT_PLL_LOCK n) 1)

/-- The 256 ns watchdog of R68 starts for every active lane still in coast: the exit of the port has begun at either end. -/
def armCoastExit (n : Nat) (s : State) : State :=
  forUpto 8 (fun p a =>
    if bitAt (a.active n) p && (a.lane n p).exitDeadline.isNone && a.rd (Fld.PRT_LANE_STAT_STATE n p) == laCoast then
      a.modLane n p (fun l => { l with exitDeadline := some (a.now + tNs 256), exitParked := false })
    else a) s

/-- The stack begins to send EXIT on a coasting port (R136 steps 1 and 2). -/
def sendExit (n : Nat) (s : State) : State :=
  s.modPort n (fun p => { p with exitFrom := match p.exitFrom with | some t => some t | none => some s.now })

/-- The stack's own exit of a coasting port begins (R136): EXIT is sent under the 256 ns watchdog of R68. -/
def startCoastExit (n : Nat) (s : State) : State := armCoastExit n (sendExit n s)

/-- A port declined, or did not answer, the stack's request to park for Hold: the entry is abandoned (R691). -/
def holdAbandon (n : Nat) (s : State) : State :=
  match s.power.trans with
  | .enter _ mbx _ _ =>
    let s := { s with power := { s.power with trans := .none_, noDispatch := s.parked } }
    let s := (s.wr Fld.GLB_PWR_STAT_TRANS 0).finish mbx ccBusy []
    let s := (s.wr Fld.GLB_PWR_STAT_DECLINED 1).wr Fld.GLB_PWR_STAT_DECLINE_PORT n
    forUpto 16 (fun k a =>
      let a := a.modPort k (fun p => { p with shake := .idle, shakeDeadline := none })
      if a.link k = lsParked then startParkedExit k a else a) s
  | .none_ => s
  | .draining _ => s
  | .waking _ => s

/-- A port accepted the stack's request to park for Hold (R690 step 5). -/
def holdAnswered (n : Nat) (s : State) : State :=
  match s.power.trans with
  | .enter sleep mbx asked answered =>
    holdReady { s with power := { s.power with
      trans := .enter sleep mbx asked (BitVec.ofNat 16 (bitPut answered.toNat n true)) } }
  | .none_ => s
  | .draining _ => s
  | .waking _ => s

/-- Takes a POWER slot (R135): a request waits for its answer; an answer ends the request this end has open. -/
def takePower (n kind target : Nat) (s : State) : State :=
  if kind = 0 then answerPower n (s.modPort n (fun p => { p with powerAsk := some target }))
  else
    match (s.port n).shake with
    | .asked parked =>
      if kind = 1 then
        let s := s.modPort n (fun p => { p with shake := .agreed parked, shakeDeadline := none })
        let s := if parked then holdAnswered n s else s
        tryEnter n s
      else if kind = 2 then
        let s := s.modPort n (fun p => { p with shake := .idle, shakeDeadline := none })
        let s := if parked then holdAbandon n s else s
        pump n s
      else s
    | .idle => s
    | .agreed _ => s

/-! ## Acknowledgement and replay -/

/-- Frees `k` of the oldest held flits; the replay timer restarts or stops (R116, R120). What has waited for the room goes out
afterwards (`pump`): a replay goes first (R119). -/
def freeHeld (n k : Nat) (s : State) : State :=
  if k = 0 then s
  else
    let s := s.modRetry n (fun r =>
      let h := r.held.drop k
      { r with held := h, expiries := 0, replayAt := if h.isEmpty then none else some (s.now + tUs) })
    tryEnter n (s.wr (Fld.PRT_LINK_SEQ_TX_OLDEST n) ((s.txOldest n + k) % 1024))

/-- Frees what an ACK names (R116), for a replay to follow. -/
def freeAcked (n seq : Nat) (s : State) : State :=
  let w := (seq + 1024 - s.txOldest n + 1) % 1024
  if w ≤ (s.txNext n + 1024 - s.txOldest n) % 1024 then freeHeld n w s else protoError n s

/-- Applies an ACK (R116). -/
def applyAck (n seq : Nat) (s : State) : State :=
  let w := (seq + 1024 - s.txOldest n + 1) % 1024
  if w = 0 then s else if w ≤ (s.txNext n + 1024 - s.txOldest n) % 1024 then pump n (freeHeld n w s) else protoError n s

/-! ## Recovery (R121 to R125) -/

/-- The equaliser settings of the link are remembered: a recovery at an unchanged rate keeps them (R104). -/
def holdEq (n : Nat) (s : State) : State :=
  forUpto 8 (fun p a => a.modLane n p (fun l => { l with eqHeld := a.reg (Off.PRT_LANE_TXEQ n p) })) s

/-- The port enters recovery from LINK_UP (R121, R124): `full` when full training will follow. -/
def enterRecovery (n cause : Nat) (full : Bool) (s : State) : State :=
  if s.up n then
    let s := (s.sat (Fld.PRT_LINK_STAT_RECOV_CNT n)).raise (evPort n 8) cause
    let s := s.modPort n (fun p => { p with
      shake := .idle
      shakeDeadline := none
      powerAsk := none
      train := { p.train with
        recov := true
        full := full
        got1 := 0
        got1seen := 0
        got2 := 0
        gotSds := 0
        gotEios := 0
        fallbackAt := some (s.now + 20 * tUs)
        recovEnd := some (s.now + 2 * tMs)
        fullAt := if full then some (s.now + 4 * tUs) else none
        awaitNull := false } })
    endScans n (lanesTo n (s.active n) laTraining ((holdEq n s).setLink n lsRecovery))
  else if s.link n = lsRecovery ∧ full = true then
    s.modTrain n (fun t => { t with full := true, fullAt := some (match t.fullAt with | some x => x | none => s.now + 4 * tUs) })
  else s

/-! ## Training (R101 to R106) -/

/-- Whether a port may train: enabled, not disabled, not LINK_DIS, not marked down, no lane in a test state, and the stack
in Run or Rest past the lock of the core PLLs and outside the logic, TSV and lane tests (R67, R73, R126, R697, R699, R725). -/
def State.mayTrain (s : State) (n : Nat) : Bool :=
  s.portEnabled n && s.role n != 2 && !(s.port n).pllLost && !s.on (Fld.PRT_LINK_CTRL_LINK_DIS n) && !(s.port n).markedDown &&
    (List.range 8).all (fun p => s.rd (Fld.PRT_LANE_CTRL_TEST_STATE n p) == 0) && decide (s.rd Fld.GLB_PWR_STAT_STATE < 2) &&
    s.test.step != 2 && s.test.step != 3 && s.power.drain.isNone &&
    (match s.power.boot with
     | .off => false
     | .reading _ => false
     | .cold => false
     | .pll _ => false
     | .failed => false
     | .dram _ => true
     | .certWindow => true
     | .certCheck => true
     | .test => true
     | .finish => true
     | .done => true)

/-- T_LOCK is entered at 8 Gb/s with preset 0, on all positions (R101). In recovery the link state is kept, and a lane graded
failing stays out; a full training that brings a link up tries it again (R48, R125). [DEDUCED, notes/assumptions/14.md] -/
def enterLock (n : Nat) (recov : Bool) (s : State) : State :=
  let s := s.modTrain n (fun t => { t with
    attempt := t.attempt + 1
    locked := 0
    got1 := 0
    got1seen := 0
    got2 := 0
    gotSds := 0
    gotEios := 0
    pRates := 0
    pUsable := 0
    pX1 := false
    deadline := some (s.now + 100 * tUs)
    retryAt := none
    relock := false
    recov := recov
    fullAt := none
    fallbackAt := none
    cap := if recov then t.cap else 4
    maxRate := s.rd (Fld.PRT_PHY_CTRL_MAX_RATE n) })
  let s := ((setRate n 0 (s.wr (Fld.PRT_PHY_STAT_PLL_LOCK n) 1)).wr (Fld.PRT_PHY_STAT_RECOVERY n) 0).setLink n lsLock
  forUpto 8 (fun p a =>
    let a := ((a.wr (Fld.PRT_LANE_TXEQ_PRESET n p) 0).wr (Fld.PRT_LANE_TXEQ_PRE n p) 0).wr (Fld.PRT_LANE_TXEQ_POST n p) 0
    let a := if !recov && a.rd (Fld.PRT_LANE_STAT_HEALTH n p) == 2 then a.wr (Fld.PRT_LANE_STAT_HEALTH n p) 0 else a
    let a := (laneTo n p laTraining (a.wr (Fld.PRT_LANE_STAT_USABLE n p) 0))
    a.modLane n p (fun l => { l with exitDeadline := none, presetEnd := none })) s

/-- Training starts, when the port may train (R101). -/
def startTraining (n : Nat) (s : State) : State := if s.mayTrain n then enterLock n false s else s

/-- A training attempt failed: a new one follows after 1 ms (R101); in recovery the 2 ms limit still runs.
[DESIGN CHOICE, notes/assumptions/13.md] -/
def trainingFailed (n cause : Nat) (s : State) : State :=
  let s := s.wr (Fld.PRT_LINK_STAT_CAUSE n) cause
  let s := s.modTrain n (fun t => { t with deadline := none, relock := false, retryAt := some (s.now + tMs) })
  s.setLink n (if (s.port n).train.recov && (s.port n).train.hasLink then lsRecovery else lsIdle)

/-- A retune ends without success when the link goes down (R467). -/
def endRetune (n : Nat) (s : State) : State :=
  match (s.port n).retune with
  | some m =>
    let s := if s.rd (Fld.PRT_CAL_STAT_STATE n) = 3 then s else s.wr (Fld.PRT_CAL_STAT_STATE n) 0
    (s.finish m ccAborted []).modPort n (fun p => { p with retune := none })
  | none => s

/-- The credits of a relayed response slot, and of data slots, go back on the peer port they came in on (R226). -/
def rspLeaves (via : Option Nat) (tc rsp dat : Nat) (s : State) : State :=
  match via with
  | some e => giveBack e tc 1 dat (giveBack e tc 2 rsp s)
  | none => s

/-- Makes a response of port n ready; of a link that has gone down it is discarded and counted (R194). -/
def pushReady (n : Nat) (r : ReadyRsp) (dead : Bool) (s : State) : State :=
  if dead then rspLeaves r.via r.slot.tc.toNat 1 r.data.length (s.sat (Fld.PRT_TXN_LOST_LOST n)) else s.modPort n (fun p => { p with ready := p.ready ++ [r] })

/-- The CMP of a request (R172): bits [36:31] name the request's opcode. -/
def cmpOf (t : Txn) (status : BitVec 4) (peer : Bool) : RspSlot :=
  { hop := if peer then slotHop t.slot else 0
    src := if peer then slotSrc t.slot else 0
    status := status
    tc := slotTc t.slot
    tag := slotTag t.slot
    spec := BitVec.ofNat 49 (slotOp t.slot) }

/-- Queues the CMP that answers a transaction and marks it answered. -/
def answerCmp (n : Nat) (t : Txn) (status : BitVec 4) (s : State) : State :=
  pushReady n { op := 0x21, slot := cmpOf t status (s.role n == 1), data := [], serial := t.serial, final := true } t.dead s

/-- A forwarded request ends without an answer from its path: PATH_DOWN toward its ingress (R230 to R232).
[DEDUCED, notes/assumptions/24.md] -/
def pathDown (ingress serial : Nat) (s : State) : State :=
  match (s.port ingress).txns.find? (fun t => t.serial == serial) with
  | none => s
  | some t =>
    let s := if t.dead then s else s.sat (Fld.PRT_POOL_REFUSED_PATH_DOWN ingress)
    let s := answerCmp ingress t stPathDown s
    if t.dead then s.modPort ingress (fun p => { p with txns := p.txns.filter (fun x => x.serial != serial) }) else s

/-- The egress link is down: every request holding a context on it completes PATH_DOWN, and the contexts are free (R231).
[DEDUCED, notes/assumptions/24.md] -/
def egressDown (n : Nat) (s : State) : State :=
  let cs := (s.port n).ctxs
  let s := s.modPort n (fun p => { p with ctxs := [], relay := [] })
  cs.foldl (fun a c =>
    if c.quarantined || (a.port c.ingress).ready.any (fun r => r.serial == c.serial && r.final) then a
    else pathDown c.ingress c.serial a) s

/-- What a link down does to the transactions of the port (R126, R194, R226, R233): tags are freed, responses not sent are discarded
and counted, with their contexts and credits on a peer port, what was dispatched goes on without an answer, and the rest is
discarded, fences with it. -/
def dropTxns (n : Nat) (s : State) : State :=
  let p := s.port n
  let lost := p.ready.length
  let answered := (p.ready.filter (fun r => r.final)).map (fun r => r.serial)
  let keep := p.txns.filter (fun t => !answered.contains t.serial && t.owed == 0 && t.refused.isNone && slotOp t.slot != 0x14 &&
    (t.dispatched || (t.forwarded.isNone && decide (0 < t.handed))))
  let s := s.setPort n { p with
    ready := []
    txData := []
    fences := []
    fwd := []
    owedQ := []
    txns := keep.map (fun t => { t with dead := true, holdsTag := false }) }
  let s := s.sat (Fld.PRT_TXN_LOST_LOST n) lost
  let s := forUpto 16 (fun e a => a.modPort e (fun q => { q with
    ctxs := q.ctxs.filter (fun c => c.quarantined || c.ingress != n || !answered.contains c.serial) })) s
  let s := p.ready.foldl (fun a r => rspLeaves r.via r.slot.tc.toNat 1 r.data.length a) s
  p.txData.foldl (fun a d => rspLeaves d.via d.tc.toNat 0 1 a) s

/-- The link goes down with a cause (R126); the port retrains unless LINK_DIS is 1 or it is marked down. PRT_PHY_STAT keeps the
ACTIVE, WIDTH and RATE of the link that was. [DESIGN CHOICE, notes/assumptions/71.md] -/
def linkDown (n cause : Nat) (s : State) : State :=
  let was := (s.port n).train.hasLink
  let s := s.wr (Fld.PRT_LINK_STAT_CAUSE n) cause
  let s := if was then s.raise (evPort n 7) cause else s
  let s := dropTxns n s
  let s := egressDown n s
  let s := endRetune n (endScans n s)
  let s := s.modPort n (fun p => { p with
    retry := { Retry.reset with lastLimit := p.retry.lastLimit, noMarkerUntil := p.retry.noMarkerUntil }
    credit := Credit.reset
    shake := .idle
    shakeDeadline := none
    powerAsk := none
    exitFrom := none
    exitSeen := none
    enteredAt := none
    turnDue := none
    delayed := p.delayed.map (fun d => if d.due.isNone then { d with after := none, due := some (s.now + tNs 100) } else d)
    train := { p.train with hasLink := false, recov := false, full := false, got1 := 0, gotExit := 0, deadline := none, retryAt := none,
                            fallbackAt := none, recovEnd := none, fullAt := none, relock := false, awaitNull := false } })
  let s := forUpto 4 (fun tc a => (a.setReg (Off.PRT_CREDIT_TX_TC n tc) 0).setReg (Off.PRT_CREDIT_RX_TC n tc) 0) s
  let s := s.setReg (Off.PRT_LINK_SEQ n) 0
  let s := if s.isCadPort n then cadSeek 2 s else s
  let s := (parkLanes n s).setLink n lsDown
  startTraining n s

/-- The port is marked down (R48, R102) with a cause. -/
def markDown (n cause : Nat) (s : State) : State :=
  let s := s.modPort n (fun p => { p with markedDown := true })
  if (s.port n).train.hasLink then linkDown n cause (s.wr (Fld.PRT_PHY_STAT_DOWN n) 1)
  else
    let s := (s.wr (Fld.PRT_PHY_STAT_DOWN n) 1).wr (Fld.PRT_LINK_STAT_CAUSE n) cause
    let s := s.modTrain n (fun t => { t with deadline := none, retryAt := none, relock := false })
    (parkLanes n s).setLink n lsDown

/-- E is asked for with a REPLAY; the fourth request in a row for one E starts recovery (R118, R121).
[DEDUCED, notes/assumptions/16.md] -/
def askReplay (n : Nat) (s : State) : State :=
  let s := requestReplay n s
  match (s.port n).retry.sameAsk with
  | some (_, k) => if 4 ≤ k then enterRecovery n 1 false (s.modRetry n (fun r => { r with sameAsk := none })) else s
  | none => s

/-- Recovery with cause REPLAY_LIMIT, one rate lower when it is the second within 100 ms at this rate and width (R122); at the lowest
rate the port is marked down. [DEDUCED, notes/assumptions/16.md; DESIGN CHOICE, notes/assumptions/73.md] -/
def recoverLimit (n : Nat) (s : State) : State :=
  let r := (s.port n).retry
  let rate := s.rd (Fld.PRT_PHY_STAT_RATE n)
  let w := s.rd (Fld.PRT_PHY_STAT_WIDTH n)
  let again := match r.lastLimit with
    | some (t, r0, w0) => decide (s.now ≤ t + 100 * tMs) && r0 == rate && w0 == w
    | none => false
  let s1 := s.modRetry n (fun q => { q with lastLimit := if again then none else some (s.now, rate, w) })
  if again then
    if rate = 0 then markDown n 9 s1 else enterRecovery n 2 true (s1.modTrain n (fun t => { t with cap := rate - 1 }))
  else enterRecovery n 2 false s1

/-- A REPLAY is received (R119): the held flits from SEQ go out again, or nothing is asked for, or the link goes down. -/
def startReplay (n seq : Nat) (s : State) : State :=
  let s := touch n (s.sat (Fld.PRT_LINK_ERR_REPLAY_RX n))
  let s := s.modRetry n (fun r => { r with
    rxTimes := r.rxTimes.filter (fun t => decide (s.now < t + tMs)) ++ [s.now] })
  let d := (seq + 1024 - s.txOldest n) % 1024
  let out := (s.txNext n + 1024 - s.txOldest n) % 1024
  if out < d then linkDown n 6 s
  else
    let s := if d < out then pump n (resend n (freeHeld n d s)) else s
    let cnt := (s.port n).retry.rxTimes.length
    if s.rd (Fld.PRT_LINK_CTRL_REPLAY_LIMIT n) < cnt then
      recoverLimit n (s.raise (evPort n 10) (min 255 cnt))
    else s

/-- Raises the event of a lower rate or narrower width than the previous link had (R137). -/
def noteReduced (n : Nat) (s : State) : State :=
  let t := (s.port n).train
  let r := s.rd (Fld.PRT_PHY_STAT_RATE n)
  let w := s.rd (Fld.PRT_PHY_STAT_WIDTH n)
  let s := if t.everUp && (decide (r < t.prevRate) || decide (t.prevWidth < w)) then s.raise (evPort n 9) (r + 8 * w) else s
  s.modTrain n (fun t => { t with prevRate := r, prevWidth := w, everUp := true })

/-- LINK_UP is reached after full training with RECOV = 0 (R112, R129, R137). -/
def linkUpFresh (n : Nat) (s : State) : State :=
  let s := s.modPort n (fun p => { p with
    retry := { Retry.reset with lastLimit := p.retry.lastLimit, noMarkerUntil := p.retry.noMarkerUntil }
    credit := Credit.reset
    idleSince := s.now
    train := { p.train with hasLink := true, recov := false, got1 := 0, deadline := none, retryAt := none, recovEnd := none,
                            awaitNull := false, cap := 4 } })
  let s := s.setReg (Off.PRT_LINK_SEQ n) 0
  let peer := s.role n == 1
  let s := forUpto 4 (fun tc a =>
    forUpto 3 (fun k b => b.wr (fldRx n tc k) (initGrant peer tc k)) (a.setReg (Off.PRT_CREDIT_TX_TC n tc) 0)) s
  let s := (lanesTo n (s.active n) laActive s).setLink n lsUp
  let s := s.raise (evPort n 6) (s.rd (Fld.PRT_PHY_STAT_RATE n) + 8 * s.rd (Fld.PRT_PHY_STAT_WIDTH n))
  let s := noteReduced n s
  let ini (tc : Nat) : BitVec 80 := encCredit {
    rsp := BitVec.ofNat 10 (initGrant peer tc 2), dat := BitVec.ofNat 10 (initGrant peer tc 1),
    req := BitVec.ofNat 10 (initGrant peer tc 0), init := true, tc := BitVec.ofNat 2 tc }
  sendControl n [ini 0, ini 1, ini 2, ini 3] s

/-- LINK_UP is reached again at the end of a recovery (R123 step 3); a retune completes with it (R465). The rows of replay-timer
expiries and of REPLAYs for one E (R121) begin again. [DESIGN CHOICE, notes/assumptions/72.md] -/
def linkUpAgain (n : Nat) (s : State) : State :=
  let s := s.modPort n (fun p => { p with
    idleSince := s.now,
    retry := { p.retry with askedFor := none, askAgainAt := none, expiries := 0, sameAsk := none,
                            noMarkerUntil := max p.retry.noMarkerUntil (s.now + s.replaySpan n) },
    train := { p.train with recov := false, full := false, got1 := 0, deadline := none, retryAt := none, fallbackAt := none,
                            recovEnd := none, fullAt := none, awaitNull := !p.retry.held.isEmpty, cap := 4 } })
  let s := noteReduced n ((lanesTo n (s.active n) laActive s).setLink n lsUp)
  let s := sendAck n s
  match (s.port n).retune with
  | some m =>
    if s.rd (Fld.PRT_CAL_STAT_STATE n) = 2 then
      let s := ((s.sat (Fld.PRT_CAL_STAT_RETUNES n)).wr (Fld.PRT_CAL_STAT_STATE n) 0).raise (968 + 26) n
      (s.finish m ccOk [BitVec.ofNat 8 (s.rd (Fld.PRT_PHY_STAT_RATE n)), BitVec.ofNat 8 (s.rd (Fld.PRT_PHY_STAT_WIDTH n))]).modPort
        n (fun p => { p with retune := none })
    else s
  | none => s

/-- SDS have come on every active lane: LINK_UP (R101, R123). -/
def linkUp (n : Nat) (s : State) : State :=
  if (s.port n).train.recov && (s.port n).train.hasLink then linkUpAgain n s else linkUpFresh n s

/-- T_START is entered: SDS are sent (R101), and the flits that follow begin on active lane 0 (R105). -/
def enterStart (n : Nat) (s : State) : State :=
  (s.modPort n (fun p => { p with
    sdsMark := p.txLog.length
    train := { p.train with deadline := some (s.now + 10 * tUs), gotSds := 0 } })).setLink n lsStart

/-- The lanes take back the equaliser settings of the link whose recovery trains at its rate again (R104). -/
def keepEq (n : Nat) (s : State) : State :=
  forUpto 8 (fun p a => a.setReg (Off.PRT_LANE_TXEQ n p) (a.lane n p).eqHeld) s

/-- Whether a training at a rate code keeps the presets in use: within recovery, at the rate of the link, with no retune (R104,
R465). [DEDUCED, notes/assumptions/14.md] -/
def State.keepsEq (s : State) (n code : Nat) : Bool :=
  (s.port n).train.recov && (s.port n).train.hasLink && (s.port n).train.prevRate == code && (s.port n).retune.isNone

/-- T_RATE is entered at a rate code (R101, R104): the lane PLL relocks at it; presets are kept at an unchanged rate, unless the
port retunes. -/
def enterRate (n code : Nat) (s : State) : State :=
  let keep := s.keepsEq n code
  let s := (setRate n code s).wr (Fld.PRT_PHY_STAT_PLL_LOCK n) 0
  let s := s.modTrain n (fun t => { t with deadline := some (s.now + 200 * tUs), relock := true, got1 := 0, got1seen := 0,
                                           got2 := 0, gotSds := 0 })
  let s := forUpto 8 (fun p a =>
    a.modLane n p (fun l => { l with presetNow := 0, presetBest := none, presetsDone := keep, presetEnd := none })) s
  (if keep then keepEq n s else s).setLink n lsRate

/-- T_RATE or T_VERIFY failed: the next lower rate both ends have, or the port is marked down with a cause (R102).
[DESIGN CHOICE, notes/assumptions/73.md] -/
def fallBack (n cause : Nat) (s : State) : State :=
  let t := (s.port n).train
  match highestRate (s.ownRates n) t.pRates.toNat (s.rd (Fld.PRT_PHY_STAT_RATE n)) with
  | some c => enterRate n c s
  | none => markDown n cause s

/-- The lanes of a mask are deskewed by the arrival of their alignment markers (R65): one more than 64 UI behind the earliest fails
training, the others are delayed until the latest of them. -/
def deskew (n mask : Nat) (s : State) : State :=
  let at_ (p : Nat) : Nat := (s.lane n p).arrival
  let ps := positions mask
  let first := ps.foldl (fun a p => min a (at_ p)) ((ps.map at_).headD 0)
  let good := ps.filter (fun p => decide (at_ p ≤ first + 64))
  let last := good.foldl (fun a p => max a (at_ p)) 0
  ps.foldl (fun a p =>
    if good.contains p then a.modLane n p (fun l => { l with deskew := last - l.arrival })
    else a.wr (Fld.PRT_LANE_STAT_USABLE n p) 0) s

/-- The end of T_CONFIG, deskew done: rate and width are decided (R102, R103, R106). Where the two ends share no rate code the port
is marked down. [DESIGN CHOICE, notes/assumptions/73.md] -/
def configDone (n : Nat) (s : State) : State :=
  let t := (s.port n).train
  let both := (BitVec.ofNat 8 (s.usable n) &&& t.pUsable).toNat
  if n = 0 ∧ ((t.x1 = true ∧ t.pX1 = true) ∨ (pickActive both = none ∧ bitAt both 0 = true)) then
    let s := (s.wr (Fld.PRT_PHY_STAT_ACTIVE n) 1).wr (Fld.PRT_PHY_STAT_WIDTH n) 3
    enterStart n (lanesTo n 0xFE laParked (s.wr (Fld.PRT_PHY_STAT_RECOVERY n) 1))
  else
    match pickActive both with
    | none => markDown n 9 s
    | some (w, act) =>
      if s.rd (Fld.PRT_PHY_CTRL_MIN_WIDTH n) < w then markDown n 9 s
      else
        let s := ((s.wr (Fld.PRT_PHY_STAT_ACTIVE n) act).wr (Fld.PRT_PHY_STAT_WIDTH n) w).wr (Fld.PRT_PHY_STAT_RECOVERY n) 0
        let s := lanesTo n (255 - act) laParked s
        match highestRate (s.ownRates n) t.pRates.toNat (t.cap + 1) with
        | none => markDown n 9 s
        | some 0 => enterStart n (if s.keepsEq n 0 then keepEq n s else s)
        | some (c + 1) => enterRate n (c + 1) s

/-- Whether a lane comes out of T_LOCK usable: it has locked and received its TS1 (R101), failed no lane test and is not graded
failing (R48). -/
def State.lockUsable (s : State) (n p : Nat) : Bool :=
  let t := (s.port n).train
  t.locked.getLsbD p && t.got1.getLsbD p && !(s.lane n p).bad && s.rd (Fld.PRT_LANE_STAT_HEALTH n p) != 2

/-- T_CONFIG is entered with the usable lanes (R101, R48). -/
def enterConfig (n : Nat) (s : State) : State :=
  let s := forUpto 8 (fun p a => a.wr (Fld.PRT_LANE_STAT_USABLE n p) (b2n (a.lockUsable n p))) s
  let out := BitVec.ofNat 8 (255 - s.usable n)
  (s.modTrain n (fun t => { t with deadline := some (s.now + 50 * tUs), reachedConfig := true, lanesOut := out, got2 := 0 })).setLink
    n lsConfig

/-- T_VERIFY is entered (R101). -/
def enterVerify (n : Nat) (s : State) : State :=
  (s.modTrain n (fun t => { t with deadline := some (s.now + 50 * tUs), got2 := 0 })).setLink n lsVerify

/-- T_RATE ends when every active lane has evaluated its presets and received TS1 with SEEN = 1 (R101). -/
def rateCheck (n : Nat) (s : State) : State :=
  let t := (s.port n).train
  if s.link n = lsRate ∧ t.relock = false ∧
      (List.range 8).all (fun p => !bitAt (s.active n) p || (t.got1seen.getLsbD p && (s.lane n p).presetsDone)) = true
  then enterVerify n s else s

/-- Whether a mask of positions covers another. -/
def covers (m act : Nat) : Bool := (List.range 8).all (fun p => !bitAt act p || bitAt m p)

/-- The PRE and POST of a transmitter preset (R58). -/
def presetTaps (k : Nat) : Nat × Nat :=
  match k with
  | 0 => (0, 0)
  | 1 => (0, 4)
  | 2 => (0, 8)
  | 3 => (0, 12)
  | 4 => (4, 0)
  | 5 => (4, 8)
  | 6 => (6, 12)
  | _ => (8, 16)

/-- The stack applies a preset the partner requested (R58, R104). -/
def applyPreset (n p k : Nat) (s : State) : State :=
  ((s.wr (Fld.PRT_LANE_TXEQ_PRESET n p) k).wr (Fld.PRT_LANE_TXEQ_PRE n p) (presetTaps k).1).wr
    (Fld.PRT_LANE_TXEQ_POST n p) (presetTaps k).2

end Sys2Proof.Machine
end

