-- ==== Sys2Proof/Machine/Monitor.lean ====
section
/-! DEFINITION. The latency and level monitors and telemetry (R559 to R570): samples, windows, snapshots, queued messages. -/
namespace Sys2Proof.Machine
open Sys2Proof

/-- The greatest value of a 32-bit accumulator. -/
def acc32 : Nat := 0xFFFFFFFF
/-- The greatest value of a 64-bit accumulator. -/
def acc64 : Nat := 0xFFFFFFFFFFFFFFFF

/-- The bin of a latency under a MON_BIN value (R562). -/
def monBin (bin : Reg32) (lat : Nat) : Nat :=
  let base := bitsOf bin.toNat 0 16
  let shift := bitsOf bin.toNat 16 5
  let d := if base < lat then lat - base else 0
  if bitAt bin.toNat 21 then (if d < 2 ^ shift then 0 else min (Nat.log2 d - shift + 1) 31)
  else min (d / 2 ^ shift) 31

/-- A latency enters the accumulators of a unit (R562). -/
def accLatency (bin : Reg32) (lat0 : Nat) (a : MonAcc) : MonAcc :=
  let lat := min lat0 acc32
  let b := monBin bin lat
  { a with
    count := min acc32 (a.count + 1)
    sum := min acc64 (a.sum + lat)
    min := min a.min lat
    max := max a.max lat
    bins := tabSet 0 a.bins b (min acc32 (tabGet 0 a.bins b + 1)) }

/-- Whether the clock of a unit runs: its pavilion or the fabric (R567). -/
def State.monClock (s : State) (u : Nat) : Bool :=
  decide (s.rd Fld.GLB_PWR_STAT_STATE < 2) && (decide (32 ≤ u) || !(s.pav u).gated)

/-- A unit measures a latency when its configuration selects it: class, kind (write or read), and for a port unit whether
the request was forwarded (R560, R561). -/
def monSample (u lat tc : Nat) (write : Bool) (fwd : Option Bool) (s : State) : State :=
  let m := s.mon u
  let c := m.ctrl.toNat
  let kind := bitsOf c 12 2
  let scope := bitsOf c 16 2
  let sel := bitAt c 0 && bitAt (bitsOf c 4 4) tc && (kind == 2 || kind == b2n write) &&
    (match fwd with | some f => scope == 0 || (if f then scope == 2 else scope == 1) | none => true)
  if sel && s.monClock u then s.setMon u { m with acc := accLatency m.bin lat m.acc } else s

/-- The entries of a pavilion's neighbour queue. -/
def State.neighOcc (s : State) (p : Nat) : Nat := (s.pav p).neigh.length

/-- DEBT of a rank (R336). -/
def fldDebt (p r : Nat) : Fld :=
  if r = 0 then Fld.PAV_REF_STAT_DEBT_0 p else if r = 1 then Fld.PAV_REF_STAT_DEBT_1 p
  else if r = 2 then Fld.PAV_REF_STAT_DEBT_2 p else Fld.PAV_REF_STAT_DEBT_3 p

/-- Whether a line is a plain read. -/
def LineOp.isRead : LineOp → Bool
  | .read => true
  | .write _ _ => false
  | .masked _ _ => false
  | .atomic _ _ _ _ => false

/-- Whether a line is an atomic. -/
def LineOp.isAtomic : LineOp → Bool
  | .read => false
  | .write _ _ => false
  | .masked _ _ => false
  | .atomic _ _ _ _ => true

/-- The request-table entries in use (R268, R286): a line leaves the table with its last command. -/
def State.reqUsed (s : State) (p : Nat) : Nat :=
  ((s.pav p).ents.filter (fun e => e.host && !(e.st == .flying && e.req.op.isRead))).length

/-- The write-buffer lines in use or reserved (R268, R269): buffered lines, and those of read-modify-writes under way. -/
def State.wrUsed (s : State) (p : Nat) : Nat :=
  ((s.pav p).ents.filter (fun e => e.st == .buffered || !e.req.op.isRead)).length

/-- The lines that the write buffer holds (R270): those that have entered it. -/
def State.wrHeld (s : State) (p : Nat) : Nat := ((s.pav p).ents.filter (fun e => e.st == .buffered)).length

/-- The read-return lines reserved (R269): from acceptance until the data have left. -/
def State.rdUsed (s : State) (p : Nat) : Nat :=
  ((s.pav p).ents.filter (fun e => e.host && (e.req.op.isRead || (e.req.op.isAtomic && e.st != .buffered)))).length

/-- The level a unit samples (R563). -/
def State.monLevel (s : State) (u lsel : Nat) : Nat :=
  if u < 32 then
    if lsel = 0 then s.reqUsed u
    else if lsel = 1 then s.wrUsed u
    else if lsel = 2 then s.rdUsed u
    else if lsel = 3 then (List.range 4).foldl (fun a r => max a (s.rd (fldDebt u r))) 0
    else if lsel = 4 then s.neighOcc u
    else 0
  else
    let p := s.port (u - 32)
    if lsel = 0 then p.retry.held.length
    else if lsel = 1 then (p.txns.filter (fun t => t.holdsTag)).length
    else if lsel = 2 then p.owedQ.length
    else if lsel = 3 then p.ctxs.length
    else 0

/-- Every unit samples its level at a delivered angle step (R563). -/
def monLevels (s : State) : State :=
  forUpto 48 (fun u a =>
    let m := a.mon u
    if bitAt m.ctrl.toNat 0 && a.monClock u then
      let v := a.monLevel u (bitsOf m.ctrl.toNat 20 4)
      a.setMon u { m with acc := { m.acc with
        lvlMin := min m.acc.lvlMin v
        lvlMax := max m.acc.lvlMax v
        lvlSum := min acc64 (m.acc.lvlSum + v)
        lvlN := min acc32 (m.acc.lvlN + 1) } }
    else a) s

/-- A window begins: the written configuration is taken over (R566). -/
def monBegin (u : Nat) (s : State) : State :=
  s.modMon u (fun m => { m with
    acc := MonAcc.reset
    turns := 0
    ctrl := s.reg (Off.MON_CTRL u)
    bin := s.reg (Off.MON_BIN u)
    win := s.rd (Fld.MON_WIN_WIN u)
    restart := false
    snap := false })

/-- The copy of a window's accumulators into its unit's snapshot registers (R564, R565). [DEDUCED, notes/assumptions/49.md] -/
def monCopy (u : Nat) (ts : BitVec 50) (a : MonAcc) (s : State) : State :=
  let seq := (s.rd (Fld.MON_SEQ_A_SEQ u) + 1) % 2 ^ 32
  let s := (s.wr (Fld.MON_SEQ_A_SEQ u) seq).wr (Fld.MON_SEQ_B_SEQ u) seq
  let s := (s.wr (Fld.MON_TS_LO_TS u) ts.toNat).wr (Fld.MON_TS_HI_TS u) (ts.toNat / 2 ^ 32)
  let s := ((s.wr (Fld.MON_COUNT_N u) a.count).wr (Fld.MON_MIN_LAT u) a.min).wr (Fld.MON_MAX_LAT u) a.max
  let s := (s.wr (Fld.MON_SUM_LO_SUM u) a.sum).wr (Fld.MON_SUM_HI_SUM u) (a.sum / 2 ^ 32)
  let s := if a.lvlN = 0 then
      let (v, s) := s.drawFree
      (s.wr (Fld.MON_LVL_LO u) v.toNat).wr (Fld.MON_LVL_HI u) (v.toNat / 2 ^ 16)
    else (s.wr (Fld.MON_LVL_LO u) a.lvlMin).wr (Fld.MON_LVL_HI u) a.lvlMax
  let s := (s.wr (Fld.MON_LVL_SUM_LO_SUM u) a.lvlSum).wr (Fld.MON_LVL_SUM_HI_SUM u) (a.lvlSum / 2 ^ 32)
  let s := s.wr (Fld.MON_LVL_N_N u) a.lvlN
  let s := forUpto 32 (fun i b => b.wr (Fld.MON_HIST_COUNT u i) (tabGet 0 a.bins i)) s
  s.modMon u (fun m => { m with sumHi := none, lvlHi := none })

/-- MON_SNAPSHOT commands complete once the windows they asked to end have ended at the boundary (R571); a unit whose clock
is stopped is not waited for. [DEDUCED, notes/assumptions/49.md] -/
def finishSnaps (ts : BitVec 50) (s : State) : State :=
  s.monSnapMbx.foldl (fun a e =>
    if (List.range 48).all (fun u => !e.2.getLsbD u || (!(a.mon u).snap && (a.mon u).lateTs.isNone) ||
        ((a.mon u).lateTs.isSome && (a.mon u).lateAcc.isNone && !a.monClock u)) then
      ({ a with monSnapMbx := a.monSnapMbx.erase e }).finish e.1 ccOk (leBytes 8 ts.toNat)
    else a) s

/-- The snapshot of a window that has ended is taken (R564): with EN = 0 nothing is copied, and with SINGLE = 1 EN is cleared (R566). A
window that ended while the clock was stopped gives way to the next one now (R567). -/
def monEnd (u : Nat) (s : State) : State :=
  let m := s.mon u
  match m.lateTs, m.lateAcc with
  | some ts, some a => monCopy u ts a (s.modMon u (fun x => { x with lateTs := none, lateAcc := none }))
  | some ts, none =>
    let en := bitAt m.ctrl.toNat 0
    let s := if en then monCopy u ts m.acc s else s
    let s := if en && bitAt m.ctrl.toNat 1 then s.wr (Fld.MON_CTRL_EN u) 0 else s
    monBegin u (s.modMon u (fun x => { x with lateTs := none }))
  | none, _ => s

/-- A turn boundary reaches a unit (R564, R566): a discarded window starts anew. A window of WIN + 1 turns, or one that a MON_SNAPSHOT
asked to end, ends: the next one begins at once with the written configuration, and what the ended one accumulated waits for its
snapshot with the boundary's time stamp. While the clock is stopped only the stamp is kept (R567). -/
def monTurn (u : Nat) (s : State) : State :=
  let s := if s.monClock u then monEnd u s else s
  let m := s.mon u
  let k := m.turns + 1
  if m.restart then monBegin u s
  else if decide (m.win + 1 ≤ k) || m.snap then
    (if s.monClock u then
      (if bitAt m.ctrl.toNat 0 then
        (let s := if bitAt m.ctrl.toNat 1 then s.wr (Fld.MON_CTRL_EN u) 0 else s
         monBegin u (s.modMon u (fun x => { x with lateTs := some s.stamp, lateAcc := some m.acc })))
       else monBegin u s)
     else s.setMon u { m with turns := k, lateTs := (match m.lateTs with | some t => some t | none => some s.stamp) })
  else s.setMon u { m with turns := k }

/-- A unit's window has ended (R564): its snapshot is taken. A stopped clock puts that off (R567). -/
def execMonitorWindowEnd (u : UnitId) (s : State) : Out :=
  let m := s.mon u
  match m.lateTs with
  | none => .next s
  | some ts => if s.monClock u || m.lateAcc.isSome then .next (finishSnaps ts (monEnd u s)) else .next s

/-- The window of a unit is discarded by a port or pavilion reset (R567). -/
def monDiscard (u : Nat) (s : State) : State := 
  s.modMon u (fun m => { m with restart := true, lateTs := if m.lateAcc.isSome then m.lateTs else none })

/-- The data slot of part 0 of a unit's telemetry (R569). -/
def monPart0 (s : State) (u : Nat) : List Byte :=
  let r (off : Nat) : List Byte := leBytes 4 (s.reg off).toNat
  r (Off.MON_TS_LO u) ++ r (Off.MON_TS_HI u) ++ r (Off.MON_SEQ_A u) ++ r (Off.MON_COUNT u) ++ r (Off.MON_MIN u) ++
    r (Off.MON_MAX u) ++ r (Off.MON_SUM_LO u) ++ r (Off.MON_SUM_HI u) ++ r (Off.MON_LVL u) ++ r (Off.MON_LVL_SUM_LO u) ++
    r (Off.MON_LVL_SUM_HI u) ++ r (Off.MON_LVL_N u) ++ r (Off.MON_CTRL u) ++ r (Off.MON_BIN u) ++ r (Off.MON_WIN u) ++
    [0, 0, 0, 0]

/-- Part k of a unit's telemetry (R569). -/
def monPart (s : State) (u k : Nat) : List Byte :=
  if k = 0 then monPart0 s u
  else (List.range 16).flatMap (fun i => leBytes 4 (s.reg (Off.MON_HIST u (16 * (k - 1) + i))).toNat)

/-- Queues one telemetry message on a port; an unsent one of the same unit and part is replaced and counted (R570). -/
def queueTele (n : Nat) (msg : OutMsg) (s : State) : State :=
  let ms := (s.port n).msgs
  if ms.any (fun x => x.key.isSome && x.key == msg.key) then
    (s.modPort n (fun p => { p with msgs := ms.map (fun x => if x.key.isSome && x.key == msg.key then msg else x) })).sat
      Fld.MON_TELE_STAT_DROPPED
  else s.modPort n (fun p => { p with msgs := p.msgs ++ [msg] })

/-- The telemetry of one emission (R568): every masked unit with a new snapshot, on every port that takes it. -/
def queueTelemetry (s : State) : State :=
  let tc := BitVec.ofNat 2 (s.rd Fld.MON_TELE_TC)
  let ports := s.rd Fld.MON_TELE_PORTS
  let parts := if s.on Fld.MON_TELE_HIST then [0, 1, 2] else [0]
  forUpto 48 (fun u a =>
    let masked := if u < 32 then bitAt (a.rd Fld.MON_TELE_MASK_LO_MASK) u else bitAt (a.rd Fld.MON_TELE_MASK_HI_MASK) (u - 32)
    let seq := BitVec.ofNat 32 (a.rd (Fld.MON_SEQ_A_SEQ u))
    if masked && (a.mon u).teleSeq != seq then
      let a := a.modMon u (fun m => { m with teleSeq := seq })
      parts.foldl (fun b k =>
        let msg : OutMsg := { value := BitVec.ofNat 16 (u + 64 * k + 256 * (seq.toNat % 256)), mtype := 3, tc := tc,
                              data := some (lineOf (monPart b u k)), key := some (u, k) }
        forUpto 16 (fun n c =>
          if bitAt ports n && c.role n == 0 then
            (if c.up n then queueTele n msg c
             else if c.link n = lsCoast ∨ c.link n = lsParked then c.sat Fld.MON_TELE_STAT_DROPPED else c)
          else c) b) a
    else a) s

/-- Sends a message whose REQ credit, and DAT credit where it owns a data slot, is held (R171); none is sent otherwise. -/
def sendMsg (n : Nat) (m : OutMsg) (s : State) : Option State :=
  let tc := m.tc.toNat
  let slot := encMsg { tc := m.tc, value := m.value, data := m.data.isSome, mtype := m.mtype }
  if s.canSend n && (s.port n).txData.isEmpty && s.hasTx n tc 0 1 then
    match m.data with
    | none => some (sendControl n [slot] (useTx n tc 0 1 s))
    | some d => if s.hasTx n tc 1 1 then some (sendFlit n ftData [slot] (some d) (useTx n tc 1 1 (useTx n tc 0 1 s))) else none
  else none

/-- A message that goes nowhere for want of a credit begins to wait for it (R132, R171). -/
def msgWaits (n : Nat) (m : OutMsg) (s : State) : State :=
  if s.up n then
    let s := if s.hasTx n m.tc.toNat 0 1 then s else stallOn n m.tc.toNat 0 s
    if m.data.isSome && !s.hasTx n m.tc.toNat 1 1 then stallOn n m.tc.toNat 1 s else s
  else s

/-- A queued TELEMETRY message is sent (R568, R570, R171). -/
def execTelemetrySend (n : PortId) (s : State) : Out :=
  match (s.port n).msgs.find? (fun m => m.key.isSome) with
  | none => .next s
  | some m =>
    match sendMsg n m s with
    | some s => .next ((s.modPort n (fun p => { p with msgs := p.msgs.erase m })).sat Fld.MON_TELE_STAT_SENT)
    | none => .next (msgWaits n m s)

/-- Sends the first queued message that is not telemetry: MBX_DONE (R515). A change that waits for it is timed now (R204). -/
def sendDone (n : Nat) (s : State) : State :=
  match (s.port n).msgs.find? (fun m => m.key.isNone) with
  | none => s
  | some m =>
    match sendMsg n m s with
    | some s => changesDue n (.mbxDone m.value.toNat) (s.modPort n (fun p => { p with msgs := p.msgs.erase m }))
    | none => msgWaits n m s

end Sys2Proof.Machine
end

