-- ==== Sys2Proof/Machine/Lanes.lean ====
section
/-! DEFINITION. What the lane, training, recovery, retry and power-handshake commands do: lane faults and grading (R55 to
R84), ordered sets and training timers (R98 to R106), ACK, REPLAY and their timers (R113 to R124), credits (R128 to R132),
POWER and RETRAIN slots (R125, R135). A timer's command brings the time to its deadline; without its timer it finds nothing. -/
namespace Sys2Proof.Machine
open Sys2Proof

/-! ## Lane faults, grading, PRBS, injection -/

/-- The lane PLL of a port loses lock (R55). -/
def execLanePllLockLost (n : PortId) (s : State) : Out :=
  if s.on (Fld.PRT_PHY_STAT_PLL_LOCK n) then
    let s := s.modPort n (fun p => { p with pllLost := true })
    .next (linkDown n 2 (s.raise (evPort n 0) 0xFF))
  else .next s

/-- The lane PLL has held lock for 10 µs: the port retrains (R55). -/
def execLanePllLockHeld (n : PortId) (s : State) : Out :=
  if (s.port n).pllLost then
    .next (startTraining n ((s.modPort n (fun p => { p with pllLost := false })).wr (Fld.PRT_PHY_STAT_PLL_LOCK n) 1))
  else .next s

/-- Whether a lane's receiver runs: active, training, loopback or PRBS test (R66). -/
def State.laneRuns (s : State) (n p : Nat) : Bool := adapts (s.rd (Fld.PRT_LANE_STAT_STATE n p))

/-- The receive FIFO of a lane slips: a word of what the lane receives next is dropped or repeated, so that the flit it belongs to
fails its CRC, and the FIFO stands at 8 words again (R54, R64). -/
def execFifoSlip (n : PortId) (p : Pos) (s : State) : Out :=
  if s.laneRuns n p then
    let s := s.modLane n p (fun l => { l with fifo := 8, slipped := true })
    .next ((s.sat (Fld.PRT_LANE_FAULTS_FIFO_SLIP n p)).raise (evPort n 3) (2 ^ p.val))
  else .next s

/-- The grade of a window's disagreement count (R81). -/
def gradeOf (d : Nat) : Nat := if d ≤ 16 then 0 else if d ≤ 4095 then 1 else 2

/-- Sets a lane's grade; a change to failing makes it unusable, raises the lane failing event and starts recovery (R81, R48,
R121). -/
def setGrade (n p g : Nat) (s : State) : State :=
  let was := s.rd (Fld.PRT_LANE_STAT_HEALTH n p)
  let s := s.wr (Fld.PRT_LANE_STAT_HEALTH n p) g
  if g = 2 ∧ was ≠ 2 then
    enterRecovery n 3 false ((s.wr (Fld.PRT_LANE_STAT_USABLE n p) 0).raise (evPort n 1) (2 ^ p))
  else s

/-- A lane whose CDR tracks loses lock (R66, R80): the loss is counted. In active it raises the event (R84), and the fourth within
1 ms has the lane graded failing (R81), unless an eye scan suspends its grading (R82). -/
def execCdrLockLost (n : PortId) (p : Pos) (s : State) : Out :=
  let st := s.rd (Fld.PRT_LANE_STAT_STATE n p)
  if s.laneRuns n p then
    let s := (s.sat (Fld.PRT_LANE_FAULTS_CDR_LOSS n p)).wr (Fld.PRT_LANE_STAT_CDR_LOCK n p) 0
    if st = laActive ∨ st = laTraining then
      let s := s.raise (evPort n 2) (2 ^ p.val)
      let ts := (s.lane n p).cdrLosses.filter (fun t => decide (s.now < t + tMs)) ++ [s.now]
      let s := s.modLane n p (fun l => { l with cdrLosses := ts })
      .next (if 4 ≤ ts.length ∧ (s.lane n p).scan.isNone = true then setGrade n p 2 s else s)
    else .next s
  else .next s

/-- The end of a lane's grading window: when the last of its bits has been received (R81). -/
def State.windowEnd (s : State) (n p : Nat) : Option Nat :=
  (s.lane n p).winFrom.map (fun t => t + s.bitTicks n (s.lane n p).winLeft)

/-- A grading window ends with `d` disagreements, and the next begins (R81, R96); grading is suspended while the lane is scanned
(R82). -/
def execGradingWindowEnd (n : PortId) (p : Pos) (d : Nat) (s : State) : Out :=
  let st := s.rd (Fld.PRT_LANE_STAT_STATE n p)
  if (st = laActive ∨ st = laTraining) ∧ (s.lane n p).scan.isNone = true then
    match s.windowEnd n p with
    | some t =>
      let s := freshWindow n p ((s.atLeast t).wr (Fld.PRT_LANE_MARGIN_ERR_COUNT n p) (min d 0xFFFFFFFF))
      .next (setGrade n p (gradeOf d) s)
    | none => .next s
  else .next s

/-- The recovery of a port that keeps its link state through a failed exit or a parked exit is counted, and remembers the equaliser
settings (R104, R136, R139). [DEDUCED, notes/assumptions/15.md] -/
def countExitRecovery (n : Nat) (s : State) : State := holdEq n (s.sat (Fld.PRT_LINK_STAT_RECOV_CNT n))

/-- Recovery at the held rate begins when every active lane of a parked port has left its exit (R136).
[DEDUCED, notes/assumptions/15.md] -/
def parkedExitDone (n : Nat) (s : State) : State :=
  if s.link n = lsParked ∧ (List.range 8).all (fun p => !bitAt (s.active n) p || (s.lane n p).exitDeadline.isNone) = true then
    if (s.port n).train.hasLink then
      let s := (countExitRecovery n s).modTrain n (fun t => { t with
        recov := true
        full := false
        got1 := 0
        got1seen := 0
        got2 := 0
        gotSds := 0
        fallbackAt := some (s.now + 20 * tUs)
        recovEnd := some (s.now + 2 * tMs)
        fullAt := none })
      lanesTo n (s.active n) laTraining (s.setLink n lsRecovery)
    else startTraining n s
  else s

/-- A lane leaving coast has locked: it is active again, and once every active lane has locked the stack sends EXIT (R67, R136). -/
def coastLock (n p : Nat) (s : State) : State :=
  let s := s.modLane n p (fun l => { l with exitDeadline := none })
  let s := armCoastExit n (laneTo n p laActive (s.wr (Fld.PRT_LANE_STAT_CDR_LOCK n p) 1))
  if (List.range 8).all (fun k => !bitAt (s.active n) k || s.rd (Fld.PRT_LANE_STAT_STATE n k) != laCoast) then sendExit n s else s

/-- A lane leaving coast or parked locks (R67). -/
def execLaneExitLock (n : PortId) (p : Pos) (s : State) : Out :=
  if s.link n = lsCoast ∧ bitAt (s.active n) p = true then .next (coastLock n p s)
  else if s.link n = lsParked ∧ bitAt (s.active n) p = true ∧ (s.lane n p).exitDeadline.isSome = true then
    let s := s.modLane n p (fun l => { l with exitDeadline := none })
    .next (parkedExitDone n (laneTo n p laTraining (s.wr (Fld.PRT_LANE_STAT_CDR_LOCK n p) 1)))
  else .next s

/-- A coast exit has not locked within 256 ns: the lane parks and the port retrains, keeping the link state (R68).
[DEDUCED, notes/assumptions/15.md] -/
def execCoastExitWatchdog (n : PortId) (p : Pos) (s : State) : Out :=
  match (s.lane n p).exitDeadline with
  | some t =>
    if (s.lane n p).exitParked then .next s
    else
      let s := (s.atLeast t).modLane n p (fun l => { l with exitDeadline := none })
      let s := (laneTo n p laParked s).raise (evPort n 5) (2 ^ p.val)
      let s := if (s.port n).train.hasLink then countExitRecovery n s else s
      let s := s.modPort n (fun q => { q with exitFrom := none, train := { q.train with gotExit := 0, recovEnd := some (s.now + 2 * tMs) } })
      .next (enterLock n (s.port n).train.hasLink s)
  | none => .next s

/-- A parked exit has not locked within 100 µs: the lane is unusable until the next training (R68).
[DEDUCED, notes/assumptions/15.md] -/
def execParkedExitWatchdog (n : PortId) (p : Pos) (s : State) : Out :=
  match (s.lane n p).exitDeadline with
  | some t =>
    if (s.lane n p).exitParked then
      let s := (s.atLeast t).modLane n p (fun l => { l with exitDeadline := none })
      let s := (laneTo n p laParked (s.wr (Fld.PRT_LANE_STAT_USABLE n p) 0)).raise (evPort n 5) (2 ^ p.val)
      .next (parkedExitDone n s)
    else .next s
  | none => .next s

/-- Bit k of what a lane's generator has sent since it began: the pattern, complemented at an odd position with INV_ODD, with the
bits the injector has inverted (R77, R78, R83). -/
def State.genBit (s : State) (n p k : Nat) : Bool :=
  (prbsOut (s.rd (Fld.PRT_PRBS_CTRL_POLY n)) k ^^ s.prbsInv n p) ^^ (s.lane n p).genBad.contains k

/-- The checker of a lane has loaded the first bits received, as many as the degree of its polynomial, and compared the 64 that
follow without an error: it locks, and runs from its own state (R79). -/
def execPrbsCheckerLock (n : PortId) (b : LaneBits) (s : State) : Out :=
  let p := b.pos
  let rx := b.rx
  let poly := s.rd (Fld.PRT_PRBS_CTRL_POLY n)
  let deg := prbsDegree poly
  let bits := rx.map (fun b => b ^^ s.prbsInv n p)
  let c := prbsCompare poly (prbsLoad poly bits) ((bits.drop deg).take 64)
  if s.checkerRuns n p ∧ s.rd (Fld.PRT_LANE_STAT_PRBS_LOCK n p) = 0 ∧ deg + 64 ≤ rx.length ∧ c.1 = 0 then
    let s := s.modLane n p (fun l => { l with chkReg := c.2, prbsFrom := some s.now })
    .next ((s.wr (Fld.PRT_LANE_STAT_PRBS_LOCK n p) 1).wr (Fld.PRT_LANE_STAT_CDR_LOCK n p) 1)
  else .next s

/-- Bit errors that a locked checker has met are counted (R79, R80). -/
def countPrbs (n p errs : Nat) (s : State) : State :=
  if s.checkerRuns n p && s.on (Fld.PRT_LANE_STAT_PRBS_LOCK n p) then s.sat (Fld.PRT_LANE_PRBS_ERR_COUNT n p) errs else s

/-- A locked checker counts more than 512 errors within 1,024 bits: it unlocks to relock (R79). The bits pass in their time. -/
def execPrbsRelock (n : PortId) (p : Pos) (bits errs : Nat) (s : State) : Out :=
  if s.checkerRuns n p ∧ s.on (Fld.PRT_LANE_STAT_PRBS_LOCK n p) ∧ bits ≤ 1024 ∧ 512 < errs ∧ errs ≤ bits then
    let s := countPrbs n p errs (s.atLeast (match (s.lane n p).prbsFrom with | some t => t + s.bitTicks n bits | none => s.now))
    .next (((prbsUnlock n p s).sat (Fld.PRT_LANE_FAULTS_PRBS_RELOCK n p)).raise (evPort n 4) (2 ^ p.val))
  else .next s

/-- 2^P bits have been sent in periodic mode: one is flipped (R83). -/
def execPeriodicInject (n : PortId) (p : Pos) (s : State) : Out :=
  match (s.lane n p).injAt with
  | some t =>
    if s.rd (Fld.PRT_INJ_CTRL_MODE n) = 2 ∧ s.injects n p then
      let s := injectBits n p 1 (s.atLeast t)
      .next (s.modLane n p (fun l => { l with injAt := some (t + s.bitTicks n (2 ^ s.injPeriod n)) }))
    else .next s
  | none => .next s

/-! ## Ordered sets -/

/-- Adds a position to a mask. -/
def addPos (m : BitVec 8) (p : Nat) : BitVec 8 := BitVec.ofNat 8 (bitPut m.toNat p true)

/-- Recovery with full training: T_LOCK with RECOV = 1 (R123 step 2). -/
def recoverFull (n : Nat) (s : State) : State := enterLock n true s

/-- A lane takes in an ordered set it has received often enough (R99): it has CDR lock, and its pair is inverted where the MARKER
was. -/
def hearSet (n p : Nat) (inv : Bool) (s : State) : State :=
  (s.wr (Fld.PRT_LANE_STAT_RX_INV n p) (b2n inv)).wr (Fld.PRT_LANE_STAT_CDR_LOCK n p) 1

/-- A set of a TYPE that reaches a lane (R66, R74, R98, R99): a lane in far-end loopback sends it back, one in near-end loopback or
PRBS test does not look at it, a parked one has its receiver off, and bytes that are no such set do nothing. -/
def withSet (n p type : Nat) (set : List Byte) (s : State) (act : Bool → OrderedSet → Out) : Out :=
  let st := s.rd (Fld.PRT_LANE_STAT_STATE n p)
  match osRead type set with
  | none => .next s
  | some (inv, os) =>
    if st = laLoop then
      (if s.rd (Fld.PRT_LANE_CTRL_TEST_STATE n p) = 1 then .next (s.modLane n p (fun l => { l with echo := l.echo ++ [set] })) else .next s)
    else if st = laPrbs ∨ st = laParked then .next s
    else act inv os

/-- Eight identical TS1 on a lane (R99, R101, R104, R124). -/
def execTs1 (n : PortId) (p : Pos) (set : List Byte) (s : State) : Out :=
  withSet n p osTs1 set s fun inv os =>
  let st := s.link n
  let act := s.active n
  let s := hearSet n p inv s
  if st = lsLock then
    let s := s.modTrain n (fun t => { t with
      locked := addPos t.locked p
      got1 := addPos t.got1 p
      pRates := os.rates
      pX1 := os.x1 })
    .next (if (s.port n).train.got1 = 0xFF then enterConfig n s else s)
  else if st = lsRate ∧ (s.port n).train.relock = false ∧ bitAt act p = true then
    let s := if os.presetV then applyPreset n p os.preset.toNat s else s
    let s := s.modTrain n (fun t => { t with
      got1 := addPos t.got1 p
      got1seen := if os.seen then addPos t.got1seen p else t.got1seen })
    .next (rateCheck n s)
  else if st = lsUp ∧ os.recov = true ∧ bitAt act p = true then
    let s := s.modTrain n (fun t => { t with got1 := addPos t.got1 p, full := t.full || os.full })
    let t := (s.port n).train
    if covers t.got1.toNat act then
      let s := (enterRecovery n 6 t.full s).modTrain n (fun x => { x with got1 := t.got1 })
      .next (if t.full then recoverFull n s else s)
    else .next s
  else if st = lsRecovery ∧ os.recov = true ∧ bitAt act p = true then
    let s := s.modTrain n (fun t => { t with got1 := addPos t.got1 p, full := t.full || os.full })
    let t := (s.port n).train
    .next (if covers t.got1.toNat act && t.full then recoverFull n s else s)
  else .next s

/-- The width R103 gives after the exchange of USABLE at the current positions; none when no pair is left.
[DEDUCED, notes/assumptions/14.md] -/
def State.agreedWidth (s : State) (n : Nat) : Option (Nat × Nat) :=
  pickActive (BitVec.ofNat 8 (s.usable n) &&& (s.port n).train.pUsable &&& BitVec.ofNat 8 (s.active n)).toNat

/-- Eight identical TS2 on a lane, with when their alignment marker came (R65, R99 to R103).
[DEDUCED, notes/assumptions/14.md] -/
def execTs2 (n : PortId) (p : Pos) (r : TimedSet) (s : State) : Out :=
  withSet n p osTs2 r.set s fun inv os =>
  let st := s.link n
  let act := s.active n
  let s := hearSet n p inv s
  let note (s : State) : State := (s.modTrain n (fun t => { t with
    got2 := addPos t.got2 p
    pUsable := os.usable
    pRates := os.rates
    pX1 := os.x1 })).modLane n p (fun l => { l with arrival := r.arrival })
  if st = lsConfig then
    if os.kind.toNat ≠ s.role n ∨ os.expect ≠ 1 then .next (trainingFailed n 7 s)
    else if os.seen && s.on (Fld.PRT_LANE_STAT_USABLE n p) then
      let s := note s
      .next (if covers (s.port n).train.got2.toNat (s.usable n) then configDone n (deskew n (s.usable n) s) else s)
    else .next s
  else if st = lsVerify ∧ bitAt act p = true ∧ os.seen = true then
    let s := note s
    if covers (s.port n).train.got2.toNat act then
      let s := deskew n act s
      if s.rd (Fld.PRT_PHY_STAT_RECOVERY n) = 1 then .next (enterStart n s)
      else
        match s.agreedWidth n with
        | some (w, m) =>
          if s.rd (Fld.PRT_PHY_CTRL_MIN_WIDTH n) < w then .next (fallBack n 9 s)
          else .next (enterStart n (lanesTo n (255 - m) laParked
            ((s.wr (Fld.PRT_PHY_STAT_ACTIVE n) m).wr (Fld.PRT_PHY_STAT_WIDTH n) w)))
        | none => .next (fallBack n 9 s)
    else .next s
  else if st = lsRecovery ∧ bitAt act p = true ∧ os.recov = true then
    let s := note s
    if covers (s.port n).train.got2.toNat act then
      if s.rd (Fld.PRT_PHY_STAT_RECOVERY n) = 1 then .next s
      else
        match s.agreedWidth n with
        | some (w, m) => .next (lanesTo n (255 - m) laParked
            ((s.wr (Fld.PRT_PHY_STAT_ACTIVE n) m).wr (Fld.PRT_PHY_STAT_WIDTH n) w))
        | none => .next (recoverFull n s)
    else .next s
  else .next s

/-- Two EIOS on a lane: it enters electrical idle, and its CDR no longer has data to lock to (R99, R135). -/
def execEios (n : PortId) (r : LaneSet) (s : State) : Out :=
  let p := r.pos
  withSet n p osEios r.set s fun inv _ =>
  let s := hearSet n p inv s
  if bitAt (s.active n) p ∧ (s.link n = lsUp ∨ s.link n = lsRate ∨ s.link n = lsCoast) then
    .next ((s.modTrain n (fun t => { t with gotEios := addPos t.gotEios p })).wr (Fld.PRT_LANE_STAT_CDR_LOCK n p) 0)
  else .next s

/-- The coast exit ends once every active lane has received 2 EXIT and the stack has sent 4, which takes 512 UI: SDS go out and flits
resume (R136). -/
def coastExitDone (n : Nat) (s : State) : State :=
  match (s.port n).exitFrom with
  | some t =>
    if covers (s.port n).train.gotExit.toNat (s.active n) then
      let s := s.atLeast (t + s.bitTicks n 512)
      let s := s.modPort n (fun q => { q with
        exitFrom := none
        idleSince := s.now
        sdsMark := q.txLog.length
        train := { q.train with gotExit := 0, gotSds := 0 } })
      let s := forUpto 8 (fun k a => a.modLane n k (fun l => { l with exitDeadline := none })) s
      sendDone n (pump n ((lanesTo n (s.active n) laActive s).setLink n lsUp))
    else s
  | none => s

/-- Two EXIT on a lane: the partner leaves coast (R69, R136). A lane that reads them has locked. -/
def execExitSets (n : PortId) (r : LaneSet) (s : State) : Out :=
  let p := r.pos
  if bitAt (s.active n) p = true ∧ s.justEntered n = true ∧ (osRead osExit r.set).isSome = true then .next (abandonEntry n s)
  else
    withSet n p osExit r.set s fun inv _ =>
    let s := hearSet n p inv s
    if s.link n = lsUp ∧ bitAt (s.active n) p = true then .next (s.modPort n (fun q => { q with exitSeen := some s.now }))
    else if s.link n = lsCoast ∧ bitAt (s.active n) p = true then
      let s := if s.rd (Fld.PRT_LANE_STAT_STATE n p) = laCoast then coastLock n p s else s
      .next (coastExitDone n (s.modTrain n (fun t => { t with gotExit := addPos t.gotExit p })))
    else .next s

/-- Two SDS on a lane (R99, R101, R123). -/
def execSds (n : PortId) (r : LaneSet) (s : State) : Out :=
  let p := r.pos
  withSet n p osSds r.set s fun inv _ =>
  let s := hearSet n p inv s
  let st := s.link n
  let act := s.active n
  let t := (s.port n).train
  let ready := st == lsStart || (st == lsRecovery && covers t.got1.toNat act && covers t.got2.toNat act)
  if ready && bitAt act p then
    let s := s.modTrain n (fun t => { t with gotSds := addPos t.gotSds p })
    if covers (s.port n).train.gotSds.toNat act then .next (sendDone n (pump n (linkUp n s)))
    else .next s
  else .next s

/-! ## What the stack sends on a lane while it sends no flits (R98, R100, R101, R104, R123, R124, R136) -/

/-- The fields of the ordered sets that a lane sends. -/
def State.sentSet (s : State) (n p : Nat) : OrderedSet :=
  let t := (s.port n).train
  let l := s.lane n p
  let st := s.link n
  let seeking := st == lsRate && !(s.keepsEq n (s.rd (Fld.PRT_PHY_STAT_RATE n)))
  { rates := BitVec.ofNat 5 (s.ownRates n)
    rate := BitVec.ofNat 3 (s.rd (Fld.PRT_PHY_STAT_RATE n))
    seen := st == lsConfig || st == lsVerify || t.got1.getLsbD p
    recov := t.recov
    x1 := t.x1
    full := t.recov && t.full
    preset := BitVec.ofNat 3 (if seeking then (if l.presetsDone then (match l.presetBest with | some b => b.1 | none => 0) else l.presetNow)
      else 0)
    presetV := seeking
    usable := BitVec.ofNat 8 (s.usable n)
    kind := 1
    expect := if s.role n = 1 then 1 else 0
    attempt := t.attempt }

/-- What a lane sends in place of flits: the bytes of an ordered set and how many of it, none of them a number when it goes on until
the state is left; nothing in electrical idle, and nothing here while flits go. -/
def State.laneSends (s : State) (n p : Nat) : Option (Option Nat × List Byte) :=
  let t := (s.port n).train
  let set (type : Nat) : List Byte := osBytes type p (s.sentSet n p)
  let st := s.link n
  if s.rd (Fld.PRT_LANE_STAT_STATE n p) = laLoop then
    (if s.rd (Fld.PRT_LANE_CTRL_TEST_STATE n p) = 1 then (s.lane n p).echo.getLast?.map (fun e => (some 1, e)) else none)
  else if st = lsLock then some (none, set osTs1)
  else if bitAt (s.active n) p || st == lsConfig then
    if st = lsConfig then some (none, set osTs2)
    else if st = lsRate then (if t.relock then some (some 4, set osEios) else some (none, set osTs1))
    else if st = lsVerify then some (none, set osTs2)
    else if st = lsStart then some (some 4, set osSds)
    else if st = lsRecovery then
      (if covers t.got1.toNat (s.active n) then
         (if covers t.got2.toNat (s.active n) then some (some 4, set osSds) else some (none, set osTs2))
       else some (none, set osTs1))
    else if st = lsCoast then (if (s.port n).exitFrom.isSome then some (none, set osExit) else some (some 4, set osEios))
    else if st = lsParked ∧ (s.port n).enteredAt.isSome = true then some (some 4, set osEios)
    else none
  else none

/-- The bytes of flit k of `txLog` as the partner receives it: with the bits that the injector has inverted (R83). -/
def State.wireFlit (s : State) (n k : Nat) : List Byte :=
  let bad := ((s.port n).txBad.filter (fun b => b.1 == k)).flatMap (fun b => b.2)
  match (s.port n).txLog[k]? with
  | some f => flipBits bad (flitBytes f)
  | none => []

/-- The bits that the active lane of index i carries after the last SDS: its share of every flit, without gaps (R10, R49, R105). -/
def State.laneOut (s : State) (n i : Nat) : List Bool :=
  let w := (positions (s.active n)).length
  ((List.range ((s.port n).txLog.length - (s.port n).sdsMark)).flatMap (fun k => laneBits (laneShare w i (s.wireFlit n ((s.port n).sdsMark + k)))))

/-! ## Training timers -/

/-- T_LOCK times out (R101). [DESIGN CHOICE, notes/assumptions/2.md; DESIGN CHOICE, notes/assumptions/13.md] -/
def execTLockTimeout (n : PortId) (s : State) : Out :=
  match (s.port n).train.deadline with
  | some t =>
    if s.link n = lsLock then
      let s := s.atLeast t
      .next (if (pickActive (laneMask (fun p => s.lockUsable n p))).isSome then enterConfig n s else trainingFailed n 8 s)
    else .next s
  | none => .next s

/-- T_CONFIG times out (R101). -/
def execTConfigTimeout (n : PortId) (s : State) : Out :=
  match (s.port n).train.deadline with
  | some t => if s.link n = lsConfig then .next (trainingFailed n 8 (s.atLeast t)) else .next s
  | none => .next s

/-- T_RATE times out and training falls back one rate (R101, R102). -/
def execTRateTimeout (n : PortId) (s : State) : Out :=
  match (s.port n).train.deadline with
  | some t => if s.link n = lsRate then .next (fallBack n 8 (s.atLeast t)) else .next s
  | none => .next s

/-- T_VERIFY times out and training falls back one rate (R101, R102). -/
def execTVerifyTimeout (n : PortId) (s : State) : Out :=
  match (s.port n).train.deadline with
  | some t => if s.link n = lsVerify then .next (fallBack n 8 (s.atLeast t)) else .next s
  | none => .next s

/-- T_START times out (R101). -/
def execTStartTimeout (n : PortId) (s : State) : Out :=
  match (s.port n).train.deadline with
  | some t => if s.link n = lsStart then .next (trainingFailed n 8 (s.atLeast t)) else .next s
  | none => .next s

/-- 1 ms after a failed attempt training starts again (R101). -/
def execTrainingRetryTimer (n : PortId) (s : State) : Out :=
  match (s.port n).train.retryAt with
  | some t =>
    let s := s.atLeast t
    if (s.port n).train.recov && (s.port n).train.hasLink then .next (enterLock n true s)
    else .next (startTraining n (s.modTrain n (fun x => { x with retryAt := none })))
  | none => .next s

/-- The lane PLL has relocked at the chosen rate: TS1 with preset requests follow, and the first preset is measured (R101, R104). -/
def execPllRelockDone (n : PortId) (s : State) : Out :=
  if s.link n = lsRate ∧ (s.port n).train.relock = true then
    let s := (s.modTrain n (fun t => { t with relock := false })).wr (Fld.PRT_PHY_STAT_PLL_LOCK n) 1
    .next (forUpto 8 (fun p a =>
      if bitAt (a.active n) p && !(a.lane n p).presetsDone then a.modLane n p (fun l => { l with presetEnd := some (a.now + 5 * tUs) })
      else a) s)
  else .next s

/-- The 5 µs measurement of a preset ends with `d` disagreements: the next preset, or the best one, is requested (R104). -/
def execPresetMeasureEnd (n : PortId) (p : Pos) (d : Nat) (s : State) : Out :=
  let l := s.lane n p
  match l.presetEnd with
  | some t =>
    if s.link n = lsRate ∧ (s.port n).train.relock = false ∧ bitAt (s.active n) p = true ∧ l.presetsDone = false then
      let best := match l.presetBest with
        | some (b, c) => if d < c then some (l.presetNow, d) else some (b, c)
        | none => some (l.presetNow, d)
      let fin := decide (7 ≤ l.presetNow)
      let s := s.atLeast t
      let s := s.modLane n p (fun l => { l with
        presetBest := best
        presetNow := l.presetNow + 1
        presetsDone := fin
        presetEnd := if fin then none else some (s.now + 5 * tUs) })
      .next (if fin then rateCheck n s else s)
    else .next s
  | none => .next s

/-! ## Acknowledgement, replay, recovery -/

/-- A REPLAY flit is received (R119). -/
def execReplay (n : PortId) (seq : BitVec 10) (s : State) : Out := if s.up n then .next (startReplay n seq.toNat s) else .next s

/-- An ACK slot is received (R116). -/
def execAck (n : PortId) (seq : BitVec 10) (s : State) : Out := if s.up n then .next (sendDone n (applyAck n seq.toNat s)) else .next s

/-- 100 ns since the first unacknowledged flit: an ACK is sent (R115). -/
def execAckTimer (n : PortId) (s : State) : Out :=
  match (s.port n).retry.ackAt with
  | some t => if s.up n then .next (sendAck n (s.atLeast t)) else .next s
  | none => .next s

/-- 1 µs since a REPLAY without flit E: it is sent again (R118). [DEDUCED, notes/assumptions/17.md] -/
def execReplayRepeatTimer (n : PortId) (s : State) : Out :=
  match (s.port n).retry.askAgainAt with
  | some t =>
    if s.up n then .next (askReplay n ((s.atLeast t).modRetry n (fun r => { r with askAgainAt := none }))) else .next s
  | none => .next s

/-- The replay timer expires: every held flit is sent again; the fourth expiry in a row starts recovery (R120, R121).
[DESIGN CHOICE, notes/assumptions/2.md] -/
def execReplayTimer (n : PortId) (s : State) : Out :=
  match (s.port n).retry.replayAt with
  | some t =>
    if s.up n then
      let s := (s.atLeast t).sat (Fld.PRT_LINK_ERR_REPLAY_TO n)
      let s := resend n s
      let k := (s.port n).retry.expiries + 1
      let s := s.modRetry n (fun r => { r with expiries := k, replayAt := some (s.now + tUs) })
      .next (if 4 ≤ k then enterRecovery n 0 false (s.modRetry n (fun r => { r with expiries := 0 })) else s)
    else .next s
  | none => .next s

/-- Recovery has not reached SDS within 20 µs: full training with RECOV = 1 follows (R123 step 2). -/
def execRecoveryFallbackTimer (n : PortId) (s : State) : Out :=
  match (s.port n).train.fallbackAt with
  | some t => if s.link n = lsRecovery then .next (recoverFull n (s.atLeast t)) else .next s
  | none => .next s

/-- Recovery has not reached LINK_UP within 2 ms: the link goes down (R123). -/
def execRecoveryTimeout (n : PortId) (s : State) : Out :=
  match (s.port n).train.recovEnd with
  | some t => .next (linkDown n 4 (s.atLeast t))
  | none => .next s

/-- 4 µs since TS1 with FULL = 1 began: T_LOCK is entered (R124). -/
def execFullTrainingTimer (n : PortId) (s : State) : Out :=
  match (s.port n).train.fullAt with
  | some t => .next (recoverFull n (s.atLeast t))
  | none => .next s

/-- 100 ns since a credit became pending: a CREDIT slot is sent (R131). -/
def execCreditReturnTimer (n : PortId) (tc : BitVec 2) (s : State) : Out :=
  match tabGet none (s.port n).credit.retAt tc.toNat with
  | some t => .next (sendCredit n tc.toNat (s.atLeast t))
  | none => .next s

/-- A pool has waited 1 ms without a credit: the event is raised once (R132). -/
def execCreditStallTimer (n : PortId) (pool : Fin 3) (tc : BitVec 2) (s : State) : Out :=
  let k := 4 * pool.val + tc.toNat
  match tabGet none (s.port n).credit.stall k with
  | some t =>
    if (s.port n).credit.stalled.getLsbD k then .next s
    else
      let s := (s.atLeast (t + tMs)).modCredit n (fun c => { c with stalled := BitVec.ofNat 12 (bitPut c.stalled.toNat k true) })
      .next (s.raise (evPort n 11) (tc.toNat + 4 * pool.val))
  | none => .next s

/-- A POWER slot is received (R135). -/
def execPower (n : PortId) (kind target : BitVec 2) (s : State) : Out :=
  if s.up n then .next (takePower n kind.toNat target.toNat (touch n s)) else .next s

/-- In Rest the port has been idle for 64 ns × 2^COAST_IDLE: the stack requests coast (R135, R138). -/
def execCoastIdleTimer (n : PortId) (s : State) : Out :=
  let k := s.rd (Fld.PRT_LINK_CTRL_COAST_IDLE n)
  if s.rd Fld.GLB_PWR_STAT_STATE = psRest ∧ s.canSend n = true ∧ k ≠ 15 ∧ s.isCadPort n = false then
    let s := s.atLeast ((s.port n).idleSince + tNs (64 * 2 ^ k))
    .next ((sendControl n [encPower 0 0] s).modPort n (fun p => { p with shake := .asked false }))
  else .next s

/-- A failing grade no longer keeps a position from being retried (R125). [DEDUCED, notes/assumptions/14.md] -/
def retryPositions (n : Nat) (s : State) : State :=
  forUpto 8 (fun p a => if a.rd (Fld.PRT_LANE_STAT_HEALTH n p) = 2 then a.wr (Fld.PRT_LANE_STAT_HEALTH n p) 0 else a) s

/-- A RETRAIN slot is received (R121, R125). -/
def execRetrain (n : PortId) (widen : Bool) (s : State) : Out :=
  if s.up n then .next (enterRecovery n 4 widen (if widen then retryPositions n (touch n s) else touch n s)) else .next s

/-! ## Delayed changes, test states, port reset -/

/-- A lane's test state takes effect (R67, R74, R75): the link goes down when a lane enters loopback or PRBS test, whatever its state
with that CAUSE (R126), and the port retrains when every lane has left. A lane in near-end loopback hears itself, and its CDR is
locked. On a disabled port, or in Hold or Sleep, it waits (R70, R73). -/
def applyTest (n p v : Nat) (s : State) : State :=
  if s.role n = 2 ∨ 2 ≤ s.rd Fld.GLB_PWR_STAT_STATE then s
  else if v = 0 then
    let s := (laneTo n p laParked s).modLane n p (fun l => { l with echo := [] })
    if s.link n = lsDown ∨ s.link n = lsIdle then startTraining n s else s
  else
    let s := if (s.port n).train.hasLink then linkDown n 3 s
      else
        let s := s.wr (Fld.PRT_LINK_STAT_CAUSE n) 3
        if s.link n = lsDown ∨ s.link n = lsIdle then s
        else (parkLanes n (s.modTrain n (fun t => { t with deadline := none, relock := false }))).setLink n lsDown
    let s := s.modTrain n (fun t => { t with retryAt := none })
    let s := laneTo n p (if v = 3 then laPrbs else laLoop) (s.wr (Fld.PRT_PHY_STAT_PLL_LOCK n) 1)
    let s := if v = 2 then s.wr (Fld.PRT_LANE_STAT_CDR_LOCK n p) 1 else s
    s.modLane n p (fun l => { l with echo := [] })

/-- A port reset (R76, R201, R233, R239, R567, R685): the lane domain starts over, but for the registers R76 keeps.
[DEDUCED, notes/assumptions/18.md] -/
def portReset (n : Nat) (s : State) : State :=
  let s := monDiscard (32 + n) s
  let s := (s.modPort n (fun p => { p with markedDown := false, pllLost := false, delayed := [] })).wr (Fld.PRT_PHY_STAT_DOWN n) 0
  let s := forUpto 8 (fun p a =>
    let a := ((a.setReg (Off.PRT_LANE_FAULTS n p) 0).setReg (Off.PRT_LANE_PRBS_ERR n p) 0).setReg (Off.PRT_LANE_MARGIN_ERR n p) 0
    let a := (a.wr (Fld.PRT_LANE_STAT_HEALTH n p) 0).wr (Fld.PRT_LANE_STAT_RX_INV n p) 0
    let a := laneTo n p laParked a
    (a.setReg (Off.PRT_LANE_RXEQ n p) 0).modLane n p (fun l => { l with
      prbsBits := 0, prbsHi := none, cdrLosses := [], flips := 0, chkReg := 0, genFrom := none, genBad := [], arrival := 0,
      deskew := 0, slipped := false, echo := [] })) s
  let s := setRate n 0 ((s.wr (Fld.PRT_PHY_STAT_ACTIVE n) 0).wr (Fld.PRT_PHY_STAT_WIDTH n) 0)
  let s := linkDown n 1 s
  let s := ((s.setReg (Off.PRT_LINK_ERR n) 0).setReg (Off.PRT_LINK_CRC_ERR n) 0).wr (Fld.PRT_LINK_STAT_RECOV_CNT n) 0
  let s := ((s.setReg (Off.PRT_TXN_ERR n) 0).setReg (Off.PRT_TXN_REFUSED n) 0).setReg (Off.PRT_TXN_LOST n) 0
  let s := s.setReg (Off.PRT_POOL_REFUSED n) 0
  s.modPort n (fun p => { p with retry := { p.retry with lastLimit := none, noMarkerUntil := 0 } })

/-- A port takes another role (R204): its link goes down, and it retrains in the new role; a stored test state takes effect
when the port leaves the disabled role (R73). -/
def applyRole (n v : Nat) (s : State) : State :=
  if s.role n = v then s
  else
    let was := s.role n
    let s := linkDown n 11 (s.wr (Fld.PRT_POOL_CTRL_ROLE n) v)
    if was = 2 then
      forUpto 8 (fun p a => let t := a.rd (Fld.PRT_LANE_CTRL_TEST_STATE n p); if t = 0 then a else applyTest n p t a) s
    else if v = 2 then (parkLanes n s).setLink n lsDown
    else s

/-- A delayed change takes effect (R75, R138, R204, R687). -/
def applyDelayed (n : Nat) (d : Delayed) (s : State) : State :=
  match d with
  | .testState p v => applyTest n p v.toNat s
  | .linkDis v => if v then linkDown n 10 s else startTraining n s
  | .retrain => enterRecovery n 5 false s
  | .widen => enterRecovery n 5 true (retryPositions n s)
  | .role v => applyRole n v.toNat s
  | .portReset => portReset n s

/-- 100 ns after the completion of a write or command that affects its own port, the change applies (R138); none applies while the
completion has not been sent. -/
def execDelayedChangeApply (n : PortId) (s : State) : Out :=
  match (s.port n).delayed.find? (fun d => d.due.isSome) with
  | some d =>
    let s := s.atLeast (d.due.getD 0)
    .next (applyDelayed n d.change (s.modPort n (fun p => { p with delayed := p.delayed.erase d })))
  | none => .next s

end Sys2Proof.Machine
end

