-- ==== Sys2Proof/Machine/Map.lean ====
section
/-! DEFINITION. Where an address lies: the maps and masks (R33 to R40, R243 to R246), the local window (R40 to R43), the
signpost table (R208 to R213), and the staged registers that hold masks and entries. -/
namespace Sys2Proof.Machine
open Sys2Proof

/-- The pavilions counted in r, as a mask (R36, R374). -/
def State.retiredMask (s : State) : Nat := s.test.retiredStart.toNat
/-- r (R36). -/
def State.retiredCount (s : State) : Nat := (List.range 32).foldl (fun a p => a + b2n (bitAt s.retiredMask p)) 0

/-- Whether the map in use is the partitioned one (R37): fixed at the lock, and before it the one the lock would choose. -/
def State.partitioned (s : State) : Bool :=
  if s.on Fld.GLB_MAP_CTRL_LOCKED then s.on Fld.GLB_MAP_CTRL_MAP
  else decide (0 < s.retiredCount) || s.on Fld.GLB_MAP_CTRL_SEL

/-- Interleaved mask m as committed (R243). -/
def State.maskI (s : State) (m : Nat) : Nat := s.rd (Fld.GLB_MAP_I_LO_MASK m) + 2 ^ 32 * s.rd (Fld.GLB_MAP_I_HI_MASK m)
/-- Partitioned mask m as committed (R243). -/
def State.maskP (s : State) (m : Nat) : Nat := s.rd (Fld.GLB_MAP_P_LO_MASK m) + 2 ^ 32 * s.rd (Fld.GLB_MAP_P_HI_MASK m)

/-- Whether a mask is legal (R34, R244): bits [5:0] are 0, its own base bit is in, no other base bit is. -/
def maskLegal (base count m v : Nat) : Bool :=
  v % 64 == 0 && (List.range count).all (fun k => bitAt v (base + k) == (k == m))

/-- Interleaved mask m: base bits 11 to 21 (R33). -/
def maskILegal (m v : Nat) : Bool := maskLegal 11 11 m v
/-- Partitioned mask m: base bits 11 to 16 (R35, R244). -/
def maskPLegal (m v : Nat) : Bool := maskLegal 11 6 m v

/-- The pavilion of a slot in the partitioned map, none in the hole (R36). -/
def State.slotPav (s : State) (slot : Nat) : Option Nat :=
  ((List.range 32).filter (fun p => !bitAt s.retiredMask p))[slot]?

/-- The location of a local byte address under a map (R33 to R36); none in the hole. -/
def State.locateIn (s : State) (part : Bool) (addr : Nat) : Option Loc :=
  let col := bitsOf addr 6 5
  if part then
    match s.slotPav (bitsOf addr 32 5) with
    | none => none
    | some p =>
      let bank := selectField addr 0 [s.maskP 0, s.maskP 1]
      let bg := selectField addr 0 [s.maskP 2, s.maskP 3]
      let rank := selectField addr 0 [s.maskP 4, s.maskP 5]
      some { pav := p, bank := 16 * rank + 4 * bg + bank, row := bitsOf addr 17 15, col := col }
  else
    let pav := selectField addr 0 [s.maskI 0, s.maskI 1, s.maskI 2, s.maskI 3, s.maskI 4]
    let bank := selectField addr 0 [s.maskI 5, s.maskI 6]
    let bg := selectField addr 0 [s.maskI 7, s.maskI 8]
    let rank := selectField addr 0 [s.maskI 9, s.maskI 10]
    some { pav := pav, bank := 16 * rank + 4 * bg + bank, row := bitsOf addr 22 15, col := col }

/-- The location of a local byte address under the map in use. -/
def State.locate (s : State) (addr : Nat) : Option Loc := s.locateIn s.partitioned addr

/-- Whether a pavilion is retired while the stack runs (R38, R371). -/
def State.retiredRunning (s : State) (p : Nat) : Bool := s.on (Fld.PAV_REPAIR_STAT_RETIRED p) && !bitAt s.retiredMask p

/-- Bytes of the local window (R40): (32 - r) × 4 GiB. -/
def State.windowBytes (s : State) : Nat := (32 - s.retiredCount) * 2 ^ 32

/-- The window number, bits [47:37], of a fabric line address. -/
def lineWindow (line : Nat) : Nat := line / 2 ^ 31

/-- The local byte address of a fabric line address (R40). -/
def lineLocal (line : Nat) : Nat := line % 2 ^ 31 * 64

/-- Whether a fabric line lies inside the local window (R40, R41). -/
def State.lineIsLocal (s : State) (line : Nat) : Bool :=
  lineWindow line == s.rd Fld.GLB_POOL_WINDOW_BASE && decide (lineLocal line < s.windowBytes)

/-- The signpost entry that wins for a window number (R210): the smallest SIZE, then the lowest index. -/
def State.signpost (s : State) (w : Nat) : Option Nat :=
  (List.range 32).foldl (fun (best : Option Nat) e =>
    let base := s.rd (Fld.GLB_SP_LO_BASE e)
    let k := s.rd (Fld.GLB_SP_LO_SIZE e)
    if s.on (Fld.GLB_SP_HI_VALID e) && decide (base ≤ w) && decide (w < base + 2 ^ k) then
      match best with
      | none => some e
      | some b => if k < s.rd (Fld.GLB_SP_LO_SIZE b) then some e else best
    else best) none

/-- Whether a port is usable as an egress port (R212): in the peer role, its link up, in recovery, coast or parked. -/
def State.egressUsable (s : State) (n : Nat) : Bool := s.role n == 1 && (s.port n).train.hasLink

/-- The route of a request that is not served locally (R212, R213 steps 4a to 4d): the egress port and the entry, or the
refusal and whether it is step 4b. -/
def State.route (s : State) (ingress hop w : Nat) : (Nat × Nat) ⊕ (BitVec 4 × Bool) :=
  if w = s.rd Fld.GLB_POOL_WINDOW_BASE then .inr (stUnmapped, false)
  else
    match s.signpost w with
    | none => .inr (stUnmapped, false)
    | some e =>
      let p := s.rd (Fld.GLB_SP_HI_PORT e)
      let a := s.rd (Fld.GLB_SP_HI_ALT_PORT e)
      let av := s.on (Fld.GLB_SP_HI_ALT_V e)
      if p = ingress ∧ (av = false ∨ a = ingress) then .inr (stUnmapped, true)
      else if hop = 7 then .inr (stHopLimit, false)
      else if p ≠ ingress ∧ s.egressUsable p = true then .inl (p, e)
      else if av = true ∧ a ≠ ingress ∧ s.egressUsable a = true then .inl (a, e)
      else .inr (stPathDown, false)

/-- The map and the window lock at the first data request (R37, R206). [DEDUCED, notes/assumptions/26.md] -/
def lockMap (s : State) : State :=
  if s.on Fld.GLB_MAP_CTRL_LOCKED then s
  else
    let part := s.partitioned
    ((s.wr Fld.GLB_MAP_CTRL_MAP (b2n part)).wr Fld.GLB_MAP_CTRL_LOCKED 1).wr Fld.GLB_POOL_WINDOW_LOCKED 1

/-- Whether a signpost entry's values are legal (R209). -/
def signpostLegal (lo : Nat) : Bool :=
  let k := bitsOf lo 16 4
  decide (k ≤ 11) && bitsOf lo 0 11 % 2 ^ k == 0

/-- Where a slot of R302 covers an angle for a unit: the values in effect (R333). -/
def State.slotCovers (s : State) (n u angle : Nat) : Bool :=
  let v := (s.effective (Off.CAD_SLOT n)).toNat
  let w := if bitsOf v 10 10 = 0 then 1 else bitsOf v 10 10
  let a := (bitsOf v 0 10 + u * bitsOf v 20 8) % 1024
  decide ((angle + 1024 - a) % 1024 < w)

end Sys2Proof.Machine
end

