-- ==== Sys2Proof/Machine/Dram.lean ====
section
/-! DEFINITION. The DRAM cells behind the repair map (R250, R342, R363 to R365), what reading and writing a line does to the
error accounting (R343 to R357, R375), runtime sparing and retirement (R368 to R374). -/
namespace Sys2Proof.Machine
open Sys2Proof

/-! ## Cells -/

/-- The physical position in its bank of a row number (R363). -/
def physOfRow (n : Nat) : Nat := n / 1024 * 1026 + n % 1024
/-- The physical position in its bank of a spare row (R363). -/
def physOfSpare (j : Nat) : Nat := j / 2 * 1026 + 1024 + j % 2

/-- The number of a stored word: pavilion, bank, physical position, column, word. -/
def wordIndex (p bank phys col w : Nat) : Nat := (((p * 64 + bank) * 32832 + phys) * 32 + col) * 8 + w

/-- The first cell of the spare columns (R365), one cell per bank, column group and physical position. -/
def spareColBase : Nat := wordIndex 32 0 0 0 0 * 9

/-- The cell of column group g at a physical position. [DESIGN CHOICE, notes/assumptions/36.md] -/
def spareColCell (p bank g phys : Nat) : Nat := spareColBase + ((p * 64 + bank) * 4 + g) * 32832 + phys

/-- The byte held by a cell, if it has been written since the DRAM last lost its contents. -/
def memFind : List Host.Cell → Nat → Option Byte
  | [], _ => none
  | (k, v) :: t, a => if k = a then some v else memFind t a

/-- The memory with a byte written. [DEDUCED, notes/assumptions/9.md] -/
def memPut (m : List Host.Cell) (a : Nat) (v : Byte) : List Host.Cell := tabInsert m a v

/-- The canonical form of the cells: addresses strictly rising. [DEDUCED, notes/assumptions/9.md] -/
def Memory.wf (m : List Host.Cell) : Bool := tabSortedFrom 0 m

/-- What a cell reads as (R347). [DEDUCED, notes/assumptions/9.md] -/
def State.cell (s : State) (a : Nat) : Byte :=
  match memFind s.dram a with
  | some v => v
  | none => Config.neverWritten s.epoch a

/-- The nine cells of a stored word, least significant first. -/
def State.cells9 (s : State) (a : Nat) : Nat :=
  leNat ((List.range 9).map (fun k => s.cell (a + k)))

/-- A raw word at a physical position, without substitution (R418). -/
def State.rawWord (s : State) (p bank phys col w : Nat) : Raw72 := BitVec.ofNat 72 (s.cells9 (wordIndex p bank phys col w * 9))

/-- Writes consecutive cells. -/
def putCells (a : Nat) : List Byte → List Host.Cell → List Host.Cell
  | [], m => m
  | b :: t, m => putCells (a + 1) t (memPut m a b)

/-- Writes a raw word at a physical position, without substitution. -/
def setRawWord (p bank phys col w : Nat) (v : Raw72) (s : State) : State :=
  { s with dram := putCells (wordIndex p bank phys col w * 9) (leBytes 9 v.toNat) s.dram }

/-- The spare that serves a row, if any (R364, R368). -/
def State.spareOf (s : State) (p bank row : Nat) : Option Nat :=
  match (s.pav p).spared.find? (fun x => x.bank == bank && x.row == row) with
  | some x => some x.spare
  | none => none

/-- The physical position that serves a row (R250). -/
def State.physOf (s : State) (p bank row : Nat) : Nat :=
  match s.spareOf p bank row with
  | some j => physOfSpare j
  | none => physOfRow row

/-- The column groups of a bank that serve a column: group number and channel bit (R365). -/
def State.colGroups (s : State) (p bank col : Nat) : List (Nat × Nat) :=
  (((s.pav p).cols.filter (fun c => c.1 == bank)).zipIdx.filter (fun e => e.1.2.2 == col)).map (fun e => (e.2, e.1.2.1))

/-- A stored word at a physical position, with column substitution; the four groups hold one bit a row each, shared by the
words of the column. -/
def State.readWord (s : State) (p bank phys col w : Nat) : Raw72 :=
  (s.colGroups p bank col).foldl
    (fun (v : Raw72) g => BitVec.ofNat 72 (bitPut v.toNat g.2 ((s.cell (spareColCell p bank g.1 phys)).getLsbD w)))
    (s.rawWord p bank phys col w)

/-- Writes a stored word at a physical position, with column substitution. -/
def writeWord (p bank phys col w : Nat) (v : Raw72) (s : State) : State :=
  (s.colGroups p bank col).foldl
    (fun a g =>
      let c := spareColCell p bank g.1 phys
      { a with dram := memPut a.dram c (BitVec.ofNat 8 (bitPut (a.cell c).toNat w (v.getLsbD g.2))) })
    (setRawWord p bank phys col w v s)

/-- The eight stored words of a line at a physical position. -/
def State.readPhys (s : State) (p bank phys col : Nat) : RawLine :=
  Vector.ofFn (fun w : Fin 8 => s.readWord p bank phys col w.val)

/-- The eight stored words of a line as the row and column substitution serves it. -/
def State.readLine (s : State) (l : Loc) : RawLine := s.readPhys l.pav l.bank (s.physOf l.pav l.bank l.row) l.col

/-- Writes the eight stored words of a line at a physical position. -/
def writePhys (p bank phys col : Nat) (v : RawLine) (s : State) : State :=
  forUpto 8 (fun w a => writeWord p bank phys col w (v.toList.getD w 0) a) s

/-- Writes the eight stored words of a line where the substitution serves it. -/
def writeLine (l : Loc) (v : RawLine) (s : State) : State :=
  writePhys l.pav l.bank (s.physOf l.pav l.bank l.row) l.col v s

/-- The words of a line with fresh check bits; words of a mask are the poison marker (R155, R341). -/
def encodeLine (d : Line) (poison : BitVec 8) : RawLine :=
  Vector.ofFn (fun w : Fin 8 => if poison.getLsbD w.val then poison72 else encode72 d[w.val])

/-- The decoded words of a line. -/
def decodeLine (r : RawLine) : List Decoded := r.toList.map decode72

/-- The data of decoded words. -/
def decodedData (ds : List Decoded) : Line := Vector.ofFn (fun w : Fin 8 => (ds.getD w.val (.clean 0)).word)

/-- The mask of the words that meet a test. -/
def wordMask (ds : List Decoded) (f : Decoded → Bool) : BitVec 8 :=
  BitVec.ofNat 8 ((List.range 8).foldl (fun a w => a + b2n (f (ds.getD w (.clean 0))) * 2 ^ w) 0)

/-- The XOR of the words of two raw lines: cells that read other than they were written. -/
def flipLine (r flips : RawLine) : RawLine := Vector.ofFn (fun w : Fin 8 => r[w.val] ^^^ flips[w.val])

/-- Raw lines are written into a physical row, column by column. -/
def restoreInto (p b phys : Nat) (save : List RawLine) (s : State) : State :=
  (save.zipIdx).foldl (fun a e => writePhys p b phys e.2 e.1 a) s

/-- The saved bits are back in the row of a slice whose March elements have begun (R391, R392). -/
def restoreSlice (p : Nat) (x : Slice) (s : State) : State :=
  if 1 ≤ x.phase ∧ x.phase ≤ 7 then restoreInto p x.bank x.phys x.save s else s

/-! ## Error records (R375) -/

/-- Whether a pavilion accounts for errors (R348). -/
def State.accounts (s : State) (p : Nat) : Bool := s.on (Fld.PAV_ECC_CTRL_ACCOUNT p)

/-- The code of a read source. -/
def ReadSource.code : ReadSource → Nat
  | .host => 0
  | .rmw => 1
  | .scrub => 2
  | .bulk => 3

/-- Keeps an error record, or counts its loss (R375); none is written while the pavilion does not account (R348). -/
def logRecord (p : Nat) (r : EccRec) (s : State) : State :=
  if s.accounts p = false then s
  else if 16 ≤ (s.pav p).records.length then (s.sat (Fld.PAV_ECC_LOG_STAT_LOST p)).raiseOnce (evPav p 13) 0
  else s.modPav p (fun v => { v with records := v.records ++ [r] })

/-- The record of a word of a line, as of now. -/
def State.record (s : State) (p : Nat) (l : Loc) (w type source syndrome : Nat) (bit : Option Nat) : EccRec :=
  { ts := s.stamp
    syndrome := BitVec.ofNat 8 syndrome
    type := type
    source := source
    spare := (s.spareOf p l.bank l.row).isSome
    word := w
    col := l.col
    row := l.row
    bank := l.bank
    multi := bit.isNone
    bit := match bit with | some b => b | none => 0 }

/-! ## Retirement (R371, R373, R374) -/

/-- A slice as it goes to its restore and verify phases, once its bank is precharged (R399). -/
def Slice.cutShort (x : Slice) (cause : Nat) (isOpen : Bool) (now : Nat) : Slice :=
  let x := { x with aborted := some cause, held := if x.yielded then x.held else x.held + (now - x.heldAt) / tPav,
                    heldAt := max now x.heldAt }
  if 7 ≤ x.phase then x
  else if isOpen then { x with phase := 6, col := 32, half := false } else { x with phase := 7, col := 0, half := false }

/-- A slice in progress goes to its restore and verify phases (R399): it is counted and its event raised. -/
def abortSlice (p cause : Nat) (s : State) : State :=
  match (s.pav p).slice with
  | some x =>
    if x.aborted.isSome then s
    else
      let isOpen := (tabGet Bank.reset (s.pav p).banks x.bank).open_.isSome
      let s := s.modPav p (fun v => { v with slice := some (x.cutShort cause isOpen s.now) })
      (s.sat (Fld.PAV_BIST_CNT_ABORTED p)).raise (evPav p 16) cause
  | none => s

/-- The TSV calibration of a pavilion has ended; its command completes with the last of its pavilions (R481, R482).
[DEDUCED, notes/assumptions/44.md] -/
def endTsv (p : Nat) (low aborted : Bool) (s : State) : State :=
  let s := (s.modPav p (fun v => { v with tsv := none })).wr (Fld.PAV_TSV_STAT_STATE p) 0
  match s.tsvCmds.find? (fun c => c.left.getLsbD p) with
  | none => s
  | some c =>
    let c' : TsvCmd := { c with
      left := BitVec.ofNat 32 (bitPut c.left.toNat p false)
      low := BitVec.ofNat 32 (bitPut c.low.toNat p low)
      aborted := BitVec.ofNat 32 (bitPut c.aborted.toNat p aborted) }
    if c'.left = 0 then
      ({ s with tsvCmds := s.tsvCmds.erase c }).finish c.mbx ccOk (leBytes 4 c'.low.toNat ++ leBytes 4 c'.aborted.toNat)
    else { s with tsvCmds := s.tsvCmds.map (fun x => if x = c then c' else x) }

/-- A TSV calibration of a pavilion ends early (R476): previous trims stay, and it counts as aborted.
[DEDUCED, notes/assumptions/44.md] -/
def abortTsv (p : Nat) (s : State) : State :=
  match (s.pav p).tsv with
  | some t => endTsv p t.lowSeen true (s.raise (968 + 25) (32 + p))
  | none => s

/-- A pavilion is retired while running (R373). -/
def retireRunning (p cause : Nat) (s : State) : State :=
  if s.on (Fld.PAV_REPAIR_STAT_RETIRED p) then s
  else
    let s := (s.wr (Fld.PAV_REPAIR_STAT_RETIRED p) 1).raise (evPav p 11) cause
    abortTsv p (abortSlice p 3 s)

/-! ## Sparing (R364, R368 to R371) -/

/-- Whether spare j of a bank is usable and free. -/
def State.spareFree (s : State) (p bank j : Nat) : Bool :=
  let v := s.pav p
  !v.badSpares.contains (bank, j) && !v.leftSpares.contains (bank, j) && !v.spared.any (fun x => x.bank == bank && x.spare == j) &&
    !v.copies.any (fun x => x.bank == bank && x.spare == j)

/-- The lowest usable free runtime spare of a bank, else the lowest usable free fuse spare (R368).
[DESIGN CHOICE, notes/assumptions/36.md] -/
def State.takeSpare (s : State) (p bank : Nat) : Option Nat :=
  match (List.range 64).find? (fun j => j % 8 == 7 && s.spareFree p bank j) with
  | some j => some j
  | none => (List.range 64).find? (fun j => j % 8 != 7 && s.spareFree p bank j)

/-- A bank's spares are exhausted (R371). -/
def exhaust (p bank row : Nat) (s : State) : State :=
  let s := logRecord p (s.record p { pav := p, bank := bank, row := row, col := 0 } 0 7 0 0 (some 0)) s
  let s := s.raise (evPav p 10) bank
  let s := if (s.pav p).exhausted.contains bank then s
    else (s.modPav p (fun v => { v with exhausted := v.exhausted ++ [bank] })).sat (Fld.PAV_REPAIR_STAT_EXHAUSTED p)
  if s.on (Fld.PAV_ECC_CTRL_RETIRE_AUTO p) then retireRunning p 0 s else s

/-- Queues a runtime sparing copy (R369, R370, R757): 0 queued, 1 a copy of the row is held, 2 not queued, 3 exhausted.
[DESIGN CHOICE, notes/assumptions/36.md] -/
def queueCopy (p bank row : Nat) (mbx : Option Nat) (s : State) : Nat × State :=
  let v := s.pav p
  if v.copies.any (fun c => c.bank == bank && c.row == row) then (1, s)
  else if 4 ≤ v.copies.length ∨ s.on (Fld.PAV_REPAIR_STAT_RETIRED p) = true then (2, s)
  else
    match s.takeSpare p bank with
    | none => (3, exhaust p bank row s)
    | some j =>
      (0, s.modPav p (fun v => { v with copies := v.copies ++ [{ bank := bank, row := row, spare := j, running := false, mbx := mbx, since := 0,
                                                                  lines := [], wrote := 0 }] }))

/-- A row is declared hard-failed (R355, R368). -/
def hardFail (p : Nat) (l : Loc) (s : State) : State :=
  let s := (s.sat (Fld.PAV_ECC_CNT_HARDFAIL p)).raise (evPav p 8) l.bank
  if s.on (Fld.PAV_ECC_CTRL_SPARE_EN p) then (queueCopy p l.bank l.row none s).2 else s

/-- Every repeat-corrector entry of a physical row is freed (R355). -/
def freeRepeats (p bank phys : Nat) (s : State) : State :=
  s.modPav p (fun v => { v with repeats := v.repeats.filter (fun e => !(e.bank == bank && e.phys == phys)) })

/-! ## Accounting of corrections (R352 to R357) -/

/-- The leaky bucket takes the words corrected in a burst (R353). -/
def bucketAdd (p n bank : Nat) (s : State) : State :=
  let depth := max 1 (s.rd (Fld.PAV_BUCKET_CFG_DEPTH p))
  let lv := s.rd (Fld.PAV_BUCKET_STAT_LEVEL p) + n
  if depth < lv then
    ((s.raise (evPav p 6) bank).sat (Fld.PAV_BUCKET_STAT_OVERFLOWS p)).wr (Fld.PAV_BUCKET_STAT_LEVEL p) (lv - depth)
  else s.wr (Fld.PAV_BUCKET_STAT_LEVEL p) lv

/-- The entry to be evicted for a new one (R357): the oldest SEEN, else the oldest WRITTEN_BACK. -/
def evictee (es : List Repeat) : Option Repeat :=
  let older (b : Option Repeat) (e : Repeat) : Option Repeat :=
    match b with
    | none => some e
    | some x => if e.turn < x.turn then some e else some x
  match (es.filter (fun e => !e.writtenBack)).foldl older none with
  | some e => some e
  | none => es.foldl older none

/-- A new repeat-corrector entry, with an eviction when all 64 are in use (R357). -/
def addRepeat (p : Nat) (e : Repeat) (s : State) : State :=
  let v := s.pav p
  if v.repeats.length < 64 then s.setPav p { v with repeats := v.repeats ++ [e] }
  else
    match evictee v.repeats with
    | some x => (s.setPav p { v with repeats := v.repeats.erase x ++ [e] }).sat (Fld.PAV_ECC_CNT_EVICT p)
    | none => s

/-- One corrected word goes to the repeat corrector (R355); whether the line is written back.
[DEDUCED, notes/assumptions/35.md] -/
def repeatWord (p : Nat) (l : Loc) (w syn bit : Nat) (src : ReadSource) (s : State) : State × Bool :=
  if s.on (Fld.PAV_ECC_CTRL_REPEAT_EN p) then
    let phys := s.physOf p l.bank l.row
    let turn := s.cad.turn.toNat
    let hit (e : Repeat) : Bool := e.bank == l.bank && e.phys == phys && e.col == l.col && e.word == w
    match (s.pav p).repeats.find? hit with
    | none =>
      let e : Repeat := { bank := l.bank, phys := phys, col := l.col, word := w, writtenBack := decide (src = .scrub),
                          turn := turn }
      let s := addRepeat p e s
      if src = .scrub then (s, true)
      else (logRecord p (s.record p l w 1 src.code syn (some bit)) s, false)
    | some e =>
      let upd (s : State) : State := s.modPav p (fun v =>
        { v with repeats := v.repeats.map (fun x => if hit x then { x with writtenBack := true, turn := turn } else x) })
      if e.writtenBack then
        (hardFail p l (logRecord p (s.record p l w 3 src.code syn (some bit)) (upd s)), false)
      else (logRecord p (s.record p l w 2 src.code syn (some bit)) (upd s), true)
  else (s, false)

/-- One word that read uncorrectable is counted and recorded (R345, R352, R387). -/
def uncorrWord (p : Nat) (l : Loc) (w syn : Nat) (poison : Bool) (src : ReadSource) (s : State) : State :=
  let s := if src = .scrub then s.sat (Fld.PAV_SCRUB_CNT_UE p) else s
  if poison then logRecord p (s.record p l w 5 src.code syn none) (s.sat (Fld.PAV_ECC_CNT_POISON_SEEN p))
  else
    let s := s.sat (Fld.PAV_ECC_UE_COUNT p)
    (logRecord p (s.record p l w 4 src.code syn none) s).raiseOnce (evPav p 7) (l.bank + 64 * src.code)

/-- The accounting of a line as it was read (R344, R348, R352 to R355); whether the line is written back. -/
def accountLine (p : Nat) (l : Loc) (r : RawLine) (src : ReadSource) (s : State) : State × Bool :=
  if s.accounts p then
    let ds := decodeLine r
    let fixed := (ds.filter Decoded.fixed).length
    let s := if fixed = 0 then s
      else
        let s := s.sat (Fld.PAV_ECC_CE_COUNT p) fixed
        let s := if src = .scrub then s.sat (Fld.PAV_SCRUB_CNT_CORRECTED p) fixed else s
        bucketAdd p fixed l.bank s
    let (s, wb) := (ds.zipIdx).foldl (fun (a : State × Bool) e =>
      let syn := (syndrome72 (r.toList.getD e.2 0)).toNat
      match e.1 with
      | .clean _ => a
      | .corrected _ b =>
        let (t, f) := repeatWord p l e.2 syn b src a.1
        (t, a.2 || f)
      | .uncorrectable _ m => (uncorrWord p l e.2 syn m src a.1, a.2)) (s, false)
    let wb := wb || (decide (src = .scrub) && decide (0 < fixed))
    (if wb then s.sat (Fld.PAV_ECC_CNT_WRITEBACK p) else s, wb)
  else (s, false)

/-- A store to a line is seen by the repeat corrector (R355): SEEN entries of its words become WRITTEN_BACK. -/
def noteWrite (p : Nat) (l : Loc) (s : State) : State :=
  let phys := s.physOf p l.bank l.row
  s.modPav p (fun v => { v with repeats := v.repeats.map (fun e =>
    if e.bank == l.bank && e.phys == phys && e.col == l.col then { e with writtenBack := true } else e) })

/-- A line of the write buffer goes to the DRAM (R270, R355). -/
def storeLine (l : Loc) (v : RawLine) (s : State) : State := noteWrite l.pav l (writeLine l v s)

end Sys2Proof.Machine
end

