-- ==== Sys2Proof/Machine/Refresh.lean ====
section
/-! DEFINITION. The refresh engines of the ranks (R303 to R317), their drains into self-refresh (R276, R315, R759), the
neighbour LFSR (R318, R319), and the commands about them that need nothing of the scheduler. -/
namespace Sys2Proof.Machine
open Sys2Proof

def State.rank (s : State) (p r : Nat) : Rank := tabGet Rank.reset (s.pav p).ranks r
def State.setRank (s : State) (p r : Nat) (k : Rank) : State :=
  s.modPav p (fun v => { v with ranks := tabSet Rank.reset v.ranks r k })
def State.modRank (s : State) (p r : Nat) (f : Rank → Rank) : State := s.setRank p r (f (s.rank p r))
def State.bank (s : State) (p b : Nat) : Bank := tabGet Bank.reset (s.pav p).banks b
def State.setBank (s : State) (p b : Nat) (k : Bank) : State :=
  s.modPav p (fun v => { v with banks := tabSet Bank.reset v.banks b k })
def State.modBank (s : State) (p b : Nat) (f : Bank → Bank) : State := s.setBank p b (f (s.bank p b))

/-- DEBT of a rank (R308). -/
def State.debt (s : State) (p r : Nat) : Nat := s.rd (fldDebt p r)

/-! ## Times of the cadence unit (R293), in 1/256 fabric cycle -/

/-- The count at a time, in units of 1/256 fabric cycle: fabric cycles while their clock runs, else 64 for each cycle of the 25 MHz
oscillator (R299). -/
def State.cadAt (s : State) (t : Nat) : Nat :=
  match s.cad.osc with
  | none => s.cad.base + (t - s.cad.from_) * 256 / tFab
  | some e => s.cad.base + (t - s.cad.from_) * (9850 + e) / (10000 * 64 * tFab) * (64 * 256)

/-- The count now. -/
def State.cadNow (s : State) : Nat := s.cadAt s.now

/-- The time at which the count reaches a value. -/
def State.cadTick (s : State) (u : Nat) : Nat :=
  match s.cad.osc with
  | none => s.cad.from_ + ((u - s.cad.base) * tFab + 255) / 256
  | some e => s.cad.from_ + ((u - s.cad.base + 64 * 256 - 1) / (64 * 256) * (10000 * 64 * tFab) + 9849 + e) / (9850 + e)

/-- The count goes on from its value with the other source (R299): the oscillator runs within 1.5 % of 25 MHz, by how much is free.
[DESIGN CHOICE, notes/assumptions/33.md] -/
def cadSwitch (osc : Bool) (s : State) : State :=
  let (f, s) := s.drawFree
  { s with cad := { s.cad with base := s.cadNow, from_ := s.now, osc := if osc then some (f.toNat % 301) else none } }

/-- LEN (R329). -/
def State.cadLen (s : State) : Nat := max 1 (s.rd Fld.CAD_LEN_LEN)
/-- The angle at which a turn begun at t0 stands (R293). -/
def State.angleAt (s : State) (t0 : Nat) : Nat := min 1023 ((s.cadNow - t0) * 1024 / s.cadLen)

/-! ## Timing (R252, R755), in ticks -/

/-- The first pavilion cycle at or after a time. -/
def cycleFrom (t : Nat) : Nat := (t + tPav - 1) / tPav * tPav

/-- `c` pavilion cycles after a time that may never have been. -/
def afterCyc (o : Option Nat) (c : Nat) : Nat := match o with | none => 0 | some t => t + tPav * c

/-- The greatest of a bound over the banks that have been used. -/
def State.overBanks (s : State) (p : Nat) (f : Nat → Bank → Nat) : Nat := (s.pav p).banks.foldl (fun a e => max a (f e.1 e.2)) 0

/-- The earliest time of a refresh of rank r (R755). -/
def State.earliestRef (s : State) (p r : Nat) : Nat :=
  max (max (afterCyc (s.rank p r).lastRef 420) (s.rank p r).notBefore)
    (s.overBanks p (fun i x => if i / 16 = r then afterCyc x.pre 17 else 0))

/-! ## The pavilion clock (R272, R276, R690) -/

/-- The clock of a pavilion stops. -/
def gatePav (p : Nat) (s : State) : State := s.modPav p (fun v => { v with gated := true, gatedAt := s.now })

/-- The clock of a pavilion runs again: what counts its cycles goes on where it stopped (R272, R318). -/
def ungatePav (p : Nat) (s : State) : State :=
  s.modPav p (fun v =>
    if v.gated then
      let d := s.now - v.gatedAt
      { v with gated := false, startAt := v.startAt + d, lastWin := v.lastWin.map (fun t => t + d), pausedUntil := v.pausedUntil + d,
               lfsrAt := v.lfsrAt + d }
    else v)

/-! ## Levels (R256, R261) -/

/-- The level of a class with PANIC as honoured. -/
def classLevel (tc : Nat) (panic : Bool) : Nat := if tc = 2 then (if panic then 3 else 7) else if tc = 1 then 8 else 9

/-- The level of a line on its own (R256, R261); everything drains at level 1 under critical halt. -/
def State.ownLevel (s : State) (p : Nat) (e : Ent) : Nat :=
  if (s.pav p).drain = .halt then 1
  else if e.host then
    let lv := classLevel e.req.tc.toNat e.req.panic
    if e.aged = 2 then 2 else if e.aged = 1 then min lv 4 else lv
  else e.level

/-- Whether two lines are the same line. -/
def Loc.same (a b : Loc) : Bool := a.bank == b.bank && a.row == b.row && a.col == b.col

/-- The level of a line with what later lines of the same location lend it (R260). -/
def State.entLevel (s : State) (p : Nat) (e : Ent) : Nat :=
  ((s.pav p).ents.filter (fun x => x.req.loc.same e.req.loc && decide (e.req.id ≤ x.req.id))).foldl
    (fun a x => min a (s.ownLevel p x)) (s.ownLevel p e)

/-- Whether a neighbour entry is escalated (R321): by age, or because 24 or more are queued. -/
def State.neighEsc (s : State) (p : Nat) (x : Neigh) : Bool := x.escalated || decide (24 ≤ (s.pav p).neigh.length)

/-- The bank and row of the scrub position (R359, R384). -/
def State.scrubAt (s : State) (p : Nat) : Nat × Nat := (s.rd (Fld.PAV_SCRUB_POS_BANK p), s.rd (Fld.PAV_SCRUB_POS_ROW p))

/-- Whether work of level 2, 3 or 4 waits for a rank (R259, R309). -/
def State.waitsFor (s : State) (p r : Nat) : Bool :=
  (s.pav p).ents.any (fun e => decide (e.req.loc.bank / 16 = r) && (e.st == .waiting || e.st == .buffered) &&
    (let lv := s.entLevel p e; decide (2 ≤ lv) && decide (lv ≤ 4))) ||
  (s.pav p).neigh.any (fun x => decide (x.bank / 16 = r) && s.neighEsc p x) ||
  ((s.pav p).scrubDue && (s.pav p).scrubEsc && decide ((s.scrubAt p).1 / 16 = r)) ||
  (match (s.pav p).copies with | c :: _ => !c.running && decide (c.bank / 16 = r) | [] => false)

/-! ## The engine (R309) -/

/-- Whether a window of a rank is open (R303). -/
def State.windowOpen (s : State) (p r : Nat) : Bool := (s.rank p r).wins != 0

/-- The windows of a rank at the delivery of angle step a (R303), with the values in effect (R304): one opens when its ANGLE is delivered
and closes with the first step outside it. -/
def stepWindows (p r a : Nat) (s : State) : State :=
  let was := (s.rank p r).wins
  let opens (w : Nat) : Bool :=
    let v := (s.effective (Off.PAV_REF_WIN p r w)).toNat
    let d := (a + 1024 - bitsOf v 0 10) % 1024
    bitAt v 31 && decide (d < max 1 (bitsOf v 16 6)) && (d == 0 || was.getLsbD w)
  let now := BitVec.ofNat 4 ((List.range 4).foldl (fun n w => n + b2n (opens w) * 2 ^ w) 0)
  if now = was then s else s.modRank p r (fun k => { k with wins := now })

/-- A window whose setting changes at a turn boundary is not open until its new ANGLE is delivered (R303, R304). -/
def closeChanged (p r : Nat) (s : State) : State :=
  let changed (w : Nat) : Bool := s.eff.any (fun e => e.1 == Off.PAV_REF_WIN p r w)
  let was := (s.rank p r).wins
  let now := BitVec.ofNat 4 ((List.range 4).foldl (fun n w => n + b2n (was.getLsbD w && !changed w) * 2 ^ w) 0)
  if now = was then s else s.modRank p r (fun k => { k with wins := now })

/-- The level of the refresh that is pending for a rank (R256), or of its entry into self-refresh once its neighbour entries are
executed (R309, R323). -/
def State.refLevel (s : State) (p r : Nat) : Option Nat :=
  let k := s.rank p r
  match k.st with
  | .forced => if 0 < k.n then some 1 else none
  | .band => if 0 < k.n then some 1 else none
  | .self_ =>
    if k.inSelf then none
    else if k.n = 0 ∧ (s.pav p).neigh.any (fun x => x.bank / 16 == r) = true then none
    else some 1
  | .paying => if 0 < k.n then some 5 else none
  | .quiet => none
  | .owed => none

/-- A rank leaves power-down (R275): its first command follows tXP later, after a residency of tCKE (R252). -/
def wakeRank (p r : Nat) (s : State) : State :=
  let k := s.rank p r
  if k.down then s.setRank p r { k with down := false, notBefore := cycleFrom (max s.now (k.lastUse + tPav * 6)) + tPav * 8 } else s

/-- A rank for which a refresh is pending does not stay in power-down (R275). -/
def wakeDue (p r : Nat) (s : State) : State := if (s.refLevel p r).isSome then wakeRank p r s else s

/-- A rank enters FORCED (R309). -/
def forceRank (p r : Nat) (s : State) : State :=
  wakeDue p r
    (((s.modRank p r (fun k => { k with st := .forced, n := 1 })).sat (Fld.PAV_REF_CNT_FORCED p)).raiseOnce (evPav p 2) r)

/-- Since when work of level 2, 3 or 4 has waited for a rank. -/
def noteUrgent (p r : Nat) (s : State) : State :=
  let since := if s.waitsFor p r then (match (s.rank p r).urgent with | some t => some t | none => some s.now) else none
  if since = (s.rank p r).urgent then s else s.modRank p r (fun k => { k with urgent := since })

/-- Whether the next refresh of a rank can issue in the pavilion cycle that is present (R251, R755). -/
def State.refReady (s : State) (p r : Nat) : Bool :=
  let t := cycleFrom s.now
  decide (s.earliestRef p r ≤ t) && decide (afterCyc (s.pav p).lastIssue 1 ≤ t) &&
    (List.range 16).all (fun i => (s.bank p (16 * r + i)).open_.isNone)

/-- Whether work of level 2, 3 or 4 postpones a payment of a rank (R309): not when it began to wait in the very cycle in which the
refresh issues (R312). -/
def State.postpones (s : State) (p r : Nat) : Bool :=
  s.waitsFor p r && !(s.refReady p r &&
    (match (s.rank p r).urgent with | some t => cycleFrom t == cycleFrom s.now | none => false))

/-- A payment that has issued its last refresh ends. -/
def payEnd (p r : Nat) (s : State) : State :=
  let k := s.rank p r
  if k.n = 0 ∧ (k.st = .paying ∨ k.st = .forced ∨ k.st = .band) then
    s.setRank p r { k with st := if s.debt p r = 0 then .quiet else .owed }
  else if k.st = .quiet ∧ 0 < s.debt p r then s.setRank p r { k with st := .owed }
  else s

/-- The conditions of R309 are evaluated for a rank: end of a payment, forcing, postponement, start of a payment (R312, R758). -/
def refStep (p r : Nat) (s0 : State) : State :=
  let s := noteUrgent p r (payEnd p r s0)
  let k := s.rank p r
  if (k.st = .owed ∨ k.st = .paying) ∧ 8 ≤ s.debt p r then forceRank p r s
  else if k.st = .paying ∧ s.postpones p r = true then
    (s.setRank p r { k with st := .owed, n := 0 }).sat (Fld.PAV_REF_CNT_POSTPONED p)
  else if k.st = .owed ∧ s.windowOpen p r = true ∧ s.waitsFor p r = false then
    wakeDue p r (s.setRank p r { k with st := .paying, n := s.debt p r })
  else s

/-- The engines of a pavilion's four ranks. -/
def refAll (p : Nat) (s : State) : State := forUpto 4 (fun r a => refStep p r a) s

/-- The accumulator of a rank as it stands now (R307). -/
def State.accNow (s : State) (p r : Nat) : Nat :=
  let k := s.rank p r
  k.acc + 2 * (s.pav p).rate * ((s.now - k.accAt) / tPav)

/-- ACC reaches 9,375 (R307): DEBT grows by one, unless the rank is in SELF. -/
def execRefreshAccrual (p : PavId) (r : RankId) (s : State) : Out :=
  let k := s.rank p r
  let step := 2 * (s.pav p).rate
  if k.inSelf = true ∨ step = 0 then .next s
  else
    let cyc := (9375 - k.acc + step - 1) / step
    let s := s.atLeast (k.accAt + tPav * cyc)
    let s := s.setRank p r { k with acc := k.acc + step * cyc - 9375, accAt := k.accAt + tPav * cyc }
    if k.st = .self_ then .next s
    else .next (refStep p r (s.wr (fldDebt p r) (min 8 (s.debt p r + 1))))

/-- A rank with debt enters BAND on a rise of the rate (R309). -/
def bandRank (p r : Nat) (s : State) : State :=
  let k := s.rank p r
  let d := s.debt p r
  if 1 ≤ d ∧ (k.st = .owed ∨ k.st = .paying ∨ k.st = .forced) then
    wakeDue p r (((s.setRank p r { k with st := .band, n := d }).sat (Fld.PAV_REF_CNT_BAND p)).raise (evPav p 3) (d + 16 * r))
  else s

/-- A pavilion applies a refresh rate and throttle level (R311, R440); the level waits for a throttle window (R273). -/
def applyRate (p m level : Nat) (s : State) : State :=
  let rise := decide ((s.pav p).rate < m)
  let s := forUpto 4 (fun r a => a.modRank p r (fun k => { k with acc := a.accNow p r, accAt := a.now })) s
  let s := s.modPav p (fun v => { v with rate := m, throttleNext := level })
  if rise then forUpto 4 (fun r a => bandRank p r a) s else s

/-- A declared change of rate and throttle level reaches a pavilion 20 ns × p after its declaration (R311). -/
def execRateChangeApply (p : PavId) (s : State) : Out :=
  match (s.pav p).rateNext with
  | (t, m, level) :: rest => .next (applyRate p m level ((s.atLeast t).modPav p (fun v => { v with rateNext := rest })))
  | [] => .next s

/-- The stack declares a refresh rate and throttle level (R311, R440, R441). -/
def declareRate (m level : Nat) (s : State) : State :=
  forUpto 32 (fun p a => a.modPav p (fun v => { v with rateNext := v.rateNext ++ [(a.now + p * tNs 20, m, level)] })) s

/-! ## Into and out of self-refresh (R276, R309, R315, R759) -/

/-- A rank is to enter self-refresh: N := DEBT at level 1 first (R309). -/
def enterSelf (p r : Nat) (s : State) : State :=
  let k := s.rank p r
  if k.st = .self_ then s.setRank p r { k with leaving := none }
  else wakeDue p r (s.setRank p r { k with st := .self_, n := s.debt p r })

/-- A rank that has paid, executed its neighbour entries and closed its banks enters self-refresh. -/
def selfReady (p r : Nat) (s : State) : State :=
  let k := s.rank p r
  if k.st = .self_ ∧ k.inSelf = false ∧ k.n = 0 ∧ (s.pav p).neigh.all (fun x => decide (x.bank / 16 ≠ r)) = true ∧
      (List.range 16).all (fun i => (s.bank p (16 * r + i)).open_.isNone) = true then
    s.setRank p r { k with inSelf := true, down := false, leaving := none }
  else s

/-- A pavilion that drains and holds no line any more sends its ranks toward self-refresh (R276, R315). -/
def drainStep (p : Nat) (s : State) : State :=
  let v := s.pav p
  if (v.drain = .power ∨ v.drain = .halt ∨ v.drain = .shutdown) ∧ v.ents = [] ∧ v.flight = [] ∧ v.slice = none ∧
      v.scrubStep = none ∧ v.copies.all (fun c => !c.running) = true ∧
      s.prom.all (fun r => r.loc.pav != p) = true then
    forUpto 4 (fun r a => selfReady p r (enterSelf p r a)) s
  else s

/-- A pavilion begins to drain into self-refresh. -/
def drainPav (p : Nat) (why : DrainFor) (s : State) : State :=
  if (s.pav p).drain = .reset_ then s else s.modPav p (fun v => { v with drain := why })

/-- A rank leaves self-refresh (R309): tXS begins; a rank that had not entered it completes its payment (R759). -/
def exitSelf (p r : Nat) (s : State) : State :=
  let k := s.rank p r
  if k.st = .self_ then
    if k.inSelf then s.setRank p r { k with leaving := some s.now }
    else refStep p r (s.setRank p r { k with st := .band })
  else s

/-- The cause of a pavilion's self-refresh ends (R444, R693). -/
def wakePav (p : Nat) (s : State) : State :=
  forUpto 4 (fun r a => exitSelf p r a) ((ungatePav p s).modPav p (fun v => { v with drain := .none_ }))

/-- A rank is put into FORCED with DEBT 1 and ACC 0 (R309, SELF row). -/
def rankForced (p r : Nat) (s : State) : State :=
  let s := s.setRank p r { s.rank p r with acc := 0, accAt := s.now, inSelf := false, leaving := none, down := false }
  forceRank p r (s.wr (fldDebt p r) 1)

/-- tXS has elapsed since a rank left self-refresh (R309). -/
def execSelfRefreshExit (p : PavId) (r : RankId) (s : State) : Out :=
  match (s.rank p r).leaving with
  | some t => .next (rankForced p r (s.atLeast (t + tPav * 432)))
  | none => .next s

/-- The lines of the write buffer go to the DRAM, in order (R270, R276), measured as writes (R561). -/
def flushPav (p : Nat) (s : State) : State :=
  let es := (s.pav p).ents
  let s := (es.filter (fun e => e.st == .buffered)).foldl (fun a e =>
    let a := storeLine e.req.loc e.words a
    if e.host then monSample p ((a.now - e.req.since) / tPav) e.req.tc.toNat true none a else a) s
  s.modPav p (fun v => { v with ents := v.ents.filter (fun e => e.st != .buffered) })

/-- The end of a drain: debt paid, neighbour entries executed, banks closed, every rank in self-refresh (R276, R315, R323). -/
def settlePav (p : Nat) (s : State) : State :=
  let s := flushPav p s
  let s := s.modPav p (fun v => { v with banks := [], neigh := [], neighFull := false, scrubStep := none })
  forUpto 4 (fun r a => (a.wr (fldDebt p r) 0).modRank p r (fun k =>
    { k with st := .self_, n := 0, inSelf := true, down := false, leaving := none })) s

/-- Whether a pavilion has lines that have not completed. -/
def State.pavBusy (s : State) (p : Nat) : Bool :=
  (s.pav p).ents.any (fun e => e.st != .buffered) || !(s.pav p).flight.isEmpty || (s.pav p).scrubStep.isSome ||
    s.prom.any (fun r => r.loc.pav == p)

/-! ## The neighbour LFSR (R318, R319) -/

/-- Multiplication by x modulo x^32 + x^22 + x^2 + x + 1: one step of the register. [DEDUCED, notes/assumptions/34.md] -/
def lfsrStep (x : BitVec 32) : BitVec 32 := if x.getLsbD 31 then (x <<< 1) ^^^ 0x00400007#32 else x <<< 1

/-- The product of two polynomials modulo that of the register. -/
def lfsrMul (a b : BitVec 32) : BitVec 32 :=
  (List.range 32).foldl (fun (acc : BitVec 32) i => lfsrStep acc ^^^ (if b.getLsbD (31 - i) then a else 0)) 0

/-- `x` times the n-th power of `base`, the low `fuel` bits of n counted. [DEDUCED, notes/assumptions/34.md] -/
def lfsrPow : Nat → Nat → BitVec 32 → BitVec 32 → BitVec 32
  | 0, _, _, x => x
  | fuel + 1, n, base, x => lfsrPow fuel (n / 2) (lfsrMul base base) (if n % 2 = 1 then lfsrMul x base else x)

/-- The register as it stands at a time. [DEDUCED, notes/assumptions/34.md] -/
def State.lfsrNow (s : State) (p : Nat) : BitVec 32 :=
  lfsrPow 64 ((s.now - (s.pav p).lfsrAt) / tPav) 2 (s.pav p).lfsr

/-- Entropy enters the register (R319); it is never left 0. -/
def reseed (p : Nat) (s : State) : State :=
  let cur := s.lfsrNow p
  let (e, s) := s.drawEntropy
  let x := cur ^^^ e.extractLsb' 0 32
  s.modPav p (fun v => { v with lfsr := if x = 0 then 1 else x, lfsrAt := s.now })

/-- K as applied (R338). -/
def State.neighK (s : State) (p : Nat) : Nat := min 14 (max 6 (s.rd (Fld.PAV_NEIGH_CTRL_K p)))

/-- The physical positions a draw targets (R320): within the subarray of the row that served the activate. -/
def State.neighTargets (s : State) (p phys : Nat) : List Nat :=
  let pos := phys % 1026
  let base := phys - pos
  let near := (if 1 ≤ pos then [base + pos - 1] else []) ++ (if pos + 1 < 1026 then [base + pos + 1] else [])
  let far := (if 2 ≤ pos then [base + pos - 2] else []) ++ (if pos + 2 < 1026 then [base + pos + 2] else [])
  if s.on (Fld.PAV_NEIGH_CTRL_D2 p) then near ++ far else near

/-- An activate tests the register and may draw a neighbour refresh (R318). -/
def neighDraw (p bank phys : Nat) (s : State) : State :=
  if s.on (Fld.PAV_NEIGH_CTRL_EN p) ∧ (s.lfsrNow p).toNat % 2 ^ s.neighK p = 0 then
    (s.modPav p (fun v => { v with
      neigh := v.neigh ++ [Neigh.mk bank (s.neighTargets p phys) s.now false false false]
      })).sat (Fld.PAV_NEIGH_DRAWN_COUNT p)
  else s

/-- A neighbour entry reaches 64 µs of age (R321): the oldest one not yet escalated. -/
def execNeighbourEscalation (p : PavId) (s : State) : Out :=
  match (s.pav p).neigh.find? (fun x => !x.escalated && !x.started) with
  | some x =>
    let s := s.atLeast (x.since + 64 * tUs)
    let s := s.modPav p (fun v => { v with neigh := v.neigh.map (fun y => if y = x then { y with escalated := true } else y) })
    let s := (s.sat (Fld.PAV_NEIGH_STAT_ESCALATED p)).raiseOnce (evPav p 4) x.bank
    .next (refAll p s)
  | none => .next s

end Sys2Proof.Machine
end

