-- ==== Sys2Proof/Machine/Sched.lean ====
section
/-! DEFINITION. The pavilion scheduler (R249 to R275): timing, levels, the choice of at most one row and one column command in
a pavilion cycle, and what each command does. -/
namespace Sys2Proof.Machine
open Sys2Proof

/-! ## Timing (R252, R755), in ticks -/

/-- The earliest time of an activate of bank b: tRP, tRC, tRRD, tFAW, tRFC, tXP. -/
def State.earliestAct (s : State) (p b : Nat) : Nat :=
  let k := s.rank p (b / 16)
  let bk := s.bank p b
  let rrd := s.overBanks p (fun i x =>
    if i / 16 = b / 16 then (if i / 4 = b / 4 then afterCyc x.act 5 else afterCyc x.act 3) else 0)
  let faw := match k.acts with | _ :: _ :: _ :: a :: _ => a.1 + tPav * 16 | _ => 0
  max (max (afterCyc bk.pre 17) (afterCyc bk.act 52)) (max (max rrd faw) (max (afterCyc k.lastRef 420) k.notBefore))

/-- The earliest time of a precharge of bank b: tRAS, tRTP, tCWL + burst + tWR. -/
def State.earliestPre (s : State) (p b : Nat) : Nat :=
  let bk := s.bank p b
  max (afterCyc bk.act 35) (max (afterCyc bk.rd 9) (afterCyc bk.wr 34))

/-- The earliest time of a column command to bank b: tRCD, tCCD, tWTR, tRTW, tRTRS and the bursts on the channel. -/
def State.earliestCol (s : State) (p b : Nat) (write : Bool) : Nat :=
  let ch := s.overBanks p (fun i x =>
    let sameRank := i / 16 == b / 16
    let sameBg := i / 4 == b / 4
    let afterRd := if write then 6 else if sameBg then 3 else if sameRank then 1 else 3
    let afterWr := if write then (if sameBg then 3 else if sameRank then 1 else 3)
      else if sameBg then 26 else 20
    max (afterCyc x.rd afterRd) (afterCyc x.wr afterWr))
  max (max (afterCyc (s.bank p b).act 17) (s.rank p (b / 16)).notBefore) ch

/-! ## Work that waits -/

/-- Whether a bank is held: by a slice (R396) or a running copy (R369). -/
def State.bankHeld (s : State) (p b : Nat) : Bool :=
  let v := s.pav p
  (match v.slice with | some x => x.bank == b | none => false) || v.copies.any (fun c => c.running && c.bank == b)

/-- The lines of a pavilion that stand before another one. -/
def entsBefore (es : List Ent) (id : Nat) : List Ent := es.takeWhile (fun x => x.req.id != id)

/-- Whether an earlier access to the line keeps a line from its command (R260, R265): one that has not issued its last command, or a
write-back, which holds the line until it has issued (R356). -/
def entBlocked (es : List Ent) (e : Ent) : Bool :=
  (entsBefore es e.req.id).any (fun x => x.req.loc.same e.req.loc && (x.st != .buffered || e.st == .buffered || !x.host))

/-- The newest write-buffer line that holds a line for a later access (R270). -/
def bufferedBefore (es : List Ent) (e : Ent) : Option Ent :=
  ((entsBefore es e.req.id).filter (fun x => x.req.loc.same e.req.loc && x.st == .buffered && x.host)).getLast?

/-- The source of a line's read. -/
def readSource (e : Ent) : ReadSource :=
  match e.req.op with
  | .read => (match e.req.owner with | .bulk _ => .bulk | .port _ _ => .host | .scrub => .scrub)
  | .write _ _ => .rmw
  | .masked _ _ => .rmw
  | .atomic _ _ _ _ => .rmw

/-- Reads of lines held in the write buffer are served from it (R265, R270). -/
def serveBuffered (p : Nat) (s : State) : State :=
  (s.pav p).ents.foldl (fun a e =>
    let es := (a.pav p).ents
    if e.st = .waiting ∧ entBlocked es e = false then
      match bufferedBefore es e with
      | some w => a.modPav p (fun v => { v with
          ents := v.ents.map (fun x => if x.req.id = e.req.id then { x with st := .flying } else x)
          flight := v.flight ++ [{ ent := e.req.id, loc := e.req.loc, raw := w.words, source := readSource e, fromBuf := true,
                                   at_ := a.now + tPav, last := false }] })
      | none => a
    else a) s

/-! ## Commands that could issue -/

/-- A row command. -/
inductive RowCmd where
  | pre
  | actLine (row : Nat)
  /-- for the neighbour entry drawn at a time -/
  | actNeigh (phys : Nat) (since : Nat)
  /-- for a sparing copy: its failing row, then its spare -/
  | actCopy (row : Nat)
  | actSpare (phys : Nat)
  /-- for a scrub step that starts, then for one that a precharge has cut -/
  | actScrub
  | actStep (row : Nat)
  | actSlice (phys : Nat)
  | refresh (rank : Nat)
  deriving DecidableEq, Repr

/-- A row command that could issue: level, bank, the earliest legal time, age and number of the line it serves. -/
structure RowCand where
  lvl : Nat
  bank : Nat
  cmd : RowCmd
  at_ : Nat
  age : Nat := 0
  id : Nat := 0
  /-- for a line of the write buffer -/
  write : Bool := false
  /-- a precharge ordered by a page policy (R253) -/
  policy : Bool := false
  /-- a precharge for a refresh -/
  ref : Bool := false
  /-- issues through throttle pauses (R272) -/
  free : Bool := false
  /-- of work that holds the bank: a pending refresh waits for it (R310, R369) -/
  held : Bool := false
  deriving DecidableEq, Repr

/-- A column command: of a line, or of a scrub step, a sparing copy or a slice. -/
inductive ColCmd where
  | line (e : Ent)
  | step (x : ScrubStep) (col : Nat)
  | copy (c : Copy)
  | slice (x : Slice)
  deriving DecidableEq, Repr

/-- A column command that could issue. -/
structure ColCand where
  lvl : Nat
  bank : Nat
  cmd : ColCmd
  write : Bool
  at_ : Nat
  age : Nat := 0
  id : Nat := 0
  /-- issues through throttle pauses (R272) -/
  free : Bool := false
  /-- issues before a pending refresh and before work that waits for the bank (R267, R310, R397) -/
  held : Bool := false
  deriving DecidableEq, Repr

/-- A line that may get a command: its bank is not held and no earlier access to the line stands before it. -/
def State.workable (s : State) (p : Nat) (e : Ent) : Bool :=
  (e.st == .waiting || e.st == .buffered) && !entBlocked (s.pav p).ents e && !s.bankHeld p e.req.loc.bank

/-- A write-back: not split, and issued at the level of the read that caused it (R356). -/
def Ent.isBack (e : Ent) : Bool := e.st == .buffered && !e.host

/-- Whether a write-back waits for the open row of a bank. -/
def State.backWaits (s : State) (p b : Nat) : Bool :=
  (s.pav p).ents.any (fun e => e.isBack && e.req.loc.bank == b && (s.bank p b).open_ == some e.req.loc.row)

/-- Whether a TSV step holds a rank, or the column slots (R473). -/
def State.tsvStep (s : State) (p : Nat) : Option Nat :=
  match (s.pav p).tsv with | some t => (match t.step with | some r => some r.val | none => none) | none => none

/-- The end of the phase or sweep code that the k-th cycle of a TSV step falls in (R473). -/
def codeEnd (k : Nat) : Nat :=
  if k ≤ 17 then 17 else if k ≤ 785 then 17 + (k - 17 + 11) / 12 * 12
  else if k ≤ 3345 then 785 + (k - 785 + 39) / 40 * 40 else 3349

/-- When a refresh of level 1 that is pending may issue beside a TSV step (R474): a cycle after the step has paused at the end of
its code; at once when the step already stands. [DEDUCED, notes/assumptions/74.md] -/
def TsvCal.pauseAt (x : TsvCal) (t : Nat) : Nat :=
  if t < x.heldAt then t else x.heldAt + tPav * (codeEnd (x.held + (t - x.heldAt + tPav - 1) / tPav) - x.held) + tPav

/-- The time a running TSV step makes a refresh of a level wait for. -/
def State.tsvPause (s : State) (p lv : Nat) : Nat :=
  match (s.pav p).tsv with
  | some x => if x.step.isSome && lv == 1 then (match x.refFrom with | some t => t | none => x.pauseAt s.now) else 0
  | none => 0

/-- A step is to pause at the end of the code in which a refresh of level 1 becomes pending, and legal after another (R474). -/
def noteTsv (p : Nat) (s : State) : State :=
  match (s.pav p).tsv with
  | some x =>
    let due := (List.range 4).filter (fun r => s.refLevel p r == some 1)
    let t := max s.now ((due.map (fun r => match (s.rank p r).lastRef with | some l => l + tPav * 420 | none => 0)).foldl min (2 ^ 64))
    let want : Option Nat := if x.step.isNone || due.isEmpty then none
      else match x.refFrom with | some f => some f | none => some (x.pauseAt t)
    if want = x.refFrom then s else s.modPav p (fun v => { v with tsv := some { x with refFrom := want } })
  | none => s

/-- Whether draws are held up because the queue is full (R322). -/
def State.drawHold (s : State) (p : Nat) : Bool := s.on (Fld.PAV_NEIGH_CTRL_EN p) && decide (32 ≤ (s.pav p).neigh.length)

/-! ### Scrub steps (R358 to R362) -/

/-- The line of the region of a scrub row that is enabled, under the map in use (R358, R360): every column or none. -/
def State.scrubEnabled (s : State) (p row : Nat) : Bool :=
  let region :=
    if s.partitioned then
      match ((List.range 32).find? (fun k => s.slotPav k == some p)) with
      | some k => some (k * 16 + row / 2048)
      | none => none
    else some (row / 64)
  match region with
  | some g => bitAt (s.rd (Fld.GLB_SCRUB_EN_EN (g / 32))) (g % 32)
  | none => false

/-- Whether a due scrub step may start now (R359 to R362), and at which level. -/
def State.scrubLevel (s : State) (p : Nat) : Option Nat :=
  let v := s.pav p
  if v.scrubDue && v.scrubStep.isNone && decide (v.drain = .none_) && !v.gated && !s.halted &&
      !s.on (Fld.PAV_REPAIR_STAT_RETIRED p) && decide (s.rd Fld.GLB_PWR_STAT_STATE < 2) then
    if v.scrubEsc then some 4
    else
      match s.cad.angle with
      | some a => if s.slotCovers 0 p a then some 10 else none
      | none => none
  else none

/-- The time from which a scrub step issues no further read, so that its bank is held at most 250 ns (R360). -/
def State.stepStop (s : State) (p b : Nat) : Nat := afterCyc (s.bank p b).act 245

/-- The level of a scrub step in progress: level 1 in a critical-halt drain (R256). -/
def State.stepLevel (s : State) (p : Nat) (x : ScrubStep) : Nat := if (s.pav p).drain = .halt then 1 else x.level

/-- The read of a scrub step that could issue: the next column, unless an earlier access to that line is under way (R260). -/
def State.stepCol (s : State) (p : Nat) : List ColCand :=
  match (s.pav p).scrubStep with
  | none => []
  | some x =>
    match x.left with
    | [] => []
    | c :: _ =>
      let busy := (s.pav p).ents.any (fun e => e.req.loc.same { pav := p, bank := x.bank, row := x.row, col := c })
      let t := s.earliestCol p x.bank false
      if (s.bank p x.bank).open_ == some x.row && !s.bankHeld p x.bank && !busy && decide (t < s.stepStop p x.bank) then
        [{ lvl := s.stepLevel p x, bank := x.bank, cmd := .step x c, write := false, at_ := t }]
      else []

/-! ### Slices (R393 to R397) -/

/-- The tag of a row that a slice or copy holds open: its physical position. -/
def heldRow (phys : Nat) : Nat := 131072 + phys

/-- The level of a slice: level 1 in a critical-halt drain (R256, R399). -/
def State.sliceLevel (s : State) (p : Nat) : Nat := if (s.pav p).drain = .halt then 1 else 10

/-- Whether a slice runs in the checked form (R394). -/
def SliceFor.checked : SliceFor → Bool
  | .sweep => true
  | .startup => true
  | .parking => false
  | .row _ => true

/-- Whether a phase of a slice writes each column, reads it, or reads and writes it (R393). -/
def Slice.reads (x : Slice) : Bool := x.phase != 1 && x.phase != 7
def Slice.writes (x : Slice) : Bool := (decide (1 ≤ x.phase) && decide (x.phase ≤ 5)) || x.phase == 7

/-- Whether the next column command of a slice is a write. -/
def Slice.nextWrite (x : Slice) : Bool := x.writes && (x.half || !x.reads)

/-- The column command a slice could issue. In the checked form the write of a pair waits for its read's data and one cycle of
compare (R394, R395). A slice that yields begins no further column operation (R397). -/
def State.sliceCol (s : State) (p : Nat) : List ColCand :=
  match (s.pav p).slice with
  | none => []
  | some x =>
    let bk := s.bank p x.bank
    if bk.open_ == some (heldRow x.phys) && decide (x.col < 32) && (x.half || (s.refLevel p (x.bank / 16)).isNone) then
      let t := s.earliestCol p x.bank x.nextWrite
      let t := if x.half && x.why.checked then max t (afterCyc bk.rd 20) else t
      [{ lvl := s.sliceLevel p, bank := x.bank, cmd := .slice x, write := x.nextWrite, at_ := t, held := x.half }]
    else []

/-- The row command a slice could issue: the precharge that ends a phase, or an activate, which waits for the pending refreshes of
its rank (R393, R397). -/
def State.sliceRow (s : State) (p : Nat) : List RowCand :=
  match (s.pav p).slice with
  | none => []
  | some x =>
    let c : RowCand := { lvl := s.sliceLevel p, bank := x.bank, cmd := .pre, at_ := max (s.pav p).pausedUntil (s.earliestPre p x.bank) }
    match (s.bank p x.bank).open_ with
    | none =>
      if x.phase ≤ 8 ∧ (s.refLevel p (x.bank / 16)).isNone = true then
        [{ c with cmd := .actSlice x.phys, at_ := s.earliestAct p x.bank }]
      else []
    | some r => if r ≠ heldRow x.phys ∨ x.col = 32 then [c] else []

/-! ### Sparing copies (R369) -/

/-- The column command of the running copy: the next line read from the failing row, or written to the spare. -/
def State.copyCol (s : State) (p : Nat) : List ColCand :=
  match (s.pav p).copies with
  | [] => []
  | c :: _ =>
    let reading := decide (c.lines.length < 32)
    let tag := if reading then c.row else heldRow (physOfSpare c.spare)
    if c.running && (s.bank p c.bank).open_ == some tag && decide (c.wrote < 32) then
      [{ lvl := 2, bank := c.bank, cmd := .copy c, write := !reading, at_ := s.earliestCol p c.bank (!reading), held := true }]
    else []

/-- The row command of the running copy. -/
def State.copyRow (s : State) (p : Nat) (c : Copy) : List RowCand :=
  let reading := decide (c.lines.length < 32)
  let spare := physOfSpare c.spare
  match (s.bank p c.bank).open_ with
  | none =>
    if c.wrote = 32 then []
    else [{ lvl := 2, bank := c.bank, cmd := if reading then .actCopy c.row else .actSpare spare, at_ := s.earliestAct p c.bank,
            held := true }]
  | some r =>
    if (reading && r == c.row) || (!reading && r == heldRow spare && decide (c.wrote < 32)) then []
    else [{ lvl := 2, bank := c.bank, cmd := .pre, at_ := s.earliestPre p c.bank, held := true }]

/-! ### Candidates -/

/-- The column candidates of a pavilion. -/
def State.colCands (s : State) (p : Nat) : List ColCand :=
  if (s.tsvStep p).isSome then []
  else
    let v := s.pav p
    let lines : List ColCand := v.ents.filterMap (fun e =>
      if s.workable p e && (s.bank p e.req.loc.bank).open_ == some e.req.loc.row then
        let wr := e.st == .buffered
        some { lvl := s.entLevel p e, bank := e.req.loc.bank, cmd := .line e, write := wr, at_ := s.earliestCol p e.req.loc.bank wr,
               age := e.req.since, id := e.req.id, free := decide (v.drain = .halt) || e.isBack, held := e.isBack }
      else none)
    (lines ++ s.stepCol p ++ s.copyCol p ++ s.sliceCol p).map (fun c => { c with at_ := max c.at_ (afterCyc v.lastCol 1) })

/-- The row candidates of work that needs a row of a bank: its activate, or the precharge of another row. -/
def State.rowFor (s : State) (p want : Nat) (c : RowCand) : List RowCand :=
  match (s.bank p c.bank).open_ with
  | none => [{ c with at_ := s.earliestAct p c.bank }]
  | some r => if r = want then [] else [{ c with cmd := .pre, at_ := s.earliestPre p c.bank }]

/-- The row candidates of the lines. -/
def State.lineRows (s : State) (p : Nat) : List RowCand :=
  let v := s.pav p
  v.ents.flatMap (fun e =>
    if s.workable p e && ((bufferedBefore v.ents e).isNone || e.st == .buffered) then
      (s.rowFor p e.req.loc.row { lvl := s.entLevel p e, bank := e.req.loc.bank, cmd := .actLine e.req.loc.row, at_ := 0,
                                  age := e.req.since, id := e.req.id, write := e.st == .buffered,
                                  free := decide (v.drain = .halt) || e.isBack }).filter
        (fun c => decide (c.cmd = .pre) || !s.drawHold p)
    else [])

/-- The row candidates of the neighbour entries: each target of an entry is activated and precharged in turn (R321). -/
def State.neighRows (s : State) (p : Nat) : List RowCand :=
  (s.pav p).neigh.flatMap (fun x =>
    match x.targets with
    | [] => []
    | t :: _ =>
      let esc := s.neighEsc p x
      let c : RowCand := { lvl := if esc then 2 else 6, bank := x.bank, cmd := .actNeigh t x.since, at_ := 0, age := x.since, free := esc }
      if s.bankHeld p x.bank then []
      else if x.active then [{ c with cmd := .pre, at_ := s.earliestPre p x.bank, free := true }]
      else s.rowFor p (65536 + t) c)

/-- The row candidates of a scrub step: its start, an activate after its row was closed, and its precharge (R360). -/
def State.scrubRows (s : State) (p : Nat) : List RowCand :=
  match (s.pav p).scrubStep with
  | some x =>
    let c : RowCand := { lvl := s.stepLevel p x, bank := x.bank, cmd := .actStep x.row, at_ := 0 }
    if s.bankHeld p x.bank then []
    else if (s.bank p x.bank).open_ = some x.row then
      if (s.pav p).ents.any (fun e => !e.host && e.req.loc.bank == x.bank) then []
      else [{ c with cmd := .pre, at_ := max (s.earliestPre p x.bank) (if x.left.isEmpty then 0 else s.stepStop p x.bank) }]
    else if x.left.isEmpty || s.drawHold p then []
    else s.rowFor p x.row c
  | none =>
    match s.scrubLevel p with
    | some lv =>
      let k := s.scrubAt p
      if s.scrubEnabled p k.2 && !s.bankHeld p k.1 && !s.drawHold p then
        s.rowFor p (heldRow 0) { lvl := lv, bank := k.1, cmd := .actScrub, at_ := 0 }
      else []
    | none => []

/-- The row candidates of the copies: the one that runs, or the start of the next. -/
def State.copyRows (s : State) (p : Nat) : List RowCand :=
  match (s.pav p).copies with
  | c :: _ =>
    if c.running then s.copyRow p c
    else if decide ((s.pav p).drain ≠ .none_) || s.bankHeld p c.bank then []
    else s.rowFor p (heldRow 0) { lvl := 2, bank := c.bank, cmd := .actCopy c.row, at_ := 0 }
  | [] => []

/-- The row candidates of the refreshes: the precharges of the rank, then the refresh (R310, R755). A copy keeps its bank; a slice
finishes its column operation first (R397). -/
def State.refRows (s : State) (p : Nat) : List RowCand :=
  (List.range 4).flatMap (fun r =>
    match s.refLevel p r with
    | none => []
    | some lv =>
      let copying (b : Nat) : Bool := (s.pav p).copies.any (fun c => c.running && c.bank == b)
      let pair (b : Nat) : Bool := match (s.pav p).slice with | some x => x.bank == b && x.half | none => false
      let banks := (List.range 16).map (fun i => 16 * r + i)
      let open_ := banks.filter (fun b => (s.bank p b).open_.isSome)
      if lv = 5 && (s.tsvStep p).isSome then []
      else if open_ = [] then
        (if banks.any copying || decide ((s.rank p r).n = 0) then [] else
          -- the refresh that issues in the cycle in which urgent work begins to wait goes first (R312)
          [{ lvl := if lv = 5 && s.waitsFor p r then 1 else lv, bank := 16 * r, cmd := .refresh r, at_ := max (s.earliestRef p r) (s.tsvPause p lv), free := true }])
      else (open_.filter (fun b => !copying b && !pair b)).map (fun b =>
        { lvl := lv, bank := b, cmd := .pre, at_ := s.earliestPre p b, ref := true, free := true }))

/-- The precharges that page policies and hints have ordered (R253). -/
def State.closeRows (s : State) (p : Nat) : List RowCand :=
  (s.pav p).banks.filterMap (fun e =>
    match e.2.close with
    | some (lv, t) =>
      if e.2.open_.isSome && !s.bankHeld p e.1 then
        some { lvl := lv, bank := e.1, cmd := .pre, at_ := max t (s.earliestPre p e.1), policy := true, free := true }
      else none
    | none => none)

/-- The row candidates of a pavilion. A rank in power-down or self-refresh takes no command (R274, R309, R444).
[DESIGN CHOICE, notes/assumptions/29.md] -/
def State.rowCands (s : State) (p : Nat) : List RowCand :=
  let all : List RowCand := s.lineRows p ++ s.neighRows p ++ s.copyRows p ++ s.scrubRows p ++ s.sliceRow p ++ s.refRows p ++ s.closeRows p
  let all : List RowCand := all.filter (fun c => !(s.rank p (c.bank / 16)).inSelf && !(s.rank p (c.bank / 16)).down)
  let all : List RowCand := match s.tsvStep p with
    | some r => all.filter (fun c : RowCand => decide (c.bank / 16 ≠ r) || (match c.cmd with | .refresh _ => true | _ => false))
    | none => all
  all.map (fun c => { c with at_ := max c.at_ (afterCyc (s.pav p).lastIssue 1) })

/-! ## The choice (R256 to R260, R270, R272) -/

/-- Lexicographic order. -/
def lexLt : List Nat → List Nat → Bool
  | [], [] => false
  | [], _ :: _ => true
  | _ :: _, [] => false
  | a :: x, b :: y => if a < b then true else if b < a then false else lexLt x y

/-- The least element under a key. -/
def leastBy {α : Type} (key : α → List Nat) (l : List α) : Option α :=
  l.foldl (fun b x => match b with | none => some x | some y => if lexLt (key x) (key y) then some x else some y) none

/-- The consecutive column commands allowed on one open row (R255). -/
def State.hitMax (s : State) (p : Nat) : Nat := max 1 (s.rd (Fld.PAV_SCHED_CTRL_HIT_MAX p))

/-- Whether a pause stops an activate or column command at a time (R272). [DEDUCED, notes/assumptions/28.md] -/
def pauseStops (v : Pav) (t lvl : Nat) (free : Bool) : Bool := decide (t < v.pausedUntil) && !free && lvl != 1 && lvl != 5

/-- Whether a time that may be set has come. -/
def since (t : Nat) (o : Option Nat) : Bool := match o with | some x => decide (x ≤ t) | none => false

/-- The times noted for the waits of a bank, by level: those noted before, and those of the waits that begin. -/
def noteStops (old : List (Nat × Nat)) (waits : List RowCand) : List (Nat × Nat) :=
  waits.foldl (fun acc w =>
    if acc.any (fun x => x.1 == w.lvl) then acc
    else acc ++ [(w.lvl, match old.find? (fun x => x.1 == w.lvl) with | some x => x.2 | none => w.at_)]) []

/-- When the precharges that are waited for become legal is judged when each wait begins (R258, R310): commands that issue
meanwhile do not move it. [DEDUCED, notes/assumptions/28.md] -/
def noteWaits (p : Nat) (s : State) : State :=
  let rows := s.rowCands p
  let s := (s.pav p).banks.foldl (fun (a : State) (e : Nat × Bank) =>
    let now := noteStops e.2.stop (rows.filter (fun w => w.bank == e.1 && decide (w.cmd = .pre) && !w.policy))
    if now = e.2.stop then a else a.modBank p e.1 (fun k => { k with stop := now })) s
  forUpto 4 (fun r a =>
    let now := match a.refLevel p r with
      | some _ => some (match (a.rank p r).stop with
          | some x => x
          | none => (List.range 16).foldl (fun m i =>
              if (a.bank p (16 * r + i)).open_.isSome then max m (a.earliestPre p (16 * r + i)) else m) a.now)
      | none => none
    if now = (a.rank p r).stop then a else a.modRank p r (fun k => { k with stop := now })) s

/-- Whether a column command may issue at time t. -/
def State.colOk (s : State) (p t : Nat) (rows : List RowCand) (c : ColCand) : Bool :=
  let v := s.pav p
  let bk := s.bank p c.bank
  let legal (w : RowCand) : Bool := decide (w.at_ ≤ t) || bk.stop.any (fun x => x.1 == w.lvl && decide (x.2 ≤ t))
  let waits := rows.filter (fun w => w.bank == c.bank && decide (w.cmd = .pre) && !w.policy)
  decide (c.at_ ≤ t) && !pauseStops v t c.lvl c.free && (c.held ||
    -- work of a higher level whose precharge is legal takes the bank (R258)
    (!waits.any (fun w => decide (w.lvl < c.lvl) && legal w) &&
    -- a pending refresh whose rank could be precharged takes the rank (R310)
    (match s.refLevel p (c.bank / 16) with
     | some lv => !(decide (lv < c.lvl) && since t (s.rank p (c.bank / 16)).stop)
     | none => true) &&
    -- the limit on consecutive hits (R255)
    !(decide (s.hitMax p ≤ bk.hits) && waits.any (fun w => decide (w.lvl ≤ c.lvl)))))

/-- The column command that issues at time t, if any. -/
def State.pickCol (s : State) (p t : Nat) (rows : List RowCand) (cols : List ColCand) : Option ColCand :=
  leastBy (fun c => [c.lvl, (if (s.pav p).preferWrites && c.write then 0 else 1), c.age, c.id]) (cols.filter (s.colOk p t rows))

/-- Whether a column command is of a line. -/
def ColCmd.isLine : ColCmd → Bool
  | .line _ => true
  | .step _ _ => false
  | .copy _ => false
  | .slice _ => false

/-- Whether a row command may issue at time t. [DEDUCED, notes/assumptions/28.md] -/
def State.rowOk (s : State) (p t : Nat) (rows : List RowCand) (cols : List ColCand) (w : RowCand) : Bool :=
  let isRef := match w.cmd with | .refresh _ => true | _ => false
  let isAct := match w.cmd with | .pre => false | .refresh _ => false | _ => true
  let hits := cols.filter (fun c => c.bank == w.bank)
  decide (w.at_ ≤ t) &&
  (isRef ||
    -- no work of a lower level opens or closes a row where higher work waits (R258)
    (!(rows.any (fun x => x.bank == w.bank && !x.policy && decide (x.lvl < w.lvl))) && !hits.any (fun c => decide (c.lvl < w.lvl)) &&
     (if isAct then
        !pauseStops (s.pav p) t w.lvl w.free &&
        (w.held || (match s.refLevel p (w.bank / 16) with | some lv => !decide (lv < w.lvl) | none => true))
      else
        -- a write-back takes its open row before anything closes it (R356)
        !s.backWaits p w.bank &&
        (if w.policy then
          -- a row with a hit legal in this or the next cycle stays open (R254)
          !hits.any (fun c => c.cmd.isLine && decide (c.at_ ≤ t + tPav))
        else
          -- a row hit before a row miss within a level (R257), within the limit of R255
          !(hits.any (fun c => decide (c.lvl ≤ w.lvl)) && decide ((s.bank p w.bank).hits < s.hitMax p)) || w.ref))))

/-- The row command that issues at time t, if any: the write preference of R270 holds within a level. -/
def State.pickRow (s : State) (p t : Nat) (rows : List RowCand) (cols : List ColCand) : Option RowCand :=
  leastBy (fun w => [w.lvl, (if (s.pav p).preferWrites && w.write then 0 else 1), w.age, w.id, w.bank])
    (rows.filter (s.rowOk p t rows cols))

/-! ## What a command does -/

/-- The disposition of a row after a column command of a line (R184, R253, R254): level and earliest time of a precharge. -/
def State.closeAfter (s : State) (p t lvl : Nat) (e : Ent) : Option (Nat × Nat) :=
  let h := e.req.hint.toNat
  let pol := if h = 0 then (let q := s.rd (Fld.PAV_SCHED_CTRL_PAGE_POLICY p); if q = 0 then 2 else if q = 1 then 1 else 4) else h
  if pol = 1 ∨ (pol = 3 ∧ e.req.loc.col = 31) then some (lvl, t + tPav)
  else if pol = 4 then some (lvl, t + tPav * 4 * s.rd (Fld.PAV_SCHED_CTRL_OPEN_IDLE p))
  else none

/-- A column command takes its slot (R251, R252). -/
def colIssued (p t b : Nat) (write : Bool) (s : State) : State :=
  (s.modBank p b (fun k => { k with rd := if write then k.rd else some t, wr := if write then some t else k.wr })).modPav p
    (fun v => { v with lastCol := some t })

/-- A column command of a line issues (R251): a read sets out, or a write-buffer line is stored.
[DESIGN CHOICE, notes/assumptions/29.md] -/
def issueLine (p t : Nat) (c : ColCand) (e : Ent) (rows : List RowCand) (s : State) : State :=
  let b := e.req.loc.bank
  let older := rows.any (fun w => w.bank == b && decide (w.cmd = .pre) && !w.policy && decide (w.lvl ≤ c.lvl) &&
    lexLt [w.age, w.id] [c.age, c.id])
  let close := if e.host then s.closeAfter p t c.lvl e else (s.bank p b).close
  let s := s.modBank p b (fun k => { k with hits := if older then k.hits + 1 else 0, close := close })
  let s := s.modRank p (b / 16) (fun k => { k with lastUse := t })
  if c.write then
    let s := storeLine e.req.loc e.words s
    let s := s.modPav p (fun v => { v with ents := v.ents.filter (fun x => x.req.id != e.req.id) })
    if e.host then monSample p ((t - e.req.since) / tPav) e.req.tc.toNat true none s else s
  else
    let raw := s.readLine e.req.loc
    s.modPav p (fun v => { v with
      ents := v.ents.map (fun x => if x.req.id = e.req.id then { x with st := .flying } else x)
      flight := v.flight ++ [{ ent := e.req.id, loc := e.req.loc, raw := raw, source := readSource e, fromBuf := false,
                               at_ := t + tPav * 20, last := false }] })

/-- A read of a scrub step issues (R360): until it is back, and written back if need be, it holds the line (R356). -/
def issueStep (p t : Nat) (x : ScrubStep) (col : Nat) (s : State) : State :=
  let l : Loc := { pav := p, bank := x.bank, row := x.row, col := col }
  let r : LineReq := { id := s.nextId, owner := .scrub, agent := 0, loc := l, idx := 0, op := .read, tc := 0, panic := false, hint := 0,
                       since := t, promoted := false, stalled := false }
  let e : Ent := { req := r, st := .flying, aged := 0, words := Vector.replicate 8 0, host := false, level := s.stepLevel p x, got := none }
  let f : Flight := { ent := r.id, loc := l, raw := s.readLine l, source := .scrub, fromBuf := false, at_ := t + tPav * 20,
                      last := x.left.tail.isEmpty }
  { s with nextId := s.nextId + 1 }.modPav p (fun v => { v with
    ents := v.ents ++ [e], flight := v.flight ++ [f], scrubStep := some { x with left := x.left.tail } })

/-- The write-buffer line that holds a line, if there is one (R270). -/
def State.bufferedAt (s : State) (l : Loc) : Option Ent :=
  ((s.pav l.pav).ents.filter (fun e => e.st == .buffered && e.req.loc.same l)).getLast?

/-- The running copy reads its next line, or writes it to the spare (R369). -/
def issueCopy (p : Nat) (c : Copy) (s : State) : State :=
  let l : Loc := { pav := p, bank := c.bank, row := c.row, col := c.lines.length }
  let c' : Copy :=
    if c.lines.length < 32 then
      { c with lines := c.lines ++ [match s.bufferedAt l with | some e => (e.words, true) | none => (s.readLine l, false)] }
    else { c with wrote := c.wrote + 1 }
  s.modPav p (fun v => { v with copies := v.copies.map (fun d => if d = c then c' else d) })

/-- The background word of a column (R393): bit 0 of every pair of an even column in the checkerboard. -/
def bgWord (checker : Bool) (col : Nat) : Raw72 :=
  if checker then (if col % 2 = 0 then 0x555555555555555555 else 0xAAAAAAAAAAAAAAAAAA) else 0

/-- The column a slice has come to: M3 and M4 descend (R393). -/
def Slice.column (x : Slice) : Nat := if x.phase = 4 ∨ x.phase = 5 then 31 - x.col else x.col

/-- What a slice writes to its column: the background word or its complement in a March element, the saved bits in the restore
phase (R391, R393). -/
def Slice.written (x : Slice) : RawLine :=
  if x.phase = 7 then x.save.getD x.column (Vector.replicate 8 0)
  else
    let w := bgWord x.checker x.column
    Vector.replicate 8 (if x.phase = 2 ∨ x.phase = 4 then ~~~w else w)

/-- A column command of a slice issues (R391 to R395). -/
def issueSlice (p : Nat) (x : Slice) (s : State) : State :=
  let s := if x.nextWrite then writePhys p x.bank x.phys x.column x.written s else s
  let pair := x.reads && x.writes
  let x' := if pair && !x.half then { x with half := true } else { x with half := false, col := x.col + 1 }
  s.modPav p (fun v => { v with slice := some x' })

/-- A column command issues (R251). -/
def issueCol (p t : Nat) (c : ColCand) (rows : List RowCand) (s : State) : State :=
  let s := colIssued p t c.bank c.write s
  match c.cmd with
  | .line e => issueLine p t c e rows s
  | .step x col => issueStep p t x col s
  | .copy k => issueCopy p k s
  | .slice x => issueSlice p x s

/-- An activate of a bank. -/
def openBank (p b row t : Nat) (s : State) : State :=
  (s.modBank p b (fun k => { k with open_ := some row, act := some t, hits := 0, close := none, stop := [] })).modRank p (b / 16)
    (fun k => { k with acts := ((t, b / 4 % 4) :: k.acts).take 4 })

/-- The row of a slice is precharged: at the end of a phase the next begins, else the slice yields (R393, R397). -/
def Slice.closed (x : Slice) (t : Nat) : Slice :=
  if x.col = 32 then { x with phase := x.phase + 1, col := 0 }
  else { x with yielded := true, held := x.held + (t - x.heldAt) / tPav, heldAt := max t x.heldAt }

/-- What the precharge of a row ends: a target of a neighbour entry (R321), a phase of a slice. -/
def rowClosed (p b row t : Nat) (s : State) : State :=
  s.modPav p (fun v => { v with
    neigh := (v.neigh.map (fun x =>
      if x.bank = b ∧ x.active = true then { x with targets := x.targets.tail, active := false } else x)).filter (fun x => !x.targets.isEmpty)
    slice := v.slice.map (fun x => if x.bank = b ∧ row = heldRow x.phys then x.closed t else x) })

/-- A precharge of a bank. -/
def closeBank (p b t : Nat) (s : State) : State :=
  let was := (s.bank p b).open_
  let s := s.modBank p b (fun k => { k with open_ := none, pre := some t, hits := 0, close := none, stop := [] })
  match was with
  | some r => rowClosed p b r t s
  | none => s

/-- A refresh of a rank issues (R308, R309): a slice in the rank that waits for it yields (R397), a TSV step pauses (R474). -/
def issueRefresh (p r t : Nat) (s : State) : State :=
  let s := s.wr (fldDebt p r) (s.debt p r - 1)
  let s := s.modRank p r (fun k => { k with n := k.n - 1, lastRef := some t })
  let s := s.modPav p (fun v => { v with
    slice := v.slice.map (fun x =>
      if x.bank / 16 = r ∧ x.yielded = false then
        { x with yielded := true, held := x.held + (t - x.heldAt) / tPav, heldAt := max x.heldAt t }
      else x)
    tsv := (match v.tsv with
      | some x => some (match x.step with
          | some q =>
            let stop := match x.refFrom with | some f => f - tPav | none => t
            { x with held := x.held + (stop - x.heldAt) / tPav, refFrom := none,
                     heldAt := max x.heldAt (if q.val = r then t + tPav * 420 else t + tPav) }
          | none => x)
      | none => none) })
  selfReady p r (refStep p r s)

/-- The scrub position moves on, and the step is no longer due (R359, R384). [DEDUCED, notes/assumptions/35.md] -/
def scrubAdvance (p : Nat) (s : State) : State :=
  let k := s.scrubAt p
  let s := s.modPav p (fun v => { v with scrubDue := false, scrubMissed := 0, scrubEsc := false })
  if k.1 < 63 then s.wr (Fld.PAV_SCRUB_POS_BANK p) (k.1 + 1)
  else
    let s := s.wr (Fld.PAV_SCRUB_POS_BANK p) 0
    if k.2 < 32767 then s.wr (Fld.PAV_SCRUB_POS_ROW p) (k.2 + 1)
    else (s.wr (Fld.PAV_SCRUB_POS_ROW p) 0).sat (Fld.PAV_SCRUB_POS_PASSES p)

/-- An activate for a line or a scrub step: it may draw a neighbour refresh (R318). -/
def actDraw (p b row t : Nat) (s : State) : State := neighDraw p b (s.physOf p b row) (openBank p b row t s)

/-- A scrub step starts (R360): its row is activated; its lines are to be read. [DEDUCED, notes/assumptions/35.md] -/
def startScrub (p t lvl : Nat) (s : State) : State :=
  let k := s.scrubAt p
  let s := (actDraw p k.1 k.2 t s).modPav p (fun v => { v with
    scrubStep := some { bank := k.1, row := k.2, level := lvl, left := List.range 32 } })
  scrubAdvance p s

/-- A slice's row is activated: its cycles count from now (R395, R400). -/
def Slice.opened (x : Slice) (t : Nat) : Slice := if x.yielded then { x with yielded := false, heldAt := t } else x

/-- What a row command does. -/
def rowDoes (p t : Nat) (w : RowCand) (s : State) : State :=
  match w.cmd with
  | .pre => closeBank p w.bank t s
  | .actLine row => actDraw p w.bank row t s
  | .actNeigh phys drawn =>
    (openBank p w.bank (65536 + phys) t s).modPav p (fun v => { v with
      neigh := v.neigh.map (fun x => if x.bank = w.bank ∧ x.since = drawn then { x with started := true, active := true } else x) })
  | .actCopy row =>
    (openBank p w.bank row t s).modPav p (fun v => { v with
      copies := match v.copies with
        | c :: cs => (if c.running then c else { c with running := true, since := t }) :: cs
        | [] => [] })
  | .actSpare phys => openBank p w.bank (heldRow phys) t s
  | .actScrub => startScrub p t w.lvl s
  | .actStep row => actDraw p w.bank row t s
  | .actSlice phys => (openBank p w.bank (heldRow phys) t s).modPav p (fun v => { v with slice := v.slice.map (fun x => x.opened t) })
  | .refresh r => issueRefresh p r t s

/-- A row command issues (R251). -/
def issueRow (p t : Nat) (w : RowCand) (s : State) : State := rowDoes p t w (s.modPav p (fun v => { v with lastIssue := some t }))

/-- Ranks whose lines wait, and every rank outside Rest, leave power-down (R275). -/
def wakeRanks (p : Nat) (s : State) : State :=
  forUpto 4 (fun r a =>
    if (a.refLevel p r).isSome || (a.pav p).ents.any (fun e => e.req.loc.bank / 16 == r) ||
        decide (a.rd Fld.GLB_PWR_STAT_STATE ≠ 1) then wakeRank p r a
    else a) s

/-- The write preference of R270. -/
def updatePrefer (p : Nat) (s : State) : State :=
  let hi := min 768 (s.rd (Fld.PAV_BUF_CTRL_WR_HI p))
  let lo0 := s.rd (Fld.PAV_BUF_CTRL_WR_LO p)
  let lo := if hi ≤ lo0 then hi / 2 else lo0
  let n := s.wrHeld p
  s.modPav p (fun v => { v with preferWrites := if hi < n then true else if n ≤ lo then false else v.preferWrites })

/-- The first hold of draws for want of room in the queue (R322, R339). -/
def noteFull (p : Nat) (s : State) : State :=
  if s.drawHold p then
    if (s.pav p).neighFull then s
    else ((s.modPav p (fun v => { v with neighFull := true })).sat (Fld.PAV_NEIGH_STAT_FULL p)).raiseOnce (evPav p 5) 0
  else s.modPav p (fun v => { v with neighFull := false })

/-- A due scrub step whose row lies in no enabled region counts as done (R360). -/
def skipScrub (p : Nat) (s : State) : State :=
  match s.scrubLevel p with
  | some _ => if s.scrubEnabled p (s.scrubAt p).2 then s else scrubAdvance p s
  | none => s

/-- A scrub step passes over the lines that the write buffer holds (R270, R344), and is over once it has read every line and its row is
closed. -/
def trimStep (p : Nat) (s : State) : State :=
  match (s.pav p).scrubStep with
  | none => s
  | some x =>
    let held (c : Nat) : Bool := (s.pav p).ents.any (fun e => e.st == .buffered && e.host &&
      e.req.loc.same { pav := p, bank := x.bank, row := x.row, col := c })
    let x' := { x with left := x.left.dropWhile held }
    let done := x'.left.isEmpty && (s.bank p x.bank).open_ != some x.row
    s.modPav p (fun v => { v with scrubStep := if done then none else some x' })

/-- The commands that issue at time t (R251); none when nothing can. -/
def State.issueAt (s : State) (p t : Nat) (rows : List RowCand) (cols : List ColCand) : Option State :=
  match s.pickCol p t rows cols, s.pickRow p t rows cols with
  | none, none => none
  | some c, none => some (issueCol p t c rows (s.atLeast t))
  | none, some w => some (issueRow p t w (s.atLeast t))
  | some c, some w =>
    -- a precharge of the bank of the column command waits for it
    if w.bank = c.bank then some (issueCol p t c rows (s.atLeast t))
    else some (issueRow p t w (issueCol p t c rows (s.atLeast t)))

/-- The first of some times at which a command issues. [DESIGN CHOICE, notes/assumptions/29.md] -/
def State.issueFirst (s : State) (p : Nat) (rows : List RowCand) (cols : List ColCand) : Nat → Nat → Option (Nat × State)
  | 0, _ => none
  | fuel + 1, t =>
    match s.issueAt p t rows cols with
    | some s' => some (t, s')
    | none =>
      let later := (rows.map (fun w => w.at_) ++ cols.map (fun c => c.at_) ++ [(s.pav p).pausedUntil]).filter (fun x => decide (t < x))
      match leastBy (fun x => [x]) later with
      | some x => s.issueFirst p rows cols fuel (cycleFrom x)
      | none => none

/-- What the pavilion settles by itself before and after a command. -/
def pavSettle (p : Nat) (s : State) : State :=
  noteWaits p (noteTsv p (trimStep p (serveBuffered p (skipScrub p (noteFull p (updatePrefer p (wakeRanks p (refAll p s))))))))

/-- In a pavilion cycle the scheduler issues at most one row and one column command (R251 to R275): the time moves to the
first cycle in which one is legal; nothing issues when nothing waits.
[DESIGN CHOICE, notes/assumptions/11.md; DESIGN CHOICE, notes/assumptions/29.md] -/
def execSchedulerIssue (p : PavId) (s : State) : Out :=
  let s := pavSettle p s
  if (s.pav p).gated then .next s
  else
    let rows := s.rowCands p
    let cols := s.colCands p
    match s.issueFirst p rows cols (rows.length + cols.length + 2) (cycleFrom s.now) with
    | some (_, s) => .next (drainStep p (trimStep p (serveBuffered p (refAll p s))))
    | none => .next (drainStep p s)

/-! ## Ageing, pauses, power-down -/

/-- The starvation limit in ticks (R261). -/
def State.starve (s : State) (p : Nat) : Nat := tPav * 120 * max 1 (s.rd (Fld.PAV_AGE_STARVE p))

/-- A line becomes aged-1 (R261, R262). -/
def execAged1 (p : PavId) (id : Nat) (s : State) : Out :=
  match (s.pav p).ents.find? (fun e => e.req.id == id && e.host && e.aged == 0 && (e.st == .waiting || e.st == .buffered)) with
  | some e =>
    let s := s.atLeast (e.req.since + s.starve p + tPav)
    let s := s.modPav p (fun v => { v with ents := v.ents.map (fun x => if x.req.id = id then { x with aged := 1 } else x) })
    .next (refAll p (s.sat (Fld.PAV_SCHED_CNT_AGED1 p)))
  | none => .next s

/-- A line becomes aged-2, and the first of a turn raises the starvation event (R261, R262, R277). -/
def execAged2 (p : PavId) (id : Nat) (s : State) : Out :=
  match (s.pav p).ents.find? (fun e => e.req.id == id && e.host && e.aged != 2 && (e.st == .waiting || e.st == .buffered)) with
  | some e =>
    let s := s.atLeast (e.req.since + 2 * s.starve p + tPav)
    let s := if e.aged = 0 then s.sat (Fld.PAV_SCHED_CNT_AGED1 p) else s
    let s := s.modPav p (fun v => { v with ents := v.ents.map (fun x => if x.req.id = id then { x with aged := 2 } else x) })
    .next (refAll p ((s.sat (Fld.PAV_SCHED_CNT_AGED2 p)).raiseOnce (evPav p 0) (e.req.tc.toNat + 4 * (e.req.loc.bank / 16))))
  | none => .next s

/-- A throttle window begins (R272, R273): level and pause lengths take effect, a pause begins, and a slice or TSV step in
progress issues nothing during it (R398, R474). [DESIGN CHOICE, notes/assumptions/29.md] -/
def execThrottleWindowBoundary (p : PavId) (s : State) : Out :=
  let v := s.pav p
  let n := (s.now - v.startAt + 4096 - 1) / 4096
  let t0 := v.startAt + 4096 * n
  let t := match v.lastWin with | some w => max t0 (w + 4096) | none => t0
  if v.gated then .next s
  else
    let s := s.atLeast t
    let p1 := min 1000 (s.rd (Fld.PAV_THROTTLE_PAUSE1 p))
    let p2 := min 1000 (s.rd (Fld.PAV_THROTTLE_PAUSE2 p))
    let lv := v.throttleNext
    let pause := if lv = 1 then p1 else if lv = 2 then p2 else 0
    let stop := t + tPav * pause
    let s := s.wr (Fld.PAV_THROTTLE_LEVEL p) lv
    let s := s.modPav p (fun v => { v with
      lastWin := some t
      pausedUntil := stop
      slice := (match v.slice with
        | some x => some (if pause = 0 then x else { x with held := x.held + (t - x.heldAt) / tPav, heldAt := max x.heldAt stop })
        | none => none)
      tsv := (match v.tsv with
        | some x => some (if pause = 0 ∨ x.step.isNone = true then x else
            { x with held := x.held + (t - x.heldAt) / tPav, heldAt := max x.heldAt stop })
        | none => none) })
    .next (if pause = 0 then s else s.sat (Fld.PAV_SCHED_CNT_PAUSES p))

/-- A row of the adaptive policy has been idle OPEN_IDLE × 4 cycles: it is precharged (R253), as R251, R254 and R258 allow. -/
def execAdaptiveCloseTimer (p : PavId) (b : BankId) (s : State) : Out :=
  match (s.bank p b).close with
  | some (lv, t) =>
    if (s.bank p b).open_.isSome ∧ s.bankHeld p b = false then
      let t := cycleFrom (max (max s.now t) (max (s.earliestPre p b) (afterCyc (s.pav p).lastIssue 1)))
      let s := s.atLeast t
      let w : RowCand := { lvl := lv, bank := b, cmd := .pre, at_ := t, policy := true, free := true }
      .next (if s.rowOk p t (s.rowCands p) (s.colCands p) w then issueRow p t w s else s)
    else .next s
  | none => .next s

/-- Whether the turn under way ends by a time. -/
def State.turnBy (s : State) (t : Nat) : Bool := decide (s.cadTick (s.cad.t0 + s.cadLen) ≤ t)

/-- Whether a window of a rank is open, or opens by a time (R303). -/
def State.windowBy (s : State) (p r t : Nat) : Bool :=
  s.windowOpen p r || (List.range 4).any (fun w =>
    let v := (s.effective (Off.PAV_REF_WIN p r w)).toNat
    let a := bitsOf v 0 10
    let u := s.cad.t0 + (a * s.cadLen + 1023) / 1024
    let past := match s.cad.angle with | some b => decide (a ≤ b) | none => false
    bitAt v 31 && decide (s.cadTick (if past then u + s.cadLen else u) ≤ t))

/-- Whether a refresh of a rank falls due by a time: a window opens while it owes one, or its debt reaches 8 (R309). -/
def State.refreshBy (s : State) (p r t : Nat) : Bool :=
  let k := s.rank p r
  let grown := s.debt p r + (s.accNow p r + 2 * (s.pav p).rate * ((t - s.now) / tPav)) / 9375
  (k.st != .quiet && k.st != .owed) || decide (8 ≤ grown) || (decide (0 < grown) && s.windowBy p r t)

/-- Whether a scrub step for a rank is under way, due, or falls due by a time (R359, R360). -/
def State.scrubBy (s : State) (p r t : Nat) : Bool :=
  let v := s.pav p
  (match v.scrubStep with | some x => x.bank / 16 == r | none => false) ||
    ((v.scrubDue || v.scrubLeft == 0 || (v.scrubLeft == 1 && s.turnBy t)) && (s.scrubAt p).1 / 16 == r && s.scrubEnabled p (s.scrubAt p).2)

/-- Whether a slice for a rank is under way, due, or falls due by a time (R402, R404). -/
def State.sliceBy (s : State) (p r t : Nat) : Bool :=
  let v := s.pav p
  (match v.slice with | some x => x.bank / 16 == r | none => false) ||
    (match v.rowTest with | some x => x.1 / 16 == r | none => false) ||
    ((v.sliceDue || (s.on Fld.GLB_BIST_CTRL_SWEEP && s.test.sweepMask.getLsbD p &&
        (s.test.sweepLeft == 0 || (s.test.sweepLeft == 1 && s.turnBy t)))) && s.rd (Fld.PAV_BIST_POS_K p) % 64 / 16 == r)

/-- Whether refresh, neighbour refresh, a scrub step or a slice for a rank is due by a time (R274). -/
def State.rankDue (s : State) (p r t : Nat) : Bool :=
  s.refreshBy p r t || (s.pav p).neigh.any (fun x => x.bank / 16 == r) || s.scrubBy p r t || s.sliceBy p r t ||
    (match (s.pav p).copies with | c :: _ => c.bank / 16 == r | [] => false)

/-- In Rest a rank with no line in the table for PD_IDLE cycles enters power-down, its banks precharged first (R274, R275). -/
def execPowerDownEntry (p : PavId) (r : RankId) (s : State) : Out :=
  let k := s.rank p r
  let idle := s.rd (Fld.PAV_PWR_PD_IDLE p)
  if s.rd Fld.GLB_PWR_STAT_STATE = psRest ∧ idle ≠ 0 ∧ k.down = false ∧ k.inSelf = false ∧ k.st ≠ .self_ ∧
      (s.pav p).ents.any (fun e => e.req.loc.bank / 16 == r.val) = false ∧
      s.rankDue p r (max s.now (k.lastUse + tPav * idle) + tPav * idle) = false ∧
      (List.range 16).all (fun i => !s.bankHeld p (16 * r + i)) = true then
    let s := s.atLeast (k.lastUse + tPav * idle)
    let s := forUpto 16 (fun i a =>
      if (a.bank p (16 * r + i)).open_.isSome then
        let t := cycleFrom (max (max a.now (a.earliestPre p (16 * r + i))) (afterCyc (a.pav p).lastIssue 1))
        issueRow p t { lvl := 10, bank := 16 * r + i, cmd := .pre, at_ := t } (a.atLeast t)
      else a) s
    .next (s.modRank p r (fun k => { k with down := true, lastUse := s.now }))
  else .next s

end Sys2Proof.Machine
end

