-- ==== Sys2Proof/Machine/Cadence.lean ====
section
/-! DEFINITION. The cadence unit (R291 to R302, R753): turns, angle steps, markers, sources; and what each turn boundary and
angle step does to the rest of the stack. Times of the unit are in 1/256 fabric cycle. -/
namespace Sys2Proof.Machine
open Sys2Proof

/-- Whether the stack counts turns: past the lock of the core PLLs (R291, R697). -/
def State.clocked (s : State) : Bool :=
  match s.power.boot with
  | .off => false
  | .reading _ => false
  | .cold => false
  | .pll _ => false
  | .failed => false
  | .dram _ => true
  | .certWindow => true
  | .certCheck => true
  | .test => true
  | .finish => true
  | .done => true

/-! ## Calibration steps that start at slot 2 (R465, R472) -/

/-- A requested retune starts (R465): recovery with full training, cause index 5 (R466); a port that coasts or is parked wakes
for it first (R467). -/
def retuneStart (n : Nat) (s : State) : State :=
  if s.rd (Fld.PRT_CAL_STAT_STATE n) = 1 then
    if s.up n then enterRecovery n 5 true (s.wr (Fld.PRT_CAL_STAT_STATE n) 2)
    else if (List.range 8).all (fun p => (s.lane n p).exitDeadline.isNone) = false then s
    else if s.link n = lsCoast then startCoastExit n s
    else if s.link n = lsParked ∧ s.power? < 2 then startParkedExit n s
    else s
  else s

/-- A TSV step starts when R472 and R474 allow: the rank is precharged and held. -/
def tsvStepStart (p : Nat) (s : State) : State :=
  match (s.pav p).tsv with
  | some t =>
    if t.step.isNone = true ∧ t.turn ≠ s.cad.turn ∧ (s.pav p).slice = none ∧ (s.pav p).gated = false ∧ (s.pav p).drain = .none_ ∧
        s.rd (Fld.PAV_THROTTLE_LEVEL p) = 0 ∧
        (List.range 4).all (fun r => decide (s.debt p r < 4) && s.refLevel p r != some 1) = true then
      match (List.finRange 4).find? (fun r => t.ranksLeft.getLsbD r.val) with
      | some r =>
        let s := wakeRank p r s
        let s := forUpto 16 (fun i a =>
          if (a.bank p (16 * r + i)).open_.isSome then closeBank p (16 * r + i) (max (cycleFrom a.now) (a.earliestPre p (16 * r + i))) a else a) s
        let s := s.modPav p (fun v => { v with tsv := some { t with step := some r, held := 0, heldAt := s.now, refFrom := none } })
        (s.wr (Fld.PAV_TSV_STAT_STATE p) 2).wr (Fld.PAV_TSV_STAT_RANK p) r.val
      | none => s
    else s
  | none => s

/-! ## Angle steps (R293) -/

/-- Ranks in power-down that owe refreshes wake tXP before their window opens (R275). -/
def wakeBeforeWindow (p angle : Nat) (s : State) : State :=
  let ahead := (tPav * 8 * 256 / tFab) * 1024 / s.cadLen + 1
  forUpto 4 (fun r a =>
    let k := a.rank p r
    if k.down then
      let opens := (List.range 4).any (fun w =>
        let v := (a.effective (Off.PAV_REF_WIN p r w)).toNat
        bitAt v 31 && bitsOf v 0 10 == (angle + ahead) % 1024)
      if opens && decide (0 < a.debt p r) then wakeRank p r a else a
    else a) s

/-- Angle step `a` is delivered (R293): levels are sampled (R563), refresh windows open (R303, R309), requested retunes and
TSV steps start at slot 2 (R465, R472), telemetry is queued at the first angle of slot 3 (R568). -/
def deliverStep (a : Nat) (s : State) : State :=
  let s := { s with cad := { s.cad with angle := some a } }
  let s := monLevels s
  let s := forUpto 32 (fun p b =>
    let b := refAll p (wakeBeforeWindow p a (forUpto 4 (fun r c => stepWindows p r a c) b))
    if b.slotCovers 2 p a then tsvStepStart p b else b) s
  let s := forUpto 16 (fun n b => if b.slotCovers 2 n a then retuneStart n b else b) s
  if bitsOf (s.effective (Off.CAD_SLOT 3)).toNat 0 10 = a then queueTelemetry s else s

/-- The steps from `a` on are delivered in order, `n` of them. -/
def deliverFrom : Nat → Nat → State → State
  | 0, _, s => s
  | n + 1, a, s => deliverFrom n (a + 1) (deliverStep a s)

/-- The first step not yet delivered in this turn. -/
def State.nextStep (s : State) : Nat := match s.cad.angle with | none => 0 | some a => a + 1

/-- An angle step is delivered (R293): the next one of the turn; at 1023 the angle holds. -/
def execAngleStep (s : State) : Out :=
  let k := s.nextStep
  if s.clocked ∧ k ≤ 1023 then
    let t := s.cad.t0 + (k * s.cadLen + 1023) / 1024
    .next (deliverStep k (s.atLeast (s.cadTick t)))
  else .next s

/-! ## Turn boundaries -/

/-- What a turn boundary does to a pavilion: bucket leak (R353), LFSR reseed (R319), scrub and calibration intervals. -/
def pavTurn (p : Nat) (s : State) : State :=
  let leak := max 1 (s.rd (Fld.PAV_BUCKET_CFG_LEAK p))
  let s := if s.cad.turn.toNat % leak = 0 then s.wr (Fld.PAV_BUCKET_STAT_LEVEL p) (s.rd (Fld.PAV_BUCKET_STAT_LEVEL p) - 1) else s
  let auto := s.rd (Fld.PAV_TSV_CTRL_AUTO p)
  let s := s.modPav p (fun v => { v with
    scrubLeft := v.scrubLeft - 1
    scrubMissed := if v.scrubDue && !v.scrubEsc then v.scrubMissed + 1 else v.scrubMissed
    tsvTurns := if auto = 0 then 0 else v.tsvTurns + 1 })
  reseed p s

/-- A turn boundary: the turn number grows by one (R291), written values take effect (R304, R333), once-a-turn events may be
raised again, monitor windows count (R564), TURN slots fall due (R235), and CAD_STAT.MISS says whether a marker ended the turn
(R328). [DEDUCED, notes/assumptions/32.md] -/
def newTurn (t0 : Nat) (marker : Bool) (s : State) : State :=
  let s := if s.eff.isEmpty then s else forUpto 32 (fun p a => forUpto 4 (fun r b => closeChanged p r b) a) s
  let s := { s with
    eff := []
    onceTurn := []
    cad := { s.cad with turn := s.cad.turn + 1, t0 := t0, angle := none, lastByMarker := marker } }
  let s := s.wr Fld.CAD_STAT_MISS (b2n (!marker))
  let s := { s with test := { s.test with sweepLeft := s.test.sweepLeft - 1 } }
  let s := forUpto 32 (fun p a => pavTurn p a) s
  let s := forUpto 48 (fun u a => monTurn u a) s
  let s := finishSnaps s.stamp s
  forUpto 16 (fun n a =>
    if a.role n = 1 ∧ a.on (Fld.PRT_POOL_CTRL_TURN_OUT n) = true then
      sendTurn n (a.modPort n (fun p => { p with turnDue := some (a.cadTick t0) }))
    else a) s

/-- A turn ends after LEN with no marker, in freewheel (R296, R299). [DESIGN CHOICE, notes/assumptions/2.md] -/
def execTurnBoundary (s : State) : Out :=
  if s.clocked = false ∨ s.rd Fld.CAD_STAT_STATE = 2 then .next s
  else
    let t := s.cad.t0 + s.cadLen
    .next (newTurn t false (s.atLeast (s.cadTick t)))

/-- t0 + 1.02 × LEN on the unit's own count (R298, R753). -/
def State.missAt (s : State) : Nat := s.cad.t0 + s.cadLen * 102 / 100

/-- The end of a LOCKED turn without a marker (R298). [DEDUCED, notes/assumptions/32.md] -/
def missTurn (s : State) : State :=
  let t := s.missAt
  let again := s.on Fld.CAD_STAT_MISS
  let s := newTurn t false ((s.atLeast (s.cadTick t)).sat Fld.CAD_CNT_MISSED)
  if again then cadSeek 1 s else s

/-- No marker by t0 + 1.02 × LEN (R298). [DEDUCED, notes/assumptions/32.md] -/
def execMarkerMissExpiry (s : State) : Out :=
  if s.clocked ∧ s.rd Fld.CAD_STAT_STATE = 2 then .next (missTurn s) else .next s

/-! ## Markers (R295 to R298, R301, R753) -/

/-- 1.0 µs and 16.0 µs. -/
def cadMin : Nat := 1600 * 256
def cadMax : Nat := 25600 * 256

/-- Whether an interval lies within 1.0 to 16.0 µs. -/
def cadInRange (i : Nat) : Bool := decide (cadMin ≤ i) && decide (i ≤ cadMax)

/-- Whether an interval lies within ±2 % of another. -/
def cadNear (i ref : Nat) : Bool := decide (ref * 98 ≤ i * 100) && decide (i * 100 ≤ ref * 102)

/-- CAD_PORT_OFS at a port marker that ends a turn (R301), after the turn number has been increased. -/
def portOffset (lo : Option Nat) (s : State) : State :=
  match lo with
  | none => s
  | some l =>
    let v := (l + 65536 - s.cad.turn.toNat % 65536) % 65536
    let old := s.rd Fld.CAD_PORT_OFS_OFS
    let s := s.wr Fld.CAD_PORT_OFS_OFS v
    if s.cad.ofsFresh then { s with cad := { s.cad with ofsFresh := false } }
    else if v = old then s
    else (s.sat Fld.CAD_CNT_MISMATCH).raise (928 + 3) (v % 256)

/-- The unit locks at a marker (R297, R753). -/
def cadLock (m len : Nat) (learn : Bool) (lo : Option Nat) (s : State) : State :=
  let ofs := s.angleAt s.cad.t0
  let s := if learn then (s.wr Fld.CAD_LEN_LEN len).wr Fld.CAD_STAT_LEARNT 1 else s
  let s := ((s.wr Fld.CAD_STAT_STATE 2).wr Fld.CAD_STAT_LOCK 1).sat Fld.CAD_CNT_LOCKS
  let s := newTurn m true s
  let s := (s.wr Fld.CAD_RELOCK_OFFSET ofs).wr Fld.CAD_RELOCK_TURN (s.cad.turn.toNat % 65536)
  let s := portOffset lo (s.raise 928 (ofs / 4 % 256))
  deliverStep (s.angleAt m) { s with cad := { s.cad with intervals := [] } }

/-- A marker in SEEK (R297): the lock condition is tested. -/
def seekMarker (m : Nat) (iv : Option Nat) (lo : Option Nat) (s : State) : State :=
  match iv with
  | none => s
  | some i =>
    if s.on Fld.CAD_STAT_LEARNT then
      if cadInRange i && cadNear i (s.rd Fld.CAD_LEN_LEN) then cadLock m 0 false lo s else s
    else
      let l := (i :: s.cad.intervals).take 4
      let s := { s with cad := { s.cad with intervals := l } }
      match l with
      | [d, c, b, a] =>
        if l.all cadInRange && cadNear b a && cadNear c a && cadNear d a then cadLock m ((a + b + c + d) / 4) true lo s else s
      | _ => s

/-- A marker within the tolerance ends the turn (R298): the steps left are delivered, LEN follows the interval when the
previous turn also ended at a marker, and the new turn's steps up to now are delivered (R753). -/
def acceptMarker (m i : Nat) (lo : Option Nat) (s : State) : State :=
  let k := s.nextStep
  let s := deliverFrom (1024 - k) k s
  let len : Int := s.rd Fld.CAD_LEN_LEN
  let s := if s.cad.lastByMarker then s.wr Fld.CAD_LEN_LEN (len + Int.tdiv ((i : Int) - len) 8).toNat else s
  let s := portOffset lo (newTurn m true s)
  deliverFrom (s.angleAt m + 1) 0 s

/-- A marker in LOCKED (R298). One with a time beyond t0 + 1.02 × LEN, in the fabric cycle of that expiry, finds the turn ended and is
early in the next. [DEDUCED, notes/assumptions/33.md] -/
def lockedMarker (m : Nat) (iv : Option Nat) (lo : Option Nat) (s : State) : State :=
  let len := s.cadLen
  if s.missAt < m then
    let s := missTurn s
    if s.rd Fld.CAD_STAT_STATE = 2 then cadSeek 0 s else seekMarker m iv lo s
  else if (m - s.cad.t0) * 100 < len * 98 ∨ m < s.cad.t0 then cadSeek 0 s
  else
    match iv with
    | some i => if cadInRange i then acceptMarker m i lo s else s
    | none => s

/-- The expiries of t0 + 1.02 × LEN that lie in fabric cycles before the present one (R298, R753): the second leads to SEEK. -/
def missesDue : Nat → State → State
  | 0, s => s
  | fuel + 1, s =>
    if s.rd Fld.CAD_STAT_STATE = 2 ∧ s.missAt / 256 < s.cadNow / 256 then missesDue fuel (missTurn s) else s

/-- A marker with its time is recognised (R295, R296, R753): the expiries that the unit's own count has passed come first. -/
def marker (m : Nat) (lo : Option Nat) (s : State) : State :=
  if s.rd Fld.CAD_STAT_STATE = 0 then s
  else
    let iv := match s.cad.prevMarker with | some q => if q ≤ m then some (m - q) else none | none => none
    let s := missesDue 2 { s with cad := { s.cad with prevMarker := some m } }
    if s.rd Fld.CAD_STAT_STATE = 2 then lockedMarker m iv lo s else seekMarker m iv lo s

/-- A time `age` ticks ago, in the fabric cycle that holds it. -/
def State.markTime (s : State) (age : Nat) : Nat := s.cadAt (s.now - age) / 256 * 256

/-- A filtered rising edge on CAD_TURN (R295): a marker when the pin is the source; during EXTEST the pin's input to the core is
held (R743). While the fabric clock is stopped no marker is recognised (R299, R753).
[DEDUCED, notes/assumptions/33.md] -/
def execCadTurnEdge (age : Nat) (s : State) : Out :=
  if s.clocked ∧ s.rd Fld.CAD_CTRL_SRC = 1 ∧ s.power.tapHold = false ∧ s.cad.osc.isNone = true then .next (marker (s.markTime age) none s) else .next s

/-- A TURN slot (R133, R134): on the designated port a marker, unless its LATE is 0xFFF or it falls in a replay span. -/
def takeTurn (n lo late age : Nat) (s : State) : State :=
  if s.isCadPort n ∧ late ≠ 0xFFF ∧ (s.port n).retry.noMarkerUntil ≤ s.now then
    marker (s.markTime age - late * 256) (some lo) s
  else s

/-- A TURN slot is received (R133). -/
def execTurn (n : PortId) (lo : BitVec 16) (late : BitVec 12) (age : Nat) (s : State) : Out :=
  if s.up n then .next (takeTurn n lo.toNat late.toNat age (touch n s)) else .next s

/-! ## Sources (R295, R296, R300) -/

/-- CAD_CTRL takes a source and port (R300, R301, R326, R327). [DEDUCED, notes/assumptions/32.md] -/
def setSource (src port : Nat) (s : State) : State :=
  let src0 := s.rd Fld.CAD_CTRL_SRC
  let port0 := s.rd Fld.CAD_CTRL_PORT
  let src := if src = 3 then src0 else src
  if src = src0 ∧ port = port0 then s
  else
    let s := ((s.wr Fld.CAD_CTRL_SRC src).wr Fld.CAD_CTRL_PORT port).raise (928 + 2) (src + 4 * port)
    if src = src0 ∧ src ≠ 2 then s
    else
      let s := { s with cad := { s.cad with ofsFresh := true, prevMarker := none, intervals := [] } }
      let s := if s.rd Fld.CAD_STAT_STATE = 0 then
          (s.wr Fld.CAD_STAT_STATE 1).wr Fld.CAD_STAT_FW_CAUSE 2
        else cadSeek 2 s
      if src = 0 then s.wr Fld.CAD_STAT_STATE 0 else s

/-! ## Intervals counted in turns -/

/-- INTERVAL + 1 turns have passed: a scrub step falls due (R359), unless no step is raised in the pavilion (R362, R690). -/
def execScrubStepDue (p : PavId) (s : State) : Out :=
  let v := s.pav p
  if v.scrubLeft = 0 then
    let s := s.modPav p (fun v => { v with scrubLeft := s.rd (Fld.PAV_SCRUB_CTRL_INTERVAL p) + 1 })
    if v.gated ∨ s.halted ∨ s.on (Fld.PAV_REPAIR_STAT_RETIRED p) ∨ 2 ≤ s.rd Fld.GLB_PWR_STAT_STATE ∨ v.scrubDue then .next s
    else .next (s.modPav p (fun v => { v with scrubDue := true, scrubMissed := 0, scrubEsc := false }))
  else .next s

/-- A due step has not started in four turns (R361); it is counted while the pavilion accounts (R348). -/
def execScrubEscalation (p : PavId) (s : State) : Out :=
  let v := s.pav p
  if v.scrubDue ∧ v.scrubEsc = false ∧ 4 ≤ v.scrubMissed then
    let s := s.modPav p (fun v => { v with scrubEsc := true })
    let s := if s.accounts p then s.sat (Fld.PAV_SCRUB_CNT_ESCALATED p) else s
    .next (refAll p (s.raiseOnce (evPav p 12) 0))
  else .next s

/-- Repeat-corrector entries without a correction for 2^EXPIRE turns are freed (R357). -/
def execRepeatEntryExpiry (p : PavId) (s : State) : Out :=
  let e := s.rd (Fld.PAV_ECC_CTRL_EXPIRE p)
  if e = 31 then .next s
  else .next (s.modPav p (fun v => { v with
    repeats := v.repeats.filter (fun x => decide ((s.cad.turn.toNat + 2 ^ 40 - x.turn) % 2 ^ 40 < 2 ^ e)) }))

end Sys2Proof.Machine
end

