-- ==== Sys2Proof/Machine/Bist.lean ====
section
/-! DEFINITION. Self-test (R391 to R413): slices, the background sweep, the logic, TSV and lane tests, the start-up and parking
tests, and what their failures do. -/
namespace Sys2Proof.Machine
open Sys2Proof

/-- The code with which a command whose work a cause ends will complete (R516 to R518); the first cause stands, and the
mailbox is in ABORTING until the work has stopped. -/
def endWith (m code : Nat) (s : State) : State :=
  if m < 18 ∧ (s.mbx m).result = none then
    let s := if s.rd (Fld.MBX_STAT_STATE m) = mbRunning then s.wr (Fld.MBX_STAT_STATE m) mbAborting else s
    s.modMbx m (fun b => { b with endCode := (match b.endCode with | some c => some c | none => some (BitVec.ofNat 8 code)) })
  else s

/-! ## Positions (R403) -/

/-- One past the last sweep position. -/
def sweepEnd : Nat := 2101248
/-- The position of the first spare. -/
def sweepSpares : Nat := 64 * 32768

/-- What a sweep position denotes: bank, physical position, row number or spare index, and whether it is a spare; none for a
spare that is in use or unusable. -/
def State.sweepTarget (s : State) (p k : Nat) : Option (Nat × Nat × Nat × Bool) :=
  let b := k % 64
  let v := k / 64
  if v < 32768 then some (b, s.physOf p b v, v, false)
  else if s.spareFree p b (v - 32768) then some (b, physOfSpare (v - 32768), v - 32768, true)
  else none

/-- The position of a slice's row or spare. -/
def Slice.pos (x : Slice) : Nat := 64 * (if x.isSpare then 32768 + x.row else x.row) + x.bank

/-- The sweep position of a pavilion moves on (R403); a wrap is counted, and the first of a turn raises its event (R421). -/
def sweepStep (p k : Nat) (s : State) : State :=
  if k + 1 < sweepEnd then s.wr (Fld.PAV_BIST_POS_K p) (k + 1)
  else ((s.wr (Fld.PAV_BIST_POS_K p) 0).sat (Fld.PAV_BIST_POS_PASSES p)).raiseOnce (1008 + 5) p

/-- Positions whose spare is in use or unusable are skipped. -/
def sweepSkip (p : Nat) : Nat → State → State
  | 0, s => s
  | fuel + 1, s =>
    let k := s.rd (Fld.PAV_BIST_POS_K p)
    if (s.sweepTarget p k).isSome then s else sweepSkip p fuel (sweepStep p k s)

/-! ## Start-up and parking tests: the rows they cover (R410, R411) -/

/-- The residue of row numbers a test covers: none when it runs no slices, `some none` for every row. -/
def State.testRows (s : State) : Option (Option Nat) :=
  if s.test.startRunning then
    (if s.test.certResult = 0 then none
     else if s.rd Fld.GLB_BIST_STAT_POLICY = 0 then some none
     else if s.rd Fld.GLB_BIST_STAT_POLICY = 1 then some (some s.test.sampleS)
     else none)
  else if s.test.parkRun then some (some (s.rd Fld.GLB_PARK_SEQ_S % 64))
  else none

/-- Whether slices of a start-up or parking test run in a pavilion. -/
def State.testable (s : State) (p : Nat) : Bool :=
  !s.on (Fld.PAV_BIST_STAT_SAVE_FAULT p) && !s.on (Fld.PAV_REPAIR_STAT_RETIRED p) && !(s.pav p).gated

/-- The first position from k on that a test covers. -/
def State.testNext (s : State) (p k : Nat) (rows : Option Nat) : Option Nat :=
  let v := k / 64
  let k := if v < 32768 then
      match rows with
      | none => k
      | some r => if v % 64 = r then k else min sweepSpares (64 * (v + (r + 64 - v % 64) % 64))
    else k
  if k < sweepSpares then some k
  else ((List.range (sweepEnd - k)).find? (fun d => (s.sweepTarget p (k + d)).isSome)).map (fun d => k + d)

/-- The number of positions from k on that a test covers. -/
def State.testLeft (s : State) (p k : Nat) (rows : Option Nat) : Nat :=
  let v := k / 64
  let inRows := if v < 32768 then
      match rows with
      | none => sweepSpares - k
      | some r => (if v % 64 = r then 64 - k % 64 else 0) + 64 * (512 - (v + 64 - r) / 64)
    else 0
  let from_ := max k sweepSpares
  inRows + ((List.range (sweepEnd - from_)).filter (fun d => (s.sweepTarget p (from_ + d)).isSome)).length

/-! ## Slices -/

/-- Slices in progress (R424). -/
def State.slices (s : State) : Nat := (List.range 32).foldl (fun a p => a + b2n (s.pav p).slice.isSome) 0

/-- The slice a pavilion would start next. -/
def State.sliceNext (s : State) (p : Nat) : Option (Nat × Nat × Nat × Bool × SliceFor) :=
  let v := s.pav p
  if s.test.step = 4 ∧ s.testable p = true then
    match v.suspects with
    | (b, phys) :: _ =>
      let sub := phys / 1026
      let pos := phys % 1026
      let row := if pos < 1024 then sub * 1024 + pos else
        (match v.spared.find? (fun x => x.bank == b && x.spare == 2 * sub + (pos - 1024)) with | some x => x.row | none => 0)
      some (b, phys, row, false, .parking)
    | [] =>
      match s.testRows with
      | none => none
      | some rows =>
        match s.testNext p v.testPos rows with
        | none => none
        | some k =>
          (s.sweepTarget p k).map (fun t => (t.1, t.2.1, t.2.2.1, t.2.2.2, if s.test.startRunning then .startup else .parking))
  else
    match v.rowTest with
    | some (b, row, m) => some (b, s.physOf p b row, row, false, .row m)
    | none =>
      if v.sliceDue && s.on Fld.GLB_BIST_CTRL_SWEEP && s.test.sweepMask.getLsbD p then
        (s.sweepTarget p (s.rd (Fld.PAV_BIST_POS_K p))).map (fun t => (t.1, t.2.1, t.2.2.1, t.2.2.2, .sweep))
      else none

/-- Whether a slice of a bank may start (R396, R398, R401, R402, R481). [DESIGN CHOICE, notes/assumptions/40.md] -/
def State.sliceMay (s : State) (p b : Nat) (why : SliceFor) : Bool :=
  let v := s.pav p
  let slot := match why with
    | .startup => true
    | .parking => true
    | .sweep => (match s.cad.angle with | some a => s.slotCovers 1 p a | none => false)
    | .row _ => (match s.cad.angle with | some a => s.slotCovers 1 p a | none => false)
  slot && v.slice.isNone && decide (s.slices < min 8 (s.rd Fld.GLB_BIST_CTRL_MAX)) && s.rd (Fld.PAV_THROTTLE_LEVEL p) == 0 &&
    !v.gated && !s.halted && decide (v.drain = .none_) && !(s.rank p (b / 16)).down && !s.on (Fld.PAV_BIST_STAT_SAVE_FAULT p) &&
    !s.on (Fld.PAV_REPAIR_STAT_RETIRED p) && (s.tsvStep p).isNone && !s.bankHeld p b && (s.refLevel p (b / 16)).isNone &&
    -- level 10 opens or closes no row where higher work waits (R258)
    !v.ents.any (fun e => e.req.loc.bank == b && (e.st == .waiting || e.st == .buffered)) && !v.neigh.any (fun x => x.bank == b) &&
    !v.copies.any (fun c => c.bank == b) && (match v.scrubStep with | some x => x.bank != b | none => true) &&
    !(v.scrubDue && v.scrubEsc && (s.scrubAt p).1 == b)

/-- The pavilion cycles of a slice (R395). -/
def SliceFor.cycles (w : SliceFor) : Nat := if w.checked then 6786 else 4994

/-- The pavilion cycles a slice has still to run, as R395 counts them: all of its phases less those it has held its bank for, or the
precharge, restore and verify of one cut short (R399). -/
def Slice.left (x : Slice) : Nat := if x.aborted.isSome then 17 + 161 + 136 else x.why.cycles - x.held

/-- Whether a pavilion could start a slice now. -/
def State.sliceCould (s : State) (p : Nat) : Bool :=
  match s.sliceNext p with | some (b, _, _, _, why) => s.sliceMay p b why | none => false

/-- Whether the slices that lower-numbered pavilions could start leave room for one more under MAX (R401, R402). -/
def State.sliceTurn (s : State) (p : Nat) : Bool :=
  let limit := min 8 (s.rd Fld.GLB_BIST_CTRL_MAX)
  decide (s.slices + p < limit) || decide (s.slices + ((List.range p).filter (fun q => s.sliceCould q)).length < limit)

/-- A slice claims its bank and begins to save its row (R391, R396): its commands issue from now on.
[DESIGN CHOICE, notes/assumptions/40.md] -/
def execSliceStart (p : PavId) (s : State) : Out :=
  let s := if (s.pav p).sliceDue && s.test.step != 4 && (s.pav p).rowTest.isNone then sweepSkip p 4096 s else s
  match s.sliceNext p with
  | none => .next s
  | some (b, phys, row, spare, why) =>
    if s.sliceMay p b why && s.sliceTurn p then
      let x : Slice := { bank := b, phys := phys, row := row, isSpare := spare, why := why,
                         save := (List.range 32).map (fun c => s.readPhys p b phys c), held := 0, heldAt := s.now, aborted := none,
                         phase := 0, col := 0, half := false, yielded := true, checker := s.rd Fld.GLB_BIST_CTRL_BG == 1 }
      .next (s.modPav p (fun v => { v with
        slice := some x
        sliceDue := if why = .sweep then false else v.sliceDue
        rowTest := (match why with | .row _ => none | _ => v.rowTest) }))
    else .next s

/-! ## Failures (R408) -/

/-- A pavilion is retired at start-up (R367, R374, R408), with the cause of the start-up record (R705). -/
def retireStart (p cause : Nat) (s : State) : State :=
  if bitAt s.retiredMask p then s
  else
    ({ s with test := { s.test with
        retiredStart := BitVec.ofNat 32 (bitPut s.test.retiredStart.toNat p true)
        retireCause := tabSet 0 s.test.retireCause p cause } }).wr (Fld.PAV_REPAIR_STAT_RETIRED p) 1

/-- A spare becomes unusable until power is removed. -/
def spareBad (p b j : Nat) (s : State) : State :=
  ((s.modPav p (fun v => { v with
      badSpares := v.badSpares ++ [(b, j)]
      spared := v.spared.filter (fun x => !(x.bank == b && x.spare == j)) })).sat (Fld.PAV_BIST_CNT_UNUSABLE p)).raise (evPav p 15) b

/-- A row is served by another spare from now on (R368, R369); a spare it leaves stays taken. The repeat-corrector entries of the physical
row it leaves are freed (R355). -/
def switchRow (p b row j : Nat) (s : State) : State :=
  let s := freeRepeats p b (s.physOf p b row) s
  let s := s.modPav p (fun v => { v with
    leftSpares := v.leftSpares ++ (v.spared.filter (fun x => x.bank == b && x.row == row)).map (fun x => (b, x.spare))
    spared := v.spared.filter (fun x => !(x.bank == b && x.row == row)) ++ [{ bank := b, row := row, spare := j, runtime := true }] })
  let s := logRecord p (s.record p { pav := p, bank := b, row := row, col := 0 } 0 6 0 0 (some 0)) s
  (s.raise (evPav p 9) b).sat (Fld.PAV_REPAIR_STAT_RUNTIME_USED p)

/-- A failing row takes a spare and the save buffer is restored into it (R408): the spare taken, if there was one. -/
def spareRow (p b row : Nat) (save : List RawLine) (s : State) : Option Nat × State :=
  match s.takeSpare p b with
  | none =>
    if s.test.startRunning then (none, retireStart p 5 s) else (none, exhaust p b row s)
  | some j => (some j, restoreInto p b (physOfSpare j) save (switchRow p b row j s))

/-- The class of a failure (R394, R420): the checked form reads a column of M1 to M4 once more, and the failure is stuck when the same
bits are wrong again. The other elements are read once. [DEDUCED, notes/assumptions/40.md] -/
def sliceClass (w : SliceFor) (f : SliceFail) : SliceClass :=
  if f.element = 6 then .verify
  else if w.checked && decide (1 ≤ f.element.val) && decide (f.element.val ≤ 4) then (if f.again = f.bits then .stuck else .intermittent)
  else .unclassified

/-- The code of a class (R420). -/
def classCode : SliceClass → Nat
  | .stuck => 0
  | .intermittent => 1
  | .unclassified => 2
  | .verify => 3

/-- The registers and event of a slice failure (R420, R429, R430). -/
def noteFail (p : Nat) (x : Slice) (f : SliceFail) (s : State) : State :=
  let cls := classCode (sliceClass x.why f)
  let n := (List.range 72).foldl (fun a i => a + b2n (bitAt f.bits.toNat i)) 0
  let low := match (List.range 72).find? (fun i => bitAt f.bits.toNat i) with | some i => i | none => 0
  let s := s.setReg (Off.PAV_BIST_FAIL_0 p) (BitVec.ofNat 32
    (2 ^ 31 + cls * 2 ^ 29 + f.element.val * 2 ^ 26 + f.col.val * 2 ^ 21 + x.row * 2 ^ 6 + x.bank))
  let s := s.setReg (Off.PAV_BIST_FAIL_1 p) (BitVec.ofNat 32
    (b2n x.isSpare * 2 ^ 31 + f.word.val * 2 ^ 24 + n * 2 ^ 16 + low))
  (s.sat (Fld.PAV_BIST_CNT_FAILED p)).raise (evPav p 14) (x.bank + 64 * cls)

/-- What a failed slice does to its row (R408): the answer of SLICE_ROW and the state. The verify of the spare that took the
row's place may fail once more; then the row is spared again. -/
def sliceFailed (p : Nat) (x : Slice) (f : SliceFail) (verifyOk : Bool) (s : State) : Nat × State :=
  let s := noteFail p x f s
  if x.isSpare then (1, spareBad p x.bank x.row s)
  else
    let s := match s.spareOf p x.bank x.row with | some j => spareBad p x.bank j s | none => s
    match spareRow p x.bank x.row x.save s with
    | (none, s) => (2, s)
    | (some j, s) =>
      if verifyOk then (1, s)
      else
        match spareRow p x.bank x.row x.save (spareBad p x.bank j s) with
        | (none, s) => (2, s)
        | (some _, s) => (1, s)

/-- The bank of a slice as its last phase leaves it: reads up to 26 cycles and the precharge 17 cycles before its end (R252, R395). -/
def sliceBank (p : Nat) (x : Slice) (s : State) : State :=
  if (s.bank p x.bank).open_.isSome then
    closeBank p x.bank (s.now - tPav * 17) (s.modBank p x.bank (fun k => { k with
      act := some (max (k.act.getD 0) (s.now - tPav * 136)), rd := some (max (k.rd.getD 0) (s.now - tPav * 26)) }))
  else s

/-- A slice is over: its row is restored, its bank is released and the sweep or test moves on (R391, R403, R419). -/
def endSlice (p : Nat) (x : Slice) (answer : Nat) (s : State) : State :=
  let s := sliceBank p x (restoreSlice p x s)
  let s := s.modPav p (fun v => { v with slice := none })
  let s := if x.aborted.isSome then s else s.sat (Fld.PAV_BIST_DONE_COUNT p)
  let count (s : State) : State :=
    { s with test := { s.test with
      parkTested := s.test.parkTested + 1
      parkFailed := s.test.parkFailed + b2n (answer == 1 || answer == 2) } }
  let move (s : State) : State := s.modPav p (fun v =>
    if v.suspects.head? = some (x.bank, x.phys) then { v with suspects := v.suspects.tail } else { v with testPos := x.pos + 1 })
  match x.why with
  | .sweep => sweepStep p x.pos s
  | .startup => if x.aborted.isSome then s else move (count s)
  | .parking => if x.aborted.isSome then s else move (count s)
  | .row m => s.finish m ccOk [BitVec.ofNat 8 (if x.aborted.isSome then 3 else answer)]

/-- When a slice is over: tRP after the precharge of its verify phase (R395); one with commands left runs them at the pace of R395. -/
def State.sliceOver (s : State) (p : Nat) (x : Slice) : Nat :=
  if x.phase = 9 then afterCyc (s.bank p x.bank).pre 17 else x.heldAt + tPav * x.left

/-- A slice's verify phase ends (R391, R408). After a failure the row is restored and verified in the spare it takes. -/
def execSliceEnd (p : PavId) (result : SliceResult) (s : State) : Out :=
  match (s.pav p).slice with
  | none => .next s
  | some x =>
    match result with
    | .passed => .next (drainStep p (endSlice p x 0 (s.atLeast (s.sliceOver p x))))
    | .failed f ok =>
      let r := sliceFailed p x f ok (s.atLeast (s.now + tPav * (161 + 136)))
      .next (drainStep p (endSlice p x r.1 r.2))

/-- A slice has held its bank for 8,192 pavilion cycles (R400). -/
def execSliceWatchdog (p : PavId) (s : State) : Out :=
  match (s.pav p).slice with
  | some x => .next (if x.aborted.isSome then s else abortSlice p 5 (s.atLeast (x.heldAt + tPav * (8192 - x.held))))
  | none => .next s

/-- INTERVAL + 1 turns of a sweep have passed: a slice falls due in each of its pavilions (R404). -/
def execSweepSliceDue (s : State) : Out :=
  if s.on Fld.GLB_BIST_CTRL_SWEEP ∧ s.test.sweepLeft = 0 then
    let s := { s with test := { s.test with sweepLeft := s.rd Fld.GLB_BIST_SWEEP_INTERVAL + 1 } }
    .next (forUpto 32 (fun p a =>
      if a.test.sweepMask.getLsbD p && !a.on (Fld.PAV_REPAIR_STAT_RETIRED p) && !a.on (Fld.PAV_BIST_STAT_SAVE_FAULT p) then
        a.modPav p (fun v => { v with sliceDue := true })
      else a) s)
  else .next s

/-! ## Stops (R399, R404, R413) -/

/-- The background sweep stops. -/
def sweepStop (s : State) : State :=
  let s := { (s.wr Fld.GLB_BIST_CTRL_SWEEP 0).wr Fld.GLB_BIST_SWEEP_MASK 0 with test := { s.test with sweepMask := 0 } }
  forUpto 32 (fun p a => a.modPav p (fun v => { v with sliceDue := false })) s

/-- Every slice goes to its restore phase with a cause, and a SLICE_ROW that waits for its slot ends; their commands will
complete with `code`. -/
def slicesStop (cause code : Nat) (s : State) : State :=
  forUpto 32 (fun p a =>
    let a := match (a.pav p).slice with
      | some x => (match x.why with | .row m => endWith m code a | _ => a)
      | none => a
    let a := abortSlice p cause a
    match (a.pav p).rowTest with
    | some (_, _, m) => (endWith m code (a.modPav p (fun v => { v with rowTest := none }))).finish m code [3]
    | none => a) s

/-! ## Logic, TSV and lane tests (R405 to R407) -/

/-- The short tests begin (R699, R725): every enabled port's link goes down with cause "test state". -/
def shortTests (s : State) : State :=
  let s := { s with test := { s.test with step := 2 }, power := { s.power with testAt := s.now } }
  forUpto 16 (fun n a => if a.portEnabled n && a.role n != 2 then linkDown n 3 a else a) s

/-- The lanes of every enabled port go into near-end loopback for the lane test (R407). -/
def laneTest (s : State) : State :=
  forUpto 16 (fun n a =>
    if a.portEnabled n && a.role n != 2 then lanesTo n 0xFF laLoop (a.wr (Fld.PRT_PHY_STAT_PLL_LOCK n) 1) else a) s

/-- The short tests that had reached `step` end: lanes leave the lane test's loopback, and the ports whose links they took down train
(R407, R699). -/
def lanesBack (step : Nat) (s : State) : State :=
  if step = 2 ∨ step = 3 then
    forUpto 16 (fun n a => startTraining n (if a.portEnabled n && a.role n != 2 then parkLanes n a else a)) s
  else s

/-- The logic test ends after 40 ms (R405, R408); the TSV and lane tests begin. -/
def execLogicTestDone (failPavs : BitVec 32) (failPorts : BitVec 16) (s : State) : Out :=
  if s.test.step = 2 then
    let s := s.atLeast (s.power.testAt + 40 * tMs)
    let ok := decide (failPavs = 0) && decide (failPorts = 0)
    let s := forUpto 32 (fun p a =>
      if failPavs.getLsbD p then
        let a := a.raise (evPav p 19) 0
        if a.test.startRunning then retireStart p 4 a
        else { a with test := { a.test with tsvFailed := BitVec.ofNat 32 (bitPut a.test.tsvFailed.toNat p true) } }
      else a) s
    let s := if s.test.startRunning then
        forUpto 16 (fun n a => if failPorts.getLsbD n && a.portEnabled n then markDown n 3 a else a) s
      else { s with test := { s.test with failPorts := s.test.failPorts ||| failPorts } }
    let bits (b : BitVec 4) : BitVec 4 := if ok then b ||| 1 else b
    .next (laneTest { s with test := { s.test with
      step := 3
      startBits := if s.test.startRunning then bits s.test.startBits else s.test.startBits
      parkBits := if s.test.startRunning then s.test.parkBits else bits s.test.parkBits } })
  else .next s

/-- The TSV, save-buffer and lane tests end 32 ms later (R406 to R408); the ports retrain (R699, R725). -/
def execTsvTestDone (tsvFail : List (PavId × Fin 16)) (saveFail : BitVec 32) (laneFail : BitVec 128) (s : State) : Out :=
  if s.test.step = 3 then
    let s := s.atLeast (s.power.testAt + 72 * tMs)
    let start := s.test.startRunning
    let s := tsvFail.foldl (fun a e =>
      let a := a.raise (evPav e.1 18) e.2.val
      if start then retireStart e.1 3 a
      else { a with test := { a.test with tsvFailed := BitVec.ofNat 32 (bitPut a.test.tsvFailed.toNat e.1 true) } }) s
    let s := forUpto 32 (fun p a =>
      if saveFail.getLsbD p then (a.wr (Fld.PAV_BIST_STAT_SAVE_FAULT p) 1).raise (evPav p 17) 0 else a) s
    let s := forUpto 16 (fun n a =>
      let bad := laneMask (fun q => laneFail.getLsbD (8 * n + q))
      if bad = 0 ∨ a.portEnabled n = false ∨ a.role n = 2 then a
      else
        let a := forUpto 8 (fun q b => if bitAt bad q then b.modLane n q (fun l => { l with bad := true }) else b) a
        let a := a.raise (1008 + 4) n
        if (pickActive (laneMask (fun q => !(a.lane n q).bad))).isSome then a
        else if start then markDown n 3 a
        else { a with test := { a.test with failPorts := BitVec.ofNat 16 (bitPut a.test.failPorts.toNat n true) } }) s
    let tsvOk := tsvFail.isEmpty && decide (saveFail = 0)
    let laneOk := decide (laneFail = 0)
    let bits (b : BitVec 4) : BitVec 4 := (if tsvOk then b ||| 2 else b) ||| (if laneOk then 4 else 0)
    let s := { s with test := { s.test with
      step := 4
      failLanes := if start then s.test.failLanes else s.test.failLanes ||| laneFail
      startBits := if start then bits s.test.startBits else s.test.startBits
      parkBits := if start then s.test.parkBits else bits s.test.parkBits } }
    .next (lanesBack 3 s)
  else .next s

/-! ## The end of the start-up test (R410) -/

/-- The slices of a test that no command has shown have passed. [DESIGN CHOICE, notes/assumptions/40.md] -/
def restPassed (rows : Option Nat) (s : State) : State :=
  forUpto 32 (fun p a =>
    if a.testable p then
      let n := (a.pav p).suspects.length + a.testLeft p (a.pav p).testPos rows
      let a := (a.sat (Fld.PAV_BIST_DONE_COUNT p) n).modPav p (fun v => { v with testPos := sweepEnd, suspects := [] })
      { a with test := { a.test with parkTested := a.test.parkTested + n } }
    else a) s

/-- Whether the test that runs waits for slices that may not start: MAX = 0 (R401), or a throttle level is in force (R398, R721).
[DESIGN CHOICE, notes/assumptions/40.md] -/
def State.testWaits (s : State) : Bool :=
  match s.testRows with
  | none => false
  | some rows => (List.range 32).any (fun p =>
      s.testable p && (s.rd Fld.GLB_BIST_CTRL_MAX == 0 || s.rd (Fld.PAV_THROTTLE_LEVEL p) != 0) &&
        (!(s.pav p).suspects.isEmpty || s.testLeft p (s.pav p).testPos rows != 0))

/-- The start-up test is over: step 7 of R697 begins. -/
def testOver (s : State) : State :=
  let s := { s with
    test := { s.test with step := 0, startRunning := false }
    power := { s.power with boot := .finish, testMs := (s.now - s.power.testAt) / tMs } }
  (s.wr Fld.GLB_BIST_STAT_PHASE 0).wr Fld.GLB_BOOT_STAT_PHASE 6

/-- The start-up test ends (R410, R421). -/
def execStartupTestDone (s : State) : Out :=
  if s.test.startRunning ∧ s.test.step = 4 ∧ s.slices = 0 ∧ s.testWaits = false then
    let s := match s.testRows with
      | some rows =>
        let s := restPassed rows s
        if s.test.parkFailed = 0 then { s with test := { s.test with startBits := s.test.startBits ||| 8 } } else s
      | none => s
    let lost := (List.range 32).foldl (fun a p =>
      let c := tabGet 0 s.test.retireCause p
      a + b2n (c == 3 || c == 4 || c == 5)) 0
    .next (testOver (s.raise 1008 (min 255 lost)))
  else .next s

/-- Step 6 of R697 begins, or waits while critical halt is declared (R702); a policy of NONE runs no test (R410). -/
def startTest (s : State) : State :=
  if s.power.boot = .test ∧ s.test.startRunning = true ∧ s.test.step = 1 ∧ s.halted = false ∧ s.on Fld.THM_STAT_INIT = true then
    let s := forUpto 32 (fun p a => a.modPav p (fun v => { v with testPos := 0, suspects := [] })) s
    let s := { s with
      test := { s.test with startBits := 0, parkTested := 0, parkFailed := 0 }
      power := { s.power with testAt := s.now } }
    if s.rd Fld.GLB_BIST_STAT_POLICY = 2 then testOver s
    else shortTests (s.wr Fld.GLB_BIST_STAT_PHASE 1)
  else s

end Sys2Proof.Machine
end

