-- ==== Sys2Proof/Machine/Otp.lean ====
section
/-! DEFINITION. The one-time-programmable memory (R584 to R615): fuses and their code, the power-on read, what its values load
at cold reset, the programmer, and the commands of group 0x09 and SPARE_COMMIT. -/
namespace Sys2Proof.Machine
open Sys2Proof

/-! ## The word code (R585) -/

/-- The columns of data bits 0 to 31: the smallest 7-bit values of weight 3. -/
def otpCols : List Nat := ((List.range 128).filter (fun c => weight8 c == 3)).take 32

/-- Check bits over a list of columns. -/
def otpCheckFrom (d : BitVec 32) : Nat → List Nat → BitVec 7
  | _, [] => 0
  | i, c :: t => (if d.getLsbD i then BitVec.ofNat 7 c else 0) ^^^ otpCheckFrom d (i + 1) t

/-- The check bits of 32 data bits. -/
def otpCheck (d : BitVec 32) : BitVec 7 := otpCheckFrom d 0 otpCols

/-- The 39 fuses of a word: check bits in [38:32]. -/
def otpEncode (d : BitVec 32) : BitVec 39 := otpCheck d ++ d

/-- The data of a stored word after correction; none when it is uncorrectable. -/
def otpDecode (r : BitVec 39) : Option (BitVec 32) :=
  let d := r.extractLsb' 0 32
  let syn := (r.extractLsb' 32 7 ^^^ otpCheck d).toNat
  if syn = 0 ∨ weight8 syn = 1 then some d
  else
    match otpCols.findIdx? (fun c => c == syn) with
    | some i => some (d ^^^ BitVec.ofNat 32 (2 ^ i))
    | none => none

/-! ## Fuses -/

/-- The majority of three copies. -/
def maj3 {w : Nat} (a b c : BitVec w) : BitVec w := (a &&& b) ||| (a &&& c) ||| (b &&& c)

/-- The bits in which three copies disagree. -/
def dis3 {w : Nat} (a b c : BitVec w) : BitVec w := (a ^^^ b) ||| (a ^^^ c)

/-- The direct field as its copies vote. -/
def Otp.dfNow (o : Otp) : BitVec 512 := maj3 o.df0 o.df1 o.df2

/-- Redirection entry i as its copies vote (R596). -/
def Otp.redirNow (o : Otp) (i : Nat) : BitVec 11 :=
  maj3 (tabGet 0 o.redir (3 * i)) (tabGet 0 o.redir (3 * i + 1)) (tabGet 0 o.redir (3 * i + 2))

/-- The spare row that serves a row: the highest-numbered valid entry that names it (R596). -/
def Otp.rowSpare (o : Otp) (row : Nat) : Option Nat :=
  (List.range 32).reverse.find? (fun i => o.redirNow i == BitVec.ofNat 11 (1024 + row))

/-- The fuses of array word w, through the redirection. -/
def Otp.rawAt (o : Otp) (w : Nat) : BitVec 39 :=
  match o.rowSpare (w / 8) with
  | some i => tabGet 0 o.spares (8 * i + w % 8)
  | none => tabGet 0 o.words w

/-- Whether a spare row is unused: no valid entry and no blown fuse. [DEDUCED, notes/assumptions/51.md] -/
def Otp.spareUnused (o : Otp) (i : Nat) : Bool :=
  !(o.redirNow i).getLsbD 10 && (List.range 8).all (fun k => tabGet 0 o.spares (8 * i + k) == 0)

/-- The spare rows unused. -/
def Otp.sparesLeft (o : Otp) : Nat := ((List.range 32).filter (fun i => o.spareUnused i)).length

/-- The anti-rollback value (R596). -/
def arbValue (a : BitVec 64) : Nat := (List.range 64).foldl (fun m i => if a.getLsbD i then i + 1 else m) 0

/-! ## Regions (R587 to R589) -/

/-- First word and size of a region. -/
def regionBase (r : Nat) : Nat × Nat :=
  match r with
  | 0 => (0, 64)
  | 1 => (0x40, 1024)
  | 2 => (0x440, 16)
  | 3 => (0x450, 16)
  | 4 => (0x1C80, 512)
  | _ => (0x480, 6144)

/-- The region of a word, its header included; 7 for a reserved word. -/
def regionOf (w : Nat) : Nat :=
  if w < 0x40 then 0
  else if w < 0x440 then 1
  else if w < 0x450 then 2
  else if w < 0x460 then 3
  else if w < 0x46A then (w - 0x460) / 2
  else if w < 0x480 then 7
  else if w < 0x1C80 then 5
  else if w < 0x1E80 then 4
  else 7

/-- The header word k of region r. -/
def headerWord (r k : Nat) : Nat := 0x460 + 2 * r + k

/-- The bytes of `n` words from `base` (R588). -/
def wordBytes (f : Nat → BitVec 32) (base n : Nat) : List Byte :=
  (List.range n).flatMap (fun i => leBytes 4 (f (base + i)).toNat)

/-- Whether a region's header matches its words (R588). -/
def headerOk (f : Nat → BitVec 32) (r : Nat) : Bool :=
  let len := (f (headerWord r 0)).toNat
  let b := regionBase r
  decide (1 ≤ len) && decide (len ≤ b.2) && crc32 (wordBytes f b.1 len) == f (headerWord r 1)

/-- A word as latched at the power-on read. -/
def State.otpWord (s : State) (w : Nat) : BitVec 32 := tabGet 0 s.otp.latched w

/-- A word with what has been programmed and verified since (R599). -/
def State.otpWordNow (s : State) (w : Nat) : BitVec 32 :=
  if s.otp.fresh.contains w then (otpDecode (s.otp.rawAt w)).getD 0 else s.otpWord w

/-- Whether a region is present (R588). -/
def State.regionPresent (s : State) (r : Nat) : Bool :=
  s.otp.latDf.getLsbD (96 + r) && !s.otp.latDf.getLsbD (104 + r) && headerOk s.otpWord r

/-- OTP_DIGEST (R414, R599): the first 32 bytes of SHA-512 over the identity, direct field and repair map regions. -/
def State.otpDigest (s : State) : List Byte :=
  let df := (List.range 16).flatMap (fun i => leBytes 4 (s.reg (Off.OTP_DF i)).toNat)
  let h := Config.sha512 (wordBytes s.otpWordNow 0 64 ++ df ++ wordBytes s.otpWordNow 0x480 6144)
  (leBytes 64 h.toNat).take 32

/-! ## Keys (R619, R620) -/

/-- KEY, KEY_ID and USAGE of a key slot. -/
def State.keySlot (s : State) (r : Nat) : BitVec 256 × BitVec 32 × BitVec 32 :=
  let b := (regionBase r).1
  (BitVec.ofNat 256 (leNat (wordBytes s.otpWord b 8)), s.otpWord (b + 8), s.otpWord (b + 9))

/-- The KEY_ID of a key (R619). -/
def keyIdOf (k : BitVec 256) : BitVec 32 := BitVec.ofNat 32 (leAt (leBytes 64 (Config.sha512 (leBytes 32 k.toNat)).toNat) 0 4)

/-- Whether a key is held (R620): region 2 is the vendor's slot, region 3 the customer's. -/
def State.keyHeld (s : State) (r : Nat) : Bool :=
  let k := s.keySlot r
  s.regionPresent r && k.2.1 == keyIdOf k.1 && decide (k.2.2.toNat < 4)

/-! ## Marginals (R594 to R598) -/

/-- The code of a kind of marginal (R614). -/
def MarginKind.code : MarginKind → Nat
  | .array => 1
  | .spareRow => 2
  | .directField => 3
  | .redirection => 4
  | .secret => 5
  | .counter => 6

/-- The array word an item stands for: a spare word stands for the word of the row it serves. -/
def Otp.itemWord (o : Otp) (kind idx : Nat) : Option Nat :=
  if kind = 1 then some idx
  else if kind = 2 then
    if (o.redirNow (idx / 8)).getLsbD 10 then some (8 * ((o.redirNow (idx / 8)).toNat % 1024) + idx % 8) else none
  else none

/-- Whether a marginal item is key material (R598). -/
def Otp.keyItem (o : Otp) (kind idx : Nat) : Bool :=
  if kind = 3 then (decide (96 ≤ idx) && decide (idx ≤ 100)) || (decide (104 ≤ idx) && decide (idx ≤ 108))
  else match o.itemWord kind idx with | some w => regionOf w == 2 || regionOf w == 3 | none => false

/-- Records a marginal item with its Tbase (R597). -/
def noteMarginal (tb kind idx : Nat) (s : State) : State :=
  if s.otp.margs.contains (kind, idx) then s
  else
    let c := s.rd Fld.OTP_MARGIN_STAT_COUNT
    let s := if c < 16 then
        ((s.wr (Fld.OTP_MARGIN_TBASE c) tb).wr (Fld.OTP_MARGIN_KIND c) kind).wr (Fld.OTP_MARGIN_INDEX c) idx
      else s
    let key := s.otp.keyItem kind idx
    let first := s.otp.keyMargs.isEmpty
    let s := { s.sat Fld.OTP_MARGIN_STAT_COUNT with otp := { s.otp with
      margs := s.otp.margs ++ [(kind, idx)]
      keyMargs := if key then s.otp.keyMargs ++ [(kind, idx)] else s.otp.keyMargs } }
    if key then
      let s := s.wr Fld.OTP_STAT_KEY_MARGINAL 1
      if first then s.raise (952 + 7) kind else s
    else s

/-- Records the items of one kind and raises the event of their step, when there is one (R597, R609). -/
def noteMarginals (tb kind ev detail : Nat) (l : List Nat) (s : State) : State :=
  match l with
  | [] => s
  | _ :: _ => (l.foldl (fun a i => noteMarginal tb kind i a) s).raise (936 + ev) detail

/-- A marginal item has been repaired and verified (R606, R614). -/
def clearMarginal (kind idx : Nat) (s : State) : State :=
  let s := forUpto 16 (fun i a =>
    if a.rd (Fld.OTP_MARGIN_KIND i) = kind ∧ a.rd (Fld.OTP_MARGIN_INDEX i) = idx then
      (a.wr (Fld.OTP_MARGIN_TBASE i) 0).wr (Fld.OTP_MARGIN_KIND i) 0
    else a) s
  let s := { s with otp := { s.otp with
    margs := s.otp.margs.erase (kind, idx)
    keyMargs := s.otp.keyMargs.erase (kind, idx) } }
  s.wr Fld.OTP_STAT_KEY_MARGINAL (b2n !s.otp.keyMargs.isEmpty)

/-! ## The power-on read (R593) -/

/-- The variant enables and what else the direct field gives GLB_ID and GLB_FEATURES (R590, R592). -/
def loadEnables (s : State) : State :=
  let d := s.otp.latDf.toNat
  let pol := bitsOf d 24 2
  let s := (s.wr Fld.GLB_ID_VARIANT (bitsOf d 21 3)).wr Fld.GLB_FEATURES_PORTS (bitsOf d 0 16)
  let s := (s.wr Fld.GLB_FEATURES_RATE_MAX (bitsOf d 16 3)).wr Fld.GLB_FEATURES_POOL (bitsOf d 19 1)
  (s.wr Fld.GLB_FEATURES_ATOMICS (bitsOf d 20 1)).wr Fld.GLB_FEATURES_POLICY (if pol = 3 then 0 else pol)

/-- The numbers of the bits that are 1. -/
def onesOf {w : Nat} (x : BitVec w) : List Nat := (List.range w).filter (fun i => x.getLsbD i)

/-- The direct field reaches its wires (R593): the enables are latched and the oscillator takes OSC_BOOT. -/
def readDirect (marginals : List Nat) (tb : Nat) (s : State) : State :=
  let o := s.otp
  let s := { s with otp := { o with latDf := o.dfNow } }
  let s := forUpto 16 (fun i a => a.setReg (Off.OTP_DF i) (o.dfNow.extractLsb' (32 * i) 32)) s
  let m := (onesOf (dis3 o.df0 o.df1 o.df2) ++ marginals.filter (fun i => decide (i < 512))).eraseDups
  let s := loadEnables (noteMarginals tb 3 0 0 m s)
  s.wr Fld.GLB_OSC_TRIM_CODE (bitsOf o.dfNow.toNat 128 8)

/-- The direct field is ready (R593). -/
def execOtpDirectFieldReady (marginals : List Nat) (tb : BitVec 16) (s : State) : Out :=
  match s.power.boot with
  | .reading false => .next (readDirect marginals tb.toNat { s with power := { s.power with boot := .reading true } })
  | _ => .next s

/-- The words of the array that hold a blown fuse, through the redirection. -/
def Otp.usedWords (o : Otp) : List Nat :=
  ((o.words.map (fun e => e.1)).filter (fun w => (o.rowSpare (w / 8)).isNone) ++
    (List.range 1024).flatMap (fun r => if (o.rowSpare r).isSome then (List.range 8).map (fun k => 8 * r + k) else [])).filter
      (fun w => decide (w < 8192) && o.rawAt w != 0)

/-- The registers that the read of the regions gives (R588, R613). -/
def loadRegions (s : State) : State :=
  let s := forUpto 5 (fun r a =>
    let lock := a.otp.latDf.getLsbD (96 + r)
    let ok := a.regionPresent r
    let a := ((a.wr (Fld.OTP_REGION_PRESENT r) (b2n ok)).wr (Fld.OTP_REGION_LOCKED r) (b2n lock)).wr (Fld.OTP_REGION_SEALED r)
      (b2n (a.otp.latDf.getLsbD (104 + r)))
    let a := a.wr (Fld.OTP_REGION_LENGTH r) ((a.otpWord (headerWord r 0)).toNat % 65536)
    if lock && !ok then a.raise (936 + 7) r else a) s
  s.wr (Fld.OTP_REGION_LENGTH 5) ((s.otp.usedWords.filter (fun w => regionOf w == 5)).length)

/-- The rest of the power-on read (R593 steps 2 to 4): redirection, counter, secret block, array. -/
def readArray (marginals : List (MarginKind × Nat)) (tb : Nat) (s : State) : State :=
  let o := s.otp
  let of (k : MarginKind) : List Nat := ((marginals.filter (fun m => m.1 == k)).map (fun m => m.2)).eraseDups
  -- step 2
  let redirDis := (List.range 32).filter (fun i =>
    dis3 (tabGet 0 o.redir (3 * i)) (tabGet 0 o.redir (3 * i + 1)) (tabGet 0 o.redir (3 * i + 2)) != 0)
  let s := noteMarginals tb 4 0 1 (redirDis ++ of .redirection).eraseDups s
  -- step 3: a marginal counter fuse counts as blown
  let arb := (of .counter).foldl (fun (a : BitVec 64) i => a ||| BitVec.ofNat 64 (2 ^ i)) o.arb
  let s := s.wr Fld.OTP_ARB_VALUE (arbValue arb)
  let s := noteMarginals tb 6 1 3 (of .counter) s
  let sec := (List.range 8).map (fun i => tabGet 0 o.secret i)
  let s := { s with otp := { s.otp with
    latSecretOk := sec.all (fun r => (otpDecode r).isSome)
    latSecretBlank := sec.all (fun r => r == 0)
    latSecretWords := (List.range 8).foldl (fun t i => tabSet 0 t i ((otpDecode (tabGet 0 o.secret i)).getD 0)) [] } }
  let s := if sec.any (fun r => (otpDecode r).isNone) then s.raise (936 + 2) 7 else s
  let s := noteMarginals tb 5 1 2 (of .secret) s
  -- step 4
  let used := o.usedWords
  let bad := used.filter (fun w => (otpDecode (o.rawAt w)).isNone)
  let s := { s with otp := { s.otp with
    latched := used.foldl (fun t w => tabSet 0 t w ((otpDecode (o.rawAt w)).getD 0)) []
    badWords := bad
    fresh := [] } }
  let s := bad.foldl (fun a w => a.raise (936 + 2) (regionOf w)) s
  let s := noteMarginals tb 1 1 0 (of .array) s
  let s := noteMarginals tb 2 1 1 (of .spareRow) s
  (loadRegions (s.wr Fld.OTP_STAT_SPARES_USED (32 - o.sparesLeft))).wr Fld.OTP_STAT_READ_DONE 1

/-! ## What a cold reset loads (R203, R503, R589, R628, R641) -/

/-- The start-up role of a port (R203, R590). -/
def State.fusedRole (s : State) (n : Nat) : Nat :=
  if s.portEnabled n then
    let r := bitsOf s.otp.latDf.toNat (32 + 2 * n) 2
    if r = 2 then 2 else if r = 1 && s.poolOn then 1 else 0
  else 2

/-- The sources the variant disables cannot hold steward privilege (R503). -/
def State.stewardCan (s : State) : Nat := s.rd Fld.GLB_FEATURES_PORTS + 65536

/-- The TSV trims of a pavilion as the calibration defaults give them (R589). -/
def loadTrims (p : Nat) (s : State) : State :=
  forUpto 16 (fun k a =>
    let v := if a.regionPresent 1 then (a.otpWord (0x40 + 16 * p + k)).toNat else 0x20202020
    a.setReg (Off.PAV_TSV_TRIM p (k / 4) (k % 4)) (BitVec.ofNat 32 v &&& 0x3F3F3F3F)) s

/-- The registers a cold reset loads from the latched values. -/
def loadFused (s : State) : State :=
  let s := loadEnables s
  let d := s.otp.latDf.toNat
  let s := forUpto 16 (fun n a => a.wr (Fld.PRT_POOL_CTRL_ROLE n) (a.fusedRole n)) s
  let s := if s.rd Fld.GLB_FEATURES_RATE_MAX < 4 then
      forUpto 16 (fun n a => a.wr (Fld.PRT_PHY_CTRL_MAX_RATE n) (a.rd Fld.GLB_FEATURES_RATE_MAX)) s
    else s
  let mask := bitsOf d 64 17
  let mask := if mask = 0 then 0x1FFFF else mask
  let s := s.wr Fld.GLB_STEWARD_MASK (BitVec.ofNat 17 mask &&& BitVec.ofNat 17 s.stewardCan).toNat
  let s := if s.regionPresent 0 then forUpto 4 (fun i a => a.wr (Fld.GLB_DEVID_ID i) (a.otpWord i).toNat) s else s
  let cal := s.regionPresent 1
  let s := forUpto 32 (fun p a => loadTrims p a) s
  let s := if cal then forUpto 24 (fun n a => a.wr (Fld.THM_TRIM_OFFSET n) (a.otpWord (0x240 + n)).toNat) s else s
  let s := forUpto 16 (fun n a => a.wr (Fld.GLB_OSC_TABLE_CODE n) (if cal then (a.otpWord (0x258 + n)).toNat else 128)) s
  let s := s.wr Fld.GLB_OSC_TRIM_CODE (if cal then (s.otpWord 0x268).toNat else 128)
  let s := s.wr Fld.GLB_SEC_STAT_PROVISIONED (bitsOf d 98 1)
  let s := s.wr Fld.GLB_SEC_ARB_FLOOR (s.rd Fld.OTP_ARB_VALUE)
  let s := if s.keyHeld 2 then (s.wr Fld.GLB_SEC_STAT_VKEY 1).wr Fld.GLB_SEC_KEYID_V_KEY_ID (s.keySlot 2).2.1.toNat else s
  if s.keyHeld 3 then (s.wr Fld.GLB_SEC_STAT_CKEY 1).wr Fld.GLB_SEC_KEYID_C_KEY_ID (s.keySlot 3).2.1.toNat else s

/-! ## The programmer (R600 to R607) -/

/-- Whether a programming command runs, its token or proof still being verified included (R600). -/
def State.otpBusy (s : State) : Bool :=
  s.otp.prog.isSome || s.signing.any (fun j => match j with
    | .token _ _ (some _) _ => true
    | .keyProof _ _ _ => true
    | _ => false)

/-- Fuses blown by pulses: all those meant, or those of a free choice when the word failed.
[DEDUCED, notes/assumptions/51.md] -/
def blown {w : Nat} (free : Option (BitVec 64)) (x : BitVec w) : BitVec w :=
  match free with | none => x | some v => x &&& BitVec.ofNat w v.toNat

/-- The fuses of an item are pulsed. -/
def pulse (it : FuseItem) (free : Option (BitVec 64)) (o : Otp) : Otp :=
  let put3 (i : Nat) (x : BitVec 11) : Otp :=
    let one (t : Tab (BitVec 11)) (c sh : Nat) : Tab (BitVec 11) :=
      tabSet 0 t (3 * i + c) (tabGet 0 t (3 * i + c) ||| blown (free.map (fun (v : BitVec 64) => v.ushiftRight sh)) x)
    { o with redir := one (one (one o.redir 0 0) 1 11) 2 22 }
  match it with
  | .word a d =>
    match o.rowSpare (a / 8) with
    | some i => { o with spares := tabSet 0 o.spares (8 * i + a % 8)
                           (tabGet 0 o.spares (8 * i + a % 8) ||| blown free (otpEncode d)) }
    | none => { o with words := tabSet 0 o.words a (tabGet 0 o.words a ||| blown free (otpEncode d)) }
  | .spareWord k d => { o with spares := tabSet 0 o.spares k (tabGet 0 o.spares k ||| blown free d) }
  | .redirect i row => put3 i (BitVec.ofNat 11 (1024 + row))
  | .dfBit b =>
    let bit (sh : Nat) : BitVec 512 :=
      match free with
      | none => BitVec.ofNat 512 (2 ^ b)
      | some v => if v.getLsbD sh then BitVec.ofNat 512 (2 ^ b) else 0
    { o with df0 := o.df0 ||| bit 0, df1 := o.df1 ||| bit 1, df2 := o.df2 ||| bit 2 }
  | .redirBit b => put3 (b / 11) (BitVec.ofNat 11 (2 ^ (b % 11)))
  | .counter f => { o with arb := o.arb ||| (match free with
      | none => BitVec.ofNat 64 (2 ^ f)
      | some v => if v.getLsbD 0 then BitVec.ofNat 64 (2 ^ f) else 0) }

/-- Address and data of an item in the journal. [DEDUCED, notes/assumptions/51.md] -/
def FuseItem.entry : FuseItem → Nat × Nat
  | .word a d => (a, d.toNat)
  | .spareWord k d => (8192 + k, d.toNat % 2 ^ 32)
  | .redirect i row => (i, 1024 + row)
  | .dfBit b => (b, 1)
  | .redirBit b => (b, 1)
  | .counter f => (f, 1)

/-- A sequence begins (R600, R603): its journal replaces the last one. -/
def progStart (mbx : Option Nat) (opcode : Nat) (items : List FuseItem) (target kind : Nat) (s : State) : State :=
  let s := { s with otp := { s.otp with
    prog := some { mbx := mbx, opcode := BitVec.ofNat 16 opcode, todo := items, done := 0, maxAttempts := 0, target := target,
                   kind := kind, ending := none }
    journal := items.map (fun i => (i, .pending))
    journalEnd := none
    journalEarly := false } }
  s.wr Fld.OTP_STAT_BUSY 1

/-- The first journal entry that is not verified, as its address; 0xFFFF for none. -/
def firstUnverified (j : List (FuseItem × JStatus)) : Nat :=
  match j.find? (fun e => e.2 != .verified) with | some e => e.1.entry.1 | none => 0xFFFF

/-- The response payload of a programming command (R608, R376, R639). -/
def progPayload (g : Prog) (s : State) : List Byte :=
  let op := g.opcode.toNat
  if op = 0x0902 then leBytes 2 g.done ++ leBytes 2 (firstUnverified s.otp.journal) ++ [BitVec.ofNat 8 g.maxAttempts]
  else if op = 0x0422 then leBytes 2 g.done
  else if op = 0x0905 then leBytes 2 (b2n g.todo.isEmpty) ++ [BitVec.ofNat 8 s.otp.sparesLeft]
  else if op = 0x0A12 then leBytes 4 g.target ++ [BitVec.ofNat 8 (if g.todo.isEmpty then g.kind else 0)]
  else []

/-- What a sequence that has done all its items leaves (R604 to R606, R629, R631). -/
def progDone (g : Prog) (s : State) : State :=
  let op := g.opcode.toNat
  if op = 0x0903 then s.raise (936 + 5) g.target
  else if op = 0x0904 then s.raise (936 + 6) g.target
  else if op = 0x0905 then clearMarginal g.kind g.target s
  else if op = 0x0A12 then
    (if g.kind = 1 then s.raise (936 + 5) 3 else s).raise (952 + 6) g.kind
  else if op = 0x0A02 then
    ((s.wr Fld.GLB_SEC_ARB_FLOOR g.target).wr Fld.GLB_SEC_ARB_PENDING 0).raise (952 + 4) g.target
  else s

/-- The sequence ends with a code (R601, R602): entries still pending are not reached. -/
def progEnd (g : Prog) (code : Nat) (early : Bool) (s : State) : State :=
  let s := { s with otp := { s.otp with
    prog := none
    journal := s.otp.journal.map (fun (e : FuseItem × JStatus) => if e.2 = JStatus.pending then (e.1, JStatus.notReached) else e)
    journalEnd := some (BitVec.ofNat 8 code)
    journalEarly := early } }
  let s := s.wr Fld.OTP_STAT_BUSY 0
  let s := if code = ccOk then progDone g s else s
  match g.mbx with
  | some m => s.finish m code (progPayload g s)
  | none =>
    if code = ccOk then s
    else (s.wr Fld.GLB_SEC_ARB_PENDING g.target).raise (952 + 5) (if code = ccMarginal then 3 else if code = ccHalt then 2 else 0)

/-- A sequence that a cause ends before its last item (R602): the event, and with critical halt R445's. -/
def progEarly (g : Prog) (code : Nat) (s : State) : State :=
  let s := progEnd g code true (s.raise (936 + 4) code)
  if code = ccHalt then s.raise (896 + 8) 0 else s

/-- What the first item still pending becomes. -/
def journalMark (st : JStatus) : List (FuseItem × JStatus) → List (FuseItem × JStatus)
  | [] => []
  | e :: t => if e.2 = JStatus.pending then (e.1, st) :: t else e :: journalMark st t

/-- What a verified item shows (R604 to R606, R610, R612, R615). -/
def itemVerified (it : FuseItem) (s : State) : State :=
  match it with
  | .word a _ =>
    let s := { s with otp := { s.otp with fresh := s.otp.fresh ++ [a] } }
    let s := if regionOf a = 5 then s.sat (Fld.OTP_REGION_LENGTH 5) else s
    (s.sat Fld.OTP_PROG_WORDS).wr Fld.OTP_PROG_LAST a
  | .spareWord _ _ => (s.sat Fld.OTP_PROG_WORDS).wr Fld.OTP_STAT_SPARES_USED (32 - s.otp.sparesLeft)
  | .redirect i _ => (s.wr Fld.OTP_STAT_SPARES_USED (32 - s.otp.sparesLeft)).raise (936 + 8) i
  | .dfBit b =>
    let s := s.wr (Fld.OTP_DF_BITS (b / 32)) (bitPut (s.rd (Fld.OTP_DF_BITS (b / 32))) (b % 32) true)
    if 96 ≤ b ∧ b ≤ 100 then s.wr (Fld.OTP_REGION_LOCKED (b - 96)) 1
    else if 104 ≤ b ∧ b ≤ 108 then s.wr (Fld.OTP_REGION_SEALED (b - 104)) 1
    else s
  | .redirBit _ => s
  | .counter _ => s

/-- A word's pulses and verify end (R601, R602): the next item follows, or the sequence stops.
[DESIGN CHOICE, notes/assumptions/11.md; DEDUCED, notes/assumptions/51.md] -/
def execOtpWordDone (o : FuseOutcome) (s : State) : Out :=
  match s.otp.prog with
  | none => .next s
  | some g =>
    if g.held ∧ s.firmwareRuns = false then .next s else
    match g.todo with
    | [] => .next (progEnd g ccOk false s)
    | it :: rest =>
      match o with
      | .verified k =>
        let g := { g with todo := rest, done := g.done + 1, maxAttempts := max g.maxAttempts (max 1 k.val), held := !s.firmwareRuns }
        let s := { s with otp := { pulse it none s.otp with prog := some g, journal := journalMark .verified s.otp.journal } }
        let s := itemVerified it s
        if rest.isEmpty then .next (progEnd g ccOk false s)
        else
          match g.ending with
          | some c => .next (progEarly g c.toNat s)
          | none => if s.otp.supply then .next s else .next (progEarly g ccNoSupply s)
      | .failed =>
        let (v, s) := s.drawFree
        let s := { s with otp := { pulse it (some v) s.otp with journal := journalMark .failed s.otp.journal } }
        .next (progEnd { g with maxAttempts := 3 } ccMarginal true (s.raise (936 + 3) 3))
      | .supplyFell =>
        let (v, s) := s.drawFree
        let s := { s with otp := { pulse it (some v) s.otp with journal := journalMark .failed s.otp.journal } }
        .next (progEarly g ccNoSupply s)

/-- The programmer stops after the word in hand, and its command will complete with a code (R516, R602).
[DEDUCED, notes/assumptions/53.md] -/
def progStop (code : Nat) (s : State) : State :=
  match s.otp.prog with
  | some g =>
    let s := match g.mbx with | some m => endWith m code s | none => s
    { s with otp := { s.otp with prog := some { g with ending := (match g.ending with
      | some c => some c | none => some (BitVec.ofNat 8 code)) } } }
  | none => s

/-- VDD_OTPP crosses its thresholds (R733). [DEDUCED, notes/assumptions/53.md] -/
def execVddOtppChange (present : Bool) (s : State) : Out :=
  .next ({ s with otp := { s.otp with supply := present } }.wr Fld.OTP_STAT_SUPPLY (b2n present))

/-- The checks of R600 for words (address and payload offset) of a command in mailbox m; `field` when it blows a field that
R592 restricts to MBX17; `region` when the region itself is locked. [DEDUCED, notes/assumptions/52.md] -/
def State.progCheck (s : State) (m : Nat) (words : List (Nat × Nat)) (field : Bool) (region : Option Nat) : Option (Nat × Nat) :=
  let locked (r : Nat) : Bool := decide (r < 5) && s.otp.dfNow.getLsbD (96 + r)
  let bad := words.find? (fun w => decide (8192 ≤ w.1) || regionOf w.1 == 7 || s.otp.rawAt w.1 != 0 ||
    words.any (fun x => x.1 == w.1 && decide (x.2 < w.2)))
  if s.otpBusy || s.halted then some (ccBusy, 0xFFFF)
  else if m != 17 && (field || words.any (fun w => decide (regionOf w.1 ≤ 2))) then some (ccWorkshop, 0xFFFF)
  else if words.any (fun w => locked (regionOf w.1)) || (match region with | some r => locked r | none => false) then
    some (ccLocked, 0xFFFF)
  else
    match bad with
    | some w => some (ccInvalid, 16 + w.2)
    | none => if s.otp.supply then none else some (ccNoSupply, 0xFFFF)

/-! ## Commands (R608, R607) -/

/-- OTP_READ. -/
def opOtpRead (m : Nat) (pl : List Byte) (s : State) : State :=
  let first := leAt pl 0 2
  let n := leAt pl 2 1
  if 8191 < first then s.badByte m 0
  else if n = 0 ∨ 112 < n then s.badByte m 2
  else
    let k := min n (8192 - first)
    let st (w : Nat) : Nat :=
      if s.otp.fresh.contains w then 3 else if s.otp.badWords.contains w then 1
      else if s.otp.margs.contains (1, w) then 2 else 0
    let data := (List.range 112).flatMap (fun i => leBytes 4 (if i < k then (s.otpWordNow (first + i)).toNat else 0))
    let bits := (List.range k).foldl (fun a i => a + st (first + i) * 4 ^ i) 0
    s.finish m ccOk (leBytes 2 k ++ [0, 0] ++ data ++ leBytes 28 bits)

/-- OTP_PROGRAM. [DEDUCED, notes/assumptions/52.md] -/
def opOtpProgram (m : Nat) (pl : List Byte) (s : State) : State :=
  let n := leAt pl 0 1
  if n = 0 ∨ 60 < n then s.badByte m 0
  else
    let ws := (List.range n).map (fun i => (leAt pl (4 + 8 * i) 2, 4 + 8 * i))
    match s.progCheck m ws false none with
    | some (c, q) => s.refuse m c q
    | none =>
      let items := (List.range n).map (fun i => FuseItem.word (leAt pl (4 + 8 * i) 2) (BitVec.ofNat 32 (leAt pl (8 + 8 * i) 4)))
      progStart (some m) 0x0902 items 0 0 s

/-- OTP_LOCK. -/
def opOtpLock (m : Nat) (pl : List Byte) (s : State) : State :=
  let r := leAt pl 0 1
  if 4 < r then s.badByte m 0
  else
    match s.progCheck m [] true (some r) with
    | some (c, q) => s.refuse m c q
    | none =>
      if headerOk s.otpWordNow r then progStart (some m) 0x0903 [.dfBit (96 + r)] r 0 s else s.refuse m ccMismatch 0xFFFF

/-- REPAIR_OTP. [DEDUCED, notes/assumptions/52.md] -/
def opRepairOtp (m : Nat) (pl : List Byte) (s : State) : State :=
  let i := leAt pl 0 2
  let k := leAt pl 2 1
  if 2 < k then s.badByte m 2
  else if (k = 0 ∧ 8192 ≤ i) ∨ (k = 1 ∧ 512 ≤ i) ∨ (k = 2 ∧ 352 ≤ i) then s.badByte m 0
  else if s.otpBusy || s.halted then s.refuse m ccBusy 0xFFFF
  else if !s.otp.supply then s.refuse m ccNoSupply 0xFFFF
  else
    let kind := if k = 0 then 1 else if k = 1 then 3 else 4
    let idx := if k = 2 then i / 11 else i
    if !s.otp.margs.contains (kind, idx) then s.badByte m 0
    else if k = 0 then
      match (List.range 32).find? (fun j => s.otp.spareUnused j) with
      | none => s.refuse m ccFull 0xFFFF
      | some j =>
        let row := i / 8
        let items := (List.range 8).filterMap (fun q =>
          let raw := s.otp.rawAt (8 * row + q)
          if raw = 0 then none
          else some (FuseItem.spareWord (8 * j + q) (match otpDecode raw with | some d => otpEncode d | none => raw)))
        progStart (some m) 0x0905 (items ++ [.redirect j row]) idx kind s
    else if k = 1 then
      if s.otp.dfNow.getLsbD i then progStart (some m) 0x0905 [.dfBit i] idx kind s else s.badByte m 0
    else if (s.otp.redirNow (i / 11)).getLsbD (i % 11) then progStart (some m) 0x0905 [.redirBit i] idx kind s
    else s.badByte m 0

/-- OTP_STATUS. -/
def opOtpStatus (m : Nat) (s : State) : State :=
  let r (off : Nat) : List Byte := leBytes 4 (s.reg off).toNat
  s.finish m ccOk (r Off.OTP_STAT ++ r Off.OTP_ARB ++ r Off.OTP_PROG ++ (List.range 6).flatMap (fun i => r (Off.OTP_REGION i)) ++
    r Off.OTP_MARGIN_STAT ++ (List.range 16).flatMap (fun i => r (Off.OTP_MARGIN i)) ++
    (List.range 16).flatMap (fun i => r (Off.OTP_DF i)))

/-- The journal code of a status (R608). -/
def JStatus.code : JStatus → Nat
  | .pending => 0
  | .verified => 1
  | .failed => 2
  | .notReached => 3

/-- OTP_JOURNAL_READ. -/
def opOtpJournalRead (m : Nat) (pl : List Byte) (s : State) : State :=
  let e := leAt pl 0 2
  let j := s.otp.journal
  if j.length ≤ e ∧ j ≠ [] then s.badByte m 0
  else
    let es := (j.drop e).take 60
    let st := if j.isEmpty then 0 else if s.otp.journalEarly then 2 else 1
    let body := es.flatMap (fun x => leBytes 2 x.1.entry.1 ++ [BitVec.ofNat 8 x.2.code, 0] ++ leBytes 4 x.1.entry.2)
    s.finish m ccOk (leBytes 2 j.length ++ [BitVec.ofNat 8 st, s.otp.journalEnd.getD 0] ++ leBytes 2 e ++ leBytes 2 es.length ++ body)

/-- The row entry of the repair map (R366). -/
def rowEntry (p bank row : Nat) : Nat := 2 ^ 30 + p * 2 ^ 25 + bank * 2 ^ 19 + row * 2 ^ 4

/-- The runtime spares of a pavilion, as row entries, in the order in which they were taken. -/
def State.runtimeSpares (s : State) (p : Nat) : List Nat :=
  ((s.pav p).spared.filter (fun x => x.runtime)).map (fun x => rowEntry p x.bank x.row)

/-- The pavilions whose RETIRED bit is set. -/
def State.retiredNow (s : State) : Nat :=
  (List.range 32).foldl (fun a p => a + b2n (s.on (Fld.PAV_REPAIR_STAT_RETIRED p)) * 2 ^ p) 0

/-- The pavilions retired while running. -/
def State.runRetired (s : State) : BitVec 32 := s.test.heldRetired ||| (BitVec.ofNat 32 s.retiredNow &&& ~~~ s.test.retiredStart)

/-- The "pavilion retired" entries of the pavilions retired while running (R366, R372), by a test of the pavilions asked for. -/
def State.retiredEntries (s : State) (want : Nat → Bool) : List Nat :=
  ((List.range 32).filter (fun p => s.runRetired.getLsbD p && want p)).map (fun p => 3 * 2 ^ 30 + p * 2 ^ 25)

/-- SPARE_COMMIT (R372, R607). [DEDUCED, notes/assumptions/52.md] -/
def opSpareCommit (m : Nat) (pl : List Byte) (s : State) : State :=
  let p := leAt pl 0 1
  if 32 ≤ p ∧ p ≠ 255 then s.badByte m 0
  else
    match s.progCheck m [] false none with
    | some (c, q) => s.refuse m c q
    | none =>
      let spares := if p = 255 then (List.range 32).flatMap (fun q => s.runtimeSpares q) else s.runtimeSpares p
      let es := spares ++ s.retiredEntries (fun q => p == 255 || p == q)
      let blank := ((List.range 6144).filter (fun i => s.otp.rawAt (0x480 + i) == 0)).take es.length
      if blank.length < es.length then s.refuse m ccFull 0xFFFF
      else if es.isEmpty then s.finish m ccOk [0, 0]
      else progStart (some m) 0x0422 ((es.zip blank).map (fun e => .word (0x480 + e.2) (BitVec.ofNat 32 e.1))) 0 0 s

end Sys2Proof.Machine
end

