-- ==== Sys2Proof/Machine/Look.lean ====
section
/-! DEFINITION. What a read of a register shows, without its side effects: the values that follow the machine live (counts of
queues, states of ranks, positions) over the stored ones; and who holds steward privilege (R500 to R503, R536). -/
namespace Sys2Proof.Machine
open Sys2Proof

/-! ## Privilege (R500 to R503) -/

/-- The workshop source, while workshop mode lasts (R500, R635). -/
def State.workshopSrc (s : State) : Option Nat :=
  if s.on Fld.GLB_SEC_STAT_WORKSHOP then some (s.rd (Fld.MBX_OWNER_SOURCE 17)) else none

/-- Whether a source is enabled (R502, R504): the sideband always, a port by variant and role. -/
def State.sourceEnabled (s : State) (src : Nat) : Bool :=
  src == 16 || (decide (src < 16) && s.portEnabled src && s.role src != 2)

/-- Whether a source holds steward privilege (R502). -/
def State.steward (s : State) (src : Nat) : Bool :=
  (bitAt (s.rd Fld.GLB_STEWARD_MASK) src && s.sourceEnabled src) || s.workshopSrc == some src

/-- GLB_WHOAMI as a source reads it (R536). -/
def State.whoami (s : State) (src : Nat) : Nat :=
  src + 32 * b2n (s.steward src) + 64 * b2n (s.workshopSrc == some src)

/-! ## The event stream of a port (R551, R555, R558) -/

/-- The bytes of the record in the ring slot of a sequence number. -/
def State.ringRecord (s : State) (q : Nat) : List Byte :=
  (List.range 4).flatMap (fun w => leBytes 4 (s.reg (Off.EVT_RING (q % 2048) w)).toNat)

/-- The level of the record of a sequence number. -/
def State.ringLevel (s : State) (q : Nat) : Nat := bitsOf (s.reg (Off.EVT_RING (q % 2048) 3)).toNat 2 2

/-- The sequence numbers from a port's send position to EVT_SEQ. -/
def State.streamSpan (s : State) (n : Nat) : Nat := (s.rd Fld.EVT_SEQ_NEXT + 2 ^ 32 - (s.port n).sendPos) % 2 ^ 32

/-- The sequence numbers of the records of a port's stream not yet sent. -/
def State.streamOf (s : State) (n : Nat) : List Nat :=
  if bitAt (s.rd Fld.EVT_ROUTE_PORTS) n then
    ((List.range (min 2048 (s.streamSpan n))).map (fun i => ((s.port n).sendPos + i) % 2 ^ 32)).filter
      (fun q => decide (2 ≤ s.ringLevel q))
  else []

/-! ## Live values of pavilions -/

/-- PAV_BIST_STAT.PHASE (R393, R427). -/
def State.slicePhase (s : State) (p : Nat) : Nat :=
  match (s.pav p).slice with
  | none => 0
  | some x =>
    if s.now < (s.pav p).pausedUntil then 11
    else if x.yielded && decide (0 < x.held) then 10
    else min 9 (x.phase + 1)

/-- PAV_RANK_STAT.STATE_r (R288). -/
def State.rankState (s : State) (p r : Nat) : Nat :=
  let k := s.rank p r
  if k.inSelf then 3
  else if s.tsvStep p = some r then 5
  else if (match (s.pav p).slice with | some x => x.bank / 16 == r | none => false) then 4
  else if k.down then 1
  else if (match k.lastRef with | some t => decide (s.now < t + tPav * 420) | none => false) then 2
  else 0

/-- GLB_BIST_STAT.PHASE (R424). -/
def State.bistPhase (s : State) : Nat :=
  if s.test.startRunning && decide (1 ≤ s.test.step) then 1
  else if s.test.parkRun then 3
  else if s.on Fld.GLB_BIST_CTRL_SWEEP then 2
  else 0

/-- GLB_BOOT_STAT.ELAPSED (R715). -/
def State.elapsed (s : State) : Nat :=
  min (2 ^ 24 - 1) (((match s.power.doneAt with | some t => t | none => s.now) - s.power.riseAt) / tMs)

/-- The live values of the pavilion registers. [DEDUCED, notes/assumptions/31.md] -/
def State.lookPav (s : State) (p k v : Nat) : Nat :=
  let q := s.pav p
  let ranks (f : Nat → Nat) (w : Nat) : Nat := (List.range 4).foldl (fun a r => a + f r * 2 ^ (w * r)) 0
  match k with
  | 0x020 => s.reqUsed p + 2 ^ 10 * s.wrUsed p + 2 ^ 20 * s.rdUsed p
  | 0x024 => (List.range 32).foldl (fun a b => a + b2n (s.bank p b).open_.isSome * 2 ^ b) 0
  | 0x028 => (List.range 32).foldl (fun a b => a + b2n (s.bank p (32 + b)).open_.isSome * 2 ^ b) 0
  | 0x02C => ranks (fun r => s.rankState p r) 4
  | 0x140 =>
    let rate := if q.gated || (List.range 4).all (fun r => (s.rank p r).st == .self_ && (s.rank p r).inSelf) then 3 else if q.rate = 4 then 2 else if q.rate = 2 then 1 else 0
    bitsSet (bitsSet (bitsSet v 28 2 rate) 20 4 (ranks (fun r =>
      b2n ((s.rank p r).st == .forced || (s.rank p r).st == .band)) 1)) 16 4
      (ranks (fun r => b2n ((s.rank p r).st == .paying)) 1)
  | 0x154 => bitsSet v 0 6 (s.neighOcc p)
  | 0x224 =>
    let run := q.copies.any (fun c => c.running)
    bitsSet (bitsSet v 24 3 (q.copies.length - b2n run)) 23 1 (b2n run)
  | 0x230 => (match q.records with | r :: _ => r.ts.toNat % 2 ^ 32 | [] => 0)
  | 0x234 => (match q.records with | r :: _ => r.ts.toNat / 2 ^ 32 + r.type * 2 ^ 18 + r.syndrome.toNat * 2 ^ 24 | [] => 0)
  | 0x238 =>
    (match q.records with
     | r :: _ => r.bank + r.row * 2 ^ 6 + r.col * 2 ^ 21 + r.word * 2 ^ 26 + b2n r.spare * 2 ^ 29 + r.source * 2 ^ 30
     | [] => 0)
  | 0x23C => (match q.records with | r :: _ => r.bit + b2n r.multi * 2 ^ 7 | [] => 0)
  | 0x240 => bitsSet v 0 5 q.records.length
  | 0x304 =>
    let form := match q.slice with | none => 0 | some x => if x.why.checked then 1 else 2
    bitsSet (bitsSet v 4 2 form) 0 4 (s.slicePhase p)
  | 0x404 =>
    (match q.tsv with
     | some t => if t.step.isSome && (decide (s.now < t.heldAt) || since (s.now + tPav) t.refFrom) then bitsSet v 0 3 3 else v
     | none => v)
  | _ => v

/-- The live values of the port registers. -/
def State.lookPrt (s : State) (n k v : Nat) : Nat :=
  let q := s.port n
  match k with
  | 0x304 => bitsSet v 24 2 (s.role n)
  | 0x404 =>
    min 4095 q.owedQ.length + 2 ^ 16 * (q.txns.filter (fun t => t.holdsTag)).length +
      2 ^ 29 * b2n (q.fences.any (fun f => f.hold))
  | 0x504 => q.ctxs.length + 2 ^ 16 * (q.ctxs.filter (fun c => c.quarantined)).length
  | _ =>
    if 0x100 ≤ k ∧ k < 0x300 then
      let l := s.lane n ((k - 0x100) / 0x40)
      if k % 0x40 = 0x14 then (s.prbsCount n ((k - 0x100) / 0x40)).toNat % 2 ^ 32
      else if k % 0x40 = 0x18 then (match l.prbsHi with | some h => h.toNat | none => (s.prbsCount n ((k - 0x100) / 0x40)).toNat / 2 ^ 32)
      else v
    else v

/-- The live values of the GLB registers. -/
def State.lookGlb (s : State) (src k v : Nat) : Nat :=
  match k with
  | 0x044 => s.whoami src
  | 0x400 => bitsSet (bitsSet v 8 6 s.retiredCount) 1 1 (b2n s.partitioned)
  | 0x800 => bitsSet v 16 6 (32 - s.retiredCount)
  | 0xA08 => bitsSet (bitsSet v 20 4 s.slices) 0 3 s.bistPhase
  | 0xD24 => bitsSet v 8 24 s.elapsed
  | _ => v

/-- What a source sees at a window offset, before the side effects of a read. -/
def State.look (s : State) (src off : Nat) : Reg32 :=
  let v := (s.reg off).toNat
  BitVec.ofNat 32 (
    if off < 0x1000 then s.lookGlb src off v
    else if off = 0x1010 then s.stamp.toNat % 2 ^ 32
    else if off = 0x1014 then (match s.cad.nowHi with | some h => h.toNat | none => s.stamp.toNat / 2 ^ 32)
    else if off = 0x1000C then s.latches.length
    else if 0x10040 ≤ off ∧ off < 0x10080 then bitsSet v 0 12 (s.streamOf ((off - 0x10040) / 4)).length
    else if 0x41000 ≤ off ∧ off < 0x44000 then
      let m := s.mon ((off - 0x41000) / 0x100)
      if off % 0x100 = 0x2C then (match m.sumHi with | some h => h.toNat | none => v)
      else if off % 0x100 = 0x38 then (match m.lvlHi with | some h => h.toNat | none => v)
      else v
    else if 0x80000 ≤ off ∧ off < 0x90000 then s.lookPrt ((off - 0x80000) / 0x1000) (off % 0x1000) v
    else if 0xC0000 ≤ off ∧ off < 0xE0000 then s.lookPav ((off - 0xC0000) / 0x1000) (off % 0x1000) v
    else v)

/-- The four bytes of a register as read, for the payload of a status command. -/
def State.regBytes (s : State) (src off : Nat) : List Byte := leBytes 4 (s.look src off).toNat

/-- The owner of a mailbox (R501). -/
def State.owner (s : State) (m : Nat) : Nat := s.rd (Fld.MBX_OWNER_SOURCE m)

end Sys2Proof.Machine
end

