-- ==== Sys2Proof/Machine/Wake.lean ====
section
/-! DEFINITION. The ways out of Hold and Sleep (R693 to R696) and the commands that are wake sources. -/
namespace Sys2Proof.Machine
open Sys2Proof

/-- The stack leaves Hold for a state, Run or Rest (R693): pavilion clocks ungate, ranks leave self-refresh unless a critical
halt is latched, parked ports exit, the others train; a test state stored in Hold takes effect now (R720). -/
def exitHold (dest cause port : Nat) (s : State) : State :=
  let s := ((s.wr Fld.GLB_PWR_STAT_STATE dest).wr Fld.GLB_PWR_STAT_TRANS 0).wr Fld.GLB_PWR_STAT_WAKE_CAUSE cause
  let s := s.wr Fld.GLB_PWR_STAT_WAKE_PORT port
  let s := { s with power := { s.power with trans := .none_, noDispatch := s.parked } }
  let s := forUpto 32 (fun p a =>
    if a.power.shut.isSome || a.on Fld.GLB_PWR_STAT_SHUT then (ungatePav p a).modPav p (fun v => { v with drain := .shutdown })
    else if a.halted then (ungatePav p a).modPav p (fun v => { v with drain := .halt })
    else wakePav p a) s
  forUpto 16 (fun n a =>
    if a.role n ≠ 2 ∧ (List.range 8).any (fun p => a.rd (Fld.PRT_LANE_CTRL_TEST_STATE n p) != 0) = true then
      forUpto 8 (fun p b => let t := b.rd (Fld.PRT_LANE_CTRL_TEST_STATE n p); if t = 0 then b else applyTest n p t b) a
    else if a.link n = lsParked ∧ (a.port n).train.hasLink = true then startParkedExit n a
    else if a.link n = lsDown ∨ a.link n = lsIdle ∨ a.link n = lsParked then startTraining n a
    else a) s

/-- A wake source acts (R694): from Hold it leads to the return state, from Sleep to Hold and, with `on`, further. -/
def wakeBy (cause port : Nat) (on : Bool) (s : State) : State :=
  let st := s.power? 
  if st = psHold ∧ s.power.trans = .none_ then
    if cause = 3 then s else exitHold (s.rd Fld.GLB_PWR_STAT_RETURN) cause port s
  else if st = psSleep then
    let further := match s.power.trans with | .waking o => on && !o | _ => true
    if further then
      ({ s with power := { s.power with trans := .waking on } }.wr Fld.GLB_PWR_STAT_TRANS 1).wr
        Fld.GLB_PWR_STAT_WAKE_CAUSE cause
    else s
  else s

/-- Squelch activity on position 0 (R67, R69, R70, R694): a parked port leaves parked, or abandons an entry of the same cycle; on a host
port it ends Hold. -/
def execSquelchActivity (n : PortId) (s : State) : Out :=
  if s.power? = psHold then .next (if s.role n = 0 ∧ s.portEnabled n = true then wakeBy 1 n false s else s)
  else if s.power? = psSleep then .next s
  else if s.up n then .next (s.modPort n (fun q => { q with exitSeen := some s.now }))
  else if s.link n = lsParked ∧ s.justEntered n = true then .next (abandonEntry n s)
  else if s.link n = lsParked ∧ (s.port n).train.hasLink = true ∧
      (List.range 8).all (fun p => (s.lane n p).exitDeadline.isNone) = true then
    .next (startParkedExit n s)
  else .next s

/-- WAKE_N is held low by another device for 1 µs (R694, R695). -/
def execWakeNInput (s : State) : Out :=
  if s.power.tapHold = false ∧ s.on Fld.GLB_PWR_CTRL_WAKE_IN_EN ∧ s.power.wakeDrive = none ∧ s.power.wakeIgnore ≤ s.now then .next (wakeBy 2 0 true s)
  else .next s

/-- The stack's 100 µs drive of WAKE_N ends; its input is ignored for 10 µs more (R695). -/
def execWakeNDriveEnd (s : State) : Out :=
  match s.power.wakeDrive with
  | some t =>
    let s := s.atLeast t
    .next { s with power := { s.power with wakeDrive := none, wakeIgnore := s.now + 10 * tUs } }
  | none => .next s

/-- The thermal subsystem starts over (R439): the band is set from the next four samples.
[DEDUCED, notes/assumptions/33.md; DEDUCED, notes/assumptions/42.md] -/
def thermStart (s : State) : State :=
  let s := ((s.wr Fld.THM_STAT_BAND 7).wr Fld.THM_STAT_INIT 0)
  { s with therm := { s.therm with up := 0, dn := 0, upmin := 4, dnmax := 0, firstFour := [], slot := 0, slotAt := s.now } }

/-- After a Sleep wake source and REFCLK the PLLs lock and the stack is in Hold (R693), or goes on to its return state when
the wake source calls for that (R694). -/
def execSleepExitClocksRun (s : State) : Out :=
  match s.power.trans with
  | .waking on =>
    if s.power.refclk then
      let cause := s.rd Fld.GLB_PWR_STAT_WAKE_CAUSE
      let late := s.sb.wakeLate
      let s := cadSwitch false (((s.wr Fld.GLB_PWR_STAT_STATE psHold).wr Fld.GLB_PWR_STAT_TRANS 0).wr Fld.CAD_STAT_OSC 0)
      let s := ({ s with power := { s.power with coreAt := s.now } }.wr Fld.GLB_FW_STAT_IMAGE s.power.savedImage).wr Fld.GLB_FW_STAT_READY 0
      let s := thermStart { s with
        power := { s.power with trans := .none_ }
        sb := { s.sb with wakeStretch := none, wakeLate := false, idleSince := s.now } }
      let s := if late then s.raise (1000 + 3) 1 else s.wr Fld.SB_STAT_STATE 0
      .next (if on then exitHold (s.rd Fld.GLB_PWR_STAT_RETURN) cause 0 s else s)
    else .next s
  | .none_ => .next s
  | .enter _ _ _ _ => .next s
  | .draining _ => .next s

end Sys2Proof.Machine
end

