-- ==== Sys2Proof/Machine/Events.lean ====
section
/-! DEFINITION. The event logic (R546 to R558): captures, records, the ring, EVENT messages, and the routes of level 3. -/
namespace Sys2Proof.Machine
open Sys2Proof

/-- The level of a source (R553, R575). -/
def State.evLevel (s : State) (ev : Nat) : Nat := bitsOf (s.reg (Off.EVT_LEVEL (ev / 16))).toNat (2 * (ev % 16)) 2

/-- A raising reaches the event logic (R546 to R548): its source's latch captures it, or it is merged into the capture not yet
written; the source's bit in EVT_SEEN is set. -/
def arrive (ev : Nat) (detail : Byte) (merge : Nat) (s : State) : State :=
  let i := ev / 32
  let s := s.wr (Fld.EVT_SEEN_SEEN i) (bitPut (s.rd (Fld.EVT_SEEN_SEEN i)) (ev % 32) true)
  match tabGet none s.latches ev with
  | some l =>
    let l := { l with merge := min 255 (l.merge + merge + 1) }
    { s.sat Fld.EVT_MERGED_COUNT (merge + 1) with latches := tabSet none s.latches ev (some l) }
  | none =>
    let s := if merge = 0 then s else s.sat Fld.EVT_MERGED_COUNT merge
    let l : Latch := { detail := detail, merge := min 255 merge, ts := s.stamp, level := BitVec.ofNat 2 (s.evLevel ev),
                       freewheel := s.rd Fld.CAD_STAT_STATE != 2 }
    { s with latches := tabSet none s.latches ev (some l) }

/-- Whether a chapter defines the event of a source (R326, R421, R451, R483, R527, R544, R609, R640, R669). -/
def evDefined (ev : Nat) : Bool :=
  decide (ev < 896 + 9) || (decide (928 ≤ ev) && decide (ev < 928 + 4)) || (decide (936 ≤ ev) && decide (ev < 936 + 9)) ||
    (decide (952 ≤ ev) && decide (ev < 952 + 9)) || (decide (968 ≤ ev) && decide (ev < 968 + 11)) ||
    (decide (968 + 24 ≤ ev) && decide (ev < 968 + 29)) || (decide (1000 ≤ ev) && decide (ev < 1000 + 7)) ||
    (decide (1008 ≤ ev) && decide (ev < 1008 + 6))

/-- A raising of the machine that has set out arrives, two fabric cycles after it or later (R546, R680); a raising the machine has not made itself arrives with its operands. A source
that no chapter defines is never raised (R545). -/
def execEventRaise (ev : Fin 1024) (detail : Byte) (s : State) : Out :=
  match s.crossing.find? (fun c => c.1 == ev.val) with
  | some c => .next (arrive ev.val c.2.1 c.2.2.1 { s.atLeast (c.2.2.2 + 2 * tFab) with crossing := s.crossing.erase c })
  | none => if evDefined ev.val then .next (arrive ev.val detail 0 s) else .next s

/-- The bytes of a record (R550). -/
def recordBytes (ev : Nat) (l : Latch) (seq : Nat) : List Byte :=
  leBytes 8 (l.ts.toNat + ev * 2 ^ 50) ++ [l.detail, BitVec.ofNat 8 l.merge] ++ leBytes 2 seq ++
    [BitVec.ofNat 8 (b2n l.freewheel + 4 * l.level.toNat), 0, 0, 0]

/-- A port's stream whose oldest record is about to be overwritten advances past it (R558). -/
def advanceStreams (s : State) : State :=
  forUpto 16 (fun n a =>
    if bitAt (a.rd Fld.EVT_ROUTE_PORTS) n && decide (2048 ≤ a.streamSpan n) then
      let q := (a.port n).sendPos
      let inStream := decide (2 ≤ a.ringLevel q)
      let a := a.modPort n (fun p => { p with sendPos := (q + 1) % 2 ^ 32, lostMark := p.lostMark || inStream })
      if inStream then a.sat (Fld.EVT_PORT_LOST n) else a
    else a) s

/-- The routes of a record of level 3 (R554, R660, R694, R695). -/
def route3 (s : State) : State :=
  let s := if s.on Fld.EVT_ROUTE_SB_ATTN then s.wr Fld.SB_STAT_ATTN_PEND 1 else s
  let s := if s.on Fld.EVT_ROUTE_WAKE && decide (2 ≤ s.rd Fld.GLB_PWR_STAT_STATE) then
      { s with power := { s.power with wakeDrive := some (s.now + 100 * tUs), wakeIgnore := s.now + 110 * tUs } }
    else s
  if s.on Fld.GLB_PWR_CTRL_EVT_WAKE then wakeBy 4 0 false s else s

/-- The event logic writes the record of a capture to the ring (R548, R551); one of level 0 is discarded. -/
def writeRecord (ev : Nat) (l : Latch) (s : State) : State :=
  let s := { s with latches := tabSet none s.latches ev none }
  if l.level = 0 then s
  else
    let s := advanceStreams s
    let seq := s.rd Fld.EVT_SEQ_NEXT
    let bs := recordBytes ev l seq
    let s := forUpto 4 (fun w a => a.setReg (Off.EVT_RING (seq % 2048) w) (BitVec.ofNat 32 (leAt bs (4 * w) 4))) s
    let s := s.wr Fld.EVT_SEQ_NEXT ((seq + 1) % 2 ^ 32)
    if l.level = 3 then route3 s else s

/-- The event logic writes one captured record: that of the lowest source (R548). -/
def execEventRecordWrite (s : State) : Out :=
  match s.latches with
  | (ev, some l) :: _ => .next (writeRecord ev l s)
  | (ev, none) :: _ => .next { s with latches := tabErase s.latches ev }
  | [] => .next s

/-- A record as a message carries it: the first after a loss is marked (R550, R558). -/
def markLost (lost : Bool) (bs : List Byte) : List Byte :=
  if lost then bs.take 12 ++ [(bs.getD 12 0) ||| 2] ++ bs.drop 13 else bs

/-- Up to four records of a port's stream are sent in one EVENT message (R556, R557); a coasting port leaves coast first. -/
def sendEvents (n : Nat) (s : State) : State :=
  let qs := (s.streamOf n).take 4
  let tc := s.rd Fld.EVT_ROUTE_TC
  if qs.isEmpty || s.role n != 0 then s
  else if s.link n = lsCoast then startCoastExit n s
  else
    let lost := (s.port n).lostMark
    let data := (qs.zipIdx).flatMap (fun e => markLost (lost && e.2 == 0) (s.ringRecord e.1))
    let msg : OutMsg := { value := BitVec.ofNat 16 qs.length, mtype := 2, tc := BitVec.ofNat 2 tc, data := some (lineOf data),
                          key := none }
    match sendMsg n msg s with
    | some s => s.modPort n (fun p => { p with sendPos := (qs.getLastD 0 + 1) % 2 ^ 32, lostMark := false })
    | none =>
      let s := if s.up n && !s.hasTx n tc 0 1 then stallOn n tc 0 s else s
      if s.up n && !s.hasTx n tc 1 1 then stallOn n tc 1 s else s

/-- EVENT messages are sent (R556). -/
def execEventMessageSend (n : PortId) (s : State) : Out := .next (sendEvents n s)

/-- A bit of EVT_ROUTE.PORTS is set: the port's send position takes EVT_SEQ (R555). -/
def setEvtPorts (old new : Nat) (s : State) : State :=
  forUpto 16 (fun n a =>
    if bitAt new n && !bitAt old n then a.modPort n (fun p => { p with sendPos := a.rd Fld.EVT_SEQ_NEXT, lostMark := false }) else a) s

/-- EVT_ROUTE takes a value (R555, R572): bits of ports that the variant disables stay 0. -/
def setRoute (v : Nat) (s : State) : State :=
  let old := s.rd Fld.EVT_ROUTE_PORTS
  let new := (BitVec.ofNat 16 v &&& BitVec.ofNat 16 (s.rd Fld.GLB_FEATURES_PORTS)).toNat
  setEvtPorts old new (((s.wr Fld.EVT_ROUTE_PORTS new).wr Fld.EVT_ROUTE_TC (bitsOf v 16 2)).setReg Off.EVT_ROUTE
    (BitVec.ofNat 32 (bitsSet (bitsSet (bitsSet 0 0 16 new) 16 2 (bitsOf v 16 2)) 18 2 (bitsOf v 18 2))))

end Sys2Proof.Machine
end

