-- ==== Sys2Proof/Machine/Sec.lean ====
section
/-! DEFINITION. Identity, signatures and workshop mode (R616 to R645): the objects the stack signs and checks, the token
challenge, key enrolment, image verification and the anti-rollback counter. -/
namespace Sys2Proof.Machine
open Sys2Proof

/-! ## Signatures (R616 to R618) -/

/-- "GOLR" and the rest of a context tag (R617). -/
def tagRot (rest : List Byte) : List Byte := [0x47, 0x4F, 0x4C, 0x52] ++ rest
def tagFw : List Byte := tagRot [0x46, 0x57, 0x30, 0x31]
def tagPark : List Byte := tagRot [0x50, 0x4B, 0x30, 0x31]
def tagId : List Byte := tagRot [0x49, 0x44, 0x30, 0x31]
def tagAttest : List Byte := tagRot [0x41, 0x54, 0x30, 0x31]
def tagToken : List Byte := tagRot [0x57, 0x54, 0x30, 0x31]
def tagProof : List Byte := tagRot [0x43, 0x4B, 0x30, 0x31]

/-- The signed message of an object (R616): its tag and the SHA-512 digest of its bytes. -/
def signedMsg (tag bytes : List Byte) : List Byte := tag ++ leBytes 64 (Config.sha512 bytes).toNat

/-- The secret seed as latched (R621): word i supplies bytes 4i to 4i + 3. -/
def State.seed (s : State) : BitVec 256 :=
  BitVec.ofNat 256 ((List.range 8).foldl (fun a i => a + (tabGet 0 s.otp.latSecretWords i).toNat * 2 ^ (32 * i)) 0)

/-- Whether the device key is unavailable (R621). -/
def State.keyLost (s : State) : Bool := s.otp.latSecretBlank || !s.otp.latSecretOk

/-- The device key's signature of an object. -/
def State.deviceSign (s : State) (tag bytes : List Byte) : List Byte := leBytes 64 (Config.sign s.seed (signedMsg tag bytes)).toNat

/-- The device public key. -/
def State.deviceKey (s : State) : List Byte := leBytes 32 (Config.publicKey s.seed).toNat

/-- Whether a signature of an object verifies under a key (R616). -/
def verifies (key : BitVec 256) (tag bytes sig : List Byte) : Bool :=
  Config.verify key (signedMsg tag bytes) (BitVec.ofNat 512 (leNat sig))

/-- The device public key is derived (R621); identity unavailable is raised where each start begins. -/
def execDeviceKeyDerived (s : State) : Out :=
  if s.on Fld.OTP_STAT_READ_DONE ∧ s.keyLost = false then .next (s.wr Fld.GLB_SEC_STAT_IDENT 1) else .next s

/-- The identity unavailable event of a start (R621, R640). -/
def noteIdentity (s : State) : State :=
  if s.otp.latSecretBlank then s.raise (952 + 8) 0 else if s.otp.latSecretOk then s else s.raise (952 + 8) 1

/-- A fresh challenge is drawn (R633). -/
def drawChallenge (s : State) : State :=
  let (e, s) := s.drawEntropy
  forUpto 8 (fun i a => a.setReg (Off.GLB_SEC_CHAL i) (e.extractLsb' (32 * i) 32)) s

/-- The registers' bytes from an offset on. -/
def State.regsBytes (s : State) (src : Nat) (offs : List Nat) : List Byte := offs.flatMap (fun o => s.regBytes src o)

/-- DEVICE_ID (R530). -/
def State.deviceId (s : State) : List Byte := s.regsBytes 0 ((List.range 4).map (fun i => Off.GLB_DEVID i))

/-- Bytes of zeros. -/
def zeros (n : Nat) : List Byte := List.replicate n 0

/-! ## Identity certificate and attestation (R622, R623) -/

/-- Bytes 0 to 191 of the identity certificate. -/
def State.idBody (s : State) : List Byte :=
  [0x47, 0x49, 0x44, 0x43] ++ leBytes 2 1 ++ leBytes 2 256 ++ s.deviceId ++ s.deviceKey ++
    s.regsBytes 0 [Off.GLB_ID, Off.GLB_FEATURES, Off.GLB_SEC_KEYID_V, Off.GLB_SEC_KEYID_C, Off.GLB_SEC_ARB] ++ s.otpDigest ++ zeros 84

/-- Bytes 0 to 255 of the attestation report for a nonce, requested by a mailbox's owner. -/
def State.attestBody (s : State) (src : Nat) (nonce : List Byte) : List Byte :=
  let fw := if s.fwDigest.isEmpty then leBytes 64 Config.romDigest.toNat else s.fwDigest
  [0x47, 0x41, 0x54, 0x52] ++ leBytes 2 1 ++ leBytes 2 320 ++ s.deviceId ++ nonce ++ leBytes 8 s.stamp.toNat ++
    s.regsBytes src [Off.GLB_FW_STAT, Off.GLB_FW_VER, Off.GLB_FW_SVN, Off.GLB_FW_CAP] ++ fw ++ s.otpDigest ++
    s.regsBytes src [Off.GLB_SEC_ARB, Off.GLB_SEC_STAT, Off.GLB_STEWARD, Off.GLB_WHOAMI, Off.GLB_POOL_WINDOW, Off.GLB_MAP_CTRL] ++
    zeros 56

/-- A request joins the signing engine's queue (R618). -/
def submit (j : SignJob) (s : State) : State := { s with signing := s.signing ++ [j] }

/-- ID_CERT_READ (R622). -/
def opIdCertRead (m : Nat) (s : State) : State :=
  if s.keyLost then s.refuse m ccUnsupported 0xFFFF else submit (.idCert m s.idBody) s

/-- ATTEST (R623, R639): a request shorter than its nonce is refused. [DEDUCED, notes/assumptions/54.md] -/
def opAttest (m : Nat) (pl : List Byte) (s : State) : State :=
  if pl.length < 32 then s.refuse m ccInvalid 2
  else if s.keyLost then s.refuse m ccUnsupported 0xFFFF
  else submit (.attest m (s.attestBody (s.owner m) (pl.take 32))) s

/-! ## Workshop mode (R632 to R638) -/

/-- Workshop mode begins (R635). -/
def enterWorkshop (m o signer : Nat) (s : State) : State :=
  let s := ((s.wr Fld.GLB_SEC_STAT_WORKSHOP 1).wr Fld.GLB_SEC_STAT_SIGNER signer).wr (Fld.MBX_OWNER_SOURCE 17) o
  (s.raise 952 (o + 32 * signer)).finish m ccOk [BitVec.ofNat 8 signer]

/-- Workshop mode ends with WORKSHOP_EXIT (R638). [DEDUCED, notes/assumptions/54.md] -/
def leaveWorkshop (s : State) : State :=
  ((s.wr Fld.GLB_SEC_STAT_WORKSHOP 0).wr (Fld.MBX_OWNER_SOURCE 17) 31).raise (952 + 1) 0

/-- The first step of R634 that a token fails; `lock` is the region of OTP_LOCK_FORCE. -/
def State.tokenFails (s : State) (t : List Byte) (lock : Option Nat) : Option Nat :=
  let permits := leAt t 56 4
  let form := t.length == 160 && t.take 4 == [0x47, 0x57, 0x53, 0x54] && leAt t 4 2 == 1 && leAt t 6 2 == 160 &&
    leAt t 61 3 == 0 && leAt t 68 28 == 0 && bitsOf permits 2 14 == 0 && bitsOf permits 21 11 == 0
  let dev := (t.drop 8).take 16
  let chal := s.regsBytes 0 ((List.range 8).map (fun i => Off.GLB_SEC_CHAL i))
  let signer := leAt t 60 1
  let slot := s.keySlot (2 + signer)
  if !form then some 1
  else if dev != s.deviceId || (t.drop 24).take 32 != chal then some 2
  else if decide (1 < signer) || !s.keyHeld (2 + signer) || !slot.2.2.getLsbD 1 || slot.2.1.toNat != leAt t 64 4 then some 3
  else if (match lock with
      | none => !bitAt permits 0
      | some r => !bitAt permits 1 || !bitAt permits (16 + r)) then some 4
  else if !verifies slot.1 tagToken (t.take 96) (t.drop 96) then some 5
  else none

/-- WORKSHOP_ENTER (R635, R636, R639). -/
def opWorkshopEnter (m : Nat) (pl : List Byte) (s : State) : State :=
  let t := leAt pl 0 2
  let prov := s.on Fld.GLB_SEC_STAT_PROVISIONED
  if t ≠ 160 ∧ (t ≠ 0 ∨ prov = true) then s.badByte m 0
  else if s.on Fld.GLB_SEC_STAT_WORKSHOP then s.refuse m ccBusy 0xFFFF
  else if t = 0 then enterWorkshop m (s.owner m) 2 s
  else submit (.token m (s.owner m) none ((pl.drop 4 ++ zeros 160).take 160)) s

/-- WORKSHOP_EXIT (R638): refused while key material is marginal; the mode ends with the completion. -/
def opWorkshopExit (m : Nat) (s : State) : State :=
  if s.on Fld.OTP_STAT_KEY_MARGINAL then
    (s.raise (952 + 7) (match s.otp.keyMargs with | e :: _ => e.1 | [] => 0)).refuse m ccMarginal 0xFFFF
  else s.finish m ccOk []

/-- OTP_LOCK_FORCE (R605). [DEDUCED, notes/assumptions/52.md] -/
def opOtpLockForce (m : Nat) (pl : List Byte) (s : State) : State :=
  let r := leAt pl 0 1
  if 4 < r then s.badByte m 0
  else
    match s.progCheck m [] true (some r) with
    | some (c, q) => s.refuse m c q
    | none => submit (.token m (s.owner m) (some r) ((pl.drop 4).take (leAt pl 2 2))) s

/-- KEY_ENROL (R631). -/
def opKeyEnrol (m : Nat) (pl : List Byte) (s : State) : State :=
  let ws := ((List.range 10).map (fun i => 0x450 + i) ++ [0x466, 0x467]).map (fun w => (w, 0))
  match s.progCheck m ws false none with
  | some (c, q) => s.refuse m c q
  | none => if 4 ≤ leAt pl 32 4 then s.badByte m 32 else submit (.keyProof m (m == 17) pl) s

/-- The words KEY_ENROL programs: the slot, its header, and from MBX17 the LOCK bit (R631). -/
def enrolItems (from17 : Bool) (pl : List Byte) : List FuseItem :=
  let key := (pl ++ zeros 32).take 32
  let id := keyIdOf (BitVec.ofNat 256 (leNat key))
  let words : List (BitVec 32) := (List.range 8).map (fun i => BitVec.ofNat 32 (leAt key (4 * i) 4)) ++ [id, BitVec.ofNat 32 (leAt pl 32 4)]
  let crc := crc32 (words.flatMap (fun w => leBytes 4 w.toNat))
  (words.zipIdx).map (fun e => FuseItem.word (0x450 + e.2) e.1) ++ [.word 0x466 10, .word 0x467 crc] ++
    (if from17 then [.dfBit 99] else [])

/-- A token has been verified (R633, R634): the challenge is drawn anew, and the command goes on or is refused. -/
def tokenDone (m src : Nat) (lock : Option Nat) (t : List Byte) (s : State) : State :=
  let bad := s.tokenFails t lock
  let s := drawChallenge s
  match bad with
  | some k =>
    (s.raise (952 + 2) (k + 8 * b2n lock.isSome)).refuse m (if k = 1 then ccInvalid else ccSignature) 0xFFFF
  | none =>
    match lock with
    | none => if s.on Fld.GLB_SEC_STAT_WORKSHOP then s.refuse m ccBusy 0xFFFF else enterWorkshop m src (leAt t 60 1) s
    | some r =>
      if s.halted then s.refuse m ccBusy 0xFFFF
      else if !s.otp.supply then s.refuse m ccNoSupply 0xFFFF
      else progStart (some m) 0x0904 [.dfBit (96 + r), .dfBit (104 + r)] r 0 s

/-- The proof of KEY_ENROL has been verified (R631). -/
def proofDone (m : Nat) (from17 : Bool) (pl : List Byte) (s : State) : State :=
  let key := (pl ++ zeros 32).take 32
  let body := s.deviceId ++ key ++ leBytes 4 (leAt pl 32 4)
  if !verifies (BitVec.ofNat 256 (leNat key)) tagProof body ((pl.drop 40 ++ zeros 64).take 64) then s.refuse m ccSignature 0xFFFF
  else if s.halted then s.refuse m ccBusy 0xFFFF
  else if !s.otp.supply then s.refuse m ccNoSupply 0xFFFF
  else progStart (some m) 0x0A12 (enrolItems from17 pl) (keyIdOf (BitVec.ofNat 256 (leNat key))).toNat (b2n from17) s

/-! ## Firmware images (R624 to R627) -/

/-- Bytes of the staging region. -/
def State.staged? (s : State) (lo n : Nat) : List Byte := (List.range n).map (fun i => tabGet 0 s.staging (lo + i))

/-- The bytes both signatures of an image cover (R625). -/
def State.imageBytes (s : State) (len : Nat) : List Byte := s.staged? 0 128 ++ s.staged? 256 (len - 256)

/-- The first check of R627 that the staged image fails: code and reason. [DEDUCED, notes/assumptions/54.md] -/
def State.imageFails (s : State) (len : Nat) : Option (Nat × Nat) :=
  let h := s.staged? 0 256
  let le (o n : Nat) : Nat := leAt h o n
  let codeLen := le 12 4
  let svn := le 20 4
  let flags := le 32 4
  let form := le 0 4 == 0x49554D4F && le 4 2 == 1 && le 6 2 == 3 && le 8 4 == len && decide (1024 ≤ len) && decide (len ≤ 786432) &&
    codeLen == len - 256 && decide (le 28 4 < codeLen) && decide (flags < 4) && le 53 75 == 0 && decide (le 24 4 ≤ 0x1FFFF) &&
    decide (svn ≤ 64)
  let v := s.keySlot 2
  let c := s.keySlot 3
  let needV := s.keyHeld 2 && v.2.2.getLsbD 0
  let needC := (s.keyHeld 3 && c.2.2.getLsbD 0) || bitAt flags 0
  let body := s.imageBytes len
  if !form then some (ccInvalid, 1)
  else if (bitAt flags 1 && (h.drop 36).take 16 != s.deviceId) || decide (s.rd Fld.GLB_ID_REV < le 52 1) then some (ccInvalid, 2)
  else if (!needV && !needC) || (needC && !s.keyHeld 3) || (needV && !verifies v.1 tagFw body ((h.drop 128).take 64)) ||
      (needC && !verifies c.1 tagFw body ((h.drop 192).take 64)) then some (ccSignature, 3)
  else if svn < s.rd Fld.GLB_SEC_ARB_FLOOR then some (ccRollback, 4)
  else none

/-- The counter advances after a switchover to an image of a higher SVN, or the advance is deferred (R629, R630).
[DEDUCED, notes/assumptions/51.md] -/
def arbAdvance (svn : Nat) (s : State) : State :=
  if s.on Fld.GLB_SEC_CTRL_ARB_AUTO ∧ s.rd Fld.GLB_SEC_ARB_FLOOR < svn then
    let put (d : Nat) : State := (s.wr Fld.GLB_SEC_ARB_PENDING svn).raise (952 + 5) d
    if !s.otp.supply then put 0
    else if s.otpBusy then put 1
    else if s.halted then put 2
    else progStart none 0x0A02 [.counter (svn - 1)] svn 0 s
  else s

end Sys2Proof.Machine
end

