-- ==== Sys2Proof/Machine/Bulk.lean ====
section
/-! DEFINITION. The bulk engine (R349 to R351, R377): the lines of FILL and COPY, their end, and the commands of group 0x0D. -/
namespace Sys2Proof.Machine
open Sys2Proof

/-- The agent number of the bulk engine (R19). -/
def agentBulk : Nat := 49

/-- The bulk command ends early with a code (R351): no new line is issued, lines in flight finish. -/
def bulkStop (code : Nat) (s : State) : State :=
  match s.bulk with
  | some b =>
    endWith b.mbx code { s with bulk := some { b with ending := (match b.ending with
      | some c => some c | none => some (BitVec.ofNat 8 code)) } }
  | none => s

/-- Whether pavilions and links may be used by new work: start-up is over, the stack is in Run or Rest and stays there, and no
parking or shutdown has begun (R690, R698, R706). -/
def State.workable? (s : State) : Bool :=
  s.power.boot == .done && decide (s.power? < 2) && s.power.trans == .none_ && !s.power.noDispatch

/-- A line of the bulk engine goes to the promenade at TC0 (R351). -/
def bulkSend (loc : Loc) (idx : Nat) (op : LineOp) (b : Bulk) (s : State) : State :=
  let s := lockMap s
  let r : LineReq := { id := s.nextId, owner := .bulk (!op.isRead), agent := agentBulk, loc := loc, idx := idx, op := op, tc := 0,
                       panic := false, hint := 0, since := s.now, promoted := false, stalled := false }
  { s with nextId := s.nextId + 1, prom := s.prom ++ [r], bulk := some { b with flying := b.flying + 1 } }

/-- A line of FILL has been written or skipped. With MARK = 1 the scrub enable bit of a region of 256 MiB wholly inside the range is
set once the last of its lines has entered its write buffer (R349). [DEDUCED, notes/assumptions/39.md] -/
def markLine (idx : Nat) (wrote : Bool) (s : State) : State :=
  match s.bulk with
  | some b =>
    let g := (b.start + 64 * idx) / 2 ^ 28
    if b.mark ∧ b.start ≤ g * 2 ^ 28 ∧ (g + 1) * 2 ^ 28 ≤ b.start + 64 * b.lines then
      let m := tabGet (0, false) b.marks g
      let m : Nat × Bool := (m.1 + 1, m.2 || wrote)
      let s := { s with bulk := some { b with marks := tabSet (0, false) b.marks g m } }
      if m.1 = 2 ^ 22 ∧ m.2 then
        s.wr (Fld.GLB_SCRUB_EN_EN (g / 32)) (bitPut (s.rd (Fld.GLB_SCRUB_EN_EN (g / 32))) (g % 32) true)
      else s
    else s
  | none => s

/-- The next line of the running command is issued (R349 to R351): a line read for COPY is written on first; a line of a
pavilion retired while running is skipped. [DEDUCED, notes/assumptions/39.md] -/
def bulkIssue (b : Bulk) (s : State) : State :=
  match b.readBack with
  | (i, d, mk) :: rest =>
    match s.locate (b.dst + 64 * i) with
    | some l =>
      if s.retiredRunning l.pav then { s with bulk := some { b with readBack := rest, skipped := b.skipped + 1 } }
      else bulkSend l i (.write d mk) { b with readBack := rest, poisoned := b.poisoned + b2n (mk != 0) } s
    | none => { s with bulk := some { b with readBack := rest, skipped := b.skipped + 1 } }
  | [] =>
    if b.ending.isNone ∧ b.issued < b.lines then
      let skip : State := markLine b.issued false { s with bulk := some { b with issued := b.issued + 1, skipped := b.skipped + 1 } }
      match s.locate (b.start + 64 * b.issued) with
      | some l =>
        let dead := s.retiredRunning l.pav || (b.copy &&
          (match s.locate (b.dst + 64 * b.issued) with | some d => s.retiredRunning d.pav | none => true))
        if dead then skip
        else
          let op := if b.copy then LineOp.read else .write (Vector.replicate 8 b.pattern) 0
          bulkSend l b.issued op { b with issued := b.issued + 1 } s
      | none => skip
    else s

/-- A line of the bulk engine has entered its write buffer. -/
def bulkWritten (idx : Nat) (s : State) : State :=
  match s.bulk with
  | some b => markLine idx true { s with bulk := some { b with written := b.written + 1, flying := b.flying - 1 } }
  | none => s

/-- A line of COPY has been read (R350): its uncorrectable words become the marker. -/
def bulkRead (idx : Nat) (d : Line) (bad : BitVec 8) (s : State) : State :=
  match s.bulk with
  | some b => { s with bulk := some { b with readBack := b.readBack ++ [(idx, d, bad)], flying := b.flying - 1 } }
  | none => s

/-- Whether the running command has no line left to issue and none in flight (R349 to R351).
[DEDUCED, notes/assumptions/39.md] -/
def Bulk.over (b : Bulk) : Bool :=
  decide (b.flying = 0) && b.readBack.isEmpty && (decide (b.issued = b.lines) || b.ending.isSome)

/-- The running command completes with its counts (R349 to R351). -/
def bulkDone (b : Bulk) (s : State) : State :=
  let s := { s with bulk := none, bulkLast := (if b.copy then 2 else 1, b.written + b.skipped, b.lines) }
  s.finish b.mbx ccOk (leBytes 8 b.written ++ leBytes 8 b.skipped ++ (if b.copy then leBytes 8 b.poisoned else []))

/-- Whether a range breaks R351. -/
def State.rangeBad (s : State) (start len : Nat) : Bool :=
  start % 64 != 0 || len % 64 != 0 || len == 0 || decide (s.windowBytes < start + len)

/-- The command that runs on the engine, when it may. -/
def bulkStart (m : Nat) (b : Bulk) (s : State) : State :=
  if s.bulk.isSome || s.halted || !s.workable? then s.refuse m ccBusy 0xFFFF else { s with bulk := some b }

/-- FILL (R349). -/
def opFill (m : Nat) (pl : List Byte) (s : State) : State :=
  let start := leAt pl 0 8
  let len := leAt pl 8 8
  if start % 64 ≠ 0 then s.badByte m 0
  else if s.rangeBad start len then s.badByte m 8
  else if 2 ≤ leAt pl 24 1 then s.badByte m 24
  else
    bulkStart m { copy := false, mbx := m, start := start, dst := start, lines := len / 64,
                  pattern := BitVec.ofNat 64 (leAt pl 16 8), mark := leAt pl 24 1 == 1, issued := 0, written := 0, skipped := 0,
                  poisoned := 0, flying := 0, marks := [], readBack := [], ending := none } s

/-- COPY (R350). -/
def opCopy (m : Nat) (pl : List Byte) (s : State) : State :=
  let src := leAt pl 0 8
  let dst := leAt pl 8 8
  let len := leAt pl 16 8
  if src % 64 ≠ 0 then s.badByte m 0
  else if dst % 64 ≠ 0 then s.badByte m 8
  else if s.rangeBad src len || s.rangeBad dst len then s.badByte m 16
  else if src < dst + len ∧ dst < src + len then s.badByte m 8
  else
    bulkStart m { copy := true, mbx := m, start := src, dst := dst, lines := len / 64, pattern := 0, mark := false, issued := 0,
                  written := 0, skipped := 0, poisoned := 0, flying := 0, marks := [], readBack := [], ending := none } s

/-- BULK_STATUS (R377). [DEDUCED, notes/assumptions/39.md] -/
def opBulkStatus (m : Nat) (s : State) : State :=
  let now := match s.bulk with | some b => if b.copy then 2 else 1 | none => 0
  let f := match s.bulk with
    | some b => (b.written + b.skipped, b.lines)
    | none => (s.bulkLast.2.1, s.bulkLast.2.2)
  let last := match s.bulk with | some b => (if b.copy then 2 else 1) | none => s.bulkLast.1
  s.finish m ccOk ([BitVec.ofNat 8 now, BitVec.ofNat 8 last] ++ zeros 6 ++ leBytes 8 f.1 ++ leBytes 8 f.2)

/-- BULK_ABORT (R351). -/
def opBulkAbort (m : Nat) (s : State) : State := (bulkStop ccAborted s).finish m ccOk []

end Sys2Proof.Machine
end

