-- ==== Sys2Proof/Machine/Calib.lean ====
section
/-! DEFINITION. Calibration (R465 to R482): retunes, eye scans, TSV steps, sensor offsets and oscillator learning, and the
commands of group 0x07. -/
namespace Sys2Proof.Machine
open Sys2Proof

/-! ## TSV timing (R472 to R477) -/

/-- The longest run of set bits of a 64-bit pass mask, as its first code and its width; the first of equal runs. -/
def longestRun (m : BitVec 64) : Nat × Nat :=
  ((List.range 65).foldl (fun (a : (Nat × Nat) × Nat × Nat) i =>
    let (best, start, len) := a
    if decide (i < 64) && m.getLsbD i then (best, (if len = 0 then i else start), len + 1)
    else ((if best.2 < len then (start, len) else best), 0, 0)) ((0, 0), 0, 0)).1

/-- The trim field of a group: read groups 0 to 7, write groups 8 to 15 (R489). -/
def trimFld (p r g : Nat) : Fld :=
  let i := g / 4
  let j := g % 4
  if j = 0 then Fld.PAV_TSV_TRIM_CODE_0 p r i else if j = 1 then Fld.PAV_TSV_TRIM_CODE_1 p r i
  else if j = 2 then Fld.PAV_TSV_TRIM_CODE_2 p r i else Fld.PAV_TSV_TRIM_CODE_3 p r i

/-- The narrowest margin of eight groups from g0 on. -/
def narrowest (runs : List (Nat × Nat)) (g0 : Nat) : Nat := ((runs.drop g0).take 8).foldl (fun a r => min a r.2) 64

/-- A TSV step completes (R475): trims are set from the passing codes of the 16 groups, the margins reported; the
calibration goes on with the next rank in a later turn, or ends. -/
def execTsvStepEnd (p : PavId) (passes : List (BitVec 64)) (s : State) : Out :=
  match (s.pav p).tsv with
  | some t =>
    match t.step with
    | some r =>
      let s := s.atLeast (t.heldAt + tPav * (3349 - t.held))
      let runs := (List.range 16).map (fun g => longestRun (passes.getD g 0))
      let minWin := s.rd (Fld.PAV_TSV_CTRL_MIN_WIN p)
      let s := (runs.zipIdx).foldl (fun a e =>
        if minWin ≤ e.1.2 ∧ 0 < e.1.2 then a.wr (trimFld p r.val e.2) ((2 * e.1.1 + e.1.2 - 1) / 2) else a) s
      let fails := (List.range 8).foldl (fun a g =>
        a + b2n (decide ((runs.getD g (0, 0)).2 < minWin) || decide ((runs.getD (8 + g) (0, 0)).2 < minWin)) * 2 ^ g) 0
      let s := ((s.wr (Fld.PAV_TSV_STAT_FAIL_GROUPS p) fails).wr (Fld.PAV_TSV_STAT_RD_MARGIN p) (narrowest runs 0)).wr
        (Fld.PAV_TSV_STAT_WR_MARGIN p) (narrowest runs 8)
      let s := if fails = 0 then s else s.raise (968 + 24) (p + 32 * r.val)
      let left := BitVec.ofNat 4 (bitPut t.ranksLeft.toNat r.val false)
      let low := t.lowSeen || fails != 0
      if left = 0 then .next (endTsv p low false s)
      else
        .next ((s.modPav p (fun v => { v with
          tsv := some { t with ranksLeft := left, step := none, held := 0, refFrom := none, turn := s.cad.turn, lowSeen := low } })).wr
            (Fld.PAV_TSV_STAT_STATE p) 1)
    | none => .next s
  | none => .next s

/-- A TSV step has held its rank for 8,192 pavilion cycles (R476). -/
def execTsvWatchdog (p : PavId) (s : State) : Out :=
  match (s.pav p).tsv with
  | some t => if t.step.isSome then .next (abortTsv p (s.atLeast (t.heldAt + tPav * (8192 - t.held)))) else .next s
  | none => .next s

/-- A TSV calibration of a pavilion begins to wait for slot 2 (R472). -/
def tsvBegin (p : Nat) (ranks : BitVec 4) (s : State) : State :=
  (s.modPav p (fun v => { v with
    tsv := some { ranksLeft := ranks, step := none, held := 0, heldAt := s.now, refFrom := none, turn := s.cad.turn - 1, lowSeen := false } })).wr
      (Fld.PAV_TSV_STAT_STATE p) 1

/-- AUTO × 1,024 turns have passed: the pavilion calibrates its four ranks (R477). -/
def execTsvAutoDue (p : PavId) (s : State) : Out :=
  let v := s.pav p
  let auto := s.rd (Fld.PAV_TSV_CTRL_AUTO p)
  if auto ≠ 0 ∧ auto * 1024 ≤ v.tsvTurns ∧ v.tsv = none ∧ v.gated = false ∧ s.halted = false ∧ v.drain = .none_ ∧
      s.on (Fld.PAV_REPAIR_STAT_RETIRED p) = false ∧ s.power? < 2 then
    .next (tsvBegin p 15 (s.modPav p (fun v => { v with tsvTurns := 0 })))
  else .next s

/-- TSV_CAL (R472, R482): retired pavilions count as aborted at once. [DEDUCED, notes/assumptions/44.md] -/
def opTsvCal (m : Nat) (pl : List Byte) (s : State) : State :=
  let mask := leAt pl 0 4
  let ranks := leAt pl 4 1
  if ranks = 0 ∨ 16 ≤ ranks then s.badByte m 4
  else if s.testRuns || !s.workable? ||
      (List.range 32).any (fun p => bitAt mask p && (s.pav p).tsv.isSome) then s.refuse m ccBusy 0xFFFF
  else
    let dead := (List.range 32).foldl (fun a p => a + b2n (bitAt mask p && s.on (Fld.PAV_REPAIR_STAT_RETIRED p)) * 2 ^ p) 0
    let live := mask - dead
    if live = 0 then s.finish m ccOk (leBytes 4 0 ++ leBytes 4 dead)
    else
      let s := forUpto 32 (fun p a => if bitAt live p then tsvBegin p (BitVec.ofNat 4 ranks) a else a) s
      { s with tsvCmds := s.tsvCmds ++ [{ mbx := m, left := BitVec.ofNat 32 live, low := 0, aborted := BitVec.ofNat 32 dead }] }

/-! ## Lanes (R465 to R471) -/

/-- The lane quality words of a port, as CAL_STATUS returns them. -/
def State.eyeBytes (s : State) (n : Nat) : List Byte := (List.range 8).flatMap (fun p => leBytes 4 (s.reg (Off.PRT_LANE_EYE n p)).toNat)

/-- LANE_RETUNE (R465, R467, R482). [DEDUCED, notes/assumptions/44.md] -/
def opLaneRetune (m : Nat) (pl : List Byte) (s : State) : State :=
  let n := leAt pl 0 1
  if 15 < n then s.badByte m 0
  else if s.role n = 2 ∨ s.portEnabled n = false ∨ (s.port n).markedDown = true then s.refuse m ccUnsupported 0xFFFF
  else if s.testRuns || !s.workable? || (s.port n).retune.isSome || !(s.port n).train.hasLink then s.refuse m ccBusy 0xFFFF
  else
    let s := (s.modPort n (fun p => { p with retune := some m })).wr (Fld.PRT_CAL_STAT_STATE n) 1
    if s.up n then s
    else if s.link n = lsCoast then startCoastExit n s
    else if s.link n = lsParked then startParkedExit n s
    else
      let s := s.wr (Fld.PRT_CAL_STAT_STATE n) 2
      if s.link n = lsRecovery then enterRecovery n 5 true s else s

/-- EYE_SCAN (R468, R470, R723, R726): a selected lane that is not active counts as aborted at once; one in a test state makes the port
busy. [DEDUCED, notes/assumptions/44.md] -/
def opEyeScan (m : Nat) (pl : List Byte) (s : State) : State :=
  let n := leAt pl 0 1
  let mask := leAt pl 1 1
  if 15 < n then s.badByte m 0
  else if mask = 0 then s.badByte m 1
  else if s.role n = 2 ∨ s.portEnabled n = false then s.refuse m ccUnsupported 0xFFFF
  else if s.testRuns || !s.workable? || s.rd (Fld.PRT_CAL_STAT_SCANNING n) != 0 ||
      (List.range 8).any (fun p => bitAt mask p && (s.rd (Fld.PRT_LANE_STAT_STATE n p) == laLoop ||
        s.rd (Fld.PRT_LANE_STAT_STATE n p) == laPrbs)) then s.refuse m ccBusy 0xFFFF
  else
    let go := laneMask (fun p => bitAt mask p && s.rd (Fld.PRT_LANE_STAT_STATE n p) == laActive)
    let s := forUpto 8 (fun p a =>
      if bitAt go p then
        (a.modLane n p (fun l => { l with scan := some (0, []), marginHeld := none, winFrom := none })).wr (Fld.PRT_LANE_EYE_ABORT n p) 0
      else if bitAt mask p then (a.wr (Fld.PRT_LANE_EYE_ABORT n p) 1).raise (968 + 25) n
      else a) s
    if go = 0 then s.finish m ccAborted (s.eyeBytes n)
    else
      let s := s.wr (Fld.PRT_CAL_STAT_SCANNING n) go
      let s := if s.rd (Fld.PRT_CAL_STAT_STATE n) = 0 then s.wr (Fld.PRT_CAL_STAT_STATE n) 3 else s
      s.modPort n (fun p => { p with scanMbx := some m, pointAt := s.now })

/-- The run of open points around one of them: its first and last index; none when that point is not open. -/
def openRun (l : List Bool) (k : Nat) : Option (Nat × Nat) :=
  if l.getD k false then
    let down := (List.range (k + 1)).reverse.find? (fun i => !l.getD i false)
    let up := (List.range l.length).find? (fun i => decide (k ≤ i) && !l.getD i false)
    some (match down with | some i => i + 1 | none => 0, match up with | some i => i - 1 | none => l.length - 1)
  else none

/-- The eye scan of a lane ends with all its points (R469, R471). -/
def scanDone (n p : Nat) (pts : List Bool) (s : State) : State :=
  let w := openRun (pts.take 64) 32
  let h := openRun (pts.drop 64) 64
  let (width, centre) : Nat × Int := match w with
    | some (a, b) => (b + 1 - a, Int.tdiv ((a : Int) + b - 64) 2)
    | none => (0, 0)
  let height := match h with | some (a, b) => b + 1 - a | none => 0
  let s := ((s.wr (Fld.PRT_LANE_EYE_WIDTH n p) width).wr (Fld.PRT_LANE_EYE_HEIGHT n p) height).wr (Fld.PRT_LANE_EYE_CENTRE n p)
    (unsigned centre 6)
  let s := (s.wr (Fld.PRT_LANE_EYE_VALID n p) 1).wr (Fld.PRT_LANE_EYE_ABORT n p) 0
  let s := match (s.lane n p).marginHeld with | some v => s.setReg (Off.PRT_LANE_MARGIN_CFG n p) v | none => s
  let s := freshWindow n p (s.modLane n p (fun l => { l with scan := none, marginHeld := none }))
  s.wr (Fld.PRT_CAL_STAT_SCANNING n) (bitPut (s.rd (Fld.PRT_CAL_STAT_SCANNING n)) p false)

/-- The received bits of one point of a port's scan (R468, R484). -/
def State.pointBits (s : State) (n : Nat) : Nat := 2 ^ max 10 (min 30 (s.rd (Fld.PRT_CAL_CTRL_DWELL n)))

/-- An eye-scan point ends on every scanning lane of a port, with its disagreement counts, once its bits have gone by (R468); after
the last point the scan ends. -/
def execEyePointEnd (n : PortId) (ds : List (Pos × Nat)) (s : State) : Out :=
  if s.rd (Fld.PRT_CAL_STAT_SCANNING n) = 0 then .next s
  else
    let thresh := s.rd (Fld.PRT_CAL_CTRL_THRESH n)
    let t := (s.port n).pointAt + s.bitTicks n (s.pointBits n)
    let s := (s.atLeast t).modPort n (fun p => { p with pointAt := t })
    let s := forUpto 8 (fun p a =>
      match (a.lane n p).scan with
      | some (k, pts) =>
        let d := match ds.find? (fun e => e.1.val == p) with | some e => e.2 | none => 0
        let pts := pts ++ [decide (d ≤ thresh)]
        if 191 ≤ k then scanDone n p pts a else a.modLane n p (fun l => { l with scan := some (k + 1, pts) })
      | none => a) s
    if s.rd (Fld.PRT_CAL_STAT_SCANNING n) = 0 then
      let s := if s.rd (Fld.PRT_CAL_STAT_STATE n) = 3 then s.wr (Fld.PRT_CAL_STAT_STATE n) 0 else s
      match (s.port n).scanMbx with
      | some m => .next ((s.finish m ccOk (s.eyeBytes n)).modPort n (fun p => { p with scanMbx := none }))
      | none => .next s
    else .next s

/-- The lane calibrations of a port are aborted (R482): a scan ends under R470, and a retune's command ends. -/
def calAbortPort (n : Nat) (s : State) : State :=
  let s := if (s.port n).retune.isSome then s.raise (968 + 25) n else s
  endRetune n (endScans n s)

/-- Every lane and TSV calibration is aborted (R481). -/
def calAbortAll (s : State) : State :=
  forUpto 32 (fun p a => abortTsv p a) (forUpto 16 (fun n a => calAbortPort n a) s)

/-- The calibrations a command named are aborted (R516). -/
def calAbortOf (m : Nat) (s : State) : State :=
  let s := forUpto 16 (fun n a =>
    if (a.port n).retune = some m ∨ (a.port n).scanMbx = some m then
      (if (a.port n).scanMbx = some m then endScans n a else endRetune n (a.raise (968 + 25) n))
    else a) s
  match s.tsvCmds.find? (fun c => c.mbx == m) with
  | some c => forUpto 32 (fun p a => if c.left.getLsbD p then abortTsv p a else a) s
  | none => s

/-! ## Sensors and oscillator (R478 to R480) -/

/-- The calibration default of a sensor's offset (R589). -/
def State.trimDefault (s : State) (n : Nat) : Int :=
  if s.regionPresent 1 then signed ((s.otpWord (0x240 + n)).toNat % 65536) 16 else 0

/-- SENSOR_CAL (R478, R482). -/
def opSensorCal (m : Nat) (pl : List Byte) (s : State) : State :=
  let mask := leAt pl 0 4
  let ref := signed (leAt pl 4 2) 16
  if 2 ^ 24 ≤ mask then s.badByte m 3
  else if ref < -320 ∨ 1000 < ref then s.badByte m 4
  else if s.therm.cal.isSome then s.refuse m ccBusy 0xFFFF
  else if mask = 0 then s.finish m ccOk (zeros 8)
  else { s with therm := { s.therm with cal := some { mbx := m, mask := BitVec.ofNat 24 mask, ref := ref, sums := [],
                                                      counts := [], set_ := 0, clamped := 0 } } }

/-- A running sensor calibration ends: the offsets set so far stand (R478, R516, R518). -/
def sensorCalEnd (code : Nat) (s : State) : State :=
  match s.therm.cal with
  | some c => ({ s with therm := { s.therm with cal := none } }).finish c.mbx code
      (leBytes 4 c.set_.toNat ++ leBytes 4 c.clamped.toNat)
  | none => s

/-- An input of a running sensor calibration takes a valid conversion (R478), or is dropped when it is faulty (R479). The
rounding of the average is the hardware's own. -/
def sensorCalTake (n : Nat) (conv : Option Int) (faulty : Bool) (s : State) : State :=
  match s.therm.cal with
  | none => s
  | some c =>
    if !c.mask.getLsbD n then s
    else
      let out := BitVec.ofNat 24 (bitPut c.mask.toNat n false)
      let s := match (if faulty then none else conv) with
        | none => if faulty then { s with therm := { s.therm with cal := some { c with mask := out } } } else s
        | some v =>
          let sum := tabGet 0 c.sums n + v
          let k := tabGet 0 c.counts n + 1
          if k < 8 then
            { s with therm := { s.therm with cal := some { c with sums := tabSet 0 c.sums n sum, counts := tabSet 0 c.counts n k } } }
          else
            let (f, s) := s.drawFree
            let avg := if sum % 8 = 0 then sum / 8 else sum / 8 + (if f.getLsbD 0 then 1 else 0)
            let cur := signed (s.rd (Fld.THM_TRIM_OFFSET n)) 16
            let want := c.ref - avg + cur
            let d := s.trimDefault n
            let got := max (d - 32) (min (d + 32) want)
            let s := s.wr (Fld.THM_TRIM_OFFSET n) (unsigned got 16)
            let s := if got = want then s else s.raise (968 + 28) n
            { s with therm := { s.therm with cal := some { c with
              mask := out
              set_ := BitVec.ofNat 24 (bitPut c.set_.toNat n true)
              clamped := BitVec.ofNat 24 (bitPut c.clamped.toNat n (got != want)) } } }
      match s.therm.cal with
      | some c => if c.mask = 0 then sensorCalEnd ccOk s else s
      | none => s

/-- Oscillator learning starts or stops (R480). -/
def setLearn (on : Bool) (s : State) : State :=
  let was := s.on Fld.GLB_CAL_CTRL_OSC_LEARN
  let s := s.wr Fld.GLB_CAL_CTRL_OSC_LEARN (b2n on)
  if on && !was then { s with therm := { s.therm with learnRounds := 0, learnSum := 0 } } else s

/-- OSC_LEARN (R480). -/
def opOscLearn (m : Nat) (pl : List Byte) (s : State) : State :=
  let v := leAt pl 0 1
  if 1 < v then s.badByte m 0 else (setLearn (v == 1) s).finish m ccOk []

/-- A 16-round measurement of the oscillator ends with a cycle count (R480): the error is stored, and beyond 0.02 % the point
nearest the mean Tbase moves by one code. -/
def execOscLearnPeriodEnd (count : Nat) (s : State) : Out :=
  if s.on Fld.GLB_CAL_CTRL_OSC_LEARN ∧ s.power? ≠ psSleep ∧ 16 ≤ s.therm.learnRounds then
    let err : Int := (count : Int) - 51200
    let mean := Int.tdiv s.therm.learnSum 16
    let n := (max 0 (min 15 ((mean + 80 + 32) / 64))).toNat
    let s := { s with therm := { s.therm with learnRounds := 0, learnSum := 0 } }
    let s := s.wr Fld.GLB_OSC_TRIM_ERR (unsigned err 16)
    if err.natAbs < 11 then .next s
    else
      let c := s.rd (Fld.GLB_OSC_TABLE_CODE n)
      if (0 < err ∧ c = 0) ∨ (err < 0 ∧ c = 255) then .next (s.raise (968 + 27) n)
      else .next (s.wr (Fld.GLB_OSC_TABLE_CODE n) (if 0 < err then c - 1 else c + 1))
  else .next s

/-- CAL_STATUS (R482). -/
def opCalStatus (m : Nat) (pl : List Byte) (s : State) : State :=
  let n := leAt pl 0 1
  let p := leAt pl 1 1
  if 15 < n then s.badByte m 0
  else if 31 < p then s.badByte m 1
  else
    s.finish m ccOk (s.regBytes 0 (Off.PRT_CAL_STAT n) ++ s.eyeBytes n ++ s.regBytes 0 (Off.PAV_TSV_STAT p) ++
      s.regBytes 0 Off.GLB_CAL_CTRL ++ s.regBytes 0 Off.GLB_OSC_TRIM)

/-- CAL_ABORT (R482). -/
def opCalAbort (m : Nat) (pl : List Byte) (s : State) : State :=
  let k := leAt pl 0 1
  let u := leAt pl 1 1
  if 1 < k then s.badByte m 0
  else if (k = 0 ∧ 15 < u) ∨ 31 < u then s.badByte m 1
  else (if k = 0 then calAbortPort u s else abortTsv u s).finish m ccOk []

end Sys2Proof.Machine
end

