-- ==== Sys2Proof/Machine/Park.lean ====
section
/-! DEFINITION. The parking test and its certificate (R411 to R416), the steps of Hold entry and SHUTDOWN that wait for quiet
(R690, R706), the signing engine's results (R618), and the commands of group 0x05. -/
namespace Sys2Proof.Machine
open Sys2Proof

/-! ## The certificate (R414, R415) -/

/-- LANES_BAD of R705: bit 8n + p. -/
def State.lanesBad (s : State) : Nat :=
  (List.range 128).foldl (fun a l =>
    let n := l / 8
    let p := l % 8
    let t := (s.port n).train
    a + b2n (s.portEnabled n && s.role n != 2 && t.reachedConfig &&
      ((s.lane n p).bad || s.rd (Fld.PRT_LANE_STAT_HEALTH n p) == 2 || t.lanesOut.getLsbD p)) * 2 ^ l) 0

/-- The ports marked down. -/
def State.portsDown (s : State) : Nat := (List.range 16).foldl (fun a n => a + b2n (s.port n).markedDown * 2 ^ n) 0

/-- The ports in LINK_UP. -/
def State.portsUp (s : State) : Nat := (List.range 16).foldl (fun a n => a + b2n (s.up n) * 2 ^ n) 0

/-- The row entries of the runtime spares absent from the repair map as it stands (R414 SPARES). -/
def State.certSpares (s : State) : List Nat :=
  let map := (List.range 6144).map (fun i => (s.otpWordNow (0x480 + i)).toNat)
  (List.range 32).flatMap (fun p => (s.runtimeSpares p).filter (fun e => !map.contains e))

/-- The special entries of the unusable spares (R366, R414 UNUSABLE). -/
def State.certUnusable (s : State) : List Nat :=
  (List.range 32).flatMap (fun p =>
    (s.pav p).badSpares.eraseDups.map (fun b => 3 * 2 ^ 30 + p * 2 ^ 25 + b.1 * 2 ^ 19 + 2 ^ 16 + b.2))

/-- The certificate without its signature (R414). -/
def State.certBody (s : State) : List Byte :=
  let sp := s.certSpares
  let un := s.certUnusable
  let t := s.test
  [0x50, 0x4B, 0x43, 0x31] ++ leBytes 2 1 ++ leBytes 2 (192 + 4 * (sp.length + un.length)) ++ s.deviceId ++ s.otpDigest ++
    leBytes 4 (s.rd Fld.GLB_PARK_SEQ_S) ++ leBytes 4 (s.rd Fld.GLB_FW_SVN_SVN) ++ leBytes 8 s.stamp.toNat ++ leBytes 2 (unsigned t.parkTdram 16) ++
    [BitVec.ofNat 8 t.parkPolicy, BitVec.ofNat 8 t.parkBits.toNat] ++
    leBytes 4 (BitVec.ofNat 32 s.retiredNow ||| t.tsvFailed).toNat ++ leBytes 2 (BitVec.ofNat 16 s.portsDown ||| t.failPorts).toNat ++
    zeros 2 ++ leBytes 16 s.lanesBad ++ leBytes 2 sp.length ++ leBytes 2 un.length ++ leBytes 4 t.parkTested ++
    leBytes 4 t.parkFailed ++ zeros 16 ++ sp.flatMap (fun e => leBytes 4 e) ++ un.flatMap (fun e => leBytes 4 e)

/-- Bytes of the loaded certificate. -/
def State.certByte (s : State) (lo n : Nat) : List Byte := (List.range n).map (fun i => tabGet 0 s.test.certBytes (lo + i))

/-- The result of R415 for the first L bytes loaded: 0 accepted, 1 to 4 the reason. -/
def State.certCheck (s : State) (len : Nat) : Nat :=
  let h := s.certByte 0 128
  let n := leAt h 100 2
  let u := leAt h 102 2
  let form := h.take 4 == [0x50, 0x4B, 0x43, 0x31] && leAt h 4 2 == 1 && leAt h 6 2 == len && len == 192 + 4 * (n + u) &&
    decide (n ≤ 4096) && decide (u ≤ 1024) && leAt h 82 2 == 0 && leAt h 112 16 == 0
  let key := BitVec.ofNat 256 (leNat s.deviceKey)
  if !form then 1
  else if (h.drop 8).take 16 != s.deviceId then 2
  else if s.keyLost || !verifies key tagPark (s.certByte 0 (len - 64)) (s.certByte (len - 64) 64) then 3
  else if (h.drop 24).take 32 != s.otpDigest then 4
  else 0

/-! ## The parking test (R411, R413, R706) -/

/-- RESULT, the certificate's presence and L (R419, R709). -/
def State.parkPayload (s : State) : List Byte :=
  let ready := s.on Fld.GLB_BIST_STAT_PARK_DONE
  let len := match s.test.parkCert with | some c => c.length | none => 0
  [BitVec.ofNat 8 s.test.parkBits.toNat, BitVec.ofNat 8 (b2n ready)] ++ leBytes 2 (if ready then len else 0)

/-- Step 4 of SHUTDOWN (R706): every pavilion drains into self-refresh. -/
def shutDrain (s : State) : State :=
  match s.power.shut with
  | some h =>
    let s := { s with power := { s.power with shut := some { h with step := 4 } } }
    forUpto 32 (fun p a => if (a.pav p).drain = .halt then a else drainStep p (drainPav p .shutdown a)) s
  | none => s

/-- The parking test is over (R411, R413): its event, and the end of PARK_START, or step 4 of SHUTDOWN. -/
def parkAnswer (big : Bool) (s : State) : State :=
  let s := s.raise (1008 + 1) (s.test.parkBits.toNat + 128 * b2n big)
  let s := { s with test := { s.test with step := 0, parkRun := false } }
  match s.test.parkMbx with
  | some m => s.finish m ccOk s.parkPayload
  | none => shutDrain s

/-- A parking test begins (R411): nothing is dispatched from now on, the sweep stops, calibrations and bulk commands end. -/
def beginPark (policy : Nat) (mbx : Option Nat) (s : State) : State :=
  let s := calAbortAll (sweepStop (bulkStop ccAborted s))
  { s with
    power := { s.power with noDispatch := true }
    test := { s.test with
      step := 1
      parkRun := true
      parkMbx := mbx
      parkPolicy := policy
      parkBits := 0
      parkAborted := none
      parkTested := 0
      parkFailed := 0
      parkTdram := signed (s.rd Fld.THM_TDRAM_TEMP) 16
      tsvFailed := 0
      failPorts := 0
      failLanes := 0 } }

/-- The rows of a pavilion's repeat corrector that the test's own rows leave out (R411), as bank and physical position. -/
def State.suspectsOf (s : State) (p : Nat) : List (Nat × Nat) :=
  let v := s.pav p
  let inTest (b phys : Nat) : Bool :=
    let sub := phys / 1026
    let pos := phys % 1026
    let row := if pos < 1024 then sub * 1024 + pos else
      (match v.spared.find? (fun x => x.bank == b && x.spare == 2 * sub + (pos - 1024)) with | some x => x.row | none => 0)
    row % 64 == s.rd Fld.GLB_PARK_SEQ_S % 64
  ((v.repeats.map (fun e => (e.bank, e.phys))).eraseDups).filter (fun e => !inTest e.1 e.2)

/-- A running parking test ends without a certificate (R413, R708): its slices with a cause, its command with a code.
[DESIGN CHOICE, notes/assumptions/40.md] -/
def parkStop (cause code : Nat) (s : State) : State :=
  if s.test.parkRun && s.test.parkAborted.isNone then
    let s := match s.test.parkMbx with
      | some m => endWith m code s
      | none => (match s.power.shut with | some h => endWith h.mbx code s | none => s)
    let was := s.test.step
    let s := { s with
      signing := s.signing.filter (fun j => match j with | .parkCert _ _ => false | _ => true)
      test := { s.test with parkAborted := some (BitVec.ofNat 8 code), step := if was = 4 then 4 else 0 } }
    let s := slicesStop cause code s
    if was = 4 ∧ 0 < s.slices then s else parkAnswer false (lanesBack was s)
  else s

/-! ## What waits for quiet (R690, R706) -/

/-- Whether every memory request that has been dispatched has sent its response, and the bulk engine is empty. -/
def State.answered (s : State) : Bool :=
  s.bulk.isNone && (List.range 16).all (fun n => (s.port n).txns.all (fun t =>
    t.dead || !reqMemory (slotOp t.slot) || !(t.dispatched || decide (0 < t.handed))))

/-- Whether every port in LINK_UP can send a POWER request now. -/
def State.portsCanSend (s : State) : Bool := (List.range 16).all (fun n => !s.up n || s.canSend n)

/-- Step 4 of Hold entry (R690): every port in LINK_UP is asked to park. -/
def holdAsk (sleep : Bool) (m : Nat) (s : State) : State :=
  let asked := s.portsUp
  let s := forUpto 16 (fun n a =>
    if bitAt asked n then
      (sendControl n [encPower 0 1] a).modPort n (fun p =>
        { p with shake := .asked true, shakeDeadline := some (a.now + 100 * tUs) })
    else a) s
  holdReady { s with power := { s.power with trans := .enter sleep m (BitVec.ofNat 16 asked) 0 } }

/-- Hold entry goes on when its third step ends (R690). -/
def holdStep (s : State) : State :=
  match s.power.trans with
  | .enter sleep m asked answered =>
    if asked = 0 ∧ answered = 0xFFFF ∧ s.answered = true ∧ s.portsCanSend = true then holdAsk sleep m s else s
  | .none_ => s
  | .draining _ => s
  | .waking _ => s

/-- Slices and SLICE_ROW commands have ended. -/
def State.slicesOver (s : State) : Bool := (List.range 32).all (fun p => (s.pav p).slice.isNone && (s.pav p).rowTest.isNone)

/-- The parking test goes on (R411): its short tests begin once all is quiet; one that has been stopped ends with its last
slice. -/
def parkStep (s : State) : State :=
  if s.test.parkRun = false then s
  else if s.test.parkAborted.isSome then (if s.test.step = 4 ∧ s.slices = 0 then parkAnswer false s else s)
  else if s.test.step = 1 ∧ s.answered = true ∧ s.slicesOver = true then
    let s := forUpto 32 (fun p a => a.modPav p (fun v => { v with testPos := 0, suspects := s.suspectsOf p })) s
    let s := match s.power.shut with
      | some h => { s with power := { s.power with shut := some { h with step := 3 } } }
      | none => s
    shortTests s
  else s

/-- Whether a pavilion has nothing left to do and all its ranks are in self-refresh. -/
def State.pavAsleep (s : State) (p : Nat) : Bool :=
  (s.pav p).ents.isEmpty && (s.pav p).flight.isEmpty && (List.range 4).all (fun r => (s.rank p r).inSelf)

/-- SHUTDOWN goes on (R706): step 4 follows quiet when no parking test is asked for, step 5 the last drain. -/
def shutStep (s : State) : State :=
  match s.power.shut with
  | none => s
  | some h =>
    let s := if h.step = 2 ∧ h.park = false ∧ s.test.parkRun = false ∧ s.answered = true ∧ s.slicesOver = true then shutDrain s else s
    if (match s.power.shut with | some k => k.step | none => 0) = 4 ∧ (List.range 32).all (fun p => s.pavAsleep p) = true then
      let s := (({ s with power := { s.power with shut := none } }).wr Fld.GLB_PWR_STAT_SHUT 1).wr Fld.GLB_BOOT_STAT_PHASE 8
      s.finish h.mbx ccOk (s.parkPayload ++ leBytes 2 s.certSpares.length)
    else s

/-- What the stack goes on to once it is quiet. -/
def quietStep (s : State) : State := shutStep (parkStep (holdStep s))

/-- Time passes by one tick while no command waits (the model's own clock). [DESIGN CHOICE, notes/assumptions/1.md] -/
def State.tick (s : State) : State := quietStep { s with now := s.now + 1 }

/-- Every line of a FILL or COPY has entered its write buffer: the command completes (R349 to R351). -/
def execBulkComplete (s : State) : Out :=
  match s.bulk with
  | some b => if b.over then .next (quietStep (bulkDone b s)) else .next s
  | none => .next s

/-- The slices of the parking test end (R411, R413): the certificate is built and goes to the signing engine. -/
def execParkingTestDone (_ : Unit) (s : State) : Out :=
  if s.test.parkRun ∧ s.test.step = 4 ∧ s.slices = 0 then
    if s.test.parkAborted.isSome then .next (parkAnswer false s)
    else if s.testWaits then .next s
    else
      let s := match s.testRows with | some rows => restPassed rows s | none => s
      let s := if s.test.parkFailed = 0 then { s with test := { s.test with parkBits := s.test.parkBits ||| 8 } } else s
      if 4096 < s.certSpares.length ∨ 1024 < s.certUnusable.length then .next (parkAnswer true s)
      else if s.keyLost then .next (parkAnswer false s)
      else
        let s := { s with test := { s.test with step := 5 } }
        .next (submit (.parkCert s.certBody (s.test.parkMbx.getD 18)) s)
  else .next s

/-! ## The signing engine (R618, R621) -/

/-- The head request of the signing engine ends with its result; one that needs the device key waits for it. -/
def signed_ (j : SignJob) (s : State) : State :=
  match j with
  | .idCert m body => s.finish m ccOk (body ++ s.deviceSign tagId body)
  | .attest m body => s.finish m ccOk (body ++ s.deviceSign tagAttest body)
  | .parkCert body _ =>
    let s := { s with test := { s.test with parkCert := some (body ++ s.deviceSign tagPark body) } }
    parkAnswer false (s.wr Fld.GLB_BIST_STAT_PARK_DONE 1)
  | .token m src lock t => tokenDone m src lock t s
  | .keyProof m from17 pl => proofDone m from17 pl s

/-- Whether a request needs the device key. -/
def SignJob.needsKey : SignJob → Bool
  | .idCert _ _ => true
  | .attest _ _ => true
  | .parkCert _ _ => true
  | .token _ _ _ _ => false
  | .keyProof _ _ _ => false

/-- The signing engine returns a signature or a verification result (R618). -/
def execSigningDone (s : State) : Out :=
  match s.signing with
  | [] => .next s
  | j :: rest =>
    if (j.needsKey && !s.on Fld.GLB_SEC_STAT_IDENT) || !s.firmwareRuns then .next s
    else .next (signed_ j { s with signing := rest })

/-! ## Commands of group 0x05 (R417 to R419) and SHUTDOWN (R709) -/

/-- Whether new work for pavilions is turned away: in or on the way to Hold or Sleep, parked or shut down (R690, R411, R706). -/
def State.pavsClosed (s : State) : Bool := decide (2 ≤ s.power?) || s.power.trans != .none_ || s.parked

/-- BIST_STATUS. -/
def opBistStatus (m : Nat) (pl : List Byte) (s : State) : State :=
  let p := leAt pl 0 1
  if 31 < p then s.badByte m 0
  else
    s.finish m ccOk (s.regsBytes 0 [Off.GLB_BIST_STAT, Off.GLB_PARK_SEQ, Off.PAV_BIST_POS p, Off.PAV_BIST_STAT p, Off.PAV_BIST_DONE p,
      Off.PAV_BIST_CNT p, Off.PAV_BIST_FAIL_0 p, Off.PAV_BIST_FAIL_1 p])

/-- SWEEP_START (R404): its first interval begins with the next slice due. [DESIGN CHOICE, notes/assumptions/40.md] -/
def opSweepStart (m : Nat) (pl : List Byte) (s : State) : State :=
  if s.testRuns || s.pavsClosed then s.refuse m ccBusy 0xFFFF
  else
    let mask := leAt pl 0 4
    let s := ((s.wr Fld.GLB_BIST_SWEEP_INTERVAL (leAt pl 4 2)).wr Fld.GLB_BIST_SWEEP_MASK mask).wr Fld.GLB_BIST_CTRL_SWEEP 1
    ({ s with test := { s.test with sweepMask := BitVec.ofNat 32 mask, sweepLeft := 0 } }).finish m ccOk []

/-- BIST_STOP (R399, R404, R413). -/
def opBistStop (m : Nat) (s : State) : State :=
  (slicesStop 0 ccAborted (parkStop 0 ccAborted (sweepStop s))).finish m ccOk []

/-- SLICE_ROW: the slice waits for its slot. -/
def opSliceRow (m : Nat) (pl : List Byte) (s : State) : State :=
  let a := leAt pl 0 8
  if 2 ^ 37 ≤ a then s.badByte m 4
  else
    match s.locate a with
    | none => s.badByte m 0
    | some l =>
      if s.on (Fld.PAV_REPAIR_STAT_RETIRED l.pav) || s.on (Fld.PAV_BIST_STAT_SAVE_FAULT l.pav) then s.badByte m 0
      else if s.pavsClosed || (s.pav l.pav).rowTest.isSome then s.refuse m ccBusy 0xFFFF
      else s.modPav l.pav (fun v => { v with rowTest := some (l.bank, l.row, m) })

/-- PARK_START (R411). [DEDUCED, notes/assumptions/41.md] -/
def opParkStart (m : Nat) (pl : List Byte) (s : State) : State :=
  let k := leAt pl 0 1
  if 2 < k ∧ k ≠ 255 then s.badByte m 0
  else if s.test.parkPolicy != 256 || s.power.boot != .done || s.pavsClosed then s.refuse m ccBusy 0xFFFF
  else quietStep (beginPark k (some m) s)

/-- CERT_READ. -/
def opCertRead (m : Nat) (pl : List Byte) (s : State) : State :=
  match s.test.parkCert with
  | none => s.refuse m ccBusy 0xFFFF
  | some c =>
    let o := leAt pl 0 4
    if c.length ≤ o then s.badByte m 0
    else
      let bs := (c.drop o).take 448
      s.finish m ccOk (leBytes 2 bs.length ++ zeros 2 ++ bs)

/-- Whether a certificate may still be loaded and submitted (R410, R697, R700). [DEDUCED, notes/assumptions/41.md] -/
def State.certOpen (s : State) : Bool :=
  match s.power.boot with
  | .dram _ => true
  | .certWindow => true
  | _ => false

/-- CERT_LOAD. [DEDUCED, notes/assumptions/41.md] -/
def opCertLoad (m : Nat) (pl : List Byte) (s : State) : State :=
  let o := leAt pl 0 4
  let n := leAt pl 4 2
  if n = 0 ∨ 448 < n then s.badByte m 4
  else if 20672 < o + n then s.badByte m 0
  else if !s.certOpen then s.refuse m ccBusy 0xFFFF
  else
    let bs := ((pl.drop 8).take n) ++ zeros (n - (pl.drop 8).length)
    let t := (bs.zipIdx).foldl (fun t e => tabSet 0 t (o + e.2) e.1) s.test.certBytes
    ({ s with test := { s.test with certBytes := t } }).finish m ccOk []

/-- CERT_SUBMIT (R410, R415, R700): its result is that of the checks that step 5 of R697 acts on.
[DEDUCED, notes/assumptions/41.md] -/
def opCertSubmit (m : Nat) (pl : List Byte) (s : State) : State :=
  let len := leAt pl 0 2
  let pol := leAt pl 2 1
  if 2 < pol ∧ pol ≠ 255 then s.badByte m 2
  else if !s.certOpen then s.refuse m ccBusy 0xFFFF
  else
    let r := if len = 0 then 5 else s.certCheck len
    ({ s with test := { s.test with submitted := some (len, pol), certResult := r } }).finish m ccOk [BitVec.ofNat 8 r]

/-- ARRAY_TEST (R418): the rows are left holding what March C- wrote last; how many of them failed only the cells can tell.
[DESIGN CHOICE, notes/assumptions/40.md] -/
def opArrayTest (m : Nat) (pl : List Byte) (s : State) : State :=
  let p := leAt pl 0 1
  let b := leAt pl 1 1
  let r := leAt pl 2 2
  let n := leAt pl 4 2
  if 31 < p then s.badByte m 0
  else if 63 < b then s.badByte m 1
  else if 32768 < r + n then s.badByte m 2
  else if s.pavsClosed then s.refuse m ccBusy 0xFFFF
  else
    let bg := s.rd Fld.GLB_BIST_CTRL_BG == 1
    let s := forUpto n (fun i a =>
      let phys := a.physOf p b (r + i)
      forUpto 32 (fun c d => writePhys p b phys c (Vector.replicate 8 (bgWord bg c)) d) a) s
    let (f, s) := s.drawFree
    s.finish m ccOk (leBytes 2 (f.toNat % (n + 1)))

/-- Whether the location of a raw command is wrong: the first bad payload byte. -/
def rawBad (pl : List Byte) : Option Nat :=
  if 31 < leAt pl 0 1 then some 0
  else if 63 < leAt pl 1 1 then some 1
  else if 32831 < leAt pl 2 2 then some 2
  else if 31 < leAt pl 4 1 then some 4
  else none

/-- ARRAY_RAW_READ (R418). -/
def opArrayRawRead (m : Nat) (pl : List Byte) (s : State) : State :=
  match rawBad pl with
  | some k => s.badByte m k
  | none =>
    if s.pavsClosed then s.refuse m ccBusy 0xFFFF
    else
      s.finish m ccOk ((List.range 8).flatMap (fun w =>
        leBytes 9 (s.rawWord (leAt pl 0 1) (leAt pl 1 1) (leAt pl 2 2) (leAt pl 4 1) w).toNat))

/-- ARRAY_RAW_WRITE (R418). -/
def opArrayRawWrite (m : Nat) (pl : List Byte) (s : State) : State :=
  match rawBad pl with
  | some k => s.badByte m k
  | none =>
    if s.pavsClosed then s.refuse m ccBusy 0xFFFF
    else
      (forUpto 8 (fun w a =>
        setRawWord (leAt pl 0 1) (leAt pl 1 1) (leAt pl 2 2) (leAt pl 4 1) w (BitVec.ofNat 72 (leAt pl (8 + 9 * w) 9)) a) s).finish
          m ccOk []

/-- SHUTDOWN (R706, R709). [DEDUCED, notes/assumptions/41.md] -/
def opShutdown (m : Nat) (pl : List Byte) (s : State) : State :=
  let f := leAt pl 0 1
  let k := leAt pl 1 1
  let park := f == 1
  if 1 < f then s.badByte m 0
  else if 2 < k ∧ k ≠ 255 then s.badByte m 1
  else if s.power.boot != .done || s.power.trans != .none_ || s.power.shut.isSome || s.on Fld.GLB_PWR_STAT_SHUT ||
      (park && (s.test.parkPolicy != 256 || decide (2 ≤ s.power?))) then s.refuse m ccBusy 0xFFFF
  else
    let s := calAbortAll (sweepStop (bulkStop ccAborted s))
    let s := { s with power := { s.power with noDispatch := true, shut := some { mbx := m, park := park, step := 2 } } }
    let s := s.wr Fld.GLB_BOOT_STAT_PHASE 7
    quietStep (if park then beginPark k none s else s)

end Sys2Proof.Machine
end

