-- ==== Sys2Proof/Machine/Thermal.lean ====
section
/-! DEFINITION. Temperature and heat (R431 to R462): conversions, Tdram and Tbase, the band tracker, critical halt, alerts, the
oscillator's compensation, and the commands of group 0x06. -/
namespace Sys2Proof.Machine
open Sys2Proof

/-! ## Levels and rates (R436, R440, R441) -/

/-- The throttle level of a band. -/
def bandThr (b : Nat) : Nat := if b = 2 then 1 else if b = 3 ∨ b = 4 then 2 else 0

/-- The refresh multiplier of a band; 4 before the first band (R439). -/
def bandRate (b : Nat) : Nat := if b = 0 then 1 else if b = 1 then 2 else 4

/-- The refresh rate and throttle level in force are declared for the whole stack (R440, R441); 4× while HALT is 1 (R314). -/
def declareNow (s : State) : State :=
  let b := s.rd Fld.THM_STAT_BAND
  let thr := max (bandThr b) (s.rd Fld.THM_CTRL_HOST_THR)
  declareRate (if s.halted then 4 else bandRate b) thr (s.wr Fld.THM_STAT_THR thr)

/-- A host throttle level is set (R441, R451); 0b11 leaves the field unchanged (R452). -/
def setHostThr (v : Nat) (s : State) : State :=
  if v = 3 ∨ v = s.rd Fld.THM_CTRL_HOST_THR then s
  else declareNow ((s.wr Fld.THM_CTRL_HOST_THR v).raise (896 + 3) v)

/-! ## Critical halt (R442 to R445) -/

/-- The TSV calibrations end because of critical halt (R476). -/
def haltTsv (s : State) : State :=
  forUpto 32 (fun p a =>
    match (a.pav p).tsv with
    | some _ =>
      let a := match a.tsvCmds.find? (fun c => c.left.getLsbD p) with | some c => endWith c.mbx ccHalt a | none => a
      abortTsv p a
    | none => a) s

/-- A start-up test in progress ends and will be run again (R702). -/
def haltStartTest (s : State) : State :=
  if s.test.startRunning && decide (2 ≤ s.test.step) then
    let was := s.test.step
    lanesBack was (slicesStop 1 ccHalt { s with test := { s.test with step := 1 } })
  else s

/-- Critical halt is declared by a sample (R442). -/
def declareHalt (t : Int) (s : State) : State :=
  let s := (((s.wr Fld.THM_STAT_HALT 1).wr Fld.THM_STAT_TRIP 1).wr Fld.THM_HALT_TDRAM_AT_HALT (unsigned t 16)).sat
    Fld.THM_BAND_CNT_HALTS
  let s := s.raise (896 + 1) (s.rd Fld.THM_STAT_HOT_DIE)
  let s := sweepStop (bulkStop ccHalt s)
  let s := haltStartTest (parkStop 1 ccHalt (haltTsv s))
  let s := progStop ccHalt (slicesStop 1 ccHalt s)
  forUpto 32 (fun p a => if (a.pav p).drain = .none_ then drainStep p (drainPav p .halt a) else a) s

/-- The halt is cleared, in a band that allows it (R444). -/
def clearHalt (s : State) : State :=
  let s := ((s.wr Fld.THM_STAT_HALT 0).wr Fld.THM_STAT_TRIP 0).raise (896 + 2) 0
  let s := forUpto 32 (fun p a =>
    if (a.pav p).drain = .halt then
      (if a.power.shut.isSome || a.on Fld.GLB_PWR_STAT_SHUT then a.modPav p (fun v => { v with drain := .shutdown }) else wakePav p a)
    else a) s
  startTest (declareNow s)

/-- Whether a clear is accepted now (R444). -/
def State.haltClearable (s : State) : Bool := s.halted && decide (s.rd Fld.THM_STAT_BAND ≤ 1)

/-- A request for the clear (R444, R456): ignored while it is not allowed. -/
def askHaltClear (s : State) : State := if s.haltClearable then clearHalt s else s

/-! ## Bands (R436 to R439) -/

/-- The rising limits of bands 1 to 4. -/
def rise (b : Nat) : Int := if b = 1 then 680 else if b = 2 then 760 else if b = 3 then 800 else 840

/-- Whether a sample exceeds the rising limit of a band. -/
def above (t : Int) (b : Nat) : Bool := if b = 4 then decide (840 ≤ t) else decide (rise b < t)

/-- The highest band a sample reaches. -/
def bandOf (t : Int) : Nat := if above t 4 then 4 else if above t 3 then 3 else if above t 2 then 2 else if above t 1 then 1 else 0

/-- The lowest band that a sample allows on the way down from band `b`. -/
def fallTo (t : Int) (b : Nat) : Nat :=
  (List.range b).foldl (fun a k => if k = 0 ∨ rise k - 16 < t then k else a) 0

/-- The band becomes `b` (R437). -/
def changeBand (b : Nat) (t : Int) (s : State) : State :=
  let was := s.rd Fld.THM_STAT_BAND
  let s := { s.wr Fld.THM_STAT_BAND b with therm := { s.therm with up := 0, dn := 0, upmin := 4, dnmax := 0 } }
  let s := (s.sat (if was < b then Fld.THM_BAND_CNT_UP else Fld.THM_BAND_CNT_DOWN)).raise 896 (b + 8 * was)
  let s := if b = 4 ∧ s.halted = false then declareHalt t s else s
  declareNow s

/-- The tracker takes a sample (R437). -/
def trackBand (t : Int) (s : State) : State :=
  let b := s.rd Fld.THM_STAT_BAND
  let h := s.therm
  let h := if b < 4 ∧ above t (b + 1) = true then
      { h with dn := 0, dnmax := 0, up := h.up + 1, upmin := min h.upmin (bandOf t) }
    else if 0 < b ∧ t ≤ rise b - 16 then
      { h with up := 0, upmin := 4, dn := h.dn + 1, dnmax := max h.dnmax (fallTo t b) }
    else { h with up := 0, dn := 0, upmin := 4, dnmax := 0 }
  let s := { s with therm := h }
  if 4 ≤ h.up then changeBand h.upmin t s else if 4 ≤ h.dn then changeBand h.dnmax t s else s

/-- The first band is set from the lowest of four samples (R439). [DEDUCED, notes/assumptions/42.md] -/
def firstBand (t : Int) (s : State) : State :=
  let l := t :: s.therm.firstFour
  if l.length < 4 then { s with therm := { s.therm with firstFour := l } }
  else
    let low := l.foldl min t
    let b := bandOf low
    let s := { (s.wr Fld.THM_STAT_BAND b).wr Fld.THM_STAT_INIT 1 with
      therm := { s.therm with firstFour := [], up := 0, dn := 0, upmin := 4, dnmax := 0 } }
    let s := if b = 4 ∧ s.halted = false then declareHalt t s else s
    startTest (declareNow s)

/-! ## Inputs (R431, R434) -/

def State.sensor (s : State) (n : Nat) : Sensor := tabGet Sensor.reset s.therm.sensors n
def State.setSensor (s : State) (n : Nat) (x : Sensor) : State :=
  { s with therm := { s.therm with sensors := tabSet Sensor.reset s.therm.sensors n x } }

/-- Whether an input is converted. -/
def State.sensorOn (s : State) (n : Nat) : Bool :=
  if n < 24 then true
  else if n = 24 then s.on Fld.THM_CTRL_TD1_EN else if n = 25 then s.on Fld.THM_CTRL_TD2_EN else s.on Fld.THM_CTRL_THM_EN

/-- Whether an input is faulty. -/
def State.sensorFaulty (s : State) (n : Nat) : Bool := s.on (Fld.THM_SENSOR_FAULT n)

/-- An input becomes faulty or recovers. -/
def setFault (n : Nat) (f : Bool) (s : State) : State :=
  (s.wr (Fld.THM_SENSOR_FAULT n) (b2n f)).wr Fld.THM_FAULT_FAULT (bitPut (s.rd Fld.THM_FAULT_FAULT) n f)

/-- An input that is not converted reads 0 and is not faulty (R431). -/
def clearSensor (n : Nat) (s : State) : State :=
  (setFault n false (s.setReg (Off.THM_SENSOR n) 0)).setSensor n Sensor.reset

/-- A conversion of an enabled input ends (R434): its reading, when it is valid. -/
def convert (n : Nat) (reading : Option Int) (s : State) : State :=
  let x := s.sensor n
  match reading with
  | some r =>
    let s := s.setSensor n { badRun := 0, goodRun := x.goodRun + 1, now := some r, last := some r }
    let s := (s.wr (Fld.THM_SENSOR_TEMP n) (unsigned r 16)).wr (Fld.THM_SENSOR_VALID n) 1
    if s.sensorFaulty n ∧ 4 ≤ x.goodRun + 1 then (setFault n false s).raise (896 + 5) n else s
  | none =>
    let s := s.setSensor n { x with badRun := x.badRun + 1, goodRun := 0, now := none }
    if s.sensorFaulty n = false ∧ 2 ≤ x.badRun + 1 then (setFault n true s).raise (896 + 4) n else s

/-- What an input contributes to Tdram or Tbase (R435). -/
def State.contributes (s : State) (n : Nat) : Option Int :=
  if s.sensorFaulty n then none
  else match (s.sensor n).now with | some r => some r | none => (s.sensor n).last

/-- The highest contribution of inputs lo to hi - 1, with its input. -/
def State.hottest (s : State) (lo hi : Nat) : Option (Int × Nat) :=
  (List.range (hi - lo)).foldl (fun (b : Option (Int × Nat)) i =>
    match s.contributes (lo + i), b with
    | some r, none => some (r, lo + i)
    | some r, some (m, k) => if m < r then some (r, lo + i) else some (m, k)
    | none, b => b) none

/-! ## Alerts and samples (R435, R449, R455) -/

/-- An alert takes a sample of its value. [DEDUCED, notes/assumptions/42.md] -/
def alertTake (k : Nat) (t : Int) (s : State) : State :=
  if s.on (Fld.THM_ALERT_EN k) then
    let high := signed (s.rd (Fld.THM_ALERT_HIGH k)) 16
    let up := if high < t then tabGet 0 s.therm.alertUp k + 1 else 0
    let dn := if t ≤ high - 16 then tabGet 0 s.therm.alertDn k + 1 else 0
    let s := { s with therm := { s.therm with
      alertUp := tabSet 0 s.therm.alertUp k (min 4 up)
      alertDn := tabSet 0 s.therm.alertDn k (min 4 dn) } }
    if 4 ≤ up ∧ s.on (Fld.THM_ALERT_ACTIVE k) = false then (s.wr (Fld.THM_ALERT_ACTIVE k) 1).raise (896 + 6) k
    else if 4 ≤ dn then s.wr (Fld.THM_ALERT_ACTIVE k) 0
    else s
  else { s with therm := { s.therm with alertUp := tabSet 0 s.therm.alertUp k 0, alertDn := tabSet 0 s.therm.alertDn k 0 } }

/-- A peak takes a sample: the first since a read replaces it. -/
def peakTake (f : Fld) (fresh : Bool) (t : Int) (s : State) : State :=
  if fresh ∨ signed (s.rd f) 16 < t then s.wr f (unsigned t 16) else s

/-- Tdram of the round, at the end of slot 15 (R435). [DEDUCED, notes/assumptions/42.md] -/
def sampleTdram (s : State) : State :=
  let (t, s) : Int × State := match s.hottest 0 16 with
    | some (r, i) => (r, (s.wr Fld.THM_STAT_HOT_DIE i).wr Fld.THM_STAT_FALLBACK 0)
    | none =>
      let (t, d) : Int × Nat := match s.hottest 16 24 with | some (b, _) => (b + 80, 0) | none => (840, 1)
      let s := if s.on Fld.THM_STAT_FALLBACK then s else (s.wr Fld.THM_STAT_FALLBACK 1).raise (896 + 7) d
      (t, s)
  let s := s.wr Fld.THM_TDRAM_TEMP (unsigned t 16)
  let s := peakTake Fld.THM_PEAK_TDRAM s.therm.peakFreshD t s
  let s := if s.test.parkRun then { s with test := { s.test with parkTdram := max s.test.parkTdram t } } else s
  let s := alertTake 0 t { s with therm := { s.therm with peakFreshD := false } }
  if s.on Fld.THM_STAT_INIT then trackBand t s else firstBand t s

/-- Tbase of the round, at the end of slot 23 (R435). -/
def sampleTbase (s : State) : State :=
  let t : Int := match s.hottest 16 24 with | some (b, _) => b | none => signed (s.rd Fld.THM_TDRAM_TEMP) 16
  let s := s.wr Fld.THM_TBASE_TEMP (unsigned t 16)
  let s := peakTake Fld.THM_PEAK_TBASE s.therm.peakFreshB t s
  alertTake 1 t { s with therm := { s.therm with peakFreshB := false } }

/-! ## The end of a round (R447, R464, R480) -/

/-- The trim code the table gives for a temperature (R447, R480): the rounding between codes, and codes below the table's first
point, are the hardware's own. [DESIGN CHOICE, notes/assumptions/43.md] -/
def trimTarget (t : Int) (s : State) : Int × State :=
  let c (i : Nat) : Int := s.rd (Fld.GLB_OSC_TABLE_CODE i)
  if t < -80 then (let (f, s) := s.drawFree; ((f.toNat % 256 : Nat), s))
  else
    let i := min 14 ((t + 80) / 64).toNat
    let num := c i * 64 + (c (i + 1) - c i) * (t + 80 - 64 * (i : Int))
    let q := num / 64
    let clamp (x : Int) : Int := max 0 (min 255 x)
    if num % 64 = 0 then (clamp q, s)
    else
      let (f, s) := s.drawFree
      (clamp (if f.getLsbD 0 then q + 1 else q), s)

/-- The oscillator trim moves by at most one code (R447). [DESIGN CHOICE, notes/assumptions/43.md] -/
def oscStep (s : State) : State :=
  let (w, s) := trimTarget (signed (s.rd Fld.THM_TBASE_TEMP) 16) s
  let c := s.rd Fld.GLB_OSC_TRIM_CODE
  if w < c then s.wr Fld.GLB_OSC_TRIM_CODE (c - 1) else if (c : Int) < w then s.wr Fld.GLB_OSC_TRIM_CODE (c + 1) else s

/-- The offsets written to the sensor trims take effect (R464). -/
def trimsLoad (s : State) : State :=
  { s with therm := { s.therm with
    trimNow := (List.range 24).foldl (fun t n => tabSet 0 t n (signed (s.rd (Fld.THM_TRIM_OFFSET n)) 16)) [] } }

/-- A round ends. -/
def roundEnd (s : State) : State :=
  let s := trimsLoad (oscStep s)
  if s.on Fld.GLB_CAL_CTRL_OSC_LEARN then
    { s with therm := { s.therm with
      learnRounds := s.therm.learnRounds + 1
      learnSum := s.therm.learnSum + signed (s.rd Fld.THM_TBASE_TEMP) 16 } }
  else s

/-- Whether the converter runs: past the lock of the core PLLs, and not in Sleep (R446). -/
def State.converts (s : State) : Bool :=
  s.power? != psSleep &&
    (match s.power.boot with
     | .off => false
     | .reading _ => false
     | .cold => false
     | .pll _ => false
     | .failed => false
     | .dram _ => true
     | .certWindow => true
     | .certCheck => true
     | .test => true
     | .finish => true
     | .done => true)

/-- What a conversion of an input gives: the converter's result with the sensor's offset, when it is within range (R434,
R464). -/
def State.readingOf (s : State) (n : Nat) (conv : Option (BitVec 16)) : Option Int :=
  match conv with
  | none => none
  | some v =>
    let r := v.toInt + (if n < 24 then tabGet 0 s.therm.trimNow n else 0)
    if -320 ≤ r ∧ r ≤ 1200 then some r else none

/-- A conversion slot of 4 µs ends and its reading takes effect (R432). [DESIGN CHOICE, notes/assumptions/11.md] -/
def execSensorSlotEnd (conv : Option (BitVec 16)) (s : State) : Out :=
  if s.converts then
    let n := s.therm.slot
    let s := s.atLeast (s.therm.slotAt + 4 * tUs)
    let s := { s with therm := { s.therm with slot := (n + 1) % 32, slotAt := s.therm.slotAt + 4 * tUs } }
    let s :=
      if n < 27 then
        (if s.sensorOn n then
          (let r := s.readingOf n conv
           let s := convert n r s
           let s := if n < 24 then sensorCalTake n r (s.sensorFaulty n) s else s
           match r with
           | some t => if 24 ≤ n ∧ s.sensorFaulty n = false then alertTake (n - 22) t s else s
           | none => s)
        else clearSensor n s)
      else s
    .next (if n = 15 then sampleTdram s else if n = 23 then sampleTbase s else if n = 31 then roundEnd s else s)
  else .next s

/-- The drain of critical halt ends (R315, R442): every pavilion that drains for it and has no line under way is in
self-refresh, its write buffer stored and its debt paid. -/
def execHaltDrainDone (s : State) : Out :=
  .next (forUpto 32 (fun p a =>
    if (a.pav p).drain = .halt ∧ a.pavBusy p = false ∧ (a.pav p).copies.any (fun c => c.running) = false then
      settlePav p (match (a.pav p).slice with | some x => endSlice p x 3 a | none => a)
    else a) s)

/-! ## Commands of group 0x06 (R450) -/

/-- THM_STATUS. -/
def opThmStatus (m : Nat) (s : State) : State :=
  s.finish m ccOk (s.regsBytes 0 ([Off.THM_STAT, Off.THM_TDRAM, Off.THM_TBASE, Off.THM_BAND_CNT, Off.THM_FAULT] ++
    (List.range 27).map (fun n => Off.THM_SENSOR n)))

/-- THROTTLE_SET. -/
def opThrottleSet (m : Nat) (pl : List Byte) (s : State) : State :=
  if 2 < leAt pl 0 1 then s.badByte m 0
  else if leAt pl 1 3 ≠ 0 then s.badByte m (if leAt pl 1 1 ≠ 0 then 1 else if leAt pl 2 1 ≠ 0 then 2 else 3)
  else (setHostThr (leAt pl 0 1) s).finish m ccOk []

/-- HALT_CLEAR: with no halt latched it completes without change. -/
def opHaltClear (m : Nat) (s : State) : State :=
  if s.halted && !s.haltClearable then s.refuse m ccBusy 0xFFFF else (askHaltClear s).finish m ccOk []

/-- ALERT_SET. -/
def opAlertSet (m : Nat) (pl : List Byte) (s : State) : State :=
  let k := leAt pl 0 1
  if 4 < k then s.badByte m 0
  else if 1 < leAt pl 1 1 then s.badByte m 1
  else ((s.wr (Fld.THM_ALERT_EN k) (leAt pl 1 1)).wr (Fld.THM_ALERT_HIGH k) (leAt pl 2 2)).finish m ccOk []

/-- The enables of the external inputs; an input that is turned off reads 0 (R431). -/
def setExternal (td1 td2 thm : Bool) (s : State) : State :=
  let s := ((s.wr Fld.THM_CTRL_TD1_EN (b2n td1)).wr Fld.THM_CTRL_TD2_EN (b2n td2)).wr Fld.THM_CTRL_THM_EN (b2n thm)
  forUpto 3 (fun i a => if a.sensorOn (24 + i) then a else clearSensor (24 + i) a) s

/-- EXT_SET. -/
def opExtSet (m : Nat) (pl : List Byte) (s : State) : State :=
  let e := leAt pl 0 1
  let i1 := leAt pl 2 2
  let i2 := leAt pl 4 2
  let rn := leAt pl 6 2
  let be := leAt pl 8 2
  if 7 < e then s.badByte m 0
  else if leAt pl 1 1 ≠ 0 then s.badByte m 1
  else if 1023 < i1 then s.badByte m 2
  else if 1023 < i2 then s.badByte m 4
  else if rn < 100 ∨ 10000 < rn then s.badByte m 6
  else if be < 2000 ∨ 6000 < be then s.badByte m 8
  else
    let s := setExternal (bitAt e 0) (bitAt e 1) (bitAt e 2) s
    let s := (s.wr Fld.THM_EXT_CFG_IDEAL1 i1).wr Fld.THM_EXT_CFG_IDEAL2 i2
    ((s.wr Fld.THM_THERM_CFG_RNOM rn).wr Fld.THM_THERM_CFG_BETA be).finish m ccOk []

end Sys2Proof.Machine
end

