-- ==== Sys2Proof/Machine/Fields.lean ====
section
/-! DEFINITION. What a register holds after a write (R11, R12, R167): byte enables, access types, codes that leave a field
unchanged and limits a field is held to; and the operations that registers and mailbox commands share: committed masks and
signpost entries, the steward register, values that wait for a turn boundary. -/
namespace Sys2Proof.Machine
open Sys2Proof

/-! ## Bits -/

/-- The bits that byte enables select (R165). -/
def beBits (be : BitVec 4) : Reg32 :=
  (if be.getLsbD 3 then 0xFF#8 else 0#8) ++ (if be.getLsbD 2 then 0xFF#8 else 0#8) ++ (if be.getLsbD 1 then 0xFF#8 else 0#8) ++
    (if be.getLsbD 0 then 0xFF#8 else 0#8)

/-- The bits of a field. -/
def FieldRow.bits (f : FieldRow) : Reg32 := BitVec.ofNat 32 (2 ^ (f.hi + 1) - 2 ^ f.lo)

/-- A value with the bits of a mask taken from another. -/
def mixBits (old v m : Reg32) : Reg32 := (old &&& ~~~m) ||| (v &&& m)

/-- One field after a write of `v` with enabled bits `m` (R11): RO, RC and WO fields store nothing; RWS and RWL fields change
for a source with steward privilege only. -/
def fieldWrite (v m : Reg32) (steward : Bool) (old : Reg32) (f : FieldRow) : Reg32 :=
  let b := f.bits &&& m
  match f.acc with
  | .rw => mixBits old v b
  | .rws => if steward then mixBits old v b else old
  | .rwl => if steward then mixBits old v b else old
  | .w1c => old &&& ~~~(v &&& b)
  | .ro => old
  | .rc => old
  | .wo => old

/-- A register's fields after a write. -/
def fieldsWrite (fs : List FieldRow) (old v m : Reg32) (steward : Bool) : Reg32 := fs.foldl (fieldWrite v m steward) old

/-- Whether a write covers a field that needs steward privilege (R167). -/
def coversRws (fs : List FieldRow) (m : Reg32) : Bool :=
  fs.any (fun f => (match f.acc with | .rws => true | .rwl => true | _ => false) && (f.bits &&& m) != 0)

/-- The bits written 1 that the source may write: in WO fields any source's, in the others as R11 has it. -/
def writtenOnes (fs : List FieldRow) (v m : Reg32) (steward : Bool) : Reg32 :=
  fs.foldl (fun a f =>
    match f.acc with
    | .wo => a ||| (v &&& m &&& f.bits)
    | .rw => a ||| (v &&& m &&& f.bits)
    | .w1c => a ||| (v &&& m &&& f.bits)
    | .rws => if steward then a ||| (v &&& m &&& f.bits) else a
    | .rwl => if steward then a ||| (v &&& m &&& f.bits) else a
    | .ro => a
    | .rc => a) 0

/-! ## Codes that leave a field unchanged, and limits -/

/-- A field of the new value goes back to the old one when its code is one that leaves it unchanged. -/
def keepIf (lo w : Nat) (bad : Nat → Bool) (old new : Nat) : Nat :=
  if bad (bitsOf new lo w) then bitsSet new lo w (bitsOf old lo w) else new

/-- The value a PRT register takes (R57, R83, R85, R89, R237). [DESIGN CHOICE, notes/assumptions/19.md] -/
def State.prtValue (s : State) (k old new : Nat) : Nat :=
  if k = 0x000 then
    let ceil := s.rd Fld.GLB_FEATURES_RATE_MAX
    let new := keepIf 3 2 (fun c => c == 3) old (keepIf 0 3 (fun c => decide (5 ≤ c)) old new)
    if ceil < bitsOf new 0 3 then bitsSet new 0 3 ceil else new
  else if k = 0x500 then keepIf 0 2 (fun c => c == 3) old new
  else if 0x100 ≤ k ∧ k < 0x300 ∧ k % 0x40 = 0 then keepIf 8 3 (fun c => decide (4 ≤ c)) old new
  else if 0x100 ≤ k ∧ k < 0x300 ∧ k % 0x40 = 4 then
    let pre := bitsOf new 0 4
    bitsSet new 4 5 (min (bitsOf new 4 5) (32 - pre))
  else new

/-- The offset a sensor trim takes (R478). -/
def State.trimValue (s : State) (n v : Nat) : Nat :=
  let d := s.trimDefault n
  unsigned (max (d - 32) (min (d + 32) (signed v 16))) 16

/-- The value a register takes when a write would leave it at `new`. [DEDUCED, notes/assumptions/30.md] -/
def State.settled (s : State) (off : Nat) (old new : Reg32) : Reg32 :=
  let o := old.toNat
  let n := new.toNat
  BitVec.ofNat 32 (
    if 0x80000 ≤ off ∧ off < 0x90000 then s.prtValue (off % 0x1000) o n
    else if 0xC0000 ≤ off ∧ off < 0xE0000 then
      (if off % 0x1000 = 0 then keepIf 0 2 (fun c => c == 3) o n
       -- PAUSEn is capped at 1,000 (R273)
       else if off % 0x1000 = 0x010 then bitsSet (bitsSet n 0 10 (min 1000 (bitsOf n 0 10))) 16 10 (min 1000 (bitsOf n 16 10))
       else n)
    else if off = Off.GLB_BIST_CTRL then keepIf 4 2 (fun c => decide (2 ≤ c)) o n
    else if off = Off.GLB_PAD_CTRL then keepIf 8 2 (fun c => c == 3) o n
    else if off = Off.CAD_CTRL then keepIf 0 2 (fun c => c == 3) o n
    else if off = Off.THM_CTRL then keepIf 0 2 (fun c => c == 3) o n
    else if off = Off.THM_THERM_CFG then
      keepIf 0 16 (fun c => decide (c < 100) || decide (10000 < c)) o (keepIf 16 16 (fun c => decide (c < 2000) || decide (6000 < c)) o n)
    else if 0x2200 ≤ off ∧ off < 0x2260 then s.trimValue ((off - 0x2200) / 4) (n % 65536)
    else if 0x41000 ≤ off ∧ off < 0x44000 ∧ off % 0x100 = 0 then
      keepIf 12 2 (fun c => c == 3) o (keepIf 16 2 (fun c => c == 3) o n)
    else n)

/-! ## Values that wait for a turn boundary (R304, R333, R737) -/

/-- Stores a register whose value in effect changes at the next turn boundary. -/
def putAtTurn (off : Nat) (v : Reg32) (s : State) : State :=
  let was := s.effective off
  let s := if s.eff.any (fun e => e.1 == off) then s else { s with eff := tabInsert s.eff off was }
  s.setReg off v

/-! ## Masks and signpost entries (R209, R245) -/

/-- The LO half of a mask or signpost entry as last staged; what is committed when nothing is. -/
def State.stagedLo (s : State) (off : Nat) : Reg32 := tabGet (s.reg off) s.staged off

/-- Stages a LO half. [DESIGN CHOICE, notes/assumptions/47.md] -/
def stage (off : Nat) (v : Reg32) (s : State) : State := { s with staged := tabInsert s.staged off v }

/-- Forgets a staged half that has been committed. [DESIGN CHOICE, notes/assumptions/47.md] -/
def unstage (off : Nat) (s : State) : State := { s with staged := tabErase s.staged off }

/-- Commits a mask of the interleaved or partitioned set; none when it is not legal (R34, R244, R245).
[DESIGN CHOICE, notes/assumptions/47.md] -/
def commitMask (part : Bool) (m : Nat) (lo hi : Nat) (s : State) : Option State :=
  let v := lo + 2 ^ 32 * hi
  let ok := if part then maskPLegal m v else maskILegal m v
  let offLo := if part then Off.GLB_MAP_P_LO m else Off.GLB_MAP_I_LO m
  let offHi := if part then Off.GLB_MAP_P_HI m else Off.GLB_MAP_I_HI m
  if ok then some (((unstage offLo s).setReg offLo (BitVec.ofNat 32 lo)).setReg offHi (BitVec.ofNat 32 hi)) else none

/-- Commits a signpost entry; none when it breaks R209. [DESIGN CHOICE, notes/assumptions/47.md] -/
def commitSignpost (e : Nat) (lo hi : Nat) (s : State) : Option State :=
  if signpostLegal lo then
    some (((unstage (Off.GLB_SP_LO e) s).setReg (Off.GLB_SP_LO e) (BitVec.ofNat 32 lo)).setReg (Off.GLB_SP_HI e) (BitVec.ofNat 32 hi))
  else none

/-! ## The steward register (R503, R504) -/

/-- MASK and LOCK take new values; none when no enabled source would hold steward privilege. Bits of sources the variant
disables stay 0. -/
def putSteward (mask : Nat) (lock : Bool) (s : State) : Option State :=
  let m := (BitVec.ofNat 17 mask &&& BitVec.ofNat 17 s.stewardCan).toNat
  if (List.range 17).any (fun k => bitAt m k && s.sourceEnabled k) then
    let changed := m != s.rd Fld.GLB_STEWARD_MASK || lock != s.on Fld.GLB_STEWARD_LOCK
    let s := (s.wr Fld.GLB_STEWARD_MASK m).wr Fld.GLB_STEWARD_LOCK (b2n lock)
    some (if changed then s.raise (968 + 8) (b2n lock) else s)
  else none

/-! ## Denials (R505) -/

/-- A denial is counted, recorded and reported. [DESIGN CHOICE, notes/assumptions/47.md] -/
def deny (src : Nat) (command : Bool) (target : Nat) (s : State) : State :=
  let s := s.sat Fld.GLB_DENY_COUNT
  let s := ((s.wr Fld.GLB_DENY_LAST_KIND (b2n command)).wr Fld.GLB_DENY_LAST_SOURCE src).wr Fld.GLB_DENY_LAST_TARGET target
  s.raiseOnce (968 + 6) (src + 32 * b2n command)

end Sys2Proof.Machine
end

