-- ==== Sys2Proof/Machine/Cmds.lean ====
section
/-! DEFINITION. The mailbox commands of groups 0x01 to 0x04, 0x08 and 0x0C, and FW_LOAD and FW_STATUS (R236, R278, R324,
R376, R525, R571): what each does with its payload. -/
namespace Sys2Proof.Machine
open Sys2Proof

/-! ## Identity and privilege (R525, R709) -/

/-- The registers of a status command as the owner of mailbox m reads them. -/
def State.mbxRegs (s : State) (m : Nat) (offs : List Nat) : List Byte := s.regsBytes (s.owner m) offs

/-- ID_GET. -/
def opIdGet (m : Nat) (s : State) : State :=
  s.finish m ccOk (s.mbxRegs m ([Off.GLB_ID, Off.GLB_FEATURES] ++ (List.range 4).map (fun i => Off.GLB_DEVID i) ++
    [Off.GLB_FW_STAT, Off.GLB_FW_VER, Off.GLB_FW_SVN, Off.GLB_FW_CAP, Off.GLB_POOL_WINDOW, Off.GLB_MAP_CTRL]))

/-- ECHO. -/
def opEcho (m : Nat) (pl : List Byte) (s : State) : State := s.finish m ccOk pl

/-- STARTUP_RECORD_READ: busy until the record is written. -/
def opStartupRecordRead (m : Nat) (s : State) : State :=
  if s.power.boot != .done then s.refuse m ccBusy 0xFFFF else s.finish m ccOk s.test.record

/-- STEWARD_STATUS. -/
def opStewardStatus (m : Nat) (s : State) : State :=
  s.finish m ccOk (s.mbxRegs m [Off.GLB_STEWARD, Off.GLB_WHOAMI, Off.GLB_DENY, Off.GLB_DENY_LAST])

/-- The first of some payload bytes that is not zero. -/
def firstNonzero (pl : List Byte) (ks : List Nat) : Option Nat := ks.find? (fun k => leAt pl k 1 != 0)

/-- STEWARD_SET (R504). -/
def opStewardSet (m : Nat) (pl : List Byte) (s : State) : State :=
  if 1 < leAt pl 2 1 then s.badByte m 2
  else
    match firstNonzero pl [3] with
    | some k => s.badByte m k
    | none =>
      if 1 < leAt pl 4 1 then s.badByte m 4
      else if s.on Fld.GLB_STEWARD_LOCK then s.refuse m ccLocked 0xFFFF
      else
        match putSteward (leAt pl 0 4) (leAt pl 4 1 == 1) s with
        | some s => s.finish m ccOk []
        | none => s.badByte m 0

/-! ## Pool (R236) -/

/-- Whether the owner of a mailbox is a port (R204): the change of its own role waits for the completion. -/
def State.ownPort (s : State) (m n : Nat) : Bool := s.owner m == n

/-- PORT_ROLE_SET (R204): the role changes at once, or 100 ns after the completion when the mailbox is the port's own. -/
def opPortRoleSet (m : Nat) (pl : List Byte) (s : State) : State :=
  let n := leAt pl 0 1
  let r := leAt pl 1 1
  if 15 < n then s.badByte m 0
  else if 2 < r then s.badByte m 1
  else if (r == 1 && !s.poolOn) || !s.portEnabled n then s.refuse m ccUnsupported 0xFFFF
  else
    let s := s.finish m ccOk []
    if s.ownPort m n then s else applyRole n r s

/-- WINDOW_SET (R206). -/
def opWindowSet (m : Nat) (pl : List Byte) (s : State) : State :=
  if 7 < leAt pl 1 1 then s.badByte m 1
  else if s.on Fld.GLB_POOL_WINDOW_LOCKED then s.refuse m ccBusy 0xFFFF
  else (s.wr Fld.GLB_POOL_WINDOW_BASE (leAt pl 0 2)).finish m ccOk []

/-- SIGNPOST_SET (R209). -/
def opSignpostSet (m : Nat) (pl : List Byte) (s : State) : State :=
  let e := leAt pl 0 1
  let lo := (BitVec.ofNat 32 (leAt pl 4 4) &&& 0x000F07FF).toNat
  let hi := (BitVec.ofNat 32 (leAt pl 8 4) &&& 0xE0000F0F).toNat
  if 31 < e then s.badByte m 0
  else
    match commitSignpost e lo hi s with
    | some s => s.finish m ccOk []
    | none => s.badByte m 4

/-- POOL_STATUS. -/
def opPoolStatus (m : Nat) (s : State) : State :=
  let mask (f : Nat → Bool) : Nat := (List.range 16).foldl (fun a n => a + b2n (f n) * 2 ^ n) 0
  s.finish m ccOk (s.mbxRegs m [Off.GLB_POOL_WINDOW] ++ leBytes 2 (mask (fun n => s.role n == 1)) ++
    leBytes 2 (mask (fun n => s.role n == 1 && s.up n)) ++
    (List.range 32).flatMap (fun e => s.mbxRegs m [Off.GLB_SP_LO e, Off.GLB_SP_HI e]))

/-! ## Address map (R278) -/

/-- The first loaded mask of a set that is not legal: its payload byte. -/
def badMask (pl : List Byte) (part : Bool) (base count : Nat) : Option Nat :=
  ((List.range count).find? (fun m =>
    let v := leAt pl (base + 8 * m) 8
    decide (2 ^ 37 ≤ v) || !(if part then maskPLegal m v else maskILegal m v))).map (fun m => base + 8 * m)

/-- The masks of a set are committed. -/
def loadMasks (pl : List Byte) (part : Bool) (base count : Nat) (s : State) : State :=
  forUpto count (fun m a =>
    match commitMask part m (leAt pl (base + 8 * m) 4) (leAt pl (base + 8 * m + 4) 4) a with
    | some b => b
    | none => a) s

/-- MAP_SET: all of it or nothing. -/
def opMapSet (m : Nat) (pl : List Byte) (s : State) : State :=
  let map := leAt pl 0 1
  let f := leAt pl 1 1
  if 1 < map then s.badByte m 0
  else if 3 < f then s.badByte m 1
  else
    match firstNonzero pl [2, 3] with
    | some k => s.badByte m k
    | none =>
      match (if bitAt f 0 then badMask pl false 4 11 else none), (if bitAt f 1 then badMask pl true 92 6 else none) with
      | some k, _ => s.badByte m k
      | none, some k => s.badByte m k
      | none, none =>
        if map = 0 ∧ 0 < s.retiredCount then s.badByte m 0
        else if s.on Fld.GLB_MAP_CTRL_LOCKED then s.refuse m ccBusy 0xFFFF
        else
          let s := s.wr Fld.GLB_MAP_CTRL_SEL map
          let s := if bitAt f 0 then loadMasks pl false 4 11 s else s
          let s := if bitAt f 1 then loadMasks pl true 92 6 s else s
          s.finish m ccOk []

/-- MAP_STATUS. -/
def opMapStatus (m : Nat) (s : State) : State :=
  s.finish m ccOk (s.mbxRegs m [Off.GLB_MAP_CTRL] ++ (List.range 11).flatMap (fun k => leBytes 8 (s.maskI k)) ++
    (List.range 6).flatMap (fun k => leBytes 8 (s.maskP k)))

/-- MAP_TRANSLATE. -/
def opMapTranslate (m : Nat) (pl : List Byte) (s : State) : State :=
  let a := leAt pl 0 8
  if 2 ^ 37 ≤ a then s.badByte m 4
  else
    match s.locate a with
    | none => s.finish m ccOk (zeros 7 ++ [1])
    | some l =>
      let b (x : Nat) : Byte := BitVec.ofNat 8 x
      s.finish m ccOk ([b l.pav, b (l.bank / 16), b (l.bank / 4 % 4), b (l.bank % 4)] ++ leBytes 2 l.row ++
        [b l.col, b (2 * b2n (s.retiredRunning l.pav))])

/-! ## Cadence and refresh (R324) -/

/-- CAD_SET. -/
def opCadSet (m : Nat) (pl : List Byte) (s : State) : State :=
  if 2 < leAt pl 0 1 then s.badByte m 0
  else if 15 < leAt pl 1 1 then s.badByte m 1
  else
    match firstNonzero pl [2, 3] with
    | some k => s.badByte m k
    | none => (setSource (leAt pl 0 1) (leAt pl 1 1) s).finish m ccOk []

/-- CAD_STATUS. -/
def opCadStatus (m : Nat) (s : State) : State :=
  let now := s.stamp.toNat
  s.finish m ccOk (s.mbxRegs m [Off.CAD_STAT, Off.CAD_LEN] ++ leBytes 4 now ++ leBytes 4 (now / 2 ^ 32) ++
    s.mbxRegs m [Off.CAD_RELOCK, Off.CAD_PORT_OFS, Off.CAD_CNT])

/-- SLOT_SET: the slot takes its value at the next turn boundary (R333). -/
def opSlotSet (m : Nat) (pl : List Byte) (s : State) : State :=
  let n := leAt pl 0 1
  if 3 < n then s.badByte m 0
  else
    match firstNonzero pl [1, 2, 3] with
    | some k => s.badByte m k
    | none =>
      if 15 < leAt pl 7 1 then s.badByte m 7
      else (putAtTurn (Off.CAD_SLOT n) (BitVec.ofNat 32 (leAt pl 4 4)) s).finish m ccOk []

/-- The pavilions a payload byte names: 0xFF for all; none when out of range. -/
def pavsNamed (p : Nat) : Option (List Nat) :=
  if p < 32 then some [p] else if p = 255 then some (List.range 32) else none

/-- Whether two windows share an angle. -/
def windowsMeet (a b : Nat) : Bool :=
  decide ((bitsOf b 0 10 + 1024 - bitsOf a 0 10) % 1024 < bitsOf a 16 6) ||
    decide ((bitsOf a 0 10 + 1024 - bitsOf b 0 10) % 1024 < bitsOf b 16 6)

/-- The first window of REF_WINDOWS_SET that breaks a rule: its payload byte. -/
def badWindow (pl : List Byte) : Option Nat :=
  let w (k : Nat) : Nat := leAt pl (4 + 4 * k) 4
  match (List.range 4).find? (fun k => bitsOf (w k) 10 6 != 0 || bitsOf (w k) 22 9 != 0) with
  | some k => some (4 + 4 * k + (if bitsOf (w k) 10 6 ≠ 0 then 1 else 2))
  | none =>
    match (List.range 4).find? (fun k => bitAt (w k) 31 && (bitsOf (w k) 16 6 == 0 ||
        (List.range k).any (fun j => bitAt (w j) 31 && windowsMeet (w j) (w k)))) with
    | some k => some (4 + 4 * k + (if bitsOf (w k) 16 6 = 0 then 2 else 0))
    | none => none

/-- REF_WINDOWS_SET: windows take their values at the next turn boundary (R304). -/
def opRefWindowsSet (m : Nat) (pl : List Byte) (s : State) : State :=
  match pavsNamed (leAt pl 0 1) with
  | none => s.badByte m 0
  | some ps =>
    if 15 < leAt pl 1 1 then s.badByte m 1
    else
      match firstNonzero pl [2, 3] with
      | some k => s.badByte m k
      | none =>
        match badWindow pl with
        | some k => s.badByte m k
        | none =>
          let mask := leAt pl 1 1
          (ps.foldl (fun a p => forUpto 4 (fun r b =>
            if bitAt mask r then
              forUpto 4 (fun w c => putAtTurn (Off.PAV_REF_WIN p r w) (BitVec.ofNat 32 (leAt pl (4 + 4 * w) 4)) c) b
            else b) a) s).finish m ccOk []

/-- The windows of a spread (R305, R324). -/
def spreadWindows (n width base : Nat) (s : State) : State :=
  forUpto 32 (fun p a => forUpto 4 (fun r b => forUpto 4 (fun w c =>
    let off := Off.PAV_REF_WIN p r w
    if w < n then
      putAtTurn off (BitVec.ofNat 32 ((base + 2 * (4 * p + r) + w * 1024 / n) % 1024 + width * 2 ^ 16 + 2 ^ 31)) c
    else putAtTurn off (BitVec.ofNat 32 (bitPut (c.reg off).toNat 31 false)) c) b) a) s

/-- REF_SPREAD. -/
def opRefSpread (m : Nat) (pl : List Byte) (s : State) : State :=
  let n := leAt pl 0 1
  let w := leAt pl 1 1
  if n ≠ 1 ∧ n ≠ 2 ∧ n ≠ 4 then s.badByte m 0
  else if w = 0 ∨ 63 < w then s.badByte m 1
  else if 3 < leAt pl 3 1 then s.badByte m 3
  else (spreadWindows n w (leAt pl 2 2) s).finish m ccOk []

/-- REF_STATUS. -/
def opRefStatus (m : Nat) (pl : List Byte) (s : State) : State :=
  let p := leAt pl 0 1
  if 31 < p then s.badByte m 0
  else
    s.finish m ccOk (s.mbxRegs m [Off.PAV_REF_STAT p, Off.PAV_REF_CNT p] ++
      (List.range 4).flatMap (fun r => (List.range 4).flatMap (fun w => s.mbxRegs m [Off.PAV_REF_WIN p r w])))

/-- NEIGH_SET. -/
def opNeighSet (m : Nat) (pl : List Byte) (s : State) : State :=
  match pavsNamed (leAt pl 0 1) with
  | none => s.badByte m 0
  | some ps =>
    let k := leAt pl 1 1
    let f := leAt pl 2 1
    if k < 6 ∨ 14 < k then s.badByte m 1
    else if 3 < f then s.badByte m 2
    else
      match firstNonzero pl [3] with
      | some j => s.badByte m j
      | none =>
        (ps.foldl (fun a p => ((a.wr (Fld.PAV_NEIGH_CTRL_K p) k).wr (Fld.PAV_NEIGH_CTRL_EN p) (f % 2)).wr
          (Fld.PAV_NEIGH_CTRL_D2 p) (f / 2)) s).finish m ccOk []

/-! ## ECC and repair (R376, R756, R757) -/

/-- ECC_STATUS. -/
def opEccStatus (m : Nat) (pl : List Byte) (s : State) : State :=
  let p := leAt pl 0 1
  if 31 < p then s.badByte m 0
  else
    s.finish m ccOk (s.mbxRegs m [Off.PAV_ECC_CTRL p, Off.PAV_BUCKET_CFG p, Off.PAV_BUCKET_STAT p, Off.PAV_SCRUB_CTRL p,
      Off.PAV_SCRUB_POS p, Off.PAV_ECC_CE p, Off.PAV_ECC_UE p, Off.PAV_ECC_CNT p, Off.PAV_SCRUB_CNT p, Off.PAV_REPAIR_STAT p])

/-- The repeat corrector is emptied (R354, R376). -/
def clearRepeats (p : Nat) (s : State) : State := s.modPav p (fun v => { v with repeats := [] })

/-- What ECC_CLEAR clears in one pavilion (R756). -/
def eccClear (f p : Nat) (s : State) : State :=
  let s := if bitAt f 0 then
      let s := (((s.setReg (Off.PAV_ECC_CE p) 0).setReg (Off.PAV_ECC_UE p) 0).setReg (Off.PAV_ECC_CNT p) 0).setReg (Off.PAV_SCRUB_CNT p) 0
      (s.wr (Fld.PAV_BUCKET_STAT_OVERFLOWS p) 0).wr (Fld.PAV_ECC_LOG_STAT_LOST p) 0
    else s
  let s := if bitAt f 1 then s.wr (Fld.PAV_BUCKET_STAT_LEVEL p) 0 else s
  let s := if bitAt f 2 then clearRepeats p s else s
  if bitAt f 3 then s.modPav p (fun v => { v with records := [] }) else s

/-- ECC_CLEAR. -/
def opEccClear (m : Nat) (pl : List Byte) (s : State) : State :=
  match pavsNamed (leAt pl 0 1) with
  | none => s.badByte m 0
  | some ps =>
    let f := leAt pl 1 1
    if 15 < f then s.badByte m 1 else (ps.foldl (fun a p => eccClear f p a) s).finish m ccOk []

/-- SCRUB_REGIONS. -/
def opScrubRegions (m : Nat) (pl : List Byte) (s : State) : State :=
  let op := leAt pl 0 1
  if 2 < op then s.badByte m 0
  else
    match firstNonzero pl [1, 2, 3] with
    | some k => s.badByte m k
    | none =>
      let s := forUpto 16 (fun i a =>
        let old := a.reg (Off.GLB_SCRUB_EN i)
        let v := BitVec.ofNat 32 (leAt pl (4 + 4 * i) 4)
        a.setReg (Off.GLB_SCRUB_EN i) (if op = 0 then v else if op = 1 then old ||| v else old &&& ~~~v)) s
      s.finish m ccOk ((List.range 16).flatMap (fun i => leBytes 4 (s.reg (Off.GLB_SCRUB_EN i)).toNat))

/-- REPAIR_MAP_READ. -/
def opRepairMapRead (m : Nat) (pl : List Byte) (s : State) : State :=
  let k := leAt pl 0 2
  if 6143 < k then s.badByte m 0
  else
    let n := min 112 (6144 - k)
    s.finish m ccOk (leBytes 2 n ++ zeros 2 ++ (List.range n).flatMap (fun i => leBytes 4 (s.otpWordNow (0x480 + k + i)).toNat))

/-- SPARE_LIST. -/
def opSpareList (m : Nat) (pl : List Byte) (s : State) : State :=
  let p := leAt pl 0 1
  if 31 < p then s.badByte m 0
  else
    let all := s.runtimeSpares p
    let out := (all.drop (leAt pl 2 2)).take 112
    s.finish m ccOk (leBytes 2 all.length ++ leBytes 2 out.length ++ out.flatMap (fun e => leBytes 4 e))

/-- ROW_SPARE (R757): answered at once, or when its copy is done. [DESIGN CHOICE, notes/assumptions/36.md] -/
def opRowSpare (m : Nat) (pl : List Byte) (s : State) : State :=
  let a := leAt pl 0 8
  if 2 ^ 37 ≤ a then s.badByte m 4
  else
    match s.locate a with
    | none => s.badByte m 0
    | some l =>
      if s.on (Fld.PAV_REPAIR_STAT_RETIRED l.pav) then s.badByte m 0
      else
        let r := queueCopy l.pav l.bank l.row (some m) s
        if r.1 = 0 then r.2 else r.2.finish m ccOk [BitVec.ofNat 8 r.1]

/-- A pavilion is retired by PAV_RETIRE before the map locks (R374): it counts toward r. [DEDUCED, notes/assumptions/37.md] -/
def retireBefore (p : Nat) (s : State) : State :=
  if s.on (Fld.PAV_REPAIR_STAT_RETIRED p) then s
  else
    let s := { s with test := { s.test with retiredStart := BitVec.ofNat 32 (bitPut s.test.retiredStart.toNat p true) } }
    abortTsv p (abortSlice p 3 ((s.wr (Fld.PAV_REPAIR_STAT_RETIRED p) 1).raise (evPav p 11) 1))

/-- PAV_RETIRE (R373, R374). [DEDUCED, notes/assumptions/37.md] -/
def opPavRetire (m : Nat) (pl : List Byte) (s : State) : State :=
  let p := leAt pl 0 1
  if 31 < p then s.badByte m 0
  else if (List.range 32).all (fun q => q == p || s.on (Fld.PAV_REPAIR_STAT_RETIRED q)) then s.badByte m 0
  else (if s.on Fld.GLB_MAP_CTRL_LOCKED then retireRunning p 1 s else retireBefore p s).finish m ccOk []

/-! ## Monitors and events (R571) -/

/-- The units of a mask in the first eight payload bytes: the bad byte, or the mask. -/
def unitMask (pl : List Byte) : Nat ⊕ Nat :=
  let v := leAt pl 0 8
  if v = 0 then .inl 0
  else if 2 ^ 48 ≤ v then .inl (if leAt pl 6 1 = 0 then 7 else 6)
  else .inr v

/-- A monitor unit's configuration is written (R566, R580, R581). -/
def monWrite (u : Nat) (ctrl bin win : Nat) (s : State) : State :=
  let old := s.reg (Off.MON_CTRL u)
  let c := s.settled (Off.MON_CTRL u) old (BitVec.ofNat 32 ctrl &&& 0x00F330F3)
  let s := ((s.setReg (Off.MON_CTRL u) c).setReg (Off.MON_BIN u) (BitVec.ofNat 32 bin &&& 0x003FFFFF)).setReg (Off.MON_WIN u)
    (BitVec.ofNat 32 win &&& 0x0000FFFF)
  if bitAt ctrl 31 then monDiscard u s else s

/-- MON_CONFIG. -/
def opMonConfig (m : Nat) (pl : List Byte) (s : State) : State :=
  match unitMask pl with
  | .inl k => s.badByte m k
  | .inr v =>
    (forUpto 48 (fun u a => if bitAt v u then monWrite u (leAt pl 8 4) (leAt pl 12 4) (leAt pl 16 4) a else a) s).finish m ccOk []

/-- MON_READ. -/
def opMonRead (m : Nat) (pl : List Byte) (s : State) : State :=
  let u := leAt pl 0 1
  if 47 < u then s.badByte m 0
  else
    s.finish m ccOk (leBytes 4 (s.rd (Fld.MON_SEQ_A_SEQ u)) ++ leBytes 4 (s.reg (Off.MON_TS_LO u)).toNat ++
      leBytes 4 (s.reg (Off.MON_TS_HI u)).toNat ++ ((monPart0 s u).drop 12).take 36 ++ monPart s u 1 ++ monPart s u 2)

/-- MON_SNAPSHOT: it completes after the next turn boundary. [DEDUCED, notes/assumptions/49.md] -/
def opMonSnapshot (m : Nat) (pl : List Byte) (s : State) : State :=
  match unitMask pl with
  | .inl k => s.badByte m k
  | .inr v =>
    let s := forUpto 48 (fun u a => if bitAt v u then a.modMon u (fun x => { x with snap := true }) else a) s
    { s with monSnapMbx := s.monSnapMbx ++ [(m, BitVec.ofNat 48 v)] }

/-- TELEMETRY_SET. -/
def opTelemetrySet (m : Nat) (pl : List Byte) (s : State) : State :=
  if 7 < leAt pl 2 1 then s.badByte m 2
  else
    match firstNonzero pl [3, 10, 11] with
    | some k => s.badByte m k
    | none =>
      (((s.setReg Off.MON_TELE (BitVec.ofNat 32 (leAt pl 0 4))).setReg Off.MON_TELE_MASK_LO (BitVec.ofNat 32 (leAt pl 4 4))).setReg
        Off.MON_TELE_MASK_HI (BitVec.ofNat 32 (leAt pl 8 2))).finish m ccOk []

/-- The level of a source is set (R553). -/
def setEvLevel (ev lv : Nat) (s : State) : State :=
  let off := Off.EVT_LEVEL (ev / 16)
  s.setReg off (BitVec.ofNat 32 (bitsSet (s.reg off).toNat (2 * (ev % 16)) 2 lv))

/-- EVT_CONFIG. -/
def opEvtConfig (m : Nat) (pl : List Byte) (s : State) : State :=
  let first := leAt pl 0 2
  let n := leAt pl 2 2
  if n = 0 ∨ 1024 < n then s.badByte m 2
  else if 1024 < first + n then s.badByte m 0
  else if 3 < leAt pl 4 1 then s.badByte m 4
  else if 1 < leAt pl 5 1 then s.badByte m 5
  else
    match firstNonzero pl [6, 7] with
    | some k => s.badByte m k
    | none =>
      if leAt pl 5 1 = 1 ∧ 15 < leAt pl 10 1 then s.badByte m 10
      else if leAt pl 5 1 = 1 ∧ leAt pl 11 1 ≠ 0 then s.badByte m 11
      else
        let s := forUpto n (fun i a => setEvLevel (first + i) (leAt pl 4 1) a) s
        (if leAt pl 5 1 = 1 then setRoute (leAt pl 8 4) s else s).finish m ccOk []

/-- EVT_READ (R552). [DEDUCED, notes/assumptions/49.md] -/
def opEvtRead (m : Nat) (pl : List Byte) (s : State) : State :=
  let q := leAt pl 0 4
  let n := leAt pl 4 1
  if n = 0 ∨ 30 < n then s.badByte m 4
  else
    let seq := s.rd Fld.EVT_SEQ_NEXT
    let age := (seq + 2 ^ 32 - q) % 2 ^ 32
    let old := decide (0 < age) && decide (age < 2 ^ 31)
    let first := if old && decide (2048 < age) then (seq + 2 ^ 32 - 2048) % 2 ^ 32 else q
    let left := if old then min 2048 age else 0
    let qs := ((List.range (min n left)).map (fun i => (first + i) % 2 ^ 32)).filter (fun k => leAt (s.ringRecord k) 10 2 == k % 65536)
    s.finish m ccOk (leBytes 4 (match qs with | k :: _ => k | [] => first) ++ leBytes 4 seq ++ leBytes 2 qs.length ++ zeros 6 ++
      qs.flatMap (fun k => s.ringRecord k))

/-- EVT_STATUS. -/
def opEvtStatus (m : Nat) (s : State) : State :=
  s.finish m ccOk (s.mbxRegs m ([Off.EVT_ROUTE, Off.EVT_SEQ, Off.EVT_MERGED] ++ (List.range 16).map (fun n => Off.EVT_PORT n) ++
    (List.range 32).map (fun i => Off.EVT_SEEN i)))

/-- EVT_CLEAR. -/
def opEvtClear (m : Nat) (pl : List Byte) (s : State) : State :=
  let f := leAt pl 0 1
  if 3 < f then s.badByte m 0
  else
    let s := if bitAt f 0 then forUpto 32 (fun i a => a.setReg (Off.EVT_SEEN i) 0) s else s
    let s := if bitAt f 1 then
        forUpto 16 (fun n a => a.wr (Fld.EVT_PORT_LOST n) 0) (s.setReg Off.EVT_MERGED 0)
      else s
    s.finish m ccOk []

/-! ## Firmware (R524) -/

/-- FW_LOAD. -/
def opFwLoad (m : Nat) (pl : List Byte) (s : State) : State :=
  let o := leAt pl 0 4
  let n := leAt pl 4 2
  if n = 0 ∨ 448 < n then s.badByte m 4
  else if 786432 < o + n then s.badByte m 0
  else if s.switch.isSome then s.refuse m ccBusy 0xFFFF
  else
    let bs := ((pl.drop 8).take n) ++ zeros (n - (pl.drop 8).length)
    let t := (bs.zipIdx).foldl (fun t e => tabSet 0 t (o + e.2) e.1) s.staging
    ({ s with staging := t, stagingHigh := max s.stagingHigh (o + n) }).finish m ccOk []

/-- FW_STATUS. -/
def opFwStatus (m : Nat) (s : State) : State :=
  s.finish m ccOk (s.mbxRegs m [Off.GLB_FW_STAT, Off.GLB_FW_VER, Off.GLB_FW_SVN, Off.GLB_FW_CAP] ++ leBytes 4 s.stagingHigh)

end Sys2Proof.Machine
end

