-- ==== Sys2Proof/Machine/Mbox.lean ====
section
/-! DEFINITION. The end of a mailbox command (R510, R515 to R518): the response, DONE and its notice; the ways a cause ends a
command's work; and the work that goes on after its command has been completed. -/
namespace Sys2Proof.Machine
open Sys2Proof

/-- The bytes of a response area (R510). -/
def responseBytes (b : Mbx) (seq elapsed : Nat) (r : Result) : List Byte :=
  let pl := r.payload.take 496
  leBytes 2 b.opcode.toNat ++ leBytes 2 pl.length ++ leBytes 2 seq ++ [r.code, 0] ++ leBytes 2 r.param.toNat ++ [0, 0] ++
    leBytes 4 (min 0xFFFFFFFF elapsed) ++ pl

/-- MBX_DONE goes to the owner of a mailbox that asked for it (R515, R169); MBX16 requests attention instead (R659). -/
def notifyDone (m : Nat) (s : State) : State :=
  let n := s.owner m
  if m = 16 then s.wr Fld.SB_STAT_ATTN_PEND 1
  else if n < 16 ∧ s.role n = 0 ∧ s.up n = true then
    sendDone n (s.modPort n (fun p => { p with msgs := p.msgs ++
      [{ value := BitVec.ofNat 16 m, mtype := 1, tc := BitVec.ofNat 2 (s.rd Fld.EVT_ROUTE_TC), data := none, key := none }] }))
  else s

/-- The command in mailbox m completes (R510, R515): the response area, CODE and DONE at once; then the notice, the count and
the event. -/
def completeWith (m : Nat) (r : Result) (s : State) : State :=
  let b := s.mbx m
  let bs := responseBytes b (s.rd (Fld.MBX_STAT_SEQ m)) ((s.now - b.startAt) / tUs) r
  let s := forUpto 128 (fun i a => a.setReg (Off.MBX_RSP m i) (BitVec.ofNat 32 (leAt bs (4 * i) 4))) s
  let s := (s.wr (Fld.MBX_STAT_CODE m) r.code.toNat).wr (Fld.MBX_STAT_STATE m) mbDone
  let s := (sramClear m 128 256 s).setMbx m Mbx.reset
  let s := if b.notify then notifyDone m s else s
  (s.sat (Fld.MBX_CNT_COMPLETED m)).raise (968 + 4) m

/-- A number of a mailbox, 18 in place of one whose command is over. -/
def without (m x : Nat) : Nat := if x = m then 18 else x

/-- The work of mailbox m goes on, or ends, with no command to answer (R517, R518, R497). [DEDUCED, notes/assumptions/45.md] -/
def detach (m : Nat) (s : State) : State :=
  let s := forUpto 32 (fun p a => a.modPav p (fun v => { v with
    slice := (match v.slice with
      | some x => some { x with why := (match x.why with | .row k => .row (without m k) | w => w) }
      | none => none)
    rowTest := v.rowTest.map (fun x => (x.1, x.2.1, without m x.2.2))
    copies := v.copies.map (fun c => { c with mbx := c.mbx.map (without m) }) })) s
  let s := forUpto 16 (fun n a => a.modPort n (fun p => { p with
    retune := p.retune.map (without m)
    scanMbx := p.scanMbx.map (without m) })) s
  let jobs := (s.signing.filter (fun j => match j with
      | .idCert k _ => k != m
      | .attest k _ => k != m
      | .parkCert _ _ => true
      | .token _ _ _ _ => true
      | .keyProof _ _ _ => true)).map (fun j => match j with
      | .token k src lock t => .token (without m k) src lock t
      | .keyProof k f t => .keyProof (without m k) f t
      | .parkCert b k => .parkCert b (without m k)
      | j => j)
  let trans := match s.power.trans with
    | .enter sleep k a b => Trans.enter sleep (without m k) a b
    | .draining sleep => .draining sleep
    | .waking on => .waking on
    | .none_ => .none_
  { s with
    bulk := s.bulk.map (fun b => { b with mbx := without m b.mbx })
    test := { s.test with parkMbx := s.test.parkMbx.map (without m) }
    tsvCmds := s.tsvCmds.map (fun c => { c with mbx := without m c.mbx })
    therm := { s.therm with cal := s.therm.cal.map (fun c => { c with mbx := without m c.mbx }) }
    otp := { s.otp with prog := s.otp.prog.map (fun g => { g with mbx := g.mbx.map (without m) }) }
    switch := s.switch.map (fun w => { w with mbx := without m w.mbx })
    monSnapMbx := s.monSnapMbx.filter (fun e => e.1 != m)
    signing := jobs
    power := { s.power with
      trans := trans
      shut := s.power.shut.map (fun h => { h with mbx := without m h.mbx }) } }

/-- Whether a command is abortable (R516, R708). [DEDUCED, notes/assumptions/52.md] -/
def abortable (op : Nat) : Bool :=
  op == 0x0D01 || op == 0x0D02 || op == 0x0504 || op == 0x0520 || op == 0x0510 || op == 0x0702 || op == 0x0703 || op == 0x0704 ||
    op == 0x0705 || op == 0x0902 || op == 0x0422 || op == 0x0905 || op == 0x0B03

/-- A cause ends the work of the abortable command in mailbox m (R516): it will complete with a code. -/
def abortWork (m code : Nat) (s : State) : State :=
  let op := (s.mbx m).opcode.toNat
  let s := endWith m code s
  if op = 0x0D01 ∨ op = 0x0D02 then
    (if (match s.bulk with | some b => b.mbx == m | none => false) then bulkStop code s else s)
  else if op = 0x0504 then
    forUpto 32 (fun p a =>
      match (a.pav p).rowTest with
      | some (_, _, k) => if k = m then (a.modPav p (fun v => { v with rowTest := none })).finish m code [3] else a
      | none =>
        (match (a.pav p).slice with
         | some x => if x.why = .row m then abortSlice p 0 a else a
         | none => a)) s
  else if op = 0x0510 then parkStop 0 code s
  else if op = 0x0702 ∨ op = 0x0703 ∨ op = 0x0704 then calAbortOf m s
  else if op = 0x0705 then sensorCalEnd code s
  else if op = 0x0902 ∨ op = 0x0422 ∨ op = 0x0905 then
    (match s.otp.prog with | some g => if g.mbx = some m then progStop code s else s | none => s)
  else if op = 0x0B03 then
    (match s.power.shut with | some h => if h.mbx = m ∧ s.test.parkMbx = none then parkStop 0 code s else s | none => s)
  else s

/-- Whether mailbox m has a command whose work has not ended. -/
def State.inHand (s : State) (m : Nat) : Bool :=
  let st := s.rd (Fld.MBX_STAT_STATE m)
  (st == mbRunning || st == mbAborting) && (s.mbx m).result.isNone

/-- The command in mailbox m completes at once with a code, whatever its work does (R497, R517, R518).
[DEDUCED, notes/assumptions/45.md] -/
def forceDone (m code : Nat) (payload : List Byte) (s : State) : State :=
  detach m (completeWith m { code := BitVec.ofNat 8 code, param := 0xFFFF, payload := payload } s)

/-- An ABORT reaches a command in RUNNING (R511, R516): only an abortable one. [DEDUCED, notes/assumptions/45.md] -/
def abortRunning (m : Nat) (s : State) : State :=
  if s.inHand m && abortable (s.mbx m).opcode.toNat then abortWork m ccAborted s else s

/-- The timer of a command expires (R517). -/
def timerFires (m : Nat) (s : State) : State :=
  if s.inHand m then
    let s := (s.raise (968 + 5) m).modMbx m (fun b => { b with deadline := none })
    if abortable (s.mbx m).opcode.toNat then abortWork m ccTimeout s else forceDone m ccTimeout [] s
  else s

/-- Every command in hand ends before the core stops for Sleep (R518, R692 step 2). -/
def sleepEnds (s : State) : State :=
  forUpto 18 (fun m a =>
    let a := if a.inHand m then
        (if abortable (a.mbx m).opcode.toNat then abortWork m ccAborted a else a)
      else a
    match (a.mbx m).result with
    | some r => completeWith m r a
    | none =>
      if a.inHand m then
        let code := match (a.mbx m).endCode with | some c => c.toNat | none => ccAborted
        let pl := match a.otp.prog with | some g => (if g.mbx = some m then progPayload g a else []) | none => []
        forceDone m code pl a
      else a) s

end Sys2Proof.Machine
end

