-- ==== Sys2Proof/Machine/Power.lean ====
section
/-! DEFINITION. Hold and Sleep (R276, R688 to R692): POWER_SET, the drain of the pavilions, and the entry into each. -/
namespace Sys2Proof.Machine
open Sys2Proof

/-- The stack enters Sleep from Hold (R692): POWER_SET and the other commands in hand complete, the core stops, every rank
refreshes at 4×, the cadence counts the oscillator and is in SEEK with cause 3, conversion stops.
[DEDUCED, notes/assumptions/33.md] -/
def enterSleep (s : State) : State :=
  let s := sensorCalEnd ccAborted s
  let s := forUpto 18 (fun m a => if a.inHand m ∧ (a.mbx m).opcode = 0x0B01 then a.finish m ccOk [] else a) s
  let s := sleepEnds s
  let s := { s with power := { s.power with savedImage := s.rd Fld.GLB_FW_STAT_IMAGE, trans := .none_ } }
  let s := (s.wr Fld.GLB_FW_STAT_IMAGE 0).wr Fld.GLB_FW_STAT_READY 0
  let s := forUpto 32 (fun p a => applyRate p 4 (a.pav p).throttleNext a) s
  let s := cadSwitch true ((cadSeek 3 s).wr Fld.CAD_STAT_OSC 1)
  (s.wr Fld.GLB_PWR_STAT_STATE psSleep).wr Fld.GLB_PWR_STAT_TRANS 0

/-- Every pavilion is gated: the stack is in Hold (R690), or goes on to Sleep. -/
def enterHold (sleep : Bool) (s : State) : State :=
  let s := { s with power := { s.power with trans := .none_ } }
  let s := (s.wr Fld.GLB_PWR_STAT_STATE psHold).wr Fld.GLB_PWR_STAT_TRANS 0
  let s := if s.rd Fld.CAD_CTRL_SRC = 2 then cadSeek 3 s else s
  if sleep then enterSleep s else s

/-- The last pavilion to be gated brings the stack into Hold. -/
def heldAll (s : State) : State :=
  match s.power.trans with
  | .draining sleep => if (List.range 32).all (fun p => (s.pav p).gated) then enterHold sleep s else s
  | .none_ => s
  | .enter _ _ _ _ => s
  | .waking _ => s

/-- Whether the drain of a pavilion into self-refresh may end: nothing unfinished, no slice and no copy that runs. -/
def State.drainable (s : State) (p : Nat) : Bool :=
  let v := s.pav p
  !s.pavBusy p && v.slice.isNone && !v.copies.any (fun c => c.running)

/-- A pavilion has written its buffer, paid its debt and entered self-refresh (R276, R315): for Hold and Sleep its clock is
gated. -/
def execPavilionDrainDone (p : PavId) (s : State) : Out :=
  let d := (s.pav p).drain
  if d = .power ∧ s.drainable p = true then
    let s := gatePav p (settlePav p s)
    .next (quietStep (heldAll s))
  else if d = .shutdown ∧ s.drainable p = true then .next (quietStep (settlePav p s))
  else .next s

/-- Entry into Hold begins (R690 steps 1 and 2). -/
def holdEntry (sleep : Bool) (m : Nat) (s : State) : State :=
  let s := ((s.wr Fld.GLB_PWR_STAT_RETURN s.power?).wr Fld.GLB_PWR_STAT_TRANS 1).wr Fld.GLB_PWR_STAT_DECLINED 0
  let s := { s with power := { s.power with noDispatch := true } }
  let s := calAbortAll (slicesStop 2 ccAborted (parkStop 2 ccAborted (sweepStop (bulkStop ccAborted s))))
  quietStep { s with power := { s.power with trans := .enter sleep m 0 0xFFFF } }

/-- POWER_SET (R689, R690, R692, R694, R698, R706); busy for Hold or Sleep while a start-up or parking test runs (R718). -/
def opPowerSet (m : Nat) (pl : List Byte) (s : State) : State :=
  let t := leAt pl 0 1
  let cur := s.power?
  if 3 < t then s.badByte m 0
  else
    match firstNonzero pl [1, 2, 3] with
    | some k => s.badByte m k
    | none =>
      if s.power.boot != .done || s.power.trans != .none_ || s.power.shut.isSome || s.on Fld.GLB_PWR_STAT_SHUT then
        s.refuse m ccBusy 0xFFFF
      else if cur = t then s.finish m ccOk []
      else if s.testRuns && decide (2 ≤ t) then s.refuse m ccBusy 0xFFFF
      else if t < 2 ∧ cur < 2 then (forUpto 32 (fun p a => wakeRanks p a) (s.wr Fld.GLB_PWR_STAT_STATE t)).finish m ccOk []
      else if t < 2 then (exitHold t 5 0 s).finish m ccOk []
      else if cur = psHold then enterSleep s
      else holdEntry (t == 3) m s

/-- POWER_STATUS. -/
def opPowerStatus (m : Nat) (s : State) : State :=
  s.finish m ccOk (s.mbxRegs m [Off.GLB_PWR_STAT, Off.GLB_PWR_CTRL, Off.GLB_BOOT_STAT, Off.GLB_RST_STAT])

/-- A port has not answered the stack's request within 100 µs: the entry is abandoned (R691). -/
def execHoldHandshakeTimeout (n : PortId) (s : State) : Out :=
  match s.power.trans, (s.port n).shakeDeadline with
  | .enter _ _ asked answered, some t =>
    if asked.getLsbD n && !answered.getLsbD n then .next (quietStep (holdAbandon n (s.atLeast t))) else .next s
  | _, _ => .next s

end Sys2Proof.Machine
end

