-- ==== Sys2Proof/Machine/Mgmt.lean ====
section
/-! DEFINITION. Mailboxes and firmware (R494 to R526): the doorbell, the checks of R519 and the command they lead to, completion
and timers, management resets, firmware switchover, and the firmware's part of start-up. -/
namespace Sys2Proof.Machine
open Sys2Proof

/-! ## The command index (R498, R519, R526) -/

/-- The opcodes the stack assigns. -/
def opcodes : List Nat := [
  0x0101, 0x0102, 0x0103, 0x0201, 0x0202, 0x0210, 0x0211, 0x0212, 0x0213, 0x0220, 0x0221, 0x0222, 0x0301, 0x0302, 0x0303, 0x0310,
  0x0311, 0x0312, 0x0320, 0x0401, 0x0402, 0x0410, 0x0420, 0x0421, 0x0422, 0x0423, 0x0424, 0x0501, 0x0502, 0x0503, 0x0504, 0x0510,
  0x0511, 0x0512, 0x0513, 0x0520, 0x0521, 0x0522, 0x0601, 0x0602, 0x0603, 0x0604, 0x0605, 0x0701, 0x0702, 0x0703, 0x0704, 0x0705,
  0x0706, 0x0707, 0x0801, 0x0802, 0x0803, 0x0804, 0x0901, 0x0902, 0x0903, 0x0904, 0x0905, 0x0906, 0x0907, 0x0A01, 0x0A02, 0x0A03,
  0x0A10, 0x0A11, 0x0A12, 0x0A20, 0x0A21, 0x0B01, 0x0B02, 0x0B03, 0x0C01, 0x0C02, 0x0C03, 0x0C04, 0x0D01, 0x0D02, 0x0D03, 0x0D04]

/-- The opcodes any source may issue. -/
def opsOpen : List Nat := [
  0x0101, 0x0102, 0x0103, 0x0201, 0x0213, 0x0221, 0x0222, 0x0302, 0x0312, 0x0401, 0x0420, 0x0421, 0x0501, 0x0503, 0x0511, 0x0601,
  0x0701, 0x0802, 0x0803, 0x0901, 0x0906, 0x0907, 0x0A03, 0x0A10, 0x0A11, 0x0B02, 0x0C02, 0x0C03, 0x0D03]

/-- The opcodes MBX16 may issue without steward privilege. -/
def opsMbx16 : List Nat := [0x0502, 0x0504, 0x0510, 0x0512, 0x0513, 0x0B01]

/-- The workshop commands. -/
def opsWorkshop : List Nat := [0x0520, 0x0521, 0x0522, 0x0A21]

/-- The capability bit of an opcode (R498). -/
def capBit (op : Nat) : Nat :=
  let g := op / 256
  let n := op % 256
  if g = 1 then 0
  else if g = 2 then (if n < 0x10 then 0 else if n < 0x20 then 1 else 2)
  else if g = 3 then 3
  else if g = 4 then 4
  else if g = 5 then (if 0x20 ≤ n then 6 else 5)
  else if g = 6 then 7
  else if g = 7 then (if n = 5 ∨ n = 6 then 9 else 8)
  else if g = 8 then 10
  else if g = 9 then 11
  else if g = 10 then (if n < 0x10 then 13 else if n < 0x20 then 12 else 6)
  else if g = 11 then 14
  else if g = 12 then 15
  else 16

/-- Whether the command is absent as a whole (R498, R519 order 3). -/
def State.opAbsent (s : State) (op : Nat) : Bool :=
  !bitAt (s.rd Fld.GLB_FW_CAP_CAP) (capBit op) || (op == 0x0212 && !s.poolOn)

/-- Whether the owner of mailbox m may issue an opcode (R502, R519 order 5, R526). -/
def State.opAllowed (s : State) (m op : Nat) : Bool :=
  opsOpen.contains op || opsWorkshop.contains op || m == 17 || s.steward (s.owner m) || (m == 16 && opsMbx16.contains op)

/-! ## Firmware images -/

/-- Omuis-R runs: what it shows of itself (R498, R627). [DESIGN CHOICE, notes/assumptions/7.md] -/
def romFirmware (s : State) : State :=
  let s := ((s.wr Fld.GLB_FW_STAT_IMAGE 1).setReg Off.GLB_FW_VER 0).setReg Off.GLB_FW_SVN 0
  { s.wr Fld.GLB_FW_CAP_CAP 0x1F9FF with fwDigest := [] }

/-- The staged image runs (R522, R624, R625). -/
def stagedFirmware (len : Nat) (s : State) : State :=
  let h := s.staged? 0 256
  let w (o : Nat) : BitVec 32 := BitVec.ofNat 32 (leAt h o 4)
  let s := ((s.wr Fld.GLB_FW_STAT_IMAGE 2).setReg Off.GLB_FW_VER (w 16)).setReg Off.GLB_FW_SVN (w 20)
  { s.wr Fld.GLB_FW_CAP_CAP (w 24).toNat with fwDigest := leBytes 64 (Config.sha512 (s.imageBytes len)).toNat }

/-- The core starts, and with it its watchdog (R496). -/
def coreStart (s : State) : State := { s with power := { s.power with coreAt := s.now } }

/-- FW_ACTIVATE (R521, R522, R524). -/
def opFwActivate (m : Nat) (pl : List Byte) (s : State) : State :=
  let b := leAt pl 0 1
  let len := leAt pl 4 4
  if 1 < b then s.badByte m 0
  else if b = 0 ∧ (len = 0 ∨ 786432 < len) then s.badByte m 4
  else if s.testRuns || s.otpBusy || s.switch.isSome || (List.range 18).any (fun k =>
      k != m && (s.rd (Fld.MBX_STAT_STATE k) == mbRunning || s.rd (Fld.MBX_STAT_STATE k) == mbAborting)) then
    s.refuse m ccBusy 0xFFFF
  else
    let w : Switch := { mbx := m, staged := b == 0, len := len, prevImage := s.rd Fld.GLB_FW_STAT_IMAGE, verified := b == 1 }
    let s := ({ (if b = 1 then coreStart s else s) with switch := some w }).raise (968 + 1) b
    (s.wr Fld.GLB_FW_STAT_IMAGE 3).wr Fld.GLB_FW_STAT_READY 0

/-- The firmware takes commands: READY becomes 1 (R499, R527). -/
def firmwareTakes (s : State) : State :=
  (s.wr Fld.GLB_FW_STAT_READY 1).raise 968 (s.rd Fld.GLB_FW_STAT_IMAGE)

/-- Verification of the staged image ends (R522 step 1, R627). -/
def execImageVerifyDone (s : State) : Out :=
  match s.switch with
  | some w =>
    if w.verified then .next s
    else
      match s.imageFails w.len with
      | some (code, reason) =>
        let s := ({ s with switch := none }).wr Fld.GLB_FW_STAT_IMAGE w.prevImage
        .next (((firmwareTakes s).raise (952 + 3) reason).refuse w.mbx code 0xFFFF)
      | none => .next { coreStart s with switch := some { w with verified := true } }
  | none => .next s

/-- The new firmware is ready (R522 step 3, R629). -/
def switchDone (w : Switch) (s : State) : State :=
  let s := if w.staged then stagedFirmware w.len s else romFirmware s
  let s := (firmwareTakes { s with switch := none }).raise (968 + 2) (s.rd Fld.GLB_FW_STAT_IMAGE)
  let s := s.finish w.mbx ccOk (s.regsBytes 0 [Off.GLB_FW_VER, Off.GLB_FW_SVN, Off.GLB_FW_CAP])
  if w.staged then arbAdvance (s.rd Fld.GLB_FW_SVN_SVN) s else s

/-- A management reset (R497): Omuis-R starts, and every command in hand completes with "firmware restarted". -/
def mgmtReset (cause : Nat) (s : State) : State :=
  let s := (s.sat Fld.GLB_FW_STAT_RESTARTS).raise (968 + 3) cause
  let s := (romFirmware (coreStart s)).wr Fld.GLB_FW_STAT_READY 0
  let s := forUpto 18 (fun m a =>
    let st := a.rd (Fld.MBX_STAT_STATE m)
    if st = mbRunning ∨ st = mbAborting then forceDone m ccRestarted [] a else a) s
  { s with switch := none }

/-! ## Start-up steps 3 to 5: the certificate window (R697, R700) -/

/-- The certificate window ends and step 5 begins. -/
def endCertWindow (s : State) : State :=
  if s.power.boot = .certWindow then ({ s with power := { s.power with boot := .certCheck } }).wr Fld.GLB_BOOT_STAT_PHASE 4 else s

/-- Step 3 ends when the ranks are initialised and the firmware is ready; with CERT_WAIT = 0 the window ends at once. -/
def beginCertWindow (s : State) : State :=
  if s.power.boot = .dram true ∧ s.on Fld.GLB_FW_STAT_READY = true then
    let s := ({ s with power := { s.power with boot := .certWindow, readyAt := s.now } }).wr Fld.GLB_BOOT_STAT_PHASE 3
    if s.rd Fld.GLB_BOOT_CTRL_CERT_WAIT = 0 then endCertWindow s else s
  else s

/-- CERT_WAIT has passed since READY (R700). -/
def execCertWindowExpiry (s : State) : Out :=
  if s.power.boot = .certWindow then
    .next (endCertWindow (s.atLeast (s.power.readyAt + tMs * s.rd Fld.GLB_BOOT_CTRL_CERT_WAIT)))
  else .next s

/-- Whether configuration requests, FENCE and mailbox commands are served (R698): from the end of step 3. -/
def State.served (s : State) : Bool := s.mgmtOn && (match s.power.boot with | .dram _ => false | _ => true)

/-- The firmware sets READY (R496, R497, R522, R693, R697). -/
def execFirmwareReady (s : State) : Out :=
  if s.mgmtOn ∧ s.on Fld.GLB_FW_STAT_READY = false then
    match s.switch with
    | some w => if w.verified then .next (switchDone w s) else .next s
    | none => .next (beginCertWindow (firmwareTakes s))
  else .next s

/-- The watchdog's period in ticks (R496). -/
def State.watchdog (s : State) : Nat := tMs * max 10 (min 1000 (s.rd Fld.GLB_FW_CTRL_WDT_MS))

/-- The firmware has not restarted the watchdog in time, which is at least one period from its start (R496). -/
def execFirmwareWatchdog (s : State) : Out :=
  if s.mgmtOn ∧ ¬(s.rd Fld.GLB_FW_CTRL_WDT_MS = 0 ∧ s.on Fld.GLB_SEC_STAT_WORKSHOP = true) then
    .next (mgmtReset 0 (s.atLeast (s.power.coreAt + s.watchdog)))
  else .next s

/-! ## What a command does -/

/-- The command an opcode names, with its payload, in mailbox m (R519 orders 6 and 7 are its own). -/
def runOp (m op : Nat) (pl : List Byte) (s : State) : State :=
  if op < 0x0300 then
    match op with
    | 0x0101 => opIdGet m s
    | 0x0102 => opEcho m pl s
    | 0x0103 => opStartupRecordRead m s
    | 0x0201 => opStewardStatus m s
    | 0x0202 => opStewardSet m pl s
    | 0x0210 => opPortRoleSet m pl s
    | 0x0211 => opWindowSet m pl s
    | 0x0212 => opSignpostSet m pl s
    | 0x0213 => opPoolStatus m s
    | 0x0220 => opMapSet m pl s
    | 0x0221 => opMapStatus m s
    | _ => opMapTranslate m pl s
  else if op < 0x0500 then
    match op with
    | 0x0301 => opCadSet m pl s
    | 0x0302 => opCadStatus m s
    | 0x0303 => opSlotSet m pl s
    | 0x0310 => opRefWindowsSet m pl s
    | 0x0311 => opRefSpread m pl s
    | 0x0312 => opRefStatus m pl s
    | 0x0320 => opNeighSet m pl s
    | 0x0401 => opEccStatus m pl s
    | 0x0402 => opEccClear m pl s
    | 0x0410 => opScrubRegions m pl s
    | 0x0420 => opRepairMapRead m pl s
    | 0x0421 => opSpareList m pl s
    | 0x0422 => opSpareCommit m pl s
    | 0x0423 => opRowSpare m pl s
    | _ => opPavRetire m pl s
  else if op < 0x0700 then
    match op with
    | 0x0501 => opBistStatus m pl s
    | 0x0502 => opSweepStart m pl s
    | 0x0503 => opBistStop m s
    | 0x0504 => opSliceRow m pl s
    | 0x0510 => opParkStart m pl s
    | 0x0511 => opCertRead m pl s
    | 0x0512 => opCertLoad m pl s
    | 0x0513 => opCertSubmit m pl s
    | 0x0520 => opArrayTest m pl s
    | 0x0521 => opArrayRawRead m pl s
    | 0x0522 => opArrayRawWrite m pl s
    | 0x0601 => opThmStatus m s
    | 0x0602 => opThrottleSet m pl s
    | 0x0603 => opHaltClear m s
    | 0x0604 => opAlertSet m pl s
    | _ => opExtSet m pl s
  else if op < 0x0900 then
    match op with
    | 0x0701 => opCalStatus m pl s
    | 0x0702 => opLaneRetune m pl s
    | 0x0703 => opEyeScan m pl s
    | 0x0704 => opTsvCal m pl s
    | 0x0705 => opSensorCal m pl s
    | 0x0706 => opOscLearn m pl s
    | 0x0707 => opCalAbort m pl s
    | 0x0801 => opMonConfig m pl s
    | 0x0802 => opMonRead m pl s
    | 0x0803 => opMonSnapshot m pl s
    | _ => opTelemetrySet m pl s
  else if op < 0x0B00 then
    match op with
    | 0x0901 => opOtpRead m pl s
    | 0x0902 => opOtpProgram m pl s
    | 0x0903 => opOtpLock m pl s
    | 0x0904 => opOtpLockForce m pl s
    | 0x0905 => opRepairOtp m pl s
    | 0x0906 => opOtpStatus m s
    | 0x0907 => opOtpJournalRead m pl s
    | 0x0A01 => opFwLoad m pl s
    | 0x0A02 => opFwActivate m pl s
    | 0x0A03 => opFwStatus m s
    | 0x0A10 => opIdCertRead m s
    | 0x0A11 => opAttest m pl s
    | 0x0A12 => opKeyEnrol m pl s
    | 0x0A20 => opWorkshopEnter m pl s
    | _ => opWorkshopExit m s
  else
    match op with
    | 0x0B01 => opPowerSet m pl s
    | 0x0B02 => opPowerStatus m s
    | 0x0B03 => opShutdown m pl s
    | 0x0C01 => opEvtConfig m pl s
    | 0x0C02 => opEvtRead m pl s
    | 0x0C03 => opEvtStatus m s
    | 0x0C04 => opEvtClear m pl s
    | 0x0D01 => opFill m pl s
    | 0x0D02 => opCopy m pl s
    | 0x0D03 => opBulkStatus m s
    | _ => opBulkAbort m s

/-! ## From GO to RUNNING (R511 to R519) -/

/-- The first header byte that breaks order 1 of R519. [DEDUCED, notes/assumptions/45.md] -/
def badHeader (h : List Byte) : Option Nat :=
  if 496 < leAt h 2 2 then some 2
  else if 1 < leAt h 6 1 then some 6
  else (firstNonzero h [7, 10, 11, 12, 13, 14, 15])

/-- The checks of R519 orders 1 to 5, and the command. [DEDUCED, notes/assumptions/45.md] -/
def checkedRun (m : Nat) (h pl : List Byte) (s : State) : State :=
  let op := leAt h 0 2
  match badHeader h with
  | some k => s.refuse m ccInvalid k
  | none =>
    if !opcodes.contains op then s.refuse m ccUnknown 0xFFFF
    else if s.opAbsent op then s.refuse m ccUnsupported 0xFFFF
    else if opsWorkshop.contains op && m != 17 then s.refuse m ccWorkshop 0xFFFF
    else if !s.opAllowed m op then (deny (s.owner m) true op s).refuse m ccDenied 0xFFFF
    else runOp m op pl s

/-- The words of a snapshot are read (R495): the first past correction, if any. -/
def snapshotMeets (m : Nat) (s : State) : Option Nat × State :=
  ((s.sram.filter (fun e => e.1 == m && decide (256 ≤ e.2.1) && decide (e.2.1 < 384))).map (fun e => e.2.1)).foldl (fun a w =>
    let (bad, s) := sramMeets m w a.2
    (if bad then (match a.1 with | some k => some (min k (w - 256)) | none => some (w - 256)) else a.1, s)) (none, s)

/-- The payload of a snapshot: LEN bytes after its header (R507, R508). -/
def payloadOf (h : List Byte) : List Byte := (h.drop 16).take (min 496 (leAt h 2 2))

/-- A command is in hand: RUNNING, with its timer (R514, R517). -/
def noteTaken (m : Nat) (s : State) : State :=
  let h := (s.mbx m).snap
  let limit := leAt h 8 2
  let s := s.modMbx m (fun b => { b with
    opcode := BitVec.ofNat 16 (leAt h 0 2)
    payload := payloadOf h
    startAt := s.now
    deadline := if limit = 0 then none else some (s.now + tMs * limit)
    result := none
    endCode := none
    notify := bitAt (leAt h 6 1) 0 })
  { s.wr (Fld.MBX_STAT_STATE m) mbRunning with lastTaken := m }

/-- The firmware takes the command of a mailbox (R514): a word of its snapshot past correction refuses it (R495). -/
def takeCommand (m : Nat) (s : State) : State :=
  let h := (s.mbx m).snap
  match snapshotMeets m (noteTaken m s) with
  | (some w, s) => s.refuse m ccInvalid (4 * w)
  | (none, s) => checkedRun m h (payloadOf h) s

/-- The next mailbox with a pending command, after the one last taken (R514). -/
def State.nextPending (s : State) : Option Nat :=
  ((List.range 18).map (fun i => (s.lastTaken + 1 + i) % 18)).find? (fun m => s.rd (Fld.MBX_STAT_STATE m) == mbPending)

/-- Whether the firmware takes commands now. -/
def State.takes (s : State) : Bool := s.served && s.on Fld.GLB_FW_STAT_READY

/-- The firmware takes a pending command (R514). -/
def execCommandTaken (s : State) : Out :=
  if s.takes then
    match s.nextPending with
    | some m => .next (takeCommand m s)
    | none => .next s
  else .next s

/-- A GO with a command in hand (R513). -/
def overrun (m : Nat) (s : State) : State :=
  ((s.wr (Fld.MBX_STAT_OVERRUN m) 1).sat (Fld.MBX_CNT_OVERRUN m)).raise (968 + 7) m

/-- A command area is taken at GO (R512). -/
def pend (m : Nat) (area : List Byte) (s : State) : State :=
  let s := (sramClear m 256 384 s).setMbx m { Mbx.reset with snap := area }
  (s.wr (Fld.MBX_STAT_SEQ m) (leAt area 4 2)).wr (Fld.MBX_STAT_STATE m) mbPending

/-- Whether a mailbox can take a command: IDLE or DONE. -/
def State.mbxFree (s : State) (m : Nat) : Bool :=
  s.rd (Fld.MBX_STAT_STATE m) == mbIdle || s.rd (Fld.MBX_STAT_STATE m) == mbDone

/-- The bytes of a command area. -/
def State.commandArea (s : State) (m : Nat) : List Byte :=
  (List.range 128).flatMap (fun i => leBytes 4 (s.reg (Off.MBX_CMD m i)).toNat)

/-- A doorbell value reaches mailbox m (R511 to R513, R516). -/
def ring (m v : Nat) (s : State) : State :=
  if v = 1 then
    (if s.mbxFree m then
      (let p := pend m (s.commandArea m) s
       -- flipped words of the command area are copied as they are
       { p with sram := p.sram ++ (s.sram.filter (fun e => e.1 == m && decide (e.2.1 < 128))).map (fun e => (e.1, e.2.1 + 256, e.2.2)) })
     else overrun m s)
  else if v = 2 then
    if s.rd (Fld.MBX_STAT_STATE m) = mbPending then
      let h := (s.mbx m).snap
      completeWith m { code := BitVec.ofNat 8 ccAborted, param := 0xFFFF, payload := [] }
        (s.modMbx m (fun b => { b with opcode := BitVec.ofNat 16 (leAt h 0 2), startAt := s.now, notify := bitAt (leAt h 6 1) 0 }))
    else if s.rd (Fld.MBX_STAT_STATE m) = mbRunning then abortRunning m s
    else s
  else s

/-- A command with its payload is issued in mailbox m, and taken at once when the firmware takes commands and its turn has come (R514): SEQ, FLAGS and
TIMEOUT are 0. MBX17 has an owner only in workshop mode (R501). [DESIGN CHOICE, notes/assumptions/46.md] -/
def issue (m op : Nat) (payload : List Byte) (s : State) : State :=
  if s.mgmtOn ∧ s.owner m < 17 then
    if s.mbxFree m then
      let h := leBytes 2 op ++ leBytes 2 (min 65535 payload.length) ++ zeros 12
      let s := pend m (h ++ payload) s
      if s.takes ∧ s.nextPending = some m then takeCommand m s else s
    else overrun m s
  else s

/-! ## Completion and timers -/

/-- What follows the completion of a command (R204, R638, R700): a role change of the port that waits for the MBX_DONE follows that
message by 100 ns. -/
def afterDone (m : Nat) (b : Mbx) (r : Result) (s : State) : State :=
  let op := b.opcode.toNat
  if r.code ≠ 0 then s
  else if op = 0x0A21 then leaveWorkshop s
  else if op = 0x0513 then endCertWindow s
  else if op = 0x0210 then
    let n := leAt b.payload 0 1
    if s.ownPort m n then
      let waits := (s.port n).msgs.any (fun x => x.key.isNone && x.mtype == 1 && x.value.toNat == m)
      s.modPort n (fun p => { p with delayed := p.delayed ++ [{
        change := .role (BitVec.ofNat 2 (leAt b.payload 1 1))
        after := if waits then some (.mbxDone m) else none
        due := if waits then none else some (s.now + tNs 100) }] })
    else s
  else s

/-- A command's work has ended: its mailbox is DONE (R515). [DESIGN CHOICE, notes/assumptions/46.md] -/
def execCommandComplete (m : MbxId) (s : State) : Out :=
  match (s.mbx m).result with
  | some r => if s.mgmtOn then .next (afterDone m (s.mbx m) r (completeWith m r s)) else .next s
  | none => .next s

/-- A command's timer expires (R517). -/
def execCommandTimer (m : MbxId) (s : State) : Out :=
  match (s.mbx m).deadline with
  | some t => if s.inHand m then .next (quietStep (timerFires m (s.atLeast t))) else .next s
  | none => .next s

/-- Bits of a management SRAM word have flipped (R495): a management reset when the core reads it, the end of the command whose snapshot
held it; a word of a mailbox's areas is found when it is read. [DEDUCED, notes/assumptions/48.md; DEDUCED, notes/assumptions/50.md] -/
def execManagementSramUncorrectable (word : SramWord) (s : State) : Out :=
  if s.mgmtOn then
    match word with
    | .core => .next (mgmtReset 1 ((s.sat Fld.GLB_MSRAM_ERR_UE).raise (968 + 10) 0))
    | .area m w bad =>
      let s := sramClear m w (w + 1) s
      .next { s with sram := s.sram ++ [(m.val, w.val, bad)] }
    | .snapshot m w =>
      let s := (s.sat Fld.GLB_MSRAM_ERR_UE).raise (968 + 10) 1
      if s.inHand m ∨ s.rd (Fld.MBX_STAT_STATE m) = mbPending then
        let h := (s.mbx m).snap
        let s := s.modMbx m (fun b => { b with
          opcode := BitVec.ofNat 16 (leAt h 0 2)
          startAt := if b.opcode = 0 then s.now else b.startAt
          notify := bitAt (leAt h 6 1) 0 })
        .next (detach m (completeWith m { code := BitVec.ofNat 8 ccInvalid, param := BitVec.ofNat 16 (4 * w.val), payload := [] } s))
      else .next s
  else .next s

end Sys2Proof.Machine
end

