-- ==== Sys2Proof/Machine/CfgReg.lean ====
section
/-! DEFINITION. Register writes and reads (R11 to R13, R165, R167, R501, R505, R752): the checks, what each register does
when it is written beyond storing its fields, and the side effects of reads. -/
namespace Sys2Proof.Machine
open Sys2Proof

/-! ## Writes of the mailbox block (R501, R507, R540, R541) -/

/-- A write of a mailbox register from a source: the owner's alone. -/
def mbxWrite (src m k off : Nat) (b v : Reg32) (s : State) : BitVec 4 × State :=
  let refused : BitVec 4 × State := (stDenied, deny src false off (s.sat (Fld.MBX_CNT_DENIED m)))
  if k < 0x200 then
    (if s.owner m = src then
       (let s := if b = 0xFFFFFFFF then sramClear m (k / 4) (k / 4 + 1) s else s
        (stOk, s.setReg off (mixBits (s.reg off) v b)))
     else refused)
  else if k = 0x400 then
    (if (b &&& 0xFFFF) = 0 then (stOk, s)
     else if s.owner m = src then (stOk, ring m (v &&& b &&& 0xFFFF).toNat s)
     else refused)
  else if k = 0x404 then
    (if (v &&& b).getLsbD 7 then
       (if s.owner m = src then (stOk, s.wr (Fld.MBX_STAT_OVERRUN m) 0) else refused)
     else (stOk, s))
  else (stOk, s)

/-! ## GLB -/

/-- Ports are reset by bits written 1 (R687): the port the write came in on after its completion, the others at once. -/
def resetPorts (src ones : Nat) (s : State) : State :=
  forUpto 16 (fun n a =>
    if bitAt ones n && a.portEnabled n then
      (if src = n then a.modPort n (fun p => { p with delayed := p.delayed ++ [{ change := .portReset, after := none, due := some (a.now + tNs 100) }] })
       else portReset n a)
    else a) s

/-- Pavilion resets begin by bits written 1 (R687, R399, R476): no line is granted any more, and a slice or TSV step ends. -/
def askPavResets (ones : Nat) (s : State) : State :=
  forUpto 32 (fun p a =>
    if bitAt ones p then
      abortTsv p (abortSlice p 4 (a.modPav p (fun v => { v with
        resetAsked := true
        drain := match v.drain with | .none_ => .reset_ | d => d })))
    else a) s

/-- What a write of a GLB register does. `old` is the stored value, `v` the value with enabled bits `b` of a source. -/
def glbWrite (src off : Nat) (fs : List FieldRow) (b v : Reg32) (s : State) : BitVec 4 × State :=
  let stw := s.steward src
  let old := s.reg off
  let new := s.settled off old (fieldsWrite fs old v b stw)
  let ones := writtenOnes fs v b stw
  let locked := s.on Fld.GLB_MAP_CTRL_LOCKED
  if off = Off.GLB_FW_CTRL then
    let s := s.setReg off (new &&& 0x7FFFFFFF)
    (stOk, if ones.getLsbD 31 then mgmtReset 2 s else s)
  else if off = Off.GLB_STEWARD then
    (if stw && !s.on Fld.GLB_STEWARD_LOCK then
       match putSteward (bitsOf new.toNat 0 17) (new.getLsbD 31) s with
       | some s => (stOk, s)
       | none => (stMalformed, s)
     else (stOk, s))
  else if off = Off.GLB_MAP_CTRL then (stOk, if locked then s else s.setReg off new)
  else if 0x410 ≤ off ∧ off < 0x4A0 then
    let part := decide (0x470 ≤ off)
    let m := if part then (off - 0x470) / 8 else (off - 0x410) / 8
    (if locked || !stw then (stOk, s)
     else if off % 8 = 0 then (stOk, stage off (fieldsWrite fs (s.stagedLo off) v b stw) s)
     else
       match commitMask part m (s.stagedLo (off - 4)).toNat new.toNat s with
       | some s => (stOk, s)
       | none => (stMalformed, s))
  else if off = Off.GLB_POOL_WINDOW then (stOk, if locked then s else s.setReg off new)
  else if 0x900 ≤ off ∧ off < 0xA00 then
    (if !stw then (stOk, s)
     else if off % 8 = 0 then (stOk, stage off (fieldsWrite fs (s.stagedLo off) v b stw) s)
     else
       match commitSignpost ((off - 0x900) / 8) (s.stagedLo (off - 4)).toNat new.toNat s with
       | some s => (stOk, s)
       | none => (stMalformed, s))
  else if off = Off.GLB_CAL_CTRL then (stOk, setLearn (new.getLsbD 0) s)
  else if off = Off.GLB_RST_PORT then (stOk, resetPorts src ones.toNat s)
  else if off = Off.GLB_RST_PAV then (stOk, askPavResets ones.toNat s)
  else if off = Off.GLB_PAD_CTRL then (stOk, putAtTurn off new s)
  else (stOk, s.setReg off new)

/-! ## PRT -/

/-- A change of a port is put off until its completion has gone when it came in on that port, and else applies at once (R75,
R138, R204). -/
def portChange (src n : Nat) (d : Delayed) (s : State) : State :=
  if src = n then
    s.modPort n (fun p => { p with delayed := p.delayed ++ [{ change := d, after := none, due := some (s.now + tNs 100) }] })
  else applyDelayed n d s

/-- PRT_PRBS_CTRL takes a value (R77, R79, R80, R87): CLR clears the error and bit counts of the selected lanes, and not their
PRBS_RELOCK; generators of another pattern start over, a checker of another loses its lock, and generators and checkers follow the
register. [DESIGN CHOICE, notes/assumptions/19.md] -/
def prbsWrite (n : Nat) (new : Reg32) (clr : Bool) (s : State) : State :=
  let was := s.rd (Fld.PRT_PRBS_CTRL_POLY n)
  let inv := s.rd (Fld.PRT_PRBS_CTRL_INV_ODD n)
  let s := s.setReg (Off.PRT_PRBS_CTRL n) new
  let other (p : Nat) : Bool := s.rd (Fld.PRT_PRBS_CTRL_POLY n) != was || (s.rd (Fld.PRT_PRBS_CTRL_INV_ODD n) != inv && p % 2 == 1)
  forUpto 8 (fun p a =>
    let a := if clr && bitAt (a.rd (Fld.PRT_PRBS_CTRL_LANE_MASK n)) p then
        (a.setReg (Off.PRT_LANE_PRBS_ERR n p) 0).modLane n p (fun l => { l with
          prbsBits := 0
          prbsFrom := l.prbsFrom.map (fun _ => a.now)
          prbsHi := none })
      else a
    let a := if other p then prbsUnlock n p (a.modLane n p (fun l => { l with genFrom := none })) else a
    prbsSync n p a) s

/-- PRT_INJ_CTRL takes a value (R83, R88): every selected lane is armed anew, and what reaches a lane now goes out.
[DEDUCED, notes/assumptions/67.md] -/
def injWrite (n : Nat) (new : Reg32) (s : State) : State :=
  let s := s.setReg (Off.PRT_INJ_CTRL n) new
  injectEnd n (forUpto 8 (fun p a => injectLane n p (a.modLane n p (fun l => { l with injDone := false, injAt := none }))) s)

/-- PRT_LANE_CTRL takes a value (R57, R59, R75). [DESIGN CHOICE, notes/assumptions/19.md] -/
def laneCtrlWrite (src n p : Nat) (new : Reg32) (s : State) : State :=
  let was := s.rd (Fld.PRT_LANE_CTRL_TEST_STATE n p)
  let s := setEdge n p (s.setReg (Off.PRT_LANE_CTRL n p) new)
  let now := s.rd (Fld.PRT_LANE_CTRL_TEST_STATE n p)
  if was = now then s else portChange src n (.testState (Fin.ofNat 8 p) (BitVec.ofNat 3 now)) s

/-- PRT_LINK_CTRL takes a value (R138). -/
def linkCtrlWrite (src n : Nat) (new ones : Reg32) (s : State) : State :=
  let was := s.on (Fld.PRT_LINK_CTRL_LINK_DIS n)
  let s := s.setReg (Off.PRT_LINK_CTRL n) new
  let now := s.on (Fld.PRT_LINK_CTRL_LINK_DIS n)
  let s := if was = now then s else portChange src n (.linkDis now) s
  if ones.getLsbD 4 then portChange src n .widen s
  else if ones.getLsbD 3 then portChange src n .retrain s
  else s

/-- PRT_POOL_CTRL takes a value (R204, R237): the role through its own change. -/
def poolCtrlWrite (src n : Nat) (new : Reg32) (s : State) : State :=
  let was := s.role n
  let role := bitsOf new.toNat 0 2
  let s := s.setReg (Off.PRT_POOL_CTRL n) (BitVec.ofNat 32 (bitsSet new.toNat 0 2 was))
  if role = was then s else portChange src n (.role (BitVec.ofNat 2 role)) s

/-- What a write of a PRT register does; on a port the variant disables, nothing (R73). -/
def prtWrite (src off : Nat) (fs : List FieldRow) (b v : Reg32) (s : State) : State :=
  let n := (off - 0x80000) / 0x1000
  let k := off % 0x1000
  let stw := s.steward src
  let old := s.reg off
  let new := s.settled off old (fieldsWrite fs old v b stw)
  let ones := writtenOnes fs v b stw
  if k = 0x010 then prbsWrite n new (ones.getLsbD 13) s
  else if k = 0x014 then injWrite n new s
  else if k = 0x300 then linkCtrlWrite src n new ones s
  else if k = 0x500 then poolCtrlWrite src n new s
  else if 0x100 ≤ k ∧ k < 0x300 ∧ k % 0x40 = 0 then laneCtrlWrite src n ((k - 0x100) / 0x40) new s
  else if 0x100 ≤ k ∧ k < 0x300 ∧ k % 0x40 = 0x1C ∧ (s.lane n ((k - 0x100) / 0x40)).scan.isSome = true then
    s.modLane n ((k - 0x100) / 0x40) (fun l => { l with marginHeld := some new })
  else s.setReg off new

/-! ## The other blocks -/

/-- What a write of a register outside GLB, MBX and PRT does. -/
def restWrite (src off : Nat) (fs : List FieldRow) (b v : Reg32) (s : State) : State :=
  let stw := s.steward src
  let old := s.reg off
  let new := s.settled off old (fieldsWrite fs old v b stw)
  let ones := writtenOnes fs v b stw
  let x := new.toNat
  if off = Off.CAD_CTRL then setSource (bitsOf x 0 2) (bitsOf x 4 4) s
  else if 0x1020 ≤ off ∧ off < 0x1030 then putAtTurn off new s
  else if off = Off.THM_CTRL then setExternal (bitAt x 3) (bitAt x 4) (bitAt x 5) (setHostThr (bitsOf x 0 2) s)
  else if off = Off.THM_HALT then (if ones.getLsbD 31 then askHaltClear s else s)
  else if off = Off.EVT_ROUTE then setRoute x s
  else if 0x41000 ≤ off ∧ off < 0x44000 ∧ off % 0x100 = 0 then
    let s := s.setReg off new
    if ones.getLsbD 31 then monDiscard ((off - 0x41000) / 0x100) s else s
  else if 0xC0000 ≤ off ∧ 0x100 ≤ off % 0x1000 ∧ off % 0x1000 < 0x140 then putAtTurn off new s
  else if 0xC0000 ≤ off ∧ off % 0x1000 = 0x200 then
    let p := (off - 0xC0000) / 0x1000
    let s := s.setReg off new
    if s.on (Fld.PAV_ECC_CTRL_REPEAT_EN p) then s else clearRepeats p s
  else s.setReg off new

/-! ## A write (R167) -/

/-- A write of enabled bytes `be` of a value to a window offset, from a source: its status and what it does. The variant is judged
first (R752), then privilege (R167), also on a port that the variant disables, whose registers no write changes (R73). -/
def regWrite (src off : Nat) (be : BitVec 4) (v : Reg32) (s : State) : BitVec 4 × State :=
  let b := beBits be
  match regAt off with
  | none => (stOk, s)
  | some row =>
    if 0x900 ≤ off ∧ off < 0xA00 ∧ s.poolOn = false then (stUnsupported, s)
    else if be = 0 then (stOk, s)
    else if 0x20000 ≤ off ∧ off < 0x40000 then mbxWrite src ((off - 0x20000) / 0x1000) (off % 0x1000) off b v s
    else
      let prt := decide (0x80000 ≤ off) && decide (off < 0x90000)
      let n := (off - 0x80000) / 0x1000
      if prt && off % 0x1000 == 0x500 && be.getLsbD 0 && v.toNat % 4 == 1 && !s.poolOn then (stUnsupported, s)
      else
        let denied := coversRws row.fields b && !s.steward src
        let s := if denied then deny src false off s else s
        let r := if off < 0x1000 then glbWrite src off row.fields b v s
          else (stOk, if prt then (if s.portEnabled n then prtWrite src off row.fields b v s else s)
                      else restWrite src off row.fields b v s)
        (if denied then stDenied else r.1, r.2)

/-! ## A read -/

/-- The bits of a register that a read clears (R11). -/
def rcBits (fs : List FieldRow) : Reg32 :=
  fs.foldl (fun a f => match f.acc with
    | .rc => a ||| f.bits
    | .ro => a
    | .rw => a
    | .w1c => a
    | .wo => a
    | .rwl => a
    | .rws => a) 0

/-- The bits of a register that do not read 0 because they are WO (R11). -/
def shownBits (fs : List FieldRow) : Reg32 :=
  fs.foldl (fun a f => match f.acc with
    | .wo => a &&& ~~~f.bits
    | .rc => a
    | .ro => a
    | .rw => a
    | .w1c => a
    | .rwl => a
    | .rws => a) 0xFFFFFFFF

/-- What a read of a register does besides answering (R80, R330, R375, R430, R455, R565). [DEDUCED, notes/assumptions/20.md] -/
def readEffects (off : Nat) (s : State) : State :=
  if off = Off.CAD_NOW_LO then { s with cad := { s.cad with nowHi := some (BitVec.ofNat 32 (s.stamp.toNat / 2 ^ 32)) } }
  else if off = Off.CAD_NOW_HI then { s with cad := { s.cad with nowHi := none } }
  else if off = Off.THM_PEAK then { s with therm := { s.therm with peakFreshD := true, peakFreshB := true } }
  else if 0x41000 ≤ off ∧ off < 0x44000 then
    let u := (off - 0x41000) / 0x100
    let k := off % 0x100
    if k = 0x28 then s.modMon u (fun m => { m with sumHi := some (s.reg (Off.MON_SUM_HI u)) })
    else if k = 0x2C then s.modMon u (fun m => { m with sumHi := none })
    else if k = 0x34 then s.modMon u (fun m => { m with lvlHi := some (s.reg (Off.MON_LVL_SUM_HI u)) })
    else if k = 0x38 then s.modMon u (fun m => { m with lvlHi := none })
    else s
  else if 0x80000 ≤ off ∧ off < 0x90000 ∧ 0x100 ≤ off % 0x1000 ∧ off % 0x1000 < 0x300 then
    let n := (off - 0x80000) / 0x1000
    let p := (off % 0x1000 - 0x100) / 0x40
    let k := off % 0x40
    if k = 0x14 then s.modLane n p (fun l => { l with prbsHi := some (BitVec.ofNat 32 ((s.prbsCount n p).toNat / 2 ^ 32)) })
    else if k = 0x18 then s.modLane n p (fun l => { l with prbsHi := none })
    else s
  else if 0xC0000 ≤ off ∧ off < 0xE0000 then
    let p := (off - 0xC0000) / 0x1000
    let k := off % 0x1000
    if k = 0x23C then s.modPav p (fun v => { v with records := v.records.drop 1 })
    else if k = 0x314 then s.wr (Fld.PAV_BIST_FAIL_0_VALID p) 0
    else s
  else s

/-- A read of a window offset from a source: the value, and the state with RC fields cleared and side effects done. A lane that
adapts shows codes of its own each time (R62). -/
def regRead (src off : Nat) (s : State) : Reg32 × State :=
  match regAt off with
  | none => (0, s)
  | some row =>
    if 0x900 ≤ off ∧ off < 0xA00 ∧ s.poolOn = false then (0, s)
    else
      let s := if 0x80000 ≤ off ∧ off < 0x90000 ∧ 0x100 ≤ off % 0x1000 ∧ off % 0x1000 < 0x300 ∧ off % 0x40 = 0x0C ∧
          s.laneRuns ((off - 0x80000) / 0x1000) ((off % 0x1000 - 0x100) / 0x40) = true then
          adaptRx ((off - 0x80000) / 0x1000) ((off % 0x1000 - 0x100) / 0x40) s
        else s
      let (bad, s) := if 0x20000 ≤ off ∧ off < 0x32000 ∧ off % 0x1000 < 0x400 then
          sramMeets ((off - 0x20000) / 0x1000) (off % 0x1000 / 4) s
        else (false, s)
      let v := if bad then 0xFFFFFFFF else s.look src off &&& shownBits row.fields
      let rc := rcBits row.fields
      let s := if rc = 0 then s else s.setReg off (s.reg off &&& ~~~rc)
      (v, readEffects off s)

/-! ## Served accesses -/

/-! ## Sideband accesses (R651, R652, R656) -/

/-- The address byte, for writing and for reading (R646). -/
def State.sbAddrW (s : State) : Byte := BitVec.ofNat 8 (2 * s.rd Fld.SB_STAT_ADDR)
def State.sbAddrR (s : State) : Byte := BitVec.ofNat 8 (2 * s.rd Fld.SB_STAT_ADDR + 1)

/-- The base of the sideband's event sources (R669). -/
def evSb (k : Nat) : Nat := 1000 + k

/-- The STOP that ends a transaction (R660, R663, R676): it counts, an assertion of attention is over, and one that was
unanswered may be made again after 50 µs. [DESIGN CHOICE, notes/assumptions/55.md] -/
def sbStop (s : State) : State :=
  let s := { s with sb := { s.sb with idleSince := s.now, attnWait := none, attnRetry := none, needStop := false } }
  (s.sat Fld.SB_XACT_COUNT).wr Fld.SB_STAT_STATE 0

/-- The outcome of a window or mailbox access (R651, R674). -/
def sbResult (code : Nat) (write : Bool) (off : Nat) (s : State) : State :=
  ((s.wr Fld.SB_RESULT_CODE code).wr Fld.SB_RESULT_WRITE (b2n write)).wr Fld.SB_RESULT_OFFSET off

/-- The data of an access were not ready within the stretch limit (R656). [DESIGN CHOICE, notes/assumptions/55.md] -/
def sbTimeout (write : Bool) (off : Nat) (s : State) : State :=
  ((sbResult 3 write off s).sat Fld.SB_CNT_TIMEOUT).raise (evSb 3) 0

/-- The bytes a read returns: count, data and PEC over the whole transaction (R655). -/
def sbAnswer (code : Byte) (data : List Byte) (s : State) : State :=
  let body := BitVec.ofNat 8 data.length :: data
  { s with sb := { s.sb with out := body ++ [crc8 ([s.sbAddrW, code, s.sbAddrR] ++ body)] } }

/-- The code of an access by its status (R651); for a refusal that R651 does not name the code is open. -/
def sbCode (st : BitVec 4) (s : State) : Nat × State :=
  if st = stOk then (1, s)
  else if st = stDenied then (2, s)
  else
    let (v, s) := s.drawFree
    (v.toNat % 16, s)

/-- Bytes that the hardware leaves to circumstance. -/
def freeBytes (n : Nat) (s : State) : List Byte × State :=
  (List.range n).foldl (fun a _ =>
    let r := a.2.drawFree
    (a.1 ++ [r.1.extractLsb' 0 8], r.2)) ([], s)

/-- The window pointer as a byte offset, and its advance (R649). -/
def State.sbPtr (s : State) : Nat := 4 * s.rd Fld.SB_WIN_PTR_OFFSET
def sbAdvance (s : State) : State := s.wr Fld.SB_WIN_PTR_OFFSET ((s.rd Fld.SB_WIN_PTR_OFFSET + 1) % 2 ^ 18)

/-- The mailbox that SB_MBX_PTR names. -/
def State.sbMbxSel (s : State) : Nat := if s.on Fld.SB_MBX_PTR_MBX17 then 17 else 16

/-- The number of bytes of a MBX_READ (R649). -/
def State.sbMbxLen (s : State) : Nat := min 32 (512 - s.rd Fld.SB_MBX_PTR_OFFSET)

/-- What an access shows in SB_RESULT, and the number of bytes a read returns. -/
def SbAccess.shown (s : State) : SbAccess → Bool × Nat × Nat
  | .winRead => (false, s.sbPtr, 4)
  | .mbxRead => (false, Off.MBX_RSP s.sbMbxSel 0 + s.rd Fld.SB_MBX_PTR_OFFSET, s.sbMbxLen)
  | .mbxStat => (false, Off.MBX_STAT s.sbMbxSel, 4)
  | .put o _ => (true, o, 0)

/-- A read of a mailbox: of MBX17 while the sideband is not the workshop source it is refused, and its data are open. -/
def sbMbxGet (code : Byte) (off n : Nat) (data : List Byte) (move : State → State) (s : State) : State :=
  if s.sbMbxSel = 17 ∧ s.owner 17 ≠ 16 then
    let r := freeBytes n (deny 16 false off s)
    sbAnswer code r.1 (sbResult 2 false off r.2)
  else move (sbAnswer code data (sbResult 1 false off s))

/-- The management agent serves an access of the sideband (R651, R652). [DESIGN CHOICE, notes/assumptions/55.md] -/
def sbServe (a : SbAccess) (s : State) : State :=
  let off := (a.shown s).2.1
  let n := (a.shown s).2.2
  let m := s.sbMbxSel
  match a with
  | .winRead =>
    let r := regRead 16 off s
    sbAdvance (sbAnswer 0x11 (leBytes 4 r.1.toNat) (sbResult 1 false off { r.2 with lastRead := r.1 }))
  | .mbxRead =>
    let o := s.rd Fld.SB_MBX_PTR_OFFSET
    let data := (List.range n).map (fun i =>
      BitVec.ofNat 8 (bitsOf (s.reg (Off.MBX_RSP m ((o + i) / 4))).toNat (8 * ((o + i) % 4)) 8))
    sbMbxGet 0x22 off n data (fun s => s.wr Fld.SB_MBX_PTR_OFFSET ((o + n) % 512)) s
  | .mbxStat => sbMbxGet 0x24 off n (s.regBytes 16 off) (fun s => s) s
  | .put _ ws =>
    let r := ws.foldl (fun a w => regWrite 16 w.1 w.2.1 w.2.2 a.2) (stOk, s)
    let c := sbCode r.1 r.2
    sbResult c.1 true off c.2

/-- An access has not been served within its 20 µs (R656): the rest of a read is 0xFF, a write is applied when it can be. -/
def sbExpire (a : SbAccess) (s : State) : State :=
  let v := a.shown s
  let s := { s with sb := { s.sb with hand := none } }
  match a with
  | .put o ws => sbTimeout true o { s with sb := { s.sb with late := s.sb.late ++ ws } }
  | .winRead => sbStop (sbTimeout false v.2.1 { s with sb := { s.sb with out := List.replicate (v.2.2 + 2) 0xFF } })
  | .mbxRead => sbStop (sbTimeout false v.2.1 { s with sb := { s.sb with out := List.replicate (v.2.2 + 2) 0xFF } })
  | .mbxStat => sbStop (sbTimeout false v.2.1 { s with sb := { s.sb with out := List.replicate (v.2.2 + 2) 0xFF } })

/-- Writes that came too late are applied (R656). -/
def applyLate (s : State) : State :=
  if s.sb.late.isEmpty then s
  else s.sb.late.foldl (fun a w => (regWrite 16 w.1 w.2.1 w.2.2 a).2) { s with sb := { s.sb with late := [] } }

/-- The access in hand is served, if its 20 µs have not passed; a read then ends its transaction. -/
def sbHand (s : State) : State :=
  match s.sb.hand with
  | none => s
  | some (a, t) =>
    if t < s.now then sbExpire a s
    else
      let s := sbServe a { s with sb := { s.sb with hand := none } }
      if (a.shown s).1 then s else sbStop s

/-- What the sideband has waiting is served once the management agent serves (R656). [DESIGN CHOICE, notes/assumptions/55.md] -/
def lateWrites (s : State) : State := if s.served then applyLate (sbHand (applyLate s)) else s

/-- A transaction waits for the access before it (R653): served by now, or at its limit. -/
def sbReady (s : State) : State :=
  match s.sb.hand with
  | some (a, t) => if s.served then lateWrites s else sbExpire a (s.atLeast t)
  | none => lateWrites s

/-- An access of the sideband: served at once, or held for at most 20 µs (R651, R656). -/
def sbTake (a : SbAccess) (s : State) : State :=
  if s.served then sbServe a s else { s with sb := { s.sb with hand := some (a, s.now + 20 * tUs) } }

/-- A configuration write that reaches the management agent while it serves (R167, R698). [DEDUCED, notes/assumptions/48.md] -/
def cfgWrite (src off : Nat) (be : BitVec 4) (v : Reg32) (s : State) : Out :=
  if s.served then
    let r := regWrite src off be v (lateWrites s)
    .next (quietStep { r.2 with lastStatus := r.1 })
  else .next s

/-- A configuration read that reaches the management agent while it serves (R167, R698). [DEDUCED, notes/assumptions/48.md] -/
def cfgRead (src off : Nat) (s : State) : Out :=
  if s.served then
    let r := regRead src off (lateWrites s)
    .next (quietStep { r.2 with lastRead := r.1, lastStatus := stOk })
  else .next s

end Sys2Proof.Machine
end

