-- ==== Sys2Proof/Machine/Txn.lean ====
section
/-! DEFINITION. Transactions of a port (R145 to R195, R210 to R233): slots and data slots as they are accepted, the checks of R191
and R213, dispatch to the promenade, service of configuration requests, fences, forwarding and relaying, and responses sent. -/
namespace Sys2Proof.Machine
open Sys2Proof

/-! ## Transactions in hand -/

def State.txn? (s : State) (n serial : Nat) : Option Txn := (s.port n).txns.find? (fun t => t.serial == serial)

/-- Changes a transaction of a port. -/
def modTxn (n serial : Nat) (f : Txn → Txn) (s : State) : State :=
  s.modPort n (fun p => { p with txns := p.txns.map (fun t => if t.serial = serial then f t else t) })

/-- A transaction is over: its tag and context are free (R176, R216). -/
def endTxn (n serial : Nat) (s : State) : State :=
  let eg := match s.txn? n serial with | some t => t.forwarded | none => none
  let s := s.modPort n (fun p => { p with
    txns := p.txns.filter (fun t => t.serial != serial)
    fences := p.fences.filter (fun f => f.serial != serial) })
  match eg with
  | some e => s.modPort e (fun p => { p with
      ctxs := p.ctxs.filter (fun c => c.quarantined || !(c.ingress == n && c.serial == serial)) })
  | none => s

/-- A response of a transaction is ready; when the link it came in on is gone it is discarded, and the transaction is over with
its final response (R194). -/
def answer (n : Nat) (t : Txn) (r : ReadyRsp) (s : State) : State :=
  let s := pushReady n r t.dead s
  if t.dead && r.final then endTxn n t.serial s else s

/-- The CMP of a transaction is ready (R172, R174). -/
def complete (n : Nat) (t : Txn) (status : BitVec 4) (s : State) : State :=
  answer n t { op := 0x21, slot := cmpOf t status (s.role n == 1), data := [], serial := t.serial, final := true } s

/-! ## The checks (R191, R213) -/

/-- What the checks of a request come to. -/
inductive Verdict where
  | serve
  /-- the egress port, and whether the request leaves with LOCAL = 1 (R219) -/
  | forward (egress : Nat) (setLocal : Bool)
  /-- a refusal, and whether it is that of step 4b -/
  | refuse (status : BitVec 4) (loop : Bool)
  deriving DecidableEq, Repr

/-- The route of a request that is not served here (R213). -/
def State.routed (s : State) (n hop w : Nat) (cfg : Bool) : Verdict :=
  match s.route n hop w with
  | .inl (e, i) => .forward e (cfg && s.on (Fld.GLB_SP_HI_CFG_LOCAL i))
  | .inr (st, loop) => .refuse st loop

/-- Orders 4 to 6 of R191 for a memory request; `halt` when order 6 applies. [DEDUCED, notes/assumptions/22.md] -/
def State.checkMem (s : State) (n : Nat) (slot : BitVec 80) (halt : Bool) : Verdict :=
  let l0 := slotLine slot
  let ls := (List.range (reqLines slot)).map (fun i => l0 + i)
  if s.lineIsLocal l0 then
    if ls.all (fun l => s.lineIsLocal l) = false then .refuse stUnmapped false
    else
      let pavs := ls.map (fun l => match s.locate (lineLocal l) with | some x => some x.pav | none => none)
      if pavs.any (fun p => p.isNone) then .refuse stUnmapped false
      else if pavs.any (fun p => match p with | some p => s.retiredRunning p | none => false) then .refuse stRetired false
      else if halt then .refuse stHalt false
      else .serve
  else if ls.all (fun l => lineWindow l == lineWindow l0) = false then .refuse stUnmapped false
  else s.routed n (slotHop slot).toNat (lineWindow l0) false

/-- The checks of R191 in their order; `dup` when the tag is outstanding. [DEDUCED, notes/assumptions/22.md] -/
def State.check (s : State) (n : Nat) (slot : BitVec 80) (dup : Bool) : Verdict :=
  let op := slotOp slot
  let tc := slotTc slot
  let cfg := op == 0x18 || op == 0x19
  if !reqDefined op || (reqMemory op && tc == 3) || (cfg && tc != 3) || (op == 0x04 && slotLcount slot != 0) then
    .refuse stMalformed false
  else if dup then .refuse stTagInUse false
  else if op = 0x14 then .serve
  else if reqAtomic op && !s.atomicsOn then .refuse stUnsupported false
  else if cfg then
    (if slotLocal slot || slotWindow slot == s.rd Fld.GLB_POOL_WINDOW_BASE then .serve
     else s.routed n (slotHop slot).toNat (slotWindow slot) true)
  else s.checkMem n slot s.halted

/-- The checks that a request still held meets again when its turn to be dispatched comes: the map, the window and the routes may have
changed since it was accepted (R37, R38, R41, R43, R191); a halt declared since does not refuse it (R193).
[DEDUCED, notes/assumptions/22.md] -/
def State.recheck (s : State) (n : Nat) (t : Txn) : Verdict :=
  let op := slotOp t.slot
  if reqMemory op then s.checkMem n t.slot false
  else if (op == 0x18 || op == 0x19) && t.forwarded.isSome then s.check n t.slot false
  else .serve

/-- A refusal is counted and raises its event (R191, R196, R213). [DEDUCED, notes/assumptions/22.md] -/
def countRefusal (n op tc : Nat) (status : BitVec 4) (loop : Bool) (s : State) : State :=
  if status = stMalformed then (s.sat (Fld.PRT_TXN_ERR_MALFORMED n)).raise (evPort n 14) op
  else if status = stTagInUse then (s.sat (Fld.PRT_TXN_ERR_TAG_DUP n)).raise (evPort n 14) (op + 64)
  else
    let s :=
      if status = stUnmapped then (if loop then s.sat (Fld.PRT_POOL_REFUSED_LOOP n) else s.sat (Fld.PRT_TXN_REFUSED_UNMAPPED n))
      else if status = stRetired then s.sat (Fld.PRT_TXN_REFUSED_RETIRED n)
      else if status = stHalt then s.sat (Fld.PRT_TXN_REFUSED_THERMAL_HALT n)
      else if status = stUnsupported then s.sat (Fld.PRT_TXN_REFUSED_UNSUPPORTED n)
      else if status = stHopLimit then s.sat (Fld.PRT_POOL_REFUSED_HOP_LIMIT n)
      else s.sat (Fld.PRT_POOL_REFUSED_PATH_DOWN n)
    s.raise (evPort n 15) (status.toNat + 16 * tc)

/-- The refusal CMP of a transaction whose data slots are all in (R178). -/
def refuseDone (n : Nat) (t : Txn) (s : State) : State :=
  match t.refused with
  | some st => complete n t st (giveBack n (slotTc t.slot).toNat 0 1 s)
  | none => s

/-! ## Acceptance of slots (R146, R170, R176) -/

/-- A message is discarded (R170). -/
def dropMsg (n tc : Nat) (s : State) : State :=
  giveBack n tc 0 1 ((s.sat (Fld.PRT_TXN_ERR_MSG_BAD n)).raise (evPort n 13) 1)

/-- Entries for the data slots a slot owns (R146). -/
def oweData (n k : Nat) (who : OwedBy) (tc : BitVec 2) (s : State) : State :=
  if k = 0 then s else s.modPort n (fun p => { p with owedQ := p.owedQ ++ List.replicate k { who := who, tc := tc } })

/-- A request enters the transactions of a port. -/
def addTxn (n : Nat) (t : Txn) (s : State) : State :=
  { s with nextId := s.nextId + 1 }.modPort n (fun p => { p with txns := p.txns ++ [t], nextSerial := p.nextSerial + 1 })

/-- A request slot is accepted: its checks, its tag and the data slots it owns. -/
def takeRequest (n : Nat) (slot0 : BitVec 80) (s : State) : State :=
  let op := slotOp slot0
  let tc := slotTc slot0
  let host := s.role n == 0
  let slot := if host then slotPut (slotPut slot0 65 3 0) 68 4 0 else slot0
  let k := (s.port n).nextSerial
  let t : Txn := { serial := k, slot := slot, owed := reqOwns slot, data := [], refused := none,
                   panic := tc == 2 && slotPanic slot && reqMemory op && s.on (Fld.PRT_TXN_CTRL_PANIC_EN n),
                   dispatched := false, handed := 0, done := 0, poisoned := false, back := [],
                   runMax := s.rd (Fld.PRT_TXN_CTRL_RUN_MAX n), answered := 0, holdsTag := true, rid := s.nextId, aged := false, forwarded := none,
                   dead := false,
                   at_ := s.now, measured := false }
  if op = 0x1C then
    if slotMtype slot = 0 ∧ tc = 3 ∧ slotMsgData slot = false ∧ host = true then addTxn n { t with holdsTag := false } s
    else oweData n (reqOwns slot) .none_ tc (dropMsg n tc.toNat s)
  else
    let dup := (s.port n).txns.any (fun x => x.holdsTag && slotTag x.slot == slotTag slot)
    let covers := ((s.port n).txns.filter (fun x => (slotClasses slot).getLsbD (slotTc x.slot).toNat && slotOp x.slot != 0x1C)).map
      (fun x => x.serial)
    let s' := match s.check n slot dup with
      | .serve =>
        if op = 0x14 then
          (addTxn n { t with dispatched := true } s).modPort n (fun p => { p with fences := p.fences ++
            [{ serial := k, tag := slotTag slot, tc := tc, hold := slotHold slot, classes := slotClasses slot, covers := covers }] })
        else addTxn n t s
      | .forward e setLocal =>
        addTxn n { t with slot := if setLocal then slotPut slot 51 1 1 else slot, forwarded := some e } s
      | .refuse st loop =>
        let t := { t with refused := some st, holdsTag := st != stTagInUse }
        let s := countRefusal n op tc.toNat st loop (addTxn n t s)
        if t.owed = 0 then refuseDone n t s else s
    oweData n (reqOwns slot) (.txn k) tc s'

/-- The response a context's request gets on its ingress port (R216). -/
def relayed (e : Nat) (c : Ctx) (slot : RspSlot) (op : BitVec 6) (final : Bool) (data : List Line) (peer : Bool) : ReadyRsp :=
  { op := op, slot := { slot with tag := c.tag, hop := if peer then c.hop else 0, src := if peer then c.src else 0 },
    data := data, serial := c.serial, final := final, via := some e }

/-- A whole response goes to the ingress port of its context (R216, R217, R233); its credits follow when it leaves (R226). -/
def relayOn (e : Nat) (c : Ctx) (slot : RspSlot) (op : BitVec 6) (final : Bool) (data : List Line) (s : State) : State :=
  match s.txn? c.ingress c.serial with
  | some t => answer c.ingress t (relayed e c slot op final data (s.role c.ingress == 1)) s
  | none =>
    let s := rspLeaves (some e) slot.tc.toNat 1 data.length (s.sat (Fld.PRT_TXN_LOST_LOST c.ingress))
    if final then s.modPort e (fun p => { p with ctxs := p.ctxs.filter (fun x => x.id != c.id) }) else s

/-- A whole response for a quarantined context, or for none, is discarded; the final one frees the context (R232). -/
def relayDrop (e : Nat) (r : Relay) (s : State) : State :=
  let s := if rspFinal (encRsp r.op r.slot) then s.modPort e (fun p => { p with ctxs := p.ctxs.filter (fun x => x.id != r.ctx) }) else s
  rspLeaves (some e) r.slot.tc.toNat 1 r.data.length s

/-- The first response received on a peer port that is whole and has no earlier one of its class before it (R217, R222). -/
def firstWhole (rs : List Relay) : Option Relay :=
  rs.find? (fun r => r.owed == 0 && (rs.find? (fun x => x.slot.tc == r.slot.tc)) == some r)

/-- The responses received on a peer port go on in their arrival order within a class, each once it is whole (R217, R222). -/
def relayFlush (e : Nat) : Nat → State → State
  | 0, s => s
  | fuel + 1, s =>
    match firstWhole (s.port e).relay with
    | none => s
    | some r =>
      let s := s.modPort e (fun p => { p with relay := p.relay.erase r })
      match (s.port e).ctxs.find? (fun c => c.id == r.ctx) with
      | some c =>
        relayFlush e fuel (if c.quarantined then relayDrop e r s
          else relayOn e c r.slot r.op (rspFinal (encRsp r.op r.slot)) r.data s)
      | none => relayFlush e fuel (relayDrop e r s)

/-- A response slot is accepted on a peer port (R175, R216, R232). [DEDUCED, notes/assumptions/24.md] -/
def takeResponse (e : Nat) (raw : BitVec 80) (s : State) : State :=
  let op := slotOp raw
  let r := rspOf raw
  let k := rspOwns raw
  if 0x24 ≤ op then
    giveBack e r.tc.toNat 2 1 ((s.sat (Fld.PRT_TXN_ERR_MALFORMED e)).raise (evPort e 14) op)
  else
    match (s.port e).ctxs.find? (fun c => c.id == r.tag.toNat) with
    | none => giveBack e r.tc.toNat 2 1 (oweData e k .none_ r.tc (s.sat (Fld.PRT_TXN_ERR_MALFORMED e)))
    | some c =>
      let s := (oweData e k (.relay c.id) r.tc s).modPort e (fun p => { p with
        relay := p.relay ++ [{ ctx := c.id, op := BitVec.ofNat 6 op, slot := r, data := [], owed := k }] })
      relayFlush e ((s.port e).relay.length) s

/-- A data slot is accepted: it belongs to the head of the queue (R146, R148). -/
def takeData (n : Nat) (d : Line) (s : State) : State :=
  match (s.port n).owedQ with
  | [] => (s.sat (Fld.PRT_TXN_ERR_ORPHAN n)).raise (evPort n 13) 0
  | o :: rest =>
    let s := s.modPort n (fun p => { p with owedQ := rest })
    match o.who with
    | .none_ => giveBack n o.tc.toNat 1 1 s
    | .txn serial =>
      match s.txn? n serial with
      | none => giveBack n o.tc.toNat 1 1 s
      | some t =>
        let t' := { t with owed := t.owed - 1, data := if t.refused.isSome then [] else t.data ++ [d] }
        let s := modTxn n serial (fun _ => t') s
        if t.refused.isSome then
          let s := giveBack n o.tc.toNat 1 1 s
          if t'.owed = 0 then refuseDone n t' s else s
        else s
    | .relay cid =>
      match (s.port n).relay.find? (fun r => r.ctx == cid && decide (0 < r.owed)) with
      | none => giveBack n o.tc.toNat 1 1 s
      | some r =>
        let s := s.modPort n (fun p => { p with relay := p.relay.map (fun x =>
          if x = r then { r with data := r.data ++ [d], owed := r.owed - 1 } else x) })
        relayFlush n ((s.port n).relay.length) s

/-! ## Credits of received slots (R127, R131, R149, R179) -/

/-- The credits that accepted slots use: pool kind and class of each. -/
def slotCredit (slot : BitVec 80) : Option (Nat × Nat) :=
  let op := slotOp slot
  if op = 0 ∨ 0x38 ≤ op then none
  else if op < 0x20 then some (0, (slotTc slot).toNat)
  else some (2, (slotRspTc slot).toNat)

/-- The class of the data slot that a flit brings, after its slots (R146, R149); none for an orphan. -/
def State.dataClass (s : State) (n : Nat) (slots : List (BitVec 80)) : Option Nat :=
  match (s.port n).owedQ with
  | o :: _ => some o.tc.toNat
  | [] =>
    match slots.find? (fun x => let op := slotOp x; if op < 0x20 then 0 < reqOwns x else if op < 0x38 then 0 < rspOwns x else false) with
    | some x => some (if slotOp x < 0x20 then (slotTc x).toNat else (slotRspTc x).toNat)
    | none => none

/-- Every credit that a flit uses. -/
def State.flitCredits (s : State) (n : Nat) (slots : List (BitVec 80)) (data : Bool) : List (Nat × Nat) :=
  slots.filterMap slotCredit ++
    (if data then (match s.dataClass n slots with | some tc => [(1, tc)] | none => []) else [])

/-- Whether the partner holds every credit it uses. -/
def State.creditsHeld (s : State) (n : Nat) (cs : List (Nat × Nat)) : Bool :=
  cs.all (fun c => decide ((cs.filter (fun x => x == c)).length ≤ s.rd (fldRx n c.2 c.1)))

/-- One slot of an accepted flit, in slot order. `age` is how long ago the flit's first bit came. An ACK slot changes nothing here: it
counts as slot 0 of a flit with ACK_P only. [DESIGN CHOICE, notes/assumptions/68.md] -/
def takeSlot (n age : Nat) (slot : BitVec 80) (s : State) : State :=
  let op := slotOp slot
  if op = 0 then s
  else if op < 0x20 then takeRequest n slot s
  else if op < 0x38 then takeResponse n slot s
  else if op = 0x39 then takeCredit n (creditOf slot) s
  else if op = 0x3A then takeTurn n (slot.extractLsb' 6 16).toNat (slot.extractLsb' 22 12).toNat age s
  else if op = 0x3B then takePower n (slot.extractLsb' 6 2).toNat (slot.extractLsb' 8 2).toNat s
  else if op = 0x3C then
    (let w := slot.getLsbD 6; enterRecovery n 4 w (if w then retryPositions n s else s))
  else s

/-- The slots and data slot of an accepted flit (R131, R146); without the credits they use the link goes down. -/
def takeSlots (n age : Nat) (slots : List (BitVec 80)) (data : Option Line) (s : State) : State :=
  let cs := s.flitCredits n slots data.isSome
  if s.creditsHeld n cs then
    let s := cs.foldl (fun a c => a.wr (fldRx n c.2 c.1) (a.rd (fldRx n c.2 c.1) - 1)) s
    let s := slots.foldl (fun a x => takeSlot n age x a) s
    match data with
    | some d => takeData n d s
    | none => s
  else linkDown n 5 s

/-! ## Dispatch (R158, R164, R180, R183, R222, R698) -/

/-- Whether memory requests may be dispatched: start-up is over, and no entry into Hold, shutdown or parking test holds them
(R411, R690, R698, R706). [DESIGN CHOICE, notes/assumptions/25.md] -/
def State.mayDispatch (s : State) : Bool := s.power.boot == .done && !s.power.noDispatch

/-- A line of a transaction goes to its pavilion's promenade agent. -/
def handLine (n : Nat) (t : Txn) (loc : Loc) (i : Nat) (op : LineOp) (s : State) : State :=
  let r : LineReq := { id := s.nextId, owner := .port n t.serial, agent := n, loc := loc, idx := i, op := op, tc := slotTc t.slot,
                       panic := t.panic, hint := slotHint t.slot, since := s.now, promoted := false, stalled := false }
  { s with nextId := s.nextId + 1, prom := s.prom ++ [r] }

/-- What a memory request does to its line i: none while the data slots it needs are not in. -/
def lineOpOf (t : Txn) (i : Nat) : Option LineOp :=
  let op := slotOp t.slot
  if op = 0x01 then some .read
  else if op = 0x02 then (match t.data[i]? with | some d => some (.write d 0) | none => none)
  else if op = 0x03 then some (.write lineZero 0xFF)
  else if op = 0x04 then
    (match t.data with | d :: m :: _ => some (.masked d (m[0])) | _ => none)
  else
    (match t.data with | d :: _ => some (.atomic (atomicOf op) (slotLcount t.slot) d[0] d[1]) | [] => none)

/-- A request that has been held is refused when its turn comes (R38, R41, R43). [DEDUCED, notes/assumptions/22.md] -/
def refuseLate (n : Nat) (t : Txn) (st : BitVec 4) (loop : Bool) (s : State) : State :=
  let got := reqOwns t.slot - t.owed
  let t := { t with refused := some st, data := [], forwarded := none }
  let s := countRefusal n (slotOp t.slot) (slotTc t.slot).toNat st loop (modTxn n t.serial (fun _ => t) s)
  let s := giveBack n (slotTc t.slot).toNat 1 got s
  if t.owed = 0 then refuseDone n t s else s

/-- Hands on the lines of a transaction that are ready, from its first not yet handed on; true when that was the last. -/
def handLines (n serial : Nat) : Nat → State → State × Bool
  | 0, s => (s, false)
  | fuel + 1, s =>
    match s.txn? n serial with
    | none => (s, true)
    | some t =>
      let k := reqLines t.slot
      if k ≤ t.handed then (modTxn n serial (fun x => { x with dispatched := true }) s, true)
      else
        match lineOpOf t t.handed with
        | none => (s, false)
        | some op =>
          match s.locate (lineLocal (slotLine t.slot + t.handed)) with
          | none => (s, false)
          | some loc =>
            handLines n serial fuel (modTxn n serial (fun x => { x with handed := x.handed + 1 }) (handLine n t loc t.handed op s))

/-! ## Arbiters of the promenade (R21 to R23) -/

/-- The agent numbers of the management agent and the signpost table (R19). -/
def agentMgmt : Nat := 48
def agentSignpost : Nat := 50

/-- Where the last sending of an agent to a pavilion is kept: the bulk engine sends one request to each in a cycle (R21). -/
def sendKey (agent p : Nat) : Nat := if agent = agentBulk then 64 + p else agent

/-- An agent sends a request into the promenade: in a fabric cycle in which it has sent none yet (R21). -/
def sendFrom (k : Nat) (s : State) : State :=
  let s := s.atLeast (tFab * tabGet 0 s.sentAt k)
  { s with sentAt := tabSet 0 s.sentAt k (s.now / tFab + 1) }

/-- The round-robin state of an arbiter: the destination agent and the class of R22, 5 for requests past the limit of R23. -/
def rrKey (dest cls : Nat) : Nat := 8 * dest + cls

/-- The next in round-robin order after the source last granted. -/
def nextRound {α : Type} (last : Option Nat) (agent : α → Nat) (ls : List α) : Option α :=
  leastBy (fun r => [match last with | some a => (agent r + 51 - a - 1) % 51 | none => agent r]) ls

/-- What the arbiter of a destination grants of the requests it can admit (R22, R23): those past the age limit first, then by class,
round-robin over the sources; with the class of its round-robin state. -/
def arbPick {α : Type} (s : State) (dest : Nat) (aged : α → Bool) (cls agent : α → Nat) (ls : List α) : Option (α × Nat) :=
  let last (c : Nat) : Option Nat := match tabGet 0 s.promRr (rrKey dest c) with | 0 => none | a + 1 => some a
  match nextRound (last 5) agent (ls.filter aged) with
  | some r => some (r, 5)
  | none =>
    (List.range 5).foldl (fun b c =>
      match b with
      | some x => some x
      | none => (nextRound (last c) agent (ls.filter (fun r => cls r == c))).map (fun r => (r, c))) none

/-- An arbiter has granted a request of a source. -/
def arbGranted (dest cls agent : Nat) (s : State) : State :=
  { s with promRr := tabSet 0 s.promRr (rrKey dest cls) (agent + 1) }

/-- A configuration request is served (R165 to R167): the CFG_DATA or the CMP is ready. -/
def serveCfg (n : Nat) (t : Txn) (s : State) : State :=
  let s := modTxn n t.serial (fun x => { x with dispatched := true }) (giveBack n 3 0 1 s)
  let off := slotOffset t.slot
  if slotOp t.slot = 0x18 then
    let (v, s) := regRead n off s
    let s := { s with lastRead := v, lastStatus := stOk }
    let c := cmpOf t stOk (s.role n == 1)
    answer n t { op := 0x23, slot := { c with spec := BitVec.ofNat 49 (2 * v.toNat) }, data := [], serial := t.serial, final := true } s
  else
    let v := match t.data with | d :: _ => BitVec.ofNat 32 (d[0]).toNat | [] => 0
    let k := (s.port n).delayed.length
    let (st, s) := regWrite n off (slotBe t.slot) v (giveBack n 3 1 1 s)
    let s := { s with lastStatus := st }
    let s := s.modPort n (fun p => { p with delayed := p.delayed.zipIdx.map (fun d =>
      if k ≤ d.2 then { d.1 with after := some (.cmp t.serial), due := none } else d.1) })
    let s := if st = stMalformed ∨ st = stUnsupported then countRefusal n 0x19 3 st false s else s
    complete n t st s

/-- A request that leaves through an egress port joins its forwarder's queue (R217). -/
def queueFwd (n e : Nat) (t : Txn) (s : State) : State :=
  let host := s.role n == 0
  let slot := if host then slotPut (slotPut t.slot 65 3 1) 68 4 n
    else slotPut t.slot 65 3 ((slotHop t.slot).toNat + 1)
  (modTxn n t.serial (fun x => { x with handed := 1 }) s).modPort n (fun p => { p with
    fwd := p.fwd ++ [{ egress := e, serial := t.serial, slot := slot, data := t.data, since := s.now, starved := none }] })

/-- Whether a request waits for the management agent: a configuration request served here, or a doorbell message. -/
def State.waitsMgmt (s : State) (n : Nat) (t : Txn) : Bool :=
  (slotOp t.slot == 0x18 || slotOp t.slot == 0x19 || slotOp t.slot == 0x1C) && t.forwarded.isNone && !t.dispatched && t.refused.isNone &&
    !t.dead && (s.port n).txns.contains t

/-- Dispatches what it can of a transaction; true when nothing of it waits any more. It meets the checks again before its first part
goes. [DEDUCED, notes/assumptions/22.md] -/
def dispatchTxn (n : Nat) (t : Txn) (s : State) : State × Bool :=
  let mem := reqMemory (slotOp t.slot)
  if mem && !s.mayDispatch && t.handed == 0 then (s, false)
  else if !mem && !s.served then (s, false)
  else if !mem && t.forwarded.isNone then (s, false)
  else if t.handed ≠ 0 then (if t.forwarded.isSome then (s, true) else handLines n t.serial (reqLines t.slot + 2) s)
  else
    match s.recheck n t with
    | .refuse st loop => (refuseLate n t st loop s, true)
    | .forward e _ =>
      let s := modTxn n t.serial (fun x => { x with forwarded := some e }) s
      if t.owed = 0 then (queueFwd n e { t with forwarded := some e } s, true) else (s, false)
    | .serve =>
      let s := modTxn n t.serial (fun x => { x with forwarded := none }) s
      if mem then handLines n t.serial (reqLines t.slot + 2) s else (s, false)

/-- Whether a fence holds a request (R164). -/
def State.fenceHolds (s : State) (n : Nat) (t : Txn) : Bool :=
  (s.port n).fences.any (fun f => f.hold && decide (f.serial < t.serial) && f.classes.getLsbD (slotTc t.slot).toNat)

/-- Requests of a port are dispatched in acceptance order within a class and destination (R180, R222). -/
def dispatchPort (n : Nat) (s : State) : State :=
  (((s.port n).txns.map (fun t => t.serial)).foldl (fun (a : State × List (Nat × Nat)) k =>
    match a.1.txn? n k with
    | none => a
    | some t =>
      if t.dispatched || t.refused.isSome || t.dead then a
      else
        let key := ((slotTc t.slot).toNat, match t.forwarded with | some e => e | none => 16)
        if a.2.contains key then a
        else if a.1.fenceHolds n t then (a.1, a.2 ++ [key])
        else
          let r := dispatchTxn n t a.1
          (r.1, if r.2 then a.2 else a.2 ++ [key])) (s, [])).1

/-- The request of a port that its management requests put forward: the first in TC3 not yet executed, once its data are in and no
fence holds it (R164, R183). -/
def State.mgmtHead (s : State) (n : Nat) : Option Txn :=
  match (s.port n).txns.find? (fun t => s.waitsMgmt n t) with
  | some t => if t.owed = 0 ∧ s.fenceHolds n t = false then some t else none
  | none => none

/-- The management agent executes a request granted to it (R165 to R167, R170). -/
def serveMgmt (n : Nat) (t : Txn) (s : State) : State :=
  if slotOp t.slot = 0x1C then endTxn n t.serial (ring n (slotValue t.slot).toNat (giveBack n 3 0 1 s)) else serveCfg n t s

/-- The management agent's arbiter grants the configuration requests and doorbell messages of the ports (R22, R23, R183). -/
def pumpMgmt : Nat → State → State
  | 0, s => s
  | fuel + 1, s =>
    if s.served then
      match arbPick s agentMgmt (fun (x : Nat × Txn) => x.2.aged) (fun _ => 0) (fun x => x.1)
          ((List.range 16).filterMap (fun n => (s.mgmtHead n).map (fun t => (n, t)))) with
      | some ((n, t), c) => pumpMgmt fuel (serveMgmt n t (sendFrom n (arbGranted agentMgmt c n s)))
      | none => s
    else s

/-- The requests of every port that wait for the management agent. -/
def State.mgmtWaits (s : State) : Nat :=
  (List.range 16).foldl (fun a n => a + ((s.port n).txns.filter (fun t => s.waitsMgmt n t)).length) 0

/-- A fence completes once every request it covers has had its final response sent (R164). -/
def fenceCheck (n : Nat) (s : State) : State :=
  (s.port n).fences.foldl (fun a f =>
    let p := a.port n
    if a.served && !p.ready.any (fun r => r.serial == f.serial) && p.txns.all (fun t => !f.covers.contains t.serial) then
      match a.txn? n f.serial with
      | some t => complete n t stOk (giveBack n f.tc.toNat 0 1 a)
      | none => a
    else a) s

/-! ## Forwarding (R214 to R230) -/

/-- The place of a class at an arbiter (R22), highest first. -/
def classRank (tc : Nat) (panic : Bool) : Nat := if tc = 3 then 0 else if tc = 2 then (if panic then 1 else 2) else if tc = 1 then 3 else 4

/-- The least context number free on a peer port (R215). -/
def State.freeCtx (s : State) (e : Nat) : Option Nat := (List.range 1024).find? (fun c => !(s.port e).ctxs.any (fun x => x.id == c))

/-- The requests that wait at the forwarder for an egress port, the first of each ingress port and class. -/
def State.fwdHeads (s : State) (e : Nat) : List (Nat × FwdWait) :=
  (List.range 16).flatMap (fun n =>
    let ws := (s.port n).fwd.filter (fun w => w.egress == e)
    (List.range 4).filterMap (fun tc => (ws.find? (fun w => (slotTc w.slot).toNat == tc)).map (fun w => (n, w))))

/-- Whether a waiting request has what it needs of its egress port: its credits and a context (R215, R225). -/
def State.fwdFed (s : State) (e : Nat) (w : FwdWait) : Bool :=
  let tc := (slotTc w.slot).toNat
  s.hasTx e tc 0 1 && s.hasTx e tc 1 w.data.length && (s.freeCtx e).isSome

/-- Whether a waiting request can leave now: fed, and with room to be held for retry (R117, R217). -/
def State.fwdReady (s : State) (e : Nat) (w : FwdWait) : Bool :=
  s.fwdFed e w && s.canSend e && (s.port e).txData.isEmpty && decide ((s.port e).retry.held.length + max 1 w.data.length ≤ 256)

/-- A request leaves on its egress port with a context (R214, R215, R217). [DEDUCED, notes/assumptions/24.md] -/
def sendFwd (n e : Nat) (w : FwdWait) (s : State) : State :=
  match s.txn? n w.serial, s.freeCtx e with
  | some t, some c =>
    let tc := (slotTc w.slot).toNat
    let k := w.data.length
    let slot := slotPut w.slot 6 12 c
    let s := useTx e tc 1 k (useTx e tc 0 1 s)
    let s := match w.data with
      | [] => sendControl e [slot] s
      | d :: ds => ds.foldl (fun a x => sendFlit e ftData [] (some x) a) (sendFlit e ftData [slot] (some d) s)
    let s := s.modPort n (fun p => { p with fwd := p.fwd.filter (fun x => x.serial != w.serial) })
    let s := modTxn n w.serial (fun x => { x with dispatched := true }) s
    let s := giveBack n tc 1 k (giveBack n tc 0 1 s)
    s.modPort e (fun p => { p with ctxs := p.ctxs ++ [{ id := c, ingress := n, serial := w.serial, tag := slotTag t.slot, tc := slotTc t.slot, hop := slotHop t.slot, src := slotSrc t.slot, op := BitVec.ofNat 6 (slotOp t.slot), since := s.now, quarantined := false }] })
  | _, _ => s.modPort n (fun p => { p with fwd := p.fwd.filter (fun x => x.serial != w.serial) })

/-- The request at the head of its class has begun, or ceased, to wait for a credit or a context of its egress port (R132, R230). -/
def noteStarved (e : Nat) (x : Nat × FwdWait) (s : State) : State :=
  let tc := (slotTc x.2.slot).toNat
  let fed := s.fwdFed e x.2
  let s := s.modPort x.1 (fun p => { p with fwd := p.fwd.map (fun w =>
    if w.serial = x.2.serial then
      { w with starved := if fed then none else (match w.starved with | some t => some t | none => some s.now) }
    else w) })
  let s := if s.up e && !s.hasTx e tc 0 1 then stallOn e tc 0 s else s
  if s.up e && !s.hasTx e tc 1 x.2.data.length then stallOn e tc 1 s else s

/-- Requests leave on an egress port while they can, as the signpost table's arbiter grants them (R22, R23, R227); a coasting or
parked port wakes for them (R212). [DEDUCED, notes/assumptions/24.md] -/
def pumpFwd (e : Nat) : Nat → State → State
  | 0, s => s
  | fuel + 1, s =>
    let heads := s.fwdHeads e
    let txn (x : Nat × FwdWait) : Option Txn := s.txn? x.1 x.2.serial
    match arbPick s agentSignpost (fun x => match txn x with | some t => t.aged | none => false)
        (fun x => classRank (slotTc x.2.slot).toNat (match txn x with | some t => t.panic | none => false)) (fun x => x.1)
        (heads.filter (fun x => s.fwdReady e x.2)) with
    | some ((n, w), c) => pumpFwd e fuel (sendFwd n e w (sendFrom agentSignpost (sendFrom n (arbGranted agentSignpost c n s))))
    | none =>
      if heads.isEmpty then s
      else
        let s := heads.foldl (fun a x => noteStarved e x a) s
        if s.link e = lsCoast then startCoastExit e s
        else if s.link e = lsParked ∧ (List.range 8).all (fun p => (s.lane e p).exitDeadline.isNone) = true then startParkedExit e s
        else s

/-- Requests that wait for an egress port that is no longer usable meet the checks again (R212, R231). -/
def reroute (n : Nat) (s : State) : State :=
  let lost := ((s.port n).fwd.filter (fun w => !s.egressUsable w.egress)).map (fun w => w.serial)
  s.modPort n (fun p => { p with
    fwd := p.fwd.filter (fun w => !lost.contains w.serial)
    txns := p.txns.map (fun t => if lost.contains t.serial then { t with handed := 0 } else t) })

/-- Requests held in the promenade follow the map and the window until these lock (R37, R41, R43): their lines take their new places;
a request no longer served here is taken back, to meet the checks again. [DEDUCED, notes/assumptions/26.md] -/
def recheckHeld (n : Nat) (t : Txn) (s : State) : State :=
  let own : LineReq → Bool := fun r => r.owner == .port n t.serial
  if s.prom.any own then
    match s.recheck n t with
    | .serve => { s with prom := s.prom.map (fun r =>
        if own r then (match s.locate (lineLocal (slotLine t.slot + r.idx)) with | some l => { r with loc := l } | none => r) else r) }
    | .forward _ _ | .refuse _ _ =>
      let s := { s with prom := s.prom.filter (fun r => !own r) }
      if t.dead then s.modPort n (fun p => { p with txns := p.txns.filter (fun x => x.serial != t.serial) })
      else modTxn n t.serial (fun x => { x with handed := 0, dispatched := false }) s
  else s

/-- Every request held in the promenade before the lock. -/
def relocate (s : State) : State :=
  if s.on Fld.GLB_MAP_CTRL_LOCKED then s
  else forUpto 16 (fun n a => (a.port n).txns.foldl (fun b t => recheckHeld n t b) a) s

/-- Everything that can be dispatched, completed or forwarded now. -/
def pumpAll (s : State) : State :=
  let s := relocate (lateWrites s)
  let s := forUpto 16 (fun n a => if (a.port n).txns.isEmpty then a else dispatchPort n (reroute n a)) s
  let s := pumpMgmt s.mgmtWaits s
  let s := forUpto 16 (fun n a => if (a.port n).txns.isEmpty then a else fenceCheck n a) s
  let s := forUpto 16 (fun e a => if a.role e = 1 then pumpFwd e 64 a else a) s
  quietStep s

/-! ## Flits and slots received -/

/-- A request with its data slots, as a port accepts them: each data slot comes in a flit of its own, the first with the slot. -/
def recvTxn (n : Nat) (slot : BitVec 80) (data : List Line) (s : State) : State :=
  if s.up n then
    let s := s.modPort n (fun p => { p with idleSince := s.now })
    let s := takeSlots n 0 [slot] data.head? s
    pumpAll (data.tail.foldl (fun a d => if a.up n then takeSlots n 0 [] (some d) a else a) s)
  else s

/-- The ACK that a flit carries is applied (R113, R116). -/
def flitAck (n : Nat) (f : Flit) (s : State) : State :=
  if f.ackP then
    (match f.slots with | x :: _ => applyAck n (slotAckSeq x) s | [] => s)
  else s

/-- A flit is accepted (R113, R115, R146). -/
def acceptFlit (n : Nat) (f : Flit) (s : State) : State :=
  let s := flitAck n f s
  let s := s.wr (Fld.PRT_LINK_SEQ_RX_EXPECT n) ((s.expect n + 1) % 1024)
  let s := s.modPort n (fun p => { p with
    idleSince := s.now
    retry := { p.retry with
      unacked := p.retry.unacked + 1
      ackAt := match p.retry.ackAt with | some t => some t | none => some (s.now + tNs 100)
      askedFor := none
      askAgainAt := none
      sameAsk := none } })
  let s := if 2 * (s.rd (Fld.PRT_LINK_CTRL_ACK_COUNT n) + 1) ≤ (s.port n).retry.unacked then sendAck n s else s
  takeSlots n (s.flitTicks n 1) f.slots f.data s

/-- The partner's NULL with ACK after a recovery: what it acknowledges is freed, the rest of the held flits are sent again, and then
what has waited (R119, R123 step 4). -/
def recoveryNull (n : Nat) (f : Flit) (s : State) : State :=
  match f.slots with
  | x :: _ => pump n (resend n (freeAcked n (slotAckSeq x) (s.modTrain n (fun t => { t with awaitNull := false }))))
  | [] => s

/-- A flit is received whole (R111, R113). -/
def recvFlit (n : Nat) (bytes : List Byte) (s : State) : State :=
  if !flitCrcOk bytes then askReplay n (s.sat (Fld.PRT_LINK_CRC_ERR_COUNT n))
  else
    let f := flitOf bytes
    if flitProtoBad f then askReplay n (protoError n s)
    else if f.type.toNat = ftNull then
      let s := if f.ackP && (s.port n).train.awaitNull then recoveryNull n f s else flitAck n f s
      if f.seq.toNat = s.expect n then s else askReplay n s
    else if f.type.toNat = ftReplay then startReplay n f.seq.toNat s
    else
      let d := (f.seq.toNat + 1024 - s.expect n) % 1024
      if d = 0 then acceptFlit n f s
      else if d < 512 then askReplay n (flitAck n f s)
      else flitAck n f s

/-- The bits of a flit as they came in on each active lane, by its index: each lane's as on its pads, inverted where the pair is (R47).
Of a lane whose FIFO has slipped a word is lost, so that the bytes are no flit (R54). -/
def State.gathered (s : State) (n : Nat) (lanes : List (List Bool)) : List Byte :=
  let ps := positions (s.active n)
  if lanes.length = ps.length ∧ ps.all (fun p => !(s.lane n p).slipped) = true then
    gatherFlit ((ps.zip lanes).map (fun x => x.2.map (fun b => b ^^ s.on (Fld.PRT_LANE_STAT_RX_INV n x.1))))
  else []

/-- A flit is received on a port in LINK_UP (R10, R49, R113). -/
def execFlitReceive (n : PortId) (lanes : List (List Bool)) (s : State) : Out :=
  if s.up n then
    let bytes := s.gathered n lanes
    let s := forUpto 8 (fun p a => a.modLane n p (fun l => { l with slipped := false })) s
    .next (pumpAll (sendDone n (recvFlit n bytes s)))
  else .next s

/-- A CREDIT slot is received (R128): what has waited for it goes on. -/
def execCredit (n : PortId) (c : CreditSlot) (s : State) : Out :=
  if s.up n then .next (pumpAll (sendDone n (takeCredit n c (touch n s)))) else .next s

/-! ## Requests -/

/-- RD (R153). -/
def execRd (n : PortId) (r : MemReq) (s : State) : Out := .next (recvTxn n (encMem 0x01 r) [] s)
/-- WR (R154). -/
def execWr (n : PortId) (r : MemReq) (data : List Line) (s : State) : Out := .next (recvTxn n (encMem 0x02 r) data s)
/-- WRP (R155). -/
def execWrp (n : PortId) (r : MemReq) (s : State) : Out := .next (recvTxn n (encMem 0x03 r) [] s)
/-- WRM (R156). [DEDUCED, notes/assumptions/23.md] -/
def execWrm (n : PortId) (r : MemReq) (data : List Line) (s : State) : Out := .next (recvTxn n (encMem 0x04 r) data s)
/-- AT_SWAP (R159). -/
def execAtSwap (n : PortId) (r : MemReq) (data : List Line) (s : State) : Out := .next (recvTxn n (encMem 0x08 r) data s)
/-- AT_CAS (R159). -/
def execAtCas (n : PortId) (r : MemReq) (data : List Line) (s : State) : Out := .next (recvTxn n (encMem 0x09 r) data s)
/-- AT_ADD (R159). -/
def execAtAdd (n : PortId) (r : MemReq) (data : List Line) (s : State) : Out := .next (recvTxn n (encMem 0x0A r) data s)
/-- AT_AND (R159). -/
def execAtAnd (n : PortId) (r : MemReq) (data : List Line) (s : State) : Out := .next (recvTxn n (encMem 0x0B r) data s)
/-- AT_OR (R159). -/
def execAtOr (n : PortId) (r : MemReq) (data : List Line) (s : State) : Out := .next (recvTxn n (encMem 0x0C r) data s)
/-- AT_XOR (R159). -/
def execAtXor (n : PortId) (r : MemReq) (data : List Line) (s : State) : Out := .next (recvTxn n (encMem 0x0D r) data s)
/-- AT_SMAX (R159). -/
def execAtSmax (n : PortId) (r : MemReq) (data : List Line) (s : State) : Out := .next (recvTxn n (encMem 0x0E r) data s)
/-- AT_SMIN (R159). -/
def execAtSmin (n : PortId) (r : MemReq) (data : List Line) (s : State) : Out := .next (recvTxn n (encMem 0x0F r) data s)
/-- AT_UMAX (R159). -/
def execAtUmax (n : PortId) (r : MemReq) (data : List Line) (s : State) : Out := .next (recvTxn n (encMem 0x10 r) data s)
/-- AT_UMIN (R159). -/
def execAtUmin (n : PortId) (r : MemReq) (data : List Line) (s : State) : Out := .next (recvTxn n (encMem 0x11 r) data s)
/-- FENCE (R163, R164). -/
def execFence (n : PortId) (r : FenceReq) (s : State) : Out := .next (recvTxn n (encFence r) [] s)
/-- CFG_RD (R165 to R167). -/
def execCfgRd (n : PortId) (r : CfgReq) (s : State) : Out := .next (recvTxn n (encCfg 0x18 r) [] s)
/-- CFG_WR (R165 to R167): the value is in bytes 0 to 3 of the data slot. -/
def execCfgWr (n : PortId) (r : CfgReq) (v : Reg32) (s : State) : Out :=
  .next (recvTxn n (encCfg 0x19 r) [lineOf (leBytes 4 v.toNat)] s)
/-- A DOORBELL message in TC3 (R169, R170). [DEDUCED, notes/assumptions/24.md] -/
def execDoorbell (n : PortId) (v : BitVec 16) (s : State) : Out :=
  .next (recvTxn n (encMsg { tc := 3, value := v, data := false, mtype := 0 }) [] s)
/-- A message (R170), with a data slot when its DATA bit says so. -/
def execMsg (n : PortId) (r : MsgReq) (s : State) : Out :=
  .next (recvTxn n (encMsg r) (if r.data then [lineZero] else []) s)
/-- A request with a reserved opcode (R754); an opcode that is not one finds nothing. -/
def execReservedRequest (n : PortId) (op : BitVec 6) (tc : BitVec 2) (tag : BitVec 12) (s : State) : Out :=
  if op ≠ 0 ∧ op.toNat < 0x20 ∧ reqDefined op.toNat = false then .next (recvTxn n (encReserved op tc tag) [] s) else .next s

/-! ## Responses received on peer ports -/

/-- RD_DATA on a peer port (R216). -/
def execRdData (n : PortId) (r : RspSlot) (data : List Line) (s : State) : Out := .next (recvTxn n (encRsp 0x20 r) data s)
/-- CMP on a peer port (R216). -/
def execCmp (n : PortId) (r : RspSlot) (s : State) : Out := .next (recvTxn n (encRsp 0x21 r) [] s)
/-- AT_DATA on a peer port (R216). -/
def execAtData (n : PortId) (r : RspSlot) (data : List Line) (s : State) : Out := .next (recvTxn n (encRsp 0x22 r) data s)
/-- CFG_DATA on a peer port (R216). -/
def execCfgData (n : PortId) (r : RspSlot) (s : State) : Out := .next (recvTxn n (encRsp 0x23 r) [] s)
/-- A response with a reserved opcode (R175); an opcode that is not one finds nothing. -/
def execReservedResponse (n : PortId) (op : BitVec 6) (s : State) : Out :=
  if 0x24 ≤ op.toNat ∧ op.toNat < 0x38 then
    .next (recvTxn n (encRsp op { hop := 0, src := 0, status := 0, tc := 0, tag := 0, spec := 0 }) [] s)
  else .next s

/-! ## Responses sent (R146, R176, R179, R194) -/

/-- The data slots a ready response owns. -/
def ReadyRsp.owns (r : ReadyRsp) : Nat := r.data.length

/-- The first response, of those whose class has no earlier one, that its credits let go (R127, R179), once every data slot owed ahead
of it has been sent (R217).
[DEDUCED, notes/assumptions/21.md] -/
def State.pickRsp (s : State) (n : Nat) : Option ReadyRsp :=
  let p := s.port n
  let ok (r : ReadyRsp) : Bool :=
    let tc := r.slot.tc.toNat
    s.hasTx n tc 2 1 && p.txData.isEmpty && (r.data.isEmpty || s.hasTx n tc 1 1)
  ((List.range 4).filterMap (fun tc => p.ready.find? (fun r => r.slot.tc.toNat == tc))).foldl
    (fun (b : Option ReadyRsp) r =>
      if ok r then
        (match b with
         | none => some r
         | some x => if p.ready.idxOf r < p.ready.idxOf x then some r else some x)
      else b) none

/-- The latency of a request is measured with its first response slot (R560). -/
def measure (n : Nat) (r : ReadyRsp) (s : State) : State :=
  match s.txn? n r.serial with
  | none => s
  | some t =>
    if t.measured || slotOp t.slot == 0x14 then s
    else
      let s := modTxn n r.serial (fun x => { x with measured := true }) s
      if r.slot.status = stOk ∨ r.slot.status = stPoison then
        let op := slotOp t.slot
        let write := op == 0x02 || op == 0x03 || op == 0x04 || op == 0x19
        monSample (32 + n) ((s.now - t.at_ + tFab - 1) / tFab) (slotTc t.slot).toNat write (some t.forwarded.isSome) s
      else s

/-- What sending a response does besides the flit: its credit, its tag, and the changes of the port that waited for it (R138). -/
def rspSent (n : Nat) (r : ReadyRsp) (s : State) : State :=
  let s := useTx n r.slot.tc.toNat 2 1 (measure n r s)
  let s := s.modPort n (fun p => { p with ready := p.ready.erase r, txData := p.txData ++ r.data.map (fun d => { tc := r.slot.tc, data := d, via := r.via }) })
  let s := rspLeaves r.via r.slot.tc.toNat 1 0 s
  let s := if r.final then endTxn n r.serial s else s
  changesDue n (.cmp r.serial) s

/-- The next data slot of a port goes out with its DAT credit. [DEDUCED, notes/assumptions/21.md] -/
def takeTxData (n : Nat) (s : State) : Option Line × State :=
  match (s.port n).txData with
  | d :: rest =>
    let tc := d.tc.toNat
    if s.hasTx n tc 1 1 then
      (some d.data, rspLeaves d.via tc 0 1 (useTx n tc 1 1 (s.modPort n (fun p => { p with txData := rest }))))
    else (none, stallOn n tc 1 s)
  | [] => (none, s)

/-- One flit of responses goes out: a response slot that may go, and the data slot next in order (R146, R179).
[DEDUCED, notes/assumptions/21.md] -/
def sendRsp (n : Nat) (s : State) : State :=
  if s.canSend n then
    match s.pickRsp n with
    | some r =>
      let s := rspSent n r s
      match takeTxData n s with
      | (some d, s) => sendFlit n ftData [encRsp r.op r.slot] (some d) s
      | (none, s) => sendControl n [encRsp r.op r.slot] s
    | none =>
      match takeTxData n s with
      | (some d, s) => sendFlit n ftData [] (some d) s
      | (none, s) =>
        (s.port n).ready.foldl (fun a r =>
          let tc := r.slot.tc.toNat
          let a := if a.hasTx n tc 2 1 then a else stallOn n tc 2 a
          if !r.data.isEmpty && !a.hasTx n tc 1 1 then stallOn n tc 1 a else a) s
  else if s.link n = lsCoast ∧ (s.port n).ready ≠ [] then startCoastExit n s
  else s

/-- A ready response is sent (R179). [DESIGN CHOICE, notes/assumptions/12.md] -/
def execResponseSend (n : PortId) (s : State) : Out := .next (pumpAll (sendDone n (sendRsp n s)))

/-! ## Timeouts of the forwarder (R230 to R232) -/

/-- Whether something other than one forwarded request waits for a credit of a pool of a port (R132). -/
def State.poolWanted (s : State) (e tc kind serial ingress : Nat) : Bool :=
  (s.fwdHeads e).any (fun x => (slotTc x.2.slot).toNat == tc && !(x.1 == ingress && x.2.serial == serial)) ||
    (s.port e).msgs.any (fun m => m.tc.toNat == tc) ||
    (kind == 1 && ((s.port e).txData.any (fun d => d.tc.toNat == tc) || (s.port e).ready.any (fun r => r.slot.tc.toNat == tc && !r.data.isEmpty)))

/-- A request at the forwarder has waited 2^HOLD_TO µs for a credit or context of its egress port (R230): it is discarded, and with it
its wait for the pools (R132). -/
def execForwardHoldTimeout (n : PortId) (s : State) : Out :=
  let k := s.rd (Fld.PRT_POOL_CTRL_HOLD_TO n)
  match (s.port n).fwd.find? (fun w => w.starved.isSome) with
  | some w =>
    if k = 15 then .next s
    else
      let tc := (slotTc w.slot).toNat
      let s := (s.atLeast (w.starved.getD 0 + 2 ^ k * tUs)).modPort n (fun p => { p with fwd := p.fwd.erase w })
      let s := forUpto 2 (fun kind a => if a.poolWanted w.egress tc kind w.serial n then a else unstall w.egress tc kind a) s
      let s := giveBack n tc 1 w.data.length (giveBack n tc 0 1 s)
      let s := modTxn n w.serial (fun t => { t with dispatched := true, forwarded := none }) s
      .next (pumpAll (pathDown n w.serial s))
  | none => .next s

/-- A context of an egress port has waited 2^CTX_TO µs for its final response (R232).
[DESIGN CHOICE, notes/assumptions/2.md; DEDUCED, notes/assumptions/24.md] -/
def execContextTimeout (n : PortId) (ctx : BitVec 12) (s : State) : Out :=
  let k := s.rd (Fld.PRT_POOL_CTRL_CTX_TO n)
  match (s.port n).ctxs.find? (fun c => c.id == ctx.toNat) with
  | some c =>
    if k = 15 ∨ c.quarantined = true ∨ (s.port c.ingress).ready.any (fun r => r.serial == c.serial && r.final) = true ∨
        (s.port n).relay.any (fun r => r.ctx == c.id && r.owed == 0 && rspFinal (encRsp r.op r.slot)) = true then .next s
    else
      let s := (s.atLeast (c.since + 2 ^ k * tUs)).sat (Fld.PRT_POOL_REFUSED_CTX_TIMEOUT n)
      let s := s.modPort n (fun p => { p with
        ctxs := p.ctxs.map (fun x => if x.id = c.id then { x with quarantined := true } else x) })
      let s := modTxn c.ingress c.serial (fun t => { t with forwarded := none }) s
      .next (pumpAll (pathDown c.ingress c.serial s))
  | none => .next s

end Sys2Proof.Machine
end

