-- ==== Sys2Proof/Machine/Lines.lean ====
section
/-! DEFINITION. Lines on their way: the promenade's grants (R22 to R25, R269 to R271), read data that return (R188, R265, R343,
R350, R356, R360), read-modify-writes (R156, R159 to R161, R265), runtime sparing copies (R369), and the responses they make
ready (R153, R157). -/
namespace Sys2Proof.Machine
open Sys2Proof

/-! ## What a line brings its request (R153, R157, R174) -/

/-- The runs of an RD (R153): first line and length of each. -/
def State.runsOf (s : State) (t : Txn) : List (Nat × Nat) :=
  let pavAt (i : Nat) : Nat := match s.locate (lineLocal (slotLine t.slot + i)) with | some l => l.pav | none => 32
  ((List.range (reqLines t.slot)).foldl (fun (acc : List (Nat × Nat)) i =>
    match acc with
    | (f, k) :: rest => if k ≤ t.runMax ∧ pavAt i = pavAt (i - 1) then (f, k + 1) :: rest else (i, 1) :: acc
    | [] => [(i, 1)]) []).reverse

/-- The RD_DATA of a run whose lines are all back (R172, R174, R188). -/
def rdData (t : Txn) (ls : List LineBack) (first : Nat) (last peer : Bool) : ReadyRsp :=
  let poison := (ls.zipIdx).foldl (fun a e => a + b2n e.1.poison * 2 ^ e.2) 0
  let corr := ls.any (fun l => l.corr)
  let spec := first + (ls.length - 1) * 2 ^ 3 + b2n last * 2 ^ 6 + poison * 2 ^ 7 + b2n corr * 2 ^ 15
  { op := 0x20, slot := { cmpOf t (if poison = 0 then stOk else stPoison) peer with spec := BitVec.ofNat 49 spec },
    data := ls.map (fun l => l.data), serial := t.serial, final := last }

/-- The runs of an RD that are whole become RD_DATA (R153). -/
def readyRuns (n serial : Nat) (s : State) : State :=
  match s.txn? n serial with
  | none => s
  | some t0 =>
    (s.runsOf t0).foldl (fun a r =>
      match a.txn? n serial with
      | none => a
      | some t =>
        let ls := (List.range r.2).filterMap (fun j => t.back.find? (fun l => l.idx == r.1 + j))
        if ls.length = r.2 then
          let t' := { t with back := t.back.filter (fun l => decide (l.idx < r.1) || decide (r.1 + r.2 ≤ l.idx)),
                             answered := t.answered + r.2 }
          let s := modTxn n serial (fun _ => t') a
          answer n t' (rdData t' ls r.1 (decide (reqLines t.slot ≤ t'.answered)) (s.role n == 1)) s
        else a) s

/-- A line of an RD is back. -/
def lineRead (o : Owner) (b : LineBack) (bad : BitVec 8) (s : State) : State :=
  match o with
  | .port n serial => readyRuns n serial (modTxn n serial (fun t => { t with back := t.back ++ [b] }) s)
  | .bulk _ => bulkRead b.idx b.data bad s
  | .scrub => s

/-- A line of a WR, WRP or WRM has entered its write buffer; the last completes the request (R157). -/
def lineWritten (o : Owner) (idx : Nat) (poisoned : Bool) (s : State) : State :=
  match o with
  | .bulk _ => bulkWritten idx s
  | .scrub => s
  | .port n serial =>
    match s.txn? n serial with
    | none => s
    | some t =>
      let t := { t with done := t.done + 1, poisoned := t.poisoned || poisoned }
      let s := modTxn n serial (fun _ => t) s
      if reqLines t.slot ≤ t.done then complete n t (if t.poisoned then stPoison else stOk) s else s

/-- The AT_DATA of an atomic (R160, R161, R172). -/
def atomicDone (o : Owner) (status : BitVec 4) (old : Word64) (written corr : Bool) (s : State) : State :=
  match o with
  | .bulk _ => s
  | .scrub => s
  | .port n serial =>
    match s.txn? n serial with
    | none => s
    | some t =>
      let r : RspSlot := { cmpOf t status (s.role n == 1) with spec := BitVec.ofNat 49 (b2n written + 2 * b2n corr) }
      answer n t { op := 0x22, slot := r, data := [lineOf (leBytes 8 old.toNat)], serial := t.serial, final := true } s

/-! ## Grants (R22 to R25, R269) -/

/-- Request-table entries of TC0 in use (R269). -/
def State.tc0Used (s : State) (p : Nat) : Nat :=
  ((s.pav p).ents.filter (fun e => e.host && e.req.tc == 0 && !(e.st == .flying && e.req.op.isRead))).length

/-- What keeps a pavilion from admitting a line (R269), as the detail of the acceptance stall event.
[DESIGN CHOICE, notes/assumptions/27.md] -/
def State.noRoom (s : State) (p : Nat) (r : LineReq) : Option Nat :=
  let free := 512 - s.reqUsed p
  let table := if r.tc = 2 then decide (1 ≤ free) else decide (64 < free)
  let wr := !r.op.isRead
  let rd := r.op.isRead || r.op.isAtomic
  if !table then some 0
  else if r.tc == 0 && decide (s.rd (Fld.PAV_BUF_CTRL_TC0_MAX p) ≤ s.tc0Used p) then some 3
  else if wr && decide (768 ≤ s.wrUsed p) then some 1
  else if rd && decide (640 ≤ s.rdUsed p) then some 2
  else none

/-- The lines that wait for a pavilion, the first of each source and class (R24). -/
def State.promHeads (s : State) (p : Nat) : List LineReq :=
  let ls := s.prom.filter (fun r => r.loc.pav == p)
  ls.filter (fun r => (ls.find? (fun x => x.agent == r.agent && x.tc == r.tc)) == some r)

/-- The fabric cycle from which the source of a line can send it into the promenade (R21). -/
def State.lineFrom (s : State) (p : Nat) (r : LineReq) : Nat := tabGet 0 s.sentAt (sendKey r.agent p)

/-- The line that a pavilion's arbiter grants, of those whose source can send in this fabric cycle (R21 to R23).
[DESIGN CHOICE, notes/assumptions/27.md] -/
def State.pickLine (s : State) (p : Nat) : Option (LineReq × Nat) :=
  arbPick s p (fun r => r.promoted) (fun r => classRank r.tc.toNat r.panic) (fun r => r.agent)
    ((s.promHeads p).filter (fun r => (s.noRoom p r).isNone && decide (s.lineFrom p r ≤ s.now / tFab)))

/-- The fabric cycle in which the arbiter of a pavilion can grant a line it can admit: the present one, or the first in which a source
sends again (R21). -/
def State.grantCycle (s : State) (p : Nat) : Nat :=
  let cs := ((s.promHeads p).filter (fun r => (s.noRoom p r).isNone)).map (fun r => s.lineFrom p r)
  if cs.any (fun c => decide (c ≤ s.now / tFab)) then s.now / tFab else cs.foldl min (cs.headD 0)

/-- A line enters a pavilion (R22, R157, R257, R265, R269). -/
def enterPav (p : Nat) (r0 : LineReq) (s : State) : State :=
  let r := { r0 with id := s.nextId, since := s.now, promoted := false }
  let s := { s with nextId := s.nextId + 1 }
  let s := if r.panic then s.sat (Fld.PAV_PANIC_CNT_COUNT p) else s
  let s := s.modRank p (r.loc.bank / 16) (fun k => { k with lastUse := s.now })
  let e : Ent := { req := r, st := .waiting, aged := 0, words := Vector.replicate 8 0, host := true, level := 0, got := none }
  let add (e : Ent) (s : State) : State := s.modPav p (fun v => { v with ents := v.ents ++ [e] })
  match r.op with
  | .read => add e s
  | .write d m => lineWritten r.owner r.idx false (add { e with st := .buffered, words := encodeLine d m } s)
  | .masked d m =>
    if m = BitVec.allOnes 64 then lineWritten r.owner r.idx false (add { e with st := .buffered, words := encodeLine d 0 } s)
    else if m = 0 then lineWritten r.owner r.idx false s
    else add e s
  | .atomic _ _ _ _ => add e s

/-- Whether a pavilion grants lines at all: not while its reset is asked for, nor while its clock is gated (R687, R690). -/
def State.grants (s : State) (p : Nat) : Bool := !(s.pav p).resetAsked && !(s.pav p).gated

/-- The buffers of a line's source are free once the pavilion has admitted it: its data slots, and with its last line the request
slot (R25, R131). [DEDUCED, notes/assumptions/26.md] -/
def lineFrees (r : LineReq) (s : State) : State :=
  match r.owner with
  | .bulk _ => s
  | .scrub => s
  | .port n serial =>
    match s.txn? n serial with
    | none => s
    | some t =>
      if t.dead then s
      else
        let tc := (slotTc t.slot).toNat
        let s := giveBack n tc 1 (if slotOp t.slot = 0x02 then 1 else if r.idx = 0 then reqOwns t.slot else 0) s
        if reqLines t.slot ≤ t.handed ∧ s.prom.all (fun x => x.owner != r.owner) = true then giveBack n tc 0 1 s else s

/-- A pavilion's arbiter grants one line. [DEDUCED, notes/assumptions/26.md] -/
def grantPav (p : Nat) (s : State) : State :=
  if s.grants p then
    let s := s.atLeast (tFab * s.grantCycle p)
    match s.pickLine p with
    | some (r, c) =>
      let s := sendFrom (sendKey r.agent p) (arbGranted p c r.agent s)
      pavSettle p (lineFrees r (enterPav p r (lockMap { s with prom := s.prom.erase r })))
    | none => s
  else s

/-- A destination arbiter grants (R22): a line at a pavilion; elsewhere, what waits for the agent goes on.
[DESIGN CHOICE, notes/assumptions/12.md] -/
def execPromenadeGrant (dest : Agent) (s : State) : Out :=
  match dest with
  | .pav p => .next (pumpAll (grantPav p (pumpAll s)))
  | .port n => .next (pumpAll (pumpFwd n 64 s))
  | .mgmt => .next (pumpAll s)
  | .bulk => .next (pumpAll s)
  | .signpost => .next (pumpAll s)

/-- A request has waited 64 fabric cycles at its arbiter (R23): a line at its pavilion's, a request at the signpost table's or the
management agent's. -/
def execArbiterAgeLimit (rid : Nat) (s : State) : Out :=
  match s.prom.find? (fun r => r.id == rid) with
  | some r =>
    let s := s.atLeast (r.since + 64 * tFab)
    let mark : LineReq → LineReq := fun x => if x.id = rid then { x with promoted := true } else x
    .next { s with prom := s.prom.map mark }
  | none =>
    let waits (n : Nat) (t : Txn) : Bool := t.rid == rid && ((s.port n).fwd.any (fun w => w.serial == t.serial) || s.waitsMgmt n t)
    match (List.range 16).find? (fun n => (s.port n).txns.any (fun t => waits n t)) with
    | some n =>
      let at_ := match (s.port n).txns.find? (fun t => waits n t) with
        | some t => (match (s.port n).fwd.find? (fun w => w.serial == t.serial) with | some w => w.since | none => t.at_)
        | none => 0
      let s := s.atLeast (at_ + 64 * tFab)
      .next (s.modPort n (fun q => { q with txns := q.txns.map (fun t => if t.rid = rid then { t with aged := true } else t) }))
    | none => .next s

/-- A line has waited 1 µs without a grant (R271): the event, once for a line. [DESIGN CHOICE, notes/assumptions/27.md] -/
def execAcceptanceStallTimer (p : PavId) (s : State) : Out :=
  match s.prom.find? (fun r => r.loc.pav == p.val && !r.stalled) with
  | some r =>
    let s := s.atLeast (r.since + tUs)
    let mark : LineReq → LineReq := fun x => if x.id = r.id then { x with stalled := true } else x
    let s := { s with prom := s.prom.map mark }
    .next ((s.sat (Fld.PAV_SCHED_CNT_STALL p)).raise (evPav p 1) (match s.noRoom p r with | some k => k | none => 0))
  | none => .next s

/-- The bulk engine issues a line (R351): held requests follow the map before its first line locks it (R37). -/
def execBulkLineIssue (s : State) : Out :=
  let s := pumpAll s
  match s.bulk with
  | some b => .next (bulkIssue b s)
  | none => .next s

/-! ## Read data return -/

/-- The words of a line to be written back: corrected data with fresh check bits, uncorrectable words as the marker (R356). -/
def cleanWords (raw : RawLine) : RawLine :=
  let ds := decodeLine raw
  encodeLine (decodedData ds) (wordMask ds Decoded.bad)

/-- The read-return of a line that a request waits for. [DEDUCED, notes/assumptions/35.md] -/
def readBack (p : Nat) (e : Ent) (f : Flight) (raw : RawLine) (wb : Bool) (s : State) : State :=
  let ds := decodeLine raw
  let bad := wordMask ds Decoded.bad
  let corr := wordMask ds Decoded.fixed
  let s := if e.host then monSample p ((f.at_ - e.req.since) / tPav) e.req.tc.toNat false none s else s
  if e.req.op.isRead then
    let lv := s.ownLevel p e
    let back : Ent → Ent := fun x => if x.req.id = e.req.id then
        { x with st := .buffered, words := cleanWords raw, host := false, level := lv } else x
    let keep : List Ent → List Ent := fun es =>
      if wb then es.map back else es.filter (fun x => x.req.id != e.req.id)
    let s := s.modPav p (fun v => { v with ents := keep v.ents })
    let data := if f.fromBuf then decodedData (raw.toList.map (fun w => Decoded.clean (dataOf72 w))) else decodedData ds
    lineRead e.req.owner { idx := e.req.idx, pav := p, data := data, poison := bad != 0, corr := !f.fromBuf && corr != 0 } bad s
  else
    let g : Got := { raw := raw, data := decodedData ds, uncorr := bad, corr := corr }
    let merge : Ent → Ent := fun x => if x.req.id = e.req.id then { x with st := .merging, got := some g } else x
    s.modPav p (fun v => { v with ents := v.ents.map merge })

/-- Read data leave the ECC check stage (R188, R344, R352, R356, R360): the earliest read of the pavilion, with the cells that
read other than they were written. -/
def readReturn (p : Nat) (flips : RawLine) (s : State) : State :=
  match leastBy (fun f => [f.at_]) (s.pav p).flight with
  | none => s
  | some f =>
    let s := (s.atLeast f.at_).modPav p (fun v => { v with flight := v.flight.erase f })
    let raw := if f.fromBuf then f.raw else flipLine f.raw flips
    let (s, wb) := if f.fromBuf then (s, false) else accountLine p f.loc raw f.source s
    if f.source = .scrub then
      -- a line with a corrected word is written back by the step (R360)
      let back : Ent → Ent := fun x => if x.req.id = f.ent then { x with st := .buffered, words := cleanWords raw } else x
      s.modPav p (fun v => { v with ents := if wb then v.ents.map back else v.ents.filter (fun x => x.req.id != f.ent) })
    else
      match (s.pav p).ents.find? (fun e => e.req.id == f.ent) with
      | some e => readBack p e f raw wb s
      | none => s

/-- Read data return (R188). -/
def execReadDataReturn (p : PavId) (flips : RawLine) (s : State) : Out :=
  .next (pumpAll (drainStep p (pavSettle p (readReturn p flips s))))

/-! ## Read-modify-writes (R156, R159 to R161, R265, R266) -/

/-- A word of a WRM after the merge, and whether it is poisoned and whether that shows in the status.
[DEDUCED, notes/assumptions/23.md] -/
def mergeWord (g : Got) (d : Line) (mask : BitVec 64) (w : Fin 8) : Word64 × Bool × Bool :=
  let m := mask.extractLsb' (8 * w.val) 8
  let un := g.uncorr.getLsbD w.val
  if m = 0xFF then (d[w], false, false)
  else if m = 0 then (g.data[w], un, false)
  else if un then (0, true, true)
  else
    (BitVec.ofNat 64 (leNat ((List.range 8).map (fun b =>
      BitVec.ofNat 8 (bitsOf (if m.getLsbD b then (d[w]).toNat else (g.data[w]).toNat) (8 * b) 8)))), false, false)

/-- The line a WRM stores, its poisoned words, and whether the CMP carries POISON. -/
def mergeLine (g : Got) (d : Line) (mask : BitVec 64) : RawLine × Bool :=
  let r (w : Fin 8) := mergeWord g d mask w
  (Vector.ofFn (fun w : Fin 8 => if (r w).2.1 then poison72 else encode72 (r w).1),
   (List.finRange 8).any (fun w => (r w).2.2))

/-- The line an atomic stores (R160): the addressed word as given. -/
def atomicLine (g : Got) (word : Nat) (v : Word64) : RawLine :=
  Vector.ofFn (fun w : Fin 8 =>
    if w.val = word then encode72 v
    else if g.uncorr.getLsbD w.val then poison72 else encode72 g.data[w])

/-- The merge or operation of a read-modify-write, its entry in the write buffer and its response. An atomic whose word is
uncorrectable stores nothing (R161).
[DEDUCED, notes/assumptions/23.md] -/
def rmwDone (p : Nat) (e : Ent) (g : Got) (s : State) : State :=
  let put (w : RawLine) (s : State) : State := s.modPav p (fun v => { v with ents := v.ents.map (fun x =>
    if x.req.id = e.req.id then { x with st := .buffered, words := w, got := none } else x) })
  match e.req.op with
  | .read => s
  | .write _ _ => s
  | .masked d m =>
    let r := mergeLine g d m
    lineWritten e.req.owner e.req.idx r.2 (put r.1 s)
  | .atomic op word a c =>
    let old := (g.data.toList.getD word 0)
    if g.uncorr.getLsbD word then
      atomicDone e.req.owner stPoison 0 false false
        (s.modPav p (fun v => { v with ents := v.ents.filter (fun x => x.req.id != e.req.id) }))
    else
      let new := atomicNew op old a c
      let v := match new with | some x => x | none => old
      atomicDone e.req.owner stOk old new.isSome (g.corr.getLsbD word) (put (atomicLine g word v) s)

/-- A read-modify-write reaches its encode step, two pavilion cycles after its data (R265, R266). -/
def execRmwComplete (p : PavId) (s : State) : Out :=
  match (s.pav p).ents.find? (fun e => e.st == .merging) with
  | some e =>
    match e.got with
    | some g => .next (pumpAll (drainStep p (pavSettle p (rmwDone p e g (s.atLeast (s.now + 2 * tPav))))))
    | none => .next s
  | none => .next s

/-! ## Runtime sparing copies (R369, R757) -/

/-- A line of a copy as it goes to the spare: that of the write buffer, else what its cells read, decoded; fresh check bits, uncorrectable
words as the marker. -/
def copyWords (l : RawLine × Bool) (flips : RawLine) : RawLine := if l.2 then l.1 else cleanWords (flipLine l.1 flips)

/-- The running copy with the lines it has still to read. -/
def copyRest (p : Nat) (c : Copy) (s : State) : List (RawLine × Bool) :=
  c.lines ++ ((List.range 32).drop c.lines.length).map (fun col =>
    let l : Loc := { pav := p, bank := c.bank, row := c.row, col := col }
    match s.bufferedAt l with | some e => (e.words, true) | none => (s.readLine l, false))

/-- When a copy is over: its commands take 280 cycles from its first activate to the last precharge when nothing else takes their slots
(R252, R369). -/
def State.copyOver (s : State) (p : Nat) (c : Copy) : Nat :=
  if c.wrote = 32 ∧ (s.bank p c.bank).open_ = none then s.now else max (c.since + tPav * 280) (s.earliestPre p c.bank)

/-- A sparing copy finishes (R369): the row's lines are in the spare, which serves the row from now on. `flips` are the cells of
each column that read other than they were written. -/
def execSparingCopyDone (p : PavId) (flips : List RawLine) (s : State) : Out :=
  match (s.pav p).copies with
  | c :: rest =>
    if c.running then
      let s := s.atLeast (s.copyOver p c)
      let dest := physOfSpare c.spare
      let s := (copyRest p c s).zipIdx.foldl (fun a e =>
        writePhys p c.bank dest e.2 (copyWords e.1 (flips.getD e.2 (Vector.replicate 8 0))) a) s
      let s := if (s.bank p c.bank).open_.isSome then closeBank p c.bank s.now s else s
      let s := switchRow p c.bank c.row c.spare (s.modPav p (fun v => { v with copies := rest }))
      let s := match c.mbx with | some m => s.finish m ccOk [0] | none => s
      .next (pumpAll (drainStep p (pavSettle p s)))
    else .next s
  | [] => .next s

/-- A read of PAV_ECC_LOG_3 (R375). -/
def execEccLog3Read (src : Source) (p : PavId) (s : State) : Out := cfgRead src (Off.PAV_ECC_LOG_3 p) s

end Sys2Proof.Machine
end

