-- ==== Sys2Proof/Machine/Boot.lean ====
section
/-! DEFINITION. Supplies, resets and start-up (R497, R593, R678, R685 to R687, R697 to R705, R731, R732), and the test port
(R742, R743). -/
namespace Sys2Proof.Machine
open Sys2Proof

/-! ## Start-up steps 1 and 2 (R697, R701) -/

/-- A start begins (R697 step 2): a fresh challenge is drawn, the core PLLs start to lock. -/
def beginStart (s : State) : State :=
  let s := drawChallenge s
  let s := { s with power := { s.power with boot := .pll 0, startNum := s.power.startNum + 1, readyAt := s.now } }
  noteIdentity (s.wr Fld.GLB_BOOT_STAT_PHASE 1)

/-- The rails have been within limits for 1 ms (R731): the straps are sampled (R646), the TAP is reset (R743) and the power-on
read begins. [DESIGN CHOICE, notes/assumptions/4.md] -/
def execPowerOnReset (strap : BitVec 2) (s : State) : Out :=
  if s.power.boot = .off then
    let s := { s with power := { s.power with
      boot := .reading false
      strap := strap
      riseAt := s.now
      tapIr := 0x01
      tapHold := false } }
    .next (((s.wr Fld.SB_STAT_ADDR (0x4C + strap.toNat)).wr Fld.OTP_STAT_SUPPLY (b2n s.otp.supply)).wr Fld.GLB_BOOT_STAT_PHASE 0)
  else .next s

/-- What is left when a rail fails (R732): the fuses, the levels of the pins, the time. DRAM contents are lost. -/
def powerLost (s : State) : State :=
  let o := s.otp
  { State.reset with
    pending := s.pending
    now := s.now
    freeIdx := s.freeIdx
    epoch := s.epoch + 1
    otp := { Otp.reset with words := o.words, spares := o.spares, redir := o.redir, df0 := o.df0, df1 := o.df1, df2 := o.df2,
                            secret := o.secret, arb := o.arb, supply := o.supply }
    power := { Power.reset with resetN := s.power.resetN, refclk := s.power.refclk } }

/-- A rail stays below 92 % of nominal for more than 2 µs (R732). -/
def execSupplyDip (s : State) : Out := if s.power.boot = .off then .next s else .next (powerLost s)

/-- The power-on read ends (R593): its values are latched, and the start begins once RESET_N is high. -/
def execOtpPowerOnReadDone (marginals : List (MarginKind × Nat)) (tb : BitVec 16) (s : State) : Out :=
  match s.power.boot with
  | .reading true =>
    let s := loadFused (readArray marginals tb.toNat s)
    .next (if s.power.resetN then beginStart s else { s with power := { s.power with boot := .cold } })
  | _ => .next s

/-- The core PLLs lock (R697): DRAM initialisation and the boot of Omuis-R begin, the first thermal round and the first turn
begin, and the ports train. [DEDUCED, notes/assumptions/33.md] -/
def execCorePllLock (s : State) : Out :=
  match s.power.boot with
  | .pll _ =>
    if s.power.refclk then
      let s := { s with
        power := { s.power with boot := .dram false }
        sb := { s.sb with running := true, idleSince := s.now }
        cad := { Cadence.reset with t0 := s.cadNow } }
      let s := (romFirmware (coreStart (thermStart (s.wr Fld.GLB_BOOT_STAT_PHASE 2)))).wr Fld.GLB_FW_STAT_READY 0
      let s := forUpto 32 (fun p a => reseed p (a.modPav p (fun v => { v with startAt := a.now, lfsrAt := a.now }))) s
      .next (forUpto 16 (fun n a => startTraining n a) s)
    else .next s
  | _ => .next s

/-- A core PLL has not locked within 50 µs (R701): two retries, then the start has failed. -/
def execCorePllLockTimeout (s : State) : Out :=
  match s.power.boot with
  | .pll k =>
    let s := s.atLeast (s.power.readyAt + 50 * tUs)
    if k < 2 then .next { s with power := { s.power with boot := .pll (k + 1), readyAt := s.now } }
    else
      let s := { s with
        power := { s.power with boot := .failed }
        sb := { s.sb with running := true, idleSince := s.now } }
      .next (((s.wr Fld.GLB_BOOT_STAT_PHASE 15).wr Fld.GLB_FW_STAT_IMAGE 0).wr Fld.GLB_FW_STAT_READY 0)
  | _ => .next s

/-- The core dies are powered up and their trims loaded (R697 step 3): the ranks enter FORCED. -/
def execDramInitDone (s : State) : Out :=
  if s.power.boot = .dram false then
    let s := forUpto 32 (fun p a => forUpto 4 (fun r b => rankForced p r b) a) s
    .next (beginCertWindow { s with power := { s.power with boot := .dram true } })
  else .next s

/-! ## Start-up step 5: certificate, repair map, held repairs (R367, R415, R704) -/

/-- An entry of the repair map is listed in the start-up record and not applied. -/
def skipEntry (i : Nat) (s : State) : State := { s with test := { s.test with skipped := s.test.skipped ++ [i] } }

/-- An entry of the repair map is applied. -/
def countEntry (s : State) : State := { s with test := { s.test with mapApplied := s.test.mapApplied + 1 } }

/-- A row is served by a spare from the start on. -/
def startSpare (p b row j : Nat) (runtime : Bool) (s : State) : State :=
  s.modPav p (fun v => { v with
    spared := v.spared.filter (fun x => !(x.bank == b && x.row == row)) ++ [{ bank := b, row := row, spare := j, runtime := runtime }] })

/-- A spare is marked unusable at start-up, without an event. -/
def markSpare (p b j : Nat) (s : State) : State :=
  if (s.pav p).badSpares.contains (b, j) then s else s.modPav p (fun v => { v with badSpares := v.badSpares ++ [(b, j)] })

/-- The lowest usable free fuse spare of a bank, else the lowest usable free runtime spare (R367). -/
def State.fuseSpare (s : State) (p b : Nat) : Option Nat :=
  match (List.range 64).find? (fun j => j % 8 != 7 && s.spareFree p b j) with
  | some j => some j
  | none => (List.range 64).find? (fun j => j % 8 == 7 && s.spareFree p b j)

/-- Pavilion and bank of a repair entry (R366). -/
def entryPav (w : Nat) : Nat := bitsOf w 25 5
def entryBank (w : Nat) : Nat := bitsOf w 19 6

/-- Whether a special entry is one the layout of R366 defines. -/
def specialOk (w : Nat) : Bool := decide (bitsOf w 16 3 ≤ 1) && bitsOf w 6 10 == 0

/-- An "unusable spare" entry is marked first (R367). -/
def entryMarks (w : Nat) (s : State) : State :=
  if bitsOf w 30 2 = 3 ∧ specialOk w = true ∧ bitsOf w 16 3 = 1 then markSpare (entryPav w) (entryBank w) (bitsOf w 0 6) s else s

/-- One entry of the repair map is applied, or listed (R367). [DEDUCED, notes/assumptions/38.md] -/
def entryApply (i w : Nat) (bad : Bool) (s : State) : State :=
  let p := entryPav w
  let b := entryBank w
  if bad then skipEntry i s
  else if bitsOf w 30 2 = 1 then
    let row := bitsOf w 4 15
    if bitsOf w 0 4 ≠ 0 ∨ (s.spareOf p b row).isSome = true then skipEntry i s
    else
      match s.fuseSpare p b with
      | some j => countEntry (startSpare p b row j false s)
      | none => retireStart p 2 (skipEntry i s)
  else if bitsOf w 30 2 = 2 then
    let q := bitsOf w 12 7
    let c := bitsOf w 7 5
    let of := (s.pav p).cols.filter (fun x => x.1 == b)
    if 71 < q ∨ bitsOf w 0 7 ≠ 0 ∨ of.contains (b, q, c) = true then skipEntry i s
    else if 4 ≤ of.length then retireStart p 2 (skipEntry i s)
    else countEntry (s.modPav p (fun v => { v with cols := v.cols ++ [(b, q, c)] }))
  else if bitsOf w 30 2 = 3 then
    if specialOk w then countEntry (if bitsOf w 16 3 = 0 then retireStart p 1 s else s) else skipEntry i s
  else s

/-- The repair map as latched: the entries that are not empty, in ascending order, with those whose word is uncorrectable. -/
def State.mapEntries (s : State) : List (Nat × Nat × Bool) :=
  ((List.range 6144).map (fun i => (i, (s.otpWord (0x480 + i)).toNat, s.otp.badWords.contains (0x480 + i)))).filter
    (fun e => e.2.2 || e.2.1 != 0)

/-- The repair map is applied (R367). [DEDUCED, notes/assumptions/38.md] -/
def applyMap (s : State) : State :=
  let es := s.mapEntries
  let s := es.foldl (fun a e => if e.2.2 then a else entryMarks e.2.1 a) s
  es.foldl (fun a e => entryApply e.1 e.2.1 e.2.2 a) s

/-- An accepted certificate retires pavilions, marks lanes, ports and spares (R415). [DEDUCED, notes/assumptions/38.md] -/
def applyCert (s : State) : State :=
  let h := s.certByte 0 128
  let n := leAt h 100 2
  let u := leAt h 102 2
  let s := forUpto 32 (fun p a => if bitAt (leAt h 76 4) p then retireStart p 6 a else a) s
  let s := forUpto 128 (fun l a => if bitAt (leAt h 84 16) l then a.modLane (l / 8) (l % 8) (fun x => { x with bad := true }) else a) s
  let s := forUpto 16 (fun k a =>
    if bitAt (leAt h 80 2) k then markDown k (a.rd (Fld.PRT_LINK_STAT_CAUSE k)) a else a) s
  forUpto u (fun i a =>
    let w := leNat (a.certByte (128 + 4 * (n + i)) 4)
    markSpare (entryPav w) (entryBank w) (bitsOf w 0 6) a) s

/-- A row takes a spare under R368 at start-up; a bank without one retires its pavilion (R415). -/
def startTake (p b row : Nat) (s : State) : State :=
  match s.takeSpare p b with
  | some j => { startSpare p b row j true s with test := { s.test with heldApplied := s.test.heldApplied + 1 } }
  | none => retireStart p 2 s

/-- The rows of an accepted certificate take their spares, after the fuse entries (R415). -/
def applyCertSpares (s : State) : State :=
  forUpto (leNat (s.certByte 100 2)) (fun i a =>
    let w := leNat (a.certByte (128 + 4 * i) 4)
    let p := entryPav w
    let b := entryBank w
    let row := bitsOf w 4 15
    if (a.spareOf p b row).isSome then a else startTake p b row a) s

/-- The held repair state is applied (R704): a row keeps the spare that holds its data; what the certificate has applied is
skipped. [DESIGN CHOICE, notes/assumptions/36.md; DEDUCED, notes/assumptions/38.md] -/
def applyHeld (s : State) : State :=
  let held := s.test.heldSpares
  let mask := s.test.heldRetired.toNat
  let s := { s with test := { s.test with heldSpares := [], heldRetired := 0 } }
  let s := held.foldl (fun a e =>
    let p := e.1
    let x := e.2
    if (a.pav p).spared.any (fun y => y.bank == x.bank && y.row == x.row && y.runtime) then a
    else if a.spareFree p x.bank x.spare then
      { startSpare p x.bank x.row x.spare true a with test := { a.test with heldApplied := a.test.heldApplied + 1 } }
    else startTake p x.bank x.row a) s
  forUpto 32 (fun p a => if bitAt mask p then retireStart p 7 a else a) s

/-- The policy of the start-up test (R410, R415): CERT_SUBMIT's, else an accepted certificate's, else the direct field's.
[DEDUCED, notes/assumptions/38.md] -/
def State.startPolicy (s : State) : Nat :=
  let next := leNat (s.certByte 74 1)
  match s.test.submitted with
  | some (_, k) =>
    if k ≤ 2 then k else if s.test.certResult = 0 ∧ next ≤ 2 then next else s.rd Fld.GLB_FEATURES_POLICY
  | none => s.rd Fld.GLB_FEATURES_POLICY

/-- Start-up step 5 ends (R697): certificate, repair map and held repairs are applied, GLB_PARK_SEQ is loaded (R412), and the
start-up test is due. [DEDUCED, notes/assumptions/38.md] -/
def execCertCheckDone (s : State) : Out :=
  if s.power.boot = .certCheck then
    let r := match s.test.submitted with | some _ => s.test.certResult | none => 5
    let s := { s with test := { s.test with certResult := r, mapApplied := 0, heldApplied := 0, skipped := [] } }
    let s := if r = 0 then applyCert (s.raise (1008 + 2) (min 255 (leNat (s.certByte 100 2))))
      else if r = 5 then s else s.raise (1008 + 3) r
    let s := applyMap s
    let s := if r = 0 then applyCertSpares s else s
    let s := applyHeld s
    let (e, s) := s.drawEntropy
    let s := s.wr Fld.GLB_PARK_SEQ_S
      (if r = 0 then (leNat (s.certByte 56 4) + 1) % 2 ^ 32 else (e.extractLsb' 0 32).toNat)
    let s := (s.wr Fld.GLB_BIST_STAT_CERT (if r = 5 then 0 else r + 1)).wr Fld.GLB_BIST_STAT_POLICY s.startPolicy
    let s := { s with
      power := { s.power with boot := .test, testAt := s.now }
      test := { s.test with step := 1, startRunning := true, sampleS := (e.extractLsb' 32 6).toNat } }
    .next (startTest (s.wr Fld.GLB_BOOT_STAT_PHASE 5))
  else .next s

/-! ## Start-up step 7 (R305, R703, R705) -/

/-- The banks left with no usable spare. -/
def State.banksOut (s : State) : Nat :=
  (List.range 2048).foldl (fun a k => a + b2n ((s.takeSpare (k / 64) (k % 64)).isNone)) 0

/-- The start-up record (R705). -/
def State.startRecord (s : State) : List Byte :=
  let t := s.test
  let flags := b2n s.partitioned + 2 * b2n s.halted + 8 * b2n s.otp.journalEarly + 16 * b2n (s.on Fld.OTP_STAT_KEY_MARGINAL) +
    32 * b2n s.keyLost + 64 * b2n (s.on Fld.THM_STAT_FALLBACK)
  let listed := t.skipped.take 64
  leBytes 2 1 ++ leBytes 2 (160 + 2 * listed.length) ++ leBytes 4 s.power.startNum ++
    [BitVec.ofNat 8 (s.rd Fld.GLB_RST_STAT_CAUSE), BitVec.ofNat 8 (s.rd Fld.GLB_BIST_STAT_POLICY), BitVec.ofNat 8 t.certResult,
     BitVec.ofNat 8 t.startBits.toNat, BitVec.ofNat 8 flags,
     if s.otp.journalEarly then s.otp.journalEnd.getD 0 else 0] ++
    leBytes 2 (s.rd Fld.OTP_MARGIN_STAT_COUNT) ++ leBytes 4 s.retiredNow ++ leBytes 2 s.portsDown ++ leBytes 2 s.portsUp ++
    leBytes 16 s.lanesBad ++ leBytes 8 s.stamp.toNat ++ leBytes 4 ((s.now - s.power.riseAt) / tMs) ++ leBytes 4 s.power.testMs ++
    leBytes 2 t.mapApplied ++ leBytes 2 t.heldApplied ++ leBytes 2 t.skipped.length ++ leBytes 2 s.banksOut ++
    (List.range 32).map (fun p => BitVec.ofNat 8 (tabGet 0 t.retireCause p)) ++ leBytes 2 (s.rd Fld.THM_TDRAM_TEMP) ++
    [BitVec.ofNat 8 (s.rd Fld.THM_STAT_BAND)] ++ zeros 61 ++ listed.flatMap (fun i => leBytes 2 i)

/-- Start-up step 7 ends: the record is complete and held requests are dispatched. The default refresh windows of R305 are
the reset values of the registers, so a start in which the host has set no window has nothing to write. -/
def execStartupDone (s : State) : Out :=
  if s.power.boot = .finish then
    let s := { s with
      test := { s.test with record := s.startRecord }
      power := { s.power with boot := .done, doneAt := some s.now, recovDone := false } }
    .next (pumpAll (s.wr Fld.GLB_BOOT_STAT_DONE 1))
  else .next s

/-- The recovery wait ends (R703): with no host port up, port 0 retrains with X1 = 1, and the record says so.
[DEDUCED, notes/assumptions/58.md] -/
def execRecovWaitExpiry (s : State) : Out :=
  match s.power.doneAt with
  | none => .next s
  | some t =>
    let wait := s.rd Fld.GLB_BOOT_CTRL_RECOV_WAIT
    if s.power.recovDone = true ∨ wait = 0 ∨ s.power.boot ≠ .done then .next s
    else
      let s := s.atLeast (t + wait * (100 * tMs))
      let s := { s with power := { s.power with recovDone := true } }
      let up := (List.range 16).any (fun n => s.portEnabled n && s.role n == 0 && (s.port n).train.hasLink)
      if up ∨ s.portEnabled 0 = false ∨ s.role 0 ≠ 0 then .next s
      else
        let flag : List Byte := [(s.test.record.getD 12 0) ||| 4]
        let s := { s with test := { s.test with record := s.test.record.take 12 ++ flag ++ s.test.record.drop 13 } }
        .next (startTraining 0 (s.modTrain 0 (fun k => { k with x1 := true })))

/-! ## Cold reset (R678, R685, R686) -/

/-- The runtime spares and running retirements held in the stack (R372, R704). -/
def State.heldNow (s : State) : List (Nat × Spared) :=
  s.test.heldSpares ++ (List.range 32).flatMap (fun p => ((s.pav p).spared.filter (fun x => x.runtime)).map (fun x => (p, x)))

/-- A programming sequence is cut by a cold reset: its journal ends early, with an end cause the spec does not state.
[DEDUCED, notes/assumptions/53.md] -/
def cutSequence (s : State) : State :=
  match s.otp.prog with
  | none => s
  | some _ =>
    let (v, s) := s.drawFree
    { s with otp := { s.otp with
      prog := none
      journal := s.otp.journal.map (fun (e : FuseItem × JStatus) => if e.2 = JStatus.pending then (e.1, JStatus.notReached) else e)
      journalEnd := some (v.extractLsb' 0 8)
      journalEarly := true } }

/-- A pavilion after a cold reset keeps what its spares and column groups hold until power is removed. -/
def coldPav (v : Pav) : Pav :=
  { Pav.reset with badSpares := v.badSpares, leftSpares := v.leftSpares, exhausted := v.exhausted }

/-- What a cold reset keeps of the registers: the OTP block, GLB_RST_STAT, and the counts of the repair state (R371, R372, R685).
[DEDUCED, notes/assumptions/60.md] -/
def keptReg (off : Nat) : Bool := (decide (0x3000 ≤ off) && decide (off < 0x4000)) || off == 0xD10

/-- A cold reset takes effect (R685): everything but what it keeps is reset, and the fused values are loaded.
[DEDUCED, notes/assumptions/57.md] -/
def coldReset (cause : Nat) (s : State) : State :=
  let s := cutSequence s
  let held := s.heldNow
  let gone := s.runRetired
  let used := (List.range 32).map (fun p => (p, s.rd (Fld.PAV_REPAIR_STAT_RUNTIME_USED p), s.rd (Fld.PAV_REPAIR_STAT_EXHAUSTED p)))
  let t := s.test
  let w := s.power
  let s : State := { State.reset with
    pending := s.pending
    now := s.now
    freeIdx := s.freeIdx
    epoch := s.epoch
    nextId := s.nextId
    regs := s.regs.filter (fun e => keptReg e.1)
    dram := s.dram
    pavs := (List.range 32).foldl (fun u p => tabSet Pav.reset u p (coldPav (s.pav p))) []
    staging := s.staging
    stagingHigh := s.stagingHigh
    otp := s.otp
    power := { Power.reset with boot := .cold, resetN := w.resetN, refclk := w.refclk, startNum := w.startNum, riseAt := w.riseAt,
                                strap := w.strap, tapIr := w.tapIr, tapHold := w.tapHold }
    test := { Test.reset with certBytes := t.certBytes, parkCert := t.parkCert, record := t.record, heldSpares := held,
                              heldRetired := gone } }
  let s := used.foldl (fun a e => (a.wr (Fld.PAV_REPAIR_STAT_RUNTIME_USED e.1) e.2.1).wr (Fld.PAV_REPAIR_STAT_EXHAUSTED e.1) e.2.2) s
  let s := (s.wr Fld.SB_STAT_ADDR (0x4C + w.strap.toNat)).wr Fld.OTP_STAT_BUSY 0
  loadFused (s.wr Fld.GLB_RST_STAT_CAUSE cause)

/-- After a cold reset the start begins once RESET_N is high and, after a loss, REFCLK is back. -/
def afterCold (s : State) : State :=
  if s.power.resetN ∧ (s.rd Fld.GLB_RST_STAT_CAUSE ≠ 2 ∨ s.power.refclk = true) then beginStart s else s

/-- A read-modify-write that has begun is finished in the reset drain (R686); a read not issued is dropped. -/
def drainEnt (p : Nat) (e : Ent) (s : State) : State :=
  match e.st with
  | .merging => (match e.got with | some g => rmwDone p e g s | none => s)
  | .flying =>
    (match (s.pav p).flight.find? (fun f => f.ent == e.req.id) with
     | some f =>
       let ds := decodeLine f.raw
       rmwDone p e { raw := f.raw, data := decodedData ds, uncorr := wordMask ds Decoded.bad, corr := wordMask ds Decoded.fixed } s
     | none => s)
  | .waiting => s
  | .buffered => s

/-- The reset drain of a pavilion (R686): what its DRAM holds at the end. [DEDUCED, notes/assumptions/57.md] -/
def resetDrain (p : Nat) (s : State) : State :=
  let s := match (s.pav p).slice with | some x => restoreSlice p x s | none => s
  flushPav p ((s.pav p).ents.foldl (fun a e => drainEnt p e a) s)

/-- A reset drain begins (R686): links go down, responses not sent are discarded, lines that no pavilion holds are dropped.
[DEDUCED, notes/assumptions/57.md] -/
def beginDrain (cause : Nat) (s : State) : State :=
  let s := { s with power := { s.power with drain := some cause } }
  let s := forUpto 16 (fun n a => linkDown n 1 a) s
  { s with prom := [], bulk := none }

/-- Whether a cold reset needs no drain (R686): in Sleep, or before start-up has initialised the DRAM. -/
def State.noDrain (s : State) : Bool :=
  s.power? == psSleep ||
    (match s.power.boot with
     | .pll _ => true
     | .failed => true
     | .dram d => !d
     | .off => false
     | .reading _ => false
     | .cold => false
     | .certWindow => false
     | .certCheck => false
     | .test => false
     | .finish => false
     | .done => false)

/-- A cold reset begins with a cause (R685, R686). [DEDUCED, notes/assumptions/57.md] -/
def beginCold (cause : Nat) (s : State) : State :=
  if s.power.drain.isSome then s
  else
    let s := s.sat (if cause = 1 then Fld.GLB_RST_STAT_COLD else Fld.GLB_RST_STAT_REFCLK)
    if s.noDrain then afterCold (coldReset cause s) else beginDrain cause s

/-- RESET_N has been low for 125 oscillator samples (R685, R737). [DEDUCED, notes/assumptions/57.md] -/
def execResetNLow (s : State) : Out :=
  if s.power.tapHold ∨ s.power.resetN = false then .next s
  else
    let s := { s with power := { s.power with resetN := false } }
    match s.power.boot with
    | .off => .next s
    | .reading _ => .next s
    | .cold => .next s
    | .pll _ => .next (beginCold 1 s)
    | .dram _ => .next (beginCold 1 s)
    | .certWindow => .next (beginCold 1 s)
    | .certCheck => .next (beginCold 1 s)
    | .test => .next (beginCold 1 s)
    | .finish => .next (beginCold 1 s)
    | .done => .next (beginCold 1 s)
    | .failed => .next (beginCold 1 s)

/-- RESET_N rises (R697): the count of ELAPSED starts, and step 2 begins unless the power-on read or a drain goes on. -/
def execResetNRise (s : State) : Out :=
  if s.power.tapHold ∨ s.power.resetN = true then .next s
  else
    let s := { s with power := { s.power with resetN := true, riseAt := s.now } }
    .next (if s.power.boot = .cold then afterCold s else s)

/-- The reset drain ends (R686): every rank is in self-refresh and the cold reset takes effect. -/
def execResetDrainDone (s : State) : Out :=
  match s.power.drain with
  | some c => .next (afterCold (coldReset c (forUpto 32 (fun p a => resetDrain p a) s)))
  | none => .next s

/-- REFCLK is absent for more than 1 µs (R678): in Run, Rest and Hold a cold reset with cause 2; in Sleep it may stop.
[DEDUCED, notes/assumptions/57.md] -/
def execRefclkLoss (s : State) : Out :=
  let s := { s with power := { s.power with refclk := false } }
  match s.power.boot with
  | .off => .next s
  | .reading _ => .next s
  | .cold => .next s
  | .failed => .next s
  | .pll _ => .next (beginCold 2 s)
  | .dram _ => .next (beginCold 2 s)
  | .certWindow => .next (beginCold 2 s)
  | .certCheck => .next (beginCold 2 s)
  | .test => .next (beginCold 2 s)
  | .finish => .next (beginCold 2 s)
  | .done => .next (if s.power? = psSleep then s else beginCold 2 s)

/-- REFCLK has been present for 100 µs (R678, R696). -/
def execRefclkReturn (s : State) : Out :=
  if s.power.refclk then .next s
  else
    let s := { s with power := { s.power with refclk := true } }
    if s.power.boot = .cold ∧ s.rd Fld.GLB_RST_STAT_CAUSE = 2 then
      .next (afterCold { s with power := { s.power with riseAt := s.now } })
    else .next s

/-! ## Pavilion reset (R316, R685, R687) -/

/-- The status and count registers of a pavilion are cleared; its control registers, windows, positions, trims and repair
state stay. [DEDUCED, notes/assumptions/60.md] -/
def clearPavRegs (p : Nat) (s : State) : State :=
  let b := 0xC0000 + 0x1000 * p
  (((((((s.resetRegs (b + 0x20) (b + 0x34)).resetRegs (b + 0x140) (b + 0x144)).resetRegs (b + 0x154) (b + 0x158)).resetRegs
    (b + 0x208) (b + 0x208)).resetRegs (b + 0x214) (b + 0x220)).resetRegs (b + 0x230) (b + 0x240)).resetRegs (b + 0x304) (b + 0x314)).resetRegs
      (b + 0x404) (b + 0x404)

/-- The reset of a pavilion: its ranks start in BAND with DEBT = 8, N = 8 and ACC = 0 (R316).
[DESIGN CHOICE, notes/assumptions/36.md; DEDUCED, notes/assumptions/60.md] -/
def pavReset (p : Nat) (s : State) : State :=
  let wins (r : Nat) : BitVec 4 := (s.rank p r).wins
  let s := clearPavRegs p (monDiscard p (flushPav p s))
  let s := s.modPav p (fun v => { Pav.reset with
    ents := v.ents
    startAt := s.now
    throttleNext := v.throttleNext
    rate := v.rate
    rateNext := v.rateNext
    lfsr := v.lfsr
    lfsrAt := v.lfsrAt
    copies := v.copies.map (fun c => { c with running := false, lines := [], wrote := 0 })
    spared := v.spared
    badSpares := v.badSpares
    leftSpares := v.leftSpares
    cols := v.cols
    exhausted := v.exhausted
    scrubLeft := v.scrubLeft
    rowTest := v.rowTest
    testPos := v.testPos
    suspects := v.suspects
    tsvTurns := v.tsvTurns
    drain := if v.drain = .reset_ then .none_ else v.drain })
  let band : Rank := { Rank.reset with st := .band, n := 8, accAt := s.now, inSelf := false }
  let s := forUpto 4 (fun r a => (a.wr (fldDebt p r) 8).setRank p r { band with wins := wins r }) s
  drainStep p (reseed p s)

/-- A pavilion whose reset has been asked for has completed its lines and buffer: it resets (R687). A slice and a sparing copy
end first. [DEDUCED, notes/assumptions/60.md] -/
def execPavilionReset (p : PavId) (s : State) : Out :=
  let v := s.pav p
  if v.resetAsked ∧ v.gated = false ∧ s.drainable p = true then .next (pumpAll (pavReset p s)) else .next s

/-! ## The test port (R742, R743) -/

/-- What the instruction register of the test port captures (R742). -/
def tapIrCapture : Byte := 0x01

/-- The IDCODE (R742): version 2, part 0x9632, manufacturer 0x2D5. -/
def tapIdcode : BitVec 32 := 0x296325AB

/-- What the register between TDI and TDO captures under the instruction in force, where R742 gives it. -/
def State.tapCapture (s : State) : Option (BitVec 32) := if s.power.tapIr = 0x01 then some tapIdcode else none

/-- The instruction a code selects (R742): BYPASS for one not assigned, and for WRAP_SEL outside workshop mode.
[DESIGN CHOICE, notes/assumptions/59.md] -/
def State.tapSelect (s : State) (code : Byte) : Byte :=
  if code.toNat ≤ 4 then code else if code = 0x10 ∧ s.on Fld.GLB_SEC_STAT_WORKSHOP = true then code else 0xFF

/-- A new instruction is updated into the instruction register: EXTEST, CLAMP and HIGHZ hold the inputs the stack sees (R743).
[DESIGN CHOICE, notes/assumptions/59.md] -/
def execTapInstructionUpdate (code : Byte) (s : State) : Out :=
  let ir := s.tapSelect code
  .next { s with power := { s.power with tapIr := ir, tapHold := ir == 0x00 || ir == 0x03 || ir == 0x04 } }

/-- TRST_N low: Test-Logic-Reset, which selects IDCODE (R742, R743). -/
def execTrstNLow (s : State) : Out := .next { s with power := { s.power with tapIr := 0x01, tapHold := false } }

end Sys2Proof.Machine
end

