-- ==== Sys2Proof/Machine/Sideband.lean ====
section
/-! DEFINITION. The sideband two-wire port (R646 to R676). Each transaction of its table is one command and ends with its STOP;
a byte refused, a bus fault and the timers are commands of their own. -/
namespace Sys2Proof.Machine
open Sys2Proof

/-- Whether the port answers: its clock runs (R648), the stack is not in Sleep nor held in reset, and the test port does not
hold its inputs (R743). [DEDUCED, notes/assumptions/56.md] -/
def State.sbOn (s : State) : Bool := s.sb.running && s.power? != psSleep && s.power.drain.isNone && !s.power.tapHold

/-- A byte is refused (R654). -/
def sbRefused (s : State) : State := (s.sat Fld.SB_CNT_PROTO).raiseOnce (evSb 0) 2

/-- Whether a write's PEC lets it take effect (R655). -/
def State.pecOk (s : State) (code : Byte) (body : List Byte) (pec : Option Byte) : Bool :=
  match pec with
  | some b => b == crc8 ([s.sbAddrW, code] ++ body)
  | none => !s.on Fld.SB_CTRL_PEC_REQ

/-- A write transaction with its bytes after the code: refused at a byte, discarded for its PEC, or acted on (R653 to R655). -/
def sbWrite (code : Byte) (body : List Byte) (pec : Option Byte) (refused : Bool) (act : State → State) (s : State) : Out :=
  if s.sbOn = false then .next s
  else if refused then .next (sbStop (sbRefused (sbReady s)))
  else if s.pecOk code body pec = false then
    .next (sbStop ((((sbReady s).wr Fld.SB_RESULT_CODE 4).sat Fld.SB_CNT_PEC).raiseOnce (evSb 2) code.toNat))
  else .next (quietStep (sbStop (act (sbReady s))))

/-- A read transaction: it ends when its access has been served (R656). -/
def sbRead (act : State → State) (s : State) : Out :=
  if s.sbOn = false then .next s
  else
    let s := act ((sbReady s).wr Fld.SB_STAT_STATE 1)
    .next (quietStep (if s.sb.hand.isSome then s.wr Fld.SB_STAT_STATE 3 else sbStop s))

/-! ## STATUS (R650) -/

/-- The STATUS block. -/
def State.sbBlock (s : State) : List Byte :=
  let tdram := (s.look 16 Off.THM_TDRAM).toNat
  [BitVec.ofNat 8 (s.rd Fld.GLB_FW_STAT_IMAGE + 8 * b2n (s.on Fld.GLB_FW_STAT_READY) + 16 * b2n s.halted +
      32 * b2n (s.on Fld.GLB_SEC_STAT_WORKSHOP) + 64 * b2n (s.on Fld.SB_STAT_ATTN_PEND)),
   BitVec.ofNat 8 (s.rd Fld.THM_STAT_BAND + 8 * s.power?),
   BitVec.ofNat 8 (s.rd Fld.SB_RESULT_CODE + 16 * s.rd (Fld.MBX_STAT_STATE 16) + 128 * b2n (s.on Fld.GLB_SEC_STAT_WORKSHOP)), 0] ++
    leBytes 2 (tdram % 65536) ++ leBytes 2 ((s.look 16 Off.EVT_SEQ).toNat % 65536)

/-- A Receive Byte returns byte 0 of the STATUS block and, acknowledged, its PEC. -/
def execSbStatusByte (s : State) : Out :=
  sbRead (fun s =>
    let b := s.sbBlock.getD 0 0
    { s with sb := { s.sb with out := [b, crc8 [s.sbAddrR, b]] } }) s

/-- STATUS. -/
def execSbStatus (s : State) : Out := sbRead (fun s => sbAnswer 0x01 s.sbBlock s) s

/-! ## The window (R651) -/

/-- WIN_PTR. -/
def execSbWinPtr (ptr : BitVec 24) (pec : Option Byte) (s : State) : Out :=
  sbWrite 0x10 (3 :: leBytes 3 ptr.toNat) pec (ptr.extractLsb' 20 4 != 0)
    (fun s => s.wr Fld.SB_WIN_PTR_OFFSET (ptr.extractLsb' 2 18).toNat) s

/-- WIN_READ. [DESIGN CHOICE, notes/assumptions/55.md] -/
def execSbWinRead (s : State) : Out := sbRead (sbTake .winRead) s

/-- WIN_WRITE: a value, and the byte enables when five bytes are written. [DESIGN CHOICE, notes/assumptions/55.md] -/
def execSbWinWrite (bytes : List Byte) (pec : Option Byte) (s : State) : Out :=
  let n := bytes.length
  let be := if n = 5 then bytes.getD 4 0 else 0x0F
  sbWrite 0x12 (BitVec.ofNat 8 n :: bytes) pec ((n != 4 && n != 5) || be.extractLsb' 4 4 != 0)
    (fun s => sbAdvance (sbTake (.put s.sbPtr [(s.sbPtr, be.extractLsb' 0 4, BitVec.ofNat 32 (leAt bytes 0 4))]) s)) s

/-! ## The mailboxes (R652) -/

/-- The mailbox bit 15 of an offset names. -/
def sbMbx (v : Nat) : Nat := if bitAt v 15 then 17 else 16

/-- The words of a mailbox's command area that bytes from an offset on touch: word, byte enables, value. -/
def cmdWords (o : Nat) (data : List Byte) : List (Nat × BitVec 4 × Reg32) :=
  (List.range ((o + data.length + 3) / 4 - o / 4)).map (fun i =>
    let w := o / 4 + i
    let hit (k : Nat) : Bool := decide (o ≤ 4 * w + k) && decide (4 * w + k < o + data.length)
    let byte (k : Nat) : Byte := if hit k then data.getD (4 * w + k - o) 0 else 0
    (w, BitVec.ofNat 4 (b2n (hit 0) + 2 * b2n (hit 1) + 4 * b2n (hit 2) + 8 * b2n (hit 3)),
     BitVec.ofNat 32 (leNat ((List.range 4).map byte))))

/-- MBX_WRITE to the command area of a mailbox; one that the sideband does not own is refused once. -/
def sbMbxPut (m o : Nat) (data : List Byte) (s : State) : State :=
  let ws := cmdWords o data
  let ws := if s.served ∧ s.owner m ≠ 16 then ws.take 1 else ws
  sbTake (.put (Off.MBX_CMD m 0 + o) (ws.map (fun w => (Off.MBX_CMD m w.1, w.2.1, w.2.2)))) s

/-- MBX_WRITE. -/
def execSbMbxWrite (bytes : List Byte) (pec : Option Byte) (s : State) : Out :=
  let n := bytes.length
  let h := leAt bytes 0 2
  let o := h % 512
  sbWrite 0x20 (BitVec.ofNat 8 n :: bytes) pec
    (decide (n < 3) || decide (32 < n) || bitsOf h 9 6 != 0 || decide (512 < o + (n - 2)))
    (fun s => sbMbxPut (sbMbx h) o (bytes.drop 2) s) s

/-- MBX_GO: GO or ABORT to the doorbell of MBX16 or MBX17. -/
def execSbMbxGo (v : Byte) (pec : Option Byte) (s : State) : Out :=
  let m := if v.getLsbD 7 then 17 else 16
  sbWrite 0x21 [v] pec (v != 0x01 && v != 0x02 && v != 0x81 && v != 0x82)
    (sbTake (.put (Off.MBX_DOORBELL m) [(Off.MBX_DOORBELL m, 3, BitVec.ofNat 32 (v.toNat % 128))])) s

/-- MBX_READ. -/
def execSbMbxRead (s : State) : Out := sbRead (sbTake .mbxRead) s

/-- MBX_PTR. -/
def execSbMbxPtr (v : BitVec 16) (pec : Option Byte) (s : State) : Out :=
  sbWrite 0x23 (leBytes 2 v.toNat) pec (v.extractLsb' 9 6 != 0)
    (fun s => (s.wr Fld.SB_MBX_PTR_OFFSET (v.toNat % 512)).wr Fld.SB_MBX_PTR_MBX17 (b2n (v.getLsbD 15))) s

/-- MBX_STAT. -/
def execSbMbxStat (s : State) : Out := sbRead (sbTake .mbxStat) s

/-- The command codes of R649. -/
def sbCodes : List Byte := [0x01, 0x10, 0x11, 0x12, 0x20, 0x21, 0x22, 0x23, 0x24]

/-- A Quick Command, or a write that ends after its code: it changes nothing else (R649); a code not assigned is refused. -/
def execSbQuickCommand (code : Option Byte) (s : State) : Out :=
  if s.sbOn = false then .next s
  else
    match code with
    | none => .next (sbStop s)
    | some c => .next (sbStop (if sbCodes.contains c then s else sbRefused s))

/-! ## Limits and faults (R656, R664 to R666) -/

/-- The access in hand has not been served after 20 µs (R656); one that can be served by then goes first (R17). -/
def execSbStretchLimit (_ : Unit) (s : State) : Out :=
  match s.sb.hand with
  | none => .next s
  | some (a, t) => .next (quietStep (if s.served && decide (s.now ≤ t) then lateWrites s else lateWrites (sbExpire a (s.atLeast t))))

/-- A bus fault ends the transaction: a partial write is discarded (R665). -/
def sbFault (detail : Nat) (partWrite : Bool) (s : State) : State :=
  let s := if partWrite then s.wr Fld.SB_RESULT_CODE 5 else s
  ((s.sat Fld.SB_CNT_PROTO).raiseOnce (evSb 0) detail).wr Fld.SB_STAT_STATE 0

/-- A bus fault, a byte refused, or a write that ends early and is discarded whole (R653, R654, R665). -/
def execSbBusFault (cause : SbFaultCause) (s : State) : Out :=
  if s.sbOn = false then .next s
  else
    match cause with
    | .byteRefused => .next (sbStop (sbRefused s))
    | .writeEndedEarly => .next (sbStop ((sbReady s).wr Fld.SB_RESULT_CODE 5))
    | .sdaRoseInAck partWrite => .next (sbFault 0 partWrite s)
    | .startStopInByte partWrite => .next (sbFault 1 partWrite s)

/-- A repeated START in the controller's acknowledge slot ends the read cleanly (R664); no STOP has come. -/
def execSbRepeatedStartInAck (s : State) : Out := .next s

/-- The sideband logic resets (R666): both lines are released, a read in hand is dropped, a partial write is discarded, an assertion ends
with its flag kept. Whether a write was under way is a free value [DESIGN CHOICE, notes/assumptions/55.md]. -/
def sbReset (detail : Nat) (s : State) : State :=
  let (part, s) := s.drawFree
  let hand := match s.sb.hand with | some (.put o ws, t) => some (SbAccess.put o ws, t) | _ => none
  let s := { s with sb := { s.sb with hand := hand, idleSince := s.now, attnWait := none } }
  let s := if part.getLsbD 0 then s.wr Fld.SB_RESULT_CODE 5 else s
  ((s.sat Fld.SB_CNT_TIMEOUT).raise (evSb 1) detail).wr Fld.SB_STAT_STATE 0

/-- SCL has been low for 35 ms (R666). -/
def execSclLowTimeout (s : State) : Out := if s.sbOn then .next (sbReset 0 s) else .next s

/-- The stack has held SDA low with SCL high for 1 ms (R666). -/
def execSdaReleaseTimeout (s : State) : Out := if s.sbOn then .next (sbReset 1 s) else .next s

/-! ## Wake (R657, R658) -/

/-- In Sleep a matching address byte wakes the stack (R657). -/
def execWakeByAddress (addr : BitVec 7) (s : State) : Out :=
  if s.sb.running ∧ s.power.tapHold = false ∧ s.power? = psSleep ∧ s.on Fld.SB_CTRL_WAKE_EN = true ∧
      addr.toNat = s.rd Fld.SB_STAT_ADDR then
    let s := { s with sb := { s.sb with wakeStretch := some (s.now + 200 * tUs), wakeLate := false } }
    .next (wakeBy 3 0 false ((s.raise (evSb 4) 0).wr Fld.SB_STAT_STATE 3))
  else .next s

/-- The clocks are not running 200 µs after the wake stretch began (R658): SCL is released and the transaction discarded. -/
def execWakeStretchLimit (s : State) : Out :=
  match s.sb.wakeStretch with
  | some t =>
    let s := s.atLeast t
    .next ({ s with sb := { s.sb with wakeStretch := none, wakeLate := true } }.wr Fld.SB_STAT_STATE 0)
  | none => .next s

/-! ## Attention (R660 to R663) -/

/-- SDA is pulled low for attention. -/
def attnStart (s : State) : State :=
  { s with sb := { s.sb with attnWait := some (s.now + 100 * tUs), attnRetry := none, needStop := false } }.wr Fld.SB_STAT_STATE 2

/-- The bus has been idle for 50 µs with the flag set (R660). -/
def execAttentionAssert (s : State) : Out :=
  if s.sbOn ∧ s.on Fld.SB_CTRL_ATTN_EN = true ∧ s.on Fld.SB_STAT_ATTN_PEND = true ∧ s.sb.attnWait = none ∧ s.sb.needStop = false then
    .next (attnStart (s.atLeast (s.sb.idleSince + 50 * tUs)))
  else .next s

/-- The arbitration byte has been clocked (R661, R663), with the STOP that follows it.
[DESIGN CHOICE, notes/assumptions/55.md] -/
def execAttentionArbitration (won acked : Bool) (s : State) : Out :=
  match s.sb.attnWait with
  | none => .next s
  | some _ =>
    let s := { s with sb := { s.sb with attnWait := none, idleSince := s.now } }.wr Fld.SB_STAT_STATE 0
    if won then
      (if acked then .next ((s.wr Fld.SB_STAT_ATTN_PEND 0).raise (evSb 6) 0)
       else .next ((s.sat Fld.SB_CNT_ATTN_MISS).raise (evSb 5) 1))
    else .next s

/-- SCL has not fallen within 100 µs of the assertion (R663). -/
def execAttentionWaitExpiry (s : State) : Out :=
  match s.sb.attnWait with
  | none => .next s
  | some t =>
    let s := s.atLeast t
    let retry := s.now + tMs * 2 ^ s.rd Fld.SB_CTRL_ATTN_RETRY
    let s := { s with sb := { s.sb with attnWait := none, attnRetry := some retry, needStop := true } }.wr Fld.SB_STAT_STATE 0
    .next ((s.sat Fld.SB_CNT_ATTN_MISS).raise (evSb 5) 0)

/-- No STOP has come for 2^ATTN_RETRY ms: attention is asserted again (R663). -/
def execAttentionRetryTimer (s : State) : Out :=
  match s.sb.attnRetry with
  | none => .next s
  | some t =>
    let s := s.atLeast t
    if s.sbOn ∧ s.on Fld.SB_CTRL_ATTN_EN = true ∧ s.on Fld.SB_STAT_ATTN_PEND = true then .next (attnStart s)
    else .next { s with sb := { s.sb with attnRetry := none, needStop := false } }

end Sys2Proof.Machine
end

