-- ==== Sys2Proof/Machine/Access.lean ====
section
/-! DEFINITION. The rows of the table that are an access to one register, from a source: what a write or read does is CfgReg's
`regWrite` and `regRead`. -/
namespace Sys2Proof.Machine
open Sys2Proof

/-- A steward write of PRT_LANE_CTRL.TEST_STATE moves lanes to loopback, PRBS test or normal, taking the link down when
needed (R75). -/
def execTestStateWrite (n : PortId) (p : Pos) (src : Source) (be : BitVec 4) (v : Reg32) (s : State) : Out :=
  cfgWrite src (Off.PRT_LANE_CTRL n p) be v s

/-- Writing 1 to PRT_PRBS_CTRL.CLR clears the PRBS counters of the selected lanes (R80). -/
def execPrbsClr (n : PortId) (src : Source) (be : BitVec 4) (v : Reg32) (s : State) : Out :=
  cfgWrite src (Off.PRT_PRBS_CTRL n) be v s

/-- A write of PRT_INJ_CTRL.MODE arms single, periodic or burst error injection on the selected lanes (R83). -/
def execInjectWrite (n : PortId) (src : Source) (be : BitVec 4) (v : Reg32) (s : State) : Out :=
  cfgWrite src (Off.PRT_INJ_CTRL n) be v s

/-- A read of PRT_LANE_PRBS_BITS_LO snapshots the high half for the next read (R80). The errors met since the last count, and the
last bits compared among which they lay, are the checker's own. [DEDUCED, notes/assumptions/20.md] -/
def execPrbsBitsLoRead (n : PortId) (p : Pos) (src : Source) (bits errs : Nat) (s : State) : Out :=
  cfgRead src (Off.PRT_LANE_PRBS_BITS_LO n p) (countPrbs n p (min errs bits) s)

/-- A write of PRT_LINK_CTRL.LINK_DIS takes the link down and parks it, or lets it retrain (R138). -/
def execLinkDisWrite (n : PortId) (src : Source) (be : BitVec 4) (v : Reg32) (s : State) : Out :=
  cfgWrite src (Off.PRT_LINK_CTRL n) be v s

/-- Writing 1 to PRT_LINK_CTRL.RETRAIN starts recovery (R138). -/
def execRetrainWrite (n : PortId) (src : Source) (be : BitVec 4) (v : Reg32) (s : State) : Out :=
  cfgWrite src (Off.PRT_LINK_CTRL n) be v s

/-- Writing 1 to PRT_LINK_CTRL.WIDEN starts recovery with full training on every position (R138). -/
def execWidenWrite (n : PortId) (src : Source) (be : BitVec 4) (v : Reg32) (s : State) : Out :=
  cfgWrite src (Off.PRT_LINK_CTRL n) be v s

/-- A write of PRT_POOL_CTRL.ROLE changes the port role and takes the link down (R204). -/
def execRoleWrite (n : PortId) (src : Source) (be : BitVec 4) (v : Reg32) (s : State) : Out :=
  cfgWrite src (Off.PRT_POOL_CTRL n) be v s

/-- A write of GLB_POOL_WINDOW.BASE sets the window base until the lock (R206). -/
def execWindowBaseWrite (src : Source) (be : BitVec 4) (v : Reg32) (s : State) : Out :=
  cfgWrite src (Off.GLB_POOL_WINDOW) be v s

/-- A write to GLB_SP_LO_e stages the low half of a signpost entry (R209). -/
def execSpLoWrite (e : Fin 32) (src : Source) (be : BitVec 4) (v : Reg32) (s : State) : Out :=
  cfgWrite src (Off.GLB_SP_LO e) be v s

/-- A write to GLB_SP_HI_e commits the signpost entry, or refuses it as MALFORMED (R209). -/
def execSpHiWrite (e : Fin 32) (src : Source) (be : BitVec 4) (v : Reg32) (s : State) : Out :=
  cfgWrite src (Off.GLB_SP_HI e) be v s

/-- A write to a map mask LO register is staged (R245). -/
def execMaskLoWrite (partitioned : Bool) (m : Fin 11) (src : Source) (be : BitVec 4) (v : Reg32) (s : State) : Out :=
  cfgWrite src (if partitioned then Off.GLB_MAP_P_LO m else Off.GLB_MAP_I_LO m) be v s

/-- A write to a map mask HI register commits the mask, or refuses it as MALFORMED (R245). -/
def execMaskHiWrite (partitioned : Bool) (m : Fin 11) (src : Source) (be : BitVec 4) (v : Reg32) (s : State) : Out :=
  cfgWrite src (if partitioned then Off.GLB_MAP_P_HI m else Off.GLB_MAP_I_HI m) be v s

/-- A write of GLB_MAP_CTRL.SEL requests a map before the lock (R37). -/
def execMapSelWrite (src : Source) (be : BitVec 4) (v : Reg32) (s : State) : Out :=
  cfgWrite src (Off.GLB_MAP_CTRL) be v s

/-- A write of CAD_CTRL.SRC or PORT with a new value changes the source and enters SEEK (R300). -/
def execCadCtrlWrite (src : Source) (be : BitVec 4) (v : Reg32) (s : State) : Out :=
  cfgWrite src (Off.CAD_CTRL) be v s

/-- A read of CAD_NOW_LO snapshots CAD_NOW_HI (R330). [DEDUCED, notes/assumptions/20.md] -/
def execCadNowLoRead (src : Source) (s : State) : Out :=
  cfgRead src (Off.CAD_NOW_LO) s

/-- Writing 0 to PAV_ECC_CTRL.REPEAT_EN frees every repeat-corrector entry (R380). -/
def execRepeatEnWrite (p : PavId) (src : Source) (be : BitVec 4) (v : Reg32) (s : State) : Out :=
  cfgWrite src (Off.PAV_ECC_CTRL p) be v s

/-- A read of PAV_BIST_FAIL_1 clears VALID (R430). -/
def execBistFail1Read (src : Source) (p : PavId) (s : State) : Out :=
  cfgRead src (Off.PAV_BIST_FAIL_1 p) s

/-- Writing 1 to THM_HALT.CLEAR requests the halt clear (R444). -/
def execHaltClearWrite (src : Source) (be : BitVec 4) (v : Reg32) (s : State) : Out :=
  cfgWrite src (Off.THM_HALT) be v s

/-- A write of THM_CTRL.HOST_THR sets the host throttle level (R441). -/
def execHostThrWrite (src : Source) (be : BitVec 4) (v : Reg32) (s : State) : Out :=
  cfgWrite src (Off.THM_CTRL) be v s

/-- A read of THM_PEAK returns the peaks and restarts them (R455). -/
def execThmPeakRead (src : Source) (s : State) : Out :=
  cfgRead src (Off.THM_PEAK) s

/-- A write of GLB_CAL_CTRL.OSC_LEARN starts or stops oscillator learning (R480). -/
def execOscLearnWrite (src : Source) (be : BitVec 4) (v : Reg32) (s : State) : Out :=
  cfgWrite src (Off.GLB_CAL_CTRL) be v s

/-- A steward write of 1 to GLB_FW_CTRL.CORE_RESET performs a management reset (R497). -/
def execCoreResetWrite (src : Source) (be : BitVec 4) (v : Reg32) (s : State) : Out :=
  cfgWrite src (Off.GLB_FW_CTRL) be v s

/-- A doorbell GO snapshots the command area and makes the command pending, or records an overrun (R512). -/
def execGoDoorbell (m : MbxId) (src : Source) (s : State) : Out :=
  cfgWrite src (Off.MBX_DOORBELL m) 3 1 s

/-- A doorbell ABORT ends a pending command or starts aborting a running one (R511). -/
def execAbortDoorbell (m : MbxId) (src : Source) (s : State) : Out :=
  cfgWrite src (Off.MBX_DOORBELL m) 3 2 s

/-- The owner writes 1 to MBX_STAT.OVERRUN and clears it (R541). -/
def execOverrunClear (m : MbxId) (src : Source) (be : BitVec 4) (v : Reg32) (s : State) : Out :=
  cfgWrite src (Off.MBX_STAT m) be v s

/-- A write of GLB_STEWARD changes MASK and LOCK, or is refused (R504). -/
def execStewardWrite (src : Source) (be : BitVec 4) (v : Reg32) (s : State) : Out :=
  cfgWrite src (Off.GLB_STEWARD) be v s

/-- Setting a bit of EVT_ROUTE.PORTS sets that port's send position to EVT_SEQ (R555). -/
def execEvtPortsWrite (src : Source) (be : BitVec 4) (v : Reg32) (s : State) : Out :=
  cfgWrite src (Off.EVT_ROUTE) be v s

/-- Writing 1 to an EVT_SEEN bit clears it (R548). -/
def execEvtSeenClear (i : Fin 32) (src : Source) (be : BitVec 4) (v : Reg32) (s : State) : Out :=
  cfgWrite src (Off.EVT_SEEN i) be v s

/-- Writing 1 to MON_CTRL.RESTART discards the current window (R566). -/
def execMonRestartWrite (u : UnitId) (src : Source) (be : BitVec 4) (v : Reg32) (s : State) : Out :=
  cfgWrite src (Off.MON_CTRL u) be v s

/-- A read of MON_SUM_LO or MON_LVL_SUM_LO snapshots the HI register (R565). [DEDUCED, notes/assumptions/20.md] -/
def execMonSumLoRead (src : Source) (u : UnitId) (lvl : Bool) (s : State) : Out :=
  cfgRead src (if lvl then Off.MON_LVL_SUM_LO u else Off.MON_SUM_LO u) s

/-- Writing 1 to a bit of GLB_RST_PORT resets that port (R687). [DESIGN CHOICE, notes/assumptions/61.md] -/
def execGlbRstPortWrite (src : Source) (be : BitVec 4) (v : Reg32) (s : State) : Out :=
  cfgWrite src (Off.GLB_RST_PORT) be v s

/-- Writing 1 to a bit of GLB_RST_PAV starts a pavilion reset (R687). -/
def execGlbRstPavWrite (src : Source) (be : BitVec 4) (v : Reg32) (s : State) : Out :=
  cfgWrite src (Off.GLB_RST_PAV) be v s

/-- A write to a register with no row of its own applies under the field access types (R11). -/
def execRegisterWrite (off : BitVec 20) (src : Source) (be : BitVec 4) (v : Reg32) (s : State) : Out :=
  cfgWrite src (off.toNat) be v s

/-- A read of an RC field returns its value and clears it (R11). -/
def execReadClearCounter (src : Source) (off : BitVec 20) (s : State) : Out :=
  cfgRead src (off.toNat) s

end Sys2Proof.Machine
end

