-- ==== Sys2Proof/Machine/Commands.lean ====
section
/-! DEFINITION. The rows of the table that are one mailbox command: it is issued in mailbox m with its payload, taken at once
when the firmware takes commands, and does what `runOp` says for its opcode. COMMAND_COMPLETE writes its response. -/
namespace Sys2Proof.Machine
open Sys2Proof

/-- Command 0x0210, sets a port's role (R236). -/
def execPortRoleSet (m : MbxId) (payload : List Byte) (s : State) : Out := .next (quietStep (issue m 0x0210 payload s))

/-- Command 0x0211, sets the window base (R236). -/
def execWindowSet (m : MbxId) (payload : List Byte) (s : State) : Out := .next (quietStep (issue m 0x0211 payload s))

/-- Command 0x0212, writes a signpost entry (R236). -/
def execSignpostSet (m : MbxId) (payload : List Byte) (s : State) : Out := .next (quietStep (issue m 0x0212 payload s))

/-- Command 0x0213, returns the window, the peer ports and the signpost table (R236). -/
def execPoolStatus (m : MbxId) (payload : List Byte) (s : State) : Out := .next (quietStep (issue m 0x0213 payload s))

/-- Command 0x0220, selects the map and loads mask sets (R248). -/
def execMapSet (m : MbxId) (payload : List Byte) (s : State) : Out := .next (quietStep (issue m 0x0220 payload s))

/-- Command 0x0221, returns the map control and masks (R248). -/
def execMapStatus (m : MbxId) (payload : List Byte) (s : State) : Out := .next (quietStep (issue m 0x0221 payload s))

/-- Command 0x0222, translates a local address to its location (R248). -/
def execMapTranslate (m : MbxId) (payload : List Byte) (s : State) : Out := .next (quietStep (issue m 0x0222 payload s))

/-- Command 0x0301, sets the cadence source (R324). -/
def execCadSet (m : MbxId) (payload : List Byte) (s : State) : Out := .next (quietStep (issue m 0x0301 payload s))

/-- Command 0x0302, returns the cadence registers (R324). -/
def execCadStatus (m : MbxId) (payload : List Byte) (s : State) : Out := .next (quietStep (issue m 0x0302 payload s))

/-- Command 0x0303, writes an angle slot (R324). -/
def execSlotSet (m : MbxId) (payload : List Byte) (s : State) : Out := .next (quietStep (issue m 0x0303 payload s))

/-- Command 0x0310, writes refresh windows (R324). -/
def execRefWindowsSet (m : MbxId) (payload : List Byte) (s : State) : Out := .next (quietStep (issue m 0x0310 payload s))

/-- Command 0x0311, writes an evenly spread window set (R324). -/
def execRefSpread (m : MbxId) (payload : List Byte) (s : State) : Out := .next (quietStep (issue m 0x0311 payload s))

/-- Command 0x0312, returns a pavilion's refresh state (R324). -/
def execRefStatus (m : MbxId) (payload : List Byte) (s : State) : Out := .next (quietStep (issue m 0x0312 payload s))

/-- Command 0x0320, configures neighbour refresh (R324). -/
def execNeighSet (m : MbxId) (payload : List Byte) (s : State) : Out := .next (quietStep (issue m 0x0320 payload s))

/-- Command 0x0401, returns a pavilion's ECC state (R376). -/
def execEccStatus (m : MbxId) (payload : List Byte) (s : State) : Out := .next (quietStep (issue m 0x0401 payload s))

/-- Command 0x0402, clears counters, bucket, repeat corrector or records (R756). -/
def execEccClear (m : MbxId) (payload : List Byte) (s : State) : Out := .next (quietStep (issue m 0x0402 payload s))

/-- Command 0x0410, changes the scrub region bitmap (R376). -/
def execScrubRegions (m : MbxId) (payload : List Byte) (s : State) : Out := .next (quietStep (issue m 0x0410 payload s))

/-- Command 0x0420, returns repair-map entries (R376). -/
def execRepairMapRead (m : MbxId) (payload : List Byte) (s : State) : Out := .next (quietStep (issue m 0x0420 payload s))

/-- Command 0x0421, lists runtime spares (R376). -/
def execSpareList (m : MbxId) (payload : List Byte) (s : State) : Out := .next (quietStep (issue m 0x0421 payload s))

/-- Command 0x0422, writes runtime spares to the repair map (R607). -/
def execSpareCommit (m : MbxId) (payload : List Byte) (s : State) : Out := .next (quietStep (issue m 0x0422 payload s))

/-- Command 0x0423, spares a row on request (R757). -/
def execRowSpare (m : MbxId) (payload : List Byte) (s : State) : Out := .next (quietStep (issue m 0x0423 payload s))

/-- Command 0x0424, retires a pavilion (R373). -/
def execPavRetire (m : MbxId) (payload : List Byte) (s : State) : Out := .next (quietStep (issue m 0x0424 payload s))

/-- Command 0x0D01, fills a range with a pattern (R349). -/
def execFill (m : MbxId) (payload : List Byte) (s : State) : Out := .next (quietStep (issue m 0x0D01 payload s))

/-- Command 0x0D02, copies a range (R350). -/
def execCopy (m : MbxId) (payload : List Byte) (s : State) : Out := .next (quietStep (issue m 0x0D02 payload s))

/-- Command 0x0D03, returns the bulk engine state (R377). -/
def execBulkStatus (m : MbxId) (payload : List Byte) (s : State) : Out := .next (quietStep (issue m 0x0D03 payload s))

/-- Command 0x0D04, aborts the running bulk command (R351). -/
def execBulkAbort (m : MbxId) (payload : List Byte) (s : State) : Out := .next (quietStep (issue m 0x0D04 payload s))

/-- Command 0x0501, returns BIST state (R419). -/
def execBistStatus (m : MbxId) (payload : List Byte) (s : State) : Out := .next (quietStep (issue m 0x0501 payload s))

/-- Command 0x0502, starts a background sweep (R419). -/
def execSweepStart (m : MbxId) (payload : List Byte) (s : State) : Out := .next (quietStep (issue m 0x0502 payload s))

/-- Command 0x0503, stops sweeps and slices (R419). -/
def execBistStop (m : MbxId) (payload : List Byte) (s : State) : Out := .next (quietStep (issue m 0x0503 payload s))

/-- Command 0x0504, tests one row (R419). -/
def execSliceRow (m : MbxId) (payload : List Byte) (s : State) : Out := .next (quietStep (issue m 0x0504 payload s))

/-- Command 0x0510, runs the parking test (R411). -/
def execParkStart (m : MbxId) (payload : List Byte) (s : State) : Out := .next (quietStep (issue m 0x0510 payload s))

/-- Command 0x0511, reads certificate bytes (R419). -/
def execCertRead (m : MbxId) (payload : List Byte) (s : State) : Out := .next (quietStep (issue m 0x0511 payload s))

/-- Command 0x0512, loads certificate bytes (R419). -/
def execCertLoad (m : MbxId) (payload : List Byte) (s : State) : Out := .next (quietStep (issue m 0x0512 payload s))

/-- Command 0x0513, submits a certificate and ends the window (R410). -/
def execCertSubmit (m : MbxId) (payload : List Byte) (s : State) : Out := .next (quietStep (issue m 0x0513 payload s))

/-- Command 0x0520, runs a destructive March test (R418). -/
def execArrayTest (m : MbxId) (payload : List Byte) (s : State) : Out := .next (quietStep (issue m 0x0520 payload s))

/-- Command 0x0521, reads raw words (R418). -/
def execArrayRawRead (m : MbxId) (payload : List Byte) (s : State) : Out := .next (quietStep (issue m 0x0521 payload s))

/-- Command 0x0522, writes raw words (R418). -/
def execArrayRawWrite (m : MbxId) (payload : List Byte) (s : State) : Out := .next (quietStep (issue m 0x0522 payload s))

/-- Command 0x0601, returns thermal state (R450). -/
def execThmStatus (m : MbxId) (payload : List Byte) (s : State) : Out := .next (quietStep (issue m 0x0601 payload s))

/-- Command 0x0602, sets the host throttle level (R441). -/
def execThrottleSet (m : MbxId) (payload : List Byte) (s : State) : Out := .next (quietStep (issue m 0x0602 payload s))

/-- Command 0x0603, clears a latched critical halt (R444). -/
def execHaltClear (m : MbxId) (payload : List Byte) (s : State) : Out := .next (quietStep (issue m 0x0603 payload s))

/-- Command 0x0604, configures an alert (R450). -/
def execAlertSet (m : MbxId) (payload : List Byte) (s : State) : Out := .next (quietStep (issue m 0x0604 payload s))

/-- Command 0x0605, configures external inputs (R450). -/
def execExtSet (m : MbxId) (payload : List Byte) (s : State) : Out := .next (quietStep (issue m 0x0605 payload s))

/-- Command 0x0701, returns calibration state (R482). -/
def execCalStatus (m : MbxId) (payload : List Byte) (s : State) : Out := .next (quietStep (issue m 0x0701 payload s))

/-- Command 0x0702, retunes a port (R465). -/
def execLaneRetune (m : MbxId) (payload : List Byte) (s : State) : Out := .next (quietStep (issue m 0x0702 payload s))

/-- Command 0x0703, scans lane eyes (R468). -/
def execEyeScan (m : MbxId) (payload : List Byte) (s : State) : Out := .next (quietStep (issue m 0x0703 payload s))

/-- Command 0x0704, calibrates TSV timing (R472). -/
def execTsvCal (m : MbxId) (payload : List Byte) (s : State) : Out := .next (quietStep (issue m 0x0704 payload s))

/-- Command 0x0705, calibrates sensor offsets (R478). -/
def execSensorCal (m : MbxId) (payload : List Byte) (s : State) : Out := .next (quietStep (issue m 0x0705 payload s))

/-- Command 0x0706, starts or stops oscillator learning (R480). -/
def execOscLearn (m : MbxId) (payload : List Byte) (s : State) : Out := .next (quietStep (issue m 0x0706 payload s))

/-- Command 0x0707, aborts a calibration (R482). -/
def execCalAbort (m : MbxId) (payload : List Byte) (s : State) : Out := .next (quietStep (issue m 0x0707 payload s))

/-- Command 0x0101, returns identity (R525). [DESIGN CHOICE, notes/assumptions/46.md] -/
def execIdGet (m : MbxId) (payload : List Byte) (s : State) : Out := .next (quietStep (issue m 0x0101 payload s))

/-- Command 0x0102, echoes its payload (R525). -/
def execEcho (m : MbxId) (payload : List Byte) (s : State) : Out := .next (quietStep (issue m 0x0102 payload s))

/-- Command 0x0103, returns the start-up record (R709). -/
def execStartupRecordRead (m : MbxId) (payload : List Byte) (s : State) : Out := .next (quietStep (issue m 0x0103 payload s))

/-- Command 0x0201, returns privilege state (R525). -/
def execStewardStatus (m : MbxId) (payload : List Byte) (s : State) : Out := .next (quietStep (issue m 0x0201 payload s))

/-- Command 0x0202, sets the steward mask and lock (R504). -/
def execStewardSet (m : MbxId) (payload : List Byte) (s : State) : Out := .next (quietStep (issue m 0x0202 payload s))

/-- Command 0x0A01, writes image bytes to staging (R524). -/
def execFwLoad (m : MbxId) (payload : List Byte) (s : State) : Out := .next (quietStep (issue m 0x0A01 payload s))

/-- Command 0x0A02, starts firmware switchover (R522). -/
def execFwActivate (m : MbxId) (payload : List Byte) (s : State) : Out := .next (quietStep (issue m 0x0A02 payload s))

/-- Command 0x0A03, returns firmware state (R524). -/
def execFwStatus (m : MbxId) (payload : List Byte) (s : State) : Out := .next (quietStep (issue m 0x0A03 payload s))

/-- Command 0x0801, configures monitor units (R571). -/
def execMonConfig (m : MbxId) (payload : List Byte) (s : State) : Out := .next (quietStep (issue m 0x0801 payload s))

/-- Command 0x0802, returns a snapshot (R571). -/
def execMonRead (m : MbxId) (payload : List Byte) (s : State) : Out := .next (quietStep (issue m 0x0802 payload s))

/-- Command 0x0803, ends windows at the next boundary (R571). -/
def execMonSnapshot (m : MbxId) (payload : List Byte) (s : State) : Out := .next (quietStep (issue m 0x0803 payload s))

/-- Command 0x0804, configures telemetry (R571). -/
def execTelemetrySet (m : MbxId) (payload : List Byte) (s : State) : Out := .next (quietStep (issue m 0x0804 payload s))

/-- Command 0x0C01, sets levels and routing (R571). -/
def execEvtConfig (m : MbxId) (payload : List Byte) (s : State) : Out := .next (quietStep (issue m 0x0C01 payload s))

/-- Command 0x0C02, returns ring records (R571). -/
def execEvtRead (m : MbxId) (payload : List Byte) (s : State) : Out := .next (quietStep (issue m 0x0C02 payload s))

/-- Command 0x0C03, returns event state (R571). -/
def execEvtStatus (m : MbxId) (payload : List Byte) (s : State) : Out := .next (quietStep (issue m 0x0C03 payload s))

/-- Command 0x0C04, clears SEEN, MERGED or LOST (R571). -/
def execEvtClear (m : MbxId) (payload : List Byte) (s : State) : Out := .next (quietStep (issue m 0x0C04 payload s))

/-- Command 0x0901, reads OTP words (R608). -/
def execOtpRead (m : MbxId) (payload : List Byte) (s : State) : Out := .next (quietStep (issue m 0x0901 payload s))

/-- Command 0x0902, programs OTP words (R600). -/
def execOtpProgram (m : MbxId) (payload : List Byte) (s : State) : Out := .next (quietStep (issue m 0x0902 payload s))

/-- Command 0x0903, locks a region (R604). -/
def execOtpLock (m : MbxId) (payload : List Byte) (s : State) : Out := .next (quietStep (issue m 0x0903 payload s))

/-- Command 0x0904, seals a region with a token (R605). -/
def execOtpLockForce (m : MbxId) (payload : List Byte) (s : State) : Out := .next (quietStep (issue m 0x0904 payload s))

/-- Command 0x0905, repairs a marginal word or bit (R606). -/
def execRepairOtp (m : MbxId) (payload : List Byte) (s : State) : Out := .next (quietStep (issue m 0x0905 payload s))

/-- Command 0x0906, returns OTP state (R608). -/
def execOtpStatus (m : MbxId) (payload : List Byte) (s : State) : Out := .next (quietStep (issue m 0x0906 payload s))

/-- Command 0x0907, returns journal entries (R603). -/
def execOtpJournalRead (m : MbxId) (payload : List Byte) (s : State) : Out := .next (quietStep (issue m 0x0907 payload s))

/-- Command 0x0A10, returns a signed identity certificate (R622). -/
def execIdCertRead (m : MbxId) (payload : List Byte) (s : State) : Out := .next (quietStep (issue m 0x0A10 payload s))

/-- Command 0x0A11, returns a signed attestation report (R623). -/
def execAttest (m : MbxId) (payload : List Byte) (s : State) : Out := .next (quietStep (issue m 0x0A11 payload s))

/-- Command 0x0A12, enrols the customer key (R631). -/
def execKeyEnrol (m : MbxId) (payload : List Byte) (s : State) : Out := .next (quietStep (issue m 0x0A12 payload s))

/-- Command 0x0A20, enters workshop mode (R635). -/
def execWorkshopEnter (m : MbxId) (payload : List Byte) (s : State) : Out := .next (quietStep (issue m 0x0A20 payload s))

/-- Command 0x0A21, leaves workshop mode (R638). -/
def execWorkshopExit (m : MbxId) (payload : List Byte) (s : State) : Out := .next (quietStep (issue m 0x0A21 payload s))

/-- Command 0x0B01, moves the stack to Run, Rest, Hold or Sleep (R689). -/
def execPowerSet (m : MbxId) (payload : List Byte) (s : State) : Out := .next (quietStep (issue m 0x0B01 payload s))

/-- Command 0x0B02, returns power and boot state (R709). -/
def execPowerStatus (m : MbxId) (payload : List Byte) (s : State) : Out := .next (quietStep (issue m 0x0B02 payload s))

/-- Command 0x0B03, prepares the stack for power removal (R706). -/
def execShutdown (m : MbxId) (payload : List Byte) (s : State) : Out := .next (quietStep (issue m 0x0B03 payload s))

end Sys2Proof.Machine
end

