-- ==== Sys2Proof/Machine/Dispatch.lean ====
section
/-! DEFINITION. One arm per row of the table: the meaning of each command. -/
namespace Sys2Proof.Machine
open Sys2Proof

/-- [DESIGN CHOICE, notes/assumptions/11.md] -/
def exec (i : Instr) (s : State) : Host.Outcome State Fault Refusal :=
  match i with
  | .powerOnReset strap => Sys2Proof.Machine.execPowerOnReset strap s
  | .supplyDip => Sys2Proof.Machine.execSupplyDip s
  | .otpDirectFieldReady marginals tb => Sys2Proof.Machine.execOtpDirectFieldReady marginals tb s
  | .otpPowerOnReadDone marginals tb => Sys2Proof.Machine.execOtpPowerOnReadDone marginals tb s
  | .resetNLow => Sys2Proof.Machine.execResetNLow s
  | .resetDrainDone => Sys2Proof.Machine.execResetDrainDone s
  | .refclkLoss => Sys2Proof.Machine.execRefclkLoss s
  | .refclkReturn => Sys2Proof.Machine.execRefclkReturn s
  | .corePllLock => Sys2Proof.Machine.execCorePllLock s
  | .corePllLockTimeout => Sys2Proof.Machine.execCorePllLockTimeout s
  | .dramInitDone => Sys2Proof.Machine.execDramInitDone s
  | .firmwareReady => Sys2Proof.Machine.execFirmwareReady s
  | .certWindowExpiry => Sys2Proof.Machine.execCertWindowExpiry s
  | .certCheckDone => Sys2Proof.Machine.execCertCheckDone s
  | .logicTestDone failPavs failPorts => Sys2Proof.Machine.execLogicTestDone failPavs failPorts s
  | .tsvTestDone tsvFail saveFail laneFail => Sys2Proof.Machine.execTsvTestDone tsvFail saveFail laneFail s
  | .startupTestDone => Sys2Proof.Machine.execStartupTestDone s
  | .startupDone => Sys2Proof.Machine.execStartupDone s
  | .recovWaitExpiry => Sys2Proof.Machine.execRecovWaitExpiry s
  | .lanePllLockLost n => Sys2Proof.Machine.execLanePllLockLost n s
  | .lanePllLockHeld n => Sys2Proof.Machine.execLanePllLockHeld n s
  | .fifoSlip n p => Sys2Proof.Machine.execFifoSlip n p s
  | .cdrLockLost n p => Sys2Proof.Machine.execCdrLockLost n p s
  | .gradingWindowEnd n p d => Sys2Proof.Machine.execGradingWindowEnd n p d s
  | .laneExitLock n p => Sys2Proof.Machine.execLaneExitLock n p s
  | .coastExitWatchdog n p => Sys2Proof.Machine.execCoastExitWatchdog n p s
  | .parkedExitWatchdog n p => Sys2Proof.Machine.execParkedExitWatchdog n p s
  | .squelchActivity n => Sys2Proof.Machine.execSquelchActivity n s
  | .testStateWrite n p src be v => Sys2Proof.Machine.execTestStateWrite n p src be v s
  | .delayedChangeApply n => Sys2Proof.Machine.execDelayedChangeApply n s
  | .prbsClr n src be v => Sys2Proof.Machine.execPrbsClr n src be v s
  | .prbsCheckerLock n b => Sys2Proof.Machine.execPrbsCheckerLock n b s
  | .prbsRelock n p bits errs => Sys2Proof.Machine.execPrbsRelock n p bits errs s
  | .injectWrite n src be v => Sys2Proof.Machine.execInjectWrite n src be v s
  | .periodicInject n p => Sys2Proof.Machine.execPeriodicInject n p s
  | .prbsBitsLoRead n p src bits errs => Sys2Proof.Machine.execPrbsBitsLoRead n p src bits errs s
  | .ts1 n p set => Sys2Proof.Machine.execTs1 n p set s
  | .ts2 n p r => Sys2Proof.Machine.execTs2 n p r s
  | .eios n r => Sys2Proof.Machine.execEios n r s
  | .exitSets n r => Sys2Proof.Machine.execExitSets n r s
  | .sds n r => Sys2Proof.Machine.execSds n r s
  | .tLockTimeout n => Sys2Proof.Machine.execTLockTimeout n s
  | .tConfigTimeout n => Sys2Proof.Machine.execTConfigTimeout n s
  | .tRateTimeout n => Sys2Proof.Machine.execTRateTimeout n s
  | .tVerifyTimeout n => Sys2Proof.Machine.execTVerifyTimeout n s
  | .tStartTimeout n => Sys2Proof.Machine.execTStartTimeout n s
  | .trainingRetryTimer n => Sys2Proof.Machine.execTrainingRetryTimer n s
  | .presetMeasureEnd n p d => Sys2Proof.Machine.execPresetMeasureEnd n p d s
  | .flitReceive n lanes => Sys2Proof.Machine.execFlitReceive n lanes s
  | .replay n seq => Sys2Proof.Machine.execReplay n seq s
  | .ack n seq => Sys2Proof.Machine.execAck n seq s
  | .ackTimer n => Sys2Proof.Machine.execAckTimer n s
  | .replayRepeatTimer n => Sys2Proof.Machine.execReplayRepeatTimer n s
  | .replayTimer n => Sys2Proof.Machine.execReplayTimer n s
  | .recoveryFallbackTimer n => Sys2Proof.Machine.execRecoveryFallbackTimer n s
  | .recoveryTimeout n => Sys2Proof.Machine.execRecoveryTimeout n s
  | .fullTrainingTimer n => Sys2Proof.Machine.execFullTrainingTimer n s
  | .credit n c => Sys2Proof.Machine.execCredit n c s
  | .creditReturnTimer n tc => Sys2Proof.Machine.execCreditReturnTimer n tc s
  | .creditStallTimer n pool tc => Sys2Proof.Machine.execCreditStallTimer n pool tc s
  | .turn n lo late age => Sys2Proof.Machine.execTurn n lo late age s
  | .power n kind target => Sys2Proof.Machine.execPower n kind target s
  | .coastIdleTimer n => Sys2Proof.Machine.execCoastIdleTimer n s
  | .retrain n widen => Sys2Proof.Machine.execRetrain n widen s
  | .linkDisWrite n src be v => Sys2Proof.Machine.execLinkDisWrite n src be v s
  | .retrainWrite n src be v => Sys2Proof.Machine.execRetrainWrite n src be v s
  | .widenWrite n src be v => Sys2Proof.Machine.execWidenWrite n src be v s
  | .rd n r => Sys2Proof.Machine.execRd n r s
  | .wr n r data => Sys2Proof.Machine.execWr n r data s
  | .wrp n r => Sys2Proof.Machine.execWrp n r s
  | .wrm n r data => Sys2Proof.Machine.execWrm n r data s
  | .atSwap n r data => Sys2Proof.Machine.execAtSwap n r data s
  | .atCas n r data => Sys2Proof.Machine.execAtCas n r data s
  | .atAdd n r data => Sys2Proof.Machine.execAtAdd n r data s
  | .atAnd n r data => Sys2Proof.Machine.execAtAnd n r data s
  | .atOr n r data => Sys2Proof.Machine.execAtOr n r data s
  | .atXor n r data => Sys2Proof.Machine.execAtXor n r data s
  | .atSmax n r data => Sys2Proof.Machine.execAtSmax n r data s
  | .atSmin n r data => Sys2Proof.Machine.execAtSmin n r data s
  | .atUmax n r data => Sys2Proof.Machine.execAtUmax n r data s
  | .atUmin n r data => Sys2Proof.Machine.execAtUmin n r data s
  | .fence n r => Sys2Proof.Machine.execFence n r s
  | .cfgRd n r => Sys2Proof.Machine.execCfgRd n r s
  | .cfgWr n r v => Sys2Proof.Machine.execCfgWr n r v s
  | .doorbell n v => Sys2Proof.Machine.execDoorbell n v s
  | .msg n r => Sys2Proof.Machine.execMsg n r s
  | .reservedRequest n op tc tag => Sys2Proof.Machine.execReservedRequest n op tc tag s
  | .rdData n r data => Sys2Proof.Machine.execRdData n r data s
  | .cmp n r => Sys2Proof.Machine.execCmp n r s
  | .atData n r data => Sys2Proof.Machine.execAtData n r data s
  | .cfgData n r => Sys2Proof.Machine.execCfgData n r s
  | .reservedResponse n op => Sys2Proof.Machine.execReservedResponse n op s
  | .responseSend n => Sys2Proof.Machine.execResponseSend n s
  | .promenadeGrant dest => Sys2Proof.Machine.execPromenadeGrant dest s
  | .arbiterAgeLimit id => Sys2Proof.Machine.execArbiterAgeLimit id s
  | .readDataReturn p flips => Sys2Proof.Machine.execReadDataReturn p flips s
  | .rmwComplete p => Sys2Proof.Machine.execRmwComplete p s
  | .forwardHoldTimeout n => Sys2Proof.Machine.execForwardHoldTimeout n s
  | .contextTimeout n ctx => Sys2Proof.Machine.execContextTimeout n ctx s
  | .roleWrite n src be v => Sys2Proof.Machine.execRoleWrite n src be v s
  | .windowBaseWrite src be v => Sys2Proof.Machine.execWindowBaseWrite src be v s
  | .spLoWrite e src be v => Sys2Proof.Machine.execSpLoWrite e src be v s
  | .spHiWrite e src be v => Sys2Proof.Machine.execSpHiWrite e src be v s
  | .portRoleSet m payload => Sys2Proof.Machine.execPortRoleSet m payload s
  | .windowSet m payload => Sys2Proof.Machine.execWindowSet m payload s
  | .signpostSet m payload => Sys2Proof.Machine.execSignpostSet m payload s
  | .poolStatus m payload => Sys2Proof.Machine.execPoolStatus m payload s
  | .schedulerIssue p => Sys2Proof.Machine.execSchedulerIssue p s
  | .aged1 p id => Sys2Proof.Machine.execAged1 p id s
  | .aged2 p id => Sys2Proof.Machine.execAged2 p id s
  | .acceptanceStallTimer p => Sys2Proof.Machine.execAcceptanceStallTimer p s
  | .throttleWindowBoundary p => Sys2Proof.Machine.execThrottleWindowBoundary p s
  | .adaptiveCloseTimer p b => Sys2Proof.Machine.execAdaptiveCloseTimer p b s
  | .powerDownEntry p r => Sys2Proof.Machine.execPowerDownEntry p r s
  | .maskLoWrite partitioned m src be v => Sys2Proof.Machine.execMaskLoWrite partitioned m src be v s
  | .maskHiWrite partitioned m src be v => Sys2Proof.Machine.execMaskHiWrite partitioned m src be v s
  | .mapSelWrite src be v => Sys2Proof.Machine.execMapSelWrite src be v s
  | .mapSet m payload => Sys2Proof.Machine.execMapSet m payload s
  | .mapStatus m payload => Sys2Proof.Machine.execMapStatus m payload s
  | .mapTranslate m payload => Sys2Proof.Machine.execMapTranslate m payload s
  | .angleStep => Sys2Proof.Machine.execAngleStep s
  | .turnBoundary => Sys2Proof.Machine.execTurnBoundary s
  | .markerMissExpiry => Sys2Proof.Machine.execMarkerMissExpiry s
  | .cadTurnEdge age => Sys2Proof.Machine.execCadTurnEdge age s
  | .cadCtrlWrite src be v => Sys2Proof.Machine.execCadCtrlWrite src be v s
  | .cadNowLoRead src => Sys2Proof.Machine.execCadNowLoRead src s
  | .refreshAccrual p r => Sys2Proof.Machine.execRefreshAccrual p r s
  | .rateChangeApply p => Sys2Proof.Machine.execRateChangeApply p s
  | .selfRefreshExit p r => Sys2Proof.Machine.execSelfRefreshExit p r s
  | .neighbourEscalation p => Sys2Proof.Machine.execNeighbourEscalation p s
  | .cadSet m payload => Sys2Proof.Machine.execCadSet m payload s
  | .cadStatus m payload => Sys2Proof.Machine.execCadStatus m payload s
  | .slotSet m payload => Sys2Proof.Machine.execSlotSet m payload s
  | .refWindowsSet m payload => Sys2Proof.Machine.execRefWindowsSet m payload s
  | .refSpread m payload => Sys2Proof.Machine.execRefSpread m payload s
  | .refStatus m payload => Sys2Proof.Machine.execRefStatus m payload s
  | .neighSet m payload => Sys2Proof.Machine.execNeighSet m payload s
  | .sparingCopyDone p flips => Sys2Proof.Machine.execSparingCopyDone p flips s
  | .repeatEntryExpiry p => Sys2Proof.Machine.execRepeatEntryExpiry p s
  | .scrubStepDue p => Sys2Proof.Machine.execScrubStepDue p s
  | .scrubEscalation p => Sys2Proof.Machine.execScrubEscalation p s
  | .bulkLineIssue => Sys2Proof.Machine.execBulkLineIssue s
  | .bulkComplete => Sys2Proof.Machine.execBulkComplete s
  | .eccLog3Read src p => Sys2Proof.Machine.execEccLog3Read src p s
  | .repeatEnWrite p src be v => Sys2Proof.Machine.execRepeatEnWrite p src be v s
  | .eccStatus m payload => Sys2Proof.Machine.execEccStatus m payload s
  | .eccClear m payload => Sys2Proof.Machine.execEccClear m payload s
  | .scrubRegions m payload => Sys2Proof.Machine.execScrubRegions m payload s
  | .repairMapRead m payload => Sys2Proof.Machine.execRepairMapRead m payload s
  | .spareList m payload => Sys2Proof.Machine.execSpareList m payload s
  | .spareCommit m payload => Sys2Proof.Machine.execSpareCommit m payload s
  | .rowSpare m payload => Sys2Proof.Machine.execRowSpare m payload s
  | .pavRetire m payload => Sys2Proof.Machine.execPavRetire m payload s
  | .fill m payload => Sys2Proof.Machine.execFill m payload s
  | .copy m payload => Sys2Proof.Machine.execCopy m payload s
  | .bulkStatus m payload => Sys2Proof.Machine.execBulkStatus m payload s
  | .bulkAbort m payload => Sys2Proof.Machine.execBulkAbort m payload s
  | .sliceStart p => Sys2Proof.Machine.execSliceStart p s
  | .sliceEnd p result => Sys2Proof.Machine.execSliceEnd p result s
  | .sliceWatchdog p => Sys2Proof.Machine.execSliceWatchdog p s
  | .sweepSliceDue => Sys2Proof.Machine.execSweepSliceDue s
  | .parkingTestDone u => Sys2Proof.Machine.execParkingTestDone u s
  | .bistFail1Read src p => Sys2Proof.Machine.execBistFail1Read src p s
  | .bistStatus m payload => Sys2Proof.Machine.execBistStatus m payload s
  | .sweepStart m payload => Sys2Proof.Machine.execSweepStart m payload s
  | .bistStop m payload => Sys2Proof.Machine.execBistStop m payload s
  | .sliceRow m payload => Sys2Proof.Machine.execSliceRow m payload s
  | .parkStart m payload => Sys2Proof.Machine.execParkStart m payload s
  | .certRead m payload => Sys2Proof.Machine.execCertRead m payload s
  | .certLoad m payload => Sys2Proof.Machine.execCertLoad m payload s
  | .certSubmit m payload => Sys2Proof.Machine.execCertSubmit m payload s
  | .arrayTest m payload => Sys2Proof.Machine.execArrayTest m payload s
  | .arrayRawRead m payload => Sys2Proof.Machine.execArrayRawRead m payload s
  | .arrayRawWrite m payload => Sys2Proof.Machine.execArrayRawWrite m payload s
  | .sensorSlotEnd conv => Sys2Proof.Machine.execSensorSlotEnd conv s
  | .haltDrainDone => Sys2Proof.Machine.execHaltDrainDone s
  | .haltClearWrite src be v => Sys2Proof.Machine.execHaltClearWrite src be v s
  | .hostThrWrite src be v => Sys2Proof.Machine.execHostThrWrite src be v s
  | .thmPeakRead src => Sys2Proof.Machine.execThmPeakRead src s
  | .thmStatus m payload => Sys2Proof.Machine.execThmStatus m payload s
  | .throttleSet m payload => Sys2Proof.Machine.execThrottleSet m payload s
  | .haltClear m payload => Sys2Proof.Machine.execHaltClear m payload s
  | .alertSet m payload => Sys2Proof.Machine.execAlertSet m payload s
  | .extSet m payload => Sys2Proof.Machine.execExtSet m payload s
  | .eyePointEnd n ds => Sys2Proof.Machine.execEyePointEnd n ds s
  | .tsvStepEnd p passes => Sys2Proof.Machine.execTsvStepEnd p passes s
  | .tsvWatchdog p => Sys2Proof.Machine.execTsvWatchdog p s
  | .tsvAutoDue p => Sys2Proof.Machine.execTsvAutoDue p s
  | .oscLearnPeriodEnd count => Sys2Proof.Machine.execOscLearnPeriodEnd count s
  | .oscLearnWrite src be v => Sys2Proof.Machine.execOscLearnWrite src be v s
  | .calStatus m payload => Sys2Proof.Machine.execCalStatus m payload s
  | .laneRetune m payload => Sys2Proof.Machine.execLaneRetune m payload s
  | .eyeScan m payload => Sys2Proof.Machine.execEyeScan m payload s
  | .tsvCal m payload => Sys2Proof.Machine.execTsvCal m payload s
  | .sensorCal m payload => Sys2Proof.Machine.execSensorCal m payload s
  | .oscLearn m payload => Sys2Proof.Machine.execOscLearn m payload s
  | .calAbort m payload => Sys2Proof.Machine.execCalAbort m payload s
  | .firmwareWatchdog => Sys2Proof.Machine.execFirmwareWatchdog s
  | .coreResetWrite src be v => Sys2Proof.Machine.execCoreResetWrite src be v s
  | .goDoorbell m src => Sys2Proof.Machine.execGoDoorbell m src s
  | .abortDoorbell m src => Sys2Proof.Machine.execAbortDoorbell m src s
  | .overrunClear m src be v => Sys2Proof.Machine.execOverrunClear m src be v s
  | .commandTaken => Sys2Proof.Machine.execCommandTaken s
  | .commandComplete m => Sys2Proof.Machine.execCommandComplete m s
  | .commandTimer m => Sys2Proof.Machine.execCommandTimer m s
  | .stewardWrite src be v => Sys2Proof.Machine.execStewardWrite src be v s
  | .imageVerifyDone => Sys2Proof.Machine.execImageVerifyDone s
  | .idGet m payload => Sys2Proof.Machine.execIdGet m payload s
  | .echo m payload => Sys2Proof.Machine.execEcho m payload s
  | .startupRecordRead m payload => Sys2Proof.Machine.execStartupRecordRead m payload s
  | .stewardStatus m payload => Sys2Proof.Machine.execStewardStatus m payload s
  | .stewardSet m payload => Sys2Proof.Machine.execStewardSet m payload s
  | .fwLoad m payload => Sys2Proof.Machine.execFwLoad m payload s
  | .fwActivate m payload => Sys2Proof.Machine.execFwActivate m payload s
  | .fwStatus m payload => Sys2Proof.Machine.execFwStatus m payload s
  | .eventRaise ev detail => Sys2Proof.Machine.execEventRaise ev detail s
  | .eventRecordWrite => Sys2Proof.Machine.execEventRecordWrite s
  | .eventMessageSend n => Sys2Proof.Machine.execEventMessageSend n s
  | .telemetrySend n => Sys2Proof.Machine.execTelemetrySend n s
  | .evtPortsWrite src be v => Sys2Proof.Machine.execEvtPortsWrite src be v s
  | .evtSeenClear k src be v => Sys2Proof.Machine.execEvtSeenClear k src be v s
  | .monitorWindowEnd u => Sys2Proof.Machine.execMonitorWindowEnd u s
  | .monRestartWrite u src be v => Sys2Proof.Machine.execMonRestartWrite u src be v s
  | .monSumLoRead src u lvl => Sys2Proof.Machine.execMonSumLoRead src u lvl s
  | .monConfig m payload => Sys2Proof.Machine.execMonConfig m payload s
  | .monRead m payload => Sys2Proof.Machine.execMonRead m payload s
  | .monSnapshot m payload => Sys2Proof.Machine.execMonSnapshot m payload s
  | .telemetrySet m payload => Sys2Proof.Machine.execTelemetrySet m payload s
  | .evtConfig m payload => Sys2Proof.Machine.execEvtConfig m payload s
  | .evtRead m payload => Sys2Proof.Machine.execEvtRead m payload s
  | .evtStatus m payload => Sys2Proof.Machine.execEvtStatus m payload s
  | .evtClear m payload => Sys2Proof.Machine.execEvtClear m payload s
  | .otpWordDone o => Sys2Proof.Machine.execOtpWordDone o s
  | .vddOtppChange present => Sys2Proof.Machine.execVddOtppChange present s
  | .otpRead m payload => Sys2Proof.Machine.execOtpRead m payload s
  | .otpProgram m payload => Sys2Proof.Machine.execOtpProgram m payload s
  | .otpLock m payload => Sys2Proof.Machine.execOtpLock m payload s
  | .otpLockForce m payload => Sys2Proof.Machine.execOtpLockForce m payload s
  | .repairOtp m payload => Sys2Proof.Machine.execRepairOtp m payload s
  | .otpStatus m payload => Sys2Proof.Machine.execOtpStatus m payload s
  | .otpJournalRead m payload => Sys2Proof.Machine.execOtpJournalRead m payload s
  | .deviceKeyDerived => Sys2Proof.Machine.execDeviceKeyDerived s
  | .signingDone => Sys2Proof.Machine.execSigningDone s
  | .idCertRead m payload => Sys2Proof.Machine.execIdCertRead m payload s
  | .attest m payload => Sys2Proof.Machine.execAttest m payload s
  | .keyEnrol m payload => Sys2Proof.Machine.execKeyEnrol m payload s
  | .workshopEnter m payload => Sys2Proof.Machine.execWorkshopEnter m payload s
  | .workshopExit m payload => Sys2Proof.Machine.execWorkshopExit m payload s
  | .sbStatusByte => Sys2Proof.Machine.execSbStatusByte s
  | .sbStatus => Sys2Proof.Machine.execSbStatus s
  | .sbWinPtr ptr pec => Sys2Proof.Machine.execSbWinPtr ptr pec s
  | .sbWinRead => Sys2Proof.Machine.execSbWinRead s
  | .sbWinWrite bytes pec => Sys2Proof.Machine.execSbWinWrite bytes pec s
  | .sbMbxWrite bytes pec => Sys2Proof.Machine.execSbMbxWrite bytes pec s
  | .sbMbxGo v pec => Sys2Proof.Machine.execSbMbxGo v pec s
  | .sbMbxRead => Sys2Proof.Machine.execSbMbxRead s
  | .sbMbxPtr v pec => Sys2Proof.Machine.execSbMbxPtr v pec s
  | .sbMbxStat => Sys2Proof.Machine.execSbMbxStat s
  | .sbQuickCommand code => Sys2Proof.Machine.execSbQuickCommand code s
  | .sbStretchLimit u => Sys2Proof.Machine.execSbStretchLimit u s
  | .sbBusFault cause => Sys2Proof.Machine.execSbBusFault cause s
  | .sbRepeatedStartInAck => Sys2Proof.Machine.execSbRepeatedStartInAck s
  | .wakeByAddress addr => Sys2Proof.Machine.execWakeByAddress addr s
  | .wakeStretchLimit => Sys2Proof.Machine.execWakeStretchLimit s
  | .attentionAssert => Sys2Proof.Machine.execAttentionAssert s
  | .attentionArbitration won acked => Sys2Proof.Machine.execAttentionArbitration won acked s
  | .attentionWaitExpiry => Sys2Proof.Machine.execAttentionWaitExpiry s
  | .attentionRetryTimer => Sys2Proof.Machine.execAttentionRetryTimer s
  | .sdaReleaseTimeout => Sys2Proof.Machine.execSdaReleaseTimeout s
  | .sclLowTimeout => Sys2Proof.Machine.execSclLowTimeout s
  | .powerSet m payload => Sys2Proof.Machine.execPowerSet m payload s
  | .holdHandshakeTimeout n => Sys2Proof.Machine.execHoldHandshakeTimeout n s
  | .pavilionDrainDone p => Sys2Proof.Machine.execPavilionDrainDone p s
  | .sleepExitClocksRun => Sys2Proof.Machine.execSleepExitClocksRun s
  | .wakeNInput => Sys2Proof.Machine.execWakeNInput s
  | .wakeNDriveEnd => Sys2Proof.Machine.execWakeNDriveEnd s
  | .powerStatus m payload => Sys2Proof.Machine.execPowerStatus m payload s
  | .shutdown m payload => Sys2Proof.Machine.execShutdown m payload s
  | .glbRstPortWrite src be v => Sys2Proof.Machine.execGlbRstPortWrite src be v s
  | .glbRstPavWrite src be v => Sys2Proof.Machine.execGlbRstPavWrite src be v s
  | .pavilionReset p => Sys2Proof.Machine.execPavilionReset p s
  | .trstNLow => Sys2Proof.Machine.execTrstNLow s
  | .tapInstructionUpdate code => Sys2Proof.Machine.execTapInstructionUpdate code s
  | .registerWrite off src be v => Sys2Proof.Machine.execRegisterWrite off src be v s
  | .readClearCounter src off => Sys2Proof.Machine.execReadClearCounter src off s
  | .resetNRise => Sys2Proof.Machine.execResetNRise s
  | .pllRelockDone n => Sys2Proof.Machine.execPllRelockDone n s
  | .managementSramUncorrectable word => Sys2Proof.Machine.execManagementSramUncorrectable word s

end Sys2Proof.Machine
end

