-- ==== Sys2Proof/Machine/Step.lean ====
section
/-! DEFINITION. One step of the block: the command at the front of the queue, or a tick of the model's clock. -/
namespace Sys2Proof.Machine
open Sys2Proof

/-- The command at the front of the queue has its effect on the rest of the state; with no command waiting a tick passes.
[DESIGN CHOICE, notes/assumptions/1.md; DESIGN CHOICE, notes/assumptions/62.md] -/
def step (s : State) : Host.Outcome State Fault Refusal :=
  match s.pending with
  | [] => .next s.tick
  | c :: rest => exec c { s with pending := rest }

/-- A word put at the front of the queue as the command it spells: none does. [DEDUCED, notes/assumptions/3.md] -/
def State.withFetchWord (s : State) (nbits w : Nat) : State :=
  match decodeTableWord nbits w with
  | some c => { s with pending := c :: s.pending }
  | none => s

end Sys2Proof.Machine
end

