-- ==== Sys2Proof/Safety.lean ====
section
/-! DEFINITION. The terms in which statements speak of the stack: what two states have in common, what every command keeps,
and when nothing waits. -/
namespace Sys2Proof.Machine
open Sys2Proof

/-! ## What two states have in common -/

/-- Every register but those at the offsets listed reads as before. -/
def RegsKept (s t : State) (offs : List Nat) : Prop := ∀ off, off ∉ offs → t.reg off = s.reg off

/-- Every byte of DRAM reads as before. -/
def DramKept (s t : State) : Prop := ∀ a, t.cell a = s.cell a

/-- Every port but one is as before. -/
def PortsKept (s t : State) (n : Nat) : Prop := ∀ i, i ≠ n → t.port i = s.port i

/-- Every pavilion but one is as before. -/
def PavsKept (s t : State) (p : Nat) : Prop := ∀ i, i ≠ p → t.pav i = s.pav i

/-- Every mailbox but one is as before, outside the registers. -/
def MbxsKept (s t : State) (m : Nat) : Prop := ∀ i, i ≠ m → t.mbx i = s.mbx i

/-- A raising of an event source is on its way to the event logic (R546). -/
def Raised (s : State) (ev : Nat) : Prop := s.crossing.any (fun c => c.1 == ev) = true

/-! ## What every command keeps -/

/-- The fuses blown in the first are blown in the second. -/
def Within {w : Nat} (a b : BitVec w) : Prop := a &&& b = a

/-- No fuse that was blown is unblown: array, spare rows, redirection, the copies of the direct field, the counter. -/
structure FusesKept (o o' : Otp) : Prop where
  words : ∀ w, Within (tabGet 0 o.words w) (tabGet 0 o'.words w)
  spares : ∀ w, Within (tabGet 0 o.spares w) (tabGet 0 o'.spares w)
  redir : ∀ i, Within (tabGet 0 o.redir i) (tabGet 0 o'.redir i)
  df0 : Within o.df0 o'.df0
  df1 : Within o.df1 o'.df1
  df2 : Within o.df2 o'.df2
  arb : Within o.arb o'.arb

/-- What holds between a state and any later one: the queue of commands is the sender's alone, time and the count of free
values do not run back, the cells of the DRAM stay in canonical form, and no blown fuse is unblown. -/
structure Going (x s : State) : Prop where
  pending : s.pending = x.pending
  now : x.now ≤ s.now
  free : x.freeIdx ≤ s.freeIdx
  mem : Memory.wf x.dram = true → Memory.wf s.dram = true
  fuses : FusesKept x.otp s.otp

/-- The same, and the variant stays as it was latched (R2). -/
structure Keeps (x s : State) : Prop extends Going x s where
  variant : s.otp.latDf = x.otp.latDf

/-- Every next state of an outcome keeps what `Keeps` says. -/
def OutKeeps (x : State) (o : Out) : Prop := ∀ t, o = .next t → Keeps x t

/-! ## Mailbox commands -/

/-- The rows of the table that are one mailbox command: its mailbox, opcode and payload. -/
def mailboxRow : Instr → Option (MbxId × Nat × List Byte)
  | .portRoleSet m pl => some (m, 0x0210, pl)
  | .windowSet m pl => some (m, 0x0211, pl)
  | .signpostSet m pl => some (m, 0x0212, pl)
  | .poolStatus m pl => some (m, 0x0213, pl)
  | .mapSet m pl => some (m, 0x0220, pl)
  | .mapStatus m pl => some (m, 0x0221, pl)
  | .mapTranslate m pl => some (m, 0x0222, pl)
  | .cadSet m pl => some (m, 0x0301, pl)
  | .cadStatus m pl => some (m, 0x0302, pl)
  | .slotSet m pl => some (m, 0x0303, pl)
  | .refWindowsSet m pl => some (m, 0x0310, pl)
  | .refSpread m pl => some (m, 0x0311, pl)
  | .refStatus m pl => some (m, 0x0312, pl)
  | .neighSet m pl => some (m, 0x0320, pl)
  | .eccStatus m pl => some (m, 0x0401, pl)
  | .eccClear m pl => some (m, 0x0402, pl)
  | .scrubRegions m pl => some (m, 0x0410, pl)
  | .repairMapRead m pl => some (m, 0x0420, pl)
  | .spareList m pl => some (m, 0x0421, pl)
  | .spareCommit m pl => some (m, 0x0422, pl)
  | .rowSpare m pl => some (m, 0x0423, pl)
  | .pavRetire m pl => some (m, 0x0424, pl)
  | .fill m pl => some (m, 0x0D01, pl)
  | .copy m pl => some (m, 0x0D02, pl)
  | .bulkStatus m pl => some (m, 0x0D03, pl)
  | .bulkAbort m pl => some (m, 0x0D04, pl)
  | .bistStatus m pl => some (m, 0x0501, pl)
  | .sweepStart m pl => some (m, 0x0502, pl)
  | .bistStop m pl => some (m, 0x0503, pl)
  | .sliceRow m pl => some (m, 0x0504, pl)
  | .parkStart m pl => some (m, 0x0510, pl)
  | .certRead m pl => some (m, 0x0511, pl)
  | .certLoad m pl => some (m, 0x0512, pl)
  | .certSubmit m pl => some (m, 0x0513, pl)
  | .arrayTest m pl => some (m, 0x0520, pl)
  | .arrayRawRead m pl => some (m, 0x0521, pl)
  | .arrayRawWrite m pl => some (m, 0x0522, pl)
  | .thmStatus m pl => some (m, 0x0601, pl)
  | .throttleSet m pl => some (m, 0x0602, pl)
  | .haltClear m pl => some (m, 0x0603, pl)
  | .alertSet m pl => some (m, 0x0604, pl)
  | .extSet m pl => some (m, 0x0605, pl)
  | .calStatus m pl => some (m, 0x0701, pl)
  | .laneRetune m pl => some (m, 0x0702, pl)
  | .eyeScan m pl => some (m, 0x0703, pl)
  | .tsvCal m pl => some (m, 0x0704, pl)
  | .sensorCal m pl => some (m, 0x0705, pl)
  | .oscLearn m pl => some (m, 0x0706, pl)
  | .calAbort m pl => some (m, 0x0707, pl)
  | .idGet m pl => some (m, 0x0101, pl)
  | .echo m pl => some (m, 0x0102, pl)
  | .startupRecordRead m pl => some (m, 0x0103, pl)
  | .stewardStatus m pl => some (m, 0x0201, pl)
  | .stewardSet m pl => some (m, 0x0202, pl)
  | .fwLoad m pl => some (m, 0x0A01, pl)
  | .fwActivate m pl => some (m, 0x0A02, pl)
  | .fwStatus m pl => some (m, 0x0A03, pl)
  | .monConfig m pl => some (m, 0x0801, pl)
  | .monRead m pl => some (m, 0x0802, pl)
  | .monSnapshot m pl => some (m, 0x0803, pl)
  | .telemetrySet m pl => some (m, 0x0804, pl)
  | .evtConfig m pl => some (m, 0x0C01, pl)
  | .evtRead m pl => some (m, 0x0C02, pl)
  | .evtStatus m pl => some (m, 0x0C03, pl)
  | .evtClear m pl => some (m, 0x0C04, pl)
  | .otpRead m pl => some (m, 0x0901, pl)
  | .otpProgram m pl => some (m, 0x0902, pl)
  | .otpLock m pl => some (m, 0x0903, pl)
  | .otpLockForce m pl => some (m, 0x0904, pl)
  | .repairOtp m pl => some (m, 0x0905, pl)
  | .otpStatus m pl => some (m, 0x0906, pl)
  | .otpJournalRead m pl => some (m, 0x0907, pl)
  | .idCertRead m pl => some (m, 0x0A10, pl)
  | .attest m pl => some (m, 0x0A11, pl)
  | .keyEnrol m pl => some (m, 0x0A12, pl)
  | .workshopEnter m pl => some (m, 0x0A20, pl)
  | .workshopExit m pl => some (m, 0x0A21, pl)
  | .powerSet m pl => some (m, 0x0B01, pl)
  | .powerStatus m pl => some (m, 0x0B02, pl)
  | .shutdown m pl => some (m, 0x0B03, pl)
  | _ => none

/-- No other mailbox with a pending command comes before this one in the round the firmware takes them in (R514). -/
def NextInRound (s : State) (m : Nat) : Prop :=
  ∀ j, j < 18 → j ≠ m → s.rd (Fld.MBX_STAT_STATE j) = mbPending →
    (m + 18 - (s.lastTaken + 1) % 18) % 18 < (j + 18 - (s.lastTaken + 1) % 18) % 18

/-- A mailbox command will be run (R511, R514, R519 orders 1 to 5): the firmware takes commands, the mailbox has an owner, is free
and next in the round, the payload fits, the command is present, and its source may issue it. -/
structure Accepts (m : MbxId) (op : Nat) (pl : List Byte) (s : State) : Prop where
  takes : s.takes = true
  owner : s.owner m < 17
  free : s.mbxFree m = true
  next : NextInRound s m
  len : pl.length ≤ 496
  present : s.opAbsent op = false
  workshop : opsWorkshop.contains op = true → m.val = 17
  allowed : s.opAllowed m op = true

/-- The command area that one mailbox command of the table makes (R507, R508). -/
def areaOf (op : Nat) (pl : List Byte) : List Byte := leBytes 2 op ++ leBytes 2 pl.length ++ zeros 12 ++ pl

/-- A mailbox whose pending command is taken (R514): opcode and payload held, no time limit, its state RUNNING. -/
def Running (m op : Nat) (pl : List Byte) (s : State) : State :=
  let t := s.modMbx m (fun b => { b with
    opcode := BitVec.ofNat 16 op
    payload := pl
    startAt := s.now })
  { t.wr (Fld.MBX_STAT_STATE m) mbRunning with lastTaken := m }

/-- A mailbox with a command just taken (R512, R514): its snapshot, opcode and payload held, SEQ 0, its state RUNNING. -/
def Taken (m op : Nat) (pl : List Byte) (s : State) : State := Running m op pl (pend m (areaOf op pl) s)

/-! ## Accesses to registers -/

/-- The management agent serves configuration accesses (R698), and no access of the sideband waits for it. -/
structure Serves (s : State) : Prop where
  served : s.served = true
  late : s.sb.late = []
  hand : s.sb.hand = none

/-- A write reaches the register of a row whole: it is served, enables a byte, and covers no RWS field its source may not write
(R167). -/
structure Reaches (s : State) (src off : Nat) (row : RegRow) (be : BitVec 4) : Prop extends Serves s where
  isRow : regAt off = some row
  bytes : be ≠ 0
  allowed : coversRws row.fields (beBits be) = true → s.steward src = true

/-- What a register's fields and limits make of a write (R11, R12). -/
def Written (s : State) (src off : Nat) (row : RegRow) (be : BitVec 4) (v : Reg32) : Reg32 :=
  s.settled off (s.reg off) (fieldsWrite row.fields (s.reg off) v (beBits be) (s.steward src))

/-- The bits written 1 that the source may write. -/
def Ones (s : State) (src : Nat) (row : RegRow) (be : BitVec 4) (v : Reg32) : Reg32 :=
  writtenOnes row.fields v (beBits be) (s.steward src)

/-- The rows of the table that are a write of one register: source, offset, byte enables and value. -/
def writeRow : Instr → Option (Source × Nat × BitVec 4 × Reg32)
  | .testStateWrite n p src be v => some (src, Off.PRT_LANE_CTRL n p, be, v)
  | .prbsClr n src be v => some (src, Off.PRT_PRBS_CTRL n, be, v)
  | .injectWrite n src be v => some (src, Off.PRT_INJ_CTRL n, be, v)
  | .linkDisWrite n src be v => some (src, Off.PRT_LINK_CTRL n, be, v)
  | .retrainWrite n src be v => some (src, Off.PRT_LINK_CTRL n, be, v)
  | .widenWrite n src be v => some (src, Off.PRT_LINK_CTRL n, be, v)
  | .roleWrite n src be v => some (src, Off.PRT_POOL_CTRL n, be, v)
  | .windowBaseWrite src be v => some (src, Off.GLB_POOL_WINDOW, be, v)
  | .spLoWrite e src be v => some (src, Off.GLB_SP_LO e, be, v)
  | .spHiWrite e src be v => some (src, Off.GLB_SP_HI e, be, v)
  | .maskLoWrite partitioned m src be v => some (src, if partitioned then Off.GLB_MAP_P_LO m else Off.GLB_MAP_I_LO m, be, v)
  | .maskHiWrite partitioned m src be v => some (src, if partitioned then Off.GLB_MAP_P_HI m else Off.GLB_MAP_I_HI m, be, v)
  | .mapSelWrite src be v => some (src, Off.GLB_MAP_CTRL, be, v)
  | .cadCtrlWrite src be v => some (src, Off.CAD_CTRL, be, v)
  | .repeatEnWrite p src be v => some (src, Off.PAV_ECC_CTRL p, be, v)
  | .haltClearWrite src be v => some (src, Off.THM_HALT, be, v)
  | .hostThrWrite src be v => some (src, Off.THM_CTRL, be, v)
  | .oscLearnWrite src be v => some (src, Off.GLB_CAL_CTRL, be, v)
  | .coreResetWrite src be v => some (src, Off.GLB_FW_CTRL, be, v)
  | .goDoorbell m src => some (src, Off.MBX_DOORBELL m, 3, 1)
  | .abortDoorbell m src => some (src, Off.MBX_DOORBELL m, 3, 2)
  | .overrunClear m src be v => some (src, Off.MBX_STAT m, be, v)
  | .stewardWrite src be v => some (src, Off.GLB_STEWARD, be, v)
  | .evtPortsWrite src be v => some (src, Off.EVT_ROUTE, be, v)
  | .evtSeenClear i src be v => some (src, Off.EVT_SEEN i, be, v)
  | .monRestartWrite u src be v => some (src, Off.MON_CTRL u, be, v)
  | .glbRstPortWrite src be v => some (src, Off.GLB_RST_PORT, be, v)
  | .glbRstPavWrite src be v => some (src, Off.GLB_RST_PAV, be, v)
  | .registerWrite off src be v => some (src, off.toNat, be, v)
  | _ => none

/-- The rows of the table that are a read of one register and nothing before it: source and offset. -/
def readRow : Instr → Option (Source × Nat)
  | .cadNowLoRead src => some (src, Off.CAD_NOW_LO)
  | .eccLog3Read src p => some (src, Off.PAV_ECC_LOG_3 p)
  | .bistFail1Read src p => some (src, Off.PAV_BIST_FAIL_1 p)
  | .thmPeakRead src => some (src, Off.THM_PEAK)
  | .monSumLoRead src u lvl => some (src, if lvl then Off.MON_LVL_SUM_LO u else Off.MON_SUM_LO u)
  | .readClearCounter src off => some (src, off.toNat)
  | _ => none

/-- Nothing of a port waits to be sent: no TURN slot, no credits that are due, no power handshake. -/
structure NothingWaits (s : State) (n : Nat) : Prop where
  turn : (s.port n).turnDue = none
  asked : (s.port n).powerAsk = none
  shake : (s.port n).shake = .idle
  few : ∀ k < 12, tabGet 0 (s.port n).credit.ret k < 8
  late : ∀ tc < 4, tabGet none (s.port n).credit.retAt tc = none

/-! ## Transactions -/

/-- The rows of the table that are one request or response slot with its data slots: port, slot and data (R145 to R175). -/
def txnRow : Instr → Option (PortId × BitVec 80 × List Line)
  | .rd n r => some (n, encMem 0x01 r, [])
  | .wr n r data => some (n, encMem 0x02 r, data)
  | .wrp n r => some (n, encMem 0x03 r, [])
  | .wrm n r data => some (n, encMem 0x04 r, data)
  | .atSwap n r data => some (n, encMem 0x08 r, data)
  | .atCas n r data => some (n, encMem 0x09 r, data)
  | .atAdd n r data => some (n, encMem 0x0A r, data)
  | .atAnd n r data => some (n, encMem 0x0B r, data)
  | .atOr n r data => some (n, encMem 0x0C r, data)
  | .atXor n r data => some (n, encMem 0x0D r, data)
  | .atSmax n r data => some (n, encMem 0x0E r, data)
  | .atSmin n r data => some (n, encMem 0x0F r, data)
  | .atUmax n r data => some (n, encMem 0x10 r, data)
  | .atUmin n r data => some (n, encMem 0x11 r, data)
  | .fence n r => some (n, encFence r, [])
  | .cfgRd n r => some (n, encCfg 0x18 r, [])
  | .cfgWr n r v => some (n, encCfg 0x19 r, [lineOf (leBytes 4 v.toNat)])
  | .doorbell n v => some (n, encMsg { tc := 3, value := v, data := false, mtype := 0 }, [])
  | .msg n r => some (n, encMsg r, if r.data then [lineZero] else [])
  | .reservedRequest n op tc tag =>
    if op ≠ 0 ∧ op.toNat < 0x20 ∧ reqDefined op.toNat = false then some (n, encReserved op tc tag, []) else none
  | .rdData n r data => some (n, encRsp 0x20 r, data)
  | .cmp n r => some (n, encRsp 0x21 r, [])
  | .atData n r data => some (n, encRsp 0x22 r, data)
  | .cfgData n r => some (n, encRsp 0x23 r, [])
  | .reservedResponse n op =>
    if 0x24 ≤ op.toNat ∧ op.toNat < 0x38 then
      some (n, encRsp op { hop := 0, src := 0, status := 0, tc := 0, tag := 0, spec := 0 }, []) else none
  | _ => none

/-- A port that has just received something but a NULL flit (R135). -/
def Heard (n : Nat) (s : State) : State := s.modPort n (fun p => { p with idleSince := s.now })

/-- The credits that slots and a data slot use are taken from what was granted (R127, R131). -/
def Charged (n : Nat) (slots : List (BitVec 80)) (data : Bool) (s : State) : State :=
  (s.flitCredits n slots data).foldl (fun a c => a.wr (fldRx n c.2 c.1) (a.rd (fldRx n c.2 c.1) - 1)) s

/-- A request slot as its port takes it: on a host port HOP and SRC are read as 0 (R151). -/
def asTaken (s : State) (n : Nat) (slot : BitVec 80) : BitVec 80 :=
  if s.role n = 0 then slotPut (slotPut slot 65 3 0) 68 4 0 else slot

/-- Whether the tag of a slot is that of an outstanding request of the port (R176). -/
def tagHeld (s : State) (n : Nat) (slot : BitVec 80) : Bool :=
  (s.port n).txns.any (fun x => x.holdsTag && slotTag x.slot == slotTag slot)

end Sys2Proof.Machine
end

