-- ==== Sys2Proof/Certificates/Slice0/Obligations.lean ====
section
/-! DEFINITION. What the provers are asked to show: the rules of the manual as statements about `exec`, `step` and the operations
they share. -/
open Sys2Proof Sys2Proof.Machine

/-- O1. A step takes the command at the front of the queue and is `exec` of it on the state with the rest of the queue. On an
empty queue a step is a tick of the model's own clock (notes/assumptions/1.md, the model's choice): with no change of power state,
shutdown or parking test under way nothing but the time changes. -/
def Obligations.StepRunsFrontCommand : Prop :=
  (∀ (c : Instr) (rest : List Instr) (s : State),
     step { s with pending := c :: rest } = exec c { s with pending := rest }) ∧
  ((∀ s : State, s.pending = [] → step s = .next s.tick) ∧
   (∀ s : State, s.power.trans = .none_ → s.power.shut = none → s.test.parkRun = false → s.pending = [] →
     step s = .next { s with now := s.now + 1 }))

/-- O2. No command stops the stack: every one of the table's rows, in every state, answers a next state, which leaves the queue to
its sender, does not run time or the count of free values back, keeps the DRAM cells in canonical form and unblows no fuse (R586);
and but for the rows that read the direct field or lose the supplies, the variant stays as it was latched (R2). A run of any
length from any state keeps the same. -/
def Obligations.EveryCommandGoesOn : Prop :=
  (∀ (c : Instr) (s : State), ∃ t, exec c s = .next t ∧ Going s t ∧
     ((∀ ms tb, c ≠ .otpDirectFieldReady ms tb) → c ≠ .supplyDip → t.otp.latDf = s.otp.latDf)) ∧
  (∀ (k : Nat) (s : State), ∃ t, Host.Core.run core k s = .next t ∧
     t.pending = s.pending.drop k ∧ s.now ≤ t.now ∧ (Memory.wf s.dram = true → Memory.wf t.dram = true) ∧
     FusesKept s.otp t.otp)

/-- O3. The state after reset is in canonical form and idle: power is off, every register reads the value of its table (a field
with no reset value there reads the one of notes/assumptions/6.md and 7.md), every port and pavilion is as notes/assumptions/8.md
resets it (the model's choice), no event is on its way, and no command waits. -/
def Obligations.ResetIsWellFormed : Prop :=
  Memory.wf State.reset.dram = true ∧ tabSortedFrom 0 State.reset.regs = true ∧ State.reset.pending = [] ∧
    State.reset.power.boot = .off ∧ State.reset.now = 0 ∧ (∀ off, State.reset.reg off = regReset off) ∧
    (∀ m, m < 18 → State.reset.rd (Fld.MBX_OWNER_SOURCE m) = if m = 17 then 31 else m) ∧
    State.reset.rd Fld.CAD_LEN_LEN = 0x186A00 ∧ State.reset.rd Fld.GLB_BOOT_STAT_PHASE = 0 ∧ State.reset.crossing = [] ∧
    (∀ n, State.reset.port n = Port.reset) ∧ (∀ p, State.reset.pav p = Pav.reset)

/-- O4. Each of the table's eighty mailbox commands, issued in a free mailbox that is next in the round and whose owner may issue
it, while the firmware takes commands, runs: it is snapshot and taken (R512, R514), and what its opcode asks for is done. Shown
for the whole list in one statement. While the firmware takes none, or another pending command comes first, it is left pending. A
refused command of the table (R519 orders 1 to 5, R505): its answer carries the code of the first check it fails, and of a command
its source may not issue the denial is counted and recorded. -/
def Obligations.MailboxCommandsRun : Prop :=
  ((∀ (c : Instr) (m : MbxId) (op : Nat) (pl : List Byte) (s : State), mailboxRow c = some (m, op, pl) → Accepts m op pl s →
     exec c s = .next (quietStep (runOp m op pl (Taken m op pl s)))) ∧
   (∀ (c : Instr) (m : MbxId) (op : Nat) (pl : List Byte) (s : State), mailboxRow c = some (m, op, pl) →
     s.mgmtOn = true → s.owner m < 17 → s.mbxFree m = true → pl.length ≤ 496 → (s.takes = false ∨ ¬ NextInRound s m) →
     exec c s = .next (quietStep (pend m (areaOf op pl) s)))) ∧
  (∀ (c : Instr) (m : MbxId) (op : Nat) (pl : List Byte) (s : State), mailboxRow c = some (m, op, pl) →
     s.takes = true → s.owner m < 17 → s.mbxFree m = true → NextInRound s m → pl.length ≤ 496 →
     (s.opAbsent op = true → exec c s = .next (quietStep ((Taken m op pl s).refuse m ccUnsupported 0xFFFF))) ∧
     (s.opAbsent op = false → opsWorkshop.contains op = true → m.val ≠ 17 →
       exec c s = .next (quietStep ((Taken m op pl s).refuse m ccWorkshop 0xFFFF))) ∧
     (s.opAbsent op = false → opsWorkshop.contains op = false → s.opAllowed m op = false →
       exec c s = .next (quietStep ((deny (s.owner m) true op (Taken m op pl s)).refuse m ccDenied 0xFFFF))))

/-- O5. A command just taken is RUNNING with SEQ and the snapshot of its command area, no result and no timer, nothing outside its
mailbox has changed, and no word of the snapshot holds a fault met before (R495). The end of a command's work leaves its answer in
the mailbox and changes nothing else; a refusal does the same with no payload. -/
def Obligations.TakenCommandsAreAnswered : Prop :=
  (∀ (m : MbxId) (op : Nat) (pl : List Byte) (s : State), pl.length ≤ 496 →
     let t := Taken m op pl s
     t.rd (Fld.MBX_STAT_STATE m) = mbRunning ∧ t.rd (Fld.MBX_STAT_SEQ m) = 0 ∧
     (t.mbx m).opcode = BitVec.ofNat 16 op ∧ (t.mbx m).payload = pl ∧ (t.mbx m).result = none ∧ (t.mbx m).endCode = none ∧
     (t.mbx m).deadline = none ∧ (t.mbx m).startAt = s.now ∧ t.inHand m = true ∧
     RegsKept s t [Off.MBX_STAT m] ∧ MbxsKept s t m ∧
     t.sram = s.sram.filter (fun e => !(e.1 == m.val && decide (256 ≤ e.2.1) && decide (e.2.1 < 384))) ∧
     t = { s with regs := t.regs, mbxs := t.mbxs, sram := t.sram, lastTaken := t.lastTaken }) ∧
  ((∀ (m code : Nat) (pl : List Byte) (s : State), s.inHand m = true →
     let t := s.finish m code pl
     (t.mbx m).result = some { code := ((s.mbx m).endCode).getD (BitVec.ofNat 8 code), param := 0xFFFF, payload := pl } ∧
     MbxsKept s t m ∧ t = { s with mbxs := t.mbxs }) ∧
   (∀ (m code param : Nat) (s : State), m < 18 →
     let t := s.refuse m code param
     (t.mbx m).result = some { code := BitVec.ofNat 8 code, param := BitVec.ofNat 16 param, payload := [] } ∧
     MbxsKept s t m ∧ t = { s with mbxs := t.mbxs }))

/-- O6. A GO while the mailbox has a command in hand, by the doorbell or with a whole command: nothing of the command changes,
OVERRUN is set, the count goes up by one up to its end, and the doorbell overrun event is raised (R513). -/
def Obligations.BusyMailboxOverruns : Prop :=
  ∀ (m : MbxId) (s : State),
    (s.rd (Fld.MBX_STAT_STATE m) = mbPending ∨ s.rd (Fld.MBX_STAT_STATE m) = mbRunning ∨ s.rd (Fld.MBX_STAT_STATE m) = mbAborting) →
    let t := overrun m s
    (∀ src : Source, Serves s → s.owner m = src → exec (.goDoorbell m src) s = .next (quietStep { t with lastStatus := stOk })) ∧
    (∀ (c : Instr) (op : Nat) (pl : List Byte), mailboxRow c = some (m, op, pl) → s.mgmtOn = true → s.owner m < 17 →
      exec c s = .next (quietStep t)) ∧
    t.rd (Fld.MBX_STAT_OVERRUN m) = 1 ∧
    t.rd (Fld.MBX_CNT_OVERRUN m) = min (2 ^ (Fld.MBX_CNT_OVERRUN m).w - 1) (s.rd (Fld.MBX_CNT_OVERRUN m) + 1) ∧
    Raised t (968 + 7) ∧ t.rd (Fld.MBX_STAT_STATE m) = s.rd (Fld.MBX_STAT_STATE m) ∧
    t.rd (Fld.MBX_STAT_SEQ m) = s.rd (Fld.MBX_STAT_SEQ m) ∧ t.rd (Fld.MBX_STAT_CODE m) = s.rd (Fld.MBX_STAT_CODE m) ∧
    t.rd (Fld.MBX_CNT_COMPLETED m) = s.rd (Fld.MBX_CNT_COMPLETED m) ∧ RegsKept s t [Off.MBX_STAT m, Off.MBX_CNT m] ∧
    t = { s with regs := t.regs, crossing := t.crossing }

/-- O7. The rows COMMAND_TAKEN, COMMAND_COMPLETE, COMMAND_TIMER. -/
def Obligations.CommandsAreTakenAndCompleted : Prop :=
  -- the firmware takes the next pending command round the mailboxes
  (∀ (s : State) (m : Nat), s.takes = true → s.nextPending = some m →
    exec .commandTaken s = .next (takeCommand m s) ∧ s.rd (Fld.MBX_STAT_STATE m) = mbPending ∧
    (s.lastTaken ≤ 17 → ∀ j, j < 18 → j ≠ m → s.rd (Fld.MBX_STAT_STATE j) = mbPending →
      (m + 17 - s.lastTaken) % 18 < (j + 17 - s.lastTaken) % 18)) ∧
  -- a command whose work has ended completes: DONE, CODE, the response area, the count and the event
  (∀ (m : MbxId) (r : Result) (s : State), s.mgmtOn = true → (s.mbx m).result = some r →
    exec (.commandComplete m) s = .next (afterDone m (s.mbx m) r (completeWith m r s))) ∧
  (∀ (m : MbxId) (r : Result) (s : State), (s.mbx m).notify = false →
    let t := completeWith m r s
    t.rd (Fld.MBX_STAT_STATE m) = mbDone ∧ t.rd (Fld.MBX_STAT_CODE m) = r.code.toNat ∧ t.mbx m = Mbx.reset ∧
    (∀ i, i < 128 → t.reg (Off.MBX_RSP m i) =
      BitVec.ofNat 32 (leAt (responseBytes (s.mbx m) (s.rd (Fld.MBX_STAT_SEQ m)) ((s.now - (s.mbx m).startAt) / tUs) r) (4 * i) 4)) ∧
    Raised t (968 + 4) ∧ MbxsKept s t m ∧
    RegsKept s t ([Off.MBX_STAT m, Off.MBX_CNT m] ++ (List.range 128).map (fun i => Off.MBX_RSP m i)) ∧
    t.sram = s.sram.filter (fun e => !(e.1 == m.val && decide (128 ≤ e.2.1) && decide (e.2.1 < 256))) ∧
    t = { s with regs := t.regs, mbxs := t.mbxs, sram := t.sram, crossing := t.crossing }) ∧
  -- the timer of a command ends an abortable one with "timeout" and completes any other
  (∀ (m : MbxId) (t : Nat) (s : State), (s.mbx m).deadline = some t → s.inHand m = true →
    let u := ((s.atLeast t).raise (968 + 5) m).modMbx m (fun b => { b with deadline := none })
    exec (.commandTimer m) s = .next (quietStep (if abortable (s.mbx m).opcode.toNat = true then abortWork m ccTimeout u
      else forceDone m ccTimeout [] u)))

/-- O8. The status commands answer with the registers their tables name, as the mailbox's owner reads them, and with the fields
they add: ID_GET, STEWARD_STATUS, POOL_STATUS, MAP_STATUS, CAD_STATUS, REF_STATUS, ECC_STATUS, BULK_STATUS, BIST_STATUS,
THM_STATUS, CAL_STATUS, EVT_STATUS, FW_STATUS, OTP_STATUS, POWER_STATUS and STARTUP_RECORD_READ. Nothing but the answer changes.
-/
def Obligations.StatusCommandsAnswer : Prop :=
  ∀ (m : MbxId) (pl : List Byte) (s : State),
    (Accepts m 0x0101 pl s → let t := Taken m 0x0101 pl s
      exec (.idGet m pl) s = .next (quietStep (t.finish m ccOk (t.mbxRegs m [Off.GLB_ID, Off.GLB_FEATURES, Off.GLB_DEVID 0,
        Off.GLB_DEVID 1, Off.GLB_DEVID 2, Off.GLB_DEVID 3, Off.GLB_FW_STAT, Off.GLB_FW_VER, Off.GLB_FW_SVN, Off.GLB_FW_CAP,
        Off.GLB_POOL_WINDOW, Off.GLB_MAP_CTRL])))) ∧
    (Accepts m 0x0103 pl s → s.power.boot = .done → let t := Taken m 0x0103 pl s
      exec (.startupRecordRead m pl) s = .next (quietStep (t.finish m ccOk s.test.record))) ∧
    (Accepts m 0x0201 pl s → let t := Taken m 0x0201 pl s
      exec (.stewardStatus m pl) s = .next (quietStep (t.finish m ccOk
        (t.mbxRegs m [Off.GLB_STEWARD, Off.GLB_WHOAMI, Off.GLB_DENY, Off.GLB_DENY_LAST])))) ∧
    (Accepts m 0x0213 pl s → let t := Taken m 0x0213 pl s
      let mask (f : Nat → Bool) : Nat := (List.range 16).foldl (fun a n => a + b2n (f n) * 2 ^ n) 0
      exec (.poolStatus m pl) s = .next (quietStep (t.finish m ccOk (t.mbxRegs m [Off.GLB_POOL_WINDOW] ++
        leBytes 2 (mask (fun n => t.role n == 1)) ++ leBytes 2 (mask (fun n => t.role n == 1 && t.up n)) ++
        (List.range 32).flatMap (fun e => t.mbxRegs m [Off.GLB_SP_LO e, Off.GLB_SP_HI e]))))) ∧
    (Accepts m 0x0221 pl s → let t := Taken m 0x0221 pl s
      exec (.mapStatus m pl) s = .next (quietStep (t.finish m ccOk (t.mbxRegs m [Off.GLB_MAP_CTRL] ++
        (List.range 11).flatMap (fun k => leBytes 8 (t.maskI k)) ++ (List.range 6).flatMap (fun k => leBytes 8 (t.maskP k)))))) ∧
    (Accepts m 0x0302 pl s → let t := Taken m 0x0302 pl s
      exec (.cadStatus m pl) s = .next (quietStep (t.finish m ccOk (t.mbxRegs m [Off.CAD_STAT, Off.CAD_LEN] ++
        leBytes 4 s.stamp.toNat ++ leBytes 4 (s.stamp.toNat / 2 ^ 32) ++
        t.mbxRegs m [Off.CAD_RELOCK, Off.CAD_PORT_OFS, Off.CAD_CNT])))) ∧
    (Accepts m 0x0312 pl s → leAt pl 0 1 ≤ 31 → let t := Taken m 0x0312 pl s
      exec (.refStatus m pl) s = .next (quietStep (t.finish m ccOk
        (t.mbxRegs m [Off.PAV_REF_STAT (leAt pl 0 1), Off.PAV_REF_CNT (leAt pl 0 1)] ++
          (List.range 4).flatMap (fun r => (List.range 4).flatMap (fun w => t.mbxRegs m [Off.PAV_REF_WIN (leAt pl 0 1) r w])))))) ∧
    (Accepts m 0x0401 pl s → leAt pl 0 1 ≤ 31 → let t := Taken m 0x0401 pl s
      let p := leAt pl 0 1
      exec (.eccStatus m pl) s = .next (quietStep (t.finish m ccOk (t.mbxRegs m [Off.PAV_ECC_CTRL p, Off.PAV_BUCKET_CFG p,
        Off.PAV_BUCKET_STAT p, Off.PAV_SCRUB_CTRL p, Off.PAV_SCRUB_POS p, Off.PAV_ECC_CE p, Off.PAV_ECC_UE p, Off.PAV_ECC_CNT p,
        Off.PAV_SCRUB_CNT p, Off.PAV_REPAIR_STAT p])))) ∧
    (Accepts m 0x0D03 pl s → s.bulk = none → let t := Taken m 0x0D03 pl s
      exec (.bulkStatus m pl) s = .next (quietStep (t.finish m ccOk ([0, BitVec.ofNat 8 s.bulkLast.1] ++ zeros 6 ++
        leBytes 8 s.bulkLast.2.1 ++ leBytes 8 s.bulkLast.2.2)))) ∧
    (∀ b, Accepts m 0x0D03 pl s → s.bulk = some b → let t := Taken m 0x0D03 pl s
      let k : Byte := if b.copy then 2 else 1
      exec (.bulkStatus m pl) s = .next (quietStep (t.finish m ccOk ([k, k] ++ zeros 6 ++ leBytes 8 (b.written + b.skipped) ++
        leBytes 8 b.lines)))) ∧
    (Accepts m 0x0501 pl s → leAt pl 0 1 ≤ 31 → let t := Taken m 0x0501 pl s
      let p := leAt pl 0 1
      exec (.bistStatus m pl) s = .next (quietStep (t.finish m ccOk (t.regsBytes 0 [Off.GLB_BIST_STAT, Off.GLB_PARK_SEQ,
        Off.PAV_BIST_POS p, Off.PAV_BIST_STAT p, Off.PAV_BIST_DONE p, Off.PAV_BIST_CNT p, Off.PAV_BIST_FAIL_0 p,
        Off.PAV_BIST_FAIL_1 p])))) ∧
    (Accepts m 0x0601 pl s → let t := Taken m 0x0601 pl s
      exec (.thmStatus m pl) s = .next (quietStep (t.finish m ccOk (t.regsBytes 0 ([Off.THM_STAT, Off.THM_TDRAM, Off.THM_TBASE,
        Off.THM_BAND_CNT, Off.THM_FAULT] ++ (List.range 27).map (fun n => Off.THM_SENSOR n)))))) ∧
    (Accepts m 0x0701 pl s → leAt pl 0 1 ≤ 15 → leAt pl 1 1 ≤ 31 → let t := Taken m 0x0701 pl s
      exec (.calStatus m pl) s = .next (quietStep (t.finish m ccOk (t.regBytes 0 (Off.PRT_CAL_STAT (leAt pl 0 1)) ++
        t.eyeBytes (leAt pl 0 1) ++ t.regBytes 0 (Off.PAV_TSV_STAT (leAt pl 1 1)) ++ t.regBytes 0 Off.GLB_CAL_CTRL ++
        t.regBytes 0 Off.GLB_OSC_TRIM)))) ∧
    (Accepts m 0x0C03 pl s → let t := Taken m 0x0C03 pl s
      exec (.evtStatus m pl) s = .next (quietStep (t.finish m ccOk (t.mbxRegs m ([Off.EVT_ROUTE, Off.EVT_SEQ, Off.EVT_MERGED] ++
        (List.range 16).map (fun n => Off.EVT_PORT n) ++ (List.range 32).map (fun i => Off.EVT_SEEN i)))))) ∧
    (Accepts m 0x0A03 pl s → let t := Taken m 0x0A03 pl s
      exec (.fwStatus m pl) s = .next (quietStep (t.finish m ccOk (t.mbxRegs m [Off.GLB_FW_STAT, Off.GLB_FW_VER, Off.GLB_FW_SVN,
        Off.GLB_FW_CAP] ++ leBytes 4 s.stagingHigh)))) ∧
    (Accepts m 0x0906 pl s → let t := Taken m 0x0906 pl s
      exec (.otpStatus m pl) s = .next (quietStep (t.finish m ccOk (([Off.OTP_STAT, Off.OTP_ARB, Off.OTP_PROG] ++
        (List.range 6).map (fun i => Off.OTP_REGION i) ++ [Off.OTP_MARGIN_STAT] ++ (List.range 16).map (fun i => Off.OTP_MARGIN i) ++
        (List.range 16).map (fun i => Off.OTP_DF i)).flatMap (fun off => leBytes 4 (t.reg off).toNat))))) ∧
    (Accepts m 0x0B02 pl s → let t := Taken m 0x0B02 pl s
      exec (.powerStatus m pl) s = .next (quietStep (t.finish m ccOk (t.mbxRegs m [Off.GLB_PWR_STAT, Off.GLB_PWR_CTRL,
        Off.GLB_BOOT_STAT, Off.GLB_RST_STAT]))))

/-- O9. The commands that return stored data answer with it: ECHO, MAP_TRANSLATE, REPAIR_MAP_READ, SPARE_LIST, CERT_READ,
ARRAY_RAW_READ, MON_READ, EVT_READ, OTP_READ and OTP_JOURNAL_READ. Nothing but the answer changes. -/
def Obligations.ReadingCommandsAnswer : Prop :=
  ∀ (m : MbxId) (pl : List Byte) (s : State),
    (Accepts m 0x0102 pl s → exec (.echo m pl) s = .next (quietStep ((Taken m 0x0102 pl s).finish m ccOk pl))) ∧
    (∀ l, Accepts m 0x0222 pl s → leAt pl 0 8 < 2 ^ 37 → let t := Taken m 0x0222 pl s
      t.locate (leAt pl 0 8) = some l →
      exec (.mapTranslate m pl) s = .next (quietStep (t.finish m ccOk ([BitVec.ofNat 8 l.pav, BitVec.ofNat 8 (l.bank / 16),
        BitVec.ofNat 8 (l.bank / 4 % 4), BitVec.ofNat 8 (l.bank % 4)] ++ leBytes 2 l.row ++
        [BitVec.ofNat 8 l.col, BitVec.ofNat 8 (2 * b2n (t.retiredRunning l.pav))])))) ∧
    (Accepts m 0x0222 pl s → leAt pl 0 8 < 2 ^ 37 → let t := Taken m 0x0222 pl s
      t.locate (leAt pl 0 8) = none →
      exec (.mapTranslate m pl) s = .next (quietStep (t.finish m ccOk [0, 0, 0, 0, 0, 0, 0, 1]))) ∧
    (Accepts m 0x0420 pl s → leAt pl 0 2 ≤ 6143 → let t := Taken m 0x0420 pl s
      let n := min 112 (6144 - leAt pl 0 2)
      exec (.repairMapRead m pl) s = .next (quietStep (t.finish m ccOk (leBytes 2 n ++ zeros 2 ++
        (List.range n).flatMap (fun i => leBytes 4 (t.otpWordNow (0x480 + leAt pl 0 2 + i)).toNat))))) ∧
    (Accepts m 0x0421 pl s → leAt pl 0 1 ≤ 31 → let t := Taken m 0x0421 pl s
      let all := t.runtimeSpares (leAt pl 0 1)
      let out := (all.drop (leAt pl 2 2)).take 112
      exec (.spareList m pl) s = .next (quietStep (t.finish m ccOk (leBytes 2 all.length ++ leBytes 2 out.length ++
        out.flatMap (fun e => leBytes 4 e))))) ∧
    (∀ c, Accepts m 0x0511 pl s → s.test.parkCert = some c → leAt pl 0 4 < c.length → let t := Taken m 0x0511 pl s
      let bs := (c.drop (leAt pl 0 4)).take 448
      exec (.certRead m pl) s = .next (quietStep (t.finish m ccOk (leBytes 2 bs.length ++ zeros 2 ++ bs)))) ∧
    (Accepts m 0x0521 pl s → rawBad pl = none → let t := Taken m 0x0521 pl s
      t.pavsClosed = false →
      exec (.arrayRawRead m pl) s = .next (quietStep (t.finish m ccOk ((List.range 8).flatMap (fun w =>
        leBytes 9 (t.rawWord (leAt pl 0 1) (leAt pl 1 1) (leAt pl 2 2) (leAt pl 4 1) w).toNat))))) ∧
    (Accepts m 0x0802 pl s → leAt pl 0 1 ≤ 47 → let t := Taken m 0x0802 pl s
      let u := leAt pl 0 1
      exec (.monRead m pl) s = .next (quietStep (t.finish m ccOk (leBytes 4 (t.rd (Fld.MON_SEQ_A_SEQ u)) ++
        leBytes 4 (t.reg (Off.MON_TS_LO u)).toNat ++ leBytes 4 (t.reg (Off.MON_TS_HI u)).toNat ++
        ((monPart0 t u).drop 12).take 36 ++ monPart t u 1 ++ monPart t u 2)))) ∧
    (Accepts m 0x0C02 pl s → 1 ≤ leAt pl 4 1 → leAt pl 4 1 ≤ 30 → let t := Taken m 0x0C02 pl s
      let q := leAt pl 0 4
      let next := t.rd Fld.EVT_SEQ_NEXT
      let age := (next + 2 ^ 32 - q) % 2 ^ 32
      -- a number below NEXT by up to 2^31 is one already written, of which the ring holds the last 2,048
      let held := decide (0 < age) && decide (age < 2 ^ 31)
      let first := if held && decide (2048 < age) then (next + 2 ^ 32 - 2048) % 2 ^ 32 else q
      let qs := ((List.range (min (leAt pl 4 1) (if held then min 2048 age else 0))).map (fun i => (first + i) % 2 ^ 32)).filter
        (fun k => leAt (t.ringRecord k) 10 2 == k % 65536)
      exec (.evtRead m pl) s = .next (quietStep (t.finish m ccOk (leBytes 4 (match qs with | k :: _ => k | [] => first) ++
        leBytes 4 next ++ leBytes 2 qs.length ++ zeros 6 ++ qs.flatMap (fun k => t.ringRecord k))))) ∧
    (Accepts m 0x0901 pl s → leAt pl 0 2 ≤ 8191 → 1 ≤ leAt pl 2 1 → leAt pl 2 1 ≤ 112 → let t := Taken m 0x0901 pl s
      let first := leAt pl 0 2
      let k := min (leAt pl 2 1) (8192 - first)
      -- a word's two status bits: 3 programmed since the power-on read, 1 uncorrectable, 2 marginal, 0 sound
      let st (w : Nat) : Nat := if s.otp.fresh.contains w then 3 else if s.otp.badWords.contains w then 1
        else if s.otp.margs.contains (1, w) then 2 else 0
      exec (.otpRead m pl) s = .next (quietStep (t.finish m ccOk (leBytes 2 k ++ [0, 0] ++
        (List.range 112).flatMap (fun i => leBytes 4 (if i < k then (t.otpWordNow (first + i)).toNat else 0)) ++
        leBytes 28 ((List.range k).foldl (fun a i => a + st (first + i) * 4 ^ i) 0))))) ∧
    (Accepts m 0x0907 pl s → (leAt pl 0 2 < s.otp.journal.length ∨ s.otp.journal = []) → let t := Taken m 0x0907 pl s
      let es := (s.otp.journal.drop (leAt pl 0 2)).take 60
      let st : Byte := if s.otp.journal.isEmpty then 0 else if s.otp.journalEarly then 2 else 1
      exec (.otpJournalRead m pl) s = .next (quietStep (t.finish m ccOk (leBytes 2 s.otp.journal.length ++
        [st, s.otp.journalEnd.getD 0] ++ leBytes 2 (leAt pl 0 2) ++ leBytes 2 es.length ++
        es.flatMap (fun x => leBytes 2 x.1.entry.1 ++ [BitVec.ofNat 8 x.2.code, 0] ++ leBytes 4 x.1.entry.2)))))

/-- O10. The commands that set pool, map and privilege registers: STEWARD_SET, PORT_ROLE_SET, WINDOW_SET, SIGNPOST_SET and
MAP_SET. -/
def Obligations.PoolAndMapCommandsSet : Prop :=
  ∀ (m : MbxId) (pl : List Byte) (s : State),
    (∀ u, Accepts m 0x0202 pl s → leAt pl 2 1 ≤ 1 → leAt pl 3 1 = 0 → leAt pl 4 1 ≤ 1 → let t := Taken m 0x0202 pl s
      t.on Fld.GLB_STEWARD_LOCK = false → putSteward (leAt pl 0 4) (leAt pl 4 1 == 1) t = some u →
      exec (.stewardSet m pl) s = .next (quietStep (u.finish m ccOk []))) ∧
    -- a role change on the mailbox's own port waits for the completion, and is a change at once on any other
    (Accepts m 0x0210 pl s → leAt pl 0 1 ≤ 15 → leAt pl 1 1 ≤ 2 → let t := Taken m 0x0210 pl s
      (leAt pl 1 1 = 1 → t.poolOn = true) → t.portEnabled (leAt pl 0 1) = true →
      exec (.portRoleSet m pl) s = .next (quietStep (if t.owner m = leAt pl 0 1 then t.finish m ccOk []
        else applyRole (leAt pl 0 1) (leAt pl 1 1) (t.finish m ccOk [])))) ∧
    (Accepts m 0x0211 pl s → leAt pl 1 1 ≤ 7 → let t := Taken m 0x0211 pl s
      t.on Fld.GLB_POOL_WINDOW_LOCKED = false →
      exec (.windowSet m pl) s = .next (quietStep ((t.wr Fld.GLB_POOL_WINDOW_BASE (leAt pl 0 2)).finish m ccOk []))) ∧
    (∀ u, Accepts m 0x0212 pl s → leAt pl 0 1 ≤ 31 → let t := Taken m 0x0212 pl s
      commitSignpost (leAt pl 0 1) (BitVec.ofNat 32 (leAt pl 4 4) &&& 0x000F07FF).toNat
        (BitVec.ofNat 32 (leAt pl 8 4) &&& 0xE0000F0F).toNat t = some u →
      exec (.signpostSet m pl) s = .next (quietStep (u.finish m ccOk []))) ∧
    (Accepts m 0x0220 pl s → leAt pl 0 1 ≤ 1 → leAt pl 1 1 ≤ 3 → leAt pl 2 1 = 0 → leAt pl 3 1 = 0 →
      (bitAt (leAt pl 1 1) 0 = true → badMask pl false 4 11 = none) →
      (bitAt (leAt pl 1 1) 1 = true → badMask pl true 92 6 = none) → let t := Taken m 0x0220 pl s
      (leAt pl 0 1 = 0 → t.retiredCount = 0) → t.on Fld.GLB_MAP_CTRL_LOCKED = false →
      let u := t.wr Fld.GLB_MAP_CTRL_SEL (leAt pl 0 1)
      let u := if bitAt (leAt pl 1 1) 0 then loadMasks pl false 4 11 u else u
      let u := if bitAt (leAt pl 1 1) 1 then loadMasks pl true 92 6 u else u
      exec (.mapSet m pl) s = .next (quietStep (u.finish m ccOk [])))

/-- O11. The commands that set cadence, refresh, ECC and repair registers: CAD_SET, SLOT_SET, REF_WINDOWS_SET, REF_SPREAD,
NEIGH_SET, ECC_CLEAR, SCRUB_REGIONS and PAV_RETIRE. -/
def Obligations.RefreshCommandsSet : Prop :=
  ∀ (m : MbxId) (pl : List Byte) (s : State),
    (Accepts m 0x0301 pl s → leAt pl 0 1 ≤ 2 → leAt pl 1 1 ≤ 15 → leAt pl 2 1 = 0 → leAt pl 3 1 = 0 →
      exec (.cadSet m pl) s =
        .next (quietStep ((setSource (leAt pl 0 1) (leAt pl 1 1) (Taken m 0x0301 pl s)).finish m ccOk []))) ∧
    (Accepts m 0x0303 pl s → leAt pl 0 1 ≤ 3 → leAt pl 1 1 = 0 → leAt pl 2 1 = 0 → leAt pl 3 1 = 0 → leAt pl 7 1 ≤ 15 →
      exec (.slotSet m pl) s = .next (quietStep ((putAtTurn (Off.CAD_SLOT (leAt pl 0 1)) (BitVec.ofNat 32 (leAt pl 4 4))
        (Taken m 0x0303 pl s)).finish m ccOk []))) ∧
    (∀ ps, Accepts m 0x0310 pl s → pavsNamed (leAt pl 0 1) = some ps → leAt pl 1 1 ≤ 15 → leAt pl 2 1 = 0 → leAt pl 3 1 = 0 →
      badWindow pl = none →
      exec (.refWindowsSet m pl) s = .next (quietStep ((ps.foldl (fun a p => forUpto 4 (fun r b =>
        if bitAt (leAt pl 1 1) r then
          forUpto 4 (fun w c => putAtTurn (Off.PAV_REF_WIN p r w) (BitVec.ofNat 32 (leAt pl (4 + 4 * w) 4)) c) b
        else b) a) (Taken m 0x0310 pl s)).finish m ccOk []))) ∧
    (Accepts m 0x0311 pl s → (leAt pl 0 1 = 1 ∨ leAt pl 0 1 = 2 ∨ leAt pl 0 1 = 4) → 1 ≤ leAt pl 1 1 → leAt pl 1 1 ≤ 63 →
      leAt pl 3 1 ≤ 3 →
      exec (.refSpread m pl) s = .next (quietStep ((spreadWindows (leAt pl 0 1) (leAt pl 1 1) (leAt pl 2 2)
        (Taken m 0x0311 pl s)).finish m ccOk []))) ∧
    (∀ ps, Accepts m 0x0320 pl s → pavsNamed (leAt pl 0 1) = some ps → 6 ≤ leAt pl 1 1 → leAt pl 1 1 ≤ 14 → leAt pl 2 1 ≤ 3 →
      leAt pl 3 1 = 0 →
      exec (.neighSet m pl) s = .next (quietStep ((ps.foldl (fun a p =>
        ((a.wr (Fld.PAV_NEIGH_CTRL_K p) (leAt pl 1 1)).wr (Fld.PAV_NEIGH_CTRL_EN p) (leAt pl 2 1 % 2)).wr
          (Fld.PAV_NEIGH_CTRL_D2 p) (leAt pl 2 1 / 2)) (Taken m 0x0320 pl s)).finish m ccOk []))) ∧
    (∀ ps, Accepts m 0x0402 pl s → pavsNamed (leAt pl 0 1) = some ps → leAt pl 1 1 ≤ 15 →
      exec (.eccClear m pl) s =
        .next (quietStep ((ps.foldl (fun a p => eccClear (leAt pl 1 1) p a) (Taken m 0x0402 pl s)).finish m ccOk []))) ∧
    (Accepts m 0x0410 pl s → leAt pl 0 1 ≤ 2 → leAt pl 1 1 = 0 → leAt pl 2 1 = 0 → leAt pl 3 1 = 0 →
      let u := forUpto 16 (fun i a => a.setReg (Off.GLB_SCRUB_EN i)
        (let v := BitVec.ofNat 32 (leAt pl (4 + 4 * i) 4)
         let old := a.reg (Off.GLB_SCRUB_EN i)
         if leAt pl 0 1 = 0 then v else if leAt pl 0 1 = 1 then old ||| v else old &&& ~~~v)) (Taken m 0x0410 pl s)
      exec (.scrubRegions m pl) s = .next (quietStep (u.finish m ccOk
        ((List.range 16).flatMap (fun i => leBytes 4 (u.reg (Off.GLB_SCRUB_EN i)).toNat))))) ∧
    (Accepts m 0x0424 pl s → leAt pl 0 1 ≤ 31 → let t := Taken m 0x0424 pl s
      (∃ q, q < 32 ∧ q ≠ leAt pl 0 1 ∧ t.on (Fld.PAV_REPAIR_STAT_RETIRED q) = false) →
      exec (.pavRetire m pl) s = .next (quietStep ((if t.on Fld.GLB_MAP_CTRL_LOCKED then retireRunning (leAt pl 0 1) 1 t
        else retireBefore (leAt pl 0 1) t).finish m ccOk [])))

/-- O12. The commands that set thermal, calibration, monitor and event registers: THROTTLE_SET, HALT_CLEAR, ALERT_SET, EXT_SET,
OSC_LEARN, MON_CONFIG, MON_SNAPSHOT, TELEMETRY_SET, EVT_CONFIG and EVT_CLEAR. -/
def Obligations.MonitorCommandsSet : Prop :=
  ∀ (m : MbxId) (pl : List Byte) (s : State),
    (Accepts m 0x0602 pl s → leAt pl 0 1 ≤ 2 → leAt pl 1 3 = 0 →
      exec (.throttleSet m pl) s = .next (quietStep ((setHostThr (leAt pl 0 1) (Taken m 0x0602 pl s)).finish m ccOk []))) ∧
    (Accepts m 0x0603 pl s → let t := Taken m 0x0603 pl s
      (t.halted = true → t.haltClearable = true) →
      exec (.haltClear m pl) s = .next (quietStep ((askHaltClear t).finish m ccOk []))) ∧
    (Accepts m 0x0604 pl s → leAt pl 0 1 ≤ 4 → leAt pl 1 1 ≤ 1 →
      exec (.alertSet m pl) s = .next (quietStep ((((Taken m 0x0604 pl s).wr (Fld.THM_ALERT_EN (leAt pl 0 1)) (leAt pl 1 1)).wr
        (Fld.THM_ALERT_HIGH (leAt pl 0 1)) (leAt pl 2 2)).finish m ccOk []))) ∧
    (Accepts m 0x0605 pl s → leAt pl 0 1 ≤ 7 → leAt pl 1 1 = 0 → leAt pl 2 2 ≤ 1023 → leAt pl 4 2 ≤ 1023 →
      100 ≤ leAt pl 6 2 → leAt pl 6 2 ≤ 10000 → 2000 ≤ leAt pl 8 2 → leAt pl 8 2 ≤ 6000 →
      exec (.extSet m pl) s = .next (quietStep ((((((setExternal (bitAt (leAt pl 0 1) 0) (bitAt (leAt pl 0 1) 1)
        (bitAt (leAt pl 0 1) 2) (Taken m 0x0605 pl s)).wr Fld.THM_EXT_CFG_IDEAL1 (leAt pl 2 2)).wr Fld.THM_EXT_CFG_IDEAL2
        (leAt pl 4 2)).wr Fld.THM_THERM_CFG_RNOM (leAt pl 6 2)).wr Fld.THM_THERM_CFG_BETA (leAt pl 8 2)).finish m ccOk []))) ∧
    (Accepts m 0x0706 pl s → leAt pl 0 1 ≤ 1 →
      exec (.oscLearn m pl) s = .next (quietStep ((setLearn (leAt pl 0 1 == 1) (Taken m 0x0706 pl s)).finish m ccOk []))) ∧
    (∀ v, Accepts m 0x0801 pl s → unitMask pl = .inr v →
      exec (.monConfig m pl) s = .next (quietStep ((forUpto 48 (fun u a =>
        if bitAt v u then monWrite u (leAt pl 8 4) (leAt pl 12 4) (leAt pl 16 4) a else a) (Taken m 0x0801 pl s)).finish m ccOk []))) ∧
    (∀ v, Accepts m 0x0803 pl s → unitMask pl = .inr v →
      let u := forUpto 48 (fun u a => if bitAt v u then a.modMon u (fun x => { x with snap := true }) else a) (Taken m 0x0803 pl s)
      exec (.monSnapshot m pl) s = .next (quietStep { u with monSnapMbx := u.monSnapMbx ++ [(m.val, BitVec.ofNat 48 v)] })) ∧
    (Accepts m 0x0804 pl s → leAt pl 2 1 ≤ 7 → leAt pl 3 1 = 0 → leAt pl 10 1 = 0 → leAt pl 11 1 = 0 →
      exec (.telemetrySet m pl) s = .next (quietStep (((((Taken m 0x0804 pl s).setReg Off.MON_TELE
        (BitVec.ofNat 32 (leAt pl 0 4))).setReg Off.MON_TELE_MASK_LO (BitVec.ofNat 32 (leAt pl 4 4))).setReg Off.MON_TELE_MASK_HI
        (BitVec.ofNat 32 (leAt pl 8 2))).finish m ccOk []))) ∧
    (Accepts m 0x0C01 pl s → 1 ≤ leAt pl 2 2 → leAt pl 2 2 ≤ 1024 → leAt pl 0 2 + leAt pl 2 2 ≤ 1024 → leAt pl 4 1 ≤ 3 →
      leAt pl 5 1 ≤ 1 → leAt pl 6 1 = 0 → leAt pl 7 1 = 0 → (leAt pl 5 1 = 1 → leAt pl 10 1 ≤ 15 ∧ leAt pl 11 1 = 0) →
      let u := forUpto (leAt pl 2 2) (fun i a => setEvLevel (leAt pl 0 2 + i) (leAt pl 4 1) a) (Taken m 0x0C01 pl s)
      exec (.evtConfig m pl) s =
        .next (quietStep ((if leAt pl 5 1 = 1 then setRoute (leAt pl 8 4) u else u).finish m ccOk []))) ∧
    (Accepts m 0x0C04 pl s → leAt pl 0 1 ≤ 3 →
      let t := Taken m 0x0C04 pl s
      let u := if bitAt (leAt pl 0 1) 0 then forUpto 32 (fun i a => a.setReg (Off.EVT_SEEN i) 0) t else t
      let u := if bitAt (leAt pl 0 1) 1 then forUpto 16 (fun n a => a.wr (Fld.EVT_PORT_LOST n) 0) (u.setReg Off.EVT_MERGED 0) else u
      exec (.evtClear m pl) s = .next (quietStep (u.finish m ccOk [])))

/-- O13. The commands that begin or end work of the repair, bulk, test and calibration engines: ROW_SPARE, SPARE_COMMIT, FILL,
COPY, BULK_ABORT, SWEEP_START, BIST_STOP, SLICE_ROW, PARK_START, LANE_RETUNE, EYE_SCAN, TSV_CAL, SENSOR_CAL and CAL_ABORT. -/
def Obligations.EngineCommandsBegin : Prop :=
  ∀ (m : MbxId) (pl : List Byte) (s : State),
    (∀ l, Accepts m 0x0423 pl s → leAt pl 0 8 < 2 ^ 37 → let t := Taken m 0x0423 pl s
      t.locate (leAt pl 0 8) = some l → t.on (Fld.PAV_REPAIR_STAT_RETIRED l.pav) = false →
      let r := queueCopy l.pav l.bank l.row (some m) t
      exec (.rowSpare m pl) s = .next (quietStep (if r.1 = 0 then r.2 else r.2.finish m ccOk [BitVec.ofNat 8 r.1]))) ∧
    (Accepts m 0x0422 pl s → (leAt pl 0 1 < 32 ∨ leAt pl 0 1 = 255) → let t := Taken m 0x0422 pl s
      -- the rows spared, then the pavilions retired, since the start
      let es := (if leAt pl 0 1 = 255 then (List.range 32).flatMap (fun q => t.runtimeSpares q) else t.runtimeSpares (leAt pl 0 1)) ++
        t.retiredEntries (fun q => leAt pl 0 1 == 255 || leAt pl 0 1 == q)
      let blank := ((List.range 6144).filter (fun i => t.otp.rawAt (0x480 + i) == 0)).take es.length
      t.progCheck m [] false none = none → blank.length = es.length → es ≠ [] →
      exec (.spareCommit m pl) s = .next (quietStep (progStart (some m) 0x0422
        ((es.zip blank).map (fun e => .word (0x480 + e.2) (BitVec.ofNat 32 e.1))) 0 0 t))) ∧
    (Accepts m 0x0D01 pl s → leAt pl 0 8 % 64 = 0 → let t := Taken m 0x0D01 pl s
      t.rangeBad (leAt pl 0 8) (leAt pl 8 8) = false → leAt pl 24 1 ≤ 1 →
      exec (.fill m pl) s = .next (quietStep (bulkStart m
        { copy := false, mbx := m, start := leAt pl 0 8, dst := leAt pl 0 8, lines := leAt pl 8 8 / 64,
          pattern := BitVec.ofNat 64 (leAt pl 16 8), mark := leAt pl 24 1 == 1, issued := 0, written := 0,
          skipped := 0, poisoned := 0, flying := 0, marks := [], readBack := [], ending := none } t))) ∧
    (Accepts m 0x0D02 pl s → leAt pl 0 8 % 64 = 0 → leAt pl 8 8 % 64 = 0 → let t := Taken m 0x0D02 pl s
      t.rangeBad (leAt pl 0 8) (leAt pl 16 8) = false → t.rangeBad (leAt pl 8 8) (leAt pl 16 8) = false →
      (leAt pl 8 8 + leAt pl 16 8 ≤ leAt pl 0 8 ∨ leAt pl 0 8 + leAt pl 16 8 ≤ leAt pl 8 8) →
      exec (.copy m pl) s = .next (quietStep (bulkStart m
        { copy := true, mbx := m, start := leAt pl 0 8, dst := leAt pl 8 8, lines := leAt pl 16 8 / 64, pattern := 0,
          mark := false, issued := 0, written := 0, skipped := 0, poisoned := 0, flying := 0,
          marks := [], readBack := [], ending := none } t))) ∧
    (Accepts m 0x0D04 pl s →
      exec (.bulkAbort m pl) s = .next (quietStep ((bulkStop ccAborted (Taken m 0x0D04 pl s)).finish m ccOk []))) ∧
    (Accepts m 0x0502 pl s → let t := Taken m 0x0502 pl s
      t.testRuns = false → t.pavsClosed = false →
      let u := ((t.wr Fld.GLB_BIST_SWEEP_INTERVAL (leAt pl 4 2)).wr Fld.GLB_BIST_SWEEP_MASK (leAt pl 0 4)).wr Fld.GLB_BIST_CTRL_SWEEP 1
      exec (.sweepStart m pl) s = .next (quietStep (({ u with test := { u.test with
        sweepMask := BitVec.ofNat 32 (leAt pl 0 4), sweepLeft := 0 } }).finish m ccOk []))) ∧
    (Accepts m 0x0503 pl s →
      exec (.bistStop m pl) s = .next (quietStep ((slicesStop 0 ccAborted (parkStop 0 ccAborted (sweepStop
        (Taken m 0x0503 pl s)))).finish m ccOk []))) ∧
    (∀ l, Accepts m 0x0504 pl s → leAt pl 0 8 < 2 ^ 37 → let t := Taken m 0x0504 pl s
      t.locate (leAt pl 0 8) = some l → t.on (Fld.PAV_REPAIR_STAT_RETIRED l.pav) = false →
      t.on (Fld.PAV_BIST_STAT_SAVE_FAULT l.pav) = false → t.pavsClosed = false → (t.pav l.pav).rowTest = none →
      exec (.sliceRow m pl) s =
        .next (quietStep (t.modPav l.pav (fun v => { v with rowTest := some (l.bank, l.row, m) })))) ∧
    (Accepts m 0x0510 pl s → (leAt pl 0 1 ≤ 2 ∨ leAt pl 0 1 = 255) → s.test.parkPolicy = 256 → s.power.boot = .done →
      let t := Taken m 0x0510 pl s
      t.pavsClosed = false →
      exec (.parkStart m pl) s = .next (quietStep (quietStep (beginPark (leAt pl 0 1) (some m) t)))) ∧
    -- a port that is up begins its retune at its own next step
    (Accepts m 0x0702 pl s → leAt pl 0 1 ≤ 15 → let t := Taken m 0x0702 pl s
      let n := leAt pl 0 1
      t.role n ≠ 2 → t.portEnabled n = true → (t.port n).markedDown = false → t.testRuns = false → t.workable? = true →
      (t.port n).retune = none → (t.port n).train.hasLink = true → t.up n = true →
      exec (.laneRetune m pl) s =
        .next (quietStep ((t.modPort n (fun p => { p with retune := some m })).wr (Fld.PRT_CAL_STAT_STATE n) 1))) ∧
    (Accepts m 0x0703 pl s → leAt pl 0 1 ≤ 15 → leAt pl 1 1 ≠ 0 → let t := Taken m 0x0703 pl s
      let n := leAt pl 0 1
      t.role n ≠ 2 → t.portEnabled n = true → t.testRuns = false → t.workable? = true →
      t.rd (Fld.PRT_CAL_STAT_SCANNING n) = 0 →
      (∀ p, p < 8 → bitAt (leAt pl 1 1) p = true → t.rd (Fld.PRT_LANE_STAT_STATE n p) = laActive) →
      t.rd (Fld.PRT_CAL_STAT_STATE n) ≠ 0 →
      let go := laneMask (fun p => bitAt (leAt pl 1 1) p)
      let u := forUpto 8 (fun p a => if bitAt go p then
        (a.modLane n p (fun l => { l with scan := some (0, []), marginHeld := none, winFrom := none })).wr (Fld.PRT_LANE_EYE_ABORT n p) 0 else a) t
      exec (.eyeScan m pl) s =
        .next (quietStep ((u.wr (Fld.PRT_CAL_STAT_SCANNING n) go).modPort n (fun p => { p with scanMbx := some m, pointAt := t.now })))) ∧
    (Accepts m 0x0704 pl s → 1 ≤ leAt pl 4 1 → leAt pl 4 1 ≤ 15 → let t := Taken m 0x0704 pl s
      let mask := leAt pl 0 4
      t.testRuns = false → t.workable? = true →
      (∀ p, p < 32 → bitAt mask p = true → (t.pav p).tsv = none ∧ t.on (Fld.PAV_REPAIR_STAT_RETIRED p) = false) → mask ≠ 0 →
      let u := forUpto 32 (fun p a => if bitAt mask p then tsvBegin p (BitVec.ofNat 4 (leAt pl 4 1)) a else a) t
      exec (.tsvCal m pl) s = .next (quietStep { u with tsvCmds := u.tsvCmds ++
        [{ mbx := m, left := BitVec.ofNat 32 mask, low := 0, aborted := 0 }] })) ∧
    (Accepts m 0x0705 pl s → leAt pl 0 4 < 2 ^ 24 → leAt pl 0 4 ≠ 0 →
      -320 ≤ signed (leAt pl 4 2) 16 → signed (leAt pl 4 2) 16 ≤ 1000 → s.therm.cal = none →
      let t := Taken m 0x0705 pl s
      let c : SensorCal := { mbx := m, mask := BitVec.ofNat 24 (leAt pl 0 4), ref := signed (leAt pl 4 2) 16, sums := [],
                             counts := [], set_ := 0, clamped := 0 }
      exec (.sensorCal m pl) s = .next (quietStep { t with therm := { t.therm with cal := some c } })) ∧
    (Accepts m 0x0707 pl s → leAt pl 0 1 ≤ 1 → leAt pl 1 1 ≤ (if leAt pl 0 1 = 0 then 15 else 31) →
      let t := Taken m 0x0707 pl s
      exec (.calAbort m pl) s = .next (quietStep ((if leAt pl 0 1 = 0 then calAbortPort (leAt pl 1 1) t
        else abortTsv (leAt pl 1 1) t).finish m ccOk [])))

/-- O14. The commands that store bytes or raw words from outside: CERT_LOAD, CERT_SUBMIT, FW_LOAD, FW_ACTIVATE, ARRAY_TEST and
ARRAY_RAW_WRITE. The number of failures an array test finds is the array's own, a free value (notes/assumptions/10.md). -/
def Obligations.LoadingCommandsStore : Prop :=
  ∀ (m : MbxId) (pl : List Byte) (s : State),
    (Accepts m 0x0512 pl s → 1 ≤ leAt pl 4 2 → leAt pl 4 2 ≤ 448 → leAt pl 0 4 + leAt pl 4 2 ≤ 20672 →
      let t := Taken m 0x0512 pl s
      t.certOpen = true →
      ∃ u : State, exec (.certLoad m pl) s = .next (quietStep (u.finish m ccOk [])) ∧
        (∀ k, tabGet 0 u.test.certBytes k = if leAt pl 0 4 ≤ k ∧ k < leAt pl 0 4 + leAt pl 4 2 then
          (pl.drop (8 + (k - leAt pl 0 4))).headD 0 else tabGet 0 s.test.certBytes k) ∧
        u = { t with test := { t.test with certBytes := u.test.certBytes } }) ∧
    (Accepts m 0x0513 pl s → (leAt pl 2 1 ≤ 2 ∨ leAt pl 2 1 = 255) → let t := Taken m 0x0513 pl s
      t.certOpen = true →
      let r := if leAt pl 0 2 = 0 then 5 else t.certCheck (leAt pl 0 2)
      exec (.certSubmit m pl) s = .next (quietStep (
        ({ t with test := { t.test with submitted := some (leAt pl 0 2, leAt pl 2 1), certResult := r } }).finish m ccOk [BitVec.ofNat 8 r]))) ∧
    (Accepts m 0x0A01 pl s → 1 ≤ leAt pl 4 2 → leAt pl 4 2 ≤ 448 → leAt pl 0 4 + leAt pl 4 2 ≤ 786432 →
      s.switch = none → let t := Taken m 0x0A01 pl s
      ∃ u : State, exec (.fwLoad m pl) s = .next (quietStep (u.finish m ccOk [])) ∧
        (∀ k, tabGet 0 u.staging k = if leAt pl 0 4 ≤ k ∧ k < leAt pl 0 4 + leAt pl 4 2 then
          (pl.drop (8 + (k - leAt pl 0 4))).headD 0 else tabGet 0 s.staging k) ∧
        u = { t with staging := u.staging, stagingHigh := max s.stagingHigh (leAt pl 0 4 + leAt pl 4 2) }) ∧
    (Accepts m 0x0A02 pl s → leAt pl 0 1 ≤ 1 → (leAt pl 0 1 = 0 → 1 ≤ leAt pl 4 4 ∧ leAt pl 4 4 ≤ 786432) →
      let t := Taken m 0x0A02 pl s
      t.testRuns = false → t.otpBusy = false → t.switch = none →
      (∀ k, k < 18 → k ≠ m.val → t.rd (Fld.MBX_STAT_STATE k) ≠ mbRunning ∧ t.rd (Fld.MBX_STAT_STATE k) ≠ mbAborting) →
      let w : Switch := { mbx := m, staged := leAt pl 0 1 == 0, len := leAt pl 4 4, prevImage := t.rd Fld.GLB_FW_STAT_IMAGE,
                          verified := leAt pl 0 1 == 1 }
      exec (.fwActivate m pl) s = .next (quietStep (((({ (if leAt pl 0 1 = 1 then coreStart t else t) with switch := some w }).raise (968 + 1) (leAt pl 0 1)).wr Fld.GLB_FW_STAT_IMAGE 3).wr
        Fld.GLB_FW_STAT_READY 0))) ∧
    (Accepts m 0x0520 pl s → leAt pl 0 1 ≤ 31 → leAt pl 1 1 ≤ 63 → leAt pl 2 2 + leAt pl 4 2 ≤ 32768 →
      let t := Taken m 0x0520 pl s
      t.pavsClosed = false →
      ∃ u : State, exec (.arrayTest m pl) s = .next (quietStep (({ u with freeIdx := u.freeIdx + 1 }).finish m ccOk
          (leBytes 2 ((Config.freeBits u.freeIdx).toNat % (leAt pl 4 2 + 1))))) ∧
        u = forUpto (leAt pl 4 2) (fun i a => forUpto 32 (fun c d => writePhys (leAt pl 0 1) (leAt pl 1 1)
          (a.physOf (leAt pl 0 1) (leAt pl 1 1) (leAt pl 2 2 + i)) c
          (Vector.replicate 8 (bgWord (t.rd Fld.GLB_BIST_CTRL_BG == 1) c)) d) a) t) ∧
    (Accepts m 0x0522 pl s → rawBad pl = none → let t := Taken m 0x0522 pl s
      t.pavsClosed = false →
      exec (.arrayRawWrite m pl) s = .next (quietStep ((forUpto 8 (fun w a => setRawWord (leAt pl 0 1) (leAt pl 1 1) (leAt pl 2 2)
        (leAt pl 4 1) w (BitVec.ofNat 72 (leAt pl (8 + 9 * w) 9)) a) t).finish m ccOk [])))

/-- O15. The commands that begin OTP programming, signing, workshop mode and changes of power state: OTP_PROGRAM, OTP_LOCK,
OTP_LOCK_FORCE, REPAIR_OTP, ID_CERT_READ, ATTEST, KEY_ENROL, WORKSHOP_ENTER, WORKSHOP_EXIT, POWER_SET and SHUTDOWN. -/
def Obligations.SecureCommandsBegin : Prop :=
  ∀ (m : MbxId) (pl : List Byte) (s : State),
    (Accepts m 0x0902 pl s → 1 ≤ leAt pl 0 1 → leAt pl 0 1 ≤ 60 → let t := Taken m 0x0902 pl s
      t.progCheck m ((List.range (leAt pl 0 1)).map (fun i => (leAt pl (4 + 8 * i) 2, 4 + 8 * i))) false none = none →
      exec (.otpProgram m pl) s = .next (quietStep (progStart (some m) 0x0902 ((List.range (leAt pl 0 1)).map (fun i =>
        FuseItem.word (leAt pl (4 + 8 * i) 2) (BitVec.ofNat 32 (leAt pl (8 + 8 * i) 4)))) 0 0 t))) ∧
    (Accepts m 0x0903 pl s → leAt pl 0 1 ≤ 4 → let t := Taken m 0x0903 pl s
      t.progCheck m [] true (some (leAt pl 0 1)) = none → headerOk t.otpWordNow (leAt pl 0 1) = true →
      exec (.otpLock m pl) s =
        .next (quietStep (progStart (some m) 0x0903 [.dfBit (96 + leAt pl 0 1)] (leAt pl 0 1) 0 t))) ∧
    (Accepts m 0x0904 pl s → leAt pl 0 1 ≤ 4 → let t := Taken m 0x0904 pl s
      t.progCheck m [] true (some (leAt pl 0 1)) = none →
      exec (.otpLockForce m pl) s = .next (quietStep (submit
        (.token m (t.owner m) (some (leAt pl 0 1)) ((pl.drop 4).take (leAt pl 2 2))) t))) ∧
    -- a marginal fuse of the direct field is blown again
    (Accepts m 0x0905 pl s → leAt pl 2 1 = 1 → leAt pl 0 2 < 512 → let t := Taken m 0x0905 pl s
      t.otpBusy = false → t.halted = false → s.otp.supply = true → s.otp.margs.contains (3, leAt pl 0 2) = true →
      s.otp.dfNow.getLsbD (leAt pl 0 2) = true →
      exec (.repairOtp m pl) s = .next (quietStep (progStart (some m) 0x0905 [.dfBit (leAt pl 0 2)] (leAt pl 0 2) 3 t))) ∧
    (Accepts m 0x0A10 pl s → let t := Taken m 0x0A10 pl s
      t.keyLost = false → exec (.idCertRead m pl) s = .next (quietStep (submit (.idCert m t.idBody) t))) ∧
    (Accepts m 0x0A11 pl s → 32 ≤ pl.length → let t := Taken m 0x0A11 pl s
      t.keyLost = false →
      exec (.attest m pl) s = .next (quietStep (submit (.attest m (t.attestBody (t.owner m) (pl.take 32))) t))) ∧
    (Accepts m 0x0A12 pl s → leAt pl 32 4 < 4 → let t := Taken m 0x0A12 pl s
      t.progCheck m (((List.range 10).map (fun i => 0x450 + i) ++ [0x466, 0x467]).map (fun w => (w, 0))) false none = none →
      exec (.keyEnrol m pl) s = .next (quietStep (submit (.keyProof m (m.val == 17) pl) t))) ∧
    -- a stack with no customer key and no vendor lock opens with no token; any other checks the token's signature
    (Accepts m 0x0A20 pl s → let t := Taken m 0x0A20 pl s
      t.on Fld.GLB_SEC_STAT_WORKSHOP = false →
      (leAt pl 0 2 = 0 → t.on Fld.GLB_SEC_STAT_PROVISIONED = false →
        exec (.workshopEnter m pl) s = .next (quietStep (enterWorkshop m (t.owner m) 2 t))) ∧
      (leAt pl 0 2 = 160 →
        exec (.workshopEnter m pl) s =
          .next (quietStep (submit (.token m (t.owner m) none ((pl.drop 4 ++ zeros 160).take 160)) t)))) ∧
    (Accepts m 0x0A21 pl s → let t := Taken m 0x0A21 pl s
      t.on Fld.OTP_STAT_KEY_MARGINAL = false →
      exec (.workshopExit m pl) s = .next (quietStep (t.finish m ccOk []))) ∧
    (Accepts m 0x0B01 pl s → leAt pl 0 1 ≤ 3 → leAt pl 1 1 = 0 → leAt pl 2 1 = 0 → leAt pl 3 1 = 0 → s.power.boot = .done →
      s.power.trans = .none_ → s.power.shut = none → let t := Taken m 0x0B01 pl s
      t.on Fld.GLB_PWR_STAT_SHUT = false →
      exec (.powerSet m pl) s = .next (quietStep (
        if t.power? = leAt pl 0 1 then t.finish m ccOk []
        -- a start-up or parking test keeps the stack out of Hold and Sleep
        else if t.testRuns = true ∧ 2 ≤ leAt pl 0 1 then t.refuse m ccBusy 0xFFFF
        else if leAt pl 0 1 < 2 then
          (if t.power? < 2 then forUpto 32 (fun p a => wakeRanks p a) (t.wr Fld.GLB_PWR_STAT_STATE (leAt pl 0 1))
           else exitHold (leAt pl 0 1) 5 0 t).finish m ccOk []
        else if t.power? = psHold then enterSleep t else holdEntry (leAt pl 0 1 == 3) m t))) ∧
    (Accepts m 0x0B03 pl s → leAt pl 0 1 ≤ 1 → (leAt pl 1 1 ≤ 2 ∨ leAt pl 1 1 = 255) → s.power.boot = .done →
      s.power.trans = .none_ → s.power.shut = none → let t := Taken m 0x0B03 pl s
      t.on Fld.GLB_PWR_STAT_SHUT = false → (leAt pl 0 1 = 1 → s.test.parkPolicy = 256 ∧ t.power? < 2) →
      let u := calAbortAll (sweepStop (bulkStop ccAborted t))
      let u := { u with power := { u.power with noDispatch := true, shut := some { mbx := m, park := leAt pl 0 1 == 1, step := 2 } } }
      let u := u.wr Fld.GLB_BOOT_STAT_PHASE 7
      exec (.shutdown m pl) s =
        .next (quietStep (quietStep (if leAt pl 0 1 = 1 then beginPark (leAt pl 1 1) none u else u))))

/-- O16. Bit by bit, a write leaves a register as its fields' access types say (R11): RW takes the enabled bits, RWS and RWL take
them from a source with steward privilege, W1C clears the bits written 1, RO, RC and WO store nothing, and a bit of no field keeps
its value whatever is written to it (R12). The fields of every register of the map are disjoint and lie within it. -/
def Obligations.RegisterBitsFollowAccessTypes : Prop :=
  (∀ (fs : List FieldRow) (old v m : Reg32) (stw : Bool) (i : Nat), i < 32 →
    fs.Pairwise (fun f g => f.bits &&& g.bits = 0) →
    (∀ f ∈ fs, f.bits.getLsbD i = true → (fieldsWrite fs old v m stw).getLsbD i =
      match f.acc with
      | .rw => if m.getLsbD i then v.getLsbD i else old.getLsbD i
      | .rws => if m.getLsbD i && stw then v.getLsbD i else old.getLsbD i
      | .rwl => if m.getLsbD i && stw then v.getLsbD i else old.getLsbD i
      | .w1c => old.getLsbD i && !(m.getLsbD i && v.getLsbD i)
      | .ro => old.getLsbD i
      | .rc => old.getLsbD i
      | .wo => old.getLsbD i) ∧
    ((∀ f ∈ fs, f.bits.getLsbD i = false) → (fieldsWrite fs old v m stw).getLsbD i = old.getLsbD i)) ∧
  (∀ (off : Nat) (row : RegRow), regAt off = some row →
    row.fields.Pairwise (fun f g => f.bits &&& g.bits = 0) ∧ ∀ f ∈ row.fields, f.lo ≤ f.hi ∧ f.hi ≤ 31)

/-- O17. An offset at which there is no register reads 0, and a write to it changes nothing and completes with status OK (R13).
Each register lies in one of the blocks of R13, at a multiple of four. -/
def Obligations.UnmappedOffsetsReadZero : Prop :=
  (∀ (src : Source) (off : BitVec 20) (be : BitVec 4) (v : Reg32) (s : State), regAt off.toNat = none →
     regWrite src off.toNat be v s = (stOk, s) ∧ regRead src off.toNat s = (0, s) ∧
     (Serves s →
       exec (.registerWrite off src be v) s = .next (quietStep { s with lastStatus := stOk }) ∧
       exec (.readClearCounter src off) s = .next (quietStep { s with lastRead := 0, lastStatus := stOk }))) ∧
  (∀ (off : Nat) (row : RegRow), regAt off = some row →
     off % 4 = 0 ∧
     (off < 0x5000 ∨ (0x10000 ≤ off ∧ off < 0x20000) ∨ (0x20000 ≤ off ∧ off < 0x32000) ∨ (0x40000 ≤ off ∧ off < 0x44000) ∨
       (0x80000 ≤ off ∧ off < 0x90000) ∨ (0xC0000 ≤ off ∧ off < 0xE0000)))

/-- O18. A row of the table that is an access to one register has the access's effect: its status and what it does are those of
`regWrite`, its value and what it does those of `regRead`; what the stack then goes on to is `quietStep`. REGISTER_WRITE on a
register with no effect of its own, outside the blocks whose registers have one: the register takes what its fields make of the
write, the status is OK, and no other register and nothing else changes. -/
def Obligations.RegisterRowsAreAccesses : Prop :=
  ((∀ (c : Instr) (src : Source) (off : Nat) (be : BitVec 4) (v : Reg32) (s : State),
     writeRow c = some (src, off, be, v) → Serves s →
     exec c s = .next (quietStep { (regWrite src off be v s).2 with lastStatus := (regWrite src off be v s).1 })) ∧
   (∀ (c : Instr) (src : Source) (off : Nat) (s : State), readRow c = some (src, off) → Serves s →
     exec c s = .next (quietStep { (regRead src off s).2 with lastRead := (regRead src off s).1, lastStatus := stOk }))) ∧
  (∀ (off : BitVec 20) (src : Source) (be : BitVec 4) (v : Reg32) (s : State) (row : RegRow),
     Reaches s src off.toNat row be →
     ((0x3000 ≤ off.toNat ∧ off.toNat < 0x20000 ∧ off.toNat ≠ Off.EVT_ROUTE) ∨ (0x2004 ≤ off.toNat ∧ off.toNat < 0x3000 ∧
       off.toNat ≠ Off.THM_CTRL ∧ off.toNat ≠ Off.THM_HALT)) →
     exec (.registerWrite off src be v) s = .next (quietStep
       { s.setReg off.toNat (Written s src off.toNat row be v) with lastStatus := stOk }) ∧
     (s.setReg off.toNat (Written s src off.toNat row be v)).reg off.toNat = Written s src off.toNat row be v ∧
     RegsKept s (s.setReg off.toNat (Written s src off.toNat row be v)) [off.toNat])

/-- O19. A write that covers an RWS field, from a source without steward privilege: it completes DENIED, is counted and recorded,
and leaves the steward's register as it was (R167, R505); here for the steward register itself and for a register of the thermal,
sideband or event block. Reads (R11): a field that a read clears reads once and then 0, and a field that is only written reads 0;
READ_CLEAR_COUNTER. -/
def Obligations.WritesAreDeniedAndReadsClear : Prop :=
  ((∀ (src off : Nat) (be : BitVec 4) (v : Reg32) (s : State) (row : RegRow), regAt off = some row →
     coversRws row.fields (beBits be) = true → s.steward src = false → be ≠ 0 → 0x3000 ≤ off → off < 0x20000 →
     let t := (regWrite src off be v s).2
     (regWrite src off be v s).1 = stDenied ∧
     t.rd Fld.GLB_DENY_COUNT = min (2 ^ Fld.GLB_DENY_COUNT.w - 1) (s.rd Fld.GLB_DENY_COUNT + 1) ∧
     t.rd Fld.GLB_DENY_LAST_KIND = 0 ∧ t.rd Fld.GLB_DENY_LAST_SOURCE = src % 32 ∧ t.rd Fld.GLB_DENY_LAST_TARGET = off % 2 ^ 20 ∧
     (Raised t (968 + 6) ∨ s.onceTurn.contains (968 + 6) = true)) ∧
   (∀ (src : Source) (be : BitVec 4) (v : Reg32) (s : State) (row : RegRow), Serves s → regAt Off.GLB_STEWARD = some row →
     s.steward src = false → be ≠ 0 → coversRws row.fields (beBits be) = true →
     exec (.stewardWrite src be v) s =
       .next (quietStep { deny src false Off.GLB_STEWARD s with lastStatus := stDenied }))) ∧
  (∀ (src : Source) (off : BitVec 20) (s : State) (row : RegRow), Serves s → regAt off.toNat = some row →
     (off.toNat < 0x900 ∨ 0xA00 ≤ off.toNat) → rcBits row.fields ≠ 0 →
     let t := readEffects off.toNat (s.setReg off.toNat (s.reg off.toNat &&& ~~~ rcBits row.fields))
     exec (.readClearCounter src off) s = .next (quietStep { t with
       lastRead := s.look src off.toNat &&& shownBits row.fields, lastStatus := stOk }) ∧
     (∀ i, i < 32 → (rcBits row.fields).getLsbD i = true →
       ((s.setReg off.toNat (s.reg off.toNat &&& ~~~ rcBits row.fields)).reg off.toNat).getLsbD i = false) ∧
     RegsKept s (s.setReg off.toNat (s.reg off.toNat &&& ~~~ rcBits row.fields)) [off.toNat])

/-- O20. The rows that write a register of a port, on a port the variant enables: TEST_STATE_WRITE, PRBS_CLR, INJECT_WRITE,
LINK_DIS_WRITE, RETRAIN_WRITE, WIDEN_WRITE and ROLE_WRITE. Each stores its register and has the register's own effect. A change
asked for by a write that came in on the port itself waits until its completion has been sent and 100 ns more; one that came from
elsewhere applies at once (R75, R138, R204). DELAYED_CHANGE_APPLY applies the first change whose completion has gone, not before
its 100 ns are over. A port's role is changed with its link down: a disabled port starts its training again, with the test states
its lanes hold; a port made disabled parks its lanes. -/
def Obligations.PortRegisterRowsAct : Prop :=
  (∀ (n : PortId) (src : Source) (be : BitVec 4) (v : Reg32) (s : State) (row : RegRow), s.portEnabled n = true →
     (∀ p : Pos, Reaches s src (Off.PRT_LANE_CTRL n p) row be →
       exec (.testStateWrite n p src be v) s = .next (quietStep
         { laneCtrlWrite src n p (Written s src (Off.PRT_LANE_CTRL n p) row be v) s with lastStatus := stOk })) ∧
     (Reaches s src (Off.PRT_PRBS_CTRL n) row be →
       exec (.prbsClr n src be v) s = .next (quietStep
         { prbsWrite n (Written s src (Off.PRT_PRBS_CTRL n) row be v) ((Ones s src row be v).getLsbD 13) s with
           lastStatus := stOk })) ∧
     (Reaches s src (Off.PRT_INJ_CTRL n) row be →
       exec (.injectWrite n src be v) s = .next (quietStep
         { injWrite n (Written s src (Off.PRT_INJ_CTRL n) row be v) s with lastStatus := stOk })) ∧
     (Reaches s src (Off.PRT_LINK_CTRL n) row be →
       let u := { linkCtrlWrite src n (Written s src (Off.PRT_LINK_CTRL n) row be v) (Ones s src row be v) s with lastStatus := stOk }
       exec (.linkDisWrite n src be v) s = .next (quietStep u) ∧ exec (.retrainWrite n src be v) s = .next (quietStep u) ∧
       exec (.widenWrite n src be v) s = .next (quietStep u)) ∧
     (Reaches s src (Off.PRT_POOL_CTRL n) row be → (be.getLsbD 0 = true → v.toNat % 4 = 1 → s.poolOn = true) →
       exec (.roleWrite n src be v) s = .next (quietStep
         { poolCtrlWrite src n (Written s src (Off.PRT_POOL_CTRL n) row be v) s with lastStatus := stOk })) ∧
     -- the peer role is not there on a variant without pools (R204)
     (Serves s → regAt (Off.PRT_POOL_CTRL n) = some row → be.getLsbD 0 = true → v.toNat % 4 = 1 → s.poolOn = false →
       exec (.roleWrite n src be v) s = .next (quietStep { s with lastStatus := stUnsupported }))) ∧
  ((∀ (n : Nat) (d : Delayed) (s : State), portChange n n d s = s.modPort n (fun p =>
     { p with delayed := p.delayed ++ [{ change := d, after := none, due := some (s.now + tNs 100) }] })) ∧
   (∀ (src n : Nat) (d : Delayed) (s : State), src ≠ n → portChange src n d s = applyDelayed n d s) ∧
   -- the completion that a change waits for, once sent, starts its 100 ns
   (∀ (n : PortId) (d : Later) (t : Nat) (before rest : List Later) (s : State),
     (s.port n).delayed = before ++ d :: rest → (∀ x ∈ before, x.due = none) → d.due = some t →
     exec (.delayedChangeApply n) s =
       .next (applyDelayed n d.change ((s.atLeast t).modPort n (fun p => { p with delayed := before ++ rest })))) ∧
   (∀ (n v : Nat) (s : State), v < 3 → s.role n ≠ v →
     let u := linkDown n 11 (s.wr (Fld.PRT_POOL_CTRL_ROLE n) v)
     (s.role n ≠ 2 → v ≠ 2 → applyRole n v s = u) ∧
     (s.role n ≠ 2 → v = 2 → applyRole n v s = (parkLanes n u).setLink n lsDown) ∧
     (s.role n = 2 → (∀ p, p < 8 → u.rd (Fld.PRT_LANE_CTRL_TEST_STATE n p) = 0) → applyRole n v s = u)))

/-- O21. The rows that write pool and map registers, from a steward while the map is not locked: WINDOW_BASE_WRITE, SP_LO_WRITE,
SP_HI_WRITE, MASK_LO_WRITE, MASK_HI_WRITE and MAP_SEL_WRITE. A LO half is staged, a HI half commits both or is refused as
MALFORMED with nothing changed; once the map is locked a write of the map or of the window changes nothing (R37, R206, R209,
R245). The rows that write registers of the management, cadence, thermal, calibration and reset logic: STEWARD_WRITE,
CORE_RESET_WRITE, OSC_LEARN_WRITE, GLB_RST_PORT_WRITE, GLB_RST_PAV_WRITE, CAD_CTRL_WRITE, HOST_THR_WRITE, HALT_CLEAR_WRITE. -/
def Obligations.PoolAndMapRowsAct : Prop :=
  (∀ (src : Source) (be : BitVec 4) (v : Reg32) (s : State) (row : RegRow), s.steward src = true →
     (Reaches s src Off.GLB_POOL_WINDOW row be → s.on Fld.GLB_MAP_CTRL_LOCKED = false →
       exec (.windowBaseWrite src be v) s = .next (quietStep
         { s.setReg Off.GLB_POOL_WINDOW (Written s src Off.GLB_POOL_WINDOW row be v) with lastStatus := stOk })) ∧
     (Reaches s src Off.GLB_MAP_CTRL row be → s.on Fld.GLB_MAP_CTRL_LOCKED = false →
       exec (.mapSelWrite src be v) s = .next (quietStep
         { s.setReg Off.GLB_MAP_CTRL (Written s src Off.GLB_MAP_CTRL row be v) with lastStatus := stOk })) ∧
     (s.on Fld.GLB_MAP_CTRL_LOCKED = true →
       (Reaches s src Off.GLB_POOL_WINDOW row be →
         exec (.windowBaseWrite src be v) s = .next (quietStep { s with lastStatus := stOk })) ∧
       (Reaches s src Off.GLB_MAP_CTRL row be →
         exec (.mapSelWrite src be v) s = .next (quietStep { s with lastStatus := stOk }))) ∧
     (∀ e : Fin 32, s.poolOn = true → Reaches s src (Off.GLB_SP_LO e) row be →
       exec (.spLoWrite e src be v) s = .next (quietStep
         { stage (Off.GLB_SP_LO e) (fieldsWrite row.fields (s.stagedLo (Off.GLB_SP_LO e)) v (beBits be) true) s with
           lastStatus := stOk })) ∧
     (∀ e : Fin 32, s.poolOn = true → Reaches s src (Off.GLB_SP_HI e) row be →
       let lo := s.stagedLo (Off.GLB_SP_LO e)
       let hi := Written s src (Off.GLB_SP_HI e) row be v
       (signpostLegal lo.toNat = true → exec (.spHiWrite e src be v) s = .next (quietStep
         { ((unstage (Off.GLB_SP_LO e) s).setReg (Off.GLB_SP_LO e) lo).setReg (Off.GLB_SP_HI e) hi with lastStatus := stOk })) ∧
       (signpostLegal lo.toNat = false →
         exec (.spHiWrite e src be v) s = .next (quietStep { s with lastStatus := stMalformed }))) ∧
     (∀ (part : Bool) (m : Fin 11), s.on Fld.GLB_MAP_CTRL_LOCKED = false → (part = true → m.val < 6) →
       let offLo := if part then Off.GLB_MAP_P_LO m else Off.GLB_MAP_I_LO m
       let offHi := if part then Off.GLB_MAP_P_HI m else Off.GLB_MAP_I_HI m
       (Reaches s src offLo row be → exec (.maskLoWrite part m src be v) s = .next (quietStep
         { stage offLo (fieldsWrite row.fields (s.stagedLo offLo) v (beBits be) true) s with lastStatus := stOk })) ∧
       (Reaches s src offHi row be →
         let lo := s.stagedLo offLo
         let hi := Written s src offHi row be v
         let mask := lo.toNat + 2 ^ 32 * hi.toNat
         ((if part then maskPLegal m mask else maskILegal m mask) = true →
           exec (.maskHiWrite part m src be v) s = .next (quietStep
             { ((unstage offLo s).setReg offLo lo).setReg offHi hi with lastStatus := stOk })) ∧
         ((if part then maskPLegal m mask else maskILegal m mask) = false →
           exec (.maskHiWrite part m src be v) s = .next (quietStep { s with lastStatus := stMalformed }))))) ∧
  (∀ (src : Source) (be : BitVec 4) (v : Reg32) (s : State) (row : RegRow),
     (s.steward src = true → Reaches s src Off.GLB_STEWARD row be → s.on Fld.GLB_STEWARD_LOCK = false →
       let new := Written s src Off.GLB_STEWARD row be v
       (∀ u, putSteward (bitsOf new.toNat 0 17) (new.getLsbD 31) s = some u →
         exec (.stewardWrite src be v) s = .next (quietStep { u with lastStatus := stOk })) ∧
       (putSteward (bitsOf new.toNat 0 17) (new.getLsbD 31) s = none →
         exec (.stewardWrite src be v) s = .next (quietStep { s with lastStatus := stMalformed }))) ∧
     (Reaches s src Off.GLB_STEWARD row be → s.on Fld.GLB_STEWARD_LOCK = true →
       exec (.stewardWrite src be v) s = .next (quietStep { s with lastStatus := stOk })) ∧
     (Reaches s src Off.GLB_FW_CTRL row be →
       let u := s.setReg Off.GLB_FW_CTRL (Written s src Off.GLB_FW_CTRL row be v &&& 0x7FFFFFFF)
       exec (.coreResetWrite src be v) s = .next (quietStep
         { (if (Ones s src row be v).getLsbD 31 then mgmtReset 2 u else u) with lastStatus := stOk })) ∧
     (Reaches s src Off.GLB_CAL_CTRL row be →
       exec (.oscLearnWrite src be v) s = .next (quietStep
         { setLearn ((Written s src Off.GLB_CAL_CTRL row be v).getLsbD 0) s with lastStatus := stOk })) ∧
     (Reaches s src Off.GLB_RST_PORT row be →
       exec (.glbRstPortWrite src be v) s = .next (quietStep
         { resetPorts src (Ones s src row be v).toNat s with lastStatus := stOk })) ∧
     (Reaches s src Off.GLB_RST_PAV row be →
       exec (.glbRstPavWrite src be v) s = .next (quietStep
         { askPavResets (Ones s src row be v).toNat s with lastStatus := stOk })) ∧
     (Reaches s src Off.CAD_CTRL row be →
       let x := (Written s src Off.CAD_CTRL row be v).toNat
       exec (.cadCtrlWrite src be v) s = .next (quietStep
         { setSource (bitsOf x 0 2) (bitsOf x 4 4) s with lastStatus := stOk })) ∧
     (Reaches s src Off.THM_CTRL row be →
       let x := (Written s src Off.THM_CTRL row be v).toNat
       exec (.hostThrWrite src be v) s = .next (quietStep
         { setExternal (bitAt x 3) (bitAt x 4) (bitAt x 5) (setHostThr (bitsOf x 0 2) s) with lastStatus := stOk })) ∧
     (Reaches s src Off.THM_HALT row be →
       exec (.haltClearWrite src be v) s = .next (quietStep
         { (if (Ones s src row be v).getLsbD 31 then askHaltClear s else s) with lastStatus := stOk })))

/-- O22. Each row that writes a register with an effect of its own completes, with status OK, whenever the write reaches the
register, and what it leaves is the register's own effect (R11, R75, R87, R88, R138, R204, R209, R245, R300, R441, R444, R480,
R504): the seven rows of a port and its delayed changes, the six of pool and map, the eight of management, cadence, thermal,
calibration and reset; and a TURN or RETRAIN slot on a link that is up is always taken (R125, R133). -/
def Obligations.RegisterRowsComplete : Prop :=
  ∀ (src : Source) (be : BitVec 4) (v : Reg32) (s : State) (row : RegRow),
    let field := fun (f : Fld) (x : Reg32) => bitsOf x.toNat f.lo f.w
    -- a port's rows; a change of the writer's own port is kept, and each of another port is made
    (∀ n : PortId, s.portEnabled n = true →
      (∀ p : Pos, Reaches s src (Off.PRT_LANE_CTRL n p) row be →
        let w := Written s src (Off.PRT_LANE_CTRL n p) row be v
        let x := field (Fld.PRT_LANE_CTRL_TEST_STATE n p) w
        ∃ u, exec (.testStateWrite n p src be v) s = .next (quietStep u) ∧ u.lastStatus = stOk ∧
          u.reg (Off.PRT_LANE_CTRL n p) = w ∧
          (src.val = n.val → u.link n = s.link n ∧ (u.port n).delayed = (s.port n).delayed ++
            (if s.rd (Fld.PRT_LANE_CTRL_TEST_STATE n p) = x then []
             else [⟨.testState p (BitVec.ofNat 3 x), none, some (s.now + tNs 100)⟩]))) ∧
      (Reaches s src (Off.PRT_PRBS_CTRL n) row be →
        let w := Written s src (Off.PRT_PRBS_CTRL n) row be v
        ∃ u, exec (.prbsClr n src be v) s = .next (quietStep u) ∧ u.lastStatus = stOk ∧ u.reg (Off.PRT_PRBS_CTRL n) = w ∧
          ((Ones s src row be v).getLsbD 13 = true → ∀ p < 8, bitAt (field (Fld.PRT_PRBS_CTRL_LANE_MASK n) w) p = true →
            u.reg (Off.PRT_LANE_PRBS_ERR n p) = 0 ∧ u.prbsCount n p = 0)) ∧
      (Reaches s src (Off.PRT_INJ_CTRL n) row be →
        let w := Written s src (Off.PRT_INJ_CTRL n) row be v
        ∃ u, exec (.injectWrite n src be v) s = .next (quietStep u) ∧ u.lastStatus = stOk ∧
          RegsKept s u [Off.PRT_INJ_CTRL n] ∧ u.rd (Fld.PRT_INJ_CTRL_LANE_MASK n) = field (Fld.PRT_INJ_CTRL_LANE_MASK n) w ∧
          (u.rd (Fld.PRT_INJ_CTRL_MODE n) = field (Fld.PRT_INJ_CTRL_MODE n) w ∨ u.rd (Fld.PRT_INJ_CTRL_MODE n) = 0)) ∧
      (Reaches s src (Off.PRT_LINK_CTRL n) row be →
        let w := Written s src (Off.PRT_LINK_CTRL n) row be v
        ∃ u, exec (.linkDisWrite n src be v) s = .next (quietStep u) ∧ exec (.retrainWrite n src be v) s = .next (quietStep u) ∧
          exec (.widenWrite n src be v) s = .next (quietStep u) ∧ u.lastStatus = stOk ∧ u.reg (Off.PRT_LINK_CTRL n) = w ∧
          (src.val = n.val → u.link n = s.link n ∧ ((Ones s src row be v).getLsbD 4 = true →
            ⟨.widen, none, some (s.now + tNs 100)⟩ ∈ (u.port n).delayed)) ∧
          (src.val ≠ n.val → s.on (Fld.PRT_LINK_CTRL_LINK_DIS n) = w.getLsbD 2 →
            ((Ones s src row be v).getLsbD 4 || (Ones s src row be v).getLsbD 3) = true → s.up n = true → u.link n = lsRecovery)) ∧
      (Reaches s src (Off.PRT_POOL_CTRL n) row be → (be.getLsbD 0 = true → v.toNat % 4 = 1 → s.poolOn = true) →
        let x := field (Fld.PRT_POOL_CTRL_ROLE n) (Written s src (Off.PRT_POOL_CTRL n) row be v)
        ∃ u, exec (.roleWrite n src be v) s = .next (quietStep u) ∧ u.lastStatus = stOk ∧
          (src.val = n.val → u.role n = s.role n ∧ u.link n = s.link n) ∧ (src.val ≠ n.val → u.role n = x)) ∧
      ((∃ d ∈ (s.port n).delayed, d.due.isSome = true) → ∃ u, exec (.delayedChangeApply n) s = .next u ∧
        (u.port n).delayed.length < (s.port n).delayed.length)) ∧
    -- pool and map
    (s.steward src = true → s.on Fld.GLB_MAP_CTRL_LOCKED = false →
      (Reaches s src Off.GLB_POOL_WINDOW row be → ∃ u, exec (.windowBaseWrite src be v) s = .next (quietStep u) ∧
        u.lastStatus = stOk ∧ u.reg Off.GLB_POOL_WINDOW = Written s src Off.GLB_POOL_WINDOW row be v ∧
        RegsKept s u [Off.GLB_POOL_WINDOW]) ∧
      (Reaches s src Off.GLB_MAP_CTRL row be → ∃ u, exec (.mapSelWrite src be v) s = .next (quietStep u) ∧
        u.lastStatus = stOk ∧ u.reg Off.GLB_MAP_CTRL = Written s src Off.GLB_MAP_CTRL row be v ∧ RegsKept s u [Off.GLB_MAP_CTRL]) ∧
      (∀ e : Fin 32, s.poolOn = true →
        (Reaches s src (Off.GLB_SP_LO e) row be → ∃ u, exec (.spLoWrite e src be v) s = .next (quietStep u) ∧
          u.lastStatus = stOk ∧ u.regs = s.regs ∧
          u.stagedLo (Off.GLB_SP_LO e) = fieldsWrite row.fields (s.stagedLo (Off.GLB_SP_LO e)) v (beBits be) true) ∧
        (Reaches s src (Off.GLB_SP_HI e) row be → ∃ u, exec (.spHiWrite e src be v) s = .next (quietStep u) ∧
          (signpostLegal (s.stagedLo (Off.GLB_SP_LO e)).toNat = true → u.lastStatus = stOk ∧
            u.reg (Off.GLB_SP_LO e) = s.stagedLo (Off.GLB_SP_LO e) ∧
            u.reg (Off.GLB_SP_HI e) = Written s src (Off.GLB_SP_HI e) row be v ∧
            RegsKept s u [Off.GLB_SP_LO e, Off.GLB_SP_HI e]) ∧
          (signpostLegal (s.stagedLo (Off.GLB_SP_LO e)).toNat = false → u.lastStatus = stMalformed ∧ u.regs = s.regs))) ∧
      (∀ (part : Bool) (m : Fin 11), (part = true → m.val < 6) →
        let lo := if part then Off.GLB_MAP_P_LO m else Off.GLB_MAP_I_LO m
        let hi := if part then Off.GLB_MAP_P_HI m else Off.GLB_MAP_I_HI m
        (Reaches s src lo row be → ∃ u, exec (.maskLoWrite part m src be v) s = .next (quietStep u) ∧
          u.lastStatus = stOk ∧ u.regs = s.regs ∧ u.stagedLo lo = fieldsWrite row.fields (s.stagedLo lo) v (beBits be) true) ∧
        (Reaches s src hi row be → ∃ u, exec (.maskHiWrite part m src be v) s = .next (quietStep u) ∧
          (u.lastStatus = stOk ∧ u.reg lo = s.stagedLo lo ∧ u.reg hi = Written s src hi row be v ∧ RegsKept s u [lo, hi] ∨
            u.lastStatus = stMalformed ∧ u.regs = s.regs)))) ∧
    -- management, cadence, thermal, calibration and reset
    (s.steward src = true → Reaches s src Off.GLB_STEWARD row be → s.on Fld.GLB_STEWARD_LOCK = false →
      let w := Written s src Off.GLB_STEWARD row be v
      let mask := (BitVec.ofNat 17 (bitsOf w.toNat 0 17) &&& BitVec.ofNat 17 s.stewardCan).toNat
      ∃ u, exec (.stewardWrite src be v) s = .next (quietStep u) ∧
        ((∃ k < 17, bitAt mask k = true ∧ s.sourceEnabled k = true) → u.lastStatus = stOk ∧ u.rd Fld.GLB_STEWARD_MASK = mask ∧
          u.rd Fld.GLB_STEWARD_LOCK = b2n (w.getLsbD 31)) ∧
        ((∀ k < 17, bitAt mask k = true → s.sourceEnabled k = false) → u.lastStatus = stMalformed ∧ u.regs = s.regs)) ∧
    (Reaches s src Off.GLB_FW_CTRL row be → ∃ u, exec (.coreResetWrite src be v) s = .next (quietStep u) ∧ u.lastStatus = stOk ∧
      ((Ones s src row be v).getLsbD 31 = true → u.rd Fld.GLB_FW_STAT_READY = 0 ∧ u.rd Fld.GLB_FW_STAT_IMAGE = 1 ∧
        u.rd Fld.GLB_FW_STAT_RESTARTS = min (2 ^ Fld.GLB_FW_STAT_RESTARTS.w - 1) (s.rd Fld.GLB_FW_STAT_RESTARTS + 1))) ∧
    (Reaches s src Off.GLB_CAL_CTRL row be → ∃ u, exec (.oscLearnWrite src be v) s = .next (quietStep u) ∧ u.lastStatus = stOk ∧
      u.rd Fld.GLB_CAL_CTRL_OSC_LEARN = b2n ((Written s src Off.GLB_CAL_CTRL row be v).getLsbD 0)) ∧
    (Reaches s src Off.GLB_RST_PORT row be → ∃ u, exec (.glbRstPortWrite src be v) s = .next (quietStep u) ∧ u.lastStatus = stOk ∧
      ∀ n < 16, (Ones s src row be v).getLsbD n = true → s.portEnabled n = true →
        (src.val ≠ n → (u.port n).markedDown = false ∧ u.rd (Fld.PRT_PHY_STAT_DOWN n) = 0) ∧
        (src.val = n → ⟨.portReset, none, some (s.now + tNs 100)⟩ ∈ (u.port n).delayed)) ∧
    (Reaches s src Off.GLB_RST_PAV row be → ∃ u, exec (.glbRstPavWrite src be v) s = .next (quietStep u) ∧ u.lastStatus = stOk ∧
      ∀ p < 32, (Ones s src row be v).getLsbD p = true → (u.pav p).resetAsked = true) ∧
    (Reaches s src Off.CAD_CTRL row be →
      let w := Written s src Off.CAD_CTRL row be v
      ∃ u, exec (.cadCtrlWrite src be v) s = .next (quietStep u) ∧ u.lastStatus = stOk ∧
        (field Fld.CAD_CTRL_SRC w < 3 → u.rd Fld.CAD_CTRL_SRC = field Fld.CAD_CTRL_SRC w) ∧
        u.rd Fld.CAD_CTRL_PORT = field Fld.CAD_CTRL_PORT w) ∧
    (Reaches s src Off.THM_CTRL row be →
      let w := Written s src Off.THM_CTRL row be v
      ∃ u, exec (.hostThrWrite src be v) s = .next (quietStep u) ∧ u.lastStatus = stOk ∧
        (field Fld.THM_CTRL_HOST_THR w < 3 → u.rd Fld.THM_CTRL_HOST_THR = field Fld.THM_CTRL_HOST_THR w) ∧
        u.rd Fld.THM_CTRL_TD1_EN = b2n (w.getLsbD 3) ∧ u.rd Fld.THM_CTRL_TD2_EN = b2n (w.getLsbD 4) ∧
        u.rd Fld.THM_CTRL_THM_EN = b2n (w.getLsbD 5)) ∧
    (Reaches s src Off.THM_HALT row be → ∃ u, exec (.haltClearWrite src be v) s = .next (quietStep u) ∧ u.lastStatus = stOk ∧
      ((Ones s src row be v).getLsbD 31 = true → s.haltClearable = true → u.rd Fld.THM_STAT_HALT = 0 ∧ u.rd Fld.THM_STAT_TRIP = 0) ∧
      (s.haltClearable = false → u = { s with lastStatus := stOk })) ∧
    -- the TURN and RETRAIN slots
    (∀ n : PortId, s.up n = true → (∀ (lo : BitVec 16) (late : BitVec 12) (age : Nat), ∃ u, exec (.turn n lo late age) s = .next u ∧
        s.now ≤ u.now ∧ u.pending = s.pending) ∧
      (∀ widen : Bool, ∃ u, exec (.retrain n widen) s = .next u ∧ u.link n = lsRecovery ∧ (u.port n).train.recov = true))

/-- O23. The rows that write event, monitor and ECC registers: EVT_PORTS_WRITE, EVT_SEEN_CLEAR, MON_RESTART_WRITE and
REPEAT_EN_WRITE. The rows that read a register with an effect of its own: PRBS_BITS_LO_READ, CAD_NOW_LO_READ, MON_SUM_LO_READ,
THM_PEAK_READ, BIST_FAIL_1_READ and ECC_LOG_3_READ. -/
def Obligations.EventRegisterRowsAct : Prop :=
  (∀ (src : Source) (be : BitVec 4) (v : Reg32) (s : State) (row : RegRow),
     (Reaches s src Off.EVT_ROUTE row be →
       exec (.evtPortsWrite src be v) s = .next (quietStep
         { setRoute (Written s src Off.EVT_ROUTE row be v).toNat s with lastStatus := stOk })) ∧
     -- a bit of EVT_SEEN written 1 is cleared and every other keeps its value
     (∀ i : Fin 32, Reaches s src (Off.EVT_SEEN i) row be → row.fields = [⟨31, 0, .w1c, 0⟩] →
       exec (.evtSeenClear i src be v) s = .next (quietStep
         { s.setReg (Off.EVT_SEEN i) (s.reg (Off.EVT_SEEN i) &&& ~~~(v &&& beBits be)) with lastStatus := stOk })) ∧
     (∀ u : UnitId, Reaches s src (Off.MON_CTRL u) row be →
       let t := s.setReg (Off.MON_CTRL u) (Written s src (Off.MON_CTRL u) row be v)
       exec (.monRestartWrite u src be v) s = .next (quietStep
         { (if (Ones s src row be v).getLsbD 31 then monDiscard u t else t) with lastStatus := stOk })) ∧
     (∀ p : PavId, Reaches s src (Off.PAV_ECC_CTRL p) row be →
       let t := s.setReg (Off.PAV_ECC_CTRL p) (Written s src (Off.PAV_ECC_CTRL p) row be v)
       exec (.repeatEnWrite p src be v) s = .next (quietStep
         { (if t.on (Fld.PAV_ECC_CTRL_REPEAT_EN p) then t else clearRepeats p t) with lastStatus := stOk }))) ∧
  (∀ (src : Source) (s : State), Serves s →
     (∀ row, regAt Off.CAD_NOW_LO = some row → rcBits row.fields = 0 →
       exec (.cadNowLoRead src) s = .next (quietStep { s with
         cad := { s.cad with nowHi := some (BitVec.ofNat 32 (s.stamp.toNat / 2 ^ 32)) }
         lastRead := BitVec.ofNat 32 s.stamp.toNat &&& shownBits row.fields
         lastStatus := stOk })) ∧
     (∀ row, regAt Off.THM_PEAK = some row → rcBits row.fields = 0xFFFFFFFF →
       exec (.thmPeakRead src) s = .next (quietStep { s.setReg Off.THM_PEAK 0 with
         therm := { s.therm with peakFreshD := true, peakFreshB := true }
         lastRead := s.reg Off.THM_PEAK &&& shownBits row.fields
         lastStatus := stOk })) ∧
     (∀ (u : UnitId) (lvl : Bool) row, regAt (if lvl then Off.MON_LVL_SUM_LO u else Off.MON_SUM_LO u) = some row →
       rcBits row.fields = 0 →
       let t := if lvl then s.modMon u (fun m => { m with lvlHi := some (s.reg (Off.MON_LVL_SUM_HI u)) })
         else s.modMon u (fun m => { m with sumHi := some (s.reg (Off.MON_SUM_HI u)) })
       exec (.monSumLoRead src u lvl) s = .next (quietStep { t with
         lastRead := s.reg (if lvl then Off.MON_LVL_SUM_LO u else Off.MON_SUM_LO u) &&& shownBits row.fields
         lastStatus := stOk })) ∧
     (∀ (p : PavId) row, regAt (Off.PAV_BIST_FAIL_1 p) = some row → rcBits row.fields = 0 →
       exec (.bistFail1Read src p) s = .next (quietStep { s.wr (Fld.PAV_BIST_FAIL_0_VALID p) 0 with
         lastRead := s.reg (Off.PAV_BIST_FAIL_1 p) &&& shownBits row.fields
         lastStatus := stOk })) ∧
     (∀ (p : PavId) row, regAt (Off.PAV_ECC_LOG_3 p) = some row → rcBits row.fields = 0 →
       exec (.eccLog3Read src p) s = .next (quietStep { s.modPav p (fun v => { v with records := v.records.drop 1 }) with
         lastRead := s.look src (Off.PAV_ECC_LOG_3 p) &&& shownBits row.fields
         lastStatus := stOk })) ∧
     -- the bits compared run with the time; the errors counted since the last access come with the read
     (∀ (n : PortId) (p : Pos) (bits errs : Nat) row, regAt (Off.PRT_LANE_PRBS_BITS_LO n p) = some row → rcBits row.fields = 0 →
       s.portEnabled n = true → s.checkerRuns n p = true → s.on (Fld.PRT_LANE_STAT_PRBS_LOCK n p) = true →
       let t := s.sat (Fld.PRT_LANE_PRBS_ERR_COUNT n p) (min errs bits)
       exec (.prbsBitsLoRead n p src bits errs) s = .next (quietStep
         { t.modLane n p (fun l => { l with prbsHi := some (BitVec.ofNat 32 ((t.prbsCount n p).toNat / 2 ^ 32)) }) with
           lastRead := BitVec.ofNat 32 ((t.prbsCount n p).toNat % 2 ^ 32) &&& shownBits row.fields
           lastStatus := stOk })))

/-- O24. What is counted and reported of a lane: FIFO_SLIP, CDR_LOCK_LOST, GRADING_WINDOW_END, PRBS_CHECKER_LOCK, PRBS_RELOCK and
PERIODIC_INJECT (R64, R79, R81, R83, R84, R96). A lane's PLL and its exits from coast and parked: LANE_PLL_LOCK_LOST,
LANE_PLL_LOCK_HELD, LANE_EXIT_LOCK, COAST_EXIT_WATCHDOG and PARKED_EXIT_WATCHDOG (R55, R67, R68). -/
def Obligations.LaneFaultsAreCounted : Prop :=
  (∀ (n : PortId) (p : Pos) (s : State),
     (s.laneRuns n p = true → ∃ t, exec (.fifoSlip n p) s = .next t ∧
       t.rd (Fld.PRT_LANE_FAULTS_FIFO_SLIP n p) = min (2 ^ (Fld.PRT_LANE_FAULTS_FIFO_SLIP n p).w - 1)
         (s.rd (Fld.PRT_LANE_FAULTS_FIFO_SLIP n p) + 1) ∧ (t.lane n p).fifo = 8 ∧ (t.lane n p).slipped = true ∧
       Raised t (evPort n 3) ∧ RegsKept s t [Off.PRT_LANE_FAULTS n p] ∧
       t = { s with regs := t.regs, crossing := t.crossing, lanes := t.lanes }) ∧
     (s.rd (Fld.PRT_LANE_STAT_STATE n p) = laActive →
       ((s.lane n p).cdrLosses.filter (fun t => decide (s.now < t + tMs))).length < 3 → ∃ t, exec (.cdrLockLost n p) s = .next t ∧
       t.rd (Fld.PRT_LANE_FAULTS_CDR_LOSS n p) = min (2 ^ (Fld.PRT_LANE_FAULTS_CDR_LOSS n p).w - 1)
         (s.rd (Fld.PRT_LANE_FAULTS_CDR_LOSS n p) + 1) ∧
       t.rd (Fld.PRT_LANE_STAT_CDR_LOCK n p) = 0 ∧ Raised t (evPort n 2) ∧
       t.rd (Fld.PRT_LANE_STAT_HEALTH n p) = s.rd (Fld.PRT_LANE_STAT_HEALTH n p) ∧ t.link n = s.link n ∧
       RegsKept s t [Off.PRT_LANE_FAULTS n p, Off.PRT_LANE_STAT n p] ∧
       t = { s with regs := t.regs, crossing := t.crossing, lanes := t.lanes }) ∧
     -- a window that ends: at most 16 disagreements are healthy, at most 4,095 degraded, more are failing
     (∀ d w, (s.rd (Fld.PRT_LANE_STAT_STATE n p) = laActive ∨ s.rd (Fld.PRT_LANE_STAT_STATE n p) = laTraining) →
       (s.lane n p).scan = none → s.windowEnd n p = some w →
       (d ≤ 4095 → ∃ t, exec (.gradingWindowEnd n p d) s = .next t ∧ t.now = max s.now w ∧
         t.rd (Fld.PRT_LANE_MARGIN_ERR_COUNT n p) = d ∧ t.rd (Fld.PRT_LANE_STAT_HEALTH n p) = (if d ≤ 16 then 0 else 1) ∧
         (t.lane n p).winFrom = some t.now ∧ RegsKept s t [Off.PRT_LANE_MARGIN_ERR n p, Off.PRT_LANE_STAT n p] ∧
         t = { s with regs := t.regs, lanes := t.lanes, now := t.now }) ∧
       (4095 < d → d < 2 ^ 32 → s.rd (Fld.PRT_LANE_STAT_HEALTH n p) ≠ 2 →
         exec (.gradingWindowEnd n p d) s = .next (enterRecovery n 3 false ((((freshWindow n p
           ((s.atLeast w).wr (Fld.PRT_LANE_MARGIN_ERR_COUNT n p) d)).wr (Fld.PRT_LANE_STAT_HEALTH n p) 2).wr
           (Fld.PRT_LANE_STAT_USABLE n p) 0).raise (evPort n 1) (2 ^ p.val))))) ∧
     -- a checker locks on 64 bits that follow its register's recurrence
     (∀ rx : List Bool,
       let poly := s.rd (Fld.PRT_PRBS_CTRL_POLY n)
       let bits := rx.map (fun b => b ^^ s.prbsInv n p)
       let c := prbsCompare poly (prbsLoad poly bits) ((bits.drop (prbsDegree poly)).take 64)
       s.checkerRuns n p = true → s.rd (Fld.PRT_LANE_STAT_PRBS_LOCK n p) = 0 → prbsDegree poly + 64 ≤ rx.length → c.1 = 0 →
       ∃ t, exec (.prbsCheckerLock n ⟨p, rx⟩) s = .next t ∧ t.rd (Fld.PRT_LANE_STAT_PRBS_LOCK n p) = 1 ∧
         (t.lane n p).chkReg = c.2 ∧ (t.lane n p).prbsFrom = some s.now ∧ RegsKept s t [Off.PRT_LANE_STAT n p] ∧
         t = { s with regs := t.regs, lanes := t.lanes }) ∧
     (∀ bits errs from_, s.checkerRuns n p = true → s.on (Fld.PRT_LANE_STAT_PRBS_LOCK n p) = true → bits ≤ 1024 → 512 < errs →
       errs ≤ bits → (s.lane n p).prbsFrom = some from_ →
       ∃ t, exec (.prbsRelock n p bits errs) s = .next t ∧ t.now = max s.now (from_ + s.bitTicks n bits) ∧
       (t.lane n p).prbsBits = (s.lane n p).prbsBits + BitVec.ofNat 64 (s.bitsIn n (t.now - from_)) ∧
       (t.lane n p).prbsFrom = none ∧
       t.rd (Fld.PRT_LANE_PRBS_ERR_COUNT n p) = min (2 ^ (Fld.PRT_LANE_PRBS_ERR_COUNT n p).w - 1)
         (s.rd (Fld.PRT_LANE_PRBS_ERR_COUNT n p) + errs) ∧
       t.rd (Fld.PRT_LANE_STAT_PRBS_LOCK n p) = 0 ∧
       t.rd (Fld.PRT_LANE_FAULTS_PRBS_RELOCK n p) = min (2 ^ (Fld.PRT_LANE_FAULTS_PRBS_RELOCK n p).w - 1)
         (s.rd (Fld.PRT_LANE_FAULTS_PRBS_RELOCK n p) + 1) ∧ Raised t (evPort n 4) ∧
       RegsKept s t [Off.PRT_LANE_PRBS_ERR n p, Off.PRT_LANE_STAT n p, Off.PRT_LANE_FAULTS n p] ∧
       t = { s with regs := t.regs, crossing := t.crossing, lanes := t.lanes, now := t.now }) ∧
     -- the periodic injection flips one bit, in active lanes of the flit being sent, and is due again
     (∀ w, s.rd (Fld.PRT_INJ_CTRL_MODE n) = 2 → s.injects n p = true → (s.lane n p).injAt = some w →
       ∃ t, exec (.periodicInject n p) s = .next t ∧ t.now = max s.now w ∧ (t.lane n p).flips = (s.lane n p).flips + 1 ∧
       (t.lane n p).injAt = some (w + s.bitTicks n (2 ^ s.injPeriod n)) ∧
       (s.rd (Fld.PRT_LANE_STAT_STATE n p) = laActive →
         let act := positions (s.active n)
         let pos := s.rd (Fld.PRT_INJ_CTRL_POS n)
         (t.port n).txBad = (s.port n).txBad ++ [((s.port n).txLog.length + pos / (640 / act.length),
           [flitBit act.length (act.idxOf p.val) (pos % (640 / act.length))])]) ∧
       PortsKept s t n ∧ t = { s with lanes := t.lanes, ports := t.ports, now := t.now })) ∧
  (∀ (n : PortId) (p : Pos) (s : State),
     (s.on (Fld.PRT_PHY_STAT_PLL_LOCK n) = true →
       exec (.lanePllLockLost n) s =
         .next (linkDown n 2 ((s.modPort n (fun q => { q with pllLost := true })).raise (evPort n 0) 0xFF))) ∧
     ((s.port n).pllLost = true → exec (.lanePllLockHeld n) s =
       .next (startTraining n ((s.modPort n (fun q => { q with pllLost := false })).wr (Fld.PRT_PHY_STAT_PLL_LOCK n) 1))) ∧
     -- the last lane of a link in coast to lock starts the EXIT sets
     (s.link n = lsCoast → bitAt (s.active n) p = true → s.rd (Fld.PRT_LANE_STAT_STATE n p) = laCoast →
       ∃ t, exec (.laneExitLock n p) s = .next t ∧
       t.rd (Fld.PRT_LANE_STAT_STATE n p) = laActive ∧ t.rd (Fld.PRT_LANE_STAT_CDR_LOCK n p) = 1 ∧
       (t.lane n p).exitDeadline = none ∧
       ((∀ k, k < 8 → k ≠ p.val → bitAt (s.active n) k = true → s.rd (Fld.PRT_LANE_STAT_STATE n k) ≠ laCoast) →
         (t.port n).exitFrom.isSome = true) ∧
       RegsKept s t [Off.PRT_LANE_STAT n p, Off.PRT_INJ_CTRL n] ∧ PortsKept s t n ∧
       t = { s with regs := t.regs, lanes := t.lanes, ports := t.ports }) ∧
     (s.link n = lsParked → bitAt (s.active n) p = true → (s.lane n p).exitDeadline.isSome = true →
       exec (.laneExitLock n p) s = .next (parkedExitDone n (laneTo n p laTraining
         ((s.modLane n p (fun l => { l with exitDeadline := none })).wr (Fld.PRT_LANE_STAT_CDR_LOCK n p) 1)))) ∧
     -- a lane that does not leave coast in time is parked and reported, and the link recovers with full training
     (∀ t, (s.lane n p).exitDeadline = some t → (s.lane n p).exitParked = false →
       let u := (laneTo n p laParked ((s.atLeast t).modLane n p (fun l => { l with exitDeadline := none }))).raise
         (evPort n 5) (2 ^ p.val)
       let v := if (u.port n).train.hasLink then countExitRecovery n u else u
       exec (.coastExitWatchdog n p) s = .next (enterLock n (u.port n).train.hasLink (v.modPort n (fun q =>
         { q with exitFrom := none, train := { q.train with gotExit := 0, recovEnd := some (max s.now t + 2 * tMs) } })))) ∧
     (∀ t, (s.lane n p).exitDeadline = some t → (s.lane n p).exitParked = true →
       exec (.parkedExitWatchdog n p) s = .next (parkedExitDone n ((laneTo n p laParked (((s.atLeast t).modLane n p
         (fun l => { l with exitDeadline := none })).wr (Fld.PRT_LANE_STAT_USABLE n p) 0)).raise (evPort n 5) (2 ^ p.val)))))

/-- O25. The ordered sets of a training (R65, R69, R74, R98, R99, R101 to R104): TS1, TS2, EIOS, EXIT, SDS, and the ends of a PLL
relock and of a preset's measurement, PLL_RELOCK_DONE and PRESET_MEASURE_END. Sixteen bytes that do not spell the set do nothing,
a far-end loopback sends them back, and a set that is heard is joined to the positions that have received it; the state moves on
when every position it needs has. -/
def Obligations.OrderedSetsTrain : Prop :=
  ∀ (n : PortId) (p : Pos) (set : List Byte) (s : State),
    (osRead osTs1 set = none → exec (.ts1 n p set) s = .next s) ∧
    (∀ inv os, osRead osTs1 set = some (inv, os) → s.rd (Fld.PRT_LANE_STAT_STATE n p) = laLoop →
      s.rd (Fld.PRT_LANE_CTRL_TEST_STATE n p) = 1 →
      exec (.ts1 n p set) s = .next (s.modLane n p (fun l => { l with echo := l.echo ++ [set] }))) ∧
    (∀ inv os, osRead osTs1 set = some (inv, os) → s.rd (Fld.PRT_LANE_STAT_STATE n p) = laTraining → s.link n = lsLock →
      let t := (hearSet n p inv s).modTrain n (fun x => { x with
        locked := addPos x.locked p, got1 := addPos x.got1 p, pRates := os.rates, pX1 := os.x1 })
      exec (.ts1 n p set) s = .next (if addPos (s.port n).train.got1 p = 0xFF then enterConfig n t else t)) ∧
    -- in LINK_UP, TS1 with RECOV on every active lane is the partner's recovery
    (∀ inv os, osRead osTs1 set = some (inv, os) → s.rd (Fld.PRT_LANE_STAT_STATE n p) = laActive → s.link n = lsUp →
      os.recov = true → bitAt (s.active n) p = true → os.full = false → (s.port n).train.full = false →
      covers (addPos (s.port n).train.got1 p).toNat (s.active n) = true →
      let t := (hearSet n p inv s).modTrain n (fun x => { x with got1 := addPos x.got1 p })
      exec (.ts1 n p set) s = .next ((enterRecovery n 6 false t).modTrain n (fun x =>
        { x with got1 := addPos (s.port n).train.got1 p }))) ∧
    (∀ inv os at_, osRead osTs2 set = some (inv, os) → s.rd (Fld.PRT_LANE_STAT_STATE n p) = laTraining → s.link n = lsConfig →
      ((os.kind.toNat ≠ s.role n ∨ os.expect ≠ 1) →
        exec (.ts2 n p ⟨set, at_⟩) s = .next (trainingFailed n 7 (hearSet n p inv s))) ∧
      (os.kind.toNat = s.role n → os.expect = 1 → os.seen = true → s.on (Fld.PRT_LANE_STAT_USABLE n p) = true →
        let t := ((hearSet n p inv s).modTrain n (fun x => { x with
          got2 := addPos x.got2 p
          pUsable := os.usable
          pRates := os.rates
          pX1 := os.x1 })).modLane n p (fun l => { l with arrival := at_ })
        exec (.ts2 n p ⟨set, at_⟩) s = .next
          (if covers (addPos (s.port n).train.got2 p).toNat (s.usable n) then configDone n (deskew n (s.usable n) t) else t))) ∧
    (∀ inv os, osRead osEios set = some (inv, os) → s.rd (Fld.PRT_LANE_STAT_STATE n p) = laActive → bitAt (s.active n) p = true →
      s.link n = lsUp → ∃ t, exec (.eios n ⟨p, set⟩) s = .next t ∧
      (t.port n).train.gotEios = addPos (s.port n).train.gotEios p ∧ t.rd (Fld.PRT_LANE_STAT_CDR_LOCK n p) = 0 ∧
      RegsKept s t [Off.PRT_LANE_STAT n p] ∧ PortsKept s t n ∧ t = { s with regs := t.regs, ports := t.ports }) ∧
    (∀ inv os, osRead osExit set = some (inv, os) → bitAt (s.active n) p = true →
      -- an EXIT in the cycle of the entry abandons the entry
      (s.justEntered n = true → exec (.exitSets n ⟨p, set⟩) s = .next (abandonEntry n s)) ∧
      (s.justEntered n = false → s.link n = lsCoast → s.rd (Fld.PRT_LANE_STAT_STATE n p) = laActive →
        exec (.exitSets n ⟨p, set⟩) s = .next (coastExitDone n ((hearSet n p inv s).modTrain n (fun x =>
          { x with gotExit := addPos x.gotExit p })))) ∧
      (s.justEntered n = false → s.link n = lsCoast → s.rd (Fld.PRT_LANE_STAT_STATE n p) = laCoast →
        exec (.exitSets n ⟨p, set⟩) s = .next (coastExitDone n ((coastLock n p (hearSet n p inv s)).modTrain n (fun x =>
          { x with gotExit := addPos x.gotExit p }))))) ∧
    (∀ inv os, osRead osSds set = some (inv, os) → s.rd (Fld.PRT_LANE_STAT_STATE n p) = laTraining → s.link n = lsStart →
      bitAt (s.active n) p = true →
      let t := (hearSet n p inv s).modTrain n (fun x => { x with gotSds := addPos x.gotSds p })
      exec (.sds n ⟨p, set⟩) s = .next
        (if covers (addPos (s.port n).train.gotSds p).toNat (s.active n) then sendDone n (pump n (linkUp n t)) else t)) ∧
    -- the PLL holds the new rate: its lock shows, and each active lane's measurements take 5 µs each
    (s.link n = lsRate → (s.port n).train.relock = true → ∃ t, exec (.pllRelockDone n) s = .next t ∧
      (t.port n).train.relock = false ∧ t.rd (Fld.PRT_PHY_STAT_PLL_LOCK n) = 1 ∧
      (bitAt (s.active n) p = true → (s.lane n p).presetsDone = false → (t.lane n p).presetEnd = some (s.now + 5 * tUs)) ∧
      RegsKept s t [Off.PRT_PHY_STAT n] ∧ PortsKept s t n ∧
      t = { s with regs := t.regs, ports := t.ports, lanes := t.lanes }) ∧
    -- the best preset is the first with the fewest disagreements; after the eighth the lane asks for it
    (∀ d w, s.link n = lsRate → (s.port n).train.relock = false → bitAt (s.active n) p = true → (s.lane n p).presetsDone = false →
      (s.lane n p).presetEnd = some w →
      let best := match (s.lane n p).presetBest with
        | some (b, c) => if d < c then some ((s.lane n p).presetNow, d) else some (b, c)
        | none => some ((s.lane n p).presetNow, d)
      ((s.lane n p).presetNow < 7 → exec (.presetMeasureEnd n p d) s = .next ((s.atLeast w).modLane n p (fun l => { l with
        presetBest := best
        presetNow := l.presetNow + 1
        presetsDone := false
        presetEnd := some (max s.now w + 5 * tUs) }))) ∧
      ((s.lane n p).presetNow = 7 → exec (.presetMeasureEnd n p d) s = .next (rateCheck n ((s.atLeast w).modLane n p (fun l =>
        { l with presetBest := best, presetNow := 8, presetsDone := true, presetEnd := none })))))

/-- O26. The timers of training and recovery (R101, R102, R123, R124): T_LOCK_TIMEOUT, T_CONFIG_TIMEOUT, T_RATE_TIMEOUT,
T_VERIFY_TIMEOUT, T_START_TIMEOUT, TRAINING_RETRY_TIMER, RECOVERY_FALLBACK_TIMER, RECOVERY_TIMEOUT and FULL_TRAINING_TIMER. The
expiry of an armed timer brings the time to it at the earliest. A failed training attempt is followed by another 1 ms later, and a
started one stands in T_LOCK at 8 Gb/s with its time limit of 100 µs (R101). A link that goes down forgets what it held (R126,
R129): no flit held, sequence numbers and credits 0, no link state, its cause shown; it is down, or trains again. -/
def Obligations.TrainingStartsTimesOutAndFails : Prop :=
  (∀ (n : PortId) (t : Nat) (s : State),
     ((s.port n).train.deadline = some t →
       (s.link n = lsLock → exec (.tLockTimeout n) s = .next
         (if (pickActive (laneMask (fun p => s.lockUsable n p))).isSome then enterConfig n (s.atLeast t)
           else trainingFailed n 8 (s.atLeast t))) ∧
       (s.link n = lsConfig → exec (.tConfigTimeout n) s = .next (trainingFailed n 8 (s.atLeast t))) ∧
       (s.link n = lsRate → exec (.tRateTimeout n) s = .next (fallBack n 8 (s.atLeast t))) ∧
       (s.link n = lsVerify → exec (.tVerifyTimeout n) s = .next (fallBack n 8 (s.atLeast t))) ∧
       (s.link n = lsStart → exec (.tStartTimeout n) s = .next (trainingFailed n 8 (s.atLeast t)))) ∧
     ((s.port n).train.retryAt = some t → (s.port n).train.hasLink = false → exec (.trainingRetryTimer n) s =
       .next (startTraining n ((s.atLeast t).modTrain n (fun x => { x with retryAt := none })))) ∧
     ((s.port n).train.fallbackAt = some t → s.link n = lsRecovery →
       exec (.recoveryFallbackTimer n) s = .next (enterLock n true (s.atLeast t))) ∧
     ((s.port n).train.recovEnd = some t → exec (.recoveryTimeout n) s = .next (linkDown n 4 (s.atLeast t))) ∧
     ((s.port n).train.fullAt = some t → exec (.fullTrainingTimer n) s = .next (enterLock n true (s.atLeast t)))) ∧
  ((∀ (n cause : Nat) (s : State), n < 16 → cause < 16 → (s.port n).train.hasLink = false →
     let t := trainingFailed n cause s
     t.link n = lsIdle ∧ (t.port n).train.retryAt = some (s.now + tMs) ∧ (t.port n).train.deadline = none ∧
     t.rd (Fld.PRT_LINK_STAT_CAUSE n) = cause ∧ RegsKept s t [Off.PRT_LINK_STAT n] ∧ PortsKept s t n ∧
     t = { s with regs := t.regs, ports := t.ports }) ∧
   (∀ (n : Nat) (s : State), n < 16 →
     (s.mayTrain n = false → startTraining n s = s) ∧
     (s.mayTrain n = true →
       let t := startTraining n s
       t.link n = lsLock ∧ t.rd (Fld.PRT_LINK_STAT_UP n) = 0 ∧ t.rd (Fld.PRT_PHY_STAT_RATE n) = 0 ∧
       (t.port n).train.deadline = some (s.now + 100 * tUs) ∧
       (t.port n).train.attempt = (s.port n).train.attempt + 1 ∧ (t.port n).train.recov = false ∧
       (∀ p, p < 8 → t.rd (Fld.PRT_LANE_STAT_STATE n p) = laTraining ∧ t.rd (Fld.PRT_LANE_TXEQ_PRESET n p) = 0) ∧
       PortsKept s t n ∧ t = { s with regs := t.regs, ports := t.ports, lanes := t.lanes }))) ∧
  (∀ (n cause : Nat) (s : State), n < 16 → cause < 16 →
     let t := linkDown n cause s
     (t.port n).retry.held = [] ∧ (t.port n).train.hasLink = false ∧ (t.port n).credit = Credit.reset ∧ (t.port n).shake = .idle ∧
     (t.port n).turnDue = none ∧ (t.port n).owedQ = [] ∧ (t.port n).fwd = [] ∧
     t.txNext n = 0 ∧ t.txOldest n = 0 ∧ t.expect n = 0 ∧
     (∀ tc < 4, t.reg (Off.PRT_CREDIT_TX_TC n tc) = 0 ∧ t.reg (Off.PRT_CREDIT_RX_TC n tc) = 0) ∧
     t.rd (Fld.PRT_LINK_STAT_CAUSE n) = cause ∧ t.rd (Fld.PRT_LINK_STAT_UP n) = 0 ∧ (t.link n = lsDown ∨ t.link n = lsLock) ∧
     ((s.port n).train.hasLink = true → Raised t (evPort n 7)))

/-- O27. FLIT_RECEIVE (R110, R111, R113, R118): a flit whose check code is wrong is counted and asked for again; one that breaks
the protocol is counted as such and asked for again; the flit that is expected, one that is ahead of it and one that has come
before are told apart by their numbers. What is received are the bits of the active lanes, each turned back where its lane was
found inverted; a FIFO slip since the last flit leaves no flit to read (R49, R54). -/
def Obligations.FlitsAreCheckedAndNumbered : Prop :=
  ∀ (n : PortId) (lanes : List (List Bool)) (bytes : List Byte) (s : State), s.up n = true →
    exec (.flitReceive n lanes) s = .next (pumpAll (sendDone n (recvFlit n (s.gathered n lanes)
      (forUpto 8 (fun p a => a.modLane n p (fun l => { l with slipped := false })) s)))) ∧
    ((∀ p < 8, bitAt (s.active n) p = true → (s.lane n p).slipped = false ∧ s.on (Fld.PRT_LANE_STAT_RX_INV n p) = false) →
      lanes.length = (positions (s.active n)).length → s.gathered n lanes = gatherFlit lanes) ∧
    (∀ p < 8, bitAt (s.active n) p = true → (s.lane n p).slipped = true → s.gathered n lanes = []) ∧
    (flitCrcOk bytes = false → recvFlit n bytes s = askReplay n (s.sat (Fld.PRT_LINK_CRC_ERR_COUNT n))) ∧
    (∀ f, bytes = flitBytes f → flitOf bytes = f → flitCrcOk bytes = true →
      (flitProtoBad f = true → recvFlit n bytes s = askReplay n (protoError n s)) ∧
      (flitProtoBad f = false → f.type.toNat = ftReplay → recvFlit n bytes s = startReplay n f.seq.toNat s) ∧
      (flitProtoBad f = false → f.type.toNat = ftData ∨ f.type.toNat = ftControl → f.ackP = false →
        (f.seq.toNat = s.expect n → s.expect n < 1024 → recvFlit n bytes s = acceptFlit n f s) ∧
        (∀ d, 0 < d → d < 512 → f.seq.toNat = (s.expect n + d) % 1024 → recvFlit n bytes s = askReplay n s) ∧
        (∀ d, 0 < d → d ≤ 512 → (f.seq.toNat + d) % 1024 = s.expect n → recvFlit n bytes s = s))) ∧
    -- an accepted flit advances EXPECT by one and owes an ACK within 100 ns
    (∀ f : Flit, f.ackP = false → f.slots = [] → f.data = none → (s.port n).retry.unacked = 0 →
      ∃ t, acceptFlit n f s = t ∧ t.expect n = (s.expect n + 1) % 1024 ∧ (t.port n).retry.unacked = 1 ∧
        ((s.port n).retry.ackAt = none → (t.port n).retry.ackAt = some (s.now + tNs 100)) ∧ (t.port n).idleSince = s.now ∧
        (t.port n).retry.sameAsk = none ∧ RegsKept s t [Off.PRT_LINK_SEQ n] ∧ PortsKept s t n ∧
        t = { s with regs := t.regs, ports := t.ports })

/-- O28. ACK and ACK_TIMER (R114 to R116): an ACK frees the flits up to the one it names and restarts the replay timer, or stops
it when none is left; one that names a flit not sent is a protocol error; an ACK that is due names the last flit accepted. REPLAY,
REPLAY_TIMER and REPLAY_REPEAT_TIMER (R118 to R122): a REPLAY frees the flits before the one it names and sends the rest again;
one that names a flit not sent takes the link down; the timer sends every held flit again and the fourth expiry in a row starts
recovery; a REPLAY unanswered for 1 µs is sent again and the fourth in a row for one flit starts recovery. -/
def Obligations.HeldFlitsAreFreedAndSentAgain : Prop :=
  (∀ (n : PortId) (seq : BitVec 10) (s : State), s.up n = true → (s.port n).msgs = [] → NothingWaits s n →
     let w := (seq.toNat + 1024 - s.txOldest n + 1) % 1024
     let out := (s.txNext n + 1024 - s.txOldest n) % 1024
     (0 < w → w ≤ out → ∃ t, exec (.ack n seq) s = .next t ∧
       (t.port n).retry.held = (s.port n).retry.held.drop w ∧ t.txOldest n = (s.txOldest n + w) % 1024 ∧
       (t.port n).retry.expiries = 0 ∧
       (t.port n).retry.replayAt = (if ((s.port n).retry.held.drop w).isEmpty then none else some (s.now + tUs)) ∧
       RegsKept s t [Off.PRT_LINK_SEQ n] ∧ PortsKept s t n ∧ t = { s with regs := t.regs, ports := t.ports }) ∧
     (w = 0 → exec (.ack n seq) s = .next s) ∧
     (out < w → ∃ t, exec (.ack n seq) s = .next t ∧
       t.rd (Fld.PRT_LINK_ERR_PROTO_ERR n) = min (2 ^ (Fld.PRT_LINK_ERR_PROTO_ERR n).w - 1)
         (s.rd (Fld.PRT_LINK_ERR_PROTO_ERR n) + 1) ∧
       Raised t (evPort n 12) ∧ RegsKept s t [Off.PRT_LINK_ERR n] ∧ t = { s with regs := t.regs, crossing := t.crossing }) ∧
     (∀ d, (s.port n).retry.ackAt = some d → ∃ t, exec (.ackTimer n) s = .next t ∧
       (t.port n).txLog = (s.port n).txLog ++ [⟨0, BitVec.ofNat 10 (s.txNext n), true, [encAck ((s.expect n + 1023) % 1024)], none⟩] ∧
       (t.port n).retry.unacked = 0 ∧ (t.port n).retry.ackAt = none ∧ PortsKept s t n ∧
       t = { s with now := max s.now d, ports := t.ports })) ∧
  (∀ (n : PortId) (s : State), s.up n = true →
     (∀ seq : BitVec 10, NothingWaits s n →
       let d := (seq.toNat + 1024 - s.txOldest n) % 1024
       let out := (s.txNext n + 1024 - s.txOldest n) % 1024
       (d < out →
         ((s.port n).retry.rxTimes.filter (fun t => decide (s.now < t + tMs))).length <
           s.rd (Fld.PRT_LINK_CTRL_REPLAY_LIMIT n) →
         ∃ t, exec (.replay n seq) s = .next t ∧
           (t.port n).txLog = (s.port n).txLog ++ (s.port n).retry.held.drop d ∧
           (t.port n).retry.held = (s.port n).retry.held.drop d ∧ t.txOldest n = (s.txOldest n + d) % 1024 ∧
           t.rd (Fld.PRT_LINK_ERR_REPLAY_RX n) = min (2 ^ (Fld.PRT_LINK_ERR_REPLAY_RX n).w - 1)
             (s.rd (Fld.PRT_LINK_ERR_REPLAY_RX n) + 1) ∧
           RegsKept s t [Off.PRT_LINK_SEQ n, Off.PRT_LINK_ERR n] ∧ PortsKept s t n ∧
           t = { s with regs := t.regs, ports := t.ports }) ∧
       (out < d → exec (.replay n seq) s = .next (linkDown n 6 ((touch n (s.sat (Fld.PRT_LINK_ERR_REPLAY_RX n))).modRetry n (fun r => { r with
         rxTimes := r.rxTimes.filter (fun t => decide (s.now < t + tMs)) ++ [s.now] }))))) ∧
     (∀ d, (s.port n).retry.replayAt = some d →
       ((s.port n).retry.expiries < 3 → ∃ t, exec (.replayTimer n) s = .next t ∧
         (t.port n).txLog = (s.port n).txLog ++ (s.port n).retry.held ∧ (t.port n).retry.held = (s.port n).retry.held ∧
         (t.port n).retry.expiries = (s.port n).retry.expiries + 1 ∧
         (t.port n).retry.replayAt = some (max s.now d + tUs) ∧
         t.rd (Fld.PRT_LINK_ERR_REPLAY_TO n) = min (2 ^ (Fld.PRT_LINK_ERR_REPLAY_TO n).w - 1)
           (s.rd (Fld.PRT_LINK_ERR_REPLAY_TO n) + 1) ∧
         RegsKept s t [Off.PRT_LINK_ERR n] ∧ PortsKept s t n ∧ t = { s with now := max s.now d, regs := t.regs, ports := t.ports }) ∧
       (3 ≤ (s.port n).retry.expiries → ∃ t, exec (.replayTimer n) s = .next t ∧ t.link n = lsRecovery ∧ Raised t (evPort n 8) ∧
         (t.port n).retry.expiries = 0 ∧ (t.port n).retry.held = (s.port n).retry.held ∧
         (t.port n).train.recovEnd = some (max s.now d + 2 * tMs))) ∧
     (∀ d k, (s.port n).retry.askAgainAt = some d → (s.port n).retry.sameAsk = some (BitVec.ofNat 10 (s.expect n), k) →
       (k < 3 → ∃ t, exec (.replayRepeatTimer n) s = .next t ∧
         (t.port n).txLog = (s.port n).txLog ++ [⟨3, BitVec.ofNat 10 (s.expect n), false, [], none⟩] ∧
         (t.port n).retry.askAgainAt = some (max s.now d + tUs) ∧
         (t.port n).retry.sameAsk = some (BitVec.ofNat 10 (s.expect n), k + 1) ∧
         t.rd (Fld.PRT_LINK_ERR_REPLAY_TX n) = min (2 ^ (Fld.PRT_LINK_ERR_REPLAY_TX n).w - 1)
           (s.rd (Fld.PRT_LINK_ERR_REPLAY_TX n) + 1) ∧
         RegsKept s t [Off.PRT_LINK_ERR n] ∧ PortsKept s t n ∧ t = { s with now := max s.now d, regs := t.regs, ports := t.ports }) ∧
       (3 ≤ k → ∃ t, exec (.replayRepeatTimer n) s = .next t ∧ t.link n = lsRecovery ∧ (t.port n).retry.sameAsk = none ∧
         Raised t (evPort n 8))))

/-- O29. CREDIT, CREDIT_RETURN_TIMER and CREDIT_STALL_TIMER (R128, R129, R131, R132): the first INIT of a class sets its three
pools; a return adds to a pool up to its initial grant; an unlimited pool is not counted; credits pending are sent in one CREDIT
slot; a pool that has waited 1 ms raises its event once. -/
def Obligations.CreditsAreGrantedAndReturned : Prop :=
  ∀ (n : PortId) (s : State),
    (∀ c : CreditSlot, s.up n = true → exec (.credit n c) s = .next (pumpAll (sendDone n (takeCredit n c (touch n s))))) ∧
    (∀ c : CreditSlot, c.init = true → (s.port n).credit.inited.getLsbD c.tc.toNat = false →
      let t := takeCredit n c s
      t.rd (fldTx n c.tc.toNat 0) = c.req.toNat ∧ t.rd (fldTx n c.tc.toNat 1) = c.dat.toNat ∧
      t.rd (fldTx n c.tc.toNat 2) = c.rsp.toNat ∧ (t.port n).credit.inited.getLsbD c.tc.toNat = true ∧
      RegsKept s t [Off.PRT_CREDIT_TX_TC n c.tc.toNat] ∧ PortsKept s t n ∧ t = { s with regs := t.regs, ports := t.ports }) ∧
    (∀ c : CreditSlot, c.init = true → (s.port n).credit.inited.getLsbD c.tc.toNat = true → takeCredit n c s = protoError n s) ∧
    (∀ c : CreditSlot, c.init = false → (∀ k < 3, tabGet 0 (s.port n).credit.grant (4 * k + c.tc.toNat) < 1024) →
      let t := takeCredit n c s
      (∀ k < 3, let add := [c.req.toNat, c.dat.toNat, c.rsp.toNat].getD k 0
        t.rd (fldTx n c.tc.toNat k) =
          (if add = 0 ∨ s.rd (fldTx n c.tc.toNat k) = 0x3FF then s.rd (fldTx n c.tc.toNat k)
          else min (tabGet 0 (s.port n).credit.grant (4 * k + c.tc.toNat)) (s.rd (fldTx n c.tc.toNat k) + add))) ∧
      RegsKept s t [Off.PRT_CREDIT_TX_TC n c.tc.toNat, Off.PRT_LINK_ERR n] ∧ PortsKept s t n ∧
      t = { s with regs := t.regs, ports := t.ports, crossing := t.crossing }) ∧
    (∀ (tc : BitVec 2) (d : Nat), tabGet none (s.port n).credit.retAt tc.toNat = some d →
      let q := tabGet 0 (s.port n).credit.ret tc.toNat
      let e := tabGet 0 (s.port n).credit.ret (4 + tc.toNat)
      let r := tabGet 0 (s.port n).credit.ret (8 + tc.toNat)
      s.canSend n = true → 0 < q + e + r → ∃ t, exec (.creditReturnTimer n tc) s = .next t ∧
        (t.port n).txLog = (s.port n).txLog ++ [⟨2, BitVec.ofNat 10 (s.txNext n), false, [encCredit ⟨BitVec.ofNat 10 r, BitVec.ofNat 10 e, BitVec.ofNat 10 q, false, tc⟩], none⟩] ∧
        t.rd (fldRx n tc.toNat 0) = (s.rd (fldRx n tc.toNat 0) + q) % 1024 ∧
        t.rd (fldRx n tc.toNat 1) = (s.rd (fldRx n tc.toNat 1) + e) % 1024 ∧
        t.rd (fldRx n tc.toNat 2) = (s.rd (fldRx n tc.toNat 2) + r) % 1024 ∧
        tabGet 0 (t.port n).credit.ret tc.toNat = 0 ∧ tabGet none (t.port n).credit.retAt tc.toNat = none ∧
        RegsKept s t [Off.PRT_CREDIT_RX_TC n tc.toNat, Off.PRT_LINK_SEQ n] ∧ PortsKept s t n ∧
        t = { s with now := max s.now d, regs := t.regs, ports := t.ports }) ∧
    (∀ (pool : Fin 3) (tc : BitVec 2) (d : Nat), tabGet none (s.port n).credit.stall (4 * pool.val + tc.toNat) = some d →
      (s.port n).credit.stalled.getLsbD (4 * pool.val + tc.toNat) = false →
      ∃ t, exec (.creditStallTimer n pool tc) s = .next t ∧
        (t.port n).credit.stalled.getLsbD (4 * pool.val + tc.toNat) = true ∧ Raised t (evPort n 11) ∧ t.regs = s.regs ∧
        PortsKept s t n ∧ t = { s with now := max s.now (d + tMs), ports := t.ports, crossing := t.crossing })

/-- O30. POWER, COAST_IDLE_TIMER, HOLD_HANDSHAKE_TIMEOUT and SQUELCH_ACTIVITY (R67, R69, R135, R691, R694): a request is answered
as soon as there is room for a flit: accepted when no request is under way, its target is coast or parked, and the port is not the
cadence's, else declined; an answer ends the request; an exit that begins in the cycle of the entry undoes the entry. -/
def Obligations.PowerHandshakeRuns : Prop :=
  ∀ (n : PortId) (s : State),
    (∀ target : BitVec 2, s.up n = true →
      (s.hasRoom n = false → exec (.power n 0 target) s =
        .next (s.modPort n (fun p => { p with idleSince := s.now, powerAsk := some target.toNat }))) ∧
      (s.canSend n = true →
        let u := s.modPort n (fun p => { p with idleSince := s.now, powerAsk := none })
        (s.isCadPort n = true ∨ 2 ≤ target.toNat →
          exec (.power n 0 target) s = .next (sendControl n [encPower 2 target.toNat] u)) ∧
        (s.isCadPort n = false → target.toNat < 2 →
          exec (.power n 0 target) s = .next (tryEnter n ((sendControl n [encPower 1 target.toNat] (sendAck n u)).modPort n (fun p =>
            { p with shake := .agreed (target.toNat == 1), shakeDeadline := none })))))) ∧
    (∀ (target : BitVec 2) (parked : Bool), s.up n = true → (s.port n).shake = .asked parked →
      (exec (.power n 1 target) s = .next (tryEnter n (
        let t := (touch n s).modPort n (fun p => { p with shake := .agreed parked, shakeDeadline := none })
        if parked then holdAnswered n t else t))) ∧
      (exec (.power n 2 target) s = .next (pump n (
        let t := (touch n s).modPort n (fun p => { p with shake := .idle, shakeDeadline := none })
        if parked then holdAbandon n t else t)))) ∧
    -- both ends agreed and every flit acknowledged: the lanes coast, or park
    (∀ parked, (s.port n).shake = .agreed parked → (s.port n).retry.held = [] →
      ((s.port n).exitSeen = none →
        (tryEnter n s).link n = (if parked then lsParked else lsCoast) ∧
        (parked = true → (tryEnter n s).rd (Fld.PRT_PHY_STAT_PLL_LOCK n) = 0)) ∧
      ((s.port n).exitSeen = some s.now →
        tryEnter n s = s.modPort n (fun p => { p with shake := .idle, shakeDeadline := none }))) ∧
    (s.rd Fld.GLB_PWR_STAT_STATE = psRest → s.canSend n = true → s.rd (Fld.PRT_LINK_CTRL_COAST_IDLE n) ≠ 15 →
      s.isCadPort n = false → ∃ t, exec (.coastIdleTimer n) s = .next t ∧
        t.now = max s.now ((s.port n).idleSince + tNs (64 * 2 ^ s.rd (Fld.PRT_LINK_CTRL_COAST_IDLE n))) ∧
        (t.port n).shake = .asked false ∧ (t.port n).txLog = (s.port n).txLog ++ [⟨2, BitVec.ofNat 10 (s.txNext n), false, [encPower 0 0], none⟩] ∧
        RegsKept s t [Off.PRT_LINK_SEQ n] ∧ PortsKept s t n ∧ t = { s with now := t.now, regs := t.regs, ports := t.ports }) ∧
    (∀ sleep mbx asked answered d, s.power.trans = .enter sleep mbx asked answered → (s.port n).shakeDeadline = some d →
      asked.getLsbD n = true → answered.getLsbD n = false →
      exec (.holdHandshakeTimeout n) s = .next (quietStep (holdAbandon n (s.atLeast d)))) ∧
    (s.power? = psHold → s.role n = 0 → s.portEnabled n = true → exec (.squelchActivity n) s = .next (wakeBy 1 n false s)) ∧
    (s.power? < psHold → s.link n = lsParked → s.justEntered n = false → (s.port n).train.hasLink = true →
      (∀ p < 8, (s.lane n p).exitDeadline = none) →
      exec (.squelchActivity n) s = .next (startParkedExit n s)) ∧
    (s.power? < psHold → s.link n = lsParked → s.justEntered n = true →
      exec (.squelchActivity n) s = .next (abandonEntry n s) ∧ (abandonEntry n s).link n = lsUp)

/-- O31. TURN and RETRAIN (R121, R125, R133, R134, R235): a TURN slot on the designated port is a marker LATE fabric cycles
earlier; a RETRAIN slot starts recovery with cause 4, and with WIDEN failed positions are tried again. -/
def Obligations.TurnAndRetrainSlotsAct : Prop :=
  ∀ (n : PortId) (s : State), s.up n = true →
    (∀ (lo : BitVec 16) (late : BitVec 12) (age : Nat),
      (s.isCadPort n = true → late ≠ 0xFFF → (s.port n).retry.noMarkerUntil ≤ s.now →
        exec (.turn n lo late age) s = .next (marker (s.markTime age - late.toNat * 256) (some lo.toNat) (touch n s))) ∧
      (s.isCadPort n = false ∨ late = 0xFFF ∨ s.now < (s.port n).retry.noMarkerUntil →
        exec (.turn n lo late age) s = .next (touch n s))) ∧
    (∀ widen : Bool, s.rd (Fld.PRT_CAL_STAT_SCANNING n) = 0 → ∃ t, exec (.retrain n widen) s = .next t ∧ t.link n = lsRecovery ∧
      t.rd (Fld.PRT_LINK_STAT_UP n) = 0 ∧
      t.rd (Fld.PRT_LINK_STAT_RECOV_CNT n) = min (2 ^ (Fld.PRT_LINK_STAT_RECOV_CNT n).w - 1)
        (s.rd (Fld.PRT_LINK_STAT_RECOV_CNT n) + 1) ∧
      Raised t (evPort n 8) ∧ (t.port n).train.recov = true ∧ (t.port n).train.full = widen ∧
      (t.port n).train.fallbackAt = some (s.now + 20 * tUs) ∧ (t.port n).train.recovEnd = some (s.now + 2 * tMs) ∧
      (t.port n).train.fullAt = (if widen then some (s.now + 4 * tUs) else none) ∧
      (t.port n).retry = (s.port n).retry ∧ (t.port n).credit = (s.port n).credit ∧
      (∀ p < 8, bitAt (s.active n) p = true → t.rd (Fld.PRT_LANE_STAT_STATE n p) = laTraining) ∧
      PortsKept s t n ∧ t = { s with regs := t.regs, ports := t.ports, lanes := t.lanes, crossing := t.crossing })

/-- O32. The bytes of a flit spell it (R107 to R110): header, slots and data slot come back as they were sent, and the check code
is right. What is striped over 1, 2, 4 or 8 lanes is gathered as it was, each bit of a lane's stream being the bit of the flit
that R49 says; an ordered set, plain or inverted, is read as it was composed (R10, R49, R98, R99, R105). -/
def Obligations.FlitsRoundTrip : Prop :=
  (∀ f : Flit,
     ((f.type.toNat = ftControl ∧ f.slots.length = 7 ∧ f.data = none) ∨
      (f.type.toNat = ftData ∧ f.slots.length = 1 ∧ f.data.isSome = true) ∨
      (f.type.toNat = ftNull ∧ f.slots.length = 1 ∧ f.data = none) ∨
      (f.type.toNat = ftReplay ∧ f.slots = [] ∧ f.data = none)) →
     (flitBytes f).length = 80 ∧ flitCrcOk (flitBytes f) = true ∧ flitOf (flitBytes f) = f) ∧
  ((∀ (w : Nat) (bs : List Byte), (w = 1 ∨ w = 2 ∨ w = 4 ∨ w = 8) → bs.length = 80 →
     let lanes := (List.range w).map (fun i => laneBits (laneShare w i bs))
     gatherFlit lanes = bs ∧
     ∀ i b, i < w → b < 640 / w → (lanes.getD i []).getD b false = (laneBits bs).getD (flitBit w i b) false) ∧
   (∀ (type pos : Nat) (os : OrderedSet), type < 256 →
     (osBytes type pos os).length = 16 ∧ osRead type (osBytes type pos os) = some (false, os) ∧
     osRead type ((osBytes type pos os).map (fun b => ~~~b)) = some (true, os)))

/-- O33. Every slot the stack composes spells its fields (R109, R114, R125, R128, R133, R135, R150, R163, R165, R168, R172). -/
def Obligations.SlotsRoundTrip : Prop :=
  (∀ (op : BitVec 6) (r : MemReq), let x := encMem op.toNat r
    slotOp x = op.toNat ∧ slotTag x = r.tag ∧ slotLine x = r.line.toNat ∧ slotTc x = r.tc ∧ slotHint x = r.hint ∧
    slotPanic x = r.panic ∧ slotHop x = r.hop ∧ slotSrc x = r.src ∧ slotLcount x = r.lcount.toNat) ∧
  (∀ r : FenceReq, let x := encFence r
    slotOp x = 0x14 ∧ slotTag x = r.tag ∧ slotClasses x = r.classes ∧ slotHold x = r.hold ∧ slotTc x = r.tc) ∧
  (∀ (op : BitVec 6) (r : CfgReq), let x := encCfg op.toNat r
    slotOp x = op.toNat ∧ slotTag x = r.tag ∧ slotOffset x = 4 * r.offset.toNat ∧ slotBe x = r.be ∧ slotWindow x = r.window.toNat ∧
    slotLocal x = r.isLocal ∧ slotTc x = r.tc ∧ slotHop x = r.hop ∧ slotSrc x = r.src) ∧
  (∀ r : MsgReq, let x := encMsg r
    slotOp x = 0x1C ∧ slotMtype x = r.mtype.toNat ∧ slotMsgData x = r.data ∧ slotValue x = r.value ∧ slotTc x = r.tc) ∧
  (∀ (op : BitVec 6) (r : RspSlot), slotOp (encRsp op r) = op.toNat ∧ rspOf (encRsp op r) = r) ∧
  (∀ c : CreditSlot, slotOp (encCredit c) = 0x39 ∧ creditOf (encCredit c) = c) ∧
  (∀ seq : BitVec 10, slotOp (encAck seq.toNat) = 0x38 ∧ slotAckSeq (encAck seq.toNat) = seq.toNat) ∧
  (∀ (lo : BitVec 16) (late : BitVec 12), let x := encTurn lo.toNat late.toNat
    slotOp x = 0x3A ∧ x.extractLsb' 6 16 = lo ∧ x.extractLsb' 22 12 = late) ∧
  (∀ kind target : BitVec 2, let x := encPower kind.toNat target.toNat
    slotOp x = 0x3B ∧ x.extractLsb' 6 2 = kind ∧ x.extractLsb' 8 2 = target) ∧
  (∀ widen : Bool, slotOp (encRetrain widen) = 0x3C ∧ (encRetrain widen).getLsbD 6 = widen)

/-- O34. RD, WR, WRP, WRM, the ten atomics, FENCE, CFG_RD, CFG_WR, DOORBELL, MSG, RESERVED_REQUEST, RD_DATA, CMP, AT_DATA,
CFG_DATA and RESERVED_RESPONSE (R127, R131, R146): a slot whose credits are held is taken with its data slots, one credit each,
and then whatever can go on goes on; one that uses a credit its sender does not hold takes the link down. -/
def Obligations.TransactionSlotsAreTaken : Prop :=
  ∀ (c : Instr) (n : PortId) (slot : BitVec 80) (data : List Line) (s : State), txnRow c = some (n, slot, data) → s.up n = true →
    ((Heard n s).creditsHeld n (s.flitCredits n [slot] data.head?.isSome) = false →
      exec c s = .next (pumpAll (linkDown n 5 (Heard n s)))) ∧
    ((Heard n s).creditsHeld n (s.flitCredits n [slot] data.head?.isSome) = true → data.tail = [] →
      let t := takeSlot n 0 slot (Charged n [slot] data.head?.isSome (Heard n s))
      exec c s = .next (pumpAll (match data.head? with | some d => takeData n d t | none => t))) ∧
    (∀ d ds, data = d :: ds → (Heard n s).creditsHeld n (s.flitCredits n [slot] true) = true →
      let t := takeData n d (takeSlot n 0 slot (Charged n [slot] true (Heard n s)))
      exec c s = .next (pumpAll (ds.foldl (fun a x => if a.up n then takeSlots n 0 [] (some x) a else a) t))) ∧
    (slotOp slot < 0x20 → takeSlot n 0 slot s = takeRequest n slot s) ∧
    (0x20 ≤ slotOp slot → takeSlot n 0 slot s = takeResponse n slot s)

/-- O35. A request is entered, forwarded or refused by its checks (R146, R151, R176, R178, R191, R219): what it owes is expected
in order, and a refused request that owes nothing has its CMP ready at once. Messages and data slots (R146, R148, R170, R178): a
DOORBELL in TC3 without data on a host port is taken and any other message discarded and counted; a data slot goes to the request
at the head of the queue, is thrown away for one that was refused or discarded, and with nothing owed it is an orphan. -/
def Obligations.RequestsAreEnteredOrRefused : Prop :=
  (∀ (n : Nat) (slot : BitVec 80) (s : State), slotOp slot < 0x20 → slotOp slot ≠ 0x1C →
     let x := asTaken s n slot
     let owes := List.replicate (reqOwns x) { who := OwedBy.txn (s.port n).nextSerial, tc := slotTc slot }
     (s.check n x (tagHeld s n x) = .serve → slotOp slot ≠ 0x14 → ∃ t k, takeRequest n slot s = t ∧
       (t.port n).txns = (s.port n).txns ++ [k] ∧ k.serial = (s.port n).nextSerial ∧ k.slot = x ∧ k.owed = reqOwns x ∧
       k.refused = none ∧ k.forwarded = none ∧ k.dispatched = false ∧ k.dead = false ∧ k.holdsTag = true ∧
       (t.port n).owedQ = (s.port n).owedQ ++ owes ∧ PortsKept s t n ∧
       t = { s with ports := t.ports, nextId := s.nextId + 1 }) ∧
     (∀ e setLocal, s.check n x (tagHeld s n x) = .forward e setLocal → slotOp slot ≠ 0x14 → ∃ t k, takeRequest n slot s = t ∧
       (t.port n).txns = (s.port n).txns ++ [k] ∧ k.forwarded = some e ∧ k.refused = none ∧ k.dispatched = false ∧
       k.slot = (if setLocal then slotPut x 51 1 1 else x) ∧
       (t.port n).owedQ = (s.port n).owedQ ++ owes ∧ PortsKept s t n ∧
       t = { s with ports := t.ports, nextId := s.nextId + 1 }) ∧
     (∀ st loop, s.check n x (tagHeld s n x) = .refuse st loop → ∃ k : Txn,
       k.slot = x ∧ k.refused = some st ∧ k.serial = (s.port n).nextSerial ∧ k.holdsTag = (st != stTagInUse) ∧
       ((takeRequest n slot s).port n).txns = (s.port n).txns ++ [k] ∧
       (reqOwns x = 0 → ((takeRequest n slot s).port n).ready = (s.port n).ready ++
         [{ op := 0x21, slot := cmpOf k st (s.role n == 1), data := [], serial := k.serial, final := true }]) ∧
       (reqOwns x ≠ 0 → ((takeRequest n slot s).port n).ready = (s.port n).ready ∧
         ((takeRequest n slot s).port n).owedQ = (s.port n).owedQ ++ owes))) ∧
  (∀ (n : Nat) (s : State),
     (∀ r : MsgReq, let slot := encMsg r
       (r.mtype = 0 ∧ r.tc = 3 ∧ r.data = false ∧ s.role n = 0 → ∃ k, ((takeRequest n slot s).port n).txns = (s.port n).txns ++ [k] ∧
         slotValue k.slot = r.value ∧ slotOp k.slot = 0x1C ∧ k.holdsTag = false ∧ (takeRequest n slot s).regs = s.regs) ∧
       (¬ (r.mtype = 0 ∧ r.tc = 3 ∧ r.data = false ∧ s.role n = 0) →
         (takeRequest n slot s).rd (Fld.PRT_TXN_ERR_MSG_BAD n) = min (2 ^ (Fld.PRT_TXN_ERR_MSG_BAD n).w - 1)
           (s.rd (Fld.PRT_TXN_ERR_MSG_BAD n) + 1) ∧
         Raised (takeRequest n slot s) (evPort n 13) ∧ ((takeRequest n slot s).port n).txns = (s.port n).txns ∧
         ((takeRequest n slot s).port n).owedQ = (s.port n).owedQ ++ (if r.data then [⟨.none_, r.tc⟩] else []))) ∧
     (∀ d, (s.port n).owedQ = [] → ∃ t, takeData n d s = t ∧
       t.rd (Fld.PRT_TXN_ERR_ORPHAN n) = min (2 ^ (Fld.PRT_TXN_ERR_ORPHAN n).w - 1) (s.rd (Fld.PRT_TXN_ERR_ORPHAN n) + 1) ∧
       Raised t (evPort n 13) ∧ RegsKept s t [Off.PRT_TXN_ERR n] ∧ t = { s with regs := t.regs, crossing := t.crossing }) ∧
     (∀ d serial tc rest k, (s.port n).owedQ = ⟨.txn serial, tc⟩ :: rest → s.txn? n serial = some k → k.refused = none →
       ∃ t, takeData n d s = t ∧ (t.port n).owedQ = rest ∧
         t.txn? n serial = some { k with owed := k.owed - 1, data := k.data ++ [d] } ∧
         (∀ x, x ≠ serial → t.txn? n x = s.txn? n x) ∧ PortsKept s t n ∧ t = { s with ports := t.ports }) ∧
     (∀ d tc rest, (s.port n).owedQ = ⟨.none_, tc⟩ :: rest →
       takeData n d s = giveBack n tc.toNat 1 1 (s.modPort n (fun p => { p with owedQ := rest }))))

/-- O36. The order of the checks (R191): a malformed request is refused so whatever else is wrong with it; then one whose tag is
in use; then an atomic that is not supported; and a memory request is served just when every line is in the window and in a
pavilion that is not retired, with no critical halt latched. Each refusal is counted where its status says and raises its event
(R191, R196, R213). -/
def Obligations.ChecksComeInOrderAndCount : Prop :=
  (∀ (n : Nat) (slot : BitVec 80) (dup : Bool) (s : State),
     let op := slotOp slot
     let bad := reqDefined op = false ∨ (reqMemory op = true ∧ slotTc slot = 3) ∨ ((op = 0x18 ∨ op = 0x19) ∧ slotTc slot ≠ 3) ∨
       (op = 0x04 ∧ slotLcount slot ≠ 0)
     ((∃ l, s.check n slot dup = .refuse stMalformed l) ↔ bad) ∧
     ((∃ l, s.check n slot dup = .refuse stTagInUse l) ↔ ¬ bad ∧ dup = true) ∧
     ((∃ l, s.check n slot dup = .refuse stUnsupported l) ↔ ¬ bad ∧ dup = false ∧ reqAtomic op = true ∧ s.atomicsOn = false) ∧
     (reqMemory op = true → (s.check n slot dup = .serve ↔
       ¬ bad ∧ dup = false ∧ (reqAtomic op = true → s.atomicsOn = true) ∧ s.halted = false ∧
       ∀ i < reqLines slot, s.lineIsLocal (slotLine slot + i) = true ∧
         ∃ loc, s.locate (lineLocal (slotLine slot + i)) = some loc ∧ s.retiredRunning loc.pav = false)) ∧
     (reqMemory op = false → slotOp slot ≠ 0x14 → reqDefined op = true → op ≠ 0x1C → (s.check n slot dup = .serve ↔
       ¬ bad ∧ dup = false ∧ (slotLocal slot = true ∨ slotWindow slot = s.rd Fld.GLB_POOL_WINDOW_BASE)))) ∧
  (∀ (n op tc : Nat) (s : State),
     let counted := fun (f : Fld) (ev : Nat) (t : State) =>
       t.rd f = min (2 ^ f.w - 1) (s.rd f + 1) ∧ Raised t ev ∧ RegsKept s t [f.off] ∧ t = { s with regs := t.regs, crossing := t.crossing }
     (∀ loop, counted (Fld.PRT_TXN_ERR_MALFORMED n) (evPort n 14) (countRefusal n op tc stMalformed loop s)) ∧
     (∀ loop, counted (Fld.PRT_TXN_ERR_TAG_DUP n) (evPort n 14) (countRefusal n op tc stTagInUse loop s)) ∧
     counted (Fld.PRT_TXN_REFUSED_UNMAPPED n) (evPort n 15) (countRefusal n op tc stUnmapped false s) ∧
     counted (Fld.PRT_POOL_REFUSED_LOOP n) (evPort n 15) (countRefusal n op tc stUnmapped true s) ∧
     (∀ loop, counted (Fld.PRT_TXN_REFUSED_RETIRED n) (evPort n 15) (countRefusal n op tc stRetired loop s)) ∧
     (∀ loop, counted (Fld.PRT_TXN_REFUSED_THERMAL_HALT n) (evPort n 15) (countRefusal n op tc stHalt loop s)) ∧
     (∀ loop, counted (Fld.PRT_TXN_REFUSED_UNSUPPORTED n) (evPort n 15) (countRefusal n op tc stUnsupported loop s)) ∧
     (∀ loop, counted (Fld.PRT_POOL_REFUSED_HOP_LIMIT n) (evPort n 15) (countRefusal n op tc stHopLimit loop s)) ∧
     (∀ loop, counted (Fld.PRT_POOL_REFUSED_PATH_DOWN n) (evPort n 15) (countRefusal n op tc stPathDown loop s)))

/-- O37. RESPONSE_SEND (R146, R176, R179): the response that may go goes with its credit, in one flit with its data slot; the
final one frees its tag. What waits too long (R23, R230, R232): FORWARD_HOLD_TIMEOUT, CONTEXT_TIMEOUT and ARBITER_AGE_LIMIT; and
PROMENADE_GRANT (R22). -/
def Obligations.ResponsesLeaveAndWaitsExpire : Prop :=
  (∀ (n : PortId) (r : ReadyRsp) (s : State), s.canSend n = true → s.pickRsp n = some r →
     (s.hasTx n r.slot.tc.toNat 2 1 = true) ∧
     (r.data = [] → (s.port n).txData = [] →
       exec (.responseSend n) s = .next (pumpAll (sendDone n (sendControl n [encRsp r.op r.slot] (rspSent n r s))))) ∧
     (∀ d ds, r.data = d :: ds → ∃ u, takeTxData n (rspSent n r s) = (some d, u) ∧
       exec (.responseSend n) s = .next (pumpAll (sendDone n (sendFlit n ftData [encRsp r.op r.slot] (some d) u)))) ∧
     ((rspSent n r s).port n).ready = (s.port n).ready.erase r ∧
     (r.final = true → ∀ k ∈ ((rspSent n r s).port n).txns, k.serial ≠ r.serial)) ∧
  (∀ (n : PortId) (s : State),
     -- a request held for want of a credit or a context is given up, and answered PATH_DOWN
     (∀ w t0, (s.port n).fwd.find? (fun w => w.starved.isSome) = some w → w.starved = some t0 →
       s.rd (Fld.PRT_POOL_CTRL_HOLD_TO n) ≠ 15 →
       ∃ v, exec (.forwardHoldTimeout n) s = .next (pumpAll (pathDown n w.serial v)) ∧
         v.now = max s.now (t0 + 2 ^ s.rd (Fld.PRT_POOL_CTRL_HOLD_TO n) * tUs) ∧ (v.port n).fwd = (s.port n).fwd.erase w ∧
         v.txn? n w.serial = (s.txn? n w.serial).map (fun t => { t with dispatched := true, forwarded := none })) ∧
     (∀ serial k, s.txn? n serial = some k → k.dead = false →
       ((pathDown n serial s).port n).ready = (s.port n).ready ++
         [{ op := 0x21, slot := cmpOf k stPathDown (s.role n == 1), data := [], serial := k.serial, final := true }] ∧
       (pathDown n serial s).rd (Fld.PRT_POOL_REFUSED_PATH_DOWN n) = min (2 ^ (Fld.PRT_POOL_REFUSED_PATH_DOWN n).w - 1)
         (s.rd (Fld.PRT_POOL_REFUSED_PATH_DOWN n) + 1)) ∧
     (∀ (ctx : BitVec 12) (c : Ctx), (s.port n).ctxs.find? (fun c => c.id == ctx.toNat) = some c →
       s.rd (Fld.PRT_POOL_CTRL_CTX_TO n) ≠ 15 → c.quarantined = false →
       (s.port c.ingress).ready.any (fun r => r.serial == c.serial && r.final) = false →
       (s.port n).relay.any (fun r => r.ctx == c.id && r.owed == 0 && rspFinal (encRsp r.op r.slot)) = false →
       ∃ v, exec (.contextTimeout n ctx) s = .next (pumpAll (pathDown c.ingress c.serial v)) ∧
         v.now = max s.now (c.since + 2 ^ s.rd (Fld.PRT_POOL_CTRL_CTX_TO n) * tUs) ∧
         v.rd (Fld.PRT_POOL_REFUSED_CTX_TIMEOUT n) = min (2 ^ (Fld.PRT_POOL_REFUSED_CTX_TIMEOUT n).w - 1)
           (s.rd (Fld.PRT_POOL_REFUSED_CTX_TIMEOUT n) + 1) ∧
         (∀ x ∈ (v.port n).ctxs, x.id = c.id → x.quarantined = true) ∧ RegsKept s v [Off.PRT_POOL_REFUSED n]) ∧
     (∀ id r, s.prom.find? (fun r => r.id == id) = some r → ∃ t, exec (.arbiterAgeLimit id) s = .next t ∧
       t.now = max s.now (r.since + 64 * tFab) ∧
       t.prom = s.prom.map (fun x => if x.id = id then { x with promoted := true } else x) ∧
       t = { s with now := t.now, prom := t.prom }) ∧
     -- the same for a request that waits at the signpost
     (∀ id k w, s.prom.find? (fun r => r.id == id) = none → k ∈ (s.port n).txns → k.rid = id → w ∈ (s.port n).fwd →
       w.serial = k.serial → (∀ i < 16, i ≠ n.val → ∀ x ∈ (s.port i).txns, x.rid ≠ id) → ∃ t, exec (.arbiterAgeLimit id) s = .next t ∧
       (t.port n).txns = (s.port n).txns.map (fun x => if x.rid = id then { x with aged := true } else x) ∧ PortsKept s t n ∧
       t = { s with now := t.now, ports := t.ports }) ∧
     (∀ p, exec (.promenadeGrant (.pav p)) s = .next (pumpAll (grantPav p (pumpAll s)))) ∧
     (exec (.promenadeGrant (.port n)) s = .next (pumpAll (pumpFwd n 64 s))) ∧
     (∀ dest, dest = .mgmt ∨ dest = .bulk ∨ dest = .signpost → exec (.promenadeGrant dest) s = .next (pumpAll s)) ∧
     -- the line a pavilion's arbiter picks is one it can admit, and one past the age limit before any other
     (∀ p x k, s.pickLine p = some (x, k) → x ∈ s.prom ∧ x.loc.pav = p ∧ s.noRoom p x = none ∧
       ((∃ y ∈ s.promHeads p, y.promoted = true ∧ s.noRoom p y = none ∧ s.lineFrom p y ≤ s.now / tFab) → x.promoted = true)))

/-- O38. What an atomic makes of the word it addresses (R159), in whole numbers. -/
def Obligations.AtomicsCompute : Prop :=
  ∀ old a c : Word64,
    let after := fun (op : MemOp) => (atomicNew op old a c).getD old
    after .atSwap = a ∧ (after .atAdd).toNat = (old.toNat + a.toNat) % 2 ^ 64 ∧ after .atCas = (if old = c then a else old) ∧
    (∀ i, (after .atAnd).getLsbD i = (old.getLsbD i && a.getLsbD i)) ∧ (∀ i, (after .atOr).getLsbD i = (old.getLsbD i || a.getLsbD i)) ∧
    (∀ i, (after .atXor).getLsbD i = (old.getLsbD i ^^ a.getLsbD i)) ∧
    (after .atSmax).toInt = max old.toInt a.toInt ∧ (after .atSmin).toInt = min old.toInt a.toInt ∧
    (after .atUmax).toNat = max old.toNat a.toNat ∧ (after .atUmin).toNat = min old.toNat a.toNat ∧
    -- WRITTEN: always for the first kinds, and for the others just when the value changes hands
    (∀ op ∈ [MemOp.atSwap, .atAdd, .atAnd, .atOr, .atXor], (atomicNew op old a c).isSome = true) ∧
    ((atomicNew .atCas old a c).isSome = true ↔ old = c) ∧ ((atomicNew .atSmax old a c).isSome = true ↔ old.toInt < a.toInt) ∧
    ((atomicNew .atUmin old a c).isSome = true ↔ a.toNat < old.toNat)

/-- O39. REFRESH_ACCRUAL, RATE_CHANGE_APPLY and SELF_REFRESH_EXIT (R307, R309, R311): the accumulator reaches 9,375 and the debt
grows by one, up to 8; a declared rate and level are taken, and on a rise a rank with debt pays all of it; a rank that has left
self-refresh owes one refresh at once. -/
def Obligations.RefreshDebtAccrues : Prop :=
  ∀ (p : PavId) (r : RankId) (s : State),
    ((s.rank p r).inSelf = false → 0 < (s.pav p).rate → (s.rank p r).st ≠ .self_ → (s.rank p r).acc < 9375 →
      ∃ k u, exec (.refreshAccrual p r) s = .next (refStep p r u) ∧ u.debt p r = min 8 (s.debt p r + 1) ∧
        (u.rank p r).accAt = (s.rank p r).accAt + tPav * k ∧
        (u.rank p r).acc + 9375 = (s.rank p r).acc + 2 * (s.pav p).rate * k ∧ (u.rank p r).acc < 2 * (s.pav p).rate ∧
        (u.rank p r).st = (s.rank p r).st ∧ u.now = max s.now (u.rank p r).accAt ∧ RegsKept s u [Off.PAV_REF_STAT p] ∧
        PavsKept s u p ∧ u = { s with now := u.now, regs := u.regs, pavs := u.pavs }) ∧
    ((s.rank p r).inSelf = true → exec (.refreshAccrual p r) s = .next s) ∧
    -- a rank that owes eight is forced; one that owes less pays in its window while no line waits for it
    ((s.rank p r).st = .owed → 8 ≤ s.debt p r → ((refStep p r s).rank p r).st = .forced ∧ ((refStep p r s).rank p r).n = 1 ∧
      (refStep p r s).rd (Fld.PAV_REF_CNT_FORCED p) = min (2 ^ (Fld.PAV_REF_CNT_FORCED p).w - 1)
        (s.rd (Fld.PAV_REF_CNT_FORCED p) + 1)) ∧
    ((s.rank p r).st = .owed → s.debt p r < 8 → s.windowOpen p r = true → s.waitsFor p r = false →
      ((refStep p r s).rank p r).st = .paying ∧ ((refStep p r s).rank p r).n = s.debt p r ∧ (refStep p r s).regs = s.regs) ∧
    -- work of level 2 to 4 that waits since an earlier cycle postpones it
    (∀ t, (s.rank p r).st = .paying → (s.rank p r).n ≠ 0 → s.debt p r < 8 → s.waitsFor p r = true →
      (s.rank p r).urgent = some t → cycleFrom t ≠ cycleFrom s.now →
      ((refStep p r s).rank p r).st = .owed ∧
      (refStep p r s).rd (Fld.PAV_REF_CNT_POSTPONED p) = min (2 ^ (Fld.PAV_REF_CNT_POSTPONED p).w - 1)
        (s.rd (Fld.PAV_REF_CNT_POSTPONED p) + 1)) ∧
    (∀ t m level rest, (s.pav p).rateNext = (t, m, level) :: rest → ∃ u, exec (.rateChangeApply p) s = .next u ∧
      u.now = max s.now t ∧ (u.pav p).rate = m ∧ (u.pav p).throttleNext = level ∧ (u.pav p).rateNext = rest ∧
      (u.rank p r).acc = (s.rank p r).acc + 2 * (s.pav p).rate * ((max s.now t - (s.rank p r).accAt) / tPav) ∧
      ((s.pav p).rate < m → (s.rank p r).st = .owed → 1 ≤ s.debt p r →
        (u.rank p r).st = .band ∧ (u.rank p r).n = s.debt p r ∧ Raised u (evPav p 3)) ∧
      (m ≤ (s.pav p).rate → (u.rank p r).st = (s.rank p r).st ∧ u.regs = s.regs) ∧ PavsKept s u p) ∧
    (∀ t, (s.rank p r).leaving = some t → ∃ u, exec (.selfRefreshExit p r) s = .next u ∧ u.now = max s.now (t + tPav * 432) ∧
      (u.rank p r).st = .forced ∧ (u.rank p r).n = 1 ∧ (u.rank p r).acc = 0 ∧ (u.rank p r).inSelf = false ∧
      (u.rank p r).leaving = none ∧ u.debt p r = 1 ∧ PavsKept s u p)

/-- O40. AGED_1, AGED_2, ACCEPTANCE_STALL_TIMER, THROTTLE_WINDOW_BOUNDARY, ADAPTIVE_CLOSE_TIMER and POWER_DOWN_ENTRY (R253, R261,
R262, R271 to R275). SCRUB_STEP_DUE, SCRUB_ESCALATION, REPEAT_ENTRY_EXPIRY and NEIGHBOUR_ESCALATION (R321, R349, R359, R361). -/
def Obligations.WaitingLinesAgeAndScrubsFallDue : Prop :=
  (∀ (p : PavId) (s : State),
     (∀ id e, (s.pav p).ents.find? (fun e => e.req.id == id && e.host && e.aged == 0 && (e.st == .waiting || e.st == .buffered)) =
         some e → ∃ u, exec (.aged1 p id) s = .next (refAll p u) ∧ u.now = max s.now (e.req.since + s.starve p + tPav) ∧
         (u.pav p).ents = (s.pav p).ents.map (fun x => if x.req.id = id then { x with aged := 1 } else x) ∧
         u.rd (Fld.PAV_SCHED_CNT_AGED1 p) = min (2 ^ (Fld.PAV_SCHED_CNT_AGED1 p).w - 1) (s.rd (Fld.PAV_SCHED_CNT_AGED1 p) + 1) ∧
         RegsKept s u [Off.PAV_SCHED_CNT p] ∧ PavsKept s u p) ∧
     (∀ id e, (s.pav p).ents.find? (fun e => e.req.id == id && e.host && e.aged != 2 && (e.st == .waiting || e.st == .buffered)) =
         some e → e.aged = 1 → ∃ u, exec (.aged2 p id) s = .next (refAll p u) ∧
         u.now = max s.now (e.req.since + 2 * s.starve p + tPav) ∧
         (u.pav p).ents = (s.pav p).ents.map (fun x => if x.req.id = id then { x with aged := 2 } else x) ∧
         u.rd (Fld.PAV_SCHED_CNT_AGED2 p) = min (2 ^ (Fld.PAV_SCHED_CNT_AGED2 p).w - 1) (s.rd (Fld.PAV_SCHED_CNT_AGED2 p) + 1) ∧
         (Raised u (evPav p 0) ∨ evPav p 0 ∈ s.onceTurn) ∧ RegsKept s u [Off.PAV_SCHED_CNT p] ∧ PavsKept s u p) ∧
     -- an aged line goes at level 4 at the latest, then at level 2
     (∀ e : Ent, e.host = true → (s.pav p).drain ≠ .halt → (e.aged = 1 → s.ownLevel p e ≤ 4) ∧ (e.aged = 2 → s.ownLevel p e = 2)) ∧
     (∀ r, s.prom.find? (fun r => r.loc.pav == p.val && !r.stalled) = some r → ∃ u, exec (.acceptanceStallTimer p) s = .next u ∧
       u.now = max s.now (r.since + tUs) ∧
       u.prom = s.prom.map (fun x => if x.id = r.id then { x with stalled := true } else x) ∧ Raised u (evPav p 1) ∧
       u.rd (Fld.PAV_SCHED_CNT_STALL p) = min (2 ^ (Fld.PAV_SCHED_CNT_STALL p).w - 1) (s.rd (Fld.PAV_SCHED_CNT_STALL p) + 1) ∧
       RegsKept s u [Off.PAV_SCHED_CNT p] ∧
       u = { s with now := u.now, prom := u.prom, regs := u.regs, crossing := u.crossing }) ∧
     ((s.pav p).gated = false → (s.pav p).throttleNext < 3 → ∃ t u, exec (.throttleWindowBoundary p) s = .next u ∧
       u.now = max s.now t ∧ (u.pav p).lastWin = some t ∧ (∀ w, (s.pav p).lastWin = some w → w + 4096 ≤ t) ∧
       u.rd (Fld.PAV_THROTTLE_LEVEL p) = (s.pav p).throttleNext ∧
       (u.pav p).pausedUntil = t + tPav * ([0, min 1000 (s.rd (Fld.PAV_THROTTLE_PAUSE1 p)),
         min 1000 (s.rd (Fld.PAV_THROTTLE_PAUSE2 p))].getD (s.pav p).throttleNext 0) ∧
       RegsKept s u [Off.PAV_THROTTLE p, Off.PAV_SCHED_CNT p] ∧ PavsKept s u p ∧
       u = { s with now := u.now, regs := u.regs, pavs := u.pavs }) ∧
     -- the precharge of a page policy issues where no rule keeps the row open
     (∀ (b : BankId) lv t0, (s.bank p b).close = some (lv, t0) → (s.bank p b).open_.isSome = true → s.bankHeld p b = false →
       let t := cycleFrom (max (max s.now t0) (max (s.earliestPre p b) (afterCyc (s.pav p).lastIssue 1)))
       let u := s.atLeast t
       let w : RowCand := { lvl := lv, bank := b, cmd := .pre, at_ := t, policy := true, free := true }
       exec (.adaptiveCloseTimer p b) s =
         .next (if u.rowOk p t (u.rowCands p) (u.colCands p) w then issueRow p t w u else u) ∧
       ((issueRow p t w u).bank p b).open_ = none ∧ ((issueRow p t w u).bank p b).pre = some t) ∧
     (∀ r : RankId, s.rd Fld.GLB_PWR_STAT_STATE = psRest → s.rd (Fld.PAV_PWR_PD_IDLE p) ≠ 0 → (s.rank p r).down = false →
       (s.rank p r).inSelf = false → (s.rank p r).st ≠ .self_ → (∀ e ∈ (s.pav p).ents, e.req.loc.bank / 16 ≠ r.val) →
       (let idle := tPav * s.rd (Fld.PAV_PWR_PD_IDLE p); s.rankDue p r (max s.now ((s.rank p r).lastUse + idle) + idle) = false) →
       (∀ i < 16, s.bankHeld p (16 * r + i) = false) →
       ∃ u, exec (.powerDownEntry p r) s = .next u ∧ (u.rank p r).down = true ∧ (∀ i < 16, (u.bank p (16 * r + i)).open_ = none) ∧
         max s.now ((s.rank p r).lastUse + tPav * s.rd (Fld.PAV_PWR_PD_IDLE p)) ≤ u.now ∧ u.regs = s.regs ∧ PavsKept s u p)) ∧
  (∀ (p : PavId) (s : State),
     ((s.pav p).scrubLeft = 0 → (s.pav p).gated = false → s.halted = false → s.on (Fld.PAV_REPAIR_STAT_RETIRED p) = false →
       s.rd Fld.GLB_PWR_STAT_STATE < 2 → (s.pav p).scrubDue = false → ∃ u, exec (.scrubStepDue p) s = .next u ∧
       (u.pav p).scrubDue = true ∧ (u.pav p).scrubMissed = 0 ∧ (u.pav p).scrubEsc = false ∧
       (u.pav p).scrubLeft = s.rd (Fld.PAV_SCRUB_CTRL_INTERVAL p) + 1 ∧ PavsKept s u p ∧ u = { s with pavs := u.pavs }) ∧
     ((s.pav p).scrubLeft ≠ 0 → exec (.scrubStepDue p) s = .next s) ∧
     ((s.pav p).scrubDue = true → (s.pav p).scrubEsc = false → 4 ≤ (s.pav p).scrubMissed → ∃ u,
       exec (.scrubEscalation p) s = .next (refAll p u) ∧ (u.pav p).scrubEsc = true ∧
       (Raised u (evPav p 12) ∨ evPav p 12 ∈ s.onceTurn) ∧
       (s.accounts p = true → u.rd (Fld.PAV_SCRUB_CNT_ESCALATED p) = min (2 ^ (Fld.PAV_SCRUB_CNT_ESCALATED p).w - 1)
         (s.rd (Fld.PAV_SCRUB_CNT_ESCALATED p) + 1)) ∧
       (s.accounts p = false → u.regs = s.regs) ∧ RegsKept s u [Off.PAV_SCRUB_CNT p] ∧ PavsKept s u p) ∧
     (s.rd (Fld.PAV_ECC_CTRL_EXPIRE p) ≠ 31 → ∃ u, exec (.repeatEntryExpiry p) s = .next u ∧
       (∀ x, x ∈ (u.pav p).repeats ↔ x ∈ (s.pav p).repeats ∧
         (s.cad.turn.toNat + 2 ^ 40 - x.turn) % 2 ^ 40 < 2 ^ s.rd (Fld.PAV_ECC_CTRL_EXPIRE p)) ∧
       PavsKept s u p ∧ u = { s with pavs := u.pavs }) ∧
     (s.rd (Fld.PAV_ECC_CTRL_EXPIRE p) = 31 → exec (.repeatEntryExpiry p) s = .next s) ∧
     (∀ x, (s.pav p).neigh.find? (fun x => !x.escalated && !x.started) = some x → ∃ u,
       exec (.neighbourEscalation p) s = .next (refAll p u) ∧ u.now = max s.now (x.since + 64 * tUs) ∧
       (u.pav p).neigh = (s.pav p).neigh.map (fun y => if y = x then { y with escalated := true } else y) ∧
       (Raised u (evPav p 4) ∨ evPav p 4 ∈ s.onceTurn) ∧
       u.rd (Fld.PAV_NEIGH_STAT_ESCALATED p) = min (2 ^ (Fld.PAV_NEIGH_STAT_ESCALATED p).w - 1)
         (s.rd (Fld.PAV_NEIGH_STAT_ESCALATED p) + 1) ∧
       RegsKept s u [Off.PAV_NEIGH_STAT p] ∧ PavsKept s u p))

/-- O41. SCHEDULER_ISSUE, READ_DATA_RETURN, RMW_COMPLETE and SPARING_COPY_DONE (R160, R188, R251, R258, R265, R272, R369). -/
def Obligations.PavilionEnginesRun : Prop :=
  ∀ (p : PavId) (s : State),
    (((pavSettle p s).pav p).gated = true → exec (.schedulerIssue p) s = .next (pavSettle p s)) ∧
    (∀ t u, ((pavSettle p s).pav p).gated = false →
      (pavSettle p s).issueFirst p ((pavSettle p s).rowCands p) ((pavSettle p s).colCands p)
        (((pavSettle p s).rowCands p).length + ((pavSettle p s).colCands p).length + 2)
        (cycleFrom (pavSettle p s).now) = some (t, u) →
      exec (.schedulerIssue p) s = .next (drainStep p (trimStep p (serveBuffered p (refAll p u))))) ∧
    -- what issues is legal by then; during a pause a column command is of level 1 or 5
    (∀ t rows cols w, s.pickRow p t rows cols = some w → w ∈ rows ∧ w.at_ ≤ t) ∧
    (∀ t rows cols c, s.pickCol p t rows cols = some c → c ∈ cols ∧ c.at_ ≤ t ∧
      (t < (s.pav p).pausedUntil → c.free = false → c.lvl = 1 ∨ c.lvl = 5)) ∧
    (∀ flips, exec (.readDataReturn p flips) s = .next (pumpAll (drainStep p (pavSettle p (readReturn p flips s))))) ∧
    (∀ e g, (s.pav p).ents.find? (fun e => e.st == .merging) = some e → e.got = some g →
      exec (.rmwComplete p) s = .next (pumpAll (drainStep p (pavSettle p (rmwDone p e g (s.atLeast (s.now + 2 * tPav))))))) ∧
    -- an atomic's line goes to the write buffer and its answer carries the old word
    (∀ (e : Ent) (g : Got) op word a c n serial k, e.req.op = .atomic op word a c → e.req.owner = .port n serial → word < 8 →
      g.uncorr.getLsbD word = false → s.txn? n serial = some k → k.dead = false →
      let old := g.data.toList.getD word 0
      let u := rmwDone p e g s
      (∀ x ∈ (u.pav p).ents, x.req.id = e.req.id → x.st = .buffered ∧
        x.words = atomicLine g word ((atomicNew op old a c).getD old)) ∧
      (∃ x, (u.port n).ready = (s.port n).ready ++ [x] ∧ x.op = 0x22 ∧ x.slot.status = stOk ∧ x.slot.tag = slotTag k.slot ∧
        x.data = [lineOf (leBytes 8 old.toNat)] ∧ x.final = true ∧ x.slot.spec.getLsbD 0 = (atomicNew op old a c).isSome)) ∧
    (∀ (c : Copy) rest flips, (s.pav p).copies = c :: rest → c.running = true → ∃ u,
      exec (.sparingCopyDone p flips) s = .next (pumpAll (drainStep p (pavSettle p u))) ∧
      u.physOf p c.bank c.row = physOfSpare c.spare ∧ (u.pav p).copies = rest ∧ (u.bank p c.bank).open_ = none ∧
      Raised u (evPav p 9) ∧ PavsKept s u p)

/-- O42. Turns and angle steps (R291, R293, R296 to R299): ANGLE_STEP, TURN_BOUNDARY, MARKER_MISS_EXPIRY and CAD_TURN_EDGE. A turn
boundary counts one turn and shows whether a marker ended it; a lock sets STATE, LOCK and, when it learns, LEN. -/
def Obligations.TurnsAreCounted : Prop :=
  ∀ s : State,
    (s.clocked = true → s.nextStep ≤ 1023 → ∃ u, exec .angleStep s = .next (deliverStep s.nextStep u) ∧
      u = { s with now := u.now } ∧ s.now ≤ u.now) ∧
    (∀ k, (deliverStep k s).cad.angle = some k ∧ (deliverStep k s).cad.turn = s.cad.turn) ∧
    (s.clocked = true → s.rd Fld.CAD_STAT_STATE ≠ 2 → exec .turnBoundary s =
      .next (newTurn (s.cad.t0 + s.cadLen) false (s.atLeast (s.cadTick (s.cad.t0 + s.cadLen))))) ∧
    (s.clocked = true → s.rd Fld.CAD_STAT_STATE = 2 → exec .markerMissExpiry s = .next (missTurn s)) ∧
    (∀ t m, (newTurn t m s).cad.turn = s.cad.turn + 1 ∧ (newTurn t m s).cad.t0 = t ∧ (newTurn t m s).cad.angle = none ∧
      (newTurn t m s).rd Fld.CAD_STAT_MISS = b2n (!m) ∧ (newTurn t m s).eff = [] ∧
      (newTurn t m s).rd Fld.CAD_LEN_LEN = s.rd Fld.CAD_LEN_LEN ∧ (newTurn t m s).rd Fld.CAD_STAT_STATE = s.rd Fld.CAD_STAT_STATE) ∧
    -- the second turn in a row without a marker loses the lock
    (s.rd Fld.CAD_STAT_STATE = 2 → s.rd Fld.CAD_STAT_MISS = 1 → (missTurn s).rd Fld.CAD_STAT_STATE = 1 ∧
      (missTurn s).rd Fld.CAD_STAT_LOCK = 0 ∧ (missTurn s).rd Fld.CAD_STAT_FW_CAUSE = 1) ∧
    (s.rd Fld.CAD_STAT_STATE = 2 → s.rd Fld.CAD_STAT_MISS = 0 → (missTurn s).rd Fld.CAD_STAT_STATE = 2 ∧
      (missTurn s).rd Fld.CAD_STAT_MISS = 1) ∧
    (∀ age, s.clocked = true → s.rd Fld.CAD_CTRL_SRC = 1 → s.power.tapHold = false → s.cad.osc = none →
      exec (.cadTurnEdge age) s = .next (marker (s.markTime age) none s)) ∧
    (∀ m len lo, len < 2 ^ 23 → (cadLock m len true lo s).rd Fld.CAD_STAT_STATE = 2 ∧
      (cadLock m len true lo s).rd Fld.CAD_STAT_LOCK = 1 ∧ (cadLock m len true lo s).rd Fld.CAD_LEN_LEN = len ∧
      (cadLock m len true lo s).cad.turn = s.cad.turn + 1 ∧ Raised (cadLock m len true lo s) 928)

/-- O43. A line is read back as it was written, and no other line changes (R250, R342, R364, R365): behind row and column
substitution. -/
def Obligations.DramHoldsWhatIsWritten : Prop :=
  ∀ (l : Loc) (v : RawLine) (s : State), l.pav < 32 → l.bank < 64 → l.col < 32 → s.physOf l.pav l.bank l.row < 32832 →
    (∀ p b, ((s.pav p).cols.filter (fun c => c.1 == b)).length ≤ 4) →
    (writeLine l v s).readLine l = v ∧
    (∀ p bank phys col, p < 32 → bank < 64 → phys < 32832 → col < 32 →
      (p, bank, phys, col) ≠ (l.pav, l.bank, s.physOf l.pav l.bank l.row, l.col) →
      (writeLine l v s).readPhys p bank phys col = s.readPhys p bank phys col) ∧
    (writeLine l v s) = { s with dram := (writeLine l v s).dram } ∧
    (Memory.wf s.dram = true → Memory.wf (writeLine l v s).dram = true)

/-- O44. The code of the DRAM words. The columns of the data bits are the 56 values of weight 3 and the eight smallest of weight
5, each ascending, and check bit j is the parity of the data bits whose column has bit j (R341). By its syndrome a stored word is
clean, has one wrong check bit, has one wrong data bit, which is inverted, or is uncorrectable; syndrome 0xFF is the poison marker
(R343). So a word decodes to itself, with any one of its 72 bits wrong it is corrected and the bit named, with any two wrong it is
uncorrectable, and a line with at most one wrong bit in each word reads as it was written. -/
def Obligations.SecdedCorrectsOneDetectsTwo : Prop :=
  let weight := fun (x : Nat) => ((List.range 8).filter (fun j => x.testBit j)).length
  (secdedCols = (List.range 256).filter (fun x => weight x == 3) ++ ((List.range 256).filter (fun x => weight x == 5)).take 8) ∧
  (∀ (w : Word64) (j : Nat), j < 8 → (checkBits w).getLsbD j =
    decide (((List.range 64).filter (fun i => w.getLsbD i && (secdedCols.getD i 0).testBit j)).length % 2 = 1)) ∧
  (∀ r : Raw72,
    let s := (syndrome72 r).toNat
    syndrome72 r = r.extractLsb' 64 8 ^^^ checkBits (dataOf72 r) ∧
    (s = 0 → decode72 r = .clean (dataOf72 r)) ∧
    (∀ j < 8, s = 2 ^ j → decode72 r = .corrected (dataOf72 r) (64 + j)) ∧
    (∀ i < 64, s = secdedCols.getD i 0 → decode72 r = .corrected (dataOf72 r ^^^ (1#64 <<< i)) i) ∧
    (weight s % 2 = 1 → weight s ≠ 1 → s ∉ secdedCols → decode72 r = .uncorrectable (dataOf72 r) false) ∧
    (s = 0xFF → decode72 r = .uncorrectable (dataOf72 r) true) ∧
    (weight s % 2 = 0 → s ≠ 0 → s ≠ 0xFF → decode72 r = .uncorrectable (dataOf72 r) false)) ∧
  (∀ w : Word64, decode72 (encode72 w) = .clean w) ∧
  (∀ (w : Word64) (i : Nat), i < 72 → decode72 (encode72 w ^^^ (1#72 <<< i)) = .corrected w i) ∧
  (∀ (w : Word64) (i j : Nat), i < 72 → j < 72 → i ≠ j → (decode72 (encode72 w ^^^ (1#72 <<< i) ^^^ (1#72 <<< j))).bad = true) ∧
  decode72 poison72 = .uncorrectable 0 true ∧
  (∀ (d : Line) (flips : RawLine), (∀ w : Fin 8, flips[w] = 0 ∨ ∃ i < 72, flips[w] = 1#72 <<< i) →
    decodedData (decodeLine (flipLine (encodeLine d 0) flips)) = d ∧
    wordMask (decodeLine (flipLine (encodeLine d 0) flips)) Decoded.bad = 0)

/-- O45. BULK_LINE_ISSUE and BULK_COMPLETE (R44, R45, R349, R351): once what waits has gone on, the next line of a FILL or COPY
goes to the promenade in TC0 and locks the map; a line that is not mapped or lies in a pavilion retired while running is skipped,
the destination of a line that has been read too; and when every line is in the counts are the completion. -/
def Obligations.BulkLinesMove : Prop :=
  ∀ (b : Bulk) (s : State), s.bulk = some b →
    (exec .bulkLineIssue s = .next (match (pumpAll s).bulk with | some b => bulkIssue b (pumpAll s) | none => pumpAll s)) ∧
    (b.readBack = [] → b.ending = none → b.issued < b.lines → b.copy = false →
      (∀ l, s.locate (b.start + 64 * b.issued) = some l → s.retiredRunning l.pav = false → ∃ r,
        (bulkIssue b s).prom = (lockMap s).prom ++ [r] ∧ r.loc = l ∧ r.op = .write (Vector.replicate 8 b.pattern) 0 ∧ r.tc = 0 ∧
        r.owner = .bulk true ∧ r.idx = b.issued ∧
        (bulkIssue b s).bulk = some { b with issued := b.issued + 1, flying := b.flying + 1 }) ∧
      ((s.locate (b.start + 64 * b.issued) = none ∨
        (∃ l, s.locate (b.start + 64 * b.issued) = some l ∧ s.retiredRunning l.pav = true)) → bulkIssue b s =
        markLine b.issued false { s with bulk := some { b with issued := b.issued + 1, skipped := b.skipped + 1 } })) ∧
    (∀ i d mk rest l, b.readBack = (i, d, mk) :: rest → s.locate (b.dst + 64 * i) = some l →
      (s.retiredRunning l.pav = false → ∃ r, (bulkIssue b s).prom = (lockMap s).prom ++ [r] ∧ r.loc = l ∧ r.op = .write d mk ∧
        r.owner = .bulk true ∧
        (bulkIssue b s).bulk = some { b with readBack := rest, poisoned := b.poisoned + b2n (mk != 0), flying := b.flying + 1 }) ∧
      (s.retiredRunning l.pav = true → bulkIssue b s = { s with bulk := some { b with readBack := rest, skipped := b.skipped + 1 } })) ∧
    (b.over = true → exec .bulkComplete s = .next (quietStep (bulkDone b s)) ∧ (bulkDone b s).bulk = none ∧
      (s.rd (Fld.MBX_STAT_STATE b.mbx) = mbRunning → (s.mbx b.mbx).result = none → (s.mbx b.mbx).endCode = none →
        ((bulkDone b s).mbx b.mbx).result = some ⟨0, 0xFFFF, leBytes 8 b.written ++ leBytes 8 b.skipped ++
          (if b.copy then leBytes 8 b.poisoned else [])⟩)) ∧
    (b.over = false → exec .bulkComplete s = .next s)

/-- O46. SLICE_START, SLICE_END, SLICE_WATCHDOG and SWEEP_SLICE_DUE (R391, R393, R396, R398, R400, R404): a slice saves its row
before its first command; one that passes counts as done, gives back what it saved and lets the bank go; one that fails is
recorded and its row is spared; the watchdog aborts it with cause 5; when the interval has passed a slice falls due in every
pavilion the sweep covers. PARKING_TEST_DONE and SIGNING_DONE (R401, R411, R413, R415): an aborted test answers without a
certificate; one whose slices may not start goes on waiting; a
whole one has its certificate signed, and what was signed is then the answer or the parking certificate. -/
def Obligations.SlicesAndParkingTestsEnd : Prop :=
  (∀ (p : PavId) (s : State),
     (∀ b phys row spare why, (s.pav p).sliceDue = false → s.sliceNext p = some (b, phys, row, spare, why) →
       s.sliceMay p b why = true → s.sliceTurn p = true → ∃ u x, exec (.sliceStart p) s = .next u ∧ (u.pav p).slice = some x ∧
       x.bank = b ∧ x.phys = phys ∧ x.row = row ∧ x.isSpare = spare ∧ x.why = why ∧ x.aborted = none ∧ x.held = 0 ∧ x.phase = 0 ∧
       x.col = 0 ∧ x.save = (List.range 32).map (fun c => s.readPhys p b phys c) ∧ PavsKept s u p ∧ u = { s with pavs := u.pavs }) ∧
     (∀ x, (s.pav p).slice = some x → x.aborted = none → x.why = .sweep →
       exec (.sliceEnd p .passed) s = .next (drainStep p (endSlice p x 0 (s.atLeast (s.sliceOver p x)))) ∧
       ((endSlice p x 0 s).pav p).slice = none ∧ ((endSlice p x 0 s).bank p x.bank).open_ = none ∧
       (x.phase = 9 → DramKept s (endSlice p x 0 s)) ∧
       (1 ≤ x.phase → x.phase ≤ 7 → x.save.length = 32 → x.bank < 64 → x.phys < 32832 → ∀ c < 32,
         (endSlice p x 0 s).readPhys p x.bank x.phys c = x.save.getD c (Vector.replicate 8 0)) ∧
       (endSlice p x 0 s).rd (Fld.PAV_BIST_DONE_COUNT p) = min (2 ^ (Fld.PAV_BIST_DONE_COUNT p).w - 1)
         (s.rd (Fld.PAV_BIST_DONE_COUNT p) + 1)) ∧
     (∀ x f ok, (s.pav p).slice = some x →
       let r := sliceFailed p x f ok (s.atLeast (s.now + tPav * (161 + 136)))
       exec (.sliceEnd p (.failed f ok)) s = .next (drainStep p (endSlice p x r.1 r.2))) ∧
     (∀ x, (s.pav p).slice = some x → x.aborted = none → ∃ u y, exec (.sliceWatchdog p) s = .next u ∧
       (u.pav p).slice = some y ∧ y.aborted = some 5 ∧ y.bank = x.bank ∧ y.phys = x.phys ∧ y.save = x.save ∧ Raised u (evPav p 16) ∧
       u.rd (Fld.PAV_BIST_CNT_ABORTED p) = min (2 ^ (Fld.PAV_BIST_CNT_ABORTED p).w - 1) (s.rd (Fld.PAV_BIST_CNT_ABORTED p) + 1) ∧
       u.now = max s.now (x.heldAt + tPav * (8192 - x.held)) ∧ RegsKept s u [Off.PAV_BIST_CNT p] ∧ PavsKept s u p) ∧
     (s.on Fld.GLB_BIST_CTRL_SWEEP = true → s.test.sweepLeft = 0 → ∃ u, exec .sweepSliceDue s = .next u ∧
       u.test.sweepLeft = s.rd Fld.GLB_BIST_SWEEP_INTERVAL + 1 ∧ u.regs = s.regs ∧
       (∀ q < 32, (u.pav q).sliceDue = ((s.pav q).sliceDue || (s.test.sweepMask.getLsbD q &&
         !s.on (Fld.PAV_REPAIR_STAT_RETIRED q) && !s.on (Fld.PAV_BIST_STAT_SAVE_FAULT q)))) ∧
       u = { s with test := u.test, pavs := u.pavs })) ∧
  (∀ s : State,
     (s.test.parkRun = true → s.test.step = 4 → s.slices = 0 →
       (s.test.parkAborted.isSome = true → exec (.parkingTestDone ()) s = .next (parkAnswer false s)) ∧
       (s.test.parkAborted = none → s.testWaits = true → exec (.parkingTestDone ()) s = .next s) ∧
       (∀ rows, s.test.parkAborted = none → s.testRows = some rows → s.testWaits = false →
         let v := restPassed rows s
         v.certSpares.length ≤ 4096 → v.certUnusable.length ≤ 1024 → v.keyLost = false → ∃ u, exec (.parkingTestDone ()) s = .next u ∧
         u.test.step = 5 ∧ u.signing = v.signing ++ [.parkCert u.certBody (v.test.parkMbx.getD 18)] ∧ u.regs = v.regs ∧
         u.test.parkBits = (if v.test.parkFailed = 0 then v.test.parkBits ||| 8 else v.test.parkBits))) ∧
     (s.signing = [] → exec .signingDone s = .next s) ∧
     (∀ body m rest, s.signing = .parkCert body m :: rest → s.on Fld.GLB_SEC_STAT_IDENT = true → s.firmwareRuns = true → ∃ u, exec .signingDone s = .next u ∧
       u.signing = rest ∧ u.test.parkCert = some (body ++ s.deviceSign tagPark body) ∧ u.rd Fld.GLB_BIST_STAT_PARK_DONE = 1 ∧
       Raised u (1008 + 1)) ∧
     (∀ m body rest, s.signing = .idCert m body :: rest → s.on Fld.GLB_SEC_STAT_IDENT = true →
       s.firmwareRuns = true → exec .signingDone s = .next (State.finish { s with signing := rest } m ccOk (body ++ s.deviceSign tagId body))) ∧
     (∀ m body rest, s.signing = .attest m body :: rest → s.on Fld.GLB_SEC_STAT_IDENT = true →
       s.firmwareRuns = true → exec .signingDone s = .next (State.finish { s with signing := rest } m ccOk (body ++ s.deviceSign tagAttest body))))

/-- O47. TSV_STEP_END, TSV_WATCHDOG, TSV_AUTO_DUE, EYE_POINT_END and OSC_LEARN_PERIOD_END (R468 to R471, R473 to R477, R481). -/
def Obligations.CalibrationStepsEnd : Prop :=
  (∀ (p : PavId) (passes : List (BitVec 64)) (t : TsvCal) (r : Fin 4) (s : State), (s.pav p).tsv = some t → t.step = some r →
    (∀ g < 16, passes.getD g 0 = BitVec.allOnes 64) →
    -- every code of every group passes: no group fails, the margins are 64 and each trim is the centre
    ∃ u, exec (.tsvStepEnd p passes) s = .next u ∧ u.now = max s.now (t.heldAt + tPav * (3349 - t.held)) ∧
      u.rd (Fld.PAV_TSV_STAT_FAIL_GROUPS p) = 0 ∧ (∀ g < 16, u.rd (trimFld p r.val g) = 31) ∧
      (t.ranksLeft = BitVec.ofNat 4 (2 ^ r.val) → (u.pav p).tsv = none ∧ u.rd (Fld.PAV_TSV_STAT_STATE p) = 0) ∧
      (t.ranksLeft ≠ BitVec.ofNat 4 (2 ^ r.val) → t.ranksLeft.getLsbD r.val = true → u.rd (Fld.PAV_TSV_STAT_STATE p) = 1 ∧
        ∃ x, (u.pav p).tsv = some x ∧ x.step = none ∧ x.ranksLeft.getLsbD r.val = false ∧ x.lowSeen = t.lowSeen)) ∧
  (∀ (p : PavId) (t : TsvCal) (s : State), (s.pav p).tsv = some t → t.step.isSome = true → ∃ u, exec (.tsvWatchdog p) s = .next u ∧
    (u.pav p).tsv = none ∧ u.rd (Fld.PAV_TSV_STAT_STATE p) = 0 ∧ Raised u (968 + 25) ∧
    u.now = max s.now (t.heldAt + tPav * (8192 - t.held))) ∧
  (∀ (p : PavId) (s : State), s.rd (Fld.PAV_TSV_CTRL_AUTO p) ≠ 0 → s.rd (Fld.PAV_TSV_CTRL_AUTO p) * 1024 ≤ (s.pav p).tsvTurns →
    (s.pav p).tsv = none → (s.pav p).gated = false → s.halted = false → (s.pav p).drain = .none_ →
    s.on (Fld.PAV_REPAIR_STAT_RETIRED p) = false → s.power? < 2 → ∃ u x, exec (.tsvAutoDue p) s = .next u ∧
    (u.pav p).tsv = some x ∧ x.ranksLeft = 15 ∧ x.step = none ∧ (u.pav p).tsvTurns = 0 ∧ u.rd (Fld.PAV_TSV_STAT_STATE p) = 1 ∧
    RegsKept s u [Off.PAV_TSV_STAT p] ∧ PavsKept s u p ∧ u = { s with regs := u.regs, pavs := u.pavs }) ∧
  (∀ (n : PortId) (p : Pos) (k d : Nat) (pts : List Bool) (s : State), s.rd (Fld.PRT_CAL_STAT_SCANNING n) = 2 ^ p.val →
    (s.lane n p).scan = some (k, pts) → k < 191 → (∀ q : Pos, q ≠ p → (s.lane n q).scan = none) →
    let t := (s.port n).pointAt + s.bitTicks n (s.pointBits n)
    exec (.eyePointEnd n [(p, d)]) s = .next (((s.atLeast t).modPort n (fun q => { q with pointAt := t })).modLane n p (fun l =>
      { l with scan := some (k + 1, pts ++ [decide (d ≤ s.rd (Fld.PRT_CAL_CTRL_THRESH n))]) }))) ∧
  -- the oscillator's code steps by one toward 51,200 counts when it is off by more than 10
  (∀ (count : Nat) (s : State), s.on Fld.GLB_CAL_CTRL_OSC_LEARN = true → s.power? ≠ psSleep → 16 ≤ s.therm.learnRounds →
    count < 65536 → let n := (max 0 (min 15 ((Int.tdiv s.therm.learnSum 16 + 80 + 32) / 64))).toNat
    ∃ u, exec (.oscLearnPeriodEnd count) s = .next u ∧ u.therm.learnRounds = 0 ∧ u.therm.learnSum = 0 ∧
      (18432 ≤ count → signed (u.rd Fld.GLB_OSC_TRIM_ERR) 16 = (count : Int) - 51200) ∧
      (count < 51211 ∧ 51189 < count → u.rd (Fld.GLB_OSC_TABLE_CODE n) = s.rd (Fld.GLB_OSC_TABLE_CODE n)) ∧
      (51211 ≤ count → 0 < s.rd (Fld.GLB_OSC_TABLE_CODE n) → u.rd (Fld.GLB_OSC_TABLE_CODE n) = s.rd (Fld.GLB_OSC_TABLE_CODE n) - 1) ∧
      (count ≤ 51189 → s.rd (Fld.GLB_OSC_TABLE_CODE n) < 255 →
        u.rd (Fld.GLB_OSC_TABLE_CODE n) = s.rd (Fld.GLB_OSC_TABLE_CODE n) + 1) ∧
      (51211 ≤ count → s.rd (Fld.GLB_OSC_TABLE_CODE n) = 0 → Raised u (968 + 27)))

/-- O48. SENSOR_SLOT_END and HALT_DRAIN_DONE (R432 to R434, R442): one conversion slot ends and the next follows; a valid
conversion is shown, four good ones after a fault end it and two bad ones make it; a halted pavilion that has no line left ends in
self-refresh. The band follows the temperature by fours (R436 to R438): a sample changes it only as the fourth past its limit, and
every change clears the counters, so two changes are at least four samples apart; the fourth sample at or above 105 °C latches the
halt. -/
def Obligations.TemperaturesAreTaken : Prop :=
  (∀ s : State,
     (∀ conv, s.converts = true → 27 ≤ s.therm.slot → s.therm.slot ≠ 31 → ∃ u, exec (.sensorSlotEnd conv) s = .next u ∧
       u.therm.slot = (s.therm.slot + 1) % 32 ∧ u.therm.slotAt = s.therm.slotAt + 4 * tUs ∧
       u.now = max s.now (s.therm.slotAt + 4 * tUs) ∧ u.regs = s.regs ∧ u = { s with now := u.now, therm := u.therm }) ∧
     (∀ v : BitVec 16, s.converts = true → s.therm.slot < 24 → s.therm.slot ≠ 15 → s.therm.slot ≠ 23 → s.therm.cal = none →
       let n := s.therm.slot
       let r := v.toInt + tabGet 0 s.therm.trimNow n
       r ≤ 1200 → -320 ≤ r → ∃ u, exec (.sensorSlotEnd (some v)) s = .next u ∧ signed (u.rd (Fld.THM_SENSOR_TEMP n)) 16 = r ∧
       u.rd (Fld.THM_SENSOR_VALID n) = 1 ∧ (u.sensor n).now = some r ∧ (u.sensor n).last = some r ∧ (u.sensor n).badRun = 0 ∧
       u.therm.slot = n + 1 ∧
       (s.sensorFaulty n = true → 3 ≤ (s.sensor n).goodRun → u.sensorFaulty n = false ∧ Raised u (896 + 5)) ∧
       (s.sensorFaulty n = false → u.sensorFaulty n = false)) ∧
     (s.converts = true → s.therm.slot < 24 → s.therm.slot ≠ 15 → s.therm.slot ≠ 23 → s.therm.cal = none →
       let n := s.therm.slot
       ∃ u, exec (.sensorSlotEnd none) s = .next u ∧ (u.sensor n).now = none ∧ (u.sensor n).last = (s.sensor n).last ∧
       (u.sensor n).badRun = (s.sensor n).badRun + 1 ∧
       (s.sensorFaulty n = false → 1 ≤ (s.sensor n).badRun → u.sensorFaulty n = true ∧ Raised u (896 + 4)) ∧
       (s.sensorFaulty n = false → (s.sensor n).badRun = 0 → u.sensorFaulty n = false)) ∧
     (∃ u, exec .haltDrainDone s = .next u ∧ ∀ p < 32, (s.pav p).drain = .halt → s.pavBusy p = false →
       (s.pav p).copies.any (fun c => c.running) = false →
       (∀ r < 4, (u.rank p r).inSelf = true ∧ (u.rank p r).n = 0 ∧ u.debt p r = 0) ∧ (∀ e ∈ (u.pav p).ents, e.st ≠ .buffered) ∧
       (u.pav p).banks = [] ∧ (u.pav p).neigh = [])) ∧
  (∀ (t : Int) (s : State),
     let u := trackBand t s
     (u.rd Fld.THM_STAT_BAND ≠ s.rd Fld.THM_STAT_BAND → u.therm.up = 0 ∧ u.therm.dn = 0 ∧ (3 ≤ s.therm.up ∨ 3 ≤ s.therm.dn) ∧
       Raised u 896) ∧
     (s.therm.up < 3 → s.therm.dn < 3 → u.rd Fld.THM_STAT_BAND = s.rd Fld.THM_STAT_BAND ∧ u.therm.up ≤ s.therm.up + 1 ∧
       u.therm.dn ≤ s.therm.dn + 1 ∧ u.regs = s.regs) ∧
     (∀ t1 t2 t3, u.rd Fld.THM_STAT_BAND ≠ s.rd Fld.THM_STAT_BAND → let v := trackBand t3 (trackBand t2 (trackBand t1 u))
       v.rd Fld.THM_STAT_BAND = u.rd Fld.THM_STAT_BAND) ∧
     -- the fourth sample at or above 105 °C latches the halt
     (s.rd Fld.THM_STAT_BAND = 3 → s.therm.up = 3 → s.therm.upmin = 4 → 840 ≤ t → u.rd Fld.THM_STAT_BAND = 4 ∧ u.halted = true))

/-- O49. GO_DOORBELL, ABORT_DOORBELL and OVERRUN_CLEAR (R500, R511, R512, R541): GO in a free mailbox makes the command of its
area pending; ABORT completes a pending command ABORTED; a source that does not own the mailbox is refused and counted. -/
def Obligations.DoorbellsRing : Prop :=
  ∀ (m : MbxId) (src : Source) (s : State), Serves s →
    (s.owner m = src → s.mbxFree m = true → ∃ t, exec (.goDoorbell m src) s = .next (quietStep t) ∧
      t.rd (Fld.MBX_STAT_STATE m) = mbPending ∧ t.rd (Fld.MBX_STAT_SEQ m) = leAt (s.commandArea m) 4 2 ∧
      t.mbx m = { Mbx.reset with snap := s.commandArea m } ∧ t.lastStatus = stOk ∧ RegsKept s t [Off.MBX_STAT m] ∧ MbxsKept s t m ∧
      t = { s with regs := t.regs, mbxs := t.mbxs, lastStatus := t.lastStatus, sram := t.sram }) ∧
    (s.owner m = src → s.rd (Fld.MBX_STAT_STATE m) = mbPending →
      bitAt (leAt (s.mbx m).snap 6 1) 0 = false → ∃ t, exec (.abortDoorbell m src) s = .next (quietStep t) ∧
      t.rd (Fld.MBX_STAT_STATE m) = mbDone ∧ t.rd (Fld.MBX_STAT_CODE m) = ccAborted ∧ t.mbx m = Mbx.reset ∧ Raised t (968 + 4) ∧
      t.rd (Fld.MBX_CNT_COMPLETED m) = min (2 ^ (Fld.MBX_CNT_COMPLETED m).w - 1) (s.rd (Fld.MBX_CNT_COMPLETED m) + 1) ∧
      MbxsKept s t m) ∧
    (s.owner m = src → s.rd (Fld.MBX_STAT_STATE m) = mbRunning →
      exec (.abortDoorbell m src) s = .next (quietStep { abortRunning m s with lastStatus := stOk })) ∧
    (∀ c, c = .goDoorbell m src ∨ c = .abortDoorbell m src → s.owner m ≠ src → ∃ t, exec c s = .next (quietStep t) ∧
      t.lastStatus = stDenied ∧
      t.rd (Fld.MBX_CNT_DENIED m) = min (2 ^ (Fld.MBX_CNT_DENIED m).w - 1) (s.rd (Fld.MBX_CNT_DENIED m) + 1) ∧
      t.rd Fld.GLB_DENY_LAST_SOURCE = src.val ∧ t.rd Fld.GLB_DENY_LAST_TARGET = Off.MBX_DOORBELL m ∧ t.mbxs = s.mbxs ∧
      t.rd (Fld.MBX_STAT_STATE m) = s.rd (Fld.MBX_STAT_STATE m)) ∧
    (∀ (be : BitVec 4) (v : Reg32), (v &&& beBits be).getLsbD 7 = true → s.owner m = src →
      ∃ t, exec (.overrunClear m src be v) s = .next (quietStep t) ∧ t.rd (Fld.MBX_STAT_OVERRUN m) = 0 ∧
      RegsKept s t [Off.MBX_STAT m] ∧ t.rd (Fld.MBX_STAT_STATE m) = s.rd (Fld.MBX_STAT_STATE m) ∧
      t = { s with regs := t.regs, lastStatus := stOk })

/-- O50. FIRMWARE_READY, FIRMWARE_WATCHDOG, IMAGE_VERIFY_DONE and MANAGEMENT_SRAM_UNCORRECTABLE (R494 to R497, R521, R522, R623,
R697). -/
def Obligations.FirmwareComesAndGoes : Prop :=
  ∀ s : State,
    (s.mgmtOn = true → s.on Fld.GLB_FW_STAT_READY = false → s.switch = none → s.power.boot ≠ .dram true → ∃ t,
      exec .firmwareReady s = .next t ∧ t.on Fld.GLB_FW_STAT_READY = true ∧ Raised t 968 ∧ RegsKept s t [Off.GLB_FW_STAT] ∧
      t = { s with regs := t.regs, crossing := t.crossing }) ∧
    -- READY during start-up, after the DRAM is initialised, begins the certificate window
    (s.mgmtOn = true → s.on Fld.GLB_FW_STAT_READY = false → s.switch = none → s.power.boot = .dram true →
      s.rd Fld.GLB_BOOT_CTRL_CERT_WAIT ≠ 0 → ∃ t, exec .firmwareReady s = .next t ∧ t.power.boot = .certWindow ∧
      t.power.readyAt = s.now ∧ t.phase = 3 ∧ t.on Fld.GLB_FW_STAT_READY = true) ∧
    (∀ w, s.mgmtOn = true → s.on Fld.GLB_FW_STAT_READY = false → s.switch = some w → w.verified = true →
      exec .firmwareReady s = .next (switchDone w s)) ∧
    -- a management reset runs Omuis-R, not ready, and completes every command in hand FIRMWARE_RESTARTED
    (s.mgmtOn = true → (s.rd Fld.GLB_FW_CTRL_WDT_MS ≠ 0 ∨ s.on Fld.GLB_SEC_STAT_WORKSHOP = false) → ∃ t,
      exec .firmwareWatchdog s = .next t ∧ t.now = max s.now (s.power.coreAt + s.watchdog) ∧
      t.on Fld.GLB_FW_STAT_READY = false ∧ t.rd Fld.GLB_FW_STAT_IMAGE = 1 ∧ t.switch = none ∧ Raised t (968 + 3) ∧
      t.rd Fld.GLB_FW_STAT_RESTARTS = min (2 ^ Fld.GLB_FW_STAT_RESTARTS.w - 1) (s.rd Fld.GLB_FW_STAT_RESTARTS + 1) ∧
      (∀ m : MbxId, (s.rd (Fld.MBX_STAT_STATE m) = mbRunning ∨ s.rd (Fld.MBX_STAT_STATE m) = mbAborting) →
        t.rd (Fld.MBX_STAT_STATE m) = mbDone ∧ t.rd (Fld.MBX_STAT_CODE m) = ccRestarted) ∧
      (∀ m : MbxId, s.rd (Fld.MBX_STAT_STATE m) = mbPending → t.rd (Fld.MBX_STAT_STATE m) = mbPending)) ∧
    -- the staged image is verified, or the switch ends with the code of its failure
    (∀ w, s.switch = some w → w.verified = false → w.mbx < 18 → ∃ t, exec .imageVerifyDone s = .next t ∧
      (match s.imageFails w.len with
       | none => t = { coreStart s with switch := some { w with verified := true } }
       | some (code, _) => t.switch = none ∧ t.on Fld.GLB_FW_STAT_READY = true ∧
         t.rd Fld.GLB_FW_STAT_IMAGE = w.prevImage % 2 ^ Fld.GLB_FW_STAT_IMAGE.w ∧ Raised t (952 + 3) ∧
         (t.mbx w.mbx).result = some ⟨BitVec.ofNat 8 code, 0xFFFF, []⟩ ∧ RegsKept s t [Off.GLB_FW_STAT])) ∧
    (s.mgmtOn = true → ∃ t, exec (.managementSramUncorrectable .core) s = .next t ∧ Raised t (968 + 10) ∧
      t.rd Fld.GLB_MSRAM_ERR_UE = min (2 ^ Fld.GLB_MSRAM_ERR_UE.w - 1) (s.rd Fld.GLB_MSRAM_ERR_UE + 1) ∧
      t.on Fld.GLB_FW_STAT_READY = false) ∧
    (∀ (m : MbxId) (w : Fin 128), s.mgmtOn = true → s.inHand m = true → ∃ t,
      exec (.managementSramUncorrectable (.snapshot m w)) s = .next t ∧ t.rd (Fld.MBX_STAT_STATE m) = mbDone ∧
      t.rd (Fld.MBX_STAT_CODE m) = ccInvalid ∧ Raised t (968 + 10)) ∧
    -- a flipped word of an area shows where it is next read
    (∀ (m : MbxId) (w : Fin 256) (bad : Bool), s.mgmtOn = true → ∃ t, exec (.managementSramUncorrectable (.area m w bad)) s = .next t ∧
      t.sram = (sramClear m w (w + 1) s).sram ++ [(m.val, w.val, bad)] ∧ t = { s with sram := t.sram } ∧
      (bad = true → (sramMeets m w t).1 = true) ∧ (bad = false → (sramMeets m w t).1 = false))

/-- O51. EVENT_RAISE, EVENT_RECORD_WRITE, EVENT_MESSAGE_SEND and TELEMETRY_SEND (R546 to R558, R568 to R570): a raising that
arrives sets its SEEN bit and is latched with the time, or merges with one latched before; the latch first in order becomes the
next record of the ring and takes the next sequence number; messages go with their credits. MONITOR_WINDOW_END (R564 to R567): a
window that ended while the clock stood still is copied when it runs again, with the time of its boundary, and a new one begins;
ONESHOT stops the unit. -/
def Obligations.EventsAreLatchedAndRecorded : Prop :=
  (∀ s : State,
     -- what crosses to the event logic arrives two fabric cycles later
     (∀ (ev : Fin 1024) (detail : Byte) c, s.crossing.find? (fun c => c.1 == ev.val) = some c → ∃ t,
       exec (.eventRaise ev detail) s = .next t ∧ t.now = max s.now (c.2.2.2 + 2 * tFab) ∧ t.crossing = s.crossing.erase c ∧
       bitAt (t.rd (Fld.EVT_SEEN_SEEN (ev.val / 32))) (ev.val % 32) = true ∧ (tabGet none t.latches ev.val).isSome = true) ∧
     (∀ (ev : Fin 1024) (detail : Byte), evDefined ev.val = true → (∀ c ∈ s.crossing, c.1 ≠ ev.val) →
       (tabGet none s.latches ev.val = none → ∃ t, exec (.eventRaise ev detail) s = .next t ∧
         bitAt (t.rd (Fld.EVT_SEEN_SEEN (ev.val / 32))) (ev.val % 32) = true ∧
         tabGet none t.latches ev.val = some ⟨detail, 0, s.stamp, BitVec.ofNat 2 (s.evLevel ev), s.rd Fld.CAD_STAT_STATE != 2⟩ ∧
         (∀ k, k ≠ ev.val → tabGet none t.latches k = tabGet none s.latches k) ∧ RegsKept s t [Off.EVT_SEEN (ev.val / 32)] ∧
         t = { s with regs := t.regs, latches := t.latches }) ∧
       (∀ l, tabGet none s.latches ev.val = some l → ∃ t, exec (.eventRaise ev detail) s = .next t ∧
         tabGet none t.latches ev.val = some { l with merge := min 255 (l.merge + 1) } ∧
         t.rd Fld.EVT_MERGED_COUNT = min (2 ^ Fld.EVT_MERGED_COUNT.w - 1) (s.rd Fld.EVT_MERGED_COUNT + 1) ∧
         RegsKept s t [Off.EVT_SEEN (ev.val / 32), Off.EVT_MERGED])) ∧
     (∀ ev l rest, s.latches = (ev, some l) :: rest → (∀ e ∈ rest, e.1 ≠ ev) → l.level = 0 → exec .eventRecordWrite s = .next { s with latches := rest }) ∧
     (∀ ev l rest, s.latches = (ev, some l) :: rest → (∀ e ∈ rest, e.1 ≠ ev) → (l.level = 1 ∨ l.level = 2) →
       (∀ n < 16, bitAt (s.rd Fld.EVT_ROUTE_PORTS) n = false) →
       let seq := s.rd Fld.EVT_SEQ_NEXT
       ∃ t, exec .eventRecordWrite s = .next t ∧ t.latches = rest ∧ t.rd Fld.EVT_SEQ_NEXT = (seq + 1) % 2 ^ 32 ∧
       (∀ w < 4, t.reg (Off.EVT_RING (seq % 2048) w) = BitVec.ofNat 32 (leAt (recordBytes ev l seq) (4 * w) 4)) ∧
       RegsKept s t (Off.EVT_SEQ :: (List.range 4).map (Off.EVT_RING (seq % 2048))) ∧ t = { s with regs := t.regs, latches := rest }) ∧
     (∀ n : PortId, exec (.eventMessageSend n) s = .next (sendEvents n s)) ∧
     -- a port with credits sends up to four records of its stream and moves past them
     (∀ n : PortId, s.role n = 0 → s.streamOf n ≠ [] → s.canSend n = true → (s.port n).txData = [] →
       s.hasTx n (s.rd Fld.EVT_ROUTE_TC) 0 1 = true → s.hasTx n (s.rd Fld.EVT_ROUTE_TC) 1 1 = true →
       ((sendEvents n s).port n).sendPos = (((s.streamOf n).take 4).getLastD 0 + 1) % 2 ^ 32 ∧
       ((sendEvents n s).port n).lostMark = false ∧ ((sendEvents n s).port n).txLog.length = (s.port n).txLog.length + 1) ∧
     (∀ (n : PortId) (x : OutMsg) (u : State), (s.port n).msgs.find? (fun x => x.key.isSome) = some x → sendMsg n x s = some u →
       ∃ t, exec (.telemetrySend n) s = .next t ∧ (t.port n).msgs = (u.port n).msgs.erase x ∧
       t.rd Fld.MON_TELE_STAT_SENT = min (2 ^ Fld.MON_TELE_STAT_SENT.w - 1) (u.rd Fld.MON_TELE_STAT_SENT + 1) ∧
       RegsKept u t [Off.MON_TELE_STAT]) ∧
     ((∀ n : PortId, ∀ x ∈ (s.port n).msgs, x.key = none) → ∀ n : PortId, exec (.telemetrySend n) s = .next s)) ∧
  (∀ (u : UnitId) (ts : BitVec 50) (s : State), (s.mon u).lateTs = some ts → s.monClock u = true → s.monSnapMbx = [] →
     ((s.mon u).lateAcc = none → bitAt (s.mon u).ctrl.toNat 0 = true → bitAt (s.mon u).ctrl.toNat 1 = false → (s.mon u).acc.lvlN ≠ 0 → ∃ t,
       exec (.monitorWindowEnd u) s = .next t ∧
       t.rd (Fld.MON_COUNT_N u) = (s.mon u).acc.count % 2 ^ 32 ∧ t.rd (Fld.MON_MIN_LAT u) = (s.mon u).acc.min % 2 ^ 32 ∧
       t.rd (Fld.MON_MAX_LAT u) = (s.mon u).acc.max % 2 ^ 32 ∧ t.rd (Fld.MON_SUM_LO_SUM u) = (s.mon u).acc.sum % 2 ^ 32 ∧
       t.rd (Fld.MON_SUM_HI_SUM u) = (s.mon u).acc.sum / 2 ^ 32 % 2 ^ 32 ∧ t.rd (Fld.MON_TS_LO_TS u) = ts.toNat % 2 ^ 32 ∧
       t.rd (Fld.MON_SEQ_A_SEQ u) = (s.rd (Fld.MON_SEQ_A_SEQ u) + 1) % 2 ^ 32 ∧
       t.rd (Fld.MON_SEQ_B_SEQ u) = t.rd (Fld.MON_SEQ_A_SEQ u) ∧
       (∀ i < 32, t.rd (Fld.MON_HIST_COUNT u i) = tabGet 0 (s.mon u).acc.bins i % 2 ^ 32) ∧
       (t.mon u).acc = MonAcc.reset ∧ (t.mon u).lateTs = none ∧ (t.mon u).turns = 0 ∧ (∀ i, i ≠ u.val → t.mon i = s.mon i)) ∧
     ((s.mon u).lateAcc = none → bitAt (s.mon u).ctrl.toNat 0 = true → bitAt (s.mon u).ctrl.toNat 1 = true →
       ∃ t, exec (.monitorWindowEnd u) s = .next t ∧ t.rd (Fld.MON_CTRL_EN u) = 0 ∧ (t.mon u).lateTs = none) ∧
     ((s.mon u).lateAcc = none → bitAt (s.mon u).ctrl.toNat 0 = false → ∃ t, exec (.monitorWindowEnd u) s = .next t ∧
       t.regs = s.regs ∧ (t.mon u).acc = MonAcc.reset ∧ (t.mon u).lateTs = none) ∧
     -- what had been set aside at the boundary is copied, and the window that runs goes on
     (∀ a, (s.mon u).lateAcc = some a → ∃ t, exec (.monitorWindowEnd u) s = .next t ∧
       t.rd (Fld.MON_COUNT_N u) = a.count % 2 ^ 32 ∧ t.rd (Fld.MON_SUM_LO_SUM u) = a.sum % 2 ^ 32 ∧
       t.rd (Fld.MON_SEQ_A_SEQ u) = (s.rd (Fld.MON_SEQ_A_SEQ u) + 1) % 2 ^ 32 ∧ (t.mon u).acc = (s.mon u).acc ∧
       (t.mon u).lateTs = none ∧ (t.mon u).lateAcc = none))

/-- O52. OTP_WORD_DONE, VDD_OTPP_CHANGE and DEVICE_KEY_DERIVED (R601, R602, R606, R632, R733): a verified word is stored with its
check bits and counted, and the sequence goes on; one that fails leaves only fuses of its own word blown and ends the sequence
MARGINAL. -/
def Obligations.FusesAreProgrammed : Prop :=
  ∀ s : State,
    (∀ (g : Prog) (a : Nat) (d : BitVec 32) (rest : List FuseItem) (k : Fin 4), s.otp.prog = some g → g.todo = .word a d :: rest →
      rest ≠ [] → g.ending = none → s.otp.supply = true → s.firmwareRuns = true → s.otp.rowSpare (a / 8) = none → ∃ t,
      exec (.otpWordDone (.verified k)) s = .next t ∧
      tabGet 0 t.otp.words a = tabGet 0 s.otp.words a ||| otpEncode d ∧ (∀ i, i ≠ a → tabGet 0 t.otp.words i = tabGet 0 s.otp.words i) ∧
      t.otp.prog = some { g with todo := rest, done := g.done + 1, maxAttempts := max g.maxAttempts (max 1 k.val), held := false } ∧
      t.otp.fresh = s.otp.fresh ++ [a] ∧
      t.rd Fld.OTP_PROG_WORDS = min (2 ^ Fld.OTP_PROG_WORDS.w - 1) (s.rd Fld.OTP_PROG_WORDS + 1) ∧
      t.otp.spares = s.otp.spares ∧ t.otp.df0 = s.otp.df0 ∧ t.otp.arb = s.otp.arb) ∧
    (∀ (g : Prog) (a : Nat) (d : BitVec 32) (rest : List FuseItem) (m : Nat), s.otp.prog = some g → g.todo = .word a d :: rest →
      g.mbx = some m → g.held = false → s.otp.rowSpare (a / 8) = none → ∃ t, exec (.otpWordDone .failed) s = .next t ∧ t.otp.prog = none ∧
      t.rd Fld.OTP_STAT_BUSY = 0 ∧ Raised t (936 + 3) ∧ t.otp.journalEnd = some (BitVec.ofNat 8 ccMarginal) ∧
      Within (tabGet 0 s.otp.words a) (tabGet 0 t.otp.words a) ∧
      Within (tabGet 0 t.otp.words a) (tabGet 0 s.otp.words a ||| otpEncode d) ∧
      (∀ i, i ≠ a → tabGet 0 t.otp.words i = tabGet 0 s.otp.words i) ∧ t.freeIdx = s.freeIdx + 1 ∧
      (s.inHand m = true → (s.mbx m).endCode = none → ∃ r, (t.mbx m).result = some r ∧ r.code = BitVec.ofNat 8 ccMarginal)) ∧
    (∀ (g : Prog) (it : FuseItem) (rest : List FuseItem), s.otp.prog = some g → g.todo = it :: rest → g.held = false → ∃ t,
      exec (.otpWordDone .supplyFell) s = .next t ∧ t.otp.prog = none ∧ Raised t (936 + 4) ∧
      t.otp.journalEnd = some (BitVec.ofNat 8 ccNoSupply)) ∧
    -- a word that has not begun waits for the firmware to run
    (∀ g, s.otp.prog = some g → g.held = true → s.firmwareRuns = false → ∀ o, exec (.otpWordDone o) s = .next s) ∧
    (s.otp.prog = none → ∀ o, exec (.otpWordDone o) s = .next s) ∧
    (∀ present, ∃ t, exec (.vddOtppChange present) s = .next t ∧ t.otp = { s.otp with supply := present } ∧
      t.rd Fld.OTP_STAT_SUPPLY = b2n present ∧ RegsKept s t [Off.OTP_STAT] ∧ t = { s with otp := t.otp, regs := t.regs }) ∧
    (s.on Fld.OTP_STAT_READ_DONE = true → s.keyLost = false → ∃ t, exec .deviceKeyDerived s = .next t ∧
      t.rd Fld.GLB_SEC_STAT_IDENT = 1 ∧ RegsKept s t [Off.GLB_SEC_STAT] ∧ t = { s with regs := t.regs }) ∧
    (s.keyLost = true → exec .deviceKeyDerived s = .next s)

/-- O53. What the sideband's reads return (R649 to R652, R655, R656): SB_STATUS_BYTE, SB_STATUS, SB_WIN_READ, SB_MBX_READ and
SB_MBX_STAT give their bytes with a packet error code over the whole transaction, and each ends with its STOP. Here no access is
in hand; a read that cannot be served yet is taken in hand for 20 µs, with the clock stretched. -/
def Obligations.SidebandReadsAnswer : Prop :=
  ∀ s : State, s.sbOn = true → s.sb.hand = none → s.sb.late = [] →
    let r := s.wr Fld.SB_STAT_STATE 1
    let framed := fun (code : Byte) (data : List Byte) =>
      (BitVec.ofNat 8 data.length :: data) ++ [crc8 ([s.sbAddrW, code, s.sbAddrR] ++ (BitVec.ofNat 8 data.length :: data))]
    (∃ u, exec .sbStatusByte s = .next (quietStep (sbStop u)) ∧
      u.sb.out = [s.sbBlock.getD 0 0, crc8 [s.sbAddrR, s.sbBlock.getD 0 0]] ∧ u = { r with sb := u.sb }) ∧
    (∃ u, exec .sbStatus s = .next (quietStep (sbStop u)) ∧ u.sb.out = framed 1 s.sbBlock ∧ s.sbBlock.length = 8 ∧
      u = { r with sb := u.sb }) ∧
    (s.served = true → (∀ off, s.sbPtr = off → (regRead 16 off r).2.regs = r.regs → ∃ u,
      exec .sbWinRead s = .next (quietStep (sbStop u)) ∧
      u.sb.out = framed 0x11 (leBytes 4 (regRead 16 off r).1.toNat) ∧ u.rd Fld.SB_RESULT_CODE = 1 ∧ u.rd Fld.SB_RESULT_WRITE = 0 ∧
      u.rd Fld.SB_RESULT_OFFSET = off ∧ u.rd Fld.SB_WIN_PTR_OFFSET = (s.rd Fld.SB_WIN_PTR_OFFSET + 1) % 2 ^ 18 ∧
      RegsKept r u [Off.SB_RESULT, Off.SB_WIN_PTR])) ∧
    -- the response area of MBX16 from the pointer on, 32 bytes at most
    (s.served = true → s.rd Fld.SB_MBX_PTR_MBX17 = 0 →
      let o := s.rd Fld.SB_MBX_PTR_OFFSET
      let n := min 32 (512 - o)
      (∃ u, exec .sbMbxRead s = .next (quietStep (sbStop u)) ∧ u.sb.out = framed 0x22 ((List.range n).map (fun i =>
        BitVec.ofNat 8 (bitsOf (s.reg (Off.MBX_RSP 16 ((o + i) / 4))).toNat (8 * ((o + i) % 4)) 8))) ∧
        u.rd Fld.SB_MBX_PTR_OFFSET = (o + n) % 512 ∧ u.rd Fld.SB_RESULT_CODE = 1 ∧
        RegsKept r u [Off.SB_RESULT, Off.SB_MBX_PTR]) ∧
      (∃ u, exec .sbMbxStat s = .next (quietStep (sbStop u)) ∧ u.sb.out = framed 0x24 (s.regBytes 16 (Off.MBX_STAT 16)) ∧
        u.rd Fld.SB_RESULT_CODE = 1 ∧ RegsKept r u [Off.SB_RESULT])) ∧
    (s.served = false → ∀ c a, (c = .sbWinRead ∧ a = .winRead) ∨ (c = .sbMbxRead ∧ a = .mbxRead) ∨ (c = .sbMbxStat ∧ a = .mbxStat) →
      ∃ u, exec c s = .next (quietStep u) ∧ u.sb.hand = some (a, s.now + 20 * tUs) ∧ u.rd Fld.SB_STAT_STATE = 3 ∧
      RegsKept s u [Off.SB_STAT] ∧ u = { s with sb := u.sb, regs := u.regs }) ∧
    (∃ u, sbStop s = u ∧ u.rd Fld.SB_XACT_COUNT = min (2 ^ Fld.SB_XACT_COUNT.w - 1) (s.rd Fld.SB_XACT_COUNT + 1) ∧
      u.rd Fld.SB_STAT_STATE = 0 ∧ u.sb.idleSince = s.now ∧ u.sb.attnWait = none ∧ RegsKept s u [Off.SB_XACT, Off.SB_STAT])

/-- O54. What the sideband's writes do (R649, R651 to R655): SB_WIN_PTR, SB_WIN_WRITE, SB_MBX_WRITE, SB_MBX_GO, SB_MBX_PTR and
SB_QUICK_COMMAND. With a packet error code that is right, or absent and not required, a write acts; with a wrong one it is
discarded and counted; a byte that may not be is refused and counted. Here no access is in hand; a write that cannot be served yet
is taken in hand for 20 µs (R656). -/
def Obligations.SidebandWritesAct : Prop :=
  ∀ (pec : Option Byte) (s : State), s.sbOn = true → s.sb.hand = none → s.sb.late = [] →
    (∀ ptr : BitVec 24, ptr.toNat < 2 ^ 20 →
      let ok := s.pecOk 0x10 (3 :: leBytes 3 ptr.toNat) pec
      (ok = true → exec (.sbWinPtr ptr pec) s = .next (quietStep (sbStop (s.wr Fld.SB_WIN_PTR_OFFSET (ptr.toNat / 4))))) ∧
      (ok = false → ∃ u, exec (.sbWinPtr ptr pec) s = .next (sbStop u) ∧ u.rd Fld.SB_RESULT_CODE = 4 ∧
        u.rd Fld.SB_CNT_PEC = min (2 ^ Fld.SB_CNT_PEC.w - 1) (s.rd Fld.SB_CNT_PEC + 1) ∧
        (Raised u (evSb 2) ∨ evSb 2 ∈ s.onceTurn) ∧ RegsKept s u [Off.SB_RESULT, Off.SB_CNT])) ∧
    (∀ ptr : BitVec 24, 2 ^ 20 ≤ ptr.toNat → exec (.sbWinPtr ptr pec) s = .next (sbStop (sbRefused s))) ∧
    (∀ bytes, (bytes.length = 4 ∨ bytes.length = 5 ∧ (bytes.getD 4 0).toNat < 16) → s.pecOk 0x12 (BitVec.ofNat 8 bytes.length :: bytes) pec = true →
      let be := if bytes.length = 5 then (bytes.getD 4 0).extractLsb' 0 4 else 15
      exec (.sbWinWrite bytes pec) s = .next (quietStep (sbStop (sbAdvance
        (sbTake (.put s.sbPtr [(s.sbPtr, be, BitVec.ofNat 32 (leAt bytes 0 4))]) s))))) ∧
    (∀ bytes, bytes.length ≠ 4 → bytes.length ≠ 5 → exec (.sbWinWrite bytes pec) s = .next (sbStop (sbRefused s))) ∧
    -- a register write of the sideband is a write of source 16, and RESULT shows how it went
    (∀ off be v, s.served = true → (regWrite 16 off be v s).1 = stOk →
      sbTake (.put off [(off, be, v)]) s = sbResult 1 true off (regWrite 16 off be v s).2) ∧
    (∀ off be v, s.served = true → (regWrite 16 off be v s).1 = stDenied →
      sbTake (.put off [(off, be, v)]) s = sbResult 2 true off (regWrite 16 off be v s).2) ∧
    (∀ a, s.served = false → sbTake a s = { s with sb := { s.sb with hand := some (a, s.now + 20 * tUs) } }) ∧
    (∀ bytes, 3 ≤ bytes.length → bytes.length ≤ 32 → leAt bytes 0 2 % 2 ^ 15 + (bytes.length - 2) ≤ 512 →
      s.pecOk 0x20 (BitVec.ofNat 8 bytes.length :: bytes) pec = true → leAt bytes 0 2 % 2 ^ 15 < 512 →
      exec (.sbMbxWrite bytes pec) s = .next (quietStep (sbStop
        (sbMbxPut (sbMbx (leAt bytes 0 2)) (leAt bytes 0 2 % 512) (bytes.drop 2) s)))) ∧
    (∀ v : Byte, (v = 1 ∨ v = 2) → s.pecOk 0x21 [v] pec = true → exec (.sbMbxGo v pec) s = .next (quietStep (sbStop
      (sbTake (.put (Off.MBX_DOORBELL 16) [(Off.MBX_DOORBELL 16, 3, BitVec.ofNat 32 v.toNat)]) s)))) ∧
    (∀ v : Byte, (v = 0x81 ∨ v = 0x82) → s.pecOk 0x21 [v] pec = true → exec (.sbMbxGo v pec) s = .next (quietStep (sbStop
      (sbTake (.put (Off.MBX_DOORBELL 17) [(Off.MBX_DOORBELL 17, 3, BitVec.ofNat 32 (v.toNat - 128))]) s)))) ∧
    (∀ v : BitVec 16, v.toNat % 2 ^ 15 < 512 → s.pecOk 0x23 (leBytes 2 v.toNat) pec = true → ∃ u,
      exec (.sbMbxPtr v pec) s = .next (quietStep (sbStop u)) ∧ u.rd Fld.SB_MBX_PTR_OFFSET = v.toNat % 512 ∧
      u.on Fld.SB_MBX_PTR_MBX17 = v.getLsbD 15 ∧ RegsKept s u [Off.SB_MBX_PTR] ∧ u = { s with regs := u.regs }) ∧
    (exec (.sbQuickCommand none) s = .next (sbStop s)) ∧
    (∀ c ∈ sbCodes, exec (.sbQuickCommand (some c)) s = .next (sbStop s)) ∧
    (∀ c, c ∉ sbCodes → exec (.sbQuickCommand (some c)) s = .next (sbStop (sbRefused s)) ∧
      (sbRefused s).rd Fld.SB_CNT_PROTO = min (2 ^ Fld.SB_CNT_PROTO.w - 1) (s.rd Fld.SB_CNT_PROTO + 1))

/-- O55. Faults and timers of the sideband and its wake (R654, R656 to R658, R664 to R666): SB_STRETCH_LIMIT, SB_BUS_FAULT,
SB_REPEATED_START_IN_ACK, SCL_LOW_TIMEOUT, SDA_RELEASE_TIMEOUT, WAKE_BY_ADDRESS and WAKE_STRETCH_LIMIT. An access that is not
served within 20 µs is a timeout: a read returns ones, and what was to be written waits. Attention (R660 to R663):
ATTENTION_ASSERT, ATTENTION_ARBITRATION, ATTENTION_WAIT_EXPIRY and ATTENTION_RETRY_TIMER. SDA is pulled low 50 µs after the bus
fell idle; winning the arbitration with an acknowledge clears the flag; an answer missed is counted and tried again after
2^ATTN_RETRY ms. -/
def Obligations.SidebandFaultsAndAttention : Prop :=
  (∀ s : State,
     (s.sb.hand = none → exec (.sbStretchLimit ()) s = .next s) ∧
     (∀ a t, s.sb.hand = some (a, t) → s.served = false → ∃ u, exec (.sbStretchLimit ()) s = .next (quietStep u) ∧
       u.now = max s.now t ∧ u.sb.hand = none ∧ u.rd Fld.SB_RESULT_CODE = 3 ∧ u.rd Fld.SB_RESULT_WRITE = b2n (a.shown s).1 ∧
       u.rd Fld.SB_RESULT_OFFSET = (a.shown s).2.1 % 2 ^ Fld.SB_RESULT_OFFSET.w ∧ Raised u (evSb 3) ∧
       u.rd Fld.SB_CNT_TIMEOUT = min (2 ^ Fld.SB_CNT_TIMEOUT.w - 1) (s.rd Fld.SB_CNT_TIMEOUT + 1) ∧
       ((a.shown s).1 = false → u.sb.out = List.replicate ((a.shown s).2.2 + 2) 0xFF ∧ u.sb.late = s.sb.late) ∧
       (∀ o ws, a = .put o ws → u.sb.late = s.sb.late ++ ws) ∧
       RegsKept s u [Off.SB_RESULT, Off.SB_CNT, Off.SB_XACT, Off.SB_STAT]) ∧
     (s.sbOn = true → exec (.sbBusFault .byteRefused) s = .next (sbStop (sbRefused s))) ∧
     (s.sbOn = true → s.sb.hand = none → s.sb.late = [] →
       exec (.sbBusFault .writeEndedEarly) s = .next (sbStop (s.wr Fld.SB_RESULT_CODE 5))) ∧
     (s.sbOn = true → ∀ cause part, (cause = .sdaRoseInAck part ∨ cause = .startStopInByte part) → ∃ u,
       exec (.sbBusFault cause) s = .next u ∧
       u.rd Fld.SB_RESULT_CODE = (if part then 5 else s.rd Fld.SB_RESULT_CODE) ∧
       u.rd Fld.SB_STAT_STATE = 0 ∧ u.rd Fld.SB_CNT_PROTO = min (2 ^ Fld.SB_CNT_PROTO.w - 1) (s.rd Fld.SB_CNT_PROTO + 1) ∧
       (Raised u (evSb 0) ∨ evSb 0 ∈ s.onceTurn) ∧ RegsKept s u [Off.SB_RESULT, Off.SB_CNT, Off.SB_STAT] ∧
       u.rd Fld.SB_STAT_ATTN_PEND = s.rd Fld.SB_STAT_ATTN_PEND) ∧
     (exec .sbRepeatedStartInAck s = .next s) ∧
     (s.sbOn = true → ∀ c, c = .sclLowTimeout ∨ c = .sdaReleaseTimeout → ∃ u, exec c s = .next u ∧
       u.rd Fld.SB_STAT_STATE = 0 ∧ Raised u (evSb 1) ∧ u.sb.attnWait = none ∧ u.sb.idleSince = s.now ∧
       -- whether a write was under way is a free value
       u.rd Fld.SB_RESULT_CODE = (if s.drawFree.1.getLsbD 0 then 5 else s.rd Fld.SB_RESULT_CODE) ∧
       u.rd Fld.SB_CNT_TIMEOUT = min (2 ^ Fld.SB_CNT_TIMEOUT.w - 1) (s.rd Fld.SB_CNT_TIMEOUT + 1) ∧
       u.rd Fld.SB_STAT_ATTN_PEND = s.rd Fld.SB_STAT_ATTN_PEND ∧ RegsKept s u [Off.SB_RESULT, Off.SB_CNT, Off.SB_STAT]) ∧
     (∀ addr : BitVec 7, s.sb.running = true → s.power.tapHold = false → s.power? = psSleep → s.on Fld.SB_CTRL_WAKE_EN = true →
       addr.toNat = s.rd Fld.SB_STAT_ADDR → s.power.trans = .none_ → ∃ u, exec (.wakeByAddress addr) s = .next u ∧
       u.power.trans = .waking false ∧ u.rd Fld.GLB_PWR_STAT_WAKE_CAUSE = 3 ∧ u.rd Fld.GLB_PWR_STAT_TRANS = 1 ∧
       u.sb.wakeStretch = some (s.now + 200 * tUs) ∧ u.rd Fld.SB_STAT_STATE = 3 ∧ Raised u (evSb 4)) ∧
     (∀ addr : BitVec 7, s.power? ≠ psSleep ∨ addr.toNat ≠ s.rd Fld.SB_STAT_ADDR → exec (.wakeByAddress addr) s = .next s) ∧
     (∀ t, s.sb.wakeStretch = some t → ∃ u, exec .wakeStretchLimit s = .next u ∧ u.now = max s.now t ∧ u.sb.wakeStretch = none ∧
       u.sb.wakeLate = true ∧ u.rd Fld.SB_STAT_STATE = 0 ∧ RegsKept s u [Off.SB_STAT])) ∧
  (∀ s : State,
     (s.sbOn = true → s.on Fld.SB_CTRL_ATTN_EN = true → s.on Fld.SB_STAT_ATTN_PEND = true → s.sb.attnWait = none →
       s.sb.needStop = false → ∃ u, exec .attentionAssert s = .next u ∧ u.now = max s.now (s.sb.idleSince + 50 * tUs) ∧
       u.sb.attnWait = some (u.now + 100 * tUs) ∧ u.rd Fld.SB_STAT_STATE = 2 ∧ u.on Fld.SB_STAT_ATTN_PEND = true ∧
       RegsKept s u [Off.SB_STAT]) ∧
     (s.on Fld.SB_STAT_ATTN_PEND = false → exec .attentionAssert s = .next s) ∧
     (∀ t, s.sb.attnWait = some t →
       (∃ u, exec (.attentionArbitration true true) s = .next u ∧ u.rd Fld.SB_STAT_ATTN_PEND = 0 ∧ Raised u (evSb 6) ∧
         u.sb.attnWait = none ∧ u.rd Fld.SB_STAT_STATE = 0 ∧ RegsKept s u [Off.SB_STAT]) ∧
       (∃ u, exec (.attentionArbitration true false) s = .next u ∧
         u.rd Fld.SB_STAT_ATTN_PEND = s.rd Fld.SB_STAT_ATTN_PEND ∧ Raised u (evSb 5) ∧
         u.rd Fld.SB_CNT_ATTN_MISS = min (2 ^ Fld.SB_CNT_ATTN_MISS.w - 1) (s.rd Fld.SB_CNT_ATTN_MISS + 1) ∧
         RegsKept s u [Off.SB_STAT, Off.SB_CNT]) ∧
       (∀ acked, ∃ u, exec (.attentionArbitration false acked) s = .next u ∧ u.sb.attnWait = none ∧
         u.rd Fld.SB_STAT_ATTN_PEND = s.rd Fld.SB_STAT_ATTN_PEND ∧ u.crossing = s.crossing) ∧
       (∃ u, exec .attentionWaitExpiry s = .next u ∧ u.now = max s.now t ∧ u.sb.attnWait = none ∧ u.sb.needStop = true ∧
         u.sb.attnRetry = some (u.now + tMs * 2 ^ s.rd Fld.SB_CTRL_ATTN_RETRY) ∧ Raised u (evSb 5) ∧ u.rd Fld.SB_STAT_STATE = 0)) ∧
     (∀ t, s.sb.attnRetry = some t → s.sbOn = true → s.on Fld.SB_CTRL_ATTN_EN = true → s.on Fld.SB_STAT_ATTN_PEND = true →
       ∃ u, exec .attentionRetryTimer s = .next u ∧ u.now = max s.now t ∧ u.sb.attnWait = some (u.now + 100 * tUs) ∧
       u.sb.attnRetry = none ∧ u.rd Fld.SB_STAT_STATE = 2) ∧
     (∀ t, s.sb.attnRetry = some t → s.on Fld.SB_STAT_ATTN_PEND = false → ∃ u, exec .attentionRetryTimer s = .next u ∧
       u.sb.attnWait = s.sb.attnWait ∧ u.sb.attnRetry = none ∧ u.sb.needStop = false ∧ u.regs = s.regs))

/-- O56. From power to the core dies (R593, R646, R697, R701, R731, R732, R743): POWER_ON_RESET, SUPPLY_DIP,
OTP_DIRECT_FIELD_READY, OTP_POWER_ON_READ_DONE, CORE_PLL_LOCK, CORE_PLL_LOCK_TIMEOUT and DRAM_INIT_DONE. -/
def Obligations.StartUpBegins : Prop :=
  ∀ s : State,
    (∀ strap : BitVec 2, s.power.boot = .off → ∃ u, exec (.powerOnReset strap) s = .next u ∧ u.power.boot = .reading false ∧
      u.power.strap = strap ∧ u.power.riseAt = s.now ∧ u.power.tapIr = 1 ∧ u.power.tapHold = false ∧
      u.rd Fld.SB_STAT_ADDR = 0x4C + strap.toNat ∧ u.rd Fld.GLB_BOOT_STAT_PHASE = 0 ∧
      u.rd Fld.OTP_STAT_SUPPLY = b2n s.otp.supply ∧
      RegsKept s u [Off.SB_STAT, Off.GLB_BOOT_STAT, Off.OTP_STAT] ∧ u = { s with regs := u.regs, power := u.power }) ∧
    -- nothing but the fuses outlives the rails
    (s.power.boot ≠ .off → ∃ u, exec .supplyDip s = .next u ∧ u.power.boot = .off ∧ (∀ off, u.reg off = regReset off) ∧
      u.dram = [] ∧ (∀ n, u.port n = State.reset.port n) ∧ (∀ p, u.pav p = State.reset.pav p) ∧ u.otp.words = s.otp.words ∧
      u.otp.spares = s.otp.spares ∧ u.otp.redir = s.otp.redir ∧ u.otp.df0 = s.otp.df0 ∧ u.otp.df1 = s.otp.df1 ∧
      u.otp.df2 = s.otp.df2 ∧ u.otp.secret = s.otp.secret ∧ u.otp.arb = s.otp.arb ∧ u.otp.prog = none ∧
      u.power.resetN = s.power.resetN ∧ u.power.refclk = s.power.refclk ∧ u.now = s.now ∧ u.pending = s.pending) ∧
    -- the direct field is the vote of its three copies, bit by bit
    (∀ marginals (tb : BitVec 16), s.power.boot = .reading false → ∃ u, exec (.otpDirectFieldReady marginals tb) s = .next u ∧
      u.power.boot = .reading true ∧ (∀ i < 512, u.otp.latDf.getLsbD i =
        decide (2 ≤ b2n (s.otp.df0.getLsbD i) + b2n (s.otp.df1.getLsbD i) + b2n (s.otp.df2.getLsbD i))) ∧
      (∀ i < 16, u.reg (Off.OTP_DF i) = u.otp.latDf.extractLsb' (32 * i) 32) ∧
      u.rd Fld.GLB_FEATURES_PORTS = bitsOf u.otp.latDf.toNat 0 16 ∧ u.rd Fld.GLB_ID_VARIANT = bitsOf u.otp.latDf.toNat 21 3 ∧
      FusesKept s.otp u.otp) ∧
    (∀ marginals (tb : BitVec 16), s.power.boot = .reading true → ∃ u, exec (.otpPowerOnReadDone marginals tb) s = .next u ∧
      u.power.boot = (if s.power.resetN = true then Boot.pll 0 else Boot.cold) ∧ u.rd Fld.OTP_STAT_READ_DONE = 1 ∧
      u.power.startNum = s.power.startNum + b2n s.power.resetN ∧ (s.power.resetN = true → u.rd Fld.GLB_BOOT_STAT_PHASE = 1) ∧
      (∀ w ∈ s.otp.usedWords, tabGet 0 u.otp.latched w = (otpDecode (s.otp.rawAt w)).getD 0) ∧
      (∀ w, w ∉ s.otp.usedWords → tabGet 0 u.otp.latched w = 0) ∧ u.otp.latDf = s.otp.latDf) ∧
    (∀ k, s.power.boot = .pll k →
      (s.power.refclk = true → ∃ u, exec .corePllLock s = .next u ∧ u.power.boot = .dram false ∧ u.sb.running = true ∧
        u.rd Fld.GLB_BOOT_STAT_PHASE = 2 ∧ u.rd Fld.GLB_FW_STAT_IMAGE = 1 ∧ u.rd Fld.GLB_FW_STAT_READY = 0 ∧
        u.rd Fld.THM_STAT_BAND = 7 ∧ u.rd Fld.THM_STAT_INIT = 0 ∧ u.now = s.now) ∧
      (s.power.refclk = false → exec .corePllLock s = .next s) ∧
      (k < 2 → ∃ u, exec .corePllLockTimeout s = .next u ∧ u.now = max s.now (s.power.readyAt + 50 * tUs) ∧
        u.power.boot = .pll (k + 1) ∧ u.power.readyAt = u.now ∧ u.regs = s.regs ∧
        u = { s with now := u.now, power := u.power }) ∧
      (2 ≤ k → ∃ u, exec .corePllLockTimeout s = .next u ∧ u.now = max s.now (s.power.readyAt + 50 * tUs) ∧
        u.power.boot = .failed ∧ u.sb.running = true ∧ u.rd Fld.GLB_BOOT_STAT_PHASE = 15 ∧ u.rd Fld.GLB_FW_STAT_IMAGE = 0 ∧
        u.rd Fld.GLB_FW_STAT_READY = 0 ∧ RegsKept s u [Off.GLB_BOOT_STAT, Off.GLB_FW_STAT])) ∧
    (s.power.boot = .dram false → ∃ u, exec .dramInitDone s = .next u ∧
      (∀ p < 32, ∀ r < 4, u.rd (fldDebt p r) = 1 ∧ (u.rank p r).inSelf = false ∧ (u.rank p r).down = false) ∧
      u.power.boot = (if s.on Fld.GLB_FW_STAT_READY = false then Boot.dram true
        else if s.rd Fld.GLB_BOOT_CTRL_CERT_WAIT = 0 then Boot.certCheck else Boot.certWindow) ∧
      u.rd Fld.GLB_BOOT_STAT_PHASE = (if s.on Fld.GLB_FW_STAT_READY = false then s.rd Fld.GLB_BOOT_STAT_PHASE
        else if s.rd Fld.GLB_BOOT_CTRL_CERT_WAIT = 0 then 4 else 3))

/-- O57. From the certificate to step 7 (R405 to R407, R415, R697, R703, R705): CERT_WINDOW_EXPIRY, CERT_CHECK_DONE,
LOGIC_TEST_DONE, TSV_TEST_DONE, STARTUP_TEST_DONE, which waits for slices that may not start (R401), STARTUP_DONE and
RECOV_WAIT_EXPIRY. -/
def Obligations.StartUpEnds : Prop :=
  ∀ s : State,
    (s.power.boot = .certWindow → ∃ u, exec .certWindowExpiry s = .next u ∧ u.power.boot = .certCheck ∧
      u.now = max s.now (s.power.readyAt + tMs * s.rd Fld.GLB_BOOT_CTRL_CERT_WAIT) ∧ u.rd Fld.GLB_BOOT_STAT_PHASE = 4 ∧
      RegsKept s u [Off.GLB_BOOT_STAT] ∧ u = { s with now := u.now, regs := u.regs, power := u.power }) ∧
    (s.power.boot = .certCheck → ∃ u, exec .certCheckDone s = .next u ∧
      (u.power.boot = .test ∨ u.power.boot = .finish) ∧
      u.test.certResult = (if s.test.submitted.isSome = true then s.test.certResult else 5) ∧
      u.rd Fld.GLB_BIST_STAT_CERT = (if u.test.certResult = 5 then 0 else (u.test.certResult + 1) % 8) ∧
      u.rd Fld.GLB_BOOT_STAT_PHASE = (if u.power.boot = .test then 5 else 6)) ∧
    -- what the logic test finds in a pavilion at a start retires it; what it finds in a port marks the port down
    (∀ (pavs : BitVec 32) (ports : BitVec 16), s.test.step = 2 → s.test.startRunning = true → ∃ u,
      exec (.logicTestDone pavs ports) s = .next u ∧ u.test.step = 3 ∧ u.now = max s.now (s.power.testAt + 40 * tMs) ∧
      u.test.startBits = (if pavs = 0 ∧ ports = 0 then s.test.startBits ||| 1 else s.test.startBits) ∧
      (∀ p < 32, pavs.getLsbD p = true → bitAt s.retiredMask p = false →
        u.rd (Fld.PAV_REPAIR_STAT_RETIRED p) = 1 ∧ tabGet 0 u.test.retireCause p = 4) ∧
      (∀ n < 16, ports.getLsbD n = true → s.portEnabled n = true → u.rd (Fld.PRT_PHY_STAT_DOWN n) = 1 ∧
        u.link n = lsDown)) ∧
    (∀ fails save lanes, s.test.step = 3 → s.test.startRunning = true → ∃ u, exec (.tsvTestDone fails save lanes) s = .next u ∧
      u.test.step = 4 ∧ u.now = max s.now (s.power.testAt + 72 * tMs) ∧
      u.test.startBits = (s.test.startBits ||| (if fails.isEmpty = true ∧ save = 0 then 2 else 0)) |||
        (if lanes = 0 then 4 else 0) ∧
      (∀ p < 32, save.getLsbD p = true → u.rd (Fld.PAV_BIST_STAT_SAVE_FAULT p) = 1) ∧
      (∀ n < 16, ∀ q < 8, lanes.getLsbD (8 * n + q) = true → s.portEnabled n = true → s.role n ≠ 2 → (u.lane n q).bad = true)) ∧
    -- slices that may not start while MAX = 0 or a throttle level is in force keep the test waiting
    (s.testWaits = true → exec .startupTestDone s = .next s) ∧
    (s.test.startRunning = true → s.test.step = 4 → s.slices = 0 → s.testWaits = false → ∃ u, exec .startupTestDone s = .next u ∧
      u.power.boot = .finish ∧ u.test.step = 0 ∧ u.test.startRunning = false ∧
      u.power.testMs = (s.now - s.power.testAt) / tMs ∧ Raised u 1008 ∧ u.rd Fld.GLB_BOOT_STAT_PHASE = 6 ∧
      u.rd Fld.GLB_BIST_STAT_PHASE = 0) ∧
    (s.power.boot = .finish → ∃ u, exec .startupDone s = .next (pumpAll u) ∧ u.power.boot = .done ∧ u.power.doneAt = some s.now ∧
      u.test.record = s.startRecord ∧ u.rd Fld.GLB_BOOT_STAT_DONE = 1 ∧ RegsKept s u [Off.GLB_BOOT_STAT] ∧
      u.test.record.length = 160 + 2 * min 64 s.test.skipped.length) ∧
    -- with no host port up when the recovery wait ends, port 0 trains with X1
    (∀ t, s.power.doneAt = some t → s.power.boot = .done → s.power.recovDone = false →
      s.rd Fld.GLB_BOOT_CTRL_RECOV_WAIT ≠ 0 → ∃ u, exec .recovWaitExpiry s = .next u ∧ u.power.recovDone = true ∧
      u.now = max s.now (t + s.rd Fld.GLB_BOOT_CTRL_RECOV_WAIT * (100 * tMs)) ∧
      ((∃ n < 16, s.portEnabled n = true ∧ s.role n = 0 ∧ (s.port n).train.hasLink = true) → u.regs = s.regs ∧ u.ports = s.ports) ∧
      ((∀ n < 16, s.portEnabled n = true → s.role n = 0 → (s.port n).train.hasLink = false) → s.portEnabled 0 = true → s.role 0 = 0 →
        (u.port 0).train.x1 = true ∧ (12 < s.test.record.length →
          u.test.record.getD 12 0 = s.test.record.getD 12 0 ||| 4 ∧ u.test.record.length = s.test.record.length) ∧
        (s.mayTrain 0 = true → u.link 0 = lsLock)))

/-- O58. Resets and clocks (R678, R685, R686, R737, R742, R743): RESET_N_LOW, RESET_N_RISE, RESET_DRAIN_DONE, REFCLK_LOSS,
REFCLK_RETURN, TRST_N_LOW and TAP_INSTRUCTION_UPDATE. -/
def Obligations.ResetsActAndClocksReturn : Prop :=
  ∀ s : State,
    -- a cold reset counts its cause, and first drains the pavilions
    (s.power.tapHold = false → s.power.resetN = true → s.power.boot ≠ .off → (∀ b, s.power.boot ≠ .reading b) → s.power.boot ≠ .cold →
      s.power.drain = none → ∃ u, exec .resetNLow s = .next u ∧ u.power.resetN = false ∧
      (s.noDrain = false → u.power.drain = some 1 ∧ u.prom = [] ∧ u.bulk = none ∧ u.power.boot = s.power.boot ∧
        (∀ n < 16, u.link n = lsDown) ∧
        u.rd Fld.GLB_RST_STAT_COLD = min (2 ^ Fld.GLB_RST_STAT_COLD.w - 1) (s.rd Fld.GLB_RST_STAT_COLD + 1)) ∧
      (s.noDrain = true → u.power.boot = .cold ∧ u.rd Fld.GLB_RST_STAT_CAUSE = 1)) ∧
    (s.power.tapHold = true → exec .resetNLow s = .next s) ∧
    (∀ c, s.power.drain = some c → c < 4 → ∃ u, exec .resetDrainDone s = .next u ∧ u.rd Fld.GLB_RST_STAT_CAUSE = c ∧
      u.power.boot = (if s.power.resetN = true ∧ (c ≠ 2 ∨ s.power.refclk = true) then Boot.pll 0 else Boot.cold) ∧
      u.power.drain = none ∧ u.test.record = s.test.record ∧ u.rd Fld.GLB_SEC_STAT_WORKSHOP = 0 ∧ u.pending = s.pending ∧
      u.rd Fld.SB_STAT_ADDR = 0x4C + s.power.strap.toNat ∧ u.power.startNum = s.power.startNum + b2n (u.power.boot != .cold) ∧
      FusesKept s.otp u.otp ∧ u.otp.latDf = s.otp.latDf) ∧
    (s.power.tapHold = false → s.power.resetN = false → ∃ u, exec .resetNRise s = .next u ∧ u.power.resetN = true ∧
      u.power.riseAt = s.now ∧ (s.power.boot ≠ .cold → u.power.boot = s.power.boot ∧ u.regs = s.regs) ∧
      (s.power.boot = .cold → s.rd Fld.GLB_RST_STAT_CAUSE ≠ 2 → u.power.boot = .pll 0 ∧ u.rd Fld.GLB_BOOT_STAT_PHASE = 1 ∧
        u.power.startNum = s.power.startNum + 1)) ∧
    -- the reference clock may stop in Sleep, and its loss in another state is a cold reset
    (s.power.boot = .done → s.power? = psSleep → exec .refclkLoss s = .next { s with power := { s.power with refclk := false } }) ∧
    (s.power.boot = .done → s.power? ≠ psSleep → s.power.drain = none → ∃ u, exec .refclkLoss s = .next u ∧ u.power.refclk = false ∧
      u.power.drain = some 2 ∧
      u.rd Fld.GLB_RST_STAT_REFCLK = min (2 ^ Fld.GLB_RST_STAT_REFCLK.w - 1) (s.rd Fld.GLB_RST_STAT_REFCLK + 1)) ∧
    (s.power.refclk = false → ∃ u, exec .refclkReturn s = .next u ∧ u.power.refclk = true ∧
      (s.power.boot = .cold → s.rd Fld.GLB_RST_STAT_CAUSE = 2 → s.power.resetN = true → u.power.boot = .pll 0 ∧ u.power.riseAt = s.now)) ∧
    (exec .trstNLow s = .next { s with power := { s.power with tapIr := 1, tapHold := false } }) ∧
    (∀ code : Byte, ∃ ir, exec (.tapInstructionUpdate code) s =
        .next { s with power := { s.power with tapIr := ir, tapHold := ir == 0 || ir == 3 || ir == 4 } } ∧
      (code.toNat ≤ 4 → ir = code) ∧
      (code = 0x10 → ir = (if s.on Fld.GLB_SEC_STAT_WORKSHOP = true then 0x10 else 0xFF)) ∧
      (4 < code.toNat → code ≠ 0x10 → ir = 0xFF))

/-- O59. PAVILION_RESET (R316): a pavilion whose reset was asked for resets once its lines are complete. Each of its ranks starts
in BAND with DEBT = 8, N = 8 and ACC = 0 (and goes from there towards self-refresh where the pavilion is being drained); no event
is raised for it and PAV_REF_CNT.BAND does not count it. With an empty write buffer no cell of the DRAM and no other pavilion
changes. -/
def Obligations.PavilionResetStartsInBand : Prop :=
  ∀ (p : PavId) (s : State), (s.pav p).resetAsked = true → (s.pav p).gated = false → s.drainable p = true → ∃ t,
    exec (.pavilionReset p) s = .next (pumpAll t) ∧ (t.pav p).resetAsked = false ∧
    (∀ r < 4, t.rd (fldDebt p r) = 8 ∧ (t.rank p r).n = 8 ∧ (t.rank p r).acc = 0 ∧
      ((s.pav p).drain = .none_ ∨ (s.pav p).drain = .reset_ → (t.rank p r).st = .band)) ∧
    t.crossing = s.crossing ∧ t.rd (Fld.PAV_REF_CNT_BAND p) = 0 ∧ ((s.pav p).ents = [] → DramKept s t ∧ PavsKept s t p)

/-- O60. Into Hold and out of Sleep (R276, R315, R691 to R694, R696): PAVILION_DRAIN_DONE, SLEEP_EXIT_CLOCKS_RUN, WAKE_N_INPUT and
WAKE_N_DRIVE_END. -/
def Obligations.StackSleepsAndWakes : Prop :=
  ∀ s : State,
    (∀ p : PavId, (s.pav p).drain = .power → s.drainable p = true → ∃ v,
      exec (.pavilionDrainDone p) s = .next (quietStep (heldAll v)) ∧ (v.pav p).gated = true ∧ v.power = s.power ∧
      (∀ r < 4, v.rd (fldDebt p r) = 0 ∧ (v.rank p r).st = .self_ ∧ (v.rank p r).inSelf = true) ∧ PavsKept s v p ∧
      (s.power.trans = .draining false → (∀ q < 32, (v.pav q).gated = true) → (heldAll v).power? = psHold ∧
        (heldAll v).power.trans = .none_ ∧ (heldAll v).rd Fld.GLB_PWR_STAT_TRANS = 0) ∧
      (s.power.trans = .draining true → (∀ q < 32, (v.pav q).gated = true) → (heldAll v).power? = psSleep ∧
        (heldAll v).rd Fld.GLB_FW_STAT_READY = 0)) ∧
    (∀ on, s.power.trans = .waking on → s.power.refclk = true → ∃ u, exec .sleepExitClocksRun s = .next u ∧
      u.rd Fld.THM_STAT_BAND = 7 ∧ u.rd Fld.GLB_FW_STAT_READY = 0 ∧ u.rd Fld.GLB_PWR_STAT_TRANS = 0 ∧
      u.power.trans = .none_ ∧ u.rd Fld.GLB_PWR_STAT_WAKE_CAUSE = s.rd Fld.GLB_PWR_STAT_WAKE_CAUSE ∧
      u.power? = (if on then s.rd Fld.GLB_PWR_STAT_RETURN else psHold)) ∧
    (∀ on, s.power.trans = .waking on → s.power.refclk = false → exec .sleepExitClocksRun s = .next s) ∧
    -- the wake pin counts only when it is enabled, not driven by the stack, and not within 10 µs of its own drive
    (s.power.tapHold = false → s.on Fld.GLB_PWR_CTRL_WAKE_IN_EN = true → s.power.wakeDrive = none → s.power.wakeIgnore ≤ s.now →
      (s.power? = psHold → s.power.trans = .none_ → ∃ u, exec .wakeNInput s = .next u ∧
        u.power? = s.rd Fld.GLB_PWR_STAT_RETURN ∧ u.rd Fld.GLB_PWR_STAT_WAKE_CAUSE = 2) ∧
      (s.power? = psSleep → s.power.trans = .none_ → ∃ u, exec .wakeNInput s = .next u ∧ u.power.trans = .waking true ∧
        u.rd Fld.GLB_PWR_STAT_WAKE_CAUSE = 2 ∧ u.rd Fld.GLB_PWR_STAT_TRANS = 1 ∧ RegsKept s u [Off.GLB_PWR_STAT])) ∧
    (s.now < s.power.wakeIgnore ∨ s.on Fld.GLB_PWR_CTRL_WAKE_IN_EN = false ∨ s.power.wakeDrive.isSome = true →
      exec .wakeNInput s = .next s) ∧
    (∀ t, s.power.wakeDrive = some t → ∃ u, exec .wakeNDriveEnd s = .next u ∧ u.now = max s.now t ∧ u.power.wakeDrive = none ∧
      u.power.wakeIgnore = u.now + 10 * tUs ∧ u = { s with now := u.now, power := u.power })
end

