-- ==== Sys2Proof/Laws/Tab.lean ====
section
/-! SUPPORT. The laws of the sparse tables: what is read after a write, and the canonical form. -/
namespace Sys2Proof.Machine

theorem tabGet_tabErase_same {α : Type} (d : α) (t : Tab α) (i : Nat) : tabGet d (tabErase t i) i = d := by
  induction t with
  | nil => rfl
  | cons e t ih =>
    obtain ⟨k, v⟩ := e
    by_cases h : k = i
    · simp [tabErase, h, ih]
    · simp [tabErase, tabGet, h, ih]

theorem tabGet_tabErase_ne {α : Type} (d : α) (t : Tab α) {i j : Nat} (h : j ≠ i) :
    tabGet d (tabErase t i) j = tabGet d t j := by
  induction t with
  | nil => rfl
  | cons e t ih =>
    obtain ⟨k, v⟩ := e
    by_cases hk : k = i
    · subst hk
      simp [tabErase, tabGet, ih, Ne.symm h]
    · simp [tabErase, tabGet, hk, ih]

theorem tabGet_tabInsert_same {α : Type} (d : α) (t : Tab α) (i : Nat) (x : α) : tabGet d (tabInsert t i x) i = x := by
  induction t with
  | nil => simp [tabInsert, tabGet]
  | cons e t ih =>
    obtain ⟨k, v⟩ := e
    by_cases h1 : i < k
    · simp [tabInsert, tabGet, h1]
    · by_cases h2 : i = k
      · simp [tabInsert, tabGet, h2]
      · simp [tabInsert, tabGet, h1, h2, ih, Ne.symm h2]

theorem tabGet_tabInsert_ne {α : Type} (d : α) (t : Tab α) {i j : Nat} (x : α) (h : j ≠ i) :
    tabGet d (tabInsert t i x) j = tabGet d t j := by
  induction t with
  | nil => simp [tabInsert, tabGet, Ne.symm h]
  | cons e t ih =>
    obtain ⟨k, v⟩ := e
    by_cases h1 : i < k
    · simp [tabInsert, tabGet, h1, Ne.symm h]
    · by_cases h2 : i = k
      · subst h2
        simp [tabInsert, tabGet, Ne.symm h]
      · simp [tabInsert, tabGet, h1, h2, ih]

theorem tabSet_eq {α : Type} [DecidableEq α] (d : α) (t : Tab α) (i : Nat) (x : α) :
    tabSet d t i x = if x = d then tabErase t i else tabInsert t i x := by cases t <;> rfl

theorem tabGet_tabSet_same {α : Type} [DecidableEq α] (d : α) (t : Tab α) (i : Nat) (x : α) :
    tabGet d (tabSet d t i x) i = x := by
  rw [tabSet_eq]
  split
  · next h => simp [h, tabGet_tabErase_same]
  · exact tabGet_tabInsert_same d t i x

theorem tabGet_tabSet_ne {α : Type} [DecidableEq α] (d d' : α) (t : Tab α) {i j : Nat} (x : α) (h : j ≠ i) :
    tabGet d' (tabSet d t i x) j = tabGet d' t j := by
  rw [tabSet_eq]
  split
  · exact tabGet_tabErase_ne d' t h
  · exact tabGet_tabInsert_ne d' t x h

/-! ## The canonical form -/

theorem tabSortedFrom_mono {α : Type} (t : Tab α) {lo hi : Nat} (h : lo ≤ hi) (hs : tabSortedFrom hi t = true) :
    tabSortedFrom lo t = true := by
  cases t with
  | nil => rfl
  | cons e t =>
    obtain ⟨k, v⟩ := e
    simp only [tabSortedFrom, Bool.and_eq_true, decide_eq_true_eq] at hs ⊢
    exact ⟨Nat.le_trans h hs.1, hs.2⟩

theorem tabSortedFrom_tabErase {α : Type} (t : Tab α) (i lo : Nat) (hs : tabSortedFrom lo t = true) :
    tabSortedFrom lo (tabErase t i) = true := by
  induction t generalizing lo with
  | nil => rfl
  | cons e t ih =>
    obtain ⟨k, v⟩ := e
    simp only [tabSortedFrom, Bool.and_eq_true, decide_eq_true_eq] at hs
    by_cases hk : k = i
    · simp only [tabErase, hk, if_true]
      exact ih lo (tabSortedFrom_mono t (by omega) hs.2)
    · simp only [tabErase, hk, if_false, tabSortedFrom, Bool.and_eq_true, decide_eq_true_eq]
      exact ⟨hs.1, ih (k + 1) hs.2⟩

theorem tabSortedFrom_tabInsert {α : Type} (t : Tab α) (i lo : Nat) (x : α) (hl : lo ≤ i) (hs : tabSortedFrom lo t = true) :
    tabSortedFrom lo (tabInsert t i x) = true := by
  induction t generalizing lo with
  | nil => simp [tabInsert, tabSortedFrom, hl]
  | cons e t ih =>
    obtain ⟨k, v⟩ := e
    simp only [tabSortedFrom, Bool.and_eq_true, decide_eq_true_eq] at hs
    by_cases h1 : i < k
    · simp only [tabInsert, h1, if_true, tabSortedFrom, Bool.and_eq_true, decide_eq_true_eq]
      exact ⟨hl, by omega, hs.2⟩
    · by_cases h2 : i = k
      · subst h2
        simp only [tabInsert, h1, if_false, if_true, tabSortedFrom, Bool.and_eq_true, decide_eq_true_eq]
        exact ⟨hs.1, hs.2⟩
      · simp only [tabInsert, h1, h2, if_false, tabSortedFrom, Bool.and_eq_true, decide_eq_true_eq]
        exact ⟨hs.1, ih (k + 1) (by omega) hs.2⟩

theorem tabSortedFrom_tabSet {α : Type} [DecidableEq α] (d : α) (t : Tab α) (i : Nat) (x : α)
    (hs : tabSortedFrom 0 t = true) : tabSortedFrom 0 (tabSet d t i x) = true := by
  rw [tabSet_eq]
  split
  · exact tabSortedFrom_tabErase t i 0 hs
  · exact tabSortedFrom_tabInsert t i 0 x (Nat.zero_le i) hs

theorem tabSortedFrom_filter {α : Type} (t : Tab α) (f : Nat × α → Bool) (lo : Nat) (hs : tabSortedFrom lo t = true) :
    tabSortedFrom lo (t.filter f) = true := by
  induction t generalizing lo with
  | nil => rfl
  | cons e t ih =>
    obtain ⟨k, v⟩ := e
    simp only [tabSortedFrom, Bool.and_eq_true, decide_eq_true_eq] at hs
    by_cases hk : f (k, v) = true
    · simp only [List.filter_cons, hk, if_true, tabSortedFrom, Bool.and_eq_true, decide_eq_true_eq]
      exact ⟨hs.1, ih (k + 1) hs.2⟩
    · simp only [List.filter_cons, hk]
      exact ih lo (tabSortedFrom_mono t (by omega) hs.2)

theorem mem_tabErase {α : Type} (t : Tab α) (i : Nat) (e : Nat × α) (h : e ∈ tabErase t i) : e ∈ t := by
  induction t with
  | nil => exact h
  | cons a t ih =>
    obtain ⟨k, v⟩ := a
    by_cases hk : k = i
    · rw [tabErase, if_pos hk] at h
      exact List.mem_cons_of_mem _ (ih h)
    · rw [tabErase, if_neg hk] at h
      rcases List.mem_cons.mp h with h | h
      · exact h ▸ List.mem_cons_self
      · exact List.mem_cons_of_mem _ (ih h)

theorem mem_tabInsert {α : Type} (t : Tab α) (i : Nat) (x : α) (e : Nat × α) (h : e ∈ tabInsert t i x) :
    e = (i, x) ∨ e ∈ t := by
  induction t with
  | nil => simpa [tabInsert] using h
  | cons a t ih =>
    obtain ⟨k, v⟩ := a
    by_cases h1 : i < k
    · rw [tabInsert, if_pos h1] at h
      exact List.mem_cons.mp h
    · by_cases h2 : i = k
      · rw [tabInsert, if_neg h1, if_pos h2] at h
        rcases List.mem_cons.mp h with h | h
        · exact Or.inl h
        · exact Or.inr (List.mem_cons_of_mem _ h)
      · rw [tabInsert, if_neg h1, if_neg h2] at h
        rcases List.mem_cons.mp h with h | h
        · exact Or.inr (h ▸ List.mem_cons_self)
        · rcases ih h with h | h
          · exact Or.inl h
          · exact Or.inr (List.mem_cons_of_mem _ h)

/-- Writing keeps the canonical form: no entry equals what its key reads as unlisted. -/
theorem tabWf_tabSet {α : Type} [DecidableEq α] (d : Nat → α) (t : Tab α) (i : Nat) (x : α) (h : tabWf d t = true) :
    tabWf d (tabSet (d i) t i x) = true := by
  simp only [tabWf, Bool.and_eq_true, List.all_eq_true, decide_eq_true_eq] at h ⊢
  refine ⟨tabSortedFrom_tabSet (d i) t i x h.1, ?_⟩
  intro e he
  rw [tabSet_eq] at he
  split at he
  · exact h.2 e (mem_tabErase t i e he)
  · next hx =>
    rcases mem_tabInsert t i x e he with rfl | he
    · exact hx
    · exact h.2 e he

theorem tabWf_filter {α : Type} [DecidableEq α] (d : Nat → α) (t : Tab α) (f : Nat × α → Bool) (h : tabWf d t = true) :
    tabWf d (t.filter f) = true := by
  simp only [tabWf, Bool.and_eq_true, List.all_eq_true, decide_eq_true_eq] at h ⊢
  exact ⟨tabSortedFrom_filter t f 0 h.1, fun e he => h.2 e (List.mem_of_mem_filter he)⟩

end Sys2Proof.Machine
end

