-- ==== Sys2Proof/Laws/Keeps.lean ====
section
/-! SUPPORT. What every command keeps (Keeps of Safety.lean), for the ways in which states are built: the base for the lemmas
of the operations. -/
namespace Sys2Proof.Machine
open Sys2Proof

theorem Within.refl {w : Nat} (a : BitVec w) : Within a a := BitVec.and_self

theorem Within.trans {w : Nat} {a b c : BitVec w} (h : Within a b) (k : Within b c) : Within a c := by
  unfold Within at *
  rw [← h, BitVec.and_assoc, k]

theorem Within.or {w : Nat} (a b : BitVec w) : Within a (a ||| b) := by
  unfold Within
  ext i hi
  simp only [BitVec.getElem_and, BitVec.getElem_or]
  cases a[i] <;> simp

theorem FusesKept.refl (o : Otp) : FusesKept o o :=
  ⟨fun _ => .refl _, fun _ => .refl _, fun _ => .refl _, .refl _, .refl _, .refl _, .refl _⟩

theorem FusesKept.trans {a b c : Otp} (h : FusesKept a b) (k : FusesKept b c) : FusesKept a c :=
  ⟨fun w => (h.words w).trans (k.words w), fun w => (h.spares w).trans (k.spares w), fun w => (h.redir w).trans (k.redir w),
   h.df0.trans k.df0, h.df1.trans k.df1, h.df2.trans k.df2, h.arb.trans k.arb⟩

/-- An update of the OTP state that leaves the fuses. -/
theorem FusesKept.upd {a o : Otp} (h1 : o.words = a.words) (h2 : o.spares = a.spares) (h3 : o.redir = a.redir)
    (h4 : o.df0 = a.df0) (h5 : o.df1 = a.df1) (h6 : o.df2 = a.df2) (h7 : o.arb = a.arb) : FusesKept a o :=
  ⟨fun _ => h1 ▸ .refl _, fun _ => h2 ▸ .refl _, fun _ => h3 ▸ .refl _, h4 ▸ .refl _, h5 ▸ .refl _, h6 ▸ .refl _, h7 ▸ .refl _⟩

theorem Going.refl (s : State) : Going s s := ⟨rfl, Nat.le_refl _, Nat.le_refl _, id, .refl _⟩

theorem Keeps.refl (s : State) : Keeps s s := ⟨.refl s, rfl⟩

theorem Going.trans {x s t : State} (h : Going x s) (k : Going s t) : Going x t :=
  ⟨k.pending.trans h.pending, Nat.le_trans h.now k.now, Nat.le_trans h.free k.free, fun m => k.mem (h.mem m),
   h.fuses.trans k.fuses⟩

theorem Keeps.trans {x s t : State} (h : Keeps x s) (k : Keeps s t) : Keeps x t :=
  ⟨h.toGoing.trans k.toGoing, k.variant.trans h.variant⟩

/-- A state built from the fields of another that leaves the queue, the DRAM and the OTP state. -/
theorem Keeps.upd {x s : State} {f_pending f_now f_freeIdx f_epoch f_regs f_eff f_staged f_lastRead f_lastStatus f_dram f_ports f_lanes f_prom f_promRr f_sentAt f_nextId f_pavs f_tsvCmds f_cad f_therm f_crossing f_latches f_onceTurn f_mons f_monSnapMbx f_mbxs f_sram f_lastTaken f_staging f_stagingHigh f_switch f_fwDigest f_bulk f_bulkLast f_otp f_signing f_sb f_power f_test} (h : Keeps x s) (h1 : f_pending = s.pending)
    (h2 : s.now ≤ f_now) (h3 : s.freeIdx ≤ f_freeIdx) (h4 : f_dram = s.dram) (h5 : f_otp = s.otp) :
    Keeps x (State.mk f_pending f_now f_freeIdx f_epoch f_regs f_eff f_staged f_lastRead f_lastStatus f_dram f_ports f_lanes f_prom f_promRr f_sentAt f_nextId f_pavs f_tsvCmds f_cad f_therm f_crossing f_latches f_onceTurn f_mons f_monSnapMbx f_mbxs f_sram f_lastTaken f_staging f_stagingHigh f_switch f_fwDigest f_bulk f_bulkLast f_otp f_signing f_sb f_power f_test) :=
  ⟨⟨h1.trans h.pending, Nat.le_trans h.now h2, Nat.le_trans h.free h3, fun m => h4 ▸ h.mem m, h5 ▸ h.fuses⟩,
   h5 ▸ h.variant⟩

/-- A state built from the fields of another that changes the OTP state but for the fuses. -/
theorem Keeps.updOtp {x s : State} {f_pending f_now f_freeIdx f_epoch f_regs f_eff f_staged f_lastRead f_lastStatus f_dram f_ports f_lanes f_prom f_promRr f_sentAt f_nextId f_pavs f_tsvCmds f_cad f_therm f_crossing f_latches f_onceTurn f_mons f_monSnapMbx f_mbxs f_sram f_lastTaken f_staging f_stagingHigh f_switch f_fwDigest f_bulk f_bulkLast f_otp f_signing f_sb f_power f_test} (h : Keeps x s) (h1 : f_pending = s.pending) (h2 : s.now ≤ f_now)
    (h3 : s.freeIdx ≤ f_freeIdx) (h4 : f_dram = s.dram) (h5 : FusesKept s.otp f_otp) (h6 : f_otp.latDf = s.otp.latDf) :
    Keeps x (State.mk f_pending f_now f_freeIdx f_epoch f_regs f_eff f_staged f_lastRead f_lastStatus f_dram f_ports f_lanes f_prom f_promRr f_sentAt f_nextId f_pavs f_tsvCmds f_cad f_therm f_crossing f_latches f_onceTurn f_mons f_monSnapMbx f_mbxs f_sram f_lastTaken f_staging f_stagingHigh f_switch f_fwDigest f_bulk f_bulkLast f_otp f_signing f_sb f_power f_test) :=
  ⟨⟨h1.trans h.pending, Nat.le_trans h.now h2, Nat.le_trans h.free h3, fun m => h4 ▸ h.mem m, h.fuses.trans h5⟩, h6.trans h.variant⟩

/-- A state built from the fields of another that changes the DRAM. -/
theorem Keeps.updDram {x s : State} {f_pending f_now f_freeIdx f_epoch f_regs f_eff f_staged f_lastRead f_lastStatus f_dram f_ports f_lanes f_prom f_promRr f_sentAt f_nextId f_pavs f_tsvCmds f_cad f_therm f_crossing f_latches f_onceTurn f_mons f_monSnapMbx f_mbxs f_sram f_lastTaken f_staging f_stagingHigh f_switch f_fwDigest f_bulk f_bulkLast f_otp f_signing f_sb f_power f_test} (h : Keeps x s) (h1 : f_pending = s.pending) (h2 : f_now = s.now)
    (h3 : f_freeIdx = s.freeIdx) (h4 : Memory.wf s.dram = true → Memory.wf f_dram = true) (h5 : f_otp = s.otp) :
    Keeps x (State.mk f_pending f_now f_freeIdx f_epoch f_regs f_eff f_staged f_lastRead f_lastStatus f_dram f_ports f_lanes f_prom f_promRr f_sentAt f_nextId f_pavs f_tsvCmds f_cad f_therm f_crossing f_latches f_onceTurn f_mons f_monSnapMbx f_mbxs f_sram f_lastTaken f_staging f_stagingHigh f_switch f_fwDigest f_bulk f_bulkLast f_otp f_signing f_sb f_power f_test) :=
  ⟨⟨h1.trans h.pending, h2 ▸ h.now, h3 ▸ h.free, fun m => h4 (h.mem m), h5 ▸ h.fuses⟩, h5 ▸ h.variant⟩

theorem Keeps.ite {x a b : State} {c : Prop} [Decidable c] (ha : Keeps x a) (hb : Keeps x b) :
    Keeps x (if c then a else b) := by split <;> assumption

theorem Keeps.foldl {α : Type} {x s : State} {f : State → α → State} (l : List α) (h : Keeps x s)
    (hf : ∀ a e, Keeps x a → Keeps x (f a e)) : Keeps x (l.foldl f s) := by
  induction l generalizing s with
  | nil => exact h
  | cons e l ih => exact ih (hf s e h)

theorem Keeps.foldlFst {α β : Type} {x : State} {f : State × β → α → State × β} (l : List α) {p : State × β} (h : Keeps x p.1)
    (hf : ∀ a e, Keeps x a.1 → Keeps x (f a e).1) : Keeps x (l.foldl f p).1 := by
  induction l generalizing p with
  | nil => exact h
  | cons e l ih => exact ih (hf p e h)

theorem Keeps.foldlSnd {α β : Type} {x : State} {f : β × State → α → β × State} (l : List α) {p : β × State} (h : Keeps x p.2)
    (hf : ∀ a e, Keeps x a.2 → Keeps x (f a e).2) : Keeps x (l.foldl f p).2 := by
  induction l generalizing p with
  | nil => exact h
  | cons e l ih => exact ih (hf p e h)

theorem Keeps.forUpto {x s : State} {f : Nat → State → State} (n : Nat) (h : Keeps x s)
    (hf : ∀ i a, Keeps x a → Keeps x (f i a)) : Keeps x (forUpto n f s) :=
  Keeps.foldl _ h (fun a e k => hf e a k)

theorem OutKeeps.next {x t : State} (h : Keeps x t) : OutKeeps x (.next t) := by
  intro u e
  cases e
  exact h

theorem OutKeeps.ite {x : State} {a b : Out} {c : Prop} [Decidable c] (ha : OutKeeps x a) (hb : OutKeeps x b) :
    OutKeeps x (if c then a else b) := by split <;> assumption

/-- The state beside a value. -/
theorem Keeps.snd {α : Type} {x b : State} {a : α} {p : α × State} (e : p = (a, b)) (h : Keeps x p.2) : Keeps x b := by
  rw [e] at h; exact h

theorem Keeps.fst {α : Type} {x b : State} {a : α} {p : State × α} (e : p = (b, a)) (h : Keeps x p.1) : Keeps x b := by
  rw [e] at h; exact h

/-! ## The cells (R347) -/

theorem memPut_wf {m : List Host.Cell} (a : Nat) (v : Byte) (h : Memory.wf m = true) : Memory.wf (memPut m a v) = true :=
  tabSortedFrom_tabInsert m a 0 v (Nat.zero_le _) h

theorem putCells_wf (bs : List Byte) (a : Nat) {m : List Host.Cell} (h : Memory.wf m = true) :
    Memory.wf (putCells a bs m) = true := by
  induction bs generalizing a m with
  | nil => exact h
  | cons b t ih => exact ih _ (memPut_wf _ _ h)

/-- A byte reads as it was written. -/
theorem memFind_memPut_same (m : List Host.Cell) (a : Nat) (v : Byte) : memFind (memPut m a v) a = some v := by
  induction m with
  | nil => simp [memPut, tabInsert, memFind]
  | cons e t ih =>
    obtain ⟨k, w⟩ := e
    by_cases h1 : a < k
    · simp [memPut, tabInsert, memFind, h1]
    · by_cases h2 : a = k
      · simp [memPut, tabInsert, memFind, h2]
      · have := ih
        simp [memPut, tabInsert, memFind, h1, h2, Ne.symm h2] at this ⊢
        exact this

/-- Every other byte reads as before. -/
theorem memFind_memPut_ne (m : List Host.Cell) {a b : Nat} (v : Byte) (h : b ≠ a) : memFind (memPut m a v) b = memFind m b := by
  induction m with
  | nil => simp [memPut, tabInsert, memFind, Ne.symm h]
  | cons e t ih =>
    obtain ⟨k, w⟩ := e
    by_cases h1 : a < k
    · simp [memPut, tabInsert, memFind, h1, Ne.symm h]
    · by_cases h2 : a = k
      · subst h2
        simp [memPut, tabInsert, memFind, Ne.symm h]
      · have := ih
        simp only [memPut, tabInsert, h1, h2, if_false] at this ⊢
        simp only [memFind, this]

end Sys2Proof.Machine
end

