-- ==== Sys2Proof/Laws/KeepsOps.lean ====
section
/-! SUPPORT. What the operations of Machine/Ops.lean keep (Keeps of Safety.lean). -/
namespace Sys2Proof.Machine
open Sys2Proof

set_option linter.all false

theorem State.atLeast_keeps {x0 : State} {s : State} (t : ℕ) (hk : Keeps x0 s) : Keeps x0 (State.atLeast s t) := by
  unfold State.atLeast
  try dsimp only
  repeat' with_reducible first
    | exact hk
    | assumption
    | (fail_if_no_progress refine Keeps.upd ?_ rfl (by first | exact le_refl _ | exact le_max_left _ _ | exact Nat.le_succ _) (by first | exact le_refl _ | exact Nat.le_succ _) rfl rfl)
    | dsimp only

theorem State.setReg_keeps {x0 : State} {s : State} (off : ℕ) (v : Reg32) (hk : Keeps x0 s) : Keeps x0 (State.setReg s off v) := by
  unfold State.setReg
  try dsimp only
  repeat' with_reducible first
    | exact hk
    | assumption
    | (fail_if_no_progress refine Keeps.upd ?_ rfl (by first | exact le_refl _ | exact le_max_left _ _ | exact Nat.le_succ _) (by first | exact le_refl _ | exact Nat.le_succ _) rfl rfl)
    | dsimp only

theorem State.wr_keeps {x0 : State} {s : State} (f : Fld) (v : ℕ) (hk : Keeps x0 s) : Keeps x0 (State.wr s f v) := by
  unfold State.wr
  try dsimp only
  repeat' with_reducible first
    | exact hk
    | assumption
    | apply State.setReg_keeps
    | dsimp only

theorem State.sat_keeps {x0 : State} {s : State} (f : Fld) (n : ℕ) (hk : Keeps x0 s) : Keeps x0 (State.sat s f n) := by
  unfold State.sat
  try dsimp only
  repeat' with_reducible first
    | exact hk
    | assumption
    | apply State.wr_keeps
    | dsimp only

theorem State.resetRegs_keeps {x0 : State} {s : State} (lo : ℕ) (hi : ℕ) (hk : Keeps x0 s) : Keeps x0 (State.resetRegs s lo hi) := by
  unfold State.resetRegs
  try dsimp only
  repeat' with_reducible first
    | exact hk
    | assumption
    | (fail_if_no_progress refine Keeps.upd ?_ rfl (by first | exact le_refl _ | exact le_max_left _ _ | exact Nat.le_succ _) (by first | exact le_refl _ | exact Nat.le_succ _) rfl rfl)
    | dsimp only

theorem State.setPort_keeps {x0 : State} {s : State} (n : ℕ) (p : Port) (hk : Keeps x0 s) : Keeps x0 (State.setPort s n p) := by
  unfold State.setPort
  try dsimp only
  repeat' with_reducible first
    | exact hk
    | assumption
    | (fail_if_no_progress refine Keeps.upd ?_ rfl (by first | exact le_refl _ | exact le_max_left _ _ | exact Nat.le_succ _) (by first | exact le_refl _ | exact Nat.le_succ _) rfl rfl)
    | dsimp only

theorem State.modPort_keeps {x0 : State} {s : State} (n : ℕ) (f : Port → Port) (hk : Keeps x0 s) : Keeps x0 (State.modPort s n f) := by
  unfold State.modPort
  try dsimp only
  repeat' with_reducible first
    | exact hk
    | assumption
    | apply State.setPort_keeps
    | dsimp only

theorem State.setLane_keeps {x0 : State} {s : State} (n : ℕ) (p : ℕ) (l : Lane) (hk : Keeps x0 s) : Keeps x0 (State.setLane s n p l) := by
  unfold State.setLane
  try dsimp only
  repeat' with_reducible first
    | exact hk
    | assumption
    | (fail_if_no_progress refine Keeps.upd ?_ rfl (by first | exact le_refl _ | exact le_max_left _ _ | exact Nat.le_succ _) (by first | exact le_refl _ | exact Nat.le_succ _) rfl rfl)
    | dsimp only

theorem State.modLane_keeps {x0 : State} {s : State} (n : ℕ) (p : ℕ) (f : Lane → Lane) (hk : Keeps x0 s) : Keeps x0 (State.modLane s n p f) := by
  unfold State.modLane
  try dsimp only
  repeat' with_reducible first
    | exact hk
    | assumption
    | apply State.setLane_keeps
    | dsimp only

theorem State.setPav_keeps {x0 : State} {s : State} (p : ℕ) (v : Pav) (hk : Keeps x0 s) : Keeps x0 (State.setPav s p v) := by
  unfold State.setPav
  try dsimp only
  repeat' with_reducible first
    | exact hk
    | assumption
    | (fail_if_no_progress refine Keeps.upd ?_ rfl (by first | exact le_refl _ | exact le_max_left _ _ | exact Nat.le_succ _) (by first | exact le_refl _ | exact Nat.le_succ _) rfl rfl)
    | dsimp only

theorem State.modPav_keeps {x0 : State} {s : State} (p : ℕ) (f : Pav → Pav) (hk : Keeps x0 s) : Keeps x0 (State.modPav s p f) := by
  unfold State.modPav
  try dsimp only
  repeat' with_reducible first
    | exact hk
    | assumption
    | apply State.setPav_keeps
    | dsimp only

theorem State.setMbx_keeps {x0 : State} {s : State} (m : ℕ) (b : Mbx) (hk : Keeps x0 s) : Keeps x0 (State.setMbx s m b) := by
  unfold State.setMbx
  try dsimp only
  repeat' with_reducible first
    | exact hk
    | assumption
    | (fail_if_no_progress refine Keeps.upd ?_ rfl (by first | exact le_refl _ | exact le_max_left _ _ | exact Nat.le_succ _) (by first | exact le_refl _ | exact Nat.le_succ _) rfl rfl)
    | dsimp only

theorem State.modMbx_keeps {x0 : State} {s : State} (m : ℕ) (f : Mbx → Mbx) (hk : Keeps x0 s) : Keeps x0 (State.modMbx s m f) := by
  unfold State.modMbx
  try dsimp only
  repeat' with_reducible first
    | exact hk
    | assumption
    | apply State.setMbx_keeps
    | dsimp only

theorem State.setMon_keeps {x0 : State} {s : State} (u : ℕ) (b : Mon) (hk : Keeps x0 s) : Keeps x0 (State.setMon s u b) := by
  unfold State.setMon
  try dsimp only
  repeat' with_reducible first
    | exact hk
    | assumption
    | (fail_if_no_progress refine Keeps.upd ?_ rfl (by first | exact le_refl _ | exact le_max_left _ _ | exact Nat.le_succ _) (by first | exact le_refl _ | exact Nat.le_succ _) rfl rfl)
    | dsimp only

theorem State.modMon_keeps {x0 : State} {s : State} (u : ℕ) (f : Mon → Mon) (hk : Keeps x0 s) : Keeps x0 (State.modMon s u f) := by
  unfold State.modMon
  try dsimp only
  repeat' with_reducible first
    | exact hk
    | assumption
    | apply State.setMon_keeps
    | dsimp only

theorem State.drawEntropy_keeps {x0 : State} {s : State} (hk : Keeps x0 s) : Keeps x0 (State.drawEntropy s).2 := by
  unfold State.drawEntropy
  try dsimp only
  repeat' with_reducible first
    | exact hk
    | assumption
    | (refine Keeps.foldlFst _ ?_ (fun a e k => ?_))
    | (refine Keeps.foldlSnd _ ?_ (fun a e k => ?_))
    | (fail_if_no_progress refine Keeps.upd ?_ rfl (by first | exact le_refl _ | exact le_max_left _ _ | exact Nat.le_succ _) (by first | exact le_refl _ | exact Nat.le_succ _) rfl rfl)
    | dsimp only

theorem State.drawFree_keeps {x0 : State} {s : State} (hk : Keeps x0 s) : Keeps x0 (State.drawFree s).2 := by
  unfold State.drawFree
  try dsimp only
  repeat' with_reducible first
    | exact hk
    | assumption
    | (refine Keeps.foldlFst _ ?_ (fun a e k => ?_))
    | (refine Keeps.foldlSnd _ ?_ (fun a e k => ?_))
    | (fail_if_no_progress refine Keeps.upd ?_ rfl (by first | exact le_refl _ | exact le_max_left _ _ | exact Nat.le_succ _) (by first | exact le_refl _ | exact Nat.le_succ _) rfl rfl)
    | dsimp only

theorem State.raise_keeps {x0 : State} {s : State} (ev : ℕ) (detail : ℕ) (hk : Keeps x0 s) : Keeps x0 (State.raise s ev detail) := by
  unfold State.raise
  try dsimp only
  repeat' with_reducible first
    | exact hk
    | assumption
    | apply Keeps.ite
    | (fail_if_no_progress refine Keeps.upd ?_ rfl (by first | exact le_refl _ | exact le_max_left _ _ | exact Nat.le_succ _) (by first | exact le_refl _ | exact Nat.le_succ _) rfl rfl)
    | split
    | dsimp only

theorem State.raiseOnce_keeps {x0 : State} {s : State} (ev : ℕ) (detail : ℕ) (hk : Keeps x0 s) : Keeps x0 (State.raiseOnce s ev detail) := by
  unfold State.raiseOnce
  try dsimp only
  repeat' with_reducible first
    | exact hk
    | assumption
    | apply State.raise_keeps
    | apply Keeps.ite
    | (fail_if_no_progress refine Keeps.upd ?_ rfl (by first | exact le_refl _ | exact le_max_left _ _ | exact Nat.le_succ _) (by first | exact le_refl _ | exact Nat.le_succ _) rfl rfl)
    | split
    | dsimp only

theorem State.finish_keeps {x0 : State} {s : State} (m : ℕ) (code : ℕ) (payload : List Byte) (hk : Keeps x0 s) : Keeps x0 (State.finish s m code payload) := by
  unfold State.finish
  try dsimp only
  repeat' with_reducible first
    | exact hk
    | assumption
    | apply State.setMbx_keeps
    | apply Keeps.ite
    | (fail_if_no_progress refine Keeps.upd ?_ rfl (by first | exact le_refl _ | exact le_max_left _ _ | exact Nat.le_succ _) (by first | exact le_refl _ | exact Nat.le_succ _) rfl rfl)
    | split
    | dsimp only

theorem State.refuse_keeps {x0 : State} {s : State} (m : ℕ) (code : ℕ) (param : ℕ) (hk : Keeps x0 s) : Keeps x0 (State.refuse s m code param) := by
  unfold State.refuse
  try dsimp only
  repeat' with_reducible first
    | exact hk
    | assumption
    | apply State.modMbx_keeps
    | apply Keeps.ite
    | (fail_if_no_progress refine Keeps.upd ?_ rfl (by first | exact le_refl _ | exact le_max_left _ _ | exact Nat.le_succ _) (by first | exact le_refl _ | exact Nat.le_succ _) rfl rfl)
    | split
    | dsimp only

theorem State.badByte_keeps {x0 : State} {s : State} (m : ℕ) (k : ℕ) (hk : Keeps x0 s) : Keeps x0 (State.badByte s m k) := by
  unfold State.badByte
  try dsimp only
  repeat' with_reducible first
    | exact hk
    | assumption
    | apply State.refuse_keeps
    | dsimp only

theorem sramClear_keeps {x0 : State} (m : ℕ) (lo : ℕ) (hi : ℕ) {s : State} (hk : Keeps x0 s) : Keeps x0 (sramClear m lo hi s) := by
  unfold sramClear
  try dsimp only
  repeat' with_reducible first
    | exact hk
    | assumption
    | (fail_if_no_progress refine Keeps.upd ?_ rfl (by first | exact le_refl _ | exact le_max_left _ _ | exact Nat.le_succ _) (by first | exact le_refl _ | exact Nat.le_succ _) rfl rfl)
    | dsimp only

theorem sramMeets_keeps {x0 : State} (m : ℕ) (w : ℕ) {s : State} (hk : Keeps x0 s) : Keeps x0 (sramMeets m w s).2 := by
  unfold sramMeets
  try dsimp only
  repeat' with_reducible first
    | exact hk
    | assumption
    | apply State.raise_keeps
    | apply State.sat_keeps
    | apply State.raiseOnce_keeps
    | (refine Keeps.foldlFst _ ?_ (fun a e k => ?_))
    | (refine Keeps.foldlSnd _ ?_ (fun a e k => ?_))
    | (fail_if_no_progress refine Keeps.upd ?_ rfl (by first | exact le_refl _ | exact le_max_left _ _ | exact Nat.le_succ _) (by first | exact le_refl _ | exact Nat.le_succ _) rfl rfl)
    | split
    | dsimp only

end Sys2Proof.Machine
end

