-- ==== Sys2Proof/Laws/KeepsLink.lean ====
section
/-! SUPPORT. What the operations of Machine/Link.lean keep (Keeps of Safety.lean). -/
namespace Sys2Proof.Machine
open Sys2Proof

set_option linter.all false

theorem State.setLink_keeps {x0 : State} {s : State} (n : ℕ) (st : ℕ) (hk : Keeps x0 s) : Keeps x0 (State.setLink s n st) := by
  unfold State.setLink
  try dsimp only
  repeat' with_reducible first
    | exact hk
    | assumption
    | apply State.wr_keeps
    | dsimp only

theorem State.modTrain_keeps {x0 : State} {s : State} (n : ℕ) (f : Train → Train) (hk : Keeps x0 s) : Keeps x0 (State.modTrain s n f) := by
  unfold State.modTrain
  try dsimp only
  repeat' with_reducible first
    | exact hk
    | assumption
    | apply State.modPort_keeps
    | (fail_if_no_progress refine Keeps.upd ?_ rfl (by first | exact le_refl _ | exact le_max_left _ _ | exact Nat.le_succ _) (by first | exact le_refl _ | exact Nat.le_succ _) rfl rfl)
    | dsimp only

theorem State.modRetry_keeps {x0 : State} {s : State} (n : ℕ) (f : Retry → Retry) (hk : Keeps x0 s) : Keeps x0 (State.modRetry s n f) := by
  unfold State.modRetry
  try dsimp only
  repeat' with_reducible first
    | exact hk
    | assumption
    | apply State.modPort_keeps
    | (fail_if_no_progress refine Keeps.upd ?_ rfl (by first | exact le_refl _ | exact le_max_left _ _ | exact Nat.le_succ _) (by first | exact le_refl _ | exact Nat.le_succ _) rfl rfl)
    | dsimp only

theorem State.modCredit_keeps {x0 : State} {s : State} (n : ℕ) (f : Credit → Credit) (hk : Keeps x0 s) : Keeps x0 (State.modCredit s n f) := by
  unfold State.modCredit
  try dsimp only
  repeat' with_reducible first
    | exact hk
    | assumption
    | apply State.modPort_keeps
    | (fail_if_no_progress refine Keeps.upd ?_ rfl (by first | exact le_refl _ | exact le_max_left _ _ | exact Nat.le_succ _) (by first | exact le_refl _ | exact Nat.le_succ _) rfl rfl)
    | dsimp only

theorem adaptRx_keeps {x0 : State} (n : ℕ) (p : ℕ) {s : State} (hk : Keeps x0 s) : Keeps x0 (adaptRx n p s) := by
  unfold adaptRx
  try dsimp only [State.drawFree, State.drawEntropy]
  repeat' with_reducible first
    | exact hk
    | assumption
    | (refine Keeps.snd (p := State.drawFree _) (by assumption) ?_)
    | apply State.drawFree_keeps
    | apply State.setReg_keeps
    | (fail_if_no_progress refine Keeps.upd ?_ rfl (by first | exact le_refl _ | exact le_max_left _ _ | exact Nat.le_succ _) (by first | exact le_refl _ | exact Nat.le_succ _) rfl rfl)
    | dsimp only

theorem injectBits_keeps {x0 : State} (n : ℕ) (p : ℕ) (k : ℕ) {s : State} (hk : Keeps x0 s) : Keeps x0 (injectBits n p k s) := by
  unfold injectBits
  try dsimp only
  repeat' with_reducible first
    | exact hk
    | assumption
    | apply State.modLane_keeps
    | apply State.modPort_keeps
    | apply Keeps.ite
    | (fail_if_no_progress refine Keeps.upd ?_ rfl (by first | exact le_refl _ | exact le_max_left _ _ | exact Nat.le_succ _) (by first | exact le_refl _ | exact Nat.le_succ _) rfl rfl)
    | split
    | dsimp only

theorem injectLane_keeps {x0 : State} (n : ℕ) (p : ℕ) {s : State} (hk : Keeps x0 s) : Keeps x0 (injectLane n p s) := by
  unfold injectLane
  try dsimp only
  repeat' with_reducible first
    | exact hk
    | assumption
    | apply State.modLane_keeps
    | apply injectBits_keeps
    | apply Keeps.ite
    | (fail_if_no_progress refine Keeps.upd ?_ rfl (by first | exact le_refl _ | exact le_max_left _ _ | exact Nat.le_succ _) (by first | exact le_refl _ | exact Nat.le_succ _) rfl rfl)
    | split
    | dsimp only

theorem injectEnd_keeps {x0 : State} (n : ℕ) {s : State} (hk : Keeps x0 s) : Keeps x0 (injectEnd n s) := by
  unfold injectEnd
  try dsimp only
  repeat' with_reducible first
    | exact hk
    | assumption
    | apply State.wr_keeps
    | apply Keeps.ite
    | split
    | dsimp only

theorem freshWindow_keeps {x0 : State} (n : ℕ) (p : ℕ) {s : State} (hk : Keeps x0 s) : Keeps x0 (freshWindow n p s) := by
  unfold freshWindow
  try dsimp only
  repeat' with_reducible first
    | exact hk
    | assumption
    | apply State.modLane_keeps
    | (fail_if_no_progress refine Keeps.upd ?_ rfl (by first | exact le_refl _ | exact le_max_left _ _ | exact Nat.le_succ _) (by first | exact le_refl _ | exact Nat.le_succ _) rfl rfl)
    | dsimp only

theorem prbsUnlock_keeps {x0 : State} (n : ℕ) (p : ℕ) {s : State} (hk : Keeps x0 s) : Keeps x0 (prbsUnlock n p s) := by
  unfold prbsUnlock
  try dsimp only
  repeat' with_reducible first
    | exact hk
    | assumption
    | apply State.wr_keeps
    | apply State.modLane_keeps
    | (fail_if_no_progress refine Keeps.upd ?_ rfl (by first | exact le_refl _ | exact le_max_left _ _ | exact Nat.le_succ _) (by first | exact le_refl _ | exact Nat.le_succ _) rfl rfl)
    | dsimp only

theorem prbsSync_keeps {x0 : State} (n : ℕ) (p : ℕ) {s : State} (hk : Keeps x0 s) : Keeps x0 (prbsSync n p s) := by
  unfold prbsSync
  try dsimp only
  repeat' with_reducible first
    | exact hk
    | assumption
    | apply State.modLane_keeps
    | apply prbsUnlock_keeps
    | apply Keeps.ite
    | (fail_if_no_progress refine Keeps.upd ?_ rfl (by first | exact le_refl _ | exact le_max_left _ _ | exact Nat.le_succ _) (by first | exact le_refl _ | exact Nat.le_succ _) rfl rfl)
    | split
    | dsimp only

theorem laneTo_keeps {x0 : State} (n : ℕ) (p : ℕ) (st : ℕ) {s : State} (hk : Keeps x0 s) : Keeps x0 (laneTo n p st s) := by
  unfold laneTo
  try dsimp only
  repeat' with_reducible first
    | exact hk
    | assumption
    | apply adaptRx_keeps
    | apply State.wr_keeps
    | apply State.modLane_keeps
    | apply freshWindow_keeps
    | apply injectEnd_keeps
    | apply injectLane_keeps
    | apply prbsSync_keeps
    | apply Keeps.ite
    | (fail_if_no_progress refine Keeps.upd ?_ rfl (by first | exact le_refl _ | exact le_max_left _ _ | exact Nat.le_succ _) (by first | exact le_refl _ | exact Nat.le_succ _) rfl rfl)
    | split
    | dsimp only

theorem lanesTo_keeps {x0 : State} (n : ℕ) (mask : ℕ) (st : ℕ) {s : State} (hk : Keeps x0 s) : Keeps x0 (lanesTo n mask st s) := by
  unfold lanesTo
  try dsimp only
  repeat' with_reducible first
    | exact hk
    | assumption
    | apply laneTo_keeps
    | apply Keeps.ite
    | (refine Keeps.forUpto _ ?_ (fun i a k => ?_))
    | split
    | dsimp only

theorem setEdge_keeps {x0 : State} (n : ℕ) (p : ℕ) {s : State} (hk : Keeps x0 s) : Keeps x0 (setEdge n p s) := by
  unfold setEdge
  try dsimp only
  repeat' with_reducible first
    | exact hk
    | assumption
    | apply State.wr_keeps
    | apply Keeps.ite
    | split
    | dsimp only

theorem setRate_keeps {x0 : State} (n : ℕ) (code : ℕ) {s : State} (hk : Keeps x0 s) : Keeps x0 (setRate n code s) := by
  unfold setRate
  try dsimp only
  repeat' with_reducible first
    | exact hk
    | assumption
    | apply State.modLane_keeps
    | apply setEdge_keeps
    | apply State.wr_keeps
    | (refine Keeps.forUpto _ ?_ (fun i a k => ?_))
    | (fail_if_no_progress refine Keeps.upd ?_ rfl (by first | exact le_refl _ | exact le_max_left _ _ | exact Nat.le_succ _) (by first | exact le_refl _ | exact Nat.le_succ _) rfl rfl)
    | split
    | dsimp only

theorem protoError_keeps {x0 : State} (n : ℕ) {s : State} (hk : Keeps x0 s) : Keeps x0 (protoError n s) := by
  unfold protoError
  try dsimp only
  repeat' with_reducible first
    | exact hk
    | assumption
    | apply State.sat_keeps
    | apply State.raise_keeps
    | dsimp only

theorem cadSeek_keeps {x0 : State} (cause : ℕ) {s : State} (hk : Keeps x0 s) : Keeps x0 (cadSeek cause s) := by
  unfold cadSeek
  try dsimp only
  repeat' with_reducible first
    | exact hk
    | assumption
    | apply State.wr_keeps
    | apply State.raise_keeps
    | apply State.sat_keeps
    | apply Keeps.ite
    | (fail_if_no_progress refine Keeps.upd ?_ rfl (by first | exact le_refl _ | exact le_max_left _ _ | exact Nat.le_succ _) (by first | exact le_refl _ | exact Nat.le_succ _) rfl rfl)
    | split
    | dsimp only

theorem changesDue_keeps {x0 : State} (n : ℕ) (sent : After) {s : State} (hk : Keeps x0 s) : Keeps x0 (changesDue n sent s) := by
  unfold changesDue
  try dsimp only
  repeat' with_reducible first
    | exact hk
    | assumption
    | apply State.modPort_keeps
    | apply Keeps.ite
    | (fail_if_no_progress refine Keeps.upd ?_ rfl (by first | exact le_refl _ | exact le_max_left _ _ | exact Nat.le_succ _) (by first | exact le_refl _ | exact Nat.le_succ _) rfl rfl)
    | split
    | dsimp only

theorem touch_keeps {x0 : State} (n : ℕ) {s : State} (hk : Keeps x0 s) : Keeps x0 (touch n s) := by
  unfold touch
  try dsimp only
  repeat' with_reducible first
    | exact hk
    | assumption
    | apply State.modPort_keeps
    | (fail_if_no_progress refine Keeps.upd ?_ rfl (by first | exact le_refl _ | exact le_max_left _ _ | exact Nat.le_succ _) (by first | exact le_refl _ | exact Nat.le_succ _) rfl rfl)
    | dsimp only

theorem sendFlit_keeps {x0 : State} (n : ℕ) (ty : ℕ) (slots : List (BitVec 80)) (data : Option Line) {s : State} (hk : Keeps x0 s) : Keeps x0 (sendFlit n ty slots data s) := by
  unfold sendFlit
  try dsimp only
  repeat' with_reducible first
    | exact hk
    | assumption
    | apply State.modPort_keeps
    | apply State.wr_keeps
    | apply Keeps.ite
    | (fail_if_no_progress refine Keeps.upd ?_ rfl (by first | exact le_refl _ | exact le_max_left _ _ | exact Nat.le_succ _) (by first | exact le_refl _ | exact Nat.le_succ _) rfl rfl)
    | split
    | dsimp only

theorem sendControl_keeps {x0 : State} (n : ℕ) (slots : List (BitVec 80)) {s : State} (hk : Keeps x0 s) : Keeps x0 (sendControl n slots s) := by
  unfold sendControl
  try dsimp only
  repeat' with_reducible first
    | exact hk
    | assumption
    | apply sendFlit_keeps
    | dsimp only

theorem sendPlain_keeps {x0 : State} (n : ℕ) (f : Flit) {s : State} (hk : Keeps x0 s) : Keeps x0 (sendPlain n f s) := by
  unfold sendPlain
  try dsimp only
  repeat' with_reducible first
    | exact hk
    | assumption
    | apply State.modPort_keeps
    | (fail_if_no_progress refine Keeps.upd ?_ rfl (by first | exact le_refl _ | exact le_max_left _ _ | exact Nat.le_succ _) (by first | exact le_refl _ | exact Nat.le_succ _) rfl rfl)
    | dsimp only

theorem sendAck_keeps {x0 : State} (n : ℕ) {s : State} (hk : Keeps x0 s) : Keeps x0 (sendAck n s) := by
  unfold sendAck
  try dsimp only
  repeat' with_reducible first
    | exact hk
    | assumption
    | apply State.modRetry_keeps
    | apply sendPlain_keeps
    | (fail_if_no_progress refine Keeps.upd ?_ rfl (by first | exact le_refl _ | exact le_max_left _ _ | exact Nat.le_succ _) (by first | exact le_refl _ | exact Nat.le_succ _) rfl rfl)
    | dsimp only

theorem requestReplay_keeps {x0 : State} (n : ℕ) {s : State} (hk : Keeps x0 s) : Keeps x0 (requestReplay n s) := by
  unfold requestReplay
  try dsimp only
  repeat' with_reducible first
    | exact hk
    | assumption
    | apply State.sat_keeps
    | apply sendPlain_keeps
    | apply State.modRetry_keeps
    | apply Keeps.ite
    | (fail_if_no_progress refine Keeps.upd ?_ rfl (by first | exact le_refl _ | exact le_max_left _ _ | exact Nat.le_succ _) (by first | exact le_refl _ | exact Nat.le_succ _) rfl rfl)
    | split
    | dsimp only

theorem resend_keeps {x0 : State} (n : ℕ) {s : State} (hk : Keeps x0 s) : Keeps x0 (resend n s) := by
  unfold resend
  try dsimp only
  repeat' with_reducible first
    | exact hk
    | assumption
    | apply State.modPort_keeps
    | apply Keeps.ite
    | (fail_if_no_progress refine Keeps.upd ?_ rfl (by first | exact le_refl _ | exact le_max_left _ _ | exact Nat.le_succ _) (by first | exact le_refl _ | exact Nat.le_succ _) rfl rfl)
    | split
    | dsimp only

theorem useTx_keeps {x0 : State} (n : ℕ) (tc : ℕ) (kind : ℕ) (k : ℕ) {s : State} (hk : Keeps x0 s) : Keeps x0 (useTx n tc kind k s) := by
  unfold useTx
  try dsimp only
  repeat' with_reducible first
    | exact hk
    | assumption
    | apply State.wr_keeps
    | apply Keeps.ite
    | split
    | dsimp only

theorem stallOn_keeps {x0 : State} (n : ℕ) (tc : ℕ) (kind : ℕ) {s : State} (hk : Keeps x0 s) : Keeps x0 (stallOn n tc kind s) := by
  unfold stallOn
  try dsimp only
  repeat' with_reducible first
    | exact hk
    | assumption
    | apply State.modCredit_keeps
    | apply Keeps.ite
    | (fail_if_no_progress refine Keeps.upd ?_ rfl (by first | exact le_refl _ | exact le_max_left _ _ | exact Nat.le_succ _) (by first | exact le_refl _ | exact Nat.le_succ _) rfl rfl)
    | split
    | dsimp only

theorem sendCredit_keeps {x0 : State} (n : ℕ) (tc : ℕ) {s : State} (hk : Keeps x0 s) : Keeps x0 (sendCredit n tc s) := by
  unfold sendCredit
  try dsimp only
  repeat' with_reducible first
    | exact hk
    | assumption
    | apply sendControl_keeps
    | apply State.wr_keeps
    | apply State.modCredit_keeps
    | apply Keeps.ite
    | (fail_if_no_progress refine Keeps.upd ?_ rfl (by first | exact le_refl _ | exact le_max_left _ _ | exact Nat.le_succ _) (by first | exact le_refl _ | exact Nat.le_succ _) rfl rfl)
    | split
    | dsimp only

theorem giveBack_keeps {x0 : State} (n : ℕ) (tc : ℕ) (kind : ℕ) (k : ℕ) {s : State} (hk : Keeps x0 s) : Keeps x0 (giveBack n tc kind k s) := by
  unfold giveBack
  try dsimp only
  repeat' with_reducible first
    | exact hk
    | assumption
    | apply State.modCredit_keeps
    | apply sendCredit_keeps
    | apply Keeps.ite
    | (fail_if_no_progress refine Keeps.upd ?_ rfl (by first | exact le_refl _ | exact le_max_left _ _ | exact Nat.le_succ _) (by first | exact le_refl _ | exact Nat.le_succ _) rfl rfl)
    | split
    | dsimp only

theorem unstall_keeps {x0 : State} (n : ℕ) (tc : ℕ) (kind : ℕ) {s : State} (hk : Keeps x0 s) : Keeps x0 (unstall n tc kind s) := by
  unfold unstall
  try dsimp only
  repeat' with_reducible first
    | exact hk
    | assumption
    | apply State.modCredit_keeps
    | (fail_if_no_progress refine Keeps.upd ?_ rfl (by first | exact le_refl _ | exact le_max_left _ _ | exact Nat.le_succ _) (by first | exact le_refl _ | exact Nat.le_succ _) rfl rfl)
    | dsimp only

theorem addTx_keeps {x0 : State} (n : ℕ) (tc : ℕ) (kind : ℕ) (k : ℕ) {s : State} (hk : Keeps x0 s) : Keeps x0 (addTx n tc kind k s) := by
  unfold addTx
  try dsimp only
  repeat' with_reducible first
    | exact hk
    | assumption
    | apply unstall_keeps
    | apply protoError_keeps
    | apply State.wr_keeps
    | apply Keeps.ite
    | split
    | dsimp only

theorem takeCredit_keeps {x0 : State} (n : ℕ) (c : CreditSlot) {s : State} (hk : Keeps x0 s) : Keeps x0 (takeCredit n c s) := by
  unfold takeCredit
  try dsimp only
  repeat' with_reducible first
    | exact hk
    | assumption
    | apply protoError_keeps
    | apply State.modCredit_keeps
    | apply State.wr_keeps
    | apply unstall_keeps
    | apply addTx_keeps
    | apply Keeps.ite
    | (refine Keeps.forUpto _ ?_ (fun i a k => ?_))
    | (fail_if_no_progress refine Keeps.upd ?_ rfl (by first | exact le_refl _ | exact le_max_left _ _ | exact Nat.le_succ _) (by first | exact le_refl _ | exact Nat.le_succ _) rfl rfl)
    | split
    | dsimp only

theorem endScans_keeps {x0 : State} (n : ℕ) {s : State} (hk : Keeps x0 s) : Keeps x0 (endScans n s) := by
  unfold endScans
  try dsimp only
  repeat' with_reducible first
    | exact hk
    | assumption
    | apply State.wr_keeps
    | apply State.setReg_keeps
    | apply State.raise_keeps
    | apply freshWindow_keeps
    | apply State.modLane_keeps
    | apply State.modPort_keeps
    | apply State.finish_keeps
    | apply Keeps.ite
    | (refine Keeps.forUpto _ ?_ (fun i a k => ?_))
    | (fail_if_no_progress refine Keeps.upd ?_ rfl (by first | exact le_refl _ | exact le_max_left _ _ | exact Nat.le_succ _) (by first | exact le_refl _ | exact Nat.le_succ _) rfl rfl)
    | split
    | dsimp only

theorem tryEnter_keeps {x0 : State} (n : ℕ) {s : State} (hk : Keeps x0 s) : Keeps x0 (tryEnter n s) := by
  unfold tryEnter
  try dsimp only
  repeat' with_reducible first
    | exact hk
    | assumption
    | apply State.modPort_keeps
    | apply endScans_keeps
    | apply State.wr_keeps
    | apply State.setLink_keeps
    | apply lanesTo_keeps
    | apply Keeps.ite
    | (fail_if_no_progress refine Keeps.upd ?_ rfl (by first | exact le_refl _ | exact le_max_left _ _ | exact Nat.le_succ _) (by first | exact le_refl _ | exact Nat.le_succ _) rfl rfl)
    | split
    | dsimp only

theorem abandonEntry_keeps {x0 : State} (n : ℕ) {s : State} (hk : Keeps x0 s) : Keeps x0 (abandonEntry n s) := by
  unfold abandonEntry
  try dsimp only
  repeat' with_reducible first
    | exact hk
    | assumption
    | apply State.modPort_keeps
    | apply State.wr_keeps
    | apply State.setLink_keeps
    | apply lanesTo_keeps
    | (fail_if_no_progress refine Keeps.upd ?_ rfl (by first | exact le_refl _ | exact le_max_left _ _ | exact Nat.le_succ _) (by first | exact le_refl _ | exact Nat.le_succ _) rfl rfl)
    | dsimp only

theorem answerPower_keeps {x0 : State} (n : ℕ) {s : State} (hk : Keeps x0 s) : Keeps x0 (answerPower n s) := by
  unfold answerPower
  try dsimp only
  repeat' with_reducible first
    | exact hk
    | assumption
    | apply State.modPort_keeps
    | apply sendControl_keeps
    | apply sendAck_keeps
    | apply tryEnter_keeps
    | apply Keeps.ite
    | (fail_if_no_progress refine Keeps.upd ?_ rfl (by first | exact le_refl _ | exact le_max_left _ _ | exact Nat.le_succ _) (by first | exact le_refl _ | exact Nat.le_succ _) rfl rfl)
    | split
    | dsimp only

theorem sendTurn_keeps {x0 : State} (n : ℕ) {s : State} (hk : Keeps x0 s) : Keeps x0 (sendTurn n s) := by
  unfold sendTurn
  try dsimp only
  repeat' with_reducible first
    | exact hk
    | assumption
    | apply sendControl_keeps
    | apply State.modPort_keeps
    | apply Keeps.ite
    | (fail_if_no_progress refine Keeps.upd ?_ rfl (by first | exact le_refl _ | exact le_max_left _ _ | exact Nat.le_succ _) (by first | exact le_refl _ | exact Nat.le_succ _) rfl rfl)
    | split
    | dsimp only

theorem pump_keeps {x0 : State} (n : ℕ) {s : State} (hk : Keeps x0 s) : Keeps x0 (pump n s) := by
  unfold pump
  try dsimp only
  repeat' with_reducible first
    | exact hk
    | assumption
    | apply answerPower_keeps
    | apply sendTurn_keeps
    | apply sendCredit_keeps
    | apply Keeps.ite
    | (refine Keeps.forUpto _ ?_ (fun i a k => ?_))
    | (fail_if_no_progress refine Keeps.upd ?_ rfl (by first | exact le_refl _ | exact le_max_left _ _ | exact Nat.le_succ _) (by first | exact le_refl _ | exact Nat.le_succ _) rfl rfl)
    | split
    | dsimp only

theorem parkLanes_keeps {x0 : State} (n : ℕ) {s : State} (hk : Keeps x0 s) : Keeps x0 (parkLanes n s) := by
  unfold parkLanes
  try dsimp only
  repeat' with_reducible first
    | exact hk
    | assumption
    | apply State.modLane_keeps
    | apply State.wr_keeps
    | apply lanesTo_keeps
    | (refine Keeps.forUpto _ ?_ (fun i a k => ?_))
    | (fail_if_no_progress refine Keeps.upd ?_ rfl (by first | exact le_refl _ | exact le_max_left _ _ | exact Nat.le_succ _) (by first | exact le_refl _ | exact Nat.le_succ _) rfl rfl)
    | dsimp only

theorem holdReady_keeps {x0 : State} {s : State} (hk : Keeps x0 s) : Keeps x0 (holdReady s) := by
  unfold holdReady
  try dsimp only
  repeat' with_reducible first
    | exact hk
    | assumption
    | apply State.finish_keeps
    | apply State.modPav_keeps
    | apply parkLanes_keeps
    | apply endScans_keeps
    | apply State.setLink_keeps
    | apply State.modTrain_keeps
    | apply Keeps.ite
    | (refine Keeps.forUpto _ ?_ (fun i a k => ?_))
    | (fail_if_no_progress refine Keeps.upd ?_ rfl (by first | exact le_refl _ | exact le_max_left _ _ | exact Nat.le_succ _) (by first | exact le_refl _ | exact Nat.le_succ _) rfl rfl)
    | split
    | dsimp only

theorem startParkedExit_keeps {x0 : State} (n : ℕ) {s : State} (hk : Keeps x0 s) : Keeps x0 (startParkedExit n s) := by
  unfold startParkedExit
  try dsimp only
  repeat' with_reducible first
    | exact hk
    | assumption
    | apply laneTo_keeps
    | apply State.modLane_keeps
    | apply State.wr_keeps
    | apply Keeps.ite
    | (refine Keeps.forUpto _ ?_ (fun i a k => ?_))
    | (fail_if_no_progress refine Keeps.upd ?_ rfl (by first | exact le_refl _ | exact le_max_left _ _ | exact Nat.le_succ _) (by first | exact le_refl _ | exact Nat.le_succ _) rfl rfl)
    | split
    | dsimp only

theorem armCoastExit_keeps {x0 : State} (n : ℕ) {s : State} (hk : Keeps x0 s) : Keeps x0 (armCoastExit n s) := by
  unfold armCoastExit
  try dsimp only
  repeat' with_reducible first
    | exact hk
    | assumption
    | apply State.modLane_keeps
    | apply Keeps.ite
    | (refine Keeps.forUpto _ ?_ (fun i a k => ?_))
    | (fail_if_no_progress refine Keeps.upd ?_ rfl (by first | exact le_refl _ | exact le_max_left _ _ | exact Nat.le_succ _) (by first | exact le_refl _ | exact Nat.le_succ _) rfl rfl)
    | split
    | dsimp only

theorem sendExit_keeps {x0 : State} (n : ℕ) {s : State} (hk : Keeps x0 s) : Keeps x0 (sendExit n s) := by
  unfold sendExit
  try dsimp only
  repeat' with_reducible first
    | exact hk
    | assumption
    | apply State.modPort_keeps
    | (fail_if_no_progress refine Keeps.upd ?_ rfl (by first | exact le_refl _ | exact le_max_left _ _ | exact Nat.le_succ _) (by first | exact le_refl _ | exact Nat.le_succ _) rfl rfl)
    | split
    | dsimp only

theorem startCoastExit_keeps {x0 : State} (n : ℕ) {s : State} (hk : Keeps x0 s) : Keeps x0 (startCoastExit n s) := by
  unfold startCoastExit
  try dsimp only
  repeat' with_reducible first
    | exact hk
    | assumption
    | apply armCoastExit_keeps
    | apply sendExit_keeps
    | dsimp only

theorem holdAbandon_keeps {x0 : State} (n : ℕ) {s : State} (hk : Keeps x0 s) : Keeps x0 (holdAbandon n s) := by
  unfold holdAbandon
  try dsimp only
  repeat' with_reducible first
    | exact hk
    | assumption
    | apply State.finish_keeps
    | apply State.wr_keeps
    | apply State.modPort_keeps
    | apply startParkedExit_keeps
    | apply Keeps.ite
    | (refine Keeps.forUpto _ ?_ (fun i a k => ?_))
    | (fail_if_no_progress refine Keeps.upd ?_ rfl (by first | exact le_refl _ | exact le_max_left _ _ | exact Nat.le_succ _) (by first | exact le_refl _ | exact Nat.le_succ _) rfl rfl)
    | split
    | dsimp only

theorem holdAnswered_keeps {x0 : State} (n : ℕ) {s : State} (hk : Keeps x0 s) : Keeps x0 (holdAnswered n s) := by
  unfold holdAnswered
  try dsimp only
  repeat' with_reducible first
    | exact hk
    | assumption
    | apply holdReady_keeps
    | (fail_if_no_progress refine Keeps.upd ?_ rfl (by first | exact le_refl _ | exact le_max_left _ _ | exact Nat.le_succ _) (by first | exact le_refl _ | exact Nat.le_succ _) rfl rfl)
    | split
    | dsimp only

theorem takePower_keeps {x0 : State} (n : ℕ) (kind : ℕ) (target : ℕ) {s : State} (hk : Keeps x0 s) : Keeps x0 (takePower n kind target s) := by
  unfold takePower
  try dsimp only
  repeat' with_reducible first
    | exact hk
    | assumption
    | apply answerPower_keeps
    | apply State.modPort_keeps
    | apply holdAnswered_keeps
    | apply tryEnter_keeps
    | apply holdAbandon_keeps
    | apply pump_keeps
    | apply Keeps.ite
    | (fail_if_no_progress refine Keeps.upd ?_ rfl (by first | exact le_refl _ | exact le_max_left _ _ | exact Nat.le_succ _) (by first | exact le_refl _ | exact Nat.le_succ _) rfl rfl)
    | split
    | dsimp only

theorem freeHeld_keeps {x0 : State} (n : ℕ) (k : ℕ) {s : State} (hk : Keeps x0 s) : Keeps x0 (freeHeld n k s) := by
  unfold freeHeld
  try dsimp only
  repeat' with_reducible first
    | exact hk
    | assumption
    | apply State.modRetry_keeps
    | apply tryEnter_keeps
    | apply State.wr_keeps
    | apply Keeps.ite
    | (fail_if_no_progress refine Keeps.upd ?_ rfl (by first | exact le_refl _ | exact le_max_left _ _ | exact Nat.le_succ _) (by first | exact le_refl _ | exact Nat.le_succ _) rfl rfl)
    | split
    | dsimp only

theorem freeAcked_keeps {x0 : State} (n : ℕ) (seq : ℕ) {s : State} (hk : Keeps x0 s) : Keeps x0 (freeAcked n seq s) := by
  unfold freeAcked
  try dsimp only
  repeat' with_reducible first
    | exact hk
    | assumption
    | apply freeHeld_keeps
    | apply protoError_keeps
    | apply Keeps.ite
    | split
    | dsimp only

theorem applyAck_keeps {x0 : State} (n : ℕ) (seq : ℕ) {s : State} (hk : Keeps x0 s) : Keeps x0 (applyAck n seq s) := by
  unfold applyAck
  try dsimp only
  repeat' with_reducible first
    | exact hk
    | assumption
    | apply pump_keeps
    | apply freeHeld_keeps
    | apply protoError_keeps
    | apply Keeps.ite
    | split
    | dsimp only

theorem holdEq_keeps {x0 : State} (n : ℕ) {s : State} (hk : Keeps x0 s) : Keeps x0 (holdEq n s) := by
  unfold holdEq
  try dsimp only
  repeat' with_reducible first
    | exact hk
    | assumption
    | apply State.modLane_keeps
    | (refine Keeps.forUpto _ ?_ (fun i a k => ?_))
    | (fail_if_no_progress refine Keeps.upd ?_ rfl (by first | exact le_refl _ | exact le_max_left _ _ | exact Nat.le_succ _) (by first | exact le_refl _ | exact Nat.le_succ _) rfl rfl)
    | dsimp only

theorem enterRecovery_keeps {x0 : State} (n : ℕ) (cause : ℕ) (full : Bool) {s : State} (hk : Keeps x0 s) : Keeps x0 (enterRecovery n cause full s) := by
  unfold enterRecovery
  try dsimp only
  repeat' with_reducible first
    | exact hk
    | assumption
    | apply State.raise_keeps
    | apply State.sat_keeps
    | apply State.modPort_keeps
    | apply endScans_keeps
    | apply lanesTo_keeps
    | apply State.setLink_keeps
    | apply holdEq_keeps
    | apply State.modTrain_keeps
    | apply Keeps.ite
    | (fail_if_no_progress refine Keeps.upd ?_ rfl (by first | exact le_refl _ | exact le_max_left _ _ | exact Nat.le_succ _) (by first | exact le_refl _ | exact Nat.le_succ _) rfl rfl)
    | split
    | dsimp only

theorem enterLock_keeps {x0 : State} (n : ℕ) (recov : Bool) {s : State} (hk : Keeps x0 s) : Keeps x0 (enterLock n recov s) := by
  unfold enterLock
  try dsimp only
  repeat' with_reducible first
    | exact hk
    | assumption
    | apply State.modTrain_keeps
    | apply State.setLink_keeps
    | apply State.wr_keeps
    | apply setRate_keeps
    | apply laneTo_keeps
    | apply State.modLane_keeps
    | apply Keeps.ite
    | (refine Keeps.forUpto _ ?_ (fun i a k => ?_))
    | (fail_if_no_progress refine Keeps.upd ?_ rfl (by first | exact le_refl _ | exact le_max_left _ _ | exact Nat.le_succ _) (by first | exact le_refl _ | exact Nat.le_succ _) rfl rfl)
    | split
    | dsimp only

theorem startTraining_keeps {x0 : State} (n : ℕ) {s : State} (hk : Keeps x0 s) : Keeps x0 (startTraining n s) := by
  unfold startTraining
  try dsimp only
  repeat' with_reducible first
    | exact hk
    | assumption
    | apply enterLock_keeps
    | apply Keeps.ite
    | split
    | dsimp only

theorem trainingFailed_keeps {x0 : State} (n : ℕ) (cause : ℕ) {s : State} (hk : Keeps x0 s) : Keeps x0 (trainingFailed n cause s) := by
  unfold trainingFailed
  try dsimp only
  repeat' with_reducible first
    | exact hk
    | assumption
    | apply State.wr_keeps
    | apply State.modTrain_keeps
    | apply State.setLink_keeps
    | apply Keeps.ite
    | (fail_if_no_progress refine Keeps.upd ?_ rfl (by first | exact le_refl _ | exact le_max_left _ _ | exact Nat.le_succ _) (by first | exact le_refl _ | exact Nat.le_succ _) rfl rfl)
    | split
    | dsimp only

theorem endRetune_keeps {x0 : State} (n : ℕ) {s : State} (hk : Keeps x0 s) : Keeps x0 (endRetune n s) := by
  unfold endRetune
  try dsimp only
  repeat' with_reducible first
    | exact hk
    | assumption
    | apply State.wr_keeps
    | apply State.modPort_keeps
    | apply State.finish_keeps
    | apply Keeps.ite
    | (fail_if_no_progress refine Keeps.upd ?_ rfl (by first | exact le_refl _ | exact le_max_left _ _ | exact Nat.le_succ _) (by first | exact le_refl _ | exact Nat.le_succ _) rfl rfl)
    | split
    | dsimp only

theorem rspLeaves_keeps {x0 : State} (via : Option ℕ) (tc : ℕ) (rsp : ℕ) (dat : ℕ) {s : State} (hk : Keeps x0 s) : Keeps x0 (rspLeaves via tc rsp dat s) := by
  unfold rspLeaves
  try dsimp only
  repeat' with_reducible first
    | exact hk
    | assumption
    | apply giveBack_keeps
    | (fail_if_no_progress refine Keeps.upd ?_ rfl (by first | exact le_refl _ | exact le_max_left _ _ | exact Nat.le_succ _) (by first | exact le_refl _ | exact Nat.le_succ _) rfl rfl)
    | split
    | dsimp only

theorem pushReady_keeps {x0 : State} (n : ℕ) (r : ReadyRsp) (dead : Bool) {s : State} (hk : Keeps x0 s) : Keeps x0 (pushReady n r dead s) := by
  unfold pushReady
  try dsimp only
  repeat' with_reducible first
    | exact hk
    | assumption
    | apply rspLeaves_keeps
    | apply State.sat_keeps
    | apply State.modPort_keeps
    | apply Keeps.ite
    | (fail_if_no_progress refine Keeps.upd ?_ rfl (by first | exact le_refl _ | exact le_max_left _ _ | exact Nat.le_succ _) (by first | exact le_refl _ | exact Nat.le_succ _) rfl rfl)
    | split
    | dsimp only

theorem answerCmp_keeps {x0 : State} (n : ℕ) (t : Txn) (status : BitVec 4) {s : State} (hk : Keeps x0 s) : Keeps x0 (answerCmp n t status s) := by
  unfold answerCmp
  try dsimp only
  repeat' with_reducible first
    | exact hk
    | assumption
    | apply pushReady_keeps
    | dsimp only

theorem pathDown_keeps {x0 : State} (ingress : ℕ) (serial : ℕ) {s : State} (hk : Keeps x0 s) : Keeps x0 (pathDown ingress serial s) := by
  unfold pathDown
  try dsimp only
  repeat' with_reducible first
    | exact hk
    | assumption
    | apply State.sat_keeps
    | apply answerCmp_keeps
    | apply State.modPort_keeps
    | apply Keeps.ite
    | (fail_if_no_progress refine Keeps.upd ?_ rfl (by first | exact le_refl _ | exact le_max_left _ _ | exact Nat.le_succ _) (by first | exact le_refl _ | exact Nat.le_succ _) rfl rfl)
    | split
    | dsimp only

theorem egressDown_keeps {x0 : State} (n : ℕ) {s : State} (hk : Keeps x0 s) : Keeps x0 (egressDown n s) := by
  unfold egressDown
  try dsimp only
  repeat' with_reducible first
    | exact hk
    | assumption
    | apply State.modPort_keeps
    | apply pathDown_keeps
    | apply Keeps.ite
    | (refine Keeps.foldl _ ?_ (fun a e k => ?_))
    | (fail_if_no_progress refine Keeps.upd ?_ rfl (by first | exact le_refl _ | exact le_max_left _ _ | exact Nat.le_succ _) (by first | exact le_refl _ | exact Nat.le_succ _) rfl rfl)
    | split
    | dsimp only

theorem dropTxns_keeps {x0 : State} (n : ℕ) {s : State} (hk : Keeps x0 s) : Keeps x0 (dropTxns n s) := by
  unfold dropTxns
  try dsimp only
  repeat' with_reducible first
    | exact hk
    | assumption
    | apply State.setPort_keeps
    | apply State.sat_keeps
    | apply State.modPort_keeps
    | apply rspLeaves_keeps
    | (refine Keeps.forUpto _ ?_ (fun i a k => ?_))
    | (refine Keeps.foldl _ ?_ (fun a e k => ?_))
    | (fail_if_no_progress refine Keeps.upd ?_ rfl (by first | exact le_refl _ | exact le_max_left _ _ | exact Nat.le_succ _) (by first | exact le_refl _ | exact Nat.le_succ _) rfl rfl)
    | dsimp only

theorem linkDown_keeps {x0 : State} (n : ℕ) (cause : ℕ) {s : State} (hk : Keeps x0 s) : Keeps x0 (linkDown n cause s) := by
  unfold linkDown
  try dsimp only
  repeat' with_reducible first
    | exact hk
    | assumption
    | apply State.wr_keeps
    | apply State.raise_keeps
    | apply dropTxns_keeps
    | apply egressDown_keeps
    | apply endRetune_keeps
    | apply endScans_keeps
    | apply State.modPort_keeps
    | apply State.setReg_keeps
    | apply cadSeek_keeps
    | apply State.setLink_keeps
    | apply parkLanes_keeps
    | apply startTraining_keeps
    | apply Keeps.ite
    | (refine Keeps.forUpto _ ?_ (fun i a k => ?_))
    | (fail_if_no_progress refine Keeps.upd ?_ rfl (by first | exact le_refl _ | exact le_max_left _ _ | exact Nat.le_succ _) (by first | exact le_refl _ | exact Nat.le_succ _) rfl rfl)
    | split
    | dsimp only

theorem markDown_keeps {x0 : State} (n : ℕ) (cause : ℕ) {s : State} (hk : Keeps x0 s) : Keeps x0 (markDown n cause s) := by
  unfold markDown
  try dsimp only
  repeat' with_reducible first
    | exact hk
    | assumption
    | apply State.modPort_keeps
    | apply linkDown_keeps
    | apply State.wr_keeps
    | apply State.modTrain_keeps
    | apply State.setLink_keeps
    | apply parkLanes_keeps
    | apply Keeps.ite
    | (fail_if_no_progress refine Keeps.upd ?_ rfl (by first | exact le_refl _ | exact le_max_left _ _ | exact Nat.le_succ _) (by first | exact le_refl _ | exact Nat.le_succ _) rfl rfl)
    | split
    | dsimp only

theorem askReplay_keeps {x0 : State} (n : ℕ) {s : State} (hk : Keeps x0 s) : Keeps x0 (askReplay n s) := by
  unfold askReplay
  try dsimp only
  repeat' with_reducible first
    | exact hk
    | assumption
    | apply requestReplay_keeps
    | apply enterRecovery_keeps
    | apply State.modRetry_keeps
    | apply Keeps.ite
    | (fail_if_no_progress refine Keeps.upd ?_ rfl (by first | exact le_refl _ | exact le_max_left _ _ | exact Nat.le_succ _) (by first | exact le_refl _ | exact Nat.le_succ _) rfl rfl)
    | split
    | dsimp only

theorem recoverLimit_keeps {x0 : State} (n : ℕ) {s : State} (hk : Keeps x0 s) : Keeps x0 (recoverLimit n s) := by
  unfold recoverLimit
  try dsimp only
  repeat' with_reducible first
    | exact hk
    | assumption
    | apply State.modRetry_keeps
    | apply markDown_keeps
    | apply enterRecovery_keeps
    | apply State.modTrain_keeps
    | apply Keeps.ite
    | (fail_if_no_progress refine Keeps.upd ?_ rfl (by first | exact le_refl _ | exact le_max_left _ _ | exact Nat.le_succ _) (by first | exact le_refl _ | exact Nat.le_succ _) rfl rfl)
    | split
    | dsimp only

theorem startReplay_keeps {x0 : State} (n : ℕ) (seq : ℕ) {s : State} (hk : Keeps x0 s) : Keeps x0 (startReplay n seq s) := by
  unfold startReplay
  try dsimp only
  repeat' with_reducible first
    | exact hk
    | assumption
    | apply touch_keeps
    | apply State.sat_keeps
    | apply State.modRetry_keeps
    | apply linkDown_keeps
    | apply pump_keeps
    | apply resend_keeps
    | apply freeHeld_keeps
    | apply recoverLimit_keeps
    | apply State.raise_keeps
    | apply Keeps.ite
    | (fail_if_no_progress refine Keeps.upd ?_ rfl (by first | exact le_refl _ | exact le_max_left _ _ | exact Nat.le_succ _) (by first | exact le_refl _ | exact Nat.le_succ _) rfl rfl)
    | split
    | dsimp only

theorem noteReduced_keeps {x0 : State} (n : ℕ) {s : State} (hk : Keeps x0 s) : Keeps x0 (noteReduced n s) := by
  unfold noteReduced
  try dsimp only
  repeat' with_reducible first
    | exact hk
    | assumption
    | apply State.raise_keeps
    | apply State.modTrain_keeps
    | apply Keeps.ite
    | (fail_if_no_progress refine Keeps.upd ?_ rfl (by first | exact le_refl _ | exact le_max_left _ _ | exact Nat.le_succ _) (by first | exact le_refl _ | exact Nat.le_succ _) rfl rfl)
    | split
    | dsimp only

theorem linkUpFresh_keeps {x0 : State} (n : ℕ) {s : State} (hk : Keeps x0 s) : Keeps x0 (linkUpFresh n s) := by
  unfold linkUpFresh
  try dsimp only
  repeat' with_reducible first
    | exact hk
    | assumption
    | apply State.modPort_keeps
    | apply State.setReg_keeps
    | apply State.wr_keeps
    | apply State.setLink_keeps
    | apply lanesTo_keeps
    | apply State.raise_keeps
    | apply noteReduced_keeps
    | apply sendControl_keeps
    | (refine Keeps.forUpto _ ?_ (fun i a k => ?_))
    | (fail_if_no_progress refine Keeps.upd ?_ rfl (by first | exact le_refl _ | exact le_max_left _ _ | exact Nat.le_succ _) (by first | exact le_refl _ | exact Nat.le_succ _) rfl rfl)
    | dsimp only

theorem linkUpAgain_keeps {x0 : State} (n : ℕ) {s : State} (hk : Keeps x0 s) : Keeps x0 (linkUpAgain n s) := by
  unfold linkUpAgain
  try dsimp only
  repeat' with_reducible first
    | exact hk
    | assumption
    | apply State.modPort_keeps
    | apply noteReduced_keeps
    | apply State.setLink_keeps
    | apply lanesTo_keeps
    | apply sendAck_keeps
    | apply State.raise_keeps
    | apply State.wr_keeps
    | apply State.sat_keeps
    | apply State.finish_keeps
    | apply Keeps.ite
    | (fail_if_no_progress refine Keeps.upd ?_ rfl (by first | exact le_refl _ | exact le_max_left _ _ | exact Nat.le_succ _) (by first | exact le_refl _ | exact Nat.le_succ _) rfl rfl)
    | split
    | dsimp only

theorem linkUp_keeps {x0 : State} (n : ℕ) {s : State} (hk : Keeps x0 s) : Keeps x0 (linkUp n s) := by
  unfold linkUp
  try dsimp only
  repeat' with_reducible first
    | exact hk
    | assumption
    | apply linkUpAgain_keeps
    | apply linkUpFresh_keeps
    | apply Keeps.ite
    | split
    | dsimp only

theorem enterStart_keeps {x0 : State} (n : ℕ) {s : State} (hk : Keeps x0 s) : Keeps x0 (enterStart n s) := by
  unfold enterStart
  try dsimp only
  repeat' with_reducible first
    | exact hk
    | assumption
    | apply State.setLink_keeps
    | apply State.modPort_keeps
    | (fail_if_no_progress refine Keeps.upd ?_ rfl (by first | exact le_refl _ | exact le_max_left _ _ | exact Nat.le_succ _) (by first | exact le_refl _ | exact Nat.le_succ _) rfl rfl)
    | dsimp only

theorem keepEq_keeps {x0 : State} (n : ℕ) {s : State} (hk : Keeps x0 s) : Keeps x0 (keepEq n s) := by
  unfold keepEq
  try dsimp only
  repeat' with_reducible first
    | exact hk
    | assumption
    | apply State.setReg_keeps
    | (refine Keeps.forUpto _ ?_ (fun i a k => ?_))
    | dsimp only

theorem enterRate_keeps {x0 : State} (n : ℕ) (code : ℕ) {s : State} (hk : Keeps x0 s) : Keeps x0 (enterRate n code s) := by
  unfold enterRate
  try dsimp only
  repeat' with_reducible first
    | exact hk
    | assumption
    | apply State.wr_keeps
    | apply setRate_keeps
    | apply State.modTrain_keeps
    | apply State.modLane_keeps
    | apply State.setLink_keeps
    | apply keepEq_keeps
    | apply Keeps.ite
    | (refine Keeps.forUpto _ ?_ (fun i a k => ?_))
    | (fail_if_no_progress refine Keeps.upd ?_ rfl (by first | exact le_refl _ | exact le_max_left _ _ | exact Nat.le_succ _) (by first | exact le_refl _ | exact Nat.le_succ _) rfl rfl)
    | split
    | dsimp only

theorem fallBack_keeps {x0 : State} (n : ℕ) (cause : ℕ) {s : State} (hk : Keeps x0 s) : Keeps x0 (fallBack n cause s) := by
  unfold fallBack
  try dsimp only
  repeat' with_reducible first
    | exact hk
    | assumption
    | apply enterRate_keeps
    | apply markDown_keeps
    | (fail_if_no_progress refine Keeps.upd ?_ rfl (by first | exact le_refl _ | exact le_max_left _ _ | exact Nat.le_succ _) (by first | exact le_refl _ | exact Nat.le_succ _) rfl rfl)
    | split
    | dsimp only

theorem deskew_keeps {x0 : State} (n : ℕ) (mask : ℕ) {s : State} (hk : Keeps x0 s) : Keeps x0 (deskew n mask s) := by
  unfold deskew
  try dsimp only
  repeat' with_reducible first
    | exact hk
    | assumption
    | apply State.modLane_keeps
    | apply State.wr_keeps
    | apply Keeps.ite
    | (refine Keeps.foldl _ ?_ (fun a e k => ?_))
    | (fail_if_no_progress refine Keeps.upd ?_ rfl (by first | exact le_refl _ | exact le_max_left _ _ | exact Nat.le_succ _) (by first | exact le_refl _ | exact Nat.le_succ _) rfl rfl)
    | split
    | dsimp only

theorem configDone_keeps {x0 : State} (n : ℕ) {s : State} (hk : Keeps x0 s) : Keeps x0 (configDone n s) := by
  unfold configDone
  try dsimp only
  repeat' with_reducible first
    | exact hk
    | assumption
    | apply State.wr_keeps
    | apply enterStart_keeps
    | apply lanesTo_keeps
    | apply markDown_keeps
    | apply keepEq_keeps
    | apply enterRate_keeps
    | apply Keeps.ite
    | (fail_if_no_progress refine Keeps.upd ?_ rfl (by first | exact le_refl _ | exact le_max_left _ _ | exact Nat.le_succ _) (by first | exact le_refl _ | exact Nat.le_succ _) rfl rfl)
    | split
    | dsimp only

theorem enterConfig_keeps {x0 : State} (n : ℕ) {s : State} (hk : Keeps x0 s) : Keeps x0 (enterConfig n s) := by
  unfold enterConfig
  try dsimp only
  repeat' with_reducible first
    | exact hk
    | assumption
    | apply State.wr_keeps
    | apply State.setLink_keeps
    | apply State.modTrain_keeps
    | (refine Keeps.forUpto _ ?_ (fun i a k => ?_))
    | (fail_if_no_progress refine Keeps.upd ?_ rfl (by first | exact le_refl _ | exact le_max_left _ _ | exact Nat.le_succ _) (by first | exact le_refl _ | exact Nat.le_succ _) rfl rfl)
    | dsimp only

theorem enterVerify_keeps {x0 : State} (n : ℕ) {s : State} (hk : Keeps x0 s) : Keeps x0 (enterVerify n s) := by
  unfold enterVerify
  try dsimp only
  repeat' with_reducible first
    | exact hk
    | assumption
    | apply State.setLink_keeps
    | apply State.modTrain_keeps
    | (fail_if_no_progress refine Keeps.upd ?_ rfl (by first | exact le_refl _ | exact le_max_left _ _ | exact Nat.le_succ _) (by first | exact le_refl _ | exact Nat.le_succ _) rfl rfl)
    | dsimp only

theorem rateCheck_keeps {x0 : State} (n : ℕ) {s : State} (hk : Keeps x0 s) : Keeps x0 (rateCheck n s) := by
  unfold rateCheck
  try dsimp only
  repeat' with_reducible first
    | exact hk
    | assumption
    | apply enterVerify_keeps
    | apply Keeps.ite
    | split
    | dsimp only

theorem applyPreset_keeps {x0 : State} (n : ℕ) (p : ℕ) (k : ℕ) {s : State} (hk : Keeps x0 s) : Keeps x0 (applyPreset n p k s) := by
  unfold applyPreset
  try dsimp only
  repeat' with_reducible first
    | exact hk
    | assumption
    | apply State.wr_keeps
    | dsimp only

end Sys2Proof.Machine
end

