-- ==== Sys2Proof/Laws/KeepsMonitor.lean ====
section
/-! SUPPORT. What the operations of Machine/Monitor.lean keep (Keeps of Safety.lean). -/
namespace Sys2Proof.Machine
open Sys2Proof

set_option linter.all false

theorem monSample_keeps {x0 : State} (u : ℕ) (lat : ℕ) (tc : ℕ) (write : Bool) (fwd : Option Bool) {s : State} (hk : Keeps x0 s) : Keeps x0 (monSample u lat tc write fwd s) := by
  unfold monSample
  try dsimp only
  repeat' with_reducible first
    | exact hk
    | assumption
    | apply State.setMon_keeps
    | apply Keeps.ite
    | (fail_if_no_progress refine Keeps.upd ?_ rfl (by first | exact le_refl _ | exact le_max_left _ _ | exact Nat.le_succ _) (by first | exact le_refl _ | exact Nat.le_succ _) rfl rfl)
    | split
    | dsimp only

theorem monLevels_keeps {x0 : State} {s : State} (hk : Keeps x0 s) : Keeps x0 (monLevels s) := by
  unfold monLevels
  try dsimp only
  repeat' with_reducible first
    | exact hk
    | assumption
    | apply State.setMon_keeps
    | apply Keeps.ite
    | (refine Keeps.forUpto _ ?_ (fun i a k => ?_))
    | (fail_if_no_progress refine Keeps.upd ?_ rfl (by first | exact le_refl _ | exact le_max_left _ _ | exact Nat.le_succ _) (by first | exact le_refl _ | exact Nat.le_succ _) rfl rfl)
    | split
    | dsimp only

theorem monBegin_keeps {x0 : State} (u : ℕ) {s : State} (hk : Keeps x0 s) : Keeps x0 (monBegin u s) := by
  unfold monBegin
  try dsimp only
  repeat' with_reducible first
    | exact hk
    | assumption
    | apply State.modMon_keeps
    | (fail_if_no_progress refine Keeps.upd ?_ rfl (by first | exact le_refl _ | exact le_max_left _ _ | exact Nat.le_succ _) (by first | exact le_refl _ | exact Nat.le_succ _) rfl rfl)
    | dsimp only

theorem monCopy_keeps {x0 : State} (u : ℕ) (ts : BitVec 50) (a : MonAcc) {s : State} (hk : Keeps x0 s) : Keeps x0 (monCopy u ts a s) := by
  unfold monCopy
  try dsimp only [State.drawFree, State.drawEntropy]
  repeat' with_reducible first
    | exact hk
    | assumption
    | apply State.wr_keeps
    | (refine Keeps.snd (p := State.drawFree _) (by assumption) ?_)
    | apply State.drawFree_keeps
    | apply State.modMon_keeps
    | apply Keeps.ite
    | (refine Keeps.forUpto _ ?_ (fun i a k => ?_))
    | (fail_if_no_progress refine Keeps.upd ?_ rfl (by first | exact le_refl _ | exact le_max_left _ _ | exact Nat.le_succ _) (by first | exact le_refl _ | exact Nat.le_succ _) rfl rfl)
    | split
    | dsimp only

theorem finishSnaps_keeps {x0 : State} (ts : BitVec 50) {s : State} (hk : Keeps x0 s) : Keeps x0 (finishSnaps ts s) := by
  unfold finishSnaps
  try dsimp only
  repeat' with_reducible first
    | exact hk
    | assumption
    | apply State.finish_keeps
    | apply Keeps.ite
    | (refine Keeps.foldl _ ?_ (fun a e k => ?_))
    | (fail_if_no_progress refine Keeps.upd ?_ rfl (by first | exact le_refl _ | exact le_max_left _ _ | exact Nat.le_succ _) (by first | exact le_refl _ | exact Nat.le_succ _) rfl rfl)
    | split
    | dsimp only

theorem monEnd_keeps {x0 : State} (u : ℕ) {s : State} (hk : Keeps x0 s) : Keeps x0 (monEnd u s) := by
  unfold monEnd
  try dsimp only
  repeat' with_reducible first
    | exact hk
    | assumption
    | apply monCopy_keeps
    | apply State.modMon_keeps
    | apply State.wr_keeps
    | apply monBegin_keeps
    | apply Keeps.ite
    | (fail_if_no_progress refine Keeps.upd ?_ rfl (by first | exact le_refl _ | exact le_max_left _ _ | exact Nat.le_succ _) (by first | exact le_refl _ | exact Nat.le_succ _) rfl rfl)
    | split
    | dsimp only

theorem monTurn_keeps {x0 : State} (u : ℕ) {s : State} (hk : Keeps x0 s) : Keeps x0 (monTurn u s) := by
  unfold monTurn
  try dsimp only
  repeat' with_reducible first
    | exact hk
    | assumption
    | apply monEnd_keeps
    | apply monBegin_keeps
    | apply State.wr_keeps
    | apply State.modMon_keeps
    | apply State.setMon_keeps
    | apply Keeps.ite
    | (fail_if_no_progress refine Keeps.upd ?_ rfl (by first | exact le_refl _ | exact le_max_left _ _ | exact Nat.le_succ _) (by first | exact le_refl _ | exact Nat.le_succ _) rfl rfl)
    | split
    | dsimp only

theorem execMonitorWindowEnd_keeps {x0 : State} (u : UnitId) {s : State} (hk : Keeps x0 s) : OutKeeps x0 (execMonitorWindowEnd u s) := by
  unfold execMonitorWindowEnd
  try dsimp only
  repeat' with_reducible first
    | exact hk
    | assumption
    | apply finishSnaps_keeps
    | apply monEnd_keeps
    | apply OutKeeps.next
    | apply OutKeeps.ite
    | apply Keeps.ite
    | (fail_if_no_progress refine Keeps.upd ?_ rfl (by first | exact le_refl _ | exact le_max_left _ _ | exact Nat.le_succ _) (by first | exact le_refl _ | exact Nat.le_succ _) rfl rfl)
    | split
    | dsimp only

theorem monDiscard_keeps {x0 : State} (u : ℕ) {s : State} (hk : Keeps x0 s) : Keeps x0 (monDiscard u s) := by
  unfold monDiscard
  try dsimp only
  repeat' with_reducible first
    | exact hk
    | assumption
    | apply State.modMon_keeps
    | apply Keeps.ite
    | (fail_if_no_progress refine Keeps.upd ?_ rfl (by first | exact le_refl _ | exact le_max_left _ _ | exact Nat.le_succ _) (by first | exact le_refl _ | exact Nat.le_succ _) rfl rfl)
    | split
    | dsimp only

theorem queueTele_keeps {x0 : State} (n : ℕ) (msg : OutMsg) {s : State} (hk : Keeps x0 s) : Keeps x0 (queueTele n msg s) := by
  unfold queueTele
  try dsimp only
  repeat' with_reducible first
    | exact hk
    | assumption
    | apply State.sat_keeps
    | apply State.modPort_keeps
    | apply Keeps.ite
    | (fail_if_no_progress refine Keeps.upd ?_ rfl (by first | exact le_refl _ | exact le_max_left _ _ | exact Nat.le_succ _) (by first | exact le_refl _ | exact Nat.le_succ _) rfl rfl)
    | split
    | dsimp only

theorem queueTelemetry_keeps {x0 : State} {s : State} (hk : Keeps x0 s) : Keeps x0 (queueTelemetry s) := by
  unfold queueTelemetry
  try dsimp only
  repeat' with_reducible first
    | exact hk
    | assumption
    | apply State.modMon_keeps
    | apply queueTele_keeps
    | apply State.sat_keeps
    | apply Keeps.ite
    | (refine Keeps.forUpto _ ?_ (fun i a k => ?_))
    | (refine Keeps.foldl _ ?_ (fun a e k => ?_))
    | (fail_if_no_progress refine Keeps.upd ?_ rfl (by first | exact le_refl _ | exact le_max_left _ _ | exact Nat.le_succ _) (by first | exact le_refl _ | exact Nat.le_succ _) rfl rfl)
    | split
    | dsimp only

theorem sendMsg_keeps {x0 : State} (n : ℕ) (m : OutMsg) {s : State} (hk : Keeps x0 s) : ∀ u, sendMsg n m s = some u → Keeps x0 u := by
  unfold sendMsg
  intro u e
  repeat' (first | (simp only [Option.some.injEq] at e; subst e) | contradiction | split at e | dsimp only at e)
  all_goals try dsimp only
  repeat' with_reducible first
    | exact hk
    | assumption
    | apply sendControl_keeps
    | apply useTx_keeps
    | apply sendFlit_keeps
    | apply Keeps.ite
    | (fail_if_no_progress refine Keeps.upd ?_ rfl (by first | exact le_refl _ | exact le_max_left _ _ | exact Nat.le_succ _) (by first | exact le_refl _ | exact Nat.le_succ _) rfl rfl)
    | split
    | dsimp only

theorem msgWaits_keeps {x0 : State} (n : ℕ) (m : OutMsg) {s : State} (hk : Keeps x0 s) : Keeps x0 (msgWaits n m s) := by
  unfold msgWaits
  try dsimp only
  repeat' with_reducible first
    | exact hk
    | assumption
    | apply stallOn_keeps
    | apply Keeps.ite
    | split
    | dsimp only

theorem execTelemetrySend_keeps {x0 : State} (n : PortId) {s : State} (hk : Keeps x0 s) : OutKeeps x0 (execTelemetrySend n s) := by
  unfold execTelemetrySend
  try dsimp only
  repeat' with_reducible first
    | exact hk
    | assumption
    | (refine sendMsg_keeps _ _ ?_ _ (by assumption))
    | apply State.sat_keeps
    | apply State.modPort_keeps
    | apply msgWaits_keeps
    | apply OutKeeps.next
    | (fail_if_no_progress refine Keeps.upd ?_ rfl (by first | exact le_refl _ | exact le_max_left _ _ | exact Nat.le_succ _) (by first | exact le_refl _ | exact Nat.le_succ _) rfl rfl)
    | split
    | dsimp only

theorem sendDone_keeps {x0 : State} (n : ℕ) {s : State} (hk : Keeps x0 s) : Keeps x0 (sendDone n s) := by
  unfold sendDone
  try dsimp only
  repeat' with_reducible first
    | exact hk
    | assumption
    | (refine sendMsg_keeps _ _ ?_ _ (by assumption))
    | apply changesDue_keeps
    | apply State.modPort_keeps
    | apply msgWaits_keeps
    | (fail_if_no_progress refine Keeps.upd ?_ rfl (by first | exact le_refl _ | exact le_max_left _ _ | exact Nat.le_succ _) (by first | exact le_refl _ | exact Nat.le_succ _) rfl rfl)
    | split
    | dsimp only

end Sys2Proof.Machine
end

