-- ==== Sys2Proof/Laws/KeepsLanes.lean ====
section
/-! SUPPORT. What the operations of Machine/Lanes.lean keep (Keeps of Safety.lean). -/
namespace Sys2Proof.Machine
open Sys2Proof

set_option linter.all false

theorem execLanePllLockLost_keeps {x0 : State} (n : PortId) {s : State} (hk : Keeps x0 s) : OutKeeps x0 (execLanePllLockLost n s) := by
  unfold execLanePllLockLost
  try dsimp only
  repeat' with_reducible first
    | exact hk
    | assumption
    | apply State.modPort_keeps
    | apply linkDown_keeps
    | apply State.raise_keeps
    | apply OutKeeps.next
    | apply OutKeeps.ite
    | apply Keeps.ite
    | (fail_if_no_progress refine Keeps.upd ?_ rfl (by first | exact le_refl _ | exact le_max_left _ _ | exact Nat.le_succ _) (by first | exact le_refl _ | exact Nat.le_succ _) rfl rfl)
    | split
    | dsimp only

theorem execLanePllLockHeld_keeps {x0 : State} (n : PortId) {s : State} (hk : Keeps x0 s) : OutKeeps x0 (execLanePllLockHeld n s) := by
  unfold execLanePllLockHeld
  try dsimp only
  repeat' with_reducible first
    | exact hk
    | assumption
    | apply startTraining_keeps
    | apply State.wr_keeps
    | apply State.modPort_keeps
    | apply OutKeeps.next
    | apply OutKeeps.ite
    | apply Keeps.ite
    | (fail_if_no_progress refine Keeps.upd ?_ rfl (by first | exact le_refl _ | exact le_max_left _ _ | exact Nat.le_succ _) (by first | exact le_refl _ | exact Nat.le_succ _) rfl rfl)
    | split
    | dsimp only

theorem execFifoSlip_keeps {x0 : State} (n : PortId) (p : Pos) {s : State} (hk : Keeps x0 s) : OutKeeps x0 (execFifoSlip n p s) := by
  unfold execFifoSlip
  try dsimp only
  repeat' with_reducible first
    | exact hk
    | assumption
    | apply State.modLane_keeps
    | apply State.raise_keeps
    | apply State.sat_keeps
    | apply OutKeeps.next
    | apply OutKeeps.ite
    | apply Keeps.ite
    | (fail_if_no_progress refine Keeps.upd ?_ rfl (by first | exact le_refl _ | exact le_max_left _ _ | exact Nat.le_succ _) (by first | exact le_refl _ | exact Nat.le_succ _) rfl rfl)
    | split
    | dsimp only

theorem setGrade_keeps {x0 : State} (n : ℕ) (p : ℕ) (g : ℕ) {s : State} (hk : Keeps x0 s) : Keeps x0 (setGrade n p g s) := by
  unfold setGrade
  try dsimp only
  repeat' with_reducible first
    | exact hk
    | assumption
    | apply State.wr_keeps
    | apply enterRecovery_keeps
    | apply State.raise_keeps
    | apply Keeps.ite
    | split
    | dsimp only

theorem execCdrLockLost_keeps {x0 : State} (n : PortId) (p : Pos) {s : State} (hk : Keeps x0 s) : OutKeeps x0 (execCdrLockLost n p s) := by
  unfold execCdrLockLost
  try dsimp only
  repeat' with_reducible first
    | exact hk
    | assumption
    | apply State.wr_keeps
    | apply State.sat_keeps
    | apply State.raise_keeps
    | apply State.modLane_keeps
    | apply setGrade_keeps
    | apply OutKeeps.next
    | apply OutKeeps.ite
    | apply Keeps.ite
    | (fail_if_no_progress refine Keeps.upd ?_ rfl (by first | exact le_refl _ | exact le_max_left _ _ | exact Nat.le_succ _) (by first | exact le_refl _ | exact Nat.le_succ _) rfl rfl)
    | split
    | dsimp only

theorem execGradingWindowEnd_keeps {x0 : State} (n : PortId) (p : Pos) (d : ℕ) {s : State} (hk : Keeps x0 s) : OutKeeps x0 (execGradingWindowEnd n p d s) := by
  unfold execGradingWindowEnd
  try dsimp only
  repeat' with_reducible first
    | exact hk
    | assumption
    | apply freshWindow_keeps
    | apply State.wr_keeps
    | apply State.atLeast_keeps
    | apply setGrade_keeps
    | apply OutKeeps.next
    | apply OutKeeps.ite
    | apply Keeps.ite
    | (fail_if_no_progress refine Keeps.upd ?_ rfl (by first | exact le_refl _ | exact le_max_left _ _ | exact Nat.le_succ _) (by first | exact le_refl _ | exact Nat.le_succ _) rfl rfl)
    | split
    | dsimp only

theorem countExitRecovery_keeps {x0 : State} (n : ℕ) {s : State} (hk : Keeps x0 s) : Keeps x0 (countExitRecovery n s) := by
  unfold countExitRecovery
  try dsimp only
  repeat' with_reducible first
    | exact hk
    | assumption
    | apply holdEq_keeps
    | apply State.sat_keeps
    | dsimp only

theorem parkedExitDone_keeps {x0 : State} (n : ℕ) {s : State} (hk : Keeps x0 s) : Keeps x0 (parkedExitDone n s) := by
  unfold parkedExitDone
  try dsimp only
  repeat' with_reducible first
    | exact hk
    | assumption
    | apply State.modTrain_keeps
    | apply countExitRecovery_keeps
    | apply lanesTo_keeps
    | apply State.setLink_keeps
    | apply startTraining_keeps
    | apply Keeps.ite
    | (fail_if_no_progress refine Keeps.upd ?_ rfl (by first | exact le_refl _ | exact le_max_left _ _ | exact Nat.le_succ _) (by first | exact le_refl _ | exact Nat.le_succ _) rfl rfl)
    | split
    | dsimp only

theorem coastLock_keeps {x0 : State} (n : ℕ) (p : ℕ) {s : State} (hk : Keeps x0 s) : Keeps x0 (coastLock n p s) := by
  unfold coastLock
  try dsimp only
  repeat' with_reducible first
    | exact hk
    | assumption
    | apply State.modLane_keeps
    | apply armCoastExit_keeps
    | apply laneTo_keeps
    | apply State.wr_keeps
    | apply sendExit_keeps
    | apply Keeps.ite
    | (fail_if_no_progress refine Keeps.upd ?_ rfl (by first | exact le_refl _ | exact le_max_left _ _ | exact Nat.le_succ _) (by first | exact le_refl _ | exact Nat.le_succ _) rfl rfl)
    | split
    | dsimp only

theorem execLaneExitLock_keeps {x0 : State} (n : PortId) (p : Pos) {s : State} (hk : Keeps x0 s) : OutKeeps x0 (execLaneExitLock n p s) := by
  unfold execLaneExitLock
  try dsimp only
  repeat' with_reducible first
    | exact hk
    | assumption
    | apply coastLock_keeps
    | apply State.modLane_keeps
    | apply parkedExitDone_keeps
    | apply laneTo_keeps
    | apply State.wr_keeps
    | apply OutKeeps.next
    | apply OutKeeps.ite
    | apply Keeps.ite
    | (fail_if_no_progress refine Keeps.upd ?_ rfl (by first | exact le_refl _ | exact le_max_left _ _ | exact Nat.le_succ _) (by first | exact le_refl _ | exact Nat.le_succ _) rfl rfl)
    | split
    | dsimp only

theorem execCoastExitWatchdog_keeps {x0 : State} (n : PortId) (p : Pos) {s : State} (hk : Keeps x0 s) : OutKeeps x0 (execCoastExitWatchdog n p s) := by
  unfold execCoastExitWatchdog
  try dsimp only
  repeat' with_reducible first
    | exact hk
    | assumption
    | apply State.modLane_keeps
    | apply State.atLeast_keeps
    | apply State.raise_keeps
    | apply laneTo_keeps
    | apply countExitRecovery_keeps
    | apply State.modPort_keeps
    | apply enterLock_keeps
    | apply OutKeeps.next
    | apply OutKeeps.ite
    | apply Keeps.ite
    | (fail_if_no_progress refine Keeps.upd ?_ rfl (by first | exact le_refl _ | exact le_max_left _ _ | exact Nat.le_succ _) (by first | exact le_refl _ | exact Nat.le_succ _) rfl rfl)
    | split
    | dsimp only

theorem execParkedExitWatchdog_keeps {x0 : State} (n : PortId) (p : Pos) {s : State} (hk : Keeps x0 s) : OutKeeps x0 (execParkedExitWatchdog n p s) := by
  unfold execParkedExitWatchdog
  try dsimp only
  repeat' with_reducible first
    | exact hk
    | assumption
    | apply State.modLane_keeps
    | apply State.atLeast_keeps
    | apply State.raise_keeps
    | apply laneTo_keeps
    | apply State.wr_keeps
    | apply parkedExitDone_keeps
    | apply OutKeeps.next
    | apply OutKeeps.ite
    | apply Keeps.ite
    | (fail_if_no_progress refine Keeps.upd ?_ rfl (by first | exact le_refl _ | exact le_max_left _ _ | exact Nat.le_succ _) (by first | exact le_refl _ | exact Nat.le_succ _) rfl rfl)
    | split
    | dsimp only

theorem execPrbsCheckerLock_keeps {x0 : State} (n : PortId) (b : LaneBits) {s : State} (hk : Keeps x0 s) : OutKeeps x0 (execPrbsCheckerLock n b s) := by
  unfold execPrbsCheckerLock
  try dsimp only
  repeat' with_reducible first
    | exact hk
    | assumption
    | apply State.modLane_keeps
    | apply State.wr_keeps
    | apply OutKeeps.next
    | apply OutKeeps.ite
    | apply Keeps.ite
    | (fail_if_no_progress refine Keeps.upd ?_ rfl (by first | exact le_refl _ | exact le_max_left _ _ | exact Nat.le_succ _) (by first | exact le_refl _ | exact Nat.le_succ _) rfl rfl)
    | split
    | dsimp only

theorem countPrbs_keeps {x0 : State} (n : ℕ) (p : ℕ) (errs : ℕ) {s : State} (hk : Keeps x0 s) : Keeps x0 (countPrbs n p errs s) := by
  unfold countPrbs
  try dsimp only
  repeat' with_reducible first
    | exact hk
    | assumption
    | apply State.sat_keeps
    | apply Keeps.ite
    | split
    | dsimp only

theorem execPrbsRelock_keeps {x0 : State} (n : PortId) (p : Pos) (bits : ℕ) (errs : ℕ) {s : State} (hk : Keeps x0 s) : OutKeeps x0 (execPrbsRelock n p bits errs s) := by
  unfold execPrbsRelock
  try dsimp only
  repeat' with_reducible first
    | exact hk
    | assumption
    | apply countPrbs_keeps
    | apply State.atLeast_keeps
    | apply State.raise_keeps
    | apply State.sat_keeps
    | apply prbsUnlock_keeps
    | apply OutKeeps.next
    | apply OutKeeps.ite
    | apply Keeps.ite
    | (fail_if_no_progress refine Keeps.upd ?_ rfl (by first | exact le_refl _ | exact le_max_left _ _ | exact Nat.le_succ _) (by first | exact le_refl _ | exact Nat.le_succ _) rfl rfl)
    | split
    | dsimp only

theorem execPeriodicInject_keeps {x0 : State} (n : PortId) (p : Pos) {s : State} (hk : Keeps x0 s) : OutKeeps x0 (execPeriodicInject n p s) := by
  unfold execPeriodicInject
  try dsimp only
  repeat' with_reducible first
    | exact hk
    | assumption
    | apply injectBits_keeps
    | apply State.atLeast_keeps
    | apply State.modLane_keeps
    | apply OutKeeps.next
    | apply OutKeeps.ite
    | apply Keeps.ite
    | (fail_if_no_progress refine Keeps.upd ?_ rfl (by first | exact le_refl _ | exact le_max_left _ _ | exact Nat.le_succ _) (by first | exact le_refl _ | exact Nat.le_succ _) rfl rfl)
    | split
    | dsimp only

theorem recoverFull_keeps {x0 : State} (n : ℕ) {s : State} (hk : Keeps x0 s) : Keeps x0 (recoverFull n s) := by
  unfold recoverFull
  try dsimp only
  repeat' with_reducible first
    | exact hk
    | assumption
    | apply enterLock_keeps
    | dsimp only

theorem hearSet_keeps {x0 : State} (n : ℕ) (p : ℕ) (inv : Bool) {s : State} (hk : Keeps x0 s) : Keeps x0 (hearSet n p inv s) := by
  unfold hearSet
  try dsimp only
  repeat' with_reducible first
    | exact hk
    | assumption
    | apply State.wr_keeps
    | dsimp only

theorem withSet_keeps {x0 : State} (n : ℕ) (p : ℕ) (type : ℕ) (set : List Byte) {s : State} (act : Bool → OrderedSet → Out)
    (hk : Keeps x0 s) (ha : ∀ inv os, OutKeeps x0 (act inv os)) : OutKeeps x0 (withSet n p type set s act) := by
  unfold withSet
  repeat' with_reducible first
    | exact hk
    | apply ha
    | apply State.modLane_keeps
    | apply OutKeeps.next
    | apply OutKeeps.ite
    | split
    | dsimp only

theorem execTs1_keeps {x0 : State} (n : PortId) (p : Pos) (set : List Byte) {s : State} (hk : Keeps x0 s) : OutKeeps x0 (execTs1 n p set s) := by
  unfold execTs1
  try dsimp only
  repeat' with_reducible first
    | exact hk
    | assumption
    | apply withSet_keeps
    | apply hearSet_keeps
    | apply State.modTrain_keeps
    | apply enterConfig_keeps
    | apply applyPreset_keeps
    | apply rateCheck_keeps
    | apply enterRecovery_keeps
    | apply recoverFull_keeps
    | apply OutKeeps.next
    | apply OutKeeps.ite
    | apply Keeps.ite
    | (fail_if_no_progress refine Keeps.upd ?_ rfl (by first | exact le_refl _ | exact le_max_left _ _ | exact Nat.le_succ _) (by first | exact le_refl _ | exact Nat.le_succ _) rfl rfl)
    | split
    | dsimp only
    | intro _ _

theorem execTs2_keeps {x0 : State} (n : PortId) (p : Pos) (r : TimedSet) {s : State} (hk : Keeps x0 s) : OutKeeps x0 (execTs2 n p r s) := by
  unfold execTs2
  try dsimp only
  repeat' with_reducible first
    | exact hk
    | assumption
    | apply withSet_keeps
    | apply hearSet_keeps
    | apply State.modLane_keeps
    | apply State.modTrain_keeps
    | apply trainingFailed_keeps
    | apply configDone_keeps
    | apply deskew_keeps
    | apply enterStart_keeps
    | apply fallBack_keeps
    | apply lanesTo_keeps
    | apply State.wr_keeps
    | apply recoverFull_keeps
    | apply OutKeeps.next
    | apply OutKeeps.ite
    | apply Keeps.ite
    | (fail_if_no_progress refine Keeps.upd ?_ rfl (by first | exact le_refl _ | exact le_max_left _ _ | exact Nat.le_succ _) (by first | exact le_refl _ | exact Nat.le_succ _) rfl rfl)
    | split
    | dsimp only
    | intro _ _

theorem execEios_keeps {x0 : State} (n : PortId) (r : LaneSet) {s : State} (hk : Keeps x0 s) : OutKeeps x0 (execEios n r s) := by
  unfold execEios
  try dsimp only
  repeat' with_reducible first
    | exact hk
    | assumption
    | apply withSet_keeps
    | apply hearSet_keeps
    | apply State.wr_keeps
    | apply State.modTrain_keeps
    | apply OutKeeps.next
    | apply OutKeeps.ite
    | apply Keeps.ite
    | (fail_if_no_progress refine Keeps.upd ?_ rfl (by first | exact le_refl _ | exact le_max_left _ _ | exact Nat.le_succ _) (by first | exact le_refl _ | exact Nat.le_succ _) rfl rfl)
    | split
    | dsimp only
    | intro _ _

theorem coastExitDone_keeps {x0 : State} (n : ℕ) {s : State} (hk : Keeps x0 s) : Keeps x0 (coastExitDone n s) := by
  unfold coastExitDone
  try dsimp only
  repeat' with_reducible first
    | exact hk
    | assumption
    | apply State.atLeast_keeps
    | apply State.modPort_keeps
    | apply State.modLane_keeps
    | apply sendDone_keeps
    | apply pump_keeps
    | apply State.setLink_keeps
    | apply lanesTo_keeps
    | apply Keeps.ite
    | (refine Keeps.forUpto _ ?_ (fun i a k => ?_))
    | (fail_if_no_progress refine Keeps.upd ?_ rfl (by first | exact le_refl _ | exact le_max_left _ _ | exact Nat.le_succ _) (by first | exact le_refl _ | exact Nat.le_succ _) rfl rfl)
    | split
    | dsimp only

theorem execExitSets_keeps {x0 : State} (n : PortId) (r : LaneSet) {s : State} (hk : Keeps x0 s) : OutKeeps x0 (execExitSets n r s) := by
  unfold execExitSets
  try dsimp only
  repeat' with_reducible first
    | exact hk
    | assumption
    | apply abandonEntry_keeps
    | apply withSet_keeps
    | apply hearSet_keeps
    | apply State.modPort_keeps
    | apply coastLock_keeps
    | apply coastExitDone_keeps
    | apply State.modTrain_keeps
    | apply OutKeeps.next
    | apply OutKeeps.ite
    | apply Keeps.ite
    | (fail_if_no_progress refine Keeps.upd ?_ rfl (by first | exact le_refl _ | exact le_max_left _ _ | exact Nat.le_succ _) (by first | exact le_refl _ | exact Nat.le_succ _) rfl rfl)
    | split
    | dsimp only
    | intro _ _

theorem execSds_keeps {x0 : State} (n : PortId) (r : LaneSet) {s : State} (hk : Keeps x0 s) : OutKeeps x0 (execSds n r s) := by
  unfold execSds
  try dsimp only
  repeat' with_reducible first
    | exact hk
    | assumption
    | apply withSet_keeps
    | apply hearSet_keeps
    | apply State.modTrain_keeps
    | apply sendDone_keeps
    | apply pump_keeps
    | apply linkUp_keeps
    | apply OutKeeps.next
    | apply OutKeeps.ite
    | apply Keeps.ite
    | (fail_if_no_progress refine Keeps.upd ?_ rfl (by first | exact le_refl _ | exact le_max_left _ _ | exact Nat.le_succ _) (by first | exact le_refl _ | exact Nat.le_succ _) rfl rfl)
    | split
    | dsimp only
    | intro _ _

theorem execTLockTimeout_keeps {x0 : State} (n : PortId) {s : State} (hk : Keeps x0 s) : OutKeeps x0 (execTLockTimeout n s) := by
  unfold execTLockTimeout
  try dsimp only
  repeat' with_reducible first
    | exact hk
    | assumption
    | apply State.atLeast_keeps
    | apply enterConfig_keeps
    | apply trainingFailed_keeps
    | apply OutKeeps.next
    | apply OutKeeps.ite
    | apply Keeps.ite
    | (fail_if_no_progress refine Keeps.upd ?_ rfl (by first | exact le_refl _ | exact le_max_left _ _ | exact Nat.le_succ _) (by first | exact le_refl _ | exact Nat.le_succ _) rfl rfl)
    | split
    | dsimp only

theorem execTConfigTimeout_keeps {x0 : State} (n : PortId) {s : State} (hk : Keeps x0 s) : OutKeeps x0 (execTConfigTimeout n s) := by
  unfold execTConfigTimeout
  try dsimp only
  repeat' with_reducible first
    | exact hk
    | assumption
    | apply trainingFailed_keeps
    | apply State.atLeast_keeps
    | apply OutKeeps.next
    | apply OutKeeps.ite
    | apply Keeps.ite
    | (fail_if_no_progress refine Keeps.upd ?_ rfl (by first | exact le_refl _ | exact le_max_left _ _ | exact Nat.le_succ _) (by first | exact le_refl _ | exact Nat.le_succ _) rfl rfl)
    | split
    | dsimp only

theorem execTRateTimeout_keeps {x0 : State} (n : PortId) {s : State} (hk : Keeps x0 s) : OutKeeps x0 (execTRateTimeout n s) := by
  unfold execTRateTimeout
  try dsimp only
  repeat' with_reducible first
    | exact hk
    | assumption
    | apply fallBack_keeps
    | apply State.atLeast_keeps
    | apply OutKeeps.next
    | apply OutKeeps.ite
    | apply Keeps.ite
    | (fail_if_no_progress refine Keeps.upd ?_ rfl (by first | exact le_refl _ | exact le_max_left _ _ | exact Nat.le_succ _) (by first | exact le_refl _ | exact Nat.le_succ _) rfl rfl)
    | split
    | dsimp only

theorem execTVerifyTimeout_keeps {x0 : State} (n : PortId) {s : State} (hk : Keeps x0 s) : OutKeeps x0 (execTVerifyTimeout n s) := by
  unfold execTVerifyTimeout
  try dsimp only
  repeat' with_reducible first
    | exact hk
    | assumption
    | apply fallBack_keeps
    | apply State.atLeast_keeps
    | apply OutKeeps.next
    | apply OutKeeps.ite
    | apply Keeps.ite
    | (fail_if_no_progress refine Keeps.upd ?_ rfl (by first | exact le_refl _ | exact le_max_left _ _ | exact Nat.le_succ _) (by first | exact le_refl _ | exact Nat.le_succ _) rfl rfl)
    | split
    | dsimp only

theorem execTStartTimeout_keeps {x0 : State} (n : PortId) {s : State} (hk : Keeps x0 s) : OutKeeps x0 (execTStartTimeout n s) := by
  unfold execTStartTimeout
  try dsimp only
  repeat' with_reducible first
    | exact hk
    | assumption
    | apply trainingFailed_keeps
    | apply State.atLeast_keeps
    | apply OutKeeps.next
    | apply OutKeeps.ite
    | apply Keeps.ite
    | (fail_if_no_progress refine Keeps.upd ?_ rfl (by first | exact le_refl _ | exact le_max_left _ _ | exact Nat.le_succ _) (by first | exact le_refl _ | exact Nat.le_succ _) rfl rfl)
    | split
    | dsimp only

theorem execTrainingRetryTimer_keeps {x0 : State} (n : PortId) {s : State} (hk : Keeps x0 s) : OutKeeps x0 (execTrainingRetryTimer n s) := by
  unfold execTrainingRetryTimer
  try dsimp only
  repeat' with_reducible first
    | exact hk
    | assumption
    | apply State.atLeast_keeps
    | apply enterLock_keeps
    | apply startTraining_keeps
    | apply State.modTrain_keeps
    | apply OutKeeps.next
    | apply OutKeeps.ite
    | apply Keeps.ite
    | (fail_if_no_progress refine Keeps.upd ?_ rfl (by first | exact le_refl _ | exact le_max_left _ _ | exact Nat.le_succ _) (by first | exact le_refl _ | exact Nat.le_succ _) rfl rfl)
    | split
    | dsimp only

theorem execPllRelockDone_keeps {x0 : State} (n : PortId) {s : State} (hk : Keeps x0 s) : OutKeeps x0 (execPllRelockDone n s) := by
  unfold execPllRelockDone
  try dsimp only
  repeat' with_reducible first
    | exact hk
    | assumption
    | apply State.wr_keeps
    | apply State.modTrain_keeps
    | apply State.modLane_keeps
    | apply OutKeeps.next
    | apply OutKeeps.ite
    | apply Keeps.ite
    | (refine Keeps.forUpto _ ?_ (fun i a k => ?_))
    | (fail_if_no_progress refine Keeps.upd ?_ rfl (by first | exact le_refl _ | exact le_max_left _ _ | exact Nat.le_succ _) (by first | exact le_refl _ | exact Nat.le_succ _) rfl rfl)
    | split
    | dsimp only

theorem execPresetMeasureEnd_keeps {x0 : State} (n : PortId) (p : Pos) (d : ℕ) {s : State} (hk : Keeps x0 s) : OutKeeps x0 (execPresetMeasureEnd n p d s) := by
  unfold execPresetMeasureEnd
  try dsimp only
  repeat' with_reducible first
    | exact hk
    | assumption
    | apply State.atLeast_keeps
    | apply State.modLane_keeps
    | apply rateCheck_keeps
    | apply OutKeeps.next
    | apply OutKeeps.ite
    | apply Keeps.ite
    | (fail_if_no_progress refine Keeps.upd ?_ rfl (by first | exact le_refl _ | exact le_max_left _ _ | exact Nat.le_succ _) (by first | exact le_refl _ | exact Nat.le_succ _) rfl rfl)
    | split
    | dsimp only

theorem execReplay_keeps {x0 : State} (n : PortId) (seq : BitVec 10) {s : State} (hk : Keeps x0 s) : OutKeeps x0 (execReplay n seq s) := by
  unfold execReplay
  try dsimp only
  repeat' with_reducible first
    | exact hk
    | assumption
    | apply startReplay_keeps
    | apply OutKeeps.next
    | apply OutKeeps.ite
    | apply Keeps.ite
    | split
    | dsimp only

theorem execAck_keeps {x0 : State} (n : PortId) (seq : BitVec 10) {s : State} (hk : Keeps x0 s) : OutKeeps x0 (execAck n seq s) := by
  unfold execAck
  try dsimp only
  repeat' with_reducible first
    | exact hk
    | assumption
    | apply sendDone_keeps
    | apply applyAck_keeps
    | apply OutKeeps.next
    | apply OutKeeps.ite
    | apply Keeps.ite
    | split
    | dsimp only

theorem execAckTimer_keeps {x0 : State} (n : PortId) {s : State} (hk : Keeps x0 s) : OutKeeps x0 (execAckTimer n s) := by
  unfold execAckTimer
  try dsimp only
  repeat' with_reducible first
    | exact hk
    | assumption
    | apply sendAck_keeps
    | apply State.atLeast_keeps
    | apply OutKeeps.next
    | apply OutKeeps.ite
    | apply Keeps.ite
    | (fail_if_no_progress refine Keeps.upd ?_ rfl (by first | exact le_refl _ | exact le_max_left _ _ | exact Nat.le_succ _) (by first | exact le_refl _ | exact Nat.le_succ _) rfl rfl)
    | split
    | dsimp only

theorem execReplayRepeatTimer_keeps {x0 : State} (n : PortId) {s : State} (hk : Keeps x0 s) : OutKeeps x0 (execReplayRepeatTimer n s) := by
  unfold execReplayRepeatTimer
  try dsimp only
  repeat' with_reducible first
    | exact hk
    | assumption
    | apply askReplay_keeps
    | apply State.modRetry_keeps
    | apply State.atLeast_keeps
    | apply OutKeeps.next
    | apply OutKeeps.ite
    | apply Keeps.ite
    | (fail_if_no_progress refine Keeps.upd ?_ rfl (by first | exact le_refl _ | exact le_max_left _ _ | exact Nat.le_succ _) (by first | exact le_refl _ | exact Nat.le_succ _) rfl rfl)
    | split
    | dsimp only

theorem execReplayTimer_keeps {x0 : State} (n : PortId) {s : State} (hk : Keeps x0 s) : OutKeeps x0 (execReplayTimer n s) := by
  unfold execReplayTimer
  try dsimp only
  repeat' with_reducible first
    | exact hk
    | assumption
    | apply State.sat_keeps
    | apply State.atLeast_keeps
    | apply resend_keeps
    | apply State.modRetry_keeps
    | apply enterRecovery_keeps
    | apply OutKeeps.next
    | apply OutKeeps.ite
    | apply Keeps.ite
    | (fail_if_no_progress refine Keeps.upd ?_ rfl (by first | exact le_refl _ | exact le_max_left _ _ | exact Nat.le_succ _) (by first | exact le_refl _ | exact Nat.le_succ _) rfl rfl)
    | split
    | dsimp only

theorem execRecoveryFallbackTimer_keeps {x0 : State} (n : PortId) {s : State} (hk : Keeps x0 s) : OutKeeps x0 (execRecoveryFallbackTimer n s) := by
  unfold execRecoveryFallbackTimer
  try dsimp only
  repeat' with_reducible first
    | exact hk
    | assumption
    | apply recoverFull_keeps
    | apply State.atLeast_keeps
    | apply OutKeeps.next
    | apply OutKeeps.ite
    | apply Keeps.ite
    | (fail_if_no_progress refine Keeps.upd ?_ rfl (by first | exact le_refl _ | exact le_max_left _ _ | exact Nat.le_succ _) (by first | exact le_refl _ | exact Nat.le_succ _) rfl rfl)
    | split
    | dsimp only

theorem execRecoveryTimeout_keeps {x0 : State} (n : PortId) {s : State} (hk : Keeps x0 s) : OutKeeps x0 (execRecoveryTimeout n s) := by
  unfold execRecoveryTimeout
  try dsimp only
  repeat' with_reducible first
    | exact hk
    | assumption
    | apply linkDown_keeps
    | apply State.atLeast_keeps
    | apply OutKeeps.next
    | (fail_if_no_progress refine Keeps.upd ?_ rfl (by first | exact le_refl _ | exact le_max_left _ _ | exact Nat.le_succ _) (by first | exact le_refl _ | exact Nat.le_succ _) rfl rfl)
    | split
    | dsimp only

theorem execFullTrainingTimer_keeps {x0 : State} (n : PortId) {s : State} (hk : Keeps x0 s) : OutKeeps x0 (execFullTrainingTimer n s) := by
  unfold execFullTrainingTimer
  try dsimp only
  repeat' with_reducible first
    | exact hk
    | assumption
    | apply recoverFull_keeps
    | apply State.atLeast_keeps
    | apply OutKeeps.next
    | (fail_if_no_progress refine Keeps.upd ?_ rfl (by first | exact le_refl _ | exact le_max_left _ _ | exact Nat.le_succ _) (by first | exact le_refl _ | exact Nat.le_succ _) rfl rfl)
    | split
    | dsimp only

theorem execCreditReturnTimer_keeps {x0 : State} (n : PortId) (tc : BitVec 2) {s : State} (hk : Keeps x0 s) : OutKeeps x0 (execCreditReturnTimer n tc s) := by
  unfold execCreditReturnTimer
  try dsimp only
  repeat' with_reducible first
    | exact hk
    | assumption
    | apply sendCredit_keeps
    | apply State.atLeast_keeps
    | apply OutKeeps.next
    | (fail_if_no_progress refine Keeps.upd ?_ rfl (by first | exact le_refl _ | exact le_max_left _ _ | exact Nat.le_succ _) (by first | exact le_refl _ | exact Nat.le_succ _) rfl rfl)
    | split
    | dsimp only

theorem execCreditStallTimer_keeps {x0 : State} (n : PortId) (pool : Fin 3) (tc : BitVec 2) {s : State} (hk : Keeps x0 s) : OutKeeps x0 (execCreditStallTimer n pool tc s) := by
  unfold execCreditStallTimer
  try dsimp only
  repeat' with_reducible first
    | exact hk
    | assumption
    | apply State.modCredit_keeps
    | apply State.atLeast_keeps
    | apply State.raise_keeps
    | apply OutKeeps.next
    | apply OutKeeps.ite
    | apply Keeps.ite
    | (fail_if_no_progress refine Keeps.upd ?_ rfl (by first | exact le_refl _ | exact le_max_left _ _ | exact Nat.le_succ _) (by first | exact le_refl _ | exact Nat.le_succ _) rfl rfl)
    | split
    | dsimp only

theorem execPower_keeps {x0 : State} (n : PortId) (kind : BitVec 2) (target : BitVec 2) {s : State} (hk : Keeps x0 s) : OutKeeps x0 (execPower n kind target s) := by
  unfold execPower
  try dsimp only
  repeat' with_reducible first
    | exact hk
    | assumption
    | apply takePower_keeps
    | apply touch_keeps
    | apply OutKeeps.next
    | apply OutKeeps.ite
    | apply Keeps.ite
    | split
    | dsimp only

theorem execCoastIdleTimer_keeps {x0 : State} (n : PortId) {s : State} (hk : Keeps x0 s) : OutKeeps x0 (execCoastIdleTimer n s) := by
  unfold execCoastIdleTimer
  try dsimp only
  repeat' with_reducible first
    | exact hk
    | assumption
    | apply State.atLeast_keeps
    | apply State.modPort_keeps
    | apply sendControl_keeps
    | apply OutKeeps.next
    | apply OutKeeps.ite
    | apply Keeps.ite
    | (fail_if_no_progress refine Keeps.upd ?_ rfl (by first | exact le_refl _ | exact le_max_left _ _ | exact Nat.le_succ _) (by first | exact le_refl _ | exact Nat.le_succ _) rfl rfl)
    | split
    | dsimp only

theorem retryPositions_keeps {x0 : State} (n : ℕ) {s : State} (hk : Keeps x0 s) : Keeps x0 (retryPositions n s) := by
  unfold retryPositions
  try dsimp only
  repeat' with_reducible first
    | exact hk
    | assumption
    | apply State.wr_keeps
    | apply Keeps.ite
    | (refine Keeps.forUpto _ ?_ (fun i a k => ?_))
    | split
    | dsimp only

theorem execRetrain_keeps {x0 : State} (n : PortId) (widen : Bool) {s : State} (hk : Keeps x0 s) : OutKeeps x0 (execRetrain n widen s) := by
  unfold execRetrain
  try dsimp only
  repeat' with_reducible first
    | exact hk
    | assumption
    | apply enterRecovery_keeps
    | apply retryPositions_keeps
    | apply touch_keeps
    | apply OutKeeps.next
    | apply OutKeeps.ite
    | apply Keeps.ite
    | split
    | dsimp only

theorem applyTest_keeps {x0 : State} (n : ℕ) (p : ℕ) (v : ℕ) {s : State} (hk : Keeps x0 s) : Keeps x0 (applyTest n p v s) := by
  unfold applyTest
  try dsimp only
  repeat' with_reducible first
    | exact hk
    | assumption
    | apply State.modLane_keeps
    | apply laneTo_keeps
    | apply startTraining_keeps
    | apply linkDown_keeps
    | apply State.wr_keeps
    | apply State.setLink_keeps
    | apply parkLanes_keeps
    | apply State.modTrain_keeps
    | apply Keeps.ite
    | (fail_if_no_progress refine Keeps.upd ?_ rfl (by first | exact le_refl _ | exact le_max_left _ _ | exact Nat.le_succ _) (by first | exact le_refl _ | exact Nat.le_succ _) rfl rfl)
    | split
    | dsimp only

theorem portReset_keeps {x0 : State} (n : ℕ) {s : State} (hk : Keeps x0 s) : Keeps x0 (portReset n s) := by
  unfold portReset
  try dsimp only
  repeat' with_reducible first
    | exact hk
    | assumption
    | apply monDiscard_keeps
    | apply State.wr_keeps
    | apply State.modPort_keeps
    | apply State.setReg_keeps
    | apply laneTo_keeps
    | apply State.modLane_keeps
    | apply setRate_keeps
    | apply linkDown_keeps
    | (refine Keeps.forUpto _ ?_ (fun i a k => ?_))
    | (fail_if_no_progress refine Keeps.upd ?_ rfl (by first | exact le_refl _ | exact le_max_left _ _ | exact Nat.le_succ _) (by first | exact le_refl _ | exact Nat.le_succ _) rfl rfl)
    | dsimp only

theorem applyRole_keeps {x0 : State} (n : ℕ) (v : ℕ) {s : State} (hk : Keeps x0 s) : Keeps x0 (applyRole n v s) := by
  unfold applyRole
  try dsimp only
  repeat' with_reducible first
    | exact hk
    | assumption
    | apply linkDown_keeps
    | apply State.wr_keeps
    | apply applyTest_keeps
    | apply State.setLink_keeps
    | apply parkLanes_keeps
    | apply Keeps.ite
    | (refine Keeps.forUpto _ ?_ (fun i a k => ?_))
    | split
    | dsimp only

theorem applyDelayed_keeps {x0 : State} (n : ℕ) (d : Delayed) {s : State} (hk : Keeps x0 s) : Keeps x0 (applyDelayed n d s) := by
  unfold applyDelayed
  try dsimp only
  repeat' with_reducible first
    | exact hk
    | assumption
    | apply applyTest_keeps
    | apply linkDown_keeps
    | apply startTraining_keeps
    | apply enterRecovery_keeps
    | apply retryPositions_keeps
    | apply applyRole_keeps
    | apply portReset_keeps
    | apply Keeps.ite
    | (fail_if_no_progress refine Keeps.upd ?_ rfl (by first | exact le_refl _ | exact le_max_left _ _ | exact Nat.le_succ _) (by first | exact le_refl _ | exact Nat.le_succ _) rfl rfl)
    | split
    | dsimp only

theorem execDelayedChangeApply_keeps {x0 : State} (n : PortId) {s : State} (hk : Keeps x0 s) : OutKeeps x0 (execDelayedChangeApply n s) := by
  unfold execDelayedChangeApply
  try dsimp only
  repeat' with_reducible first
    | exact hk
    | assumption
    | apply State.atLeast_keeps
    | apply applyDelayed_keeps
    | apply State.modPort_keeps
    | apply OutKeeps.next
    | (fail_if_no_progress refine Keeps.upd ?_ rfl (by first | exact le_refl _ | exact le_max_left _ _ | exact Nat.le_succ _) (by first | exact le_refl _ | exact Nat.le_succ _) rfl rfl)
    | split
    | dsimp only

end Sys2Proof.Machine
end

