-- ==== Sys2Proof/Laws/KeepsMap.lean ====
section
/-! SUPPORT. What the operations of Machine/Map.lean keep (Keeps of Safety.lean). -/
namespace Sys2Proof.Machine
open Sys2Proof

set_option linter.all false

theorem lockMap_keeps {x0 : State} {s : State} (hk : Keeps x0 s) : Keeps x0 (lockMap s) := by
  unfold lockMap
  try dsimp only
  repeat' with_reducible first
    | exact hk
    | assumption
    | apply State.wr_keeps
    | apply Keeps.ite
    | split
    | dsimp only

end Sys2Proof.Machine
end

