-- ==== Sys2Proof/Laws/KeepsDram.lean ====
section
/-! SUPPORT. What the operations of Machine/Dram.lean keep (Keeps of Safety.lean). -/
namespace Sys2Proof.Machine
open Sys2Proof

set_option linter.all false

theorem setRawWord_keeps {x0 : State} (p : ℕ) (bank : ℕ) (phys : ℕ) (col : ℕ) (w : ℕ) (v : Raw72) {s : State} (hk : Keeps x0 s) : Keeps x0 (setRawWord p bank phys col w v s) := by
  unfold setRawWord
  try dsimp only
  repeat' with_reducible first
    | exact hk
    | assumption
    | (fail_if_no_progress refine Keeps.upd ?_ rfl (by first | exact le_refl _ | exact le_max_left _ _ | exact Nat.le_succ _) (by first | exact le_refl _ | exact Nat.le_succ _) rfl rfl)
    | (fail_if_no_progress refine Keeps.updDram ?_ rfl rfl rfl (fun m => by first | exact putCells_wf _ _ m | exact memPut_wf _ _ m) rfl)
    | dsimp only

theorem writeWord_keeps {x0 : State} (p : ℕ) (bank : ℕ) (phys : ℕ) (col : ℕ) (w : ℕ) (v : Raw72) {s : State} (hk : Keeps x0 s) : Keeps x0 (writeWord p bank phys col w v s) := by
  unfold writeWord
  try dsimp only
  repeat' with_reducible first
    | exact hk
    | assumption
    | apply setRawWord_keeps
    | (refine Keeps.foldl _ ?_ (fun a e k => ?_))
    | (fail_if_no_progress refine Keeps.upd ?_ rfl (by first | exact le_refl _ | exact le_max_left _ _ | exact Nat.le_succ _) (by first | exact le_refl _ | exact Nat.le_succ _) rfl rfl)
    | (fail_if_no_progress refine Keeps.updDram ?_ rfl rfl rfl (fun m => by first | exact putCells_wf _ _ m | exact memPut_wf _ _ m) rfl)
    | dsimp only

theorem writePhys_keeps {x0 : State} (p : ℕ) (bank : ℕ) (phys : ℕ) (col : ℕ) (v : RawLine) {s : State} (hk : Keeps x0 s) : Keeps x0 (writePhys p bank phys col v s) := by
  unfold writePhys
  try dsimp only
  repeat' with_reducible first
    | exact hk
    | assumption
    | apply writeWord_keeps
    | (refine Keeps.forUpto _ ?_ (fun i a k => ?_))
    | dsimp only

theorem writeLine_keeps {x0 : State} (l : Loc) (v : RawLine) {s : State} (hk : Keeps x0 s) : Keeps x0 (writeLine l v s) := by
  unfold writeLine
  try dsimp only
  repeat' with_reducible first
    | exact hk
    | assumption
    | apply writePhys_keeps
    | dsimp only

theorem restoreInto_keeps {x0 : State} (p : ℕ) (b : ℕ) (phys : ℕ) (save : List RawLine) {s : State} (hk : Keeps x0 s) : Keeps x0 (restoreInto p b phys save s) := by
  unfold restoreInto
  try dsimp only
  repeat' with_reducible first
    | exact hk
    | assumption
    | apply writePhys_keeps
    | (refine Keeps.foldl _ ?_ (fun a e k => ?_))
    | dsimp only

theorem restoreSlice_keeps {x0 : State} (p : ℕ) (x : Slice) {s : State} (hk : Keeps x0 s) : Keeps x0 (restoreSlice p x s) := by
  unfold restoreSlice
  try dsimp only
  repeat' with_reducible first
    | exact hk
    | assumption
    | apply restoreInto_keeps
    | apply Keeps.ite
    | split
    | dsimp only

theorem logRecord_keeps {x0 : State} (p : ℕ) (r : EccRec) {s : State} (hk : Keeps x0 s) : Keeps x0 (logRecord p r s) := by
  unfold logRecord
  try dsimp only
  repeat' with_reducible first
    | exact hk
    | assumption
    | apply State.raiseOnce_keeps
    | apply State.sat_keeps
    | apply State.modPav_keeps
    | apply Keeps.ite
    | (fail_if_no_progress refine Keeps.upd ?_ rfl (by first | exact le_refl _ | exact le_max_left _ _ | exact Nat.le_succ _) (by first | exact le_refl _ | exact Nat.le_succ _) rfl rfl)
    | split
    | dsimp only

theorem abortSlice_keeps {x0 : State} (p : ℕ) (cause : ℕ) {s : State} (hk : Keeps x0 s) : Keeps x0 (abortSlice p cause s) := by
  unfold abortSlice
  try dsimp only
  repeat' with_reducible first
    | exact hk
    | assumption
    | apply State.modPav_keeps
    | apply State.raise_keeps
    | apply State.sat_keeps
    | apply Keeps.ite
    | (fail_if_no_progress refine Keeps.upd ?_ rfl (by first | exact le_refl _ | exact le_max_left _ _ | exact Nat.le_succ _) (by first | exact le_refl _ | exact Nat.le_succ _) rfl rfl)
    | split
    | dsimp only

theorem endTsv_keeps {x0 : State} (p : ℕ) (low : Bool) (aborted : Bool) {s : State} (hk : Keeps x0 s) : Keeps x0 (endTsv p low aborted s) := by
  unfold endTsv
  try dsimp only
  repeat' with_reducible first
    | exact hk
    | assumption
    | apply State.wr_keeps
    | apply State.modPav_keeps
    | apply State.finish_keeps
    | apply Keeps.ite
    | (fail_if_no_progress refine Keeps.upd ?_ rfl (by first | exact le_refl _ | exact le_max_left _ _ | exact Nat.le_succ _) (by first | exact le_refl _ | exact Nat.le_succ _) rfl rfl)
    | split
    | dsimp only

theorem abortTsv_keeps {x0 : State} (p : ℕ) {s : State} (hk : Keeps x0 s) : Keeps x0 (abortTsv p s) := by
  unfold abortTsv
  try dsimp only
  repeat' with_reducible first
    | exact hk
    | assumption
    | apply endTsv_keeps
    | apply State.raise_keeps
    | (fail_if_no_progress refine Keeps.upd ?_ rfl (by first | exact le_refl _ | exact le_max_left _ _ | exact Nat.le_succ _) (by first | exact le_refl _ | exact Nat.le_succ _) rfl rfl)
    | split
    | dsimp only

theorem retireRunning_keeps {x0 : State} (p : ℕ) (cause : ℕ) {s : State} (hk : Keeps x0 s) : Keeps x0 (retireRunning p cause s) := by
  unfold retireRunning
  try dsimp only
  repeat' with_reducible first
    | exact hk
    | assumption
    | apply State.raise_keeps
    | apply State.wr_keeps
    | apply abortTsv_keeps
    | apply abortSlice_keeps
    | apply Keeps.ite
    | split
    | dsimp only

theorem exhaust_keeps {x0 : State} (p : ℕ) (bank : ℕ) (row : ℕ) {s : State} (hk : Keeps x0 s) : Keeps x0 (exhaust p bank row s) := by
  unfold exhaust
  try dsimp only
  repeat' with_reducible first
    | exact hk
    | assumption
    | apply logRecord_keeps
    | apply State.raise_keeps
    | apply State.sat_keeps
    | apply State.modPav_keeps
    | apply retireRunning_keeps
    | apply Keeps.ite
    | (fail_if_no_progress refine Keeps.upd ?_ rfl (by first | exact le_refl _ | exact le_max_left _ _ | exact Nat.le_succ _) (by first | exact le_refl _ | exact Nat.le_succ _) rfl rfl)
    | split
    | dsimp only

theorem queueCopy_keeps {x0 : State} (p : ℕ) (bank : ℕ) (row : ℕ) (mbx : Option ℕ) {s : State} (hk : Keeps x0 s) : Keeps x0 (queueCopy p bank row mbx s).2 := by
  unfold queueCopy
  try dsimp only
  repeat' with_reducible first
    | exact hk
    | assumption
    | apply exhaust_keeps
    | apply State.modPav_keeps
    | apply Keeps.ite
    | (refine Keeps.foldlFst _ ?_ (fun a e k => ?_))
    | (refine Keeps.foldlSnd _ ?_ (fun a e k => ?_))
    | (fail_if_no_progress refine Keeps.upd ?_ rfl (by first | exact le_refl _ | exact le_max_left _ _ | exact Nat.le_succ _) (by first | exact le_refl _ | exact Nat.le_succ _) rfl rfl)
    | split
    | dsimp only

theorem hardFail_keeps {x0 : State} (p : ℕ) (l : Loc) {s : State} (hk : Keeps x0 s) : Keeps x0 (hardFail p l s) := by
  unfold hardFail
  try dsimp only
  repeat' with_reducible first
    | exact hk
    | assumption
    | apply State.raise_keeps
    | apply State.sat_keeps
    | (refine Keeps.snd (p := queueCopy _ _ _ _ _) (by assumption) ?_)
    | apply queueCopy_keeps
    | apply Keeps.ite
    | split
    | dsimp only

theorem freeRepeats_keeps {x0 : State} (p : ℕ) (bank : ℕ) (phys : ℕ) {s : State} (hk : Keeps x0 s) : Keeps x0 (freeRepeats p bank phys s) := by
  unfold freeRepeats
  try dsimp only
  repeat' with_reducible first
    | exact hk
    | assumption
    | apply State.modPav_keeps
    | (fail_if_no_progress refine Keeps.upd ?_ rfl (by first | exact le_refl _ | exact le_max_left _ _ | exact Nat.le_succ _) (by first | exact le_refl _ | exact Nat.le_succ _) rfl rfl)
    | dsimp only

theorem bucketAdd_keeps {x0 : State} (p : ℕ) (n : ℕ) (bank : ℕ) {s : State} (hk : Keeps x0 s) : Keeps x0 (bucketAdd p n bank s) := by
  unfold bucketAdd
  try dsimp only
  repeat' with_reducible first
    | exact hk
    | assumption
    | apply State.wr_keeps
    | apply State.sat_keeps
    | apply State.raise_keeps
    | apply Keeps.ite
    | split
    | dsimp only

theorem addRepeat_keeps {x0 : State} (p : ℕ) (e : Repeat) {s : State} (hk : Keeps x0 s) : Keeps x0 (addRepeat p e s) := by
  unfold addRepeat
  try dsimp only
  repeat' with_reducible first
    | exact hk
    | assumption
    | apply State.setPav_keeps
    | apply State.sat_keeps
    | apply Keeps.ite
    | (fail_if_no_progress refine Keeps.upd ?_ rfl (by first | exact le_refl _ | exact le_max_left _ _ | exact Nat.le_succ _) (by first | exact le_refl _ | exact Nat.le_succ _) rfl rfl)
    | split
    | dsimp only

theorem repeatWord_keeps {x0 : State} (p : ℕ) (l : Loc) (w : ℕ) (syn : ℕ) (bit : ℕ) (src : ReadSource) {s : State} (hk : Keeps x0 s) : Keeps x0 (repeatWord p l w syn bit src s).1 := by
  unfold repeatWord
  try dsimp only
  repeat' with_reducible first
    | exact hk
    | assumption
    | apply addRepeat_keeps
    | apply logRecord_keeps
    | apply State.modPav_keeps
    | apply hardFail_keeps
    | apply Keeps.ite
    | (refine Keeps.foldlFst _ ?_ (fun a e k => ?_))
    | (refine Keeps.foldlSnd _ ?_ (fun a e k => ?_))
    | (fail_if_no_progress refine Keeps.upd ?_ rfl (by first | exact le_refl _ | exact le_max_left _ _ | exact Nat.le_succ _) (by first | exact le_refl _ | exact Nat.le_succ _) rfl rfl)
    | split
    | dsimp only

theorem uncorrWord_keeps {x0 : State} (p : ℕ) (l : Loc) (w : ℕ) (syn : ℕ) (poison : Bool) (src : ReadSource) {s : State} (hk : Keeps x0 s) : Keeps x0 (uncorrWord p l w syn poison src s) := by
  unfold uncorrWord
  try dsimp only
  repeat' with_reducible first
    | exact hk
    | assumption
    | apply State.sat_keeps
    | apply logRecord_keeps
    | apply State.raiseOnce_keeps
    | apply Keeps.ite
    | split
    | dsimp only

theorem accountLine_keeps {x0 : State} (p : ℕ) (l : Loc) (r : RawLine) (src : ReadSource) {s : State} (hk : Keeps x0 s) : Keeps x0 (accountLine p l r src s).1 := by
  unfold accountLine
  try dsimp only
  repeat' with_reducible first
    | exact hk
    | assumption
    | apply State.sat_keeps
    | apply bucketAdd_keeps
    | (refine Keeps.fst (p := repeatWord _ _ _ _ _ _ _) (by assumption) ?_)
    | apply repeatWord_keeps
    | apply uncorrWord_keeps
    | apply Keeps.ite
    | (refine Keeps.foldl _ ?_ (fun a e k => ?_))
    | (refine Keeps.foldlFst _ ?_ (fun a e k => ?_))
    | (refine Keeps.foldlSnd _ ?_ (fun a e k => ?_))
    | (fail_if_no_progress refine Keeps.upd ?_ rfl (by first | exact le_refl _ | exact le_max_left _ _ | exact Nat.le_succ _) (by first | exact le_refl _ | exact Nat.le_succ _) rfl rfl)
    | split
    | dsimp only

theorem noteWrite_keeps {x0 : State} (p : ℕ) (l : Loc) {s : State} (hk : Keeps x0 s) : Keeps x0 (noteWrite p l s) := by
  unfold noteWrite
  try dsimp only
  repeat' with_reducible first
    | exact hk
    | assumption
    | apply State.modPav_keeps
    | apply Keeps.ite
    | (fail_if_no_progress refine Keeps.upd ?_ rfl (by first | exact le_refl _ | exact le_max_left _ _ | exact Nat.le_succ _) (by first | exact le_refl _ | exact Nat.le_succ _) rfl rfl)
    | split
    | dsimp only

theorem storeLine_keeps {x0 : State} (l : Loc) (v : RawLine) {s : State} (hk : Keeps x0 s) : Keeps x0 (storeLine l v s) := by
  unfold storeLine
  try dsimp only
  repeat' with_reducible first
    | exact hk
    | assumption
    | apply noteWrite_keeps
    | apply writeLine_keeps
    | dsimp only

end Sys2Proof.Machine
end

