-- ==== Sys2Proof/Laws/KeepsRefresh.lean ====
section
/-! SUPPORT. What the operations of Machine/Refresh.lean keep (Keeps of Safety.lean). -/
namespace Sys2Proof.Machine
open Sys2Proof

set_option linter.all false

theorem State.setRank_keeps {x0 : State} {s : State} (p : ℕ) (r : ℕ) (k : Rank) (hk : Keeps x0 s) : Keeps x0 (State.setRank s p r k) := by
  unfold State.setRank
  try dsimp only
  repeat' with_reducible first
    | exact hk
    | assumption
    | apply State.modPav_keeps
    | (fail_if_no_progress refine Keeps.upd ?_ rfl (by first | exact le_refl _ | exact le_max_left _ _ | exact Nat.le_succ _) (by first | exact le_refl _ | exact Nat.le_succ _) rfl rfl)
    | dsimp only

theorem State.modRank_keeps {x0 : State} {s : State} (p : ℕ) (r : ℕ) (f : Rank → Rank) (hk : Keeps x0 s) : Keeps x0 (State.modRank s p r f) := by
  unfold State.modRank
  try dsimp only
  repeat' with_reducible first
    | exact hk
    | assumption
    | apply State.setRank_keeps
    | dsimp only

theorem State.setBank_keeps {x0 : State} {s : State} (p : ℕ) (b : ℕ) (k : Bank) (hk : Keeps x0 s) : Keeps x0 (State.setBank s p b k) := by
  unfold State.setBank
  try dsimp only
  repeat' with_reducible first
    | exact hk
    | assumption
    | apply State.modPav_keeps
    | (fail_if_no_progress refine Keeps.upd ?_ rfl (by first | exact le_refl _ | exact le_max_left _ _ | exact Nat.le_succ _) (by first | exact le_refl _ | exact Nat.le_succ _) rfl rfl)
    | dsimp only

theorem State.modBank_keeps {x0 : State} {s : State} (p : ℕ) (b : ℕ) (f : Bank → Bank) (hk : Keeps x0 s) : Keeps x0 (State.modBank s p b f) := by
  unfold State.modBank
  try dsimp only
  repeat' with_reducible first
    | exact hk
    | assumption
    | apply State.setBank_keeps
    | dsimp only

theorem cadSwitch_keeps {x0 : State} (osc : Bool) {s : State} (hk : Keeps x0 s) : Keeps x0 (cadSwitch osc s) := by
  unfold cadSwitch
  try dsimp only [State.drawFree, State.drawEntropy]
  repeat' with_reducible first
    | exact hk
    | assumption
    | (refine Keeps.snd (p := State.drawFree _) (by assumption) ?_)
    | apply State.drawFree_keeps
    | apply Keeps.ite
    | (fail_if_no_progress refine Keeps.upd ?_ rfl (by first | exact le_refl _ | exact le_max_left _ _ | exact Nat.le_succ _) (by first | exact le_refl _ | exact Nat.le_succ _) rfl rfl)
    | split
    | dsimp only

theorem gatePav_keeps {x0 : State} (p : ℕ) {s : State} (hk : Keeps x0 s) : Keeps x0 (gatePav p s) := by
  unfold gatePav
  try dsimp only
  repeat' with_reducible first
    | exact hk
    | assumption
    | apply State.modPav_keeps
    | (fail_if_no_progress refine Keeps.upd ?_ rfl (by first | exact le_refl _ | exact le_max_left _ _ | exact Nat.le_succ _) (by first | exact le_refl _ | exact Nat.le_succ _) rfl rfl)
    | dsimp only

theorem ungatePav_keeps {x0 : State} (p : ℕ) {s : State} (hk : Keeps x0 s) : Keeps x0 (ungatePav p s) := by
  unfold ungatePav
  try dsimp only
  repeat' with_reducible first
    | exact hk
    | assumption
    | apply State.modPav_keeps
    | apply Keeps.ite
    | (fail_if_no_progress refine Keeps.upd ?_ rfl (by first | exact le_refl _ | exact le_max_left _ _ | exact Nat.le_succ _) (by first | exact le_refl _ | exact Nat.le_succ _) rfl rfl)
    | split
    | dsimp only

theorem stepWindows_keeps {x0 : State} (p : ℕ) (r : ℕ) (a : ℕ) {s : State} (hk : Keeps x0 s) : Keeps x0 (stepWindows p r a s) := by
  unfold stepWindows
  try dsimp only
  repeat' with_reducible first
    | exact hk
    | assumption
    | apply State.modRank_keeps
    | apply Keeps.ite
    | (refine Keeps.foldl _ ?_ (fun a e k => ?_))
    | (fail_if_no_progress refine Keeps.upd ?_ rfl (by first | exact le_refl _ | exact le_max_left _ _ | exact Nat.le_succ _) (by first | exact le_refl _ | exact Nat.le_succ _) rfl rfl)
    | split
    | dsimp only

theorem closeChanged_keeps {x0 : State} (p : ℕ) (r : ℕ) {s : State} (hk : Keeps x0 s) : Keeps x0 (closeChanged p r s) := by
  unfold closeChanged
  try dsimp only
  repeat' with_reducible first
    | exact hk
    | assumption
    | apply State.modRank_keeps
    | apply Keeps.ite
    | (refine Keeps.foldl _ ?_ (fun a e k => ?_))
    | (fail_if_no_progress refine Keeps.upd ?_ rfl (by first | exact le_refl _ | exact le_max_left _ _ | exact Nat.le_succ _) (by first | exact le_refl _ | exact Nat.le_succ _) rfl rfl)
    | split
    | dsimp only

theorem wakeRank_keeps {x0 : State} (p : ℕ) (r : ℕ) {s : State} (hk : Keeps x0 s) : Keeps x0 (wakeRank p r s) := by
  unfold wakeRank
  try dsimp only
  repeat' with_reducible first
    | exact hk
    | assumption
    | apply State.setRank_keeps
    | apply Keeps.ite
    | (fail_if_no_progress refine Keeps.upd ?_ rfl (by first | exact le_refl _ | exact le_max_left _ _ | exact Nat.le_succ _) (by first | exact le_refl _ | exact Nat.le_succ _) rfl rfl)
    | split
    | dsimp only

theorem wakeDue_keeps {x0 : State} (p : ℕ) (r : ℕ) {s : State} (hk : Keeps x0 s) : Keeps x0 (wakeDue p r s) := by
  unfold wakeDue
  try dsimp only
  repeat' with_reducible first
    | exact hk
    | assumption
    | apply wakeRank_keeps
    | apply Keeps.ite
    | split
    | dsimp only

theorem forceRank_keeps {x0 : State} (p : ℕ) (r : ℕ) {s : State} (hk : Keeps x0 s) : Keeps x0 (forceRank p r s) := by
  unfold forceRank
  try dsimp only
  repeat' with_reducible first
    | exact hk
    | assumption
    | apply wakeDue_keeps
    | apply State.raiseOnce_keeps
    | apply State.sat_keeps
    | apply State.modRank_keeps
    | (fail_if_no_progress refine Keeps.upd ?_ rfl (by first | exact le_refl _ | exact le_max_left _ _ | exact Nat.le_succ _) (by first | exact le_refl _ | exact Nat.le_succ _) rfl rfl)
    | dsimp only

theorem noteUrgent_keeps {x0 : State} (p : ℕ) (r : ℕ) {s : State} (hk : Keeps x0 s) : Keeps x0 (noteUrgent p r s) := by
  unfold noteUrgent
  try dsimp only
  repeat' with_reducible first
    | exact hk
    | assumption
    | apply State.modRank_keeps
    | apply Keeps.ite
    | (fail_if_no_progress refine Keeps.upd ?_ rfl (by first | exact le_refl _ | exact le_max_left _ _ | exact Nat.le_succ _) (by first | exact le_refl _ | exact Nat.le_succ _) rfl rfl)
    | split
    | dsimp only

theorem payEnd_keeps {x0 : State} (p : ℕ) (r : ℕ) {s : State} (hk : Keeps x0 s) : Keeps x0 (payEnd p r s) := by
  unfold payEnd
  try dsimp only
  repeat' with_reducible first
    | exact hk
    | assumption
    | apply State.setRank_keeps
    | apply Keeps.ite
    | (fail_if_no_progress refine Keeps.upd ?_ rfl (by first | exact le_refl _ | exact le_max_left _ _ | exact Nat.le_succ _) (by first | exact le_refl _ | exact Nat.le_succ _) rfl rfl)
    | split
    | dsimp only

theorem refStep_keeps {x0 : State} (p : ℕ) (r : ℕ) {s0 : State} (hk : Keeps x0 s0) : Keeps x0 (refStep p r s0) := by
  unfold refStep
  try dsimp only
  repeat' with_reducible first
    | exact hk
    | assumption
    | apply noteUrgent_keeps
    | apply payEnd_keeps
    | apply forceRank_keeps
    | apply State.sat_keeps
    | apply State.setRank_keeps
    | apply wakeDue_keeps
    | apply Keeps.ite
    | (fail_if_no_progress refine Keeps.upd ?_ rfl (by first | exact le_refl _ | exact le_max_left _ _ | exact Nat.le_succ _) (by first | exact le_refl _ | exact Nat.le_succ _) rfl rfl)
    | split
    | dsimp only

theorem refAll_keeps {x0 : State} (p : ℕ) {s : State} (hk : Keeps x0 s) : Keeps x0 (refAll p s) := by
  unfold refAll
  try dsimp only
  repeat' with_reducible first
    | exact hk
    | assumption
    | apply refStep_keeps
    | (refine Keeps.forUpto _ ?_ (fun i a k => ?_))
    | dsimp only

theorem execRefreshAccrual_keeps {x0 : State} (p : PavId) (r : RankId) {s : State} (hk : Keeps x0 s) : OutKeeps x0 (execRefreshAccrual p r s) := by
  unfold execRefreshAccrual
  try dsimp only
  repeat' with_reducible first
    | exact hk
    | assumption
    | apply State.atLeast_keeps
    | apply State.setRank_keeps
    | apply refStep_keeps
    | apply State.wr_keeps
    | apply OutKeeps.next
    | apply OutKeeps.ite
    | apply Keeps.ite
    | (fail_if_no_progress refine Keeps.upd ?_ rfl (by first | exact le_refl _ | exact le_max_left _ _ | exact Nat.le_succ _) (by first | exact le_refl _ | exact Nat.le_succ _) rfl rfl)
    | split
    | dsimp only

theorem bandRank_keeps {x0 : State} (p : ℕ) (r : ℕ) {s : State} (hk : Keeps x0 s) : Keeps x0 (bandRank p r s) := by
  unfold bandRank
  try dsimp only
  repeat' with_reducible first
    | exact hk
    | assumption
    | apply wakeDue_keeps
    | apply State.raise_keeps
    | apply State.sat_keeps
    | apply State.setRank_keeps
    | apply Keeps.ite
    | (fail_if_no_progress refine Keeps.upd ?_ rfl (by first | exact le_refl _ | exact le_max_left _ _ | exact Nat.le_succ _) (by first | exact le_refl _ | exact Nat.le_succ _) rfl rfl)
    | split
    | dsimp only

theorem applyRate_keeps {x0 : State} (p : ℕ) (m : ℕ) (level : ℕ) {s : State} (hk : Keeps x0 s) : Keeps x0 (applyRate p m level s) := by
  unfold applyRate
  try dsimp only
  repeat' with_reducible first
    | exact hk
    | assumption
    | apply State.modRank_keeps
    | apply State.modPav_keeps
    | apply bandRank_keeps
    | apply Keeps.ite
    | (refine Keeps.forUpto _ ?_ (fun i a k => ?_))
    | (fail_if_no_progress refine Keeps.upd ?_ rfl (by first | exact le_refl _ | exact le_max_left _ _ | exact Nat.le_succ _) (by first | exact le_refl _ | exact Nat.le_succ _) rfl rfl)
    | split
    | dsimp only

theorem execRateChangeApply_keeps {x0 : State} (p : PavId) {s : State} (hk : Keeps x0 s) : OutKeeps x0 (execRateChangeApply p s) := by
  unfold execRateChangeApply
  try dsimp only
  repeat' with_reducible first
    | exact hk
    | assumption
    | apply applyRate_keeps
    | apply State.modPav_keeps
    | apply State.atLeast_keeps
    | apply OutKeeps.next
    | (fail_if_no_progress refine Keeps.upd ?_ rfl (by first | exact le_refl _ | exact le_max_left _ _ | exact Nat.le_succ _) (by first | exact le_refl _ | exact Nat.le_succ _) rfl rfl)
    | split
    | dsimp only

theorem declareRate_keeps {x0 : State} (m : ℕ) (level : ℕ) {s : State} (hk : Keeps x0 s) : Keeps x0 (declareRate m level s) := by
  unfold declareRate
  try dsimp only
  repeat' with_reducible first
    | exact hk
    | assumption
    | apply State.modPav_keeps
    | (refine Keeps.forUpto _ ?_ (fun i a k => ?_))
    | (fail_if_no_progress refine Keeps.upd ?_ rfl (by first | exact le_refl _ | exact le_max_left _ _ | exact Nat.le_succ _) (by first | exact le_refl _ | exact Nat.le_succ _) rfl rfl)
    | dsimp only

theorem enterSelf_keeps {x0 : State} (p : ℕ) (r : ℕ) {s : State} (hk : Keeps x0 s) : Keeps x0 (enterSelf p r s) := by
  unfold enterSelf
  try dsimp only
  repeat' with_reducible first
    | exact hk
    | assumption
    | apply State.setRank_keeps
    | apply wakeDue_keeps
    | apply Keeps.ite
    | (fail_if_no_progress refine Keeps.upd ?_ rfl (by first | exact le_refl _ | exact le_max_left _ _ | exact Nat.le_succ _) (by first | exact le_refl _ | exact Nat.le_succ _) rfl rfl)
    | split
    | dsimp only

theorem selfReady_keeps {x0 : State} (p : ℕ) (r : ℕ) {s : State} (hk : Keeps x0 s) : Keeps x0 (selfReady p r s) := by
  unfold selfReady
  try dsimp only
  repeat' with_reducible first
    | exact hk
    | assumption
    | apply State.setRank_keeps
    | apply Keeps.ite
    | (fail_if_no_progress refine Keeps.upd ?_ rfl (by first | exact le_refl _ | exact le_max_left _ _ | exact Nat.le_succ _) (by first | exact le_refl _ | exact Nat.le_succ _) rfl rfl)
    | split
    | dsimp only

theorem drainStep_keeps {x0 : State} (p : ℕ) {s : State} (hk : Keeps x0 s) : Keeps x0 (drainStep p s) := by
  unfold drainStep
  try dsimp only
  repeat' with_reducible first
    | exact hk
    | assumption
    | apply selfReady_keeps
    | apply enterSelf_keeps
    | apply Keeps.ite
    | (refine Keeps.forUpto _ ?_ (fun i a k => ?_))
    | split
    | dsimp only

theorem drainPav_keeps {x0 : State} (p : ℕ) (why : DrainFor) {s : State} (hk : Keeps x0 s) : Keeps x0 (drainPav p why s) := by
  unfold drainPav
  try dsimp only
  repeat' with_reducible first
    | exact hk
    | assumption
    | apply State.modPav_keeps
    | apply Keeps.ite
    | (fail_if_no_progress refine Keeps.upd ?_ rfl (by first | exact le_refl _ | exact le_max_left _ _ | exact Nat.le_succ _) (by first | exact le_refl _ | exact Nat.le_succ _) rfl rfl)
    | split
    | dsimp only

theorem exitSelf_keeps {x0 : State} (p : ℕ) (r : ℕ) {s : State} (hk : Keeps x0 s) : Keeps x0 (exitSelf p r s) := by
  unfold exitSelf
  try dsimp only
  repeat' with_reducible first
    | exact hk
    | assumption
    | apply State.setRank_keeps
    | apply refStep_keeps
    | apply Keeps.ite
    | (fail_if_no_progress refine Keeps.upd ?_ rfl (by first | exact le_refl _ | exact le_max_left _ _ | exact Nat.le_succ _) (by first | exact le_refl _ | exact Nat.le_succ _) rfl rfl)
    | split
    | dsimp only

theorem wakePav_keeps {x0 : State} (p : ℕ) {s : State} (hk : Keeps x0 s) : Keeps x0 (wakePav p s) := by
  unfold wakePav
  try dsimp only
  repeat' with_reducible first
    | exact hk
    | assumption
    | apply exitSelf_keeps
    | apply State.modPav_keeps
    | apply ungatePav_keeps
    | (refine Keeps.forUpto _ ?_ (fun i a k => ?_))
    | (fail_if_no_progress refine Keeps.upd ?_ rfl (by first | exact le_refl _ | exact le_max_left _ _ | exact Nat.le_succ _) (by first | exact le_refl _ | exact Nat.le_succ _) rfl rfl)
    | dsimp only

theorem rankForced_keeps {x0 : State} (p : ℕ) (r : ℕ) {s : State} (hk : Keeps x0 s) : Keeps x0 (rankForced p r s) := by
  unfold rankForced
  try dsimp only
  repeat' with_reducible first
    | exact hk
    | assumption
    | apply State.setRank_keeps
    | apply forceRank_keeps
    | apply State.wr_keeps
    | (fail_if_no_progress refine Keeps.upd ?_ rfl (by first | exact le_refl _ | exact le_max_left _ _ | exact Nat.le_succ _) (by first | exact le_refl _ | exact Nat.le_succ _) rfl rfl)
    | dsimp only

theorem execSelfRefreshExit_keeps {x0 : State} (p : PavId) (r : RankId) {s : State} (hk : Keeps x0 s) : OutKeeps x0 (execSelfRefreshExit p r s) := by
  unfold execSelfRefreshExit
  try dsimp only
  repeat' with_reducible first
    | exact hk
    | assumption
    | apply rankForced_keeps
    | apply State.atLeast_keeps
    | apply OutKeeps.next
    | (fail_if_no_progress refine Keeps.upd ?_ rfl (by first | exact le_refl _ | exact le_max_left _ _ | exact Nat.le_succ _) (by first | exact le_refl _ | exact Nat.le_succ _) rfl rfl)
    | split
    | dsimp only

theorem flushPav_keeps {x0 : State} (p : ℕ) {s : State} (hk : Keeps x0 s) : Keeps x0 (flushPav p s) := by
  unfold flushPav
  try dsimp only
  repeat' with_reducible first
    | exact hk
    | assumption
    | apply storeLine_keeps
    | apply monSample_keeps
    | apply State.modPav_keeps
    | apply Keeps.ite
    | (refine Keeps.foldl _ ?_ (fun a e k => ?_))
    | (fail_if_no_progress refine Keeps.upd ?_ rfl (by first | exact le_refl _ | exact le_max_left _ _ | exact Nat.le_succ _) (by first | exact le_refl _ | exact Nat.le_succ _) rfl rfl)
    | split
    | dsimp only

theorem settlePav_keeps {x0 : State} (p : ℕ) {s : State} (hk : Keeps x0 s) : Keeps x0 (settlePav p s) := by
  unfold settlePav
  try dsimp only
  repeat' with_reducible first
    | exact hk
    | assumption
    | apply flushPav_keeps
    | apply State.modPav_keeps
    | apply State.modRank_keeps
    | apply State.wr_keeps
    | (refine Keeps.forUpto _ ?_ (fun i a k => ?_))
    | (fail_if_no_progress refine Keeps.upd ?_ rfl (by first | exact le_refl _ | exact le_max_left _ _ | exact Nat.le_succ _) (by first | exact le_refl _ | exact Nat.le_succ _) rfl rfl)
    | dsimp only

theorem reseed_keeps {x0 : State} (p : ℕ) {s : State} (hk : Keeps x0 s) : Keeps x0 (reseed p s) := by
  unfold reseed
  try dsimp only [State.drawFree, State.drawEntropy]
  repeat' with_reducible first
    | exact hk
    | assumption
    | (refine Keeps.snd (p := State.drawEntropy _) (by assumption) ?_)
    | apply State.drawEntropy_keeps
    | apply State.modPav_keeps
    | apply Keeps.ite
    | (fail_if_no_progress refine Keeps.upd ?_ rfl (by first | exact le_refl _ | exact le_max_left _ _ | exact Nat.le_succ _) (by first | exact le_refl _ | exact Nat.le_succ _) rfl rfl)
    | split
    | dsimp only

theorem neighDraw_keeps {x0 : State} (p : ℕ) (bank : ℕ) (phys : ℕ) {s : State} (hk : Keeps x0 s) : Keeps x0 (neighDraw p bank phys s) := by
  unfold neighDraw
  try dsimp only
  repeat' with_reducible first
    | exact hk
    | assumption
    | apply State.sat_keeps
    | apply State.modPav_keeps
    | apply Keeps.ite
    | (fail_if_no_progress refine Keeps.upd ?_ rfl (by first | exact le_refl _ | exact le_max_left _ _ | exact Nat.le_succ _) (by first | exact le_refl _ | exact Nat.le_succ _) rfl rfl)
    | split
    | dsimp only

theorem execNeighbourEscalation_keeps {x0 : State} (p : PavId) {s : State} (hk : Keeps x0 s) : OutKeeps x0 (execNeighbourEscalation p s) := by
  unfold execNeighbourEscalation
  try dsimp only
  repeat' with_reducible first
    | exact hk
    | assumption
    | apply State.atLeast_keeps
    | apply State.modPav_keeps
    | apply State.raiseOnce_keeps
    | apply State.sat_keeps
    | apply refAll_keeps
    | apply OutKeeps.next
    | apply OutKeeps.ite
    | apply Keeps.ite
    | (fail_if_no_progress refine Keeps.upd ?_ rfl (by first | exact le_refl _ | exact le_max_left _ _ | exact Nat.le_succ _) (by first | exact le_refl _ | exact Nat.le_succ _) rfl rfl)
    | split
    | dsimp only

end Sys2Proof.Machine
end

