-- ==== Sys2Proof/Laws/KeepsSched.lean ====
section
/-! SUPPORT. What the operations of Machine/Sched.lean keep (Keeps of Safety.lean). -/
namespace Sys2Proof.Machine
open Sys2Proof

set_option linter.all false

theorem serveBuffered_keeps {x0 : State} (p : ℕ) {s : State} (hk : Keeps x0 s) : Keeps x0 (serveBuffered p s) := by
  unfold serveBuffered
  try dsimp only
  repeat' with_reducible first
    | exact hk
    | assumption
    | apply State.modPav_keeps
    | apply Keeps.ite
    | (refine Keeps.foldl _ ?_ (fun a e k => ?_))
    | (fail_if_no_progress refine Keeps.upd ?_ rfl (by first | exact le_refl _ | exact le_max_left _ _ | exact Nat.le_succ _) (by first | exact le_refl _ | exact Nat.le_succ _) rfl rfl)
    | split
    | dsimp only

theorem noteTsv_keeps {x0 : State} (p : ℕ) {s : State} (hk : Keeps x0 s) : Keeps x0 (noteTsv p s) := by
  unfold noteTsv
  try dsimp only
  repeat' with_reducible first
    | exact hk
    | assumption
    | apply State.modPav_keeps
    | apply Keeps.ite
    | (refine Keeps.foldl _ ?_ (fun a e k => ?_))
    | (fail_if_no_progress refine Keeps.upd ?_ rfl (by first | exact le_refl _ | exact le_max_left _ _ | exact Nat.le_succ _) (by first | exact le_refl _ | exact Nat.le_succ _) rfl rfl)
    | split
    | dsimp only

theorem noteWaits_keeps {x0 : State} (p : ℕ) {s : State} (hk : Keeps x0 s) : Keeps x0 (noteWaits p s) := by
  unfold noteWaits
  try dsimp only
  repeat' with_reducible first
    | exact hk
    | assumption
    | apply State.modBank_keeps
    | apply State.modRank_keeps
    | apply Keeps.ite
    | (refine Keeps.forUpto _ ?_ (fun i a k => ?_))
    | (refine Keeps.foldl _ ?_ (fun a e k => ?_))
    | (fail_if_no_progress refine Keeps.upd ?_ rfl (by first | exact le_refl _ | exact le_max_left _ _ | exact Nat.le_succ _) (by first | exact le_refl _ | exact Nat.le_succ _) rfl rfl)
    | split
    | dsimp only

theorem colIssued_keeps {x0 : State} (p : ℕ) (t : ℕ) (b : ℕ) (write : Bool) {s : State} (hk : Keeps x0 s) : Keeps x0 (colIssued p t b write s) := by
  unfold colIssued
  try dsimp only
  repeat' with_reducible first
    | exact hk
    | assumption
    | apply State.modPav_keeps
    | apply State.modBank_keeps
    | apply Keeps.ite
    | (fail_if_no_progress refine Keeps.upd ?_ rfl (by first | exact le_refl _ | exact le_max_left _ _ | exact Nat.le_succ _) (by first | exact le_refl _ | exact Nat.le_succ _) rfl rfl)
    | split
    | dsimp only

theorem issueLine_keeps {x0 : State} (p : ℕ) (t : ℕ) (c : ColCand) (e : Ent) (rows : List RowCand) {s : State} (hk : Keeps x0 s) : Keeps x0 (issueLine p t c e rows s) := by
  unfold issueLine
  try dsimp only
  repeat' with_reducible first
    | exact hk
    | assumption
    | apply State.modBank_keeps
    | apply State.modRank_keeps
    | apply storeLine_keeps
    | apply State.modPav_keeps
    | apply monSample_keeps
    | apply Keeps.ite
    | (fail_if_no_progress refine Keeps.upd ?_ rfl (by first | exact le_refl _ | exact le_max_left _ _ | exact Nat.le_succ _) (by first | exact le_refl _ | exact Nat.le_succ _) rfl rfl)
    | split
    | dsimp only

theorem issueStep_keeps {x0 : State} (p : ℕ) (t : ℕ) (x : ScrubStep) (col : ℕ) {s : State} (hk : Keeps x0 s) : Keeps x0 (issueStep p t x col s) := by
  unfold issueStep
  try dsimp only
  repeat' with_reducible first
    | exact hk
    | assumption
    | apply State.modPav_keeps
    | (fail_if_no_progress refine Keeps.upd ?_ rfl (by first | exact le_refl _ | exact le_max_left _ _ | exact Nat.le_succ _) (by first | exact le_refl _ | exact Nat.le_succ _) rfl rfl)
    | dsimp only

theorem issueCopy_keeps {x0 : State} (p : ℕ) (c : Copy) {s : State} (hk : Keeps x0 s) : Keeps x0 (issueCopy p c s) := by
  unfold issueCopy
  try dsimp only
  repeat' with_reducible first
    | exact hk
    | assumption
    | apply State.modPav_keeps
    | apply Keeps.ite
    | (fail_if_no_progress refine Keeps.upd ?_ rfl (by first | exact le_refl _ | exact le_max_left _ _ | exact Nat.le_succ _) (by first | exact le_refl _ | exact Nat.le_succ _) rfl rfl)
    | split
    | dsimp only

theorem issueSlice_keeps {x0 : State} (p : ℕ) (x : Slice) {s : State} (hk : Keeps x0 s) : Keeps x0 (issueSlice p x s) := by
  unfold issueSlice
  try dsimp only
  repeat' with_reducible first
    | exact hk
    | assumption
    | apply writePhys_keeps
    | apply State.modPav_keeps
    | apply Keeps.ite
    | (fail_if_no_progress refine Keeps.upd ?_ rfl (by first | exact le_refl _ | exact le_max_left _ _ | exact Nat.le_succ _) (by first | exact le_refl _ | exact Nat.le_succ _) rfl rfl)
    | split
    | dsimp only

theorem issueCol_keeps {x0 : State} (p : ℕ) (t : ℕ) (c : ColCand) (rows : List RowCand) {s : State} (hk : Keeps x0 s) : Keeps x0 (issueCol p t c rows s) := by
  unfold issueCol
  try dsimp only
  repeat' with_reducible first
    | exact hk
    | assumption
    | apply colIssued_keeps
    | apply issueLine_keeps
    | apply issueStep_keeps
    | apply issueCopy_keeps
    | apply issueSlice_keeps
    | (fail_if_no_progress refine Keeps.upd ?_ rfl (by first | exact le_refl _ | exact le_max_left _ _ | exact Nat.le_succ _) (by first | exact le_refl _ | exact Nat.le_succ _) rfl rfl)
    | split
    | dsimp only

theorem openBank_keeps {x0 : State} (p : ℕ) (b : ℕ) (row : ℕ) (t : ℕ) {s : State} (hk : Keeps x0 s) : Keeps x0 (openBank p b row t s) := by
  unfold openBank
  try dsimp only
  repeat' with_reducible first
    | exact hk
    | assumption
    | apply State.modRank_keeps
    | apply State.modBank_keeps
    | (fail_if_no_progress refine Keeps.upd ?_ rfl (by first | exact le_refl _ | exact le_max_left _ _ | exact Nat.le_succ _) (by first | exact le_refl _ | exact Nat.le_succ _) rfl rfl)
    | dsimp only

theorem rowClosed_keeps {x0 : State} (p : ℕ) (b : ℕ) (row : ℕ) (t : ℕ) {s : State} (hk : Keeps x0 s) : Keeps x0 (rowClosed p b row t s) := by
  unfold rowClosed
  try dsimp only
  repeat' with_reducible first
    | exact hk
    | assumption
    | apply State.modPav_keeps
    | apply Keeps.ite
    | (fail_if_no_progress refine Keeps.upd ?_ rfl (by first | exact le_refl _ | exact le_max_left _ _ | exact Nat.le_succ _) (by first | exact le_refl _ | exact Nat.le_succ _) rfl rfl)
    | split
    | dsimp only

theorem closeBank_keeps {x0 : State} (p : ℕ) (b : ℕ) (t : ℕ) {s : State} (hk : Keeps x0 s) : Keeps x0 (closeBank p b t s) := by
  unfold closeBank
  try dsimp only
  repeat' with_reducible first
    | exact hk
    | assumption
    | apply State.modBank_keeps
    | apply rowClosed_keeps
    | (fail_if_no_progress refine Keeps.upd ?_ rfl (by first | exact le_refl _ | exact le_max_left _ _ | exact Nat.le_succ _) (by first | exact le_refl _ | exact Nat.le_succ _) rfl rfl)
    | split
    | dsimp only

theorem issueRefresh_keeps {x0 : State} (p : ℕ) (r : ℕ) (t : ℕ) {s : State} (hk : Keeps x0 s) : Keeps x0 (issueRefresh p r t s) := by
  unfold issueRefresh
  try dsimp only
  repeat' with_reducible first
    | exact hk
    | assumption
    | apply State.wr_keeps
    | apply State.modRank_keeps
    | apply State.modPav_keeps
    | apply selfReady_keeps
    | apply refStep_keeps
    | apply Keeps.ite
    | (fail_if_no_progress refine Keeps.upd ?_ rfl (by first | exact le_refl _ | exact le_max_left _ _ | exact Nat.le_succ _) (by first | exact le_refl _ | exact Nat.le_succ _) rfl rfl)
    | split
    | dsimp only

theorem scrubAdvance_keeps {x0 : State} (p : ℕ) {s : State} (hk : Keeps x0 s) : Keeps x0 (scrubAdvance p s) := by
  unfold scrubAdvance
  try dsimp only
  repeat' with_reducible first
    | exact hk
    | assumption
    | apply State.modPav_keeps
    | apply State.wr_keeps
    | apply State.sat_keeps
    | apply Keeps.ite
    | (fail_if_no_progress refine Keeps.upd ?_ rfl (by first | exact le_refl _ | exact le_max_left _ _ | exact Nat.le_succ _) (by first | exact le_refl _ | exact Nat.le_succ _) rfl rfl)
    | split
    | dsimp only

theorem actDraw_keeps {x0 : State} (p : ℕ) (b : ℕ) (row : ℕ) (t : ℕ) {s : State} (hk : Keeps x0 s) : Keeps x0 (actDraw p b row t s) := by
  unfold actDraw
  try dsimp only
  repeat' with_reducible first
    | exact hk
    | assumption
    | apply neighDraw_keeps
    | apply openBank_keeps
    | dsimp only

theorem startScrub_keeps {x0 : State} (p : ℕ) (t : ℕ) (lvl : ℕ) {s : State} (hk : Keeps x0 s) : Keeps x0 (startScrub p t lvl s) := by
  unfold startScrub
  try dsimp only
  repeat' with_reducible first
    | exact hk
    | assumption
    | apply State.modPav_keeps
    | apply actDraw_keeps
    | apply scrubAdvance_keeps
    | (fail_if_no_progress refine Keeps.upd ?_ rfl (by first | exact le_refl _ | exact le_max_left _ _ | exact Nat.le_succ _) (by first | exact le_refl _ | exact Nat.le_succ _) rfl rfl)
    | dsimp only

theorem rowDoes_keeps {x0 : State} (p : ℕ) (t : ℕ) (w : RowCand) {s : State} (hk : Keeps x0 s) : Keeps x0 (rowDoes p t w s) := by
  unfold rowDoes
  try dsimp only
  repeat' with_reducible first
    | exact hk
    | assumption
    | apply closeBank_keeps
    | apply actDraw_keeps
    | apply State.modPav_keeps
    | apply openBank_keeps
    | apply startScrub_keeps
    | apply issueRefresh_keeps
    | apply Keeps.ite
    | (fail_if_no_progress refine Keeps.upd ?_ rfl (by first | exact le_refl _ | exact le_max_left _ _ | exact Nat.le_succ _) (by first | exact le_refl _ | exact Nat.le_succ _) rfl rfl)
    | split
    | dsimp only

theorem issueRow_keeps {x0 : State} (p : ℕ) (t : ℕ) (w : RowCand) {s : State} (hk : Keeps x0 s) : Keeps x0 (issueRow p t w s) := by
  unfold issueRow
  try dsimp only
  repeat' with_reducible first
    | exact hk
    | assumption
    | apply rowDoes_keeps
    | apply State.modPav_keeps
    | (fail_if_no_progress refine Keeps.upd ?_ rfl (by first | exact le_refl _ | exact le_max_left _ _ | exact Nat.le_succ _) (by first | exact le_refl _ | exact Nat.le_succ _) rfl rfl)
    | dsimp only

theorem wakeRanks_keeps {x0 : State} (p : ℕ) {s : State} (hk : Keeps x0 s) : Keeps x0 (wakeRanks p s) := by
  unfold wakeRanks
  try dsimp only
  repeat' with_reducible first
    | exact hk
    | assumption
    | apply wakeRank_keeps
    | apply Keeps.ite
    | (refine Keeps.forUpto _ ?_ (fun i a k => ?_))
    | split
    | dsimp only

theorem updatePrefer_keeps {x0 : State} (p : ℕ) {s : State} (hk : Keeps x0 s) : Keeps x0 (updatePrefer p s) := by
  unfold updatePrefer
  try dsimp only
  repeat' with_reducible first
    | exact hk
    | assumption
    | apply State.modPav_keeps
    | apply Keeps.ite
    | (fail_if_no_progress refine Keeps.upd ?_ rfl (by first | exact le_refl _ | exact le_max_left _ _ | exact Nat.le_succ _) (by first | exact le_refl _ | exact Nat.le_succ _) rfl rfl)
    | split
    | dsimp only

theorem noteFull_keeps {x0 : State} (p : ℕ) {s : State} (hk : Keeps x0 s) : Keeps x0 (noteFull p s) := by
  unfold noteFull
  try dsimp only
  repeat' with_reducible first
    | exact hk
    | assumption
    | apply State.raiseOnce_keeps
    | apply State.sat_keeps
    | apply State.modPav_keeps
    | apply Keeps.ite
    | (fail_if_no_progress refine Keeps.upd ?_ rfl (by first | exact le_refl _ | exact le_max_left _ _ | exact Nat.le_succ _) (by first | exact le_refl _ | exact Nat.le_succ _) rfl rfl)
    | split
    | dsimp only

theorem skipScrub_keeps {x0 : State} (p : ℕ) {s : State} (hk : Keeps x0 s) : Keeps x0 (skipScrub p s) := by
  unfold skipScrub
  try dsimp only
  repeat' with_reducible first
    | exact hk
    | assumption
    | apply scrubAdvance_keeps
    | apply Keeps.ite
    | (fail_if_no_progress refine Keeps.upd ?_ rfl (by first | exact le_refl _ | exact le_max_left _ _ | exact Nat.le_succ _) (by first | exact le_refl _ | exact Nat.le_succ _) rfl rfl)
    | split
    | dsimp only

theorem trimStep_keeps {x0 : State} (p : ℕ) {s : State} (hk : Keeps x0 s) : Keeps x0 (trimStep p s) := by
  unfold trimStep
  try dsimp only
  repeat' with_reducible first
    | exact hk
    | assumption
    | apply State.modPav_keeps
    | apply Keeps.ite
    | (fail_if_no_progress refine Keeps.upd ?_ rfl (by first | exact le_refl _ | exact le_max_left _ _ | exact Nat.le_succ _) (by first | exact le_refl _ | exact Nat.le_succ _) rfl rfl)
    | split
    | dsimp only

theorem State.issueAt_keeps {x0 : State} {s : State} (p : ℕ) (t : ℕ) (rows : List RowCand) (cols : List ColCand) (hk : Keeps x0 s) : ∀ u, State.issueAt s p t rows cols = some u → Keeps x0 u := by
  unfold State.issueAt
  intro u e
  repeat' (first | (simp only [Option.some.injEq] at e; subst e) | contradiction | split at e | dsimp only at e)
  all_goals try dsimp only
  repeat' with_reducible first
    | exact hk
    | assumption
    | apply issueCol_keeps
    | apply State.atLeast_keeps
    | apply issueRow_keeps
    | apply Keeps.ite
    | (fail_if_no_progress refine Keeps.upd ?_ rfl (by first | exact le_refl _ | exact le_max_left _ _ | exact Nat.le_succ _) (by first | exact le_refl _ | exact Nat.le_succ _) rfl rfl)
    | split
    | dsimp only

theorem State.issueFirst_keeps {x s : State} (p : ℕ) (rows : List RowCand) (cols : List ColCand) (n t : ℕ) (h : Keeps x s)
    {a : ℕ} {u : State} (e : State.issueFirst s p rows cols n t = some (a, u)) : Keeps x u := by
  induction n generalizing t with
  | zero => simp [State.issueFirst] at e
  | succ n ih =>
    unfold State.issueFirst at e
    split at e
    · next s' hs =>
      simp only [Option.some.injEq, Prod.mk.injEq] at e
      obtain ⟨-, rfl⟩ := e
      exact State.issueAt_keeps p t rows cols h _ hs
    · dsimp only at e
      split at e
      · exact ih _ e
      · simp at e

theorem pavSettle_keeps {x0 : State} (p : ℕ) {s : State} (hk : Keeps x0 s) : Keeps x0 (pavSettle p s) := by
  unfold pavSettle
  try dsimp only
  repeat' with_reducible first
    | exact hk
    | assumption
    | apply noteWaits_keeps
    | apply noteTsv_keeps
    | apply trimStep_keeps
    | apply serveBuffered_keeps
    | apply skipScrub_keeps
    | apply noteFull_keeps
    | apply updatePrefer_keeps
    | apply wakeRanks_keeps
    | apply refAll_keeps
    | dsimp only

theorem execSchedulerIssue_keeps {x : State} (p : PavId) {s : State} (h : Keeps x s) : OutKeeps x (execSchedulerIssue p s) := by
  unfold execSchedulerIssue
  have h1 : Keeps x (pavSettle p s) := pavSettle_keeps _ h
  dsimp only
  split
  · exact OutKeeps.next h1
  · split
    · next heq =>
      exact OutKeeps.next (drainStep_keeps _ (trimStep_keeps _ (serveBuffered_keeps _ (refAll_keeps _
        (State.issueFirst_keeps _ _ _ _ _ h1 heq)))))
    · exact OutKeeps.next (drainStep_keeps _ h1)

theorem execAged1_keeps {x0 : State} (p : PavId) (id : ℕ) {s : State} (hk : Keeps x0 s) : OutKeeps x0 (execAged1 p id s) := by
  unfold execAged1
  try dsimp only
  repeat' with_reducible first
    | exact hk
    | assumption
    | apply State.atLeast_keeps
    | apply State.modPav_keeps
    | apply refAll_keeps
    | apply State.sat_keeps
    | apply OutKeeps.next
    | apply OutKeeps.ite
    | apply Keeps.ite
    | (fail_if_no_progress refine Keeps.upd ?_ rfl (by first | exact le_refl _ | exact le_max_left _ _ | exact Nat.le_succ _) (by first | exact le_refl _ | exact Nat.le_succ _) rfl rfl)
    | split
    | dsimp only

theorem execAged2_keeps {x0 : State} (p : PavId) (id : ℕ) {s : State} (hk : Keeps x0 s) : OutKeeps x0 (execAged2 p id s) := by
  unfold execAged2
  try dsimp only
  repeat' with_reducible first
    | exact hk
    | assumption
    | apply State.atLeast_keeps
    | apply State.sat_keeps
    | apply State.modPav_keeps
    | apply refAll_keeps
    | apply State.raiseOnce_keeps
    | apply OutKeeps.next
    | apply OutKeeps.ite
    | apply Keeps.ite
    | (fail_if_no_progress refine Keeps.upd ?_ rfl (by first | exact le_refl _ | exact le_max_left _ _ | exact Nat.le_succ _) (by first | exact le_refl _ | exact Nat.le_succ _) rfl rfl)
    | split
    | dsimp only

theorem execThrottleWindowBoundary_keeps {x0 : State} (p : PavId) {s : State} (hk : Keeps x0 s) : OutKeeps x0 (execThrottleWindowBoundary p s) := by
  unfold execThrottleWindowBoundary
  try dsimp only
  repeat' with_reducible first
    | exact hk
    | assumption
    | apply State.atLeast_keeps
    | apply State.wr_keeps
    | apply State.modPav_keeps
    | apply State.sat_keeps
    | apply OutKeeps.next
    | apply OutKeeps.ite
    | apply Keeps.ite
    | (fail_if_no_progress refine Keeps.upd ?_ rfl (by first | exact le_refl _ | exact le_max_left _ _ | exact Nat.le_succ _) (by first | exact le_refl _ | exact Nat.le_succ _) rfl rfl)
    | split
    | dsimp only

theorem execAdaptiveCloseTimer_keeps {x0 : State} (p : PavId) (b : BankId) {s : State} (hk : Keeps x0 s) : OutKeeps x0 (execAdaptiveCloseTimer p b s) := by
  unfold execAdaptiveCloseTimer
  try dsimp only
  repeat' with_reducible first
    | exact hk
    | assumption
    | apply State.atLeast_keeps
    | apply issueRow_keeps
    | apply OutKeeps.next
    | apply OutKeeps.ite
    | apply Keeps.ite
    | (fail_if_no_progress refine Keeps.upd ?_ rfl (by first | exact le_refl _ | exact le_max_left _ _ | exact Nat.le_succ _) (by first | exact le_refl _ | exact Nat.le_succ _) rfl rfl)
    | split
    | dsimp only

theorem execPowerDownEntry_keeps {x0 : State} (p : PavId) (r : RankId) {s : State} (hk : Keeps x0 s) : OutKeeps x0 (execPowerDownEntry p r s) := by
  unfold execPowerDownEntry
  try dsimp only
  repeat' with_reducible first
    | exact hk
    | assumption
    | apply State.atLeast_keeps
    | apply issueRow_keeps
    | apply State.modRank_keeps
    | apply OutKeeps.next
    | apply OutKeeps.ite
    | apply Keeps.ite
    | (refine Keeps.forUpto _ ?_ (fun i a k => ?_))
    | (fail_if_no_progress refine Keeps.upd ?_ rfl (by first | exact le_refl _ | exact le_max_left _ _ | exact Nat.le_succ _) (by first | exact le_refl _ | exact Nat.le_succ _) rfl rfl)
    | split
    | dsimp only

end Sys2Proof.Machine
end

