-- ==== Sys2Proof/Laws/KeepsCadence.lean ====
section
/-! SUPPORT. What the operations of Machine/Cadence.lean keep (Keeps of Safety.lean). -/
namespace Sys2Proof.Machine
open Sys2Proof

set_option linter.all false

theorem retuneStart_keeps {x0 : State} (n : ℕ) {s : State} (hk : Keeps x0 s) : Keeps x0 (retuneStart n s) := by
  unfold retuneStart
  try dsimp only
  repeat' with_reducible first
    | exact hk
    | assumption
    | apply enterRecovery_keeps
    | apply State.wr_keeps
    | apply startCoastExit_keeps
    | apply startParkedExit_keeps
    | apply Keeps.ite
    | split
    | dsimp only

theorem tsvStepStart_keeps {x0 : State} (p : ℕ) {s : State} (hk : Keeps x0 s) : Keeps x0 (tsvStepStart p s) := by
  unfold tsvStepStart
  try dsimp only
  repeat' with_reducible first
    | exact hk
    | assumption
    | apply wakeRank_keeps
    | apply closeBank_keeps
    | apply State.modPav_keeps
    | apply State.wr_keeps
    | apply Keeps.ite
    | (refine Keeps.forUpto _ ?_ (fun i a k => ?_))
    | (fail_if_no_progress refine Keeps.upd ?_ rfl (by first | exact le_refl _ | exact le_max_left _ _ | exact Nat.le_succ _) (by first | exact le_refl _ | exact Nat.le_succ _) rfl rfl)
    | split
    | dsimp only

theorem wakeBeforeWindow_keeps {x0 : State} (p : ℕ) (angle : ℕ) {s : State} (hk : Keeps x0 s) : Keeps x0 (wakeBeforeWindow p angle s) := by
  unfold wakeBeforeWindow
  try dsimp only
  repeat' with_reducible first
    | exact hk
    | assumption
    | apply wakeRank_keeps
    | apply Keeps.ite
    | (refine Keeps.forUpto _ ?_ (fun i a k => ?_))
    | split
    | dsimp only

theorem deliverStep_keeps {x0 : State} (a : ℕ) {s : State} (hk : Keeps x0 s) : Keeps x0 (deliverStep a s) := by
  unfold deliverStep
  try dsimp only
  repeat' with_reducible first
    | exact hk
    | assumption
    | apply monLevels_keeps
    | apply refAll_keeps
    | apply wakeBeforeWindow_keeps
    | apply stepWindows_keeps
    | apply tsvStepStart_keeps
    | apply retuneStart_keeps
    | apply queueTelemetry_keeps
    | apply Keeps.ite
    | (refine Keeps.forUpto _ ?_ (fun i a k => ?_))
    | (fail_if_no_progress refine Keeps.upd ?_ rfl (by first | exact le_refl _ | exact le_max_left _ _ | exact Nat.le_succ _) (by first | exact le_refl _ | exact Nat.le_succ _) rfl rfl)
    | split
    | dsimp only

theorem deliverFrom_keeps {x : State} (n a : ℕ) {s : State} (h : Keeps x s) : Keeps x (deliverFrom n a s) := by
  induction n generalizing a s with
  | zero => unfold deliverFrom; exact h
  | succ n ih => unfold deliverFrom; exact ih _ (deliverStep_keeps a h)

theorem execAngleStep_keeps {x0 : State} {s : State} (hk : Keeps x0 s) : OutKeeps x0 (execAngleStep s) := by
  unfold execAngleStep
  try dsimp only
  repeat' with_reducible first
    | exact hk
    | assumption
    | apply deliverStep_keeps
    | apply State.atLeast_keeps
    | apply OutKeeps.next
    | apply OutKeeps.ite
    | apply Keeps.ite
    | split
    | dsimp only

theorem pavTurn_keeps {x0 : State} (p : ℕ) {s : State} (hk : Keeps x0 s) : Keeps x0 (pavTurn p s) := by
  unfold pavTurn
  try dsimp only
  repeat' with_reducible first
    | exact hk
    | assumption
    | apply State.wr_keeps
    | apply State.modPav_keeps
    | apply reseed_keeps
    | apply Keeps.ite
    | (fail_if_no_progress refine Keeps.upd ?_ rfl (by first | exact le_refl _ | exact le_max_left _ _ | exact Nat.le_succ _) (by first | exact le_refl _ | exact Nat.le_succ _) rfl rfl)
    | split
    | dsimp only

theorem newTurn_keeps {x0 : State} (t0 : ℕ) (marker : Bool) {s : State} (hk : Keeps x0 s) : Keeps x0 (newTurn t0 marker s) := by
  unfold newTurn
  try dsimp only
  repeat' with_reducible first
    | exact hk
    | assumption
    | apply closeChanged_keeps
    | apply State.wr_keeps
    | apply pavTurn_keeps
    | apply monTurn_keeps
    | apply finishSnaps_keeps
    | apply sendTurn_keeps
    | apply State.modPort_keeps
    | apply Keeps.ite
    | (refine Keeps.forUpto _ ?_ (fun i a k => ?_))
    | (fail_if_no_progress refine Keeps.upd ?_ rfl (by first | exact le_refl _ | exact le_max_left _ _ | exact Nat.le_succ _) (by first | exact le_refl _ | exact Nat.le_succ _) rfl rfl)
    | split
    | dsimp only

theorem execTurnBoundary_keeps {x0 : State} {s : State} (hk : Keeps x0 s) : OutKeeps x0 (execTurnBoundary s) := by
  unfold execTurnBoundary
  try dsimp only
  repeat' with_reducible first
    | exact hk
    | assumption
    | apply newTurn_keeps
    | apply State.atLeast_keeps
    | apply OutKeeps.next
    | apply OutKeeps.ite
    | apply Keeps.ite
    | split
    | dsimp only

theorem missTurn_keeps {x0 : State} {s : State} (hk : Keeps x0 s) : Keeps x0 (missTurn s) := by
  unfold missTurn
  try dsimp only
  repeat' with_reducible first
    | exact hk
    | assumption
    | apply newTurn_keeps
    | apply State.sat_keeps
    | apply State.atLeast_keeps
    | apply cadSeek_keeps
    | apply Keeps.ite
    | split
    | dsimp only

theorem execMarkerMissExpiry_keeps {x0 : State} {s : State} (hk : Keeps x0 s) : OutKeeps x0 (execMarkerMissExpiry s) := by
  unfold execMarkerMissExpiry
  try dsimp only
  repeat' with_reducible first
    | exact hk
    | assumption
    | apply missTurn_keeps
    | apply OutKeeps.next
    | apply OutKeeps.ite
    | apply Keeps.ite
    | split
    | dsimp only

theorem portOffset_keeps {x0 : State} (lo : Option ℕ) {s : State} (hk : Keeps x0 s) : Keeps x0 (portOffset lo s) := by
  unfold portOffset
  try dsimp only
  repeat' with_reducible first
    | exact hk
    | assumption
    | apply State.wr_keeps
    | apply State.raise_keeps
    | apply State.sat_keeps
    | apply Keeps.ite
    | (fail_if_no_progress refine Keeps.upd ?_ rfl (by first | exact le_refl _ | exact le_max_left _ _ | exact Nat.le_succ _) (by first | exact le_refl _ | exact Nat.le_succ _) rfl rfl)
    | split
    | dsimp only

theorem cadLock_keeps {x0 : State} (m : ℕ) (len : ℕ) (learn : Bool) (lo : Option ℕ) {s : State} (hk : Keeps x0 s) : Keeps x0 (cadLock m len learn lo s) := by
  unfold cadLock
  try dsimp only
  repeat' with_reducible first
    | exact hk
    | assumption
    | apply State.wr_keeps
    | apply State.sat_keeps
    | apply newTurn_keeps
    | apply portOffset_keeps
    | apply State.raise_keeps
    | apply deliverStep_keeps
    | apply Keeps.ite
    | (fail_if_no_progress refine Keeps.upd ?_ rfl (by first | exact le_refl _ | exact le_max_left _ _ | exact Nat.le_succ _) (by first | exact le_refl _ | exact Nat.le_succ _) rfl rfl)
    | split
    | dsimp only

theorem seekMarker_keeps {x0 : State} (m : ℕ) (iv : Option ℕ) (lo : Option ℕ) {s : State} (hk : Keeps x0 s) : Keeps x0 (seekMarker m iv lo s) := by
  unfold seekMarker
  try dsimp only
  repeat' with_reducible first
    | exact hk
    | assumption
    | apply cadLock_keeps
    | apply Keeps.ite
    | (fail_if_no_progress refine Keeps.upd ?_ rfl (by first | exact le_refl _ | exact le_max_left _ _ | exact Nat.le_succ _) (by first | exact le_refl _ | exact Nat.le_succ _) rfl rfl)
    | split
    | dsimp only

theorem acceptMarker_keeps {x0 : State} (m : ℕ) (i : ℕ) (lo : Option ℕ) {s : State} (hk : Keeps x0 s) : Keeps x0 (acceptMarker m i lo s) := by
  unfold acceptMarker
  try dsimp only
  repeat' with_reducible first
    | exact hk
    | assumption
    | apply deliverFrom_keeps
    | apply State.wr_keeps
    | apply portOffset_keeps
    | apply newTurn_keeps
    | apply Keeps.ite
    | split
    | dsimp only

theorem lockedMarker_keeps {x0 : State} (m : ℕ) (iv : Option ℕ) (lo : Option ℕ) {s : State} (hk : Keeps x0 s) : Keeps x0 (lockedMarker m iv lo s) := by
  unfold lockedMarker
  try dsimp only
  repeat' with_reducible first
    | exact hk
    | assumption
    | apply missTurn_keeps
    | apply cadSeek_keeps
    | apply seekMarker_keeps
    | apply acceptMarker_keeps
    | apply Keeps.ite
    | (fail_if_no_progress refine Keeps.upd ?_ rfl (by first | exact le_refl _ | exact le_max_left _ _ | exact Nat.le_succ _) (by first | exact le_refl _ | exact Nat.le_succ _) rfl rfl)
    | split
    | dsimp only

theorem missesDue_keeps {x0 : State} (a0 : ℕ) {a1 : State} (hk : Keeps x0 a1) : Keeps x0 (missesDue a0 a1) := by
  induction a0 generalizing a1 with
  | zero => unfold missesDue; exact hk
  | succ k ih =>
    unfold missesDue
    try dsimp only
    repeat' with_reducible first
      | exact hk
      | apply ih
      | assumption
      | apply missTurn_keeps
      | apply Keeps.ite
      | split
      | dsimp only

theorem marker_keeps {x0 : State} (m : ℕ) (lo : Option ℕ) {s : State} (hk : Keeps x0 s) : Keeps x0 (marker m lo s) := by
  unfold marker
  try dsimp only
  repeat' with_reducible first
    | exact hk
    | assumption
    | apply missesDue_keeps
    | apply lockedMarker_keeps
    | apply seekMarker_keeps
    | apply Keeps.ite
    | (fail_if_no_progress refine Keeps.upd ?_ rfl (by first | exact le_refl _ | exact le_max_left _ _ | exact Nat.le_succ _) (by first | exact le_refl _ | exact Nat.le_succ _) rfl rfl)
    | split
    | dsimp only

theorem execCadTurnEdge_keeps {x0 : State} (age : ℕ) {s : State} (hk : Keeps x0 s) : OutKeeps x0 (execCadTurnEdge age s) := by
  unfold execCadTurnEdge
  try dsimp only
  repeat' with_reducible first
    | exact hk
    | assumption
    | apply marker_keeps
    | apply OutKeeps.next
    | apply OutKeeps.ite
    | apply Keeps.ite
    | split
    | dsimp only

theorem takeTurn_keeps {x0 : State} (n : ℕ) (lo : ℕ) (late : ℕ) (age : ℕ) {s : State} (hk : Keeps x0 s) : Keeps x0 (takeTurn n lo late age s) := by
  unfold takeTurn
  try dsimp only
  repeat' with_reducible first
    | exact hk
    | assumption
    | apply marker_keeps
    | apply Keeps.ite
    | split
    | dsimp only

theorem execTurn_keeps {x0 : State} (n : PortId) (lo : BitVec 16) (late : BitVec 12) (age : ℕ) {s : State} (hk : Keeps x0 s) : OutKeeps x0 (execTurn n lo late age s) := by
  unfold execTurn
  try dsimp only
  repeat' with_reducible first
    | exact hk
    | assumption
    | apply takeTurn_keeps
    | apply touch_keeps
    | apply OutKeeps.next
    | apply OutKeeps.ite
    | apply Keeps.ite
    | split
    | dsimp only

theorem setSource_keeps {x0 : State} (src : ℕ) (port : ℕ) {s : State} (hk : Keeps x0 s) : Keeps x0 (setSource src port s) := by
  unfold setSource
  try dsimp only
  repeat' with_reducible first
    | exact hk
    | assumption
    | apply State.raise_keeps
    | apply State.wr_keeps
    | apply cadSeek_keeps
    | apply Keeps.ite
    | (fail_if_no_progress refine Keeps.upd ?_ rfl (by first | exact le_refl _ | exact le_max_left _ _ | exact Nat.le_succ _) (by first | exact le_refl _ | exact Nat.le_succ _) rfl rfl)
    | split
    | dsimp only

theorem execScrubStepDue_keeps {x0 : State} (p : PavId) {s : State} (hk : Keeps x0 s) : OutKeeps x0 (execScrubStepDue p s) := by
  unfold execScrubStepDue
  try dsimp only
  repeat' with_reducible first
    | exact hk
    | assumption
    | apply State.modPav_keeps
    | apply OutKeeps.next
    | apply OutKeeps.ite
    | apply Keeps.ite
    | (fail_if_no_progress refine Keeps.upd ?_ rfl (by first | exact le_refl _ | exact le_max_left _ _ | exact Nat.le_succ _) (by first | exact le_refl _ | exact Nat.le_succ _) rfl rfl)
    | split
    | dsimp only

theorem execScrubEscalation_keeps {x0 : State} (p : PavId) {s : State} (hk : Keeps x0 s) : OutKeeps x0 (execScrubEscalation p s) := by
  unfold execScrubEscalation
  try dsimp only
  repeat' with_reducible first
    | exact hk
    | assumption
    | apply State.modPav_keeps
    | apply State.sat_keeps
    | apply refAll_keeps
    | apply State.raiseOnce_keeps
    | apply OutKeeps.next
    | apply OutKeeps.ite
    | apply Keeps.ite
    | (fail_if_no_progress refine Keeps.upd ?_ rfl (by first | exact le_refl _ | exact le_max_left _ _ | exact Nat.le_succ _) (by first | exact le_refl _ | exact Nat.le_succ _) rfl rfl)
    | split
    | dsimp only

theorem execRepeatEntryExpiry_keeps {x0 : State} (p : PavId) {s : State} (hk : Keeps x0 s) : OutKeeps x0 (execRepeatEntryExpiry p s) := by
  unfold execRepeatEntryExpiry
  try dsimp only
  repeat' with_reducible first
    | exact hk
    | assumption
    | apply State.modPav_keeps
    | apply OutKeeps.next
    | apply OutKeeps.ite
    | apply Keeps.ite
    | (fail_if_no_progress refine Keeps.upd ?_ rfl (by first | exact le_refl _ | exact le_max_left _ _ | exact Nat.le_succ _) (by first | exact le_refl _ | exact Nat.le_succ _) rfl rfl)
    | split
    | dsimp only

end Sys2Proof.Machine
end

