-- ==== Sys2Proof/Laws/KeepsBist.lean ====
section
/-! SUPPORT. What the operations of Machine/Bist.lean keep (Keeps of Safety.lean). -/
namespace Sys2Proof.Machine
open Sys2Proof

set_option linter.all false

theorem endWith_keeps {x0 : State} (m : ℕ) (code : ℕ) {s : State} (hk : Keeps x0 s) : Keeps x0 (endWith m code s) := by
  unfold endWith
  try dsimp only
  repeat' with_reducible first
    | exact hk
    | assumption
    | apply State.wr_keeps
    | apply State.modMbx_keeps
    | apply Keeps.ite
    | (fail_if_no_progress refine Keeps.upd ?_ rfl (by first | exact le_refl _ | exact le_max_left _ _ | exact Nat.le_succ _) (by first | exact le_refl _ | exact Nat.le_succ _) rfl rfl)
    | split
    | dsimp only

theorem sweepStep_keeps {x0 : State} (p : ℕ) (k : ℕ) {s : State} (hk : Keeps x0 s) : Keeps x0 (sweepStep p k s) := by
  unfold sweepStep
  try dsimp only
  repeat' with_reducible first
    | exact hk
    | assumption
    | apply State.wr_keeps
    | apply State.raiseOnce_keeps
    | apply State.sat_keeps
    | apply Keeps.ite
    | split
    | dsimp only

theorem sweepSkip_keeps {x : State} (p n : ℕ) {s : State} (h : Keeps x s) : Keeps x (sweepSkip p n s) := by
  induction n generalizing s with
  | zero => unfold sweepSkip; exact h
  | succ n ih =>
    unfold sweepSkip
    dsimp only
    split
    · exact h
    · exact ih (sweepStep_keeps _ _ h)

theorem execSliceStart_keeps {x0 : State} (p : PavId) {s : State} (hk : Keeps x0 s) : OutKeeps x0 (execSliceStart p s) := by
  unfold execSliceStart
  try dsimp only
  repeat' with_reducible first
    | exact hk
    | assumption
    | apply sweepSkip_keeps
    | apply State.modPav_keeps
    | apply OutKeeps.next
    | apply OutKeeps.ite
    | apply Keeps.ite
    | (fail_if_no_progress refine Keeps.upd ?_ rfl (by first | exact le_refl _ | exact le_max_left _ _ | exact Nat.le_succ _) (by first | exact le_refl _ | exact Nat.le_succ _) rfl rfl)
    | split
    | dsimp only

theorem retireStart_keeps {x0 : State} (p : ℕ) (cause : ℕ) {s : State} (hk : Keeps x0 s) : Keeps x0 (retireStart p cause s) := by
  unfold retireStart
  try dsimp only
  repeat' with_reducible first
    | exact hk
    | assumption
    | apply State.wr_keeps
    | apply Keeps.ite
    | (fail_if_no_progress refine Keeps.upd ?_ rfl (by first | exact le_refl _ | exact le_max_left _ _ | exact Nat.le_succ _) (by first | exact le_refl _ | exact Nat.le_succ _) rfl rfl)
    | split
    | dsimp only

theorem spareBad_keeps {x0 : State} (p : ℕ) (b : ℕ) (j : ℕ) {s : State} (hk : Keeps x0 s) : Keeps x0 (spareBad p b j s) := by
  unfold spareBad
  try dsimp only
  repeat' with_reducible first
    | exact hk
    | assumption
    | apply State.raise_keeps
    | apply State.sat_keeps
    | apply State.modPav_keeps
    | (fail_if_no_progress refine Keeps.upd ?_ rfl (by first | exact le_refl _ | exact le_max_left _ _ | exact Nat.le_succ _) (by first | exact le_refl _ | exact Nat.le_succ _) rfl rfl)
    | dsimp only

theorem switchRow_keeps {x0 : State} (p : ℕ) (b : ℕ) (row : ℕ) (j : ℕ) {s : State} (hk : Keeps x0 s) : Keeps x0 (switchRow p b row j s) := by
  unfold switchRow
  try dsimp only
  repeat' with_reducible first
    | exact hk
    | assumption
    | apply freeRepeats_keeps
    | apply State.modPav_keeps
    | apply logRecord_keeps
    | apply State.sat_keeps
    | apply State.raise_keeps
    | (fail_if_no_progress refine Keeps.upd ?_ rfl (by first | exact le_refl _ | exact le_max_left _ _ | exact Nat.le_succ _) (by first | exact le_refl _ | exact Nat.le_succ _) rfl rfl)
    | dsimp only

theorem spareRow_keeps {x0 : State} (p : ℕ) (b : ℕ) (row : ℕ) (save : List RawLine) {s : State} (hk : Keeps x0 s) : Keeps x0 (spareRow p b row save s).2 := by
  unfold spareRow
  try dsimp only
  repeat' with_reducible first
    | exact hk
    | assumption
    | apply retireStart_keeps
    | apply exhaust_keeps
    | apply restoreInto_keeps
    | apply switchRow_keeps
    | apply Keeps.ite
    | (refine Keeps.foldlFst _ ?_ (fun a e k => ?_))
    | (refine Keeps.foldlSnd _ ?_ (fun a e k => ?_))
    | (fail_if_no_progress refine Keeps.upd ?_ rfl (by first | exact le_refl _ | exact le_max_left _ _ | exact Nat.le_succ _) (by first | exact le_refl _ | exact Nat.le_succ _) rfl rfl)
    | split
    | dsimp only

theorem noteFail_keeps {x0 : State} (p : ℕ) (x : Slice) (f : SliceFail) {s : State} (hk : Keeps x0 s) : Keeps x0 (noteFail p x f s) := by
  unfold noteFail
  try dsimp only
  repeat' with_reducible first
    | exact hk
    | assumption
    | apply State.setReg_keeps
    | apply State.raise_keeps
    | apply State.sat_keeps
    | (refine Keeps.foldl _ ?_ (fun a e k => ?_))
    | (fail_if_no_progress refine Keeps.upd ?_ rfl (by first | exact le_refl _ | exact le_max_left _ _ | exact Nat.le_succ _) (by first | exact le_refl _ | exact Nat.le_succ _) rfl rfl)
    | split
    | dsimp only

theorem sliceFailed_keeps {x0 : State} (p : ℕ) (x : Slice) (f : SliceFail) (verifyOk : Bool) {s : State} (hk : Keeps x0 s) : Keeps x0 (sliceFailed p x f verifyOk s).2 := by
  unfold sliceFailed
  try dsimp only
  repeat' with_reducible first
    | exact hk
    | assumption
    | apply noteFail_keeps
    | apply spareBad_keeps
    | (refine Keeps.snd (p := spareRow _ _ _ _ _) (by assumption) ?_)
    | apply spareRow_keeps
    | apply Keeps.ite
    | (refine Keeps.foldlFst _ ?_ (fun a e k => ?_))
    | (refine Keeps.foldlSnd _ ?_ (fun a e k => ?_))
    | (fail_if_no_progress refine Keeps.upd ?_ rfl (by first | exact le_refl _ | exact le_max_left _ _ | exact Nat.le_succ _) (by first | exact le_refl _ | exact Nat.le_succ _) rfl rfl)
    | split
    | dsimp only

theorem sliceBank_keeps {x0 : State} (p : ℕ) (x : Slice) {s : State} (hk : Keeps x0 s) : Keeps x0 (sliceBank p x s) := by
  unfold sliceBank
  try dsimp only
  repeat' with_reducible first
    | exact hk
    | assumption
    | apply closeBank_keeps
    | apply State.modBank_keeps
    | apply Keeps.ite
    | (fail_if_no_progress refine Keeps.upd ?_ rfl (by first | exact le_refl _ | exact le_max_left _ _ | exact Nat.le_succ _) (by first | exact le_refl _ | exact Nat.le_succ _) rfl rfl)
    | split
    | dsimp only

theorem endSlice_keeps {x0 : State} (p : ℕ) (x : Slice) (answer : ℕ) {s : State} (hk : Keeps x0 s) : Keeps x0 (endSlice p x answer s) := by
  unfold endSlice
  try dsimp only
  repeat' with_reducible first
    | exact hk
    | assumption
    | apply sliceBank_keeps
    | apply restoreSlice_keeps
    | apply State.modPav_keeps
    | apply State.sat_keeps
    | apply sweepStep_keeps
    | apply State.finish_keeps
    | apply Keeps.ite
    | (fail_if_no_progress refine Keeps.upd ?_ rfl (by first | exact le_refl _ | exact le_max_left _ _ | exact Nat.le_succ _) (by first | exact le_refl _ | exact Nat.le_succ _) rfl rfl)
    | split
    | dsimp only

theorem execSliceEnd_keeps {x0 : State} (p : PavId) (result : SliceResult) {s : State} (hk : Keeps x0 s) : OutKeeps x0 (execSliceEnd p result s) := by
  unfold execSliceEnd
  try dsimp only
  repeat' with_reducible first
    | exact hk
    | assumption
    | apply drainStep_keeps
    | apply endSlice_keeps
    | apply State.atLeast_keeps
    | (refine Keeps.snd (p := sliceFailed _ _ _ _ _) (by assumption) ?_)
    | apply sliceFailed_keeps
    | apply OutKeeps.next
    | (fail_if_no_progress refine Keeps.upd ?_ rfl (by first | exact le_refl _ | exact le_max_left _ _ | exact Nat.le_succ _) (by first | exact le_refl _ | exact Nat.le_succ _) rfl rfl)
    | split
    | dsimp only

theorem execSliceWatchdog_keeps {x0 : State} (p : PavId) {s : State} (hk : Keeps x0 s) : OutKeeps x0 (execSliceWatchdog p s) := by
  unfold execSliceWatchdog
  try dsimp only
  repeat' with_reducible first
    | exact hk
    | assumption
    | apply abortSlice_keeps
    | apply State.atLeast_keeps
    | apply OutKeeps.next
    | apply OutKeeps.ite
    | apply Keeps.ite
    | (fail_if_no_progress refine Keeps.upd ?_ rfl (by first | exact le_refl _ | exact le_max_left _ _ | exact Nat.le_succ _) (by first | exact le_refl _ | exact Nat.le_succ _) rfl rfl)
    | split
    | dsimp only

theorem execSweepSliceDue_keeps {x0 : State} {s : State} (hk : Keeps x0 s) : OutKeeps x0 (execSweepSliceDue s) := by
  unfold execSweepSliceDue
  try dsimp only
  repeat' with_reducible first
    | exact hk
    | assumption
    | apply State.modPav_keeps
    | apply OutKeeps.next
    | apply OutKeeps.ite
    | apply Keeps.ite
    | (refine Keeps.forUpto _ ?_ (fun i a k => ?_))
    | (fail_if_no_progress refine Keeps.upd ?_ rfl (by first | exact le_refl _ | exact le_max_left _ _ | exact Nat.le_succ _) (by first | exact le_refl _ | exact Nat.le_succ _) rfl rfl)
    | split
    | dsimp only

theorem sweepStop_keeps {x0 : State} {s : State} (hk : Keeps x0 s) : Keeps x0 (sweepStop s) := by
  unfold sweepStop
  try dsimp only
  repeat' with_reducible first
    | exact hk
    | assumption
    | apply State.wr_keeps
    | apply State.modPav_keeps
    | (refine Keeps.forUpto _ ?_ (fun i a k => ?_))
    | (fail_if_no_progress refine Keeps.upd ?_ rfl (by first | exact le_refl _ | exact le_max_left _ _ | exact Nat.le_succ _) (by first | exact le_refl _ | exact Nat.le_succ _) rfl rfl)
    | dsimp only

theorem slicesStop_keeps {x0 : State} (cause : ℕ) (code : ℕ) {s : State} (hk : Keeps x0 s) : Keeps x0 (slicesStop cause code s) := by
  unfold slicesStop
  try dsimp only
  repeat' with_reducible first
    | exact hk
    | assumption
    | apply endWith_keeps
    | apply abortSlice_keeps
    | apply State.finish_keeps
    | apply State.modPav_keeps
    | (refine Keeps.forUpto _ ?_ (fun i a k => ?_))
    | (fail_if_no_progress refine Keeps.upd ?_ rfl (by first | exact le_refl _ | exact le_max_left _ _ | exact Nat.le_succ _) (by first | exact le_refl _ | exact Nat.le_succ _) rfl rfl)
    | split
    | dsimp only

theorem shortTests_keeps {x0 : State} {s : State} (hk : Keeps x0 s) : Keeps x0 (shortTests s) := by
  unfold shortTests
  try dsimp only
  repeat' with_reducible first
    | exact hk
    | assumption
    | apply linkDown_keeps
    | apply Keeps.ite
    | (refine Keeps.forUpto _ ?_ (fun i a k => ?_))
    | (fail_if_no_progress refine Keeps.upd ?_ rfl (by first | exact le_refl _ | exact le_max_left _ _ | exact Nat.le_succ _) (by first | exact le_refl _ | exact Nat.le_succ _) rfl rfl)
    | split
    | dsimp only

theorem laneTest_keeps {x0 : State} {s : State} (hk : Keeps x0 s) : Keeps x0 (laneTest s) := by
  unfold laneTest
  try dsimp only
  repeat' with_reducible first
    | exact hk
    | assumption
    | apply lanesTo_keeps
    | apply State.wr_keeps
    | apply Keeps.ite
    | (refine Keeps.forUpto _ ?_ (fun i a k => ?_))
    | split
    | dsimp only

theorem lanesBack_keeps {x0 : State} (step : ℕ) {s : State} (hk : Keeps x0 s) : Keeps x0 (lanesBack step s) := by
  unfold lanesBack
  try dsimp only
  repeat' with_reducible first
    | exact hk
    | assumption
    | apply startTraining_keeps
    | apply parkLanes_keeps
    | apply Keeps.ite
    | (refine Keeps.forUpto _ ?_ (fun i a k => ?_))
    | split
    | dsimp only

theorem execLogicTestDone_keeps {x0 : State} (failPavs : BitVec 32) (failPorts : BitVec 16) {s : State} (hk : Keeps x0 s) : OutKeeps x0 (execLogicTestDone failPavs failPorts s) := by
  unfold execLogicTestDone
  try dsimp only
  repeat' with_reducible first
    | exact hk
    | assumption
    | apply State.atLeast_keeps
    | apply State.raise_keeps
    | apply retireStart_keeps
    | apply markDown_keeps
    | apply laneTest_keeps
    | apply OutKeeps.next
    | apply OutKeeps.ite
    | apply Keeps.ite
    | (refine Keeps.forUpto _ ?_ (fun i a k => ?_))
    | (fail_if_no_progress refine Keeps.upd ?_ rfl (by first | exact le_refl _ | exact le_max_left _ _ | exact Nat.le_succ _) (by first | exact le_refl _ | exact Nat.le_succ _) rfl rfl)
    | split
    | dsimp only

theorem execTsvTestDone_keeps {x0 : State} (tsvFail : List (PavId × Fin 16)) (saveFail : BitVec 32) (laneFail : BitVec 128) {s : State} (hk : Keeps x0 s) : OutKeeps x0 (execTsvTestDone tsvFail saveFail laneFail s) := by
  unfold execTsvTestDone
  try dsimp only
  repeat' with_reducible first
    | exact hk
    | assumption
    | apply State.atLeast_keeps
    | apply State.raise_keeps
    | apply retireStart_keeps
    | apply State.wr_keeps
    | apply State.modLane_keeps
    | apply markDown_keeps
    | apply lanesBack_keeps
    | apply OutKeeps.next
    | apply OutKeeps.ite
    | apply Keeps.ite
    | (refine Keeps.forUpto _ ?_ (fun i a k => ?_))
    | (refine Keeps.foldl _ ?_ (fun a e k => ?_))
    | (fail_if_no_progress refine Keeps.upd ?_ rfl (by first | exact le_refl _ | exact le_max_left _ _ | exact Nat.le_succ _) (by first | exact le_refl _ | exact Nat.le_succ _) rfl rfl)
    | split
    | dsimp only

theorem restPassed_keeps {x0 : State} (rows : Option ℕ) {s : State} (hk : Keeps x0 s) : Keeps x0 (restPassed rows s) := by
  unfold restPassed
  try dsimp only
  repeat' with_reducible first
    | exact hk
    | assumption
    | apply State.modPav_keeps
    | apply State.sat_keeps
    | apply Keeps.ite
    | (refine Keeps.forUpto _ ?_ (fun i a k => ?_))
    | (fail_if_no_progress refine Keeps.upd ?_ rfl (by first | exact le_refl _ | exact le_max_left _ _ | exact Nat.le_succ _) (by first | exact le_refl _ | exact Nat.le_succ _) rfl rfl)
    | split
    | dsimp only

theorem testOver_keeps {x0 : State} {s : State} (hk : Keeps x0 s) : Keeps x0 (testOver s) := by
  unfold testOver
  try dsimp only
  repeat' with_reducible first
    | exact hk
    | assumption
    | apply State.wr_keeps
    | (fail_if_no_progress refine Keeps.upd ?_ rfl (by first | exact le_refl _ | exact le_max_left _ _ | exact Nat.le_succ _) (by first | exact le_refl _ | exact Nat.le_succ _) rfl rfl)
    | dsimp only

theorem execStartupTestDone_keeps {x0 : State} {s : State} (hk : Keeps x0 s) : OutKeeps x0 (execStartupTestDone s) := by
  unfold execStartupTestDone
  try dsimp only
  repeat' with_reducible first
    | exact hk
    | assumption
    | apply restPassed_keeps
    | apply testOver_keeps
    | apply State.raise_keeps
    | apply OutKeeps.next
    | apply OutKeeps.ite
    | apply Keeps.ite
    | (refine Keeps.foldl _ ?_ (fun a e k => ?_))
    | (fail_if_no_progress refine Keeps.upd ?_ rfl (by first | exact le_refl _ | exact le_max_left _ _ | exact Nat.le_succ _) (by first | exact le_refl _ | exact Nat.le_succ _) rfl rfl)
    | split
    | dsimp only

theorem startTest_keeps {x0 : State} {s : State} (hk : Keeps x0 s) : Keeps x0 (startTest s) := by
  unfold startTest
  try dsimp only
  repeat' with_reducible first
    | exact hk
    | assumption
    | apply State.modPav_keeps
    | apply testOver_keeps
    | apply shortTests_keeps
    | apply State.wr_keeps
    | apply Keeps.ite
    | (refine Keeps.forUpto _ ?_ (fun i a k => ?_))
    | (fail_if_no_progress refine Keeps.upd ?_ rfl (by first | exact le_refl _ | exact le_max_left _ _ | exact Nat.le_succ _) (by first | exact le_refl _ | exact Nat.le_succ _) rfl rfl)
    | split
    | dsimp only

end Sys2Proof.Machine
end

