-- ==== Sys2Proof/Laws/KeepsOtp.lean ====
section
/-! SUPPORT. What the operations of Machine/Otp.lean keep (Keeps of Safety.lean). -/
namespace Sys2Proof.Machine
open Sys2Proof

set_option linter.all false

theorem noteMarginal_keeps {x0 : State} (tb : ℕ) (kind : ℕ) (idx : ℕ) {s : State} (hk : Keeps x0 s) : Keeps x0 (noteMarginal tb kind idx s) := by
  unfold noteMarginal
  try dsimp only
  repeat' with_reducible first
    | exact hk
    | assumption
    | apply State.wr_keeps
    | apply State.sat_keeps
    | apply State.raise_keeps
    | apply Keeps.ite
    | (fail_if_no_progress refine Keeps.upd ?_ rfl (by first | exact le_refl _ | exact le_max_left _ _ | exact Nat.le_succ _) (by first | exact le_refl _ | exact Nat.le_succ _) rfl rfl)
    | (fail_if_no_progress refine Keeps.updOtp ?_ rfl (by first | exact le_refl _ | exact le_max_left _ _ | exact Nat.le_succ _) (by first | exact le_refl _ | exact Nat.le_succ _) rfl (FusesKept.upd rfl rfl rfl rfl rfl rfl rfl) rfl)
    | split
    | dsimp only

theorem noteMarginals_keeps {x0 : State} (tb : ℕ) (kind : ℕ) (ev : ℕ) (detail : ℕ) (l : List ℕ) {s : State} (hk : Keeps x0 s) : Keeps x0 (noteMarginals tb kind ev detail l s) := by
  unfold noteMarginals
  try dsimp only
  repeat' with_reducible first
    | exact hk
    | assumption
    | apply State.raise_keeps
    | apply noteMarginal_keeps
    | (refine Keeps.foldl _ ?_ (fun a e k => ?_))
    | (fail_if_no_progress refine Keeps.upd ?_ rfl (by first | exact le_refl _ | exact le_max_left _ _ | exact Nat.le_succ _) (by first | exact le_refl _ | exact Nat.le_succ _) rfl rfl)
    | split
    | dsimp only

theorem clearMarginal_keeps {x0 : State} (kind : ℕ) (idx : ℕ) {s : State} (hk : Keeps x0 s) : Keeps x0 (clearMarginal kind idx s) := by
  unfold clearMarginal
  try dsimp only
  repeat' with_reducible first
    | exact hk
    | assumption
    | apply State.wr_keeps
    | apply Keeps.ite
    | (refine Keeps.forUpto _ ?_ (fun i a k => ?_))
    | (fail_if_no_progress refine Keeps.upd ?_ rfl (by first | exact le_refl _ | exact le_max_left _ _ | exact Nat.le_succ _) (by first | exact le_refl _ | exact Nat.le_succ _) rfl rfl)
    | (fail_if_no_progress refine Keeps.updOtp ?_ rfl (by first | exact le_refl _ | exact le_max_left _ _ | exact Nat.le_succ _) (by first | exact le_refl _ | exact Nat.le_succ _) rfl (FusesKept.upd rfl rfl rfl rfl rfl rfl rfl) rfl)
    | split
    | dsimp only

theorem loadEnables_keeps {x0 : State} {s : State} (hk : Keeps x0 s) : Keeps x0 (loadEnables s) := by
  unfold loadEnables
  try dsimp only
  repeat' with_reducible first
    | exact hk
    | assumption
    | apply State.wr_keeps
    | apply Keeps.ite
    | split
    | dsimp only

/-- The read of the direct field latches the variant anew, and keeps the rest. -/
theorem readDirect_going {x : State} (marginals : List ℕ) (tb : ℕ) {s : State} (h : Going x s) :
    Going x (readDirect marginals tb s) := by
  unfold readDirect
  dsimp only
  have h0 : ∀ o : Otp, FusesKept s.otp o → Going x { s with otp := o } := fun o k =>
    ⟨h.pending, h.now, h.free, h.mem, h.fuses.trans k⟩
  refine (h0 _ ?_).trans (State.wr_keeps _ _ (loadEnables_keeps (noteMarginals_keeps _ _ _ _ _ (Keeps.forUpto _ (Keeps.refl _)
    (fun i a k => State.setReg_keeps _ _ k))))).toGoing
  exact FusesKept.upd rfl rfl rfl rfl rfl rfl rfl

theorem execOtpDirectFieldReady_going {x : State} (marginals : List ℕ) (tb : BitVec 16) {s : State} (h : Going x s) (t : State)
    (e : execOtpDirectFieldReady marginals tb s = .next t) : Going x t := by
  unfold execOtpDirectFieldReady at e
  split at e
  · rw [← Host.Outcome.next.inj e]
    exact readDirect_going _ _ ⟨h.pending, h.now, h.free, h.mem, h.fuses⟩
  · rw [← Host.Outcome.next.inj e]
    exact h

theorem loadRegions_keeps {x0 : State} {s : State} (hk : Keeps x0 s) : Keeps x0 (loadRegions s) := by
  unfold loadRegions
  try dsimp only
  repeat' with_reducible first
    | exact hk
    | assumption
    | apply State.wr_keeps
    | apply State.raise_keeps
    | apply Keeps.ite
    | (refine Keeps.forUpto _ ?_ (fun i a k => ?_))
    | split
    | dsimp only

theorem readArray_keeps {x0 : State} (marginals : List (MarginKind × ℕ)) (tb : ℕ) {s : State} (hk : Keeps x0 s) : Keeps x0 (readArray marginals tb s) := by
  unfold readArray
  try dsimp only
  repeat' with_reducible first
    | exact hk
    | assumption
    | apply noteMarginals_keeps
    | apply State.wr_keeps
    | apply State.raise_keeps
    | apply loadRegions_keeps
    | apply Keeps.ite
    | (refine Keeps.foldl _ ?_ (fun a e k => ?_))
    | (fail_if_no_progress refine Keeps.upd ?_ rfl (by first | exact le_refl _ | exact le_max_left _ _ | exact Nat.le_succ _) (by first | exact le_refl _ | exact Nat.le_succ _) rfl rfl)
    | (fail_if_no_progress refine Keeps.updOtp ?_ rfl (by first | exact le_refl _ | exact le_max_left _ _ | exact Nat.le_succ _) (by first | exact le_refl _ | exact Nat.le_succ _) rfl (FusesKept.upd rfl rfl rfl rfl rfl rfl rfl) rfl)
    | split
    | dsimp only

theorem loadTrims_keeps {x0 : State} (p : ℕ) {s : State} (hk : Keeps x0 s) : Keeps x0 (loadTrims p s) := by
  unfold loadTrims
  try dsimp only
  repeat' with_reducible first
    | exact hk
    | assumption
    | apply State.setReg_keeps
    | apply Keeps.ite
    | (refine Keeps.forUpto _ ?_ (fun i a k => ?_))
    | split
    | dsimp only

theorem loadFused_keeps {x0 : State} {s : State} (hk : Keeps x0 s) : Keeps x0 (loadFused s) := by
  unfold loadFused
  try dsimp only
  repeat' with_reducible first
    | exact hk
    | assumption
    | apply loadEnables_keeps
    | apply State.wr_keeps
    | apply loadTrims_keeps
    | apply Keeps.ite
    | (refine Keeps.forUpto _ ?_ (fun i a k => ?_))
    | split
    | dsimp only

theorem progStart_keeps {x0 : State} (mbx : Option ℕ) (opcode : ℕ) (items : List FuseItem) (target : ℕ) (kind : ℕ) {s : State} (hk : Keeps x0 s) : Keeps x0 (progStart mbx opcode items target kind s) := by
  unfold progStart
  try dsimp only
  repeat' with_reducible first
    | exact hk
    | assumption
    | apply State.wr_keeps
    | (fail_if_no_progress refine Keeps.upd ?_ rfl (by first | exact le_refl _ | exact le_max_left _ _ | exact Nat.le_succ _) (by first | exact le_refl _ | exact Nat.le_succ _) rfl rfl)
    | (fail_if_no_progress refine Keeps.updOtp ?_ rfl (by first | exact le_refl _ | exact le_max_left _ _ | exact Nat.le_succ _) (by first | exact le_refl _ | exact Nat.le_succ _) rfl (FusesKept.upd rfl rfl rfl rfl rfl rfl rfl) rfl)
    | dsimp only

theorem progDone_keeps {x0 : State} (g : Prog) {s : State} (hk : Keeps x0 s) : Keeps x0 (progDone g s) := by
  unfold progDone
  try dsimp only
  repeat' with_reducible first
    | exact hk
    | assumption
    | apply State.raise_keeps
    | apply clearMarginal_keeps
    | apply State.wr_keeps
    | apply Keeps.ite
    | split
    | dsimp only

theorem progEnd_keeps {x0 : State} (g : Prog) (code : ℕ) (early : Bool) {s : State} (hk : Keeps x0 s) : Keeps x0 (progEnd g code early s) := by
  unfold progEnd
  try dsimp only
  repeat' with_reducible first
    | exact hk
    | assumption
    | apply State.wr_keeps
    | apply progDone_keeps
    | apply State.finish_keeps
    | apply State.raise_keeps
    | apply Keeps.ite
    | (fail_if_no_progress refine Keeps.upd ?_ rfl (by first | exact le_refl _ | exact le_max_left _ _ | exact Nat.le_succ _) (by first | exact le_refl _ | exact Nat.le_succ _) rfl rfl)
    | (fail_if_no_progress refine Keeps.updOtp ?_ rfl (by first | exact le_refl _ | exact le_max_left _ _ | exact Nat.le_succ _) (by first | exact le_refl _ | exact Nat.le_succ _) rfl (FusesKept.upd rfl rfl rfl rfl rfl rfl rfl) rfl)
    | split
    | dsimp only

theorem progEarly_keeps {x0 : State} (g : Prog) (code : ℕ) {s : State} (hk : Keeps x0 s) : Keeps x0 (progEarly g code s) := by
  unfold progEarly
  try dsimp only
  repeat' with_reducible first
    | exact hk
    | assumption
    | apply progEnd_keeps
    | apply State.raise_keeps
    | apply Keeps.ite
    | split
    | dsimp only

theorem itemVerified_keeps {x0 : State} (it : FuseItem) {s : State} (hk : Keeps x0 s) : Keeps x0 (itemVerified it s) := by
  unfold itemVerified
  try dsimp only
  repeat' with_reducible first
    | exact hk
    | assumption
    | apply State.sat_keeps
    | apply State.wr_keeps
    | apply State.raise_keeps
    | apply Keeps.ite
    | (fail_if_no_progress refine Keeps.upd ?_ rfl (by first | exact le_refl _ | exact le_max_left _ _ | exact Nat.le_succ _) (by first | exact le_refl _ | exact Nat.le_succ _) rfl rfl)
    | (fail_if_no_progress refine Keeps.updOtp ?_ rfl (by first | exact le_refl _ | exact le_max_left _ _ | exact Nat.le_succ _) (by first | exact le_refl _ | exact Nat.le_succ _) rfl (FusesKept.upd rfl rfl rfl rfl rfl rfl rfl) rfl)
    | split
    | dsimp only

theorem within_tabSet {w : ℕ} (t : Tab (BitVec w)) (i : ℕ) (b : BitVec w) (j : ℕ) :
    Within (tabGet 0 t j) (tabGet 0 (tabSet 0 t i (tabGet 0 t i ||| b)) j) := by
  by_cases h : j = i
  · subst h
    rw [tabGet_tabSet_same]
    exact Within.or _ _
  · rw [tabGet_tabSet_ne _ _ _ _ h]
    exact Within.refl _

/-- Pulses only blow fuses (R586). -/
theorem pulse_fuses (it : FuseItem) (free : Option (BitVec 64)) (o : Otp) : FusesKept o (pulse it free o) := by
  have put : ∀ (i : ℕ) (y : BitVec 11) (f0 f1 f2 : Option (BitVec 64)) (w : ℕ), Within (tabGet 0 o.redir w)
      (tabGet 0 (tabSet 0 (tabSet 0 (tabSet 0 o.redir i (tabGet 0 o.redir i ||| blown f0 y)) (i + 1)
        (tabGet 0 (tabSet 0 o.redir i (tabGet 0 o.redir i ||| blown f0 y)) (i + 1) ||| blown f1 y)) (i + 2)
        (tabGet 0 (tabSet 0 (tabSet 0 o.redir i (tabGet 0 o.redir i ||| blown f0 y)) (i + 1)
        (tabGet 0 (tabSet 0 o.redir i (tabGet 0 o.redir i ||| blown f0 y)) (i + 1) ||| blown f1 y)) (i + 2) ||| blown f2 y)) w) :=
    fun i y f0 f1 f2 w => ((within_tabSet _ _ _ w).trans (within_tabSet _ _ _ w)).trans (within_tabSet _ _ _ w)
  cases it with
  | word a d =>
    unfold pulse
    dsimp only
    split
    · exact { FusesKept.refl o with spares := fun w => within_tabSet _ _ _ w }
    · exact { FusesKept.refl o with words := fun w => within_tabSet _ _ _ w }
  | spareWord k d => exact { FusesKept.refl o with spares := fun w => within_tabSet _ _ _ w }
  | redirect i row => exact { FusesKept.refl o with redir := fun w => put (3 * i) _ _ _ _ w }
  | dfBit b => exact { FusesKept.refl o with df0 := Within.or _ _, df1 := Within.or _ _, df2 := Within.or _ _ }
  | redirBit b => exact { FusesKept.refl o with redir := fun w => put (3 * (b / 11)) _ _ _ _ w }
  | counter f => exact { FusesKept.refl o with arb := Within.or _ _ }

theorem pulse_latDf (it : FuseItem) (free : Option (BitVec 64)) (o : Otp) : (pulse it free o).latDf = o.latDf := by
  cases it <;> unfold pulse <;> dsimp only
  split <;> rfl

theorem execOtpWordDone_keeps {x : State} (o : FuseOutcome) {s : State} (h : Keeps x s) : OutKeeps x (execOtpWordDone o s) := by
  have step : ∀ (it : FuseItem) (f : Option (BitVec 64)) (s : State) (o : Otp), Keeps x s →
      FusesKept (pulse it f s.otp) o → o.latDf = (pulse it f s.otp).latDf → Keeps x { s with otp := o } :=
    fun it f s o h k e => ⟨⟨h.pending, h.now, h.free, h.mem, h.fuses.trans ((pulse_fuses it f s.otp).trans k)⟩,
      e.trans ((pulse_latDf it f s.otp).trans h.variant)⟩
  unfold execOtpWordDone
  split
  · exact OutKeeps.next h
  · split
    · exact OutKeeps.next h
    split
    · exact OutKeeps.next (progEnd_keeps _ _ _ h)
    · dsimp only
      split
      · have h1 := fun (it : FuseItem) (g : Option Prog) (j : List (FuseItem × JStatus)) => itemVerified_keeps it
          (step it none s { pulse it none s.otp with prog := g, journal := j } h (FusesKept.upd rfl rfl rfl rfl rfl rfl rfl) rfl)
        split
        · exact OutKeeps.next (progEnd_keeps _ _ _ (h1 _ _ _))
        · split
          · exact OutKeeps.next (progEarly_keeps _ _ (h1 _ _ _))
          · split
            · exact OutKeeps.next (h1 _ _ _)
            · exact OutKeeps.next (progEarly_keeps _ _ (h1 _ _ _))
      · exact OutKeeps.next (progEnd_keeps _ _ _ (State.raise_keeps _ _ (step _ _ _ _ (State.drawFree_keeps h)
          (FusesKept.upd rfl rfl rfl rfl rfl rfl rfl) rfl)))
      · exact OutKeeps.next (progEarly_keeps _ _ (step _ _ _ _ (State.drawFree_keeps h)
          (FusesKept.upd rfl rfl rfl rfl rfl rfl rfl) rfl))

theorem progStop_keeps {x0 : State} (code : ℕ) {s : State} (hk : Keeps x0 s) : Keeps x0 (progStop code s) := by
  unfold progStop
  try dsimp only
  repeat' with_reducible first
    | exact hk
    | assumption
    | apply endWith_keeps
    | (fail_if_no_progress refine Keeps.upd ?_ rfl (by first | exact le_refl _ | exact le_max_left _ _ | exact Nat.le_succ _) (by first | exact le_refl _ | exact Nat.le_succ _) rfl rfl)
    | (fail_if_no_progress refine Keeps.updOtp ?_ rfl (by first | exact le_refl _ | exact le_max_left _ _ | exact Nat.le_succ _) (by first | exact le_refl _ | exact Nat.le_succ _) rfl (FusesKept.upd rfl rfl rfl rfl rfl rfl rfl) rfl)
    | split
    | dsimp only

theorem execVddOtppChange_keeps {x0 : State} (present : Bool) {s : State} (hk : Keeps x0 s) : OutKeeps x0 (execVddOtppChange present s) := by
  unfold execVddOtppChange
  try dsimp only
  repeat' with_reducible first
    | exact hk
    | assumption
    | apply State.wr_keeps
    | apply OutKeeps.next
    | (fail_if_no_progress refine Keeps.upd ?_ rfl (by first | exact le_refl _ | exact le_max_left _ _ | exact Nat.le_succ _) (by first | exact le_refl _ | exact Nat.le_succ _) rfl rfl)
    | (fail_if_no_progress refine Keeps.updOtp ?_ rfl (by first | exact le_refl _ | exact le_max_left _ _ | exact Nat.le_succ _) (by first | exact le_refl _ | exact Nat.le_succ _) rfl (FusesKept.upd rfl rfl rfl rfl rfl rfl rfl) rfl)
    | dsimp only

theorem opOtpRead_keeps {x0 : State} (m : ℕ) (pl : List Byte) {s : State} (hk : Keeps x0 s) : Keeps x0 (opOtpRead m pl s) := by
  unfold opOtpRead
  try dsimp only
  repeat' with_reducible first
    | exact hk
    | assumption
    | apply State.badByte_keeps
    | apply State.finish_keeps
    | apply Keeps.ite
    | (refine Keeps.foldl _ ?_ (fun a e k => ?_))
    | split
    | dsimp only

theorem opOtpProgram_keeps {x0 : State} (m : ℕ) (pl : List Byte) {s : State} (hk : Keeps x0 s) : Keeps x0 (opOtpProgram m pl s) := by
  unfold opOtpProgram
  try dsimp only
  repeat' with_reducible first
    | exact hk
    | assumption
    | apply State.badByte_keeps
    | apply State.refuse_keeps
    | apply progStart_keeps
    | apply Keeps.ite
    | (fail_if_no_progress refine Keeps.upd ?_ rfl (by first | exact le_refl _ | exact le_max_left _ _ | exact Nat.le_succ _) (by first | exact le_refl _ | exact Nat.le_succ _) rfl rfl)
    | split
    | dsimp only

theorem opOtpLock_keeps {x0 : State} (m : ℕ) (pl : List Byte) {s : State} (hk : Keeps x0 s) : Keeps x0 (opOtpLock m pl s) := by
  unfold opOtpLock
  try dsimp only
  repeat' with_reducible first
    | exact hk
    | assumption
    | apply State.badByte_keeps
    | apply State.refuse_keeps
    | apply progStart_keeps
    | apply Keeps.ite
    | (fail_if_no_progress refine Keeps.upd ?_ rfl (by first | exact le_refl _ | exact le_max_left _ _ | exact Nat.le_succ _) (by first | exact le_refl _ | exact Nat.le_succ _) rfl rfl)
    | split
    | dsimp only

theorem opRepairOtp_keeps {x0 : State} (m : ℕ) (pl : List Byte) {s : State} (hk : Keeps x0 s) : Keeps x0 (opRepairOtp m pl s) := by
  unfold opRepairOtp
  try dsimp only
  repeat' with_reducible first
    | exact hk
    | assumption
    | apply State.badByte_keeps
    | apply State.refuse_keeps
    | apply progStart_keeps
    | apply Keeps.ite
    | (fail_if_no_progress refine Keeps.upd ?_ rfl (by first | exact le_refl _ | exact le_max_left _ _ | exact Nat.le_succ _) (by first | exact le_refl _ | exact Nat.le_succ _) rfl rfl)
    | split
    | dsimp only

theorem opOtpStatus_keeps {x0 : State} (m : ℕ) {s : State} (hk : Keeps x0 s) : Keeps x0 (opOtpStatus m s) := by
  unfold opOtpStatus
  try dsimp only
  repeat' with_reducible first
    | exact hk
    | assumption
    | apply State.finish_keeps
    | dsimp only

theorem opOtpJournalRead_keeps {x0 : State} (m : ℕ) (pl : List Byte) {s : State} (hk : Keeps x0 s) : Keeps x0 (opOtpJournalRead m pl s) := by
  unfold opOtpJournalRead
  try dsimp only
  repeat' with_reducible first
    | exact hk
    | assumption
    | apply State.badByte_keeps
    | apply State.finish_keeps
    | apply Keeps.ite
    | split
    | dsimp only

theorem opSpareCommit_keeps {x0 : State} (m : ℕ) (pl : List Byte) {s : State} (hk : Keeps x0 s) : Keeps x0 (opSpareCommit m pl s) := by
  unfold opSpareCommit
  try dsimp only
  repeat' with_reducible first
    | exact hk
    | assumption
    | apply State.badByte_keeps
    | apply State.refuse_keeps
    | apply State.finish_keeps
    | apply progStart_keeps
    | apply Keeps.ite
    | (fail_if_no_progress refine Keeps.upd ?_ rfl (by first | exact le_refl _ | exact le_max_left _ _ | exact Nat.le_succ _) (by first | exact le_refl _ | exact Nat.le_succ _) rfl rfl)
    | split
    | dsimp only

end Sys2Proof.Machine
end

