-- ==== Sys2Proof/Laws/KeepsWake.lean ====
section
/-! SUPPORT. What the operations of Machine/Wake.lean keep (Keeps of Safety.lean). -/
namespace Sys2Proof.Machine
open Sys2Proof

set_option linter.all false

theorem exitHold_keeps {x0 : State} (dest : ℕ) (cause : ℕ) (port : ℕ) {s : State} (hk : Keeps x0 s) : Keeps x0 (exitHold dest cause port s) := by
  unfold exitHold
  try dsimp only
  repeat' with_reducible first
    | exact hk
    | assumption
    | apply State.wr_keeps
    | apply State.modPav_keeps
    | apply ungatePav_keeps
    | apply wakePav_keeps
    | apply applyTest_keeps
    | apply startParkedExit_keeps
    | apply startTraining_keeps
    | apply Keeps.ite
    | (refine Keeps.forUpto _ ?_ (fun i a k => ?_))
    | (fail_if_no_progress refine Keeps.upd ?_ rfl (by first | exact le_refl _ | exact le_max_left _ _ | exact Nat.le_succ _) (by first | exact le_refl _ | exact Nat.le_succ _) rfl rfl)
    | split
    | dsimp only

theorem wakeBy_keeps {x0 : State} (cause : ℕ) (port : ℕ) (on : Bool) {s : State} (hk : Keeps x0 s) : Keeps x0 (wakeBy cause port on s) := by
  unfold wakeBy
  try dsimp only
  repeat' with_reducible first
    | exact hk
    | assumption
    | apply exitHold_keeps
    | apply State.wr_keeps
    | apply Keeps.ite
    | (fail_if_no_progress refine Keeps.upd ?_ rfl (by first | exact le_refl _ | exact le_max_left _ _ | exact Nat.le_succ _) (by first | exact le_refl _ | exact Nat.le_succ _) rfl rfl)
    | split
    | dsimp only

theorem execSquelchActivity_keeps {x0 : State} (n : PortId) {s : State} (hk : Keeps x0 s) : OutKeeps x0 (execSquelchActivity n s) := by
  unfold execSquelchActivity
  try dsimp only
  repeat' with_reducible first
    | exact hk
    | assumption
    | apply wakeBy_keeps
    | apply State.modPort_keeps
    | apply abandonEntry_keeps
    | apply startParkedExit_keeps
    | apply OutKeeps.next
    | apply OutKeeps.ite
    | apply Keeps.ite
    | (fail_if_no_progress refine Keeps.upd ?_ rfl (by first | exact le_refl _ | exact le_max_left _ _ | exact Nat.le_succ _) (by first | exact le_refl _ | exact Nat.le_succ _) rfl rfl)
    | split
    | dsimp only

theorem execWakeNInput_keeps {x0 : State} {s : State} (hk : Keeps x0 s) : OutKeeps x0 (execWakeNInput s) := by
  unfold execWakeNInput
  try dsimp only
  repeat' with_reducible first
    | exact hk
    | assumption
    | apply wakeBy_keeps
    | apply OutKeeps.next
    | apply OutKeeps.ite
    | apply Keeps.ite
    | split
    | dsimp only

theorem execWakeNDriveEnd_keeps {x0 : State} {s : State} (hk : Keeps x0 s) : OutKeeps x0 (execWakeNDriveEnd s) := by
  unfold execWakeNDriveEnd
  try dsimp only
  repeat' with_reducible first
    | exact hk
    | assumption
    | apply State.atLeast_keeps
    | apply OutKeeps.next
    | (fail_if_no_progress refine Keeps.upd ?_ rfl (by first | exact le_refl _ | exact le_max_left _ _ | exact Nat.le_succ _) (by first | exact le_refl _ | exact Nat.le_succ _) rfl rfl)
    | split
    | dsimp only

theorem thermStart_keeps {x0 : State} {s : State} (hk : Keeps x0 s) : Keeps x0 (thermStart s) := by
  unfold thermStart
  try dsimp only
  repeat' with_reducible first
    | exact hk
    | assumption
    | apply State.wr_keeps
    | (fail_if_no_progress refine Keeps.upd ?_ rfl (by first | exact le_refl _ | exact le_max_left _ _ | exact Nat.le_succ _) (by first | exact le_refl _ | exact Nat.le_succ _) rfl rfl)
    | dsimp only

theorem execSleepExitClocksRun_keeps {x0 : State} {s : State} (hk : Keeps x0 s) : OutKeeps x0 (execSleepExitClocksRun s) := by
  unfold execSleepExitClocksRun
  try dsimp only
  repeat' with_reducible first
    | exact hk
    | assumption
    | apply cadSwitch_keeps
    | apply State.wr_keeps
    | apply thermStart_keeps
    | apply State.raise_keeps
    | apply exitHold_keeps
    | apply OutKeeps.next
    | apply OutKeeps.ite
    | apply Keeps.ite
    | (fail_if_no_progress refine Keeps.upd ?_ rfl (by first | exact le_refl _ | exact le_max_left _ _ | exact Nat.le_succ _) (by first | exact le_refl _ | exact Nat.le_succ _) rfl rfl)
    | split
    | dsimp only

end Sys2Proof.Machine
end

