-- ==== Sys2Proof/Laws/KeepsEvents.lean ====
section
/-! SUPPORT. What the operations of Machine/Events.lean keep (Keeps of Safety.lean). -/
namespace Sys2Proof.Machine
open Sys2Proof

set_option linter.all false

theorem arrive_keeps {x0 : State} (ev : ℕ) (detail : Byte) (merge : ℕ) {s : State} (hk : Keeps x0 s) : Keeps x0 (arrive ev detail merge s) := by
  unfold arrive
  try dsimp only
  repeat' with_reducible first
    | exact hk
    | assumption
    | apply State.wr_keeps
    | apply State.sat_keeps
    | apply Keeps.ite
    | (fail_if_no_progress refine Keeps.upd ?_ rfl (by first | exact le_refl _ | exact le_max_left _ _ | exact Nat.le_succ _) (by first | exact le_refl _ | exact Nat.le_succ _) rfl rfl)
    | split
    | dsimp only

theorem execEventRaise_keeps {x0 : State} (ev : Fin 1024) (detail : Byte) {s : State} (hk : Keeps x0 s) : OutKeeps x0 (execEventRaise ev detail s) := by
  unfold execEventRaise
  try dsimp only
  repeat' with_reducible first
    | exact hk
    | assumption
    | apply arrive_keeps
    | apply State.atLeast_keeps
    | apply OutKeeps.next
    | apply OutKeeps.ite
    | apply Keeps.ite
    | (fail_if_no_progress refine Keeps.upd ?_ rfl (by first | exact le_refl _ | exact le_max_left _ _ | exact Nat.le_succ _) (by first | exact le_refl _ | exact Nat.le_succ _) rfl rfl)
    | split
    | dsimp only

theorem advanceStreams_keeps {x0 : State} {s : State} (hk : Keeps x0 s) : Keeps x0 (advanceStreams s) := by
  unfold advanceStreams
  try dsimp only
  repeat' with_reducible first
    | exact hk
    | assumption
    | apply State.modPort_keeps
    | apply State.sat_keeps
    | apply Keeps.ite
    | (refine Keeps.forUpto _ ?_ (fun i a k => ?_))
    | (fail_if_no_progress refine Keeps.upd ?_ rfl (by first | exact le_refl _ | exact le_max_left _ _ | exact Nat.le_succ _) (by first | exact le_refl _ | exact Nat.le_succ _) rfl rfl)
    | split
    | dsimp only

theorem route3_keeps {x0 : State} {s : State} (hk : Keeps x0 s) : Keeps x0 (route3 s) := by
  unfold route3
  try dsimp only
  repeat' with_reducible first
    | exact hk
    | assumption
    | apply State.wr_keeps
    | apply wakeBy_keeps
    | apply Keeps.ite
    | (fail_if_no_progress refine Keeps.upd ?_ rfl (by first | exact le_refl _ | exact le_max_left _ _ | exact Nat.le_succ _) (by first | exact le_refl _ | exact Nat.le_succ _) rfl rfl)
    | split
    | dsimp only

theorem writeRecord_keeps {x0 : State} (ev : ℕ) (l : Latch) {s : State} (hk : Keeps x0 s) : Keeps x0 (writeRecord ev l s) := by
  unfold writeRecord
  try dsimp only
  repeat' with_reducible first
    | exact hk
    | assumption
    | apply advanceStreams_keeps
    | apply State.setReg_keeps
    | apply State.wr_keeps
    | apply route3_keeps
    | apply Keeps.ite
    | (refine Keeps.forUpto _ ?_ (fun i a k => ?_))
    | (fail_if_no_progress refine Keeps.upd ?_ rfl (by first | exact le_refl _ | exact le_max_left _ _ | exact Nat.le_succ _) (by first | exact le_refl _ | exact Nat.le_succ _) rfl rfl)
    | split
    | dsimp only

theorem execEventRecordWrite_keeps {x0 : State} {s : State} (hk : Keeps x0 s) : OutKeeps x0 (execEventRecordWrite s) := by
  unfold execEventRecordWrite
  try dsimp only
  repeat' with_reducible first
    | exact hk
    | assumption
    | apply writeRecord_keeps
    | apply OutKeeps.next
    | (fail_if_no_progress refine Keeps.upd ?_ rfl (by first | exact le_refl _ | exact le_max_left _ _ | exact Nat.le_succ _) (by first | exact le_refl _ | exact Nat.le_succ _) rfl rfl)
    | split
    | dsimp only

theorem sendEvents_keeps {x0 : State} (n : ℕ) {s : State} (hk : Keeps x0 s) : Keeps x0 (sendEvents n s) := by
  unfold sendEvents
  try dsimp only
  repeat' with_reducible first
    | exact hk
    | assumption
    | apply startCoastExit_keeps
    | (refine sendMsg_keeps _ _ ?_ _ (by assumption))
    | apply State.modPort_keeps
    | apply stallOn_keeps
    | apply Keeps.ite
    | (fail_if_no_progress refine Keeps.upd ?_ rfl (by first | exact le_refl _ | exact le_max_left _ _ | exact Nat.le_succ _) (by first | exact le_refl _ | exact Nat.le_succ _) rfl rfl)
    | split
    | dsimp only

theorem execEventMessageSend_keeps {x0 : State} (n : PortId) {s : State} (hk : Keeps x0 s) : OutKeeps x0 (execEventMessageSend n s) := by
  unfold execEventMessageSend
  try dsimp only
  repeat' with_reducible first
    | exact hk
    | assumption
    | apply sendEvents_keeps
    | apply OutKeeps.next
    | dsimp only

theorem setEvtPorts_keeps {x0 : State} (old : ℕ) (new : ℕ) {s : State} (hk : Keeps x0 s) : Keeps x0 (setEvtPorts old new s) := by
  unfold setEvtPorts
  try dsimp only
  repeat' with_reducible first
    | exact hk
    | assumption
    | apply State.modPort_keeps
    | apply Keeps.ite
    | (refine Keeps.forUpto _ ?_ (fun i a k => ?_))
    | (fail_if_no_progress refine Keeps.upd ?_ rfl (by first | exact le_refl _ | exact le_max_left _ _ | exact Nat.le_succ _) (by first | exact le_refl _ | exact Nat.le_succ _) rfl rfl)
    | split
    | dsimp only

theorem setRoute_keeps {x0 : State} (v : ℕ) {s : State} (hk : Keeps x0 s) : Keeps x0 (setRoute v s) := by
  unfold setRoute
  try dsimp only
  repeat' with_reducible first
    | exact hk
    | assumption
    | apply setEvtPorts_keeps
    | apply State.setReg_keeps
    | apply State.wr_keeps
    | dsimp only

end Sys2Proof.Machine
end

