-- ==== Sys2Proof/Laws/KeepsSec.lean ====
section
/-! SUPPORT. What the operations of Machine/Sec.lean keep (Keeps of Safety.lean). -/
namespace Sys2Proof.Machine
open Sys2Proof

set_option linter.all false

theorem execDeviceKeyDerived_keeps {x0 : State} {s : State} (hk : Keeps x0 s) : OutKeeps x0 (execDeviceKeyDerived s) := by
  unfold execDeviceKeyDerived
  try dsimp only
  repeat' with_reducible first
    | exact hk
    | assumption
    | apply State.wr_keeps
    | apply OutKeeps.next
    | apply OutKeeps.ite
    | apply Keeps.ite
    | split
    | dsimp only

theorem noteIdentity_keeps {x0 : State} {s : State} (hk : Keeps x0 s) : Keeps x0 (noteIdentity s) := by
  unfold noteIdentity
  try dsimp only
  repeat' with_reducible first
    | exact hk
    | assumption
    | apply State.raise_keeps
    | apply Keeps.ite
    | split
    | dsimp only

theorem drawChallenge_keeps {x0 : State} {s : State} (hk : Keeps x0 s) : Keeps x0 (drawChallenge s) := by
  unfold drawChallenge
  try dsimp only [State.drawFree, State.drawEntropy]
  repeat' with_reducible first
    | exact hk
    | assumption
    | (refine Keeps.snd (p := State.drawEntropy _) (by assumption) ?_)
    | apply State.drawEntropy_keeps
    | apply State.setReg_keeps
    | (refine Keeps.forUpto _ ?_ (fun i a k => ?_))
    | (fail_if_no_progress refine Keeps.upd ?_ rfl (by first | exact le_refl _ | exact le_max_left _ _ | exact Nat.le_succ _) (by first | exact le_refl _ | exact Nat.le_succ _) rfl rfl)
    | dsimp only

theorem submit_keeps {x0 : State} (j : SignJob) {s : State} (hk : Keeps x0 s) : Keeps x0 (submit j s) := by
  unfold submit
  try dsimp only
  repeat' with_reducible first
    | exact hk
    | assumption
    | (fail_if_no_progress refine Keeps.upd ?_ rfl (by first | exact le_refl _ | exact le_max_left _ _ | exact Nat.le_succ _) (by first | exact le_refl _ | exact Nat.le_succ _) rfl rfl)
    | dsimp only

theorem opIdCertRead_keeps {x0 : State} (m : ℕ) {s : State} (hk : Keeps x0 s) : Keeps x0 (opIdCertRead m s) := by
  unfold opIdCertRead
  try dsimp only
  repeat' with_reducible first
    | exact hk
    | assumption
    | apply State.refuse_keeps
    | apply submit_keeps
    | apply Keeps.ite
    | split
    | dsimp only

theorem opAttest_keeps {x0 : State} (m : ℕ) (pl : List Byte) {s : State} (hk : Keeps x0 s) : Keeps x0 (opAttest m pl s) := by
  unfold opAttest
  try dsimp only
  repeat' with_reducible first
    | exact hk
    | assumption
    | apply State.refuse_keeps
    | apply submit_keeps
    | apply Keeps.ite
    | split
    | dsimp only

theorem enterWorkshop_keeps {x0 : State} (m : ℕ) (o : ℕ) (signer : ℕ) {s : State} (hk : Keeps x0 s) : Keeps x0 (enterWorkshop m o signer s) := by
  unfold enterWorkshop
  try dsimp only
  repeat' with_reducible first
    | exact hk
    | assumption
    | apply State.wr_keeps
    | apply State.finish_keeps
    | apply State.raise_keeps
    | dsimp only

theorem leaveWorkshop_keeps {x0 : State} {s : State} (hk : Keeps x0 s) : Keeps x0 (leaveWorkshop s) := by
  unfold leaveWorkshop
  try dsimp only
  repeat' with_reducible first
    | exact hk
    | assumption
    | apply State.raise_keeps
    | apply State.wr_keeps
    | dsimp only

theorem opWorkshopEnter_keeps {x0 : State} (m : ℕ) (pl : List Byte) {s : State} (hk : Keeps x0 s) : Keeps x0 (opWorkshopEnter m pl s) := by
  unfold opWorkshopEnter
  try dsimp only
  repeat' with_reducible first
    | exact hk
    | assumption
    | apply State.badByte_keeps
    | apply State.refuse_keeps
    | apply enterWorkshop_keeps
    | apply submit_keeps
    | apply Keeps.ite
    | split
    | dsimp only

theorem opWorkshopExit_keeps {x0 : State} (m : ℕ) {s : State} (hk : Keeps x0 s) : Keeps x0 (opWorkshopExit m s) := by
  unfold opWorkshopExit
  try dsimp only
  repeat' with_reducible first
    | exact hk
    | assumption
    | apply State.refuse_keeps
    | apply State.raise_keeps
    | apply State.finish_keeps
    | apply Keeps.ite
    | (fail_if_no_progress refine Keeps.upd ?_ rfl (by first | exact le_refl _ | exact le_max_left _ _ | exact Nat.le_succ _) (by first | exact le_refl _ | exact Nat.le_succ _) rfl rfl)
    | split
    | dsimp only

theorem opOtpLockForce_keeps {x0 : State} (m : ℕ) (pl : List Byte) {s : State} (hk : Keeps x0 s) : Keeps x0 (opOtpLockForce m pl s) := by
  unfold opOtpLockForce
  try dsimp only
  repeat' with_reducible first
    | exact hk
    | assumption
    | apply State.badByte_keeps
    | apply State.refuse_keeps
    | apply submit_keeps
    | apply Keeps.ite
    | (fail_if_no_progress refine Keeps.upd ?_ rfl (by first | exact le_refl _ | exact le_max_left _ _ | exact Nat.le_succ _) (by first | exact le_refl _ | exact Nat.le_succ _) rfl rfl)
    | split
    | dsimp only

theorem opKeyEnrol_keeps {x0 : State} (m : ℕ) (pl : List Byte) {s : State} (hk : Keeps x0 s) : Keeps x0 (opKeyEnrol m pl s) := by
  unfold opKeyEnrol
  try dsimp only
  repeat' with_reducible first
    | exact hk
    | assumption
    | apply State.refuse_keeps
    | apply State.badByte_keeps
    | apply submit_keeps
    | apply Keeps.ite
    | (fail_if_no_progress refine Keeps.upd ?_ rfl (by first | exact le_refl _ | exact le_max_left _ _ | exact Nat.le_succ _) (by first | exact le_refl _ | exact Nat.le_succ _) rfl rfl)
    | split
    | dsimp only

theorem tokenDone_keeps {x0 : State} (m : ℕ) (src : ℕ) (lock : Option ℕ) (t : List Byte) {s : State} (hk : Keeps x0 s) : Keeps x0 (tokenDone m src lock t s) := by
  unfold tokenDone
  try dsimp only
  repeat' with_reducible first
    | exact hk
    | assumption
    | apply drawChallenge_keeps
    | apply State.refuse_keeps
    | apply State.raise_keeps
    | apply enterWorkshop_keeps
    | apply progStart_keeps
    | apply Keeps.ite
    | (fail_if_no_progress refine Keeps.upd ?_ rfl (by first | exact le_refl _ | exact le_max_left _ _ | exact Nat.le_succ _) (by first | exact le_refl _ | exact Nat.le_succ _) rfl rfl)
    | split
    | dsimp only

theorem proofDone_keeps {x0 : State} (m : ℕ) (from17 : Bool) (pl : List Byte) {s : State} (hk : Keeps x0 s) : Keeps x0 (proofDone m from17 pl s) := by
  unfold proofDone
  try dsimp only
  repeat' with_reducible first
    | exact hk
    | assumption
    | apply State.refuse_keeps
    | apply progStart_keeps
    | apply Keeps.ite
    | split
    | dsimp only

theorem arbAdvance_keeps {x0 : State} (svn : ℕ) {s : State} (hk : Keeps x0 s) : Keeps x0 (arbAdvance svn s) := by
  unfold arbAdvance
  try dsimp only
  repeat' with_reducible first
    | exact hk
    | assumption
    | apply State.raise_keeps
    | apply State.wr_keeps
    | apply progStart_keeps
    | apply Keeps.ite
    | split
    | dsimp only

end Sys2Proof.Machine
end

