-- ==== Sys2Proof/Laws/KeepsBulk.lean ====
section
/-! SUPPORT. What the operations of Machine/Bulk.lean keep (Keeps of Safety.lean). -/
namespace Sys2Proof.Machine
open Sys2Proof

set_option linter.all false

theorem bulkStop_keeps {x0 : State} (code : ℕ) {s : State} (hk : Keeps x0 s) : Keeps x0 (bulkStop code s) := by
  unfold bulkStop
  try dsimp only
  repeat' with_reducible first
    | exact hk
    | assumption
    | apply endWith_keeps
    | (fail_if_no_progress refine Keeps.upd ?_ rfl (by first | exact le_refl _ | exact le_max_left _ _ | exact Nat.le_succ _) (by first | exact le_refl _ | exact Nat.le_succ _) rfl rfl)
    | split
    | dsimp only

theorem bulkSend_keeps {x0 : State} (loc : Loc) (idx : ℕ) (op : LineOp) (b : Bulk) {s : State} (hk : Keeps x0 s) : Keeps x0 (bulkSend loc idx op b s) := by
  unfold bulkSend
  try dsimp only
  repeat' with_reducible first
    | exact hk
    | assumption
    | apply lockMap_keeps
    | (fail_if_no_progress refine Keeps.upd ?_ rfl (by first | exact le_refl _ | exact le_max_left _ _ | exact Nat.le_succ _) (by first | exact le_refl _ | exact Nat.le_succ _) rfl rfl)
    | dsimp only

theorem markLine_keeps {x0 : State} (idx : ℕ) (wrote : Bool) {s : State} (hk : Keeps x0 s) : Keeps x0 (markLine idx wrote s) := by
  unfold markLine
  try dsimp only
  repeat' with_reducible first
    | exact hk
    | assumption
    | apply State.wr_keeps
    | apply Keeps.ite
    | (fail_if_no_progress refine Keeps.upd ?_ rfl (by first | exact le_refl _ | exact le_max_left _ _ | exact Nat.le_succ _) (by first | exact le_refl _ | exact Nat.le_succ _) rfl rfl)
    | split
    | dsimp only

theorem bulkIssue_keeps {x0 : State} (b : Bulk) {s : State} (hk : Keeps x0 s) : Keeps x0 (bulkIssue b s) := by
  unfold bulkIssue
  try dsimp only
  repeat' with_reducible first
    | exact hk
    | assumption
    | apply bulkSend_keeps
    | apply markLine_keeps
    | apply Keeps.ite
    | (fail_if_no_progress refine Keeps.upd ?_ rfl (by first | exact le_refl _ | exact le_max_left _ _ | exact Nat.le_succ _) (by first | exact le_refl _ | exact Nat.le_succ _) rfl rfl)
    | split
    | dsimp only

theorem bulkWritten_keeps {x0 : State} (idx : ℕ) {s : State} (hk : Keeps x0 s) : Keeps x0 (bulkWritten idx s) := by
  unfold bulkWritten
  try dsimp only
  repeat' with_reducible first
    | exact hk
    | assumption
    | apply markLine_keeps
    | (fail_if_no_progress refine Keeps.upd ?_ rfl (by first | exact le_refl _ | exact le_max_left _ _ | exact Nat.le_succ _) (by first | exact le_refl _ | exact Nat.le_succ _) rfl rfl)
    | split
    | dsimp only

theorem bulkRead_keeps {x0 : State} (idx : ℕ) (d : Line) (bad : BitVec 8) {s : State} (hk : Keeps x0 s) : Keeps x0 (bulkRead idx d bad s) := by
  unfold bulkRead
  try dsimp only
  repeat' with_reducible first
    | exact hk
    | assumption
    | (fail_if_no_progress refine Keeps.upd ?_ rfl (by first | exact le_refl _ | exact le_max_left _ _ | exact Nat.le_succ _) (by first | exact le_refl _ | exact Nat.le_succ _) rfl rfl)
    | split
    | dsimp only

theorem bulkDone_keeps {x0 : State} (b : Bulk) {s : State} (hk : Keeps x0 s) : Keeps x0 (bulkDone b s) := by
  unfold bulkDone
  try dsimp only
  repeat' with_reducible first
    | exact hk
    | assumption
    | apply State.finish_keeps
    | apply Keeps.ite
    | (fail_if_no_progress refine Keeps.upd ?_ rfl (by first | exact le_refl _ | exact le_max_left _ _ | exact Nat.le_succ _) (by first | exact le_refl _ | exact Nat.le_succ _) rfl rfl)
    | split
    | dsimp only

theorem bulkStart_keeps {x0 : State} (m : ℕ) (b : Bulk) {s : State} (hk : Keeps x0 s) : Keeps x0 (bulkStart m b s) := by
  unfold bulkStart
  try dsimp only
  repeat' with_reducible first
    | exact hk
    | assumption
    | apply State.refuse_keeps
    | apply Keeps.ite
    | (fail_if_no_progress refine Keeps.upd ?_ rfl (by first | exact le_refl _ | exact le_max_left _ _ | exact Nat.le_succ _) (by first | exact le_refl _ | exact Nat.le_succ _) rfl rfl)
    | split
    | dsimp only

theorem opFill_keeps {x0 : State} (m : ℕ) (pl : List Byte) {s : State} (hk : Keeps x0 s) : Keeps x0 (opFill m pl s) := by
  unfold opFill
  try dsimp only
  repeat' with_reducible first
    | exact hk
    | assumption
    | apply State.badByte_keeps
    | apply bulkStart_keeps
    | apply Keeps.ite
    | split
    | dsimp only

theorem opCopy_keeps {x0 : State} (m : ℕ) (pl : List Byte) {s : State} (hk : Keeps x0 s) : Keeps x0 (opCopy m pl s) := by
  unfold opCopy
  try dsimp only
  repeat' with_reducible first
    | exact hk
    | assumption
    | apply State.badByte_keeps
    | apply bulkStart_keeps
    | apply Keeps.ite
    | split
    | dsimp only

theorem opBulkStatus_keeps {x0 : State} (m : ℕ) {s : State} (hk : Keeps x0 s) : Keeps x0 (opBulkStatus m s) := by
  unfold opBulkStatus
  try dsimp only
  repeat' with_reducible first
    | exact hk
    | assumption
    | apply State.finish_keeps
    | apply Keeps.ite
    | (fail_if_no_progress refine Keeps.upd ?_ rfl (by first | exact le_refl _ | exact le_max_left _ _ | exact Nat.le_succ _) (by first | exact le_refl _ | exact Nat.le_succ _) rfl rfl)
    | split
    | dsimp only

theorem opBulkAbort_keeps {x0 : State} (m : ℕ) {s : State} (hk : Keeps x0 s) : Keeps x0 (opBulkAbort m s) := by
  unfold opBulkAbort
  try dsimp only
  repeat' with_reducible first
    | exact hk
    | assumption
    | apply State.finish_keeps
    | apply bulkStop_keeps
    | dsimp only

end Sys2Proof.Machine
end

