-- ==== Sys2Proof/Laws/KeepsCalib.lean ====
section
/-! SUPPORT. What the operations of Machine/Calib.lean keep (Keeps of Safety.lean). -/
namespace Sys2Proof.Machine
open Sys2Proof

set_option linter.all false

theorem execTsvStepEnd_keeps {x0 : State} (p : PavId) (passes : List (BitVec 64)) {s : State} (hk : Keeps x0 s) : OutKeeps x0 (execTsvStepEnd p passes s) := by
  unfold execTsvStepEnd
  try dsimp only
  repeat' with_reducible first
    | exact hk
    | assumption
    | apply State.atLeast_keeps
    | apply State.wr_keeps
    | apply State.raise_keeps
    | apply endTsv_keeps
    | apply State.modPav_keeps
    | apply OutKeeps.next
    | apply OutKeeps.ite
    | apply Keeps.ite
    | (refine Keeps.foldl _ ?_ (fun a e k => ?_))
    | (fail_if_no_progress refine Keeps.upd ?_ rfl (by first | exact le_refl _ | exact le_max_left _ _ | exact Nat.le_succ _) (by first | exact le_refl _ | exact Nat.le_succ _) rfl rfl)
    | split
    | dsimp only

theorem execTsvWatchdog_keeps {x0 : State} (p : PavId) {s : State} (hk : Keeps x0 s) : OutKeeps x0 (execTsvWatchdog p s) := by
  unfold execTsvWatchdog
  try dsimp only
  repeat' with_reducible first
    | exact hk
    | assumption
    | apply abortTsv_keeps
    | apply State.atLeast_keeps
    | apply OutKeeps.next
    | apply OutKeeps.ite
    | apply Keeps.ite
    | (fail_if_no_progress refine Keeps.upd ?_ rfl (by first | exact le_refl _ | exact le_max_left _ _ | exact Nat.le_succ _) (by first | exact le_refl _ | exact Nat.le_succ _) rfl rfl)
    | split
    | dsimp only

theorem tsvBegin_keeps {x0 : State} (p : ℕ) (ranks : BitVec 4) {s : State} (hk : Keeps x0 s) : Keeps x0 (tsvBegin p ranks s) := by
  unfold tsvBegin
  try dsimp only
  repeat' with_reducible first
    | exact hk
    | assumption
    | apply State.wr_keeps
    | apply State.modPav_keeps
    | (fail_if_no_progress refine Keeps.upd ?_ rfl (by first | exact le_refl _ | exact le_max_left _ _ | exact Nat.le_succ _) (by first | exact le_refl _ | exact Nat.le_succ _) rfl rfl)
    | dsimp only

theorem execTsvAutoDue_keeps {x0 : State} (p : PavId) {s : State} (hk : Keeps x0 s) : OutKeeps x0 (execTsvAutoDue p s) := by
  unfold execTsvAutoDue
  try dsimp only
  repeat' with_reducible first
    | exact hk
    | assumption
    | apply tsvBegin_keeps
    | apply State.modPav_keeps
    | apply OutKeeps.next
    | apply OutKeeps.ite
    | apply Keeps.ite
    | (fail_if_no_progress refine Keeps.upd ?_ rfl (by first | exact le_refl _ | exact le_max_left _ _ | exact Nat.le_succ _) (by first | exact le_refl _ | exact Nat.le_succ _) rfl rfl)
    | split
    | dsimp only

theorem opTsvCal_keeps {x0 : State} (m : ℕ) (pl : List Byte) {s : State} (hk : Keeps x0 s) : Keeps x0 (opTsvCal m pl s) := by
  unfold opTsvCal
  try dsimp only
  repeat' with_reducible first
    | exact hk
    | assumption
    | apply State.badByte_keeps
    | apply State.refuse_keeps
    | apply State.finish_keeps
    | apply tsvBegin_keeps
    | apply Keeps.ite
    | (refine Keeps.forUpto _ ?_ (fun i a k => ?_))
    | (refine Keeps.foldl _ ?_ (fun a e k => ?_))
    | (fail_if_no_progress refine Keeps.upd ?_ rfl (by first | exact le_refl _ | exact le_max_left _ _ | exact Nat.le_succ _) (by first | exact le_refl _ | exact Nat.le_succ _) rfl rfl)
    | split
    | dsimp only

theorem opLaneRetune_keeps {x0 : State} (m : ℕ) (pl : List Byte) {s : State} (hk : Keeps x0 s) : Keeps x0 (opLaneRetune m pl s) := by
  unfold opLaneRetune
  try dsimp only
  repeat' with_reducible first
    | exact hk
    | assumption
    | apply State.badByte_keeps
    | apply State.refuse_keeps
    | apply State.wr_keeps
    | apply State.modPort_keeps
    | apply startCoastExit_keeps
    | apply startParkedExit_keeps
    | apply enterRecovery_keeps
    | apply Keeps.ite
    | (fail_if_no_progress refine Keeps.upd ?_ rfl (by first | exact le_refl _ | exact le_max_left _ _ | exact Nat.le_succ _) (by first | exact le_refl _ | exact Nat.le_succ _) rfl rfl)
    | split
    | dsimp only

theorem opEyeScan_keeps {x0 : State} (m : ℕ) (pl : List Byte) {s : State} (hk : Keeps x0 s) : Keeps x0 (opEyeScan m pl s) := by
  unfold opEyeScan
  try dsimp only
  repeat' with_reducible first
    | exact hk
    | assumption
    | apply State.badByte_keeps
    | apply State.refuse_keeps
    | apply State.wr_keeps
    | apply State.modLane_keeps
    | apply State.raise_keeps
    | apply State.finish_keeps
    | apply State.modPort_keeps
    | apply Keeps.ite
    | (refine Keeps.forUpto _ ?_ (fun i a k => ?_))
    | (fail_if_no_progress refine Keeps.upd ?_ rfl (by first | exact le_refl _ | exact le_max_left _ _ | exact Nat.le_succ _) (by first | exact le_refl _ | exact Nat.le_succ _) rfl rfl)
    | split
    | dsimp only

theorem scanDone_keeps {x0 : State} (n : ℕ) (p : ℕ) (pts : List Bool) {s : State} (hk : Keeps x0 s) : Keeps x0 (scanDone n p pts s) := by
  unfold scanDone
  try dsimp only
  repeat' with_reducible first
    | exact hk
    | assumption
    | apply State.wr_keeps
    | apply State.setReg_keeps
    | apply freshWindow_keeps
    | apply State.modLane_keeps
    | (fail_if_no_progress refine Keeps.upd ?_ rfl (by first | exact le_refl _ | exact le_max_left _ _ | exact Nat.le_succ _) (by first | exact le_refl _ | exact Nat.le_succ _) rfl rfl)
    | split
    | dsimp only

theorem execEyePointEnd_keeps {x0 : State} (n : PortId) (ds : List (Pos × ℕ)) {s : State} (hk : Keeps x0 s) : OutKeeps x0 (execEyePointEnd n ds s) := by
  unfold execEyePointEnd
  try dsimp only
  repeat' with_reducible first
    | exact hk
    | assumption
    | apply State.modPort_keeps
    | apply State.atLeast_keeps
    | apply scanDone_keeps
    | apply State.modLane_keeps
    | apply State.wr_keeps
    | apply State.finish_keeps
    | apply OutKeeps.next
    | apply OutKeeps.ite
    | apply Keeps.ite
    | (refine Keeps.forUpto _ ?_ (fun i a k => ?_))
    | (fail_if_no_progress refine Keeps.upd ?_ rfl (by first | exact le_refl _ | exact le_max_left _ _ | exact Nat.le_succ _) (by first | exact le_refl _ | exact Nat.le_succ _) rfl rfl)
    | split
    | dsimp only

theorem calAbortPort_keeps {x0 : State} (n : ℕ) {s : State} (hk : Keeps x0 s) : Keeps x0 (calAbortPort n s) := by
  unfold calAbortPort
  try dsimp only
  repeat' with_reducible first
    | exact hk
    | assumption
    | apply State.raise_keeps
    | apply endRetune_keeps
    | apply endScans_keeps
    | apply Keeps.ite
    | split
    | dsimp only

theorem calAbortAll_keeps {x0 : State} {s : State} (hk : Keeps x0 s) : Keeps x0 (calAbortAll s) := by
  unfold calAbortAll
  try dsimp only
  repeat' with_reducible first
    | exact hk
    | assumption
    | apply abortTsv_keeps
    | apply calAbortPort_keeps
    | (refine Keeps.forUpto _ ?_ (fun i a k => ?_))
    | dsimp only

theorem calAbortOf_keeps {x0 : State} (m : ℕ) {s : State} (hk : Keeps x0 s) : Keeps x0 (calAbortOf m s) := by
  unfold calAbortOf
  try dsimp only
  repeat' with_reducible first
    | exact hk
    | assumption
    | apply endScans_keeps
    | apply endRetune_keeps
    | apply State.raise_keeps
    | apply abortTsv_keeps
    | apply Keeps.ite
    | (refine Keeps.forUpto _ ?_ (fun i a k => ?_))
    | (fail_if_no_progress refine Keeps.upd ?_ rfl (by first | exact le_refl _ | exact le_max_left _ _ | exact Nat.le_succ _) (by first | exact le_refl _ | exact Nat.le_succ _) rfl rfl)
    | split
    | dsimp only

theorem opSensorCal_keeps {x0 : State} (m : ℕ) (pl : List Byte) {s : State} (hk : Keeps x0 s) : Keeps x0 (opSensorCal m pl s) := by
  unfold opSensorCal
  try dsimp only
  repeat' with_reducible first
    | exact hk
    | assumption
    | apply State.badByte_keeps
    | apply State.refuse_keeps
    | apply State.finish_keeps
    | apply Keeps.ite
    | (fail_if_no_progress refine Keeps.upd ?_ rfl (by first | exact le_refl _ | exact le_max_left _ _ | exact Nat.le_succ _) (by first | exact le_refl _ | exact Nat.le_succ _) rfl rfl)
    | split
    | dsimp only

theorem sensorCalEnd_keeps {x0 : State} (code : ℕ) {s : State} (hk : Keeps x0 s) : Keeps x0 (sensorCalEnd code s) := by
  unfold sensorCalEnd
  try dsimp only
  repeat' with_reducible first
    | exact hk
    | assumption
    | apply State.finish_keeps
    | (fail_if_no_progress refine Keeps.upd ?_ rfl (by first | exact le_refl _ | exact le_max_left _ _ | exact Nat.le_succ _) (by first | exact le_refl _ | exact Nat.le_succ _) rfl rfl)
    | split
    | dsimp only

theorem sensorCalTake_keeps {x0 : State} (n : ℕ) (conv : Option ℤ) (faulty : Bool) {s : State} (hk : Keeps x0 s) : Keeps x0 (sensorCalTake n conv faulty s) := by
  unfold sensorCalTake
  try dsimp only [State.drawFree, State.drawEntropy]
  repeat' with_reducible first
    | exact hk
    | assumption
    | (refine Keeps.snd (p := State.drawFree _) (by assumption) ?_)
    | apply State.drawFree_keeps
    | apply State.wr_keeps
    | apply State.raise_keeps
    | apply sensorCalEnd_keeps
    | apply Keeps.ite
    | (fail_if_no_progress refine Keeps.upd ?_ rfl (by first | exact le_refl _ | exact le_max_left _ _ | exact Nat.le_succ _) (by first | exact le_refl _ | exact Nat.le_succ _) rfl rfl)
    | split
    | dsimp only

theorem setLearn_keeps {x0 : State} (on : Bool) {s : State} (hk : Keeps x0 s) : Keeps x0 (setLearn on s) := by
  unfold setLearn
  try dsimp only
  repeat' with_reducible first
    | exact hk
    | assumption
    | apply State.wr_keeps
    | apply Keeps.ite
    | (fail_if_no_progress refine Keeps.upd ?_ rfl (by first | exact le_refl _ | exact le_max_left _ _ | exact Nat.le_succ _) (by first | exact le_refl _ | exact Nat.le_succ _) rfl rfl)
    | split
    | dsimp only

theorem opOscLearn_keeps {x0 : State} (m : ℕ) (pl : List Byte) {s : State} (hk : Keeps x0 s) : Keeps x0 (opOscLearn m pl s) := by
  unfold opOscLearn
  try dsimp only
  repeat' with_reducible first
    | exact hk
    | assumption
    | apply State.badByte_keeps
    | apply State.finish_keeps
    | apply setLearn_keeps
    | apply Keeps.ite
    | split
    | dsimp only

theorem execOscLearnPeriodEnd_keeps {x0 : State} (count : ℕ) {s : State} (hk : Keeps x0 s) : OutKeeps x0 (execOscLearnPeriodEnd count s) := by
  unfold execOscLearnPeriodEnd
  try dsimp only
  repeat' with_reducible first
    | exact hk
    | assumption
    | apply State.wr_keeps
    | apply State.raise_keeps
    | apply OutKeeps.next
    | apply OutKeeps.ite
    | apply Keeps.ite
    | (fail_if_no_progress refine Keeps.upd ?_ rfl (by first | exact le_refl _ | exact le_max_left _ _ | exact Nat.le_succ _) (by first | exact le_refl _ | exact Nat.le_succ _) rfl rfl)
    | split
    | dsimp only

theorem opCalStatus_keeps {x0 : State} (m : ℕ) (pl : List Byte) {s : State} (hk : Keeps x0 s) : Keeps x0 (opCalStatus m pl s) := by
  unfold opCalStatus
  try dsimp only
  repeat' with_reducible first
    | exact hk
    | assumption
    | apply State.badByte_keeps
    | apply State.finish_keeps
    | apply Keeps.ite
    | split
    | dsimp only

theorem opCalAbort_keeps {x0 : State} (m : ℕ) (pl : List Byte) {s : State} (hk : Keeps x0 s) : Keeps x0 (opCalAbort m pl s) := by
  unfold opCalAbort
  try dsimp only
  repeat' with_reducible first
    | exact hk
    | assumption
    | apply State.badByte_keeps
    | apply State.finish_keeps
    | apply calAbortPort_keeps
    | apply abortTsv_keeps
    | apply Keeps.ite
    | split
    | dsimp only

end Sys2Proof.Machine
end

