-- ==== Sys2Proof/Laws/KeepsPark.lean ====
section
/-! SUPPORT. What the operations of Machine/Park.lean keep (Keeps of Safety.lean). -/
namespace Sys2Proof.Machine
open Sys2Proof

set_option linter.all false

theorem shutDrain_keeps {x0 : State} {s : State} (hk : Keeps x0 s) : Keeps x0 (shutDrain s) := by
  unfold shutDrain
  try dsimp only
  repeat' with_reducible first
    | exact hk
    | assumption
    | apply drainStep_keeps
    | apply drainPav_keeps
    | apply Keeps.ite
    | (refine Keeps.forUpto _ ?_ (fun i a k => ?_))
    | (fail_if_no_progress refine Keeps.upd ?_ rfl (by first | exact le_refl _ | exact le_max_left _ _ | exact Nat.le_succ _) (by first | exact le_refl _ | exact Nat.le_succ _) rfl rfl)
    | split
    | dsimp only

theorem parkAnswer_keeps {x0 : State} (big : Bool) {s : State} (hk : Keeps x0 s) : Keeps x0 (parkAnswer big s) := by
  unfold parkAnswer
  try dsimp only
  repeat' with_reducible first
    | exact hk
    | assumption
    | apply State.raise_keeps
    | apply State.finish_keeps
    | apply shutDrain_keeps
    | (fail_if_no_progress refine Keeps.upd ?_ rfl (by first | exact le_refl _ | exact le_max_left _ _ | exact Nat.le_succ _) (by first | exact le_refl _ | exact Nat.le_succ _) rfl rfl)
    | split
    | dsimp only

theorem beginPark_keeps {x0 : State} (policy : ℕ) (mbx : Option ℕ) {s : State} (hk : Keeps x0 s) : Keeps x0 (beginPark policy mbx s) := by
  unfold beginPark
  try dsimp only
  repeat' with_reducible first
    | exact hk
    | assumption
    | apply calAbortAll_keeps
    | apply sweepStop_keeps
    | apply bulkStop_keeps
    | (fail_if_no_progress refine Keeps.upd ?_ rfl (by first | exact le_refl _ | exact le_max_left _ _ | exact Nat.le_succ _) (by first | exact le_refl _ | exact Nat.le_succ _) rfl rfl)
    | (fail_if_no_progress refine Keeps.updDram ?_ rfl rfl rfl (fun m => by first | exact putCells_wf _ _ m | exact memPut_wf _ _ m) rfl)
    | dsimp only

theorem parkStop_keeps {x0 : State} (cause : ℕ) (code : ℕ) {s : State} (hk : Keeps x0 s) : Keeps x0 (parkStop cause code s) := by
  unfold parkStop
  try dsimp only
  repeat' with_reducible first
    | exact hk
    | assumption
    | apply endWith_keeps
    | apply slicesStop_keeps
    | apply parkAnswer_keeps
    | apply lanesBack_keeps
    | apply Keeps.ite
    | (fail_if_no_progress refine Keeps.upd ?_ rfl (by first | exact le_refl _ | exact le_max_left _ _ | exact Nat.le_succ _) (by first | exact le_refl _ | exact Nat.le_succ _) rfl rfl)
    | split
    | dsimp only

theorem holdAsk_keeps {x0 : State} (sleep : Bool) (m : ℕ) {s : State} (hk : Keeps x0 s) : Keeps x0 (holdAsk sleep m s) := by
  unfold holdAsk
  try dsimp only
  repeat' with_reducible first
    | exact hk
    | assumption
    | apply State.modPort_keeps
    | apply sendControl_keeps
    | apply holdReady_keeps
    | apply Keeps.ite
    | (refine Keeps.forUpto _ ?_ (fun i a k => ?_))
    | (fail_if_no_progress refine Keeps.upd ?_ rfl (by first | exact le_refl _ | exact le_max_left _ _ | exact Nat.le_succ _) (by first | exact le_refl _ | exact Nat.le_succ _) rfl rfl)
    | split
    | dsimp only

theorem holdStep_keeps {x0 : State} {s : State} (hk : Keeps x0 s) : Keeps x0 (holdStep s) := by
  unfold holdStep
  try dsimp only
  repeat' with_reducible first
    | exact hk
    | assumption
    | apply holdAsk_keeps
    | apply Keeps.ite
    | (fail_if_no_progress refine Keeps.upd ?_ rfl (by first | exact le_refl _ | exact le_max_left _ _ | exact Nat.le_succ _) (by first | exact le_refl _ | exact Nat.le_succ _) rfl rfl)
    | split
    | dsimp only

theorem parkStep_keeps {x0 : State} {s : State} (hk : Keeps x0 s) : Keeps x0 (parkStep s) := by
  unfold parkStep
  try dsimp only
  repeat' with_reducible first
    | exact hk
    | assumption
    | apply parkAnswer_keeps
    | apply State.modPav_keeps
    | apply shortTests_keeps
    | apply Keeps.ite
    | (refine Keeps.forUpto _ ?_ (fun i a k => ?_))
    | (fail_if_no_progress refine Keeps.upd ?_ rfl (by first | exact le_refl _ | exact le_max_left _ _ | exact Nat.le_succ _) (by first | exact le_refl _ | exact Nat.le_succ _) rfl rfl)
    | split
    | dsimp only

theorem shutStep_keeps {x0 : State} {s : State} (hk : Keeps x0 s) : Keeps x0 (shutStep s) := by
  unfold shutStep
  try dsimp only
  repeat' with_reducible first
    | exact hk
    | assumption
    | apply shutDrain_keeps
    | apply State.wr_keeps
    | apply State.finish_keeps
    | apply Keeps.ite
    | (fail_if_no_progress refine Keeps.upd ?_ rfl (by first | exact le_refl _ | exact le_max_left _ _ | exact Nat.le_succ _) (by first | exact le_refl _ | exact Nat.le_succ _) rfl rfl)
    | split
    | dsimp only

theorem quietStep_keeps {x0 : State} {s : State} (hk : Keeps x0 s) : Keeps x0 (quietStep s) := by
  unfold quietStep
  try dsimp only
  repeat' with_reducible first
    | exact hk
    | assumption
    | apply shutStep_keeps
    | apply parkStep_keeps
    | apply holdStep_keeps
    | dsimp only

theorem State.tick_keeps {x0 : State} {s : State} (hk : Keeps x0 s) : Keeps x0 (State.tick s) := by
  unfold State.tick
  try dsimp only
  repeat' with_reducible first
    | exact hk
    | assumption
    | apply quietStep_keeps
    | (fail_if_no_progress refine Keeps.upd ?_ rfl (by first | exact le_refl _ | exact le_max_left _ _ | exact Nat.le_succ _) (by first | exact le_refl _ | exact Nat.le_succ _) rfl rfl)
    | dsimp only

theorem execBulkComplete_keeps {x0 : State} {s : State} (hk : Keeps x0 s) : OutKeeps x0 (execBulkComplete s) := by
  unfold execBulkComplete
  try dsimp only
  repeat' with_reducible first
    | exact hk
    | assumption
    | apply quietStep_keeps
    | apply bulkDone_keeps
    | apply OutKeeps.next
    | apply OutKeeps.ite
    | apply Keeps.ite
    | (fail_if_no_progress refine Keeps.upd ?_ rfl (by first | exact le_refl _ | exact le_max_left _ _ | exact Nat.le_succ _) (by first | exact le_refl _ | exact Nat.le_succ _) rfl rfl)
    | split
    | dsimp only

theorem execParkingTestDone_keeps {x0 : State} (u : Unit) {s : State} (hk : Keeps x0 s) : OutKeeps x0 (execParkingTestDone u s) := by
  unfold execParkingTestDone
  try dsimp only
  repeat' with_reducible first
    | exact hk
    | assumption
    | apply parkAnswer_keeps
    | apply restPassed_keeps
    | apply submit_keeps
    | apply OutKeeps.next
    | apply OutKeeps.ite
    | apply Keeps.ite
    | (fail_if_no_progress refine Keeps.upd ?_ rfl (by first | exact le_refl _ | exact le_max_left _ _ | exact Nat.le_succ _) (by first | exact le_refl _ | exact Nat.le_succ _) rfl rfl)
    | split
    | dsimp only

theorem signed__keeps {x0 : State} (j : SignJob) {s : State} (hk : Keeps x0 s) : Keeps x0 (signed_ j s) := by
  unfold signed_
  try dsimp only
  repeat' with_reducible first
    | exact hk
    | assumption
    | apply State.finish_keeps
    | apply parkAnswer_keeps
    | apply State.wr_keeps
    | apply tokenDone_keeps
    | apply proofDone_keeps
    | (fail_if_no_progress refine Keeps.upd ?_ rfl (by first | exact le_refl _ | exact le_max_left _ _ | exact Nat.le_succ _) (by first | exact le_refl _ | exact Nat.le_succ _) rfl rfl)
    | split
    | dsimp only

theorem execSigningDone_keeps {x0 : State} {s : State} (hk : Keeps x0 s) : OutKeeps x0 (execSigningDone s) := by
  unfold execSigningDone
  try dsimp only
  repeat' with_reducible first
    | exact hk
    | assumption
    | apply signed__keeps
    | apply OutKeeps.next
    | apply OutKeeps.ite
    | apply Keeps.ite
    | (fail_if_no_progress refine Keeps.upd ?_ rfl (by first | exact le_refl _ | exact le_max_left _ _ | exact Nat.le_succ _) (by first | exact le_refl _ | exact Nat.le_succ _) rfl rfl)
    | split
    | dsimp only

theorem opBistStatus_keeps {x0 : State} (m : ℕ) (pl : List Byte) {s : State} (hk : Keeps x0 s) : Keeps x0 (opBistStatus m pl s) := by
  unfold opBistStatus
  try dsimp only
  repeat' with_reducible first
    | exact hk
    | assumption
    | apply State.badByte_keeps
    | apply State.finish_keeps
    | apply Keeps.ite
    | split
    | dsimp only

theorem opSweepStart_keeps {x0 : State} (m : ℕ) (pl : List Byte) {s : State} (hk : Keeps x0 s) : Keeps x0 (opSweepStart m pl s) := by
  unfold opSweepStart
  try dsimp only
  repeat' with_reducible first
    | exact hk
    | assumption
    | apply State.refuse_keeps
    | apply State.wr_keeps
    | apply State.finish_keeps
    | apply Keeps.ite
    | (fail_if_no_progress refine Keeps.upd ?_ rfl (by first | exact le_refl _ | exact le_max_left _ _ | exact Nat.le_succ _) (by first | exact le_refl _ | exact Nat.le_succ _) rfl rfl)
    | split
    | dsimp only

theorem opBistStop_keeps {x0 : State} (m : ℕ) {s : State} (hk : Keeps x0 s) : Keeps x0 (opBistStop m s) := by
  unfold opBistStop
  try dsimp only
  repeat' with_reducible first
    | exact hk
    | assumption
    | apply State.finish_keeps
    | apply slicesStop_keeps
    | apply parkStop_keeps
    | apply sweepStop_keeps
    | dsimp only

theorem opSliceRow_keeps {x0 : State} (m : ℕ) (pl : List Byte) {s : State} (hk : Keeps x0 s) : Keeps x0 (opSliceRow m pl s) := by
  unfold opSliceRow
  try dsimp only
  repeat' with_reducible first
    | exact hk
    | assumption
    | apply State.badByte_keeps
    | apply State.refuse_keeps
    | apply State.modPav_keeps
    | apply Keeps.ite
    | (fail_if_no_progress refine Keeps.upd ?_ rfl (by first | exact le_refl _ | exact le_max_left _ _ | exact Nat.le_succ _) (by first | exact le_refl _ | exact Nat.le_succ _) rfl rfl)
    | split
    | dsimp only

theorem opParkStart_keeps {x0 : State} (m : ℕ) (pl : List Byte) {s : State} (hk : Keeps x0 s) : Keeps x0 (opParkStart m pl s) := by
  unfold opParkStart
  try dsimp only
  repeat' with_reducible first
    | exact hk
    | assumption
    | apply State.badByte_keeps
    | apply State.refuse_keeps
    | apply quietStep_keeps
    | apply beginPark_keeps
    | apply Keeps.ite
    | split
    | dsimp only

theorem opCertRead_keeps {x0 : State} (m : ℕ) (pl : List Byte) {s : State} (hk : Keeps x0 s) : Keeps x0 (opCertRead m pl s) := by
  unfold opCertRead
  try dsimp only
  repeat' with_reducible first
    | exact hk
    | assumption
    | apply State.refuse_keeps
    | apply State.badByte_keeps
    | apply State.finish_keeps
    | apply Keeps.ite
    | (fail_if_no_progress refine Keeps.upd ?_ rfl (by first | exact le_refl _ | exact le_max_left _ _ | exact Nat.le_succ _) (by first | exact le_refl _ | exact Nat.le_succ _) rfl rfl)
    | split
    | dsimp only

theorem opCertLoad_keeps {x0 : State} (m : ℕ) (pl : List Byte) {s : State} (hk : Keeps x0 s) : Keeps x0 (opCertLoad m pl s) := by
  unfold opCertLoad
  try dsimp only
  repeat' with_reducible first
    | exact hk
    | assumption
    | apply State.badByte_keeps
    | apply State.refuse_keeps
    | apply State.finish_keeps
    | apply Keeps.ite
    | (refine Keeps.foldl _ ?_ (fun a e k => ?_))
    | (fail_if_no_progress refine Keeps.upd ?_ rfl (by first | exact le_refl _ | exact le_max_left _ _ | exact Nat.le_succ _) (by first | exact le_refl _ | exact Nat.le_succ _) rfl rfl)
    | split
    | dsimp only

theorem opCertSubmit_keeps {x0 : State} (m : ℕ) (pl : List Byte) {s : State} (hk : Keeps x0 s) : Keeps x0 (opCertSubmit m pl s) := by
  unfold opCertSubmit
  try dsimp only
  repeat' with_reducible first
    | exact hk
    | assumption
    | apply State.badByte_keeps
    | apply State.refuse_keeps
    | apply State.finish_keeps
    | apply Keeps.ite
    | (fail_if_no_progress refine Keeps.upd ?_ rfl (by first | exact le_refl _ | exact le_max_left _ _ | exact Nat.le_succ _) (by first | exact le_refl _ | exact Nat.le_succ _) rfl rfl)
    | split
    | dsimp only

theorem opArrayTest_keeps {x0 : State} (m : ℕ) (pl : List Byte) {s : State} (hk : Keeps x0 s) : Keeps x0 (opArrayTest m pl s) := by
  unfold opArrayTest
  try dsimp only [State.drawFree, State.drawEntropy]
  repeat' with_reducible first
    | exact hk
    | assumption
    | apply State.badByte_keeps
    | apply State.refuse_keeps
    | apply writePhys_keeps
    | (refine Keeps.snd (p := State.drawFree _) (by assumption) ?_)
    | apply State.drawFree_keeps
    | apply State.finish_keeps
    | apply Keeps.ite
    | (refine Keeps.forUpto _ ?_ (fun i a k => ?_))
    | (fail_if_no_progress refine Keeps.upd ?_ rfl (by first | exact le_refl _ | exact le_max_left _ _ | exact Nat.le_succ _) (by first | exact le_refl _ | exact Nat.le_succ _) rfl rfl)
    | split
    | dsimp only

theorem opArrayRawRead_keeps {x0 : State} (m : ℕ) (pl : List Byte) {s : State} (hk : Keeps x0 s) : Keeps x0 (opArrayRawRead m pl s) := by
  unfold opArrayRawRead
  try dsimp only
  repeat' with_reducible first
    | exact hk
    | assumption
    | apply State.badByte_keeps
    | apply State.refuse_keeps
    | apply State.finish_keeps
    | apply Keeps.ite
    | (fail_if_no_progress refine Keeps.upd ?_ rfl (by first | exact le_refl _ | exact le_max_left _ _ | exact Nat.le_succ _) (by first | exact le_refl _ | exact Nat.le_succ _) rfl rfl)
    | split
    | dsimp only

theorem opArrayRawWrite_keeps {x0 : State} (m : ℕ) (pl : List Byte) {s : State} (hk : Keeps x0 s) : Keeps x0 (opArrayRawWrite m pl s) := by
  unfold opArrayRawWrite
  try dsimp only
  repeat' with_reducible first
    | exact hk
    | assumption
    | apply State.badByte_keeps
    | apply State.refuse_keeps
    | apply State.finish_keeps
    | apply setRawWord_keeps
    | apply Keeps.ite
    | (refine Keeps.forUpto _ ?_ (fun i a k => ?_))
    | (fail_if_no_progress refine Keeps.upd ?_ rfl (by first | exact le_refl _ | exact le_max_left _ _ | exact Nat.le_succ _) (by first | exact le_refl _ | exact Nat.le_succ _) rfl rfl)
    | split
    | dsimp only

theorem opShutdown_keeps {x0 : State} (m : ℕ) (pl : List Byte) {s : State} (hk : Keeps x0 s) : Keeps x0 (opShutdown m pl s) := by
  unfold opShutdown
  try dsimp only
  repeat' with_reducible first
    | exact hk
    | assumption
    | apply State.badByte_keeps
    | apply State.refuse_keeps
    | apply calAbortAll_keeps
    | apply sweepStop_keeps
    | apply bulkStop_keeps
    | apply State.wr_keeps
    | apply quietStep_keeps
    | apply beginPark_keeps
    | apply Keeps.ite
    | (fail_if_no_progress refine Keeps.upd ?_ rfl (by first | exact le_refl _ | exact le_max_left _ _ | exact Nat.le_succ _) (by first | exact le_refl _ | exact Nat.le_succ _) rfl rfl)
    | split
    | dsimp only

end Sys2Proof.Machine
end

