-- ==== Sys2Proof/Laws/KeepsThermal.lean ====
section
/-! SUPPORT. What the operations of Machine/Thermal.lean keep (Keeps of Safety.lean). -/
namespace Sys2Proof.Machine
open Sys2Proof

set_option linter.all false

theorem declareNow_keeps {x0 : State} {s : State} (hk : Keeps x0 s) : Keeps x0 (declareNow s) := by
  unfold declareNow
  try dsimp only
  repeat' with_reducible first
    | exact hk
    | assumption
    | apply declareRate_keeps
    | apply State.wr_keeps
    | apply Keeps.ite
    | split
    | dsimp only

theorem setHostThr_keeps {x0 : State} (v : ℕ) {s : State} (hk : Keeps x0 s) : Keeps x0 (setHostThr v s) := by
  unfold setHostThr
  try dsimp only
  repeat' with_reducible first
    | exact hk
    | assumption
    | apply declareNow_keeps
    | apply State.raise_keeps
    | apply State.wr_keeps
    | apply Keeps.ite
    | split
    | dsimp only

theorem haltTsv_keeps {x0 : State} {s : State} (hk : Keeps x0 s) : Keeps x0 (haltTsv s) := by
  unfold haltTsv
  try dsimp only
  repeat' with_reducible first
    | exact hk
    | assumption
    | apply endWith_keeps
    | apply abortTsv_keeps
    | (refine Keeps.forUpto _ ?_ (fun i a k => ?_))
    | (fail_if_no_progress refine Keeps.upd ?_ rfl (by first | exact le_refl _ | exact le_max_left _ _ | exact Nat.le_succ _) (by first | exact le_refl _ | exact Nat.le_succ _) rfl rfl)
    | split
    | dsimp only

theorem haltStartTest_keeps {x0 : State} {s : State} (hk : Keeps x0 s) : Keeps x0 (haltStartTest s) := by
  unfold haltStartTest
  try dsimp only
  repeat' with_reducible first
    | exact hk
    | assumption
    | apply lanesBack_keeps
    | apply slicesStop_keeps
    | apply Keeps.ite
    | (fail_if_no_progress refine Keeps.upd ?_ rfl (by first | exact le_refl _ | exact le_max_left _ _ | exact Nat.le_succ _) (by first | exact le_refl _ | exact Nat.le_succ _) rfl rfl)
    | split
    | dsimp only

theorem declareHalt_keeps {x0 : State} (t : ℤ) {s : State} (hk : Keeps x0 s) : Keeps x0 (declareHalt t s) := by
  unfold declareHalt
  try dsimp only
  repeat' with_reducible first
    | exact hk
    | assumption
    | apply State.sat_keeps
    | apply State.wr_keeps
    | apply State.raise_keeps
    | apply sweepStop_keeps
    | apply bulkStop_keeps
    | apply haltStartTest_keeps
    | apply parkStop_keeps
    | apply haltTsv_keeps
    | apply progStop_keeps
    | apply slicesStop_keeps
    | apply drainStep_keeps
    | apply drainPav_keeps
    | apply Keeps.ite
    | (refine Keeps.forUpto _ ?_ (fun i a k => ?_))
    | split
    | dsimp only

theorem clearHalt_keeps {x0 : State} {s : State} (hk : Keeps x0 s) : Keeps x0 (clearHalt s) := by
  unfold clearHalt
  try dsimp only
  repeat' with_reducible first
    | exact hk
    | assumption
    | apply State.raise_keeps
    | apply State.wr_keeps
    | apply State.modPav_keeps
    | apply wakePav_keeps
    | apply startTest_keeps
    | apply declareNow_keeps
    | apply Keeps.ite
    | (refine Keeps.forUpto _ ?_ (fun i a k => ?_))
    | (fail_if_no_progress refine Keeps.upd ?_ rfl (by first | exact le_refl _ | exact le_max_left _ _ | exact Nat.le_succ _) (by first | exact le_refl _ | exact Nat.le_succ _) rfl rfl)
    | split
    | dsimp only

theorem askHaltClear_keeps {x0 : State} {s : State} (hk : Keeps x0 s) : Keeps x0 (askHaltClear s) := by
  unfold askHaltClear
  try dsimp only
  repeat' with_reducible first
    | exact hk
    | assumption
    | apply clearHalt_keeps
    | apply Keeps.ite
    | split
    | dsimp only

theorem changeBand_keeps {x0 : State} (b : ℕ) (t : ℤ) {s : State} (hk : Keeps x0 s) : Keeps x0 (changeBand b t s) := by
  unfold changeBand
  try dsimp only
  repeat' with_reducible first
    | exact hk
    | assumption
    | apply State.wr_keeps
    | apply State.raise_keeps
    | apply State.sat_keeps
    | apply declareHalt_keeps
    | apply declareNow_keeps
    | apply Keeps.ite
    | (fail_if_no_progress refine Keeps.upd ?_ rfl (by first | exact le_refl _ | exact le_max_left _ _ | exact Nat.le_succ _) (by first | exact le_refl _ | exact Nat.le_succ _) rfl rfl)
    | split
    | dsimp only

theorem trackBand_keeps {x0 : State} (t : ℤ) {s : State} (hk : Keeps x0 s) : Keeps x0 (trackBand t s) := by
  unfold trackBand
  try dsimp only
  repeat' with_reducible first
    | exact hk
    | assumption
    | apply changeBand_keeps
    | apply Keeps.ite
    | (fail_if_no_progress refine Keeps.upd ?_ rfl (by first | exact le_refl _ | exact le_max_left _ _ | exact Nat.le_succ _) (by first | exact le_refl _ | exact Nat.le_succ _) rfl rfl)
    | split
    | dsimp only

theorem firstBand_keeps {x0 : State} (t : ℤ) {s : State} (hk : Keeps x0 s) : Keeps x0 (firstBand t s) := by
  unfold firstBand
  try dsimp only
  repeat' with_reducible first
    | exact hk
    | assumption
    | apply State.wr_keeps
    | apply declareHalt_keeps
    | apply startTest_keeps
    | apply declareNow_keeps
    | apply Keeps.ite
    | (refine Keeps.foldl _ ?_ (fun a e k => ?_))
    | (fail_if_no_progress refine Keeps.upd ?_ rfl (by first | exact le_refl _ | exact le_max_left _ _ | exact Nat.le_succ _) (by first | exact le_refl _ | exact Nat.le_succ _) rfl rfl)
    | split
    | dsimp only

theorem State.setSensor_keeps {x0 : State} {s : State} (n : ℕ) (x : Sensor) (hk : Keeps x0 s) : Keeps x0 (State.setSensor s n x) := by
  unfold State.setSensor
  try dsimp only
  repeat' with_reducible first
    | exact hk
    | assumption
    | (fail_if_no_progress refine Keeps.upd ?_ rfl (by first | exact le_refl _ | exact le_max_left _ _ | exact Nat.le_succ _) (by first | exact le_refl _ | exact Nat.le_succ _) rfl rfl)
    | dsimp only

theorem setFault_keeps {x0 : State} (n : ℕ) (f : Bool) {s : State} (hk : Keeps x0 s) : Keeps x0 (setFault n f s) := by
  unfold setFault
  try dsimp only
  repeat' with_reducible first
    | exact hk
    | assumption
    | apply State.wr_keeps
    | dsimp only

theorem clearSensor_keeps {x0 : State} (n : ℕ) {s : State} (hk : Keeps x0 s) : Keeps x0 (clearSensor n s) := by
  unfold clearSensor
  try dsimp only
  repeat' with_reducible first
    | exact hk
    | assumption
    | apply State.setSensor_keeps
    | apply setFault_keeps
    | apply State.setReg_keeps
    | dsimp only

theorem convert_keeps {x0 : State} (n : ℕ) (reading : Option ℤ) {s : State} (hk : Keeps x0 s) : Keeps x0 (convert n reading s) := by
  unfold convert
  try dsimp only
  repeat' with_reducible first
    | exact hk
    | assumption
    | apply State.setSensor_keeps
    | apply State.wr_keeps
    | apply State.raise_keeps
    | apply setFault_keeps
    | apply Keeps.ite
    | (fail_if_no_progress refine Keeps.upd ?_ rfl (by first | exact le_refl _ | exact le_max_left _ _ | exact Nat.le_succ _) (by first | exact le_refl _ | exact Nat.le_succ _) rfl rfl)
    | split
    | dsimp only

theorem alertTake_keeps {x0 : State} (k : ℕ) (t : ℤ) {s : State} (hk : Keeps x0 s) : Keeps x0 (alertTake k t s) := by
  unfold alertTake
  try dsimp only
  repeat' with_reducible first
    | exact hk
    | assumption
    | apply State.raise_keeps
    | apply State.wr_keeps
    | apply Keeps.ite
    | (fail_if_no_progress refine Keeps.upd ?_ rfl (by first | exact le_refl _ | exact le_max_left _ _ | exact Nat.le_succ _) (by first | exact le_refl _ | exact Nat.le_succ _) rfl rfl)
    | split
    | dsimp only

theorem peakTake_keeps {x0 : State} (f : Fld) (fresh : Bool) (t : ℤ) {s : State} (hk : Keeps x0 s) : Keeps x0 (peakTake f fresh t s) := by
  unfold peakTake
  try dsimp only
  repeat' with_reducible first
    | exact hk
    | assumption
    | apply State.wr_keeps
    | apply Keeps.ite
    | split
    | dsimp only

theorem sampleTdram_keeps {x0 : State} {s : State} (hk : Keeps x0 s) : Keeps x0 (sampleTdram s) := by
  unfold sampleTdram
  try dsimp only
  repeat' with_reducible first
    | exact hk
    | assumption
    | apply State.wr_keeps
    | apply State.raise_keeps
    | apply peakTake_keeps
    | apply alertTake_keeps
    | apply trackBand_keeps
    | apply firstBand_keeps
    | apply Keeps.ite
    | (fail_if_no_progress refine Keeps.upd ?_ rfl (by first | exact le_refl _ | exact le_max_left _ _ | exact Nat.le_succ _) (by first | exact le_refl _ | exact Nat.le_succ _) rfl rfl)
    | (fail_if_no_progress refine Keeps.updDram ?_ rfl rfl rfl (fun m => by first | exact putCells_wf _ _ m | exact memPut_wf _ _ m) rfl)
    | split
    | dsimp only

theorem sampleTbase_keeps {x0 : State} {s : State} (hk : Keeps x0 s) : Keeps x0 (sampleTbase s) := by
  unfold sampleTbase
  try dsimp only
  repeat' with_reducible first
    | exact hk
    | assumption
    | apply State.wr_keeps
    | apply peakTake_keeps
    | apply alertTake_keeps
    | (fail_if_no_progress refine Keeps.upd ?_ rfl (by first | exact le_refl _ | exact le_max_left _ _ | exact Nat.le_succ _) (by first | exact le_refl _ | exact Nat.le_succ _) rfl rfl)
    | split
    | dsimp only

theorem trimTarget_keeps {x0 : State} (t : ℤ) {s : State} (hk : Keeps x0 s) : Keeps x0 (trimTarget t s).2 := by
  unfold trimTarget
  try dsimp only [State.drawFree, State.drawEntropy]
  repeat' with_reducible first
    | exact hk
    | assumption
    | (refine Keeps.snd (p := State.drawFree _) (by assumption) ?_)
    | apply State.drawFree_keeps
    | apply Keeps.ite
    | (refine Keeps.foldlFst _ ?_ (fun a e k => ?_))
    | (refine Keeps.foldlSnd _ ?_ (fun a e k => ?_))
    | (fail_if_no_progress refine Keeps.upd ?_ rfl (by first | exact le_refl _ | exact le_max_left _ _ | exact Nat.le_succ _) (by first | exact le_refl _ | exact Nat.le_succ _) rfl rfl)
    | split
    | dsimp only

theorem oscStep_keeps {x0 : State} {s : State} (hk : Keeps x0 s) : Keeps x0 (oscStep s) := by
  unfold oscStep
  try dsimp only
  repeat' with_reducible first
    | exact hk
    | assumption
    | (refine Keeps.snd (p := trimTarget _ _) (by assumption) ?_)
    | apply trimTarget_keeps
    | apply State.wr_keeps
    | apply Keeps.ite
    | split
    | dsimp only

theorem trimsLoad_keeps {x0 : State} {s : State} (hk : Keeps x0 s) : Keeps x0 (trimsLoad s) := by
  unfold trimsLoad
  try dsimp only
  repeat' with_reducible first
    | exact hk
    | assumption
    | (refine Keeps.foldl _ ?_ (fun a e k => ?_))
    | (fail_if_no_progress refine Keeps.upd ?_ rfl (by first | exact le_refl _ | exact le_max_left _ _ | exact Nat.le_succ _) (by first | exact le_refl _ | exact Nat.le_succ _) rfl rfl)
    | dsimp only

theorem roundEnd_keeps {x0 : State} {s : State} (hk : Keeps x0 s) : Keeps x0 (roundEnd s) := by
  unfold roundEnd
  try dsimp only
  repeat' with_reducible first
    | exact hk
    | assumption
    | apply trimsLoad_keeps
    | apply oscStep_keeps
    | apply Keeps.ite
    | (fail_if_no_progress refine Keeps.upd ?_ rfl (by first | exact le_refl _ | exact le_max_left _ _ | exact Nat.le_succ _) (by first | exact le_refl _ | exact Nat.le_succ _) rfl rfl)
    | split
    | dsimp only

theorem execSensorSlotEnd_keeps {x0 : State} (conv : Option (BitVec 16)) {s : State} (hk : Keeps x0 s) : OutKeeps x0 (execSensorSlotEnd conv s) := by
  unfold execSensorSlotEnd
  try dsimp only
  repeat' with_reducible first
    | exact hk
    | assumption
    | apply State.atLeast_keeps
    | apply convert_keeps
    | apply sensorCalTake_keeps
    | apply alertTake_keeps
    | apply clearSensor_keeps
    | apply sampleTdram_keeps
    | apply sampleTbase_keeps
    | apply roundEnd_keeps
    | apply OutKeeps.next
    | apply OutKeeps.ite
    | apply Keeps.ite
    | (fail_if_no_progress refine Keeps.upd ?_ rfl (by first | exact le_refl _ | exact le_max_left _ _ | exact Nat.le_succ _) (by first | exact le_refl _ | exact Nat.le_succ _) rfl rfl)
    | split
    | dsimp only

theorem execHaltDrainDone_keeps {x0 : State} {s : State} (hk : Keeps x0 s) : OutKeeps x0 (execHaltDrainDone s) := by
  unfold execHaltDrainDone
  try dsimp only
  repeat' with_reducible first
    | exact hk
    | assumption
    | apply settlePav_keeps
    | apply endSlice_keeps
    | apply OutKeeps.next
    | apply OutKeeps.ite
    | apply Keeps.ite
    | (refine Keeps.forUpto _ ?_ (fun i a k => ?_))
    | (fail_if_no_progress refine Keeps.upd ?_ rfl (by first | exact le_refl _ | exact le_max_left _ _ | exact Nat.le_succ _) (by first | exact le_refl _ | exact Nat.le_succ _) rfl rfl)
    | split
    | dsimp only

theorem opThmStatus_keeps {x0 : State} (m : ℕ) {s : State} (hk : Keeps x0 s) : Keeps x0 (opThmStatus m s) := by
  unfold opThmStatus
  try dsimp only
  repeat' with_reducible first
    | exact hk
    | assumption
    | apply State.finish_keeps
    | dsimp only

theorem opThrottleSet_keeps {x0 : State} (m : ℕ) (pl : List Byte) {s : State} (hk : Keeps x0 s) : Keeps x0 (opThrottleSet m pl s) := by
  unfold opThrottleSet
  try dsimp only
  repeat' with_reducible first
    | exact hk
    | assumption
    | apply State.badByte_keeps
    | apply State.finish_keeps
    | apply setHostThr_keeps
    | apply Keeps.ite
    | split
    | dsimp only

theorem opHaltClear_keeps {x0 : State} (m : ℕ) {s : State} (hk : Keeps x0 s) : Keeps x0 (opHaltClear m s) := by
  unfold opHaltClear
  try dsimp only
  repeat' with_reducible first
    | exact hk
    | assumption
    | apply State.refuse_keeps
    | apply State.finish_keeps
    | apply askHaltClear_keeps
    | apply Keeps.ite
    | split
    | dsimp only

theorem opAlertSet_keeps {x0 : State} (m : ℕ) (pl : List Byte) {s : State} (hk : Keeps x0 s) : Keeps x0 (opAlertSet m pl s) := by
  unfold opAlertSet
  try dsimp only
  repeat' with_reducible first
    | exact hk
    | assumption
    | apply State.badByte_keeps
    | apply State.finish_keeps
    | apply State.wr_keeps
    | apply Keeps.ite
    | split
    | dsimp only

theorem setExternal_keeps {x0 : State} (td1 : Bool) (td2 : Bool) (thm : Bool) {s : State} (hk : Keeps x0 s) : Keeps x0 (setExternal td1 td2 thm s) := by
  unfold setExternal
  try dsimp only
  repeat' with_reducible first
    | exact hk
    | assumption
    | apply State.wr_keeps
    | apply clearSensor_keeps
    | apply Keeps.ite
    | (refine Keeps.forUpto _ ?_ (fun i a k => ?_))
    | split
    | dsimp only

theorem opExtSet_keeps {x0 : State} (m : ℕ) (pl : List Byte) {s : State} (hk : Keeps x0 s) : Keeps x0 (opExtSet m pl s) := by
  unfold opExtSet
  try dsimp only
  repeat' with_reducible first
    | exact hk
    | assumption
    | apply State.badByte_keeps
    | apply setExternal_keeps
    | apply State.wr_keeps
    | apply State.finish_keeps
    | apply Keeps.ite
    | split
    | dsimp only

end Sys2Proof.Machine
end

