-- ==== Sys2Proof/Laws/KeepsFields.lean ====
section
/-! SUPPORT. What the operations of Machine/Fields.lean keep (Keeps of Safety.lean). -/
namespace Sys2Proof.Machine
open Sys2Proof

set_option linter.all false

theorem putAtTurn_keeps {x0 : State} (off : ℕ) (v : Reg32) {s : State} (hk : Keeps x0 s) : Keeps x0 (putAtTurn off v s) := by
  unfold putAtTurn
  try dsimp only
  repeat' with_reducible first
    | exact hk
    | assumption
    | apply State.setReg_keeps
    | apply Keeps.ite
    | (fail_if_no_progress refine Keeps.upd ?_ rfl (by first | exact le_refl _ | exact le_max_left _ _ | exact Nat.le_succ _) (by first | exact le_refl _ | exact Nat.le_succ _) rfl rfl)
    | split
    | dsimp only

theorem stage_keeps {x0 : State} (off : ℕ) (v : Reg32) {s : State} (hk : Keeps x0 s) : Keeps x0 (stage off v s) := by
  unfold stage
  try dsimp only
  repeat' with_reducible first
    | exact hk
    | assumption
    | (fail_if_no_progress refine Keeps.upd ?_ rfl (by first | exact le_refl _ | exact le_max_left _ _ | exact Nat.le_succ _) (by first | exact le_refl _ | exact Nat.le_succ _) rfl rfl)
    | dsimp only

theorem unstage_keeps {x0 : State} (off : ℕ) {s : State} (hk : Keeps x0 s) : Keeps x0 (unstage off s) := by
  unfold unstage
  try dsimp only
  repeat' with_reducible first
    | exact hk
    | assumption
    | (fail_if_no_progress refine Keeps.upd ?_ rfl (by first | exact le_refl _ | exact le_max_left _ _ | exact Nat.le_succ _) (by first | exact le_refl _ | exact Nat.le_succ _) rfl rfl)
    | dsimp only

theorem commitMask_keeps {x0 : State} (part : Bool) (m : ℕ) (lo : ℕ) (hi : ℕ) {s : State} (hk : Keeps x0 s) : ∀ u, commitMask part m lo hi s = some u → Keeps x0 u := by
  unfold commitMask
  intro u e
  repeat' (first | (simp only [Option.some.injEq] at e; subst e) | contradiction | split at e | dsimp only at e)
  all_goals try dsimp only
  repeat' with_reducible first
    | exact hk
    | assumption
    | apply State.setReg_keeps
    | apply unstage_keeps
    | apply Keeps.ite
    | split
    | dsimp only

theorem commitSignpost_keeps {x0 : State} (e : ℕ) (lo : ℕ) (hi : ℕ) {s : State} (hk : Keeps x0 s) : ∀ u, commitSignpost e lo hi s = some u → Keeps x0 u := by
  unfold commitSignpost
  intro u e
  repeat' (first | (simp only [Option.some.injEq] at e; subst e) | contradiction | split at e | dsimp only at e)
  all_goals try dsimp only
  repeat' with_reducible first
    | exact hk
    | assumption
    | apply State.setReg_keeps
    | apply unstage_keeps
    | apply Keeps.ite
    | split
    | dsimp only

theorem putSteward_keeps {x0 : State} (mask : ℕ) (lock : Bool) {s : State} (hk : Keeps x0 s) : ∀ u, putSteward mask lock s = some u → Keeps x0 u := by
  unfold putSteward
  intro u e
  repeat' (first | (simp only [Option.some.injEq] at e; subst e) | contradiction | split at e | dsimp only at e)
  all_goals try dsimp only
  repeat' with_reducible first
    | exact hk
    | assumption
    | apply State.wr_keeps
    | apply State.raise_keeps
    | apply Keeps.ite
    | split
    | dsimp only

theorem deny_keeps {x0 : State} (src : ℕ) (command : Bool) (target : ℕ) {s : State} (hk : Keeps x0 s) : Keeps x0 (deny src command target s) := by
  unfold deny
  try dsimp only
  repeat' with_reducible first
    | exact hk
    | assumption
    | apply State.sat_keeps
    | apply State.wr_keeps
    | apply State.raiseOnce_keeps
    | dsimp only

end Sys2Proof.Machine
end

