-- ==== Sys2Proof/Laws/KeepsMbox.lean ====
section
/-! SUPPORT. What the operations of Machine/Mbox.lean keep (Keeps of Safety.lean). -/
namespace Sys2Proof.Machine
open Sys2Proof

set_option linter.all false

theorem notifyDone_keeps {x0 : State} (m : ℕ) {s : State} (hk : Keeps x0 s) : Keeps x0 (notifyDone m s) := by
  unfold notifyDone
  try dsimp only
  repeat' with_reducible first
    | exact hk
    | assumption
    | apply State.wr_keeps
    | apply sendDone_keeps
    | apply State.modPort_keeps
    | apply Keeps.ite
    | (fail_if_no_progress refine Keeps.upd ?_ rfl (by first | exact le_refl _ | exact le_max_left _ _ | exact Nat.le_succ _) (by first | exact le_refl _ | exact Nat.le_succ _) rfl rfl)
    | split
    | dsimp only

theorem completeWith_keeps {x0 : State} (m : ℕ) (r : Result) {s : State} (hk : Keeps x0 s) : Keeps x0 (completeWith m r s) := by
  unfold completeWith
  try dsimp only
  repeat' with_reducible first
    | exact hk
    | assumption
    | apply State.setReg_keeps
    | apply State.wr_keeps
    | apply State.setMbx_keeps
    | apply sramClear_keeps
    | apply notifyDone_keeps
    | apply State.raise_keeps
    | apply State.sat_keeps
    | apply Keeps.ite
    | (refine Keeps.forUpto _ ?_ (fun i a k => ?_))
    | split
    | dsimp only

theorem detach_keeps {x0 : State} (m : ℕ) {s : State} (hk : Keeps x0 s) : Keeps x0 (detach m s) := by
  unfold detach
  try dsimp only
  repeat' with_reducible first
    | exact hk
    | assumption
    | apply State.modPav_keeps
    | apply State.modPort_keeps
    | (refine Keeps.forUpto _ ?_ (fun i a k => ?_))
    | (fail_if_no_progress refine Keeps.upd ?_ rfl (by first | exact le_refl _ | exact le_max_left _ _ | exact Nat.le_succ _) (by first | exact le_refl _ | exact Nat.le_succ _) rfl rfl)
    | (fail_if_no_progress refine Keeps.updOtp ?_ rfl (by first | exact le_refl _ | exact le_max_left _ _ | exact Nat.le_succ _) (by first | exact le_refl _ | exact Nat.le_succ _) rfl (FusesKept.upd rfl rfl rfl rfl rfl rfl rfl) rfl)
    | split
    | dsimp only

theorem abortWork_keeps {x0 : State} (m : ℕ) (code : ℕ) {s : State} (hk : Keeps x0 s) : Keeps x0 (abortWork m code s) := by
  unfold abortWork
  try dsimp only
  repeat' with_reducible first
    | exact hk
    | assumption
    | apply endWith_keeps
    | apply bulkStop_keeps
    | apply State.finish_keeps
    | apply State.modPav_keeps
    | apply abortSlice_keeps
    | apply parkStop_keeps
    | apply calAbortOf_keeps
    | apply sensorCalEnd_keeps
    | apply progStop_keeps
    | apply Keeps.ite
    | (refine Keeps.forUpto _ ?_ (fun i a k => ?_))
    | (fail_if_no_progress refine Keeps.upd ?_ rfl (by first | exact le_refl _ | exact le_max_left _ _ | exact Nat.le_succ _) (by first | exact le_refl _ | exact Nat.le_succ _) rfl rfl)
    | split
    | dsimp only

theorem forceDone_keeps {x0 : State} (m : ℕ) (code : ℕ) (payload : List Byte) {s : State} (hk : Keeps x0 s) : Keeps x0 (forceDone m code payload s) := by
  unfold forceDone
  try dsimp only
  repeat' with_reducible first
    | exact hk
    | assumption
    | apply detach_keeps
    | apply completeWith_keeps
    | dsimp only

theorem abortRunning_keeps {x0 : State} (m : ℕ) {s : State} (hk : Keeps x0 s) : Keeps x0 (abortRunning m s) := by
  unfold abortRunning
  try dsimp only
  repeat' with_reducible first
    | exact hk
    | assumption
    | apply abortWork_keeps
    | apply Keeps.ite
    | split
    | dsimp only

theorem timerFires_keeps {x0 : State} (m : ℕ) {s : State} (hk : Keeps x0 s) : Keeps x0 (timerFires m s) := by
  unfold timerFires
  try dsimp only
  repeat' with_reducible first
    | exact hk
    | assumption
    | apply State.modMbx_keeps
    | apply State.raise_keeps
    | apply abortWork_keeps
    | apply forceDone_keeps
    | apply Keeps.ite
    | (fail_if_no_progress refine Keeps.upd ?_ rfl (by first | exact le_refl _ | exact le_max_left _ _ | exact Nat.le_succ _) (by first | exact le_refl _ | exact Nat.le_succ _) rfl rfl)
    | split
    | dsimp only

theorem sleepEnds_keeps {x0 : State} {s : State} (hk : Keeps x0 s) : Keeps x0 (sleepEnds s) := by
  unfold sleepEnds
  try dsimp only
  repeat' with_reducible first
    | exact hk
    | assumption
    | apply abortWork_keeps
    | apply completeWith_keeps
    | apply forceDone_keeps
    | apply Keeps.ite
    | (refine Keeps.forUpto _ ?_ (fun i a k => ?_))
    | (fail_if_no_progress refine Keeps.upd ?_ rfl (by first | exact le_refl _ | exact le_max_left _ _ | exact Nat.le_succ _) (by first | exact le_refl _ | exact Nat.le_succ _) rfl rfl)
    | split
    | dsimp only

end Sys2Proof.Machine
end

