-- ==== Sys2Proof/Laws/KeepsPower.lean ====
section
/-! SUPPORT. What the operations of Machine/Power.lean keep (Keeps of Safety.lean). -/
namespace Sys2Proof.Machine
open Sys2Proof

set_option linter.all false

theorem enterSleep_keeps {x0 : State} {s : State} (hk : Keeps x0 s) : Keeps x0 (enterSleep s) := by
  unfold enterSleep
  try dsimp only
  repeat' with_reducible first
    | exact hk
    | assumption
    | apply sensorCalEnd_keeps
    | apply State.finish_keeps
    | apply sleepEnds_keeps
    | apply State.wr_keeps
    | apply applyRate_keeps
    | apply cadSwitch_keeps
    | apply cadSeek_keeps
    | apply Keeps.ite
    | (refine Keeps.forUpto _ ?_ (fun i a k => ?_))
    | (fail_if_no_progress refine Keeps.upd ?_ rfl (by first | exact le_refl _ | exact le_max_left _ _ | exact Nat.le_succ _) (by first | exact le_refl _ | exact Nat.le_succ _) rfl rfl)
    | split
    | dsimp only

theorem enterHold_keeps {x0 : State} (sleep : Bool) {s : State} (hk : Keeps x0 s) : Keeps x0 (enterHold sleep s) := by
  unfold enterHold
  try dsimp only
  repeat' with_reducible first
    | exact hk
    | assumption
    | apply State.wr_keeps
    | apply cadSeek_keeps
    | apply enterSleep_keeps
    | apply Keeps.ite
    | (fail_if_no_progress refine Keeps.upd ?_ rfl (by first | exact le_refl _ | exact le_max_left _ _ | exact Nat.le_succ _) (by first | exact le_refl _ | exact Nat.le_succ _) rfl rfl)
    | split
    | dsimp only

theorem heldAll_keeps {x0 : State} {s : State} (hk : Keeps x0 s) : Keeps x0 (heldAll s) := by
  unfold heldAll
  try dsimp only
  repeat' with_reducible first
    | exact hk
    | assumption
    | apply enterHold_keeps
    | apply Keeps.ite
    | (fail_if_no_progress refine Keeps.upd ?_ rfl (by first | exact le_refl _ | exact le_max_left _ _ | exact Nat.le_succ _) (by first | exact le_refl _ | exact Nat.le_succ _) rfl rfl)
    | split
    | dsimp only

theorem execPavilionDrainDone_keeps {x0 : State} (p : PavId) {s : State} (hk : Keeps x0 s) : OutKeeps x0 (execPavilionDrainDone p s) := by
  unfold execPavilionDrainDone
  try dsimp only
  repeat' with_reducible first
    | exact hk
    | assumption
    | apply gatePav_keeps
    | apply settlePav_keeps
    | apply quietStep_keeps
    | apply heldAll_keeps
    | apply OutKeeps.next
    | apply OutKeeps.ite
    | apply Keeps.ite
    | split
    | dsimp only

theorem holdEntry_keeps {x0 : State} (sleep : Bool) (m : ℕ) {s : State} (hk : Keeps x0 s) : Keeps x0 (holdEntry sleep m s) := by
  unfold holdEntry
  try dsimp only
  repeat' with_reducible first
    | exact hk
    | assumption
    | apply State.wr_keeps
    | apply calAbortAll_keeps
    | apply slicesStop_keeps
    | apply parkStop_keeps
    | apply sweepStop_keeps
    | apply bulkStop_keeps
    | apply quietStep_keeps
    | (fail_if_no_progress refine Keeps.upd ?_ rfl (by first | exact le_refl _ | exact le_max_left _ _ | exact Nat.le_succ _) (by first | exact le_refl _ | exact Nat.le_succ _) rfl rfl)
    | dsimp only

theorem opPowerSet_keeps {x0 : State} (m : ℕ) (pl : List Byte) {s : State} (hk : Keeps x0 s) : Keeps x0 (opPowerSet m pl s) := by
  unfold opPowerSet
  try dsimp only
  repeat' with_reducible first
    | exact hk
    | assumption
    | apply State.badByte_keeps
    | apply State.refuse_keeps
    | apply State.finish_keeps
    | apply wakeRanks_keeps
    | apply State.wr_keeps
    | apply exitHold_keeps
    | apply enterSleep_keeps
    | apply holdEntry_keeps
    | apply Keeps.ite
    | (refine Keeps.forUpto _ ?_ (fun i a k => ?_))
    | (fail_if_no_progress refine Keeps.upd ?_ rfl (by first | exact le_refl _ | exact le_max_left _ _ | exact Nat.le_succ _) (by first | exact le_refl _ | exact Nat.le_succ _) rfl rfl)
    | split
    | dsimp only

theorem opPowerStatus_keeps {x0 : State} (m : ℕ) {s : State} (hk : Keeps x0 s) : Keeps x0 (opPowerStatus m s) := by
  unfold opPowerStatus
  try dsimp only
  repeat' with_reducible first
    | exact hk
    | assumption
    | apply State.finish_keeps
    | dsimp only

theorem execHoldHandshakeTimeout_keeps {x0 : State} (n : PortId) {s : State} (hk : Keeps x0 s) : OutKeeps x0 (execHoldHandshakeTimeout n s) := by
  unfold execHoldHandshakeTimeout
  try dsimp only
  repeat' with_reducible first
    | exact hk
    | assumption
    | apply quietStep_keeps
    | apply holdAbandon_keeps
    | apply State.atLeast_keeps
    | apply OutKeeps.next
    | apply OutKeeps.ite
    | apply Keeps.ite
    | (fail_if_no_progress refine Keeps.upd ?_ rfl (by first | exact le_refl _ | exact le_max_left _ _ | exact Nat.le_succ _) (by first | exact le_refl _ | exact Nat.le_succ _) rfl rfl)
    | split
    | dsimp only

end Sys2Proof.Machine
end

