-- ==== Sys2Proof/Laws/KeepsMgmt.lean ====
section
/-! SUPPORT. What the operations of Machine/Mgmt.lean keep (Keeps of Safety.lean). -/
namespace Sys2Proof.Machine
open Sys2Proof

set_option linter.all false

theorem romFirmware_keeps {x0 : State} {s : State} (hk : Keeps x0 s) : Keeps x0 (romFirmware s) := by
  unfold romFirmware
  try dsimp only
  repeat' with_reducible first
    | exact hk
    | assumption
    | apply State.setReg_keeps
    | apply State.wr_keeps
    | (fail_if_no_progress refine Keeps.upd ?_ rfl (by first | exact le_refl _ | exact le_max_left _ _ | exact Nat.le_succ _) (by first | exact le_refl _ | exact Nat.le_succ _) rfl rfl)
    | dsimp only

theorem stagedFirmware_keeps {x0 : State} (len : ℕ) {s : State} (hk : Keeps x0 s) : Keeps x0 (stagedFirmware len s) := by
  unfold stagedFirmware
  try dsimp only
  repeat' with_reducible first
    | exact hk
    | assumption
    | apply State.setReg_keeps
    | apply State.wr_keeps
    | (fail_if_no_progress refine Keeps.upd ?_ rfl (by first | exact le_refl _ | exact le_max_left _ _ | exact Nat.le_succ _) (by first | exact le_refl _ | exact Nat.le_succ _) rfl rfl)
    | dsimp only

theorem coreStart_keeps {x0 : State} {s : State} (hk : Keeps x0 s) : Keeps x0 (coreStart s) := by
  unfold coreStart
  try dsimp only
  repeat' with_reducible first
    | exact hk
    | assumption
    | (fail_if_no_progress refine Keeps.upd ?_ rfl (by first | exact le_refl _ | exact le_max_left _ _ | exact Nat.le_succ _) (by first | exact le_refl _ | exact Nat.le_succ _) rfl rfl)
    | dsimp only

theorem opFwActivate_keeps {x0 : State} (m : ℕ) (pl : List Byte) {s : State} (hk : Keeps x0 s) : Keeps x0 (opFwActivate m pl s) := by
  unfold opFwActivate
  try dsimp only
  repeat' with_reducible first
    | exact hk
    | assumption
    | apply State.badByte_keeps
    | apply State.refuse_keeps
    | apply State.raise_keeps
    | apply coreStart_keeps
    | apply State.wr_keeps
    | apply Keeps.ite
    | (fail_if_no_progress refine Keeps.upd ?_ rfl (by first | exact le_refl _ | exact le_max_left _ _ | exact Nat.le_succ _) (by first | exact le_refl _ | exact Nat.le_succ _) rfl rfl)
    | split
    | dsimp only

theorem firmwareTakes_keeps {x0 : State} {s : State} (hk : Keeps x0 s) : Keeps x0 (firmwareTakes s) := by
  unfold firmwareTakes
  try dsimp only
  repeat' with_reducible first
    | exact hk
    | assumption
    | apply State.raise_keeps
    | apply State.wr_keeps
    | dsimp only

theorem execImageVerifyDone_keeps {x0 : State} {s : State} (hk : Keeps x0 s) : OutKeeps x0 (execImageVerifyDone s) := by
  unfold execImageVerifyDone
  try dsimp only
  repeat' with_reducible first
    | exact hk
    | assumption
    | apply State.wr_keeps
    | apply State.refuse_keeps
    | apply State.raise_keeps
    | apply firmwareTakes_keeps
    | apply coreStart_keeps
    | apply OutKeeps.next
    | apply OutKeeps.ite
    | apply Keeps.ite
    | (fail_if_no_progress refine Keeps.upd ?_ rfl (by first | exact le_refl _ | exact le_max_left _ _ | exact Nat.le_succ _) (by first | exact le_refl _ | exact Nat.le_succ _) rfl rfl)
    | split
    | dsimp only

theorem switchDone_keeps {x0 : State} (w : Switch) {s : State} (hk : Keeps x0 s) : Keeps x0 (switchDone w s) := by
  unfold switchDone
  try dsimp only
  repeat' with_reducible first
    | exact hk
    | assumption
    | apply stagedFirmware_keeps
    | apply romFirmware_keeps
    | apply State.raise_keeps
    | apply firmwareTakes_keeps
    | apply State.finish_keeps
    | apply arbAdvance_keeps
    | apply Keeps.ite
    | (fail_if_no_progress refine Keeps.upd ?_ rfl (by first | exact le_refl _ | exact le_max_left _ _ | exact Nat.le_succ _) (by first | exact le_refl _ | exact Nat.le_succ _) rfl rfl)
    | split
    | dsimp only

theorem mgmtReset_keeps {x0 : State} (cause : ℕ) {s : State} (hk : Keeps x0 s) : Keeps x0 (mgmtReset cause s) := by
  unfold mgmtReset
  try dsimp only
  repeat' with_reducible first
    | exact hk
    | assumption
    | apply State.raise_keeps
    | apply State.sat_keeps
    | apply State.wr_keeps
    | apply romFirmware_keeps
    | apply coreStart_keeps
    | apply forceDone_keeps
    | apply Keeps.ite
    | (refine Keeps.forUpto _ ?_ (fun i a k => ?_))
    | (fail_if_no_progress refine Keeps.upd ?_ rfl (by first | exact le_refl _ | exact le_max_left _ _ | exact Nat.le_succ _) (by first | exact le_refl _ | exact Nat.le_succ _) rfl rfl)
    | split
    | dsimp only

theorem endCertWindow_keeps {x0 : State} {s : State} (hk : Keeps x0 s) : Keeps x0 (endCertWindow s) := by
  unfold endCertWindow
  try dsimp only
  repeat' with_reducible first
    | exact hk
    | assumption
    | apply State.wr_keeps
    | apply Keeps.ite
    | (fail_if_no_progress refine Keeps.upd ?_ rfl (by first | exact le_refl _ | exact le_max_left _ _ | exact Nat.le_succ _) (by first | exact le_refl _ | exact Nat.le_succ _) rfl rfl)
    | split
    | dsimp only

theorem beginCertWindow_keeps {x0 : State} {s : State} (hk : Keeps x0 s) : Keeps x0 (beginCertWindow s) := by
  unfold beginCertWindow
  try dsimp only
  repeat' with_reducible first
    | exact hk
    | assumption
    | apply State.wr_keeps
    | apply endCertWindow_keeps
    | apply Keeps.ite
    | (fail_if_no_progress refine Keeps.upd ?_ rfl (by first | exact le_refl _ | exact le_max_left _ _ | exact Nat.le_succ _) (by first | exact le_refl _ | exact Nat.le_succ _) rfl rfl)
    | split
    | dsimp only

theorem execCertWindowExpiry_keeps {x0 : State} {s : State} (hk : Keeps x0 s) : OutKeeps x0 (execCertWindowExpiry s) := by
  unfold execCertWindowExpiry
  try dsimp only
  repeat' with_reducible first
    | exact hk
    | assumption
    | apply endCertWindow_keeps
    | apply State.atLeast_keeps
    | apply OutKeeps.next
    | apply OutKeeps.ite
    | apply Keeps.ite
    | split
    | dsimp only

theorem execFirmwareReady_keeps {x0 : State} {s : State} (hk : Keeps x0 s) : OutKeeps x0 (execFirmwareReady s) := by
  unfold execFirmwareReady
  try dsimp only
  repeat' with_reducible first
    | exact hk
    | assumption
    | apply switchDone_keeps
    | apply beginCertWindow_keeps
    | apply firmwareTakes_keeps
    | apply OutKeeps.next
    | apply OutKeeps.ite
    | apply Keeps.ite
    | (fail_if_no_progress refine Keeps.upd ?_ rfl (by first | exact le_refl _ | exact le_max_left _ _ | exact Nat.le_succ _) (by first | exact le_refl _ | exact Nat.le_succ _) rfl rfl)
    | split
    | dsimp only

theorem execFirmwareWatchdog_keeps {x0 : State} {s : State} (hk : Keeps x0 s) : OutKeeps x0 (execFirmwareWatchdog s) := by
  unfold execFirmwareWatchdog
  try dsimp only
  repeat' with_reducible first
    | exact hk
    | assumption
    | apply mgmtReset_keeps
    | apply State.atLeast_keeps
    | apply OutKeeps.next
    | apply OutKeeps.ite
    | apply Keeps.ite
    | split
    | dsimp only

theorem runOp_keeps {x0 : State} (m : ℕ) (op : ℕ) (pl : List Byte) {s : State} (hk : Keeps x0 s) : Keeps x0 (runOp m op pl s) := by
  unfold runOp
  try dsimp only
  repeat' with_reducible first
    | exact hk
    | assumption
    | apply opIdGet_keeps
    | apply opEcho_keeps
    | apply opStartupRecordRead_keeps
    | apply opStewardStatus_keeps
    | apply opStewardSet_keeps
    | apply opPortRoleSet_keeps
    | apply opWindowSet_keeps
    | apply opSignpostSet_keeps
    | apply opPoolStatus_keeps
    | apply opMapSet_keeps
    | apply opMapStatus_keeps
    | apply opMapTranslate_keeps
    | apply opCadSet_keeps
    | apply opCadStatus_keeps
    | apply opSlotSet_keeps
    | apply opRefWindowsSet_keeps
    | apply opRefSpread_keeps
    | apply opRefStatus_keeps
    | apply opNeighSet_keeps
    | apply opEccStatus_keeps
    | apply opEccClear_keeps
    | apply opScrubRegions_keeps
    | apply opRepairMapRead_keeps
    | apply opSpareList_keeps
    | apply opSpareCommit_keeps
    | apply opRowSpare_keeps
    | apply opPavRetire_keeps
    | apply opBistStatus_keeps
    | apply opSweepStart_keeps
    | apply opBistStop_keeps
    | apply opSliceRow_keeps
    | apply opParkStart_keeps
    | apply opCertRead_keeps
    | apply opCertLoad_keeps
    | apply opCertSubmit_keeps
    | apply opArrayTest_keeps
    | apply opArrayRawRead_keeps
    | apply opArrayRawWrite_keeps
    | apply opThmStatus_keeps
    | apply opThrottleSet_keeps
    | apply opHaltClear_keeps
    | apply opAlertSet_keeps
    | apply opExtSet_keeps
    | apply opCalStatus_keeps
    | apply opLaneRetune_keeps
    | apply opEyeScan_keeps
    | apply opTsvCal_keeps
    | apply opSensorCal_keeps
    | apply opOscLearn_keeps
    | apply opCalAbort_keeps
    | apply opMonConfig_keeps
    | apply opMonRead_keeps
    | apply opMonSnapshot_keeps
    | apply opTelemetrySet_keeps
    | apply opOtpRead_keeps
    | apply opOtpProgram_keeps
    | apply opOtpLock_keeps
    | apply opOtpLockForce_keeps
    | apply opRepairOtp_keeps
    | apply opOtpStatus_keeps
    | apply opOtpJournalRead_keeps
    | apply opFwLoad_keeps
    | apply opFwActivate_keeps
    | apply opFwStatus_keeps
    | apply opIdCertRead_keeps
    | apply opAttest_keeps
    | apply opKeyEnrol_keeps
    | apply opWorkshopEnter_keeps
    | apply opWorkshopExit_keeps
    | apply opPowerSet_keeps
    | apply opPowerStatus_keeps
    | apply opShutdown_keeps
    | apply opEvtConfig_keeps
    | apply opEvtRead_keeps
    | apply opEvtStatus_keeps
    | apply opEvtClear_keeps
    | apply opFill_keeps
    | apply opCopy_keeps
    | apply opBulkStatus_keeps
    | apply opBulkAbort_keeps
    | apply Keeps.ite
    | (fail_if_no_progress refine Keeps.upd ?_ rfl (by first | exact le_refl _ | exact le_max_left _ _ | exact Nat.le_succ _) (by first | exact le_refl _ | exact Nat.le_succ _) rfl rfl)
    | split
    | dsimp only

theorem checkedRun_keeps {x0 : State} (m : ℕ) (h : List Byte) (pl : List Byte) {s : State} (hk : Keeps x0 s) : Keeps x0 (checkedRun m h pl s) := by
  unfold checkedRun
  try dsimp only
  repeat' with_reducible first
    | exact hk
    | assumption
    | apply State.refuse_keeps
    | apply deny_keeps
    | apply runOp_keeps
    | apply Keeps.ite
    | (fail_if_no_progress refine Keeps.upd ?_ rfl (by first | exact le_refl _ | exact le_max_left _ _ | exact Nat.le_succ _) (by first | exact le_refl _ | exact Nat.le_succ _) rfl rfl)
    | split
    | dsimp only

theorem snapshotMeets_keeps {x0 : State} (m : ℕ) {s : State} (hk : Keeps x0 s) : Keeps x0 (snapshotMeets m s).2 := by
  unfold snapshotMeets
  try dsimp only
  repeat' with_reducible first
    | exact hk
    | assumption
    | (refine Keeps.snd (p := sramMeets _ _ _) (by assumption) ?_)
    | apply sramMeets_keeps
    | apply Keeps.ite
    | (refine Keeps.foldl _ ?_ (fun a e k => ?_))
    | (refine Keeps.foldlFst _ ?_ (fun a e k => ?_))
    | (refine Keeps.foldlSnd _ ?_ (fun a e k => ?_))
    | (fail_if_no_progress refine Keeps.upd ?_ rfl (by first | exact le_refl _ | exact le_max_left _ _ | exact Nat.le_succ _) (by first | exact le_refl _ | exact Nat.le_succ _) rfl rfl)
    | split
    | dsimp only

theorem noteTaken_keeps {x0 : State} (m : ℕ) {s : State} (hk : Keeps x0 s) : Keeps x0 (noteTaken m s) := by
  unfold noteTaken
  try dsimp only
  repeat' with_reducible first
    | exact hk
    | assumption
    | apply State.modMbx_keeps
    | apply State.wr_keeps
    | (fail_if_no_progress refine Keeps.upd ?_ rfl (by first | exact le_refl _ | exact le_max_left _ _ | exact Nat.le_succ _) (by first | exact le_refl _ | exact Nat.le_succ _) rfl rfl)
    | dsimp only

theorem takeCommand_keeps {x0 : State} (m : ℕ) {s : State} (hk : Keeps x0 s) : Keeps x0 (takeCommand m s) := by
  unfold takeCommand
  try dsimp only
  repeat' with_reducible first
    | exact hk
    | assumption
    | apply State.modMbx_keeps
    | apply State.wr_keeps
    | (refine Keeps.snd (p := snapshotMeets _ _) (by assumption) ?_)
    | apply snapshotMeets_keeps
    | apply noteTaken_keeps
    | apply State.refuse_keeps
    | apply checkedRun_keeps
    | apply Keeps.ite
    | (fail_if_no_progress refine Keeps.upd ?_ rfl (by first | exact le_refl _ | exact le_max_left _ _ | exact Nat.le_succ _) (by first | exact le_refl _ | exact Nat.le_succ _) rfl rfl)
    | split
    | dsimp only

theorem execCommandTaken_keeps {x0 : State} {s : State} (hk : Keeps x0 s) : OutKeeps x0 (execCommandTaken s) := by
  unfold execCommandTaken
  try dsimp only
  repeat' with_reducible first
    | exact hk
    | assumption
    | apply takeCommand_keeps
    | apply OutKeeps.next
    | apply OutKeeps.ite
    | apply Keeps.ite
    | (fail_if_no_progress refine Keeps.upd ?_ rfl (by first | exact le_refl _ | exact le_max_left _ _ | exact Nat.le_succ _) (by first | exact le_refl _ | exact Nat.le_succ _) rfl rfl)
    | split
    | dsimp only

theorem overrun_keeps {x0 : State} (m : ℕ) {s : State} (hk : Keeps x0 s) : Keeps x0 (overrun m s) := by
  unfold overrun
  try dsimp only
  repeat' with_reducible first
    | exact hk
    | assumption
    | apply State.raise_keeps
    | apply State.sat_keeps
    | apply State.wr_keeps
    | dsimp only

theorem pend_keeps {x0 : State} (m : ℕ) (area : List Byte) {s : State} (hk : Keeps x0 s) : Keeps x0 (pend m area s) := by
  unfold pend
  try dsimp only
  repeat' with_reducible first
    | exact hk
    | assumption
    | apply State.setMbx_keeps
    | apply sramClear_keeps
    | apply State.wr_keeps
    | (fail_if_no_progress refine Keeps.upd ?_ rfl (by first | exact le_refl _ | exact le_max_left _ _ | exact Nat.le_succ _) (by first | exact le_refl _ | exact Nat.le_succ _) rfl rfl)
    | dsimp only

theorem ring_keeps {x0 : State} (m : ℕ) (v : ℕ) {s : State} (hk : Keeps x0 s) : Keeps x0 (ring m v s) := by
  unfold ring
  try dsimp only
  repeat' with_reducible first
    | exact hk
    | assumption
    | apply pend_keeps
    | apply overrun_keeps
    | apply completeWith_keeps
    | apply State.modMbx_keeps
    | apply abortRunning_keeps
    | apply Keeps.ite
    | (fail_if_no_progress refine Keeps.upd ?_ rfl (by first | exact le_refl _ | exact le_max_left _ _ | exact Nat.le_succ _) (by first | exact le_refl _ | exact Nat.le_succ _) rfl rfl)
    | split
    | dsimp only

theorem issue_keeps {x0 : State} (m : ℕ) (op : ℕ) (payload : List Byte) {s : State} (hk : Keeps x0 s) : Keeps x0 (issue m op payload s) := by
  unfold issue
  try dsimp only
  repeat' with_reducible first
    | exact hk
    | assumption
    | apply pend_keeps
    | apply takeCommand_keeps
    | apply overrun_keeps
    | apply Keeps.ite
    | split
    | dsimp only

theorem afterDone_keeps {x0 : State} (m : ℕ) (b : Mbx) (r : Result) {s : State} (hk : Keeps x0 s) : Keeps x0 (afterDone m b r s) := by
  unfold afterDone
  try dsimp only
  repeat' with_reducible first
    | exact hk
    | assumption
    | apply leaveWorkshop_keeps
    | apply endCertWindow_keeps
    | apply State.modPort_keeps
    | apply Keeps.ite
    | (fail_if_no_progress refine Keeps.upd ?_ rfl (by first | exact le_refl _ | exact le_max_left _ _ | exact Nat.le_succ _) (by first | exact le_refl _ | exact Nat.le_succ _) rfl rfl)
    | split
    | dsimp only

theorem execCommandComplete_keeps {x0 : State} (m : MbxId) {s : State} (hk : Keeps x0 s) : OutKeeps x0 (execCommandComplete m s) := by
  unfold execCommandComplete
  try dsimp only
  repeat' with_reducible first
    | exact hk
    | assumption
    | apply afterDone_keeps
    | apply completeWith_keeps
    | apply OutKeeps.next
    | apply OutKeeps.ite
    | apply Keeps.ite
    | (fail_if_no_progress refine Keeps.upd ?_ rfl (by first | exact le_refl _ | exact le_max_left _ _ | exact Nat.le_succ _) (by first | exact le_refl _ | exact Nat.le_succ _) rfl rfl)
    | split
    | dsimp only

theorem execCommandTimer_keeps {x0 : State} (m : MbxId) {s : State} (hk : Keeps x0 s) : OutKeeps x0 (execCommandTimer m s) := by
  unfold execCommandTimer
  try dsimp only
  repeat' with_reducible first
    | exact hk
    | assumption
    | apply quietStep_keeps
    | apply timerFires_keeps
    | apply State.atLeast_keeps
    | apply OutKeeps.next
    | apply OutKeeps.ite
    | apply Keeps.ite
    | (fail_if_no_progress refine Keeps.upd ?_ rfl (by first | exact le_refl _ | exact le_max_left _ _ | exact Nat.le_succ _) (by first | exact le_refl _ | exact Nat.le_succ _) rfl rfl)
    | split
    | dsimp only

theorem execManagementSramUncorrectable_keeps {x0 : State} (word : SramWord) {s : State} (hk : Keeps x0 s) : OutKeeps x0 (execManagementSramUncorrectable word s) := by
  unfold execManagementSramUncorrectable
  try dsimp only
  repeat' with_reducible first
    | exact hk
    | assumption
    | apply mgmtReset_keeps
    | apply State.raise_keeps
    | apply State.sat_keeps
    | apply sramClear_keeps
    | apply State.modMbx_keeps
    | apply detach_keeps
    | apply completeWith_keeps
    | apply OutKeeps.next
    | apply OutKeeps.ite
    | apply Keeps.ite
    | (fail_if_no_progress refine Keeps.upd ?_ rfl (by first | exact le_refl _ | exact le_max_left _ _ | exact Nat.le_succ _) (by first | exact le_refl _ | exact Nat.le_succ _) rfl rfl)
    | split
    | dsimp only

end Sys2Proof.Machine
end

