-- ==== Sys2Proof/Laws/KeepsCfgReg.lean ====
section
/-! SUPPORT. What the operations of Machine/CfgReg.lean keep (Keeps of Safety.lean). -/
namespace Sys2Proof.Machine
open Sys2Proof

set_option linter.all false

theorem mbxWrite_keeps {x0 : State} (src : ℕ) (m : ℕ) (k : ℕ) (off : ℕ) (b : Reg32) (v : Reg32) {s : State} (hk : Keeps x0 s) : Keeps x0 (mbxWrite src m k off b v s).2 := by
  unfold mbxWrite
  try dsimp only
  repeat' with_reducible first
    | exact hk
    | assumption
    | apply deny_keeps
    | apply State.sat_keeps
    | apply sramClear_keeps
    | apply State.setReg_keeps
    | apply ring_keeps
    | apply State.wr_keeps
    | apply Keeps.ite
    | (refine Keeps.foldlFst _ ?_ (fun a e k => ?_))
    | (refine Keeps.foldlSnd _ ?_ (fun a e k => ?_))
    | split
    | dsimp only

theorem resetPorts_keeps {x0 : State} (src : ℕ) (ones : ℕ) {s : State} (hk : Keeps x0 s) : Keeps x0 (resetPorts src ones s) := by
  unfold resetPorts
  try dsimp only
  repeat' with_reducible first
    | exact hk
    | assumption
    | apply State.modPort_keeps
    | apply portReset_keeps
    | apply Keeps.ite
    | (refine Keeps.forUpto _ ?_ (fun i a k => ?_))
    | (fail_if_no_progress refine Keeps.upd ?_ rfl (by first | exact le_refl _ | exact le_max_left _ _ | exact Nat.le_succ _) (by first | exact le_refl _ | exact Nat.le_succ _) rfl rfl)
    | split
    | dsimp only

theorem askPavResets_keeps {x0 : State} (ones : ℕ) {s : State} (hk : Keeps x0 s) : Keeps x0 (askPavResets ones s) := by
  unfold askPavResets
  try dsimp only
  repeat' with_reducible first
    | exact hk
    | assumption
    | apply abortTsv_keeps
    | apply abortSlice_keeps
    | apply State.modPav_keeps
    | apply Keeps.ite
    | (refine Keeps.forUpto _ ?_ (fun i a k => ?_))
    | (fail_if_no_progress refine Keeps.upd ?_ rfl (by first | exact le_refl _ | exact le_max_left _ _ | exact Nat.le_succ _) (by first | exact le_refl _ | exact Nat.le_succ _) rfl rfl)
    | split
    | dsimp only

theorem glbWrite_keeps {x0 : State} (src : ℕ) (off : ℕ) (fs : List FieldRow) (b : Reg32) (v : Reg32) {s : State} (hk : Keeps x0 s) : Keeps x0 (glbWrite src off fs b v s).2 := by
  unfold glbWrite
  try dsimp only
  repeat' with_reducible first
    | exact hk
    | assumption
    | apply State.setReg_keeps
    | apply mgmtReset_keeps
    | (refine putSteward_keeps _ _ ?_ _ (by assumption))
    | apply stage_keeps
    | (refine commitMask_keeps _ _ _ _ ?_ _ (by assumption))
    | (refine commitSignpost_keeps _ _ _ ?_ _ (by assumption))
    | apply setLearn_keeps
    | apply resetPorts_keeps
    | apply askPavResets_keeps
    | apply putAtTurn_keeps
    | apply Keeps.ite
    | (refine Keeps.foldlFst _ ?_ (fun a e k => ?_))
    | (refine Keeps.foldlSnd _ ?_ (fun a e k => ?_))
    | (fail_if_no_progress refine Keeps.upd ?_ rfl (by first | exact le_refl _ | exact le_max_left _ _ | exact Nat.le_succ _) (by first | exact le_refl _ | exact Nat.le_succ _) rfl rfl)
    | split
    | dsimp only

theorem portChange_keeps {x0 : State} (src : ℕ) (n : ℕ) (d : Delayed) {s : State} (hk : Keeps x0 s) : Keeps x0 (portChange src n d s) := by
  unfold portChange
  try dsimp only
  repeat' with_reducible first
    | exact hk
    | assumption
    | apply State.modPort_keeps
    | apply applyDelayed_keeps
    | apply Keeps.ite
    | (fail_if_no_progress refine Keeps.upd ?_ rfl (by first | exact le_refl _ | exact le_max_left _ _ | exact Nat.le_succ _) (by first | exact le_refl _ | exact Nat.le_succ _) rfl rfl)
    | split
    | dsimp only

theorem prbsWrite_keeps {x0 : State} (n : ℕ) (new : Reg32) (clr : Bool) {s : State} (hk : Keeps x0 s) : Keeps x0 (prbsWrite n new clr s) := by
  unfold prbsWrite
  try dsimp only
  repeat' with_reducible first
    | exact hk
    | assumption
    | apply State.setReg_keeps
    | apply State.modLane_keeps
    | apply prbsUnlock_keeps
    | apply prbsSync_keeps
    | apply Keeps.ite
    | (refine Keeps.forUpto _ ?_ (fun i a k => ?_))
    | (fail_if_no_progress refine Keeps.upd ?_ rfl (by first | exact le_refl _ | exact le_max_left _ _ | exact Nat.le_succ _) (by first | exact le_refl _ | exact Nat.le_succ _) rfl rfl)
    | split
    | dsimp only

theorem injWrite_keeps {x0 : State} (n : ℕ) (new : Reg32) {s : State} (hk : Keeps x0 s) : Keeps x0 (injWrite n new s) := by
  unfold injWrite
  try dsimp only
  repeat' with_reducible first
    | exact hk
    | assumption
    | apply State.setReg_keeps
    | apply injectEnd_keeps
    | apply injectLane_keeps
    | apply State.modLane_keeps
    | (refine Keeps.forUpto _ ?_ (fun i a k => ?_))
    | (fail_if_no_progress refine Keeps.upd ?_ rfl (by first | exact le_refl _ | exact le_max_left _ _ | exact Nat.le_succ _) (by first | exact le_refl _ | exact Nat.le_succ _) rfl rfl)
    | dsimp only

theorem laneCtrlWrite_keeps {x0 : State} (src : ℕ) (n : ℕ) (p : ℕ) (new : Reg32) {s : State} (hk : Keeps x0 s) : Keeps x0 (laneCtrlWrite src n p new s) := by
  unfold laneCtrlWrite
  try dsimp only
  repeat' with_reducible first
    | exact hk
    | assumption
    | apply setEdge_keeps
    | apply State.setReg_keeps
    | apply portChange_keeps
    | apply Keeps.ite
    | split
    | dsimp only

theorem linkCtrlWrite_keeps {x0 : State} (src : ℕ) (n : ℕ) (new : Reg32) (ones : Reg32) {s : State} (hk : Keeps x0 s) : Keeps x0 (linkCtrlWrite src n new ones s) := by
  unfold linkCtrlWrite
  try dsimp only
  repeat' with_reducible first
    | exact hk
    | assumption
    | apply State.setReg_keeps
    | apply portChange_keeps
    | apply Keeps.ite
    | split
    | dsimp only

theorem poolCtrlWrite_keeps {x0 : State} (src : ℕ) (n : ℕ) (new : Reg32) {s : State} (hk : Keeps x0 s) : Keeps x0 (poolCtrlWrite src n new s) := by
  unfold poolCtrlWrite
  try dsimp only
  repeat' with_reducible first
    | exact hk
    | assumption
    | apply State.setReg_keeps
    | apply portChange_keeps
    | apply Keeps.ite
    | split
    | dsimp only

theorem prtWrite_keeps {x0 : State} (src : ℕ) (off : ℕ) (fs : List FieldRow) (b : Reg32) (v : Reg32) {s : State} (hk : Keeps x0 s) : Keeps x0 (prtWrite src off fs b v s) := by
  unfold prtWrite
  try dsimp only
  repeat' with_reducible first
    | exact hk
    | assumption
    | apply prbsWrite_keeps
    | apply injWrite_keeps
    | apply linkCtrlWrite_keeps
    | apply poolCtrlWrite_keeps
    | apply laneCtrlWrite_keeps
    | apply State.modLane_keeps
    | apply State.setReg_keeps
    | apply Keeps.ite
    | (fail_if_no_progress refine Keeps.upd ?_ rfl (by first | exact le_refl _ | exact le_max_left _ _ | exact Nat.le_succ _) (by first | exact le_refl _ | exact Nat.le_succ _) rfl rfl)
    | split
    | dsimp only

theorem restWrite_keeps {x0 : State} (src : ℕ) (off : ℕ) (fs : List FieldRow) (b : Reg32) (v : Reg32) {s : State} (hk : Keeps x0 s) : Keeps x0 (restWrite src off fs b v s) := by
  unfold restWrite
  try dsimp only
  repeat' with_reducible first
    | exact hk
    | assumption
    | apply setSource_keeps
    | apply putAtTurn_keeps
    | apply setExternal_keeps
    | apply setHostThr_keeps
    | apply askHaltClear_keeps
    | apply setRoute_keeps
    | apply State.setReg_keeps
    | apply monDiscard_keeps
    | apply clearRepeats_keeps
    | apply Keeps.ite
    | split
    | dsimp only

theorem regWrite_keeps {x0 : State} (src : ℕ) (off : ℕ) (be : BitVec 4) (v : Reg32) {s : State} (hk : Keeps x0 s) : Keeps x0 (regWrite src off be v s).2 := by
  unfold regWrite
  try dsimp only
  repeat' with_reducible first
    | exact hk
    | assumption
    | (refine Keeps.snd (p := mbxWrite _ _ _ _ _ _ _) (by assumption) ?_)
    | apply mbxWrite_keeps
    | apply deny_keeps
    | (refine Keeps.snd (p := glbWrite _ _ _ _ _ _) (by assumption) ?_)
    | apply glbWrite_keeps
    | apply prtWrite_keeps
    | apply restWrite_keeps
    | apply Keeps.ite
    | (refine Keeps.foldlFst _ ?_ (fun a e k => ?_))
    | (refine Keeps.foldlSnd _ ?_ (fun a e k => ?_))
    | (fail_if_no_progress refine Keeps.upd ?_ rfl (by first | exact le_refl _ | exact le_max_left _ _ | exact Nat.le_succ _) (by first | exact le_refl _ | exact Nat.le_succ _) rfl rfl)
    | split
    | dsimp only

theorem readEffects_keeps {x0 : State} (off : ℕ) {s : State} (hk : Keeps x0 s) : Keeps x0 (readEffects off s) := by
  unfold readEffects
  try dsimp only
  repeat' with_reducible first
    | exact hk
    | assumption
    | apply State.modMon_keeps
    | apply State.modLane_keeps
    | apply State.modPav_keeps
    | apply State.wr_keeps
    | apply Keeps.ite
    | (fail_if_no_progress refine Keeps.upd ?_ rfl (by first | exact le_refl _ | exact le_max_left _ _ | exact Nat.le_succ _) (by first | exact le_refl _ | exact Nat.le_succ _) rfl rfl)
    | split
    | dsimp only

theorem regRead_keeps {x0 : State} (src : ℕ) (off : ℕ) {s : State} (hk : Keeps x0 s) : Keeps x0 (regRead src off s).2 := by
  unfold regRead
  try dsimp only
  repeat' with_reducible first
    | exact hk
    | assumption
    | apply adaptRx_keeps
    | (refine Keeps.snd (p := sramMeets _ _ _) (by assumption) ?_)
    | apply sramMeets_keeps
    | apply State.setReg_keeps
    | apply readEffects_keeps
    | apply Keeps.ite
    | (refine Keeps.foldlFst _ ?_ (fun a e k => ?_))
    | (refine Keeps.foldlSnd _ ?_ (fun a e k => ?_))
    | (fail_if_no_progress refine Keeps.upd ?_ rfl (by first | exact le_refl _ | exact le_max_left _ _ | exact Nat.le_succ _) (by first | exact le_refl _ | exact Nat.le_succ _) rfl rfl)
    | split
    | dsimp only

theorem sbStop_keeps {x0 : State} {s : State} (hk : Keeps x0 s) : Keeps x0 (sbStop s) := by
  unfold sbStop
  try dsimp only
  repeat' with_reducible first
    | exact hk
    | assumption
    | apply State.wr_keeps
    | apply State.sat_keeps
    | (fail_if_no_progress refine Keeps.upd ?_ rfl (by first | exact le_refl _ | exact le_max_left _ _ | exact Nat.le_succ _) (by first | exact le_refl _ | exact Nat.le_succ _) rfl rfl)
    | dsimp only

theorem sbResult_keeps {x0 : State} (code : ℕ) (write : Bool) (off : ℕ) {s : State} (hk : Keeps x0 s) : Keeps x0 (sbResult code write off s) := by
  unfold sbResult
  try dsimp only
  repeat' with_reducible first
    | exact hk
    | assumption
    | apply State.wr_keeps
    | dsimp only

theorem sbTimeout_keeps {x0 : State} (write : Bool) (off : ℕ) {s : State} (hk : Keeps x0 s) : Keeps x0 (sbTimeout write off s) := by
  unfold sbTimeout
  try dsimp only
  repeat' with_reducible first
    | exact hk
    | assumption
    | apply State.raise_keeps
    | apply State.sat_keeps
    | apply sbResult_keeps
    | dsimp only

theorem sbAnswer_keeps {x0 : State} (code : Byte) (data : List Byte) {s : State} (hk : Keeps x0 s) : Keeps x0 (sbAnswer code data s) := by
  unfold sbAnswer
  try dsimp only
  repeat' with_reducible first
    | exact hk
    | assumption
    | (fail_if_no_progress refine Keeps.upd ?_ rfl (by first | exact le_refl _ | exact le_max_left _ _ | exact Nat.le_succ _) (by first | exact le_refl _ | exact Nat.le_succ _) rfl rfl)
    | dsimp only

theorem sbCode_keeps {x0 : State} (st : BitVec 4) {s : State} (hk : Keeps x0 s) : Keeps x0 (sbCode st s).2 := by
  unfold sbCode
  try dsimp only [State.drawFree, State.drawEntropy]
  repeat' with_reducible first
    | exact hk
    | assumption
    | (refine Keeps.snd (p := State.drawFree _) (by assumption) ?_)
    | apply State.drawFree_keeps
    | apply Keeps.ite
    | (refine Keeps.foldlFst _ ?_ (fun a e k => ?_))
    | (refine Keeps.foldlSnd _ ?_ (fun a e k => ?_))
    | (fail_if_no_progress refine Keeps.upd ?_ rfl (by first | exact le_refl _ | exact le_max_left _ _ | exact Nat.le_succ _) (by first | exact le_refl _ | exact Nat.le_succ _) rfl rfl)
    | split
    | dsimp only

theorem freeBytes_keeps {x0 : State} (n : ℕ) {s : State} (hk : Keeps x0 s) : Keeps x0 (freeBytes n s).2 := by
  unfold freeBytes
  try dsimp only [State.drawFree, State.drawEntropy]
  repeat' with_reducible first
    | exact hk
    | assumption
    | (refine Keeps.snd (p := State.drawFree _) (by assumption) ?_)
    | apply State.drawFree_keeps
    | (refine Keeps.foldl _ ?_ (fun a e k => ?_))
    | (refine Keeps.foldlFst _ ?_ (fun a e k => ?_))
    | (refine Keeps.foldlSnd _ ?_ (fun a e k => ?_))
    | (fail_if_no_progress refine Keeps.upd ?_ rfl (by first | exact le_refl _ | exact le_max_left _ _ | exact Nat.le_succ _) (by first | exact le_refl _ | exact Nat.le_succ _) rfl rfl)
    | dsimp only

theorem sbAdvance_keeps {x0 : State} {s : State} (hk : Keeps x0 s) : Keeps x0 (sbAdvance s) := by
  unfold sbAdvance
  try dsimp only
  repeat' with_reducible first
    | exact hk
    | assumption
    | apply State.wr_keeps
    | dsimp only

theorem sbMbxGet_keeps {x0 : State} (code : Byte) (off : ℕ) (n : ℕ) (data : List Byte) (move : State → State) {s : State} (hk : Keeps x0 s) (hmove : ∀ a, Keeps x0 a → Keeps x0 (move a)) : Keeps x0 (sbMbxGet code off n data move s) := by
  unfold sbMbxGet
  try dsimp only
  repeat' with_reducible first
    | exact hk
    | assumption
    | apply hmove
    | (refine Keeps.snd (p := freeBytes _ _) (by assumption) ?_)
    | apply freeBytes_keeps
    | apply deny_keeps
    | apply sbAnswer_keeps
    | apply sbResult_keeps
    | apply Keeps.ite
    | split
    | dsimp only

theorem sbServe_keeps {x0 : State} (a : SbAccess) {s : State} (hk : Keeps x0 s) : Keeps x0 (sbServe a s) := by
  unfold sbServe
  try dsimp only
  repeat' with_reducible first
    | exact hk
    | assumption
    | (refine Keeps.snd (p := regRead _ _ _) (by assumption) ?_)
    | apply regRead_keeps
    | apply sbAdvance_keeps
    | apply sbAnswer_keeps
    | apply sbResult_keeps
    | apply sbMbxGet_keeps
    | apply State.wr_keeps
    | (refine Keeps.snd (p := regWrite _ _ _ _ _) (by assumption) ?_)
    | apply regWrite_keeps
    | (refine Keeps.snd (p := sbCode _ _) (by assumption) ?_)
    | apply sbCode_keeps
    | (refine Keeps.foldl _ ?_ (fun a e k => ?_))
    | (refine Keeps.foldlFst _ ?_ (fun a e k => ?_))
    | (refine Keeps.foldlSnd _ ?_ (fun a e k => ?_))
    | (fail_if_no_progress refine Keeps.upd ?_ rfl (by first | exact le_refl _ | exact le_max_left _ _ | exact Nat.le_succ _) (by first | exact le_refl _ | exact Nat.le_succ _) rfl rfl)
    | split
    | dsimp only
    | intro _ _

theorem sbExpire_keeps {x0 : State} (a : SbAccess) {s : State} (hk : Keeps x0 s) : Keeps x0 (sbExpire a s) := by
  unfold sbExpire
  try dsimp only
  repeat' with_reducible first
    | exact hk
    | assumption
    | apply sbTimeout_keeps
    | apply sbStop_keeps
    | (fail_if_no_progress refine Keeps.upd ?_ rfl (by first | exact le_refl _ | exact le_max_left _ _ | exact Nat.le_succ _) (by first | exact le_refl _ | exact Nat.le_succ _) rfl rfl)
    | split
    | dsimp only

theorem applyLate_keeps {x0 : State} {s : State} (hk : Keeps x0 s) : Keeps x0 (applyLate s) := by
  unfold applyLate
  try dsimp only
  repeat' with_reducible first
    | exact hk
    | assumption
    | (refine Keeps.snd (p := regWrite _ _ _ _ _) (by assumption) ?_)
    | apply regWrite_keeps
    | apply Keeps.ite
    | (refine Keeps.foldl _ ?_ (fun a e k => ?_))
    | (refine Keeps.foldlFst _ ?_ (fun a e k => ?_))
    | (refine Keeps.foldlSnd _ ?_ (fun a e k => ?_))
    | (fail_if_no_progress refine Keeps.upd ?_ rfl (by first | exact le_refl _ | exact le_max_left _ _ | exact Nat.le_succ _) (by first | exact le_refl _ | exact Nat.le_succ _) rfl rfl)
    | split
    | dsimp only

theorem sbHand_keeps {x0 : State} {s : State} (hk : Keeps x0 s) : Keeps x0 (sbHand s) := by
  unfold sbHand
  try dsimp only
  repeat' with_reducible first
    | exact hk
    | assumption
    | apply sbExpire_keeps
    | apply sbServe_keeps
    | apply sbStop_keeps
    | apply Keeps.ite
    | (fail_if_no_progress refine Keeps.upd ?_ rfl (by first | exact le_refl _ | exact le_max_left _ _ | exact Nat.le_succ _) (by first | exact le_refl _ | exact Nat.le_succ _) rfl rfl)
    | split
    | dsimp only

theorem lateWrites_keeps {x0 : State} {s : State} (hk : Keeps x0 s) : Keeps x0 (lateWrites s) := by
  unfold lateWrites
  try dsimp only
  repeat' with_reducible first
    | exact hk
    | assumption
    | apply applyLate_keeps
    | apply sbHand_keeps
    | apply Keeps.ite
    | split
    | dsimp only

theorem sbReady_keeps {x0 : State} {s : State} (hk : Keeps x0 s) : Keeps x0 (sbReady s) := by
  unfold sbReady
  try dsimp only
  repeat' with_reducible first
    | exact hk
    | assumption
    | apply lateWrites_keeps
    | apply sbExpire_keeps
    | apply State.atLeast_keeps
    | apply Keeps.ite
    | (fail_if_no_progress refine Keeps.upd ?_ rfl (by first | exact le_refl _ | exact le_max_left _ _ | exact Nat.le_succ _) (by first | exact le_refl _ | exact Nat.le_succ _) rfl rfl)
    | split
    | dsimp only

theorem sbTake_keeps {x0 : State} (a : SbAccess) {s : State} (hk : Keeps x0 s) : Keeps x0 (sbTake a s) := by
  unfold sbTake
  try dsimp only
  repeat' with_reducible first
    | exact hk
    | assumption
    | apply sbServe_keeps
    | apply Keeps.ite
    | (fail_if_no_progress refine Keeps.upd ?_ rfl (by first | exact le_refl _ | exact le_max_left _ _ | exact Nat.le_succ _) (by first | exact le_refl _ | exact Nat.le_succ _) rfl rfl)
    | split
    | dsimp only

theorem cfgWrite_keeps {x0 : State} (src : ℕ) (off : ℕ) (be : BitVec 4) (v : Reg32) {s : State} (hk : Keeps x0 s) : OutKeeps x0 (cfgWrite src off be v s) := by
  unfold cfgWrite
  try dsimp only
  repeat' with_reducible first
    | exact hk
    | assumption
    | (refine Keeps.snd (p := regWrite _ _ _ _ _) (by assumption) ?_)
    | apply regWrite_keeps
    | apply lateWrites_keeps
    | apply quietStep_keeps
    | apply OutKeeps.next
    | apply OutKeeps.ite
    | apply Keeps.ite
    | (fail_if_no_progress refine Keeps.upd ?_ rfl (by first | exact le_refl _ | exact le_max_left _ _ | exact Nat.le_succ _) (by first | exact le_refl _ | exact Nat.le_succ _) rfl rfl)
    | split
    | dsimp only

theorem cfgRead_keeps {x0 : State} (src : ℕ) (off : ℕ) {s : State} (hk : Keeps x0 s) : OutKeeps x0 (cfgRead src off s) := by
  unfold cfgRead
  try dsimp only
  repeat' with_reducible first
    | exact hk
    | assumption
    | (refine Keeps.snd (p := regRead _ _ _) (by assumption) ?_)
    | apply regRead_keeps
    | apply lateWrites_keeps
    | apply quietStep_keeps
    | apply OutKeeps.next
    | apply OutKeeps.ite
    | apply Keeps.ite
    | (fail_if_no_progress refine Keeps.upd ?_ rfl (by first | exact le_refl _ | exact le_max_left _ _ | exact Nat.le_succ _) (by first | exact le_refl _ | exact Nat.le_succ _) rfl rfl)
    | split
    | dsimp only

end Sys2Proof.Machine
end

