-- ==== Sys2Proof/Laws/KeepsTxn.lean ====
section
/-! SUPPORT. What the operations of Machine/Txn.lean keep (Keeps of Safety.lean). -/
namespace Sys2Proof.Machine
open Sys2Proof

set_option linter.all false

theorem modTxn_keeps {x0 : State} (n : ℕ) (serial : ℕ) (f : Txn → Txn) {s : State} (hk : Keeps x0 s) : Keeps x0 (modTxn n serial f s) := by
  unfold modTxn
  try dsimp only
  repeat' with_reducible first
    | exact hk
    | assumption
    | apply State.modPort_keeps
    | apply Keeps.ite
    | (fail_if_no_progress refine Keeps.upd ?_ rfl (by first | exact le_refl _ | exact le_max_left _ _ | exact Nat.le_succ _) (by first | exact le_refl _ | exact Nat.le_succ _) rfl rfl)
    | split
    | dsimp only

theorem endTxn_keeps {x0 : State} (n : ℕ) (serial : ℕ) {s : State} (hk : Keeps x0 s) : Keeps x0 (endTxn n serial s) := by
  unfold endTxn
  try dsimp only
  repeat' with_reducible first
    | exact hk
    | assumption
    | apply State.modPort_keeps
    | (fail_if_no_progress refine Keeps.upd ?_ rfl (by first | exact le_refl _ | exact le_max_left _ _ | exact Nat.le_succ _) (by first | exact le_refl _ | exact Nat.le_succ _) rfl rfl)
    | split
    | dsimp only

theorem answer_keeps {x0 : State} (n : ℕ) (t : Txn) (r : ReadyRsp) {s : State} (hk : Keeps x0 s) : Keeps x0 (answer n t r s) := by
  unfold answer
  try dsimp only
  repeat' with_reducible first
    | exact hk
    | assumption
    | apply pushReady_keeps
    | apply endTxn_keeps
    | apply Keeps.ite
    | split
    | dsimp only

theorem complete_keeps {x0 : State} (n : ℕ) (t : Txn) (status : BitVec 4) {s : State} (hk : Keeps x0 s) : Keeps x0 (complete n t status s) := by
  unfold complete
  try dsimp only
  repeat' with_reducible first
    | exact hk
    | assumption
    | apply answer_keeps
    | dsimp only

theorem countRefusal_keeps {x0 : State} (n : ℕ) (op : ℕ) (tc : ℕ) (status : BitVec 4) (loop : Bool) {s : State} (hk : Keeps x0 s) : Keeps x0 (countRefusal n op tc status loop s) := by
  unfold countRefusal
  try dsimp only
  repeat' with_reducible first
    | exact hk
    | assumption
    | apply State.raise_keeps
    | apply State.sat_keeps
    | apply Keeps.ite
    | split
    | dsimp only

theorem refuseDone_keeps {x0 : State} (n : ℕ) (t : Txn) {s : State} (hk : Keeps x0 s) : Keeps x0 (refuseDone n t s) := by
  unfold refuseDone
  try dsimp only
  repeat' with_reducible first
    | exact hk
    | assumption
    | apply complete_keeps
    | apply giveBack_keeps
    | (fail_if_no_progress refine Keeps.upd ?_ rfl (by first | exact le_refl _ | exact le_max_left _ _ | exact Nat.le_succ _) (by first | exact le_refl _ | exact Nat.le_succ _) rfl rfl)
    | split
    | dsimp only

theorem dropMsg_keeps {x0 : State} (n : ℕ) (tc : ℕ) {s : State} (hk : Keeps x0 s) : Keeps x0 (dropMsg n tc s) := by
  unfold dropMsg
  try dsimp only
  repeat' with_reducible first
    | exact hk
    | assumption
    | apply giveBack_keeps
    | apply State.raise_keeps
    | apply State.sat_keeps
    | dsimp only

theorem oweData_keeps {x0 : State} (n : ℕ) (k : ℕ) (who : OwedBy) (tc : BitVec 2) {s : State} (hk : Keeps x0 s) : Keeps x0 (oweData n k who tc s) := by
  unfold oweData
  try dsimp only
  repeat' with_reducible first
    | exact hk
    | assumption
    | apply State.modPort_keeps
    | apply Keeps.ite
    | (fail_if_no_progress refine Keeps.upd ?_ rfl (by first | exact le_refl _ | exact le_max_left _ _ | exact Nat.le_succ _) (by first | exact le_refl _ | exact Nat.le_succ _) rfl rfl)
    | split
    | dsimp only

theorem addTxn_keeps {x0 : State} (n : ℕ) (t : Txn) {s : State} (hk : Keeps x0 s) : Keeps x0 (addTxn n t s) := by
  unfold addTxn
  try dsimp only
  repeat' with_reducible first
    | exact hk
    | assumption
    | apply State.modPort_keeps
    | (fail_if_no_progress refine Keeps.upd ?_ rfl (by first | exact le_refl _ | exact le_max_left _ _ | exact Nat.le_succ _) (by first | exact le_refl _ | exact Nat.le_succ _) rfl rfl)
    | dsimp only

theorem takeRequest_keeps {x0 : State} (n : ℕ) (slot0 : BitVec 80) {s : State} (hk : Keeps x0 s) : Keeps x0 (takeRequest n slot0 s) := by
  unfold takeRequest
  try dsimp only
  repeat' with_reducible first
    | exact hk
    | assumption
    | apply addTxn_keeps
    | apply oweData_keeps
    | apply dropMsg_keeps
    | apply State.modPort_keeps
    | apply countRefusal_keeps
    | apply refuseDone_keeps
    | apply Keeps.ite
    | (fail_if_no_progress refine Keeps.upd ?_ rfl (by first | exact le_refl _ | exact le_max_left _ _ | exact Nat.le_succ _) (by first | exact le_refl _ | exact Nat.le_succ _) rfl rfl)
    | split
    | dsimp only

theorem relayOn_keeps {x0 : State} (e : ℕ) (c : Ctx) (slot : RspSlot) (op : BitVec 6) (final : Bool) (data : List Line) {s : State} (hk : Keeps x0 s) : Keeps x0 (relayOn e c slot op final data s) := by
  unfold relayOn
  try dsimp only
  repeat' with_reducible first
    | exact hk
    | assumption
    | apply answer_keeps
    | apply rspLeaves_keeps
    | apply State.sat_keeps
    | apply State.modPort_keeps
    | apply Keeps.ite
    | (fail_if_no_progress refine Keeps.upd ?_ rfl (by first | exact le_refl _ | exact le_max_left _ _ | exact Nat.le_succ _) (by first | exact le_refl _ | exact Nat.le_succ _) rfl rfl)
    | split
    | dsimp only

theorem relayDrop_keeps {x0 : State} (e : ℕ) (r : Relay) {s : State} (hk : Keeps x0 s) : Keeps x0 (relayDrop e r s) := by
  unfold relayDrop
  try dsimp only
  repeat' with_reducible first
    | exact hk
    | assumption
    | apply State.modPort_keeps
    | apply rspLeaves_keeps
    | apply Keeps.ite
    | (fail_if_no_progress refine Keeps.upd ?_ rfl (by first | exact le_refl _ | exact le_max_left _ _ | exact Nat.le_succ _) (by first | exact le_refl _ | exact Nat.le_succ _) rfl rfl)
    | split
    | dsimp only

theorem relayFlush_keeps {x0 : State} (e : ℕ) (a1 : ℕ) {a2 : State} (hk : Keeps x0 a2) : Keeps x0 (relayFlush e a1 a2) := by
  induction a1 generalizing a2 with
  | zero => unfold relayFlush; exact hk
  | succ k ih =>
    unfold relayFlush
    try dsimp only
    repeat' with_reducible first
      | exact hk
      | apply ih
      | assumption
      | apply relayOn_keeps
      | apply State.modPort_keeps
      | apply relayDrop_keeps
      | apply Keeps.ite
      | (fail_if_no_progress refine Keeps.upd ?_ rfl (by first | exact le_refl _ | exact le_max_left _ _ | exact Nat.le_succ _) (by first | exact le_refl _ | exact Nat.le_succ _) rfl rfl)
      | split
      | dsimp only

theorem takeResponse_keeps {x0 : State} (e : ℕ) (raw : BitVec 80) {s : State} (hk : Keeps x0 s) : Keeps x0 (takeResponse e raw s) := by
  unfold takeResponse
  try dsimp only
  repeat' with_reducible first
    | exact hk
    | assumption
    | apply giveBack_keeps
    | apply State.raise_keeps
    | apply State.sat_keeps
    | apply oweData_keeps
    | apply State.modPort_keeps
    | apply relayFlush_keeps
    | apply Keeps.ite
    | (fail_if_no_progress refine Keeps.upd ?_ rfl (by first | exact le_refl _ | exact le_max_left _ _ | exact Nat.le_succ _) (by first | exact le_refl _ | exact Nat.le_succ _) rfl rfl)
    | split
    | dsimp only

theorem takeData_keeps {x0 : State} (n : ℕ) (d : Line) {s : State} (hk : Keeps x0 s) : Keeps x0 (takeData n d s) := by
  unfold takeData
  try dsimp only
  repeat' with_reducible first
    | exact hk
    | assumption
    | apply State.raise_keeps
    | apply State.sat_keeps
    | apply State.modPort_keeps
    | apply giveBack_keeps
    | apply modTxn_keeps
    | apply refuseDone_keeps
    | apply relayFlush_keeps
    | apply Keeps.ite
    | (fail_if_no_progress refine Keeps.upd ?_ rfl (by first | exact le_refl _ | exact le_max_left _ _ | exact Nat.le_succ _) (by first | exact le_refl _ | exact Nat.le_succ _) rfl rfl)
    | split
    | dsimp only

theorem takeSlot_keeps {x0 : State} (n : ℕ) (age : ℕ) (slot : BitVec 80) {s : State} (hk : Keeps x0 s) : Keeps x0 (takeSlot n age slot s) := by
  unfold takeSlot
  try dsimp only
  repeat' with_reducible first
    | exact hk
    | assumption
    | apply takeRequest_keeps
    | apply takeResponse_keeps
    | apply takeCredit_keeps
    | apply takeTurn_keeps
    | apply takePower_keeps
    | apply enterRecovery_keeps
    | apply retryPositions_keeps
    | apply Keeps.ite
    | split
    | dsimp only

theorem takeSlots_keeps {x0 : State} (n : ℕ) (age : ℕ) (slots : List (BitVec 80)) (data : Option Line) {s : State} (hk : Keeps x0 s) : Keeps x0 (takeSlots n age slots data s) := by
  unfold takeSlots
  try dsimp only
  repeat' with_reducible first
    | exact hk
    | assumption
    | apply State.wr_keeps
    | apply takeSlot_keeps
    | apply takeData_keeps
    | apply linkDown_keeps
    | apply Keeps.ite
    | (refine Keeps.foldl _ ?_ (fun a e k => ?_))
    | (fail_if_no_progress refine Keeps.upd ?_ rfl (by first | exact le_refl _ | exact le_max_left _ _ | exact Nat.le_succ _) (by first | exact le_refl _ | exact Nat.le_succ _) rfl rfl)
    | split
    | dsimp only

theorem handLine_keeps {x0 : State} (n : ℕ) (t : Txn) (loc : Loc) (i : ℕ) (op : LineOp) {s : State} (hk : Keeps x0 s) : Keeps x0 (handLine n t loc i op s) := by
  unfold handLine
  try dsimp only
  repeat' with_reducible first
    | exact hk
    | assumption
    | (fail_if_no_progress refine Keeps.upd ?_ rfl (by first | exact le_refl _ | exact le_max_left _ _ | exact Nat.le_succ _) (by first | exact le_refl _ | exact Nat.le_succ _) rfl rfl)
    | dsimp only

theorem refuseLate_keeps {x0 : State} (n : ℕ) (t : Txn) (st : BitVec 4) (loop : Bool) {s : State} (hk : Keeps x0 s) : Keeps x0 (refuseLate n t st loop s) := by
  unfold refuseLate
  try dsimp only
  repeat' with_reducible first
    | exact hk
    | assumption
    | apply countRefusal_keeps
    | apply modTxn_keeps
    | apply giveBack_keeps
    | apply refuseDone_keeps
    | apply Keeps.ite
    | (fail_if_no_progress refine Keeps.upd ?_ rfl (by first | exact le_refl _ | exact le_max_left _ _ | exact Nat.le_succ _) (by first | exact le_refl _ | exact Nat.le_succ _) rfl rfl)
    | split
    | dsimp only

theorem handLines_keeps {x0 : State} (n : ℕ) (serial : ℕ) (a2 : ℕ) {a3 : State} (hk : Keeps x0 a3) : Keeps x0 (handLines n serial a2 a3).1 := by
  induction a2 generalizing a3 with
  | zero => unfold handLines; exact hk
  | succ k ih =>
    unfold handLines
    try dsimp only
    repeat' with_reducible first
      | exact hk
      | apply ih
      | assumption
      | apply handLine_keeps
      | apply modTxn_keeps
      | apply Keeps.ite
      | (refine Keeps.foldlFst _ ?_ (fun a e k => ?_))
      | (refine Keeps.foldlSnd _ ?_ (fun a e k => ?_))
      | (fail_if_no_progress refine Keeps.upd ?_ rfl (by first | exact le_refl _ | exact le_max_left _ _ | exact Nat.le_succ _) (by first | exact le_refl _ | exact Nat.le_succ _) rfl rfl)
      | split
      | dsimp only

theorem sendFrom_keeps {x0 : State} (k : ℕ) {s : State} (hk : Keeps x0 s) : Keeps x0 (sendFrom k s) := by
  unfold sendFrom
  try dsimp only
  repeat' with_reducible first
    | exact hk
    | assumption
    | apply State.atLeast_keeps
    | (fail_if_no_progress refine Keeps.upd ?_ rfl (by first | exact le_refl _ | exact le_max_left _ _ | exact Nat.le_succ _) (by first | exact le_refl _ | exact Nat.le_succ _) rfl rfl)
    | dsimp only

theorem arbGranted_keeps {x0 : State} (dest : ℕ) (cls : ℕ) (agent : ℕ) {s : State} (hk : Keeps x0 s) : Keeps x0 (arbGranted dest cls agent s) := by
  unfold arbGranted
  try dsimp only
  repeat' with_reducible first
    | exact hk
    | assumption
    | (fail_if_no_progress refine Keeps.upd ?_ rfl (by first | exact le_refl _ | exact le_max_left _ _ | exact Nat.le_succ _) (by first | exact le_refl _ | exact Nat.le_succ _) rfl rfl)
    | dsimp only

theorem serveCfg_keeps {x0 : State} (n : ℕ) (t : Txn) {s : State} (hk : Keeps x0 s) : Keeps x0 (serveCfg n t s) := by
  unfold serveCfg
  try dsimp only
  repeat' with_reducible first
    | exact hk
    | assumption
    | apply modTxn_keeps
    | apply giveBack_keeps
    | (refine Keeps.snd (p := regRead _ _ _) (by assumption) ?_)
    | apply regRead_keeps
    | apply answer_keeps
    | (refine Keeps.snd (p := regWrite _ _ _ _ _) (by assumption) ?_)
    | apply regWrite_keeps
    | apply State.modPort_keeps
    | apply countRefusal_keeps
    | apply complete_keeps
    | apply Keeps.ite
    | (fail_if_no_progress refine Keeps.upd ?_ rfl (by first | exact le_refl _ | exact le_max_left _ _ | exact Nat.le_succ _) (by first | exact le_refl _ | exact Nat.le_succ _) rfl rfl)
    | split
    | dsimp only

theorem queueFwd_keeps {x0 : State} (n : ℕ) (e : ℕ) (t : Txn) {s : State} (hk : Keeps x0 s) : Keeps x0 (queueFwd n e t s) := by
  unfold queueFwd
  try dsimp only
  repeat' with_reducible first
    | exact hk
    | assumption
    | apply State.modPort_keeps
    | apply modTxn_keeps
    | apply Keeps.ite
    | (fail_if_no_progress refine Keeps.upd ?_ rfl (by first | exact le_refl _ | exact le_max_left _ _ | exact Nat.le_succ _) (by first | exact le_refl _ | exact Nat.le_succ _) rfl rfl)
    | split
    | dsimp only

theorem dispatchTxn_keeps {x0 : State} (n : ℕ) (t : Txn) {s : State} (hk : Keeps x0 s) : Keeps x0 (dispatchTxn n t s).1 := by
  unfold dispatchTxn
  try dsimp only
  repeat' with_reducible first
    | exact hk
    | assumption
    | (refine Keeps.fst (p := handLines _ _ _ _) (by assumption) ?_)
    | apply handLines_keeps
    | apply refuseLate_keeps
    | apply modTxn_keeps
    | apply queueFwd_keeps
    | apply Keeps.ite
    | (refine Keeps.foldlFst _ ?_ (fun a e k => ?_))
    | (refine Keeps.foldlSnd _ ?_ (fun a e k => ?_))
    | (fail_if_no_progress refine Keeps.upd ?_ rfl (by first | exact le_refl _ | exact le_max_left _ _ | exact Nat.le_succ _) (by first | exact le_refl _ | exact Nat.le_succ _) rfl rfl)
    | split
    | dsimp only

theorem dispatchPort_keeps {x0 : State} (n : ℕ) {s : State} (hk : Keeps x0 s) : Keeps x0 (dispatchPort n s) := by
  unfold dispatchPort
  try dsimp only
  repeat' with_reducible first
    | exact hk
    | assumption
    | (refine Keeps.fst (p := dispatchTxn _ _ _) (by assumption) ?_)
    | apply dispatchTxn_keeps
    | apply Keeps.ite
    | (refine Keeps.foldl _ ?_ (fun a e k => ?_))
    | (refine Keeps.foldlFst _ ?_ (fun a e k => ?_))
    | (refine Keeps.foldlSnd _ ?_ (fun a e k => ?_))
    | (fail_if_no_progress refine Keeps.upd ?_ rfl (by first | exact le_refl _ | exact le_max_left _ _ | exact Nat.le_succ _) (by first | exact le_refl _ | exact Nat.le_succ _) rfl rfl)
    | split
    | dsimp only

theorem serveMgmt_keeps {x0 : State} (n : ℕ) (t : Txn) {s : State} (hk : Keeps x0 s) : Keeps x0 (serveMgmt n t s) := by
  unfold serveMgmt
  try dsimp only
  repeat' with_reducible first
    | exact hk
    | assumption
    | apply endTxn_keeps
    | apply ring_keeps
    | apply giveBack_keeps
    | apply serveCfg_keeps
    | apply Keeps.ite
    | split
    | dsimp only

theorem pumpMgmt_keeps {x0 : State} (a0 : ℕ) {a1 : State} (hk : Keeps x0 a1) : Keeps x0 (pumpMgmt a0 a1) := by
  induction a0 generalizing a1 with
  | zero => unfold pumpMgmt; exact hk
  | succ k ih =>
    unfold pumpMgmt
    try dsimp only
    repeat' with_reducible first
      | exact hk
      | apply ih
      | assumption
      | apply serveMgmt_keeps
      | apply sendFrom_keeps
      | apply arbGranted_keeps
      | apply Keeps.ite
      | (fail_if_no_progress refine Keeps.upd ?_ rfl (by first | exact le_refl _ | exact le_max_left _ _ | exact Nat.le_succ _) (by first | exact le_refl _ | exact Nat.le_succ _) rfl rfl)
      | split
      | dsimp only

theorem fenceCheck_keeps {x0 : State} (n : ℕ) {s : State} (hk : Keeps x0 s) : Keeps x0 (fenceCheck n s) := by
  unfold fenceCheck
  try dsimp only
  repeat' with_reducible first
    | exact hk
    | assumption
    | apply complete_keeps
    | apply giveBack_keeps
    | apply Keeps.ite
    | (refine Keeps.foldl _ ?_ (fun a e k => ?_))
    | (fail_if_no_progress refine Keeps.upd ?_ rfl (by first | exact le_refl _ | exact le_max_left _ _ | exact Nat.le_succ _) (by first | exact le_refl _ | exact Nat.le_succ _) rfl rfl)
    | split
    | dsimp only

theorem sendFwd_keeps {x0 : State} (n : ℕ) (e : ℕ) (w : FwdWait) {s : State} (hk : Keeps x0 s) : Keeps x0 (sendFwd n e w s) := by
  unfold sendFwd
  try dsimp only
  repeat' with_reducible first
    | exact hk
    | assumption
    | apply useTx_keeps
    | apply sendControl_keeps
    | apply sendFlit_keeps
    | apply State.modPort_keeps
    | apply modTxn_keeps
    | apply giveBack_keeps
    | (refine Keeps.foldl _ ?_ (fun a e k => ?_))
    | (fail_if_no_progress refine Keeps.upd ?_ rfl (by first | exact le_refl _ | exact le_max_left _ _ | exact Nat.le_succ _) (by first | exact le_refl _ | exact Nat.le_succ _) rfl rfl)
    | split
    | dsimp only

theorem noteStarved_keeps {x0 : State} (e : ℕ) (x : ℕ × FwdWait) {s : State} (hk : Keeps x0 s) : Keeps x0 (noteStarved e x s) := by
  unfold noteStarved
  try dsimp only
  repeat' with_reducible first
    | exact hk
    | assumption
    | apply State.modPort_keeps
    | apply stallOn_keeps
    | apply Keeps.ite
    | (fail_if_no_progress refine Keeps.upd ?_ rfl (by first | exact le_refl _ | exact le_max_left _ _ | exact Nat.le_succ _) (by first | exact le_refl _ | exact Nat.le_succ _) rfl rfl)
    | split
    | dsimp only

theorem pumpFwd_keeps {x0 : State} (e : ℕ) (a1 : ℕ) {a2 : State} (hk : Keeps x0 a2) : Keeps x0 (pumpFwd e a1 a2) := by
  induction a1 generalizing a2 with
  | zero => unfold pumpFwd; exact hk
  | succ k ih =>
    unfold pumpFwd
    try dsimp only
    repeat' with_reducible first
      | exact hk
      | apply ih
      | assumption
      | apply startParkedExit_keeps
      | apply sendFwd_keeps
      | apply noteStarved_keeps
      | apply startCoastExit_keeps
      | apply sendFrom_keeps
      | apply arbGranted_keeps
      | apply Keeps.ite
      | (refine Keeps.foldl _ ?_ (fun a e k => ?_))
      | (fail_if_no_progress refine Keeps.upd ?_ rfl (by first | exact le_refl _ | exact le_max_left _ _ | exact Nat.le_succ _) (by first | exact le_refl _ | exact Nat.le_succ _) rfl rfl)
      | split
      | dsimp only

theorem reroute_keeps {x0 : State} (n : ℕ) {s : State} (hk : Keeps x0 s) : Keeps x0 (reroute n s) := by
  unfold reroute
  try dsimp only
  repeat' with_reducible first
    | exact hk
    | assumption
    | apply State.modPort_keeps
    | apply Keeps.ite
    | (fail_if_no_progress refine Keeps.upd ?_ rfl (by first | exact le_refl _ | exact le_max_left _ _ | exact Nat.le_succ _) (by first | exact le_refl _ | exact Nat.le_succ _) rfl rfl)
    | split
    | dsimp only

theorem recheckHeld_keeps {x0 : State} (n : ℕ) (t : Txn) {s : State} (hk : Keeps x0 s) : Keeps x0 (recheckHeld n t s) := by
  unfold recheckHeld
  try dsimp only
  repeat' with_reducible first
    | exact hk
    | assumption
    | apply State.modPort_keeps
    | apply modTxn_keeps
    | apply Keeps.ite
    | (fail_if_no_progress refine Keeps.upd ?_ rfl (by first | exact le_refl _ | exact le_max_left _ _ | exact Nat.le_succ _) (by first | exact le_refl _ | exact Nat.le_succ _) rfl rfl)
    | split
    | dsimp only

theorem relocate_keeps {x0 : State} {s : State} (hk : Keeps x0 s) : Keeps x0 (relocate s) := by
  unfold relocate
  try dsimp only
  repeat' with_reducible first
    | exact hk
    | assumption
    | apply recheckHeld_keeps
    | apply Keeps.ite
    | (refine Keeps.forUpto _ ?_ (fun i a k => ?_))
    | (refine Keeps.foldl _ ?_ (fun a e k => ?_))
    | split
    | dsimp only

theorem pumpAll_keeps {x0 : State} {s : State} (hk : Keeps x0 s) : Keeps x0 (pumpAll s) := by
  unfold pumpAll
  try dsimp only
  repeat' with_reducible first
    | exact hk
    | assumption
    | apply relocate_keeps
    | apply lateWrites_keeps
    | apply dispatchPort_keeps
    | apply reroute_keeps
    | apply pumpMgmt_keeps
    | apply fenceCheck_keeps
    | apply pumpFwd_keeps
    | apply quietStep_keeps
    | apply Keeps.ite
    | (refine Keeps.forUpto _ ?_ (fun i a k => ?_))
    | split
    | dsimp only

theorem recvTxn_keeps {x0 : State} (n : ℕ) (slot : BitVec 80) (data : List Line) {s : State} (hk : Keeps x0 s) : Keeps x0 (recvTxn n slot data s) := by
  unfold recvTxn
  try dsimp only
  repeat' with_reducible first
    | exact hk
    | assumption
    | apply State.modPort_keeps
    | apply takeSlots_keeps
    | apply pumpAll_keeps
    | apply Keeps.ite
    | (refine Keeps.foldl _ ?_ (fun a e k => ?_))
    | (fail_if_no_progress refine Keeps.upd ?_ rfl (by first | exact le_refl _ | exact le_max_left _ _ | exact Nat.le_succ _) (by first | exact le_refl _ | exact Nat.le_succ _) rfl rfl)
    | split
    | dsimp only

theorem flitAck_keeps {x0 : State} (n : ℕ) (f : Flit) {s : State} (hk : Keeps x0 s) : Keeps x0 (flitAck n f s) := by
  unfold flitAck
  try dsimp only
  repeat' with_reducible first
    | exact hk
    | assumption
    | apply applyAck_keeps
    | apply Keeps.ite
    | (fail_if_no_progress refine Keeps.upd ?_ rfl (by first | exact le_refl _ | exact le_max_left _ _ | exact Nat.le_succ _) (by first | exact le_refl _ | exact Nat.le_succ _) rfl rfl)
    | split
    | dsimp only

theorem acceptFlit_keeps {x0 : State} (n : ℕ) (f : Flit) {s : State} (hk : Keeps x0 s) : Keeps x0 (acceptFlit n f s) := by
  unfold acceptFlit
  try dsimp only
  repeat' with_reducible first
    | exact hk
    | assumption
    | apply flitAck_keeps
    | apply State.wr_keeps
    | apply State.modPort_keeps
    | apply sendAck_keeps
    | apply takeSlots_keeps
    | apply Keeps.ite
    | (fail_if_no_progress refine Keeps.upd ?_ rfl (by first | exact le_refl _ | exact le_max_left _ _ | exact Nat.le_succ _) (by first | exact le_refl _ | exact Nat.le_succ _) rfl rfl)
    | split
    | dsimp only

theorem recoveryNull_keeps {x0 : State} (n : ℕ) (f : Flit) {s : State} (hk : Keeps x0 s) : Keeps x0 (recoveryNull n f s) := by
  unfold recoveryNull
  try dsimp only
  repeat' with_reducible first
    | exact hk
    | assumption
    | apply pump_keeps
    | apply resend_keeps
    | apply freeAcked_keeps
    | apply State.modTrain_keeps
    | (fail_if_no_progress refine Keeps.upd ?_ rfl (by first | exact le_refl _ | exact le_max_left _ _ | exact Nat.le_succ _) (by first | exact le_refl _ | exact Nat.le_succ _) rfl rfl)
    | split
    | dsimp only

theorem recvFlit_keeps {x0 : State} (n : ℕ) (bytes : List Byte) {s : State} (hk : Keeps x0 s) : Keeps x0 (recvFlit n bytes s) := by
  unfold recvFlit
  try dsimp only
  repeat' with_reducible first
    | exact hk
    | assumption
    | apply askReplay_keeps
    | apply State.sat_keeps
    | apply protoError_keeps
    | apply recoveryNull_keeps
    | apply flitAck_keeps
    | apply startReplay_keeps
    | apply acceptFlit_keeps
    | apply Keeps.ite
    | split
    | dsimp only

theorem execFlitReceive_keeps {x0 : State} (n : PortId) (lanes : List (List Bool)) {s : State} (hk : Keeps x0 s) : OutKeeps x0 (execFlitReceive n lanes s) := by
  unfold execFlitReceive
  try dsimp only
  repeat' with_reducible first
    | exact hk
    | assumption
    | apply State.modLane_keeps
    | apply pumpAll_keeps
    | apply sendDone_keeps
    | apply recvFlit_keeps
    | apply OutKeeps.next
    | apply OutKeeps.ite
    | apply Keeps.ite
    | (refine Keeps.forUpto _ ?_ (fun i a k => ?_))
    | (fail_if_no_progress refine Keeps.upd ?_ rfl (by first | exact le_refl _ | exact le_max_left _ _ | exact Nat.le_succ _) (by first | exact le_refl _ | exact Nat.le_succ _) rfl rfl)
    | split
    | dsimp only

theorem execCredit_keeps {x0 : State} (n : PortId) (c : CreditSlot) {s : State} (hk : Keeps x0 s) : OutKeeps x0 (execCredit n c s) := by
  unfold execCredit
  try dsimp only
  repeat' with_reducible first
    | exact hk
    | assumption
    | apply pumpAll_keeps
    | apply sendDone_keeps
    | apply takeCredit_keeps
    | apply touch_keeps
    | apply OutKeeps.next
    | apply OutKeeps.ite
    | apply Keeps.ite
    | split
    | dsimp only

theorem execRd_keeps {x0 : State} (n : PortId) (r : MemReq) {s : State} (hk : Keeps x0 s) : OutKeeps x0 (execRd n r s) := by
  unfold execRd
  try dsimp only
  repeat' with_reducible first
    | exact hk
    | assumption
    | apply recvTxn_keeps
    | apply OutKeeps.next
    | dsimp only

theorem execWr_keeps {x0 : State} (n : PortId) (r : MemReq) (data : List Line) {s : State} (hk : Keeps x0 s) : OutKeeps x0 (execWr n r data s) := by
  unfold execWr
  try dsimp only
  repeat' with_reducible first
    | exact hk
    | assumption
    | apply recvTxn_keeps
    | apply OutKeeps.next
    | dsimp only

theorem execWrp_keeps {x0 : State} (n : PortId) (r : MemReq) {s : State} (hk : Keeps x0 s) : OutKeeps x0 (execWrp n r s) := by
  unfold execWrp
  try dsimp only
  repeat' with_reducible first
    | exact hk
    | assumption
    | apply recvTxn_keeps
    | apply OutKeeps.next
    | dsimp only

theorem execWrm_keeps {x0 : State} (n : PortId) (r : MemReq) (data : List Line) {s : State} (hk : Keeps x0 s) : OutKeeps x0 (execWrm n r data s) := by
  unfold execWrm
  try dsimp only
  repeat' with_reducible first
    | exact hk
    | assumption
    | apply recvTxn_keeps
    | apply OutKeeps.next
    | dsimp only

theorem execAtSwap_keeps {x0 : State} (n : PortId) (r : MemReq) (data : List Line) {s : State} (hk : Keeps x0 s) : OutKeeps x0 (execAtSwap n r data s) := by
  unfold execAtSwap
  try dsimp only
  repeat' with_reducible first
    | exact hk
    | assumption
    | apply recvTxn_keeps
    | apply OutKeeps.next
    | dsimp only

theorem execAtCas_keeps {x0 : State} (n : PortId) (r : MemReq) (data : List Line) {s : State} (hk : Keeps x0 s) : OutKeeps x0 (execAtCas n r data s) := by
  unfold execAtCas
  try dsimp only
  repeat' with_reducible first
    | exact hk
    | assumption
    | apply recvTxn_keeps
    | apply OutKeeps.next
    | dsimp only

theorem execAtAdd_keeps {x0 : State} (n : PortId) (r : MemReq) (data : List Line) {s : State} (hk : Keeps x0 s) : OutKeeps x0 (execAtAdd n r data s) := by
  unfold execAtAdd
  try dsimp only
  repeat' with_reducible first
    | exact hk
    | assumption
    | apply recvTxn_keeps
    | apply OutKeeps.next
    | dsimp only

theorem execAtAnd_keeps {x0 : State} (n : PortId) (r : MemReq) (data : List Line) {s : State} (hk : Keeps x0 s) : OutKeeps x0 (execAtAnd n r data s) := by
  unfold execAtAnd
  try dsimp only
  repeat' with_reducible first
    | exact hk
    | assumption
    | apply recvTxn_keeps
    | apply OutKeeps.next
    | dsimp only

theorem execAtOr_keeps {x0 : State} (n : PortId) (r : MemReq) (data : List Line) {s : State} (hk : Keeps x0 s) : OutKeeps x0 (execAtOr n r data s) := by
  unfold execAtOr
  try dsimp only
  repeat' with_reducible first
    | exact hk
    | assumption
    | apply recvTxn_keeps
    | apply OutKeeps.next
    | dsimp only

theorem execAtXor_keeps {x0 : State} (n : PortId) (r : MemReq) (data : List Line) {s : State} (hk : Keeps x0 s) : OutKeeps x0 (execAtXor n r data s) := by
  unfold execAtXor
  try dsimp only
  repeat' with_reducible first
    | exact hk
    | assumption
    | apply recvTxn_keeps
    | apply OutKeeps.next
    | dsimp only

theorem execAtSmax_keeps {x0 : State} (n : PortId) (r : MemReq) (data : List Line) {s : State} (hk : Keeps x0 s) : OutKeeps x0 (execAtSmax n r data s) := by
  unfold execAtSmax
  try dsimp only
  repeat' with_reducible first
    | exact hk
    | assumption
    | apply recvTxn_keeps
    | apply OutKeeps.next
    | dsimp only

theorem execAtSmin_keeps {x0 : State} (n : PortId) (r : MemReq) (data : List Line) {s : State} (hk : Keeps x0 s) : OutKeeps x0 (execAtSmin n r data s) := by
  unfold execAtSmin
  try dsimp only
  repeat' with_reducible first
    | exact hk
    | assumption
    | apply recvTxn_keeps
    | apply OutKeeps.next
    | dsimp only

theorem execAtUmax_keeps {x0 : State} (n : PortId) (r : MemReq) (data : List Line) {s : State} (hk : Keeps x0 s) : OutKeeps x0 (execAtUmax n r data s) := by
  unfold execAtUmax
  try dsimp only
  repeat' with_reducible first
    | exact hk
    | assumption
    | apply recvTxn_keeps
    | apply OutKeeps.next
    | dsimp only

theorem execAtUmin_keeps {x0 : State} (n : PortId) (r : MemReq) (data : List Line) {s : State} (hk : Keeps x0 s) : OutKeeps x0 (execAtUmin n r data s) := by
  unfold execAtUmin
  try dsimp only
  repeat' with_reducible first
    | exact hk
    | assumption
    | apply recvTxn_keeps
    | apply OutKeeps.next
    | dsimp only

theorem execFence_keeps {x0 : State} (n : PortId) (r : FenceReq) {s : State} (hk : Keeps x0 s) : OutKeeps x0 (execFence n r s) := by
  unfold execFence
  try dsimp only
  repeat' with_reducible first
    | exact hk
    | assumption
    | apply recvTxn_keeps
    | apply OutKeeps.next
    | dsimp only

theorem execCfgRd_keeps {x0 : State} (n : PortId) (r : CfgReq) {s : State} (hk : Keeps x0 s) : OutKeeps x0 (execCfgRd n r s) := by
  unfold execCfgRd
  try dsimp only
  repeat' with_reducible first
    | exact hk
    | assumption
    | apply recvTxn_keeps
    | apply OutKeeps.next
    | dsimp only

theorem execCfgWr_keeps {x0 : State} (n : PortId) (r : CfgReq) (v : Reg32) {s : State} (hk : Keeps x0 s) : OutKeeps x0 (execCfgWr n r v s) := by
  unfold execCfgWr
  try dsimp only
  repeat' with_reducible first
    | exact hk
    | assumption
    | apply recvTxn_keeps
    | apply OutKeeps.next
    | dsimp only

theorem execDoorbell_keeps {x0 : State} (n : PortId) (v : BitVec 16) {s : State} (hk : Keeps x0 s) : OutKeeps x0 (execDoorbell n v s) := by
  unfold execDoorbell
  try dsimp only
  repeat' with_reducible first
    | exact hk
    | assumption
    | apply recvTxn_keeps
    | apply OutKeeps.next
    | dsimp only

theorem execMsg_keeps {x0 : State} (n : PortId) (r : MsgReq) {s : State} (hk : Keeps x0 s) : OutKeeps x0 (execMsg n r s) := by
  unfold execMsg
  try dsimp only
  repeat' with_reducible first
    | exact hk
    | assumption
    | apply recvTxn_keeps
    | apply OutKeeps.next
    | apply OutKeeps.ite
    | apply Keeps.ite
    | split
    | dsimp only

theorem execReservedRequest_keeps {x0 : State} (n : PortId) (op : BitVec 6) (tc : BitVec 2) (tag : BitVec 12) {s : State} (hk : Keeps x0 s) : OutKeeps x0 (execReservedRequest n op tc tag s) := by
  unfold execReservedRequest
  try dsimp only
  repeat' with_reducible first
    | exact hk
    | assumption
    | apply recvTxn_keeps
    | apply OutKeeps.next
    | apply OutKeeps.ite
    | apply Keeps.ite
    | split
    | dsimp only

theorem execRdData_keeps {x0 : State} (n : PortId) (r : RspSlot) (data : List Line) {s : State} (hk : Keeps x0 s) : OutKeeps x0 (execRdData n r data s) := by
  unfold execRdData
  try dsimp only
  repeat' with_reducible first
    | exact hk
    | assumption
    | apply recvTxn_keeps
    | apply OutKeeps.next
    | dsimp only

theorem execCmp_keeps {x0 : State} (n : PortId) (r : RspSlot) {s : State} (hk : Keeps x0 s) : OutKeeps x0 (execCmp n r s) := by
  unfold execCmp
  try dsimp only
  repeat' with_reducible first
    | exact hk
    | assumption
    | apply recvTxn_keeps
    | apply OutKeeps.next
    | dsimp only

theorem execAtData_keeps {x0 : State} (n : PortId) (r : RspSlot) (data : List Line) {s : State} (hk : Keeps x0 s) : OutKeeps x0 (execAtData n r data s) := by
  unfold execAtData
  try dsimp only
  repeat' with_reducible first
    | exact hk
    | assumption
    | apply recvTxn_keeps
    | apply OutKeeps.next
    | dsimp only

theorem execCfgData_keeps {x0 : State} (n : PortId) (r : RspSlot) {s : State} (hk : Keeps x0 s) : OutKeeps x0 (execCfgData n r s) := by
  unfold execCfgData
  try dsimp only
  repeat' with_reducible first
    | exact hk
    | assumption
    | apply recvTxn_keeps
    | apply OutKeeps.next
    | dsimp only

theorem execReservedResponse_keeps {x0 : State} (n : PortId) (op : BitVec 6) {s : State} (hk : Keeps x0 s) : OutKeeps x0 (execReservedResponse n op s) := by
  unfold execReservedResponse
  try dsimp only
  repeat' with_reducible first
    | exact hk
    | assumption
    | apply recvTxn_keeps
    | apply OutKeeps.next
    | apply OutKeeps.ite
    | apply Keeps.ite
    | split
    | dsimp only

theorem measure_keeps {x0 : State} (n : ℕ) (r : ReadyRsp) {s : State} (hk : Keeps x0 s) : Keeps x0 (measure n r s) := by
  unfold measure
  try dsimp only
  repeat' with_reducible first
    | exact hk
    | assumption
    | apply modTxn_keeps
    | apply monSample_keeps
    | apply Keeps.ite
    | (fail_if_no_progress refine Keeps.upd ?_ rfl (by first | exact le_refl _ | exact le_max_left _ _ | exact Nat.le_succ _) (by first | exact le_refl _ | exact Nat.le_succ _) rfl rfl)
    | split
    | dsimp only

theorem rspSent_keeps {x0 : State} (n : ℕ) (r : ReadyRsp) {s : State} (hk : Keeps x0 s) : Keeps x0 (rspSent n r s) := by
  unfold rspSent
  try dsimp only
  repeat' with_reducible first
    | exact hk
    | assumption
    | apply useTx_keeps
    | apply measure_keeps
    | apply State.modPort_keeps
    | apply rspLeaves_keeps
    | apply endTxn_keeps
    | apply changesDue_keeps
    | apply Keeps.ite
    | (fail_if_no_progress refine Keeps.upd ?_ rfl (by first | exact le_refl _ | exact le_max_left _ _ | exact Nat.le_succ _) (by first | exact le_refl _ | exact Nat.le_succ _) rfl rfl)
    | split
    | dsimp only

theorem takeTxData_keeps {x0 : State} (n : ℕ) {s : State} (hk : Keeps x0 s) : Keeps x0 (takeTxData n s).2 := by
  unfold takeTxData
  try dsimp only
  repeat' with_reducible first
    | exact hk
    | assumption
    | apply rspLeaves_keeps
    | apply useTx_keeps
    | apply State.modPort_keeps
    | apply stallOn_keeps
    | apply Keeps.ite
    | (refine Keeps.foldlFst _ ?_ (fun a e k => ?_))
    | (refine Keeps.foldlSnd _ ?_ (fun a e k => ?_))
    | (fail_if_no_progress refine Keeps.upd ?_ rfl (by first | exact le_refl _ | exact le_max_left _ _ | exact Nat.le_succ _) (by first | exact le_refl _ | exact Nat.le_succ _) rfl rfl)
    | split
    | dsimp only

theorem sendRsp_keeps {x0 : State} (n : ℕ) {s : State} (hk : Keeps x0 s) : Keeps x0 (sendRsp n s) := by
  unfold sendRsp
  try dsimp only
  repeat' with_reducible first
    | exact hk
    | assumption
    | apply rspSent_keeps
    | (refine Keeps.snd (p := takeTxData _ _) (by assumption) ?_)
    | apply takeTxData_keeps
    | apply sendFlit_keeps
    | apply sendControl_keeps
    | apply stallOn_keeps
    | apply startCoastExit_keeps
    | apply Keeps.ite
    | (refine Keeps.foldl _ ?_ (fun a e k => ?_))
    | (refine Keeps.foldlFst _ ?_ (fun a e k => ?_))
    | (refine Keeps.foldlSnd _ ?_ (fun a e k => ?_))
    | (fail_if_no_progress refine Keeps.upd ?_ rfl (by first | exact le_refl _ | exact le_max_left _ _ | exact Nat.le_succ _) (by first | exact le_refl _ | exact Nat.le_succ _) rfl rfl)
    | split
    | dsimp only

theorem execResponseSend_keeps {x0 : State} (n : PortId) {s : State} (hk : Keeps x0 s) : OutKeeps x0 (execResponseSend n s) := by
  unfold execResponseSend
  try dsimp only
  repeat' with_reducible first
    | exact hk
    | assumption
    | apply pumpAll_keeps
    | apply sendDone_keeps
    | apply sendRsp_keeps
    | apply OutKeeps.next
    | dsimp only

theorem execForwardHoldTimeout_keeps {x0 : State} (n : PortId) {s : State} (hk : Keeps x0 s) : OutKeeps x0 (execForwardHoldTimeout n s) := by
  unfold execForwardHoldTimeout
  try dsimp only
  repeat' with_reducible first
    | exact hk
    | assumption
    | apply State.modPort_keeps
    | apply State.atLeast_keeps
    | apply unstall_keeps
    | apply giveBack_keeps
    | apply modTxn_keeps
    | apply pumpAll_keeps
    | apply pathDown_keeps
    | apply OutKeeps.next
    | apply OutKeeps.ite
    | apply Keeps.ite
    | (refine Keeps.forUpto _ ?_ (fun i a k => ?_))
    | (fail_if_no_progress refine Keeps.upd ?_ rfl (by first | exact le_refl _ | exact le_max_left _ _ | exact Nat.le_succ _) (by first | exact le_refl _ | exact Nat.le_succ _) rfl rfl)
    | split
    | dsimp only

theorem execContextTimeout_keeps {x0 : State} (n : PortId) (ctx : BitVec 12) {s : State} (hk : Keeps x0 s) : OutKeeps x0 (execContextTimeout n ctx s) := by
  unfold execContextTimeout
  try dsimp only
  repeat' with_reducible first
    | exact hk
    | assumption
    | apply State.sat_keeps
    | apply State.atLeast_keeps
    | apply State.modPort_keeps
    | apply modTxn_keeps
    | apply pumpAll_keeps
    | apply pathDown_keeps
    | apply OutKeeps.next
    | apply OutKeeps.ite
    | apply Keeps.ite
    | (fail_if_no_progress refine Keeps.upd ?_ rfl (by first | exact le_refl _ | exact le_max_left _ _ | exact Nat.le_succ _) (by first | exact le_refl _ | exact Nat.le_succ _) rfl rfl)
    | split
    | dsimp only

end Sys2Proof.Machine
end

