-- ==== Sys2Proof/Laws/KeepsLines.lean ====
section
/-! SUPPORT. What the operations of Machine/Lines.lean keep (Keeps of Safety.lean). -/
namespace Sys2Proof.Machine
open Sys2Proof

set_option linter.all false

theorem readyRuns_keeps {x0 : State} (n : ℕ) (serial : ℕ) {s : State} (hk : Keeps x0 s) : Keeps x0 (readyRuns n serial s) := by
  unfold readyRuns
  try dsimp only
  repeat' with_reducible first
    | exact hk
    | assumption
    | apply modTxn_keeps
    | apply answer_keeps
    | apply Keeps.ite
    | (refine Keeps.foldl _ ?_ (fun a e k => ?_))
    | (fail_if_no_progress refine Keeps.upd ?_ rfl (by first | exact le_refl _ | exact le_max_left _ _ | exact Nat.le_succ _) (by first | exact le_refl _ | exact Nat.le_succ _) rfl rfl)
    | split
    | dsimp only

theorem lineRead_keeps {x0 : State} (o : Owner) (b : LineBack) (bad : BitVec 8) {s : State} (hk : Keeps x0 s) : Keeps x0 (lineRead o b bad s) := by
  unfold lineRead
  try dsimp only
  repeat' with_reducible first
    | exact hk
    | assumption
    | apply readyRuns_keeps
    | apply modTxn_keeps
    | apply bulkRead_keeps
    | (fail_if_no_progress refine Keeps.upd ?_ rfl (by first | exact le_refl _ | exact le_max_left _ _ | exact Nat.le_succ _) (by first | exact le_refl _ | exact Nat.le_succ _) rfl rfl)
    | split
    | dsimp only

theorem lineWritten_keeps {x0 : State} (o : Owner) (idx : ℕ) (poisoned : Bool) {s : State} (hk : Keeps x0 s) : Keeps x0 (lineWritten o idx poisoned s) := by
  unfold lineWritten
  try dsimp only
  repeat' with_reducible first
    | exact hk
    | assumption
    | apply bulkWritten_keeps
    | apply modTxn_keeps
    | apply complete_keeps
    | apply Keeps.ite
    | (fail_if_no_progress refine Keeps.upd ?_ rfl (by first | exact le_refl _ | exact le_max_left _ _ | exact Nat.le_succ _) (by first | exact le_refl _ | exact Nat.le_succ _) rfl rfl)
    | split
    | dsimp only

theorem atomicDone_keeps {x0 : State} (o : Owner) (status : BitVec 4) (old : Word64) (written : Bool) (corr : Bool) {s : State} (hk : Keeps x0 s) : Keeps x0 (atomicDone o status old written corr s) := by
  unfold atomicDone
  try dsimp only
  repeat' with_reducible first
    | exact hk
    | assumption
    | apply answer_keeps
    | (fail_if_no_progress refine Keeps.upd ?_ rfl (by first | exact le_refl _ | exact le_max_left _ _ | exact Nat.le_succ _) (by first | exact le_refl _ | exact Nat.le_succ _) rfl rfl)
    | split
    | dsimp only

theorem enterPav_keeps {x0 : State} (p : ℕ) (r0 : LineReq) {s : State} (hk : Keeps x0 s) : Keeps x0 (enterPav p r0 s) := by
  unfold enterPav
  try dsimp only
  repeat' with_reducible first
    | exact hk
    | assumption
    | apply State.sat_keeps
    | apply State.modRank_keeps
    | apply State.modPav_keeps
    | apply lineWritten_keeps
    | apply Keeps.ite
    | (fail_if_no_progress refine Keeps.upd ?_ rfl (by first | exact le_refl _ | exact le_max_left _ _ | exact Nat.le_succ _) (by first | exact le_refl _ | exact Nat.le_succ _) rfl rfl)
    | split
    | dsimp only

theorem lineFrees_keeps {x0 : State} (r : LineReq) {s : State} (hk : Keeps x0 s) : Keeps x0 (lineFrees r s) := by
  unfold lineFrees
  try dsimp only
  repeat' with_reducible first
    | exact hk
    | assumption
    | apply giveBack_keeps
    | apply Keeps.ite
    | (fail_if_no_progress refine Keeps.upd ?_ rfl (by first | exact le_refl _ | exact le_max_left _ _ | exact Nat.le_succ _) (by first | exact le_refl _ | exact Nat.le_succ _) rfl rfl)
    | split
    | dsimp only

theorem grantPav_keeps {x0 : State} (p : ℕ) {s : State} (hk : Keeps x0 s) : Keeps x0 (grantPav p s) := by
  unfold grantPav
  try dsimp only
  repeat' with_reducible first
    | exact hk
    | assumption
    | apply State.atLeast_keeps
    | apply sendFrom_keeps
    | apply arbGranted_keeps
    | apply pavSettle_keeps
    | apply lineFrees_keeps
    | apply enterPav_keeps
    | apply lockMap_keeps
    | apply Keeps.ite
    | (fail_if_no_progress refine Keeps.upd ?_ rfl (by first | exact le_refl _ | exact le_max_left _ _ | exact Nat.le_succ _) (by first | exact le_refl _ | exact Nat.le_succ _) rfl rfl)
    | split
    | dsimp only

theorem execPromenadeGrant_keeps {x0 : State} (dest : Agent) {s : State} (hk : Keeps x0 s) : OutKeeps x0 (execPromenadeGrant dest s) := by
  unfold execPromenadeGrant
  try dsimp only
  repeat' with_reducible first
    | exact hk
    | assumption
    | apply pumpAll_keeps
    | apply grantPav_keeps
    | apply pumpFwd_keeps
    | apply OutKeeps.next
    | (fail_if_no_progress refine Keeps.upd ?_ rfl (by first | exact le_refl _ | exact le_max_left _ _ | exact Nat.le_succ _) (by first | exact le_refl _ | exact Nat.le_succ _) rfl rfl)
    | split
    | dsimp only

theorem execArbiterAgeLimit_keeps {x0 : State} (rid : ℕ) {s : State} (hk : Keeps x0 s) : OutKeeps x0 (execArbiterAgeLimit rid s) := by
  unfold execArbiterAgeLimit
  try dsimp only
  repeat' with_reducible first
    | exact hk
    | assumption
    | apply State.atLeast_keeps
    | apply State.modPort_keeps
    | apply OutKeeps.next
    | apply OutKeeps.ite
    | apply Keeps.ite
    | (fail_if_no_progress refine Keeps.upd ?_ rfl (by first | exact le_refl _ | exact le_max_left _ _ | exact Nat.le_succ _) (by first | exact le_refl _ | exact Nat.le_succ _) rfl rfl)
    | split
    | dsimp only

theorem execAcceptanceStallTimer_keeps {x0 : State} (p : PavId) {s : State} (hk : Keeps x0 s) : OutKeeps x0 (execAcceptanceStallTimer p s) := by
  unfold execAcceptanceStallTimer
  try dsimp only
  repeat' with_reducible first
    | exact hk
    | assumption
    | apply State.atLeast_keeps
    | apply State.raise_keeps
    | apply State.sat_keeps
    | apply OutKeeps.next
    | apply OutKeeps.ite
    | apply Keeps.ite
    | (fail_if_no_progress refine Keeps.upd ?_ rfl (by first | exact le_refl _ | exact le_max_left _ _ | exact Nat.le_succ _) (by first | exact le_refl _ | exact Nat.le_succ _) rfl rfl)
    | split
    | dsimp only

theorem execBulkLineIssue_keeps {x0 : State} {s : State} (hk : Keeps x0 s) : OutKeeps x0 (execBulkLineIssue s) := by
  unfold execBulkLineIssue
  try dsimp only
  repeat' with_reducible first
    | exact hk
    | assumption
    | apply pumpAll_keeps
    | apply bulkIssue_keeps
    | apply OutKeeps.next
    | (fail_if_no_progress refine Keeps.upd ?_ rfl (by first | exact le_refl _ | exact le_max_left _ _ | exact Nat.le_succ _) (by first | exact le_refl _ | exact Nat.le_succ _) rfl rfl)
    | split
    | dsimp only

theorem readBack_keeps {x0 : State} (p : ℕ) (e : Ent) (f : Flight) (raw : RawLine) (wb : Bool) {s : State} (hk : Keeps x0 s) : Keeps x0 (readBack p e f raw wb s) := by
  unfold readBack
  try dsimp only
  repeat' with_reducible first
    | exact hk
    | assumption
    | apply monSample_keeps
    | apply State.modPav_keeps
    | apply lineRead_keeps
    | apply Keeps.ite
    | (fail_if_no_progress refine Keeps.upd ?_ rfl (by first | exact le_refl _ | exact le_max_left _ _ | exact Nat.le_succ _) (by first | exact le_refl _ | exact Nat.le_succ _) rfl rfl)
    | split
    | dsimp only

theorem readReturn_keeps {x0 : State} (p : ℕ) (flips : RawLine) {s : State} (hk : Keeps x0 s) : Keeps x0 (readReturn p flips s) := by
  unfold readReturn
  try dsimp only
  repeat' with_reducible first
    | exact hk
    | assumption
    | apply State.modPav_keeps
    | apply State.atLeast_keeps
    | (refine Keeps.fst (p := accountLine _ _ _ _ _) (by assumption) ?_)
    | apply accountLine_keeps
    | apply readBack_keeps
    | apply Keeps.ite
    | (fail_if_no_progress refine Keeps.upd ?_ rfl (by first | exact le_refl _ | exact le_max_left _ _ | exact Nat.le_succ _) (by first | exact le_refl _ | exact Nat.le_succ _) rfl rfl)
    | split
    | dsimp only

theorem execReadDataReturn_keeps {x0 : State} (p : PavId) (flips : RawLine) {s : State} (hk : Keeps x0 s) : OutKeeps x0 (execReadDataReturn p flips s) := by
  unfold execReadDataReturn
  try dsimp only
  repeat' with_reducible first
    | exact hk
    | assumption
    | apply pumpAll_keeps
    | apply drainStep_keeps
    | apply pavSettle_keeps
    | apply readReturn_keeps
    | apply OutKeeps.next
    | dsimp only

theorem rmwDone_keeps {x0 : State} (p : ℕ) (e : Ent) (g : Got) {s : State} (hk : Keeps x0 s) : Keeps x0 (rmwDone p e g s) := by
  unfold rmwDone
  try dsimp only
  repeat' with_reducible first
    | exact hk
    | assumption
    | apply State.modPav_keeps
    | apply lineWritten_keeps
    | apply atomicDone_keeps
    | apply Keeps.ite
    | (fail_if_no_progress refine Keeps.upd ?_ rfl (by first | exact le_refl _ | exact le_max_left _ _ | exact Nat.le_succ _) (by first | exact le_refl _ | exact Nat.le_succ _) rfl rfl)
    | split
    | dsimp only

theorem execRmwComplete_keeps {x0 : State} (p : PavId) {s : State} (hk : Keeps x0 s) : OutKeeps x0 (execRmwComplete p s) := by
  unfold execRmwComplete
  try dsimp only
  repeat' with_reducible first
    | exact hk
    | assumption
    | apply pumpAll_keeps
    | apply drainStep_keeps
    | apply pavSettle_keeps
    | apply rmwDone_keeps
    | apply State.atLeast_keeps
    | apply OutKeeps.next
    | (fail_if_no_progress refine Keeps.upd ?_ rfl (by first | exact le_refl _ | exact le_max_left _ _ | exact Nat.le_succ _) (by first | exact le_refl _ | exact Nat.le_succ _) rfl rfl)
    | split
    | dsimp only

theorem execSparingCopyDone_keeps {x0 : State} (p : PavId) (flips : List RawLine) {s : State} (hk : Keeps x0 s) : OutKeeps x0 (execSparingCopyDone p flips s) := by
  unfold execSparingCopyDone
  try dsimp only
  repeat' with_reducible first
    | exact hk
    | assumption
    | apply State.atLeast_keeps
    | apply writePhys_keeps
    | apply closeBank_keeps
    | apply switchRow_keeps
    | apply State.modPav_keeps
    | apply State.finish_keeps
    | apply pumpAll_keeps
    | apply drainStep_keeps
    | apply pavSettle_keeps
    | apply OutKeeps.next
    | apply OutKeeps.ite
    | apply Keeps.ite
    | (refine Keeps.foldl _ ?_ (fun a e k => ?_))
    | (fail_if_no_progress refine Keeps.upd ?_ rfl (by first | exact le_refl _ | exact le_max_left _ _ | exact Nat.le_succ _) (by first | exact le_refl _ | exact Nat.le_succ _) rfl rfl)
    | split
    | dsimp only

theorem execEccLog3Read_keeps {x0 : State} (src : Source) (p : PavId) {s : State} (hk : Keeps x0 s) : OutKeeps x0 (execEccLog3Read src p s) := by
  unfold execEccLog3Read
  try dsimp only
  repeat' with_reducible first
    | exact hk
    | assumption
    | apply cfgRead_keeps
    | apply OutKeeps.next
    | dsimp only

end Sys2Proof.Machine
end

