-- ==== Sys2Proof/Laws/KeepsBoot.lean ====
section
/-! SUPPORT. What the operations of Machine/Boot.lean keep (Keeps of Safety.lean). -/
namespace Sys2Proof.Machine
open Sys2Proof

set_option linter.all false

theorem beginStart_keeps {x0 : State} {s : State} (hk : Keeps x0 s) : Keeps x0 (beginStart s) := by
  unfold beginStart
  try dsimp only
  repeat' with_reducible first
    | exact hk
    | assumption
    | apply drawChallenge_keeps
    | apply noteIdentity_keeps
    | apply State.wr_keeps
    | (fail_if_no_progress refine Keeps.upd ?_ rfl (by first | exact le_refl _ | exact le_max_left _ _ | exact Nat.le_succ _) (by first | exact le_refl _ | exact Nat.le_succ _) rfl rfl)
    | dsimp only

theorem execPowerOnReset_keeps {x0 : State} (strap : BitVec 2) {s : State} (hk : Keeps x0 s) : OutKeeps x0 (execPowerOnReset strap s) := by
  unfold execPowerOnReset
  try dsimp only
  repeat' with_reducible first
    | exact hk
    | assumption
    | apply State.wr_keeps
    | apply OutKeeps.next
    | apply OutKeeps.ite
    | apply Keeps.ite
    | (fail_if_no_progress refine Keeps.upd ?_ rfl (by first | exact le_refl _ | exact le_max_left _ _ | exact Nat.le_succ _) (by first | exact le_refl _ | exact Nat.le_succ _) rfl rfl)
    | split
    | dsimp only

/-- A loss of power keeps the fuses and the queue; the DRAM is empty. -/
theorem powerLost_going {x : State} {s : State} (h : Going x s) : Going x (powerLost s) :=
  ⟨h.pending, h.now, h.free, fun _ => rfl, h.fuses.trans (FusesKept.upd rfl rfl rfl rfl rfl rfl rfl)⟩

theorem execSupplyDip_going {x : State} {s : State} (h : Going x s) (t : State)
    (e : execSupplyDip s = .next t) : Going x t := by
  unfold execSupplyDip at e
  split at e
  · rw [← Host.Outcome.next.inj e]
    exact h
  · rw [← Host.Outcome.next.inj e]
    exact powerLost_going h

theorem execOtpPowerOnReadDone_keeps {x0 : State} (marginals : List (MarginKind × ℕ)) (tb : BitVec 16) {s : State} (hk : Keeps x0 s) : OutKeeps x0 (execOtpPowerOnReadDone marginals tb s) := by
  unfold execOtpPowerOnReadDone
  try dsimp only
  repeat' with_reducible first
    | exact hk
    | assumption
    | apply loadFused_keeps
    | apply readArray_keeps
    | apply beginStart_keeps
    | apply OutKeeps.next
    | apply OutKeeps.ite
    | apply Keeps.ite
    | (fail_if_no_progress refine Keeps.upd ?_ rfl (by first | exact le_refl _ | exact le_max_left _ _ | exact Nat.le_succ _) (by first | exact le_refl _ | exact Nat.le_succ _) rfl rfl)
    | split
    | dsimp only

theorem execCorePllLock_keeps {x0 : State} {s : State} (hk : Keeps x0 s) : OutKeeps x0 (execCorePllLock s) := by
  unfold execCorePllLock
  try dsimp only
  repeat' with_reducible first
    | exact hk
    | assumption
    | apply State.wr_keeps
    | apply romFirmware_keeps
    | apply coreStart_keeps
    | apply thermStart_keeps
    | apply reseed_keeps
    | apply State.modPav_keeps
    | apply startTraining_keeps
    | apply OutKeeps.next
    | apply OutKeeps.ite
    | apply Keeps.ite
    | (refine Keeps.forUpto _ ?_ (fun i a k => ?_))
    | (fail_if_no_progress refine Keeps.upd ?_ rfl (by first | exact le_refl _ | exact le_max_left _ _ | exact Nat.le_succ _) (by first | exact le_refl _ | exact Nat.le_succ _) rfl rfl)
    | split
    | dsimp only

theorem execCorePllLockTimeout_keeps {x0 : State} {s : State} (hk : Keeps x0 s) : OutKeeps x0 (execCorePllLockTimeout s) := by
  unfold execCorePllLockTimeout
  try dsimp only
  repeat' with_reducible first
    | exact hk
    | assumption
    | apply State.atLeast_keeps
    | apply State.wr_keeps
    | apply OutKeeps.next
    | apply OutKeeps.ite
    | apply Keeps.ite
    | (fail_if_no_progress refine Keeps.upd ?_ rfl (by first | exact le_refl _ | exact le_max_left _ _ | exact Nat.le_succ _) (by first | exact le_refl _ | exact Nat.le_succ _) rfl rfl)
    | split
    | dsimp only

theorem execDramInitDone_keeps {x0 : State} {s : State} (hk : Keeps x0 s) : OutKeeps x0 (execDramInitDone s) := by
  unfold execDramInitDone
  try dsimp only
  repeat' with_reducible first
    | exact hk
    | assumption
    | apply rankForced_keeps
    | apply beginCertWindow_keeps
    | apply OutKeeps.next
    | apply OutKeeps.ite
    | apply Keeps.ite
    | (refine Keeps.forUpto _ ?_ (fun i a k => ?_))
    | (fail_if_no_progress refine Keeps.upd ?_ rfl (by first | exact le_refl _ | exact le_max_left _ _ | exact Nat.le_succ _) (by first | exact le_refl _ | exact Nat.le_succ _) rfl rfl)
    | split
    | dsimp only

theorem skipEntry_keeps {x0 : State} (i : ℕ) {s : State} (hk : Keeps x0 s) : Keeps x0 (skipEntry i s) := by
  unfold skipEntry
  try dsimp only
  repeat' with_reducible first
    | exact hk
    | assumption
    | (fail_if_no_progress refine Keeps.upd ?_ rfl (by first | exact le_refl _ | exact le_max_left _ _ | exact Nat.le_succ _) (by first | exact le_refl _ | exact Nat.le_succ _) rfl rfl)
    | dsimp only

theorem countEntry_keeps {x0 : State} {s : State} (hk : Keeps x0 s) : Keeps x0 (countEntry s) := by
  unfold countEntry
  try dsimp only
  repeat' with_reducible first
    | exact hk
    | assumption
    | (fail_if_no_progress refine Keeps.upd ?_ rfl (by first | exact le_refl _ | exact le_max_left _ _ | exact Nat.le_succ _) (by first | exact le_refl _ | exact Nat.le_succ _) rfl rfl)
    | dsimp only

theorem startSpare_keeps {x0 : State} (p : ℕ) (b : ℕ) (row : ℕ) (j : ℕ) (runtime : Bool) {s : State} (hk : Keeps x0 s) : Keeps x0 (startSpare p b row j runtime s) := by
  unfold startSpare
  try dsimp only
  repeat' with_reducible first
    | exact hk
    | assumption
    | apply State.modPav_keeps
    | (fail_if_no_progress refine Keeps.upd ?_ rfl (by first | exact le_refl _ | exact le_max_left _ _ | exact Nat.le_succ _) (by first | exact le_refl _ | exact Nat.le_succ _) rfl rfl)
    | dsimp only

theorem markSpare_keeps {x0 : State} (p : ℕ) (b : ℕ) (j : ℕ) {s : State} (hk : Keeps x0 s) : Keeps x0 (markSpare p b j s) := by
  unfold markSpare
  try dsimp only
  repeat' with_reducible first
    | exact hk
    | assumption
    | apply State.modPav_keeps
    | apply Keeps.ite
    | (fail_if_no_progress refine Keeps.upd ?_ rfl (by first | exact le_refl _ | exact le_max_left _ _ | exact Nat.le_succ _) (by first | exact le_refl _ | exact Nat.le_succ _) rfl rfl)
    | split
    | dsimp only

theorem entryMarks_keeps {x0 : State} (w : ℕ) {s : State} (hk : Keeps x0 s) : Keeps x0 (entryMarks w s) := by
  unfold entryMarks
  try dsimp only
  repeat' with_reducible first
    | exact hk
    | assumption
    | apply markSpare_keeps
    | apply Keeps.ite
    | split
    | dsimp only

theorem entryApply_keeps {x0 : State} (i : ℕ) (w : ℕ) (bad : Bool) {s : State} (hk : Keeps x0 s) : Keeps x0 (entryApply i w bad s) := by
  unfold entryApply
  try dsimp only
  repeat' with_reducible first
    | exact hk
    | assumption
    | apply skipEntry_keeps
    | apply countEntry_keeps
    | apply startSpare_keeps
    | apply retireStart_keeps
    | apply State.modPav_keeps
    | apply Keeps.ite
    | (fail_if_no_progress refine Keeps.upd ?_ rfl (by first | exact le_refl _ | exact le_max_left _ _ | exact Nat.le_succ _) (by first | exact le_refl _ | exact Nat.le_succ _) rfl rfl)
    | split
    | dsimp only

theorem applyMap_keeps {x0 : State} {s : State} (hk : Keeps x0 s) : Keeps x0 (applyMap s) := by
  unfold applyMap
  try dsimp only
  repeat' with_reducible first
    | exact hk
    | assumption
    | apply entryMarks_keeps
    | apply entryApply_keeps
    | apply Keeps.ite
    | (refine Keeps.foldl _ ?_ (fun a e k => ?_))
    | split
    | dsimp only

theorem applyCert_keeps {x0 : State} {s : State} (hk : Keeps x0 s) : Keeps x0 (applyCert s) := by
  unfold applyCert
  try dsimp only
  repeat' with_reducible first
    | exact hk
    | assumption
    | apply retireStart_keeps
    | apply State.modLane_keeps
    | apply markDown_keeps
    | apply markSpare_keeps
    | apply Keeps.ite
    | (refine Keeps.forUpto _ ?_ (fun i a k => ?_))
    | (fail_if_no_progress refine Keeps.upd ?_ rfl (by first | exact le_refl _ | exact le_max_left _ _ | exact Nat.le_succ _) (by first | exact le_refl _ | exact Nat.le_succ _) rfl rfl)
    | split
    | dsimp only

theorem startTake_keeps {x0 : State} (p : ℕ) (b : ℕ) (row : ℕ) {s : State} (hk : Keeps x0 s) : Keeps x0 (startTake p b row s) := by
  unfold startTake
  try dsimp only
  repeat' with_reducible first
    | exact hk
    | assumption
    | apply startSpare_keeps
    | apply retireStart_keeps
    | (fail_if_no_progress refine Keeps.upd ?_ rfl (by first | exact le_refl _ | exact le_max_left _ _ | exact Nat.le_succ _) (by first | exact le_refl _ | exact Nat.le_succ _) rfl rfl)
    | split
    | dsimp only

theorem applyCertSpares_keeps {x0 : State} {s : State} (hk : Keeps x0 s) : Keeps x0 (applyCertSpares s) := by
  unfold applyCertSpares
  try dsimp only
  repeat' with_reducible first
    | exact hk
    | assumption
    | apply startTake_keeps
    | apply Keeps.ite
    | (refine Keeps.forUpto _ ?_ (fun i a k => ?_))
    | split
    | dsimp only

theorem applyHeld_keeps {x0 : State} {s : State} (hk : Keeps x0 s) : Keeps x0 (applyHeld s) := by
  unfold applyHeld
  try dsimp only
  repeat' with_reducible first
    | exact hk
    | assumption
    | apply startSpare_keeps
    | apply startTake_keeps
    | apply retireStart_keeps
    | apply Keeps.ite
    | (refine Keeps.forUpto _ ?_ (fun i a k => ?_))
    | (refine Keeps.foldl _ ?_ (fun a e k => ?_))
    | (fail_if_no_progress refine Keeps.upd ?_ rfl (by first | exact le_refl _ | exact le_max_left _ _ | exact Nat.le_succ _) (by first | exact le_refl _ | exact Nat.le_succ _) rfl rfl)
    | split
    | dsimp only

theorem execCertCheckDone_keeps {x0 : State} {s : State} (hk : Keeps x0 s) : OutKeeps x0 (execCertCheckDone s) := by
  unfold execCertCheckDone
  try dsimp only [State.drawFree, State.drawEntropy]
  repeat' with_reducible first
    | exact hk
    | assumption
    | apply applyCert_keeps
    | apply State.raise_keeps
    | apply applyMap_keeps
    | apply applyCertSpares_keeps
    | apply applyHeld_keeps
    | (refine Keeps.snd (p := State.drawEntropy _) (by assumption) ?_)
    | apply State.drawEntropy_keeps
    | apply State.wr_keeps
    | apply startTest_keeps
    | apply OutKeeps.next
    | apply OutKeeps.ite
    | apply Keeps.ite
    | (fail_if_no_progress refine Keeps.upd ?_ rfl (by first | exact le_refl _ | exact le_max_left _ _ | exact Nat.le_succ _) (by first | exact le_refl _ | exact Nat.le_succ _) rfl rfl)
    | split
    | dsimp only

theorem execStartupDone_keeps {x0 : State} {s : State} (hk : Keeps x0 s) : OutKeeps x0 (execStartupDone s) := by
  unfold execStartupDone
  try dsimp only
  repeat' with_reducible first
    | exact hk
    | assumption
    | apply pumpAll_keeps
    | apply State.wr_keeps
    | apply OutKeeps.next
    | apply OutKeeps.ite
    | apply Keeps.ite
    | (fail_if_no_progress refine Keeps.upd ?_ rfl (by first | exact le_refl _ | exact le_max_left _ _ | exact Nat.le_succ _) (by first | exact le_refl _ | exact Nat.le_succ _) rfl rfl)
    | split
    | dsimp only

theorem execRecovWaitExpiry_keeps {x0 : State} {s : State} (hk : Keeps x0 s) : OutKeeps x0 (execRecovWaitExpiry s) := by
  unfold execRecovWaitExpiry
  try dsimp only
  repeat' with_reducible first
    | exact hk
    | assumption
    | apply State.atLeast_keeps
    | apply startTraining_keeps
    | apply State.modTrain_keeps
    | apply OutKeeps.next
    | apply OutKeeps.ite
    | apply Keeps.ite
    | (fail_if_no_progress refine Keeps.upd ?_ rfl (by first | exact le_refl _ | exact le_max_left _ _ | exact Nat.le_succ _) (by first | exact le_refl _ | exact Nat.le_succ _) rfl rfl)
    | split
    | dsimp only

theorem cutSequence_keeps {x0 : State} {s : State} (hk : Keeps x0 s) : Keeps x0 (cutSequence s) := by
  unfold cutSequence
  try dsimp only [State.drawFree, State.drawEntropy]
  repeat' with_reducible first
    | exact hk
    | assumption
    | (refine Keeps.snd (p := State.drawFree _) (by assumption) ?_)
    | apply State.drawFree_keeps
    | apply Keeps.ite
    | (fail_if_no_progress refine Keeps.upd ?_ rfl (by first | exact le_refl _ | exact le_max_left _ _ | exact Nat.le_succ _) (by first | exact le_refl _ | exact Nat.le_succ _) rfl rfl)
    | (fail_if_no_progress refine Keeps.updOtp ?_ rfl (by first | exact le_refl _ | exact le_max_left _ _ | exact Nat.le_succ _) (by first | exact le_refl _ | exact Nat.le_succ _) rfl (FusesKept.upd rfl rfl rfl rfl rfl rfl rfl) rfl)
    | split
    | dsimp only

theorem coldReset_keeps {x0 : State} (cause : ℕ) {s : State} (hk : Keeps x0 s) : Keeps x0 (coldReset cause s) := by
  unfold coldReset
  try dsimp only
  repeat' with_reducible first
    | exact hk
    | assumption
    | apply cutSequence_keeps
    | apply State.wr_keeps
    | apply loadFused_keeps
    | (refine Keeps.foldl _ ?_ (fun a e k => ?_))
    | (fail_if_no_progress refine Keeps.upd ?_ rfl (by first | exact le_refl _ | exact le_max_left _ _ | exact Nat.le_succ _) (by first | exact le_refl _ | exact Nat.le_succ _) rfl rfl)
    | (fail_if_no_progress refine Keeps.updOtp ?_ rfl (by first | exact le_refl _ | exact le_max_left _ _ | exact Nat.le_succ _) (by first | exact le_refl _ | exact Nat.le_succ _) rfl (FusesKept.upd rfl rfl rfl rfl rfl rfl rfl) rfl)
    | (fail_if_no_progress refine Keeps.updDram ?_ rfl rfl rfl (fun m => by first | exact putCells_wf _ _ m | exact memPut_wf _ _ m) rfl)
    | dsimp only

theorem afterCold_keeps {x0 : State} {s : State} (hk : Keeps x0 s) : Keeps x0 (afterCold s) := by
  unfold afterCold
  try dsimp only
  repeat' with_reducible first
    | exact hk
    | assumption
    | apply beginStart_keeps
    | apply Keeps.ite
    | split
    | dsimp only

theorem drainEnt_keeps {x0 : State} (p : ℕ) (e : Ent) {s : State} (hk : Keeps x0 s) : Keeps x0 (drainEnt p e s) := by
  unfold drainEnt
  try dsimp only
  repeat' with_reducible first
    | exact hk
    | assumption
    | apply rmwDone_keeps
    | (fail_if_no_progress refine Keeps.upd ?_ rfl (by first | exact le_refl _ | exact le_max_left _ _ | exact Nat.le_succ _) (by first | exact le_refl _ | exact Nat.le_succ _) rfl rfl)
    | split
    | dsimp only

theorem resetDrain_keeps {x0 : State} (p : ℕ) {s : State} (hk : Keeps x0 s) : Keeps x0 (resetDrain p s) := by
  unfold resetDrain
  try dsimp only
  repeat' with_reducible first
    | exact hk
    | assumption
    | apply restoreSlice_keeps
    | apply flushPav_keeps
    | apply drainEnt_keeps
    | (refine Keeps.foldl _ ?_ (fun a e k => ?_))
    | (fail_if_no_progress refine Keeps.upd ?_ rfl (by first | exact le_refl _ | exact le_max_left _ _ | exact Nat.le_succ _) (by first | exact le_refl _ | exact Nat.le_succ _) rfl rfl)
    | split
    | dsimp only

theorem beginDrain_keeps {x0 : State} (cause : ℕ) {s : State} (hk : Keeps x0 s) : Keeps x0 (beginDrain cause s) := by
  unfold beginDrain
  try dsimp only
  repeat' with_reducible first
    | exact hk
    | assumption
    | apply linkDown_keeps
    | (refine Keeps.forUpto _ ?_ (fun i a k => ?_))
    | (fail_if_no_progress refine Keeps.upd ?_ rfl (by first | exact le_refl _ | exact le_max_left _ _ | exact Nat.le_succ _) (by first | exact le_refl _ | exact Nat.le_succ _) rfl rfl)
    | dsimp only

theorem beginCold_keeps {x0 : State} (cause : ℕ) {s : State} (hk : Keeps x0 s) : Keeps x0 (beginCold cause s) := by
  unfold beginCold
  try dsimp only
  repeat' with_reducible first
    | exact hk
    | assumption
    | apply State.sat_keeps
    | apply afterCold_keeps
    | apply coldReset_keeps
    | apply beginDrain_keeps
    | apply Keeps.ite
    | split
    | dsimp only

theorem execResetNLow_keeps {x0 : State} {s : State} (hk : Keeps x0 s) : OutKeeps x0 (execResetNLow s) := by
  unfold execResetNLow
  try dsimp only
  repeat' with_reducible first
    | exact hk
    | assumption
    | apply beginCold_keeps
    | apply OutKeeps.next
    | apply OutKeeps.ite
    | apply Keeps.ite
    | (fail_if_no_progress refine Keeps.upd ?_ rfl (by first | exact le_refl _ | exact le_max_left _ _ | exact Nat.le_succ _) (by first | exact le_refl _ | exact Nat.le_succ _) rfl rfl)
    | split
    | dsimp only

theorem execResetNRise_keeps {x0 : State} {s : State} (hk : Keeps x0 s) : OutKeeps x0 (execResetNRise s) := by
  unfold execResetNRise
  try dsimp only
  repeat' with_reducible first
    | exact hk
    | assumption
    | apply afterCold_keeps
    | apply OutKeeps.next
    | apply OutKeeps.ite
    | apply Keeps.ite
    | (fail_if_no_progress refine Keeps.upd ?_ rfl (by first | exact le_refl _ | exact le_max_left _ _ | exact Nat.le_succ _) (by first | exact le_refl _ | exact Nat.le_succ _) rfl rfl)
    | split
    | dsimp only

theorem execResetDrainDone_keeps {x0 : State} {s : State} (hk : Keeps x0 s) : OutKeeps x0 (execResetDrainDone s) := by
  unfold execResetDrainDone
  try dsimp only
  repeat' with_reducible first
    | exact hk
    | assumption
    | apply afterCold_keeps
    | apply coldReset_keeps
    | apply resetDrain_keeps
    | apply OutKeeps.next
    | (refine Keeps.forUpto _ ?_ (fun i a k => ?_))
    | (fail_if_no_progress refine Keeps.upd ?_ rfl (by first | exact le_refl _ | exact le_max_left _ _ | exact Nat.le_succ _) (by first | exact le_refl _ | exact Nat.le_succ _) rfl rfl)
    | split
    | dsimp only

theorem execRefclkLoss_keeps {x0 : State} {s : State} (hk : Keeps x0 s) : OutKeeps x0 (execRefclkLoss s) := by
  unfold execRefclkLoss
  try dsimp only
  repeat' with_reducible first
    | exact hk
    | assumption
    | apply beginCold_keeps
    | apply OutKeeps.next
    | apply OutKeeps.ite
    | apply Keeps.ite
    | (fail_if_no_progress refine Keeps.upd ?_ rfl (by first | exact le_refl _ | exact le_max_left _ _ | exact Nat.le_succ _) (by first | exact le_refl _ | exact Nat.le_succ _) rfl rfl)
    | split
    | dsimp only

theorem execRefclkReturn_keeps {x0 : State} {s : State} (hk : Keeps x0 s) : OutKeeps x0 (execRefclkReturn s) := by
  unfold execRefclkReturn
  try dsimp only
  repeat' with_reducible first
    | exact hk
    | assumption
    | apply afterCold_keeps
    | apply OutKeeps.next
    | apply OutKeeps.ite
    | apply Keeps.ite
    | (fail_if_no_progress refine Keeps.upd ?_ rfl (by first | exact le_refl _ | exact le_max_left _ _ | exact Nat.le_succ _) (by first | exact le_refl _ | exact Nat.le_succ _) rfl rfl)
    | split
    | dsimp only

theorem clearPavRegs_keeps {x0 : State} (p : ℕ) {s : State} (hk : Keeps x0 s) : Keeps x0 (clearPavRegs p s) := by
  unfold clearPavRegs
  try dsimp only
  repeat' with_reducible first
    | exact hk
    | assumption
    | apply State.resetRegs_keeps
    | dsimp only

theorem pavReset_keeps {x0 : State} (p : ℕ) {s : State} (hk : Keeps x0 s) : Keeps x0 (pavReset p s) := by
  unfold pavReset
  try dsimp only
  repeat' with_reducible first
    | exact hk
    | assumption
    | apply clearPavRegs_keeps
    | apply monDiscard_keeps
    | apply flushPav_keeps
    | apply State.modPav_keeps
    | apply State.setRank_keeps
    | apply State.wr_keeps
    | apply drainStep_keeps
    | apply reseed_keeps
    | apply Keeps.ite
    | (refine Keeps.forUpto _ ?_ (fun i a k => ?_))
    | (fail_if_no_progress refine Keeps.upd ?_ rfl (by first | exact le_refl _ | exact le_max_left _ _ | exact Nat.le_succ _) (by first | exact le_refl _ | exact Nat.le_succ _) rfl rfl)
    | split
    | dsimp only

theorem execPavilionReset_keeps {x0 : State} (p : PavId) {s : State} (hk : Keeps x0 s) : OutKeeps x0 (execPavilionReset p s) := by
  unfold execPavilionReset
  try dsimp only
  repeat' with_reducible first
    | exact hk
    | assumption
    | apply pumpAll_keeps
    | apply pavReset_keeps
    | apply OutKeeps.next
    | apply OutKeeps.ite
    | apply Keeps.ite
    | split
    | dsimp only

theorem execTapInstructionUpdate_keeps {x0 : State} (code : Byte) {s : State} (hk : Keeps x0 s) : OutKeeps x0 (execTapInstructionUpdate code s) := by
  unfold execTapInstructionUpdate
  try dsimp only
  repeat' with_reducible first
    | exact hk
    | assumption
    | apply OutKeeps.next
    | (fail_if_no_progress refine Keeps.upd ?_ rfl (by first | exact le_refl _ | exact le_max_left _ _ | exact Nat.le_succ _) (by first | exact le_refl _ | exact Nat.le_succ _) rfl rfl)
    | dsimp only

theorem execTrstNLow_keeps {x0 : State} {s : State} (hk : Keeps x0 s) : OutKeeps x0 (execTrstNLow s) := by
  unfold execTrstNLow
  try dsimp only
  repeat' with_reducible first
    | exact hk
    | assumption
    | apply OutKeeps.next
    | (fail_if_no_progress refine Keeps.upd ?_ rfl (by first | exact le_refl _ | exact le_max_left _ _ | exact Nat.le_succ _) (by first | exact le_refl _ | exact Nat.le_succ _) rfl rfl)
    | dsimp only

end Sys2Proof.Machine
end

