-- ==== Sys2Proof/Laws/KeepsSideband.lean ====
section
/-! SUPPORT. What the operations of Machine/Sideband.lean keep (Keeps of Safety.lean). -/
namespace Sys2Proof.Machine
open Sys2Proof

set_option linter.all false

theorem sbRefused_keeps {x0 : State} {s : State} (hk : Keeps x0 s) : Keeps x0 (sbRefused s) := by
  unfold sbRefused
  try dsimp only
  repeat' with_reducible first
    | exact hk
    | assumption
    | apply State.raiseOnce_keeps
    | apply State.sat_keeps
    | dsimp only

theorem sbWrite_keeps {x0 : State} (code : Byte) (body : List Byte) (pec : Option Byte) (refused : Bool) (act : State → State) {s : State} (hk : Keeps x0 s) (hact : ∀ a, Keeps x0 a → Keeps x0 (act a)) : OutKeeps x0 (sbWrite code body pec refused act s) := by
  unfold sbWrite
  try dsimp only
  repeat' with_reducible first
    | exact hk
    | assumption
    | apply hact
    | apply sbStop_keeps
    | apply sbRefused_keeps
    | apply sbReady_keeps
    | apply State.raiseOnce_keeps
    | apply State.sat_keeps
    | apply State.wr_keeps
    | apply quietStep_keeps
    | apply OutKeeps.next
    | apply OutKeeps.ite
    | apply Keeps.ite
    | split
    | dsimp only

theorem sbRead_keeps {x0 : State} (act : State → State) {s : State} (hk : Keeps x0 s) (hact : ∀ a, Keeps x0 a → Keeps x0 (act a)) : OutKeeps x0 (sbRead act s) := by
  unfold sbRead
  try dsimp only
  repeat' with_reducible first
    | exact hk
    | assumption
    | apply hact
    | apply State.wr_keeps
    | apply sbReady_keeps
    | apply quietStep_keeps
    | apply sbStop_keeps
    | apply OutKeeps.next
    | apply OutKeeps.ite
    | apply Keeps.ite
    | split
    | dsimp only

theorem execSbStatusByte_keeps {x0 : State} {s : State} (hk : Keeps x0 s) : OutKeeps x0 (execSbStatusByte s) := by
  unfold execSbStatusByte
  try dsimp only
  repeat' with_reducible first
    | exact hk
    | assumption
    | apply sbRead_keeps
    | apply OutKeeps.next
    | (fail_if_no_progress refine Keeps.upd ?_ rfl (by first | exact le_refl _ | exact le_max_left _ _ | exact Nat.le_succ _) (by first | exact le_refl _ | exact Nat.le_succ _) rfl rfl)
    | dsimp only
    | intro _ _

theorem execSbStatus_keeps {x0 : State} {s : State} (hk : Keeps x0 s) : OutKeeps x0 (execSbStatus s) := by
  unfold execSbStatus
  try dsimp only
  repeat' with_reducible first
    | exact hk
    | assumption
    | apply sbRead_keeps
    | apply sbAnswer_keeps
    | apply OutKeeps.next
    | dsimp only
    | intro _ _

theorem execSbWinPtr_keeps {x0 : State} (ptr : BitVec 24) (pec : Option Byte) {s : State} (hk : Keeps x0 s) : OutKeeps x0 (execSbWinPtr ptr pec s) := by
  unfold execSbWinPtr
  try dsimp only
  repeat' with_reducible first
    | exact hk
    | assumption
    | apply sbWrite_keeps
    | apply State.wr_keeps
    | apply OutKeeps.next
    | dsimp only
    | intro _ _

theorem execSbWinRead_keeps {x0 : State} {s : State} (hk : Keeps x0 s) : OutKeeps x0 (execSbWinRead s) := by
  unfold execSbWinRead
  try dsimp only
  repeat' with_reducible first
    | exact hk
    | assumption
    | apply sbRead_keeps
    | apply sbTake_keeps
    | apply OutKeeps.next
    | dsimp only
    | intro _ _

theorem execSbWinWrite_keeps {x0 : State} (bytes : List Byte) (pec : Option Byte) {s : State} (hk : Keeps x0 s) : OutKeeps x0 (execSbWinWrite bytes pec s) := by
  unfold execSbWinWrite
  try dsimp only
  repeat' with_reducible first
    | exact hk
    | assumption
    | apply sbWrite_keeps
    | apply sbAdvance_keeps
    | apply sbTake_keeps
    | apply OutKeeps.next
    | apply OutKeeps.ite
    | apply Keeps.ite
    | split
    | dsimp only
    | intro _ _

theorem sbMbxPut_keeps {x0 : State} (m : ℕ) (o : ℕ) (data : List Byte) {s : State} (hk : Keeps x0 s) : Keeps x0 (sbMbxPut m o data s) := by
  unfold sbMbxPut
  try dsimp only
  repeat' with_reducible first
    | exact hk
    | assumption
    | apply sbTake_keeps
    | apply Keeps.ite
    | split
    | dsimp only

theorem execSbMbxWrite_keeps {x0 : State} (bytes : List Byte) (pec : Option Byte) {s : State} (hk : Keeps x0 s) : OutKeeps x0 (execSbMbxWrite bytes pec s) := by
  unfold execSbMbxWrite
  try dsimp only
  repeat' with_reducible first
    | exact hk
    | assumption
    | apply sbWrite_keeps
    | apply sbMbxPut_keeps
    | apply OutKeeps.next
    | dsimp only
    | intro _ _

theorem execSbMbxGo_keeps {x0 : State} (v : Byte) (pec : Option Byte) {s : State} (hk : Keeps x0 s) : OutKeeps x0 (execSbMbxGo v pec s) := by
  unfold execSbMbxGo
  try dsimp only
  repeat' with_reducible first
    | exact hk
    | assumption
    | apply sbWrite_keeps
    | apply sbTake_keeps
    | apply OutKeeps.next
    | apply OutKeeps.ite
    | apply Keeps.ite
    | split
    | dsimp only
    | intro _ _

theorem execSbMbxRead_keeps {x0 : State} {s : State} (hk : Keeps x0 s) : OutKeeps x0 (execSbMbxRead s) := by
  unfold execSbMbxRead
  try dsimp only
  repeat' with_reducible first
    | exact hk
    | assumption
    | apply sbRead_keeps
    | apply sbTake_keeps
    | apply OutKeeps.next
    | dsimp only
    | intro _ _

theorem execSbMbxPtr_keeps {x0 : State} (v : BitVec 16) (pec : Option Byte) {s : State} (hk : Keeps x0 s) : OutKeeps x0 (execSbMbxPtr v pec s) := by
  unfold execSbMbxPtr
  try dsimp only
  repeat' with_reducible first
    | exact hk
    | assumption
    | apply sbWrite_keeps
    | apply State.wr_keeps
    | apply OutKeeps.next
    | dsimp only
    | intro _ _

theorem execSbMbxStat_keeps {x0 : State} {s : State} (hk : Keeps x0 s) : OutKeeps x0 (execSbMbxStat s) := by
  unfold execSbMbxStat
  try dsimp only
  repeat' with_reducible first
    | exact hk
    | assumption
    | apply sbRead_keeps
    | apply sbTake_keeps
    | apply OutKeeps.next
    | dsimp only
    | intro _ _

theorem execSbQuickCommand_keeps {x0 : State} (code : Option Byte) {s : State} (hk : Keeps x0 s) : OutKeeps x0 (execSbQuickCommand code s) := by
  unfold execSbQuickCommand
  try dsimp only
  repeat' with_reducible first
    | exact hk
    | assumption
    | apply sbStop_keeps
    | apply sbRefused_keeps
    | apply OutKeeps.next
    | apply OutKeeps.ite
    | apply Keeps.ite
    | (fail_if_no_progress refine Keeps.upd ?_ rfl (by first | exact le_refl _ | exact le_max_left _ _ | exact Nat.le_succ _) (by first | exact le_refl _ | exact Nat.le_succ _) rfl rfl)
    | split
    | dsimp only

theorem execSbStretchLimit_keeps {x0 : State} (u : Unit) {s : State} (hk : Keeps x0 s) : OutKeeps x0 (execSbStretchLimit u s) := by
  unfold execSbStretchLimit
  try dsimp only
  repeat' with_reducible first
    | exact hk
    | assumption
    | apply quietStep_keeps
    | apply lateWrites_keeps
    | apply sbExpire_keeps
    | apply State.atLeast_keeps
    | apply OutKeeps.next
    | apply OutKeeps.ite
    | apply Keeps.ite
    | (fail_if_no_progress refine Keeps.upd ?_ rfl (by first | exact le_refl _ | exact le_max_left _ _ | exact Nat.le_succ _) (by first | exact le_refl _ | exact Nat.le_succ _) rfl rfl)
    | split
    | dsimp only

theorem sbFault_keeps {x0 : State} (detail : ℕ) (partWrite : Bool) {s : State} (hk : Keeps x0 s) : Keeps x0 (sbFault detail partWrite s) := by
  unfold sbFault
  try dsimp only
  repeat' with_reducible first
    | exact hk
    | assumption
    | apply State.wr_keeps
    | apply State.raiseOnce_keeps
    | apply State.sat_keeps
    | apply Keeps.ite
    | split
    | dsimp only

theorem execSbBusFault_keeps {x0 : State} (cause : SbFaultCause) {s : State} (hk : Keeps x0 s) : OutKeeps x0 (execSbBusFault cause s) := by
  unfold execSbBusFault
  try dsimp only
  repeat' with_reducible first
    | exact hk
    | assumption
    | apply sbStop_keeps
    | apply sbRefused_keeps
    | apply State.wr_keeps
    | apply sbReady_keeps
    | apply sbFault_keeps
    | apply OutKeeps.next
    | apply OutKeeps.ite
    | apply Keeps.ite
    | (fail_if_no_progress refine Keeps.upd ?_ rfl (by first | exact le_refl _ | exact le_max_left _ _ | exact Nat.le_succ _) (by first | exact le_refl _ | exact Nat.le_succ _) rfl rfl)
    | split
    | dsimp only

theorem execSbRepeatedStartInAck_keeps {x0 : State} {s : State} (hk : Keeps x0 s) : OutKeeps x0 (execSbRepeatedStartInAck s) := by
  unfold execSbRepeatedStartInAck
  try dsimp only
  repeat' with_reducible first
    | exact hk
    | assumption
    | apply OutKeeps.next
    | dsimp only

theorem sbReset_keeps {x0 : State} (detail : ℕ) {s : State} (hk : Keeps x0 s) : Keeps x0 (sbReset detail s) := by
  unfold sbReset
  try dsimp only [State.drawFree]
  repeat' with_reducible first
    | exact hk
    | assumption
    | apply State.wr_keeps
    | apply State.raise_keeps
    | apply State.sat_keeps
    | apply Keeps.ite
    | (fail_if_no_progress refine Keeps.upd ?_ rfl (by first | exact le_refl _ | exact le_max_left _ _ | exact Nat.le_succ _) (by first | exact le_refl _ | exact Nat.le_succ _) rfl rfl)
    | split
    | dsimp only

theorem execSclLowTimeout_keeps {x0 : State} {s : State} (hk : Keeps x0 s) : OutKeeps x0 (execSclLowTimeout s) := by
  unfold execSclLowTimeout
  try dsimp only
  repeat' with_reducible first
    | exact hk
    | assumption
    | apply sbReset_keeps
    | apply OutKeeps.next
    | apply OutKeeps.ite
    | apply Keeps.ite
    | split
    | dsimp only

theorem execSdaReleaseTimeout_keeps {x0 : State} {s : State} (hk : Keeps x0 s) : OutKeeps x0 (execSdaReleaseTimeout s) := by
  unfold execSdaReleaseTimeout
  try dsimp only
  repeat' with_reducible first
    | exact hk
    | assumption
    | apply sbReset_keeps
    | apply OutKeeps.next
    | apply OutKeeps.ite
    | apply Keeps.ite
    | split
    | dsimp only

theorem execWakeByAddress_keeps {x0 : State} (addr : BitVec 7) {s : State} (hk : Keeps x0 s) : OutKeeps x0 (execWakeByAddress addr s) := by
  unfold execWakeByAddress
  try dsimp only
  repeat' with_reducible first
    | exact hk
    | assumption
    | apply wakeBy_keeps
    | apply State.wr_keeps
    | apply State.raise_keeps
    | apply OutKeeps.next
    | apply OutKeeps.ite
    | apply Keeps.ite
    | (fail_if_no_progress refine Keeps.upd ?_ rfl (by first | exact le_refl _ | exact le_max_left _ _ | exact Nat.le_succ _) (by first | exact le_refl _ | exact Nat.le_succ _) rfl rfl)
    | split
    | dsimp only

theorem execWakeStretchLimit_keeps {x0 : State} {s : State} (hk : Keeps x0 s) : OutKeeps x0 (execWakeStretchLimit s) := by
  unfold execWakeStretchLimit
  try dsimp only
  repeat' with_reducible first
    | exact hk
    | assumption
    | apply State.atLeast_keeps
    | apply State.wr_keeps
    | apply OutKeeps.next
    | (fail_if_no_progress refine Keeps.upd ?_ rfl (by first | exact le_refl _ | exact le_max_left _ _ | exact Nat.le_succ _) (by first | exact le_refl _ | exact Nat.le_succ _) rfl rfl)
    | split
    | dsimp only

theorem attnStart_keeps {x0 : State} {s : State} (hk : Keeps x0 s) : Keeps x0 (attnStart s) := by
  unfold attnStart
  try dsimp only
  repeat' with_reducible first
    | exact hk
    | assumption
    | apply State.wr_keeps
    | (fail_if_no_progress refine Keeps.upd ?_ rfl (by first | exact le_refl _ | exact le_max_left _ _ | exact Nat.le_succ _) (by first | exact le_refl _ | exact Nat.le_succ _) rfl rfl)
    | dsimp only

theorem execAttentionAssert_keeps {x0 : State} {s : State} (hk : Keeps x0 s) : OutKeeps x0 (execAttentionAssert s) := by
  unfold execAttentionAssert
  try dsimp only
  repeat' with_reducible first
    | exact hk
    | assumption
    | apply attnStart_keeps
    | apply State.atLeast_keeps
    | apply OutKeeps.next
    | apply OutKeeps.ite
    | apply Keeps.ite
    | split
    | dsimp only

theorem execAttentionArbitration_keeps {x0 : State} (won : Bool) (acked : Bool) {s : State} (hk : Keeps x0 s) : OutKeeps x0 (execAttentionArbitration won acked s) := by
  unfold execAttentionArbitration
  try dsimp only
  repeat' with_reducible first
    | exact hk
    | assumption
    | apply State.wr_keeps
    | apply State.raise_keeps
    | apply State.sat_keeps
    | apply OutKeeps.next
    | apply OutKeeps.ite
    | apply Keeps.ite
    | (fail_if_no_progress refine Keeps.upd ?_ rfl (by first | exact le_refl _ | exact le_max_left _ _ | exact Nat.le_succ _) (by first | exact le_refl _ | exact Nat.le_succ _) rfl rfl)
    | split
    | dsimp only

theorem execAttentionWaitExpiry_keeps {x0 : State} {s : State} (hk : Keeps x0 s) : OutKeeps x0 (execAttentionWaitExpiry s) := by
  unfold execAttentionWaitExpiry
  try dsimp only
  repeat' with_reducible first
    | exact hk
    | assumption
    | apply State.atLeast_keeps
    | apply State.wr_keeps
    | apply State.raise_keeps
    | apply State.sat_keeps
    | apply OutKeeps.next
    | (fail_if_no_progress refine Keeps.upd ?_ rfl (by first | exact le_refl _ | exact le_max_left _ _ | exact Nat.le_succ _) (by first | exact le_refl _ | exact Nat.le_succ _) rfl rfl)
    | split
    | dsimp only

theorem execAttentionRetryTimer_keeps {x0 : State} {s : State} (hk : Keeps x0 s) : OutKeeps x0 (execAttentionRetryTimer s) := by
  unfold execAttentionRetryTimer
  try dsimp only
  repeat' with_reducible first
    | exact hk
    | assumption
    | apply State.atLeast_keeps
    | apply attnStart_keeps
    | apply OutKeeps.next
    | apply OutKeeps.ite
    | apply Keeps.ite
    | (fail_if_no_progress refine Keeps.upd ?_ rfl (by first | exact le_refl _ | exact le_max_left _ _ | exact Nat.le_succ _) (by first | exact le_refl _ | exact Nat.le_succ _) rfl rfl)
    | split
    | dsimp only

end Sys2Proof.Machine
end

