-- ==== Sys2Proof/Laws/KeepsAccess.lean ====
section
/-! SUPPORT. What the operations of Machine/Access.lean keep (Keeps of Safety.lean). -/
namespace Sys2Proof.Machine
open Sys2Proof

set_option linter.all false

theorem execTestStateWrite_keeps {x0 : State} (n : PortId) (p : Pos) (src : Source) (be : BitVec 4) (v : Reg32) {s : State} (hk : Keeps x0 s) : OutKeeps x0 (execTestStateWrite n p src be v s) := by
  unfold execTestStateWrite
  try dsimp only
  repeat' with_reducible first
    | exact hk
    | assumption
    | apply cfgWrite_keeps
    | apply OutKeeps.next
    | dsimp only

theorem execPrbsClr_keeps {x0 : State} (n : PortId) (src : Source) (be : BitVec 4) (v : Reg32) {s : State} (hk : Keeps x0 s) : OutKeeps x0 (execPrbsClr n src be v s) := by
  unfold execPrbsClr
  try dsimp only
  repeat' with_reducible first
    | exact hk
    | assumption
    | apply cfgWrite_keeps
    | apply OutKeeps.next
    | dsimp only

theorem execInjectWrite_keeps {x0 : State} (n : PortId) (src : Source) (be : BitVec 4) (v : Reg32) {s : State} (hk : Keeps x0 s) : OutKeeps x0 (execInjectWrite n src be v s) := by
  unfold execInjectWrite
  try dsimp only
  repeat' with_reducible first
    | exact hk
    | assumption
    | apply cfgWrite_keeps
    | apply OutKeeps.next
    | dsimp only

theorem execPrbsBitsLoRead_keeps {x0 : State} (n : PortId) (p : Pos) (src : Source) (bits errs : ℕ) {s : State} (hk : Keeps x0 s) : OutKeeps x0 (execPrbsBitsLoRead n p src bits errs s) := by
  unfold execPrbsBitsLoRead
  try dsimp only
  repeat' with_reducible first
    | exact hk
    | assumption
    | apply cfgRead_keeps
    | apply countPrbs_keeps
    | apply OutKeeps.next
    | dsimp only

theorem execLinkDisWrite_keeps {x0 : State} (n : PortId) (src : Source) (be : BitVec 4) (v : Reg32) {s : State} (hk : Keeps x0 s) : OutKeeps x0 (execLinkDisWrite n src be v s) := by
  unfold execLinkDisWrite
  try dsimp only
  repeat' with_reducible first
    | exact hk
    | assumption
    | apply cfgWrite_keeps
    | apply OutKeeps.next
    | dsimp only

theorem execRetrainWrite_keeps {x0 : State} (n : PortId) (src : Source) (be : BitVec 4) (v : Reg32) {s : State} (hk : Keeps x0 s) : OutKeeps x0 (execRetrainWrite n src be v s) := by
  unfold execRetrainWrite
  try dsimp only
  repeat' with_reducible first
    | exact hk
    | assumption
    | apply cfgWrite_keeps
    | apply OutKeeps.next
    | dsimp only

theorem execWidenWrite_keeps {x0 : State} (n : PortId) (src : Source) (be : BitVec 4) (v : Reg32) {s : State} (hk : Keeps x0 s) : OutKeeps x0 (execWidenWrite n src be v s) := by
  unfold execWidenWrite
  try dsimp only
  repeat' with_reducible first
    | exact hk
    | assumption
    | apply cfgWrite_keeps
    | apply OutKeeps.next
    | dsimp only

theorem execRoleWrite_keeps {x0 : State} (n : PortId) (src : Source) (be : BitVec 4) (v : Reg32) {s : State} (hk : Keeps x0 s) : OutKeeps x0 (execRoleWrite n src be v s) := by
  unfold execRoleWrite
  try dsimp only
  repeat' with_reducible first
    | exact hk
    | assumption
    | apply cfgWrite_keeps
    | apply OutKeeps.next
    | dsimp only

theorem execWindowBaseWrite_keeps {x0 : State} (src : Source) (be : BitVec 4) (v : Reg32) {s : State} (hk : Keeps x0 s) : OutKeeps x0 (execWindowBaseWrite src be v s) := by
  unfold execWindowBaseWrite
  try dsimp only
  repeat' with_reducible first
    | exact hk
    | assumption
    | apply cfgWrite_keeps
    | apply OutKeeps.next
    | dsimp only

theorem execSpLoWrite_keeps {x0 : State} (e : Fin 32) (src : Source) (be : BitVec 4) (v : Reg32) {s : State} (hk : Keeps x0 s) : OutKeeps x0 (execSpLoWrite e src be v s) := by
  unfold execSpLoWrite
  try dsimp only
  repeat' with_reducible first
    | exact hk
    | assumption
    | apply cfgWrite_keeps
    | apply OutKeeps.next
    | dsimp only

theorem execSpHiWrite_keeps {x0 : State} (e : Fin 32) (src : Source) (be : BitVec 4) (v : Reg32) {s : State} (hk : Keeps x0 s) : OutKeeps x0 (execSpHiWrite e src be v s) := by
  unfold execSpHiWrite
  try dsimp only
  repeat' with_reducible first
    | exact hk
    | assumption
    | apply cfgWrite_keeps
    | apply OutKeeps.next
    | dsimp only

theorem execMaskLoWrite_keeps {x0 : State} (partitioned : Bool) (m : Fin 11) (src : Source) (be : BitVec 4) (v : Reg32) {s : State} (hk : Keeps x0 s) : OutKeeps x0 (execMaskLoWrite partitioned m src be v s) := by
  unfold execMaskLoWrite
  try dsimp only
  repeat' with_reducible first
    | exact hk
    | assumption
    | apply cfgWrite_keeps
    | apply OutKeeps.next
    | apply OutKeeps.ite
    | apply Keeps.ite
    | split
    | dsimp only

theorem execMaskHiWrite_keeps {x0 : State} (partitioned : Bool) (m : Fin 11) (src : Source) (be : BitVec 4) (v : Reg32) {s : State} (hk : Keeps x0 s) : OutKeeps x0 (execMaskHiWrite partitioned m src be v s) := by
  unfold execMaskHiWrite
  try dsimp only
  repeat' with_reducible first
    | exact hk
    | assumption
    | apply cfgWrite_keeps
    | apply OutKeeps.next
    | apply OutKeeps.ite
    | apply Keeps.ite
    | split
    | dsimp only

theorem execMapSelWrite_keeps {x0 : State} (src : Source) (be : BitVec 4) (v : Reg32) {s : State} (hk : Keeps x0 s) : OutKeeps x0 (execMapSelWrite src be v s) := by
  unfold execMapSelWrite
  try dsimp only
  repeat' with_reducible first
    | exact hk
    | assumption
    | apply cfgWrite_keeps
    | apply OutKeeps.next
    | dsimp only

theorem execCadCtrlWrite_keeps {x0 : State} (src : Source) (be : BitVec 4) (v : Reg32) {s : State} (hk : Keeps x0 s) : OutKeeps x0 (execCadCtrlWrite src be v s) := by
  unfold execCadCtrlWrite
  try dsimp only
  repeat' with_reducible first
    | exact hk
    | assumption
    | apply cfgWrite_keeps
    | apply OutKeeps.next
    | dsimp only

theorem execCadNowLoRead_keeps {x0 : State} (src : Source) {s : State} (hk : Keeps x0 s) : OutKeeps x0 (execCadNowLoRead src s) := by
  unfold execCadNowLoRead
  try dsimp only
  repeat' with_reducible first
    | exact hk
    | assumption
    | apply cfgRead_keeps
    | apply OutKeeps.next
    | dsimp only

theorem execRepeatEnWrite_keeps {x0 : State} (p : PavId) (src : Source) (be : BitVec 4) (v : Reg32) {s : State} (hk : Keeps x0 s) : OutKeeps x0 (execRepeatEnWrite p src be v s) := by
  unfold execRepeatEnWrite
  try dsimp only
  repeat' with_reducible first
    | exact hk
    | assumption
    | apply cfgWrite_keeps
    | apply OutKeeps.next
    | dsimp only

theorem execBistFail1Read_keeps {x0 : State} (src : Source) (p : PavId) {s : State} (hk : Keeps x0 s) : OutKeeps x0 (execBistFail1Read src p s) := by
  unfold execBistFail1Read
  try dsimp only
  repeat' with_reducible first
    | exact hk
    | assumption
    | apply cfgRead_keeps
    | apply OutKeeps.next
    | dsimp only

theorem execHaltClearWrite_keeps {x0 : State} (src : Source) (be : BitVec 4) (v : Reg32) {s : State} (hk : Keeps x0 s) : OutKeeps x0 (execHaltClearWrite src be v s) := by
  unfold execHaltClearWrite
  try dsimp only
  repeat' with_reducible first
    | exact hk
    | assumption
    | apply cfgWrite_keeps
    | apply OutKeeps.next
    | dsimp only

theorem execHostThrWrite_keeps {x0 : State} (src : Source) (be : BitVec 4) (v : Reg32) {s : State} (hk : Keeps x0 s) : OutKeeps x0 (execHostThrWrite src be v s) := by
  unfold execHostThrWrite
  try dsimp only
  repeat' with_reducible first
    | exact hk
    | assumption
    | apply cfgWrite_keeps
    | apply OutKeeps.next
    | dsimp only

theorem execThmPeakRead_keeps {x0 : State} (src : Source) {s : State} (hk : Keeps x0 s) : OutKeeps x0 (execThmPeakRead src s) := by
  unfold execThmPeakRead
  try dsimp only
  repeat' with_reducible first
    | exact hk
    | assumption
    | apply cfgRead_keeps
    | apply OutKeeps.next
    | dsimp only

theorem execOscLearnWrite_keeps {x0 : State} (src : Source) (be : BitVec 4) (v : Reg32) {s : State} (hk : Keeps x0 s) : OutKeeps x0 (execOscLearnWrite src be v s) := by
  unfold execOscLearnWrite
  try dsimp only
  repeat' with_reducible first
    | exact hk
    | assumption
    | apply cfgWrite_keeps
    | apply OutKeeps.next
    | dsimp only

theorem execCoreResetWrite_keeps {x0 : State} (src : Source) (be : BitVec 4) (v : Reg32) {s : State} (hk : Keeps x0 s) : OutKeeps x0 (execCoreResetWrite src be v s) := by
  unfold execCoreResetWrite
  try dsimp only
  repeat' with_reducible first
    | exact hk
    | assumption
    | apply cfgWrite_keeps
    | apply OutKeeps.next
    | dsimp only

theorem execGoDoorbell_keeps {x0 : State} (m : MbxId) (src : Source) {s : State} (hk : Keeps x0 s) : OutKeeps x0 (execGoDoorbell m src s) := by
  unfold execGoDoorbell
  try dsimp only
  repeat' with_reducible first
    | exact hk
    | assumption
    | apply cfgWrite_keeps
    | apply OutKeeps.next
    | dsimp only

theorem execAbortDoorbell_keeps {x0 : State} (m : MbxId) (src : Source) {s : State} (hk : Keeps x0 s) : OutKeeps x0 (execAbortDoorbell m src s) := by
  unfold execAbortDoorbell
  try dsimp only
  repeat' with_reducible first
    | exact hk
    | assumption
    | apply cfgWrite_keeps
    | apply OutKeeps.next
    | dsimp only

theorem execOverrunClear_keeps {x0 : State} (m : MbxId) (src : Source) (be : BitVec 4) (v : Reg32) {s : State} (hk : Keeps x0 s) : OutKeeps x0 (execOverrunClear m src be v s) := by
  unfold execOverrunClear
  try dsimp only
  repeat' with_reducible first
    | exact hk
    | assumption
    | apply cfgWrite_keeps
    | apply OutKeeps.next
    | dsimp only

theorem execStewardWrite_keeps {x0 : State} (src : Source) (be : BitVec 4) (v : Reg32) {s : State} (hk : Keeps x0 s) : OutKeeps x0 (execStewardWrite src be v s) := by
  unfold execStewardWrite
  try dsimp only
  repeat' with_reducible first
    | exact hk
    | assumption
    | apply cfgWrite_keeps
    | apply OutKeeps.next
    | dsimp only

theorem execEvtPortsWrite_keeps {x0 : State} (src : Source) (be : BitVec 4) (v : Reg32) {s : State} (hk : Keeps x0 s) : OutKeeps x0 (execEvtPortsWrite src be v s) := by
  unfold execEvtPortsWrite
  try dsimp only
  repeat' with_reducible first
    | exact hk
    | assumption
    | apply cfgWrite_keeps
    | apply OutKeeps.next
    | dsimp only

theorem execEvtSeenClear_keeps {x0 : State} (i : Fin 32) (src : Source) (be : BitVec 4) (v : Reg32) {s : State} (hk : Keeps x0 s) : OutKeeps x0 (execEvtSeenClear i src be v s) := by
  unfold execEvtSeenClear
  try dsimp only
  repeat' with_reducible first
    | exact hk
    | assumption
    | apply cfgWrite_keeps
    | apply OutKeeps.next
    | dsimp only

theorem execMonRestartWrite_keeps {x0 : State} (u : UnitId) (src : Source) (be : BitVec 4) (v : Reg32) {s : State} (hk : Keeps x0 s) : OutKeeps x0 (execMonRestartWrite u src be v s) := by
  unfold execMonRestartWrite
  try dsimp only
  repeat' with_reducible first
    | exact hk
    | assumption
    | apply cfgWrite_keeps
    | apply OutKeeps.next
    | dsimp only

theorem execMonSumLoRead_keeps {x0 : State} (src : Source) (u : UnitId) (lvl : Bool) {s : State} (hk : Keeps x0 s) : OutKeeps x0 (execMonSumLoRead src u lvl s) := by
  unfold execMonSumLoRead
  try dsimp only
  repeat' with_reducible first
    | exact hk
    | assumption
    | apply cfgRead_keeps
    | apply OutKeeps.next
    | apply OutKeeps.ite
    | apply Keeps.ite
    | split
    | dsimp only

theorem execGlbRstPortWrite_keeps {x0 : State} (src : Source) (be : BitVec 4) (v : Reg32) {s : State} (hk : Keeps x0 s) : OutKeeps x0 (execGlbRstPortWrite src be v s) := by
  unfold execGlbRstPortWrite
  try dsimp only
  repeat' with_reducible first
    | exact hk
    | assumption
    | apply cfgWrite_keeps
    | apply OutKeeps.next
    | dsimp only

theorem execGlbRstPavWrite_keeps {x0 : State} (src : Source) (be : BitVec 4) (v : Reg32) {s : State} (hk : Keeps x0 s) : OutKeeps x0 (execGlbRstPavWrite src be v s) := by
  unfold execGlbRstPavWrite
  try dsimp only
  repeat' with_reducible first
    | exact hk
    | assumption
    | apply cfgWrite_keeps
    | apply OutKeeps.next
    | dsimp only

theorem execRegisterWrite_keeps {x0 : State} (off : BitVec 20) (src : Source) (be : BitVec 4) (v : Reg32) {s : State} (hk : Keeps x0 s) : OutKeeps x0 (execRegisterWrite off src be v s) := by
  unfold execRegisterWrite
  try dsimp only
  repeat' with_reducible first
    | exact hk
    | assumption
    | apply cfgWrite_keeps
    | apply OutKeeps.next
    | dsimp only

theorem execReadClearCounter_keeps {x0 : State} (src : Source) (off : BitVec 20) {s : State} (hk : Keeps x0 s) : OutKeeps x0 (execReadClearCounter src off s) := by
  unfold execReadClearCounter
  try dsimp only
  repeat' with_reducible first
    | exact hk
    | assumption
    | apply cfgRead_keeps
    | apply OutKeeps.next
    | dsimp only

end Sys2Proof.Machine
end

