-- ==== Sys2Proof/Laws/KeepsCommands.lean ====
section
/-! SUPPORT. What the operations of Machine/Commands.lean keep (Keeps of Safety.lean). -/
namespace Sys2Proof.Machine
open Sys2Proof

set_option linter.all false

theorem execPortRoleSet_keeps {x0 : State} (m : MbxId) (payload : List Byte) {s : State} (hk : Keeps x0 s) : OutKeeps x0 (execPortRoleSet m payload s) := by
  unfold execPortRoleSet
  try dsimp only
  repeat' with_reducible first
    | exact hk
    | assumption
    | apply quietStep_keeps
    | apply issue_keeps
    | apply OutKeeps.next
    | dsimp only

theorem execWindowSet_keeps {x0 : State} (m : MbxId) (payload : List Byte) {s : State} (hk : Keeps x0 s) : OutKeeps x0 (execWindowSet m payload s) := by
  unfold execWindowSet
  try dsimp only
  repeat' with_reducible first
    | exact hk
    | assumption
    | apply quietStep_keeps
    | apply issue_keeps
    | apply OutKeeps.next
    | dsimp only

theorem execSignpostSet_keeps {x0 : State} (m : MbxId) (payload : List Byte) {s : State} (hk : Keeps x0 s) : OutKeeps x0 (execSignpostSet m payload s) := by
  unfold execSignpostSet
  try dsimp only
  repeat' with_reducible first
    | exact hk
    | assumption
    | apply quietStep_keeps
    | apply issue_keeps
    | apply OutKeeps.next
    | dsimp only

theorem execPoolStatus_keeps {x0 : State} (m : MbxId) (payload : List Byte) {s : State} (hk : Keeps x0 s) : OutKeeps x0 (execPoolStatus m payload s) := by
  unfold execPoolStatus
  try dsimp only
  repeat' with_reducible first
    | exact hk
    | assumption
    | apply quietStep_keeps
    | apply issue_keeps
    | apply OutKeeps.next
    | dsimp only

theorem execMapSet_keeps {x0 : State} (m : MbxId) (payload : List Byte) {s : State} (hk : Keeps x0 s) : OutKeeps x0 (execMapSet m payload s) := by
  unfold execMapSet
  try dsimp only
  repeat' with_reducible first
    | exact hk
    | assumption
    | apply quietStep_keeps
    | apply issue_keeps
    | apply OutKeeps.next
    | dsimp only

theorem execMapStatus_keeps {x0 : State} (m : MbxId) (payload : List Byte) {s : State} (hk : Keeps x0 s) : OutKeeps x0 (execMapStatus m payload s) := by
  unfold execMapStatus
  try dsimp only
  repeat' with_reducible first
    | exact hk
    | assumption
    | apply quietStep_keeps
    | apply issue_keeps
    | apply OutKeeps.next
    | dsimp only

theorem execMapTranslate_keeps {x0 : State} (m : MbxId) (payload : List Byte) {s : State} (hk : Keeps x0 s) : OutKeeps x0 (execMapTranslate m payload s) := by
  unfold execMapTranslate
  try dsimp only
  repeat' with_reducible first
    | exact hk
    | assumption
    | apply quietStep_keeps
    | apply issue_keeps
    | apply OutKeeps.next
    | dsimp only

theorem execCadSet_keeps {x0 : State} (m : MbxId) (payload : List Byte) {s : State} (hk : Keeps x0 s) : OutKeeps x0 (execCadSet m payload s) := by
  unfold execCadSet
  try dsimp only
  repeat' with_reducible first
    | exact hk
    | assumption
    | apply quietStep_keeps
    | apply issue_keeps
    | apply OutKeeps.next
    | dsimp only

theorem execCadStatus_keeps {x0 : State} (m : MbxId) (payload : List Byte) {s : State} (hk : Keeps x0 s) : OutKeeps x0 (execCadStatus m payload s) := by
  unfold execCadStatus
  try dsimp only
  repeat' with_reducible first
    | exact hk
    | assumption
    | apply quietStep_keeps
    | apply issue_keeps
    | apply OutKeeps.next
    | dsimp only

theorem execSlotSet_keeps {x0 : State} (m : MbxId) (payload : List Byte) {s : State} (hk : Keeps x0 s) : OutKeeps x0 (execSlotSet m payload s) := by
  unfold execSlotSet
  try dsimp only
  repeat' with_reducible first
    | exact hk
    | assumption
    | apply quietStep_keeps
    | apply issue_keeps
    | apply OutKeeps.next
    | dsimp only

theorem execRefWindowsSet_keeps {x0 : State} (m : MbxId) (payload : List Byte) {s : State} (hk : Keeps x0 s) : OutKeeps x0 (execRefWindowsSet m payload s) := by
  unfold execRefWindowsSet
  try dsimp only
  repeat' with_reducible first
    | exact hk
    | assumption
    | apply quietStep_keeps
    | apply issue_keeps
    | apply OutKeeps.next
    | dsimp only

theorem execRefSpread_keeps {x0 : State} (m : MbxId) (payload : List Byte) {s : State} (hk : Keeps x0 s) : OutKeeps x0 (execRefSpread m payload s) := by
  unfold execRefSpread
  try dsimp only
  repeat' with_reducible first
    | exact hk
    | assumption
    | apply quietStep_keeps
    | apply issue_keeps
    | apply OutKeeps.next
    | dsimp only

theorem execRefStatus_keeps {x0 : State} (m : MbxId) (payload : List Byte) {s : State} (hk : Keeps x0 s) : OutKeeps x0 (execRefStatus m payload s) := by
  unfold execRefStatus
  try dsimp only
  repeat' with_reducible first
    | exact hk
    | assumption
    | apply quietStep_keeps
    | apply issue_keeps
    | apply OutKeeps.next
    | dsimp only

theorem execNeighSet_keeps {x0 : State} (m : MbxId) (payload : List Byte) {s : State} (hk : Keeps x0 s) : OutKeeps x0 (execNeighSet m payload s) := by
  unfold execNeighSet
  try dsimp only
  repeat' with_reducible first
    | exact hk
    | assumption
    | apply quietStep_keeps
    | apply issue_keeps
    | apply OutKeeps.next
    | dsimp only

theorem execEccStatus_keeps {x0 : State} (m : MbxId) (payload : List Byte) {s : State} (hk : Keeps x0 s) : OutKeeps x0 (execEccStatus m payload s) := by
  unfold execEccStatus
  try dsimp only
  repeat' with_reducible first
    | exact hk
    | assumption
    | apply quietStep_keeps
    | apply issue_keeps
    | apply OutKeeps.next
    | dsimp only

theorem execEccClear_keeps {x0 : State} (m : MbxId) (payload : List Byte) {s : State} (hk : Keeps x0 s) : OutKeeps x0 (execEccClear m payload s) := by
  unfold execEccClear
  try dsimp only
  repeat' with_reducible first
    | exact hk
    | assumption
    | apply quietStep_keeps
    | apply issue_keeps
    | apply OutKeeps.next
    | dsimp only

theorem execScrubRegions_keeps {x0 : State} (m : MbxId) (payload : List Byte) {s : State} (hk : Keeps x0 s) : OutKeeps x0 (execScrubRegions m payload s) := by
  unfold execScrubRegions
  try dsimp only
  repeat' with_reducible first
    | exact hk
    | assumption
    | apply quietStep_keeps
    | apply issue_keeps
    | apply OutKeeps.next
    | dsimp only

theorem execRepairMapRead_keeps {x0 : State} (m : MbxId) (payload : List Byte) {s : State} (hk : Keeps x0 s) : OutKeeps x0 (execRepairMapRead m payload s) := by
  unfold execRepairMapRead
  try dsimp only
  repeat' with_reducible first
    | exact hk
    | assumption
    | apply quietStep_keeps
    | apply issue_keeps
    | apply OutKeeps.next
    | dsimp only

theorem execSpareList_keeps {x0 : State} (m : MbxId) (payload : List Byte) {s : State} (hk : Keeps x0 s) : OutKeeps x0 (execSpareList m payload s) := by
  unfold execSpareList
  try dsimp only
  repeat' with_reducible first
    | exact hk
    | assumption
    | apply quietStep_keeps
    | apply issue_keeps
    | apply OutKeeps.next
    | dsimp only

theorem execSpareCommit_keeps {x0 : State} (m : MbxId) (payload : List Byte) {s : State} (hk : Keeps x0 s) : OutKeeps x0 (execSpareCommit m payload s) := by
  unfold execSpareCommit
  try dsimp only
  repeat' with_reducible first
    | exact hk
    | assumption
    | apply quietStep_keeps
    | apply issue_keeps
    | apply OutKeeps.next
    | dsimp only

theorem execRowSpare_keeps {x0 : State} (m : MbxId) (payload : List Byte) {s : State} (hk : Keeps x0 s) : OutKeeps x0 (execRowSpare m payload s) := by
  unfold execRowSpare
  try dsimp only
  repeat' with_reducible first
    | exact hk
    | assumption
    | apply quietStep_keeps
    | apply issue_keeps
    | apply OutKeeps.next
    | dsimp only

theorem execPavRetire_keeps {x0 : State} (m : MbxId) (payload : List Byte) {s : State} (hk : Keeps x0 s) : OutKeeps x0 (execPavRetire m payload s) := by
  unfold execPavRetire
  try dsimp only
  repeat' with_reducible first
    | exact hk
    | assumption
    | apply quietStep_keeps
    | apply issue_keeps
    | apply OutKeeps.next
    | dsimp only

theorem execFill_keeps {x0 : State} (m : MbxId) (payload : List Byte) {s : State} (hk : Keeps x0 s) : OutKeeps x0 (execFill m payload s) := by
  unfold execFill
  try dsimp only
  repeat' with_reducible first
    | exact hk
    | assumption
    | apply quietStep_keeps
    | apply issue_keeps
    | apply OutKeeps.next
    | dsimp only

theorem execCopy_keeps {x0 : State} (m : MbxId) (payload : List Byte) {s : State} (hk : Keeps x0 s) : OutKeeps x0 (execCopy m payload s) := by
  unfold execCopy
  try dsimp only
  repeat' with_reducible first
    | exact hk
    | assumption
    | apply quietStep_keeps
    | apply issue_keeps
    | apply OutKeeps.next
    | dsimp only

theorem execBulkStatus_keeps {x0 : State} (m : MbxId) (payload : List Byte) {s : State} (hk : Keeps x0 s) : OutKeeps x0 (execBulkStatus m payload s) := by
  unfold execBulkStatus
  try dsimp only
  repeat' with_reducible first
    | exact hk
    | assumption
    | apply quietStep_keeps
    | apply issue_keeps
    | apply OutKeeps.next
    | dsimp only

theorem execBulkAbort_keeps {x0 : State} (m : MbxId) (payload : List Byte) {s : State} (hk : Keeps x0 s) : OutKeeps x0 (execBulkAbort m payload s) := by
  unfold execBulkAbort
  try dsimp only
  repeat' with_reducible first
    | exact hk
    | assumption
    | apply quietStep_keeps
    | apply issue_keeps
    | apply OutKeeps.next
    | dsimp only

theorem execBistStatus_keeps {x0 : State} (m : MbxId) (payload : List Byte) {s : State} (hk : Keeps x0 s) : OutKeeps x0 (execBistStatus m payload s) := by
  unfold execBistStatus
  try dsimp only
  repeat' with_reducible first
    | exact hk
    | assumption
    | apply quietStep_keeps
    | apply issue_keeps
    | apply OutKeeps.next
    | dsimp only

theorem execSweepStart_keeps {x0 : State} (m : MbxId) (payload : List Byte) {s : State} (hk : Keeps x0 s) : OutKeeps x0 (execSweepStart m payload s) := by
  unfold execSweepStart
  try dsimp only
  repeat' with_reducible first
    | exact hk
    | assumption
    | apply quietStep_keeps
    | apply issue_keeps
    | apply OutKeeps.next
    | dsimp only

theorem execBistStop_keeps {x0 : State} (m : MbxId) (payload : List Byte) {s : State} (hk : Keeps x0 s) : OutKeeps x0 (execBistStop m payload s) := by
  unfold execBistStop
  try dsimp only
  repeat' with_reducible first
    | exact hk
    | assumption
    | apply quietStep_keeps
    | apply issue_keeps
    | apply OutKeeps.next
    | dsimp only

theorem execSliceRow_keeps {x0 : State} (m : MbxId) (payload : List Byte) {s : State} (hk : Keeps x0 s) : OutKeeps x0 (execSliceRow m payload s) := by
  unfold execSliceRow
  try dsimp only
  repeat' with_reducible first
    | exact hk
    | assumption
    | apply quietStep_keeps
    | apply issue_keeps
    | apply OutKeeps.next
    | dsimp only

theorem execParkStart_keeps {x0 : State} (m : MbxId) (payload : List Byte) {s : State} (hk : Keeps x0 s) : OutKeeps x0 (execParkStart m payload s) := by
  unfold execParkStart
  try dsimp only
  repeat' with_reducible first
    | exact hk
    | assumption
    | apply quietStep_keeps
    | apply issue_keeps
    | apply OutKeeps.next
    | dsimp only

theorem execCertRead_keeps {x0 : State} (m : MbxId) (payload : List Byte) {s : State} (hk : Keeps x0 s) : OutKeeps x0 (execCertRead m payload s) := by
  unfold execCertRead
  try dsimp only
  repeat' with_reducible first
    | exact hk
    | assumption
    | apply quietStep_keeps
    | apply issue_keeps
    | apply OutKeeps.next
    | dsimp only

theorem execCertLoad_keeps {x0 : State} (m : MbxId) (payload : List Byte) {s : State} (hk : Keeps x0 s) : OutKeeps x0 (execCertLoad m payload s) := by
  unfold execCertLoad
  try dsimp only
  repeat' with_reducible first
    | exact hk
    | assumption
    | apply quietStep_keeps
    | apply issue_keeps
    | apply OutKeeps.next
    | dsimp only

theorem execCertSubmit_keeps {x0 : State} (m : MbxId) (payload : List Byte) {s : State} (hk : Keeps x0 s) : OutKeeps x0 (execCertSubmit m payload s) := by
  unfold execCertSubmit
  try dsimp only
  repeat' with_reducible first
    | exact hk
    | assumption
    | apply quietStep_keeps
    | apply issue_keeps
    | apply OutKeeps.next
    | dsimp only

theorem execArrayTest_keeps {x0 : State} (m : MbxId) (payload : List Byte) {s : State} (hk : Keeps x0 s) : OutKeeps x0 (execArrayTest m payload s) := by
  unfold execArrayTest
  try dsimp only
  repeat' with_reducible first
    | exact hk
    | assumption
    | apply quietStep_keeps
    | apply issue_keeps
    | apply OutKeeps.next
    | dsimp only

theorem execArrayRawRead_keeps {x0 : State} (m : MbxId) (payload : List Byte) {s : State} (hk : Keeps x0 s) : OutKeeps x0 (execArrayRawRead m payload s) := by
  unfold execArrayRawRead
  try dsimp only
  repeat' with_reducible first
    | exact hk
    | assumption
    | apply quietStep_keeps
    | apply issue_keeps
    | apply OutKeeps.next
    | dsimp only

theorem execArrayRawWrite_keeps {x0 : State} (m : MbxId) (payload : List Byte) {s : State} (hk : Keeps x0 s) : OutKeeps x0 (execArrayRawWrite m payload s) := by
  unfold execArrayRawWrite
  try dsimp only
  repeat' with_reducible first
    | exact hk
    | assumption
    | apply quietStep_keeps
    | apply issue_keeps
    | apply OutKeeps.next
    | dsimp only

theorem execThmStatus_keeps {x0 : State} (m : MbxId) (payload : List Byte) {s : State} (hk : Keeps x0 s) : OutKeeps x0 (execThmStatus m payload s) := by
  unfold execThmStatus
  try dsimp only
  repeat' with_reducible first
    | exact hk
    | assumption
    | apply quietStep_keeps
    | apply issue_keeps
    | apply OutKeeps.next
    | dsimp only

theorem execThrottleSet_keeps {x0 : State} (m : MbxId) (payload : List Byte) {s : State} (hk : Keeps x0 s) : OutKeeps x0 (execThrottleSet m payload s) := by
  unfold execThrottleSet
  try dsimp only
  repeat' with_reducible first
    | exact hk
    | assumption
    | apply quietStep_keeps
    | apply issue_keeps
    | apply OutKeeps.next
    | dsimp only

theorem execHaltClear_keeps {x0 : State} (m : MbxId) (payload : List Byte) {s : State} (hk : Keeps x0 s) : OutKeeps x0 (execHaltClear m payload s) := by
  unfold execHaltClear
  try dsimp only
  repeat' with_reducible first
    | exact hk
    | assumption
    | apply quietStep_keeps
    | apply issue_keeps
    | apply OutKeeps.next
    | dsimp only

theorem execAlertSet_keeps {x0 : State} (m : MbxId) (payload : List Byte) {s : State} (hk : Keeps x0 s) : OutKeeps x0 (execAlertSet m payload s) := by
  unfold execAlertSet
  try dsimp only
  repeat' with_reducible first
    | exact hk
    | assumption
    | apply quietStep_keeps
    | apply issue_keeps
    | apply OutKeeps.next
    | dsimp only

theorem execExtSet_keeps {x0 : State} (m : MbxId) (payload : List Byte) {s : State} (hk : Keeps x0 s) : OutKeeps x0 (execExtSet m payload s) := by
  unfold execExtSet
  try dsimp only
  repeat' with_reducible first
    | exact hk
    | assumption
    | apply quietStep_keeps
    | apply issue_keeps
    | apply OutKeeps.next
    | dsimp only

theorem execCalStatus_keeps {x0 : State} (m : MbxId) (payload : List Byte) {s : State} (hk : Keeps x0 s) : OutKeeps x0 (execCalStatus m payload s) := by
  unfold execCalStatus
  try dsimp only
  repeat' with_reducible first
    | exact hk
    | assumption
    | apply quietStep_keeps
    | apply issue_keeps
    | apply OutKeeps.next
    | dsimp only

theorem execLaneRetune_keeps {x0 : State} (m : MbxId) (payload : List Byte) {s : State} (hk : Keeps x0 s) : OutKeeps x0 (execLaneRetune m payload s) := by
  unfold execLaneRetune
  try dsimp only
  repeat' with_reducible first
    | exact hk
    | assumption
    | apply quietStep_keeps
    | apply issue_keeps
    | apply OutKeeps.next
    | dsimp only

theorem execEyeScan_keeps {x0 : State} (m : MbxId) (payload : List Byte) {s : State} (hk : Keeps x0 s) : OutKeeps x0 (execEyeScan m payload s) := by
  unfold execEyeScan
  try dsimp only
  repeat' with_reducible first
    | exact hk
    | assumption
    | apply quietStep_keeps
    | apply issue_keeps
    | apply OutKeeps.next
    | dsimp only

theorem execTsvCal_keeps {x0 : State} (m : MbxId) (payload : List Byte) {s : State} (hk : Keeps x0 s) : OutKeeps x0 (execTsvCal m payload s) := by
  unfold execTsvCal
  try dsimp only
  repeat' with_reducible first
    | exact hk
    | assumption
    | apply quietStep_keeps
    | apply issue_keeps
    | apply OutKeeps.next
    | dsimp only

theorem execSensorCal_keeps {x0 : State} (m : MbxId) (payload : List Byte) {s : State} (hk : Keeps x0 s) : OutKeeps x0 (execSensorCal m payload s) := by
  unfold execSensorCal
  try dsimp only
  repeat' with_reducible first
    | exact hk
    | assumption
    | apply quietStep_keeps
    | apply issue_keeps
    | apply OutKeeps.next
    | dsimp only

theorem execOscLearn_keeps {x0 : State} (m : MbxId) (payload : List Byte) {s : State} (hk : Keeps x0 s) : OutKeeps x0 (execOscLearn m payload s) := by
  unfold execOscLearn
  try dsimp only
  repeat' with_reducible first
    | exact hk
    | assumption
    | apply quietStep_keeps
    | apply issue_keeps
    | apply OutKeeps.next
    | dsimp only

theorem execCalAbort_keeps {x0 : State} (m : MbxId) (payload : List Byte) {s : State} (hk : Keeps x0 s) : OutKeeps x0 (execCalAbort m payload s) := by
  unfold execCalAbort
  try dsimp only
  repeat' with_reducible first
    | exact hk
    | assumption
    | apply quietStep_keeps
    | apply issue_keeps
    | apply OutKeeps.next
    | dsimp only

theorem execIdGet_keeps {x0 : State} (m : MbxId) (payload : List Byte) {s : State} (hk : Keeps x0 s) : OutKeeps x0 (execIdGet m payload s) := by
  unfold execIdGet
  try dsimp only
  repeat' with_reducible first
    | exact hk
    | assumption
    | apply quietStep_keeps
    | apply issue_keeps
    | apply OutKeeps.next
    | dsimp only

theorem execEcho_keeps {x0 : State} (m : MbxId) (payload : List Byte) {s : State} (hk : Keeps x0 s) : OutKeeps x0 (execEcho m payload s) := by
  unfold execEcho
  try dsimp only
  repeat' with_reducible first
    | exact hk
    | assumption
    | apply quietStep_keeps
    | apply issue_keeps
    | apply OutKeeps.next
    | dsimp only

theorem execStartupRecordRead_keeps {x0 : State} (m : MbxId) (payload : List Byte) {s : State} (hk : Keeps x0 s) : OutKeeps x0 (execStartupRecordRead m payload s) := by
  unfold execStartupRecordRead
  try dsimp only
  repeat' with_reducible first
    | exact hk
    | assumption
    | apply quietStep_keeps
    | apply issue_keeps
    | apply OutKeeps.next
    | dsimp only

theorem execStewardStatus_keeps {x0 : State} (m : MbxId) (payload : List Byte) {s : State} (hk : Keeps x0 s) : OutKeeps x0 (execStewardStatus m payload s) := by
  unfold execStewardStatus
  try dsimp only
  repeat' with_reducible first
    | exact hk
    | assumption
    | apply quietStep_keeps
    | apply issue_keeps
    | apply OutKeeps.next
    | dsimp only

theorem execStewardSet_keeps {x0 : State} (m : MbxId) (payload : List Byte) {s : State} (hk : Keeps x0 s) : OutKeeps x0 (execStewardSet m payload s) := by
  unfold execStewardSet
  try dsimp only
  repeat' with_reducible first
    | exact hk
    | assumption
    | apply quietStep_keeps
    | apply issue_keeps
    | apply OutKeeps.next
    | dsimp only

theorem execFwLoad_keeps {x0 : State} (m : MbxId) (payload : List Byte) {s : State} (hk : Keeps x0 s) : OutKeeps x0 (execFwLoad m payload s) := by
  unfold execFwLoad
  try dsimp only
  repeat' with_reducible first
    | exact hk
    | assumption
    | apply quietStep_keeps
    | apply issue_keeps
    | apply OutKeeps.next
    | dsimp only

theorem execFwActivate_keeps {x0 : State} (m : MbxId) (payload : List Byte) {s : State} (hk : Keeps x0 s) : OutKeeps x0 (execFwActivate m payload s) := by
  unfold execFwActivate
  try dsimp only
  repeat' with_reducible first
    | exact hk
    | assumption
    | apply quietStep_keeps
    | apply issue_keeps
    | apply OutKeeps.next
    | dsimp only

theorem execFwStatus_keeps {x0 : State} (m : MbxId) (payload : List Byte) {s : State} (hk : Keeps x0 s) : OutKeeps x0 (execFwStatus m payload s) := by
  unfold execFwStatus
  try dsimp only
  repeat' with_reducible first
    | exact hk
    | assumption
    | apply quietStep_keeps
    | apply issue_keeps
    | apply OutKeeps.next
    | dsimp only

theorem execMonConfig_keeps {x0 : State} (m : MbxId) (payload : List Byte) {s : State} (hk : Keeps x0 s) : OutKeeps x0 (execMonConfig m payload s) := by
  unfold execMonConfig
  try dsimp only
  repeat' with_reducible first
    | exact hk
    | assumption
    | apply quietStep_keeps
    | apply issue_keeps
    | apply OutKeeps.next
    | dsimp only

theorem execMonRead_keeps {x0 : State} (m : MbxId) (payload : List Byte) {s : State} (hk : Keeps x0 s) : OutKeeps x0 (execMonRead m payload s) := by
  unfold execMonRead
  try dsimp only
  repeat' with_reducible first
    | exact hk
    | assumption
    | apply quietStep_keeps
    | apply issue_keeps
    | apply OutKeeps.next
    | dsimp only

theorem execMonSnapshot_keeps {x0 : State} (m : MbxId) (payload : List Byte) {s : State} (hk : Keeps x0 s) : OutKeeps x0 (execMonSnapshot m payload s) := by
  unfold execMonSnapshot
  try dsimp only
  repeat' with_reducible first
    | exact hk
    | assumption
    | apply quietStep_keeps
    | apply issue_keeps
    | apply OutKeeps.next
    | dsimp only

theorem execTelemetrySet_keeps {x0 : State} (m : MbxId) (payload : List Byte) {s : State} (hk : Keeps x0 s) : OutKeeps x0 (execTelemetrySet m payload s) := by
  unfold execTelemetrySet
  try dsimp only
  repeat' with_reducible first
    | exact hk
    | assumption
    | apply quietStep_keeps
    | apply issue_keeps
    | apply OutKeeps.next
    | dsimp only

theorem execEvtConfig_keeps {x0 : State} (m : MbxId) (payload : List Byte) {s : State} (hk : Keeps x0 s) : OutKeeps x0 (execEvtConfig m payload s) := by
  unfold execEvtConfig
  try dsimp only
  repeat' with_reducible first
    | exact hk
    | assumption
    | apply quietStep_keeps
    | apply issue_keeps
    | apply OutKeeps.next
    | dsimp only

theorem execEvtRead_keeps {x0 : State} (m : MbxId) (payload : List Byte) {s : State} (hk : Keeps x0 s) : OutKeeps x0 (execEvtRead m payload s) := by
  unfold execEvtRead
  try dsimp only
  repeat' with_reducible first
    | exact hk
    | assumption
    | apply quietStep_keeps
    | apply issue_keeps
    | apply OutKeeps.next
    | dsimp only

theorem execEvtStatus_keeps {x0 : State} (m : MbxId) (payload : List Byte) {s : State} (hk : Keeps x0 s) : OutKeeps x0 (execEvtStatus m payload s) := by
  unfold execEvtStatus
  try dsimp only
  repeat' with_reducible first
    | exact hk
    | assumption
    | apply quietStep_keeps
    | apply issue_keeps
    | apply OutKeeps.next
    | dsimp only

theorem execEvtClear_keeps {x0 : State} (m : MbxId) (payload : List Byte) {s : State} (hk : Keeps x0 s) : OutKeeps x0 (execEvtClear m payload s) := by
  unfold execEvtClear
  try dsimp only
  repeat' with_reducible first
    | exact hk
    | assumption
    | apply quietStep_keeps
    | apply issue_keeps
    | apply OutKeeps.next
    | dsimp only

theorem execOtpRead_keeps {x0 : State} (m : MbxId) (payload : List Byte) {s : State} (hk : Keeps x0 s) : OutKeeps x0 (execOtpRead m payload s) := by
  unfold execOtpRead
  try dsimp only
  repeat' with_reducible first
    | exact hk
    | assumption
    | apply quietStep_keeps
    | apply issue_keeps
    | apply OutKeeps.next
    | dsimp only

theorem execOtpProgram_keeps {x0 : State} (m : MbxId) (payload : List Byte) {s : State} (hk : Keeps x0 s) : OutKeeps x0 (execOtpProgram m payload s) := by
  unfold execOtpProgram
  try dsimp only
  repeat' with_reducible first
    | exact hk
    | assumption
    | apply quietStep_keeps
    | apply issue_keeps
    | apply OutKeeps.next
    | dsimp only

theorem execOtpLock_keeps {x0 : State} (m : MbxId) (payload : List Byte) {s : State} (hk : Keeps x0 s) : OutKeeps x0 (execOtpLock m payload s) := by
  unfold execOtpLock
  try dsimp only
  repeat' with_reducible first
    | exact hk
    | assumption
    | apply quietStep_keeps
    | apply issue_keeps
    | apply OutKeeps.next
    | dsimp only

theorem execOtpLockForce_keeps {x0 : State} (m : MbxId) (payload : List Byte) {s : State} (hk : Keeps x0 s) : OutKeeps x0 (execOtpLockForce m payload s) := by
  unfold execOtpLockForce
  try dsimp only
  repeat' with_reducible first
    | exact hk
    | assumption
    | apply quietStep_keeps
    | apply issue_keeps
    | apply OutKeeps.next
    | dsimp only

theorem execRepairOtp_keeps {x0 : State} (m : MbxId) (payload : List Byte) {s : State} (hk : Keeps x0 s) : OutKeeps x0 (execRepairOtp m payload s) := by
  unfold execRepairOtp
  try dsimp only
  repeat' with_reducible first
    | exact hk
    | assumption
    | apply quietStep_keeps
    | apply issue_keeps
    | apply OutKeeps.next
    | dsimp only

theorem execOtpStatus_keeps {x0 : State} (m : MbxId) (payload : List Byte) {s : State} (hk : Keeps x0 s) : OutKeeps x0 (execOtpStatus m payload s) := by
  unfold execOtpStatus
  try dsimp only
  repeat' with_reducible first
    | exact hk
    | assumption
    | apply quietStep_keeps
    | apply issue_keeps
    | apply OutKeeps.next
    | dsimp only

theorem execOtpJournalRead_keeps {x0 : State} (m : MbxId) (payload : List Byte) {s : State} (hk : Keeps x0 s) : OutKeeps x0 (execOtpJournalRead m payload s) := by
  unfold execOtpJournalRead
  try dsimp only
  repeat' with_reducible first
    | exact hk
    | assumption
    | apply quietStep_keeps
    | apply issue_keeps
    | apply OutKeeps.next
    | dsimp only

theorem execIdCertRead_keeps {x0 : State} (m : MbxId) (payload : List Byte) {s : State} (hk : Keeps x0 s) : OutKeeps x0 (execIdCertRead m payload s) := by
  unfold execIdCertRead
  try dsimp only
  repeat' with_reducible first
    | exact hk
    | assumption
    | apply quietStep_keeps
    | apply issue_keeps
    | apply OutKeeps.next
    | dsimp only

theorem execAttest_keeps {x0 : State} (m : MbxId) (payload : List Byte) {s : State} (hk : Keeps x0 s) : OutKeeps x0 (execAttest m payload s) := by
  unfold execAttest
  try dsimp only
  repeat' with_reducible first
    | exact hk
    | assumption
    | apply quietStep_keeps
    | apply issue_keeps
    | apply OutKeeps.next
    | dsimp only

theorem execKeyEnrol_keeps {x0 : State} (m : MbxId) (payload : List Byte) {s : State} (hk : Keeps x0 s) : OutKeeps x0 (execKeyEnrol m payload s) := by
  unfold execKeyEnrol
  try dsimp only
  repeat' with_reducible first
    | exact hk
    | assumption
    | apply quietStep_keeps
    | apply issue_keeps
    | apply OutKeeps.next
    | dsimp only

theorem execWorkshopEnter_keeps {x0 : State} (m : MbxId) (payload : List Byte) {s : State} (hk : Keeps x0 s) : OutKeeps x0 (execWorkshopEnter m payload s) := by
  unfold execWorkshopEnter
  try dsimp only
  repeat' with_reducible first
    | exact hk
    | assumption
    | apply quietStep_keeps
    | apply issue_keeps
    | apply OutKeeps.next
    | dsimp only

theorem execWorkshopExit_keeps {x0 : State} (m : MbxId) (payload : List Byte) {s : State} (hk : Keeps x0 s) : OutKeeps x0 (execWorkshopExit m payload s) := by
  unfold execWorkshopExit
  try dsimp only
  repeat' with_reducible first
    | exact hk
    | assumption
    | apply quietStep_keeps
    | apply issue_keeps
    | apply OutKeeps.next
    | dsimp only

theorem execPowerSet_keeps {x0 : State} (m : MbxId) (payload : List Byte) {s : State} (hk : Keeps x0 s) : OutKeeps x0 (execPowerSet m payload s) := by
  unfold execPowerSet
  try dsimp only
  repeat' with_reducible first
    | exact hk
    | assumption
    | apply quietStep_keeps
    | apply issue_keeps
    | apply OutKeeps.next
    | dsimp only

theorem execPowerStatus_keeps {x0 : State} (m : MbxId) (payload : List Byte) {s : State} (hk : Keeps x0 s) : OutKeeps x0 (execPowerStatus m payload s) := by
  unfold execPowerStatus
  try dsimp only
  repeat' with_reducible first
    | exact hk
    | assumption
    | apply quietStep_keeps
    | apply issue_keeps
    | apply OutKeeps.next
    | dsimp only

theorem execShutdown_keeps {x0 : State} (m : MbxId) (payload : List Byte) {s : State} (hk : Keeps x0 s) : OutKeeps x0 (execShutdown m payload s) := by
  unfold execShutdown
  try dsimp only
  repeat' with_reducible first
    | exact hk
    | assumption
    | apply quietStep_keeps
    | apply issue_keeps
    | apply OutKeeps.next
    | dsimp only

end Sys2Proof.Machine
end

