-- ==== Sys2Proof/Laws/State.lean ====
section
/-! SUPPORT. One lemma per field of State per update, so that no proof unfolds a record update; then the registers and the
indexed parts: what is read after a write. -/
namespace Sys2Proof.Machine
open Sys2Proof

/-! ### setReg -/

@[simp] theorem State.setReg_pending (s : State) (off : Nat) (v : Reg32) : (s.setReg off v).pending = s.pending := rfl
@[simp] theorem State.setReg_now (s : State) (off : Nat) (v : Reg32) : (s.setReg off v).now = s.now := rfl
@[simp] theorem State.setReg_freeIdx (s : State) (off : Nat) (v : Reg32) : (s.setReg off v).freeIdx = s.freeIdx := rfl
@[simp] theorem State.setReg_epoch (s : State) (off : Nat) (v : Reg32) : (s.setReg off v).epoch = s.epoch := rfl
@[simp] theorem State.setReg_eff (s : State) (off : Nat) (v : Reg32) : (s.setReg off v).eff = s.eff := rfl
@[simp] theorem State.setReg_staged (s : State) (off : Nat) (v : Reg32) : (s.setReg off v).staged = s.staged := rfl
@[simp] theorem State.setReg_lastRead (s : State) (off : Nat) (v : Reg32) : (s.setReg off v).lastRead = s.lastRead := rfl
@[simp] theorem State.setReg_lastStatus (s : State) (off : Nat) (v : Reg32) : (s.setReg off v).lastStatus = s.lastStatus := rfl
@[simp] theorem State.setReg_dram (s : State) (off : Nat) (v : Reg32) : (s.setReg off v).dram = s.dram := rfl
@[simp] theorem State.setReg_ports (s : State) (off : Nat) (v : Reg32) : (s.setReg off v).ports = s.ports := rfl
@[simp] theorem State.setReg_lanes (s : State) (off : Nat) (v : Reg32) : (s.setReg off v).lanes = s.lanes := rfl
@[simp] theorem State.setReg_prom (s : State) (off : Nat) (v : Reg32) : (s.setReg off v).prom = s.prom := rfl
@[simp] theorem State.setReg_promRr (s : State) (off : Nat) (v : Reg32) : (s.setReg off v).promRr = s.promRr := rfl
@[simp] theorem State.setReg_sentAt (s : State) (off : Nat) (v : Reg32) : (s.setReg off v).sentAt = s.sentAt := rfl
@[simp] theorem State.setReg_nextId (s : State) (off : Nat) (v : Reg32) : (s.setReg off v).nextId = s.nextId := rfl
@[simp] theorem State.setReg_pavs (s : State) (off : Nat) (v : Reg32) : (s.setReg off v).pavs = s.pavs := rfl
@[simp] theorem State.setReg_tsvCmds (s : State) (off : Nat) (v : Reg32) : (s.setReg off v).tsvCmds = s.tsvCmds := rfl
@[simp] theorem State.setReg_cad (s : State) (off : Nat) (v : Reg32) : (s.setReg off v).cad = s.cad := rfl
@[simp] theorem State.setReg_therm (s : State) (off : Nat) (v : Reg32) : (s.setReg off v).therm = s.therm := rfl
@[simp] theorem State.setReg_crossing (s : State) (off : Nat) (v : Reg32) : (s.setReg off v).crossing = s.crossing := rfl
@[simp] theorem State.setReg_latches (s : State) (off : Nat) (v : Reg32) : (s.setReg off v).latches = s.latches := rfl
@[simp] theorem State.setReg_onceTurn (s : State) (off : Nat) (v : Reg32) : (s.setReg off v).onceTurn = s.onceTurn := rfl
@[simp] theorem State.setReg_mons (s : State) (off : Nat) (v : Reg32) : (s.setReg off v).mons = s.mons := rfl
@[simp] theorem State.setReg_monSnapMbx (s : State) (off : Nat) (v : Reg32) : (s.setReg off v).monSnapMbx = s.monSnapMbx := rfl
@[simp] theorem State.setReg_sram (s : State) (off : Nat) (v : Reg32) : (s.setReg off v).sram = s.sram := rfl
@[simp] theorem State.setReg_mbxs (s : State) (off : Nat) (v : Reg32) : (s.setReg off v).mbxs = s.mbxs := rfl
@[simp] theorem State.setReg_lastTaken (s : State) (off : Nat) (v : Reg32) : (s.setReg off v).lastTaken = s.lastTaken := rfl
@[simp] theorem State.setReg_staging (s : State) (off : Nat) (v : Reg32) : (s.setReg off v).staging = s.staging := rfl
@[simp] theorem State.setReg_stagingHigh (s : State) (off : Nat) (v : Reg32) : (s.setReg off v).stagingHigh = s.stagingHigh := rfl
@[simp] theorem State.setReg_switch (s : State) (off : Nat) (v : Reg32) : (s.setReg off v).switch = s.switch := rfl
@[simp] theorem State.setReg_fwDigest (s : State) (off : Nat) (v : Reg32) : (s.setReg off v).fwDigest = s.fwDigest := rfl
@[simp] theorem State.setReg_bulk (s : State) (off : Nat) (v : Reg32) : (s.setReg off v).bulk = s.bulk := rfl
@[simp] theorem State.setReg_bulkLast (s : State) (off : Nat) (v : Reg32) : (s.setReg off v).bulkLast = s.bulkLast := rfl
@[simp] theorem State.setReg_otp (s : State) (off : Nat) (v : Reg32) : (s.setReg off v).otp = s.otp := rfl
@[simp] theorem State.setReg_signing (s : State) (off : Nat) (v : Reg32) : (s.setReg off v).signing = s.signing := rfl
@[simp] theorem State.setReg_sb (s : State) (off : Nat) (v : Reg32) : (s.setReg off v).sb = s.sb := rfl
@[simp] theorem State.setReg_power (s : State) (off : Nat) (v : Reg32) : (s.setReg off v).power = s.power := rfl
@[simp] theorem State.setReg_test (s : State) (off : Nat) (v : Reg32) : (s.setReg off v).test = s.test := rfl
@[simp] theorem State.setReg_port (s : State) (off : Nat) (v : Reg32) (i : Nat) : (s.setReg off v).port i = s.port i := rfl
@[simp] theorem State.setReg_lane (s : State) (off : Nat) (v : Reg32) (i j : Nat) : (s.setReg off v).lane i j = s.lane i j := rfl
@[simp] theorem State.setReg_pav (s : State) (off : Nat) (v : Reg32) (i : Nat) : (s.setReg off v).pav i = s.pav i := rfl
@[simp] theorem State.setReg_mbx (s : State) (off : Nat) (v : Reg32) (i : Nat) : (s.setReg off v).mbx i = s.mbx i := rfl
@[simp] theorem State.setReg_mon (s : State) (off : Nat) (v : Reg32) (i : Nat) : (s.setReg off v).mon i = s.mon i := rfl

/-! ### wr -/

@[simp] theorem State.wr_pending (s : State) (f : Fld) (v : Nat) : (s.wr f v).pending = s.pending := rfl
@[simp] theorem State.wr_now (s : State) (f : Fld) (v : Nat) : (s.wr f v).now = s.now := rfl
@[simp] theorem State.wr_freeIdx (s : State) (f : Fld) (v : Nat) : (s.wr f v).freeIdx = s.freeIdx := rfl
@[simp] theorem State.wr_epoch (s : State) (f : Fld) (v : Nat) : (s.wr f v).epoch = s.epoch := rfl
@[simp] theorem State.wr_eff (s : State) (f : Fld) (v : Nat) : (s.wr f v).eff = s.eff := rfl
@[simp] theorem State.wr_staged (s : State) (f : Fld) (v : Nat) : (s.wr f v).staged = s.staged := rfl
@[simp] theorem State.wr_lastRead (s : State) (f : Fld) (v : Nat) : (s.wr f v).lastRead = s.lastRead := rfl
@[simp] theorem State.wr_lastStatus (s : State) (f : Fld) (v : Nat) : (s.wr f v).lastStatus = s.lastStatus := rfl
@[simp] theorem State.wr_dram (s : State) (f : Fld) (v : Nat) : (s.wr f v).dram = s.dram := rfl
@[simp] theorem State.wr_ports (s : State) (f : Fld) (v : Nat) : (s.wr f v).ports = s.ports := rfl
@[simp] theorem State.wr_lanes (s : State) (f : Fld) (v : Nat) : (s.wr f v).lanes = s.lanes := rfl
@[simp] theorem State.wr_prom (s : State) (f : Fld) (v : Nat) : (s.wr f v).prom = s.prom := rfl
@[simp] theorem State.wr_promRr (s : State) (f : Fld) (v : Nat) : (s.wr f v).promRr = s.promRr := rfl
@[simp] theorem State.wr_sentAt (s : State) (f : Fld) (v : Nat) : (s.wr f v).sentAt = s.sentAt := rfl
@[simp] theorem State.wr_nextId (s : State) (f : Fld) (v : Nat) : (s.wr f v).nextId = s.nextId := rfl
@[simp] theorem State.wr_pavs (s : State) (f : Fld) (v : Nat) : (s.wr f v).pavs = s.pavs := rfl
@[simp] theorem State.wr_tsvCmds (s : State) (f : Fld) (v : Nat) : (s.wr f v).tsvCmds = s.tsvCmds := rfl
@[simp] theorem State.wr_cad (s : State) (f : Fld) (v : Nat) : (s.wr f v).cad = s.cad := rfl
@[simp] theorem State.wr_therm (s : State) (f : Fld) (v : Nat) : (s.wr f v).therm = s.therm := rfl
@[simp] theorem State.wr_crossing (s : State) (f : Fld) (v : Nat) : (s.wr f v).crossing = s.crossing := rfl
@[simp] theorem State.wr_latches (s : State) (f : Fld) (v : Nat) : (s.wr f v).latches = s.latches := rfl
@[simp] theorem State.wr_onceTurn (s : State) (f : Fld) (v : Nat) : (s.wr f v).onceTurn = s.onceTurn := rfl
@[simp] theorem State.wr_mons (s : State) (f : Fld) (v : Nat) : (s.wr f v).mons = s.mons := rfl
@[simp] theorem State.wr_monSnapMbx (s : State) (f : Fld) (v : Nat) : (s.wr f v).monSnapMbx = s.monSnapMbx := rfl
@[simp] theorem State.wr_sram (s : State) (f : Fld) (v : Nat) : (s.wr f v).sram = s.sram := rfl
@[simp] theorem State.wr_mbxs (s : State) (f : Fld) (v : Nat) : (s.wr f v).mbxs = s.mbxs := rfl
@[simp] theorem State.wr_lastTaken (s : State) (f : Fld) (v : Nat) : (s.wr f v).lastTaken = s.lastTaken := rfl
@[simp] theorem State.wr_staging (s : State) (f : Fld) (v : Nat) : (s.wr f v).staging = s.staging := rfl
@[simp] theorem State.wr_stagingHigh (s : State) (f : Fld) (v : Nat) : (s.wr f v).stagingHigh = s.stagingHigh := rfl
@[simp] theorem State.wr_switch (s : State) (f : Fld) (v : Nat) : (s.wr f v).switch = s.switch := rfl
@[simp] theorem State.wr_fwDigest (s : State) (f : Fld) (v : Nat) : (s.wr f v).fwDigest = s.fwDigest := rfl
@[simp] theorem State.wr_bulk (s : State) (f : Fld) (v : Nat) : (s.wr f v).bulk = s.bulk := rfl
@[simp] theorem State.wr_bulkLast (s : State) (f : Fld) (v : Nat) : (s.wr f v).bulkLast = s.bulkLast := rfl
@[simp] theorem State.wr_otp (s : State) (f : Fld) (v : Nat) : (s.wr f v).otp = s.otp := rfl
@[simp] theorem State.wr_signing (s : State) (f : Fld) (v : Nat) : (s.wr f v).signing = s.signing := rfl
@[simp] theorem State.wr_sb (s : State) (f : Fld) (v : Nat) : (s.wr f v).sb = s.sb := rfl
@[simp] theorem State.wr_power (s : State) (f : Fld) (v : Nat) : (s.wr f v).power = s.power := rfl
@[simp] theorem State.wr_test (s : State) (f : Fld) (v : Nat) : (s.wr f v).test = s.test := rfl
@[simp] theorem State.wr_port (s : State) (f : Fld) (v : Nat) (i : Nat) : (s.wr f v).port i = s.port i := rfl
@[simp] theorem State.wr_lane (s : State) (f : Fld) (v : Nat) (i j : Nat) : (s.wr f v).lane i j = s.lane i j := rfl
@[simp] theorem State.wr_pav (s : State) (f : Fld) (v : Nat) (i : Nat) : (s.wr f v).pav i = s.pav i := rfl
@[simp] theorem State.wr_mbx (s : State) (f : Fld) (v : Nat) (i : Nat) : (s.wr f v).mbx i = s.mbx i := rfl
@[simp] theorem State.wr_mon (s : State) (f : Fld) (v : Nat) (i : Nat) : (s.wr f v).mon i = s.mon i := rfl

/-! ### sat -/

@[simp] theorem State.sat_pending (s : State) (f : Fld) (k : Nat) : (s.sat f k).pending = s.pending := rfl
@[simp] theorem State.sat_now (s : State) (f : Fld) (k : Nat) : (s.sat f k).now = s.now := rfl
@[simp] theorem State.sat_freeIdx (s : State) (f : Fld) (k : Nat) : (s.sat f k).freeIdx = s.freeIdx := rfl
@[simp] theorem State.sat_epoch (s : State) (f : Fld) (k : Nat) : (s.sat f k).epoch = s.epoch := rfl
@[simp] theorem State.sat_eff (s : State) (f : Fld) (k : Nat) : (s.sat f k).eff = s.eff := rfl
@[simp] theorem State.sat_staged (s : State) (f : Fld) (k : Nat) : (s.sat f k).staged = s.staged := rfl
@[simp] theorem State.sat_lastRead (s : State) (f : Fld) (k : Nat) : (s.sat f k).lastRead = s.lastRead := rfl
@[simp] theorem State.sat_lastStatus (s : State) (f : Fld) (k : Nat) : (s.sat f k).lastStatus = s.lastStatus := rfl
@[simp] theorem State.sat_dram (s : State) (f : Fld) (k : Nat) : (s.sat f k).dram = s.dram := rfl
@[simp] theorem State.sat_ports (s : State) (f : Fld) (k : Nat) : (s.sat f k).ports = s.ports := rfl
@[simp] theorem State.sat_lanes (s : State) (f : Fld) (k : Nat) : (s.sat f k).lanes = s.lanes := rfl
@[simp] theorem State.sat_prom (s : State) (f : Fld) (k : Nat) : (s.sat f k).prom = s.prom := rfl
@[simp] theorem State.sat_promRr (s : State) (f : Fld) (k : Nat) : (s.sat f k).promRr = s.promRr := rfl
@[simp] theorem State.sat_sentAt (s : State) (f : Fld) (k : Nat) : (s.sat f k).sentAt = s.sentAt := rfl
@[simp] theorem State.sat_nextId (s : State) (f : Fld) (k : Nat) : (s.sat f k).nextId = s.nextId := rfl
@[simp] theorem State.sat_pavs (s : State) (f : Fld) (k : Nat) : (s.sat f k).pavs = s.pavs := rfl
@[simp] theorem State.sat_tsvCmds (s : State) (f : Fld) (k : Nat) : (s.sat f k).tsvCmds = s.tsvCmds := rfl
@[simp] theorem State.sat_cad (s : State) (f : Fld) (k : Nat) : (s.sat f k).cad = s.cad := rfl
@[simp] theorem State.sat_therm (s : State) (f : Fld) (k : Nat) : (s.sat f k).therm = s.therm := rfl
@[simp] theorem State.sat_crossing (s : State) (f : Fld) (k : Nat) : (s.sat f k).crossing = s.crossing := rfl
@[simp] theorem State.sat_latches (s : State) (f : Fld) (k : Nat) : (s.sat f k).latches = s.latches := rfl
@[simp] theorem State.sat_onceTurn (s : State) (f : Fld) (k : Nat) : (s.sat f k).onceTurn = s.onceTurn := rfl
@[simp] theorem State.sat_mons (s : State) (f : Fld) (k : Nat) : (s.sat f k).mons = s.mons := rfl
@[simp] theorem State.sat_monSnapMbx (s : State) (f : Fld) (k : Nat) : (s.sat f k).monSnapMbx = s.monSnapMbx := rfl
@[simp] theorem State.sat_sram (s : State) (f : Fld) (k : Nat) : (s.sat f k).sram = s.sram := rfl
@[simp] theorem State.sat_mbxs (s : State) (f : Fld) (k : Nat) : (s.sat f k).mbxs = s.mbxs := rfl
@[simp] theorem State.sat_lastTaken (s : State) (f : Fld) (k : Nat) : (s.sat f k).lastTaken = s.lastTaken := rfl
@[simp] theorem State.sat_staging (s : State) (f : Fld) (k : Nat) : (s.sat f k).staging = s.staging := rfl
@[simp] theorem State.sat_stagingHigh (s : State) (f : Fld) (k : Nat) : (s.sat f k).stagingHigh = s.stagingHigh := rfl
@[simp] theorem State.sat_switch (s : State) (f : Fld) (k : Nat) : (s.sat f k).switch = s.switch := rfl
@[simp] theorem State.sat_fwDigest (s : State) (f : Fld) (k : Nat) : (s.sat f k).fwDigest = s.fwDigest := rfl
@[simp] theorem State.sat_bulk (s : State) (f : Fld) (k : Nat) : (s.sat f k).bulk = s.bulk := rfl
@[simp] theorem State.sat_bulkLast (s : State) (f : Fld) (k : Nat) : (s.sat f k).bulkLast = s.bulkLast := rfl
@[simp] theorem State.sat_otp (s : State) (f : Fld) (k : Nat) : (s.sat f k).otp = s.otp := rfl
@[simp] theorem State.sat_signing (s : State) (f : Fld) (k : Nat) : (s.sat f k).signing = s.signing := rfl
@[simp] theorem State.sat_sb (s : State) (f : Fld) (k : Nat) : (s.sat f k).sb = s.sb := rfl
@[simp] theorem State.sat_power (s : State) (f : Fld) (k : Nat) : (s.sat f k).power = s.power := rfl
@[simp] theorem State.sat_test (s : State) (f : Fld) (k : Nat) : (s.sat f k).test = s.test := rfl
@[simp] theorem State.sat_port (s : State) (f : Fld) (k : Nat) (i : Nat) : (s.sat f k).port i = s.port i := rfl
@[simp] theorem State.sat_lane (s : State) (f : Fld) (k : Nat) (i j : Nat) : (s.sat f k).lane i j = s.lane i j := rfl
@[simp] theorem State.sat_pav (s : State) (f : Fld) (k : Nat) (i : Nat) : (s.sat f k).pav i = s.pav i := rfl
@[simp] theorem State.sat_mbx (s : State) (f : Fld) (k : Nat) (i : Nat) : (s.sat f k).mbx i = s.mbx i := rfl
@[simp] theorem State.sat_mon (s : State) (f : Fld) (k : Nat) (i : Nat) : (s.sat f k).mon i = s.mon i := rfl

/-! ### resetRegs -/

@[simp] theorem State.resetRegs_pending (s : State) (lo hi : Nat) : (s.resetRegs lo hi).pending = s.pending := rfl
@[simp] theorem State.resetRegs_now (s : State) (lo hi : Nat) : (s.resetRegs lo hi).now = s.now := rfl
@[simp] theorem State.resetRegs_freeIdx (s : State) (lo hi : Nat) : (s.resetRegs lo hi).freeIdx = s.freeIdx := rfl
@[simp] theorem State.resetRegs_epoch (s : State) (lo hi : Nat) : (s.resetRegs lo hi).epoch = s.epoch := rfl
@[simp] theorem State.resetRegs_eff (s : State) (lo hi : Nat) : (s.resetRegs lo hi).eff = s.eff := rfl
@[simp] theorem State.resetRegs_staged (s : State) (lo hi : Nat) : (s.resetRegs lo hi).staged = s.staged := rfl
@[simp] theorem State.resetRegs_lastRead (s : State) (lo hi : Nat) : (s.resetRegs lo hi).lastRead = s.lastRead := rfl
@[simp] theorem State.resetRegs_lastStatus (s : State) (lo hi : Nat) : (s.resetRegs lo hi).lastStatus = s.lastStatus := rfl
@[simp] theorem State.resetRegs_dram (s : State) (lo hi : Nat) : (s.resetRegs lo hi).dram = s.dram := rfl
@[simp] theorem State.resetRegs_ports (s : State) (lo hi : Nat) : (s.resetRegs lo hi).ports = s.ports := rfl
@[simp] theorem State.resetRegs_lanes (s : State) (lo hi : Nat) : (s.resetRegs lo hi).lanes = s.lanes := rfl
@[simp] theorem State.resetRegs_prom (s : State) (lo hi : Nat) : (s.resetRegs lo hi).prom = s.prom := rfl
@[simp] theorem State.resetRegs_promRr (s : State) (lo hi : Nat) : (s.resetRegs lo hi).promRr = s.promRr := rfl
@[simp] theorem State.resetRegs_sentAt (s : State) (lo hi : Nat) : (s.resetRegs lo hi).sentAt = s.sentAt := rfl
@[simp] theorem State.resetRegs_nextId (s : State) (lo hi : Nat) : (s.resetRegs lo hi).nextId = s.nextId := rfl
@[simp] theorem State.resetRegs_pavs (s : State) (lo hi : Nat) : (s.resetRegs lo hi).pavs = s.pavs := rfl
@[simp] theorem State.resetRegs_tsvCmds (s : State) (lo hi : Nat) : (s.resetRegs lo hi).tsvCmds = s.tsvCmds := rfl
@[simp] theorem State.resetRegs_cad (s : State) (lo hi : Nat) : (s.resetRegs lo hi).cad = s.cad := rfl
@[simp] theorem State.resetRegs_therm (s : State) (lo hi : Nat) : (s.resetRegs lo hi).therm = s.therm := rfl
@[simp] theorem State.resetRegs_crossing (s : State) (lo hi : Nat) : (s.resetRegs lo hi).crossing = s.crossing := rfl
@[simp] theorem State.resetRegs_latches (s : State) (lo hi : Nat) : (s.resetRegs lo hi).latches = s.latches := rfl
@[simp] theorem State.resetRegs_onceTurn (s : State) (lo hi : Nat) : (s.resetRegs lo hi).onceTurn = s.onceTurn := rfl
@[simp] theorem State.resetRegs_mons (s : State) (lo hi : Nat) : (s.resetRegs lo hi).mons = s.mons := rfl
@[simp] theorem State.resetRegs_monSnapMbx (s : State) (lo hi : Nat) : (s.resetRegs lo hi).monSnapMbx = s.monSnapMbx := rfl
@[simp] theorem State.resetRegs_sram (s : State) (lo hi : Nat) : (s.resetRegs lo hi).sram = s.sram := rfl
@[simp] theorem State.resetRegs_mbxs (s : State) (lo hi : Nat) : (s.resetRegs lo hi).mbxs = s.mbxs := rfl
@[simp] theorem State.resetRegs_lastTaken (s : State) (lo hi : Nat) : (s.resetRegs lo hi).lastTaken = s.lastTaken := rfl
@[simp] theorem State.resetRegs_staging (s : State) (lo hi : Nat) : (s.resetRegs lo hi).staging = s.staging := rfl
@[simp] theorem State.resetRegs_stagingHigh (s : State) (lo hi : Nat) : (s.resetRegs lo hi).stagingHigh = s.stagingHigh := rfl
@[simp] theorem State.resetRegs_switch (s : State) (lo hi : Nat) : (s.resetRegs lo hi).switch = s.switch := rfl
@[simp] theorem State.resetRegs_fwDigest (s : State) (lo hi : Nat) : (s.resetRegs lo hi).fwDigest = s.fwDigest := rfl
@[simp] theorem State.resetRegs_bulk (s : State) (lo hi : Nat) : (s.resetRegs lo hi).bulk = s.bulk := rfl
@[simp] theorem State.resetRegs_bulkLast (s : State) (lo hi : Nat) : (s.resetRegs lo hi).bulkLast = s.bulkLast := rfl
@[simp] theorem State.resetRegs_otp (s : State) (lo hi : Nat) : (s.resetRegs lo hi).otp = s.otp := rfl
@[simp] theorem State.resetRegs_signing (s : State) (lo hi : Nat) : (s.resetRegs lo hi).signing = s.signing := rfl
@[simp] theorem State.resetRegs_sb (s : State) (lo hi : Nat) : (s.resetRegs lo hi).sb = s.sb := rfl
@[simp] theorem State.resetRegs_power (s : State) (lo hi : Nat) : (s.resetRegs lo hi).power = s.power := rfl
@[simp] theorem State.resetRegs_test (s : State) (lo hi : Nat) : (s.resetRegs lo hi).test = s.test := rfl
@[simp] theorem State.resetRegs_port (s : State) (lo hi : Nat) (i : Nat) : (s.resetRegs lo hi).port i = s.port i := rfl
@[simp] theorem State.resetRegs_lane (s : State) (lo hi : Nat) (i j : Nat) : (s.resetRegs lo hi).lane i j = s.lane i j := rfl
@[simp] theorem State.resetRegs_pav (s : State) (lo hi : Nat) (i : Nat) : (s.resetRegs lo hi).pav i = s.pav i := rfl
@[simp] theorem State.resetRegs_mbx (s : State) (lo hi : Nat) (i : Nat) : (s.resetRegs lo hi).mbx i = s.mbx i := rfl
@[simp] theorem State.resetRegs_mon (s : State) (lo hi : Nat) (i : Nat) : (s.resetRegs lo hi).mon i = s.mon i := rfl

/-! ### sramClear -/

@[simp] theorem sramClear_pending (m lo hi : Nat) (s : State) : (sramClear m lo hi s).pending = s.pending := rfl
@[simp] theorem sramClear_now (m lo hi : Nat) (s : State) : (sramClear m lo hi s).now = s.now := rfl
@[simp] theorem sramClear_freeIdx (m lo hi : Nat) (s : State) : (sramClear m lo hi s).freeIdx = s.freeIdx := rfl
@[simp] theorem sramClear_epoch (m lo hi : Nat) (s : State) : (sramClear m lo hi s).epoch = s.epoch := rfl
@[simp] theorem sramClear_regs (m lo hi : Nat) (s : State) : (sramClear m lo hi s).regs = s.regs := rfl
@[simp] theorem sramClear_eff (m lo hi : Nat) (s : State) : (sramClear m lo hi s).eff = s.eff := rfl
@[simp] theorem sramClear_staged (m lo hi : Nat) (s : State) : (sramClear m lo hi s).staged = s.staged := rfl
@[simp] theorem sramClear_lastRead (m lo hi : Nat) (s : State) : (sramClear m lo hi s).lastRead = s.lastRead := rfl
@[simp] theorem sramClear_lastStatus (m lo hi : Nat) (s : State) : (sramClear m lo hi s).lastStatus = s.lastStatus := rfl
@[simp] theorem sramClear_dram (m lo hi : Nat) (s : State) : (sramClear m lo hi s).dram = s.dram := rfl
@[simp] theorem sramClear_ports (m lo hi : Nat) (s : State) : (sramClear m lo hi s).ports = s.ports := rfl
@[simp] theorem sramClear_lanes (m lo hi : Nat) (s : State) : (sramClear m lo hi s).lanes = s.lanes := rfl
@[simp] theorem sramClear_prom (m lo hi : Nat) (s : State) : (sramClear m lo hi s).prom = s.prom := rfl
@[simp] theorem sramClear_promRr (m lo hi : Nat) (s : State) : (sramClear m lo hi s).promRr = s.promRr := rfl
@[simp] theorem sramClear_sentAt (m lo hi : Nat) (s : State) : (sramClear m lo hi s).sentAt = s.sentAt := rfl
@[simp] theorem sramClear_nextId (m lo hi : Nat) (s : State) : (sramClear m lo hi s).nextId = s.nextId := rfl
@[simp] theorem sramClear_pavs (m lo hi : Nat) (s : State) : (sramClear m lo hi s).pavs = s.pavs := rfl
@[simp] theorem sramClear_tsvCmds (m lo hi : Nat) (s : State) : (sramClear m lo hi s).tsvCmds = s.tsvCmds := rfl
@[simp] theorem sramClear_cad (m lo hi : Nat) (s : State) : (sramClear m lo hi s).cad = s.cad := rfl
@[simp] theorem sramClear_therm (m lo hi : Nat) (s : State) : (sramClear m lo hi s).therm = s.therm := rfl
@[simp] theorem sramClear_crossing (m lo hi : Nat) (s : State) : (sramClear m lo hi s).crossing = s.crossing := rfl
@[simp] theorem sramClear_latches (m lo hi : Nat) (s : State) : (sramClear m lo hi s).latches = s.latches := rfl
@[simp] theorem sramClear_onceTurn (m lo hi : Nat) (s : State) : (sramClear m lo hi s).onceTurn = s.onceTurn := rfl
@[simp] theorem sramClear_mons (m lo hi : Nat) (s : State) : (sramClear m lo hi s).mons = s.mons := rfl
@[simp] theorem sramClear_monSnapMbx (m lo hi : Nat) (s : State) : (sramClear m lo hi s).monSnapMbx = s.monSnapMbx := rfl
@[simp] theorem sramClear_mbxs (m lo hi : Nat) (s : State) : (sramClear m lo hi s).mbxs = s.mbxs := rfl
@[simp] theorem sramClear_lastTaken (m lo hi : Nat) (s : State) : (sramClear m lo hi s).lastTaken = s.lastTaken := rfl
@[simp] theorem sramClear_staging (m lo hi : Nat) (s : State) : (sramClear m lo hi s).staging = s.staging := rfl
@[simp] theorem sramClear_stagingHigh (m lo hi : Nat) (s : State) : (sramClear m lo hi s).stagingHigh = s.stagingHigh := rfl
@[simp] theorem sramClear_switch (m lo hi : Nat) (s : State) : (sramClear m lo hi s).switch = s.switch := rfl
@[simp] theorem sramClear_fwDigest (m lo hi : Nat) (s : State) : (sramClear m lo hi s).fwDigest = s.fwDigest := rfl
@[simp] theorem sramClear_bulk (m lo hi : Nat) (s : State) : (sramClear m lo hi s).bulk = s.bulk := rfl
@[simp] theorem sramClear_bulkLast (m lo hi : Nat) (s : State) : (sramClear m lo hi s).bulkLast = s.bulkLast := rfl
@[simp] theorem sramClear_otp (m lo hi : Nat) (s : State) : (sramClear m lo hi s).otp = s.otp := rfl
@[simp] theorem sramClear_signing (m lo hi : Nat) (s : State) : (sramClear m lo hi s).signing = s.signing := rfl
@[simp] theorem sramClear_sb (m lo hi : Nat) (s : State) : (sramClear m lo hi s).sb = s.sb := rfl
@[simp] theorem sramClear_power (m lo hi : Nat) (s : State) : (sramClear m lo hi s).power = s.power := rfl
@[simp] theorem sramClear_test (m lo hi : Nat) (s : State) : (sramClear m lo hi s).test = s.test := rfl
@[simp] theorem sramClear_port (m lo hi : Nat) (s : State) (n : Nat) : (sramClear m lo hi s).port n = s.port n := rfl
@[simp] theorem sramClear_pav (m lo hi : Nat) (s : State) (p : Nat) : (sramClear m lo hi s).pav p = s.pav p := rfl
@[simp] theorem sramClear_mon (m lo hi : Nat) (s : State) (u : Nat) : (sramClear m lo hi s).mon u = s.mon u := rfl
@[simp] theorem sramClear_mbx (m lo hi : Nat) (s : State) (k : Nat) : (sramClear m lo hi s).mbx k = s.mbx k := rfl
@[simp] theorem sramClear_reg (m lo hi : Nat) (s : State) (off : Nat) : (sramClear m lo hi s).reg off = s.reg off := rfl
@[simp] theorem sramClear_lane (m lo hi : Nat) (s : State) (n p : Nat) : (sramClear m lo hi s).lane n p = s.lane n p := rfl
@[simp] theorem sramClear_rd (m lo hi : Nat) (s : State) (f : Fld) : (sramClear m lo hi s).rd f = s.rd f := rfl

/-! ### setPort -/

@[simp] theorem State.setPort_pending (s : State) (n : Nat) (p : Port) : (s.setPort n p).pending = s.pending := rfl
@[simp] theorem State.setPort_now (s : State) (n : Nat) (p : Port) : (s.setPort n p).now = s.now := rfl
@[simp] theorem State.setPort_freeIdx (s : State) (n : Nat) (p : Port) : (s.setPort n p).freeIdx = s.freeIdx := rfl
@[simp] theorem State.setPort_epoch (s : State) (n : Nat) (p : Port) : (s.setPort n p).epoch = s.epoch := rfl
@[simp] theorem State.setPort_regs (s : State) (n : Nat) (p : Port) : (s.setPort n p).regs = s.regs := rfl
@[simp] theorem State.setPort_eff (s : State) (n : Nat) (p : Port) : (s.setPort n p).eff = s.eff := rfl
@[simp] theorem State.setPort_staged (s : State) (n : Nat) (p : Port) : (s.setPort n p).staged = s.staged := rfl
@[simp] theorem State.setPort_lastRead (s : State) (n : Nat) (p : Port) : (s.setPort n p).lastRead = s.lastRead := rfl
@[simp] theorem State.setPort_lastStatus (s : State) (n : Nat) (p : Port) : (s.setPort n p).lastStatus = s.lastStatus := rfl
@[simp] theorem State.setPort_dram (s : State) (n : Nat) (p : Port) : (s.setPort n p).dram = s.dram := rfl
@[simp] theorem State.setPort_lanes (s : State) (n : Nat) (p : Port) : (s.setPort n p).lanes = s.lanes := rfl
@[simp] theorem State.setPort_prom (s : State) (n : Nat) (p : Port) : (s.setPort n p).prom = s.prom := rfl
@[simp] theorem State.setPort_promRr (s : State) (n : Nat) (p : Port) : (s.setPort n p).promRr = s.promRr := rfl
@[simp] theorem State.setPort_sentAt (s : State) (n : Nat) (p : Port) : (s.setPort n p).sentAt = s.sentAt := rfl
@[simp] theorem State.setPort_nextId (s : State) (n : Nat) (p : Port) : (s.setPort n p).nextId = s.nextId := rfl
@[simp] theorem State.setPort_pavs (s : State) (n : Nat) (p : Port) : (s.setPort n p).pavs = s.pavs := rfl
@[simp] theorem State.setPort_tsvCmds (s : State) (n : Nat) (p : Port) : (s.setPort n p).tsvCmds = s.tsvCmds := rfl
@[simp] theorem State.setPort_cad (s : State) (n : Nat) (p : Port) : (s.setPort n p).cad = s.cad := rfl
@[simp] theorem State.setPort_therm (s : State) (n : Nat) (p : Port) : (s.setPort n p).therm = s.therm := rfl
@[simp] theorem State.setPort_crossing (s : State) (n : Nat) (p : Port) : (s.setPort n p).crossing = s.crossing := rfl
@[simp] theorem State.setPort_latches (s : State) (n : Nat) (p : Port) : (s.setPort n p).latches = s.latches := rfl
@[simp] theorem State.setPort_onceTurn (s : State) (n : Nat) (p : Port) : (s.setPort n p).onceTurn = s.onceTurn := rfl
@[simp] theorem State.setPort_mons (s : State) (n : Nat) (p : Port) : (s.setPort n p).mons = s.mons := rfl
@[simp] theorem State.setPort_monSnapMbx (s : State) (n : Nat) (p : Port) : (s.setPort n p).monSnapMbx = s.monSnapMbx := rfl
@[simp] theorem State.setPort_sram (s : State) (n : Nat) (p : Port) : (s.setPort n p).sram = s.sram := rfl
@[simp] theorem State.setPort_mbxs (s : State) (n : Nat) (p : Port) : (s.setPort n p).mbxs = s.mbxs := rfl
@[simp] theorem State.setPort_lastTaken (s : State) (n : Nat) (p : Port) : (s.setPort n p).lastTaken = s.lastTaken := rfl
@[simp] theorem State.setPort_staging (s : State) (n : Nat) (p : Port) : (s.setPort n p).staging = s.staging := rfl
@[simp] theorem State.setPort_stagingHigh (s : State) (n : Nat) (p : Port) : (s.setPort n p).stagingHigh = s.stagingHigh := rfl
@[simp] theorem State.setPort_switch (s : State) (n : Nat) (p : Port) : (s.setPort n p).switch = s.switch := rfl
@[simp] theorem State.setPort_fwDigest (s : State) (n : Nat) (p : Port) : (s.setPort n p).fwDigest = s.fwDigest := rfl
@[simp] theorem State.setPort_bulk (s : State) (n : Nat) (p : Port) : (s.setPort n p).bulk = s.bulk := rfl
@[simp] theorem State.setPort_bulkLast (s : State) (n : Nat) (p : Port) : (s.setPort n p).bulkLast = s.bulkLast := rfl
@[simp] theorem State.setPort_otp (s : State) (n : Nat) (p : Port) : (s.setPort n p).otp = s.otp := rfl
@[simp] theorem State.setPort_signing (s : State) (n : Nat) (p : Port) : (s.setPort n p).signing = s.signing := rfl
@[simp] theorem State.setPort_sb (s : State) (n : Nat) (p : Port) : (s.setPort n p).sb = s.sb := rfl
@[simp] theorem State.setPort_power (s : State) (n : Nat) (p : Port) : (s.setPort n p).power = s.power := rfl
@[simp] theorem State.setPort_test (s : State) (n : Nat) (p : Port) : (s.setPort n p).test = s.test := rfl
@[simp] theorem State.setPort_reg (s : State) (n : Nat) (p : Port) (i : Nat) : (s.setPort n p).reg i = s.reg i := rfl
@[simp] theorem State.setPort_rd (s : State) (n : Nat) (p : Port) (g : Fld) : (s.setPort n p).rd g = s.rd g := rfl
@[simp] theorem State.setPort_on (s : State) (n : Nat) (p : Port) (g : Fld) : (s.setPort n p).on g = s.on g := rfl
@[simp] theorem State.setPort_lane (s : State) (n : Nat) (p : Port) (i j : Nat) : (s.setPort n p).lane i j = s.lane i j := rfl
@[simp] theorem State.setPort_pav (s : State) (n : Nat) (p : Port) (i : Nat) : (s.setPort n p).pav i = s.pav i := rfl
@[simp] theorem State.setPort_mbx (s : State) (n : Nat) (p : Port) (i : Nat) : (s.setPort n p).mbx i = s.mbx i := rfl
@[simp] theorem State.setPort_mon (s : State) (n : Nat) (p : Port) (i : Nat) : (s.setPort n p).mon i = s.mon i := rfl

/-! ### modPort -/

@[simp] theorem State.modPort_pending (s : State) (n : Nat) (f : Port → Port) : (s.modPort n f).pending = s.pending := rfl
@[simp] theorem State.modPort_now (s : State) (n : Nat) (f : Port → Port) : (s.modPort n f).now = s.now := rfl
@[simp] theorem State.modPort_freeIdx (s : State) (n : Nat) (f : Port → Port) : (s.modPort n f).freeIdx = s.freeIdx := rfl
@[simp] theorem State.modPort_epoch (s : State) (n : Nat) (f : Port → Port) : (s.modPort n f).epoch = s.epoch := rfl
@[simp] theorem State.modPort_regs (s : State) (n : Nat) (f : Port → Port) : (s.modPort n f).regs = s.regs := rfl
@[simp] theorem State.modPort_eff (s : State) (n : Nat) (f : Port → Port) : (s.modPort n f).eff = s.eff := rfl
@[simp] theorem State.modPort_staged (s : State) (n : Nat) (f : Port → Port) : (s.modPort n f).staged = s.staged := rfl
@[simp] theorem State.modPort_lastRead (s : State) (n : Nat) (f : Port → Port) : (s.modPort n f).lastRead = s.lastRead := rfl
@[simp] theorem State.modPort_lastStatus (s : State) (n : Nat) (f : Port → Port) : (s.modPort n f).lastStatus = s.lastStatus := rfl
@[simp] theorem State.modPort_dram (s : State) (n : Nat) (f : Port → Port) : (s.modPort n f).dram = s.dram := rfl
@[simp] theorem State.modPort_lanes (s : State) (n : Nat) (f : Port → Port) : (s.modPort n f).lanes = s.lanes := rfl
@[simp] theorem State.modPort_prom (s : State) (n : Nat) (f : Port → Port) : (s.modPort n f).prom = s.prom := rfl
@[simp] theorem State.modPort_promRr (s : State) (n : Nat) (f : Port → Port) : (s.modPort n f).promRr = s.promRr := rfl
@[simp] theorem State.modPort_sentAt (s : State) (n : Nat) (f : Port → Port) : (s.modPort n f).sentAt = s.sentAt := rfl
@[simp] theorem State.modPort_nextId (s : State) (n : Nat) (f : Port → Port) : (s.modPort n f).nextId = s.nextId := rfl
@[simp] theorem State.modPort_pavs (s : State) (n : Nat) (f : Port → Port) : (s.modPort n f).pavs = s.pavs := rfl
@[simp] theorem State.modPort_tsvCmds (s : State) (n : Nat) (f : Port → Port) : (s.modPort n f).tsvCmds = s.tsvCmds := rfl
@[simp] theorem State.modPort_cad (s : State) (n : Nat) (f : Port → Port) : (s.modPort n f).cad = s.cad := rfl
@[simp] theorem State.modPort_therm (s : State) (n : Nat) (f : Port → Port) : (s.modPort n f).therm = s.therm := rfl
@[simp] theorem State.modPort_crossing (s : State) (n : Nat) (f : Port → Port) : (s.modPort n f).crossing = s.crossing := rfl
@[simp] theorem State.modPort_latches (s : State) (n : Nat) (f : Port → Port) : (s.modPort n f).latches = s.latches := rfl
@[simp] theorem State.modPort_onceTurn (s : State) (n : Nat) (f : Port → Port) : (s.modPort n f).onceTurn = s.onceTurn := rfl
@[simp] theorem State.modPort_mons (s : State) (n : Nat) (f : Port → Port) : (s.modPort n f).mons = s.mons := rfl
@[simp] theorem State.modPort_monSnapMbx (s : State) (n : Nat) (f : Port → Port) : (s.modPort n f).monSnapMbx = s.monSnapMbx := rfl
@[simp] theorem State.modPort_sram (s : State) (n : Nat) (f : Port → Port) : (s.modPort n f).sram = s.sram := rfl
@[simp] theorem State.modPort_mbxs (s : State) (n : Nat) (f : Port → Port) : (s.modPort n f).mbxs = s.mbxs := rfl
@[simp] theorem State.modPort_lastTaken (s : State) (n : Nat) (f : Port → Port) : (s.modPort n f).lastTaken = s.lastTaken := rfl
@[simp] theorem State.modPort_staging (s : State) (n : Nat) (f : Port → Port) : (s.modPort n f).staging = s.staging := rfl
@[simp] theorem State.modPort_stagingHigh (s : State) (n : Nat) (f : Port → Port) : (s.modPort n f).stagingHigh = s.stagingHigh := rfl
@[simp] theorem State.modPort_switch (s : State) (n : Nat) (f : Port → Port) : (s.modPort n f).switch = s.switch := rfl
@[simp] theorem State.modPort_fwDigest (s : State) (n : Nat) (f : Port → Port) : (s.modPort n f).fwDigest = s.fwDigest := rfl
@[simp] theorem State.modPort_bulk (s : State) (n : Nat) (f : Port → Port) : (s.modPort n f).bulk = s.bulk := rfl
@[simp] theorem State.modPort_bulkLast (s : State) (n : Nat) (f : Port → Port) : (s.modPort n f).bulkLast = s.bulkLast := rfl
@[simp] theorem State.modPort_otp (s : State) (n : Nat) (f : Port → Port) : (s.modPort n f).otp = s.otp := rfl
@[simp] theorem State.modPort_signing (s : State) (n : Nat) (f : Port → Port) : (s.modPort n f).signing = s.signing := rfl
@[simp] theorem State.modPort_sb (s : State) (n : Nat) (f : Port → Port) : (s.modPort n f).sb = s.sb := rfl
@[simp] theorem State.modPort_power (s : State) (n : Nat) (f : Port → Port) : (s.modPort n f).power = s.power := rfl
@[simp] theorem State.modPort_test (s : State) (n : Nat) (f : Port → Port) : (s.modPort n f).test = s.test := rfl
@[simp] theorem State.modPort_reg (s : State) (n : Nat) (f : Port → Port) (i : Nat) : (s.modPort n f).reg i = s.reg i := rfl
@[simp] theorem State.modPort_rd (s : State) (n : Nat) (f : Port → Port) (g : Fld) : (s.modPort n f).rd g = s.rd g := rfl
@[simp] theorem State.modPort_on (s : State) (n : Nat) (f : Port → Port) (g : Fld) : (s.modPort n f).on g = s.on g := rfl
@[simp] theorem State.modPort_lane (s : State) (n : Nat) (f : Port → Port) (i j : Nat) : (s.modPort n f).lane i j = s.lane i j := rfl
@[simp] theorem State.modPort_pav (s : State) (n : Nat) (f : Port → Port) (i : Nat) : (s.modPort n f).pav i = s.pav i := rfl
@[simp] theorem State.modPort_mbx (s : State) (n : Nat) (f : Port → Port) (i : Nat) : (s.modPort n f).mbx i = s.mbx i := rfl
@[simp] theorem State.modPort_mon (s : State) (n : Nat) (f : Port → Port) (i : Nat) : (s.modPort n f).mon i = s.mon i := rfl

/-! ### setLane -/

@[simp] theorem State.setLane_pending (s : State) (n p : Nat) (l : Lane) : (s.setLane n p l).pending = s.pending := rfl
@[simp] theorem State.setLane_now (s : State) (n p : Nat) (l : Lane) : (s.setLane n p l).now = s.now := rfl
@[simp] theorem State.setLane_freeIdx (s : State) (n p : Nat) (l : Lane) : (s.setLane n p l).freeIdx = s.freeIdx := rfl
@[simp] theorem State.setLane_epoch (s : State) (n p : Nat) (l : Lane) : (s.setLane n p l).epoch = s.epoch := rfl
@[simp] theorem State.setLane_regs (s : State) (n p : Nat) (l : Lane) : (s.setLane n p l).regs = s.regs := rfl
@[simp] theorem State.setLane_eff (s : State) (n p : Nat) (l : Lane) : (s.setLane n p l).eff = s.eff := rfl
@[simp] theorem State.setLane_staged (s : State) (n p : Nat) (l : Lane) : (s.setLane n p l).staged = s.staged := rfl
@[simp] theorem State.setLane_lastRead (s : State) (n p : Nat) (l : Lane) : (s.setLane n p l).lastRead = s.lastRead := rfl
@[simp] theorem State.setLane_lastStatus (s : State) (n p : Nat) (l : Lane) : (s.setLane n p l).lastStatus = s.lastStatus := rfl
@[simp] theorem State.setLane_dram (s : State) (n p : Nat) (l : Lane) : (s.setLane n p l).dram = s.dram := rfl
@[simp] theorem State.setLane_ports (s : State) (n p : Nat) (l : Lane) : (s.setLane n p l).ports = s.ports := rfl
@[simp] theorem State.setLane_prom (s : State) (n p : Nat) (l : Lane) : (s.setLane n p l).prom = s.prom := rfl
@[simp] theorem State.setLane_promRr (s : State) (n p : Nat) (l : Lane) : (s.setLane n p l).promRr = s.promRr := rfl
@[simp] theorem State.setLane_sentAt (s : State) (n p : Nat) (l : Lane) : (s.setLane n p l).sentAt = s.sentAt := rfl
@[simp] theorem State.setLane_nextId (s : State) (n p : Nat) (l : Lane) : (s.setLane n p l).nextId = s.nextId := rfl
@[simp] theorem State.setLane_pavs (s : State) (n p : Nat) (l : Lane) : (s.setLane n p l).pavs = s.pavs := rfl
@[simp] theorem State.setLane_tsvCmds (s : State) (n p : Nat) (l : Lane) : (s.setLane n p l).tsvCmds = s.tsvCmds := rfl
@[simp] theorem State.setLane_cad (s : State) (n p : Nat) (l : Lane) : (s.setLane n p l).cad = s.cad := rfl
@[simp] theorem State.setLane_therm (s : State) (n p : Nat) (l : Lane) : (s.setLane n p l).therm = s.therm := rfl
@[simp] theorem State.setLane_crossing (s : State) (n p : Nat) (l : Lane) : (s.setLane n p l).crossing = s.crossing := rfl
@[simp] theorem State.setLane_latches (s : State) (n p : Nat) (l : Lane) : (s.setLane n p l).latches = s.latches := rfl
@[simp] theorem State.setLane_onceTurn (s : State) (n p : Nat) (l : Lane) : (s.setLane n p l).onceTurn = s.onceTurn := rfl
@[simp] theorem State.setLane_mons (s : State) (n p : Nat) (l : Lane) : (s.setLane n p l).mons = s.mons := rfl
@[simp] theorem State.setLane_monSnapMbx (s : State) (n p : Nat) (l : Lane) : (s.setLane n p l).monSnapMbx = s.monSnapMbx := rfl
@[simp] theorem State.setLane_sram (s : State) (n p : Nat) (l : Lane) : (s.setLane n p l).sram = s.sram := rfl
@[simp] theorem State.setLane_mbxs (s : State) (n p : Nat) (l : Lane) : (s.setLane n p l).mbxs = s.mbxs := rfl
@[simp] theorem State.setLane_lastTaken (s : State) (n p : Nat) (l : Lane) : (s.setLane n p l).lastTaken = s.lastTaken := rfl
@[simp] theorem State.setLane_staging (s : State) (n p : Nat) (l : Lane) : (s.setLane n p l).staging = s.staging := rfl
@[simp] theorem State.setLane_stagingHigh (s : State) (n p : Nat) (l : Lane) : (s.setLane n p l).stagingHigh = s.stagingHigh := rfl
@[simp] theorem State.setLane_switch (s : State) (n p : Nat) (l : Lane) : (s.setLane n p l).switch = s.switch := rfl
@[simp] theorem State.setLane_fwDigest (s : State) (n p : Nat) (l : Lane) : (s.setLane n p l).fwDigest = s.fwDigest := rfl
@[simp] theorem State.setLane_bulk (s : State) (n p : Nat) (l : Lane) : (s.setLane n p l).bulk = s.bulk := rfl
@[simp] theorem State.setLane_bulkLast (s : State) (n p : Nat) (l : Lane) : (s.setLane n p l).bulkLast = s.bulkLast := rfl
@[simp] theorem State.setLane_otp (s : State) (n p : Nat) (l : Lane) : (s.setLane n p l).otp = s.otp := rfl
@[simp] theorem State.setLane_signing (s : State) (n p : Nat) (l : Lane) : (s.setLane n p l).signing = s.signing := rfl
@[simp] theorem State.setLane_sb (s : State) (n p : Nat) (l : Lane) : (s.setLane n p l).sb = s.sb := rfl
@[simp] theorem State.setLane_power (s : State) (n p : Nat) (l : Lane) : (s.setLane n p l).power = s.power := rfl
@[simp] theorem State.setLane_test (s : State) (n p : Nat) (l : Lane) : (s.setLane n p l).test = s.test := rfl
@[simp] theorem State.setLane_reg (s : State) (n p : Nat) (l : Lane) (i : Nat) : (s.setLane n p l).reg i = s.reg i := rfl
@[simp] theorem State.setLane_rd (s : State) (n p : Nat) (l : Lane) (g : Fld) : (s.setLane n p l).rd g = s.rd g := rfl
@[simp] theorem State.setLane_on (s : State) (n p : Nat) (l : Lane) (g : Fld) : (s.setLane n p l).on g = s.on g := rfl
@[simp] theorem State.setLane_port (s : State) (n p : Nat) (l : Lane) (i : Nat) : (s.setLane n p l).port i = s.port i := rfl
@[simp] theorem State.setLane_pav (s : State) (n p : Nat) (l : Lane) (i : Nat) : (s.setLane n p l).pav i = s.pav i := rfl
@[simp] theorem State.setLane_mbx (s : State) (n p : Nat) (l : Lane) (i : Nat) : (s.setLane n p l).mbx i = s.mbx i := rfl
@[simp] theorem State.setLane_mon (s : State) (n p : Nat) (l : Lane) (i : Nat) : (s.setLane n p l).mon i = s.mon i := rfl

/-! ### modLane -/

@[simp] theorem State.modLane_pending (s : State) (n p : Nat) (f : Lane → Lane) : (s.modLane n p f).pending = s.pending := rfl
@[simp] theorem State.modLane_now (s : State) (n p : Nat) (f : Lane → Lane) : (s.modLane n p f).now = s.now := rfl
@[simp] theorem State.modLane_freeIdx (s : State) (n p : Nat) (f : Lane → Lane) : (s.modLane n p f).freeIdx = s.freeIdx := rfl
@[simp] theorem State.modLane_epoch (s : State) (n p : Nat) (f : Lane → Lane) : (s.modLane n p f).epoch = s.epoch := rfl
@[simp] theorem State.modLane_regs (s : State) (n p : Nat) (f : Lane → Lane) : (s.modLane n p f).regs = s.regs := rfl
@[simp] theorem State.modLane_eff (s : State) (n p : Nat) (f : Lane → Lane) : (s.modLane n p f).eff = s.eff := rfl
@[simp] theorem State.modLane_staged (s : State) (n p : Nat) (f : Lane → Lane) : (s.modLane n p f).staged = s.staged := rfl
@[simp] theorem State.modLane_lastRead (s : State) (n p : Nat) (f : Lane → Lane) : (s.modLane n p f).lastRead = s.lastRead := rfl
@[simp] theorem State.modLane_lastStatus (s : State) (n p : Nat) (f : Lane → Lane) : (s.modLane n p f).lastStatus = s.lastStatus := rfl
@[simp] theorem State.modLane_dram (s : State) (n p : Nat) (f : Lane → Lane) : (s.modLane n p f).dram = s.dram := rfl
@[simp] theorem State.modLane_ports (s : State) (n p : Nat) (f : Lane → Lane) : (s.modLane n p f).ports = s.ports := rfl
@[simp] theorem State.modLane_prom (s : State) (n p : Nat) (f : Lane → Lane) : (s.modLane n p f).prom = s.prom := rfl
@[simp] theorem State.modLane_promRr (s : State) (n p : Nat) (f : Lane → Lane) : (s.modLane n p f).promRr = s.promRr := rfl
@[simp] theorem State.modLane_sentAt (s : State) (n p : Nat) (f : Lane → Lane) : (s.modLane n p f).sentAt = s.sentAt := rfl
@[simp] theorem State.modLane_nextId (s : State) (n p : Nat) (f : Lane → Lane) : (s.modLane n p f).nextId = s.nextId := rfl
@[simp] theorem State.modLane_pavs (s : State) (n p : Nat) (f : Lane → Lane) : (s.modLane n p f).pavs = s.pavs := rfl
@[simp] theorem State.modLane_tsvCmds (s : State) (n p : Nat) (f : Lane → Lane) : (s.modLane n p f).tsvCmds = s.tsvCmds := rfl
@[simp] theorem State.modLane_cad (s : State) (n p : Nat) (f : Lane → Lane) : (s.modLane n p f).cad = s.cad := rfl
@[simp] theorem State.modLane_therm (s : State) (n p : Nat) (f : Lane → Lane) : (s.modLane n p f).therm = s.therm := rfl
@[simp] theorem State.modLane_crossing (s : State) (n p : Nat) (f : Lane → Lane) : (s.modLane n p f).crossing = s.crossing := rfl
@[simp] theorem State.modLane_latches (s : State) (n p : Nat) (f : Lane → Lane) : (s.modLane n p f).latches = s.latches := rfl
@[simp] theorem State.modLane_onceTurn (s : State) (n p : Nat) (f : Lane → Lane) : (s.modLane n p f).onceTurn = s.onceTurn := rfl
@[simp] theorem State.modLane_mons (s : State) (n p : Nat) (f : Lane → Lane) : (s.modLane n p f).mons = s.mons := rfl
@[simp] theorem State.modLane_monSnapMbx (s : State) (n p : Nat) (f : Lane → Lane) : (s.modLane n p f).monSnapMbx = s.monSnapMbx := rfl
@[simp] theorem State.modLane_sram (s : State) (n p : Nat) (f : Lane → Lane) : (s.modLane n p f).sram = s.sram := rfl
@[simp] theorem State.modLane_mbxs (s : State) (n p : Nat) (f : Lane → Lane) : (s.modLane n p f).mbxs = s.mbxs := rfl
@[simp] theorem State.modLane_lastTaken (s : State) (n p : Nat) (f : Lane → Lane) : (s.modLane n p f).lastTaken = s.lastTaken := rfl
@[simp] theorem State.modLane_staging (s : State) (n p : Nat) (f : Lane → Lane) : (s.modLane n p f).staging = s.staging := rfl
@[simp] theorem State.modLane_stagingHigh (s : State) (n p : Nat) (f : Lane → Lane) : (s.modLane n p f).stagingHigh = s.stagingHigh := rfl
@[simp] theorem State.modLane_switch (s : State) (n p : Nat) (f : Lane → Lane) : (s.modLane n p f).switch = s.switch := rfl
@[simp] theorem State.modLane_fwDigest (s : State) (n p : Nat) (f : Lane → Lane) : (s.modLane n p f).fwDigest = s.fwDigest := rfl
@[simp] theorem State.modLane_bulk (s : State) (n p : Nat) (f : Lane → Lane) : (s.modLane n p f).bulk = s.bulk := rfl
@[simp] theorem State.modLane_bulkLast (s : State) (n p : Nat) (f : Lane → Lane) : (s.modLane n p f).bulkLast = s.bulkLast := rfl
@[simp] theorem State.modLane_otp (s : State) (n p : Nat) (f : Lane → Lane) : (s.modLane n p f).otp = s.otp := rfl
@[simp] theorem State.modLane_signing (s : State) (n p : Nat) (f : Lane → Lane) : (s.modLane n p f).signing = s.signing := rfl
@[simp] theorem State.modLane_sb (s : State) (n p : Nat) (f : Lane → Lane) : (s.modLane n p f).sb = s.sb := rfl
@[simp] theorem State.modLane_power (s : State) (n p : Nat) (f : Lane → Lane) : (s.modLane n p f).power = s.power := rfl
@[simp] theorem State.modLane_test (s : State) (n p : Nat) (f : Lane → Lane) : (s.modLane n p f).test = s.test := rfl
@[simp] theorem State.modLane_reg (s : State) (n p : Nat) (f : Lane → Lane) (i : Nat) : (s.modLane n p f).reg i = s.reg i := rfl
@[simp] theorem State.modLane_rd (s : State) (n p : Nat) (f : Lane → Lane) (g : Fld) : (s.modLane n p f).rd g = s.rd g := rfl
@[simp] theorem State.modLane_on (s : State) (n p : Nat) (f : Lane → Lane) (g : Fld) : (s.modLane n p f).on g = s.on g := rfl
@[simp] theorem State.modLane_port (s : State) (n p : Nat) (f : Lane → Lane) (i : Nat) : (s.modLane n p f).port i = s.port i := rfl
@[simp] theorem State.modLane_pav (s : State) (n p : Nat) (f : Lane → Lane) (i : Nat) : (s.modLane n p f).pav i = s.pav i := rfl
@[simp] theorem State.modLane_mbx (s : State) (n p : Nat) (f : Lane → Lane) (i : Nat) : (s.modLane n p f).mbx i = s.mbx i := rfl
@[simp] theorem State.modLane_mon (s : State) (n p : Nat) (f : Lane → Lane) (i : Nat) : (s.modLane n p f).mon i = s.mon i := rfl

/-! ### setPav -/

@[simp] theorem State.setPav_pending (s : State) (p : Nat) (v : Pav) : (s.setPav p v).pending = s.pending := rfl
@[simp] theorem State.setPav_now (s : State) (p : Nat) (v : Pav) : (s.setPav p v).now = s.now := rfl
@[simp] theorem State.setPav_freeIdx (s : State) (p : Nat) (v : Pav) : (s.setPav p v).freeIdx = s.freeIdx := rfl
@[simp] theorem State.setPav_epoch (s : State) (p : Nat) (v : Pav) : (s.setPav p v).epoch = s.epoch := rfl
@[simp] theorem State.setPav_regs (s : State) (p : Nat) (v : Pav) : (s.setPav p v).regs = s.regs := rfl
@[simp] theorem State.setPav_eff (s : State) (p : Nat) (v : Pav) : (s.setPav p v).eff = s.eff := rfl
@[simp] theorem State.setPav_staged (s : State) (p : Nat) (v : Pav) : (s.setPav p v).staged = s.staged := rfl
@[simp] theorem State.setPav_lastRead (s : State) (p : Nat) (v : Pav) : (s.setPav p v).lastRead = s.lastRead := rfl
@[simp] theorem State.setPav_lastStatus (s : State) (p : Nat) (v : Pav) : (s.setPav p v).lastStatus = s.lastStatus := rfl
@[simp] theorem State.setPav_dram (s : State) (p : Nat) (v : Pav) : (s.setPav p v).dram = s.dram := rfl
@[simp] theorem State.setPav_ports (s : State) (p : Nat) (v : Pav) : (s.setPav p v).ports = s.ports := rfl
@[simp] theorem State.setPav_lanes (s : State) (p : Nat) (v : Pav) : (s.setPav p v).lanes = s.lanes := rfl
@[simp] theorem State.setPav_prom (s : State) (p : Nat) (v : Pav) : (s.setPav p v).prom = s.prom := rfl
@[simp] theorem State.setPav_promRr (s : State) (p : Nat) (v : Pav) : (s.setPav p v).promRr = s.promRr := rfl
@[simp] theorem State.setPav_sentAt (s : State) (p : Nat) (v : Pav) : (s.setPav p v).sentAt = s.sentAt := rfl
@[simp] theorem State.setPav_nextId (s : State) (p : Nat) (v : Pav) : (s.setPav p v).nextId = s.nextId := rfl
@[simp] theorem State.setPav_tsvCmds (s : State) (p : Nat) (v : Pav) : (s.setPav p v).tsvCmds = s.tsvCmds := rfl
@[simp] theorem State.setPav_cad (s : State) (p : Nat) (v : Pav) : (s.setPav p v).cad = s.cad := rfl
@[simp] theorem State.setPav_therm (s : State) (p : Nat) (v : Pav) : (s.setPav p v).therm = s.therm := rfl
@[simp] theorem State.setPav_crossing (s : State) (p : Nat) (v : Pav) : (s.setPav p v).crossing = s.crossing := rfl
@[simp] theorem State.setPav_latches (s : State) (p : Nat) (v : Pav) : (s.setPav p v).latches = s.latches := rfl
@[simp] theorem State.setPav_onceTurn (s : State) (p : Nat) (v : Pav) : (s.setPav p v).onceTurn = s.onceTurn := rfl
@[simp] theorem State.setPav_mons (s : State) (p : Nat) (v : Pav) : (s.setPav p v).mons = s.mons := rfl
@[simp] theorem State.setPav_monSnapMbx (s : State) (p : Nat) (v : Pav) : (s.setPav p v).monSnapMbx = s.monSnapMbx := rfl
@[simp] theorem State.setPav_sram (s : State) (p : Nat) (v : Pav) : (s.setPav p v).sram = s.sram := rfl
@[simp] theorem State.setPav_mbxs (s : State) (p : Nat) (v : Pav) : (s.setPav p v).mbxs = s.mbxs := rfl
@[simp] theorem State.setPav_lastTaken (s : State) (p : Nat) (v : Pav) : (s.setPav p v).lastTaken = s.lastTaken := rfl
@[simp] theorem State.setPav_staging (s : State) (p : Nat) (v : Pav) : (s.setPav p v).staging = s.staging := rfl
@[simp] theorem State.setPav_stagingHigh (s : State) (p : Nat) (v : Pav) : (s.setPav p v).stagingHigh = s.stagingHigh := rfl
@[simp] theorem State.setPav_switch (s : State) (p : Nat) (v : Pav) : (s.setPav p v).switch = s.switch := rfl
@[simp] theorem State.setPav_fwDigest (s : State) (p : Nat) (v : Pav) : (s.setPav p v).fwDigest = s.fwDigest := rfl
@[simp] theorem State.setPav_bulk (s : State) (p : Nat) (v : Pav) : (s.setPav p v).bulk = s.bulk := rfl
@[simp] theorem State.setPav_bulkLast (s : State) (p : Nat) (v : Pav) : (s.setPav p v).bulkLast = s.bulkLast := rfl
@[simp] theorem State.setPav_otp (s : State) (p : Nat) (v : Pav) : (s.setPav p v).otp = s.otp := rfl
@[simp] theorem State.setPav_signing (s : State) (p : Nat) (v : Pav) : (s.setPav p v).signing = s.signing := rfl
@[simp] theorem State.setPav_sb (s : State) (p : Nat) (v : Pav) : (s.setPav p v).sb = s.sb := rfl
@[simp] theorem State.setPav_power (s : State) (p : Nat) (v : Pav) : (s.setPav p v).power = s.power := rfl
@[simp] theorem State.setPav_test (s : State) (p : Nat) (v : Pav) : (s.setPav p v).test = s.test := rfl
@[simp] theorem State.setPav_reg (s : State) (p : Nat) (v : Pav) (i : Nat) : (s.setPav p v).reg i = s.reg i := rfl
@[simp] theorem State.setPav_rd (s : State) (p : Nat) (v : Pav) (g : Fld) : (s.setPav p v).rd g = s.rd g := rfl
@[simp] theorem State.setPav_on (s : State) (p : Nat) (v : Pav) (g : Fld) : (s.setPav p v).on g = s.on g := rfl
@[simp] theorem State.setPav_port (s : State) (p : Nat) (v : Pav) (i : Nat) : (s.setPav p v).port i = s.port i := rfl
@[simp] theorem State.setPav_lane (s : State) (p : Nat) (v : Pav) (i j : Nat) : (s.setPav p v).lane i j = s.lane i j := rfl
@[simp] theorem State.setPav_mbx (s : State) (p : Nat) (v : Pav) (i : Nat) : (s.setPav p v).mbx i = s.mbx i := rfl
@[simp] theorem State.setPav_mon (s : State) (p : Nat) (v : Pav) (i : Nat) : (s.setPav p v).mon i = s.mon i := rfl

/-! ### modPav -/

@[simp] theorem State.modPav_pending (s : State) (p : Nat) (f : Pav → Pav) : (s.modPav p f).pending = s.pending := rfl
@[simp] theorem State.modPav_now (s : State) (p : Nat) (f : Pav → Pav) : (s.modPav p f).now = s.now := rfl
@[simp] theorem State.modPav_freeIdx (s : State) (p : Nat) (f : Pav → Pav) : (s.modPav p f).freeIdx = s.freeIdx := rfl
@[simp] theorem State.modPav_epoch (s : State) (p : Nat) (f : Pav → Pav) : (s.modPav p f).epoch = s.epoch := rfl
@[simp] theorem State.modPav_regs (s : State) (p : Nat) (f : Pav → Pav) : (s.modPav p f).regs = s.regs := rfl
@[simp] theorem State.modPav_eff (s : State) (p : Nat) (f : Pav → Pav) : (s.modPav p f).eff = s.eff := rfl
@[simp] theorem State.modPav_staged (s : State) (p : Nat) (f : Pav → Pav) : (s.modPav p f).staged = s.staged := rfl
@[simp] theorem State.modPav_lastRead (s : State) (p : Nat) (f : Pav → Pav) : (s.modPav p f).lastRead = s.lastRead := rfl
@[simp] theorem State.modPav_lastStatus (s : State) (p : Nat) (f : Pav → Pav) : (s.modPav p f).lastStatus = s.lastStatus := rfl
@[simp] theorem State.modPav_dram (s : State) (p : Nat) (f : Pav → Pav) : (s.modPav p f).dram = s.dram := rfl
@[simp] theorem State.modPav_ports (s : State) (p : Nat) (f : Pav → Pav) : (s.modPav p f).ports = s.ports := rfl
@[simp] theorem State.modPav_lanes (s : State) (p : Nat) (f : Pav → Pav) : (s.modPav p f).lanes = s.lanes := rfl
@[simp] theorem State.modPav_prom (s : State) (p : Nat) (f : Pav → Pav) : (s.modPav p f).prom = s.prom := rfl
@[simp] theorem State.modPav_promRr (s : State) (p : Nat) (f : Pav → Pav) : (s.modPav p f).promRr = s.promRr := rfl
@[simp] theorem State.modPav_sentAt (s : State) (p : Nat) (f : Pav → Pav) : (s.modPav p f).sentAt = s.sentAt := rfl
@[simp] theorem State.modPav_nextId (s : State) (p : Nat) (f : Pav → Pav) : (s.modPav p f).nextId = s.nextId := rfl
@[simp] theorem State.modPav_tsvCmds (s : State) (p : Nat) (f : Pav → Pav) : (s.modPav p f).tsvCmds = s.tsvCmds := rfl
@[simp] theorem State.modPav_cad (s : State) (p : Nat) (f : Pav → Pav) : (s.modPav p f).cad = s.cad := rfl
@[simp] theorem State.modPav_therm (s : State) (p : Nat) (f : Pav → Pav) : (s.modPav p f).therm = s.therm := rfl
@[simp] theorem State.modPav_crossing (s : State) (p : Nat) (f : Pav → Pav) : (s.modPav p f).crossing = s.crossing := rfl
@[simp] theorem State.modPav_latches (s : State) (p : Nat) (f : Pav → Pav) : (s.modPav p f).latches = s.latches := rfl
@[simp] theorem State.modPav_onceTurn (s : State) (p : Nat) (f : Pav → Pav) : (s.modPav p f).onceTurn = s.onceTurn := rfl
@[simp] theorem State.modPav_mons (s : State) (p : Nat) (f : Pav → Pav) : (s.modPav p f).mons = s.mons := rfl
@[simp] theorem State.modPav_monSnapMbx (s : State) (p : Nat) (f : Pav → Pav) : (s.modPav p f).monSnapMbx = s.monSnapMbx := rfl
@[simp] theorem State.modPav_sram (s : State) (p : Nat) (f : Pav → Pav) : (s.modPav p f).sram = s.sram := rfl
@[simp] theorem State.modPav_mbxs (s : State) (p : Nat) (f : Pav → Pav) : (s.modPav p f).mbxs = s.mbxs := rfl
@[simp] theorem State.modPav_lastTaken (s : State) (p : Nat) (f : Pav → Pav) : (s.modPav p f).lastTaken = s.lastTaken := rfl
@[simp] theorem State.modPav_staging (s : State) (p : Nat) (f : Pav → Pav) : (s.modPav p f).staging = s.staging := rfl
@[simp] theorem State.modPav_stagingHigh (s : State) (p : Nat) (f : Pav → Pav) : (s.modPav p f).stagingHigh = s.stagingHigh := rfl
@[simp] theorem State.modPav_switch (s : State) (p : Nat) (f : Pav → Pav) : (s.modPav p f).switch = s.switch := rfl
@[simp] theorem State.modPav_fwDigest (s : State) (p : Nat) (f : Pav → Pav) : (s.modPav p f).fwDigest = s.fwDigest := rfl
@[simp] theorem State.modPav_bulk (s : State) (p : Nat) (f : Pav → Pav) : (s.modPav p f).bulk = s.bulk := rfl
@[simp] theorem State.modPav_bulkLast (s : State) (p : Nat) (f : Pav → Pav) : (s.modPav p f).bulkLast = s.bulkLast := rfl
@[simp] theorem State.modPav_otp (s : State) (p : Nat) (f : Pav → Pav) : (s.modPav p f).otp = s.otp := rfl
@[simp] theorem State.modPav_signing (s : State) (p : Nat) (f : Pav → Pav) : (s.modPav p f).signing = s.signing := rfl
@[simp] theorem State.modPav_sb (s : State) (p : Nat) (f : Pav → Pav) : (s.modPav p f).sb = s.sb := rfl
@[simp] theorem State.modPav_power (s : State) (p : Nat) (f : Pav → Pav) : (s.modPav p f).power = s.power := rfl
@[simp] theorem State.modPav_test (s : State) (p : Nat) (f : Pav → Pav) : (s.modPav p f).test = s.test := rfl
@[simp] theorem State.modPav_reg (s : State) (p : Nat) (f : Pav → Pav) (i : Nat) : (s.modPav p f).reg i = s.reg i := rfl
@[simp] theorem State.modPav_rd (s : State) (p : Nat) (f : Pav → Pav) (g : Fld) : (s.modPav p f).rd g = s.rd g := rfl
@[simp] theorem State.modPav_on (s : State) (p : Nat) (f : Pav → Pav) (g : Fld) : (s.modPav p f).on g = s.on g := rfl
@[simp] theorem State.modPav_port (s : State) (p : Nat) (f : Pav → Pav) (i : Nat) : (s.modPav p f).port i = s.port i := rfl
@[simp] theorem State.modPav_lane (s : State) (p : Nat) (f : Pav → Pav) (i j : Nat) : (s.modPav p f).lane i j = s.lane i j := rfl
@[simp] theorem State.modPav_mbx (s : State) (p : Nat) (f : Pav → Pav) (i : Nat) : (s.modPav p f).mbx i = s.mbx i := rfl
@[simp] theorem State.modPav_mon (s : State) (p : Nat) (f : Pav → Pav) (i : Nat) : (s.modPav p f).mon i = s.mon i := rfl

/-! ### setMbx -/

@[simp] theorem State.setMbx_pending (s : State) (m : Nat) (b : Mbx) : (s.setMbx m b).pending = s.pending := rfl
@[simp] theorem State.setMbx_now (s : State) (m : Nat) (b : Mbx) : (s.setMbx m b).now = s.now := rfl
@[simp] theorem State.setMbx_freeIdx (s : State) (m : Nat) (b : Mbx) : (s.setMbx m b).freeIdx = s.freeIdx := rfl
@[simp] theorem State.setMbx_epoch (s : State) (m : Nat) (b : Mbx) : (s.setMbx m b).epoch = s.epoch := rfl
@[simp] theorem State.setMbx_regs (s : State) (m : Nat) (b : Mbx) : (s.setMbx m b).regs = s.regs := rfl
@[simp] theorem State.setMbx_eff (s : State) (m : Nat) (b : Mbx) : (s.setMbx m b).eff = s.eff := rfl
@[simp] theorem State.setMbx_staged (s : State) (m : Nat) (b : Mbx) : (s.setMbx m b).staged = s.staged := rfl
@[simp] theorem State.setMbx_lastRead (s : State) (m : Nat) (b : Mbx) : (s.setMbx m b).lastRead = s.lastRead := rfl
@[simp] theorem State.setMbx_lastStatus (s : State) (m : Nat) (b : Mbx) : (s.setMbx m b).lastStatus = s.lastStatus := rfl
@[simp] theorem State.setMbx_dram (s : State) (m : Nat) (b : Mbx) : (s.setMbx m b).dram = s.dram := rfl
@[simp] theorem State.setMbx_ports (s : State) (m : Nat) (b : Mbx) : (s.setMbx m b).ports = s.ports := rfl
@[simp] theorem State.setMbx_lanes (s : State) (m : Nat) (b : Mbx) : (s.setMbx m b).lanes = s.lanes := rfl
@[simp] theorem State.setMbx_prom (s : State) (m : Nat) (b : Mbx) : (s.setMbx m b).prom = s.prom := rfl
@[simp] theorem State.setMbx_promRr (s : State) (m : Nat) (b : Mbx) : (s.setMbx m b).promRr = s.promRr := rfl
@[simp] theorem State.setMbx_sentAt (s : State) (m : Nat) (b : Mbx) : (s.setMbx m b).sentAt = s.sentAt := rfl
@[simp] theorem State.setMbx_nextId (s : State) (m : Nat) (b : Mbx) : (s.setMbx m b).nextId = s.nextId := rfl
@[simp] theorem State.setMbx_pavs (s : State) (m : Nat) (b : Mbx) : (s.setMbx m b).pavs = s.pavs := rfl
@[simp] theorem State.setMbx_tsvCmds (s : State) (m : Nat) (b : Mbx) : (s.setMbx m b).tsvCmds = s.tsvCmds := rfl
@[simp] theorem State.setMbx_cad (s : State) (m : Nat) (b : Mbx) : (s.setMbx m b).cad = s.cad := rfl
@[simp] theorem State.setMbx_therm (s : State) (m : Nat) (b : Mbx) : (s.setMbx m b).therm = s.therm := rfl
@[simp] theorem State.setMbx_crossing (s : State) (m : Nat) (b : Mbx) : (s.setMbx m b).crossing = s.crossing := rfl
@[simp] theorem State.setMbx_latches (s : State) (m : Nat) (b : Mbx) : (s.setMbx m b).latches = s.latches := rfl
@[simp] theorem State.setMbx_onceTurn (s : State) (m : Nat) (b : Mbx) : (s.setMbx m b).onceTurn = s.onceTurn := rfl
@[simp] theorem State.setMbx_mons (s : State) (m : Nat) (b : Mbx) : (s.setMbx m b).mons = s.mons := rfl
@[simp] theorem State.setMbx_monSnapMbx (s : State) (m : Nat) (b : Mbx) : (s.setMbx m b).monSnapMbx = s.monSnapMbx := rfl
@[simp] theorem State.setMbx_sram (s : State) (m : Nat) (b : Mbx) : (s.setMbx m b).sram = s.sram := rfl
@[simp] theorem State.setMbx_lastTaken (s : State) (m : Nat) (b : Mbx) : (s.setMbx m b).lastTaken = s.lastTaken := rfl
@[simp] theorem State.setMbx_staging (s : State) (m : Nat) (b : Mbx) : (s.setMbx m b).staging = s.staging := rfl
@[simp] theorem State.setMbx_stagingHigh (s : State) (m : Nat) (b : Mbx) : (s.setMbx m b).stagingHigh = s.stagingHigh := rfl
@[simp] theorem State.setMbx_switch (s : State) (m : Nat) (b : Mbx) : (s.setMbx m b).switch = s.switch := rfl
@[simp] theorem State.setMbx_fwDigest (s : State) (m : Nat) (b : Mbx) : (s.setMbx m b).fwDigest = s.fwDigest := rfl
@[simp] theorem State.setMbx_bulk (s : State) (m : Nat) (b : Mbx) : (s.setMbx m b).bulk = s.bulk := rfl
@[simp] theorem State.setMbx_bulkLast (s : State) (m : Nat) (b : Mbx) : (s.setMbx m b).bulkLast = s.bulkLast := rfl
@[simp] theorem State.setMbx_otp (s : State) (m : Nat) (b : Mbx) : (s.setMbx m b).otp = s.otp := rfl
@[simp] theorem State.setMbx_signing (s : State) (m : Nat) (b : Mbx) : (s.setMbx m b).signing = s.signing := rfl
@[simp] theorem State.setMbx_sb (s : State) (m : Nat) (b : Mbx) : (s.setMbx m b).sb = s.sb := rfl
@[simp] theorem State.setMbx_power (s : State) (m : Nat) (b : Mbx) : (s.setMbx m b).power = s.power := rfl
@[simp] theorem State.setMbx_test (s : State) (m : Nat) (b : Mbx) : (s.setMbx m b).test = s.test := rfl
@[simp] theorem State.setMbx_reg (s : State) (m : Nat) (b : Mbx) (i : Nat) : (s.setMbx m b).reg i = s.reg i := rfl
@[simp] theorem State.setMbx_rd (s : State) (m : Nat) (b : Mbx) (g : Fld) : (s.setMbx m b).rd g = s.rd g := rfl
@[simp] theorem State.setMbx_on (s : State) (m : Nat) (b : Mbx) (g : Fld) : (s.setMbx m b).on g = s.on g := rfl
@[simp] theorem State.setMbx_port (s : State) (m : Nat) (b : Mbx) (i : Nat) : (s.setMbx m b).port i = s.port i := rfl
@[simp] theorem State.setMbx_lane (s : State) (m : Nat) (b : Mbx) (i j : Nat) : (s.setMbx m b).lane i j = s.lane i j := rfl
@[simp] theorem State.setMbx_pav (s : State) (m : Nat) (b : Mbx) (i : Nat) : (s.setMbx m b).pav i = s.pav i := rfl
@[simp] theorem State.setMbx_mon (s : State) (m : Nat) (b : Mbx) (i : Nat) : (s.setMbx m b).mon i = s.mon i := rfl

/-! ### modMbx -/

@[simp] theorem State.modMbx_pending (s : State) (m : Nat) (f : Mbx → Mbx) : (s.modMbx m f).pending = s.pending := rfl
@[simp] theorem State.modMbx_now (s : State) (m : Nat) (f : Mbx → Mbx) : (s.modMbx m f).now = s.now := rfl
@[simp] theorem State.modMbx_freeIdx (s : State) (m : Nat) (f : Mbx → Mbx) : (s.modMbx m f).freeIdx = s.freeIdx := rfl
@[simp] theorem State.modMbx_epoch (s : State) (m : Nat) (f : Mbx → Mbx) : (s.modMbx m f).epoch = s.epoch := rfl
@[simp] theorem State.modMbx_regs (s : State) (m : Nat) (f : Mbx → Mbx) : (s.modMbx m f).regs = s.regs := rfl
@[simp] theorem State.modMbx_eff (s : State) (m : Nat) (f : Mbx → Mbx) : (s.modMbx m f).eff = s.eff := rfl
@[simp] theorem State.modMbx_staged (s : State) (m : Nat) (f : Mbx → Mbx) : (s.modMbx m f).staged = s.staged := rfl
@[simp] theorem State.modMbx_lastRead (s : State) (m : Nat) (f : Mbx → Mbx) : (s.modMbx m f).lastRead = s.lastRead := rfl
@[simp] theorem State.modMbx_lastStatus (s : State) (m : Nat) (f : Mbx → Mbx) : (s.modMbx m f).lastStatus = s.lastStatus := rfl
@[simp] theorem State.modMbx_dram (s : State) (m : Nat) (f : Mbx → Mbx) : (s.modMbx m f).dram = s.dram := rfl
@[simp] theorem State.modMbx_ports (s : State) (m : Nat) (f : Mbx → Mbx) : (s.modMbx m f).ports = s.ports := rfl
@[simp] theorem State.modMbx_lanes (s : State) (m : Nat) (f : Mbx → Mbx) : (s.modMbx m f).lanes = s.lanes := rfl
@[simp] theorem State.modMbx_prom (s : State) (m : Nat) (f : Mbx → Mbx) : (s.modMbx m f).prom = s.prom := rfl
@[simp] theorem State.modMbx_promRr (s : State) (m : Nat) (f : Mbx → Mbx) : (s.modMbx m f).promRr = s.promRr := rfl
@[simp] theorem State.modMbx_sentAt (s : State) (m : Nat) (f : Mbx → Mbx) : (s.modMbx m f).sentAt = s.sentAt := rfl
@[simp] theorem State.modMbx_nextId (s : State) (m : Nat) (f : Mbx → Mbx) : (s.modMbx m f).nextId = s.nextId := rfl
@[simp] theorem State.modMbx_pavs (s : State) (m : Nat) (f : Mbx → Mbx) : (s.modMbx m f).pavs = s.pavs := rfl
@[simp] theorem State.modMbx_tsvCmds (s : State) (m : Nat) (f : Mbx → Mbx) : (s.modMbx m f).tsvCmds = s.tsvCmds := rfl
@[simp] theorem State.modMbx_cad (s : State) (m : Nat) (f : Mbx → Mbx) : (s.modMbx m f).cad = s.cad := rfl
@[simp] theorem State.modMbx_therm (s : State) (m : Nat) (f : Mbx → Mbx) : (s.modMbx m f).therm = s.therm := rfl
@[simp] theorem State.modMbx_crossing (s : State) (m : Nat) (f : Mbx → Mbx) : (s.modMbx m f).crossing = s.crossing := rfl
@[simp] theorem State.modMbx_latches (s : State) (m : Nat) (f : Mbx → Mbx) : (s.modMbx m f).latches = s.latches := rfl
@[simp] theorem State.modMbx_onceTurn (s : State) (m : Nat) (f : Mbx → Mbx) : (s.modMbx m f).onceTurn = s.onceTurn := rfl
@[simp] theorem State.modMbx_mons (s : State) (m : Nat) (f : Mbx → Mbx) : (s.modMbx m f).mons = s.mons := rfl
@[simp] theorem State.modMbx_monSnapMbx (s : State) (m : Nat) (f : Mbx → Mbx) : (s.modMbx m f).monSnapMbx = s.monSnapMbx := rfl
@[simp] theorem State.modMbx_sram (s : State) (m : Nat) (f : Mbx → Mbx) : (s.modMbx m f).sram = s.sram := rfl
@[simp] theorem State.modMbx_lastTaken (s : State) (m : Nat) (f : Mbx → Mbx) : (s.modMbx m f).lastTaken = s.lastTaken := rfl
@[simp] theorem State.modMbx_staging (s : State) (m : Nat) (f : Mbx → Mbx) : (s.modMbx m f).staging = s.staging := rfl
@[simp] theorem State.modMbx_stagingHigh (s : State) (m : Nat) (f : Mbx → Mbx) : (s.modMbx m f).stagingHigh = s.stagingHigh := rfl
@[simp] theorem State.modMbx_switch (s : State) (m : Nat) (f : Mbx → Mbx) : (s.modMbx m f).switch = s.switch := rfl
@[simp] theorem State.modMbx_fwDigest (s : State) (m : Nat) (f : Mbx → Mbx) : (s.modMbx m f).fwDigest = s.fwDigest := rfl
@[simp] theorem State.modMbx_bulk (s : State) (m : Nat) (f : Mbx → Mbx) : (s.modMbx m f).bulk = s.bulk := rfl
@[simp] theorem State.modMbx_bulkLast (s : State) (m : Nat) (f : Mbx → Mbx) : (s.modMbx m f).bulkLast = s.bulkLast := rfl
@[simp] theorem State.modMbx_otp (s : State) (m : Nat) (f : Mbx → Mbx) : (s.modMbx m f).otp = s.otp := rfl
@[simp] theorem State.modMbx_signing (s : State) (m : Nat) (f : Mbx → Mbx) : (s.modMbx m f).signing = s.signing := rfl
@[simp] theorem State.modMbx_sb (s : State) (m : Nat) (f : Mbx → Mbx) : (s.modMbx m f).sb = s.sb := rfl
@[simp] theorem State.modMbx_power (s : State) (m : Nat) (f : Mbx → Mbx) : (s.modMbx m f).power = s.power := rfl
@[simp] theorem State.modMbx_test (s : State) (m : Nat) (f : Mbx → Mbx) : (s.modMbx m f).test = s.test := rfl
@[simp] theorem State.modMbx_reg (s : State) (m : Nat) (f : Mbx → Mbx) (i : Nat) : (s.modMbx m f).reg i = s.reg i := rfl
@[simp] theorem State.modMbx_rd (s : State) (m : Nat) (f : Mbx → Mbx) (g : Fld) : (s.modMbx m f).rd g = s.rd g := rfl
@[simp] theorem State.modMbx_on (s : State) (m : Nat) (f : Mbx → Mbx) (g : Fld) : (s.modMbx m f).on g = s.on g := rfl
@[simp] theorem State.modMbx_port (s : State) (m : Nat) (f : Mbx → Mbx) (i : Nat) : (s.modMbx m f).port i = s.port i := rfl
@[simp] theorem State.modMbx_lane (s : State) (m : Nat) (f : Mbx → Mbx) (i j : Nat) : (s.modMbx m f).lane i j = s.lane i j := rfl
@[simp] theorem State.modMbx_pav (s : State) (m : Nat) (f : Mbx → Mbx) (i : Nat) : (s.modMbx m f).pav i = s.pav i := rfl
@[simp] theorem State.modMbx_mon (s : State) (m : Nat) (f : Mbx → Mbx) (i : Nat) : (s.modMbx m f).mon i = s.mon i := rfl

/-! ### setMon -/

@[simp] theorem State.setMon_pending (s : State) (u : Nat) (b : Mon) : (s.setMon u b).pending = s.pending := rfl
@[simp] theorem State.setMon_now (s : State) (u : Nat) (b : Mon) : (s.setMon u b).now = s.now := rfl
@[simp] theorem State.setMon_freeIdx (s : State) (u : Nat) (b : Mon) : (s.setMon u b).freeIdx = s.freeIdx := rfl
@[simp] theorem State.setMon_epoch (s : State) (u : Nat) (b : Mon) : (s.setMon u b).epoch = s.epoch := rfl
@[simp] theorem State.setMon_regs (s : State) (u : Nat) (b : Mon) : (s.setMon u b).regs = s.regs := rfl
@[simp] theorem State.setMon_eff (s : State) (u : Nat) (b : Mon) : (s.setMon u b).eff = s.eff := rfl
@[simp] theorem State.setMon_staged (s : State) (u : Nat) (b : Mon) : (s.setMon u b).staged = s.staged := rfl
@[simp] theorem State.setMon_lastRead (s : State) (u : Nat) (b : Mon) : (s.setMon u b).lastRead = s.lastRead := rfl
@[simp] theorem State.setMon_lastStatus (s : State) (u : Nat) (b : Mon) : (s.setMon u b).lastStatus = s.lastStatus := rfl
@[simp] theorem State.setMon_dram (s : State) (u : Nat) (b : Mon) : (s.setMon u b).dram = s.dram := rfl
@[simp] theorem State.setMon_ports (s : State) (u : Nat) (b : Mon) : (s.setMon u b).ports = s.ports := rfl
@[simp] theorem State.setMon_lanes (s : State) (u : Nat) (b : Mon) : (s.setMon u b).lanes = s.lanes := rfl
@[simp] theorem State.setMon_prom (s : State) (u : Nat) (b : Mon) : (s.setMon u b).prom = s.prom := rfl
@[simp] theorem State.setMon_promRr (s : State) (u : Nat) (b : Mon) : (s.setMon u b).promRr = s.promRr := rfl
@[simp] theorem State.setMon_sentAt (s : State) (u : Nat) (b : Mon) : (s.setMon u b).sentAt = s.sentAt := rfl
@[simp] theorem State.setMon_nextId (s : State) (u : Nat) (b : Mon) : (s.setMon u b).nextId = s.nextId := rfl
@[simp] theorem State.setMon_pavs (s : State) (u : Nat) (b : Mon) : (s.setMon u b).pavs = s.pavs := rfl
@[simp] theorem State.setMon_tsvCmds (s : State) (u : Nat) (b : Mon) : (s.setMon u b).tsvCmds = s.tsvCmds := rfl
@[simp] theorem State.setMon_cad (s : State) (u : Nat) (b : Mon) : (s.setMon u b).cad = s.cad := rfl
@[simp] theorem State.setMon_therm (s : State) (u : Nat) (b : Mon) : (s.setMon u b).therm = s.therm := rfl
@[simp] theorem State.setMon_crossing (s : State) (u : Nat) (b : Mon) : (s.setMon u b).crossing = s.crossing := rfl
@[simp] theorem State.setMon_latches (s : State) (u : Nat) (b : Mon) : (s.setMon u b).latches = s.latches := rfl
@[simp] theorem State.setMon_onceTurn (s : State) (u : Nat) (b : Mon) : (s.setMon u b).onceTurn = s.onceTurn := rfl
@[simp] theorem State.setMon_monSnapMbx (s : State) (u : Nat) (b : Mon) : (s.setMon u b).monSnapMbx = s.monSnapMbx := rfl
@[simp] theorem State.setMon_sram (s : State) (u : Nat) (b : Mon) : (s.setMon u b).sram = s.sram := rfl
@[simp] theorem State.setMon_mbxs (s : State) (u : Nat) (b : Mon) : (s.setMon u b).mbxs = s.mbxs := rfl
@[simp] theorem State.setMon_lastTaken (s : State) (u : Nat) (b : Mon) : (s.setMon u b).lastTaken = s.lastTaken := rfl
@[simp] theorem State.setMon_staging (s : State) (u : Nat) (b : Mon) : (s.setMon u b).staging = s.staging := rfl
@[simp] theorem State.setMon_stagingHigh (s : State) (u : Nat) (b : Mon) : (s.setMon u b).stagingHigh = s.stagingHigh := rfl
@[simp] theorem State.setMon_switch (s : State) (u : Nat) (b : Mon) : (s.setMon u b).switch = s.switch := rfl
@[simp] theorem State.setMon_fwDigest (s : State) (u : Nat) (b : Mon) : (s.setMon u b).fwDigest = s.fwDigest := rfl
@[simp] theorem State.setMon_bulk (s : State) (u : Nat) (b : Mon) : (s.setMon u b).bulk = s.bulk := rfl
@[simp] theorem State.setMon_bulkLast (s : State) (u : Nat) (b : Mon) : (s.setMon u b).bulkLast = s.bulkLast := rfl
@[simp] theorem State.setMon_otp (s : State) (u : Nat) (b : Mon) : (s.setMon u b).otp = s.otp := rfl
@[simp] theorem State.setMon_signing (s : State) (u : Nat) (b : Mon) : (s.setMon u b).signing = s.signing := rfl
@[simp] theorem State.setMon_sb (s : State) (u : Nat) (b : Mon) : (s.setMon u b).sb = s.sb := rfl
@[simp] theorem State.setMon_power (s : State) (u : Nat) (b : Mon) : (s.setMon u b).power = s.power := rfl
@[simp] theorem State.setMon_test (s : State) (u : Nat) (b : Mon) : (s.setMon u b).test = s.test := rfl
@[simp] theorem State.setMon_reg (s : State) (u : Nat) (b : Mon) (i : Nat) : (s.setMon u b).reg i = s.reg i := rfl
@[simp] theorem State.setMon_rd (s : State) (u : Nat) (b : Mon) (g : Fld) : (s.setMon u b).rd g = s.rd g := rfl
@[simp] theorem State.setMon_on (s : State) (u : Nat) (b : Mon) (g : Fld) : (s.setMon u b).on g = s.on g := rfl
@[simp] theorem State.setMon_port (s : State) (u : Nat) (b : Mon) (i : Nat) : (s.setMon u b).port i = s.port i := rfl
@[simp] theorem State.setMon_lane (s : State) (u : Nat) (b : Mon) (i j : Nat) : (s.setMon u b).lane i j = s.lane i j := rfl
@[simp] theorem State.setMon_pav (s : State) (u : Nat) (b : Mon) (i : Nat) : (s.setMon u b).pav i = s.pav i := rfl
@[simp] theorem State.setMon_mbx (s : State) (u : Nat) (b : Mon) (i : Nat) : (s.setMon u b).mbx i = s.mbx i := rfl

/-! ### modMon -/

@[simp] theorem State.modMon_pending (s : State) (u : Nat) (f : Mon → Mon) : (s.modMon u f).pending = s.pending := rfl
@[simp] theorem State.modMon_now (s : State) (u : Nat) (f : Mon → Mon) : (s.modMon u f).now = s.now := rfl
@[simp] theorem State.modMon_freeIdx (s : State) (u : Nat) (f : Mon → Mon) : (s.modMon u f).freeIdx = s.freeIdx := rfl
@[simp] theorem State.modMon_epoch (s : State) (u : Nat) (f : Mon → Mon) : (s.modMon u f).epoch = s.epoch := rfl
@[simp] theorem State.modMon_regs (s : State) (u : Nat) (f : Mon → Mon) : (s.modMon u f).regs = s.regs := rfl
@[simp] theorem State.modMon_eff (s : State) (u : Nat) (f : Mon → Mon) : (s.modMon u f).eff = s.eff := rfl
@[simp] theorem State.modMon_staged (s : State) (u : Nat) (f : Mon → Mon) : (s.modMon u f).staged = s.staged := rfl
@[simp] theorem State.modMon_lastRead (s : State) (u : Nat) (f : Mon → Mon) : (s.modMon u f).lastRead = s.lastRead := rfl
@[simp] theorem State.modMon_lastStatus (s : State) (u : Nat) (f : Mon → Mon) : (s.modMon u f).lastStatus = s.lastStatus := rfl
@[simp] theorem State.modMon_dram (s : State) (u : Nat) (f : Mon → Mon) : (s.modMon u f).dram = s.dram := rfl
@[simp] theorem State.modMon_ports (s : State) (u : Nat) (f : Mon → Mon) : (s.modMon u f).ports = s.ports := rfl
@[simp] theorem State.modMon_lanes (s : State) (u : Nat) (f : Mon → Mon) : (s.modMon u f).lanes = s.lanes := rfl
@[simp] theorem State.modMon_prom (s : State) (u : Nat) (f : Mon → Mon) : (s.modMon u f).prom = s.prom := rfl
@[simp] theorem State.modMon_promRr (s : State) (u : Nat) (f : Mon → Mon) : (s.modMon u f).promRr = s.promRr := rfl
@[simp] theorem State.modMon_sentAt (s : State) (u : Nat) (f : Mon → Mon) : (s.modMon u f).sentAt = s.sentAt := rfl
@[simp] theorem State.modMon_nextId (s : State) (u : Nat) (f : Mon → Mon) : (s.modMon u f).nextId = s.nextId := rfl
@[simp] theorem State.modMon_pavs (s : State) (u : Nat) (f : Mon → Mon) : (s.modMon u f).pavs = s.pavs := rfl
@[simp] theorem State.modMon_tsvCmds (s : State) (u : Nat) (f : Mon → Mon) : (s.modMon u f).tsvCmds = s.tsvCmds := rfl
@[simp] theorem State.modMon_cad (s : State) (u : Nat) (f : Mon → Mon) : (s.modMon u f).cad = s.cad := rfl
@[simp] theorem State.modMon_therm (s : State) (u : Nat) (f : Mon → Mon) : (s.modMon u f).therm = s.therm := rfl
@[simp] theorem State.modMon_crossing (s : State) (u : Nat) (f : Mon → Mon) : (s.modMon u f).crossing = s.crossing := rfl
@[simp] theorem State.modMon_latches (s : State) (u : Nat) (f : Mon → Mon) : (s.modMon u f).latches = s.latches := rfl
@[simp] theorem State.modMon_onceTurn (s : State) (u : Nat) (f : Mon → Mon) : (s.modMon u f).onceTurn = s.onceTurn := rfl
@[simp] theorem State.modMon_monSnapMbx (s : State) (u : Nat) (f : Mon → Mon) : (s.modMon u f).monSnapMbx = s.monSnapMbx := rfl
@[simp] theorem State.modMon_sram (s : State) (u : Nat) (f : Mon → Mon) : (s.modMon u f).sram = s.sram := rfl
@[simp] theorem State.modMon_mbxs (s : State) (u : Nat) (f : Mon → Mon) : (s.modMon u f).mbxs = s.mbxs := rfl
@[simp] theorem State.modMon_lastTaken (s : State) (u : Nat) (f : Mon → Mon) : (s.modMon u f).lastTaken = s.lastTaken := rfl
@[simp] theorem State.modMon_staging (s : State) (u : Nat) (f : Mon → Mon) : (s.modMon u f).staging = s.staging := rfl
@[simp] theorem State.modMon_stagingHigh (s : State) (u : Nat) (f : Mon → Mon) : (s.modMon u f).stagingHigh = s.stagingHigh := rfl
@[simp] theorem State.modMon_switch (s : State) (u : Nat) (f : Mon → Mon) : (s.modMon u f).switch = s.switch := rfl
@[simp] theorem State.modMon_fwDigest (s : State) (u : Nat) (f : Mon → Mon) : (s.modMon u f).fwDigest = s.fwDigest := rfl
@[simp] theorem State.modMon_bulk (s : State) (u : Nat) (f : Mon → Mon) : (s.modMon u f).bulk = s.bulk := rfl
@[simp] theorem State.modMon_bulkLast (s : State) (u : Nat) (f : Mon → Mon) : (s.modMon u f).bulkLast = s.bulkLast := rfl
@[simp] theorem State.modMon_otp (s : State) (u : Nat) (f : Mon → Mon) : (s.modMon u f).otp = s.otp := rfl
@[simp] theorem State.modMon_signing (s : State) (u : Nat) (f : Mon → Mon) : (s.modMon u f).signing = s.signing := rfl
@[simp] theorem State.modMon_sb (s : State) (u : Nat) (f : Mon → Mon) : (s.modMon u f).sb = s.sb := rfl
@[simp] theorem State.modMon_power (s : State) (u : Nat) (f : Mon → Mon) : (s.modMon u f).power = s.power := rfl
@[simp] theorem State.modMon_test (s : State) (u : Nat) (f : Mon → Mon) : (s.modMon u f).test = s.test := rfl
@[simp] theorem State.modMon_reg (s : State) (u : Nat) (f : Mon → Mon) (i : Nat) : (s.modMon u f).reg i = s.reg i := rfl
@[simp] theorem State.modMon_rd (s : State) (u : Nat) (f : Mon → Mon) (g : Fld) : (s.modMon u f).rd g = s.rd g := rfl
@[simp] theorem State.modMon_on (s : State) (u : Nat) (f : Mon → Mon) (g : Fld) : (s.modMon u f).on g = s.on g := rfl
@[simp] theorem State.modMon_port (s : State) (u : Nat) (f : Mon → Mon) (i : Nat) : (s.modMon u f).port i = s.port i := rfl
@[simp] theorem State.modMon_lane (s : State) (u : Nat) (f : Mon → Mon) (i j : Nat) : (s.modMon u f).lane i j = s.lane i j := rfl
@[simp] theorem State.modMon_pav (s : State) (u : Nat) (f : Mon → Mon) (i : Nat) : (s.modMon u f).pav i = s.pav i := rfl
@[simp] theorem State.modMon_mbx (s : State) (u : Nat) (f : Mon → Mon) (i : Nat) : (s.modMon u f).mbx i = s.mbx i := rfl

/-! ### atLeast -/

@[simp] theorem State.atLeast_pending (s : State) (t : Nat) : (s.atLeast t).pending = s.pending := rfl
@[simp] theorem State.atLeast_freeIdx (s : State) (t : Nat) : (s.atLeast t).freeIdx = s.freeIdx := rfl
@[simp] theorem State.atLeast_epoch (s : State) (t : Nat) : (s.atLeast t).epoch = s.epoch := rfl
@[simp] theorem State.atLeast_regs (s : State) (t : Nat) : (s.atLeast t).regs = s.regs := rfl
@[simp] theorem State.atLeast_eff (s : State) (t : Nat) : (s.atLeast t).eff = s.eff := rfl
@[simp] theorem State.atLeast_staged (s : State) (t : Nat) : (s.atLeast t).staged = s.staged := rfl
@[simp] theorem State.atLeast_lastRead (s : State) (t : Nat) : (s.atLeast t).lastRead = s.lastRead := rfl
@[simp] theorem State.atLeast_lastStatus (s : State) (t : Nat) : (s.atLeast t).lastStatus = s.lastStatus := rfl
@[simp] theorem State.atLeast_dram (s : State) (t : Nat) : (s.atLeast t).dram = s.dram := rfl
@[simp] theorem State.atLeast_ports (s : State) (t : Nat) : (s.atLeast t).ports = s.ports := rfl
@[simp] theorem State.atLeast_lanes (s : State) (t : Nat) : (s.atLeast t).lanes = s.lanes := rfl
@[simp] theorem State.atLeast_prom (s : State) (t : Nat) : (s.atLeast t).prom = s.prom := rfl
@[simp] theorem State.atLeast_promRr (s : State) (t : Nat) : (s.atLeast t).promRr = s.promRr := rfl
@[simp] theorem State.atLeast_sentAt (s : State) (t : Nat) : (s.atLeast t).sentAt = s.sentAt := rfl
@[simp] theorem State.atLeast_nextId (s : State) (t : Nat) : (s.atLeast t).nextId = s.nextId := rfl
@[simp] theorem State.atLeast_pavs (s : State) (t : Nat) : (s.atLeast t).pavs = s.pavs := rfl
@[simp] theorem State.atLeast_tsvCmds (s : State) (t : Nat) : (s.atLeast t).tsvCmds = s.tsvCmds := rfl
@[simp] theorem State.atLeast_cad (s : State) (t : Nat) : (s.atLeast t).cad = s.cad := rfl
@[simp] theorem State.atLeast_therm (s : State) (t : Nat) : (s.atLeast t).therm = s.therm := rfl
@[simp] theorem State.atLeast_crossing (s : State) (t : Nat) : (s.atLeast t).crossing = s.crossing := rfl
@[simp] theorem State.atLeast_latches (s : State) (t : Nat) : (s.atLeast t).latches = s.latches := rfl
@[simp] theorem State.atLeast_onceTurn (s : State) (t : Nat) : (s.atLeast t).onceTurn = s.onceTurn := rfl
@[simp] theorem State.atLeast_mons (s : State) (t : Nat) : (s.atLeast t).mons = s.mons := rfl
@[simp] theorem State.atLeast_monSnapMbx (s : State) (t : Nat) : (s.atLeast t).monSnapMbx = s.monSnapMbx := rfl
@[simp] theorem State.atLeast_sram (s : State) (t : Nat) : (s.atLeast t).sram = s.sram := rfl
@[simp] theorem State.atLeast_mbxs (s : State) (t : Nat) : (s.atLeast t).mbxs = s.mbxs := rfl
@[simp] theorem State.atLeast_lastTaken (s : State) (t : Nat) : (s.atLeast t).lastTaken = s.lastTaken := rfl
@[simp] theorem State.atLeast_staging (s : State) (t : Nat) : (s.atLeast t).staging = s.staging := rfl
@[simp] theorem State.atLeast_stagingHigh (s : State) (t : Nat) : (s.atLeast t).stagingHigh = s.stagingHigh := rfl
@[simp] theorem State.atLeast_switch (s : State) (t : Nat) : (s.atLeast t).switch = s.switch := rfl
@[simp] theorem State.atLeast_fwDigest (s : State) (t : Nat) : (s.atLeast t).fwDigest = s.fwDigest := rfl
@[simp] theorem State.atLeast_bulk (s : State) (t : Nat) : (s.atLeast t).bulk = s.bulk := rfl
@[simp] theorem State.atLeast_bulkLast (s : State) (t : Nat) : (s.atLeast t).bulkLast = s.bulkLast := rfl
@[simp] theorem State.atLeast_otp (s : State) (t : Nat) : (s.atLeast t).otp = s.otp := rfl
@[simp] theorem State.atLeast_signing (s : State) (t : Nat) : (s.atLeast t).signing = s.signing := rfl
@[simp] theorem State.atLeast_sb (s : State) (t : Nat) : (s.atLeast t).sb = s.sb := rfl
@[simp] theorem State.atLeast_power (s : State) (t : Nat) : (s.atLeast t).power = s.power := rfl
@[simp] theorem State.atLeast_test (s : State) (t : Nat) : (s.atLeast t).test = s.test := rfl
@[simp] theorem State.atLeast_reg (s : State) (t : Nat) (i : Nat) : (s.atLeast t).reg i = s.reg i := rfl
@[simp] theorem State.atLeast_rd (s : State) (t : Nat) (g : Fld) : (s.atLeast t).rd g = s.rd g := rfl
@[simp] theorem State.atLeast_on (s : State) (t : Nat) (g : Fld) : (s.atLeast t).on g = s.on g := rfl
@[simp] theorem State.atLeast_port (s : State) (t : Nat) (i : Nat) : (s.atLeast t).port i = s.port i := rfl
@[simp] theorem State.atLeast_lane (s : State) (t : Nat) (i j : Nat) : (s.atLeast t).lane i j = s.lane i j := rfl
@[simp] theorem State.atLeast_pav (s : State) (t : Nat) (i : Nat) : (s.atLeast t).pav i = s.pav i := rfl
@[simp] theorem State.atLeast_mbx (s : State) (t : Nat) (i : Nat) : (s.atLeast t).mbx i = s.mbx i := rfl
@[simp] theorem State.atLeast_mon (s : State) (t : Nat) (i : Nat) : (s.atLeast t).mon i = s.mon i := rfl

/-! ### raise -/

@[simp] theorem State.raise_pending (s : State) (ev d : Nat) : (s.raise ev d).pending = s.pending := by unfold State.raise; split <;> rfl
@[simp] theorem State.raise_now (s : State) (ev d : Nat) : (s.raise ev d).now = s.now := by unfold State.raise; split <;> rfl
@[simp] theorem State.raise_freeIdx (s : State) (ev d : Nat) : (s.raise ev d).freeIdx = s.freeIdx := by unfold State.raise; split <;> rfl
@[simp] theorem State.raise_epoch (s : State) (ev d : Nat) : (s.raise ev d).epoch = s.epoch := by unfold State.raise; split <;> rfl
@[simp] theorem State.raise_regs (s : State) (ev d : Nat) : (s.raise ev d).regs = s.regs := by unfold State.raise; split <;> rfl
@[simp] theorem State.raise_eff (s : State) (ev d : Nat) : (s.raise ev d).eff = s.eff := by unfold State.raise; split <;> rfl
@[simp] theorem State.raise_staged (s : State) (ev d : Nat) : (s.raise ev d).staged = s.staged := by unfold State.raise; split <;> rfl
@[simp] theorem State.raise_lastRead (s : State) (ev d : Nat) : (s.raise ev d).lastRead = s.lastRead := by unfold State.raise; split <;> rfl
@[simp] theorem State.raise_lastStatus (s : State) (ev d : Nat) : (s.raise ev d).lastStatus = s.lastStatus := by unfold State.raise; split <;> rfl
@[simp] theorem State.raise_dram (s : State) (ev d : Nat) : (s.raise ev d).dram = s.dram := by unfold State.raise; split <;> rfl
@[simp] theorem State.raise_ports (s : State) (ev d : Nat) : (s.raise ev d).ports = s.ports := by unfold State.raise; split <;> rfl
@[simp] theorem State.raise_lanes (s : State) (ev d : Nat) : (s.raise ev d).lanes = s.lanes := by unfold State.raise; split <;> rfl
@[simp] theorem State.raise_prom (s : State) (ev d : Nat) : (s.raise ev d).prom = s.prom := by unfold State.raise; split <;> rfl
@[simp] theorem State.raise_promRr (s : State) (ev d : Nat) : (s.raise ev d).promRr = s.promRr := by unfold State.raise; split <;> rfl
@[simp] theorem State.raise_sentAt (s : State) (ev d : Nat) : (s.raise ev d).sentAt = s.sentAt := by unfold State.raise; split <;> rfl
@[simp] theorem State.raise_nextId (s : State) (ev d : Nat) : (s.raise ev d).nextId = s.nextId := by unfold State.raise; split <;> rfl
@[simp] theorem State.raise_pavs (s : State) (ev d : Nat) : (s.raise ev d).pavs = s.pavs := by unfold State.raise; split <;> rfl
@[simp] theorem State.raise_tsvCmds (s : State) (ev d : Nat) : (s.raise ev d).tsvCmds = s.tsvCmds := by unfold State.raise; split <;> rfl
@[simp] theorem State.raise_cad (s : State) (ev d : Nat) : (s.raise ev d).cad = s.cad := by unfold State.raise; split <;> rfl
@[simp] theorem State.raise_therm (s : State) (ev d : Nat) : (s.raise ev d).therm = s.therm := by unfold State.raise; split <;> rfl
@[simp] theorem State.raise_latches (s : State) (ev d : Nat) : (s.raise ev d).latches = s.latches := by unfold State.raise; split <;> rfl
@[simp] theorem State.raise_onceTurn (s : State) (ev d : Nat) : (s.raise ev d).onceTurn = s.onceTurn := by unfold State.raise; split <;> rfl
@[simp] theorem State.raise_mons (s : State) (ev d : Nat) : (s.raise ev d).mons = s.mons := by unfold State.raise; split <;> rfl
@[simp] theorem State.raise_monSnapMbx (s : State) (ev d : Nat) : (s.raise ev d).monSnapMbx = s.monSnapMbx := by unfold State.raise; split <;> rfl
@[simp] theorem State.raise_sram (s : State) (ev d : Nat) : (s.raise ev d).sram = s.sram := by unfold State.raise; split <;> rfl
@[simp] theorem State.raise_mbxs (s : State) (ev d : Nat) : (s.raise ev d).mbxs = s.mbxs := by unfold State.raise; split <;> rfl
@[simp] theorem State.raise_lastTaken (s : State) (ev d : Nat) : (s.raise ev d).lastTaken = s.lastTaken := by unfold State.raise; split <;> rfl
@[simp] theorem State.raise_staging (s : State) (ev d : Nat) : (s.raise ev d).staging = s.staging := by unfold State.raise; split <;> rfl
@[simp] theorem State.raise_stagingHigh (s : State) (ev d : Nat) : (s.raise ev d).stagingHigh = s.stagingHigh := by unfold State.raise; split <;> rfl
@[simp] theorem State.raise_switch (s : State) (ev d : Nat) : (s.raise ev d).switch = s.switch := by unfold State.raise; split <;> rfl
@[simp] theorem State.raise_fwDigest (s : State) (ev d : Nat) : (s.raise ev d).fwDigest = s.fwDigest := by unfold State.raise; split <;> rfl
@[simp] theorem State.raise_bulk (s : State) (ev d : Nat) : (s.raise ev d).bulk = s.bulk := by unfold State.raise; split <;> rfl
@[simp] theorem State.raise_bulkLast (s : State) (ev d : Nat) : (s.raise ev d).bulkLast = s.bulkLast := by unfold State.raise; split <;> rfl
@[simp] theorem State.raise_otp (s : State) (ev d : Nat) : (s.raise ev d).otp = s.otp := by unfold State.raise; split <;> rfl
@[simp] theorem State.raise_signing (s : State) (ev d : Nat) : (s.raise ev d).signing = s.signing := by unfold State.raise; split <;> rfl
@[simp] theorem State.raise_sb (s : State) (ev d : Nat) : (s.raise ev d).sb = s.sb := by unfold State.raise; split <;> rfl
@[simp] theorem State.raise_power (s : State) (ev d : Nat) : (s.raise ev d).power = s.power := by unfold State.raise; split <;> rfl
@[simp] theorem State.raise_test (s : State) (ev d : Nat) : (s.raise ev d).test = s.test := by unfold State.raise; split <;> rfl
@[simp] theorem State.raise_reg (s : State) (ev d : Nat) (i : Nat) : (s.raise ev d).reg i = s.reg i := by simp [State.reg]
@[simp] theorem State.raise_rd (s : State) (ev d : Nat) (g : Fld) : (s.raise ev d).rd g = s.rd g := by simp [State.rd, State.reg]
@[simp] theorem State.raise_on (s : State) (ev d : Nat) (g : Fld) : (s.raise ev d).on g = s.on g := by simp [State.on, State.rd, State.reg]
@[simp] theorem State.raise_port (s : State) (ev d : Nat) (i : Nat) : (s.raise ev d).port i = s.port i := by simp [State.port]
@[simp] theorem State.raise_lane (s : State) (ev d : Nat) (i j : Nat) : (s.raise ev d).lane i j = s.lane i j := by simp [State.lane]
@[simp] theorem State.raise_pav (s : State) (ev d : Nat) (i : Nat) : (s.raise ev d).pav i = s.pav i := by simp [State.pav]
@[simp] theorem State.raise_mbx (s : State) (ev d : Nat) (i : Nat) : (s.raise ev d).mbx i = s.mbx i := by simp [State.mbx]
@[simp] theorem State.raise_mon (s : State) (ev d : Nat) (i : Nat) : (s.raise ev d).mon i = s.mon i := by simp [State.mon]

/-! ### raiseOnce -/

@[simp] theorem State.raiseOnce_pending (s : State) (ev d : Nat) : (s.raiseOnce ev d).pending = s.pending := by unfold State.raiseOnce; split <;> simp
@[simp] theorem State.raiseOnce_now (s : State) (ev d : Nat) : (s.raiseOnce ev d).now = s.now := by unfold State.raiseOnce; split <;> simp
@[simp] theorem State.raiseOnce_freeIdx (s : State) (ev d : Nat) : (s.raiseOnce ev d).freeIdx = s.freeIdx := by unfold State.raiseOnce; split <;> simp
@[simp] theorem State.raiseOnce_epoch (s : State) (ev d : Nat) : (s.raiseOnce ev d).epoch = s.epoch := by unfold State.raiseOnce; split <;> simp
@[simp] theorem State.raiseOnce_regs (s : State) (ev d : Nat) : (s.raiseOnce ev d).regs = s.regs := by unfold State.raiseOnce; split <;> simp
@[simp] theorem State.raiseOnce_eff (s : State) (ev d : Nat) : (s.raiseOnce ev d).eff = s.eff := by unfold State.raiseOnce; split <;> simp
@[simp] theorem State.raiseOnce_staged (s : State) (ev d : Nat) : (s.raiseOnce ev d).staged = s.staged := by unfold State.raiseOnce; split <;> simp
@[simp] theorem State.raiseOnce_lastRead (s : State) (ev d : Nat) : (s.raiseOnce ev d).lastRead = s.lastRead := by unfold State.raiseOnce; split <;> simp
@[simp] theorem State.raiseOnce_lastStatus (s : State) (ev d : Nat) : (s.raiseOnce ev d).lastStatus = s.lastStatus := by unfold State.raiseOnce; split <;> simp
@[simp] theorem State.raiseOnce_dram (s : State) (ev d : Nat) : (s.raiseOnce ev d).dram = s.dram := by unfold State.raiseOnce; split <;> simp
@[simp] theorem State.raiseOnce_ports (s : State) (ev d : Nat) : (s.raiseOnce ev d).ports = s.ports := by unfold State.raiseOnce; split <;> simp
@[simp] theorem State.raiseOnce_lanes (s : State) (ev d : Nat) : (s.raiseOnce ev d).lanes = s.lanes := by unfold State.raiseOnce; split <;> simp
@[simp] theorem State.raiseOnce_prom (s : State) (ev d : Nat) : (s.raiseOnce ev d).prom = s.prom := by unfold State.raiseOnce; split <;> simp
@[simp] theorem State.raiseOnce_promRr (s : State) (ev d : Nat) : (s.raiseOnce ev d).promRr = s.promRr := by unfold State.raiseOnce; split <;> simp
@[simp] theorem State.raiseOnce_sentAt (s : State) (ev d : Nat) : (s.raiseOnce ev d).sentAt = s.sentAt := by unfold State.raiseOnce; split <;> simp
@[simp] theorem State.raiseOnce_nextId (s : State) (ev d : Nat) : (s.raiseOnce ev d).nextId = s.nextId := by unfold State.raiseOnce; split <;> simp
@[simp] theorem State.raiseOnce_pavs (s : State) (ev d : Nat) : (s.raiseOnce ev d).pavs = s.pavs := by unfold State.raiseOnce; split <;> simp
@[simp] theorem State.raiseOnce_tsvCmds (s : State) (ev d : Nat) : (s.raiseOnce ev d).tsvCmds = s.tsvCmds := by unfold State.raiseOnce; split <;> simp
@[simp] theorem State.raiseOnce_cad (s : State) (ev d : Nat) : (s.raiseOnce ev d).cad = s.cad := by unfold State.raiseOnce; split <;> simp
@[simp] theorem State.raiseOnce_therm (s : State) (ev d : Nat) : (s.raiseOnce ev d).therm = s.therm := by unfold State.raiseOnce; split <;> simp
@[simp] theorem State.raiseOnce_latches (s : State) (ev d : Nat) : (s.raiseOnce ev d).latches = s.latches := by unfold State.raiseOnce; split <;> simp
@[simp] theorem State.raiseOnce_mons (s : State) (ev d : Nat) : (s.raiseOnce ev d).mons = s.mons := by unfold State.raiseOnce; split <;> simp
@[simp] theorem State.raiseOnce_monSnapMbx (s : State) (ev d : Nat) : (s.raiseOnce ev d).monSnapMbx = s.monSnapMbx := by unfold State.raiseOnce; split <;> simp
@[simp] theorem State.raiseOnce_sram (s : State) (ev d : Nat) : (s.raiseOnce ev d).sram = s.sram := by unfold State.raiseOnce; split <;> simp
@[simp] theorem State.raiseOnce_mbxs (s : State) (ev d : Nat) : (s.raiseOnce ev d).mbxs = s.mbxs := by unfold State.raiseOnce; split <;> simp
@[simp] theorem State.raiseOnce_lastTaken (s : State) (ev d : Nat) : (s.raiseOnce ev d).lastTaken = s.lastTaken := by unfold State.raiseOnce; split <;> simp
@[simp] theorem State.raiseOnce_staging (s : State) (ev d : Nat) : (s.raiseOnce ev d).staging = s.staging := by unfold State.raiseOnce; split <;> simp
@[simp] theorem State.raiseOnce_stagingHigh (s : State) (ev d : Nat) : (s.raiseOnce ev d).stagingHigh = s.stagingHigh := by unfold State.raiseOnce; split <;> simp
@[simp] theorem State.raiseOnce_switch (s : State) (ev d : Nat) : (s.raiseOnce ev d).switch = s.switch := by unfold State.raiseOnce; split <;> simp
@[simp] theorem State.raiseOnce_fwDigest (s : State) (ev d : Nat) : (s.raiseOnce ev d).fwDigest = s.fwDigest := by unfold State.raiseOnce; split <;> simp
@[simp] theorem State.raiseOnce_bulk (s : State) (ev d : Nat) : (s.raiseOnce ev d).bulk = s.bulk := by unfold State.raiseOnce; split <;> simp
@[simp] theorem State.raiseOnce_bulkLast (s : State) (ev d : Nat) : (s.raiseOnce ev d).bulkLast = s.bulkLast := by unfold State.raiseOnce; split <;> simp
@[simp] theorem State.raiseOnce_otp (s : State) (ev d : Nat) : (s.raiseOnce ev d).otp = s.otp := by unfold State.raiseOnce; split <;> simp
@[simp] theorem State.raiseOnce_signing (s : State) (ev d : Nat) : (s.raiseOnce ev d).signing = s.signing := by unfold State.raiseOnce; split <;> simp
@[simp] theorem State.raiseOnce_sb (s : State) (ev d : Nat) : (s.raiseOnce ev d).sb = s.sb := by unfold State.raiseOnce; split <;> simp
@[simp] theorem State.raiseOnce_power (s : State) (ev d : Nat) : (s.raiseOnce ev d).power = s.power := by unfold State.raiseOnce; split <;> simp
@[simp] theorem State.raiseOnce_test (s : State) (ev d : Nat) : (s.raiseOnce ev d).test = s.test := by unfold State.raiseOnce; split <;> simp
@[simp] theorem State.raiseOnce_reg (s : State) (ev d : Nat) (i : Nat) : (s.raiseOnce ev d).reg i = s.reg i := by simp [State.reg]
@[simp] theorem State.raiseOnce_rd (s : State) (ev d : Nat) (g : Fld) : (s.raiseOnce ev d).rd g = s.rd g := by simp [State.rd, State.reg]
@[simp] theorem State.raiseOnce_on (s : State) (ev d : Nat) (g : Fld) : (s.raiseOnce ev d).on g = s.on g := by simp [State.on, State.rd, State.reg]
@[simp] theorem State.raiseOnce_port (s : State) (ev d : Nat) (i : Nat) : (s.raiseOnce ev d).port i = s.port i := by simp [State.port]
@[simp] theorem State.raiseOnce_lane (s : State) (ev d : Nat) (i j : Nat) : (s.raiseOnce ev d).lane i j = s.lane i j := by simp [State.lane]
@[simp] theorem State.raiseOnce_pav (s : State) (ev d : Nat) (i : Nat) : (s.raiseOnce ev d).pav i = s.pav i := by simp [State.pav]
@[simp] theorem State.raiseOnce_mbx (s : State) (ev d : Nat) (i : Nat) : (s.raiseOnce ev d).mbx i = s.mbx i := by simp [State.mbx]
@[simp] theorem State.raiseOnce_mon (s : State) (ev d : Nat) (i : Nat) : (s.raiseOnce ev d).mon i = s.mon i := by simp [State.mon]

/-! ### Bits -/

theorem bitsOf_bitsSet_same (x lo w v : Nat) : bitsOf (bitsSet x lo w v) lo w = v % 2 ^ w := by
  unfold bitsOf bitsSet
  have hp : 0 < 2 ^ lo := Nat.two_pow_pos lo
  have hlt : x % 2 ^ lo < 2 ^ lo := Nat.mod_lt _ hp
  have h1 : x / 2 ^ (lo + w) * 2 ^ (lo + w) + v % 2 ^ w * 2 ^ lo + x % 2 ^ lo
      = 2 ^ lo * (2 ^ w * (x / 2 ^ (lo + w)) + v % 2 ^ w) + x % 2 ^ lo := by
    rw [Nat.pow_add]; ring
  rw [h1, Nat.mul_add_div hp, Nat.div_eq_of_lt hlt, Nat.add_zero, Nat.mul_add_mod]
  exact Nat.mod_mod _ _

theorem bitsOf_lt (x lo w : Nat) : bitsOf x lo w < 2 ^ w := Nat.mod_lt _ (Nat.two_pow_pos w)

theorem testBit_bitsOf (x lo w i : Nat) : (bitsOf x lo w).testBit i = (decide (i < w) && x.testBit (lo + i)) := by
  unfold bitsOf
  rw [Nat.testBit_mod_two_pow, Nat.testBit_div_two_pow, Nat.add_comm]

theorem testBit_bitsSet (x lo w v i : Nat) :
    (bitsSet x lo w v).testBit i = if i < lo then x.testBit i else if i < lo + w then v.testBit (i - lo) else x.testBit i := by
  unfold bitsSet
  have hlt : x % 2 ^ lo < 2 ^ lo := Nat.mod_lt _ (Nat.two_pow_pos lo)
  have hv : v % 2 ^ w < 2 ^ w := Nat.mod_lt _ (Nat.two_pow_pos w)
  have h1 : x / 2 ^ (lo + w) * 2 ^ (lo + w) + v % 2 ^ w * 2 ^ lo + x % 2 ^ lo
      = 2 ^ lo * (2 ^ w * (x / 2 ^ (lo + w)) + v % 2 ^ w) + x % 2 ^ lo := by
    rw [Nat.pow_add]; ring
  rw [h1, Nat.testBit_two_pow_mul_add _ hlt]
  by_cases h : i < lo
  · simp [h, Nat.testBit_mod_two_pow]
  · simp only [h, if_false]
    rw [Nat.testBit_two_pow_mul_add _ hv]
    by_cases h2 : i < lo + w
    · have : i - lo < w := by omega
      simp [h2, this, Nat.testBit_mod_two_pow]
    · have h3 : ¬ (i - lo < w) := by omega
      simp only [h2, h3, if_false, Nat.testBit_div_two_pow]
      congr 1
      omega

theorem bitsOf_bitsSet_disj (x lo w v lo' w' : Nat) (h : lo + w ≤ lo' ∨ lo' + w' ≤ lo) :
    bitsOf (bitsSet x lo w v) lo' w' = bitsOf x lo' w' := by
  apply Nat.eq_of_testBit_eq
  intro i
  rw [testBit_bitsOf, testBit_bitsOf, testBit_bitsSet]
  by_cases hi : i < w'
  · simp only [hi, decide_true, Bool.true_and]
    split
    · rfl
    · split
      · omega
      · rfl
  · simp [hi]

theorem bitsSet_lt (x lo w v n : Nat) (hx : x < 2 ^ n) (h : lo + w ≤ n) : bitsSet x lo w v < 2 ^ n := by
  apply Nat.lt_pow_two_of_testBit
  intro i hi
  rw [testBit_bitsSet]
  have hxi : x.testBit i = false := Nat.testBit_lt_two_pow (Nat.lt_of_lt_of_le hx (Nat.pow_le_pow_right (by decide) hi))
  split
  · exact hxi
  · split
    · omega
    · exact hxi

/-! ### Registers -/

theorem State.reg_setReg_same (s : State) (off : Nat) (v : Reg32) : (s.setReg off v).reg off = v :=
  tabGet_tabSet_same _ _ _ _

theorem State.reg_setReg_ne (s : State) (off : Nat) (v : Reg32) {i : Nat} (h : i ≠ off) : (s.setReg off v).reg i = s.reg i :=
  tabGet_tabSet_ne _ _ _ _ h

/-- A field reads as it was written (R11). -/
theorem State.rd_wr_same (s : State) (f : Fld) (v : Nat) (h : f.lo + f.w ≤ 32) : (s.wr f v).rd f = v % 2 ^ f.w := by
  unfold State.wr State.rd
  rw [State.reg_setReg_same, BitVec.toNat_ofNat,
    Nat.mod_eq_of_lt (bitsSet_lt _ _ _ _ 32 (s.reg f.off).isLt h), bitsOf_bitsSet_same]

/-- Writing a field leaves every other register. -/
theorem State.reg_wr_ne (s : State) (f : Fld) (v : Nat) {i : Nat} (h : i ≠ f.off) : (s.wr f v).reg i = s.reg i :=
  State.reg_setReg_ne s f.off _ h

/-- Writing a field leaves the fields of other registers. -/
theorem State.rd_wr_ne (s : State) (f g : Fld) (v : Nat) (h : g.off ≠ f.off) : (s.wr f v).rd g = s.rd g := by
  unfold State.rd
  rw [State.reg_wr_ne s f v h]

/-- Writing a field leaves the other bits of its register. -/
theorem State.rd_wr_disj (s : State) (f g : Fld) (v : Nat) (hf : f.lo + f.w ≤ 32)
    (h : f.lo + f.w ≤ g.lo ∨ g.lo + g.w ≤ f.lo) : (s.wr f v).rd g = s.rd g := by
  by_cases ho : g.off = f.off
  · unfold State.rd State.wr
    rw [ho, State.reg_setReg_same, BitVec.toNat_ofNat,
      Nat.mod_eq_of_lt (bitsSet_lt _ _ _ _ 32 (s.reg f.off).isLt hf), bitsOf_bitsSet_disj _ _ _ _ _ _ h]
  · exact State.rd_wr_ne s f g v ho

/-- A counter that saturates reads one more, or its largest value (R11). -/
theorem State.rd_sat_same (s : State) (f : Fld) (k : Nat) (h : f.lo + f.w ≤ 32) :
    (s.sat f k).rd f = min (2 ^ f.w - 1) (s.rd f + k) := by
  unfold State.sat
  rw [State.rd_wr_same s f _ h]
  apply Nat.mod_eq_of_lt
  have := Nat.two_pow_pos f.w
  omega

theorem State.reg_sat_ne (s : State) (f : Fld) (k : Nat) {i : Nat} (h : i ≠ f.off) : (s.sat f k).reg i = s.reg i :=
  State.reg_wr_ne s f _ h

theorem State.rd_sat_ne (s : State) (f g : Fld) (k : Nat) (h : g.off ≠ f.off) : (s.sat f k).rd g = s.rd g :=
  State.rd_wr_ne s f g _ h

theorem State.rd_sat_disj (s : State) (f g : Fld) (k : Nat) (hf : f.lo + f.w ≤ 32)
    (h : f.lo + f.w ≤ g.lo ∨ g.lo + g.w ≤ f.lo) : (s.sat f k).rd g = s.rd g :=
  State.rd_wr_disj s f g _ hf h

theorem State.rd_lt (s : State) (f : Fld) : s.rd f < 2 ^ f.w := bitsOf_lt _ _ _

/-! ### Indexed parts -/

@[simp] theorem State.port_setPort_same (s : State) (n : Nat) (p : Port) : (s.setPort n p).port n = p :=
  tabGet_tabSet_same _ _ _ _
theorem State.port_setPort_ne (s : State) (n : Nat) (p : Port) {i : Nat} (h : i ≠ n) : (s.setPort n p).port i = s.port i :=
  tabGet_tabSet_ne _ _ _ _ h
@[simp] theorem State.port_modPort_same (s : State) (n : Nat) (f : Port → Port) : (s.modPort n f).port n = f (s.port n) :=
  State.port_setPort_same _ _ _
theorem State.port_modPort_ne (s : State) (n : Nat) (f : Port → Port) {i : Nat} (h : i ≠ n) :
    (s.modPort n f).port i = s.port i := State.port_setPort_ne _ _ _ h

@[simp] theorem State.lane_setLane_same (s : State) (n p : Nat) (l : Lane) : (s.setLane n p l).lane n p = l :=
  tabGet_tabSet_same _ _ _ _
theorem State.lane_setLane_ne (s : State) (n p : Nat) (l : Lane) {i j : Nat} (h : 8 * i + j ≠ 8 * n + p) :
    (s.setLane n p l).lane i j = s.lane i j := tabGet_tabSet_ne _ _ _ _ h
@[simp] theorem State.lane_modLane_same (s : State) (n p : Nat) (f : Lane → Lane) :
    (s.modLane n p f).lane n p = f (s.lane n p) := State.lane_setLane_same _ _ _ _
theorem State.lane_modLane_ne (s : State) (n p : Nat) (f : Lane → Lane) {i j : Nat} (h : 8 * i + j ≠ 8 * n + p) :
    (s.modLane n p f).lane i j = s.lane i j := State.lane_setLane_ne _ _ _ _ h

@[simp] theorem State.pav_setPav_same (s : State) (p : Nat) (v : Pav) : (s.setPav p v).pav p = v :=
  tabGet_tabSet_same _ _ _ _
theorem State.pav_setPav_ne (s : State) (p : Nat) (v : Pav) {i : Nat} (h : i ≠ p) : (s.setPav p v).pav i = s.pav i :=
  tabGet_tabSet_ne _ _ _ _ h
@[simp] theorem State.pav_modPav_same (s : State) (p : Nat) (f : Pav → Pav) : (s.modPav p f).pav p = f (s.pav p) :=
  State.pav_setPav_same _ _ _
theorem State.pav_modPav_ne (s : State) (p : Nat) (f : Pav → Pav) {i : Nat} (h : i ≠ p) :
    (s.modPav p f).pav i = s.pav i := State.pav_setPav_ne _ _ _ h

@[simp] theorem State.mbx_setMbx_same (s : State) (m : Nat) (b : Mbx) : (s.setMbx m b).mbx m = b :=
  tabGet_tabSet_same _ _ _ _
theorem State.mbx_setMbx_ne (s : State) (m : Nat) (b : Mbx) {i : Nat} (h : i ≠ m) : (s.setMbx m b).mbx i = s.mbx i :=
  tabGet_tabSet_ne _ _ _ _ h
@[simp] theorem State.mbx_modMbx_same (s : State) (m : Nat) (f : Mbx → Mbx) : (s.modMbx m f).mbx m = f (s.mbx m) :=
  State.mbx_setMbx_same _ _ _
theorem State.mbx_modMbx_ne (s : State) (m : Nat) (f : Mbx → Mbx) {i : Nat} (h : i ≠ m) :
    (s.modMbx m f).mbx i = s.mbx i := State.mbx_setMbx_ne _ _ _ h

@[simp] theorem State.mon_setMon_same (s : State) (u : Nat) (b : Mon) : (s.setMon u b).mon u = b :=
  tabGet_tabSet_same _ _ _ _
theorem State.mon_setMon_ne (s : State) (u : Nat) (b : Mon) {i : Nat} (h : i ≠ u) : (s.setMon u b).mon i = s.mon i :=
  tabGet_tabSet_ne _ _ _ _ h
@[simp] theorem State.mon_modMon_same (s : State) (u : Nat) (f : Mon → Mon) : (s.modMon u f).mon u = f (s.mon u) :=
  State.mon_setMon_same _ _ _
theorem State.mon_modMon_ne (s : State) (u : Nat) (f : Mon → Mon) {i : Nat} (h : i ≠ u) :
    (s.modMon u f).mon i = s.mon i := State.mon_setMon_ne _ _ _ h

/-! ### Raisings -/

/-- A raising is on its way to the event logic after it was made (R546). -/
theorem State.raise_sets_out (s : State) (ev d : Nat) : (s.raise ev d).crossing.any (fun c => c.1 == ev) = true := by
  unfold State.raise
  split
  · next h =>
    simp only [List.any_map, List.any_eq_true, Function.comp] at h ⊢
    obtain ⟨c, hc, he⟩ := h
    refine ⟨c, hc, ?_⟩
    have : c.1 = ev := by simpa using he
    simp [this]
  · simp

end Sys2Proof.Machine
end

