-- ==== Sys2Proof/Laws/Mailbox.lean ====
section
/-! SUPPORT. Laws of the mailbox commands: what issuing one leads to, and what taking it leaves unchanged. -/
namespace Sys2Proof.Machine
open Sys2Proof

/-- A number is the one its little-endian bytes spell (R9). -/
theorem leNat_leBytes (n x : Nat) : leNat (leBytes n x) = x % 256 ^ n := by
  induction n generalizing x with
  | zero => simp [leBytes, leNat, Nat.mod_one]
  | succ n ih =>
    simp only [leBytes, leNat, ih, BitVec.toNat_ofNat]
    have h := Nat.mod_mul (x := x) (a := 256) (b := 256 ^ n)
    rw [show (256 : Nat) ^ (n + 1) = 256 * 256 ^ n from Nat.pow_succ', h]

theorem length_leBytes (n x : Nat) : (leBytes n x).length = n := by
  induction n generalizing x with
  | zero => rfl
  | succ n ih => simp [leBytes, ih]

/-- GO changes no register but MBX_STAT (R512). -/
theorem reg_pend (m : Nat) (a : List Byte) (s : State) (i : Nat) (h : i ≠ Off.MBX_STAT m) : (pend m a s).reg i = s.reg i := by
  unfold pend
  rw [State.reg_wr_ne _ _ _ h, State.reg_wr_ne _ _ _ h, State.setMbx_reg]
  rfl

theorem rd_pend (m : Nat) (a : List Byte) (s : State) (g : Fld) (h : g.off ≠ Off.MBX_STAT m) : (pend m a s).rd g = s.rd g := by
  simp only [State.rd, reg_pend m a s _ h]

/-! ### pend, and Taken -/

@[simp] theorem State.pend_pending (m : Nat) (a : List Byte) (s : State) : (pend m a s).pending = s.pending := rfl
@[simp] theorem State.pend_now (m : Nat) (a : List Byte) (s : State) : (pend m a s).now = s.now := rfl
@[simp] theorem State.pend_freeIdx (m : Nat) (a : List Byte) (s : State) : (pend m a s).freeIdx = s.freeIdx := rfl
@[simp] theorem State.pend_epoch (m : Nat) (a : List Byte) (s : State) : (pend m a s).epoch = s.epoch := rfl
@[simp] theorem State.pend_eff (m : Nat) (a : List Byte) (s : State) : (pend m a s).eff = s.eff := rfl
@[simp] theorem State.pend_staged (m : Nat) (a : List Byte) (s : State) : (pend m a s).staged = s.staged := rfl
@[simp] theorem State.pend_lastRead (m : Nat) (a : List Byte) (s : State) : (pend m a s).lastRead = s.lastRead := rfl
@[simp] theorem State.pend_lastStatus (m : Nat) (a : List Byte) (s : State) : (pend m a s).lastStatus = s.lastStatus := rfl
@[simp] theorem State.pend_dram (m : Nat) (a : List Byte) (s : State) : (pend m a s).dram = s.dram := rfl
@[simp] theorem State.pend_ports (m : Nat) (a : List Byte) (s : State) : (pend m a s).ports = s.ports := rfl
@[simp] theorem State.pend_lanes (m : Nat) (a : List Byte) (s : State) : (pend m a s).lanes = s.lanes := rfl
@[simp] theorem State.pend_prom (m : Nat) (a : List Byte) (s : State) : (pend m a s).prom = s.prom := rfl
@[simp] theorem State.pend_promRr (m : Nat) (a : List Byte) (s : State) : (pend m a s).promRr = s.promRr := rfl
@[simp] theorem State.pend_sentAt (m : Nat) (a : List Byte) (s : State) : (pend m a s).sentAt = s.sentAt := rfl
@[simp] theorem State.pend_nextId (m : Nat) (a : List Byte) (s : State) : (pend m a s).nextId = s.nextId := rfl
@[simp] theorem State.pend_pavs (m : Nat) (a : List Byte) (s : State) : (pend m a s).pavs = s.pavs := rfl
@[simp] theorem State.pend_tsvCmds (m : Nat) (a : List Byte) (s : State) : (pend m a s).tsvCmds = s.tsvCmds := rfl
@[simp] theorem State.pend_cad (m : Nat) (a : List Byte) (s : State) : (pend m a s).cad = s.cad := rfl
@[simp] theorem State.pend_therm (m : Nat) (a : List Byte) (s : State) : (pend m a s).therm = s.therm := rfl
@[simp] theorem State.pend_crossing (m : Nat) (a : List Byte) (s : State) : (pend m a s).crossing = s.crossing := rfl
@[simp] theorem State.pend_latches (m : Nat) (a : List Byte) (s : State) : (pend m a s).latches = s.latches := rfl
@[simp] theorem State.pend_onceTurn (m : Nat) (a : List Byte) (s : State) : (pend m a s).onceTurn = s.onceTurn := rfl
@[simp] theorem State.pend_mons (m : Nat) (a : List Byte) (s : State) : (pend m a s).mons = s.mons := rfl
@[simp] theorem State.pend_monSnapMbx (m : Nat) (a : List Byte) (s : State) : (pend m a s).monSnapMbx = s.monSnapMbx := rfl
@[simp] theorem State.pend_staging (m : Nat) (a : List Byte) (s : State) : (pend m a s).staging = s.staging := rfl
@[simp] theorem State.pend_stagingHigh (m : Nat) (a : List Byte) (s : State) : (pend m a s).stagingHigh = s.stagingHigh := rfl
@[simp] theorem State.pend_switch (m : Nat) (a : List Byte) (s : State) : (pend m a s).switch = s.switch := rfl
@[simp] theorem State.pend_fwDigest (m : Nat) (a : List Byte) (s : State) : (pend m a s).fwDigest = s.fwDigest := rfl
@[simp] theorem State.pend_bulk (m : Nat) (a : List Byte) (s : State) : (pend m a s).bulk = s.bulk := rfl
@[simp] theorem State.pend_bulkLast (m : Nat) (a : List Byte) (s : State) : (pend m a s).bulkLast = s.bulkLast := rfl
@[simp] theorem State.pend_otp (m : Nat) (a : List Byte) (s : State) : (pend m a s).otp = s.otp := rfl
@[simp] theorem State.pend_signing (m : Nat) (a : List Byte) (s : State) : (pend m a s).signing = s.signing := rfl
@[simp] theorem State.pend_sb (m : Nat) (a : List Byte) (s : State) : (pend m a s).sb = s.sb := rfl
@[simp] theorem State.pend_power (m : Nat) (a : List Byte) (s : State) : (pend m a s).power = s.power := rfl
@[simp] theorem State.pend_test (m : Nat) (a : List Byte) (s : State) : (pend m a s).test = s.test := rfl
@[simp] theorem State.pend_lastTaken (m : Nat) (a : List Byte) (s : State) : (pend m a s).lastTaken = s.lastTaken := rfl

@[simp] theorem State.running_pending (m op : Nat) (pl : List Byte) (s : State) : (Running m op pl s).pending = s.pending := rfl
@[simp] theorem State.running_now (m op : Nat) (pl : List Byte) (s : State) : (Running m op pl s).now = s.now := rfl
@[simp] theorem State.running_freeIdx (m op : Nat) (pl : List Byte) (s : State) : (Running m op pl s).freeIdx = s.freeIdx := rfl
@[simp] theorem State.running_epoch (m op : Nat) (pl : List Byte) (s : State) : (Running m op pl s).epoch = s.epoch := rfl
@[simp] theorem State.running_eff (m op : Nat) (pl : List Byte) (s : State) : (Running m op pl s).eff = s.eff := rfl
@[simp] theorem State.running_staged (m op : Nat) (pl : List Byte) (s : State) : (Running m op pl s).staged = s.staged := rfl
@[simp] theorem State.running_lastRead (m op : Nat) (pl : List Byte) (s : State) : (Running m op pl s).lastRead = s.lastRead := rfl
@[simp] theorem State.running_lastStatus (m op : Nat) (pl : List Byte) (s : State) : (Running m op pl s).lastStatus = s.lastStatus := rfl
@[simp] theorem State.running_dram (m op : Nat) (pl : List Byte) (s : State) : (Running m op pl s).dram = s.dram := rfl
@[simp] theorem State.running_ports (m op : Nat) (pl : List Byte) (s : State) : (Running m op pl s).ports = s.ports := rfl
@[simp] theorem State.running_lanes (m op : Nat) (pl : List Byte) (s : State) : (Running m op pl s).lanes = s.lanes := rfl
@[simp] theorem State.running_prom (m op : Nat) (pl : List Byte) (s : State) : (Running m op pl s).prom = s.prom := rfl
@[simp] theorem State.running_promRr (m op : Nat) (pl : List Byte) (s : State) : (Running m op pl s).promRr = s.promRr := rfl
@[simp] theorem State.running_sentAt (m op : Nat) (pl : List Byte) (s : State) : (Running m op pl s).sentAt = s.sentAt := rfl
@[simp] theorem State.running_nextId (m op : Nat) (pl : List Byte) (s : State) : (Running m op pl s).nextId = s.nextId := rfl
@[simp] theorem State.running_pavs (m op : Nat) (pl : List Byte) (s : State) : (Running m op pl s).pavs = s.pavs := rfl
@[simp] theorem State.running_tsvCmds (m op : Nat) (pl : List Byte) (s : State) : (Running m op pl s).tsvCmds = s.tsvCmds := rfl
@[simp] theorem State.running_cad (m op : Nat) (pl : List Byte) (s : State) : (Running m op pl s).cad = s.cad := rfl
@[simp] theorem State.running_therm (m op : Nat) (pl : List Byte) (s : State) : (Running m op pl s).therm = s.therm := rfl
@[simp] theorem State.running_crossing (m op : Nat) (pl : List Byte) (s : State) : (Running m op pl s).crossing = s.crossing := rfl
@[simp] theorem State.running_latches (m op : Nat) (pl : List Byte) (s : State) : (Running m op pl s).latches = s.latches := rfl
@[simp] theorem State.running_onceTurn (m op : Nat) (pl : List Byte) (s : State) : (Running m op pl s).onceTurn = s.onceTurn := rfl
@[simp] theorem State.running_mons (m op : Nat) (pl : List Byte) (s : State) : (Running m op pl s).mons = s.mons := rfl
@[simp] theorem State.running_monSnapMbx (m op : Nat) (pl : List Byte) (s : State) : (Running m op pl s).monSnapMbx = s.monSnapMbx := rfl
@[simp] theorem State.running_staging (m op : Nat) (pl : List Byte) (s : State) : (Running m op pl s).staging = s.staging := rfl
@[simp] theorem State.running_stagingHigh (m op : Nat) (pl : List Byte) (s : State) : (Running m op pl s).stagingHigh = s.stagingHigh := rfl
@[simp] theorem State.running_switch (m op : Nat) (pl : List Byte) (s : State) : (Running m op pl s).switch = s.switch := rfl
@[simp] theorem State.running_fwDigest (m op : Nat) (pl : List Byte) (s : State) : (Running m op pl s).fwDigest = s.fwDigest := rfl
@[simp] theorem State.running_bulk (m op : Nat) (pl : List Byte) (s : State) : (Running m op pl s).bulk = s.bulk := rfl
@[simp] theorem State.running_bulkLast (m op : Nat) (pl : List Byte) (s : State) : (Running m op pl s).bulkLast = s.bulkLast := rfl
@[simp] theorem State.running_otp (m op : Nat) (pl : List Byte) (s : State) : (Running m op pl s).otp = s.otp := rfl
@[simp] theorem State.running_signing (m op : Nat) (pl : List Byte) (s : State) : (Running m op pl s).signing = s.signing := rfl
@[simp] theorem State.running_sb (m op : Nat) (pl : List Byte) (s : State) : (Running m op pl s).sb = s.sb := rfl
@[simp] theorem State.running_power (m op : Nat) (pl : List Byte) (s : State) : (Running m op pl s).power = s.power := rfl
@[simp] theorem State.running_test (m op : Nat) (pl : List Byte) (s : State) : (Running m op pl s).test = s.test := rfl
@[simp] theorem State.running_sram (m op : Nat) (pl : List Byte) (s : State) : (Running m op pl s).sram = s.sram := rfl

@[simp] theorem State.taken_pending (m op : Nat) (pl : List Byte) (s : State) : (Taken m op pl s).pending = s.pending :=
  (State.running_pending ..).trans (State.pend_pending ..)
@[simp] theorem State.taken_now (m op : Nat) (pl : List Byte) (s : State) : (Taken m op pl s).now = s.now :=
  (State.running_now ..).trans (State.pend_now ..)
@[simp] theorem State.taken_freeIdx (m op : Nat) (pl : List Byte) (s : State) : (Taken m op pl s).freeIdx = s.freeIdx :=
  (State.running_freeIdx ..).trans (State.pend_freeIdx ..)
@[simp] theorem State.taken_epoch (m op : Nat) (pl : List Byte) (s : State) : (Taken m op pl s).epoch = s.epoch :=
  (State.running_epoch ..).trans (State.pend_epoch ..)
@[simp] theorem State.taken_eff (m op : Nat) (pl : List Byte) (s : State) : (Taken m op pl s).eff = s.eff :=
  (State.running_eff ..).trans (State.pend_eff ..)
@[simp] theorem State.taken_staged (m op : Nat) (pl : List Byte) (s : State) : (Taken m op pl s).staged = s.staged :=
  (State.running_staged ..).trans (State.pend_staged ..)
@[simp] theorem State.taken_lastRead (m op : Nat) (pl : List Byte) (s : State) : (Taken m op pl s).lastRead = s.lastRead :=
  (State.running_lastRead ..).trans (State.pend_lastRead ..)
@[simp] theorem State.taken_lastStatus (m op : Nat) (pl : List Byte) (s : State) : (Taken m op pl s).lastStatus = s.lastStatus :=
  (State.running_lastStatus ..).trans (State.pend_lastStatus ..)
@[simp] theorem State.taken_dram (m op : Nat) (pl : List Byte) (s : State) : (Taken m op pl s).dram = s.dram :=
  (State.running_dram ..).trans (State.pend_dram ..)
@[simp] theorem State.taken_ports (m op : Nat) (pl : List Byte) (s : State) : (Taken m op pl s).ports = s.ports :=
  (State.running_ports ..).trans (State.pend_ports ..)
@[simp] theorem State.taken_lanes (m op : Nat) (pl : List Byte) (s : State) : (Taken m op pl s).lanes = s.lanes :=
  (State.running_lanes ..).trans (State.pend_lanes ..)
@[simp] theorem State.taken_prom (m op : Nat) (pl : List Byte) (s : State) : (Taken m op pl s).prom = s.prom :=
  (State.running_prom ..).trans (State.pend_prom ..)
@[simp] theorem State.taken_promRr (m op : Nat) (pl : List Byte) (s : State) : (Taken m op pl s).promRr = s.promRr :=
  (State.running_promRr ..).trans (State.pend_promRr ..)
@[simp] theorem State.taken_sentAt (m op : Nat) (pl : List Byte) (s : State) : (Taken m op pl s).sentAt = s.sentAt :=
  (State.running_sentAt ..).trans (State.pend_sentAt ..)
@[simp] theorem State.taken_nextId (m op : Nat) (pl : List Byte) (s : State) : (Taken m op pl s).nextId = s.nextId :=
  (State.running_nextId ..).trans (State.pend_nextId ..)
@[simp] theorem State.taken_pavs (m op : Nat) (pl : List Byte) (s : State) : (Taken m op pl s).pavs = s.pavs :=
  (State.running_pavs ..).trans (State.pend_pavs ..)
@[simp] theorem State.taken_tsvCmds (m op : Nat) (pl : List Byte) (s : State) : (Taken m op pl s).tsvCmds = s.tsvCmds :=
  (State.running_tsvCmds ..).trans (State.pend_tsvCmds ..)
@[simp] theorem State.taken_cad (m op : Nat) (pl : List Byte) (s : State) : (Taken m op pl s).cad = s.cad :=
  (State.running_cad ..).trans (State.pend_cad ..)
@[simp] theorem State.taken_therm (m op : Nat) (pl : List Byte) (s : State) : (Taken m op pl s).therm = s.therm :=
  (State.running_therm ..).trans (State.pend_therm ..)
@[simp] theorem State.taken_crossing (m op : Nat) (pl : List Byte) (s : State) : (Taken m op pl s).crossing = s.crossing :=
  (State.running_crossing ..).trans (State.pend_crossing ..)
@[simp] theorem State.taken_latches (m op : Nat) (pl : List Byte) (s : State) : (Taken m op pl s).latches = s.latches :=
  (State.running_latches ..).trans (State.pend_latches ..)
@[simp] theorem State.taken_onceTurn (m op : Nat) (pl : List Byte) (s : State) : (Taken m op pl s).onceTurn = s.onceTurn :=
  (State.running_onceTurn ..).trans (State.pend_onceTurn ..)
@[simp] theorem State.taken_mons (m op : Nat) (pl : List Byte) (s : State) : (Taken m op pl s).mons = s.mons :=
  (State.running_mons ..).trans (State.pend_mons ..)
@[simp] theorem State.taken_monSnapMbx (m op : Nat) (pl : List Byte) (s : State) : (Taken m op pl s).monSnapMbx = s.monSnapMbx :=
  (State.running_monSnapMbx ..).trans (State.pend_monSnapMbx ..)
@[simp] theorem State.taken_staging (m op : Nat) (pl : List Byte) (s : State) : (Taken m op pl s).staging = s.staging :=
  (State.running_staging ..).trans (State.pend_staging ..)
@[simp] theorem State.taken_stagingHigh (m op : Nat) (pl : List Byte) (s : State) : (Taken m op pl s).stagingHigh = s.stagingHigh :=
  (State.running_stagingHigh ..).trans (State.pend_stagingHigh ..)
@[simp] theorem State.taken_switch (m op : Nat) (pl : List Byte) (s : State) : (Taken m op pl s).switch = s.switch :=
  (State.running_switch ..).trans (State.pend_switch ..)
@[simp] theorem State.taken_fwDigest (m op : Nat) (pl : List Byte) (s : State) : (Taken m op pl s).fwDigest = s.fwDigest :=
  (State.running_fwDigest ..).trans (State.pend_fwDigest ..)
@[simp] theorem State.taken_bulk (m op : Nat) (pl : List Byte) (s : State) : (Taken m op pl s).bulk = s.bulk :=
  (State.running_bulk ..).trans (State.pend_bulk ..)
@[simp] theorem State.taken_bulkLast (m op : Nat) (pl : List Byte) (s : State) : (Taken m op pl s).bulkLast = s.bulkLast :=
  (State.running_bulkLast ..).trans (State.pend_bulkLast ..)
@[simp] theorem State.taken_otp (m op : Nat) (pl : List Byte) (s : State) : (Taken m op pl s).otp = s.otp :=
  (State.running_otp ..).trans (State.pend_otp ..)
@[simp] theorem State.taken_signing (m op : Nat) (pl : List Byte) (s : State) : (Taken m op pl s).signing = s.signing :=
  (State.running_signing ..).trans (State.pend_signing ..)
@[simp] theorem State.taken_sb (m op : Nat) (pl : List Byte) (s : State) : (Taken m op pl s).sb = s.sb :=
  (State.running_sb ..).trans (State.pend_sb ..)
@[simp] theorem State.taken_power (m op : Nat) (pl : List Byte) (s : State) : (Taken m op pl s).power = s.power :=
  (State.running_power ..).trans (State.pend_power ..)
@[simp] theorem State.taken_test (m op : Nat) (pl : List Byte) (s : State) : (Taken m op pl s).test = s.test :=
  (State.running_test ..).trans (State.pend_test ..)
@[simp] theorem State.taken_port (m op : Nat) (pl : List Byte) (s : State) (n : Nat) : (Taken m op pl s).port n = s.port n :=
  congrArg (tabGet Port.reset · n) (State.taken_ports m op pl s)
@[simp] theorem State.taken_pav (m op : Nat) (pl : List Byte) (s : State) (p : Nat) : (Taken m op pl s).pav p = s.pav p :=
  congrArg (tabGet Pav.reset · p) (State.taken_pavs m op pl s)
@[simp] theorem State.taken_mon (m op : Nat) (pl : List Byte) (s : State) (u : Nat) : (Taken m op pl s).mon u = s.mon u :=
  congrArg (tabGet Mon.reset · u) (State.taken_mons m op pl s)
@[simp] theorem State.taken_lane (m op : Nat) (pl : List Byte) (s : State) (n p : Nat) : (Taken m op pl s).lane n p = s.lane n p :=
  congrArg (tabGet Lane.reset · (8 * n + p)) (State.taken_lanes m op pl s)
@[simp] theorem State.taken_sram (m op : Nat) (pl : List Byte) (s : State) : (Taken m op pl s).sram = (sramClear m 256 384 s).sram :=
  State.running_sram ..

/-- Taking a command changes no register but MBX_STAT. -/
theorem State.reg_running (m op : Nat) (a : List Byte) (s : State) (i : Nat) (h : i ≠ Off.MBX_STAT m) :
    (Running m op a s).reg i = s.reg i := by
  have e : (Running m op a s).reg i = ((s.modMbx m (fun b => { b with
      opcode := BitVec.ofNat 16 op
      payload := a
      startAt := s.now })).wr (Fld.MBX_STAT_STATE m) mbRunning).reg i := rfl
  rw [e, State.reg_wr_ne _ _ _ h, State.modMbx_reg]

theorem State.reg_taken (m op : Nat) (a : List Byte) (s : State) (i : Nat) (h : i ≠ Off.MBX_STAT m) :
    (Taken m op a s).reg i = s.reg i :=
  (State.reg_running m op a _ i h).trans (reg_pend m _ s i h)

theorem State.rd_taken (m op : Nat) (a : List Byte) (s : State) (g : Fld) (h : g.off ≠ Off.MBX_STAT m) :
    (Taken m op a s).rd g = s.rd g := by
  simp only [State.rd, State.reg_taken m op a s _ h]

/-- Whether the firmware takes commands rests on the power state and READY alone. -/
theorem State.takes_congr (s t : State) (hp : t.power = s.power) (h1 : t.rd Fld.GLB_PWR_STAT_STATE = s.rd Fld.GLB_PWR_STAT_STATE)
   (h2 : t.rd Fld.GLB_FW_STAT_READY = s.rd Fld.GLB_FW_STAT_READY) : t.takes = s.takes := by
  simp only [State.takes, State.served, State.mgmtOn, State.power?, State.on, h1, h2, hp]
  cases s.power.boot <;> rfl

/-- A GO in a mailbox that is next in the round makes it the one taken next (R514). -/
theorem nextPending_pend (m : MbxId) (a : List Byte) (s : State) (h : NextInRound s m) : (pend m a s).nextPending = some m.val := by
  have hl : (pend m a s).lastTaken = s.lastTaken := rfl
  have hm : (pend m a s).rd (Fld.MBX_STAT_STATE m) = mbPending := by
    unfold pend
    rw [State.rd_wr_same _ _ _ (by simp [Fld.MBX_STAT_STATE])]
    simp [Fld.MBX_STAT_STATE, mbPending]
  have ho : ∀ j, j ≠ m.val → (pend m a s).rd (Fld.MBX_STAT_STATE j) = s.rd (Fld.MBX_STAT_STATE j) := fun j hj =>
    rd_pend m a s _ (by simp [Off.MBX_STAT, Fld.MBX_STAT_STATE]; omega)
  unfold State.nextPending
  rw [hl, List.find?_map]
  have hlt := m.isLt
  have hi : ((List.range 18).find? ((fun j => (pend m a s).rd (Fld.MBX_STAT_STATE j) == mbPending) ∘ fun i => (s.lastTaken + 1 + i) % 18)) =
      some ((m.val + 18 - (s.lastTaken + 1) % 18) % 18) := by
    rw [List.find?_range_eq_some]
    have e : (s.lastTaken + 1 + (m.val + 18 - (s.lastTaken + 1) % 18) % 18) % 18 = m.val := by omega
    refine ⟨?_, ?_, ?_⟩
    · simp only [Function.comp, e, hm, beq_self_eq_true]
    · exact List.mem_range.2 (Nat.mod_lt _ (by omega))
    · intro i hi
      simp only [Function.comp, Bool.not_eq_true', beq_eq_false_iff_ne, ne_eq]
      intro hp
      have hj : (s.lastTaken + 1 + i) % 18 ≠ m.val := by omega
      rw [ho _ hj] at hp
      have := h _ (Nat.mod_lt _ (by omega)) hj hp
      omega
  rw [hi]
  simp only [Option.map_some, Option.some.injEq]
  omega

/-- What the bytes of a command area spell (R507, R508): opcode, length and payload; nothing else is set. -/
theorem areaOf_reads (op : Nat) (pl : List Byte) (ho : op < 65536) (hlen : pl.length ≤ 496) :
    leAt (areaOf op pl) 0 2 = op ∧ payloadOf (areaOf op pl) = pl ∧ leAt (areaOf op pl) 2 2 = pl.length ∧
    ∀ k n, 4 ≤ k → k + n ≤ 16 → leAt (areaOf op pl) k n = 0 := by
  unfold payloadOf areaOf
  generalize hH : leBytes 2 op ++ leBytes 2 pl.length ++ zeros 12 = H
  have hHl : H.length = 16 := by rw [← hH]; simp [length_leBytes, zeros]
  have hdrop : (H ++ pl).drop 16 = pl := by rw [← hHl]; simp
  have hl2 : leAt (H ++ pl) 2 2 = pl.length := by
    rw [← hH]; simp only [leAt, List.append_assoc]
    rw [List.drop_append_of_le_length (by simp [length_leBytes]), List.drop_of_length_le (by simp [length_leBytes]), List.nil_append]
    rw [List.take_append_of_le_length (by simp [length_leBytes])]
    rw [List.take_of_length_le (by simp [length_leBytes]), leNat_leBytes]; omega
  refine ⟨?_, ?_, hl2, ?_⟩
  · rw [← hH]; simp only [leAt, List.drop_zero, List.append_assoc]
    rw [List.take_append_of_le_length (by simp [length_leBytes])]
    rw [List.take_of_length_le (by simp [length_leBytes]), leNat_leBytes]; omega
  · rw [hdrop, hl2, Nat.min_eq_right hlen, List.take_length]
  · intro k n hk hn
    rw [← hH]
    simp only [leAt, leBytes, zeros, List.cons_append, List.nil_append, List.replicate]
    obtain ⟨j, rfl⟩ := Nat.exists_eq_add_of_le hk
    have hj : j ≤ 12 := by omega
    interval_cases j <;> (have : n ≤ 12 := by omega) <;> interval_cases n <;> simp_all [leNat]

/-- A command area just taken holds no word that a fault has touched (R495, R512). -/
theorem snapshotMeets_taken (m op : Nat) (pl : List Byte) (s : State) :
    snapshotMeets m (Taken m op pl s) = (none, Taken m op pl s) := by
  unfold snapshotMeets
  rw [State.taken_sram]
  have : ((sramClear m 256 384 s).sram.filter (fun e => e.1 == m && decide (256 ≤ e.2.1) && decide (e.2.1 < 384))) = [] := by
    rw [List.filter_eq_nil_iff]
    intro x hx
    unfold sramClear at hx
    have := (List.mem_filter.1 hx).2
    simp at this ⊢
    omega
  rw [this]
  rfl

/-- The command area of one row of the table, taken. -/
theorem noteTaken_pend (m : Nat) (op : Nat) (pl : List Byte) (s : State) (ho : op < 65536) (hlen : pl.length ≤ 496) :
    noteTaken m (pend m (areaOf op pl) s) = Taken m op pl s := by
  obtain ⟨h0, hp, -, hz⟩ := areaOf_reads op pl ho hlen
  have hs : (pend m (areaOf op pl) s).mbx m = { Mbx.reset with snap := areaOf op pl } := by unfold pend; simp
  unfold Taken
  generalize pend m (areaOf op pl) s = t at *
  unfold noteTaken Running
  simp only [hs, h0, hp, hz 8 2 (by omega) (by omega), hz 6 1 (by omega) (by omega), State.modMbx]
  congr 3

/-- A command issued in a free mailbox that is next in the round, while the firmware takes commands, is checked with its mailbox
RUNNING (R512, R514). -/
theorem issue_accepted (m : MbxId) (op : Nat) (pl : List Byte) (s : State) (ho : op < 65536) (ht : s.takes = true)
    (how : s.owner m < 17) (hf : s.mbxFree m = true) (hn : NextInRound s m) (hlen : pl.length ≤ 496) :
    issue m op pl s = checkedRun m (areaOf op pl) pl (Taken m op pl s) ∧
    badHeader (areaOf op pl) = none ∧ leAt (areaOf op pl) 0 2 = op := by
  have hmg : s.mgmtOn = true := by simp [State.takes, State.served] at ht; exact ht.1.1
  have hmin : min 65535 pl.length = pl.length := by omega
  obtain ⟨h0, hp, hl2, hz⟩ := areaOf_reads op pl ho hlen
  have htk : (pend m (areaOf op pl) s).takes = true := by
    rw [← ht]
    apply State.takes_congr
    · rfl
    · exact rd_pend m _ s _ (by simp [Off.MBX_STAT, Fld.GLB_PWR_STAT_STATE]; omega)
    · exact rd_pend m _ s _ (by simp [Off.MBX_STAT, Fld.GLB_FW_STAT_READY]; omega)
  have hs : ((pend m (areaOf op pl) s).mbx m).snap = areaOf op pl := by unfold pend; simp
  refine ⟨?_, ?_, h0⟩
  · unfold issue
    rw [if_pos ⟨hmg, how⟩, if_pos hf]
    simp only [hmin]
    rw [show leBytes 2 op ++ leBytes 2 pl.length ++ zeros 12 ++ pl = areaOf op pl from rfl,
      if_pos ⟨htk, nextPending_pend m (areaOf op pl) s hn⟩]
    unfold takeCommand
    simp only [hs, hp, noteTaken_pend m op pl s ho hlen, snapshotMeets_taken]
  · unfold badHeader
    rw [hl2, if_neg (by omega), hz 6 1 (by omega) (by omega), if_neg (by omega)]
    unfold firstNonzero
    simp [List.find?, hz 7 1 (by omega) (by omega), hz 10 1 (by omega) (by omega), hz 11 1 (by omega) (by omega), hz 12 1 (by omega) (by omega), hz 13 1 (by omega) (by omega), hz 14 1 (by omega) (by omega), hz 15 1 (by omega) (by omega)]

/-- Each row of a mailbox command issues its opcode. -/
theorem mailboxRow_exec (c : Instr) (m : MbxId) (op : Nat) (pl : List Byte) (h : mailboxRow c = some (m, op, pl)) (s : State) :
    op < 65536 ∧ opcodes.contains op = true ∧ exec c s = .next (quietStep (issue m op pl s)) := by
  cases c <;> simp only [mailboxRow, reduceCtorEq, Option.some.injEq, Prod.mk.injEq] at h <;>
    obtain ⟨rfl, rfl, rfl⟩ := h <;> exact ⟨by decide, by decide, rfl⟩

theorem State.opAbsent_taken (m : MbxId) (op : Nat) (pl : List Byte) (s : State) (o : Nat) : (Taken m op pl s).opAbsent o = s.opAbsent o := by
  simp only [State.opAbsent, State.poolOn, State.on]
  rw [State.rd_taken _ _ _ _ _ (by simp [Off.MBX_STAT, Fld.GLB_FW_CAP_CAP]; omega), State.rd_taken _ _ _ _ _ (by simp [Off.MBX_STAT, Fld.GLB_FEATURES_POOL]; omega)]

theorem State.owner_taken (m : MbxId) (op : Nat) (pl : List Byte) (s : State) (o : Nat) : (Taken m op pl s).owner o = s.owner o := by
  simp only [State.owner]
  rw [State.rd_taken _ _ _ _ _ (by simp [Off.MBX_STAT, Fld.MBX_OWNER_SOURCE]; omega)]

theorem State.workshopSrc_taken (m : MbxId) (op : Nat) (pl : List Byte) (s : State) : (Taken m op pl s).workshopSrc = s.workshopSrc := by
  unfold State.workshopSrc
  rw [show (Taken m op pl s).on Fld.GLB_SEC_STAT_WORKSHOP = s.on Fld.GLB_SEC_STAT_WORKSHOP from by
    unfold State.on; rw [State.rd_taken m op pl s _ (by simp [Off.MBX_STAT, Fld.GLB_SEC_STAT_WORKSHOP]; omega)],
   State.rd_taken m op pl s (Fld.MBX_OWNER_SOURCE 17) (by simp [Off.MBX_STAT, Fld.MBX_OWNER_SOURCE]; omega)]

theorem State.opAllowed_taken (m : MbxId) (op : Nat) (pl : List Byte) (s : State) (o : Nat) : (Taken m op pl s).opAllowed m o = s.opAllowed m o := by
  simp only [State.opAllowed, State.owner_taken, State.steward, State.sourceEnabled, State.portEnabled, State.role, State.workshopSrc_taken]
  simp only [State.rd_taken m op pl s Fld.GLB_STEWARD_MASK (by simp [Off.MBX_STAT, Fld.GLB_STEWARD_MASK]; omega),
   State.rd_taken m op pl s Fld.GLB_FEATURES_PORTS (by simp [Off.MBX_STAT, Fld.GLB_FEATURES_PORTS]; omega),
   State.rd_taken m op pl s (Fld.PRT_POOL_CTRL_ROLE (s.owner m)) (by simp [Off.MBX_STAT, Fld.PRT_POOL_CTRL_ROLE]; omega)]

end Sys2Proof.Machine
end

