-- ==== Sys2Proof/WellFormed.lean ====
section
/-! DEFINITION. Which commands are well formed: the bounds that the types of the operands do not carry. -/
namespace Sys2Proof

/-- One past the last index of a kind of OTP item (R584, R590, R614). -/
def marginLimit : MarginKind → Nat
  | .array => 8192
  | .spareRow => 256
  | .directField => 512
  | .redirection => 32
  | .secret => 8
  | .counter => 64

/-- The active lanes of a flit carry an equal share each of its 640 bits (R49, R107), an ordered set has 16 bytes (R98), a request no
more data slots than it owns (R146), a command no more payload than the command area holds (R507), an observation one entry for each
thing observed. -/
def Instr.wellFormed : Instr → Bool
  | .powerOnReset _ => true
  | .supplyDip => true
  | .otpDirectFieldReady l _ => l.all (fun i => decide (i < 512))
  | .otpPowerOnReadDone l _ => l.all (fun e => decide (e.2 < marginLimit e.1))
  | .resetNLow => true
  | .resetDrainDone => true
  | .refclkLoss => true
  | .refclkReturn => true
  | .corePllLock => true
  | .corePllLockTimeout => true
  | .dramInitDone => true
  | .firmwareReady => true
  | .certWindowExpiry => true
  | .certCheckDone => true
  | .logicTestDone _ _ => true
  | .tsvTestDone _ _ _ => true
  | .startupTestDone => true
  | .startupDone => true
  | .recovWaitExpiry => true
  | .lanePllLockLost _ => true
  | .lanePllLockHeld _ => true
  | .fifoSlip _ _ => true
  | .cdrLockLost _ _ => true
  | .gradingWindowEnd _ _ _ => true
  | .laneExitLock _ _ => true
  | .coastExitWatchdog _ _ => true
  | .parkedExitWatchdog _ _ => true
  | .squelchActivity _ => true
  | .testStateWrite _ _ _ _ _ => true
  | .delayedChangeApply _ => true
  | .prbsClr _ _ _ _ => true
  | .prbsCheckerLock _ _ => true
  | .prbsRelock _ _ bits errs => decide (errs ≤ bits)
  | .injectWrite _ _ _ _ => true
  | .periodicInject _ _ => true
  | .prbsBitsLoRead _ _ _ _ _ => true
  | .ts1 _ _ b => b.length == 16
  | .ts2 _ _ r => r.set.length == 16
  | .eios _ r => r.set.length == 16
  | .exitSets _ r => r.set.length == 16
  | .sds _ r => r.set.length == 16
  | .tLockTimeout _ => true
  | .tConfigTimeout _ => true
  | .tRateTimeout _ => true
  | .tVerifyTimeout _ => true
  | .tStartTimeout _ => true
  | .trainingRetryTimer _ => true
  | .presetMeasureEnd _ _ _ => true
  | .flitReceive _ l => l.length != 0 && l.all (fun b => l.length * b.length == 640)
  | .replay _ _ => true
  | .ack _ _ => true
  | .ackTimer _ => true
  | .replayRepeatTimer _ => true
  | .replayTimer _ => true
  | .recoveryFallbackTimer _ => true
  | .recoveryTimeout _ => true
  | .fullTrainingTimer _ => true
  | .credit _ _ => true
  | .creditReturnTimer _ _ => true
  | .creditStallTimer _ _ _ => true
  | .turn _ _ _ _ => true
  | .power _ _ _ => true
  | .coastIdleTimer _ => true
  | .retrain _ _ => true
  | .linkDisWrite _ _ _ _ => true
  | .retrainWrite _ _ _ _ => true
  | .widenWrite _ _ _ _ => true
  | .rd _ _ => true
  | .wr _ r d => decide (d.length ≤ r.lcount.toNat + 1)
  | .wrp _ _ => true
  | .wrm _ _ d => decide (d.length ≤ 2)
  | .atSwap _ _ d => decide (d.length ≤ 1)
  | .atCas _ _ d => decide (d.length ≤ 1)
  | .atAdd _ _ d => decide (d.length ≤ 1)
  | .atAnd _ _ d => decide (d.length ≤ 1)
  | .atOr _ _ d => decide (d.length ≤ 1)
  | .atXor _ _ d => decide (d.length ≤ 1)
  | .atSmax _ _ d => decide (d.length ≤ 1)
  | .atSmin _ _ d => decide (d.length ≤ 1)
  | .atUmax _ _ d => decide (d.length ≤ 1)
  | .atUmin _ _ d => decide (d.length ≤ 1)
  | .fence _ _ => true
  | .cfgRd _ _ => true
  | .cfgWr _ _ _ => true
  | .doorbell _ _ => true
  | .msg _ _ => true
  | .reservedRequest _ _ _ _ => true
  | .rdData _ _ d => decide (d.length ≤ 8)
  | .cmp _ _ => true
  | .atData _ _ d => decide (d.length ≤ 1)
  | .cfgData _ _ => true
  | .reservedResponse _ _ => true
  | .responseSend _ => true
  | .promenadeGrant _ => true
  | .arbiterAgeLimit _ => true
  | .readDataReturn _ _ => true
  | .rmwComplete _ => true
  | .forwardHoldTimeout _ => true
  | .contextTimeout _ _ => true
  | .roleWrite _ _ _ _ => true
  | .windowBaseWrite _ _ _ => true
  | .spLoWrite _ _ _ _ => true
  | .spHiWrite _ _ _ _ => true
  | .portRoleSet _ pl => decide (pl.length ≤ 496)
  | .windowSet _ pl => decide (pl.length ≤ 496)
  | .signpostSet _ pl => decide (pl.length ≤ 496)
  | .poolStatus _ pl => decide (pl.length ≤ 496)
  | .schedulerIssue _ => true
  | .aged1 _ _ => true
  | .aged2 _ _ => true
  | .acceptanceStallTimer _ => true
  | .throttleWindowBoundary _ => true
  | .adaptiveCloseTimer _ _ => true
  | .powerDownEntry _ _ => true
  | .maskLoWrite q m _ _ _ => !q || decide (m.val < 6)
  | .maskHiWrite q m _ _ _ => !q || decide (m.val < 6)
  | .mapSelWrite _ _ _ => true
  | .mapSet _ pl => decide (pl.length ≤ 496)
  | .mapStatus _ pl => decide (pl.length ≤ 496)
  | .mapTranslate _ pl => decide (pl.length ≤ 496)
  | .angleStep => true
  | .turnBoundary => true
  | .markerMissExpiry => true
  | .cadTurnEdge _ => true
  | .cadCtrlWrite _ _ _ => true
  | .cadNowLoRead _ => true
  | .refreshAccrual _ _ => true
  | .rateChangeApply _ => true
  | .selfRefreshExit _ _ => true
  | .neighbourEscalation _ => true
  | .cadSet _ pl => decide (pl.length ≤ 496)
  | .cadStatus _ pl => decide (pl.length ≤ 496)
  | .slotSet _ pl => decide (pl.length ≤ 496)
  | .refWindowsSet _ pl => decide (pl.length ≤ 496)
  | .refSpread _ pl => decide (pl.length ≤ 496)
  | .refStatus _ pl => decide (pl.length ≤ 496)
  | .neighSet _ pl => decide (pl.length ≤ 496)
  | .sparingCopyDone _ l => l.length == 32
  | .repeatEntryExpiry _ => true
  | .scrubStepDue _ => true
  | .scrubEscalation _ => true
  | .bulkLineIssue => true
  | .bulkComplete => true
  | .eccLog3Read _ _ => true
  | .repeatEnWrite _ _ _ _ => true
  | .eccStatus _ pl => decide (pl.length ≤ 496)
  | .eccClear _ pl => decide (pl.length ≤ 496)
  | .scrubRegions _ pl => decide (pl.length ≤ 496)
  | .repairMapRead _ pl => decide (pl.length ≤ 496)
  | .spareList _ pl => decide (pl.length ≤ 496)
  | .spareCommit _ pl => decide (pl.length ≤ 496)
  | .rowSpare _ pl => decide (pl.length ≤ 496)
  | .pavRetire _ pl => decide (pl.length ≤ 496)
  | .fill _ pl => decide (pl.length ≤ 496)
  | .copy _ pl => decide (pl.length ≤ 496)
  | .bulkStatus _ pl => decide (pl.length ≤ 496)
  | .bulkAbort _ pl => decide (pl.length ≤ 496)
  | .sliceStart _ => true
  | .sliceEnd _ _ => true
  | .sliceWatchdog _ => true
  | .sweepSliceDue => true
  | .parkingTestDone _ => true
  | .bistFail1Read _ _ => true
  | .bistStatus _ pl => decide (pl.length ≤ 496)
  | .sweepStart _ pl => decide (pl.length ≤ 496)
  | .bistStop _ pl => decide (pl.length ≤ 496)
  | .sliceRow _ pl => decide (pl.length ≤ 496)
  | .parkStart _ pl => decide (pl.length ≤ 496)
  | .certRead _ pl => decide (pl.length ≤ 496)
  | .certLoad _ pl => decide (pl.length ≤ 496)
  | .certSubmit _ pl => decide (pl.length ≤ 496)
  | .arrayTest _ pl => decide (pl.length ≤ 496)
  | .arrayRawRead _ pl => decide (pl.length ≤ 496)
  | .arrayRawWrite _ pl => decide (pl.length ≤ 496)
  | .sensorSlotEnd _ => true
  | .haltDrainDone => true
  | .haltClearWrite _ _ _ => true
  | .hostThrWrite _ _ _ => true
  | .thmPeakRead _ => true
  | .thmStatus _ pl => decide (pl.length ≤ 496)
  | .throttleSet _ pl => decide (pl.length ≤ 496)
  | .haltClear _ pl => decide (pl.length ≤ 496)
  | .alertSet _ pl => decide (pl.length ≤ 496)
  | .extSet _ pl => decide (pl.length ≤ 496)
  | .eyePointEnd _ l => (l.map (fun e => e.1)).eraseDups.length == l.length
  | .tsvStepEnd _ l => l.length == 16
  | .tsvWatchdog _ => true
  | .tsvAutoDue _ => true
  | .oscLearnPeriodEnd _ => true
  | .oscLearnWrite _ _ _ => true
  | .calStatus _ pl => decide (pl.length ≤ 496)
  | .laneRetune _ pl => decide (pl.length ≤ 496)
  | .eyeScan _ pl => decide (pl.length ≤ 496)
  | .tsvCal _ pl => decide (pl.length ≤ 496)
  | .sensorCal _ pl => decide (pl.length ≤ 496)
  | .oscLearn _ pl => decide (pl.length ≤ 496)
  | .calAbort _ pl => decide (pl.length ≤ 496)
  | .firmwareWatchdog => true
  | .coreResetWrite _ _ _ => true
  | .goDoorbell _ _ => true
  | .abortDoorbell _ _ => true
  | .overrunClear _ _ _ _ => true
  | .commandTaken => true
  | .commandComplete _ => true
  | .commandTimer _ => true
  | .stewardWrite _ _ _ => true
  | .imageVerifyDone => true
  | .idGet _ pl => decide (pl.length ≤ 496)
  | .echo _ pl => decide (pl.length ≤ 496)
  | .startupRecordRead _ pl => decide (pl.length ≤ 496)
  | .stewardStatus _ pl => decide (pl.length ≤ 496)
  | .stewardSet _ pl => decide (pl.length ≤ 496)
  | .fwLoad _ pl => decide (pl.length ≤ 496)
  | .fwActivate _ pl => decide (pl.length ≤ 496)
  | .fwStatus _ pl => decide (pl.length ≤ 496)
  | .eventRaise _ _ => true
  | .eventRecordWrite => true
  | .eventMessageSend _ => true
  | .telemetrySend _ => true
  | .evtPortsWrite _ _ _ => true
  | .evtSeenClear _ _ _ _ => true
  | .monitorWindowEnd _ => true
  | .monRestartWrite _ _ _ _ => true
  | .monSumLoRead _ _ _ => true
  | .monConfig _ pl => decide (pl.length ≤ 496)
  | .monRead _ pl => decide (pl.length ≤ 496)
  | .monSnapshot _ pl => decide (pl.length ≤ 496)
  | .telemetrySet _ pl => decide (pl.length ≤ 496)
  | .evtConfig _ pl => decide (pl.length ≤ 496)
  | .evtRead _ pl => decide (pl.length ≤ 496)
  | .evtStatus _ pl => decide (pl.length ≤ 496)
  | .evtClear _ pl => decide (pl.length ≤ 496)
  | .otpWordDone _ => true
  | .vddOtppChange _ => true
  | .otpRead _ pl => decide (pl.length ≤ 496)
  | .otpProgram _ pl => decide (pl.length ≤ 496)
  | .otpLock _ pl => decide (pl.length ≤ 496)
  | .otpLockForce _ pl => decide (pl.length ≤ 496)
  | .repairOtp _ pl => decide (pl.length ≤ 496)
  | .otpStatus _ pl => decide (pl.length ≤ 496)
  | .otpJournalRead _ pl => decide (pl.length ≤ 496)
  | .deviceKeyDerived => true
  | .signingDone => true
  | .idCertRead _ pl => decide (pl.length ≤ 496)
  | .attest _ pl => decide (pl.length ≤ 496)
  | .keyEnrol _ pl => decide (pl.length ≤ 496)
  | .workshopEnter _ pl => decide (pl.length ≤ 496)
  | .workshopExit _ pl => decide (pl.length ≤ 496)
  | .sbStatusByte => true
  | .sbStatus => true
  | .sbWinPtr _ _ => true
  | .sbWinRead => true
  | .sbWinWrite b _ => decide (b.length < 256)
  | .sbMbxWrite b _ => decide (b.length < 256)
  | .sbMbxGo _ _ => true
  | .sbMbxRead => true
  | .sbMbxPtr _ _ => true
  | .sbMbxStat => true
  | .sbQuickCommand _ => true
  | .sbStretchLimit _ => true
  | .sbBusFault _ => true
  | .sbRepeatedStartInAck => true
  | .wakeByAddress _ => true
  | .wakeStretchLimit => true
  | .attentionAssert => true
  | .attentionArbitration _ _ => true
  | .attentionWaitExpiry => true
  | .attentionRetryTimer => true
  | .sdaReleaseTimeout => true
  | .sclLowTimeout => true
  | .powerSet _ pl => decide (pl.length ≤ 496)
  | .holdHandshakeTimeout _ => true
  | .pavilionDrainDone _ => true
  | .sleepExitClocksRun => true
  | .wakeNInput => true
  | .wakeNDriveEnd => true
  | .powerStatus _ pl => decide (pl.length ≤ 496)
  | .shutdown _ pl => decide (pl.length ≤ 496)
  | .glbRstPortWrite _ _ _ => true
  | .glbRstPavWrite _ _ _ => true
  | .pavilionReset _ => true
  | .trstNLow => true
  | .tapInstructionUpdate _ => true
  | .registerWrite _ _ _ _ => true
  | .readClearCounter _ _ => true
  | .resetNRise => true
  | .pllRelockDone _ => true
  | .managementSramUncorrectable _ => true

end Sys2Proof
end

