-- ==== Sys2Proof/Laws/PerInstr.lean ====
section
/-! SUPPORT. For each constructor, what its well-formedness says of the sizes of its operands. -/
namespace Sys2Proof.Laws.WellFormed
open Sys2Proof Sys2Proof.Machine

/-- The payload of a well-formed mailbox command fits the command area (R507), and a well-formed request or response owns at most
eight data slots (R146). -/
def Statement (i : Instr) : Prop :=
  i.wellFormed = true →
    (∀ m op pl, mailboxRow i = some (m, op, pl) → pl.length ≤ 496) ∧ (∀ n slot data, txnRow i = some (n, slot, data) → data.length ≤ 8)

theorem of_none {i : Instr} (h1 : mailboxRow i = none) (h2 : txnRow i = none) : Statement i := fun _ =>
  ⟨fun _ _ _ e => (by rw [h1] at e; cases e), fun _ _ _ e => by rw [h2] at e; cases e⟩

theorem of_payload {i : Instr} {m : MbxId} {op : Nat} {pl : List Byte} (h1 : mailboxRow i = some (m, op, pl))
    (h2 : txnRow i = none) (h : i.wellFormed = decide (pl.length ≤ 496)) : Statement i := fun w =>
  ⟨fun _ _ _ e => (by rw [h1] at e; cases e; rw [h] at w; exact of_decide_eq_true w), fun _ _ _ e => by rw [h2] at e; cases e⟩

theorem of_data {i : Instr} {n : PortId} {slot : BitVec 80} {d : List Line} (h1 : mailboxRow i = none)
    (h2 : txnRow i = some (n, slot, d)) (h : i.wellFormed = true → d.length ≤ 8) : Statement i := fun w =>
  ⟨fun _ _ _ e => (by rw [h1] at e; cases e), fun _ _ _ e => by rw [h2] at e; cases e; exact h w⟩

theorem powerOnReset (strap : BitVec 2) : Statement (.powerOnReset strap) := of_none rfl rfl
theorem supplyDip : Statement (.supplyDip) := of_none rfl rfl
theorem otpDirectFieldReady (marginals : List Nat) (tb : BitVec 16) : Statement (.otpDirectFieldReady marginals tb) :=
  of_none rfl rfl
theorem otpPowerOnReadDone (marginals : List (MarginKind × Nat)) (tb : BitVec 16) : Statement (.otpPowerOnReadDone marginals tb) :=
  of_none rfl rfl
theorem resetNLow : Statement (.resetNLow) := of_none rfl rfl
theorem resetDrainDone : Statement (.resetDrainDone) := of_none rfl rfl
theorem refclkLoss : Statement (.refclkLoss) := of_none rfl rfl
theorem refclkReturn : Statement (.refclkReturn) := of_none rfl rfl
theorem corePllLock : Statement (.corePllLock) := of_none rfl rfl
theorem corePllLockTimeout : Statement (.corePllLockTimeout) := of_none rfl rfl
theorem dramInitDone : Statement (.dramInitDone) := of_none rfl rfl
theorem firmwareReady : Statement (.firmwareReady) := of_none rfl rfl
theorem certWindowExpiry : Statement (.certWindowExpiry) := of_none rfl rfl
theorem certCheckDone : Statement (.certCheckDone) := of_none rfl rfl
theorem logicTestDone (failPavs : BitVec 32) (failPorts : BitVec 16) : Statement (.logicTestDone failPavs failPorts) :=
  of_none rfl rfl
theorem tsvTestDone (tsvFail : List (PavId × Fin 16)) (saveFail : BitVec 32) (laneFail : BitVec 128) : Statement (.tsvTestDone tsvFail saveFail laneFail) :=
  of_none rfl rfl
theorem startupTestDone : Statement (.startupTestDone) := of_none rfl rfl
theorem startupDone : Statement (.startupDone) := of_none rfl rfl
theorem recovWaitExpiry : Statement (.recovWaitExpiry) := of_none rfl rfl
theorem lanePllLockLost (n : PortId) : Statement (.lanePllLockLost n) := of_none rfl rfl
theorem lanePllLockHeld (n : PortId) : Statement (.lanePllLockHeld n) := of_none rfl rfl
theorem fifoSlip (n : PortId) (p : Pos) : Statement (.fifoSlip n p) := of_none rfl rfl
theorem cdrLockLost (n : PortId) (p : Pos) : Statement (.cdrLockLost n p) := of_none rfl rfl
theorem gradingWindowEnd (n : PortId) (p : Pos) (d : Nat) : Statement (.gradingWindowEnd n p d) := of_none rfl rfl
theorem laneExitLock (n : PortId) (p : Pos) : Statement (.laneExitLock n p) := of_none rfl rfl
theorem coastExitWatchdog (n : PortId) (p : Pos) : Statement (.coastExitWatchdog n p) := of_none rfl rfl
theorem parkedExitWatchdog (n : PortId) (p : Pos) : Statement (.parkedExitWatchdog n p) := of_none rfl rfl
theorem squelchActivity (n : PortId) : Statement (.squelchActivity n) := of_none rfl rfl
theorem testStateWrite (n : PortId) (p : Pos) (src : Source) (be : BitVec 4) (v : Reg32) : Statement (.testStateWrite n p src be v) :=
  of_none rfl rfl
theorem delayedChangeApply (n : PortId) : Statement (.delayedChangeApply n) := of_none rfl rfl
theorem prbsClr (n : PortId) (src : Source) (be : BitVec 4) (v : Reg32) : Statement (.prbsClr n src be v) := of_none rfl rfl
theorem prbsCheckerLock (n : PortId) (b : LaneBits) : Statement (.prbsCheckerLock n b) := of_none rfl rfl
theorem prbsRelock (n : PortId) (p : Pos) (bits errs : Nat) : Statement (.prbsRelock n p bits errs) := of_none rfl rfl
theorem injectWrite (n : PortId) (src : Source) (be : BitVec 4) (v : Reg32) : Statement (.injectWrite n src be v) :=
  of_none rfl rfl
theorem periodicInject (n : PortId) (p : Pos) : Statement (.periodicInject n p) := of_none rfl rfl
theorem prbsBitsLoRead (n : PortId) (p : Pos) (src : Source) (bits errs : Nat) : Statement (.prbsBitsLoRead n p src bits errs) :=
  of_none rfl rfl
theorem ts1 (n : PortId) (p : Pos) (set : List Byte) : Statement (.ts1 n p set) := of_none rfl rfl
theorem ts2 (n : PortId) (p : Pos) (r : TimedSet) : Statement (.ts2 n p r) := of_none rfl rfl
theorem eios (n : PortId) (r : LaneSet) : Statement (.eios n r) := of_none rfl rfl
theorem exitSets (n : PortId) (r : LaneSet) : Statement (.exitSets n r) := of_none rfl rfl
theorem sds (n : PortId) (r : LaneSet) : Statement (.sds n r) := of_none rfl rfl
theorem tLockTimeout (n : PortId) : Statement (.tLockTimeout n) := of_none rfl rfl
theorem tConfigTimeout (n : PortId) : Statement (.tConfigTimeout n) := of_none rfl rfl
theorem tRateTimeout (n : PortId) : Statement (.tRateTimeout n) := of_none rfl rfl
theorem tVerifyTimeout (n : PortId) : Statement (.tVerifyTimeout n) := of_none rfl rfl
theorem tStartTimeout (n : PortId) : Statement (.tStartTimeout n) := of_none rfl rfl
theorem trainingRetryTimer (n : PortId) : Statement (.trainingRetryTimer n) := of_none rfl rfl
theorem presetMeasureEnd (n : PortId) (p : Pos) (d : Nat) : Statement (.presetMeasureEnd n p d) := of_none rfl rfl
theorem flitReceive (n : PortId) (lanes : List (List Bool)) : Statement (.flitReceive n lanes) := of_none rfl rfl
theorem replay (n : PortId) (seq : BitVec 10) : Statement (.replay n seq) := of_none rfl rfl
theorem ack (n : PortId) (seq : BitVec 10) : Statement (.ack n seq) := of_none rfl rfl
theorem ackTimer (n : PortId) : Statement (.ackTimer n) := of_none rfl rfl
theorem replayRepeatTimer (n : PortId) : Statement (.replayRepeatTimer n) := of_none rfl rfl
theorem replayTimer (n : PortId) : Statement (.replayTimer n) := of_none rfl rfl
theorem recoveryFallbackTimer (n : PortId) : Statement (.recoveryFallbackTimer n) := of_none rfl rfl
theorem recoveryTimeout (n : PortId) : Statement (.recoveryTimeout n) := of_none rfl rfl
theorem fullTrainingTimer (n : PortId) : Statement (.fullTrainingTimer n) := of_none rfl rfl
theorem credit (n : PortId) (c : CreditSlot) : Statement (.credit n c) := of_none rfl rfl
theorem creditReturnTimer (n : PortId) (tc : BitVec 2) : Statement (.creditReturnTimer n tc) := of_none rfl rfl
theorem creditStallTimer (n : PortId) (pool : Fin 3) (tc : BitVec 2) : Statement (.creditStallTimer n pool tc) :=
  of_none rfl rfl
theorem turn (n : PortId) (lo : BitVec 16) (late : BitVec 12) (age : Nat) : Statement (.turn n lo late age) :=
  of_none rfl rfl
theorem power (n : PortId) (kind target : BitVec 2) : Statement (.power n kind target) := of_none rfl rfl
theorem coastIdleTimer (n : PortId) : Statement (.coastIdleTimer n) := of_none rfl rfl
theorem retrain (n : PortId) (widen : Bool) : Statement (.retrain n widen) := of_none rfl rfl
theorem linkDisWrite (n : PortId) (src : Source) (be : BitVec 4) (v : Reg32) : Statement (.linkDisWrite n src be v) :=
  of_none rfl rfl
theorem retrainWrite (n : PortId) (src : Source) (be : BitVec 4) (v : Reg32) : Statement (.retrainWrite n src be v) :=
  of_none rfl rfl
theorem widenWrite (n : PortId) (src : Source) (be : BitVec 4) (v : Reg32) : Statement (.widenWrite n src be v) :=
  of_none rfl rfl
theorem rd (n : PortId) (r : MemReq) : Statement (.rd n r) := of_data rfl rfl (fun _ => by simp)
theorem wr (n : PortId) (r : MemReq) (data : List Line) : Statement (.wr n r data) :=
  of_data rfl rfl (fun w => by
    have := of_decide_eq_true (p := data.length ≤ r.lcount.toNat + 1) w
    have := r.lcount.isLt
    omega)
theorem wrp (n : PortId) (r : MemReq) : Statement (.wrp n r) := of_data rfl rfl (fun _ => by simp)
theorem wrm (n : PortId) (r : MemReq) (data : List Line) : Statement (.wrm n r data) :=
  of_data rfl rfl (fun w => Nat.le_trans (of_decide_eq_true (p := data.length ≤ 2) w) (by decide))
theorem atSwap (n : PortId) (r : MemReq) (data : List Line) : Statement (.atSwap n r data) :=
  of_data rfl rfl (fun w => Nat.le_trans (of_decide_eq_true (p := data.length ≤ 1) w) (by decide))
theorem atCas (n : PortId) (r : MemReq) (data : List Line) : Statement (.atCas n r data) :=
  of_data rfl rfl (fun w => Nat.le_trans (of_decide_eq_true (p := data.length ≤ 1) w) (by decide))
theorem atAdd (n : PortId) (r : MemReq) (data : List Line) : Statement (.atAdd n r data) :=
  of_data rfl rfl (fun w => Nat.le_trans (of_decide_eq_true (p := data.length ≤ 1) w) (by decide))
theorem atAnd (n : PortId) (r : MemReq) (data : List Line) : Statement (.atAnd n r data) :=
  of_data rfl rfl (fun w => Nat.le_trans (of_decide_eq_true (p := data.length ≤ 1) w) (by decide))
theorem atOr (n : PortId) (r : MemReq) (data : List Line) : Statement (.atOr n r data) :=
  of_data rfl rfl (fun w => Nat.le_trans (of_decide_eq_true (p := data.length ≤ 1) w) (by decide))
theorem atXor (n : PortId) (r : MemReq) (data : List Line) : Statement (.atXor n r data) :=
  of_data rfl rfl (fun w => Nat.le_trans (of_decide_eq_true (p := data.length ≤ 1) w) (by decide))
theorem atSmax (n : PortId) (r : MemReq) (data : List Line) : Statement (.atSmax n r data) :=
  of_data rfl rfl (fun w => Nat.le_trans (of_decide_eq_true (p := data.length ≤ 1) w) (by decide))
theorem atSmin (n : PortId) (r : MemReq) (data : List Line) : Statement (.atSmin n r data) :=
  of_data rfl rfl (fun w => Nat.le_trans (of_decide_eq_true (p := data.length ≤ 1) w) (by decide))
theorem atUmax (n : PortId) (r : MemReq) (data : List Line) : Statement (.atUmax n r data) :=
  of_data rfl rfl (fun w => Nat.le_trans (of_decide_eq_true (p := data.length ≤ 1) w) (by decide))
theorem atUmin (n : PortId) (r : MemReq) (data : List Line) : Statement (.atUmin n r data) :=
  of_data rfl rfl (fun w => Nat.le_trans (of_decide_eq_true (p := data.length ≤ 1) w) (by decide))
theorem fence (n : PortId) (r : FenceReq) : Statement (.fence n r) := of_data rfl rfl (fun _ => by simp)
theorem cfgRd (n : PortId) (r : CfgReq) : Statement (.cfgRd n r) := of_data rfl rfl (fun _ => by simp)
theorem cfgWr (n : PortId) (r : CfgReq) (v : Reg32) : Statement (.cfgWr n r v) := of_data rfl rfl (fun _ => by simp)
theorem doorbell (n : PortId) (v : BitVec 16) : Statement (.doorbell n v) := of_data rfl rfl (fun _ => by simp)
theorem msg (n : PortId) (r : MsgReq) : Statement (.msg n r) := of_data rfl rfl (fun _ => by split <;> simp)
theorem reservedRequest (n : PortId) (op : BitVec 6) (tc : BitVec 2) (tag : BitVec 12) : Statement (.reservedRequest n op tc tag) := by
  refine fun _ => ⟨fun _ _ _ e => (by cases e), fun _ _ _ e => ?_⟩
  simp only [txnRow] at e
  split at e
  · cases e; exact Nat.zero_le _
  · cases e
theorem rdData (n : PortId) (r : RspSlot) (data : List Line) : Statement (.rdData n r data) :=
  of_data rfl rfl (fun w => Nat.le_trans (of_decide_eq_true (p := data.length ≤ 8) w) (by decide))
theorem cmp (n : PortId) (r : RspSlot) : Statement (.cmp n r) := of_data rfl rfl (fun _ => by simp)
theorem atData (n : PortId) (r : RspSlot) (data : List Line) : Statement (.atData n r data) :=
  of_data rfl rfl (fun w => Nat.le_trans (of_decide_eq_true (p := data.length ≤ 1) w) (by decide))
theorem cfgData (n : PortId) (r : RspSlot) : Statement (.cfgData n r) := of_data rfl rfl (fun _ => by simp)
theorem reservedResponse (n : PortId) (op : BitVec 6) : Statement (.reservedResponse n op) := by
  refine fun _ => ⟨fun _ _ _ e => (by cases e), fun _ _ _ e => ?_⟩
  simp only [txnRow] at e
  split at e
  · cases e; exact Nat.zero_le _
  · cases e
theorem responseSend (n : PortId) : Statement (.responseSend n) := of_none rfl rfl
theorem promenadeGrant (dest : Agent) : Statement (.promenadeGrant dest) := of_none rfl rfl
theorem arbiterAgeLimit (id : Nat) : Statement (.arbiterAgeLimit id) := of_none rfl rfl
theorem readDataReturn (p : PavId) (flips : RawLine) : Statement (.readDataReturn p flips) := of_none rfl rfl
theorem rmwComplete (p : PavId) : Statement (.rmwComplete p) := of_none rfl rfl
theorem forwardHoldTimeout (n : PortId) : Statement (.forwardHoldTimeout n) := of_none rfl rfl
theorem contextTimeout (n : PortId) (ctx : BitVec 12) : Statement (.contextTimeout n ctx) := of_none rfl rfl
theorem roleWrite (n : PortId) (src : Source) (be : BitVec 4) (v : Reg32) : Statement (.roleWrite n src be v) :=
  of_none rfl rfl
theorem windowBaseWrite (src : Source) (be : BitVec 4) (v : Reg32) : Statement (.windowBaseWrite src be v) := of_none rfl rfl
theorem spLoWrite (e : Fin 32) (src : Source) (be : BitVec 4) (v : Reg32) : Statement (.spLoWrite e src be v) :=
  of_none rfl rfl
theorem spHiWrite (e : Fin 32) (src : Source) (be : BitVec 4) (v : Reg32) : Statement (.spHiWrite e src be v) :=
  of_none rfl rfl
theorem portRoleSet (m : MbxId) (payload : List Byte) : Statement (.portRoleSet m payload) := of_payload rfl rfl rfl
theorem windowSet (m : MbxId) (payload : List Byte) : Statement (.windowSet m payload) := of_payload rfl rfl rfl
theorem signpostSet (m : MbxId) (payload : List Byte) : Statement (.signpostSet m payload) := of_payload rfl rfl rfl
theorem poolStatus (m : MbxId) (payload : List Byte) : Statement (.poolStatus m payload) := of_payload rfl rfl rfl
theorem schedulerIssue (p : PavId) : Statement (.schedulerIssue p) := of_none rfl rfl
theorem aged1 (p : PavId) (id : Nat) : Statement (.aged1 p id) := of_none rfl rfl
theorem aged2 (p : PavId) (id : Nat) : Statement (.aged2 p id) := of_none rfl rfl
theorem acceptanceStallTimer (p : PavId) : Statement (.acceptanceStallTimer p) := of_none rfl rfl
theorem throttleWindowBoundary (p : PavId) : Statement (.throttleWindowBoundary p) := of_none rfl rfl
theorem adaptiveCloseTimer (p : PavId) (b : BankId) : Statement (.adaptiveCloseTimer p b) := of_none rfl rfl
theorem powerDownEntry (p : PavId) (r : RankId) : Statement (.powerDownEntry p r) := of_none rfl rfl
theorem maskLoWrite (partitioned : Bool) (m : Fin 11) (src : Source) (be : BitVec 4) (v : Reg32) : Statement (.maskLoWrite partitioned m src be v) :=
  of_none rfl rfl
theorem maskHiWrite (partitioned : Bool) (m : Fin 11) (src : Source) (be : BitVec 4) (v : Reg32) : Statement (.maskHiWrite partitioned m src be v) :=
  of_none rfl rfl
theorem mapSelWrite (src : Source) (be : BitVec 4) (v : Reg32) : Statement (.mapSelWrite src be v) := of_none rfl rfl
theorem mapSet (m : MbxId) (payload : List Byte) : Statement (.mapSet m payload) := of_payload rfl rfl rfl
theorem mapStatus (m : MbxId) (payload : List Byte) : Statement (.mapStatus m payload) := of_payload rfl rfl rfl
theorem mapTranslate (m : MbxId) (payload : List Byte) : Statement (.mapTranslate m payload) := of_payload rfl rfl rfl
theorem angleStep : Statement (.angleStep) := of_none rfl rfl
theorem turnBoundary : Statement (.turnBoundary) := of_none rfl rfl
theorem markerMissExpiry : Statement (.markerMissExpiry) := of_none rfl rfl
theorem cadTurnEdge (age : Nat) : Statement (.cadTurnEdge age) := of_none rfl rfl
theorem cadCtrlWrite (src : Source) (be : BitVec 4) (v : Reg32) : Statement (.cadCtrlWrite src be v) := of_none rfl rfl
theorem cadNowLoRead (src : Source) : Statement (.cadNowLoRead src) := of_none rfl rfl
theorem refreshAccrual (p : PavId) (r : RankId) : Statement (.refreshAccrual p r) := of_none rfl rfl
theorem rateChangeApply (p : PavId) : Statement (.rateChangeApply p) := of_none rfl rfl
theorem selfRefreshExit (p : PavId) (r : RankId) : Statement (.selfRefreshExit p r) := of_none rfl rfl
theorem neighbourEscalation (p : PavId) : Statement (.neighbourEscalation p) := of_none rfl rfl
theorem cadSet (m : MbxId) (payload : List Byte) : Statement (.cadSet m payload) := of_payload rfl rfl rfl
theorem cadStatus (m : MbxId) (payload : List Byte) : Statement (.cadStatus m payload) := of_payload rfl rfl rfl
theorem slotSet (m : MbxId) (payload : List Byte) : Statement (.slotSet m payload) := of_payload rfl rfl rfl
theorem refWindowsSet (m : MbxId) (payload : List Byte) : Statement (.refWindowsSet m payload) := of_payload rfl rfl rfl
theorem refSpread (m : MbxId) (payload : List Byte) : Statement (.refSpread m payload) := of_payload rfl rfl rfl
theorem refStatus (m : MbxId) (payload : List Byte) : Statement (.refStatus m payload) := of_payload rfl rfl rfl
theorem neighSet (m : MbxId) (payload : List Byte) : Statement (.neighSet m payload) := of_payload rfl rfl rfl
theorem sparingCopyDone (p : PavId) (flips : List RawLine) : Statement (.sparingCopyDone p flips) := of_none rfl rfl
theorem repeatEntryExpiry (p : PavId) : Statement (.repeatEntryExpiry p) := of_none rfl rfl
theorem scrubStepDue (p : PavId) : Statement (.scrubStepDue p) := of_none rfl rfl
theorem scrubEscalation (p : PavId) : Statement (.scrubEscalation p) := of_none rfl rfl
theorem bulkLineIssue : Statement (.bulkLineIssue) := of_none rfl rfl
theorem bulkComplete : Statement (.bulkComplete) := of_none rfl rfl
theorem eccLog3Read (src : Source) (p : PavId) : Statement (.eccLog3Read src p) := of_none rfl rfl
theorem repeatEnWrite (p : PavId) (src : Source) (be : BitVec 4) (v : Reg32) : Statement (.repeatEnWrite p src be v) :=
  of_none rfl rfl
theorem eccStatus (m : MbxId) (payload : List Byte) : Statement (.eccStatus m payload) := of_payload rfl rfl rfl
theorem eccClear (m : MbxId) (payload : List Byte) : Statement (.eccClear m payload) := of_payload rfl rfl rfl
theorem scrubRegions (m : MbxId) (payload : List Byte) : Statement (.scrubRegions m payload) := of_payload rfl rfl rfl
theorem repairMapRead (m : MbxId) (payload : List Byte) : Statement (.repairMapRead m payload) := of_payload rfl rfl rfl
theorem spareList (m : MbxId) (payload : List Byte) : Statement (.spareList m payload) := of_payload rfl rfl rfl
theorem spareCommit (m : MbxId) (payload : List Byte) : Statement (.spareCommit m payload) := of_payload rfl rfl rfl
theorem rowSpare (m : MbxId) (payload : List Byte) : Statement (.rowSpare m payload) := of_payload rfl rfl rfl
theorem pavRetire (m : MbxId) (payload : List Byte) : Statement (.pavRetire m payload) := of_payload rfl rfl rfl
theorem fill (m : MbxId) (payload : List Byte) : Statement (.fill m payload) := of_payload rfl rfl rfl
theorem copy (m : MbxId) (payload : List Byte) : Statement (.copy m payload) := of_payload rfl rfl rfl
theorem bulkStatus (m : MbxId) (payload : List Byte) : Statement (.bulkStatus m payload) := of_payload rfl rfl rfl
theorem bulkAbort (m : MbxId) (payload : List Byte) : Statement (.bulkAbort m payload) := of_payload rfl rfl rfl
theorem sliceStart (p : PavId) : Statement (.sliceStart p) := of_none rfl rfl
theorem sliceEnd (p : PavId) (result : SliceResult) : Statement (.sliceEnd p result) := of_none rfl rfl
theorem sliceWatchdog (p : PavId) : Statement (.sliceWatchdog p) := of_none rfl rfl
theorem sweepSliceDue : Statement (.sweepSliceDue) := of_none rfl rfl
theorem parkingTestDone (u : Unit) : Statement (.parkingTestDone u) := of_none rfl rfl
theorem bistFail1Read (src : Source) (p : PavId) : Statement (.bistFail1Read src p) := of_none rfl rfl
theorem bistStatus (m : MbxId) (payload : List Byte) : Statement (.bistStatus m payload) := of_payload rfl rfl rfl
theorem sweepStart (m : MbxId) (payload : List Byte) : Statement (.sweepStart m payload) := of_payload rfl rfl rfl
theorem bistStop (m : MbxId) (payload : List Byte) : Statement (.bistStop m payload) := of_payload rfl rfl rfl
theorem sliceRow (m : MbxId) (payload : List Byte) : Statement (.sliceRow m payload) := of_payload rfl rfl rfl
theorem parkStart (m : MbxId) (payload : List Byte) : Statement (.parkStart m payload) := of_payload rfl rfl rfl
theorem certRead (m : MbxId) (payload : List Byte) : Statement (.certRead m payload) := of_payload rfl rfl rfl
theorem certLoad (m : MbxId) (payload : List Byte) : Statement (.certLoad m payload) := of_payload rfl rfl rfl
theorem certSubmit (m : MbxId) (payload : List Byte) : Statement (.certSubmit m payload) := of_payload rfl rfl rfl
theorem arrayTest (m : MbxId) (payload : List Byte) : Statement (.arrayTest m payload) := of_payload rfl rfl rfl
theorem arrayRawRead (m : MbxId) (payload : List Byte) : Statement (.arrayRawRead m payload) := of_payload rfl rfl rfl
theorem arrayRawWrite (m : MbxId) (payload : List Byte) : Statement (.arrayRawWrite m payload) := of_payload rfl rfl rfl
theorem sensorSlotEnd (conv : Option (BitVec 16)) : Statement (.sensorSlotEnd conv) := of_none rfl rfl
theorem haltDrainDone : Statement (.haltDrainDone) := of_none rfl rfl
theorem haltClearWrite (src : Source) (be : BitVec 4) (v : Reg32) : Statement (.haltClearWrite src be v) := of_none rfl rfl
theorem hostThrWrite (src : Source) (be : BitVec 4) (v : Reg32) : Statement (.hostThrWrite src be v) := of_none rfl rfl
theorem thmPeakRead (src : Source) : Statement (.thmPeakRead src) := of_none rfl rfl
theorem thmStatus (m : MbxId) (payload : List Byte) : Statement (.thmStatus m payload) := of_payload rfl rfl rfl
theorem throttleSet (m : MbxId) (payload : List Byte) : Statement (.throttleSet m payload) := of_payload rfl rfl rfl
theorem haltClear (m : MbxId) (payload : List Byte) : Statement (.haltClear m payload) := of_payload rfl rfl rfl
theorem alertSet (m : MbxId) (payload : List Byte) : Statement (.alertSet m payload) := of_payload rfl rfl rfl
theorem extSet (m : MbxId) (payload : List Byte) : Statement (.extSet m payload) := of_payload rfl rfl rfl
theorem eyePointEnd (n : PortId) (ds : List (Pos × Nat)) : Statement (.eyePointEnd n ds) := of_none rfl rfl
theorem tsvStepEnd (p : PavId) (passes : List (BitVec 64)) : Statement (.tsvStepEnd p passes) := of_none rfl rfl
theorem tsvWatchdog (p : PavId) : Statement (.tsvWatchdog p) := of_none rfl rfl
theorem tsvAutoDue (p : PavId) : Statement (.tsvAutoDue p) := of_none rfl rfl
theorem oscLearnPeriodEnd (count : Nat) : Statement (.oscLearnPeriodEnd count) := of_none rfl rfl
theorem oscLearnWrite (src : Source) (be : BitVec 4) (v : Reg32) : Statement (.oscLearnWrite src be v) := of_none rfl rfl
theorem calStatus (m : MbxId) (payload : List Byte) : Statement (.calStatus m payload) := of_payload rfl rfl rfl
theorem laneRetune (m : MbxId) (payload : List Byte) : Statement (.laneRetune m payload) := of_payload rfl rfl rfl
theorem eyeScan (m : MbxId) (payload : List Byte) : Statement (.eyeScan m payload) := of_payload rfl rfl rfl
theorem tsvCal (m : MbxId) (payload : List Byte) : Statement (.tsvCal m payload) := of_payload rfl rfl rfl
theorem sensorCal (m : MbxId) (payload : List Byte) : Statement (.sensorCal m payload) := of_payload rfl rfl rfl
theorem oscLearn (m : MbxId) (payload : List Byte) : Statement (.oscLearn m payload) := of_payload rfl rfl rfl
theorem calAbort (m : MbxId) (payload : List Byte) : Statement (.calAbort m payload) := of_payload rfl rfl rfl
theorem firmwareWatchdog : Statement (.firmwareWatchdog) := of_none rfl rfl
theorem coreResetWrite (src : Source) (be : BitVec 4) (v : Reg32) : Statement (.coreResetWrite src be v) := of_none rfl rfl
theorem goDoorbell (m : MbxId) (src : Source) : Statement (.goDoorbell m src) := of_none rfl rfl
theorem abortDoorbell (m : MbxId) (src : Source) : Statement (.abortDoorbell m src) := of_none rfl rfl
theorem overrunClear (m : MbxId) (src : Source) (be : BitVec 4) (v : Reg32) : Statement (.overrunClear m src be v) :=
  of_none rfl rfl
theorem commandTaken : Statement (.commandTaken) := of_none rfl rfl
theorem commandComplete (m : MbxId) : Statement (.commandComplete m) := of_none rfl rfl
theorem commandTimer (m : MbxId) : Statement (.commandTimer m) := of_none rfl rfl
theorem stewardWrite (src : Source) (be : BitVec 4) (v : Reg32) : Statement (.stewardWrite src be v) := of_none rfl rfl
theorem imageVerifyDone : Statement (.imageVerifyDone) := of_none rfl rfl
theorem idGet (m : MbxId) (payload : List Byte) : Statement (.idGet m payload) := of_payload rfl rfl rfl
theorem echo (m : MbxId) (payload : List Byte) : Statement (.echo m payload) := of_payload rfl rfl rfl
theorem startupRecordRead (m : MbxId) (payload : List Byte) : Statement (.startupRecordRead m payload) :=
  of_payload rfl rfl rfl
theorem stewardStatus (m : MbxId) (payload : List Byte) : Statement (.stewardStatus m payload) := of_payload rfl rfl rfl
theorem stewardSet (m : MbxId) (payload : List Byte) : Statement (.stewardSet m payload) := of_payload rfl rfl rfl
theorem fwLoad (m : MbxId) (payload : List Byte) : Statement (.fwLoad m payload) := of_payload rfl rfl rfl
theorem fwActivate (m : MbxId) (payload : List Byte) : Statement (.fwActivate m payload) := of_payload rfl rfl rfl
theorem fwStatus (m : MbxId) (payload : List Byte) : Statement (.fwStatus m payload) := of_payload rfl rfl rfl
theorem eventRaise (ev : Fin 1024) (detail : Byte) : Statement (.eventRaise ev detail) := of_none rfl rfl
theorem eventRecordWrite : Statement (.eventRecordWrite) := of_none rfl rfl
theorem eventMessageSend (n : PortId) : Statement (.eventMessageSend n) := of_none rfl rfl
theorem telemetrySend (n : PortId) : Statement (.telemetrySend n) := of_none rfl rfl
theorem evtPortsWrite (src : Source) (be : BitVec 4) (v : Reg32) : Statement (.evtPortsWrite src be v) := of_none rfl rfl
theorem evtSeenClear (i : Fin 32) (src : Source) (be : BitVec 4) (v : Reg32) : Statement (.evtSeenClear i src be v) :=
  of_none rfl rfl
theorem monitorWindowEnd (u : UnitId) : Statement (.monitorWindowEnd u) := of_none rfl rfl
theorem monRestartWrite (u : UnitId) (src : Source) (be : BitVec 4) (v : Reg32) : Statement (.monRestartWrite u src be v) :=
  of_none rfl rfl
theorem monSumLoRead (src : Source) (u : UnitId) (lvl : Bool) : Statement (.monSumLoRead src u lvl) := of_none rfl rfl
theorem monConfig (m : MbxId) (payload : List Byte) : Statement (.monConfig m payload) := of_payload rfl rfl rfl
theorem monRead (m : MbxId) (payload : List Byte) : Statement (.monRead m payload) := of_payload rfl rfl rfl
theorem monSnapshot (m : MbxId) (payload : List Byte) : Statement (.monSnapshot m payload) := of_payload rfl rfl rfl
theorem telemetrySet (m : MbxId) (payload : List Byte) : Statement (.telemetrySet m payload) := of_payload rfl rfl rfl
theorem evtConfig (m : MbxId) (payload : List Byte) : Statement (.evtConfig m payload) := of_payload rfl rfl rfl
theorem evtRead (m : MbxId) (payload : List Byte) : Statement (.evtRead m payload) := of_payload rfl rfl rfl
theorem evtStatus (m : MbxId) (payload : List Byte) : Statement (.evtStatus m payload) := of_payload rfl rfl rfl
theorem evtClear (m : MbxId) (payload : List Byte) : Statement (.evtClear m payload) := of_payload rfl rfl rfl
theorem otpWordDone (o : FuseOutcome) : Statement (.otpWordDone o) := of_none rfl rfl
theorem vddOtppChange (present : Bool) : Statement (.vddOtppChange present) := of_none rfl rfl
theorem otpRead (m : MbxId) (payload : List Byte) : Statement (.otpRead m payload) := of_payload rfl rfl rfl
theorem otpProgram (m : MbxId) (payload : List Byte) : Statement (.otpProgram m payload) := of_payload rfl rfl rfl
theorem otpLock (m : MbxId) (payload : List Byte) : Statement (.otpLock m payload) := of_payload rfl rfl rfl
theorem otpLockForce (m : MbxId) (payload : List Byte) : Statement (.otpLockForce m payload) := of_payload rfl rfl rfl
theorem repairOtp (m : MbxId) (payload : List Byte) : Statement (.repairOtp m payload) := of_payload rfl rfl rfl
theorem otpStatus (m : MbxId) (payload : List Byte) : Statement (.otpStatus m payload) := of_payload rfl rfl rfl
theorem otpJournalRead (m : MbxId) (payload : List Byte) : Statement (.otpJournalRead m payload) := of_payload rfl rfl rfl
theorem deviceKeyDerived : Statement (.deviceKeyDerived) := of_none rfl rfl
theorem signingDone : Statement (.signingDone) := of_none rfl rfl
theorem idCertRead (m : MbxId) (payload : List Byte) : Statement (.idCertRead m payload) := of_payload rfl rfl rfl
theorem attest (m : MbxId) (payload : List Byte) : Statement (.attest m payload) := of_payload rfl rfl rfl
theorem keyEnrol (m : MbxId) (payload : List Byte) : Statement (.keyEnrol m payload) := of_payload rfl rfl rfl
theorem workshopEnter (m : MbxId) (payload : List Byte) : Statement (.workshopEnter m payload) := of_payload rfl rfl rfl
theorem workshopExit (m : MbxId) (payload : List Byte) : Statement (.workshopExit m payload) := of_payload rfl rfl rfl
theorem sbStatusByte : Statement (.sbStatusByte) := of_none rfl rfl
theorem sbStatus : Statement (.sbStatus) := of_none rfl rfl
theorem sbWinPtr (ptr : BitVec 24) (pec : Option Byte) : Statement (.sbWinPtr ptr pec) := of_none rfl rfl
theorem sbWinRead : Statement (.sbWinRead) := of_none rfl rfl
theorem sbWinWrite (bytes : List Byte) (pec : Option Byte) : Statement (.sbWinWrite bytes pec) := of_none rfl rfl
theorem sbMbxWrite (bytes : List Byte) (pec : Option Byte) : Statement (.sbMbxWrite bytes pec) := of_none rfl rfl
theorem sbMbxGo (v : Byte) (pec : Option Byte) : Statement (.sbMbxGo v pec) := of_none rfl rfl
theorem sbMbxRead : Statement (.sbMbxRead) := of_none rfl rfl
theorem sbMbxPtr (v : BitVec 16) (pec : Option Byte) : Statement (.sbMbxPtr v pec) := of_none rfl rfl
theorem sbMbxStat : Statement (.sbMbxStat) := of_none rfl rfl
theorem sbQuickCommand (code : Option Byte) : Statement (.sbQuickCommand code) := of_none rfl rfl
theorem sbStretchLimit (u : Unit) : Statement (.sbStretchLimit u) := of_none rfl rfl
theorem sbBusFault (cause : SbFaultCause) : Statement (.sbBusFault cause) := of_none rfl rfl
theorem sbRepeatedStartInAck : Statement (.sbRepeatedStartInAck) := of_none rfl rfl
theorem wakeByAddress (addr : BitVec 7) : Statement (.wakeByAddress addr) := of_none rfl rfl
theorem wakeStretchLimit : Statement (.wakeStretchLimit) := of_none rfl rfl
theorem attentionAssert : Statement (.attentionAssert) := of_none rfl rfl
theorem attentionArbitration (won acked : Bool) : Statement (.attentionArbitration won acked) := of_none rfl rfl
theorem attentionWaitExpiry : Statement (.attentionWaitExpiry) := of_none rfl rfl
theorem attentionRetryTimer : Statement (.attentionRetryTimer) := of_none rfl rfl
theorem sdaReleaseTimeout : Statement (.sdaReleaseTimeout) := of_none rfl rfl
theorem sclLowTimeout : Statement (.sclLowTimeout) := of_none rfl rfl
theorem powerSet (m : MbxId) (payload : List Byte) : Statement (.powerSet m payload) := of_payload rfl rfl rfl
theorem holdHandshakeTimeout (n : PortId) : Statement (.holdHandshakeTimeout n) := of_none rfl rfl
theorem pavilionDrainDone (p : PavId) : Statement (.pavilionDrainDone p) := of_none rfl rfl
theorem sleepExitClocksRun : Statement (.sleepExitClocksRun) := of_none rfl rfl
theorem wakeNInput : Statement (.wakeNInput) := of_none rfl rfl
theorem wakeNDriveEnd : Statement (.wakeNDriveEnd) := of_none rfl rfl
theorem powerStatus (m : MbxId) (payload : List Byte) : Statement (.powerStatus m payload) := of_payload rfl rfl rfl
theorem shutdown (m : MbxId) (payload : List Byte) : Statement (.shutdown m payload) := of_payload rfl rfl rfl
theorem glbRstPortWrite (src : Source) (be : BitVec 4) (v : Reg32) : Statement (.glbRstPortWrite src be v) := of_none rfl rfl
theorem glbRstPavWrite (src : Source) (be : BitVec 4) (v : Reg32) : Statement (.glbRstPavWrite src be v) := of_none rfl rfl
theorem pavilionReset (p : PavId) : Statement (.pavilionReset p) := of_none rfl rfl
theorem trstNLow : Statement (.trstNLow) := of_none rfl rfl
theorem tapInstructionUpdate (code : Byte) : Statement (.tapInstructionUpdate code) := of_none rfl rfl
theorem registerWrite (off : BitVec 20) (src : Source) (be : BitVec 4) (v : Reg32) : Statement (.registerWrite off src be v) :=
  of_none rfl rfl
theorem readClearCounter (src : Source) (off : BitVec 20) : Statement (.readClearCounter src off) := of_none rfl rfl
theorem resetNRise : Statement (.resetNRise) := of_none rfl rfl
theorem pllRelockDone (n : PortId) : Statement (.pllRelockDone n) := of_none rfl rfl
theorem managementSramUncorrectable (word : SramWord) : Statement (.managementSramUncorrectable word) := of_none rfl rfl

end Sys2Proof.Laws.WellFormed
end

