-- ==== Sys2Proof/Tests/Slice0.lean ====
section
/-! SUPPORT. Checks of the model's author: ill-formed commands are refused, every hypothesis of a statement is met by a concrete state
and concrete operands, and single steps give what the manual's tables and worked examples say. -/
namespace Sys2Proof.Tests
open Sys2Proof Sys2Proof.Machine

-- the checks by evaluation one after the other: together they would need more memory than one process may have
set_option Elab.async false

/-! ## States of the tests -/

/-- A stack in Run after start-up: every port enabled, pool and atomics on, port 0 the steward. -/
def live : State :=
  let s := { State.reset with
    now := 1000000
    power := { Power.reset with boot := .done, resetN := true, doneAt := some 0 }
    otp := { Otp.reset with supply := true, latDf := 0x7FFFF }
    sb := { Sb.reset with running := true } }
  let s := (((s.wr Fld.GLB_FEATURES_PORTS 0xFFFF).wr Fld.GLB_FEATURES_POOL 1).wr Fld.GLB_FEATURES_ATOMICS 1).wr Fld.GLB_FEATURES_RATE_MAX 4
  let s := (((s.wr Fld.GLB_STEWARD_MASK 1).wr Fld.GLB_FW_STAT_READY 1).wr Fld.GLB_FW_STAT_IMAGE 2).wr Fld.GLB_FW_CAP_CAP 0x1FFFF
  (s.wr Fld.SB_STAT_ADDR 0x4C).wr Fld.THM_STAT_INIT 1

/-- The same with workshop mode open for port 0. -/
def shop : State := (live.wr Fld.GLB_SEC_STAT_WORKSHOP 1).wr (Fld.MBX_OWNER_SOURCE 17) 0

/-- The same with a link up on port 0 and credits of every kind in every class on both sides. -/
def linked : State :=
  let s := (live.setLink 0 lsUp).modTrain 0 (fun t => { t with hasLink := true, everUp := true, reachedConfig := true })
  let s := forUpto 4 (fun tc a => forUpto 3 (fun k b => (b.wr (fldTx 0 tc k) 100).wr (fldRx 0 tc k) 100) a) s
  s.modPort 0 (fun p => { p with credit := { p.credit with inited := 15 } })

/-- Mailbox 0 with a command in a state. -/
def mbxIn (st : Nat) : State := live.wr (Fld.MBX_STAT_STATE 0) st

/-- The next state of an outcome satisfies a test. -/
def after (o : Out) (f : State → Bool) : Bool := match o with | .next t => f t | _ => false

/-- The state after a command. -/
def run (c : Instr) (s : State) : State := match exec c s with | .next t => t | _ => s

/-- `NextInRound` as a test. -/
def nextB (m : Nat) (s : State) : Bool :=
  (List.range 18).all (fun j => j == m || s.rd (Fld.MBX_STAT_STATE j) != mbPending ||
    decide ((m + 18 - (s.lastTaken + 1) % 18) % 18 < (j + 18 - (s.lastTaken + 1) % 18) % 18))

theorem next_of {m : Nat} {s : State} (h : nextB m s = true) : NextInRound s m := by
  intro j hj hm hp
  have := List.all_eq_true.mp h j (List.mem_range.mpr hj)
  simpa [hm, hp] using this

/-- `Accepts` as a test. -/
def acceptsB (m : MbxId) (op : Nat) (pl : List Byte) (s : State) : Bool :=
  s.takes && decide (s.owner m < 17) && s.mbxFree m && decide (pl.length ≤ 496) && (s.opAbsent op == false) &&
    (!opsWorkshop.contains op || m.val == 17) && s.opAllowed m op && nextB m s

theorem accepts_of {m : MbxId} {op : Nat} {pl : List Byte} {s : State} (h : acceptsB m op pl s = true) : Accepts m op pl s := by
  simp only [acceptsB, Bool.and_eq_true, decide_eq_true_eq, beq_iff_eq, Bool.or_eq_true, Bool.not_eq_true'] at h
  obtain ⟨⟨⟨⟨⟨⟨⟨h1, h2⟩, h3⟩, h4⟩, h5⟩, h6⟩, h7⟩, h8⟩ := h
  exact ⟨h1, h2, h3, next_of h8, h4, h5, fun w => h6.resolve_left (by rw [w]; decide), h7⟩

/-- `Serves` as a test. -/
def servesB (s : State) : Bool := s.served && s.sb.late.isEmpty && s.sb.hand.isNone

theorem serves_of {s : State} (h : servesB s = true) : Serves s := by
  simp only [servesB, Bool.and_eq_true, List.isEmpty_iff, Option.isNone_iff_eq_none] at h
  exact ⟨h.1.1, h.1.2, h.2⟩

/-- `Reaches` as a test, for a register that is a row. -/
def reachesB (s : State) (src off : Nat) (be : BitVec 4) : Bool :=
  servesB s && (be != 0) && (match regAt off with | some row => !coversRws row.fields (beBits be) || s.steward src | none => false)

theorem reaches_of {s : State} {src off : Nat} {be : BitVec 4} (h : reachesB s src off be = true) :
    ∃ row, Reaches s src off row be := by
  simp only [reachesB, Bool.and_eq_true] at h
  cases e : regAt off with
  | none => rw [e] at h; simp at h
  | some row =>
    rw [e] at h
    refine ⟨row, serves_of h.1.1, e, by simpa using h.1.2, fun w => ?_⟩
    have := h.2
    simpa [w] using this

/-! ## The hypotheses of the statements are met -/

/-- O1, O2: an idle state with nothing under way, and a command that is none of the two. -/
theorem witness_idle_step : State.reset.power.trans = .none_ ∧ State.reset.power.shut = none ∧ State.reset.test.parkRun = false ∧
    State.reset.pending = [] ∧ Memory.wf State.reset.dram = true ∧ Instr.trstNLow ≠ .supplyDip ∧
    (∀ ms tb, Instr.trstNLow ≠ .otpDirectFieldReady ms tb) := by
  and_intros <;> first | (intro _ _ h; cases h) | decide +kernel

/-- O4: a command that runs, one that is absent, one of workshop mode, and one denied. -/
theorem witness_mailbox_commands : mailboxRow (.echo 0 [1]) = some (0, 0x0102, [1]) ∧ acceptsB 0 0x0102 [1] live = true ∧
    (live.wr Fld.GLB_FW_CAP_CAP 0).opAbsent 0x0102 = true ∧ (live.wr Fld.GLB_FW_CAP_CAP 0).takes = true ∧
    live.opAbsent 0x0520 = false ∧ opsWorkshop.contains 0x0520 = true ∧ live.owner 0 < 17 ∧ live.mbxFree 0 = true ∧
    live.opAbsent 0x0202 = false ∧ opsWorkshop.contains 0x0202 = false ∧ live.opAllowed 1 0x0202 = false ∧ live.mbxFree 1 = true ∧
    live.owner 1 < 17 ∧ nextB 0 (live.wr Fld.GLB_FW_CAP_CAP 0) = true ∧ nextB 0 live = true ∧ nextB 1 live = true ∧
    live.mgmtOn = true ∧ (live.wr Fld.GLB_FW_STAT_READY 0).takes = false := by
  and_intros <;> decide +kernel

/-- O4: a command that another pending one comes before. -/
theorem witness_not_next : ¬ NextInRound (mbxIn mbPending) 3 := fun h =>
  absurd (h 0 (by decide +kernel) (by decide +kernel) (by decide +kernel)) (by decide +kernel)

/-- O5: a mailbox with a command in hand. -/
theorem witness_taken : ([1] : List Byte).length ≤ 496 ∧ (Taken 0 0x0102 [1] live).inHand 0 = true := by decide +kernel

/-- O6: a mailbox in each of its three states with a command in hand, its owner, and a row of the table. -/
theorem witness_busy : (∀ st ∈ [mbPending, mbRunning, mbAborting], (mbxIn st).rd (Fld.MBX_STAT_STATE 0) = st ∧
    servesB (mbxIn st) = true ∧ (mbxIn st).owner 0 = 0 ∧ (mbxIn st).mgmtOn = true) ∧
    mailboxRow (.echo 0 [1]) = some (0, 0x0102, [1]) := by decide +kernel

/-- O7: two pending commands, one whose work has ended, and one whose timer runs. -/
theorem witness_pending :
    (let s := (mbxIn mbPending).wr (Fld.MBX_STAT_STATE 3) mbPending
     s.takes = true ∧ s.nextPending = some 0 ∧ s.lastTaken ≤ 17 ∧ s.rd (Fld.MBX_STAT_STATE 3) = mbPending) ∧
    (let s := (mbxIn mbRunning).modMbx 0 (fun b => { b with result := some ⟨0, 0xFFFF, []⟩ })
     s.mgmtOn = true ∧ (s.mbx 0).result = some ⟨0, 0xFFFF, []⟩ ∧ (s.mbx 0).notify = false) ∧
    (let s := (mbxIn mbRunning).modMbx 0 (fun b => { b with deadline := some 5 })
     (s.mbx 0).deadline = some 5 ∧ s.inHand 0 = true) := by decide +kernel

/-- O8: the commands that only read a status. -/
theorem witness_status_commands :
    (∀ op ∈ [0x0101, 0x0103, 0x0201, 0x0213, 0x0221, 0x0302, 0x0601, 0x0C03, 0x0A03, 0x0906, 0x0B02, 0x0D03],
      acceptsB 0 op [] live = true) ∧
    (∀ op ∈ [0x0312, 0x0401, 0x0501], acceptsB 0 op [31] live = true) ∧ leAt [31] 0 1 ≤ 31 ∧
    acceptsB 0 0x0701 [15, 31] live = true ∧ leAt [15, 31] 0 1 ≤ 15 ∧ leAt [15, 31] 1 1 ≤ 31 ∧ live.power.boot = .done ∧
    live.bulk = none := by decide +kernel

/-- A FILL under way. -/
def filling : State :=
  { live with bulk := some { copy := false, mbx := 0, start := 0, dst := 0, lines := 4, pattern := 0, mark := false, issued := 0,
                             written := 0, skipped := 0, poisoned := 0, flying := 0, readBack := [], ending := none, marks := [] } }

/-- O8, O9: a bulk command under way; addresses that translate and one that does not; a certificate, and a journal. -/
theorem witness_reading_commands :
    acceptsB 0 0x0D03 [] filling = true ∧ filling.bulk.isSome = true ∧
    acceptsB 0 0x0222 [] live = true ∧ leAt [] 0 8 < 2 ^ 37 ∧ ((Taken 0 0x0222 [] live).locate (leAt [] 0 8)).isSome = true ∧
    (let s := { live with test := { live.test with retiredStart := 0xFFFFFFFF } }
     acceptsB 0 0x0222 [0, 0, 0, 0, 0x1F] s = true ∧ leAt [0, 0, 0, 0, 0x1F] 0 8 < 2 ^ 37 ∧
       (Taken 0 0x0222 [0, 0, 0, 0, 0x1F] s).locate (leAt [0, 0, 0, 0, 0x1F] 0 8) = none) ∧
    acceptsB 0 0x0420 [0xFF, 0x17] live = true ∧ leAt [0xFF, 0x17] 0 2 = 6143 ∧ acceptsB 0 0x0421 [31] live = true ∧
    (let s := { live with test := { live.test with parkCert := some [1, 2] } }
     acceptsB 0 0x0511 [1] s = true ∧ s.test.parkCert = some [1, 2] ∧ leAt [1] 0 4 < [1, 2].length) ∧
    acceptsB 17 0x0521 [31, 63] shop = true ∧ rawBad [31, 63] = none ∧ (Taken 17 0x0521 [31, 63] shop).pavsClosed = false ∧
    acceptsB 0 0x0802 [47] live = true ∧ acceptsB 0 0x0C02 [0, 0, 0, 0, 30] live = true ∧ leAt [0, 0, 0, 0, 30] 4 1 = 30 ∧
    acceptsB 0 0x0901 [0xFF, 0x1F, 112] live = true ∧ leAt [0xFF, 0x1F, 112] 0 2 = 8191 ∧ leAt [0xFF, 0x1F, 112] 2 1 = 112 ∧
    acceptsB 0 0x0907 [] live = true ∧ live.otp.journal = [] := by decide +kernel

/-- A payload that loads the default masks of a map. -/
def zerosFrom (l : List Byte) (n : Nat) : List Byte := l ++ zeros (n - l.length)

/-- O10: the commands that set pool, map and privilege registers. -/
theorem witness_pool_commands :
    acceptsB 0 0x0202 [1, 0, 0, 0, 1] live = true ∧ leAt [1, 0, 0, 0, 1] 4 1 ≤ 1 ∧
    (Taken 0 0x0202 [1, 0, 0, 0, 1] live).on Fld.GLB_STEWARD_LOCK = false ∧
    (putSteward 1 true (Taken 0 0x0202 [1, 0, 0, 0, 1] live)).isSome = true ∧
    acceptsB 0 0x0210 [15, 1] live = true ∧ (Taken 0 0x0210 [15, 1] live).poolOn = true ∧
    (Taken 0 0x0210 [15, 1] live).portEnabled 15 = true ∧
    acceptsB 0 0x0211 [0xFF, 7] live = true ∧ (Taken 0 0x0211 [0xFF, 7] live).on Fld.GLB_POOL_WINDOW_LOCKED = false ∧
    acceptsB 0 0x0212 [31] live = true ∧ (commitSignpost 31 0 0 (Taken 0 0x0212 [31] live)).isSome = true ∧
    acceptsB 0 0x0220 [1] live = true ∧ bitAt (leAt [1] 1 1) 0 = false ∧
    (Taken 0 0x0220 [1] live).on Fld.GLB_MAP_CTRL_LOCKED = false ∧ (Taken 0 0x0220 [] live).retiredCount = 0 ∧
    badMask (zerosFrom [0, 3] 4 ++ (List.range 11).flatMap (fun k => leBytes 8 (maskReset k)) ++
      (List.range 6).flatMap (fun k => leBytes 8 (maskResetP k))) false 4 11 = none ∧
    badMask (zerosFrom [0, 3] 4 ++ (List.range 11).flatMap (fun k => leBytes 8 (maskReset k)) ++
      (List.range 6).flatMap (fun k => leBytes 8 (maskResetP k))) true 92 6 = none := by decide +kernel

/-- O11: the commands that set cadence, refresh, ECC and repair registers. -/
theorem witness_refresh_commands :
    acceptsB 0 0x0301 [2, 15, 0, 0] live = true ∧ acceptsB 0 0x0303 [3, 0, 0, 0, 0, 0, 0, 15] live = true ∧
    acceptsB 0 0x0310 [255, 15] live = true ∧ (pavsNamed (leAt [255, 15] 0 1)).isSome = true ∧ badWindow [255, 15] = none ∧
    acceptsB 0 0x0311 [4, 63, 0, 3] live = true ∧ acceptsB 0 0x0320 [31, 14, 3] live = true ∧
    (pavsNamed (leAt [31, 14, 3] 0 1)).isSome = true ∧ acceptsB 0 0x0402 [255, 15] live = true ∧
    acceptsB 0 0x0410 [2, 0, 0, 0] live = true ∧ acceptsB 0 0x0424 [31] live = true ∧
    (Taken 0 0x0424 [31] live).on (Fld.PAV_REPAIR_STAT_RETIRED 0) = false := by decide +kernel

/-- O12: the commands that set thermal, calibration, monitor and event registers. -/
theorem witness_monitor_commands :
    acceptsB 0 0x0602 [2] live = true ∧ acceptsB 0 0x0603 [] live = true ∧ (Taken 0 0x0603 [] live).halted = false ∧
    (let s := (live.wr Fld.THM_STAT_HALT 1).wr Fld.THM_STAT_BAND 1
     acceptsB 0 0x0603 [] s = true ∧ (Taken 0 0x0603 [] s).halted = true ∧ (Taken 0 0x0603 [] s).haltClearable = true) ∧
    acceptsB 0 0x0604 [4, 1] live = true ∧ acceptsB 0 0x0605 [7, 0, 255, 3, 255, 3, 0x10, 0x27, 0x70, 0x17] live = true ∧
    leAt [7, 0, 255, 3, 255, 3, 0x10, 0x27, 0x70, 0x17] 6 2 = 10000 ∧ leAt [7, 0, 255, 3, 255, 3, 0x10, 0x27, 0x70, 0x17] 8 2 = 6000 ∧
    acceptsB 0 0x0706 [1] live = true ∧ acceptsB 0 0x0801 [1] live = true ∧ unitMask [1] = .inr 1 ∧ acceptsB 0 0x0803 [1] live = true ∧
    acceptsB 0 0x0804 [0, 0, 7] live = true ∧ acceptsB 0 0x0C01 [0, 0, 0, 4, 3, 1, 0, 0, 0, 0, 15] live = true ∧
    leAt [0, 0, 0, 4, 3, 1, 0, 0, 0, 0, 15] 2 2 = 1024 ∧ acceptsB 0 0x0C04 [3] live = true := by decide +kernel

/-- The payload of an address. -/
def addr (a : Nat) : List Byte := leBytes 8 a

/-- O13: the commands that begin or end the work of an engine. -/
theorem witness_engine_commands :
    acceptsB 0 0x0423 (addr 0x40) live = true ∧ ((Taken 0 0x0423 (addr 0x40) live).locate (leAt (addr 0x40) 0 8)).isSome = true ∧
    (Taken 0 0x0423 (addr 0x40) live).on (Fld.PAV_REPAIR_STAT_RETIRED 0) = false ∧
    (let s := live.modPav 0 (fun v => { v with spared := [{ bank := 1, row := 2, spare := 0, runtime := true }] })
     let t := Taken 17 0x0422 [0] (s.wr (Fld.MBX_OWNER_SOURCE 17) 0)
     acceptsB 17 0x0422 [0] (s.wr (Fld.MBX_OWNER_SOURCE 17) 0) = true ∧ t.progCheck 17 [] false none = none ∧
       t.runtimeSpares 0 ≠ [] ∧ t.retiredEntries (fun q => q == 0) = [] ∧
       (((List.range 6144).filter (fun i => t.otp.rawAt (0x480 + i) == 0)).take (t.runtimeSpares 0).length).length =
         (t.runtimeSpares 0).length) ∧
    (let pl := addr 0 ++ addr 64 ++ addr 0xFF ++ [1]
     acceptsB 0 0x0D01 pl live = true ∧ (Taken 0 0x0D01 pl live).rangeBad (leAt pl 0 8) (leAt pl 8 8) = false ∧ leAt pl 24 1 = 1) ∧
    (let pl := addr 0 ++ addr 64 ++ addr 64
     let t := Taken 0 0x0D02 pl live
     acceptsB 0 0x0D02 pl live = true ∧ t.rangeBad (leAt pl 0 8) (leAt pl 16 8) = false ∧
       t.rangeBad (leAt pl 8 8) (leAt pl 16 8) = false ∧ leAt pl 0 8 + leAt pl 16 8 ≤ leAt pl 8 8) ∧
    acceptsB 0 0x0D04 [] live = true ∧ acceptsB 0 0x0502 [1] live = true ∧ (Taken 0 0x0502 [1] live).testRuns = false ∧
    (Taken 0 0x0502 [1] live).pavsClosed = false ∧ acceptsB 0 0x0503 [] live = true ∧ acceptsB 0 0x0504 (addr 0) live = true ∧
    ((Taken 0 0x0504 (addr 0) live).locate 0).isSome = true ∧
    (Taken 0 0x0504 (addr 0) live).on (Fld.PAV_BIST_STAT_SAVE_FAULT 0) = false ∧ (live.pav 0).rowTest = none ∧
    acceptsB 0 0x0510 [2] live = true ∧ acceptsB 0 0x0510 [255] live = true ∧ live.test.parkPolicy = 256 := by decide +kernel

/-- A tab of lanes of port 0 that are active. -/
def active : State := forUpto 8 (fun p a => a.wr (Fld.PRT_LANE_STAT_STATE 0 p) laActive) (linked.wr (Fld.PRT_CAL_STAT_STATE 0) 2)

/-- O13: the calibration commands. -/
theorem witness_calibration_commands :
    (let t := Taken 0 0x0702 [0] active
     acceptsB 0 0x0702 [0] active = true ∧ t.role 0 ≠ 2 ∧ t.portEnabled 0 = true ∧ (t.port 0).markedDown = false ∧
       t.testRuns = false ∧ t.workable? = true ∧ (t.port 0).retune = none ∧ (t.port 0).train.hasLink = true ∧ t.up 0 = true) ∧
    (let t := Taken 0 0x0703 [0, 255] active
     acceptsB 0 0x0703 [0, 255] active = true ∧ t.rd (Fld.PRT_CAL_STAT_SCANNING 0) = 0 ∧ t.role 0 ≠ 2 ∧ t.portEnabled 0 = true ∧
       t.testRuns = false ∧ t.workable? = true ∧
       (∀ p, p < 8 → bitAt (leAt [0, 255] 1 1) p = true → t.rd (Fld.PRT_LANE_STAT_STATE 0 p) = laActive) ∧
       t.rd (Fld.PRT_CAL_STAT_STATE 0) ≠ 0) ∧
    (let pl := [255, 255, 255, 255, 15]
     let t := Taken 0 0x0704 pl live
     acceptsB 0 0x0704 pl live = true ∧ t.testRuns = false ∧ t.workable? = true ∧ leAt pl 4 1 = 15 ∧
       (∀ p, p < 32 → bitAt (leAt pl 0 4) p = true → (t.pav p).tsv = none ∧ t.on (Fld.PAV_REPAIR_STAT_RETIRED p) = false)) ∧
    (let pl := [1, 0, 0, 0, 0xC0, 0xFE]
     acceptsB 0 0x0705 pl live = true ∧ signed (leAt pl 4 2) 16 = -320 ∧ leAt pl 0 4 = 1 ∧ live.therm.cal = none) ∧
    (signed (leAt [1, 0, 0, 0, 0xE8, 3] 4 2) 16 = 1000) ∧
    acceptsB 0 0x0707 [0, 15] live = true ∧ acceptsB 0 0x0707 [1, 31] live = true := by decide +kernel

/-- The stack in its certificate window. -/
def window : State := { live with power := { live.power with boot := .certWindow, doneAt := none } }

/-- O14: the commands that store bytes from outside. -/
theorem witness_loading_commands :
    (let pl := leBytes 4 20224 ++ leBytes 2 448
     acceptsB 0 0x0512 pl window = true ∧ (Taken 0 0x0512 pl window).certOpen = true ∧ leAt pl 0 4 + leAt pl 4 2 = 20672) ∧
    acceptsB 0 0x0513 [0, 0, 255] window = true ∧ leAt [0, 0, 255] 2 1 = 255 ∧ (Taken 0 0x0513 [0, 0, 255] window).certOpen = true ∧
    (let pl := leBytes 4 785984 ++ leBytes 2 448
     acceptsB 0 0x0A01 pl live = true ∧ live.switch = none ∧ leAt pl 0 4 + leAt pl 4 2 = 786432) ∧
    (let t := Taken 0 0x0A02 [1] live
     acceptsB 0 0x0A02 [1] live = true ∧ t.testRuns = false ∧ t.otpBusy = false ∧ t.switch = none ∧
       (∀ k, k < 18 → k ≠ 0 → t.rd (Fld.MBX_STAT_STATE k) ≠ mbRunning ∧ t.rd (Fld.MBX_STAT_STATE k) ≠ mbAborting)) ∧
    (let pl := [0, 0, 0, 0, 0, 0, 12, 0]
     acceptsB 0 0x0A02 pl live = true ∧ 1 ≤ leAt pl 4 4 ∧ leAt pl 4 4 ≤ 786432) ∧
    (let pl := [31, 63, 0, 0x7F, 0, 1]
     acceptsB 17 0x0520 pl shop = true ∧ leAt pl 2 2 + leAt pl 4 2 ≤ 32768 ∧ (Taken 17 0x0520 pl shop).pavsClosed = false) ∧
    acceptsB 17 0x0522 [31, 63, 0x3F, 0x80, 31] shop = true ∧ rawBad [31, 63, 0x3F, 0x80, 31] = none := by decide +kernel

/-- O15: the commands that program fuses. -/
theorem witness_otp_commands :
    (let pl := [1, 0, 0, 0, 0, 0x08]
     acceptsB 17 0x0902 pl shop = true ∧ (Taken 17 0x0902 pl shop).progCheck 17
       ((List.range (leAt pl 0 1)).map (fun i => (leAt pl (4 + 8 * i) 2, 4 + 8 * i))) false none = none) ∧
    (let s := { shop with otp := { shop.otp with latched := [(headerWord 0 0, 1), (headerWord 0 1, crc32 (zeros 4))] } }
     let t := Taken 17 0x0903 [0] s
     acceptsB 17 0x0903 [0] s = true ∧ t.progCheck 17 [] true (some 0) = none ∧ headerOk t.otpWordNow 0 = true) ∧
    (let t := Taken 17 0x0904 [4] shop
     acceptsB 17 0x0904 [4] shop = true ∧ t.progCheck 17 [] true (some 4) = none) ∧
    (let s := { shop with otp := { shop.otp with margs := [(3, 511)], df0 := 1#512 <<< 511, df1 := 1#512 <<< 511 } }
     let pl := [255, 1, 1]
     acceptsB 17 0x0905 pl s = true ∧ leAt pl 0 2 = 511 ∧ (Taken 17 0x0905 pl s).otpBusy = false ∧
       (Taken 17 0x0905 pl s).halted = false ∧ s.otp.supply = true ∧
       s.otp.margs.contains (3, leAt pl 0 2) = true ∧ s.otp.dfNow.getLsbD 511 = true) := by decide +kernel

/-- A stack whose device key is there. -/
def keyed : State := { live with otp := { live.otp with latSecretOk := true, latSecretBlank := false } }

/-- O15: the commands that sign, open workshop mode and change the power state. -/
theorem witness_secure_commands :
    acceptsB 0 0x0A10 [] keyed = true ∧ (Taken 0 0x0A10 [] keyed).keyLost = false ∧ acceptsB 0 0x0A11 (zeros 32) keyed = true ∧
    (zeros 32).length = 32 ∧
    (let pl := zeros 32 ++ [3]
     acceptsB 17 0x0A12 pl shop = true ∧ leAt pl 32 4 = 3 ∧ (Taken 17 0x0A12 pl shop).progCheck 17
       (((List.range 10).map (fun i => 0x450 + i) ++ [0x466, 0x467]).map (fun w => (w, 0))) false none = none) ∧
    acceptsB 0 0x0A20 [] live = true ∧ (Taken 0 0x0A20 [] live).on Fld.GLB_SEC_STAT_WORKSHOP = false ∧
    (Taken 0 0x0A20 [] live).on Fld.GLB_SEC_STAT_PROVISIONED = false ∧ leAt [160] 0 2 = 160 ∧ acceptsB 0 0x0A20 [160] live = true ∧
    acceptsB 17 0x0A21 [] shop = true ∧ (Taken 17 0x0A21 [] shop).on Fld.OTP_STAT_KEY_MARGINAL = false ∧
    acceptsB 0 0x0B01 [3] live = true ∧ live.power.trans = .none_ ∧ live.power.shut = none ∧
    (Taken 0 0x0B01 [3] live).on Fld.GLB_PWR_STAT_SHUT = false ∧ acceptsB 0 0x0B03 [1, 255] live = true ∧
    live.test.parkPolicy = 256 ∧ (Taken 0 0x0B03 [1, 255] live).power? < 2 := by decide +kernel

/-- O16, O17, O18: a field of each access type, an offset at no register, and a row of each kind. -/
theorem witness_registers :
    (∀ a ∈ [Access.rw, .rws, .w1c, .ro, .rc, .wo], (regTable.any (fun r => r.fields.any (fun f => f.acc == a))) = true) ∧
    regAt 0x0FFC = none ∧ regAt 0x5000 = none ∧ regAt 0xFFFFC = none ∧ servesB live = true ∧
    writeRow (.registerWrite 0x4000 0 15 0) = some (0, 0x4000, 15, 0) ∧ readRow (.thmPeakRead 0) = some (0, Off.THM_PEAK) ∧
    reachesB live 0 0x4000 15 = true ∧ reachesB live 0 0x10004 15 = true := by decide +kernel

/-- O19: a write that is denied, and counters that a read clears. -/
theorem witness_denied :
    (match regAt 0x4000 with | some row => coversRws row.fields (beBits 15) && !live.steward 1 | none => false) = true ∧
    (match regAt Off.GLB_STEWARD with | some row => coversRws row.fields (beBits 15) | none => false) = true ∧
    (match regAt (Off.MBX_CNT 0) with | some row => decide (rcBits row.fields ≠ 0) | none => false) = true ∧
    servesB live = true := by decide +kernel

/-- O20: the writes of port registers, a change that waits, and a port whose role changes. -/
theorem witness_port_writes :
    live.portEnabled 15 = true ∧ (∀ p < 8, reachesB live 0 (Off.PRT_LANE_CTRL 15 p) 15 = true) ∧
    (∀ off ∈ [Off.PRT_PRBS_CTRL 15, Off.PRT_INJ_CTRL 15, Off.PRT_LINK_CTRL 15, Off.PRT_POOL_CTRL 15],
      reachesB live 0 off 15 = true) ∧ live.poolOn = true ∧ (live.wr Fld.GLB_FEATURES_POOL 0).poolOn = false ∧
    (let s := live.modPort 0 (fun p => { p with delayed := [⟨.widen, some (.cmp 4), none⟩, ⟨.retrain, none, some 5⟩] })
     (s.port 0).delayed = [⟨.widen, some (.cmp 4), none⟩] ++ ⟨.retrain, none, some 5⟩ :: []) ∧
    live.role 0 ≠ 1 ∧ live.role 0 ≠ 2 ∧
    (let s := live.wr (Fld.PRT_POOL_CTRL_ROLE 15) 2
     s.role 15 = 2 ∧ (∀ p < 8, (linkDown 15 11 (s.wr (Fld.PRT_POOL_CTRL_ROLE 15) 0)).rd (Fld.PRT_LANE_CTRL_TEST_STATE 15 p) = 0)) := by
  decide +kernel

/-- O21: the writes of pool and map registers, with the map open and locked, and masks that are legal and not. -/
theorem witness_map_writes :
    live.steward 0 = true ∧ live.on Fld.GLB_MAP_CTRL_LOCKED = false ∧
    (∀ off ∈ [Off.GLB_POOL_WINDOW, Off.GLB_MAP_CTRL, Off.GLB_SP_LO 31, Off.GLB_SP_HI 31, Off.GLB_MAP_I_LO 10, Off.GLB_MAP_I_HI 10,
      Off.GLB_MAP_P_LO 5, Off.GLB_MAP_P_HI 5], reachesB live 0 off 15 = true) ∧
    (let s := live.wr Fld.GLB_MAP_CTRL_LOCKED 1
     s.steward 0 = true ∧ reachesB s 0 Off.GLB_POOL_WINDOW 15 = true ∧ reachesB s 0 Off.GLB_MAP_CTRL 15 = true) ∧
    signpostLegal 0 = true ∧ signpostLegal (1 + 2 ^ 16) = false ∧
    maskILegal 0 (maskReset 0) = true ∧ maskILegal 0 0 = false ∧ maskPLegal 5 (maskResetP 5) = true ∧ maskPLegal 5 0 = false := by
  decide +kernel

/-- O21: the writes of the registers of management, cadence, thermal, calibration and reset logic. -/
theorem witness_control_writes :
    live.steward 0 = true ∧ live.on Fld.GLB_STEWARD_LOCK = false ∧
    (∀ off ∈ [Off.GLB_STEWARD, Off.GLB_FW_CTRL, Off.GLB_CAL_CTRL, Off.GLB_RST_PORT, Off.GLB_RST_PAV, Off.CAD_CTRL, Off.THM_CTRL,
      Off.THM_HALT], reachesB live 0 off 15 = true) ∧ (putSteward 1 false live).isSome = true ∧ putSteward 0 false live = none ∧
    (let s := live.wr Fld.GLB_STEWARD_LOCK 1
     reachesB s 0 Off.GLB_STEWARD 15 = true ∧ s.on Fld.GLB_STEWARD_LOCK = true) := by decide +kernel

/-- O22: the bits that are written 1 and act, from the writer's own port and from another; a link that is up, and one write of each
row for each of its clauses. -/
theorem witness_rows_complete :
    (∀ e ∈ [(Off.PRT_PRBS_CTRL 15, 13), (Off.PRT_LINK_CTRL 15, 3), (Off.PRT_LINK_CTRL 15, 4), (Off.PRT_LINK_CTRL 0, 4), (Off.GLB_FW_CTRL, 31),
      (Off.GLB_RST_PORT, 0), (Off.GLB_RST_PORT, 15), (Off.GLB_RST_PAV, 31), (Off.THM_HALT, 31)], reachesB live 0 e.1 15 = true ∧
      (match regAt e.1 with | some row => (Ones live 0 row 15 (1#32 <<< e.2)).getLsbD e.2 | none => false) = true) ∧
    (∀ p < 8, reachesB live 0 (Off.PRT_LANE_CTRL 0 p) 15 = true) ∧ reachesB live 0 (Off.PRT_POOL_CTRL 0) 15 = true ∧
    (let s := live.setLink 15 lsUp
     s.up 15 = true ∧ reachesB s 0 (Off.PRT_LINK_CTRL 15) 15 = true) ∧ live.portEnabled 0 = true ∧
    live.sourceEnabled 0 = true ∧ live.stewardCan.testBit 0 = true ∧
    (let s := (live.wr Fld.THM_STAT_HALT 1).wr Fld.THM_STAT_BAND 1
     s.haltClearable = true ∧ reachesB s 0 Off.THM_HALT 15 = true) ∧ live.haltClearable = false ∧ linked.up 0 = true := by
  decide +kernel

/-- O23: the writes of event, monitor and ECC registers, and the reads that have an effect of their own. -/
theorem witness_event_writes :
    (∀ off ∈ [Off.EVT_ROUTE, Off.EVT_SEEN 31, Off.MON_CTRL 47, Off.PAV_ECC_CTRL 31], reachesB live 0 off 15 = true) ∧
    ((regAt (Off.EVT_SEEN 31)).map (fun r => r.fields) = some [⟨31, 0, .w1c, 0⟩]) ∧
    (∀ off ∈ [Off.CAD_NOW_LO, Off.MON_LVL_SUM_LO 47, Off.MON_SUM_LO 47, Off.PAV_BIST_FAIL_1 31, Off.PAV_ECC_LOG_3 31,
      Off.PRT_LANE_PRBS_BITS_LO 15 7], (regAt off).map (fun r => rcBits r.fields) = some 0) ∧
    ((regAt Off.THM_PEAK).map (fun r => rcBits r.fields) = some 0xFFFFFFFF) ∧
    (let s := (((live.wr (Fld.PRT_LANE_STAT_STATE 15 7) laPrbs).wr (Fld.PRT_PRBS_CTRL_CHK_EN 15) 1).wr
        (Fld.PRT_PRBS_CTRL_LANE_MASK 15) 128).wr (Fld.PRT_LANE_STAT_PRBS_LOCK 15 7) 1
     s.checkerRuns 15 7 = true ∧ s.on (Fld.PRT_LANE_STAT_PRBS_LOCK 15 7) = true ∧ servesB s = true) := by decide +kernel

/-- Port 0 in a link state, with all lanes active, able to time out, whether or not it holds a link. -/
def port0 (st : Nat) (held : Bool) : State :=
  ((forUpto 8 (fun p a => (a.wr (Fld.PRT_LANE_STAT_STATE 0 p) laActive).wr (Fld.PRT_LANE_STAT_USABLE 0 p) 1)
    (linked.wr (Fld.PRT_PHY_STAT_ACTIVE 0) 0xFF)).setLink 0 st).modTrain 0 (fun t => { t with
      deadline := some 5
      hasLink := held
      fallbackAt := some 5
      recovEnd := some 5
      fullAt := some 5
      retryAt := some 5 })

/-- The first `k` bits of a pattern from its seed. -/
def prbsBits (poly k : Nat) : List Bool := (List.range k).map (prbsOut poly)

/-- O24: lanes that run, check, inject, lose lock, and leave coast and parked. -/
theorem witness_lanes :
    (let s := ((port0 lsUp true).wr (Fld.PRT_PHY_STAT_PLL_LOCK 0) 1)
     s.laneRuns 0 7 = true ∧ s.rd (Fld.PRT_LANE_STAT_STATE 0 7) = laActive ∧ (s.lane 0 7).cdrLosses = [] ∧ (s.lane 0 7).scan = none ∧
       s.windowEnd 0 7 = none ∧ s.rd (Fld.PRT_LANE_STAT_HEALTH 0 7) ≠ 2 ∧
       (let u := s.modLane 0 7 (fun l => { l with winFrom := some 0, winLeft := 2 ^ 20 })
        u.windowEnd 0 7 = some (u.bitTicks 0 (2 ^ 20)) ∧ u.rd (Fld.PRT_LANE_STAT_STATE 0 7) = laActive ∧ (u.lane 0 7).scan = none) ∧ s.on (Fld.PRT_PHY_STAT_PLL_LOCK 0) = true) ∧
    (let s := (((live.wr (Fld.PRT_LANE_STAT_STATE 0 7) laPrbs).wr (Fld.PRT_PRBS_CTRL_CHK_EN 0) 1).wr
        (Fld.PRT_PRBS_CTRL_LANE_MASK 0) 128).wr (Fld.PRT_LANE_STAT_PRBS_LOCK 0 7) 1
     let u := s.modLane 0 7 (fun l => { l with prbsFrom := some 0 })
     u.checkerRuns 0 7 = true ∧ u.on (Fld.PRT_LANE_STAT_PRBS_LOCK 0 7) = true ∧ (u.lane 0 7).prbsFrom = some 0) ∧
    (let s := ((live.wr (Fld.PRT_LANE_STAT_STATE 0 7) laPrbs).wr (Fld.PRT_PRBS_CTRL_CHK_EN 0) 1).wr (Fld.PRT_PRBS_CTRL_LANE_MASK 0) 128
     s.checkerRuns 0 7 = true ∧ s.rd (Fld.PRT_LANE_STAT_PRBS_LOCK 0 7) = 0 ∧
       (∀ poly < 4, prbsDegree poly + 64 ≤ 95 ∧ (prbsCompare poly (prbsLoad poly (prbsBits poly 95))
         (((prbsBits poly 95).drop (prbsDegree poly)).take 64)).1 = 0)) ∧
    (let s := (((port0 lsUp true).wr (Fld.PRT_INJ_CTRL_MODE 0) 2).wr (Fld.PRT_INJ_CTRL_LANE_MASK 0) 128).modLane 0 7 (fun l =>
       { l with injAt := some 5 })
     s.rd (Fld.PRT_INJ_CTRL_MODE 0) = 2 ∧ s.injects 0 7 = true ∧ (s.lane 0 7).injAt = some 5) ∧
    (let s := live.modPort 0 (fun q => { q with pllLost := true })
     (s.port 0).pllLost = true) ∧
    (let s := (port0 lsCoast true).wr (Fld.PRT_LANE_STAT_STATE 0 7) laCoast
     s.link 0 = lsCoast ∧ bitAt (s.active 0) 7 = true ∧ s.rd (Fld.PRT_LANE_STAT_STATE 0 7) = laCoast ∧
       (∀ k, k < 8 → k ≠ 7 → bitAt (s.active 0) k = true → s.rd (Fld.PRT_LANE_STAT_STATE 0 k) ≠ laCoast)) ∧
    (let s := (port0 lsParked true).modLane 0 7 (fun l => { l with exitDeadline := some 5, exitParked := true })
     s.link 0 = lsParked ∧ bitAt (s.active 0) 7 = true ∧ (s.lane 0 7).exitDeadline = some 5 ∧ (s.lane 0 7).exitParked = true) ∧
    (let s := (port0 lsCoast true).modLane 0 7 (fun l => { l with exitDeadline := some 5 })
     (s.lane 0 7).exitDeadline = some 5 ∧ (s.lane 0 7).exitParked = false) := by decide +kernel

/-- An ordered set from a host's partner. -/
def set0 : OrderedSet :=
  { rates := 31, rate := 4, seen := true, recov := true, x1 := false, full := false, preset := 0, presetV := false,
    usable := 255, kind := 0, expect := 1, attempt := 1 }

/-- Port 0 in a link state with its lanes in training. -/
def training0 (st : Nat) : State := forUpto 8 (fun p a => a.wr (Fld.PRT_LANE_STAT_STATE 0 p) laTraining) (port0 st false)

/-- O25: the bytes of each ordered set, plain and inverted, and bytes that spell none; a port in each state in which a set or the end
of a measurement acts. -/
theorem witness_ordered_sets :
    (∀ ty ∈ [osTs1, osTs2, osEios, osExit, osSds], osRead ty (osBytes ty 7 set0) = some (false, set0) ∧
      osRead ty ((osBytes ty 7 set0).map (fun b => ~~~b)) = some (true, set0) ∧ osRead ty (zeros 16) = none) ∧
    (training0 lsLock).link 0 = lsLock ∧ (training0 lsLock).rd (Fld.PRT_LANE_STAT_STATE 0 7) = laTraining ∧
    (let s := ((live.wr (Fld.PRT_LANE_STAT_STATE 0 7) laLoop).wr (Fld.PRT_LANE_CTRL_TEST_STATE 0 7) 1)
     s.rd (Fld.PRT_LANE_STAT_STATE 0 7) = laLoop ∧ s.rd (Fld.PRT_LANE_CTRL_TEST_STATE 0 7) = 1) ∧
    (let s := (port0 lsUp true).modTrain 0 (fun t => { t with got1 := 0x7F })
     s.link 0 = lsUp ∧ s.rd (Fld.PRT_LANE_STAT_STATE 0 7) = laActive ∧ set0.recov = true ∧ bitAt (s.active 0) 7 = true ∧
       set0.full = false ∧ (s.port 0).train.full = false ∧ covers (addPos (s.port 0).train.got1 7).toNat (s.active 0) = true) ∧
    (let s := training0 lsConfig
     s.link 0 = lsConfig ∧ s.rd (Fld.PRT_LANE_STAT_STATE 0 7) = laTraining ∧ set0.kind.toNat = s.role 0 ∧ set0.expect = 1 ∧
       set0.seen = true ∧ s.on (Fld.PRT_LANE_STAT_USABLE 0 7) = true ∧ ({ set0 with kind := 1 } : OrderedSet).kind.toNat ≠ s.role 0) ∧
    (let s := port0 lsUp true
     s.link 0 = lsUp ∧ s.rd (Fld.PRT_LANE_STAT_STATE 0 7) = laActive ∧ bitAt (s.active 0) 7 = true) ∧
    (let s := (port0 lsCoast true).modPort 0 (fun p => { p with enteredAt := some 1000000 })
     s.justEntered 0 = true ∧ bitAt (s.active 0) 7 = true) ∧
    (let s := port0 lsCoast true
     s.justEntered 0 = false ∧ s.link 0 = lsCoast ∧ s.rd (Fld.PRT_LANE_STAT_STATE 0 7) = laActive ∧ bitAt (s.active 0) 7 = true ∧
       (s.wr (Fld.PRT_LANE_STAT_STATE 0 7) laCoast).justEntered 0 = false) ∧
    (training0 lsStart).link 0 = lsStart ∧ (training0 lsStart).rd (Fld.PRT_LANE_STAT_STATE 0 7) = laTraining ∧
    bitAt ((training0 lsStart).active 0) 7 = true ∧
    (let s := (training0 lsRate).modTrain 0 (fun t => { t with relock := true })
     s.link 0 = lsRate ∧ (s.port 0).train.relock = true ∧ bitAt (s.active 0) 7 = true ∧ (s.lane 0 7).presetsDone = false) ∧
    (let s := (training0 lsRate).modLane 0 7 (fun l => { l with presetEnd := some 5 })
     s.link 0 = lsRate ∧ (s.port 0).train.relock = false ∧ bitAt (s.active 0) 7 = true ∧ (s.lane 0 7).presetsDone = false ∧
       (s.lane 0 7).presetEnd = some 5 ∧ (s.lane 0 7).presetNow < 7) ∧
    (let s := (training0 lsRate).modLane 0 7 (fun l => { l with presetNow := 7, presetBest := some (2, 9), presetEnd := some 5 })
     s.link 0 = lsRate ∧ (s.port 0).train.relock = false ∧ (s.lane 0 7).presetNow = 7 ∧ (s.lane 0 7).presetEnd = some 5 ∧
       (s.lane 0 7).presetsDone = false) := by decide +kernel

/-- O26: a port in each state that times out, one that may train and one that may not. -/
theorem witness_training :
    (∀ st ∈ [lsLock, lsConfig, lsRate, lsVerify, lsStart, lsRecovery],
      (port0 st false).link 0 = st ∧ ((port0 st false).port 0).train.deadline = some 5) ∧
    (let t := ((port0 lsRecovery false).port 0).train
     t.retryAt = some 5 ∧ t.hasLink = false ∧ t.fallbackAt = some 5 ∧ t.recovEnd = some 5 ∧ t.fullAt = some 5) ∧
    live.mayTrain 15 = true ∧ State.reset.mayTrain 15 = false ∧ ((port0 lsUp true).port 0).train.hasLink = true := by decide +kernel

/-- A CONTROL flit with one CREDIT slot, and its number. -/
def flit0 (seq : BitVec 10) (type : BitVec 3) : Flit :=
  { type := type, seq := seq, ackP := false, slots := encCredit ⟨1, 1, 1, false, 0⟩ :: List.replicate 6 0, data := none }

set_option maxRecDepth 100000 in
/-- O27: flits that are sound, corrupt and illegal, ahead of the expected number and behind it. -/
theorem witness_flits :
    linked.up 0 = true ∧ (flitBytes (flit0 0 2)).length = 80 ∧ flitCrcOk (flitBytes (flit0 0 2)) = true ∧ flitOf (flitBytes (flit0 0 2)) = flit0 0 2 ∧
    flitProtoBad (flit0 0 2) = false ∧ flitCrcOk (zeros 80) = false ∧
    (let f : Flit := { flit0 0 2 with slots := List.replicate 7 0x3F }
     flitProtoBad f = true ∧ flitOf (flitBytes f) = f ∧ flitCrcOk (flitBytes f) = true) ∧
    (let f : Flit := ⟨3, 5, false, [], none⟩
     flitProtoBad f = false ∧ f.type.toNat = ftReplay ∧ flitOf (flitBytes f) = f ∧ flitCrcOk (flitBytes f) = true) ∧
    (let s := port0 lsUp true
     (∀ p < 8, bitAt (s.active 0) p = true → (s.lane 0 p).slipped = false ∧ s.on (Fld.PRT_LANE_STAT_RX_INV 0 p) = false) ∧
       (positions (s.active 0)).length = 8 ∧ bitAt (s.active 0) 7 = true ∧
       ((s.modLane 0 7 (fun l => { l with slipped := true })).lane 0 7).slipped = true) ∧
    (flit0 0 2).seq.toNat = linked.expect 0 ∧ (flit0 511 2).seq.toNat = (linked.expect 0 + 511) % 1024 ∧
    ((flit0 512 2).seq.toNat + 512) % 1024 = linked.expect 0 ∧ (linked.port 0).retry.unacked = 0 ∧
    (linked.port 0).retry.ackAt = none := by decide +kernel

/-- Port 0 with three flits held, numbers 1022, 1023 and 0, and its timers running. -/
def holding : State :=
  ((linked.wr (Fld.PRT_LINK_SEQ_TX_OLDEST 0) 1022).wr (Fld.PRT_LINK_SEQ_TX_NEXT 0) 1).modRetry 0 (fun r => { r with
    held := [flit0 1022 2, flit0 1023 2, flit0 0 2]
    replayAt := some 5
    ackAt := some 5
    askAgainAt := some 5
    sameAsk := some (0, 1) })

/-- O28: ACK and REPLAY within what was sent, before it, and beyond it; the timers before and at their limits. -/
theorem witness_held_flits :
    holding.up 0 = true ∧ (holding.port 0).msgs = [] ∧ (holding.port 0).turnDue = none ∧ (holding.port 0).powerAsk = none ∧ (holding.port 0).shake = .idle ∧
    (∀ k < 12, tabGet 0 (holding.port 0).credit.ret k < 8) ∧ (∀ tc < 4, tabGet none (holding.port 0).credit.retAt tc = none) ∧
    (∀ seq ∈ [1022, 1023, 0], let w := (seq + 1024 - holding.txOldest 0 + 1) % 1024
      0 < w ∧ w ≤ (holding.txNext 0 + 1024 - holding.txOldest 0) % 1024) ∧
    (1021 + 1024 - holding.txOldest 0 + 1) % 1024 = 0 ∧
    (holding.txNext 0 + 1024 - holding.txOldest 0) % 1024 < (1 + 1024 - holding.txOldest 0 + 1) % 1024 ∧
    (holding.port 0).retry.ackAt = some 5 ∧ (holding.port 0).retry.replayAt = some 5 ∧
    (0 + 1024 - holding.txOldest 0) % 1024 < (holding.txNext 0 + 1024 - holding.txOldest 0) % 1024 ∧
    (holding.port 0).retry.rxTimes.length < holding.rd (Fld.PRT_LINK_CTRL_REPLAY_LIMIT 0) ∧
    (holding.txNext 0 + 1024 - holding.txOldest 0) % 1024 < (2 + 1024 - holding.txOldest 0) % 1024 ∧
    (holding.port 0).retry.expiries < 3 ∧ ((holding.modRetry 0 (fun r => { r with expiries := 3 })).port 0).retry.expiries = 3 ∧
    (holding.port 0).retry.askAgainAt = some 5 ∧ (holding.port 0).retry.sameAsk = some (BitVec.ofNat 10 (holding.expect 0), 1) ∧
    (let s := holding.modRetry 0 (fun r => { r with sameAsk := some (0, 3) })
     (s.port 0).retry.sameAsk = some (BitVec.ofNat 10 (s.expect 0), 3)) := by decide +kernel

/-- O29: a class before and after its INIT, credits to return, and a pool that has stalled. -/
theorem witness_credits :
    linked.up 0 = true ∧ (linked.port 0).credit.inited.getLsbD 3 = true ∧ ((live.setLink 0 lsUp).port 0).credit.inited.getLsbD 3 = false ∧
    (∀ k < 3, tabGet 0 (linked.port 0).credit.grant (4 * k + 3) < 1024) ∧
    (let s := linked.modPort 0 (fun p => { p with credit := { p.credit with
        ret := [(0, 3), (7, 2)], retAt := [(3, some 5)], stall := [(11, some 5)] } })
     tabGet none (s.port 0).credit.retAt 3 = some 5 ∧ s.canSend 0 = true ∧
       0 < tabGet 0 (s.port 0).credit.ret 3 + tabGet 0 (s.port 0).credit.ret 7 + tabGet 0 (s.port 0).credit.ret 11 ∧
       tabGet none (s.port 0).credit.stall 11 = some 5 ∧ (s.port 0).credit.stalled.getLsbD 11 = false) := by decide +kernel

/-- O30: the cases of the power handshake. -/
theorem witness_power_handshake :
    linked.up 0 = true ∧ linked.canSend 0 = true ∧ linked.isCadPort 0 = false ∧
    (let s := linked.modTrain 0 (fun t => { t with awaitNull := true })
     s.up 0 = true ∧ s.hasRoom 0 = false) ∧ (linked.port 0).exitSeen = none ∧ (∀ target < 2, (BitVec.ofNat 2 target).toNat < 2) ∧
    (let s := (port0 lsParked true).modPort 0 (fun p => { p with enteredAt := some 1000000 })
     s.power? < psHold ∧ s.link 0 = lsParked ∧ s.justEntered 0 = true) ∧ (port0 lsParked true).justEntered 0 = false ∧
    (∀ parked, let s := linked.modPort 0 (fun p => { p with shake := .agreed parked, exitSeen := some linked.now })
      (s.port 0).shake = .agreed parked ∧ (s.port 0).retry.held = [] ∧ (s.port 0).exitSeen = some s.now) ∧
    ((linked.wr Fld.CAD_CTRL_SRC 2).wr Fld.CAD_CTRL_PORT 0).isCadPort 0 = true ∧
    (∀ parked, let s := linked.modPort 0 (fun p => { p with shake := .asked parked })
      s.up 0 = true ∧ (s.port 0).shake = .asked parked) ∧
    (∀ parked, let s := linked.modPort 0 (fun p => { p with shake := .agreed parked })
      (s.port 0).shake = .agreed parked ∧ (s.port 0).retry.held = []) ∧
    (let s := linked.wr Fld.GLB_PWR_STAT_STATE psRest
     s.rd Fld.GLB_PWR_STAT_STATE = psRest ∧ s.canSend 0 = true ∧ s.rd (Fld.PRT_LINK_CTRL_COAST_IDLE 0) ≠ 15) ∧
    (let s := { (linked.modPort 0 (fun p => { p with shakeDeadline := some 5 })) with
       power := { linked.power with trans := .enter false 0 1 0 } }
     s.power.trans = .enter false 0 1 0 ∧ (s.port 0).shakeDeadline = some 5 ∧ (1 : BitVec 16).getLsbD 0 = true ∧
       (0 : BitVec 16).getLsbD 0 = false ∧ s.power.shut = none ∧ s.test.parkRun = false) ∧
    (let s := linked.wr Fld.GLB_PWR_STAT_STATE psHold
     s.power? = psHold ∧ s.role 0 = 0 ∧ s.portEnabled 0 = true) ∧
    (let s := port0 lsParked true
     s.power? < psHold ∧ s.link 0 = lsParked ∧ (s.port 0).train.hasLink = true ∧ (∀ p < 8, (s.lane 0 p).exitDeadline = none)) := by
  decide +kernel

/-- O31: TURN slots on the cadence's port and on another, and a RETRAIN. -/
theorem witness_turn_slots :
    (let s := (linked.wr Fld.CAD_CTRL_SRC 2).wr Fld.CAD_CTRL_PORT 0
     s.up 0 = true ∧ s.isCadPort 0 = true ∧ (0xFFE : BitVec 12) ≠ 0xFFF ∧ (s.port 0).retry.noMarkerUntil ≤ s.now) ∧
    linked.isCadPort 0 = false ∧ linked.rd (Fld.PRT_CAL_STAT_SCANNING 0) = 0 := by decide +kernel

/-- A request of one line at address 0, in class 0. -/
def mem0 : MemReq := { lcount := 0, src := 0, hop := 0, panic := false, hint := 0, tc := 0, line := 0, tag := 7 }

/-- The transaction of a request slot of port 0. -/
def txn0 (slot : BitVec 80) (owed : Nat) : Txn :=
  { serial := 0, slot := slot, owed := owed, data := [], refused := none, panic := false, dispatched := false, handed := 0, done := 0,
    poisoned := false, back := [], runMax := 1, answered := 0, holdsTag := true, rid := 9, aged := false, forwarded := none, dead := false, at_ := 0,
    measured := false }

/-- O34: rows of each kind, with the credits held and without. -/
theorem witness_transactions :
    txnRow (.rd 0 mem0) = some (0, encMem 0x01 mem0, []) ∧ txnRow (.wr 0 mem0 [lineZero, lineZero]) =
      some (0, encMem 0x02 mem0, [lineZero, lineZero]) ∧ linked.up 0 = true ∧
    (Heard 0 linked).creditsHeld 0 (linked.flitCredits 0 [encMem 0x01 mem0] false) = true ∧
    (Heard 0 linked).creditsHeld 0 (linked.flitCredits 0 [encMem 0x02 mem0] true) = true ∧
    (let s := live.setLink 0 lsUp
     s.up 0 = true ∧ (Heard 0 s).creditsHeld 0 (s.flitCredits 0 [encMem 0x01 mem0] false) = false) ∧
    slotOp (encMem 0x01 mem0) < 0x20 ∧ 0x20 ≤ slotOp (encRsp 0x21 ⟨0, 0, 0, 0, 7, 0⟩) := by decide +kernel

/-- A peer's window on port 1, up, and a signpost to it. -/
def pooled : State :=
  let s := ((linked.wr (Fld.PRT_POOL_CTRL_ROLE 1) 1).setLink 1 lsUp).modTrain 1 (fun t => { t with hasLink := true })
  (s.setReg (Off.GLB_SP_LO 0) 5).setReg (Off.GLB_SP_HI 0) 0x80000001

/-- O35, O36: requests that are served, forwarded and refused; messages; and data slots with each kind of owner. -/
theorem witness_requests :
    linked.check 0 (encMem 0x01 mem0) false = .serve ∧ slotOp (encMem 0x01 mem0) < 0x20 ∧ slotOp (encMem 0x01 mem0) ≠ 0x1C ∧
    slotOp (encMem 0x01 mem0) ≠ 0x14 ∧ asTaken linked 0 (encMem 0x01 mem0) = encMem 0x01 mem0 ∧
    tagHeld linked 0 (encMem 0x01 mem0) = false ∧
    (match pooled.check 0 (encMem 0x01 { mem0 with line := 5 * 2 ^ 31 }) false with | .forward _ _ => true | _ => false) = true ∧
    (match linked.check 0 (encMem 0x01 { mem0 with tc := 3 }) false with | .refuse st _ => st == stMalformed | _ => false) = true ∧
    reqOwns (encMem 0x01 mem0) = 0 ∧ reqOwns (encMem 0x02 mem0) = 1 ∧
    (match linked.check 0 (encMem 0x02 { mem0 with tc := 3 }) false with | .refuse _ _ => true | _ => false) = true ∧
    linked.role 0 = 0 ∧ (linked.port 0).owedQ = [] ∧
    (let s := linked.modPort 0 (fun p => { p with txns := [txn0 (encMem 0x02 mem0) 1], owedQ := [⟨.txn 0, 0⟩] })
     (s.port 0).owedQ = [⟨.txn 0, 0⟩] ∧ s.txn? 0 0 = some (txn0 (encMem 0x02 mem0) 1)) ∧
    ((linked.modPort 0 (fun p => { p with owedQ := [⟨.none_, 0⟩] })).port 0).owedQ = [⟨.none_, 0⟩] ∧
    reqMemory (slotOp (encMem 0x01 mem0)) = true ∧ reqMemory 0x18 = false ∧ reqDefined 0x18 = true := by decide +kernel

/-- A CMP that is ready on port 0, and an RD_DATA with its data slot. -/
def ready0 (data : List Line) : State :=
  linked.modPort 0 (fun p => { p with txns := [txn0 (encMem 0x01 mem0) 0],
                                      ready := [⟨0x20, ⟨0, 0, 0, 0, 7, 0⟩, data, 0, true, none⟩] })

/-- A line of port 0's request that waits for pavilion 0. -/
def wait0 : LineReq :=
  { id := 1, owner := .port 0 0, agent := 0, loc := { pav := 0, bank := 0, row := 3, col := 0 }, idx := 0, op := .read, tc := 0,
    panic := false, hint := 0, since := 0, promoted := false, stalled := false }

/-- O37: responses that may go, forwarded requests and contexts that wait, and lines at a pavilion's arbiter. -/
theorem witness_responses :
    (ready0 []).canSend 0 = true ∧ (ready0 []).pickRsp 0 = some ⟨0x20, ⟨0, 0, 0, 0, 7, 0⟩, [], 0, true, none⟩ ∧ ((ready0 []).port 0).txData = [] ∧
    (ready0 [lineZero]).pickRsp 0 = some ⟨0x20, ⟨0, 0, 0, 0, 7, 0⟩, [lineZero], 0, true, none⟩ ∧
    (let s := pooled.modPort 1 (fun p => { p with
       fwd := [⟨1, 0, encMem 0x01 mem0, [], 0, some 5⟩]
       ctxs := [⟨4095, 0, 0, 7, 0, 0, 0, 1, 0, false⟩] })
     (s.port 1).fwd.find? (fun w => w.starved.isSome) = some ⟨1, 0, encMem 0x01 mem0, [], 0, some 5⟩ ∧ s.rd (Fld.PRT_POOL_CTRL_HOLD_TO 1) ≠ 15 ∧
       (s.port 1).ctxs.find? (fun c => c.id == (4095 : BitVec 12).toNat) = some ⟨4095, 0, 0, 7, 0, 0, 0, 1, 0, false⟩ ∧
       s.rd (Fld.PRT_POOL_CTRL_CTX_TO 1) ≠ 15 ∧ (s.port 0).ready.any (fun r => r.serial == 0 && r.final) = false ∧
       (s.port 1).relay.any (fun r => r.ctx == 4095 && r.owed == 0 && rspFinal (encRsp r.op r.slot)) = false) ∧
    (let s := pooled.modPort 0 (fun p => { p with txns := [txn0 (encMem 0x01 mem0) 0], fwd := [⟨1, 0, encMem 0x01 mem0, [], 0, none⟩] })
     s.prom.find? (fun r => r.id == 9) = none ∧ ((s.port 0).txns.any (fun x => x.rid == 9 && x.serial == 0)) = true ∧
       (∀ i < 16, i ≠ 0 → (s.port i).txns = []) ∧ (s.txn? 0 0).isSome = true) ∧
    (let s := { linked with prom := [wait0] }
     s.prom.find? (fun r => r.id == 1) = some wait0 ∧ (s.pickLine 0).isSome = true) ∧
    (let s := { linked with prom := [{ wait0 with promoted := true }] }
     (s.pickLine 0).isSome = true ∧
       (s.promHeads 0).any (fun y => y.promoted && (s.noRoom 0 y).isNone && decide (s.lineFrom 0 y ≤ s.now / tFab)) = true) := by decide +kernel

/-- A rank of pavilion 0 in a state, with a debt, out of self-refresh. -/
def rank0 (st : RefState) (n debt : Nat) : State :=
  (live.setRank 0 0 { Rank.reset with st := st, n := n, inSelf := false, accAt := 1000000 }).wr (fldDebt 0 0) debt

/-- A line held by pavilion 0. -/
def ent0 (aged : Nat) (st : EntSt) : Ent :=
  { req := wait0, st := st, aged := aged, words := Vector.replicate 8 0, host := true, level := 8, got := none }

/-- O39: ranks that accrue, owe, pay and leave self-refresh; a window that is open and a line that waits; a rate declared. -/
theorem witness_refresh :
    (let s := rank0 .quiet 0 0
     (s.rank 0 0).inSelf = false ∧ 0 < (s.pav 0).rate ∧ (s.rank 0 0).st ≠ .self_ ∧ (s.rank 0 0).acc < 9375) ∧
    (live.rank 0 0).inSelf = true ∧ ((rank0 .owed 0 8).rank 0 0).st = .owed ∧ 8 ≤ (rank0 .owed 0 8).debt 0 0 ∧
    (let s := (rank0 .owed 0 1).modRank 0 0 (fun k => { k with wins := 1 })
     (s.rank 0 0).st = .owed ∧ s.debt 0 0 < 8 ∧ s.windowOpen 0 0 = true ∧ s.waitsFor 0 0 = false) ∧
    (let s := (rank0 .paying 1 1).modPav 0 (fun v => { v with ents := [ent0 2 .waiting] })
     let u := s.modRank 0 0 (fun k => { k with urgent := some 5 })
     (u.rank 0 0).st = .paying ∧ (u.rank 0 0).n ≠ 0 ∧ u.debt 0 0 < 8 ∧ u.waitsFor 0 0 = true ∧ (u.rank 0 0).urgent = some 5 ∧
       cycleFrom 5 ≠ cycleFrom u.now) ∧
    (let s := (rank0 .owed 0 1).modPav 0 (fun v => { v with rateNext := [(5, 8, 1), (9, 1, 0)] })
     (s.pav 0).rateNext = [(5, 8, 1), (9, 1, 0)] ∧ (s.pav 0).rate < 8 ∧ (s.rank 0 0).st = .owed ∧ 1 ≤ s.debt 0 0) ∧
    (let s := (rank0 .owed 0 1).modPav 0 (fun v => { v with rateNext := [(5, 1, 1)] })
     (s.pav 0).rateNext = [(5, 1, 1)] ∧ 1 ≤ (s.pav 0).rate) ∧
    (let s := live.setRank 0 0 { Rank.reset with leaving := some 5 }
     (s.rank 0 0).leaving = some 5) := by decide +kernel

/-- O40: lines that age, a line that stalls, windows, a bank to close, a rank to power down, and what falls due. -/
theorem witness_waiting :
    (let s := live.modPav 0 (fun v => { v with ents := [ent0 0 .waiting] })
     (s.pav 0).ents.find? (fun e => e.req.id == 1 && e.host && e.aged == 0 && (e.st == .waiting || e.st == .buffered)) =
       some (ent0 0 .waiting)) ∧
    (let s := live.modPav 0 (fun v => { v with ents := [ent0 1 .buffered] })
     (s.pav 0).ents.find? (fun e => e.req.id == 1 && e.host && e.aged != 2 && (e.st == .waiting || e.st == .buffered)) =
       some (ent0 1 .buffered) ∧ (ent0 1 .buffered).aged = 1 ∧ (s.pav 0).drain ≠ .halt) ∧ (ent0 2 .waiting).aged = 2 ∧
    (({ live with prom := [wait0] } : State).prom.find? (fun r => r.loc.pav == 0 && !r.stalled) = some wait0) ∧
    (live.pav 0).gated = false ∧ (live.pav 0).throttleNext < 3 ∧
    (((live.modPav 0 (fun v => { v with throttleNext := 2 })).pav 0).throttleNext = 2) ∧
    (let s := live.modBank 0 63 (fun b => { b with open_ := some 3, close := some (8, 5) })
     (s.bank 0 63).close = some (8, 5) ∧ (s.bank 0 63).open_.isSome = true ∧ s.bankHeld 0 63 = false) ∧
    (let s := ((rank0 .quiet 0 0).modPav 0 (fun v => { v with rate := 1 })).wr Fld.GLB_PWR_STAT_STATE psRest
     s.rd Fld.GLB_PWR_STAT_STATE = psRest ∧ s.rd (Fld.PAV_PWR_PD_IDLE 0) ≠ 0 ∧ (s.rank 0 0).down = false ∧
       (s.rank 0 0).inSelf = false ∧ (s.rank 0 0).st ≠ .self_ ∧ (s.pav 0).ents = [] ∧
       (let idle := tPav * s.rd (Fld.PAV_PWR_PD_IDLE 0)
        s.rankDue 0 0 (max s.now ((s.rank 0 0).lastUse + idle) + idle) = false) ∧
       (∀ i < 16, s.bankHeld 0 (16 * 0 + i) = false)) ∧
    ((live.modPav 31 (fun v => { v with scrubLeft := 0 })).pav 31).scrubLeft = 0 ∧ (live.pav 31).scrubLeft ≠ 0 ∧ live.halted = false ∧ live.on (Fld.PAV_REPAIR_STAT_RETIRED 31) = false ∧
    (live.pav 31).scrubDue = false ∧
    (let v := ((live.modPav 31 (fun v => { v with scrubDue := true, scrubMissed := 4 })).pav 31)
     v.scrubDue = true ∧ v.scrubEsc = false ∧ v.scrubMissed = 4) ∧ live.accounts 31 = true ∧
    (live.wr (Fld.PAV_ECC_CTRL_ACCOUNT 31) 0).accounts 31 = false ∧ live.rd Fld.GLB_PWR_STAT_STATE < 2 ∧
    live.rd (Fld.PAV_ECC_CTRL_EXPIRE 31) ≠ 31 ∧ (live.wr (Fld.PAV_ECC_CTRL_EXPIRE 31) 31).rd (Fld.PAV_ECC_CTRL_EXPIRE 31) = 31 ∧
    (let s := live.modPav 31 (fun v => { v with neigh := [⟨3, [1], 0, false, false, false⟩] })
     (s.pav 31).neigh.find? (fun x => !x.escalated && !x.started) = some ⟨3, [1], 0, false, false, false⟩) := by decide +kernel

/-- O41: a pavilion with nothing to do, one that issues, one that merges, an atomic, and a copy that runs. -/
theorem witness_engines :
    (let s := live.modPav 0 (fun v => { v with gated := true })
     ((pavSettle 0 s).pav 0).gated = true) ∧
    (let s := rank0 .forced 1 8
     let u := pavSettle 0 s
     (u.pav 0).gated = false ∧ (u.issueFirst 0 (u.rowCands 0) (u.colCands 0) ((u.rowCands 0).length + (u.colCands 0).length + 2)
       (cycleFrom (max u.now (afterCyc (u.pav 0).lastIssue 1)))).isSome = true ∧
     (s.pickRow 0 s.now (s.rowCands 0) []).isSome = true) ∧
    (let s := (rank0 .quiet 0 0).modPav 0 (fun v => { v with ents := [ent0 0 .waiting], pausedUntil := 0 })
     let t := s.modBank 0 0 (fun b => { b with open_ := some 3 })
     (t.pickCol 0 (t.now + 1000000) [] (t.colCands 0)).isSome = true) ∧
    (let g : Got := ⟨Vector.replicate 8 0, lineZero, 0, 0⟩
     let e : Ent := { ent0 0 .merging with
       req := { wait0 with op := .atomic .atAdd 7 1 0 }
       got := some g }
     let s := (ready0 []).modPav 0 (fun v => { v with ents := [e] })
     (s.pav 0).ents.find? (fun e => e.st == .merging) = some e ∧ e.got = some g ∧ g.uncorr.getLsbD 7 = false ∧
       s.txn? 0 0 = some (txn0 (encMem 0x01 mem0) 0)) ∧
    (let s := live.modPav 0 (fun v => { v with copies := [⟨0, 3, 0, true, none, 0, [], 0⟩] })
     (s.pav 0).copies = [⟨0, 3, 0, true, none, 0, [], 0⟩]) := by decide +kernel

/-- O42: the cadence unit free, locked with a marker missed and not, and fed by the pin. -/
theorem witness_turns :
    live.clocked = true ∧ live.nextStep ≤ 1023 ∧ live.rd Fld.CAD_STAT_STATE ≠ 2 ∧
    (let s := live.wr Fld.CAD_STAT_STATE 2
     s.clocked = true ∧ s.rd Fld.CAD_STAT_STATE = 2 ∧ s.rd Fld.CAD_STAT_MISS = 0) ∧
    (let s := (live.wr Fld.CAD_STAT_STATE 2).wr Fld.CAD_STAT_MISS 1
     s.rd Fld.CAD_STAT_STATE = 2 ∧ s.rd Fld.CAD_STAT_MISS = 1) ∧
    (let s := live.wr Fld.CAD_CTRL_SRC 1
     s.rd Fld.CAD_CTRL_SRC = 1 ∧ s.power.tapHold = false ∧ s.cad.osc = none) ∧ (1600000 : Nat) < 2 ^ 23 := by decide +kernel

/-- O43: the last line of the last bank of the last pavilion. -/
theorem witness_dram : live.physOf 31 63 32767 < 32832 ∧
    (∀ b < 64, (((live.pav 31).cols.filter (fun c => c.1 == b)).length ≤ 4)) ∧ live.pavs = [] ∧ Memory.wf live.dram = true := by
  decide +kernel

/-- O44: syndromes of each kind, and flips. -/
theorem witness_secded : ((syndrome72 0).toNat = 0) ∧ (syndrome72 (1#72 <<< 71)).toNat = 2 ^ 7 ∧
    (syndrome72 (1#72 <<< 63)).toNat = secdedCols.getD 63 0 ∧ (syndrome72 (0xFF#72 <<< 64)).toNat = 0xFF ∧
    (let s := (syndrome72 (0x7F#72 <<< 64)).toNat
     ((List.range 8).filter (fun j => s.testBit j)).length % 2 = 1 ∧ s ∉ secdedCols) ∧
    (let s := (syndrome72 (3#72 <<< 64)).toNat
     ((List.range 8).filter (fun j => s.testBit j)).length % 2 = 0 ∧ s ≠ 0 ∧ s ≠ 0xFF) ∧
    (let f : RawLine := Vector.ofFn (fun w => if w.val = 0 then 0 else 1#72 <<< 71)
     ∀ w : Fin 8, f[w] = 0 ∨ ∃ i < 72, f[w] = 1#72 <<< i) := by
  refine ⟨by decide +kernel, by decide +kernel, by decide +kernel, by decide +kernel, by decide +kernel, by decide +kernel, ?_⟩
  intro f w
  by_cases h : w.val = 0
  · exact .inl (by simp [f, h])
  · exact .inr ⟨71, by decide, by simp [f]; intro e; exact absurd (by rw [e]; rfl) h⟩

/-- O45: a FILL with a line to write and one to skip, a COPY with a line read, and one that is over. -/
theorem witness_bulk :
    (let b : Bulk := { copy := false, mbx := 0, start := 0, dst := 0, lines := 4, pattern := 0, mark := false, issued := 3, written := 0,
                       skipped := 0, poisoned := 0, flying := 0, readBack := [], ending := none, marks := [] }
     let s := { live with bulk := some b }
     s.bulk = some b ∧ b.readBack = [] ∧ b.ending = none ∧ b.issued < b.lines ∧ b.over = false ∧
     (s.locate (b.start + 64 * b.issued)).any (fun l => s.retiredRunning l.pav == false) = true ∧
     (let r := { s with test := { s.test with retiredStart := 0xFFFFFFFF } }
      r.bulk = some b ∧ r.locate (b.start + 64 * b.issued) = none) ∧
     (let r := forUpto 32 (fun p a => a.wr (Fld.PAV_REPAIR_STAT_RETIRED p) 1) s
      r.bulk = some b ∧ (r.locate (b.start + 64 * b.issued)).any (fun l => r.retiredRunning l.pav) = true) ∧
     (let c := { b with copy := true, dst := 4096, readBack := [(0, lineZero, 1)] }
      let r := { live with bulk := some c }
      r.bulk = some c ∧ c.readBack = (0, lineZero, 1) :: [] ∧
        (r.locate (c.dst + 64 * 0)).any (fun l => r.retiredRunning l.pav == false) = true ∧
        (let r := forUpto 32 (fun p a => a.wr (Fld.PAV_REPAIR_STAT_RETIRED p) 1) r
         (r.locate (c.dst + 64 * 0)).any (fun l => r.retiredRunning l.pav) = true)) ∧
     (let c := { b with issued := 4 }
      let r := { mbxIn mbRunning with bulk := some c }
      r.bulk = some c ∧ c.over = true ∧ c.mark = false ∧ r.rd (Fld.MBX_STAT_STATE c.mbx) = mbRunning ∧ (r.mbx c.mbx).result = none ∧
      (r.mbx c.mbx).endCode = none)) := by decide +kernel

/-- A slice of the sweep under way in pavilion 0. -/
def slice0 : Slice :=
  { bank := 5, phys := 7, row := 7, isSpare := false, why := .sweep, save := [], held := 0, heldAt := 0, aborted := none,
    phase := 0, col := 0, half := false, yielded := true, checker := false }

/-- O46: a slice that may begin, one under way, and the sweep's turn. -/
theorem witness_slices :
    (let s := ({ (rank0 .quiet 0 0).setReg (Off.CAD_SLOT 1) (0x20000000#32 ||| 0x100000#32) with cad := { live.cad with angle := some 0 } } : State).modPav 0
       (fun v => { v with rowTest := some (5, 7, 0) })
     (s.pav 0).sliceDue = false ∧ (s.sliceNext 0).isSome = true ∧ ((s.sliceNext 0).any (fun t => s.sliceMay 0 t.1 t.2.2.2.2)) = true ∧
       s.sliceTurn 0 = true) ∧
    (let s := live.modPav 0 (fun v => { v with slice := some slice0 })
     (s.pav 0).slice = some slice0 ∧ slice0.aborted = none ∧ slice0.why = .sweep) ∧
    (let x := { slice0 with phase := 9 }
     let s := live.modPav 0 (fun v => { v with slice := some x })
     (s.pav 0).slice = some x ∧ x.aborted = none ∧ x.why = .sweep ∧ x.phase = 9) ∧
    (let x := { slice0 with phase := 7, save := List.replicate 32 (Vector.replicate 8 5) }
     x.phase = 7 ∧ x.save.length = 32 ∧ x.bank < 64 ∧ x.phys < 32832) ∧
    (let s := { live.wr Fld.GLB_BIST_CTRL_SWEEP 1 with test := { live.test with sweepLeft := 0 } }
     s.on Fld.GLB_BIST_CTRL_SWEEP = true ∧ s.test.sweepLeft = 0) := by decide +kernel

/-- O46: rows of a parking test are left, and MAX = 0. -/
theorem witness_test_waits :
    (let s := (live.modPav 0 (fun v => { v with suspects := [(0, 0)] })).wr Fld.GLB_BIST_CTRL_MAX 0
     ({ s with test := { s.test with parkRun := true, step := 4 } } : State).testWaits = true) := by decide +kernel

/-- The parking test past its last slice, every pavilion gated. -/
def parkedTest : State :=
  let s := forUpto 32 (fun p a => a.modPav p (fun v => { v with gated := true })) live
  { s with test := { s.test with parkRun := true, step := 4 }, otp := { s.otp with latSecretBlank := false, latSecretOk := true } }

/-- O46: the parking test aborted and whole, and work of the signing engine. -/
theorem witness_parking_test :
    (let s := { parkedTest with test := { parkedTest.test with parkAborted := some 3 } }
     s.test.parkRun = true ∧ s.test.step = 4 ∧ s.slices = 0 ∧ s.test.parkAborted.isSome = true) ∧
    (let s := parkedTest
     s.test.parkRun = true ∧ s.test.step = 4 ∧ s.slices = 0 ∧ s.test.parkAborted = none ∧ s.testRows = some (some 0) ∧ s.testWaits = false ∧
       (restPassed (some 0) s).certSpares.length ≤ 4096 ∧ (restPassed (some 0) s).certUnusable.length ≤ 1024 ∧
       (restPassed (some 0) s).keyLost = false) ∧ live.signing = [] ∧
    (let s := live.wr Fld.GLB_SEC_STAT_IDENT 1
     s.on Fld.GLB_SEC_STAT_IDENT = true ∧ s.firmwareRuns = true ∧ ({ s with signing := [.parkCert [1] 0] } : State).signing = .parkCert [1] 0 :: [] ∧
       ({ s with signing := [.idCert 0 [1]] } : State).signing = .idCert 0 [1] :: [] ∧
       ({ s with signing := [.attest 0 [1]] } : State).signing = .attest 0 [1] :: []) := by decide +kernel

/-- A calibration of the TSVs with a step under way. -/
def tsv0 (left : BitVec 4) : TsvCal := { ranksLeft := left, step := some 3, held := 0, heldAt := 0, refFrom := none, turn := 0, lowSeen := false }

/-- O47: the last step of a TSV calibration and one before it, one that falls due, a scan, and the oscillator's learning. -/
theorem witness_calibration :
    (∀ left ∈ [(8 : BitVec 4), 12], let s := live.modPav 0 (fun v => { v with tsv := some (tsv0 left) })
      (s.pav 0).tsv = some (tsv0 left) ∧ (tsv0 left).step = some 3 ∧ (tsv0 left).ranksLeft.getLsbD 3 = true) ∧
    (12 : BitVec 4) ≠ BitVec.ofNat 4 (2 ^ 3) ∧ (8 : BitVec 4) = BitVec.ofNat 4 (2 ^ 3) ∧
    (∀ g < 16, (List.replicate 16 (BitVec.allOnes 64)).getD g 0 = BitVec.allOnes 64) ∧
    (let s := (live.wr (Fld.PAV_TSV_CTRL_AUTO 0) 1).modPav 0 (fun v => { v with tsvTurns := 1024 })
     s.rd (Fld.PAV_TSV_CTRL_AUTO 0) ≠ 0 ∧ s.rd (Fld.PAV_TSV_CTRL_AUTO 0) * 1024 ≤ (s.pav 0).tsvTurns ∧ (s.pav 0).tsv = none ∧
       (s.pav 0).gated = false ∧ s.halted = false ∧ (s.pav 0).drain = .none_ ∧ s.on (Fld.PAV_REPAIR_STAT_RETIRED 0) = false ∧
       s.power? < 2) ∧
    (let s := (live.wr (Fld.PRT_CAL_STAT_SCANNING 0) 128).modLane 0 7 (fun l => { l with scan := some (190, []) })
     s.rd (Fld.PRT_CAL_STAT_SCANNING 0) = 2 ^ 7 ∧ (s.lane 0 7).scan = some (190, []) ∧ 190 < 191 ∧
       (∀ q : Pos, q ≠ 7 → (s.lane 0 q).scan = none)) ∧
    (let s := { (live.wr Fld.GLB_CAL_CTRL_OSC_LEARN 1).wr (Fld.GLB_OSC_TABLE_CODE 1) 100 with therm := { live.therm with learnRounds := 16 } }
     s.on Fld.GLB_CAL_CTRL_OSC_LEARN = true ∧ s.power? ≠ psSleep ∧ 16 ≤ s.therm.learnRounds ∧
       (let n := (max 0 (min 15 ((Int.tdiv s.therm.learnSum 16 + 80 + 32) / 64))).toNat
        0 < s.rd (Fld.GLB_OSC_TABLE_CODE n) ∧ s.rd (Fld.GLB_OSC_TABLE_CODE n) < 255 ∧
          (s.wr (Fld.GLB_OSC_TABLE_CODE n) 0).rd (Fld.GLB_OSC_TABLE_CODE n) = 0)) := by decide +kernel

/-- A state in a conversion slot. -/
def slotted (n : Nat) : State := { live with therm := { live.therm with slot := n } }

/-- O48: conversion slots, sensors about to change, a pavilion halted, and a band about to change. -/
theorem witness_temperatures :
    (slotted 27).converts = true ∧ 27 ≤ (slotted 27).therm.slot ∧ (slotted 27).therm.slot ≠ 31 ∧
    (let s := slotted 22
     s.converts = true ∧ s.therm.slot < 24 ∧ s.therm.slot ≠ 15 ∧ s.therm.slot ≠ 23 ∧ s.therm.cal = none ∧
       (1200#16).toInt + tabGet 0 s.therm.trimNow s.therm.slot ≤ 1200 ∧ -320 ≤ (1200#16).toInt + tabGet 0 s.therm.trimNow s.therm.slot ∧
       s.sensorFaulty 22 = false ∧ (s.sensor 22).badRun = 0) ∧
    (let s := (slotted 0).wr (Fld.THM_SENSOR_FAULT 0) 1
     let s := { s with therm := { s.therm with sensors := [(0, ⟨0, 3, none, none⟩)] } }
     s.sensorFaulty 0 = true ∧ 3 ≤ (s.sensor 0).goodRun) ∧
    (let s := slotted 0
     let s := { s with therm := { s.therm with sensors := [(0, ⟨1, 0, none, none⟩)] } }
     s.sensorFaulty 0 = false ∧ 1 ≤ (s.sensor 0).badRun) ∧
    (let s := live.modPav 31 (fun v => { v with drain := .halt })
     (s.pav 31).drain = .halt ∧ s.pavBusy 31 = false ∧ (s.pav 31).copies.any (fun c => c.running) = false) ∧
    (let s := { live.wr Fld.THM_STAT_BAND 3 with therm := { live.therm with up := 3, upmin := 4 } }
     s.rd Fld.THM_STAT_BAND = 3 ∧ s.therm.up = 3 ∧ s.therm.upmin = 4 ∧
       (trackBand 840 s).rd Fld.THM_STAT_BAND ≠ s.rd Fld.THM_STAT_BAND) ∧ live.therm.up < 3 ∧ live.therm.dn < 3 := by decide +kernel

/-- O49: the owner of a mailbox that is free, pending and running, another source, and a write of OVERRUN's bit. -/
theorem witness_doorbells : servesB live = true ∧ live.owner 0 = 0 ∧ live.mbxFree 0 = true ∧ live.owner 0 ≠ 16 ∧
    (let s := mbxIn mbPending
     servesB s = true ∧ s.rd (Fld.MBX_STAT_STATE 0) = mbPending ∧ bitAt (leAt (s.mbx 0).snap 6 1) 0 = false ∧ s.owner 0 = 0) ∧
    (mbxIn mbRunning).rd (Fld.MBX_STAT_STATE 0) = mbRunning ∧ ((0x80#32) &&& beBits 1).getLsbD 7 = true := by decide +kernel

/-- O50: firmware not ready in each stage, a switch verified and not, the watchdog, and a command in hand. -/
theorem witness_firmware :
    (let s := live.wr Fld.GLB_FW_STAT_READY 0
     s.mgmtOn = true ∧ s.on Fld.GLB_FW_STAT_READY = false ∧ s.switch = none ∧ s.power.boot ≠ .dram true ∧
     (let u := { s with power := { s.power with boot := .dram true } }
      u.mgmtOn = true ∧ u.power.boot = .dram true ∧ (u.wr Fld.GLB_BOOT_CTRL_CERT_WAIT 5).rd Fld.GLB_BOOT_CTRL_CERT_WAIT ≠ 0) ∧
     (∀ v ∈ [true, false], ({ s with switch := some ⟨17, true, 0, 2, v⟩ } : State).switch = some ⟨17, true, 0, 2, v⟩)) ∧
    (let s := (mbxIn mbRunning).wr Fld.GLB_FW_CTRL_WDT_MS 100
     s.mgmtOn = true ∧ s.rd Fld.GLB_FW_CTRL_WDT_MS ≠ 0 ∧ s.rd (Fld.MBX_STAT_STATE 0) = mbRunning ∧ s.inHand 0 = true) ∧
    (mbxIn mbAborting).rd (Fld.MBX_STAT_STATE 0) = mbAborting ∧ (mbxIn mbPending).rd (Fld.MBX_STAT_STATE 0) = mbPending ∧
    (∀ bad : Bool, let s := (sramClear 0 255 256 live)
      (sramMeets 0 255 { s with sram := s.sram ++ [(0, 255, bad)] }).1 = bad) := by decide +kernel

/-- A latch of a level. -/
def latch0 (level : BitVec 2) : Latch := { detail := 1, merge := 0, ts := 0, level := level, freewheel := false }

/-- A port with a stream of records of level 2, and its credits. -/
def streaming : State :=
  let s := (linked.wr Fld.EVT_ROUTE_PORTS 1).wr Fld.EVT_SEQ_NEXT 1
  s.setReg (Off.EVT_RING 0 3) 8#32

/-- O51: an event that nothing delays, latched before or not; latches of each level; a stream with credits; telemetry; a late window. -/
theorem witness_events :
    (∀ c ∈ live.crossing, c.1 ≠ 1023) ∧ evDefined 1023 = false ∧ evDefined 968 = true ∧ (∀ c ∈ live.crossing, c.1 ≠ 968) ∧
    tabGet none live.latches 968 = none ∧ ((live.raise 968 7).crossing.find? (fun c => c.1 == 968)).isSome = true ∧
    (let s := { live with latches := [(968, some (latch0 1))] }
     tabGet none s.latches 968 = some (latch0 1) ∧ (∀ n < 16, bitAt (s.rd Fld.EVT_ROUTE_PORTS) n = false) ∧ (latch0 1).level = 1) ∧
    (latch0 0).level = 0 ∧ (latch0 2).level = 2 ∧
    (streaming.role 0 = 0 ∧ streaming.streamOf 0 ≠ [] ∧ streaming.canSend 0 = true ∧ (streaming.port 0).txData = [] ∧
      streaming.hasTx 0 (streaming.rd Fld.EVT_ROUTE_TC) 0 1 = true ∧ streaming.hasTx 0 (streaming.rd Fld.EVT_ROUTE_TC) 1 1 = true) ∧
    (let x : OutMsg := ⟨7, 2, 0, none, some (0, 0)⟩
     let s := linked.modPort 0 (fun p => { p with msgs := [x] })
     (s.port 0).msgs.find? (fun x => x.key.isSome) = some x ∧ (sendMsg 0 x s).isSome = true) ∧
    (∀ n : PortId, ∀ x ∈ (live.port n).msgs, x.key = none) ∧
    (let s := live.modMon 39 (fun m => { m with lateTs := some 5, ctrl := 1, acc := { m.acc with lvlN := 1 } })
     (s.mon 39).lateTs = some 5 ∧ s.monClock 39 = true ∧ s.monSnapMbx = [] ∧ (s.mon 39).lateAcc = none ∧ (s.mon 39).acc.lvlN ≠ 0 ∧
       bitAt (s.mon 39).ctrl.toNat 0 = true ∧ bitAt (s.mon 39).ctrl.toNat 1 = false) ∧
    (let s := live.modMon 39 (fun m => { m with lateTs := some 5, ctrl := 3 })
     (s.mon 39).lateTs = some 5 ∧ (s.mon 39).lateAcc = none ∧ bitAt (s.mon 39).ctrl.toNat 1 = true ∧ s.monClock 39 = true) ∧
    (let s := live.modMon 39 (fun m => { m with lateTs := some 5, lateAcc := some MonAcc.reset })
     (s.mon 39).lateTs = some 5 ∧ (s.mon 39).lateAcc = some MonAcc.reset ∧ s.monClock 39 = true) ∧
    bitAt (1#32).toNat 0 = true ∧ bitAt (1#32).toNat 1 = false ∧
    (let s := live.modMon 39 (fun m => { m with lateTs := some 5, ctrl := 0 })
     (s.mon 39).lateTs = some 5 ∧ bitAt (s.mon 39).ctrl.toNat 0 = false ∧ s.monClock 39 = true) := by decide +kernel

/-- A programming sequence with two words to go. -/
def prog0 : Prog :=
  { mbx := some 0, opcode := 0, todo := [.word 8191 5, .word 0 1], done := 0, maxAttempts := 0, target := 0, kind := 0, ending := none }

/-- O52: a sequence with words to go, the supply there, a command that waits, and a key derived and lost. -/
theorem witness_fuses :
    (let s := mbxIn mbRunning
     let s := { s with otp := { s.otp with prog := some prog0 } }
     s.otp.prog = some prog0 ∧ prog0.todo = .word 8191 5 :: [.word 0 1] ∧ prog0.ending = none ∧ s.otp.supply = true ∧
       s.otp.rowSpare (8191 / 8) = none ∧ prog0.mbx = some 0 ∧ prog0.held = false ∧ s.firmwareRuns = true ∧ s.inHand 0 = true ∧
       (s.mbx 0).endCode = none) ∧
    (let s := { live.wr Fld.GLB_FW_STAT_READY 0 with otp := { live.otp with prog := some { prog0 with held := true } } }
     s.otp.prog = some { prog0 with held := true } ∧ s.firmwareRuns = false) ∧ live.otp.prog = none ∧
    (let s := live.wr Fld.OTP_STAT_READ_DONE 1
     let u := { s with otp := { s.otp with latSecretBlank := false, latSecretOk := true } }
     let v := { s with otp := { s.otp with latSecretBlank := true } }
     u.on Fld.OTP_STAT_READ_DONE = true ∧ u.keyLost = false ∧ v.keyLost = true) := by decide +kernel

/-- The sideband runs, and the management island is not up. -/
def early : State := { live with power := { live.power with boot := .dram false } }

/-- O53: a sideband that is served and one that is not. -/
theorem witness_sideband_reads : live.sbOn = true ∧ servesB live = true ∧ live.sbPtr = 0 ∧ (regRead 16 0 live).2.regs = live.regs ∧
    live.rd Fld.SB_MBX_PTR_MBX17 = 0 ∧ early.sbOn = true ∧ early.served = false ∧ early.sb.hand = none ∧
    early.sb.late = [] := by decide +kernel

/-- O54: packet error codes right, absent and wrong; pointers at their limits; data of each length; writes that end OK and DENIED. -/
theorem witness_sideband_writes :
    (0xFFFFF#24).toNat < 2 ^ 20 ∧ 2 ^ 20 ≤ (0x100000#24).toNat ∧ live.pecOk 0x10 (3 :: leBytes 3 0xFFFFF) none = true ∧
    live.pecOk 0x10 (3 :: leBytes 3 0xFFFFF) (some (crc8 ([live.sbAddrW, 0x10] ++ 3 :: leBytes 3 0xFFFFF))) = true ∧
    (live.wr Fld.SB_CTRL_PEC_REQ 1).pecOk 0x10 (3 :: leBytes 3 0xFFFFF) none = false ∧
    live.pecOk 0x12 (4 :: zeros 4) none = true ∧ live.pecOk 0x12 (5 :: [0, 0, 0, 0, 15]) none = true ∧
    servesB live = true ∧ (regWrite 16 (Off.MBX_CMD 16 127) 15 5 live).1 = stOk ∧
    (regWrite 16 Off.GLB_BOOT_CTRL 15 5 live).1 = stDenied ∧
    (let bytes : List Byte := [0xE2, 0x81] ++ zeros 30
     3 ≤ bytes.length ∧ bytes.length ≤ 32 ∧ leAt bytes 0 2 % 2 ^ 15 + (bytes.length - 2) = 512 ∧ leAt bytes 0 2 % 2 ^ 15 < 512 ∧
       live.pecOk 0x20 (BitVec.ofNat 8 bytes.length :: bytes) none = true) ∧
    (0x81FF#16).toNat % 2 ^ 15 < 512 ∧ live.pecOk 0x23 (leBytes 2 0x81FF) none = true ∧ live.pecOk 0x21 [1] none = true ∧
    live.pecOk 0x21 [0x82] none = true ∧ (0x25 : Byte) ∉ sbCodes ∧ (0x24 : Byte) ∈ sbCodes := by decide +kernel

/-- In Sleep, with the wake by address enabled. -/
def asleep : State := (live.wr Fld.GLB_PWR_STAT_STATE psSleep).wr Fld.SB_CTRL_WAKE_EN 1

/-- Attention enabled and pending. -/
def attending : State := (live.wr Fld.SB_CTRL_ATTN_EN 1).wr Fld.SB_STAT_ATTN_PEND 1

/-- O55: faults, a wake by address and its stretch, and attention pending, asserted and waiting to retry. -/
theorem witness_attention : live.sbOn = true ∧ live.sb.hand = none ∧ live.sb.late = [] ∧
    (∀ a ∈ [SbAccess.winRead, .put 0x4000 [(0x4000, 15, 1)]], let s := { early with sb := { early.sb with hand := some (a, 5) } }
      s.sb.hand = some (a, 5) ∧ s.served = false) ∧
    (asleep.sb.running = true ∧ asleep.power.tapHold = false ∧ asleep.power? = psSleep ∧ asleep.on Fld.SB_CTRL_WAKE_EN = true ∧
      (0x4C#7).toNat = asleep.rd Fld.SB_STAT_ADDR ∧ asleep.power.trans = .none_) ∧ (0x4D#7).toNat ≠ asleep.rd Fld.SB_STAT_ADDR ∧
    ({ asleep with sb := { asleep.sb with wakeStretch := some 5 } } : State).sb.wakeStretch = some 5 ∧
    (attending.sbOn = true ∧ attending.on Fld.SB_CTRL_ATTN_EN = true ∧ attending.on Fld.SB_STAT_ATTN_PEND = true ∧
      attending.sb.attnWait = none ∧ attending.sb.needStop = false) ∧ live.on Fld.SB_STAT_ATTN_PEND = false ∧
    ({ attending with sb := { attending.sb with attnWait := some 5 } } : State).sb.attnWait = some 5 ∧
    (let s := { attending with sb := { attending.sb with attnRetry := some 5 } }
     s.sb.attnRetry = some 5 ∧ s.sbOn = true ∧ s.on Fld.SB_CTRL_ATTN_EN = true ∧ s.on Fld.SB_STAT_ATTN_PEND = true) ∧
    (let s := { live with sb := { live.sb with attnRetry := some 5 } }
     s.sb.attnRetry = some 5 ∧ s.on Fld.SB_STAT_ATTN_PEND = false) := by decide +kernel

/-- The stack at a stage of its start-up. -/
def bootAt (b : Boot) : State := { live with power := { live.power with boot := b, doneAt := none } }

/-- O56: the stages from power to the DRAM's initialisation. -/
theorem witness_startup_begins : State.reset.power.boot = .off ∧ (bootAt .done).power.boot ≠ .off ∧
    (bootAt (.reading false)).power.boot = .reading false ∧
    (let s := bootAt (.reading true)
     let s := { s with otp := { s.otp with words := [(8190, 3)] } }
     s.power.boot = .reading true ∧ s.power.resetN = true ∧ 8190 ∈ s.otp.usedWords ∧ 8191 ∉ s.otp.usedWords) ∧
    ({ bootAt (.reading true) with power := { (bootAt (.reading true)).power with resetN := false } } : State).power.resetN = false ∧
    (bootAt (.pll 1)).power.boot = .pll 1 ∧ (bootAt (.pll 2)).power.boot = .pll 2 ∧ (bootAt (.pll 0)).power.refclk = true ∧
    ({ bootAt (.pll 0) with power := { (bootAt (.pll 0)).power with refclk := false } } : State).power.refclk = false ∧
    (bootAt (.dram false)).power.boot = .dram false ∧ (bootAt (.dram false)).on Fld.GLB_FW_STAT_READY = true ∧
    ((bootAt (.dram false)).wr Fld.GLB_FW_STAT_READY 0).on Fld.GLB_FW_STAT_READY = false ∧
    (bootAt (.dram false)).rd Fld.GLB_BOOT_CTRL_CERT_WAIT ≠ 0 ∧
    ((bootAt (.dram false)).wr Fld.GLB_BOOT_CTRL_CERT_WAIT 0).rd Fld.GLB_BOOT_CTRL_CERT_WAIT = 0 := by decide +kernel

/-- The start-up test in a step. -/
def testing (step : Nat) : State :=
  let s := bootAt .test
  { s with test := { s.test with step := step, startRunning := true } }

/-- O57: the stages from the certificate window to the end of the recovery wait. -/
theorem witness_startup_ends : (bootAt .certWindow).power.boot = .certWindow ∧ (bootAt .certCheck).power.boot = .certCheck ∧
    (testing 2).test.step = 2 ∧ (testing 2).test.startRunning = true ∧
    (0x80000000#32).getLsbD 31 = true ∧ bitAt (testing 2).retiredMask 31 = false ∧ (0x8000#16).getLsbD 15 = true ∧
    (testing 2).portEnabled 15 = true ∧ (testing 3).test.step = 3 ∧ (1#128 <<< 127).getLsbD (8 * 15 + 7) = true ∧
    (testing 3).role 15 ≠ 2 ∧ (testing 4).test.step = 4 ∧ (testing 4).slices = 0 ∧ (testing 4).testWaits = false ∧
    ((testing 4).wr Fld.GLB_BIST_CTRL_MAX 0).testWaits = true ∧ (bootAt .finish).power.boot = .finish ∧
    (let s := { live with test := { live.test with record := zeros 160 } }
     s.power.doneAt = some 0 ∧ s.power.boot = .done ∧ s.power.recovDone = false ∧ s.rd Fld.GLB_BOOT_CTRL_RECOV_WAIT ≠ 0 ∧
       (∀ n < 16, (s.port n).train.hasLink = false) ∧ s.portEnabled 0 = true ∧ s.role 0 = 0 ∧ 12 < s.test.record.length ∧
       s.mayTrain 0 = true) ∧
    linked.power.doneAt = some 0 ∧ linked.portEnabled 0 = true ∧ linked.role 0 = 0 ∧ (linked.port 0).train.hasLink = true := by
  decide +kernel

/-- O58: resets with and without a drain, the reference clock in its states, and RESET_N low. -/
theorem witness_resets :
    (live.power.tapHold = false ∧ live.power.resetN = true ∧ live.power.boot ≠ .off ∧ live.power.boot ≠ .cold ∧
      live.power.drain = none ∧ live.noDrain = false ∧ live.power? ≠ psSleep ∧ live.power.boot = .done) ∧
    (bootAt (.pll 0)).noDrain = true ∧
    ({ live with power := { live.power with tapHold := true } } : State).power.tapHold = true ∧
    (∀ c < 4, ({ live with power := { live.power with drain := some c } } : State).power.drain = some c) ∧
    (let s := { bootAt .cold with power := { (bootAt .cold).power with resetN := false } }
     s.power.tapHold = false ∧ s.power.resetN = false ∧ s.power.boot = .cold ∧ s.rd Fld.GLB_RST_STAT_CAUSE ≠ 2) ∧
    asleep.power.boot = .done ∧ asleep.power? = psSleep ∧
    (let s := (bootAt .cold).wr Fld.GLB_RST_STAT_CAUSE 2
     let s := { s with power := { s.power with refclk := false } }
     s.power.refclk = false ∧ s.power.boot = .cold ∧ s.rd Fld.GLB_RST_STAT_CAUSE = 2 ∧ s.power.resetN = true) ∧
    live.on Fld.GLB_SEC_STAT_WORKSHOP = false ∧ shop.on Fld.GLB_SEC_STAT_WORKSHOP = true := by decide +kernel

/-- O59: a pavilion whose reset was asked for, with nothing to complete. -/
theorem witness_pavilion_reset : let s := live.modPav 31 (fun v => { v with resetAsked := true, drain := .reset_ })
    (s.pav 31).resetAsked = true ∧ (s.pav 31).gated = false ∧ s.drainable 31 = true ∧ (s.pav 31).drain = .reset_ ∧
      (s.pav 31).ents = [] := by decide +kernel

/-- Every pavilion gated, on the way into Hold or Sleep. -/
def draining (sleep : Bool) : State :=
  let s := forUpto 32 (fun p a => a.modPav p (fun v => { v with gated := true })) live
  let s := { s with power := { s.power with trans := .draining sleep } }
  s.modPav 31 (fun v => { v with gated := false, drain := .power })

/-- O60: the last pavilion to drain, a wake with and without a clock, the wake pin's conditions, and its own drive. -/
theorem witness_sleep :
    (∀ sleep ∈ [true, false], let s := draining sleep
      (s.pav 31).drain = .power ∧ s.drainable 31 = true ∧ s.power.trans = .draining sleep ∧
        (∀ q < 31, (s.pav q).gated = true)) ∧
    (∀ on ∈ [true, false], let s := { asleep with power := { asleep.power with trans := .waking on } }
      s.power.trans = .waking on ∧ s.power.refclk = true) ∧
    (let s := { asleep with power := { asleep.power with trans := .waking true, refclk := false } }
     s.power.trans = .waking true ∧ s.power.refclk = false) ∧
    (let s := (live.wr Fld.GLB_PWR_STAT_STATE psHold).wr Fld.GLB_PWR_CTRL_WAKE_IN_EN 1
     s.power.tapHold = false ∧ s.on Fld.GLB_PWR_CTRL_WAKE_IN_EN = true ∧ s.power.wakeDrive = none ∧ s.power.wakeIgnore ≤ s.now ∧
       s.power? = psHold ∧ s.power.trans = .none_) ∧
    (let s := asleep.wr Fld.GLB_PWR_CTRL_WAKE_IN_EN 1
     s.on Fld.GLB_PWR_CTRL_WAKE_IN_EN = true ∧ s.power? = psSleep ∧ s.power.trans = .none_) ∧
    (live.wr Fld.GLB_PWR_CTRL_WAKE_IN_EN 0).on Fld.GLB_PWR_CTRL_WAKE_IN_EN = false ∧
    (let s := { live with power := { live.power with wakeDrive := some 5 } }
     s.power.wakeDrive = some 5 ∧ s.power.wakeDrive.isSome = true) ∧
    (let s := { live with power := { live.power with wakeIgnore := 2000000 } }
     s.now < s.power.wakeIgnore) := by decide +kernel

/-! ## Ill-formed commands are refused -/

theorem test_wf_direct_field : Instr.wellFormed (.otpDirectFieldReady [511] 0) = true ∧
    Instr.wellFormed (.otpDirectFieldReady [512] 0) = false := by decide

theorem test_wf_margins : Instr.wellFormed (.otpPowerOnReadDone [(.counter, 63), (.secret, 7)] 0) = true ∧
    Instr.wellFormed (.otpPowerOnReadDone [(.counter, 64)] 0) = false ∧ Instr.wellFormed (.otpPowerOnReadDone [(.secret, 8)] 0) = false ∧
    Instr.wellFormed (.otpPowerOnReadDone [(.redirection, 32)] 0) = false ∧
    Instr.wellFormed (.otpPowerOnReadDone [(.directField, 512)] 0) = false ∧
    Instr.wellFormed (.otpPowerOnReadDone [(.spareRow, 256)] 0) = false ∧
    Instr.wellFormed (.otpPowerOnReadDone [(.array, 8192)] 0) = false := by decide

theorem test_wf_flit : Instr.wellFormed (.flitReceive 0 (List.replicate 8 (List.replicate 80 true))) = true ∧
    Instr.wellFormed (.flitReceive 0 (List.replicate 8 (List.replicate 79 true))) = false ∧ Instr.wellFormed (.flitReceive 0 []) = false := by
  decide +kernel

/-- An ordered set has 16 bytes (R98), and a checker cannot have found more errors than bits. -/
theorem test_wf_sets : ([Instr.ts1 0 0 (zeros 16), .ts2 0 0 ⟨zeros 16, 0⟩, .eios 0 ⟨0, zeros 16⟩, .exitSets 0 ⟨0, zeros 16⟩, .sds 0 ⟨0, zeros 16⟩,
      .prbsRelock 0 0 9 9].all (fun c => c.wellFormed) &&
    [Instr.ts1 0 0 (zeros 15), .ts2 0 0 ⟨zeros 17, 0⟩, .eios 0 ⟨0, []⟩, .exitSets 0 ⟨0, zeros 15⟩, .sds 0 ⟨0, zeros 15⟩,
      .prbsRelock 0 0 9 10].all (fun c => !c.wellFormed)) = true := by decide +kernel

/-- A write of one line owns one data slot, and a read-type response no more than eight (R146). -/
theorem test_wf_data : Instr.wellFormed (.wr 0 mem0 [lineZero]) = true ∧ Instr.wellFormed (.wr 0 mem0 [lineZero, lineZero]) = false ∧
    Instr.wellFormed (.wrm 0 mem0 [lineZero, lineZero, lineZero]) = false ∧
    ([Instr.atSwap 0 mem0 [lineZero, lineZero], .atCas 0 mem0 [lineZero, lineZero], .atAdd 0 mem0 [lineZero, lineZero],
            .atAnd 0 mem0 [lineZero, lineZero], .atOr 0 mem0 [lineZero, lineZero], .atXor 0 mem0 [lineZero, lineZero],
            .atSmax 0 mem0 [lineZero, lineZero], .atSmin 0 mem0 [lineZero, lineZero], .atUmax 0 mem0 [lineZero, lineZero],
            .atUmin 0 mem0 [lineZero, lineZero]].all (fun c => !c.wellFormed) = true) ∧
    Instr.wellFormed (.rdData 0 ⟨0, 0, 0, 0, 0, 0⟩ (List.replicate 9 lineZero)) = false ∧
    Instr.wellFormed (.atData 0 ⟨0, 0, 0, 0, 0, 0⟩ [lineZero, lineZero]) = false := by decide +kernel

theorem test_wf_masks : Instr.wellFormed (.maskLoWrite false 10 0 15 0) = true ∧ Instr.wellFormed (.maskLoWrite true 5 0 15 0) = true ∧
    Instr.wellFormed (.maskLoWrite true 6 0 15 0) = false ∧ Instr.wellFormed (.maskHiWrite true 6 0 15 0) = false := by decide

theorem test_wf_observations : Instr.wellFormed (.sparingCopyDone 0 []) = false ∧ Instr.wellFormed (.eyePointEnd 0 [(0, 1), (1, 2)]) = true ∧
    Instr.wellFormed (.eyePointEnd 0 [(0, 1), (0, 2)]) = false ∧ Instr.wellFormed (.tsvStepEnd 0 [0]) = false := by decide

theorem test_wf_bytes : Instr.wellFormed (.sbWinWrite (zeros 255) none) = true ∧ Instr.wellFormed (.sbWinWrite (zeros 256) none) = false ∧
    Instr.wellFormed (.sbMbxWrite (zeros 256) none) = false := by decide +kernel

/-- The command area holds at most 496 payload bytes (R507): every mailbox command refuses more. -/
theorem test_wf_payload : Instr.wellFormed (.echo 0 (zeros 496)) = true ∧
    (∀ f ∈ [Instr.portRoleSet, .windowSet, .signpostSet, .poolStatus, .mapSet, .mapStatus, .mapTranslate, .cadSet, .cadStatus, .slotSet,
            .refWindowsSet, .refSpread, .refStatus, .neighSet, .eccStatus, .eccClear, .scrubRegions, .repairMapRead, .spareList,
            .spareCommit, .rowSpare, .pavRetire, .fill, .copy, .bulkStatus, .bulkAbort, .bistStatus, .sweepStart, .bistStop, .sliceRow,
            .parkStart, .certRead, .certLoad, .certSubmit, .arrayTest, .arrayRawRead, .arrayRawWrite, .thmStatus, .throttleSet,
            .haltClear, .alertSet, .extSet, .calStatus, .laneRetune, .eyeScan, .tsvCal, .sensorCal, .oscLearn, .calAbort, .idGet, .echo,
            .startupRecordRead, .stewardStatus, .stewardSet, .fwLoad, .fwActivate, .fwStatus, .monConfig, .monRead, .monSnapshot,
            .telemetrySet, .evtConfig, .evtRead, .evtStatus, .evtClear, .otpRead, .otpProgram, .otpLock, .otpLockForce, .repairOtp,
            .otpStatus, .otpJournalRead, .idCertRead, .attest, .keyEnrol, .workshopEnter, .workshopExit, .powerSet, .powerStatus,
            .shutdown], Instr.wellFormed (f 0 (zeros 497)) = false) := by decide +kernel

/-! ## Single operations and steps, against the manual's tables and worked examples -/

/-- Chapter 2's worked example: with position 3 failed the port comes up on positions 4 to 7, and flit byte 13 goes to its active lane
1, fourth of that lane's bytes. -/
theorem test_lanes : pickActive 0xF7 = some (1, 0xF0) ∧
    (laneShare 4 1 ((List.range 80).map (fun i => BitVec.ofNat 8 i))).getD 3 0 = 13 ∧ positions 0xF0 = [4, 5, 6, 7] := by decide +kernel

/-- Chapter 2's worked example of a PRBS test: 3 × 10^12 bits at 64 Gb/s in 46.875 s. -/
theorem test_prbs_count : (live.wr (Fld.PRT_PHY_STAT_RATE 0) 4).bitsIn 0 (46875 * tMs) = 3 * 10 ^ 12 := by decide +kernel

/-- R77: PRBS7 from its seed of ones has the period 127, and its first bits are those of x^7 + x^6 + 1. -/
theorem test_prbs7 : prbsReg 0 127 = prbsSeed 0 ∧ (∀ k < 60, prbsOut 0 (k + 7) = (prbsOut 0 (k + 6) ^^ prbsOut 0 k)) := by decide +kernel

/-- Chapter 6's worked example with the reset masks: P15, rank 1, bank group 2, bank 0, row 3,444, column 11; in the partitioned map
with P7 retired P3, rank 0, bank group 1, bank 1, row 11,926, column 11. -/
theorem test_locate : live.locateIn false 0x35D2C9AC0 = some { pav := 15, bank := 16 * 1 + 4 * 2 + 0, row := 3444, col := 11 } ∧
    ({ live with test := { live.test with retiredStart := 0x80 } } : State).locateIn true 0x35D2C9AC0 =
      some { pav := 3, bank := 16 * 0 + 4 * 1 + 1, row := 11926, col := 11 } := by decide +kernel

/-- R36: with P7 retired the last slot is the hole. -/
theorem test_hole : ({ live with test := { live.test with retiredStart := 0x80 } } : State).locateIn true 0x1F00000000 = none := by
  decide +kernel

/-- Chapter 8's worked example: data bit 17 has the check bits 0x32, and reading it back as 0 is corrected. -/
theorem test_secded : checkBits 0x20000 = 0x32 ∧ decode72 (encode72 0x20000 ^^^ (1#72 <<< 17)) = .corrected 0x20000 17 := by decide +kernel

/-- R346: bit 56 has the column 0x1F, and its partner bit 55 the column 0xE0. -/
theorem test_columns : secdedCols.getD 56 0 = 0x1F ∧ secdedCols.getD 55 0 = 0xE0 := by decide +kernel

/-- R363, the example of chapter 8: row 5,000 lies at position 904 of subarray 4, and spare 7 at position 1,025 of subarray 3. -/
theorem test_rows : physOfRow 5000 = 4 * 1026 + 904 ∧ physOfSpare 7 = 3 * 1026 + 1025 := by decide +kernel

/-- R110: the check value of the CRC-32 over "123456789". -/
theorem test_crc32 : crc32 [0x31, 0x32, 0x33, 0x34, 0x35, 0x36, 0x37, 0x38, 0x39] = 0xCBF43926 := by decide +kernel

/-- R655: of a single byte 1, the CRC-8 is the polynomial's low byte. -/
theorem test_crc8 : crc8 [1] = 0x07 ∧ crc8 [0, 0] = 0 := by decide +kernel

/-- Chapter 4's worked example: the panic read's slot. -/
theorem test_slot_rd : encMem 0x01 { lcount := 1, src := 0, hop := 0, panic := true, hint := 0, tc := 2, line := 0x8000048D, tag := 0x13 }
    = 0x01012002000012 * 2 ^ 24 + 0x3404C1 := by decide +kernel

/-- Chapter 4's second example: the CMP slot of the refused WR. -/
theorem test_slot_cmp : encRsp 0x21 { hop := 0, src := 0, status := stUnmapped, tc := 0, tag := 0x20, spec := 2 } = 0x100200821 := by
  decide +kernel

/-- Chapter 12's example: the DOORBELL and MBX_DONE slots. -/
theorem test_slot_msg : encMsg { tc := 3, value := 1, data := false, mtype := 0 } = 0x0000300000000001001C ∧
    encMsg { tc := 3, value := 2, data := false, mtype := 1 } = 0x0000300000000002005C := by decide +kernel

/-- R159 on words whose order is not the same signed and unsigned. -/
theorem test_atomics :
    atomicNew .atAdd 0xFFFFFFFFFFFFFFFF 2 0 = some 1 ∧ atomicNew .atSmax 0x8000000000000000 1 0 = some 1 ∧
    atomicNew .atUmax 0x8000000000000000 1 0 = none ∧ atomicNew .atSmin 0x8000000000000000 1 0 = none ∧
    atomicNew .atUmin 0x8000000000000000 1 0 = some 1 ∧ atomicNew .atCas 5 9 5 = some 9 ∧
    atomicNew .atCas 6 9 5 = none := by decide +kernel

/-- Chapter 13's example: BASE 32, SHIFT 2 and LOG 1 put 40, 62 and 700 cycles into bins 2, 3 and 8. -/
theorem test_bins : monBin 0x220020 40 = 2 ∧ monBin 0x220020 62 = 3 ∧ monBin 0x220020 700 = 8 := by decide +kernel

/-- Chapter 10's example: in band 1, the fourth sample above 95.000 °C moves the band to 2; 95.000 itself is not above. -/
theorem test_band :
    let s := { live.wr Fld.THM_STAT_BAND 1 with therm := { live.therm with up := 3, upmin := 2 } }
    (trackBand 763 s).rd Fld.THM_STAT_BAND = 2 ∧ (trackBand 760 s).rd Fld.THM_STAT_BAND = 1 := by decide +kernel

/-- R649: the strap gives the sideband's address. -/
theorem test_powerOnReset : after (exec (.powerOnReset 3) State.reset) (fun t => t.rd Fld.SB_STAT_ADDR == 0x4F) = true := by decide +kernel

/-- Chapter 12's example: MBX_STAT reads 0x0041_0084 with SEQ 0x0041, CODE ok, OVERRUN 1 and STATE DONE; 0x80 clears OVERRUN. -/
theorem test_overrunClear :
    let s := live.setReg (Off.MBX_STAT 0) 0x00410084
    s.rd (Fld.MBX_STAT_SEQ 0) = 0x41 ∧ s.rd (Fld.MBX_STAT_CODE 0) = 0 ∧ s.rd (Fld.MBX_STAT_STATE 0) = mbDone ∧
    after (exec (.overrunClear 0 0 15 0x80) s) (fun t => t.reg (Off.MBX_STAT 0) == 0x00410004) = true := by decide +kernel

/-- R513: a second GO only sets OVERRUN. -/
theorem test_goDoorbell : after (exec (.goDoorbell 0 0) (mbxIn mbPending))
    (fun t => t.on (Fld.MBX_STAT_OVERRUN 0) && t.rd (Fld.MBX_STAT_STATE 0) == mbPending) = true := by decide +kernel

/-- R512: another source may not ring the doorbell. -/
theorem test_goDoorbell_denied : after (exec (.goDoorbell 0 5) live)
    (fun t => t.rd (Fld.MBX_STAT_STATE 0) == 0 && t.rd Fld.GLB_DENY_LAST_SOURCE == 5) = true := by decide +kernel

/-- R524: ECHO answers with its payload. -/
theorem test_echo : after (exec (.echo 0 [1, 2, 3]) live)
    (fun t => (t.mbx 0).result == some ⟨0, 0xFFFF, [1, 2, 3]⟩) = true := by decide +kernel

/-- R209: an entry's high half commits it with the low half staged before. -/
theorem test_signpost : after (exec (.spLoWrite 31 0 15 5) live) (fun t => after (exec (.spHiWrite 31 0 15 0x80000001) t)
    (fun u => u.reg (Off.GLB_SP_LO 31) == 5 && t.reg (Off.GLB_SP_LO 31) == 0)) = true := by decide +kernel

/-- R120: the replay timer of a port with a held flit replays it, and of one without does nothing. -/
theorem test_replayTimer_idle : exec (.replayTimer 3) live = .next live := by rfl

/-- R742: TRST_N low selects IDCODE. -/
theorem test_trstNLow : after (exec .trstNLow live) (fun t => t.power.tapIr == 1) = true := by decide +kernel

/-- R743: an instruction that needs workshop mode selects BYPASS without it. -/
theorem test_tap : after (exec (.tapInstructionUpdate 0x10) live) (fun t => t.power.tapIr == 0xFF) = true ∧
    after (exec (.tapInstructionUpdate 0x10) shop) (fun t => t.power.tapIr == 0x10) = true := by decide +kernel

/-- R645: SB_QUICK_COMMAND counts a transaction. -/
theorem test_sbQuick : after (exec (.sbQuickCommand none) live) (fun t => t.rd Fld.SB_XACT_COUNT == 1) = true := by decide +kernel

/-- R649: the status byte carries READY and the running image. -/
theorem test_sbStatusByte : after (exec .sbStatusByte live) (fun t => t.sb.out.getD 0 0 == 0x0A) = true := by decide +kernel

/-- Chapter 14's example: a marginal array word 0x0C35 at 41.250 °C is recorded as 0x014A_2C35. -/
theorem test_margin : (noteMarginal 0x14A 1 0xC35 live).reg (Off.OTP_MARGIN 0) = 0x014A2C35 := by decide +kernel

/-- An empty queue ticks, and the command in front runs first. -/
theorem test_step : 
    after (step { live with pending := [.trstNLow, .supplyDip] }) (fun t => t.pending == [.supplyDip] && t.power.tapIr == 1) = true := by
  decide +kernel

end Sys2Proof.Tests
end

section
/-! SUPPORT. No command stops the stack: every meaning ends in a next state. One rule per way in which a meaning branches, one lemma
per meaning of an uncommon shape, then the table's rows grouped by shape; and what a run of any length keeps. -/
namespace Sys2Proof.Machine
open Sys2Proof

/-- The outcome is a next state: no fault, and no refusal. -/
inductive GoesOn : Out → Prop
  | next (t : State) : GoesOn (.next t)

theorem GoesOn.exists_next {o : Out} (h : GoesOn o) : ∃ t, o = .next t := by
  cases h with
  | next t => exact ⟨t, rfl⟩

theorem GoesOn.ite {c : Prop} [Decidable c] {a b : Out} (ha : GoesOn a) (hb : GoesOn b) : GoesOn (if c then a else b) := by
  split <;> assumption

/-- The shape of a timer's row: nothing to do, or something armed. -/
theorem GoesOn.option {α : Type} {o : Option α} {a : Out} {f : α → Out} (ha : GoesOn a) (hf : ∀ x, GoesOn (f x)) :
    GoesOn (Option.casesOn o a f) := by
  cases o with
  | none => exact ha
  | some x => exact hf x

/-- The shape of a queue's row: nothing waits, or a first element. -/
theorem GoesOn.list {α : Type} {l : List α} {a : Out} {f : α → List α → Out} (ha : GoesOn a) (hf : ∀ x t, GoesOn (f x t)) :
    GoesOn (List.casesOn l a f) := by
  cases l with
  | nil => exact ha
  | cons x t => exact hf x t

/-! ### Shared meanings -/

theorem cfgWrite_goesOn (src off : Nat) (be : BitVec 4) (v : Reg32) (s : State) : GoesOn (cfgWrite src off be v s) :=
  .ite (.next _) (.next _)

theorem cfgRead_goesOn (src off : Nat) (s : State) : GoesOn (cfgRead src off s) := .ite (.next _) (.next _)

/-- An ordered set is noise, is looped back, falls on a lane that does not listen, or is acted on. -/
theorem withSet_goesOn (n p type : Nat) (set : List Byte) (s : State) {act : Bool → OrderedSet → Out}
    (h : ∀ inv os, GoesOn (act inv os)) : GoesOn (withSet n p type set s act) := by
  unfold withSet
  split
  · exact .next _
  · exact .ite (.ite (.next _) (.next _)) (.ite (.next _) (h _ _))

/-! ### Meanings of an uncommon shape -/

theorem execOtpDirectFieldReady_goesOn (ms : List Nat) (tb : BitVec 16) (s : State) :
    GoesOn (execOtpDirectFieldReady ms tb s) := by
  unfold execOtpDirectFieldReady
  split <;> exact .next _

theorem execOtpPowerOnReadDone_goesOn (ms : List (MarginKind × Nat)) (tb : BitVec 16) (s : State) :
    GoesOn (execOtpPowerOnReadDone ms tb s) := by
  unfold execOtpPowerOnReadDone
  split <;> exact .next _

theorem execResetNLow_goesOn (s : State) : GoesOn (execResetNLow s) := by
  refine .ite (.next _) ?_
  dsimp only
  split <;> exact .next _

theorem execRefclkLoss_goesOn (s : State) : GoesOn (execRefclkLoss s) := by
  unfold execRefclkLoss
  dsimp only
  split <;> exact .next _

theorem execCorePllLock_goesOn (s : State) : GoesOn (execCorePllLock s) := by
  unfold execCorePllLock
  split
  · exact .ite (.next _) (.next _)
  · exact .next _

theorem execCorePllLockTimeout_goesOn (s : State) : GoesOn (execCorePllLockTimeout s) := by
  unfold execCorePllLockTimeout
  split
  · exact .ite (.next _) (.next _)
  · exact .next _

theorem execPromenadeGrant_goesOn (dest : Agent) (s : State) : GoesOn (execPromenadeGrant dest s) := by
  cases dest <;> exact .next _

theorem execSliceEnd_goesOn (p : PavId) (result : SliceResult) (s : State) : GoesOn (execSliceEnd p result s) := by
  unfold execSliceEnd
  split
  · exact .next _
  · cases result <;> exact .next _

theorem execSbBusFault_goesOn (cause : SbFaultCause) (s : State) : GoesOn (execSbBusFault cause s) := by
  refine .ite (.next _) ?_
  cases cause <;> exact .next _

theorem execHoldHandshakeTimeout_goesOn (n : PortId) (s : State) : GoesOn (execHoldHandshakeTimeout n s) := by
  unfold execHoldHandshakeTimeout
  split
  · exact .ite (.next _) (.next _)
  · exact .next _

theorem execSleepExitClocksRun_goesOn (s : State) : GoesOn (execSleepExitClocksRun s) := by
  unfold execSleepExitClocksRun
  split
  · exact .ite (.next _) (.next _)
  all_goals exact .next _

theorem execManagementSramUncorrectable_goesOn (word : SramWord) (s : State) :
    GoesOn (execManagementSramUncorrectable word s) := by
  refine .ite ?_ (.next _)
  cases word with
  | core => exact .next _
  | snapshot m w => exact .ite (.next _) (.next _)
  | area m w bad => exact .next _

theorem execEventRecordWrite_goesOn (s : State) : GoesOn (execEventRecordWrite s) := by
  unfold execEventRecordWrite
  split <;> exact .next _

/-- The outcome of the word in hand, when a word is. -/
theorem execOtpWordDone_goesOn (o : FuseOutcome) (s : State) : GoesOn (execOtpWordDone o s) := by
  unfold execOtpWordDone
  split
  · exact .next _
  · refine .ite (.next _) ?_
    split
    · exact .next _
    · cases o with
      | verified k =>
        refine .ite (.next _) ?_
        dsimp only
        split
        · exact .next _
        · exact .ite (.next _) (.next _)
      | failed => exact .next _
      | supplyFell => exact .next _

theorem execTs1_goesOn (n : PortId) (p : Pos) (set : List Byte) (s : State) : GoesOn (execTs1 n p set s) := by
  refine withSet_goesOn _ _ _ _ _ fun inv os => ?_
  exact .ite (.next _) (.ite (.next _) (.ite (.ite (.next _) (.next _)) (.ite (.next _) (.next _))))

theorem execEios_goesOn (n : PortId) (r : LaneSet) (s : State) : GoesOn (execEios n r s) := by
  refine withSet_goesOn _ _ _ _ _ fun inv os => ?_
  exact .ite (.next _) (.next _)

theorem execExitSets_goesOn (n : PortId) (r : LaneSet) (s : State) : GoesOn (execExitSets n r s) := by
  refine .ite (.next _) (withSet_goesOn _ _ _ _ _ fun inv os => ?_)
  exact .ite (.next _) (.ite (.next _) (.next _))

theorem execSds_goesOn (n : PortId) (r : LaneSet) (s : State) : GoesOn (execSds n r s) := by
  refine withSet_goesOn _ _ _ _ _ fun inv os => ?_
  exact .ite (.ite (.next _) (.next _)) (.next _)

theorem execSchedulerIssue_goesOn (p : PavId) (s : State) : GoesOn (execSchedulerIssue p s) := by
  unfold execSchedulerIssue
  dsimp only
  split
  · exact .next _
  · split <;> exact .next _

theorem execImageVerifyDone_goesOn (s : State) : GoesOn (execImageVerifyDone s) := by
  unfold execImageVerifyDone
  split
  · refine .ite (.next _) ?_
    split <;> exact .next _
  · exact .next _

/-- A TS2 in T_CONFIG, in T_VERIFY, in recovery, or in a state that takes none. -/
theorem execTs2_goesOn (n : PortId) (p : Pos) (r : TimedSet) (s : State) : GoesOn (execTs2 n p r s) := by
  refine withSet_goesOn _ _ _ _ _ fun inv os => ?_
  refine .ite (.ite (.next _) (.ite (.next _) (.next _))) (.ite (.ite (.ite (.next _) ?_) (.next _))
    (.ite (.ite (.ite (.next _) ?_) (.next _)) (.next _)))
  · dsimp only
    split
    · exact .ite (.next _) (.next _)
    · exact .next _
  · dsimp only
    split <;> exact .next _

set_option smartUnfolding false in
/-- No row of the table stops the stack. Smart unfolding is off because with it each arm unfolds the match of the whole table. -/
theorem exec_goesOn (c : Instr) (s : State) : GoesOn (exec c s) := by
  cases c with
  | portRoleSet | windowSet | signpostSet | poolStatus | mapSet | mapStatus | mapTranslate
  | cadSet | cadStatus | slotSet | refWindowsSet | refSpread | refStatus | neighSet
  | eccStatus | eccClear | scrubRegions | repairMapRead | spareList | spareCommit
  | rowSpare | pavRetire | fill | copy | bulkStatus | bulkAbort | bistStatus
  | sweepStart | bistStop | sliceRow | parkStart | certRead | certLoad | certSubmit
  | arrayTest | arrayRawRead | arrayRawWrite | thmStatus | throttleSet | haltClear
  | alertSet | extSet | calStatus | laneRetune | eyeScan | tsvCal | sensorCal
  | oscLearn | calAbort | idGet | echo | startupRecordRead | stewardStatus | stewardSet
  | fwLoad | fwActivate | fwStatus | monConfig | monRead | monSnapshot | telemetrySet
  | evtConfig | evtRead | evtStatus | evtClear | otpRead | otpProgram | otpLock
  | otpLockForce | repairOtp | otpStatus | otpJournalRead | idCertRead | attest | keyEnrol
  | workshopEnter | workshopExit | powerSet | powerStatus | shutdown | rd | wr | wrp
  | wrm | atSwap | atCas | atAdd | atAnd | atOr | atXor | atSmax | atSmin
  | atUmax | atUmin | fence | cfgRd | cfgWr | doorbell | msg | rdData | cmp
  | atData | cfgData | responseSend | readDataReturn | haltDrainDone | eventMessageSend
  | vddOtppChange | sbRepeatedStartInAck | trstNLow
  | tapInstructionUpdate => exact .next _
  | testStateWrite | prbsClr | injectWrite | linkDisWrite | retrainWrite | widenWrite
  | roleWrite | windowBaseWrite | spLoWrite | spHiWrite | maskLoWrite | maskHiWrite
  | mapSelWrite | cadCtrlWrite | repeatEnWrite | haltClearWrite | hostThrWrite | oscLearnWrite
  | coreResetWrite | goDoorbell | abortDoorbell | overrunClear | stewardWrite | evtPortsWrite
  | evtSeenClear | monRestartWrite | glbRstPortWrite | glbRstPavWrite | registerWrite => exact cfgWrite_goesOn ..
  | prbsBitsLoRead | cadNowLoRead | eccLog3Read | bistFail1Read | thmPeakRead | monSumLoRead
  | readClearCounter => exact cfgRead_goesOn ..
  | sbStatusByte | sbStatus | sbWinRead | sbMbxRead | sbMbxStat => exact .ite (.next _) (.next _)
  | sbWinPtr | sbWinWrite | sbMbxWrite | sbMbxGo | sbMbxPtr =>
    exact .ite (.next _) (.ite (.next _) (.ite (.next _) (.next _)))
  | powerOnReset | supplyDip | dramInitDone | certWindowExpiry | certCheckDone | logicTestDone
  | tsvTestDone | startupTestDone | startupDone | lanePllLockLost | lanePllLockHeld | fifoSlip
  | prbsCheckerLock | prbsRelock | flitReceive | replay | ack | credit | turn | power
  | coastIdleTimer | retrain | reservedRequest | reservedResponse | throttleWindowBoundary
  | powerDownEntry | angleStep | turnBoundary | markerMissExpiry | cadTurnEdge
  | repeatEntryExpiry | scrubEscalation | sweepSliceDue | sensorSlotEnd | tsvAutoDue
  | firmwareWatchdog | deviceKeyDerived | wakeByAddress | attentionAssert | sdaReleaseTimeout
  | sclLowTimeout | wakeNInput | pavilionReset | resetNRise | pllRelockDone => exact .ite (.next _) (.next _)
  | resetDrainDone | delayedChangeApply | recoveryTimeout | fullTrainingTimer | creditReturnTimer
  | aged1 | aged2 | acceptanceStallTimer | selfRefreshExit | neighbourEscalation
  | bulkLineIssue | sliceWatchdog | sbStretchLimit | wakeStretchLimit | attentionWaitExpiry
  | wakeNDriveEnd => exact .option (.next _) (fun _ => .next _)
  | refclkReturn | laneExitLock | refreshAccrual | pavilionDrainDone => exact .ite (.next _) (.ite (.next _) (.next _))
  | cdrLockLost | scrubStepDue => exact .ite (.ite (.next _) (.next _)) (.next _)
  | gradingWindowEnd | commandTaken => exact .ite (.option (.next _) (fun _ => .next _)) (.next _)
  | coastExitWatchdog | parkedExitWatchdog | periodicInject | tLockTimeout | tConfigTimeout
  | tRateTimeout | tVerifyTimeout | tStartTimeout | trainingRetryTimer | presetMeasureEnd
  | ackTimer | replayRepeatTimer | replayTimer | recoveryFallbackTimer | creditStallTimer
  | forwardHoldTimeout | contextTimeout | adaptiveCloseTimer | bulkComplete | sliceStart
  | tsvWatchdog | commandComplete | commandTimer | monitorWindowEnd | attentionRetryTimer =>
    exact .option (.next _) (fun _ => .ite (.next _) (.next _))
  | arbiterAgeLimit => exact .option (.option (.next _) (fun _ => .next _)) (fun _ => .next _)
  | rmwComplete | telemetrySend => exact .option (.next _) (fun _ => .option (.next _) (fun _ => .next _))
  | eventRaise => exact .option (.ite (.next _) (.next _)) (fun _ => .next _)
  | sbQuickCommand => exact .ite (.next _) (.option (.next _) (fun _ => .next _))
  | otpDirectFieldReady => exact execOtpDirectFieldReady_goesOn ..
  | otpPowerOnReadDone => exact execOtpPowerOnReadDone_goesOn ..
  | resetNLow => exact execResetNLow_goesOn ..
  | refclkLoss => exact execRefclkLoss_goesOn ..
  | corePllLock => exact execCorePllLock_goesOn ..
  | corePllLockTimeout => exact execCorePllLockTimeout_goesOn ..
  | firmwareReady => exact .ite (.option (.next _) (fun _ => .ite (.next _) (.next _))) (.next _)
  | recovWaitExpiry => exact .option (.next _) (fun _ => .ite (.next _) (.ite (.next _) (.next _)))
  | squelchActivity => exact .ite (.next _) (.ite (.next _) (.ite (.next _) (.ite (.next _) (.ite (.next _) (.next _)))))
  | ts1 => exact execTs1_goesOn ..
  | ts2 => exact execTs2_goesOn ..
  | eios => exact execEios_goesOn ..
  | exitSets => exact execExitSets_goesOn ..
  | sds => exact execSds_goesOn ..
  | promenadeGrant => exact execPromenadeGrant_goesOn ..
  | schedulerIssue p => exact execSchedulerIssue_goesOn p s
  | rateChangeApply => exact .list (.next _) (fun _ _ => .next _)
  | sparingCopyDone => exact .list (.next _) (fun _ _ => .ite (.next _) (.next _))
  | sliceEnd => exact execSliceEnd_goesOn ..
  | parkingTestDone => exact .ite (.ite (.next _) (.ite (.next _) (.ite (.next _) (.ite (.next _) (.next _))))) (.next _)
  | eyePointEnd => exact .ite (.next _) (.ite (.option (.next _) (fun _ => .next _)) (.next _))
  | tsvStepEnd => exact .option (.next _) (fun _ => .option (.next _) (fun _ => .ite (.next _) (.next _)))
  | oscLearnPeriodEnd => exact .ite (.ite (.next _) (.ite (.next _) (.next _))) (.next _)
  | imageVerifyDone => exact execImageVerifyDone_goesOn ..
  | eventRecordWrite => exact execEventRecordWrite_goesOn ..
  | otpWordDone => exact execOtpWordDone_goesOn ..
  | signingDone => exact .list (.next _) (fun _ _ => .ite (.next _) (.next _))
  | sbBusFault => exact execSbBusFault_goesOn ..
  | attentionArbitration => exact .option (.next _) (fun _ => .ite (.ite (.next _) (.next _)) (.next _))
  | holdHandshakeTimeout => exact execHoldHandshakeTimeout_goesOn ..
  | sleepExitClocksRun => exact execSleepExitClocksRun_goesOn ..
  | managementSramUncorrectable => exact execManagementSramUncorrectable_goesOn ..

/-- What every row of the table but two keeps. -/
theorem exec_keeps (c : Instr) {x s : State} (h : Keeps x s) (hd : ∀ ms tb, c ≠ .otpDirectFieldReady ms tb)
    (hs : c ≠ .supplyDip) : OutKeeps x (exec c s) := by
  cases c with
  | otpDirectFieldReady => exact absurd rfl (hd _ _)
  | supplyDip => exact absurd rfl hs
  | portRoleSet | windowSet | signpostSet | poolStatus | mapSet | mapStatus | mapTranslate
  | cadSet | cadStatus | slotSet | refWindowsSet | refSpread | refStatus | neighSet
  | eccStatus | eccClear | scrubRegions | repairMapRead | spareList | spareCommit
  | rowSpare | pavRetire | fill | copy | bulkStatus | bulkAbort | bistStatus
  | sweepStart | bistStop | sliceRow | parkStart | certRead | certLoad | certSubmit
  | arrayTest | arrayRawRead | arrayRawWrite | thmStatus | throttleSet | haltClear
  | alertSet | extSet | calStatus | laneRetune | eyeScan | tsvCal | sensorCal
  | oscLearn | calAbort | idGet | echo | startupRecordRead | stewardStatus | stewardSet
  | fwLoad | fwActivate | fwStatus | monConfig | monRead | monSnapshot | telemetrySet
  | evtConfig | evtRead | evtStatus | evtClear | otpRead | otpProgram | otpLock
  | otpLockForce | repairOtp | otpStatus | otpJournalRead | idCertRead | attest | keyEnrol
  | workshopEnter | workshopExit | powerSet | powerStatus | shutdown => exact .next (quietStep_keeps (issue_keeps _ _ _ h))
  | testStateWrite | prbsClr | injectWrite | linkDisWrite | retrainWrite | widenWrite
  | roleWrite | windowBaseWrite | spLoWrite | spHiWrite | maskLoWrite | maskHiWrite
  | mapSelWrite | cadCtrlWrite | repeatEnWrite | haltClearWrite | hostThrWrite | oscLearnWrite
  | coreResetWrite | goDoorbell | abortDoorbell | overrunClear | stewardWrite | evtPortsWrite
  | evtSeenClear | monRestartWrite | glbRstPortWrite | glbRstPavWrite | registerWrite => exact cfgWrite_keeps _ _ _ _ h
  | cadNowLoRead | eccLog3Read | bistFail1Read | thmPeakRead | monSumLoRead | readClearCounter => exact cfgRead_keeps _ _ h
  | powerOnReset => exact execPowerOnReset_keeps _ h
  | otpPowerOnReadDone => exact execOtpPowerOnReadDone_keeps _ _ h
  | resetNLow => exact execResetNLow_keeps h
  | resetDrainDone => exact execResetDrainDone_keeps h
  | refclkLoss => exact execRefclkLoss_keeps h
  | refclkReturn => exact execRefclkReturn_keeps h
  | corePllLock => exact execCorePllLock_keeps h
  | corePllLockTimeout => exact execCorePllLockTimeout_keeps h
  | dramInitDone => exact execDramInitDone_keeps h
  | firmwareReady => exact execFirmwareReady_keeps h
  | certWindowExpiry => exact execCertWindowExpiry_keeps h
  | certCheckDone => exact execCertCheckDone_keeps h
  | logicTestDone => exact execLogicTestDone_keeps _ _ h
  | tsvTestDone => exact execTsvTestDone_keeps _ _ _ h
  | startupTestDone => exact execStartupTestDone_keeps h
  | startupDone => exact execStartupDone_keeps h
  | recovWaitExpiry => exact execRecovWaitExpiry_keeps h
  | lanePllLockLost => exact execLanePllLockLost_keeps _ h
  | lanePllLockHeld => exact execLanePllLockHeld_keeps _ h
  | fifoSlip => exact execFifoSlip_keeps _ _ h
  | cdrLockLost => exact execCdrLockLost_keeps _ _ h
  | gradingWindowEnd => exact execGradingWindowEnd_keeps _ _ _ h
  | laneExitLock => exact execLaneExitLock_keeps _ _ h
  | coastExitWatchdog => exact execCoastExitWatchdog_keeps _ _ h
  | parkedExitWatchdog => exact execParkedExitWatchdog_keeps _ _ h
  | squelchActivity => exact execSquelchActivity_keeps _ h
  | delayedChangeApply => exact execDelayedChangeApply_keeps _ h
  | prbsCheckerLock => exact execPrbsCheckerLock_keeps _ _ h
  | prbsRelock => exact execPrbsRelock_keeps _ _ _ _ h
  | periodicInject => exact execPeriodicInject_keeps _ _ h
  | prbsBitsLoRead => exact execPrbsBitsLoRead_keeps _ _ _ _ _ h
  | ts1 => exact execTs1_keeps _ _ _ h
  | ts2 => exact execTs2_keeps _ _ _ h
  | eios => exact execEios_keeps _ _ h
  | exitSets => exact execExitSets_keeps _ _ h
  | sds => exact execSds_keeps _ _ h
  | tLockTimeout => exact execTLockTimeout_keeps _ h
  | tConfigTimeout => exact execTConfigTimeout_keeps _ h
  | tRateTimeout => exact execTRateTimeout_keeps _ h
  | tVerifyTimeout => exact execTVerifyTimeout_keeps _ h
  | tStartTimeout => exact execTStartTimeout_keeps _ h
  | trainingRetryTimer => exact execTrainingRetryTimer_keeps _ h
  | presetMeasureEnd => exact execPresetMeasureEnd_keeps _ _ _ h
  | flitReceive => exact execFlitReceive_keeps _ _ h
  | replay => exact execReplay_keeps _ _ h
  | ack => exact execAck_keeps _ _ h
  | ackTimer => exact execAckTimer_keeps _ h
  | replayRepeatTimer => exact execReplayRepeatTimer_keeps _ h
  | replayTimer => exact execReplayTimer_keeps _ h
  | recoveryFallbackTimer => exact execRecoveryFallbackTimer_keeps _ h
  | recoveryTimeout => exact execRecoveryTimeout_keeps _ h
  | fullTrainingTimer => exact execFullTrainingTimer_keeps _ h
  | credit => exact execCredit_keeps _ _ h
  | creditReturnTimer => exact execCreditReturnTimer_keeps _ _ h
  | creditStallTimer => exact execCreditStallTimer_keeps _ _ _ h
  | turn => exact execTurn_keeps _ _ _ _ h
  | power => exact execPower_keeps _ _ _ h
  | coastIdleTimer => exact execCoastIdleTimer_keeps _ h
  | retrain => exact execRetrain_keeps _ _ h
  | rd => exact execRd_keeps _ _ h
  | wr => exact execWr_keeps _ _ _ h
  | wrp => exact execWrp_keeps _ _ h
  | wrm => exact execWrm_keeps _ _ _ h
  | atSwap => exact execAtSwap_keeps _ _ _ h
  | atCas => exact execAtCas_keeps _ _ _ h
  | atAdd => exact execAtAdd_keeps _ _ _ h
  | atAnd => exact execAtAnd_keeps _ _ _ h
  | atOr => exact execAtOr_keeps _ _ _ h
  | atXor => exact execAtXor_keeps _ _ _ h
  | atSmax => exact execAtSmax_keeps _ _ _ h
  | atSmin => exact execAtSmin_keeps _ _ _ h
  | atUmax => exact execAtUmax_keeps _ _ _ h
  | atUmin => exact execAtUmin_keeps _ _ _ h
  | fence => exact execFence_keeps _ _ h
  | cfgRd => exact execCfgRd_keeps _ _ h
  | cfgWr => exact execCfgWr_keeps _ _ _ h
  | doorbell => exact execDoorbell_keeps _ _ h
  | msg => exact execMsg_keeps _ _ h
  | reservedRequest => exact execReservedRequest_keeps _ _ _ _ h
  | rdData => exact execRdData_keeps _ _ _ h
  | cmp => exact execCmp_keeps _ _ h
  | atData => exact execAtData_keeps _ _ _ h
  | cfgData => exact execCfgData_keeps _ _ h
  | reservedResponse => exact execReservedResponse_keeps _ _ h
  | responseSend => exact execResponseSend_keeps _ h
  | promenadeGrant => exact execPromenadeGrant_keeps _ h
  | arbiterAgeLimit => exact execArbiterAgeLimit_keeps _ h
  | readDataReturn => exact execReadDataReturn_keeps _ _ h
  | rmwComplete => exact execRmwComplete_keeps _ h
  | forwardHoldTimeout => exact execForwardHoldTimeout_keeps _ h
  | contextTimeout => exact execContextTimeout_keeps _ _ h
  | schedulerIssue p => exact execSchedulerIssue_keeps (s := s) p h
  | aged1 => exact execAged1_keeps _ _ h
  | aged2 => exact execAged2_keeps _ _ h
  | acceptanceStallTimer => exact execAcceptanceStallTimer_keeps _ h
  | throttleWindowBoundary => exact execThrottleWindowBoundary_keeps _ h
  | adaptiveCloseTimer => exact execAdaptiveCloseTimer_keeps _ _ h
  | powerDownEntry => exact execPowerDownEntry_keeps _ _ h
  | angleStep => exact execAngleStep_keeps h
  | turnBoundary => exact execTurnBoundary_keeps h
  | markerMissExpiry => exact execMarkerMissExpiry_keeps h
  | cadTurnEdge => exact execCadTurnEdge_keeps _ h
  | refreshAccrual => exact execRefreshAccrual_keeps _ _ h
  | rateChangeApply => exact execRateChangeApply_keeps _ h
  | selfRefreshExit => exact execSelfRefreshExit_keeps _ _ h
  | neighbourEscalation => exact execNeighbourEscalation_keeps _ h
  | sparingCopyDone => exact execSparingCopyDone_keeps _ _ h
  | repeatEntryExpiry => exact execRepeatEntryExpiry_keeps _ h
  | scrubStepDue => exact execScrubStepDue_keeps _ h
  | scrubEscalation => exact execScrubEscalation_keeps _ h
  | bulkLineIssue => exact execBulkLineIssue_keeps h
  | bulkComplete => exact execBulkComplete_keeps h
  | sliceStart => exact execSliceStart_keeps _ h
  | sliceEnd => exact execSliceEnd_keeps _ _ h
  | sliceWatchdog => exact execSliceWatchdog_keeps _ h
  | sweepSliceDue => exact execSweepSliceDue_keeps h
  | parkingTestDone u => exact execParkingTestDone_keeps u h
  | sensorSlotEnd => exact execSensorSlotEnd_keeps _ h
  | haltDrainDone => exact execHaltDrainDone_keeps h
  | eyePointEnd => exact execEyePointEnd_keeps _ _ h
  | tsvStepEnd => exact execTsvStepEnd_keeps _ _ h
  | tsvWatchdog => exact execTsvWatchdog_keeps _ h
  | tsvAutoDue => exact execTsvAutoDue_keeps _ h
  | oscLearnPeriodEnd => exact execOscLearnPeriodEnd_keeps _ h
  | firmwareWatchdog => exact execFirmwareWatchdog_keeps h
  | commandTaken => exact execCommandTaken_keeps h
  | commandComplete => exact execCommandComplete_keeps _ h
  | commandTimer => exact execCommandTimer_keeps _ h
  | imageVerifyDone => exact execImageVerifyDone_keeps h
  | eventRaise => exact execEventRaise_keeps _ _ h
  | eventRecordWrite => exact execEventRecordWrite_keeps h
  | eventMessageSend => exact execEventMessageSend_keeps _ h
  | telemetrySend => exact execTelemetrySend_keeps _ h
  | monitorWindowEnd => exact execMonitorWindowEnd_keeps _ h
  | otpWordDone => exact execOtpWordDone_keeps _ h
  | vddOtppChange => exact execVddOtppChange_keeps _ h
  | deviceKeyDerived => exact execDeviceKeyDerived_keeps h
  | signingDone => exact execSigningDone_keeps h
  | sbStatusByte => exact execSbStatusByte_keeps h
  | sbStatus => exact execSbStatus_keeps h
  | sbWinPtr => exact execSbWinPtr_keeps _ _ h
  | sbWinRead => exact execSbWinRead_keeps h
  | sbWinWrite => exact execSbWinWrite_keeps _ _ h
  | sbMbxWrite => exact execSbMbxWrite_keeps _ _ h
  | sbMbxGo => exact execSbMbxGo_keeps _ _ h
  | sbMbxRead => exact execSbMbxRead_keeps h
  | sbMbxPtr => exact execSbMbxPtr_keeps _ _ h
  | sbMbxStat => exact execSbMbxStat_keeps h
  | sbQuickCommand => exact execSbQuickCommand_keeps _ h
  | sbStretchLimit u => exact execSbStretchLimit_keeps u h
  | sbBusFault => exact execSbBusFault_keeps _ h
  | sbRepeatedStartInAck => exact execSbRepeatedStartInAck_keeps h
  | wakeByAddress => exact execWakeByAddress_keeps _ h
  | wakeStretchLimit => exact execWakeStretchLimit_keeps h
  | attentionAssert => exact execAttentionAssert_keeps h
  | attentionArbitration => exact execAttentionArbitration_keeps _ _ h
  | attentionWaitExpiry => exact execAttentionWaitExpiry_keeps h
  | attentionRetryTimer => exact execAttentionRetryTimer_keeps h
  | sdaReleaseTimeout => exact execSdaReleaseTimeout_keeps h
  | sclLowTimeout => exact execSclLowTimeout_keeps h
  | holdHandshakeTimeout => exact execHoldHandshakeTimeout_keeps _ h
  | pavilionDrainDone => exact execPavilionDrainDone_keeps _ h
  | sleepExitClocksRun => exact execSleepExitClocksRun_keeps h
  | wakeNInput => exact execWakeNInput_keeps h
  | wakeNDriveEnd => exact execWakeNDriveEnd_keeps h
  | pavilionReset => exact execPavilionReset_keeps _ h
  | trstNLow => exact execTrstNLow_keeps h
  | tapInstructionUpdate => exact execTapInstructionUpdate_keeps _ h
  | resetNRise => exact execResetNRise_keeps h
  | pllRelockDone => exact execPllRelockDone_keeps _ h
  | managementSramUncorrectable => exact execManagementSramUncorrectable_keeps _ h

/-- What every row of the table keeps (R586): the two that `exec_keeps` leaves out change the variant alone. -/
theorem exec_going (c : Instr) {x s t : State} (h : Keeps x s) (e : exec c s = .next t) : Going x t := by
  by_cases hd : ∃ ms tb, c = .otpDirectFieldReady ms tb
  · obtain ⟨ms, tb, rfl⟩ := hd
    exact execOtpDirectFieldReady_going ms tb h.toGoing t e
  · by_cases hs : c = .supplyDip
    · subst hs
      exact execSupplyDip_going h.toGoing t e
    · exact (exec_keeps c h (fun ms tb k => hd ⟨ms, tb, k⟩) hs t e).toGoing

/-- A step takes the front of the queue, if there is one, and keeps the rest of what every row keeps. -/
theorem step_keeps (s : State) : ∃ t, step s = .next t ∧ Going { s with pending := s.pending.drop 1 } t := by
  cases hp : s.pending with
  | nil =>
    refine ⟨s.tick, by simp only [step, hp], ?_⟩
    have e : { s with pending := [] } = s := by rw [← hp]
    simpa only [List.drop_nil, e] using (State.tick_keeps (.refl s)).toGoing
  | cons c rest =>
    obtain ⟨t, ht⟩ := (exec_goesOn c { s with pending := rest }).exists_next
    exact ⟨t, by simp only [step, hp, ht], exec_going c (.refl _) ht⟩

/-- What a run of `k` steps keeps: the queue loses its first `k` commands. -/
theorem run_keeps (k : Nat) (s : State) :
    ∃ t, Host.Core.run core k s = .next t ∧ Going { s with pending := s.pending.drop k } t := by
  induction k generalizing s with
  | zero => exact ⟨s, rfl, .refl s⟩
  | succ k ih =>
    obtain ⟨u, hu, hg⟩ := step_keeps s
    obtain ⟨t, ht, hk⟩ := ih u
    refine ⟨t, ?_, ?_⟩
    · have hs : core.step s = .next u := hu
      simp only [Host.Core.run, hs, ht]
    · have hq : u.pending.drop k = s.pending.drop (k + 1) := by rw [hg.pending, List.drop_drop, Nat.add_comm]
      exact ⟨hk.pending.trans hq, Nat.le_trans hg.now hk.now, Nat.le_trans hg.free hk.free, fun m => hk.mem (hg.mem m),
        hg.fuses.trans hk.fuses⟩

/-- Settles O2: every row goes on and keeps what it must, and a run by induction on its length. -/
theorem everyCommandGoesOn : Obligations.EveryCommandGoesOn := by
  unfold Obligations.EveryCommandGoesOn
  refine ⟨fun c s => ?_, fun k s => ?_⟩
  · obtain ⟨t, ht⟩ := (exec_goesOn c s).exists_next
    exact ⟨t, ht, exec_going c (.refl s) ht, fun hd hs => (exec_keeps c (.refl s) hd hs t ht).variant⟩
  · obtain ⟨t, ht, hg⟩ := run_keeps k s
    exact ⟨t, ht, hg.pending, hg.now, hg.mem, hg.fuses⟩

end Sys2Proof.Machine
end

section
/-! SUPPORT. Where the table's registers lie, and what an access to one does while the stack serves (R11, R13, R698): no late
access of the sideband goes before it. -/
namespace Sys2Proof.Machine
open Sys2Proof

/-! ### Where a register lies -/

/-- How far the last of a repeated register's instances lies beyond its base. -/
def dimsSpan : List (Nat × Nat) → Nat
  | [] => 0
  | (c, st) :: t => (c - 1) * st + dimsSpan t

theorem dimsHit_le (ds : List (Nat × Nat)) (d : Nat) (h : dimsHit ds d = true) : d ≤ dimsSpan ds := by
  induction ds generalizing d with
  | nil => simpa [dimsHit, dimsSpan] using h
  | cons e t ih =>
    obtain ⟨c, st⟩ := e
    simp only [dimsHit, Bool.and_eq_true, decide_eq_true_eq] at h
    calc d = d / st * st + d % st := (Nat.div_add_mod' d st).symm
      _ ≤ (c - 1) * st + dimsSpan t := Nat.add_le_add (Nat.mul_le_mul_right st (by omega)) (ih _ h.2)

/-- All strides of a register are multiples of `k`. -/
def stridesBy (k : Nat) (ds : List (Nat × Nat)) : Bool := ds.all (fun e => e.2 % k == 0)

theorem dvd_of_dimsHit (k : Nat) (ds : List (Nat × Nat)) (d : Nat) (hk : stridesBy k ds = true) (h : dimsHit ds d = true) :
    k ∣ d := by
  induction ds generalizing d with
  | nil => simp [show d = 0 by simpa [dimsHit] using h]
  | cons e t ih =>
    obtain ⟨c, st⟩ := e
    simp only [dimsHit, Bool.and_eq_true, decide_eq_true_eq] at h
    simp only [stridesBy, List.all_cons, Bool.and_eq_true, beq_iff_eq] at hk
    have hst : k ∣ st := Nat.dvd_of_mod_eq_zero hk.1
    rw [← Nat.div_add_mod d st]
    exact Nat.dvd_add (Dvd.dvd.mul_right hst _) (ih _ hk.2 h.2)

/-- Where `k` divides every stride of a register, each copy lies as its base does modulo `k`. -/
theorem RegRow.covers_mod {r : RegRow} {off : Nat} (k : Nat) (h : r.covers off = true) (hk : stridesBy k r.dims = true) :
    off % k = r.base % k := by
  simp only [RegRow.covers, Bool.and_eq_true, decide_eq_true_eq] at h
  obtain ⟨c, hc⟩ := dvd_of_dimsHit k r.dims _ hk h.2
  rw [show off = r.base + k * c by omega, Nat.add_mul_mod_self_left]

theorem RegRow.covers_bounds {r : RegRow} {off : Nat} (h : r.covers off = true) : r.base ≤ off ∧ off ≤ r.base + dimsSpan r.dims := by
  simp only [RegRow.covers, Bool.and_eq_true, decide_eq_true_eq] at h
  have := dimsHit_le _ _ h.2
  omega

theorem regAt_covers {off : Nat} {row : RegRow} (h : regAt off = some row) : row ∈ regBlock off ∧ row.covers off = true :=
  ⟨List.mem_of_find?_eq_some h, by simpa using List.find?_some h⟩

/-- Every copy of a row lies between `lo` and `hi`, at a multiple of four. -/
def RegRow.inBlock (lo hi : Nat) (r : RegRow) : Bool :=
  decide (lo ≤ r.base) && decide (r.base + dimsSpan r.dims < hi) && r.base % 4 == 0 && stridesBy 4 r.dims

theorem RegRow.inBlock_covers {lo hi off : Nat} {r : RegRow} (h : r.inBlock lo hi = true) (hc : r.covers off = true) :
    off % 4 = 0 ∧ lo ≤ off ∧ off < hi := by
  simp only [RegRow.inBlock, Bool.and_eq_true, decide_eq_true_eq, beq_iff_eq] at h
  obtain ⟨⟨⟨hlo, hhi⟩, hb⟩, hs⟩ := h
  have hm := covers_mod 4 hc hs
  have := covers_bounds hc
  omega

theorem regsGlb_inBlock : (regsGlb0 ++ regsGlb1 ++ regsGlb2).all (RegRow.inBlock 0 0x1000) = true := by decide

theorem regsCad_inBlock : regsCad.all (RegRow.inBlock 0x1000 0x2000) = true := by decide

theorem regsThm_inBlock : regsThm.all (RegRow.inBlock 0x2000 0x3000) = true := by decide

theorem regsOtp_inBlock : regsOtp.all (RegRow.inBlock 0x3000 0x4000) = true := by decide

theorem regsSb_inBlock : regsSb.all (RegRow.inBlock 0x4000 0x5000) = true := by decide

theorem regsEvt_inBlock : regsEvt.all (RegRow.inBlock 0x10000 0x20000) = true := by decide

theorem regsMbx_inBlock : regsMbx.all (RegRow.inBlock 0x20000 0x32000) = true := by decide

theorem regsMon_inBlock : (regsMon0 ++ regsMon1).all (RegRow.inBlock 0x40000 0x44000) = true := by decide

theorem regsPrt_inBlock : (regsPrt0 ++ regsPrt1).all (RegRow.inBlock 0x80000 0x90000) = true := by decide

theorem regsPav_inBlock : (regsPav0 ++ regsPav1 ++ regsPav2).all (RegRow.inBlock 0xC0000 0xE0000) = true := by decide

/-- A register lies in the block its offset is searched in, at a multiple of four (R13). -/
theorem regAt_inBlock {off : Nat} {row : RegRow} (h : regAt off = some row) :
    off % 4 = 0 ∧
    (off < 0x5000 ∨ (0x10000 ≤ off ∧ off < 0x20000) ∨ (0x20000 ≤ off ∧ off < 0x32000) ∨ (0x40000 ≤ off ∧ off < 0x44000) ∨
      (0x80000 ≤ off ∧ off < 0x90000) ∨ (0xC0000 ≤ off ∧ off < 0xE0000)) := by
  obtain ⟨hm, hc⟩ := regAt_covers h
  have inB : ∀ {l : List RegRow} {lo hi : Nat}, l.all (RegRow.inBlock lo hi) = true → row ∈ l → off % 4 = 0 ∧ lo ≤ off ∧ off < hi :=
    fun hl hr => RegRow.inBlock_covers (List.all_eq_true.mp hl _ hr) hc
  unfold regBlock at hm
  split_ifs at hm
  · have := inB regsGlb_inBlock (List.mem_append_left _ (List.mem_append_left _ hm)); omega
  · have := inB regsGlb_inBlock hm; omega
  · have := inB regsCad_inBlock hm; omega
  · have := inB regsThm_inBlock hm; omega
  · have := inB regsOtp_inBlock hm; omega
  · have := inB regsSb_inBlock hm; omega
  · have := inB regsEvt_inBlock hm; omega
  · have := inB regsMbx_inBlock hm; omega
  · have := inB regsMon_inBlock hm; omega
  · have := inB regsPrt_inBlock hm; omega
  · have := inB regsPav_inBlock hm; omega

/-! ### Accesses while the stack serves -/

/-- No access of the sideband waits, so none goes before the one at hand. -/
theorem lateWrites_of_serves {s : State} (h : Serves s) : lateWrites s = s := by
  simp [lateWrites, applyLate, sbHand, h.served, h.late, h.hand]

theorem cfgWrite_of_serves {s : State} (h : Serves s) (src off : Nat) (be : BitVec 4) (v : Reg32) :
    cfgWrite src off be v s =
      .next (quietStep { (regWrite src off be v s).2 with lastStatus := (regWrite src off be v s).1 }) := by
  simp only [cfgWrite, lateWrites_of_serves h, h.served, if_true]

theorem cfgRead_of_serves {s : State} (h : Serves s) (src off : Nat) :
    cfgRead src off s =
      .next (quietStep { (regRead src off s).2 with lastRead := (regRead src off s).1, lastStatus := stOk }) := by
  simp only [cfgRead, lateWrites_of_serves h, h.served, if_true]

/-- A row of the table that is a write of one register is that write. -/
theorem writeRow_exec (c : Instr) (src : Source) (off : Nat) (be : BitVec 4) (v : Reg32) (s : State)
    (h : writeRow c = some (src, off, be, v)) : exec c s = cfgWrite src off be v s := by
  cases c <;> simp only [writeRow, Option.some.injEq, Prod.mk.injEq, reduceCtorEq] at h
  all_goals
    obtain ⟨rfl, rfl, rfl, rfl⟩ := h
    rfl

/-- A row of the table that is a read of one register is that read. -/
theorem readRow_exec (c : Instr) (src : Source) (off : Nat) (s : State) (h : readRow c = some (src, off)) :
    exec c s = cfgRead src off s := by
  cases c <;> simp only [readRow, Option.some.injEq, Prod.mk.injEq, reduceCtorEq] at h
  all_goals
    obtain ⟨rfl, rfl⟩ := h
    rfl

theorem regWrite_unmapped (src off : Nat) (be : BitVec 4) (v : Reg32) (s : State) (h : regAt off = none) :
    regWrite src off be v s = (stOk, s) := by
  simp only [regWrite, h]

theorem regRead_unmapped (src off : Nat) (s : State) (h : regAt off = none) : regRead src off s = (0, s) := by
  simp only [regRead, h]

/-- Settles O17: where no register lies the access finds none; each block's rows lie in it. -/
theorem unmappedOffsetsReadZero : Obligations.UnmappedOffsetsReadZero := by
  unfold Obligations.UnmappedOffsetsReadZero
  refine ⟨fun src off be v s h => ?_, fun off row h => regAt_inBlock h⟩
  have hw := regWrite_unmapped src off.toNat be v s h
  have hr := regRead_unmapped src off.toNat s h
  refine ⟨hw, hr, fun hs => ⟨?_, ?_⟩⟩
  · rw [writeRow_exec (.registerWrite off src be v) src off.toNat be v s rfl, cfgWrite_of_serves hs, hw]
  · rw [readRow_exec (.readClearCounter src off) src off.toNat s rfl, cfgRead_of_serves hs, hr]

end Sys2Proof.Machine
end

section
/-! SUPPORT. What a write that reaches a register comes to, block by block, and a register with no effect of its own (R11, R12). -/
namespace Sys2Proof.Machine
open Sys2Proof

/-- A write that reaches a register is not denied. -/
theorem Reaches.not_denied {s : State} {src off : Nat} {row : RegRow} {be : BitVec 4} (h : Reaches s src off row be) :
    (coversRws row.fields (beBits be) && !s.steward src) = false := by
  cases hc : coversRws row.fields (beBits be) with
  | false => rfl
  | true => simp [h.allowed hc]

/-- A write that reaches a register of the GLB block (a signpost's, where pools are enabled). -/
theorem regWrite_glb {s : State} {src off : Nat} {row : RegRow} {be : BitVec 4} (h : Reaches s src off row be) (v : Reg32)
    (ho : off < 0x1000) (hp : 0x900 ≤ off → off < 0xA00 → s.poolOn = true) :
    regWrite src off be v s = glbWrite src off row.fields (beBits be) v s := by
  have hu : ¬ (0x900 ≤ off ∧ off < 0xA00 ∧ s.poolOn = false) := fun ⟨h1, h2, h3⟩ => by simp [hp h1 h2] at h3
  have hb : be ≠ 0#4 := h.bytes
  have hm : ¬ (0x20000 ≤ off ∧ off < 0x40000) := by omega
  have hq : decide (0x80000 ≤ off) = false := decide_eq_false (by omega)
  simp [regWrite, h.isRow, hu, hb, hm, hq, h.not_denied, ho]

/-- A write that reaches a register of an enabled port, but for a ROLE field set to peer where pools are off. -/
theorem regWrite_prt {s : State} {src off : Nat} {row : RegRow} {be : BitVec 4} (h : Reaches s src off row be) (v : Reg32)
    (ho : 0x80000 ≤ off) (ho' : off < 0x90000) (hn : s.portEnabled ((off - 0x80000) / 0x1000) = true)
    (hr : off % 0x1000 = 0x500 → be.getLsbD 0 = true → v.toNat % 4 = 1 → s.poolOn = true) :
    regWrite src off be v s = (stOk, prtWrite src off row.fields (beBits be) v s) := by
  have hu : ¬ (0x900 ≤ off ∧ off < 0xA00 ∧ s.poolOn = false) := by omega
  have hb : be ≠ 0#4 := h.bytes
  have hm : ¬ (0x20000 ≤ off ∧ off < 0x40000) := by omega
  have hg : ¬ off < 0x1000 := by omega
  have hp : ¬ (off % 0x1000 = 0x500 ∧ be.getLsbD 0 = true ∧ v.toNat % 4 = 1 ∧ s.poolOn = false) :=
    fun ⟨h1, h2, h3, h4⟩ => by simp [hr h1 h2 h3] at h4
  simp only [show (0 : Nat) < 4 by decide, BitVec.getLsbD_eq_getElem] at hp
  simp [regWrite, h.isRow, hu, hb, hm, ho, ho', hg, hn, hp, h.not_denied, and_assoc]

/-- A write that reaches a register of any other block but the mailboxes. -/
theorem regWrite_rest {s : State} {src off : Nat} {row : RegRow} {be : BitVec 4} (h : Reaches s src off row be) (v : Reg32)
    (ho : 0x1000 ≤ off) (hm : ¬ (0x20000 ≤ off ∧ off < 0x40000)) (hp : ¬ (0x80000 ≤ off ∧ off < 0x90000)) :
    regWrite src off be v s = (stOk, restWrite src off row.fields (beBits be) v s) := by
  have hu : ¬ (0x900 ≤ off ∧ off < 0xA00 ∧ s.poolOn = false) := by omega
  have hb : be ≠ 0#4 := h.bytes
  have hg : ¬ off < 0x1000 := by omega
  have hq : (decide (0x80000 ≤ off) && decide (off < 0x90000)) = false := by
    simpa only [← Bool.decide_and, decide_eq_false_iff_not] using hp
  simp [regWrite, h.isRow, hu, hb, hm, hq, hg, h.not_denied]

/-- A register of the thermal to event blocks with no effect of its own stores what its fields make of the write. -/
theorem restWrite_plain (src off : Nat) (fs : List FieldRow) (b v : Reg32) (s : State) (h : 0x2000 ≤ off) (h' : off < 0x20000)
    (hc : off ≠ Off.THM_CTRL) (hh : off ≠ Off.THM_HALT) (hr : off ≠ Off.EVT_ROUTE) :
    restWrite src off fs b v s = s.setReg off (s.settled off (s.reg off) (fieldsWrite fs (s.reg off) v b (s.steward src))) := by
  have h1 : off ≠ Off.CAD_CTRL := by simp [Off.CAD_CTRL]; omega
  have h2 : ¬ (0x1020 ≤ off ∧ off < 0x1030) := by omega
  have h3 : ¬ (0x41000 ≤ off ∧ off < 0x44000 ∧ off % 0x100 = 0) := by omega
  have h4 : ¬ (0xC0000 ≤ off ∧ 0x100 ≤ off % 0x1000 ∧ off % 0x1000 < 0x140) := by omega
  have h5 : ¬ (0xC0000 ≤ off ∧ off % 0x1000 = 0x200) := by omega
  simp only [restWrite, if_neg h1, if_neg h2, if_neg hc, if_neg hh, if_neg hr, if_neg h3, if_neg h4, if_neg h5]

/-- The table's row of a write of one register, while the stack serves. -/
theorem exec_of_writeRow {c : Instr} {src : Source} {off : Nat} {be : BitVec 4} {v : Reg32} {s : State}
    (h : writeRow c = some (src, off, be, v)) (hs : Serves s) :
    exec c s = .next (quietStep { (regWrite src off be v s).2 with lastStatus := (regWrite src off be v s).1 }) := by
  rw [writeRow_exec c src off be v s h, cfgWrite_of_serves hs]

theorem exec_of_readRow {c : Instr} {src : Source} {off : Nat} {s : State} (h : readRow c = some (src, off)) (hs : Serves s) :
    exec c s = .next (quietStep { (regRead src off s).2 with lastRead := (regRead src off s).1, lastStatus := stOk }) := by
  rw [readRow_exec c src off s h, cfgRead_of_serves hs]

theorem State.regsKept_setReg (s : State) (off : Nat) (v : Reg32) : RegsKept s (s.setReg off v) [off] :=
  fun _ hi => State.reg_setReg_ne s off v (by simpa using hi)

/-- Settles O18: each such row is the access, and a plain register's write stores. -/
theorem registerRowsAreAccesses : Obligations.RegisterRowsAreAccesses := by
  unfold Obligations.RegisterRowsAreAccesses
  refine ⟨⟨fun c src off be v s h hs => exec_of_writeRow h hs, fun c src off s h hs => exec_of_readRow h hs⟩,
    fun off src be v s row h ho => ⟨?_, State.reg_setReg_same _ _ _, State.regsKept_setReg _ _ _⟩⟩
  have hw : regWrite src off.toNat be v s = (stOk, s.setReg off.toNat (Written s src off.toNat row be v)) := by
    rw [regWrite_rest h v (by omega) (by omega) (by omega)]
    simp only [Off.EVT_ROUTE, Off.THM_CTRL, Off.THM_HALT] at ho
    rw [restWrite_plain src _ _ _ _ _ (by omega) (by omega) (by simp only [Off.THM_CTRL]; omega)
      (by simp only [Off.THM_HALT]; omega) (by simp only [Off.EVT_ROUTE]; omega)]
    rfl
  rw [exec_of_writeRow (c := .registerWrite off src be v) rfl h.toServes, hw]

end Sys2Proof.Machine
end

section
/-! SUPPORT. A denied write is counted and recorded (R167, R505), and what a read clears (R11). -/
namespace Sys2Proof.Machine
open Sys2Proof

/-! ### What a denial records -/

/-- A denial changes no register but GLB_DENY and GLB_DENY_LAST. -/
theorem State.reg_deny_ne (src : Nat) (c : Bool) (target : Nat) (s : State) {i : Nat} (h : i ≠ Fld.GLB_DENY_COUNT.off)
    (h' : i ≠ Fld.GLB_DENY_LAST_KIND.off) : (deny src c target s).reg i = s.reg i := by
  simp only [deny, State.raiseOnce_reg]
  rw [State.reg_wr_ne _ Fld.GLB_DENY_LAST_TARGET _ h', State.reg_wr_ne _ Fld.GLB_DENY_LAST_SOURCE _ h',
    State.reg_wr_ne _ _ _ h', State.reg_sat_ne _ _ _ h]

theorem State.rd_deny_ne (src : Nat) (c : Bool) (target : Nat) (s : State) (f : Fld) (h : f.off ≠ Fld.GLB_DENY_COUNT.off)
    (h' : f.off ≠ Fld.GLB_DENY_LAST_KIND.off) : (deny src c target s).rd f = s.rd f := by
  simp only [State.rd, State.reg_deny_ne src c target s h h']

theorem State.rd_deny_count (src : Nat) (c : Bool) (target : Nat) (s : State) :
    (deny src c target s).rd Fld.GLB_DENY_COUNT = min (2 ^ Fld.GLB_DENY_COUNT.w - 1) (s.rd Fld.GLB_DENY_COUNT + 1) := by
  simp only [deny, State.raiseOnce_rd]
  rw [State.rd_wr_ne _ _ _ _ (by decide), State.rd_wr_ne _ _ _ _ (by decide), State.rd_wr_ne _ _ _ _ (by decide),
    State.rd_sat_same _ _ _ (by decide)]

/-- The last denial: of a command or an access, whose, and of what. -/
theorem State.rd_deny_last (src : Nat) (c : Bool) (target : Nat) (s : State) :
    (deny src c target s).rd Fld.GLB_DENY_LAST_KIND = b2n c ∧ (deny src c target s).rd Fld.GLB_DENY_LAST_SOURCE = src % 32 ∧
    (deny src c target s).rd Fld.GLB_DENY_LAST_TARGET = target % 2 ^ 20 := by
  simp only [deny, State.raiseOnce_rd]
  refine ⟨?_, ?_, State.rd_wr_same _ _ _ (by decide)⟩
  · rw [State.rd_wr_disj _ _ _ _ (by decide) (by decide), State.rd_wr_disj _ _ _ _ (by decide) (by decide),
      State.rd_wr_same _ _ _ (by decide)]
    cases c <;> rfl
  · rw [State.rd_wr_disj _ _ _ _ (by decide) (by decide), State.rd_wr_same _ _ _ (by decide)]
    rfl

/-- An event raised at most once a turn is on its way, or has been this turn. -/
theorem State.raised_raiseOnce (s : State) (ev d : Nat) : Raised (s.raiseOnce ev d) ev ∨ s.onceTurn.contains ev = true := by
  unfold State.raiseOnce
  split
  · next h => exact .inr h
  · exact .inl (State.raise_sets_out s ev d)

theorem raised_deny (src : Nat) (c : Bool) (target : Nat) (s : State) :
    Raised (deny src c target s) (968 + 6) ∨ s.onceTurn.contains (968 + 6) = true :=
  State.raised_raiseOnce _ _ _

theorem State.portEnabled_deny (src : Nat) (c : Bool) (target : Nat) (s : State) (n : Nat) :
    (deny src c target s).portEnabled n = s.portEnabled n := by
  simp only [State.portEnabled, State.rd_deny_ne src c target s Fld.GLB_FEATURES_PORTS (by decide) (by decide)]

/-- A denial gives no source steward privilege, and takes it from none. -/
theorem State.steward_deny (src : Nat) (c : Bool) (target : Nat) (s : State) (x : Nat) :
    (deny src c target s).steward x = s.steward x := by
  have hr : ∀ n, (deny src c target s).role n = s.role n := fun n =>
    State.rd_deny_ne src c target s _ (by simp [Fld.PRT_POOL_CTRL_ROLE, Fld.GLB_DENY_COUNT]; omega)
      (by simp [Fld.PRT_POOL_CTRL_ROLE, Fld.GLB_DENY_LAST_KIND]; omega)
  have hm : (deny src c target s).rd Fld.GLB_STEWARD_MASK = s.rd Fld.GLB_STEWARD_MASK :=
    State.rd_deny_ne src c target s _ (by decide) (by decide)
  have hw : (deny src c target s).rd Fld.GLB_SEC_STAT_WORKSHOP = s.rd Fld.GLB_SEC_STAT_WORKSHOP :=
    State.rd_deny_ne src c target s _ (by decide) (by decide)
  have ho : (deny src c target s).rd (Fld.MBX_OWNER_SOURCE 17) = s.rd (Fld.MBX_OWNER_SOURCE 17) :=
    State.rd_deny_ne src c target s _ (by decide) (by decide)
  simp only [State.steward, State.sourceEnabled, State.workshopSrc, State.on, hr, hm, hw, ho, State.portEnabled_deny]
  rfl

/-- A write of a register above the GLB block that its source may not make whole: denied, and its other fields are written. -/
theorem regWrite_denied {s : State} {src off : Nat} {row : RegRow} {be : BitVec 4} (v : Reg32) (hrow : regAt off = some row)
    (hb : be ≠ 0) (hc : coversRws row.fields (beBits be) = true) (hs : s.steward src = false) (ho : 0x1000 ≤ off)
    (ho' : off < 0x20000) :
    regWrite src off be v s = (stDenied, restWrite src off row.fields (beBits be) v (deny src false off s)) := by
  have hb : be ≠ 0#4 := hb
  have hu : ¬ (0x900 ≤ off ∧ off < 0xA00 ∧ s.poolOn = false) := by omega
  have hm : ¬ (0x20000 ≤ off ∧ off < 0x40000) := by omega
  have hg : ¬ off < 0x1000 := by omega
  have hq : decide (0x80000 ≤ off) = false := decide_eq_false (by omega)
  simp [regWrite, hrow, hu, hb, hm, hq, hg, hc, hs]

/-! ### A denied write below the mailboxes -/

/-- What holds before a loop over the numbers below `n` and is kept by each round holds after it. -/
theorem forUpto_induction {P : State → Prop} (n : Nat) (f : Nat → State → State) (s : State) (h : P s)
    (hf : ∀ i a, i < n → P a → P (f i a)) : P (forUpto n f s) :=
  List.foldlRecOn (motive := P) (List.range n) _ h fun a ha i hi => hf i a (List.mem_range.mp hi) ha

/-- The ports that take events from now on: no register changes, and no event on its way. -/
theorem setEvtPorts_kept (old new : Nat) (s : State) :
    (setEvtPorts old new s).regs = s.regs ∧ (setEvtPorts old new s).crossing = s.crossing :=
  forUpto_induction (P := fun a => a.regs = s.regs ∧ a.crossing = s.crossing) 16 _ s ⟨rfl, rfl⟩ fun i a _ ha => by
    split <;> exact ha

theorem State.reg_setEvtPorts (old new : Nat) (s : State) (i : Nat) : (setEvtPorts old new s).reg i = s.reg i := by
  simp only [State.reg, (setEvtPorts_kept old new s).1]

/-- A write of EVT_ROUTE changes no other register, and no event on its way. -/
theorem setRoute_kept (x : Nat) (s : State) : RegsKept s (setRoute x s) [Off.EVT_ROUTE] ∧ (setRoute x s).crossing = s.crossing := by
  refine ⟨fun i hi => ?_, (setEvtPorts_kept _ _ _).2⟩
  have hi : i ≠ Off.EVT_ROUTE := by simpa using hi
  rw [setRoute, State.reg_setEvtPorts, State.reg_setReg_ne _ _ _ hi, State.reg_wr_ne _ Fld.EVT_ROUTE_TC _ hi,
    State.reg_wr_ne _ Fld.EVT_ROUTE_PORTS _ hi]

/-- A write of a register of the OTP, SB or EVT block changes no other register, and no event on its way. -/
theorem restWrite_kept (src off : Nat) (fs : List FieldRow) (b v : Reg32) (s : State) (h : 0x3000 ≤ off) (h' : off < 0x20000) :
    RegsKept s (restWrite src off fs b v s) [off] ∧ (restWrite src off fs b v s).crossing = s.crossing := by
  by_cases hr : off = Off.EVT_ROUTE
  · subst hr
    exact setRoute_kept _ s
  · rw [restWrite_plain src off fs b v s (by omega) h' (by simp only [Off.THM_CTRL]; omega) (by simp only [Off.THM_HALT]; omega) hr]
    exact ⟨State.regsKept_setReg _ _ _, rfl⟩

/-- A denied write of the steward register leaves it as it was. -/
theorem regWrite_steward_denied {s : State} {src : Nat} {row : RegRow} {be : BitVec 4} (v : Reg32)
    (hrow : regAt Off.GLB_STEWARD = some row) (hb : be ≠ 0) (hc : coversRws row.fields (beBits be) = true)
    (hs : s.steward src = false) : regWrite src Off.GLB_STEWARD be v s = (stDenied, deny src false Off.GLB_STEWARD s) := by
  have hb : be ≠ 0#4 := hb
  have hg : glbWrite src Off.GLB_STEWARD row.fields (beBits be) v (deny src false Off.GLB_STEWARD s) =
      (stOk, deny src false Off.GLB_STEWARD s) := by
    simp [glbWrite, Off.GLB_STEWARD, Off.GLB_FW_CTRL, State.steward_deny, hs]
  simp only [Off.GLB_STEWARD] at hrow hg ⊢
  simp [regWrite, hrow, hb, hc, hs, hg]

/-! ### Reads that clear -/

/-- A mailbox register with a field that a read clears lies beyond the mailbox's areas. -/
def RegRow.clearsBeyondAreas (r : RegRow) : Bool :=
  rcBits r.fields == 0 || (stridesBy 0x1000 r.dims && decide (0x400 ≤ r.base % 0x1000))

/-- A port register with a field that a read clears is no lane's margin, which a read takes anew. -/
def RegRow.clearsNoMargin (r : RegRow) : Bool :=
  rcBits r.fields == 0 || (stridesBy 0x40 r.dims && r.base % 0x40 != 0x0C) ||
    (stridesBy 0x1000 r.dims && decide (0x300 ≤ r.base % 0x1000))

theorem regsMbx_clearBeyondAreas : regsMbx.all RegRow.clearsBeyondAreas = true := by decide

theorem regsPrt_clearNoMargin : (regsPrt0 ++ regsPrt1).all RegRow.clearsNoMargin = true := by decide

theorem regAt_mbx_clears {off : Nat} {row : RegRow} (h : regAt off = some row) (hc : rcBits row.fields ≠ 0) (ho : 0x20000 ≤ off)
    (ho' : off < 0x40000) : 0x400 ≤ off % 0x1000 := by
  obtain ⟨hm, hv⟩ := regAt_covers h
  have hb : regBlock off = regsMbx := by
    unfold regBlock
    iterate 7 rw [if_neg (by omega)]
    exact if_pos (by omega)
  have hr := List.all_eq_true.mp regsMbx_clearBeyondAreas row (hb ▸ hm)
  simp only [RegRow.clearsBeyondAreas, Bool.or_eq_true, Bool.and_eq_true, beq_iff_eq, hc, false_or, decide_eq_true_eq] at hr
  obtain ⟨hs, hb⟩ := hr
  rw [RegRow.covers_mod 0x1000 hv hs]
  exact hb

theorem regAt_prt_clears {off : Nat} {row : RegRow} (h : regAt off = some row) (hc : rcBits row.fields ≠ 0) (ho : 0x80000 ≤ off)
    (ho' : off < 0x90000) : off % 0x40 ≠ 0x0C ∨ 0x300 ≤ off % 0x1000 := by
  obtain ⟨hm, hv⟩ := regAt_covers h
  have hb : regBlock off = regsPrt0 ++ regsPrt1 := by
    unfold regBlock
    iterate 9 rw [if_neg (by omega)]
    exact if_pos (by omega)
  have hr := List.all_eq_true.mp regsPrt_clearNoMargin row (hb ▸ hm)
  simp only [RegRow.clearsNoMargin, Bool.or_eq_true, Bool.and_eq_true, beq_iff_eq, bne_iff_ne, hc, false_or,
    decide_eq_true_eq] at hr
  rcases hr with ⟨hs, hb⟩ | ⟨hs, hb⟩
  · exact .inl (by rw [RegRow.covers_mod 0x40 hv hs]; exact hb)
  · exact .inr (by rw [RegRow.covers_mod 0x1000 hv hs]; exact hb)

/-- A read of a register with a field that a read clears: the register as it shows, then those fields cleared. -/
theorem regRead_clears {off : Nat} {row : RegRow} (src : Nat) (s : State) (h : regAt off = some row) (hc : rcBits row.fields ≠ 0)
    (ho : off < 0x900 ∨ 0xA00 ≤ off) :
    regRead src off s = (s.look src off &&& shownBits row.fields,
      readEffects off (s.setReg off (s.reg off &&& ~~~ rcBits row.fields))) := by
  have hu : ¬ (0x900 ≤ off ∧ off < 0xA00 ∧ s.poolOn = false) := by omega
  have hm : ¬ (0x20000 ≤ off ∧ off < 0x32000 ∧ off % 0x1000 < 0x400) := fun ⟨h1, h2, h3⟩ => by
    have := regAt_mbx_clears h hc h1 (by omega)
    omega
  have hl : ¬ (0x80000 ≤ off ∧ off < 0x90000 ∧ 0x100 ≤ off % 0x1000 ∧ off % 0x1000 < 0x300 ∧ off % 0x40 = 0x0C ∧
      s.laneRuns ((off - 0x80000) / 0x1000) ((off % 0x1000 - 0x100) / 0x40) = true) := fun ⟨h1, h2, _, h4, h5, _⟩ => by
    have := regAt_prt_clears h hc h1 h2
    omega
  simp only [regRead, h, if_neg hu, if_neg hl, if_neg hm, if_neg hc, Bool.false_eq_true, if_false]

/-- Settles O19: a denied write in two blocks and at the steward register, and a read of fields that a read clears. -/
theorem writesAreDeniedAndReadsClear : Obligations.WritesAreDeniedAndReadsClear := by
  unfold Obligations.WritesAreDeniedAndReadsClear
  refine ⟨⟨fun src off be v s row hrow hc hs hb ho ho' => ?_, fun src be v s row hv hrow hs hb hc => ?_⟩,
    fun src off s row hv hrow ho hc => ⟨?_, fun i hi hr => ?_, State.regsKept_setReg _ _ _⟩⟩
  · rw [regWrite_denied v hrow hb hc hs (by omega) ho']
    obtain ⟨hk, hx⟩ := restWrite_kept src off row.fields (beBits be) v (deny src false off s) ho ho'
    have hrd : ∀ f : Fld, f.off < 0x1000 →
        (restWrite src off row.fields (beBits be) v (deny src false off s)).rd f = (deny src false off s).rd f := fun f hf => by
      simp only [State.rd, hk f.off (by simp; omega)]
    obtain ⟨h1, h2, h3⟩ := State.rd_deny_last src false off s
    refine ⟨rfl, ?_, ?_, ?_, ?_, ?_⟩
    · rw [hrd _ (by decide), State.rd_deny_count]
    · rw [hrd _ (by decide), h1]; rfl
    · rw [hrd _ (by decide), h2]
    · rw [hrd _ (by decide), h3]
    · simp only [Raised, hx]
      exact raised_deny src false off s
  · rw [exec_of_writeRow (c := .stewardWrite src be v) rfl hv, regWrite_steward_denied v hrow hb hc hs]
  · rw [exec_of_readRow (c := .readClearCounter src off) rfl hv, regRead_clears src s hrow hc ho]
  · rw [State.reg_setReg_same, BitVec.getLsbD_and, BitVec.getLsbD_not, hr]
    simp

end Sys2Proof.Machine
end

section
/-! SUPPORT. What the operations of a port's lanes leave as it was (R57 to R105): time, what a link keeps of a port, and every register
but the lanes' own, PRT_INJ_CTRL and PRT_CAL_STAT; of PRT_PHY_STAT they leave DOWN. -/
namespace Sys2Proof.Machine
open Sys2Proof

/-! ### Registers of lanes -/

/-- A register that an operation of a lane may write as a whole. -/
def LaneReg (off : Nat) : Prop := 0x80000 ≤ off ∧ off % 0x40 ≠ 0 ∧ off % 0x1000 ≠ 0x304 ∧ off % 0x1000 ≠ 0x004

/-- A register that no operation of a lane writes. -/
def LaneFree (off : Nat) : Prop := off ≤ 0x1000 ∨ (0x2000 ≤ off ∧ off < 0x80000) ∨ (0x80000 ≤ off ∧ (off % 0x40 = 0 ∨ off % 0x1000 = 0x304))

theorem LaneFree.ne_laneReg {a b : Nat} (ha : LaneFree a) (hb : LaneReg b) : a ≠ b := by
  unfold LaneFree at ha
  unfold LaneReg at hb
  omega

theorem LaneFree.ne_phyStat {a : Nat} (ha : LaneFree a) (n : Nat) : a ≠ Off.PRT_PHY_STAT n := by
  simp only [LaneFree, Off.PRT_PHY_STAT] at *
  omega

theorem laneReg_injCtrl (n : Nat) : LaneReg (Off.PRT_INJ_CTRL n) := by simp only [LaneReg, Off.PRT_INJ_CTRL]; omega

theorem laneReg_calStat (n : Nat) : LaneReg (Off.PRT_CAL_STAT n) := by simp only [LaneReg, Off.PRT_CAL_STAT]; omega

section
variable {n p : Nat} (hp : p < 8)
include hp

theorem laneReg_stat : LaneReg (Off.PRT_LANE_STAT n p) := by simp only [LaneReg, Off.PRT_LANE_STAT]; omega

theorem laneReg_txeq : LaneReg (Off.PRT_LANE_TXEQ n p) := by simp only [LaneReg, Off.PRT_LANE_TXEQ]; omega

theorem laneReg_rxeq : LaneReg (Off.PRT_LANE_RXEQ n p) := by simp only [LaneReg, Off.PRT_LANE_RXEQ]; omega

theorem laneReg_prbsErr : LaneReg (Off.PRT_LANE_PRBS_ERR n p) := by simp only [LaneReg, Off.PRT_LANE_PRBS_ERR]; omega

theorem laneReg_marginCfg : LaneReg (Off.PRT_LANE_MARGIN_CFG n p) := by simp only [LaneReg, Off.PRT_LANE_MARGIN_CFG]; omega

theorem laneReg_marginErr : LaneReg (Off.PRT_LANE_MARGIN_ERR n p) := by simp only [LaneReg, Off.PRT_LANE_MARGIN_ERR]; omega

theorem laneReg_faults : LaneReg (Off.PRT_LANE_FAULTS n p) := by simp only [LaneReg, Off.PRT_LANE_FAULTS]; omega

theorem laneReg_eye : LaneReg (Off.PRT_LANE_EYE n p) := by simp only [LaneReg, Off.PRT_LANE_EYE]; omega

end

/-- A write beside the field DOWN of a PRT_PHY_STAT, or of another register, leaves every DOWN. -/
theorem State.down_wr (s : State) (f : Fld) (v : Nat) (i : Nat)
    (h : f.off % 0x1000 ≠ 0x004 ∨ f.lo + f.w ≤ 18 ∨ 19 ≤ f.lo ∧ f.lo + f.w ≤ 32) :
    (s.wr f v).rd (Fld.PRT_PHY_STAT_DOWN i) = s.rd (Fld.PRT_PHY_STAT_DOWN i) := by
  rcases h with h | h | h
  · exact State.rd_wr_ne _ _ _ _ (by simp only [Fld.PRT_PHY_STAT_DOWN]; omega)
  · exact State.rd_wr_disj _ _ _ _ (by omega) (.inl (by simpa only [Fld.PRT_PHY_STAT_DOWN] using h))
  · exact State.rd_wr_disj _ _ _ _ h.2 (.inr (by simpa only [Fld.PRT_PHY_STAT_DOWN] using h.1))

theorem State.rd_setReg_ne (s : State) (off : Nat) (v : Reg32) (f : Fld) (h : f.off ≠ off) : (s.setReg off v).rd f = s.rd f := by
  simp only [State.rd, State.reg_setReg_ne s off v h]

/-! ### What lane operations keep -/

/-- The training of a port, its delayed changes and its mark stay. -/
def LinkPart (p q : Port) : Prop := q.train = p.train ∧ q.delayed = p.delayed ∧ q.markedDown = p.markedDown

/-- What the operations of lanes keep. -/
structure LaneKept (x s : State) : Prop where
  now : s.now = x.now
  reg : ∀ off, LaneFree off → s.reg off = x.reg off
  down : ∀ i, s.rd (Fld.PRT_PHY_STAT_DOWN i) = x.rd (Fld.PRT_PHY_STAT_DOWN i)
  port : ∀ i, LinkPart (x.port i) (s.port i)

theorem LaneKept.refl (s : State) : LaneKept s s := ⟨rfl, fun _ _ => rfl, fun _ => rfl, fun _ => ⟨rfl, rfl, rfl⟩⟩

section
variable {x s t : State} (h : LaneKept x s)
include h

/-- Nothing that `LaneKept` speaks of changes. -/
theorem LaneKept.of_eq (hn : t.now = s.now) (hr : t.regs = s.regs) (hp : t.ports = s.ports) : LaneKept x t := by
  obtain ⟨h1, h2, h3, h4⟩ := h
  exact ⟨hn.trans h1, fun off ho => by simpa only [State.reg, hr] using h2 off ho,
    fun i => by simpa only [State.rd, State.reg, hr] using h3 i, fun i => by simpa only [State.port, hp] using h4 i⟩

theorem LaneKept.modLane (n p : Nat) (f : Lane → Lane) : LaneKept x (s.modLane n p f) := h.of_eq rfl rfl rfl

theorem LaneKept.raise (ev d : Nat) : LaneKept x (s.raise ev d) := h.of_eq (by simp) (by simp) (by simp)

theorem LaneKept.finish (m code : Nat) (pl : List Byte) : LaneKept x (s.finish m code pl) := by
  unfold State.finish
  dsimp only
  split
  · exact h.of_eq rfl rfl rfl
  · exact h

theorem LaneKept.setReg {off : Nat} (ho : LaneReg off) (v : Reg32) : LaneKept x (s.setReg off v) :=
  ⟨h.now, fun a ha => (State.reg_setReg_ne s off v (ha.ne_laneReg ho)).trans (h.reg a ha),
    fun i => (State.rd_setReg_ne s off v _ (by simp only [LaneReg, Fld.PRT_PHY_STAT_DOWN] at *; omega)).trans (h.down i), h.port⟩

theorem LaneKept.wr {f : Fld} (hf : LaneReg f.off) (v : Nat) : LaneKept x (s.wr f v) := h.setReg hf _

/-- A write of PRT_PHY_STAT beside DOWN. -/
theorem LaneKept.wrPhyStat {f : Fld} {n : Nat} (hf : f.off = Off.PRT_PHY_STAT n) (v : Nat)
    (hd : f.lo + f.w ≤ 18 ∨ 19 ≤ f.lo ∧ f.lo + f.w ≤ 32) : LaneKept x (s.wr f v) :=
  ⟨h.now, fun a ha => (State.reg_wr_ne s f v (hf ▸ ha.ne_phyStat n)).trans (h.reg a ha),
    fun i => (State.down_wr s f v i (.inr hd)).trans (h.down i), h.port⟩

theorem LaneKept.modPort (n : Nat) (f : Port → Port) (hf : LinkPart (s.port n) (f (s.port n))) : LaneKept x (s.modPort n f) := by
  refine ⟨h.now, h.reg, h.down, fun i => ?_⟩
  by_cases hi : i = n
  · subst hi
    obtain ⟨h1, h2, h3⟩ := h.port i
    obtain ⟨k1, k2, k3⟩ := hf
    rw [State.port_modPort_same]
    exact ⟨k1.trans h1, k2.trans h2, k3.trans h3⟩
  · rw [State.port_modPort_ne s n f hi]
    exact h.port i

theorem LaneKept.forUpto {k : Nat} {f : Nat → State → State} (hf : ∀ i a, i < k → LaneKept x a → LaneKept x (f i a)) :
    LaneKept x (forUpto k f s) := forUpto_induction k f s h hf

end

theorem LaneKept.ite {x a b : State} {c : Prop} [Decidable c] (ha : LaneKept x a) (hb : LaneKept x b) :
    LaneKept x (if c then a else b) := by
  split <;> assumption

/-! ### The operations of lanes -/

section
variable {x s : State} (h : LaneKept x s)
include h

theorem adaptRx_laneKept (n : Nat) {p : Nat} (hp : p < 8) : LaneKept x (adaptRx n p s) :=
  LaneKept.setReg (s := { s with freeIdx := s.freeIdx + 1 }) (h.of_eq rfl rfl rfl) (laneReg_rxeq (n := n) hp) _

theorem injectBits_laneKept (n p k : Nat) : LaneKept x (injectBits n p k s) := by
  unfold injectBits
  extract_lets pos st bits s1
  have h1 : LaneKept x s1 := h.modLane _ _ _
  exact .ite (h1.modPort _ _ ⟨rfl, rfl, rfl⟩) h1

theorem injectLane_laneKept (n p : Nat) : LaneKept x (injectLane n p s) := by
  unfold injectLane
  exact .ite (.ite (.ite h (h.modLane _ _ _)) (.ite ((injectBits_laneKept h _ _ _).modLane _ _ _) h)) (.ite (h.modLane _ _ _) h)

theorem injectEnd_laneKept (n : Nat) : LaneKept x (injectEnd n s) := by
  unfold injectEnd
  exact .ite (h.wr (laneReg_injCtrl n) _) h

theorem freshWindow_laneKept (n p : Nat) : LaneKept x (freshWindow n p s) := h.modLane _ _ _

theorem prbsUnlock_laneKept (n : Nat) {p : Nat} (hp : p < 8) : LaneKept x (prbsUnlock n p s) :=
  (h.modLane _ _ _).wr (laneReg_stat hp) _

theorem prbsSync_laneKept (n : Nat) {p : Nat} (hp : p < 8) : LaneKept x (prbsSync n p s) := by
  unfold prbsSync
  exact .ite (h.modLane _ _ _) (prbsUnlock_laneKept (h.modLane _ _ _) n hp)

theorem laneTo_laneKept (n st : Nat) {p : Nat} (hp : p < 8) : LaneKept x (laneTo n p st s) := by
  unfold laneTo
  extract_lets s1 s2 s3 s4 s5
  have h1 : LaneKept x s1 := .ite (adaptRx_laneKept h n hp) h
  have h2 : LaneKept x s2 := h1.wr (laneReg_stat hp) _
  have h3 : LaneKept x s3 := .ite (h2.wr (laneReg_stat hp) _) h2
  have h4 : LaneKept x s4 := h3.modLane _ _ _
  have h5 : LaneKept x s5 := .ite (freshWindow_laneKept h4 _ _) h4
  exact injectEnd_laneKept (injectLane_laneKept (prbsSync_laneKept h5 n hp) _ _) _

theorem lanesTo_laneKept (n mask st : Nat) : LaneKept x (lanesTo n mask st s) :=
  h.forUpto fun _ _ hi ha => .ite (laneTo_laneKept ha n st hi) ha

theorem setEdge_laneKept (n : Nat) {p : Nat} (hp : p < 8) : LaneKept x (setEdge n p s) := h.wr (laneReg_stat hp) _

theorem setRate_laneKept (n code : Nat) : LaneKept x (setRate n code s) := by
  have h1 := h.forUpto (k := 8) (f := fun p a => a.modLane n p (fun l => { l with
    winLeft := (match l.winFrom with | some f => l.winLeft - a.bitsIn n (a.now - f) | none => l.winLeft)
    winFrom := l.winFrom.map (fun _ => a.now) })) fun _ _ _ ha => ha.modLane _ _ _
  exact (h1.wrPhyStat rfl _ (.inl (by simp [Fld.PRT_PHY_STAT_RATE]))).forUpto fun _ _ hi ha => setEdge_laneKept ha n hi

theorem holdEq_laneKept (n : Nat) : LaneKept x (holdEq n s) := h.forUpto fun _ _ _ ha => ha.modLane _ _ _

theorem retryPositions_laneKept (n : Nat) : LaneKept x (retryPositions n s) :=
  h.forUpto fun _ _ hi ha => .ite (ha.wr (laneReg_stat hi) _) ha

theorem parkLanes_laneKept (n : Nat) : LaneKept x (parkLanes n s) := by
  unfold parkLanes
  extract_lets s1
  have h1 : LaneKept x s1 := h.forUpto fun _ _ _ ha => ha.modLane _ _ _
  have h2 := (lanesTo_laneKept h1 n 0xFF laParked).wrPhyStat (f := Fld.PRT_PHY_STAT_PLL_LOCK n) rfl 0
    (.inl (by simp [Fld.PRT_PHY_STAT_PLL_LOCK]))
  exact h2.wrPhyStat rfl _ (.inr (by simp [Fld.PRT_PHY_STAT_RECOVERY]))

/-- An eye scan that ends answers its command and gives the lane its margin back. -/
theorem endScans_laneKept (n : Nat) : LaneKept x (endScans n s) := by
  unfold endScans
  extract_lets mask s1 s2 s3
  have h1 : LaneKept x s1 := h.forUpto fun p a hp ha => by
    refine LaneKept.ite ?_ ha
    extract_lets a1 a2
    have k1 : LaneKept x a1 := ha.wr (laneReg_eye hp) _
    have k2 : LaneKept x a2 := by
      unfold a2
      split
      · exact k1.setReg (laneReg_marginCfg hp) _
      · exact k1
    exact (freshWindow_laneKept (k2.modLane _ _ _) _ _).raise _ _
  have h2 : LaneKept x s2 := h1.wr (laneReg_calStat n) _
  have h3 : LaneKept x s3 := .ite (h2.wr (laneReg_calStat n) _) h2
  refine .ite h ?_
  split
  · exact (h3.finish _ _ _).modPort _ _ ⟨rfl, rfl, rfl⟩
  · exact h3

end

end Sys2Proof.Machine
end

section
/-! SUPPORT. What the operations of a port's link leave as it was (R96 to R138, R194, R231): time, every register but those of ports
and cadence that they count or show in, DOWN, a port's mark, and how many changes wait, with those already due. -/
namespace Sys2Proof.Machine
open Sys2Proof

/-! ### What link operations keep -/

/-- A register that an operation of a link may write as a whole. -/
def LinkReg (off : Nat) : Prop := (0x1000 < off ∧ off < 0x2000) ∨ (0x80000 ≤ off ∧ off % 0x40 ≠ 0 ∧ off % 0x1000 ≠ 0x004)

/-- A register that no operation of a link writes. -/
def LinkFree (off : Nat) : Prop := off ≤ 0x1000 ∨ (0x2000 ≤ off ∧ off < 0x80000) ∨ (0x80000 ≤ off ∧ off % 0x40 = 0)

theorem LinkFree.ne_linkReg {a b : Nat} (ha : LinkFree a) (hb : LinkReg b) : a ≠ b := by
  simp only [LinkFree, LinkReg] at *
  omega

theorem LinkFree.laneFree {a : Nat} (ha : LinkFree a) : LaneFree a := by
  simp only [LinkFree, LaneFree] at *
  omega

theorem LaneReg.linkReg {a : Nat} (ha : LaneReg a) : LinkReg a := by
  simp only [LaneReg, LinkReg] at *
  omega

theorem linkReg_linkStat (n : Nat) : LinkReg (Off.PRT_LINK_STAT n) := by simp only [LinkReg, Off.PRT_LINK_STAT]; omega

theorem linkReg_linkSeq (n : Nat) : LinkReg (Off.PRT_LINK_SEQ n) := by simp only [LinkReg, Off.PRT_LINK_SEQ]; omega

theorem linkReg_linkErr (n : Nat) : LinkReg (Off.PRT_LINK_ERR n) := by simp only [LinkReg, Off.PRT_LINK_ERR]; omega

theorem linkReg_crcErr (n : Nat) : LinkReg (Off.PRT_LINK_CRC_ERR n) := by simp only [LinkReg, Off.PRT_LINK_CRC_ERR]; omega

theorem linkReg_txnErr (n : Nat) : LinkReg (Off.PRT_TXN_ERR n) := by simp only [LinkReg, Off.PRT_TXN_ERR]; omega

theorem linkReg_txnRefused (n : Nat) : LinkReg (Off.PRT_TXN_REFUSED n) := by simp only [LinkReg, Off.PRT_TXN_REFUSED]; omega

theorem linkReg_txnLost (n : Nat) : LinkReg (Off.PRT_TXN_LOST n) := by simp only [LinkReg, Off.PRT_TXN_LOST]; omega

theorem linkReg_poolRefused (n : Nat) : LinkReg (Off.PRT_POOL_REFUSED n) := by simp only [LinkReg, Off.PRT_POOL_REFUSED]; omega

theorem linkReg_creditTx (n : Nat) {tc : Nat} (h : tc < 4) : LinkReg (Off.PRT_CREDIT_TX_TC n tc) := by
  simp only [LinkReg, Off.PRT_CREDIT_TX_TC]; omega

theorem linkReg_creditRx (n : Nat) {tc : Nat} (h : tc < 4) : LinkReg (Off.PRT_CREDIT_RX_TC n tc) := by
  simp only [LinkReg, Off.PRT_CREDIT_RX_TC]; omega

theorem linkReg_fldRx (n : Nat) {tc : Nat} (h : tc < 4) (kind : Nat) : LinkReg (fldRx n tc kind).off := by
  unfold fldRx
  split_ifs <;> exact linkReg_creditRx n h

theorem linkReg_fldTx (n : Nat) {tc : Nat} (h : tc < 4) (kind : Nat) : LinkReg (fldTx n tc kind).off := by
  unfold fldTx
  split_ifs <;> exact linkReg_creditTx n h

/-- A port's mark stays, and as many changes wait, each of them that was due among them. -/
def DuePart (p q : Port) : Prop :=
  q.markedDown = p.markedDown ∧ q.delayed.length = p.delayed.length ∧ ∀ d ∈ p.delayed, d.due.isSome = true → d ∈ q.delayed

theorem DuePart.of_eq {p q : Port} (hm : q.markedDown = p.markedDown) (hd : q.delayed = p.delayed) : DuePart p q :=
  ⟨hm, by rw [hd], fun _ hx _ => hd ▸ hx⟩

/-- Where the changes that wait for something become due, and the mark stays. -/
theorem DuePart.map {p q : Port} {t : Nat} (hm : q.markedDown = p.markedDown)
    (hd : q.delayed = p.delayed.map (fun d => if d.due.isNone then { d with after := none, due := some t } else d)) :
    DuePart p q := by
  refine ⟨hm, by rw [hd, List.length_map], fun d hd' hs => ?_⟩
  rw [hd]
  exact List.mem_map.mpr ⟨d, hd', by simp [Option.isSome_iff_ne_none.mp hs]⟩

theorem DuePart.trans {p q r : Port} (h : DuePart p q) (k : DuePart q r) : DuePart p r := by
  obtain ⟨h1, h2, h3⟩ := h
  obtain ⟨k1, k2, k3⟩ := k
  exact ⟨k1.trans h1, k2.trans h2, fun d hd hs => k3 d (h3 d hd hs) hs⟩

/-- What the operations of links keep. -/
structure LinkKept (x s : State) : Prop where
  now : s.now = x.now
  reg : ∀ off, LinkFree off → s.reg off = x.reg off
  down : ∀ i, s.rd (Fld.PRT_PHY_STAT_DOWN i) = x.rd (Fld.PRT_PHY_STAT_DOWN i)
  port : ∀ i, DuePart (x.port i) (s.port i)

theorem LaneKept.linkKept {x s : State} (h : LaneKept x s) : LinkKept x s :=
  ⟨h.now, fun off ho => h.reg off ho.laneFree, h.down, fun i => .of_eq (h.port i).2.2 (h.port i).2.1⟩

theorem LinkKept.refl (s : State) : LinkKept s s := (LaneKept.refl s).linkKept

theorem LinkKept.trans {x s t : State} (h : LinkKept x s) (k : LinkKept s t) : LinkKept x t :=
  ⟨k.now.trans h.now, fun off ho => (k.reg off ho).trans (h.reg off ho), fun i => (k.down i).trans (h.down i),
    fun i => (h.port i).trans (k.port i)⟩

/-- An operation of lanes keeps what links keep. -/
theorem LinkKept.lane {x s t : State} (h : LinkKept x s) (k : LaneKept s t) : LinkKept x t := h.trans k.linkKept

section
variable {x s t : State} (h : LinkKept x s)
include h

/-- Nothing that `LinkKept` speaks of changes. -/
theorem LinkKept.of_eq (hn : t.now = s.now) (hr : t.regs = s.regs) (hp : t.ports = s.ports) : LinkKept x t :=
  h.lane ((LaneKept.refl s).of_eq hn hr hp)

theorem LinkKept.modLane (n p : Nat) (f : Lane → Lane) : LinkKept x (s.modLane n p f) := h.of_eq rfl rfl rfl

theorem LinkKept.raise (ev d : Nat) : LinkKept x (s.raise ev d) := h.of_eq (by simp) (by simp) (by simp)

theorem LinkKept.finish (m code : Nat) (pl : List Byte) : LinkKept x (s.finish m code pl) :=
  h.lane ((LaneKept.refl s).finish m code pl)

theorem LinkKept.setReg {off : Nat} (ho : LinkReg off) (v : Reg32) : LinkKept x (s.setReg off v) :=
  ⟨h.now, fun a ha => (State.reg_setReg_ne s off v (ha.ne_linkReg ho)).trans (h.reg a ha),
    fun i => (State.rd_setReg_ne s off v _ (by simp only [LinkReg, Fld.PRT_PHY_STAT_DOWN] at *; omega)).trans (h.down i), h.port⟩

theorem LinkKept.wr {f : Fld} (hf : LinkReg f.off) (v : Nat) : LinkKept x (s.wr f v) := h.setReg hf _

theorem LinkKept.setLink (n st : Nat) : LinkKept x (s.setLink n st) := (h.wr (linkReg_linkStat n) _).wr (linkReg_linkStat n) _

theorem LinkKept.setPort (n : Nat) {q : Port} (hq : DuePart (s.port n) q) : LinkKept x (s.setPort n q) := by
  refine ⟨h.now, h.reg, h.down, fun i => ?_⟩
  by_cases hi : i = n
  · subst hi
    rw [State.port_setPort_same]
    exact (h.port i).trans hq
  · rw [State.port_setPort_ne s n q hi]
    exact h.port i

theorem LinkKept.modPort (n : Nat) (f : Port → Port) (hf : DuePart (s.port n) (f (s.port n))) : LinkKept x (s.modPort n f) :=
  h.setPort n hf

theorem LinkKept.modTrain (n : Nat) (f : Train → Train) : LinkKept x (s.modTrain n f) := h.modPort n _ (.of_eq rfl rfl)

theorem LinkKept.modCredit (n : Nat) (f : Credit → Credit) : LinkKept x (s.modCredit n f) := h.modPort n _ (.of_eq rfl rfl)

theorem LinkKept.forUpto {k : Nat} {f : Nat → State → State} (hf : ∀ i a, i < k → LinkKept x a → LinkKept x (f i a)) :
    LinkKept x (forUpto k f s) := forUpto_induction k f s h hf

theorem LinkKept.foldl {α : Type} (l : List α) {f : State → α → State} (hf : ∀ a e, LinkKept x a → LinkKept x (f a e)) :
    LinkKept x (l.foldl f s) := List.foldlRecOn (motive := LinkKept x) l f h fun a ha e _ => hf a e ha

end

theorem LinkKept.ite {x a b : State} {c : Prop} [Decidable c] (ha : LinkKept x a) (hb : LinkKept x b) :
    LinkKept x (if c then a else b) := by
  split <;> assumption

/-! ### Credits and transactions of a link that goes down -/

section
variable {x s : State} (h : LinkKept x s)
include h

theorem cadSeek_linkKept (cause : Nat) : LinkKept x (cadSeek cause s) := by
  have hr : ∀ {f : Fld}, 0x1000 < f.off → f.off < 0x2000 → LinkReg f.off := fun h1 h2 => .inl ⟨h1, h2⟩
  unfold cadSeek
  extract_lets was s1 cad s2
  have h1 : LinkKept x s1 := ((h.wr (hr (by decide) (by decide)) _).wr (hr (by decide) (by decide)) _).wr (hr (by decide) (by decide)) _
  have h2 : LinkKept x s2 := h1.of_eq rfl rfl rfl
  exact .ite ((h2.wr (hr (by decide) (by decide)) _).raise _ _) h2

theorem sendFlit_linkKept (n ty : Nat) (slots : List (BitVec 80)) (data : Option Line) : LinkKept x (sendFlit n ty slots data s) :=
  (h.modPort n _ (.of_eq rfl rfl)).wr (linkReg_linkSeq n) _

theorem sendControl_linkKept (n : Nat) (slots : List (BitVec 80)) : LinkKept x (sendControl n slots s) :=
  sendFlit_linkKept h n _ slots none

theorem sendCredit_linkKept (n : Nat) {tc : Nat} (ht : tc < 4) : LinkKept x (sendCredit n tc s) := by
  unfold sendCredit
  extract_lets c q d r slot s1 s2
  have h1 : LinkKept x s1 := sendControl_linkKept h _ _
  have h2 : LinkKept x s2 := ((h1.wr (linkReg_fldRx n ht 0) _).wr (linkReg_fldRx n ht 1) _).wr (linkReg_fldRx n ht 2) _
  exact .ite (h2.modCredit _ _) h

theorem giveBack_linkKept (n kind k : Nat) {tc : Nat} (ht : tc < 4) : LinkKept x (giveBack n tc kind k s) := by
  unfold giveBack
  refine .ite h ?_
  extract_lets s1
  have h1 : LinkKept x s1 := h.modCredit _ _
  exact .ite (sendCredit_linkKept h1 n ht) h1

theorem rspLeaves_linkKept (via : Option Nat) (tc : BitVec 2) (rsp dat : Nat) : LinkKept x (rspLeaves via tc.toNat rsp dat s) := by
  cases via with
  | none => exact h
  | some e => exact giveBack_linkKept (giveBack_linkKept h e 2 rsp tc.isLt) e 1 dat tc.isLt

theorem pushReady_linkKept (n : Nat) (r : ReadyRsp) (dead : Bool) : LinkKept x (pushReady n r dead s) := by
  unfold pushReady
  exact .ite (rspLeaves_linkKept (h.wr (linkReg_txnLost n) _) _ _ _ _) (h.modPort n _ (.of_eq rfl rfl))

theorem pathDown_linkKept (ingress serial : Nat) : LinkKept x (pathDown ingress serial s) := by
  unfold pathDown
  split
  · exact h
  · extract_lets s1 s2
    have h1 : LinkKept x s1 := .ite h (h.wr (linkReg_poolRefused ingress) _)
    have h2 : LinkKept x s2 := pushReady_linkKept h1 _ _ _
    exact .ite (h2.modPort _ _ (.of_eq rfl rfl)) h2

theorem egressDown_linkKept (n : Nat) : LinkKept x (egressDown n s) := by
  unfold egressDown
  extract_lets cs s1
  have h1 : LinkKept x s1 := h.modPort n _ (.of_eq rfl rfl)
  exact h1.foldl cs fun a c ha => .ite ha (pathDown_linkKept ha _ _)

theorem dropTxns_linkKept (n : Nat) : LinkKept x (dropTxns n s) := by
  unfold dropTxns
  extract_lets p lost answered keep s1 s2 s3 s4
  have h1 : LinkKept x s1 := h.setPort n (.of_eq rfl rfl)
  have h2 : LinkKept x s2 := h1.wr (linkReg_txnLost n) _
  have h3 : LinkKept x s3 := h2.forUpto fun e a _ ha => ha.modPort e _ (.of_eq rfl rfl)
  have h4 : LinkKept x s4 := h3.foldl _ fun a r ha => rspLeaves_linkKept ha _ _ _ _
  exact h4.foldl _ fun a d ha => rspLeaves_linkKept ha _ _ _ _

/-! ### Training and the link going down -/

theorem endRetune_linkKept (n : Nat) : LinkKept x (endRetune n s) := by
  unfold endRetune
  split
  · extract_lets s1
    have h1 : LinkKept x s1 := .ite h (h.wr (laneReg_calStat n).linkReg _)
    exact (h1.finish _ _ _).modPort n _ (.of_eq rfl rfl)
  · exact h

theorem enterLock_linkKept (n : Nat) (recov : Bool) : LinkKept x (enterLock n recov s) := by
  unfold enterLock
  extract_lets s1 s2
  have h1 : LinkKept x s1 := h.modTrain _ _
  have h2 : LinkKept x s2 := by
    have k1 := (LaneKept.refl s1).wrPhyStat (f := Fld.PRT_PHY_STAT_PLL_LOCK n) rfl 1 (.inl (by simp [Fld.PRT_PHY_STAT_PLL_LOCK]))
    have k2 := (setRate_laneKept k1 n 0).wrPhyStat (f := Fld.PRT_PHY_STAT_RECOVERY n) rfl 0
      (.inr (by simp [Fld.PRT_PHY_STAT_RECOVERY]))
    exact (h1.lane k2).setLink n lsLock
  refine h2.forUpto fun p a hp ha => ha.lane ?_
  extract_lets a1 a2 a3
  have k1 : LaneKept a a1 := (((LaneKept.refl a).wr (laneReg_txeq hp) _).wr (laneReg_txeq hp) _).wr (laneReg_txeq hp) _
  have k2 : LaneKept a a2 := .ite (k1.wr (laneReg_stat hp) _) k1
  have k3 : LaneKept a a3 := laneTo_laneKept (k2.wr (laneReg_stat hp) _) n laTraining hp
  exact k3.modLane _ _ _

theorem startTraining_linkKept (n : Nat) : LinkKept x (startTraining n s) := .ite (enterLock_linkKept h n false) h

theorem linkDown_linkKept (n cause : Nat) : LinkKept x (linkDown n cause s) := by
  unfold linkDown
  extract_lets was s1 s2 s3 s4 s5 retry s6 s7 s8 s9 s10
  have h1 : LinkKept x s1 := h.wr (linkReg_linkStat n) _
  have h2 : LinkKept x s2 := .ite (h1.raise _ _) h1
  have h3 : LinkKept x s3 := dropTxns_linkKept h2 n
  have h4 : LinkKept x s4 := egressDown_linkKept h3 n
  have h5 : LinkKept x s5 := endRetune_linkKept (h4.lane (endScans_laneKept (.refl _) n)) n
  have h6 : LinkKept x s6 := h5.modPort n _ (.map rfl rfl)
  have h7 : LinkKept x s7 := h6.forUpto fun tc a ht ha => (ha.setReg (linkReg_creditTx n ht) _).setReg (linkReg_creditRx n ht) _
  have h8 : LinkKept x s8 := h7.setReg (linkReg_linkSeq n) _
  have h9 : LinkKept x s9 := .ite (cadSeek_linkKept h8 2) h8
  have h10 : LinkKept x s10 := (h9.lane (parkLanes_laneKept (.refl _) n)).setLink n lsDown
  exact startTraining_linkKept h10 n

end

end Sys2Proof.Machine
end

section
/-! SUPPORT. The changes of a port (R75, R123, R138, R204, R687), made at once or after their completion: what each leaves as it was, and
what a recovery, a role and a reset leave in its place. -/
namespace Sys2Proof.Machine
open Sys2Proof

theorem LaneKept.link_eq {x s : State} (h : LaneKept x s) (n : Nat) : s.link n = x.link n := by
  have hr := h.reg (Off.PRT_LINK_STAT n) (by simp only [LaneFree, Off.PRT_LINK_STAT]; omega)
  unfold State.link State.rd
  rw [show (Fld.PRT_LINK_STAT_STATE n).off = Off.PRT_LINK_STAT n from rfl, hr]

theorem State.link_setLink (s : State) (n st : Nat) : (s.setLink n st).link n = st % 16 := by
  unfold State.setLink State.link
  rw [State.rd_wr_disj _ (Fld.PRT_LINK_STAT_UP n) _ _ (by simp [Fld.PRT_LINK_STAT_UP])
    (.inl (by simp [Fld.PRT_LINK_STAT_UP, Fld.PRT_LINK_STAT_STATE]))]
  exact State.rd_wr_same _ _ _ (by simp [Fld.PRT_LINK_STAT_STATE])

/-! ### Recovery -/

/-- A link that is up goes to RECOVERY, for a recovery (R123). -/
theorem enterRecovery_of_up (n cause : Nat) (full : Bool) (s : State) (hu : s.up n = true) :
    (enterRecovery n cause full s).link n = lsRecovery ∧ ((enterRecovery n cause full s).port n).train.recov = true := by
  unfold enterRecovery
  rw [if_pos hu]
  extract_lets s1 s2
  have hh : LaneKept s2 (holdEq n s2) := holdEq_laneKept (.refl _) n
  have hl : LaneKept ((holdEq n s2).setLink n lsRecovery)
      (endScans n (lanesTo n (s2.active n) laTraining ((holdEq n s2).setLink n lsRecovery))) :=
    endScans_laneKept (lanesTo_laneKept (.refl _) _ _ _) n
  refine ⟨?_, ?_⟩
  · rw [hl.link_eq, State.link_setLink]
    rfl
  · rw [(hl.port n).1, show ((holdEq n s2).setLink n lsRecovery).port n = (holdEq n s2).port n from rfl, (hh.port n).1]
    simp [s2]

section
variable {x s : State} (h : LinkKept x s)
include h

theorem enterRecovery_linkKept (n cause : Nat) (full : Bool) : LinkKept x (enterRecovery n cause full s) := by
  unfold enterRecovery
  refine .ite ?_ (.ite (h.modTrain _ _) h)
  extract_lets s1 s2
  have h1 : LinkKept x s1 := (h.wr (linkReg_linkStat n) _).raise _ _
  have h2 : LinkKept x s2 := h1.modPort n _ (.of_eq rfl rfl)
  have h3 : LinkKept x ((holdEq n s2).setLink n lsRecovery) := (h2.lane (holdEq_laneKept (.refl _) n)).setLink n lsRecovery
  exact h3.lane (endScans_laneKept (lanesTo_laneKept (.refl _) _ _ _) n)

/-! ### Test states, roles and resets -/

theorem applyTest_linkKept (n v : Nat) {p : Nat} (hp : p < 8) : LinkKept x (applyTest n p v s) := by
  unfold applyTest
  refine .ite h (.ite ?_ ?_)
  · extract_lets s1
    have h1 : LinkKept x s1 := h.lane ((laneTo_laneKept (.refl _) n laParked hp).modLane _ _ _)
    exact .ite (startTraining_linkKept h1 n) h1
  · extract_lets s1 s2 s3 s4 s5
    have h1 : LinkKept x s1 := h.wr (linkReg_linkStat n) _
    have h2 : LinkKept x s2 := .ite (linkDown_linkKept h n 3)
      (.ite h1 (((h1.modTrain _ _).lane (parkLanes_laneKept (.refl _) n)).setLink n lsDown))
    have h3 : LinkKept x s3 := h2.modTrain _ _
    have h4 : LinkKept x s4 := h3.lane (laneTo_laneKept
      ((LaneKept.refl _).wrPhyStat (f := Fld.PRT_PHY_STAT_PLL_LOCK n) rfl _ (.inl (by simp [Fld.PRT_PHY_STAT_PLL_LOCK]))) _ _ hp)
    have h5 : LinkKept x s5 := .ite (h4.lane ((LaneKept.refl _).wr (laneReg_stat hp) _)) h4
    exact h5.modLane _ _ _

end

/-- A port whose reset begins: no longer marked down, and no change of it waits. -/
def resetBegun (n : Nat) (s : State) : State :=
  ((monDiscard (32 + n) s).modPort n (fun p => { p with markedDown := false, pllLost := false, delayed := [] })).wr
    (Fld.PRT_PHY_STAT_DOWN n) 0

theorem portReset_linkKept (n : Nat) (s : State) : LinkKept (resetBegun n s) (portReset n s) := by
  unfold portReset
  extract_lets s1 s2 s3 s4 s5 s6 s7 s8
  have h2 : LinkKept (resetBegun n s) s2 := .refl _
  have h3 : LinkKept (resetBegun n s) s3 := h2.forUpto fun p a hp ha => ha.lane (by
    extract_lets a1 a2 a3
    have k1 : LaneKept a a1 := (((LaneKept.refl a).setReg (laneReg_faults hp) _).setReg (laneReg_prbsErr hp) _).setReg
      (laneReg_marginErr hp) _
    have k2 : LaneKept a a2 := (k1.wr (laneReg_stat hp) _).wr (laneReg_stat hp) _
    have k3 : LaneKept a a3 := laneTo_laneKept k2 n laParked hp
    exact (k3.setReg (laneReg_rxeq hp) _).modLane _ _ _)
  have h4 : LinkKept (resetBegun n s) s4 := h3.lane (setRate_laneKept
    (((LaneKept.refl s3).wrPhyStat (f := Fld.PRT_PHY_STAT_ACTIVE n) rfl _ (.inl (by simp [Fld.PRT_PHY_STAT_ACTIVE]))).wrPhyStat
      (f := Fld.PRT_PHY_STAT_WIDTH n) rfl _ (.inl (by simp [Fld.PRT_PHY_STAT_WIDTH]))) n 0)
  have h5 : LinkKept (resetBegun n s) s5 := linkDown_linkKept h4 n 1
  have h6 : LinkKept (resetBegun n s) s6 :=
    ((h5.setReg (linkReg_linkErr n) _).setReg (linkReg_crcErr n) _).wr (linkReg_linkStat n) _
  have h7 : LinkKept (resetBegun n s) s7 :=
    ((h6.setReg (linkReg_txnErr n) _).setReg (linkReg_txnRefused n) _).setReg (linkReg_txnLost n) _
  have h8 : LinkKept (resetBegun n s) s8 := h7.setReg (linkReg_poolRefused n) _
  exact h8.modPort n _ (.of_eq rfl rfl)

/-- A change of role takes the link down, then starts or parks the port (R204): beyond its new role it changes as a link does. -/
theorem applyRole_linkKept (n v : Nat) (s : State) (h : s.role n ≠ v) :
    LinkKept (s.wr (Fld.PRT_POOL_CTRL_ROLE n) v) (applyRole n v s) := by
  unfold applyRole
  rw [if_neg h]
  extract_lets was s1
  have h1 : LinkKept (s.wr (Fld.PRT_POOL_CTRL_ROLE n) v) s1 := linkDown_linkKept (.refl _) n 11
  refine .ite (h1.forUpto fun p a hp ha => .ite ha (applyTest_linkKept ha n _ hp)) (.ite ?_ h1)
  exact (h1.lane (parkLanes_laneKept (.refl _) n)).setLink n lsDown

theorem role_applyRole (n v : Nat) (s : State) (h : s.role n ≠ v) (hv : v < 4) : (applyRole n v s).role n = v := by
  have hr := (applyRole_linkKept n v s h).reg (Off.PRT_POOL_CTRL n) (by simp only [LinkFree, Off.PRT_POOL_CTRL]; omega)
  have hs : (s.wr (Fld.PRT_POOL_CTRL_ROLE n) v).rd (Fld.PRT_POOL_CTRL_ROLE n) = v % 2 ^ 2 :=
    State.rd_wr_same _ _ _ (by simp [Fld.PRT_POOL_CTRL_ROLE])
  unfold State.role State.rd at *
  rw [show (Fld.PRT_POOL_CTRL_ROLE n).off = Off.PRT_POOL_CTRL n from rfl] at *
  rw [hr, hs, Nat.mod_eq_of_lt (by omega)]

/-- No change of a port makes more changes wait. -/
theorem applyDelayed_length_le (n : Nat) (d : Delayed) (s : State) :
    ((applyDelayed n d s).port n).delayed.length ≤ (s.port n).delayed.length := by
  have of_kept : ∀ {u : State}, LinkKept s u → (u.port n).delayed.length ≤ (s.port n).delayed.length :=
    fun hu => Nat.le_of_eq (hu.port n).2.1
  cases d with
  | testState p v => exact of_kept (applyTest_linkKept (.refl s) n _ p.isLt)
  | linkDis v =>
    refine of_kept ?_
    exact .ite (linkDown_linkKept (.refl s) n 10) (startTraining_linkKept (.refl s) n)
  | retrain => exact of_kept (enterRecovery_linkKept (.refl s) n 5 false)
  | widen => exact of_kept (enterRecovery_linkKept (LaneKept.linkKept (retryPositions_laneKept (.refl s) n)) n 5 true)
  | role v =>
    by_cases hv : s.role n = v.toNat
    · exact of_kept (by simp only [applyDelayed, applyRole, if_pos hv]; exact .refl s)
    · exact Nat.le_of_eq ((applyRole_linkKept n v.toNat s hv).port n).2.1
  | portReset =>
    refine Nat.le_trans (Nat.le_of_eq ((portReset_linkKept n s).port n).2.1) ?_
    simp [resetBegun]

end Sys2Proof.Machine
end

section
/-! SUPPORT. The effect of each register that has one of its own, of a write that reaches it (R11, R138, R204, R209, R245, R504, R687). -/
namespace Sys2Proof.Machine
open Sys2Proof

section
variable {s : State} {src : Nat} {row : RegRow} {be : BitVec 4} (v : Reg32)

/-! ### GLB -/

/-- A write that reaches a register of the GLB block that is no signpost's. -/
theorem regWrite_glb_beside {off : Nat} (h : Reaches s src off row be) (ho : off < 0x1000) (hp : off < 0x900 ∨ 0xA00 ≤ off) :
    regWrite src off be v s = glbWrite src off row.fields (beBits be) v s :=
  regWrite_glb h v ho (by omega)

theorem regWrite_fwCtrl (h : Reaches s src Off.GLB_FW_CTRL row be) :
    regWrite src Off.GLB_FW_CTRL be v s = (stOk,
      if (Ones s src row be v).getLsbD 31 then
        mgmtReset 2 (s.setReg Off.GLB_FW_CTRL (Written s src Off.GLB_FW_CTRL row be v &&& 0x7FFFFFFF))
      else s.setReg Off.GLB_FW_CTRL (Written s src Off.GLB_FW_CTRL row be v &&& 0x7FFFFFFF)) := by
  rw [regWrite_glb_beside v h (by decide) (by decide)]
  rfl

theorem regWrite_mapCtrl (h : Reaches s src Off.GLB_MAP_CTRL row be) (hl : s.on Fld.GLB_MAP_CTRL_LOCKED = false) :
    regWrite src Off.GLB_MAP_CTRL be v s = (stOk, s.setReg Off.GLB_MAP_CTRL (Written s src Off.GLB_MAP_CTRL row be v)) := by
  rw [regWrite_glb_beside v h (by decide) (by decide)]
  simp [glbWrite, hl, Off.GLB_MAP_CTRL, Off.GLB_FW_CTRL, Off.GLB_STEWARD, Written]

theorem regWrite_poolWindow (h : Reaches s src Off.GLB_POOL_WINDOW row be) (hl : s.on Fld.GLB_MAP_CTRL_LOCKED = false) :
    regWrite src Off.GLB_POOL_WINDOW be v s =
      (stOk, s.setReg Off.GLB_POOL_WINDOW (Written s src Off.GLB_POOL_WINDOW row be v)) := by
  rw [regWrite_glb_beside v h (by decide) (by decide)]
  simp [glbWrite, hl, Off.GLB_MAP_CTRL, Off.GLB_FW_CTRL, Off.GLB_STEWARD, Off.GLB_POOL_WINDOW, Written]

theorem regWrite_calCtrl (h : Reaches s src Off.GLB_CAL_CTRL row be) :
    regWrite src Off.GLB_CAL_CTRL be v s = (stOk, setLearn ((Written s src Off.GLB_CAL_CTRL row be v).getLsbD 0) s) := by
  rw [regWrite_glb_beside v h (by decide) (by decide)]
  rfl

theorem regWrite_rstPort (h : Reaches s src Off.GLB_RST_PORT row be) :
    regWrite src Off.GLB_RST_PORT be v s = (stOk, resetPorts src (Ones s src row be v).toNat s) := by
  rw [regWrite_glb_beside v h (by decide) (by decide)]
  rfl

theorem regWrite_rstPav (h : Reaches s src Off.GLB_RST_PAV row be) :
    regWrite src Off.GLB_RST_PAV be v s = (stOk, askPavResets (Ones s src row be v).toNat s) := by
  rw [regWrite_glb_beside v h (by decide) (by decide)]
  rfl

/-- The steward's mask and lock as they are put, or refused as malformed. -/
theorem regWrite_steward (h : Reaches s src Off.GLB_STEWARD row be) (hs : s.steward src = true)
    (hl : s.on Fld.GLB_STEWARD_LOCK = false) :
    regWrite src Off.GLB_STEWARD be v s =
      ((putSteward (bitsOf (Written s src Off.GLB_STEWARD row be v).toNat 0 17) ((Written s src Off.GLB_STEWARD row be v).getLsbD 31)
        s).elim (stMalformed, s) (fun t => (stOk, t))) := by
  rw [regWrite_glb_beside v h (by decide) (by decide)]
  simp only [glbWrite, hs, hl, Off.GLB_FW_CTRL, Off.GLB_STEWARD, Written]
  norm_num
  split <;> simp_all

/-- The low half of a signpost, or of a mask of the map, is staged (R209, R245). -/
theorem glbWrite_lo (hs : s.steward src = true) {off : Nat} (h8 : off % 8 = 0) (fs : List FieldRow) (b : Reg32)
    (ho : (0x900 ≤ off ∧ off < 0xA00) ∨ (0x410 ≤ off ∧ off < 0x4A0 ∧ s.on Fld.GLB_MAP_CTRL_LOCKED = false)) :
    glbWrite src off fs b v s = (stOk, stage off (fieldsWrite fs (s.stagedLo off) v b true) s) := by
  have h1 : off ≠ Off.GLB_FW_CTRL := by simp only [Off.GLB_FW_CTRL]; omega
  have h2 : off ≠ Off.GLB_STEWARD := by simp only [Off.GLB_STEWARD]; omega
  have h3 : off ≠ Off.GLB_MAP_CTRL := by simp only [Off.GLB_MAP_CTRL]; omega
  have h4 : off ≠ Off.GLB_POOL_WINDOW := by simp only [Off.GLB_POOL_WINDOW]; omega
  rcases ho with ho | ⟨ho, ho', hl⟩
  · have h5 : ¬ (0x410 ≤ off ∧ off < 0x4A0) := by omega
    simp only [glbWrite, if_neg h1, if_neg h2, if_neg h3, if_neg h4, if_neg h5, if_pos ho, if_pos h8, hs, Bool.not_true,
      Bool.false_eq_true, if_false]
  · simp only [glbWrite, if_neg h1, if_neg h2, if_neg h3, if_pos (And.intro ho ho'), if_pos h8, hs, hl, Bool.not_true, Bool.or_self,
      Bool.false_eq_true, if_false]

/-- The high half of a signpost commits both halves, when they are legal (R209). -/
theorem glbWrite_spHi (hs : s.steward src = true) (e : Fin 32) (fs : List FieldRow) (b : Reg32) :
    glbWrite src (Off.GLB_SP_HI e) fs b v s =
      (commitSignpost e (s.stagedLo (Off.GLB_SP_LO e)).toNat (s.settled (Off.GLB_SP_HI e) (s.reg (Off.GLB_SP_HI e))
        (fieldsWrite fs (s.reg (Off.GLB_SP_HI e)) v b true)).toNat s).elim (stMalformed, s) (fun t => (stOk, t)) := by
  have he := e.isLt
  have hlo : Off.GLB_SP_HI e - 4 = Off.GLB_SP_LO e := by simp only [Off.GLB_SP_HI, Off.GLB_SP_LO]; omega
  have hk : (Off.GLB_SP_HI e - 0x900) / 8 = e := by simp only [Off.GLB_SP_HI]; omega
  have h1 : Off.GLB_SP_HI e ≠ Off.GLB_FW_CTRL := by simp only [Off.GLB_FW_CTRL, Off.GLB_SP_HI]; omega
  have h2 : Off.GLB_SP_HI e ≠ Off.GLB_STEWARD := by simp only [Off.GLB_STEWARD, Off.GLB_SP_HI]; omega
  have h3 : Off.GLB_SP_HI e ≠ Off.GLB_MAP_CTRL := by simp only [Off.GLB_MAP_CTRL, Off.GLB_SP_HI]; omega
  have h4 : Off.GLB_SP_HI e ≠ Off.GLB_POOL_WINDOW := by simp only [Off.GLB_POOL_WINDOW, Off.GLB_SP_HI]; omega
  have h5 : ¬ (0x410 ≤ Off.GLB_SP_HI e ∧ Off.GLB_SP_HI e < 0x4A0) := by simp only [Off.GLB_SP_HI]; omega
  have h6 : 0x900 ≤ Off.GLB_SP_HI e ∧ Off.GLB_SP_HI e < 0xA00 := by simp only [Off.GLB_SP_HI]; omega
  have h7 : ¬ Off.GLB_SP_HI e % 8 = 0 := by simp only [Off.GLB_SP_HI]; omega
  simp only [glbWrite, if_neg h1, if_neg h2, if_neg h3, if_neg h4, if_neg h5, if_pos h6, if_neg h7, hs, hlo, hk, Bool.not_true,
    Bool.false_eq_true, if_false]
  generalize commitSignpost _ _ _ s = c
  cases c <;> rfl

/-- The offset of the low half of a mask: of the partitioned map or of the interleaved one. -/
def mapLo (part : Bool) (m : Nat) : Nat := if part then Off.GLB_MAP_P_LO m else Off.GLB_MAP_I_LO m

/-- The offset of the high half of a mask. -/
def mapHi (part : Bool) (m : Nat) : Nat := if part then Off.GLB_MAP_P_HI m else Off.GLB_MAP_I_HI m

theorem mapHi_eq (part : Bool) (m : Nat) : mapHi part m = mapLo part m + 4 := by
  cases part <;> simp only [mapHi, mapLo, Off.GLB_MAP_P_HI, Off.GLB_MAP_I_HI, Off.GLB_MAP_P_LO, Off.GLB_MAP_I_LO] <;> norm_num <;> omega

/-- Where the masks of a map lie: eleven of the interleaved one, then six of the partitioned one. -/
theorem mapLo_bounds (part : Bool) (m : Nat) (hm : m < 11) (hp : part = true → m < 6) :
    0x410 ≤ mapLo part m ∧ mapLo part m + 8 ≤ 0x4A0 ∧ mapLo part m % 8 = 0 ∧ decide (0x470 ≤ mapLo part m + 4) = part ∧
    (if part then (mapLo part m + 4 - 0x470) / 8 else (mapLo part m + 4 - 0x410) / 8) = m := by
  cases part with
  | true =>
    have := hp rfl
    simp only [mapLo, if_true, Off.GLB_MAP_P_LO, decide_eq_true_eq]
    omega
  | false =>
    simp only [mapLo, Bool.false_eq_true, if_false, Off.GLB_MAP_I_LO, decide_eq_false_iff_not]
    omega

/-- The high half of a mask commits both halves, when they are legal (R245). -/
theorem glbWrite_mapHi (hs : s.steward src = true) (hl : s.on Fld.GLB_MAP_CTRL_LOCKED = false) (part : Bool) (m : Nat) (hm : m < 11)
    (hp : part = true → m < 6) (fs : List FieldRow) (b : Reg32) :
    glbWrite src (mapHi part m) fs b v s =
      (commitMask part m (s.stagedLo (mapLo part m)).toNat (s.settled (mapHi part m) (s.reg (mapHi part m))
        (fieldsWrite fs (s.reg (mapHi part m)) v b true)).toNat s).elim (stMalformed, s) (fun t => (stOk, t)) := by
  obtain ⟨hb, hb', h8, hd, hk⟩ := mapLo_bounds part m hm hp
  rw [mapHi_eq]
  generalize mapLo part m = lo at *
  have h1 : lo + 4 ≠ Off.GLB_FW_CTRL := by simp only [Off.GLB_FW_CTRL]; omega
  have h2 : lo + 4 ≠ Off.GLB_STEWARD := by simp only [Off.GLB_STEWARD]; omega
  have h3 : lo + 4 ≠ Off.GLB_MAP_CTRL := by simp only [Off.GLB_MAP_CTRL]; omega
  have h5 : 0x410 ≤ lo + 4 ∧ lo + 4 < 0x4A0 := by omega
  have h7 : ¬ (lo + 4) % 8 = 0 := by omega
  simp only [glbWrite, if_neg h1, if_neg h2, if_neg h3, if_pos h5, if_neg h7, hs, hl, hd, hk, Nat.add_sub_cancel, Bool.not_true,
    Bool.or_self, Bool.false_eq_true, if_false]
  generalize commitMask _ _ _ _ s = c
  cases c <;> rfl

/-! ### PRT -/

/-- Where register `k` of a port lies. -/
theorem portOff (n : PortId) {k off : Nat} (hk : k < 0x1000) (ho : off = 0x80000 + 0x1000 * n.val + k) :
    0x80000 ≤ off ∧ off < 0x90000 ∧ (off - 0x80000) / 0x1000 = n ∧ off % 0x1000 = k := by
  have hi := n.isLt
  omega

/-- A write that reaches a register of an enabled port. -/
theorem regWrite_port (n : PortId) {k off : Nat} (hk : k < 0x1000) (ho : off = 0x80000 + 0x1000 * n.val + k)
    (h : Reaches s src off row be) (hn : s.portEnabled n = true)
    (hr : k = 0x500 → be.getLsbD 0 = true → v.toNat % 4 = 1 → s.poolOn = true) :
    regWrite src off be v s = (stOk, prtWrite src off row.fields (beBits be) v s) := by
  obtain ⟨h1, h2, hd, hm⟩ := portOff n hk ho
  exact regWrite_prt h v h1 h2 (hd.symm ▸ hn) (by rw [hm]; exact hr)

section
variable (n : PortId) (hn : s.portEnabled n = true)
include hn

theorem regWrite_prbsCtrl (h : Reaches s src (Off.PRT_PRBS_CTRL n) row be) :
    regWrite src (Off.PRT_PRBS_CTRL n) be v s =
      (stOk, prbsWrite n (Written s src (Off.PRT_PRBS_CTRL n) row be v) ((Ones s src row be v).getLsbD 13) s) := by
  have ho : Off.PRT_PRBS_CTRL n = 0x80000 + 0x1000 * n.val + 0x010 := by simp only [Off.PRT_PRBS_CTRL]; omega
  obtain ⟨-, -, hd, hm⟩ := portOff n (by decide) ho
  rw [regWrite_port v n (by decide) ho h hn (fun hk => absurd hk (by decide))]
  simp only [prtWrite, hd, hm, if_true]
  rfl

theorem regWrite_injCtrl (h : Reaches s src (Off.PRT_INJ_CTRL n) row be) :
    regWrite src (Off.PRT_INJ_CTRL n) be v s = (stOk, injWrite n (Written s src (Off.PRT_INJ_CTRL n) row be v) s) := by
  have ho : Off.PRT_INJ_CTRL n = 0x80000 + 0x1000 * n.val + 0x014 := by simp only [Off.PRT_INJ_CTRL]; omega
  obtain ⟨-, -, hd, hm⟩ := portOff n (by decide) ho
  rw [regWrite_port v n (by decide) ho h hn (fun hk => absurd hk (by decide))]
  simp only [prtWrite, hd, hm, if_true, if_neg (show ¬ 0x014 = 0x010 by decide)]
  rfl

theorem regWrite_linkCtrl (h : Reaches s src (Off.PRT_LINK_CTRL n) row be) :
    regWrite src (Off.PRT_LINK_CTRL n) be v s =
      (stOk, linkCtrlWrite src n (Written s src (Off.PRT_LINK_CTRL n) row be v) (Ones s src row be v) s) := by
  have ho : Off.PRT_LINK_CTRL n = 0x80000 + 0x1000 * n.val + 0x300 := by simp only [Off.PRT_LINK_CTRL]; omega
  obtain ⟨-, -, hd, hm⟩ := portOff n (by decide) ho
  rw [regWrite_port v n (by decide) ho h hn (fun hk => absurd hk (by decide))]
  simp only [prtWrite, hd, hm, if_true, if_neg (show ¬ 0x300 = 0x010 by decide), if_neg (show ¬ 0x300 = 0x014 by decide)]
  rfl

theorem regWrite_poolCtrl (h : Reaches s src (Off.PRT_POOL_CTRL n) row be)
    (hr : be.getLsbD 0 = true → v.toNat % 4 = 1 → s.poolOn = true) :
    regWrite src (Off.PRT_POOL_CTRL n) be v s =
      (stOk, poolCtrlWrite src n (Written s src (Off.PRT_POOL_CTRL n) row be v) s) := by
  have ho : Off.PRT_POOL_CTRL n = 0x80000 + 0x1000 * n.val + 0x500 := by simp only [Off.PRT_POOL_CTRL]; omega
  obtain ⟨-, -, hd, hm⟩ := portOff n (by decide) ho
  rw [regWrite_port v n (by decide) ho h hn (fun _ => hr)]
  simp only [prtWrite, hd, hm, if_true, if_neg (show ¬ 0x500 = 0x010 by decide), if_neg (show ¬ 0x500 = 0x014 by decide),
    if_neg (show ¬ 0x500 = 0x300 by decide)]
  rfl

theorem regWrite_laneCtrl (p : Pos) (h : Reaches s src (Off.PRT_LANE_CTRL n p) row be) :
    regWrite src (Off.PRT_LANE_CTRL n p) be v s =
      (stOk, laneCtrlWrite src n p (Written s src (Off.PRT_LANE_CTRL n p) row be v) s) := by
  have hp := p.isLt
  have ho : Off.PRT_LANE_CTRL n p = 0x80000 + 0x1000 * n.val + (0x100 + 0x40 * p.val) := by simp only [Off.PRT_LANE_CTRL]; omega
  obtain ⟨-, -, hd, hm⟩ := portOff n (by omega) ho
  have hk : (0x100 + 0x40 * p.val - 0x100) / 0x40 = p.val := by
    rw [Nat.add_sub_cancel_left, Nat.mul_div_cancel_left _ (by decide)]
  have h5 : ¬ 0x100 + 0x40 * p.val = 0x500 := by omega
  have hk' : 0x100 + 0x40 * p.val < 0x1000 := by omega
  rw [regWrite_port v n hk' ho h hn (fun h' => absurd h' h5)]
  simp only [prtWrite, hd, hm, hk, if_neg (show ¬ 0x100 + 0x40 * p.val = 0x010 by omega),
    if_neg (show ¬ 0x100 + 0x40 * p.val = 0x014 by omega), if_neg (show ¬ 0x100 + 0x40 * p.val = 0x300 by omega),
    if_neg h5,
    if_pos (show 0x100 ≤ 0x100 + 0x40 * p.val ∧ 0x100 + 0x40 * p.val < 0x300 ∧ (0x100 + 0x40 * p.val) % 0x40 = 0 by omega)]
  rfl

end

/-! ### CAD and THM -/

theorem regWrite_cadCtrl (h : Reaches s src Off.CAD_CTRL row be) :
    regWrite src Off.CAD_CTRL be v s = (stOk, setSource (bitsOf (Written s src Off.CAD_CTRL row be v).toNat 0 2)
      (bitsOf (Written s src Off.CAD_CTRL row be v).toNat 4 4) s) := by
  rw [regWrite_rest h v (by decide) (by decide) (by decide)]
  rfl

theorem regWrite_thmCtrl (h : Reaches s src Off.THM_CTRL row be) :
    regWrite src Off.THM_CTRL be v s = (stOk,
      setExternal (bitAt (Written s src Off.THM_CTRL row be v).toNat 3) (bitAt (Written s src Off.THM_CTRL row be v).toNat 4)
        (bitAt (Written s src Off.THM_CTRL row be v).toNat 5)
        (setHostThr (bitsOf (Written s src Off.THM_CTRL row be v).toNat 0 2) s)) := by
  rw [regWrite_rest h v (by decide) (by decide) (by decide)]
  rfl

theorem regWrite_thmHalt (h : Reaches s src Off.THM_HALT row be) :
    regWrite src Off.THM_HALT be v s = (stOk, if (Ones s src row be v).getLsbD 31 then askHaltClear s else s) := by
  rw [regWrite_rest h v (by decide) (by decide) (by decide)]
  rfl

end

end Sys2Proof.Machine
end

section
/-! SUPPORT. What the registers of a port leave when they are written (R75, R87, R88, R138, R204): the value stored, the change put off for
the port's own, and made at once for another's. -/
namespace Sys2Proof.Machine
open Sys2Proof

/-! ### Single bits -/

theorem bitAt_toNat {w : Nat} (x : BitVec w) (i : Nat) : bitAt x.toNat i = x.getLsbD i := by
  simp [bitAt, BitVec.getLsbD, Nat.testBit_eq_decide_div_mod_eq, Bool.beq_eq_decide_eq]

theorem bitsOf_one (x i : Nat) : bitsOf x i 1 = b2n (bitAt x i) := by
  unfold bitsOf bitAt b2n
  rcases Nat.mod_two_eq_zero_or_one (x / 2 ^ i) with h | h <;> simp [h]

theorem b2n_ne_zero (b : Bool) : (b2n b != 0) = b := by cases b <;> rfl

/-- A field of a register just stored. -/
theorem State.rd_setReg_same (s : State) (f : Fld) (v : Reg32) : (s.setReg f.off v).rd f = bitsOf v.toNat f.lo f.w := by
  simp only [State.rd, State.reg_setReg_same]

/-! ### A change of a port, put off or made -/

/-- The change that a write which came in on the port itself puts off. -/
def putOff (n : Nat) (d : Delayed) (s : State) : State :=
  s.modPort n (fun p => { p with delayed := p.delayed ++ [{ change := d, after := none, due := some (s.now + tNs 100) }] })

theorem portChange_own (n : Nat) (d : Delayed) (s : State) : portChange n n d s = putOff n d s := if_pos rfl

theorem portChange_other {src n : Nat} (h : src ≠ n) (d : Delayed) (s : State) : portChange src n d s = applyDelayed n d s := if_neg h

theorem delayed_putOff (n : Nat) (d : Delayed) (s : State) :
    ((putOff n d s).port n).delayed = (s.port n).delayed ++ [⟨d, none, some (s.now + tNs 100)⟩] := by
  simp only [putOff, State.port_modPort_same]

/-- Changes of a port's test states and of its link. -/
def Delayed.ofLink : Delayed → Bool
  | .testState _ _ => true
  | .linkDis _ => true
  | .retrain => true
  | .widen => true
  | .role _ => false
  | .portReset => false

theorem applyDelayed_linkKept (n : Nat) (d : Delayed) (s : State) (h : d.ofLink = true) : LinkKept s (applyDelayed n d s) := by
  cases d with
  | testState p v => exact applyTest_linkKept (.refl s) n _ p.isLt
  | linkDis v => exact .ite (linkDown_linkKept (.refl s) n 10) (startTraining_linkKept (.refl s) n)
  | retrain => exact enterRecovery_linkKept (.refl s) n 5 false
  | widen => exact enterRecovery_linkKept (LaneKept.linkKept (retryPositions_laneKept (.refl s) n)) n 5 true
  | role v => cases h
  | portReset => cases h

/-- A change of a link, put off or made, leaves the registers that no operation of a link writes. -/
theorem reg_portChange (src n : Nat) (d : Delayed) (s : State) (h : d.ofLink = true) {off : Nat} (ho : LinkFree off) :
    (portChange src n d s).reg off = s.reg off := by
  by_cases hs : src = n
  · subst hs
    rw [portChange_own]
    rfl
  · rw [portChange_other hs]
    exact (applyDelayed_linkKept n d s h).reg off ho

/-! ### PRT_LANE_CTRL -/

theorem linkFree_laneCtrl (n p : Nat) : LinkFree (Off.PRT_LANE_CTRL n p) := by simp only [LinkFree, Off.PRT_LANE_CTRL]; omega

theorem linkFree_linkCtrl (n : Nat) : LinkFree (Off.PRT_LINK_CTRL n) := by simp only [LinkFree, Off.PRT_LINK_CTRL]; omega

theorem linkFree_poolCtrl (n : Nat) : LinkFree (Off.PRT_POOL_CTRL n) := by simp only [LinkFree, Off.PRT_POOL_CTRL]; omega

section
variable (n : PortId) (p : Pos) (w : Reg32) (s : State)

/-- A lane's register as stored, with the de-emphasis that is in effect. -/
theorem setEdge_stored : LaneKept (s.setReg (Off.PRT_LANE_CTRL n p) w) (setEdge n p (s.setReg (Off.PRT_LANE_CTRL n p) w)) :=
  setEdge_laneKept (.refl _) n p.isLt

theorem testState_stored :
    (setEdge n p (s.setReg (Off.PRT_LANE_CTRL n p) w)).rd (Fld.PRT_LANE_CTRL_TEST_STATE n p) =
      bitsOf w.toNat (Fld.PRT_LANE_CTRL_TEST_STATE n p).lo (Fld.PRT_LANE_CTRL_TEST_STATE n p).w := by
  rw [← State.rd_setReg_same s (Fld.PRT_LANE_CTRL_TEST_STATE n p) w]
  unfold State.rd
  rw [show (Fld.PRT_LANE_CTRL_TEST_STATE n p).off = Off.PRT_LANE_CTRL n p from rfl,
    (setEdge_stored n p w s).reg _ (linkFree_laneCtrl n p).laneFree]

theorem reg_laneCtrlWrite (src : Nat) : (laneCtrlWrite src n p w s).reg (Off.PRT_LANE_CTRL n p) = w := by
  have hs : (setEdge n p (s.setReg (Off.PRT_LANE_CTRL n p) w)).reg (Off.PRT_LANE_CTRL n p) = w := by
    rw [(setEdge_stored n p w s).reg _ (linkFree_laneCtrl n p).laneFree, State.reg_setReg_same]
  unfold laneCtrlWrite
  dsimp only
  split
  · exact hs
  · rw [reg_portChange _ _ _ _ rfl (linkFree_laneCtrl n p), hs]

/-- The port's own write of a lane's register: the link stays, and another test state waits for the completion (R75). -/
theorem laneCtrlWrite_own {src : Nat} (hs : src = n) :
    (laneCtrlWrite src n p w s).link n = s.link n ∧
    ((laneCtrlWrite src n p w s).port n).delayed = (s.port n).delayed ++
      (if s.rd (Fld.PRT_LANE_CTRL_TEST_STATE n p) =
          bitsOf w.toNat (Fld.PRT_LANE_CTRL_TEST_STATE n p).lo (Fld.PRT_LANE_CTRL_TEST_STATE n p).w then []
       else [⟨.testState p (BitVec.ofNat 3 (bitsOf w.toNat (Fld.PRT_LANE_CTRL_TEST_STATE n p).lo (Fld.PRT_LANE_CTRL_TEST_STATE n p).w)),
         none, some (s.now + tNs 100)⟩]) := by
  subst src
  have hk := setEdge_stored n p w s
  have hp : Fin.ofNat 8 p.val = p := by simp
  have hl : (setEdge n p (s.setReg (Off.PRT_LANE_CTRL n p) w)).link n = s.link n := by
    rw [hk.link_eq]
    exact State.rd_setReg_ne _ _ _ _ (by simp only [Fld.PRT_LINK_STAT_STATE, Off.PRT_LANE_CTRL]; omega)
  have hd : ((setEdge n p (s.setReg (Off.PRT_LANE_CTRL n p) w)).port n).delayed = (s.port n).delayed := (hk.port n).2.1
  have hn : (setEdge n p (s.setReg (Off.PRT_LANE_CTRL n p) w)).now = s.now := hk.now
  unfold laneCtrlWrite
  simp only [testState_stored, portChange_own, hp]
  split
  · exact ⟨hl, by rw [hd, List.append_nil]⟩
  · exact ⟨hl, by rw [delayed_putOff, hd, hn]⟩

end

/-! ### PRT_LINK_CTRL -/

section
variable (n : PortId) (w ones : Reg32) (s : State)

theorem reg_linkCtrlWrite (src : Nat) : (linkCtrlWrite src n w ones s).reg (Off.PRT_LINK_CTRL n) = w := by
  have kept : ∀ (d : Delayed) (a : State), d.ofLink = true → a.reg (Off.PRT_LINK_CTRL n) = w →
      (portChange src n d a).reg (Off.PRT_LINK_CTRL n) = w :=
    fun d a hd ha => (reg_portChange src n d a hd (linkFree_linkCtrl n)).trans ha
  have hs : (s.setReg (Off.PRT_LINK_CTRL n) w).reg (Off.PRT_LINK_CTRL n) = w := State.reg_setReg_same _ _ _
  unfold linkCtrlWrite
  extract_lets was s1 now s2
  have h2 : s2.reg (Off.PRT_LINK_CTRL n) = w := by
    unfold s2
    split
    · exact hs
    · exact kept _ _ rfl hs
  split_ifs
  · exact kept _ _ rfl h2
  · exact kept _ _ rfl h2
  · exact h2

/-- The port's own write of its link register: the link stays, and a recovery asked for on every position waits (R138). -/
theorem linkCtrlWrite_own {src : Nat} (hs : src = n) :
    (linkCtrlWrite src n w ones s).link n = s.link n ∧
    (ones.getLsbD 4 = true → ⟨.widen, none, some (s.now + tNs 100)⟩ ∈ ((linkCtrlWrite src n w ones s).port n).delayed) := by
  subst src
  have hs : (s.setReg (Off.PRT_LINK_CTRL n) w).link n = s.link n :=
    State.rd_setReg_ne _ _ _ _ (by simp only [Fld.PRT_LINK_STAT_STATE, Off.PRT_LINK_CTRL]; omega)
  unfold linkCtrlWrite
  extract_lets was s1 now s2
  have h2 : s2.link n = s.link n ∧ s2.now = s.now := by
    unfold s2
    split
    · exact ⟨hs, rfl⟩
    · rw [portChange_own]
      exact ⟨hs, rfl⟩
  obtain ⟨hl, hn⟩ := h2
  simp only [portChange_own]
  refine ⟨?_, fun h4 => ?_⟩
  · split_ifs <;> exact hl
  · rw [if_pos h4, delayed_putOff, hn]
    exact List.mem_append_right _ (List.mem_singleton_self _)

/-- Another's write that asks a link that is up for a recovery, and leaves LINK_DIS, sends it to RECOVERY (R123, R138). -/
theorem linkCtrlWrite_other {src : Nat} (hs : src ≠ n) (hd : s.on (Fld.PRT_LINK_CTRL_LINK_DIS n) = w.getLsbD 2)
    (ho : (ones.getLsbD 4 || ones.getLsbD 3) = true) (hu : s.up n = true) :
    (linkCtrlWrite src n w ones s).link n = lsRecovery := by
  have hnow : (s.setReg (Off.PRT_LINK_CTRL n) w).on (Fld.PRT_LINK_CTRL_LINK_DIS n) = w.getLsbD 2 := by
    unfold State.on
    rw [show s.setReg (Off.PRT_LINK_CTRL n) w = s.setReg (Fld.PRT_LINK_CTRL_LINK_DIS n).off w from rfl, State.rd_setReg_same]
    simp only [Fld.PRT_LINK_CTRL_LINK_DIS]
    rw [bitsOf_one, b2n_ne_zero, bitAt_toNat]
  have hl : (s.setReg (Off.PRT_LINK_CTRL n) w).link n = s.link n :=
    State.rd_setReg_ne _ _ _ _ (by simp only [Fld.PRT_LINK_STAT_STATE, Off.PRT_LINK_CTRL]; omega)
  have hu' : (s.setReg (Off.PRT_LINK_CTRL n) w).up n = true := by
    unfold State.up at hu ⊢
    rw [hl, hu]
  unfold linkCtrlWrite
  simp only [hnow, hd, if_true, portChange_other hs]
  split_ifs with h4 h3
  · refine (enterRecovery_of_up n 5 true _ ?_).1
    unfold State.up at hu' ⊢
    rw [(retryPositions_laneKept (.refl _) n).link_eq, hu']
  · exact (enterRecovery_of_up n 5 false _ hu').1
  · exact absurd (Bool.or_eq_true_iff.mp ho) (not_or.mpr ⟨h4, h3⟩)

end

/-! ### PRT_POOL_CTRL -/

section
variable (n : PortId) (w : Reg32) (s : State)

theorem role_lt (m : Nat) : s.role m < 4 := bitsOf_lt _ _ 2

/-- PRT_POOL_CTRL stored with the role the port has. -/
theorem role_poolStored : (s.setReg (Off.PRT_POOL_CTRL n) (BitVec.ofNat 32 (bitsSet w.toNat 0 2 (s.role n)))).role n = s.role n := by
  have h : bitsSet w.toNat 0 2 (s.role n) < 2 ^ 32 := bitsSet_lt _ _ _ _ 32 w.isLt (by decide)
  rw [State.role, show Off.PRT_POOL_CTRL n = (Fld.PRT_POOL_CTRL_ROLE n).off from rfl, State.rd_setReg_same, BitVec.toNat_ofNat,
    Nat.mod_eq_of_lt h]
  exact (bitsOf_bitsSet_same _ _ _ _).trans (Nat.mod_eq_of_lt (role_lt s n))

/-- The port's own write of its role: role and link stay (R204). -/
theorem poolCtrlWrite_own {src : Nat} (hs : src = n) :
    (poolCtrlWrite src n w s).role n = s.role n ∧ (poolCtrlWrite src n w s).link n = s.link n := by
  subst src
  have hl : (s.setReg (Off.PRT_POOL_CTRL n) (BitVec.ofNat 32 (bitsSet w.toNat 0 2 (s.role n)))).link n = s.link n :=
    State.rd_setReg_ne _ _ _ _ (by simp only [Fld.PRT_LINK_STAT_STATE, Off.PRT_POOL_CTRL]; omega)
  unfold poolCtrlWrite
  simp only [portChange_own]
  split
  · exact ⟨role_poolStored n w s, hl⟩
  · exact ⟨role_poolStored n w s, hl⟩

/-- Another's write of a port's role: the port takes it at once (R204). -/
theorem poolCtrlWrite_other {src : Nat} (hs : src ≠ n) : (poolCtrlWrite src n w s).role n = bitsOf w.toNat 0 2 := by
  have hx : bitsOf w.toNat 0 2 < 4 := bitsOf_lt _ _ 2
  unfold poolCtrlWrite
  simp only [portChange_other hs]
  split
  · next h => rw [role_poolStored, h]
  · next h =>
    have ht : (BitVec.ofNat 2 (bitsOf w.toNat 0 2)).toNat = bitsOf w.toNat 0 2 := by
      rw [BitVec.toNat_ofNat]
      exact Nat.mod_eq_of_lt hx
    simp only [applyDelayed, ht]
    exact role_applyRole n _ _ (by rw [role_poolStored]; exact fun e => h e.symm) hx

end

/-- The first change whose time has come is made, and waits no more. -/
theorem execDelayedChangeApply_shortens (n : PortId) (s : State) (h : ∃ d ∈ (s.port n).delayed, d.due.isSome = true) :
    ∃ u, execDelayedChangeApply n s = .next u ∧ (u.port n).delayed.length < (s.port n).delayed.length := by
  obtain ⟨d, hd⟩ := Option.isSome_iff_exists.mp (List.find?_isSome.mpr h)
  have hm : d ∈ (s.port n).delayed := List.mem_of_find?_eq_some hd
  refine ⟨_, by simp only [execDelayedChangeApply, hd]; rfl, Nat.lt_of_le_of_lt (applyDelayed_length_le n _ _) ?_⟩
  rw [State.port_modPort_same]
  have hl := List.length_erase_of_mem hm
  have hpos := List.length_pos_of_mem hm
  show ((s.port n).delayed.erase d).length < _
  omega

end Sys2Proof.Machine
end

section
/-! SUPPORT. PRBS counters cleared and an injection armed by their registers (R77 to R88). -/
namespace Sys2Proof.Machine
open Sys2Proof

/-! ### Loops -/

theorem forUpto_succ (n : Nat) (f : Nat → State → State) (s : State) : forUpto (n + 1) f s = f n (forUpto n f s) := by
  simp only [forUpto, List.range_succ, List.foldl_append, List.foldl_cons, List.foldl_nil]

/-- What one round of a loop brings about and no later round undoes holds after it; `Q` is what every round keeps. -/
theorem forUpto_of_round {P Q : State → Prop} {n k : Nat} (f : Nat → State → State) (s : State) (hk : k < n) (hQ : Q s)
    (hQf : ∀ i a, i < n → Q a → Q (f i a)) (hP : ∀ a, Q a → P (f k a)) (hPf : ∀ i a, k < i → i < n → Q a → P a → P (f i a)) :
    P (forUpto n f s) := by
  induction n with
  | zero => omega
  | succ n ih =>
    have hq : Q (forUpto n f s) := forUpto_induction n f s hQ fun i a hi => hQf i a (by omega)
    rw [forUpto_succ]
    by_cases hkn : k = n
    · subst hkn
      exact hP _ hq
    · exact hPf n _ (by omega) (by omega) hq
        (ih (by omega) (fun i a hi => hQf i a (by omega)) fun i a hki hi => hPf i a hki (by omega))

/-! ### PRBS -/

/-- The count of a lane's bits is that of its lane, of the rate and of the time. -/
theorem State.prbsCount_congr {s t : State} (n p : Nat) (hl : t.lane n p = s.lane n p) (hn : t.now = s.now)
    (hr : t.reg (Off.PRT_PHY_STAT n) = s.reg (Off.PRT_PHY_STAT n)) : t.prbsCount n p = s.prbsCount n p := by
  have hb : ∀ d, t.bitsIn n d = s.bitsIn n d := fun d => by
    simp only [State.bitsIn, State.rd, show (Fld.PRT_PHY_STAT_RATE n).off = Off.PRT_PHY_STAT n from rfl, hr]
  simp only [State.prbsCount, hl, hn, hb]

/-- A checker that loses its lock keeps what it has counted. -/
theorem prbsCount_prbsUnlock (n p : Nat) (s : State) : (prbsUnlock n p s).prbsCount n p = s.prbsCount n p := by
  unfold prbsUnlock
  simp only [State.prbsCount, State.wr_lane, State.lane_modLane_same]
  exact BitVec.add_zero _

/-- What a round of the loop over the lanes of a PRBS register leaves: the registers of the port itself, and the time. -/
structure PortRegsKept (x s : State) : Prop where
  now : s.now = x.now
  reg : ∀ off, off % 0x1000 < 0x100 → s.reg off = x.reg off

theorem PortRegsKept.setReg {x s : State} (h : PortRegsKept x s) {off : Nat} (ho : 0x100 ≤ off % 0x1000) (v : Reg32) :
    PortRegsKept x (s.setReg off v) :=
  ⟨h.now, fun a ha => (State.reg_setReg_ne s off v (by rintro rfl; omega)).trans (h.reg a ha)⟩

theorem PortRegsKept.modLane {x s : State} (h : PortRegsKept x s) (n p : Nat) (f : Lane → Lane) : PortRegsKept x (s.modLane n p f) :=
  ⟨h.now, h.reg⟩

theorem PortRegsKept.ite {x a b : State} {c : Prop} [Decidable c] (ha : PortRegsKept x a) (hb : PortRegsKept x b) :
    PortRegsKept x (if c then a else b) := by
  split <;> assumption

section
variable {x s : State} (n : Nat) {p : Nat} (hp : p < 8)
include hp

theorem prbsUnlock_portRegsKept (h : PortRegsKept x s) : PortRegsKept x (prbsUnlock n p s) :=
  (h.modLane n p _).setReg (by simp only [Fld.PRT_LANE_STAT_PRBS_LOCK]; omega) _

theorem prbsSync_portRegsKept (h : PortRegsKept x s) : PortRegsKept x (prbsSync n p s) := by
  unfold prbsSync
  exact .ite (h.modLane n p _) (prbsUnlock_portRegsKept n hp (h.modLane n p _))

end

/-- What a lane's PRBS work leaves of a lane: its error count, and what its checker has counted. -/
structure PrbsKept (n q : Nat) (x s : State) : Prop extends PortRegsKept x s where
  err : s.reg (Off.PRT_LANE_PRBS_ERR n q) = x.reg (Off.PRT_LANE_PRBS_ERR n q)
  count : s.prbsCount n q = x.prbsCount n q

theorem PrbsKept.trans {n q : Nat} {x s t : State} (h : PrbsKept n q x s) (k : PrbsKept n q s t) : PrbsKept n q x t :=
  ⟨⟨k.now.trans h.now, fun a ha => (k.reg a ha).trans (h.reg a ha)⟩, k.err.trans h.err, k.count.trans h.count⟩

theorem PrbsKept.ite {n q : Nat} {x a b : State} {c : Prop} [Decidable c] (ha : PrbsKept n q x a) (hb : PrbsKept n q x b) :
    PrbsKept n q x (if c then a else b) := by
  split <;> assumption

/-- Work on a lane that leaves its bits as counted, or on another lane. -/
theorem PrbsKept.modLane (n q p : Nat) (s : State) (f : Lane → Lane)
    (hf : q = p → (f (s.lane n p)).prbsBits = (s.lane n p).prbsBits ∧ (f (s.lane n p)).prbsFrom = (s.lane n p).prbsFrom) :
    PrbsKept n q s (s.modLane n p f) := by
  refine ⟨⟨rfl, fun _ _ => rfl⟩, rfl, ?_⟩
  by_cases h : q = p
  · obtain ⟨h1, h2⟩ := hf h
    subst h
    simp only [State.prbsCount, State.lane_modLane_same, h1, h2]
    rfl
  · exact State.prbsCount_congr n q (State.lane_modLane_ne s n p f (by omega)) rfl rfl

section
variable (n q p : Nat) (hp : p < 8) (s : State)
include hp

theorem prbsUnlock_prbsKept : PrbsKept n q s (prbsUnlock n p s) := by
  have hk : PortRegsKept s (prbsUnlock n p s) := prbsUnlock_portRegsKept n hp ⟨rfl, fun _ _ => rfl⟩
  have ho : Off.PRT_LANE_PRBS_ERR n q ≠ (Fld.PRT_LANE_STAT_PRBS_LOCK n p).off := by
    simp only [Off.PRT_LANE_PRBS_ERR, Fld.PRT_LANE_STAT_PRBS_LOCK]
    omega
  refine ⟨hk, State.reg_wr_ne _ _ _ ho, ?_⟩
  by_cases h : q = p
  · subst h
    exact prbsCount_prbsUnlock n q s
  · have hl : (prbsUnlock n p s).lane n q = s.lane n q := by
      simp only [prbsUnlock, State.wr_lane]
      exact State.lane_modLane_ne s n p _ (by omega)
    exact State.prbsCount_congr n q hl rfl (hk.reg _ (by simp only [Off.PRT_PHY_STAT]; omega))

theorem prbsSync_prbsKept : PrbsKept n q s (prbsSync n p s) := by
  unfold prbsSync
  extract_lets s1
  have h1 : PrbsKept n q s s1 := PrbsKept.modLane n q p s _ fun _ => by
    split_ifs <;> exact ⟨rfl, rfl⟩
  exact .ite h1 (h1.trans (prbsUnlock_prbsKept n q p hp s1))

end

/-- A lane's counts start from 0, as CLR asks for (R87). -/
def prbsClear (n p : Nat) (s : State) : State :=
  (s.setReg (Off.PRT_LANE_PRBS_ERR n p) 0).modLane n p (fun l => { l with
    prbsBits := 0
    prbsFrom := l.prbsFrom.map (fun _ => s.now)
    prbsHi := none })

/-- A lane's generator starts over and its checker loses its lock when they are of another pattern, and both follow the register. -/
def prbsFollow (n : Nat) (other : Bool) (p : Nat) (s : State) : State :=
  prbsSync n p (if other then prbsUnlock n p (s.modLane n p (fun l => { l with genFrom := none })) else s)

/-- The counts of a lane are 0. -/
def PrbsZero (n p : Nat) (s : State) : Prop := s.reg (Off.PRT_LANE_PRBS_ERR n p) = 0 ∧ s.prbsCount n p = 0

theorem PrbsKept.zero {n p : Nat} {x s : State} (k : PrbsKept n p x s) (h : PrbsZero n p x) : PrbsZero n p s :=
  ⟨k.err.trans h.1, k.count.trans h.2⟩

theorem prbsClear_zero (n p : Nat) (s : State) : PrbsZero n p (prbsClear n p s) := by
  refine ⟨State.reg_setReg_same _ _ _, ?_⟩
  simp only [prbsClear, State.prbsCount, State.lane_modLane_same, State.setReg_lane]
  cases (s.lane n p).prbsFrom with
  | none => simp
  | some t => simp [State.bitsIn]

theorem prbsClear_portRegsKept {x s : State} (n : Nat) {p : Nat} (hp : p < 8) (h : PortRegsKept x s) :
    PortRegsKept x (prbsClear n p s) :=
  (h.setReg (by simp only [Off.PRT_LANE_PRBS_ERR]; omega) _).modLane n p _

theorem prbsClear_prbsKept (n q p : Nat) (hp : p < 8) (h : q ≠ p) (s : State) : PrbsKept n q s (prbsClear n p s) := by
  refine ⟨prbsClear_portRegsKept n hp ⟨rfl, fun _ _ => rfl⟩, ?_, ?_⟩
  · exact State.reg_setReg_ne _ _ _ (by simp only [Off.PRT_LANE_PRBS_ERR]; omega)
  · refine State.prbsCount_congr n q ?_ rfl (State.reg_setReg_ne _ _ _ ?_)
    · exact State.lane_modLane_ne _ n p _ (by omega)
    · simp only [Off.PRT_PHY_STAT, Off.PRT_LANE_PRBS_ERR]
      omega

theorem prbsFollow_portRegsKept {x s : State} (n : Nat) (other : Bool) {p : Nat} (hp : p < 8) (h : PortRegsKept x s) :
    PortRegsKept x (prbsFollow n other p s) :=
  prbsSync_portRegsKept n hp (.ite (prbsUnlock_portRegsKept n hp (h.modLane n p _)) h)

theorem prbsFollow_prbsKept (n q p : Nat) (other : Bool) (hp : p < 8) (s : State) : PrbsKept n q s (prbsFollow n other p s) := by
  have hr : PrbsKept n q s s := ⟨⟨rfl, fun _ _ => rfl⟩, rfl, rfl⟩
  have hm : PrbsKept n q s (s.modLane n p (fun l => { l with genFrom := none })) := .modLane n q p s _ fun _ => ⟨rfl, rfl⟩
  have h1 : PrbsKept n q s (if other then prbsUnlock n p (s.modLane n p (fun l => { l with genFrom := none })) else s) :=
    .ite (hm.trans (prbsUnlock_prbsKept n q p hp _)) hr
  exact h1.trans (prbsSync_prbsKept n q p hp _)

/-- A lane's round when PRT_PRBS_CTRL is written. -/
def prbsRound (n : Nat) (clr : Bool) (other : Nat → Bool) (p : Nat) (s : State) : State :=
  prbsFollow n (other p) p (if clr && bitAt (s.rd (Fld.PRT_PRBS_CTRL_LANE_MASK n)) p then prbsClear n p s else s)

theorem prbsWrite_eq (n : Nat) (w : Reg32) (clr : Bool) (s : State) :
    ∃ other, prbsWrite n w clr s = forUpto 8 (prbsRound n clr other) (s.setReg (Off.PRT_PRBS_CTRL n) w) := ⟨_, rfl⟩

theorem prbsRound_portRegsKept {x s : State} (n : Nat) (clr : Bool) (other : Nat → Bool) {p : Nat} (hp : p < 8)
    (h : PortRegsKept x s) : PortRegsKept x (prbsRound n clr other p s) :=
  prbsFollow_portRegsKept n _ hp (.ite (prbsClear_portRegsKept n hp h) h)

/-- Writing PRT_PRBS_CTRL stores it; with CLR the counts of the selected lanes start from 0 (R87). -/
theorem prbsWrite_result (n : Nat) (w : Reg32) (clr : Bool) (s : State) :
    (prbsWrite n w clr s).reg (Off.PRT_PRBS_CTRL n) = w ∧
    (clr = true → ∀ p < 8, bitAt (bitsOf w.toNat (Fld.PRT_PRBS_CTRL_LANE_MASK n).lo (Fld.PRT_PRBS_CTRL_LANE_MASK n).w) p = true →
      PrbsZero n p (prbsWrite n w clr s)) := by
  obtain ⟨other, he⟩ := prbsWrite_eq n w clr s
  rw [he]
  generalize hs1 : s.setReg (Off.PRT_PRBS_CTRL n) w = s1
  have hw : s1.reg (Off.PRT_PRBS_CTRL n) = w := hs1 ▸ State.reg_setReg_same _ _ _
  have ho : Off.PRT_PRBS_CTRL n % 0x1000 < 0x100 := by
    simp only [Off.PRT_PRBS_CTRL]
    omega
  have h1 : PortRegsKept s1 s1 := ⟨rfl, fun _ _ => rfl⟩
  have hround : ∀ i a, i < 8 → PortRegsKept s1 a → PortRegsKept s1 (prbsRound n clr other i a) :=
    fun i a hi ha => prbsRound_portRegsKept n clr other hi ha
  refine ⟨((forUpto_induction 8 _ s1 h1 hround).reg _ ho).trans hw, fun hc p hp hb => ?_⟩
  refine forUpto_of_round (Q := PortRegsKept s1) _ s1 hp h1 hround (fun a ha => ?_) (fun i a hki hi _ hz => ?_)
  · have hm : bitAt (a.rd (Fld.PRT_PRBS_CTRL_LANE_MASK n)) p = true := by
      rw [← hb]
      simp only [State.rd, show (Fld.PRT_PRBS_CTRL_LANE_MASK n).off = Off.PRT_PRBS_CTRL n from rfl, ha.reg _ ho, hw]
    unfold prbsRound
    rw [hc, hm, Bool.and_self, if_pos rfl]
    exact (prbsFollow_prbsKept n p p _ hp _).zero (prbsClear_zero n p a)
  · have hc1 : PrbsKept n p a (if clr && bitAt (a.rd (Fld.PRT_PRBS_CTRL_LANE_MASK n)) i then prbsClear n i a else a) :=
      .ite (prbsClear_prbsKept n p i hi (by omega) a) ⟨⟨rfl, fun _ _ => rfl⟩, rfl, rfl⟩
    exact (hc1.trans (prbsFollow_prbsKept n p i _ hi _)).zero hz

/-! ### Injection -/

theorem injectBits_regs (n p k : Nat) (s : State) : (injectBits n p k s).regs = s.regs := by
  unfold injectBits
  dsimp only
  split <;> rfl

theorem injectLane_regs (n p : Nat) (s : State) : (injectLane n p s).regs = s.regs := by
  unfold injectLane
  extract_lets m
  split_ifs
  · rfl
  · rfl
  · exact injectBits_regs _ _ _ _
  · exact injectBits_regs _ _ _ _
  · rfl
  · rfl
  · rfl

/-- PRT_INJ_CTRL as stored, with MODE back at 0 where the injection is over (R88). -/
theorem injWrite_regs (n : Nat) (w : Reg32) (s : State) :
    (injWrite n w s).regs = (s.setReg (Off.PRT_INJ_CTRL n) w).regs ∨
    (injWrite n w s).regs = ((s.setReg (Off.PRT_INJ_CTRL n) w).wr (Fld.PRT_INJ_CTRL_MODE n) 0).regs := by
  unfold injWrite
  extract_lets s1
  have hl : (forUpto 8 (fun p a => injectLane n p (a.modLane n p (fun l => { l with injDone := false, injAt := none }))) s1).regs =
      s1.regs :=
    forUpto_induction (P := fun a => a.regs = s1.regs) 8 _ s1 rfl fun i a _ ha => (injectLane_regs n i _).trans ha
  generalize forUpto 8 _ s1 = s2 at hl
  unfold injectEnd
  dsimp only
  split
  · refine .inr ?_
    simp only [State.wr, State.setReg, State.reg, hl]
    rfl
  · exact .inl hl

theorem injWrite_result (n : Nat) (w : Reg32) (s : State) :
    RegsKept s (injWrite n w s) [Off.PRT_INJ_CTRL n] ∧
    (injWrite n w s).rd (Fld.PRT_INJ_CTRL_LANE_MASK n) =
      bitsOf w.toNat (Fld.PRT_INJ_CTRL_LANE_MASK n).lo (Fld.PRT_INJ_CTRL_LANE_MASK n).w ∧
    ((injWrite n w s).rd (Fld.PRT_INJ_CTRL_MODE n) = bitsOf w.toNat (Fld.PRT_INJ_CTRL_MODE n).lo (Fld.PRT_INJ_CTRL_MODE n).w ∨
      (injWrite n w s).rd (Fld.PRT_INJ_CTRL_MODE n) = 0) := by
  have hrd : ∀ t : State, (injWrite n w s).regs = t.regs → ∀ f, (injWrite n w s).rd f = t.rd f :=
    fun t ht f => by simp only [State.rd, State.reg, ht]
  have hreg : ∀ t : State, (injWrite n w s).regs = t.regs → ∀ i, (injWrite n w s).reg i = t.reg i :=
    fun t ht i => by simp only [State.reg, ht]
  have hm : (s.setReg (Off.PRT_INJ_CTRL n) w).rd (Fld.PRT_INJ_CTRL_LANE_MASK n) =
      bitsOf w.toNat (Fld.PRT_INJ_CTRL_LANE_MASK n).lo (Fld.PRT_INJ_CTRL_LANE_MASK n).w :=
    State.rd_setReg_same s (Fld.PRT_INJ_CTRL_LANE_MASK n) w
  rcases injWrite_regs n w s with h | h
  · exact ⟨fun i hi => (hreg _ h i).trans (State.reg_setReg_ne _ _ _ (by simpa using hi)), (hrd _ h _).trans hm,
      .inl ((hrd _ h _).trans (State.rd_setReg_same s (Fld.PRT_INJ_CTRL_MODE n) w))⟩
  · have hw : (Fld.PRT_INJ_CTRL_MODE n).lo + (Fld.PRT_INJ_CTRL_MODE n).w ≤ 32 := by simp [Fld.PRT_INJ_CTRL_MODE]
    refine ⟨fun i hi => ?_, ?_, .inr ?_⟩
    · have hi : i ≠ Off.PRT_INJ_CTRL n := by simpa using hi
      rw [hreg _ h, State.reg_wr_ne _ (Fld.PRT_INJ_CTRL_MODE n) _ hi, State.reg_setReg_ne _ _ _ hi]
    · rw [hrd _ h, State.rd_wr_disj _ _ _ _ hw (.inr (by simp [Fld.PRT_INJ_CTRL_MODE, Fld.PRT_INJ_CTRL_LANE_MASK])), hm]
    · rw [hrd _ h, State.rd_wr_same _ _ _ hw, Nat.zero_mod]

end Sys2Proof.Machine
end

section
/-! SUPPORT. What the registers of management, cadence, thermal, calibration and reset leave when they are written (R300, R441, R444,
R480, R503, R504, R687, R699). -/
namespace Sys2Proof.Machine
open Sys2Proof

theorem State.rd_of_regs {s t : State} (h : t.regs = s.regs) (f : Fld) : t.rd f = s.rd f := by simp only [State.rd, State.reg, h]

theorem State.rd_of_reg {s t : State} {f : Fld} (h : t.reg f.off = s.reg f.off) : t.rd f = s.rd f := by simp only [State.rd, h]

/-! ### A management reset -/

/-- A loop whose rounds change no register changes none. -/
theorem forUpto_regs {n : Nat} {f : Nat → State → State} (hf : ∀ i a, (f i a).regs = a.regs) (s : State) :
    (forUpto n f s).regs = s.regs :=
  forUpto_induction (P := fun a => a.regs = s.regs) n f s rfl fun i a _ ha => (hf i a).trans ha

/-- The registers below an offset stay: those of the GLB block for 0x1000. -/
def RegsBelow (k : Nat) (x s : State) : Prop := ∀ off, off < k → s.reg off = x.reg off

theorem RegsBelow.refl (k : Nat) (s : State) : RegsBelow k s s := fun _ _ => rfl

theorem LinkKept.glbKept {x s : State} (h : LinkKept x s) : RegsBelow 0x1000 x s := fun off ho => h.reg off (.inl (by omega))

theorem RegsBelow.trans {k : Nat} {x s t : State} (h : RegsBelow k x s) (h' : RegsBelow k s t) : RegsBelow k x t :=
  fun off ho => (h' off ho).trans (h off ho)

section
variable {k : Nat} {x s t : State} (h : RegsBelow k x s)
include h

theorem RegsBelow.of_regs (hr : t.regs = s.regs) : RegsBelow k x t := fun off ho => by simpa only [State.reg, hr] using h off ho

theorem RegsBelow.setReg {off : Nat} (ho : k ≤ off) (v : Reg32) : RegsBelow k x (s.setReg off v) :=
  fun a ha => (State.reg_setReg_ne s off v (by omega)).trans (h a ha)

theorem RegsBelow.wr {f : Fld} (ho : k ≤ f.off) (v : Nat) : RegsBelow k x (s.wr f v) := h.setReg ho _

theorem RegsBelow.forUpto {n : Nat} {f : Nat → State → State} (hf : ∀ i a, RegsBelow k x a → RegsBelow k x (f i a)) :
    RegsBelow k x (forUpto n f s) := forUpto_induction n f s h fun i a _ => hf i a

end

theorem RegsBelow.ite {k : Nat} {x a b : State} {c : Prop} [Decidable c] (ha : RegsBelow k x a) (hb : RegsBelow k x b) :
    RegsBelow k x (if c then a else b) := by
  split <;> assumption

theorem useTx_linkKept {x s : State} (h : LinkKept x s) (n kind k : Nat) {tc : Nat} (ht : tc < 4) :
    LinkKept x (useTx n tc kind k s) := by
  unfold useTx
  exact .ite h (h.wr (linkReg_fldTx n ht kind) _)

/-- A message that goes out changes what a link changes. -/
theorem sendMsg_linkKept (n : Nat) (m : OutMsg) (s t : State) (h : sendMsg n m s = some t) : LinkKept s t := by
  have h1 : LinkKept s (useTx n m.tc.toNat 0 1 s) := useTx_linkKept (.refl s) n 0 1 m.tc.isLt
  unfold sendMsg at h
  dsimp only at h
  split at h
  · split at h
    · cases h
      exact sendControl_linkKept h1 _ _
    · split at h
      · cases h
        exact sendFlit_linkKept (useTx_linkKept h1 n 1 1 m.tc.isLt) _ _ _ _
      · cases h
  · cases h

theorem stallOn_regs (n tc kind : Nat) (s : State) : (stallOn n tc kind s).regs = s.regs := by
  unfold stallOn
  dsimp only
  split <;> rfl

theorem msgWaits_regs (n : Nat) (m : OutMsg) (s : State) : (msgWaits n m s).regs = s.regs := by
  unfold msgWaits
  split
  · extract_lets s1
    have h1 : s1.regs = s.regs := by
      unfold s1
      split
      · rfl
      · exact stallOn_regs _ _ _ _
    split
    · exact (stallOn_regs _ _ _ _).trans h1
    · exact h1
  · rfl

theorem sendDone_glbKept (n : Nat) (s : State) : RegsBelow 0x1000 s (sendDone n s) := by
  have hr := RegsBelow.refl 0x1000 s
  unfold sendDone
  split
  · exact hr
  · next m _ =>
    split
    · next t ht => exact (sendMsg_linkKept n m s t ht).glbKept.of_regs rfl
    · exact hr.of_regs (msgWaits_regs n m s)

theorem notifyDone_glbKept (m : Nat) (s : State) : RegsBelow 0x1000 s (notifyDone m s) := by
  have hr := RegsBelow.refl 0x1000 s
  unfold notifyDone
  exact .ite (hr.wr (by decide) _) (.ite ((hr.of_regs rfl).trans (sendDone_glbKept _ _)) hr)

/-- A command's answer changes registers of its mailbox, of a port and of the sideband alone. -/
theorem completeWith_glbKept (m : Nat) (r : Result) (s : State) : RegsBelow 0x1000 s (completeWith m r s) := by
  have hr := RegsBelow.refl 0x1000 s
  unfold completeWith
  extract_lets b bs s1 s2 s3 s4
  have h1 : RegsBelow 0x1000 s s1 := hr.forUpto fun i a ha => ha.setReg (by simp only [Off.MBX_RSP]; omega) _
  have h2 : RegsBelow 0x1000 s s2 := (h1.wr (by simp only [Fld.MBX_STAT_CODE]; omega) _).wr (by simp only [Fld.MBX_STAT_STATE]; omega) _
  have h3 : RegsBelow 0x1000 s s3 := h2.of_regs ((State.setMbx_regs _ m Mbx.reset).trans (sramClear_regs m 128 256 s2))
  have h4 : RegsBelow 0x1000 s s4 := .ite (h3.trans (notifyDone_glbKept m s3)) h3
  have h5 : RegsBelow 0x1000 s (s4.sat (Fld.MBX_CNT_COMPLETED m)) := h4.wr (by simp only [Fld.MBX_CNT_COMPLETED]; omega) _
  exact h5.of_regs (by simp)

theorem detach_regs (m : Nat) (s : State) : (detach m s).regs = s.regs := by
  unfold detach
  extract_lets s1 s2
  have h1 : s1.regs = s.regs := forUpto_regs (fun p a => State.modPav_regs a p _) s
  have h2 : s2.regs = s1.regs := forUpto_regs (fun n a => State.modPort_regs a n _) s1
  exact Eq.trans h2 h1

theorem forceDone_glbKept (m code : Nat) (pl : List Byte) (s : State) : RegsBelow 0x1000 s (forceDone m code pl s) :=
  (completeWith_glbKept m _ s).of_regs (detach_regs m _)

theorem romFirmware_regs (s : State) :
    (romFirmware s).regs = ((((s.wr Fld.GLB_FW_STAT_IMAGE 1).setReg Off.GLB_FW_VER 0).setReg Off.GLB_FW_SVN 0).wr
      Fld.GLB_FW_CAP_CAP 0x1F9FF).regs := rfl

theorem coreStart_regs (s : State) : (coreStart s).regs = s.regs := rfl

/-- Of GLB_FW_STAT the firmware of the ROM changes IMAGE alone. -/
theorem rd_romFirmware (s : State) (f : Fld) (hf : f.off = 0x20) : (romFirmware s).rd f = (s.wr Fld.GLB_FW_STAT_IMAGE 1).rd f := by
  have hv : f.off ≠ Off.GLB_FW_VER := by rw [hf]; decide
  have hn : f.off ≠ Off.GLB_FW_SVN := by rw [hf]; decide
  have hc : f.off ≠ Fld.GLB_FW_CAP_CAP.off := by rw [hf]; decide
  rw [State.rd_of_regs (romFirmware_regs s), State.rd_wr_ne _ _ _ _ hc, State.rd_setReg_ne _ _ _ _ hn, State.rd_setReg_ne _ _ _ _ hv]

/-- The firmware after a management reset: of the ROM, not ready, and one restart more (R493). -/
theorem mgmtReset_result (cause : Nat) (s : State) :
    (mgmtReset cause s).rd Fld.GLB_FW_STAT_READY = 0 ∧ (mgmtReset cause s).rd Fld.GLB_FW_STAT_IMAGE = 1 ∧
    (mgmtReset cause s).rd Fld.GLB_FW_STAT_RESTARTS =
      min (2 ^ Fld.GLB_FW_STAT_RESTARTS.w - 1) (s.rd Fld.GLB_FW_STAT_RESTARTS + 1) := by
  unfold mgmtReset
  extract_lets s1 s2 s3
  have h1 : s1.rd Fld.GLB_FW_STAT_RESTARTS =
      min (2 ^ Fld.GLB_FW_STAT_RESTARTS.w - 1) (s.rd Fld.GLB_FW_STAT_RESTARTS + 1) := by
    unfold s1
    rw [State.raise_rd, State.rd_sat_same _ _ _ (by decide)]
  have h3 : RegsBelow 0x1000 s2 s3 := forUpto_induction (P := RegsBelow 0x1000 s2) 18 _ s2 (fun _ _ => rfl) fun m a _ ha =>
    RegsBelow.ite (ha.trans (forceDone_glbKept m ccRestarted [] a)) ha
  have hrd : ∀ f : Fld, f.off = 0x20 → s3.rd f = s2.rd f := fun f hf => State.rd_of_reg (h3 f.off (by omega))
  have hk : ∀ f : Fld, ({ s3 with switch := none } : State).rd f = s3.rd f := fun _ => rfl
  unfold s2 at hrd
  refine ⟨?_, ?_, ?_⟩
  · rw [hk, hrd _ rfl, State.rd_wr_same _ _ _ (by decide)]
    rfl
  · rw [hk, hrd _ rfl, State.rd_wr_disj _ _ _ _ (by decide) (by decide), rd_romFirmware _ _ rfl, State.rd_wr_same _ _ _ (by decide)]
    rfl
  · rw [hk, hrd _ rfl, State.rd_wr_disj _ _ _ _ (by decide) (by decide), rd_romFirmware _ _ rfl,
      State.rd_wr_disj _ _ _ _ (by decide) (by decide), State.rd_of_regs (coreStart_regs s1), h1]

end Sys2Proof.Machine
end

section
/-! SUPPORT. What the registers of reset, cadence, calibration, steward, pool and map leave when they are written (R209, R245, R300, R480,
R503, R687). -/
namespace Sys2Proof.Machine
open Sys2Proof

/-! ### Port resets -/

/-- What a port's reset leaves of the rest: time, which ports are enabled, and of every other port its mark and the changes due. -/
structure BesidePort (n : Nat) (x s : State) : Prop where
  now : s.now = x.now
  enabled : ∀ i, s.portEnabled i = x.portEnabled i
  down : s.rd (Fld.PRT_PHY_STAT_DOWN n) = x.rd (Fld.PRT_PHY_STAT_DOWN n)
  port : DuePart (x.port n) (s.port n)

theorem BesidePort.of_linkKept {x s : State} (h : LinkKept x s) (n : Nat) : BesidePort n x s := by
  refine ⟨h.now, fun i => ?_, h.down n, h.port n⟩
  rw [State.portEnabled, State.portEnabled, State.rd_of_reg (h.reg Fld.GLB_FEATURES_PORTS.off (.inl (by decide)))]

theorem BesidePort.trans {n : Nat} {x s t : State} (h : BesidePort n x s) (k : BesidePort n s t) : BesidePort n x t :=
  ⟨k.now.trans h.now, fun i => (k.enabled i).trans (h.enabled i), k.down.trans h.down, h.port.trans k.port⟩

/-- A port's reset begins beside every other port. -/
theorem resetBegun_beside {i n : Nat} (h : n ≠ i) (s : State) : BesidePort n s (resetBegun i s) := by
  refine ⟨rfl, fun j => ?_, ?_, ?_⟩
  · rw [State.portEnabled, State.portEnabled, resetBegun,
      State.rd_wr_ne _ _ _ _ (by simp only [Fld.GLB_FEATURES_PORTS, Fld.PRT_PHY_STAT_DOWN]; omega)]
    rfl
  · rw [resetBegun, State.rd_wr_ne _ _ _ _ (by simp only [Fld.PRT_PHY_STAT_DOWN]; omega)]
    rfl
  · have hp : (resetBegun i s).port n = s.port n := by
      rw [resetBegun, State.wr_port, State.port_modPort_ne _ _ _ h]
      rfl
    exact .of_eq (by rw [hp]) (by rw [hp])

theorem portReset_beside {i n : Nat} (h : n ≠ i) (s : State) : BesidePort n s (portReset i s) :=
  (resetBegun_beside h s).trans (.of_linkKept (portReset_linkKept i s) n)

/-- A port that has been reset is no longer marked down (R688). -/
theorem portReset_unmarks (n : Nat) (s : State) :
    ((portReset n s).port n).markedDown = false ∧ (portReset n s).rd (Fld.PRT_PHY_STAT_DOWN n) = 0 := by
  have hk := portReset_linkKept n s
  refine ⟨?_, ?_⟩
  · rw [(hk.port n).1, resetBegun, State.wr_port, State.port_modPort_same]
  · rw [hk.down n, resetBegun, State.rd_wr_same _ _ _ (by simp [Fld.PRT_PHY_STAT_DOWN]), Nat.zero_mod]

/-- A port's round when GLB_RST_PORT is written. -/
def resetRound (src ones n : Nat) (s : State) : State :=
  if bitAt ones n && s.portEnabled n then (if src = n then putOff n .portReset s else portReset n s) else s

theorem resetPorts_eq (src ones : Nat) (s : State) : resetPorts src ones s = forUpto 16 (resetRound src ones) s := rfl

theorem putOff_beside {i n : Nat} (h : n ≠ i) (d : Delayed) (s : State) : BesidePort n s (putOff i d s) := by
  have hp : (putOff i d s).port n = s.port n := State.port_modPort_ne s i _ h
  exact ⟨rfl, fun _ => rfl, rfl, .of_eq (by rw [hp]) (by rw [hp])⟩

theorem resetRound_beside (src ones : Nat) {i n : Nat} (h : n ≠ i) (s : State) : BesidePort n s (resetRound src ones i s) := by
  unfold resetRound
  split_ifs
  · exact putOff_beside h _ s
  · exact portReset_beside h s
  · exact .of_linkKept (.refl s) n

/-- Time and the ports that are enabled stay in every round. -/
theorem resetRound_frame (src ones i : Nat) (s : State) :
    (resetRound src ones i s).now = s.now ∧ ∀ j, (resetRound src ones i s).portEnabled j = s.portEnabled j := by
  have hb := resetRound_beside src ones (show i + 1 ≠ i by omega) s
  exact ⟨hb.now, hb.enabled⟩

/-- Each enabled port written 1 is reset, or its reset waits for the completion of a write that came in on it (R687). -/
theorem resetPorts_result (src ones : Nat) (s : State) (n : Nat) (hn : n < 16) (hb : bitAt ones n = true)
    (he : s.portEnabled n = true) :
    (src ≠ n → ((resetPorts src ones s).port n).markedDown = false ∧ (resetPorts src ones s).rd (Fld.PRT_PHY_STAT_DOWN n) = 0) ∧
    (src = n → ⟨.portReset, none, some (s.now + tNs 100)⟩ ∈ ((resetPorts src ones s).port n).delayed) := by
  rw [resetPorts_eq]
  have h0 : s.now = s.now ∧ ∀ j, s.portEnabled j = s.portEnabled j := ⟨rfl, fun _ => rfl⟩
  have hQ : ∀ i a, i < 16 → (a.now = s.now ∧ ∀ j, a.portEnabled j = s.portEnabled j) →
      (resetRound src ones i a).now = s.now ∧ ∀ j, (resetRound src ones i a).portEnabled j = s.portEnabled j :=
    fun i a _ ⟨h1, h2⟩ => ⟨(resetRound_frame src ones i a).1.trans h1, fun j => ((resetRound_frame src ones i a).2 j).trans (h2 j)⟩
  refine ⟨fun hs => ?_, fun hs => ?_⟩
  · refine forUpto_of_round (P := fun a => (a.port n).markedDown = false ∧ a.rd (Fld.PRT_PHY_STAT_DOWN n) = 0) _ s hn h0 hQ
      (fun a ⟨_, ha⟩ => ?_) (fun i a hi _ _ ⟨hm, hd⟩ => ?_)
    · unfold resetRound
      rw [hb, ha n, he, Bool.and_self, if_pos rfl, if_neg hs]
      exact portReset_unmarks n a
    · have hk := resetRound_beside src ones (show n ≠ i by omega) a
      exact ⟨hk.port.1.trans hm, hk.down.trans hd⟩
  · refine forUpto_of_round (P := fun a => ⟨.portReset, none, some (s.now + tNs 100)⟩ ∈ (a.port n).delayed) _ s hn h0 hQ
      (fun a ⟨hnow, ha⟩ => ?_) (fun i a hi _ _ hm => ?_)
    · unfold resetRound
      rw [hb, ha n, he, Bool.and_self, if_pos rfl, if_pos hs, delayed_putOff, hnow]
      exact List.mem_append_right _ (List.mem_singleton_self _)
    · exact (resetRound_beside src ones (show n ≠ i by omega) a).port.2.2 _ hm rfl

/-! ### Pavilion resets -/

/-- A change of a pavilion that leaves whether its reset is asked for. -/
theorem State.resetAsked_modPav (s : State) (p : Nat) (f : Pav → Pav) (hf : (f (s.pav p)).resetAsked = (s.pav p).resetAsked) (i : Nat) :
    ((s.modPav p f).pav i).resetAsked = (s.pav i).resetAsked := by
  by_cases h : i = p
  · subst h
    rw [State.pav_modPav_same, hf]
  · rw [State.pav_modPav_ne s p f h]

theorem State.finish_pavs (s : State) (m code : Nat) (pl : List Byte) : (s.finish m code pl).pavs = s.pavs := by
  unfold State.finish
  dsimp only
  split <;> rfl

theorem State.resetAsked_of_pavs {s t : State} (h : t.pavs = s.pavs) (i : Nat) : (t.pav i).resetAsked = (s.pav i).resetAsked := by
  simp only [State.pav, h]

theorem abortSlice_resetAsked (p cause : Nat) (s : State) (i : Nat) :
    ((abortSlice p cause s).pav i).resetAsked = (s.pav i).resetAsked := by
  unfold abortSlice
  split
  · next x _ =>
    split
    · rfl
    · extract_lets isOpen s1
      have h1 : (s1.pav i).resetAsked = (s.pav i).resetAsked := State.resetAsked_modPav s p _ rfl i
      exact (State.resetAsked_of_pavs (by simp [State.sat]) i).trans h1
  · rfl

theorem endTsv_resetAsked (p : Nat) (low aborted : Bool) (s : State) (i : Nat) :
    ((endTsv p low aborted s).pav i).resetAsked = (s.pav i).resetAsked := by
  unfold endTsv
  extract_lets s1
  have h1 : (s1.pav i).resetAsked = (s.pav i).resetAsked := State.resetAsked_modPav s p (fun v => { v with tsv := none }) rfl i
  split
  · exact h1
  · extract_lets c'
    split
    · exact (State.resetAsked_of_pavs (State.finish_pavs _ _ _ _) i).trans h1
    · exact h1

theorem abortTsv_resetAsked (p : Nat) (s : State) (i : Nat) : ((abortTsv p s).pav i).resetAsked = (s.pav i).resetAsked := by
  unfold abortTsv
  split
  · exact (endTsv_resetAsked _ _ _ _ i).trans (State.resetAsked_of_pavs (by simp) i)
  · rfl

/-- A pavilion's round when GLB_RST_PAV is written: its reset is asked for, and of no other pavilion taken back. -/
theorem askPavReset_round (p : Nat) (f : Pav → Pav) (hf : ∀ v, (f v).resetAsked = true) (s : State) (i : Nat)
    (h : i = p ∨ (s.pav i).resetAsked = true) : ((abortTsv p (abortSlice p 4 (s.modPav p f))).pav i).resetAsked = true := by
  rw [abortTsv_resetAsked, abortSlice_resetAsked]
  by_cases hi : i = p
  · subst hi
    rw [State.pav_modPav_same]
    exact hf _
  · rw [State.pav_modPav_ne s p f hi]
    exact h.resolve_left hi

theorem askPavResets_result (ones : Nat) (s : State) (p : Nat) (hp : p < 32) (hb : bitAt ones p = true) :
    ((askPavResets ones s).pav p).resetAsked = true := by
  unfold askPavResets
  refine forUpto_of_round (Q := fun _ => True) (P := fun a => (a.pav p).resetAsked = true) _ s hp trivial (fun _ _ _ _ => trivial)
    (fun a _ => ?_) (fun i a _ _ _ ha => ?_)
  · rw [if_pos hb]
    exact askPavReset_round p _ (fun _ => rfl) a p (.inl rfl)
  · split
    · exact askPavReset_round i _ (fun _ => rfl) a p (.inr ha)
    · exact ha

/-! ### Cadence and calibration -/

/-- CAD_CTRL after a write: the source, unless it is the reserved code, and the port (R300). -/
theorem setSource_result (src port : Nat) (hs : src < 4) (hp : port < 16) (s : State) :
    (src < 3 → (setSource src port s).rd Fld.CAD_CTRL_SRC = src) ∧ (setSource src port s).rd Fld.CAD_CTRL_PORT = port := by
  unfold setSource
  extract_lets src0 port0 src1 s1 cad s2 s3
  have hsrc1 : src1 < 4 := by
    unfold src1
    split
    · exact bitsOf_lt _ _ 2
    · exact hs
  have h1 : s1.rd Fld.CAD_CTRL_SRC = src1 ∧ s1.rd Fld.CAD_CTRL_PORT = port := by
    unfold s1
    rw [State.raise_rd, State.raise_rd, State.rd_wr_disj _ _ _ _ (by decide) (by decide), State.rd_wr_same _ _ _ (by decide),
      State.rd_wr_same _ _ _ (by decide)]
    exact ⟨Nat.mod_eq_of_lt hsrc1, Nat.mod_eq_of_lt hp⟩
  have h2 : LinkKept s1 s2 := (LinkKept.refl s1).of_eq rfl rfl rfl
  have hr : ∀ {f : Fld}, 0x1000 < f.off → f.off < 0x2000 → LinkReg f.off := fun k1 k2 => .inl ⟨k1, k2⟩
  have h3 : LinkKept s1 s3 :=
    .ite ((h2.wr (hr (by decide) (by decide)) _).wr (hr (by decide) (by decide)) _) (cadSeek_linkKept h2 2)
  have of_kept : ∀ {u : State}, LinkKept s1 u → (src < 3 → u.rd Fld.CAD_CTRL_SRC = src) ∧ u.rd Fld.CAD_CTRL_PORT = port := fun hu => by
    have hk : ∀ f : Fld, f.off = 0x1000 → _ = s1.rd f := fun f hf => State.rd_of_reg (hu.reg f.off (.inl (by omega)))
    rw [hk _ rfl, hk _ rfl, h1.1, h1.2]
    exact ⟨fun h => if_neg (by omega), rfl⟩
  split_ifs with ha hb hc
  · refine ⟨fun h => ?_, ha.2.symm⟩
    rw [show s.rd Fld.CAD_CTRL_SRC = src1 from ha.1.symm]
    exact if_neg (by omega)
  · exact of_kept (.refl s1)
  · exact of_kept (h3.wr (hr (by decide) (by decide)) _)
  · exact of_kept h3

theorem rd_setLearn (b : Bool) (s : State) : (setLearn b s).rd Fld.GLB_CAL_CTRL_OSC_LEARN = b2n b := by
  have h : (s.wr Fld.GLB_CAL_CTRL_OSC_LEARN (b2n b)).rd Fld.GLB_CAL_CTRL_OSC_LEARN = b2n b := by
    rw [State.rd_wr_same _ _ _ (by decide)]
    cases b <;> rfl
  unfold setLearn
  dsimp only
  split <;> exact h

/-! ### Steward, pool and map -/

/-- The steward's mask is put when an enabled source of it would hold the privilege, and else nothing (R503). -/
theorem putSteward_result (x : Nat) (lock : Bool) (s : State) :
    let mask := (BitVec.ofNat 17 x &&& BitVec.ofNat 17 s.stewardCan).toNat
    ((∃ k < 17, bitAt mask k = true ∧ s.sourceEnabled k = true) → ∃ t, putSteward x lock s = some t ∧
      t.rd Fld.GLB_STEWARD_MASK = mask ∧ t.rd Fld.GLB_STEWARD_LOCK = b2n lock) ∧
    ((∀ k < 17, bitAt mask k = true → s.sourceEnabled k = false) → putSteward x lock s = none) := by
  intro mask
  have hany : ((List.range 17).any (fun k => bitAt mask k && s.sourceEnabled k)) = true ↔
      ∃ k < 17, bitAt mask k = true ∧ s.sourceEnabled k = true := by
    simp only [List.any_eq_true, List.mem_range, Bool.and_eq_true]
  refine ⟨fun h => ?_, fun h => ?_⟩
  · have hm : mask % 2 ^ 17 = mask := Nat.mod_eq_of_lt (BitVec.isLt _)
    have hw : ((s.wr Fld.GLB_STEWARD_MASK mask).wr Fld.GLB_STEWARD_LOCK (b2n lock)).rd Fld.GLB_STEWARD_MASK = mask := by
      rw [State.rd_wr_disj _ _ _ _ (by decide) (by decide), State.rd_wr_same _ _ _ (by decide)]
      exact hm
    have hl : ((s.wr Fld.GLB_STEWARD_MASK mask).wr Fld.GLB_STEWARD_LOCK (b2n lock)).rd Fld.GLB_STEWARD_LOCK = b2n lock := by
      rw [State.rd_wr_same _ _ _ (by decide)]
      cases lock <;> rfl
    refine ⟨_, if_pos (hany.mpr h), ?_⟩
    split
    · exact ⟨(State.raise_rd _ _ _ _).trans hw, (State.raise_rd _ _ _ _).trans hl⟩
    · exact ⟨hw, hl⟩
  · refine if_neg (fun hc => ?_)
    obtain ⟨k, hk, hb, he⟩ := hany.mp hc
    rw [h k hk hb] at he
    cases he

/-- Two halves committed: both stored, and nothing else of the registers. -/
theorem commit_result (s : State) (a b off : Nat) (lo hi : Reg32) (h : a ≠ b) :
    let t := ((unstage off s).setReg a (BitVec.ofNat 32 lo.toNat)).setReg b (BitVec.ofNat 32 hi.toNat)
    t.reg a = lo ∧ t.reg b = hi ∧ RegsKept s t [a, b] := by
  simp only [BitVec.ofNat_toNat, BitVec.setWidth_eq]
  refine ⟨?_, State.reg_setReg_same _ _ _, fun i hi => ?_⟩
  · rw [State.reg_setReg_ne _ _ _ h, State.reg_setReg_same]
  · simp only [List.mem_cons, List.not_mem_nil, or_false, not_or] at hi
    rw [State.reg_setReg_ne _ _ _ hi.2, State.reg_setReg_ne _ _ _ hi.1]
    rfl

theorem commitSignpost_result (e : Nat) (lo hi : Reg32) (s : State) :
    (signpostLegal lo.toNat = true → ∃ t, commitSignpost e lo.toNat hi.toNat s = some t ∧
      t.reg (Off.GLB_SP_LO e) = lo ∧ t.reg (Off.GLB_SP_HI e) = hi ∧ RegsKept s t [Off.GLB_SP_LO e, Off.GLB_SP_HI e]) ∧
    (signpostLegal lo.toNat = false → commitSignpost e lo.toNat hi.toNat s = none) := by
  refine ⟨fun h => ⟨_, if_pos h, commit_result s _ _ _ lo hi ?_⟩, fun h => if_neg (by simp [h])⟩
  simp only [Off.GLB_SP_LO, Off.GLB_SP_HI]
  omega

/-- A mask is committed whole, or nothing is. -/
theorem commitMask_result (part : Bool) (m : Nat) (lo hi : Reg32) (s : State) :
    (∃ t, commitMask part m lo.toNat hi.toNat s = some t ∧ t.reg (mapLo part m) = lo ∧ t.reg (mapHi part m) = hi ∧
      RegsKept s t [mapLo part m, mapHi part m]) ∨ commitMask part m lo.toNat hi.toNat s = none := by
  have hne : mapLo part m ≠ mapHi part m := by
    rw [mapHi_eq]
    omega
  unfold commitMask
  extract_lets v ok offLo offHi
  split
  · exact .inl ⟨_, rfl, commit_result s _ _ _ lo hi hne⟩
  · exact .inr rfl

/-- A half just staged is the one that a commit will take. -/
theorem stagedLo_stage (off : Nat) (v : Reg32) (s : State) : (stage off v s).stagedLo off = v :=
  tabGet_tabInsert_same _ _ _ _

end Sys2Proof.Machine
end

section
/-! SUPPORT. What the thermal registers leave when they are written (R441, R442, R444), and a test of start-up that a cleared halt lets
begin (R703, R731). -/
namespace Sys2Proof.Machine
open Sys2Proof

/-! ### Refresh engines -/

theorem State.setRank_regs (s : State) (p r : Nat) (k : Rank) : (s.setRank p r k).regs = s.regs := State.modPav_regs s p _

theorem wakeRank_regs (p r : Nat) (s : State) : (wakeRank p r s).regs = s.regs := by
  unfold wakeRank
  dsimp only
  split
  · exact State.setRank_regs _ _ _ _
  · rfl

theorem wakeDue_regs (p r : Nat) (s : State) : (wakeDue p r s).regs = s.regs := by
  unfold wakeDue
  split
  · exact wakeRank_regs p r s
  · rfl

theorem noteUrgent_regs (p r : Nat) (s : State) : (noteUrgent p r s).regs = s.regs := by
  unfold noteUrgent
  extract_lets since
  split
  · rfl
  · exact State.setRank_regs _ _ _ _

theorem payEnd_regs (p r : Nat) (s : State) : (payEnd p r s).regs = s.regs := by
  unfold payEnd
  extract_lets k
  split
  · exact State.setRank_regs _ _ _ _
  · split
    · exact State.setRank_regs _ _ _ _
    · rfl

/-- Of the registers a refresh engine changes its own counters alone. -/
theorem refStep_regsBelow (p r : Nat) (s : State) : RegsBelow 0xC0000 s (refStep p r s) := by
  unfold refStep
  extract_lets s1 k
  have h1 : RegsBelow 0xC0000 s s1 := (RegsBelow.refl _ s).of_regs ((noteUrgent_regs _ _ _).trans (payEnd_regs _ _ _))
  split_ifs
  · have h2 : RegsBelow 0xC0000 s ((s1.modRank p r (fun k => { k with st := .forced, n := 1 })).sat (Fld.PAV_REF_CNT_FORCED p)) :=
      (h1.of_regs (State.setRank_regs _ _ _ _)).wr (by simp only [Fld.PAV_REF_CNT_FORCED]; omega) _
    exact (h2.of_regs (State.raiseOnce_regs _ _ _)).of_regs (wakeDue_regs _ _ _)
  · exact (h1.of_regs (State.setRank_regs _ _ _ _)).wr (by simp only [Fld.PAV_REF_CNT_POSTPONED]; omega) _
  · exact h1.of_regs ((wakeDue_regs _ _ _).trans (State.setRank_regs _ _ _ _))
  · exact h1

theorem exitSelf_regsBelow (p r : Nat) (s : State) : RegsBelow 0xC0000 s (exitSelf p r s) := by
  have h := RegsBelow.refl 0xC0000 s
  unfold exitSelf
  extract_lets k
  split_ifs
  · exact h.of_regs (State.setRank_regs _ _ _ _)
  · exact (h.of_regs (State.setRank_regs _ _ _ _)).trans (refStep_regsBelow p r _)
  · exact h

theorem wakePav_regsBelow (p : Nat) (s : State) : RegsBelow 0xC0000 s (wakePav p s) := by
  have h : RegsBelow 0xC0000 s ((ungatePav p s).modPav p (fun v => { v with drain := .none_ })) :=
    (RegsBelow.refl _ s).of_regs ((State.modPav_regs _ p _).trans (State.modPav_regs s p _))
  exact h.forUpto fun r a ha => ha.trans (exitSelf_regsBelow p r a)

theorem declareRate_regs (m level : Nat) (s : State) : (declareRate m level s).regs = s.regs :=
  forUpto_regs (fun p a => State.modPav_regs a p _) s

/-! ### THM_CTRL -/

/-- A declaration of the refresh rate shows in THM_STAT.THR alone. -/
theorem rd_declareNow (s : State) (f : Fld) (h : f.off ≠ Fld.THM_STAT_THR.off ∨ Fld.THM_STAT_THR.lo + Fld.THM_STAT_THR.w ≤ f.lo) :
    (declareNow s).rd f = s.rd f := by
  unfold declareNow
  extract_lets b thr
  rw [State.rd_of_regs (declareRate_regs _ _ _)]
  rcases h with h | h
  · exact State.rd_wr_ne _ _ _ _ h
  · exact State.rd_wr_disj _ _ _ _ (by decide) (.inl h)

/-- The host's throttle level after a write, unless the code is reserved, and no other field of THM_CTRL (R441). -/
theorem setHostThr_result (v : Nat) (hv : v < 4) (s : State) : v < 3 → (setHostThr v s).rd Fld.THM_CTRL_HOST_THR = v := by
  intro h3
  unfold setHostThr
  split
  · next h => exact (h.resolve_left (by omega)).symm
  · rw [rd_declareNow _ _ (.inl (by decide)), State.raise_rd, State.rd_wr_same _ _ _ (by decide)]
    exact Nat.mod_eq_of_lt hv

theorem State.reg_of_regs {s t : State} (h : t.regs = s.regs) (i : Nat) : t.reg i = s.reg i := by simp only [State.reg, h]

theorem State.setSensor_regs (s : State) (n : Nat) (x : Sensor) : (s.setSensor n x).regs = s.regs := rfl

/-- A sensor that is switched off loses its reading and its fault, not its switch. -/
theorem reg_clearSensor (n : Nat) (s : State) : (clearSensor n s).reg Off.THM_CTRL = s.reg Off.THM_CTRL := by
  have h1 : Off.THM_CTRL ≠ Off.THM_SENSOR n := by simp only [Off.THM_CTRL, Off.THM_SENSOR]; omega
  have h2 : Off.THM_CTRL ≠ (Fld.THM_SENSOR_FAULT n).off := by simp only [Off.THM_CTRL, Fld.THM_SENSOR_FAULT]; omega
  have h3 : Off.THM_CTRL ≠ Fld.THM_FAULT_FAULT.off := by decide
  have hf : (clearSensor n s).regs = (setFault n false (s.setReg (Off.THM_SENSOR n) 0)).regs := State.setSensor_regs _ _ _
  rw [State.reg_of_regs hf, setFault, State.reg_wr_ne _ _ _ h3, State.reg_wr_ne _ _ _ h2, State.reg_setReg_ne _ _ _ h1]

/-- The three external sensors are switched as written, and THM_CTRL's other fields stay (R444). -/
theorem setExternal_result (td1 td2 thm : Bool) (s : State) :
    (setExternal td1 td2 thm s).rd Fld.THM_CTRL_HOST_THR = s.rd Fld.THM_CTRL_HOST_THR ∧
    (setExternal td1 td2 thm s).rd Fld.THM_CTRL_TD1_EN = b2n td1 ∧ (setExternal td1 td2 thm s).rd Fld.THM_CTRL_TD2_EN = b2n td2 ∧
    (setExternal td1 td2 thm s).rd Fld.THM_CTRL_THM_EN = b2n thm := by
  have hb : ∀ b : Bool, b2n b % 2 = b2n b := fun b => by cases b <;> rfl
  unfold setExternal
  extract_lets s1
  have hk : (forUpto 3 (fun i a => if a.sensorOn (24 + i) then a else clearSensor (24 + i) a) s1).reg Off.THM_CTRL =
      s1.reg Off.THM_CTRL :=
    forUpto_induction (P := fun a => a.reg Off.THM_CTRL = s1.reg Off.THM_CTRL) 3 _ s1 rfl fun i a _ ha => by
      split
      · exact ha
      · exact (reg_clearSensor _ a).trans ha
  have hr : ∀ f : Fld, f.off = Off.THM_CTRL → _ = s1.rd f := fun f hf => State.rd_of_reg (hf ▸ hk)
  rw [hr _ rfl, hr _ rfl, hr _ rfl, hr _ rfl]
  unfold s1
  refine ⟨?_, ?_, ?_, ?_⟩
  · rw [State.rd_wr_disj _ _ _ _ (by decide) (by decide), State.rd_wr_disj _ _ _ _ (by decide) (by decide),
      State.rd_wr_disj _ _ _ _ (by decide) (by decide)]
  · rw [State.rd_wr_disj _ _ _ _ (by decide) (by decide), State.rd_wr_disj _ _ _ _ (by decide) (by decide),
      State.rd_wr_same _ _ _ (by decide)]
    exact hb td1
  · rw [State.rd_wr_disj _ _ _ _ (by decide) (by decide), State.rd_wr_same _ _ _ (by decide)]
    exact hb td2
  · rw [State.rd_wr_same _ _ _ (by decide)]
    exact hb thm

/-! ### A halt that is cleared -/

theorem State.regs_testPower (s : State) (t : Test) (p : Power) : ({ s with test := t, power := p } : State).regs = s.regs := rfl

theorem reg_shortTests (s : State) : (shortTests s).reg Off.THM_STAT = s.reg Off.THM_STAT := by
  unfold shortTests
  extract_lets power test s1
  have hs : s1.regs = s.regs := State.regs_testPower s _ _
  have hk := LinkKept.forUpto (k := 16) (.refl s1)
    (f := fun n a => if a.portEnabled n && a.role n != 2 then linkDown n 3 a else a)
    fun n a _ ha => .ite (linkDown_linkKept ha n 3) ha
  exact (hk.reg _ (.inr (.inl (by decide)))).trans (State.reg_of_regs hs _)

theorem reg_testOver (s : State) : (testOver s).reg Off.THM_STAT = s.reg Off.THM_STAT := by
  unfold testOver
  extract_lets power test s1
  have hs : s1.regs = s.regs := State.regs_testPower s _ _
  rw [State.reg_wr_ne _ _ _ (by decide), State.reg_wr_ne _ _ _ (by decide), State.reg_of_regs hs]

/-- A start-up test that begins, with nothing found yet. -/
def testBegun (s : State) : State :=
  let s := forUpto 32 (fun p a => a.modPav p (fun v => { v with testPos := 0, suspects := [] })) s
  { s with
    test := { s.test with startBits := 0, parkTested := 0, parkFailed := 0 }
    power := { s.power with testAt := s.now } }

theorem testBegun_regs (s : State) : (testBegun s).regs = s.regs := by
  unfold testBegun
  exact Eq.trans (State.regs_testPower _ _ _) (forUpto_regs (fun p a => State.modPav_regs a p _) s)

theorem startTest_eq (s : State) : startTest s =
    if s.power.boot = .test ∧ s.test.startRunning = true ∧ s.test.step = 1 ∧ s.halted = false ∧ s.on Fld.THM_STAT_INIT = true then
      if (testBegun s).rd Fld.GLB_BIST_STAT_POLICY = 2 then testOver (testBegun s)
      else shortTests ((testBegun s).wr Fld.GLB_BIST_STAT_PHASE 1)
    else s := rfl

/-- The start of a test changes no thermal register. -/
theorem reg_startTest (s : State) : (startTest s).reg Off.THM_STAT = s.reg Off.THM_STAT := by
  have hb := State.reg_of_regs (testBegun_regs s) Off.THM_STAT
  rw [startTest_eq]
  split_ifs
  · rw [reg_testOver, hb]
  · rw [reg_shortTests, State.reg_wr_ne _ _ _ (by decide), hb]
  · rfl

/-- A halt that is cleared: HALT and TRIP are 0 (R442). -/
theorem clearHalt_result (s : State) : (clearHalt s).rd Fld.THM_STAT_HALT = 0 ∧ (clearHalt s).rd Fld.THM_STAT_TRIP = 0 := by
  unfold clearHalt
  extract_lets s1 s2
  have h1 : s1.rd Fld.THM_STAT_HALT = 0 ∧ s1.rd Fld.THM_STAT_TRIP = 0 := by
    unfold s1
    rw [State.raise_rd, State.raise_rd, State.rd_wr_disj _ _ _ _ (by decide) (by decide), State.rd_wr_same _ _ _ (by decide),
      State.rd_wr_same _ _ _ (by decide)]
    exact ⟨rfl, rfl⟩
  have h2 : RegsBelow 0xC0000 s1 s2 := (RegsBelow.refl _ s1).forUpto fun p a ha =>
    .ite (.ite (ha.of_regs (State.modPav_regs a p _)) (ha.trans (wakePav_regsBelow p a))) ha
  have hr : ∀ f : Fld, f.off = Off.THM_STAT → 6 ≤ f.lo → (startTest (declareNow s2)).rd f = s1.rd f := fun f hf hl =>
    calc (startTest (declareNow s2)).rd f = (declareNow s2).rd f := State.rd_of_reg (hf ▸ reg_startTest _)
      _ = s2.rd f := rd_declareNow s2 f (.inr hl)
      _ = s1.rd f := State.rd_of_reg (h2 f.off (by rw [hf]; decide))
  rw [hr _ rfl (by decide), hr _ rfl (by decide)]
  exact h1

end Sys2Proof.Machine
end

section
/-! SUPPORT. Each row of the table that writes a register with an effect of its own completes, and what it leaves (R11, R75, R87, R88, R125,
R133, R138, R204, R209, R245, R300, R504). -/
namespace Sys2Proof.Machine
open Sys2Proof

/-- The table's row of a write, from what the write comes to. -/
theorem exec_of_regWrite {c : Instr} {src : Source} {off : Nat} {be : BitVec 4} {v : Reg32} {s t : State} {st : BitVec 4}
    (hs : Serves s) (hw : regWrite src off be v s = (st, t)) (hc : writeRow c = some (src, off, be, v)) :
    exec c s = .next (quietStep { t with lastStatus := st }) := by
  rw [exec_of_writeRow hc hs, hw]

/-- A write's end as the option it comes from gives it. -/
theorem regWrite_elim {src off : Nat} {be : BitVec 4} {v : Reg32} {s : State} {o : Option State}
    (h : regWrite src off be v s = o.elim (stMalformed, s) (fun t => (stOk, t))) :
    (∀ t, o = some t → regWrite src off be v s = (stOk, t)) ∧ (o = none → regWrite src off be v s = (stMalformed, s)) :=
  ⟨fun t ht => by rw [h, ht]; rfl, fun hn => by rw [h, hn]; rfl⟩

section
variable {src : Source} {be : BitVec 4} {v : Reg32} {s : State} {row : RegRow}

/-! ### The rows of a port -/

section
variable (n : PortId) (hn : s.portEnabled n = true)
include hn

theorem testStateWrite_completes (p : Pos) (h : Reaches s src (Off.PRT_LANE_CTRL n p) row be) :
    let w := Written s src (Off.PRT_LANE_CTRL n p) row be v
    let x := bitsOf w.toNat (Fld.PRT_LANE_CTRL_TEST_STATE n p).lo (Fld.PRT_LANE_CTRL_TEST_STATE n p).w
    ∃ u, exec (.testStateWrite n p src be v) s = .next (quietStep u) ∧ u.lastStatus = stOk ∧ u.reg (Off.PRT_LANE_CTRL n p) = w ∧
      (src.val = n.val → u.link n = s.link n ∧ (u.port n).delayed = (s.port n).delayed ++
        (if s.rd (Fld.PRT_LANE_CTRL_TEST_STATE n p) = x then []
         else [⟨.testState p (BitVec.ofNat 3 x), none, some (s.now + tNs 100)⟩])) := by
  intro w x
  exact ⟨_, exec_of_regWrite h.toServes (regWrite_laneCtrl v n hn p h) rfl, rfl, reg_laneCtrlWrite n p w s src,
    laneCtrlWrite_own n p w s⟩

theorem prbsClr_completes (h : Reaches s src (Off.PRT_PRBS_CTRL n) row be) :
    let w := Written s src (Off.PRT_PRBS_CTRL n) row be v
    ∃ u, exec (.prbsClr n src be v) s = .next (quietStep u) ∧ u.lastStatus = stOk ∧ u.reg (Off.PRT_PRBS_CTRL n) = w ∧
      ((Ones s src row be v).getLsbD 13 = true → ∀ p < 8,
        bitAt (bitsOf w.toNat (Fld.PRT_PRBS_CTRL_LANE_MASK n).lo (Fld.PRT_PRBS_CTRL_LANE_MASK n).w) p = true →
        u.reg (Off.PRT_LANE_PRBS_ERR n p) = 0 ∧ u.prbsCount n p = 0) := by
  intro w
  have hr := prbsWrite_result n w ((Ones s src row be v).getLsbD 13) s
  exact ⟨_, exec_of_regWrite h.toServes (regWrite_prbsCtrl v n hn h) rfl, rfl, hr.1, hr.2⟩

theorem injectWrite_completes (h : Reaches s src (Off.PRT_INJ_CTRL n) row be) :
    let w := Written s src (Off.PRT_INJ_CTRL n) row be v
    ∃ u, exec (.injectWrite n src be v) s = .next (quietStep u) ∧ u.lastStatus = stOk ∧ RegsKept s u [Off.PRT_INJ_CTRL n] ∧
      u.rd (Fld.PRT_INJ_CTRL_LANE_MASK n) = bitsOf w.toNat (Fld.PRT_INJ_CTRL_LANE_MASK n).lo (Fld.PRT_INJ_CTRL_LANE_MASK n).w ∧
      (u.rd (Fld.PRT_INJ_CTRL_MODE n) = bitsOf w.toNat (Fld.PRT_INJ_CTRL_MODE n).lo (Fld.PRT_INJ_CTRL_MODE n).w ∨
        u.rd (Fld.PRT_INJ_CTRL_MODE n) = 0) :=
  ⟨_, exec_of_regWrite h.toServes (regWrite_injCtrl v n hn h) rfl, rfl, injWrite_result n _ s⟩

/-- The three rows that write a port's link register. -/
theorem linkCtrl_completes (h : Reaches s src (Off.PRT_LINK_CTRL n) row be) :
    let w := Written s src (Off.PRT_LINK_CTRL n) row be v
    ∃ u, exec (.linkDisWrite n src be v) s = .next (quietStep u) ∧ exec (.retrainWrite n src be v) s = .next (quietStep u) ∧
      exec (.widenWrite n src be v) s = .next (quietStep u) ∧ u.lastStatus = stOk ∧ u.reg (Off.PRT_LINK_CTRL n) = w ∧
      (src.val = n.val → u.link n = s.link n ∧ ((Ones s src row be v).getLsbD 4 = true →
        ⟨.widen, none, some (s.now + tNs 100)⟩ ∈ (u.port n).delayed)) ∧
      (src.val ≠ n.val → s.on (Fld.PRT_LINK_CTRL_LINK_DIS n) = w.getLsbD 2 →
        ((Ones s src row be v).getLsbD 4 || (Ones s src row be v).getLsbD 3) = true → s.up n = true → u.link n = lsRecovery) := by
  intro w
  have hw := regWrite_linkCtrl v n hn h
  exact ⟨_, exec_of_regWrite h.toServes hw rfl, exec_of_regWrite h.toServes hw rfl, exec_of_regWrite h.toServes hw rfl, rfl,
    reg_linkCtrlWrite n w _ s src, linkCtrlWrite_own n w _ s, linkCtrlWrite_other n w _ s⟩

theorem roleWrite_completes (h : Reaches s src (Off.PRT_POOL_CTRL n) row be)
    (hr : be.getLsbD 0 = true → v.toNat % 4 = 1 → s.poolOn = true) :
    ∃ u, exec (.roleWrite n src be v) s = .next (quietStep u) ∧ u.lastStatus = stOk ∧
      (src.val = n.val → u.role n = s.role n ∧ u.link n = s.link n) ∧
      (src.val ≠ n.val → u.role n = bitsOf (Written s src (Off.PRT_POOL_CTRL n) row be v).toNat (Fld.PRT_POOL_CTRL_ROLE n).lo
        (Fld.PRT_POOL_CTRL_ROLE n).w) := by
  exact ⟨_, exec_of_regWrite h.toServes (regWrite_poolCtrl v n hn h hr) rfl, rfl, poolCtrlWrite_own n _ s, poolCtrlWrite_other n _ s⟩

end

/-! ### Pool and map -/

section
variable (hs : s.steward src = true)
include hs

theorem spLoWrite_completes (e : Fin 32) (hp : s.poolOn = true) (h : Reaches s src (Off.GLB_SP_LO e) row be) :
    ∃ u, exec (.spLoWrite e src be v) s = .next (quietStep u) ∧ u.lastStatus = stOk ∧ u.regs = s.regs ∧
      u.stagedLo (Off.GLB_SP_LO e) = fieldsWrite row.fields (s.stagedLo (Off.GLB_SP_LO e)) v (beBits be) true := by
  have he := e.isLt
  have ho : 0x900 ≤ Off.GLB_SP_LO e ∧ Off.GLB_SP_LO e < 0xA00 ∧ Off.GLB_SP_LO e % 8 = 0 := by
    simp only [Off.GLB_SP_LO]
    omega
  obtain ⟨h1, h2, h3⟩ := ho
  have hw := (regWrite_glb h v (by omega) fun _ _ => hp).trans (glbWrite_lo v hs h3 row.fields (beBits be) (.inl ⟨h1, h2⟩))
  exact ⟨_, exec_of_regWrite h.toServes hw rfl, rfl, rfl, stagedLo_stage _ _ s⟩

theorem spHiWrite_completes (e : Fin 32) (hp : s.poolOn = true) (h : Reaches s src (Off.GLB_SP_HI e) row be) :
    ∃ u, exec (.spHiWrite e src be v) s = .next (quietStep u) ∧
      (signpostLegal (s.stagedLo (Off.GLB_SP_LO e)).toNat = true → u.lastStatus = stOk ∧
        u.reg (Off.GLB_SP_LO e) = s.stagedLo (Off.GLB_SP_LO e) ∧ u.reg (Off.GLB_SP_HI e) = Written s src (Off.GLB_SP_HI e) row be v ∧
        RegsKept s u [Off.GLB_SP_LO e, Off.GLB_SP_HI e]) ∧
      (signpostLegal (s.stagedLo (Off.GLB_SP_LO e)).toNat = false → u.lastStatus = stMalformed ∧ u.regs = s.regs) := by
  have he := e.isLt
  have hw := (regWrite_glb h v (by simp only [Off.GLB_SP_HI]; omega) fun _ _ => hp).trans
    (glbWrite_spHi v hs e row.fields (beBits be))
  rw [← hs] at hw
  obtain ⟨hsome, hnone⟩ := regWrite_elim hw
  obtain ⟨hl, hm⟩ := commitSignpost_result e (s.stagedLo (Off.GLB_SP_LO e)) (Written s src (Off.GLB_SP_HI e) row be v) s
  cases hq : signpostLegal (s.stagedLo (Off.GLB_SP_LO e)).toNat with
  | true =>
    obtain ⟨t, ht, hr⟩ := hl hq
    exact ⟨_, exec_of_regWrite h.toServes (hsome t ht) rfl, fun _ => ⟨rfl, hr⟩, fun hc => Bool.noConfusion hc⟩
  | false => exact ⟨_, exec_of_regWrite h.toServes (hnone (hm hq)) rfl, fun hc => Bool.noConfusion hc, fun _ => ⟨rfl, rfl⟩⟩

section
variable (hk : s.on Fld.GLB_MAP_CTRL_LOCKED = false) (part : Bool) (m : Fin 11) (hm : part = true → m.val < 6)
include hk hm

theorem maskLoWrite_completes (h : Reaches s src (mapLo part m) row be) :
    ∃ u, exec (.maskLoWrite part m src be v) s = .next (quietStep u) ∧ u.lastStatus = stOk ∧ u.regs = s.regs ∧
      u.stagedLo (mapLo part m) = fieldsWrite row.fields (s.stagedLo (mapLo part m)) v (beBits be) true := by
  obtain ⟨h1, h2, h3, -, -⟩ := mapLo_bounds part m m.isLt hm
  have hw := (regWrite_glb h v (by omega) (by omega)).trans
    (glbWrite_lo v hs h3 row.fields (beBits be) (.inr ⟨h1, by omega, hk⟩))
  exact ⟨_, exec_of_regWrite h.toServes hw rfl, rfl, rfl, stagedLo_stage _ _ s⟩

theorem maskHiWrite_completes (h : Reaches s src (mapHi part m) row be) :
    ∃ u, exec (.maskHiWrite part m src be v) s = .next (quietStep u) ∧
      (u.lastStatus = stOk ∧ u.reg (mapLo part m) = s.stagedLo (mapLo part m) ∧
          u.reg (mapHi part m) = Written s src (mapHi part m) row be v ∧ RegsKept s u [mapLo part m, mapHi part m] ∨
        u.lastStatus = stMalformed ∧ u.regs = s.regs) := by
  obtain ⟨h1, h2, -, -, -⟩ := mapLo_bounds part m m.isLt hm
  have he := mapHi_eq part m
  have hw := (regWrite_glb h v (by omega) (by omega)).trans (glbWrite_mapHi v hs hk part m m.isLt hm row.fields (beBits be))
  rw [← hs] at hw
  obtain ⟨hsome, hnone⟩ := regWrite_elim hw
  rcases commitMask_result part m (s.stagedLo (mapLo part m)) (Written s src (mapHi part m) row be v) s with ⟨t, ht, hr⟩ | hn
  · exact ⟨_, exec_of_regWrite h.toServes (hsome t ht) rfl, .inl ⟨rfl, hr⟩⟩
  · exact ⟨_, exec_of_regWrite h.toServes (hnone hn) rfl, .inr ⟨rfl, rfl⟩⟩

end

/-! ### Management, cadence, thermal and reset -/

theorem stewardWrite_completes (h : Reaches s src Off.GLB_STEWARD row be) (hl : s.on Fld.GLB_STEWARD_LOCK = false) :
    let w := Written s src Off.GLB_STEWARD row be v
    let mask := (BitVec.ofNat 17 (bitsOf w.toNat 0 17) &&& BitVec.ofNat 17 s.stewardCan).toNat
    ∃ u, exec (.stewardWrite src be v) s = .next (quietStep u) ∧
      ((∃ k < 17, bitAt mask k = true ∧ s.sourceEnabled k = true) → u.lastStatus = stOk ∧ u.rd Fld.GLB_STEWARD_MASK = mask ∧
        u.rd Fld.GLB_STEWARD_LOCK = b2n (w.getLsbD 31)) ∧
      ((∀ k < 17, bitAt mask k = true → s.sourceEnabled k = false) → u.lastStatus = stMalformed ∧ u.regs = s.regs) := by
  intro w mask
  obtain ⟨hsome, hnone⟩ := regWrite_elim (regWrite_steward v h hs hl)
  obtain ⟨hp, hq⟩ := putSteward_result (bitsOf w.toNat 0 17) (w.getLsbD 31) s
  by_cases he : ∃ k < 17, bitAt mask k = true ∧ s.sourceEnabled k = true
  · obtain ⟨t, ht, hr⟩ := hp he
    refine ⟨_, exec_of_regWrite h.toServes (hsome t ht) rfl, fun _ => ⟨rfl, hr⟩, fun hc => ?_⟩
    obtain ⟨k, hk, hb, hen⟩ := he
    rw [hc k hk hb] at hen
    cases hen
  · have hall : ∀ k < 17, bitAt mask k = true → s.sourceEnabled k = false :=
      fun k hk hb => Bool.eq_false_iff.mpr fun hen => he ⟨k, hk, hb, hen⟩
    exact ⟨_, exec_of_regWrite h.toServes (hnone (hq hall)) rfl, fun hc => absurd hc he, fun _ => ⟨rfl, rfl⟩⟩

end

theorem coreResetWrite_completes (h : Reaches s src Off.GLB_FW_CTRL row be) :
    ∃ u, exec (.coreResetWrite src be v) s = .next (quietStep u) ∧ u.lastStatus = stOk ∧
      ((Ones s src row be v).getLsbD 31 = true → u.rd Fld.GLB_FW_STAT_READY = 0 ∧ u.rd Fld.GLB_FW_STAT_IMAGE = 1 ∧
        u.rd Fld.GLB_FW_STAT_RESTARTS = min (2 ^ Fld.GLB_FW_STAT_RESTARTS.w - 1) (s.rd Fld.GLB_FW_STAT_RESTARTS + 1)) := by
  refine ⟨_, exec_of_regWrite h.toServes (regWrite_fwCtrl v h) rfl, rfl, fun ho => ?_⟩
  rw [if_pos ho]
  have hr := mgmtReset_result 2 (s.setReg Off.GLB_FW_CTRL (Written s src Off.GLB_FW_CTRL row be v &&& 0x7FFFFFFF))
  rw [State.rd_setReg_ne _ _ _ Fld.GLB_FW_STAT_RESTARTS (by decide)] at hr
  exact hr

theorem glbRstPortWrite_completes (h : Reaches s src Off.GLB_RST_PORT row be) :
    ∃ u, exec (.glbRstPortWrite src be v) s = .next (quietStep u) ∧ u.lastStatus = stOk ∧
      ∀ n < 16, (Ones s src row be v).getLsbD n = true → s.portEnabled n = true →
        (src.val ≠ n → (u.port n).markedDown = false ∧ u.rd (Fld.PRT_PHY_STAT_DOWN n) = 0) ∧
        (src.val = n → ⟨.portReset, none, some (s.now + tNs 100)⟩ ∈ (u.port n).delayed) :=
  ⟨_, exec_of_regWrite h.toServes (regWrite_rstPort v h) rfl, rfl,
    fun n hn ho he => resetPorts_result src _ s n hn ((bitAt_toNat _ n).trans ho) he⟩

theorem glbRstPavWrite_completes (h : Reaches s src Off.GLB_RST_PAV row be) :
    ∃ u, exec (.glbRstPavWrite src be v) s = .next (quietStep u) ∧ u.lastStatus = stOk ∧
      ∀ p < 32, (Ones s src row be v).getLsbD p = true → (u.pav p).resetAsked = true :=
  ⟨_, exec_of_regWrite h.toServes (regWrite_rstPav v h) rfl, rfl,
    fun p hp ho => askPavResets_result _ s p hp ((bitAt_toNat _ p).trans ho)⟩

theorem cadCtrlWrite_completes (h : Reaches s src Off.CAD_CTRL row be) :
    let w := Written s src Off.CAD_CTRL row be v
    ∃ u, exec (.cadCtrlWrite src be v) s = .next (quietStep u) ∧ u.lastStatus = stOk ∧
      (bitsOf w.toNat 0 2 < 3 → u.rd Fld.CAD_CTRL_SRC = bitsOf w.toNat 0 2) ∧ u.rd Fld.CAD_CTRL_PORT = bitsOf w.toNat 4 4 :=
  ⟨_, exec_of_regWrite h.toServes (regWrite_cadCtrl v h) rfl, rfl, setSource_result _ _ (bitsOf_lt _ 0 2) (bitsOf_lt _ 4 4) s⟩

theorem hostThrWrite_completes (h : Reaches s src Off.THM_CTRL row be) :
    let w := Written s src Off.THM_CTRL row be v
    ∃ u, exec (.hostThrWrite src be v) s = .next (quietStep u) ∧ u.lastStatus = stOk ∧
      (bitsOf w.toNat 0 2 < 3 → u.rd Fld.THM_CTRL_HOST_THR = bitsOf w.toNat 0 2) ∧
      u.rd Fld.THM_CTRL_TD1_EN = b2n (w.getLsbD 3) ∧ u.rd Fld.THM_CTRL_TD2_EN = b2n (w.getLsbD 4) ∧
      u.rd Fld.THM_CTRL_THM_EN = b2n (w.getLsbD 5) := by
  intro w
  obtain ⟨hh, h1, h2, h3⟩ := setExternal_result (bitAt w.toNat 3) (bitAt w.toNat 4) (bitAt w.toNat 5) (setHostThr (bitsOf w.toNat 0 2) s)
  rw [← bitAt_toNat w 3, ← bitAt_toNat w 4, ← bitAt_toNat w 5]
  exact ⟨_, exec_of_regWrite h.toServes (regWrite_thmCtrl v h) rfl, rfl,
    fun hx => hh.trans (setHostThr_result _ (bitsOf_lt _ 0 2) s hx), h1, h2, h3⟩

theorem haltClearWrite_completes (h : Reaches s src Off.THM_HALT row be) :
    ∃ u, exec (.haltClearWrite src be v) s = .next (quietStep u) ∧ u.lastStatus = stOk ∧
      ((Ones s src row be v).getLsbD 31 = true → s.haltClearable = true → u.rd Fld.THM_STAT_HALT = 0 ∧ u.rd Fld.THM_STAT_TRIP = 0) ∧
      (s.haltClearable = false → u = { s with lastStatus := stOk }) := by
  have hw := regWrite_thmHalt v h
  cases hq : s.haltClearable with
  | true =>
    have ha : askHaltClear s = clearHalt s := if_pos hq
    rw [ha] at hw
    have hr : (Ones s src row be v).getLsbD 31 = true →
        (if (Ones s src row be v).getLsbD 31 then clearHalt s else s).rd Fld.THM_STAT_HALT = 0 ∧
        (if (Ones s src row be v).getLsbD 31 then clearHalt s else s).rd Fld.THM_STAT_TRIP = 0 := fun ho => by
      rw [if_pos ho]
      exact clearHalt_result s
    exact ⟨_, exec_of_regWrite h.toServes hw rfl, rfl, fun ho _ => hr ho, fun hc => Bool.noConfusion hc⟩
  | false =>
    have ha : askHaltClear s = s := if_neg (by rw [hq]; exact Bool.false_ne_true)
    rw [ha, ite_self] at hw
    exact ⟨_, exec_of_regWrite h.toServes hw rfl, rfl, fun _ hc => Bool.noConfusion hc, fun _ => rfl⟩

end

/-! ### TURN and RETRAIN -/

/-- A TURN slot on a link that is up is taken. -/
theorem turn_taken (n : PortId) (lo : BitVec 16) (late : BitVec 12) (age : Nat) (s : State) (hu : s.up n = true) :
    ∃ u, exec (.turn n lo late age) s = .next u ∧ s.now ≤ u.now ∧ u.pending = s.pending := by
  have he : exec (.turn n lo late age) s = .next (takeTurn n lo.toNat late.toNat age (touch n s)) := if_pos hu
  have hk := execTurn_keeps n lo late age (.refl s) _ he
  exact ⟨_, he, hk.now, hk.pending⟩

/-- A RETRAIN slot on a link that is up sends it to RECOVERY. -/
theorem retrain_taken (n : PortId) (widen : Bool) (s : State) (hu : s.up n = true) :
    ∃ u, exec (.retrain n widen) s = .next u ∧ u.link n = lsRecovery ∧ (u.port n).train.recov = true := by
  have ht : (touch n s).up n = true := hu
  have hr : (if widen then retryPositions n (touch n s) else touch n s).up n = true := by
    split
    · unfold State.up at ht ⊢
      rw [(retryPositions_laneKept (.refl _) n).link_eq, ht]
    · exact ht
  exact ⟨_, if_pos hu, enterRecovery_of_up n 4 widen _ hr⟩

/-- Settles O22: row by row, each register's effect and what it leaves. -/
theorem registerRowsComplete : Obligations.RegisterRowsComplete := by
  unfold Obligations.RegisterRowsComplete
  intro src be v s row field
  refine ⟨fun n hn => ⟨fun p => testStateWrite_completes n hn p, prbsClr_completes n hn, injectWrite_completes n hn,
      linkCtrl_completes n hn, fun h hr => roleWrite_completes n hn h hr, execDelayedChangeApply_shortens n s⟩,
    fun hs hk => ⟨fun h => ?_, fun h => ?_, fun e hp => ⟨spLoWrite_completes hs e hp, spHiWrite_completes hs e hp⟩,
      fun part m hm => ⟨maskLoWrite_completes hs hk part m hm, maskHiWrite_completes hs hk part m hm⟩⟩,
    fun hs h hl => stewardWrite_completes hs h hl, coreResetWrite_completes, fun h => ?_, glbRstPortWrite_completes,
    glbRstPavWrite_completes, cadCtrlWrite_completes, hostThrWrite_completes, haltClearWrite_completes,
    fun n hu => ⟨fun lo late age => turn_taken n lo late age s hu, fun widen => retrain_taken n widen s hu⟩⟩
  · exact ⟨_, exec_of_regWrite h.toServes (regWrite_poolWindow v h hk) rfl, rfl, State.reg_setReg_same _ _ _,
      State.regsKept_setReg _ _ _⟩
  · exact ⟨_, exec_of_regWrite h.toServes (regWrite_mapCtrl v h hk) rfl, rfl, State.reg_setReg_same _ _ _, State.regsKept_setReg _ _ _⟩
  · exact ⟨_, exec_of_regWrite h.toServes (regWrite_calCtrl v h) rfl, rfl, rd_setLearn _ s⟩

end Sys2Proof.Machine
end

section
/-! SUPPORT. The bulk engine (R349 to R351): what one issue sends to the promenade or skips, and the completion with its counts. -/
namespace Sys2Proof.Machine
open Sys2Proof

/-! ### A line issued or skipped -/

/-- A line of the bulk engine is one request more at the promenade, in TC0, and one more in flight (R351). -/
theorem bulkSend_result (l : Loc) (idx : Nat) (op : LineOp) (b : Bulk) (s : State) :
    ∃ r, (bulkSend l idx op b s).prom = (lockMap s).prom ++ [r] ∧ r.loc = l ∧ r.op = op ∧ r.tc = 0 ∧ r.owner = .bulk (!op.isRead) ∧
      r.idx = idx ∧ (bulkSend l idx op b s).bulk = some { b with flying := b.flying + 1 } :=
  ⟨_, rfl, rfl, rfl, rfl, rfl, rfl, rfl⟩

section
variable {b : Bulk} {s : State}

section
variable (hr : b.readBack = []) (he : b.ending = none) (hi : b.issued < b.lines)
include hr he hi

/-- The next line of FILL is sent as a write of the pattern, where its pavilion is not retired. -/
theorem bulkIssue_fill_sent (hf : b.copy = false) {l : Loc} (hl : s.locate (b.start + 64 * b.issued) = some l)
    (hp : s.retiredRunning l.pav = false) :
    bulkIssue b s = bulkSend l b.issued (.write (Vector.replicate 8 b.pattern) 0) { b with issued := b.issued + 1 } s := by
  have hn : b.ending.isNone ∧ b.issued < b.lines := ⟨by rw [he]; rfl, hi⟩
  simp only [bulkIssue, hr, if_pos hn, hl, hp, hf, Bool.false_and, Bool.or_false, Bool.false_eq_true, if_false]

/-- The next line is skipped where it is not mapped, or lies in a pavilion retired while running (R349). -/
theorem bulkIssue_line_skipped (h : s.locate (b.start + 64 * b.issued) = none ∨
      ∃ l, s.locate (b.start + 64 * b.issued) = some l ∧ s.retiredRunning l.pav = true) :
    bulkIssue b s =
      markLine b.issued false { s with bulk := some { b with issued := b.issued + 1, skipped := b.skipped + 1 } } := by
  have hn : b.ending.isNone ∧ b.issued < b.lines := ⟨by rw [he]; rfl, hi⟩
  rcases h with hl | ⟨l, hl, hp⟩
  · simp only [bulkIssue, hr, if_pos hn, hl]
  · simp only [bulkIssue, hr, if_pos hn, hl, hp, Bool.true_or, if_true]

end

section
variable {i : Nat} {d : Line} {mk : BitVec 8} {rest : List (Nat × Line × BitVec 8)} {l : Loc}
  (hr : b.readBack = (i, d, mk) :: rest) (hl : s.locate (b.dst + 64 * i) = some l)
include hr hl

/-- A line that COPY has read is sent on as a write of what was read, before a further line is read (R350). -/
theorem bulkIssue_readBack_sent (hp : s.retiredRunning l.pav = false) :
    bulkIssue b s = bulkSend l i (.write d mk) { b with readBack := rest, poisoned := b.poisoned + b2n (mk != 0) } s := by
  simp only [bulkIssue, hr, hl, hp, Bool.false_eq_true, if_false]

/-- A line that COPY has read is skipped where its destination lies in a pavilion retired while running. -/
theorem bulkIssue_readBack_skipped (hp : s.retiredRunning l.pav = true) :
    bulkIssue b s = { s with bulk := some { b with readBack := rest, skipped := b.skipped + 1 } } := by
  simp only [bulkIssue, hr, hl, hp, if_true]

end

/-! ### The completion -/

/-- BULK_COMPLETE acts once the engine's command is over (R349, R350). -/
theorem exec_bulkComplete (hb : s.bulk = some b) :
    exec .bulkComplete s = .next (if b.over then quietStep (bulkDone b s) else s) := by
  show execBulkComplete s = _
  unfold execBulkComplete
  rw [hb]
  exact (apply_ite Host.Outcome.next _ _ _).symm

/-- The end of a command's work leaves the bulk engine. -/
theorem State.finish_bulk (s : State) (m code : Nat) (pl : List Byte) : (s.finish m code pl).bulk = s.bulk := by
  unfold State.finish
  dsimp only
  split <;> rfl

/-- A running command that nothing has ended takes the code and the payload of its work as its result (R516, R517). -/
theorem State.finish_result {m : Nat} (code : Nat) (pl : List Byte) (hs : s.rd (Fld.MBX_STAT_STATE m) = mbRunning)
    (hr : (s.mbx m).result = none) (he : (s.mbx m).endCode = none) :
    ((s.finish m code pl).mbx m).result = some ⟨BitVec.ofNat 8 code, 0xFFFF, pl⟩ := by
  have hc : ((s.rd (Fld.MBX_STAT_STATE m) == mbRunning || s.rd (Fld.MBX_STAT_STATE m) == mbAborting) && (s.mbx m).result.isNone) =
      true := by rw [hs, hr]; rfl
  unfold State.finish
  dsimp only
  rw [if_pos hc, State.mbx_setMbx_same, he]

/-- The counts of a FILL or COPY that is over are the result of its command (R349, R350). -/
theorem bulkDone_result (hs : s.rd (Fld.MBX_STAT_STATE b.mbx) = mbRunning) (hr : (s.mbx b.mbx).result = none)
    (he : (s.mbx b.mbx).endCode = none) :
    ((bulkDone b s).mbx b.mbx).result = some ⟨0, 0xFFFF, leBytes 8 b.written ++ leBytes 8 b.skipped ++
      (if b.copy then leBytes 8 b.poisoned else [])⟩ := by
  unfold bulkDone
  exact State.finish_result ccOk _ hs hr he

end

/-- Settles O45: a line is sent or skipped as its place allows, and the command ends once over. -/
theorem bulkLinesMove : Obligations.BulkLinesMove := by
  unfold Obligations.BulkLinesMove
  intro b s hb
  refine ⟨?_, fun hr he hi hf => ⟨fun l hl hp => ?_, bulkIssue_line_skipped hr he hi⟩,
    fun i d mk rest l hr hl => ⟨fun hp => ?_, bulkIssue_readBack_skipped hr hl⟩,
    fun ho => ⟨?_, State.finish_bulk _ _ _ _, bulkDone_result⟩, fun ho => ?_⟩
  · show execBulkLineIssue s = _
    unfold execBulkLineIssue
    dsimp only
    cases (pumpAll s).bulk <;> rfl
  · rw [bulkIssue_fill_sent hr he hi hf hl hp]
    exact bulkSend_result _ _ _ _ s
  · rw [bulkIssue_readBack_sent hr hl hp]
    obtain ⟨r, hprom, hloc, hop, -, howner, -, hbulk⟩ := bulkSend_result l i (.write d mk)
      { b with readBack := rest, poisoned := b.poisoned + b2n (mk != 0) } s
    exact ⟨r, hprom, hloc, hop, howner, hbulk⟩
  · rw [exec_bulkComplete hb, if_pos ho]
  · rw [exec_bulkComplete hb, if_neg (by rw [ho]; exact Bool.false_ne_true)]

end Sys2Proof.Machine
end

section
/-! SUPPORT. The exact state that a write of a pool or map register leaves (R206, R209, R245): a low half staged, two halves committed or
refused together, and a locked register as it was. -/
namespace Sys2Proof.Machine
open Sys2Proof

/-! ### Two halves committed -/

/-- A signpost entry that is legal is committed whole: the staged half is used up, and both registers take their halves (R209). -/
theorem commitSignpost_legal {lo : Reg32} (e : Nat) (hi : Reg32) (s : State) (h : signpostLegal lo.toNat = true) :
    commitSignpost e lo.toNat hi.toNat s =
      some (((unstage (Off.GLB_SP_LO e) s).setReg (Off.GLB_SP_LO e) lo).setReg (Off.GLB_SP_HI e) hi) := by
  simp only [commitSignpost, if_pos h, BitVec.ofNat_toNat, BitVec.setWidth_eq]

/-- Whether the two halves make a legal mask of the map they belong to (R244, R245). -/
def halvesLegal (part : Bool) (m : Nat) (lo hi : Reg32) : Bool :=
  if part then maskPLegal m (lo.toNat + 2 ^ 32 * hi.toNat) else maskILegal m (lo.toNat + 2 ^ 32 * hi.toNat)

/-- A mask is committed as a signpost is, when it is legal, and else not at all (R245). -/
theorem commitMask_eq (part : Bool) (m : Nat) (lo hi : Reg32) (s : State) :
    commitMask part m lo.toNat hi.toNat s = if halvesLegal part m lo hi then
      some (((unstage (mapLo part m) s).setReg (mapLo part m) lo).setReg (mapHi part m) hi) else none := by
  have h : commitMask part m lo.toNat hi.toNat s = if halvesLegal part m lo hi then
      some (((unstage (mapLo part m) s).setReg (mapLo part m) (BitVec.ofNat 32 lo.toNat)).setReg (mapHi part m)
        (BitVec.ofNat 32 hi.toNat)) else none := rfl
  rw [h, BitVec.ofNat_toNat, BitVec.ofNat_toNat, BitVec.setWidth_eq, BitVec.setWidth_eq]

section
variable {src : Source} {be : BitVec 4} {v : Reg32} {s : State} {row : RegRow}

/-! ### Locked registers -/

theorem regWrite_mapCtrl_locked (h : Reaches s src Off.GLB_MAP_CTRL row be) (hl : s.on Fld.GLB_MAP_CTRL_LOCKED = true) :
    regWrite src Off.GLB_MAP_CTRL be v s = (stOk, s) := by
  rw [regWrite_glb_beside v h (by decide) (by decide)]
  simp [glbWrite, hl, Off.GLB_MAP_CTRL, Off.GLB_FW_CTRL, Off.GLB_STEWARD]

theorem regWrite_poolWindow_locked (h : Reaches s src Off.GLB_POOL_WINDOW row be) (hl : s.on Fld.GLB_MAP_CTRL_LOCKED = true) :
    regWrite src Off.GLB_POOL_WINDOW be v s = (stOk, s) := by
  rw [regWrite_glb_beside v h (by decide) (by decide)]
  simp [glbWrite, hl, Off.GLB_MAP_CTRL, Off.GLB_FW_CTRL, Off.GLB_STEWARD, Off.GLB_POOL_WINDOW]

theorem regWrite_steward_locked (h : Reaches s src Off.GLB_STEWARD row be) (hl : s.on Fld.GLB_STEWARD_LOCK = true) :
    regWrite src Off.GLB_STEWARD be v s = (stOk, s) := by
  rw [regWrite_glb_beside v h (by decide) (by decide)]
  simp [glbWrite, hl, Off.GLB_FW_CTRL, Off.GLB_STEWARD]

/-! ### Halves of a signpost -/

section
variable (hs : s.steward src = true)
include hs

section
variable (e : Fin 32) (hp : s.poolOn = true)
include hp

theorem exec_spLoWrite (h : Reaches s src (Off.GLB_SP_LO e) row be) :
    exec (.spLoWrite e src be v) s = .next (quietStep
      { stage (Off.GLB_SP_LO e) (fieldsWrite row.fields (s.stagedLo (Off.GLB_SP_LO e)) v (beBits be) true) s with
        lastStatus := stOk }) := by
  have he := e.isLt
  have ho : 0x900 ≤ Off.GLB_SP_LO e ∧ Off.GLB_SP_LO e < 0xA00 ∧ Off.GLB_SP_LO e % 8 = 0 := by
    simp only [Off.GLB_SP_LO]
    omega
  obtain ⟨h1, h2, h3⟩ := ho
  exact exec_of_regWrite h.toServes
    ((regWrite_glb h v (by omega) fun _ _ => hp).trans (glbWrite_lo v hs h3 row.fields (beBits be) (.inl ⟨h1, h2⟩))) rfl

theorem exec_spHiWrite (h : Reaches s src (Off.GLB_SP_HI e) row be) :
    let lo := s.stagedLo (Off.GLB_SP_LO e)
    let hi := Written s src (Off.GLB_SP_HI e) row be v
    (signpostLegal lo.toNat = true → exec (.spHiWrite e src be v) s = .next (quietStep
      { ((unstage (Off.GLB_SP_LO e) s).setReg (Off.GLB_SP_LO e) lo).setReg (Off.GLB_SP_HI e) hi with lastStatus := stOk })) ∧
    (signpostLegal lo.toNat = false →
      exec (.spHiWrite e src be v) s = .next (quietStep { s with lastStatus := stMalformed })) := by
  intro lo hi
  have he := e.isLt
  have hw := (regWrite_glb h v (by simp only [Off.GLB_SP_HI]; omega) fun _ _ => hp).trans
    (glbWrite_spHi v hs e row.fields (beBits be))
  rw [← hs] at hw
  obtain ⟨hsome, hnone⟩ := regWrite_elim hw
  exact ⟨fun hq => exec_of_regWrite h.toServes (hsome _ (commitSignpost_legal e hi s hq)) rfl,
    fun hq => exec_of_regWrite h.toServes (hnone ((commitSignpost_result e lo hi s).2 hq)) rfl⟩

end

/-! ### Halves of a mask -/

section
variable (hk : s.on Fld.GLB_MAP_CTRL_LOCKED = false) (part : Bool) (m : Fin 11) (hm : part = true → m.val < 6)
include hk hm

theorem exec_maskLoWrite (h : Reaches s src (mapLo part m) row be) :
    exec (.maskLoWrite part m src be v) s = .next (quietStep
      { stage (mapLo part m) (fieldsWrite row.fields (s.stagedLo (mapLo part m)) v (beBits be) true) s with lastStatus := stOk }) := by
  obtain ⟨h1, h2, h3, -, -⟩ := mapLo_bounds part m m.isLt hm
  exact exec_of_regWrite h.toServes
    ((regWrite_glb h v (by omega) (by omega)).trans (glbWrite_lo v hs h3 row.fields (beBits be) (.inr ⟨h1, by omega, hk⟩))) rfl

theorem exec_maskHiWrite (h : Reaches s src (mapHi part m) row be) :
    let lo := s.stagedLo (mapLo part m)
    let hi := Written s src (mapHi part m) row be v
    (halvesLegal part m lo hi = true → exec (.maskHiWrite part m src be v) s = .next (quietStep
      { ((unstage (mapLo part m) s).setReg (mapLo part m) lo).setReg (mapHi part m) hi with lastStatus := stOk })) ∧
    (halvesLegal part m lo hi = false →
      exec (.maskHiWrite part m src be v) s = .next (quietStep { s with lastStatus := stMalformed })) := by
  intro lo hi
  obtain ⟨h1, h2, -, -, -⟩ := mapLo_bounds part m m.isLt hm
  have he := mapHi_eq part m
  have hw := (regWrite_glb h v (by omega) (by omega)).trans (glbWrite_mapHi v hs hk part m m.isLt hm row.fields (beBits be))
  rw [← hs] at hw
  obtain ⟨hsome, hnone⟩ := regWrite_elim hw
  have hc := commitMask_eq part m lo hi s
  exact ⟨fun hq => exec_of_regWrite h.toServes (hsome _ (hc.trans (if_pos hq))) rfl,
    fun hq => exec_of_regWrite h.toServes (hnone (hc.trans (if_neg (by rw [hq]; exact Bool.false_ne_true)))) rfl⟩

end

/-! ### The steward register -/

theorem exec_stewardWrite (h : Reaches s src Off.GLB_STEWARD row be) (hl : s.on Fld.GLB_STEWARD_LOCK = false) :
    let new := Written s src Off.GLB_STEWARD row be v
    (∀ u, putSteward (bitsOf new.toNat 0 17) (new.getLsbD 31) s = some u →
      exec (.stewardWrite src be v) s = .next (quietStep { u with lastStatus := stOk })) ∧
    (putSteward (bitsOf new.toNat 0 17) (new.getLsbD 31) s = none →
      exec (.stewardWrite src be v) s = .next (quietStep { s with lastStatus := stMalformed })) := by
  intro new
  obtain ⟨hsome, hnone⟩ := regWrite_elim (regWrite_steward v h hs hl)
  exact ⟨fun u hu => exec_of_regWrite h.toServes (hsome u hu) rfl, fun hn => exec_of_regWrite h.toServes (hnone hn) rfl⟩

end

end

/-- Settles O21: each row is the access of its register, and what that access comes to is the register's own effect. -/
theorem poolAndMapRowsAct : Obligations.PoolAndMapRowsAct := by
  unfold Obligations.PoolAndMapRowsAct
  refine ⟨fun src be v s row hs => ⟨fun h hk => ?_, fun h hk => ?_, fun hk => ⟨fun h => ?_, fun h => ?_⟩,
      fun e hp h => exec_spLoWrite hs e hp h, fun e hp h => exec_spHiWrite hs e hp h,
      fun part m hk hm => ⟨exec_maskLoWrite hs hk part m hm, exec_maskHiWrite hs hk part m hm⟩⟩,
    fun src be v s row => ⟨fun hs h hl => exec_stewardWrite hs h hl, fun h hl => ?_, fun h => ?_, fun h => ?_, fun h => ?_,
      fun h => ?_, fun h => ?_, fun h => ?_, fun h => ?_⟩⟩
  · exact exec_of_regWrite h.toServes (regWrite_poolWindow v h hk) rfl
  · exact exec_of_regWrite h.toServes (regWrite_mapCtrl v h hk) rfl
  · exact exec_of_regWrite h.toServes (regWrite_poolWindow_locked h hk) rfl
  · exact exec_of_regWrite h.toServes (regWrite_mapCtrl_locked h hk) rfl
  · exact exec_of_regWrite h.toServes (regWrite_steward_locked h hl) rfl
  · exact exec_of_regWrite h.toServes (regWrite_fwCtrl v h) rfl
  · exact exec_of_regWrite h.toServes (regWrite_calCtrl v h) rfl
  · exact exec_of_regWrite h.toServes (regWrite_rstPort v h) rfl
  · exact exec_of_regWrite h.toServes (regWrite_rstPav v h) rfl
  · exact exec_of_regWrite h.toServes (regWrite_cadCtrl v h) rfl
  · exact exec_of_regWrite h.toServes (regWrite_thmCtrl v h) rfl
  · exact exec_of_regWrite h.toServes (regWrite_thmHalt v h) rfl

end Sys2Proof.Machine
end

section
/-! SUPPORT. The exact state that a write of a port's register leaves, the first change that is due, and a role taken (R71, R75, R138, R204). -/
namespace Sys2Proof.Machine
open Sys2Proof

/-- The first change of a port that is due, where the ones before it still wait. -/
theorem find_due {before rest : List Later} {d : Later} (hb : ∀ x ∈ before, x.due = none) (hd : d.due.isSome = true) :
    (before ++ d :: rest).find? (fun x => x.due.isSome) = some d := by
  have hn : before.find? (fun x => x.due.isSome) = none := List.find?_eq_none.mpr fun x hx => by simp [hb x hx]
  rw [List.find?_append, hn, Option.none_or]
  exact List.find?_cons_of_pos hd

/-- The first change that is due applies, no earlier than its time, and waits no more (R75, R138, R204). -/
theorem execDelayedChangeApply_first (n : PortId) {d : Later} {t : Nat} {before rest : List Later} {s : State}
    (hl : (s.port n).delayed = before ++ d :: rest) (hb : ∀ x ∈ before, x.due = none) (hd : d.due = some t) :
    execDelayedChangeApply n s =
      .next (applyDelayed n d.change ((s.atLeast t).modPort n (fun p => { p with delayed := before ++ rest }))) := by
  have hm : d ∉ before := fun h => by simp [hb d h] at hd
  have hf : (s.port n).delayed.find? (fun x => x.due.isSome) = some d := by
    rw [hl]
    exact find_due hb (by rw [hd]; rfl)
  have he : (s.port n).delayed.erase d = before ++ rest := by
    rw [hl, List.erase_append_right _ hm, List.erase_cons_head]
  simp only [execDelayedChangeApply, hf, hd, Option.getD_some, State.modPort, State.atLeast_port, he]

/-- A loop whose rounds change nothing where it begins ends there. -/
theorem forUpto_eq_self {n : Nat} {f : Nat → State → State} {s : State} (hf : ∀ i, i < n → f i s = s) : forUpto n f s = s :=
  forUpto_induction (P := fun a => a = s) n f s rfl fun i a hi ha => by rw [ha, hf i hi]

section
variable {n v : Nat} {s : State} (hv : s.role n ≠ v)
include hv

/-- Another role takes the link of an enabled port down (R204). -/
theorem applyRole_enabled (h : s.role n ≠ 2) (h' : v ≠ 2) :
    applyRole n v s = linkDown n 11 (s.wr (Fld.PRT_POOL_CTRL_ROLE n) v) := by
  unfold applyRole
  simp only [if_neg hv, if_neg h, if_neg h']

/-- A port made disabled parks its lanes (R71, R204). -/
theorem applyRole_disables (h : s.role n ≠ 2) (h' : v = 2) :
    applyRole n v s = (parkLanes n (linkDown n 11 (s.wr (Fld.PRT_POOL_CTRL_ROLE n) v))).setLink n lsDown := by
  unfold applyRole
  simp only [if_neg hv, if_neg h, if_pos h']

/-- A disabled port that takes a role, with no test state stored in its lanes (R73, R204). -/
theorem applyRole_enables (h : s.role n = 2)
    (ht : ∀ p, p < 8 → (linkDown n 11 (s.wr (Fld.PRT_POOL_CTRL_ROLE n) v)).rd (Fld.PRT_LANE_CTRL_TEST_STATE n p) = 0) :
    applyRole n v s = linkDown n 11 (s.wr (Fld.PRT_POOL_CTRL_ROLE n) v) := by
  unfold applyRole
  simp only [if_neg hv, if_pos h]
  exact forUpto_eq_self fun p hp => if_pos (ht p hp)

end

/-- A write that would give a port the peer role is refused where the variant has no pools (R204). -/
theorem regWrite_role_unsupported (n : PortId) {row : RegRow} {src : Nat} {be : BitVec 4} {v : Reg32} {s : State}
    (h : regAt (Off.PRT_POOL_CTRL n) = some row) (hb : be.getLsbD 0 = true) (hv : v.toNat % 4 = 1) (hp : s.poolOn = false) :
    regWrite src (Off.PRT_POOL_CTRL n) be v s = (stUnsupported, s) := by
  obtain ⟨h1, h2, -, hm⟩ := portOff (k := 0x500) (off := Off.PRT_POOL_CTRL n) n (by decide) (by simp only [Off.PRT_POOL_CTRL]; omega)
  generalize Off.PRT_POOL_CTRL n = off at h h1 h2 hm
  have hx : ¬ (0x20000 ≤ off ∧ off < 0x40000) := by omega
  have hz : be ≠ 0 := by
    rintro rfl
    simp at hb
  simp only [regWrite, h, if_neg hz, if_neg hx, decide_eq_true h1, decide_eq_true h2, hm, hb, hv, hp, beq_self_eq_true,
    Bool.and_self, Bool.not_false, if_true, ite_self]

/-- Settles O20: each row is the write of its register, a change that is due is the first of them, and a role goes by its three cases. -/
theorem portRegisterRowsAct : Obligations.PortRegisterRowsAct := by
  unfold Obligations.PortRegisterRowsAct
  refine ⟨fun n src be v s row hn => ⟨fun p h => ?_, fun h => ?_, fun h => ?_, fun h => ?_, fun h hr => ?_, fun hs h hb hv hp => ?_⟩,
    portChange_own, fun src n d s h => portChange_other h d s,
    fun n d t before rest s hl hb hd => execDelayedChangeApply_first n hl hb hd,
    fun n v s _ hv => ⟨applyRole_enabled hv, applyRole_disables hv, applyRole_enables hv⟩⟩
  · exact exec_of_regWrite h.toServes (regWrite_laneCtrl v n hn p h) rfl
  · exact exec_of_regWrite h.toServes (regWrite_prbsCtrl v n hn h) rfl
  · exact exec_of_regWrite h.toServes (regWrite_injCtrl v n hn h) rfl
  · have hw := regWrite_linkCtrl v n hn h
    exact ⟨exec_of_regWrite h.toServes hw rfl, exec_of_regWrite h.toServes hw rfl, exec_of_regWrite h.toServes hw rfl⟩
  · exact exec_of_regWrite h.toServes (regWrite_poolCtrl v n hn h hr) rfl
  · exact exec_of_regWrite hs (regWrite_role_unsupported n h hb hv hp) rfl

end Sys2Proof.Machine
end

section
/-! SUPPORT. Registers of events, monitors and ECC as they are written, and the reads that have an effect of their own (R80, R330, R375,
R380, R430, R455, R548, R555, R565, R566). -/
namespace Sys2Proof.Machine
open Sys2Proof

/-! ### Writes -/

/-- A register of the OTP, SB or EVT block takes what its fields make of a write: no limit holds it. -/
theorem State.settled_evt (s : State) {off : Nat} (h : 0x3000 ≤ off) (h' : off < 0x20000) (old new : Reg32) :
    s.settled off old new = new := by
  have h1 : off ≠ Off.GLB_BIST_CTRL := by simp only [Off.GLB_BIST_CTRL]; omega
  have h2 : off ≠ Off.GLB_PAD_CTRL := by simp only [Off.GLB_PAD_CTRL]; omega
  have h3 : off ≠ Off.CAD_CTRL := by simp only [Off.CAD_CTRL]; omega
  have h4 : off ≠ Off.THM_CTRL := by simp only [Off.THM_CTRL]; omega
  have h5 : off ≠ Off.THM_THERM_CFG := by simp only [Off.THM_THERM_CFG]; omega
  unfold State.settled
  dsimp only
  rw [if_neg (by omega), if_neg (by omega), if_neg h1, if_neg h2, if_neg h3, if_neg h4, if_neg h5, if_neg (by omega),
    if_neg (by omega), BitVec.ofNat_toNat, BitVec.setWidth_eq]

/-- A register that is one W1C field: the enabled bits written 1 are cleared (R11). -/
theorem fieldsWrite_w1c (old v m : Reg32) (steward : Bool) :
    fieldsWrite [⟨31, 0, .w1c, 0⟩] old v m steward = old &&& ~~~(v &&& m) := by
  have hb : (⟨31, 0, .w1c, 0⟩ : FieldRow).bits = BitVec.allOnes 32 := by decide
  simp only [fieldsWrite, List.foldl_cons, List.foldl_nil, fieldWrite, hb, BitVec.allOnes_and]

section
variable {s : State} {src : Nat} {row : RegRow} {be : BitVec 4} (v : Reg32)

theorem regWrite_evtRoute (h : Reaches s src Off.EVT_ROUTE row be) :
    regWrite src Off.EVT_ROUTE be v s = (stOk, setRoute (Written s src Off.EVT_ROUTE row be v).toNat s) := by
  rw [regWrite_rest h v (by decide) (by decide) (by decide)]
  rfl

theorem regWrite_evtSeen (i : Fin 32) (h : Reaches s src (Off.EVT_SEEN i) row be) (hf : row.fields = [⟨31, 0, .w1c, 0⟩]) :
    regWrite src (Off.EVT_SEEN i) be v s = (stOk, s.setReg (Off.EVT_SEEN i) (s.reg (Off.EVT_SEEN i) &&& ~~~(v &&& beBits be))) := by
  have hi := i.isLt
  have hlo : 0x10200 ≤ Off.EVT_SEEN i ∧ Off.EVT_SEEN i < 0x20000 := by simp only [Off.EVT_SEEN]; omega
  generalize Off.EVT_SEEN i = off at h hlo
  rw [regWrite_rest h v (by omega) (by omega) (by omega),
    restWrite_plain src off _ _ _ _ (by omega) hlo.2 (by simp only [Off.THM_CTRL]; omega) (by simp only [Off.THM_HALT]; omega)
      (by simp only [Off.EVT_ROUTE]; omega),
    State.settled_evt s (by omega) hlo.2, hf, fieldsWrite_w1c]

theorem regWrite_monCtrl (u : UnitId) (h : Reaches s src (Off.MON_CTRL u) row be) :
    regWrite src (Off.MON_CTRL u) be v s = (stOk,
      if (Ones s src row be v).getLsbD 31 then monDiscard u (s.setReg (Off.MON_CTRL u) (Written s src (Off.MON_CTRL u) row be v))
      else s.setReg (Off.MON_CTRL u) (Written s src (Off.MON_CTRL u) row be v)) := by
  have hu := u.isLt
  have hb : 0x41000 ≤ Off.MON_CTRL u ∧ Off.MON_CTRL u < 0x44000 ∧ Off.MON_CTRL u % 0x100 = 0 := by simp only [Off.MON_CTRL]; omega
  have hk : (Off.MON_CTRL u - 0x41000) / 0x100 = u := by simp only [Off.MON_CTRL]; omega
  rw [regWrite_rest h v (by omega) (by omega) (by omega)]
  unfold restWrite
  simp only [hk, Off.CAD_CTRL, Off.THM_CTRL, Off.THM_HALT, Off.EVT_ROUTE]
  iterate 5 rw [if_neg (by omega)]
  rw [if_pos hb]
  rfl

theorem regWrite_eccCtrl (p : PavId) (h : Reaches s src (Off.PAV_ECC_CTRL p) row be) :
    regWrite src (Off.PAV_ECC_CTRL p) be v s = (stOk,
      if (s.setReg (Off.PAV_ECC_CTRL p) (Written s src (Off.PAV_ECC_CTRL p) row be v)).on (Fld.PAV_ECC_CTRL_REPEAT_EN p) then
        s.setReg (Off.PAV_ECC_CTRL p) (Written s src (Off.PAV_ECC_CTRL p) row be v)
      else clearRepeats p (s.setReg (Off.PAV_ECC_CTRL p) (Written s src (Off.PAV_ECC_CTRL p) row be v))) := by
  have hb : 0xC0000 ≤ Off.PAV_ECC_CTRL p ∧ Off.PAV_ECC_CTRL p % 0x1000 = 0x200 := by simp only [Off.PAV_ECC_CTRL]; omega
  have hk : (Off.PAV_ECC_CTRL p - 0xC0000) / 0x1000 = p := by simp only [Off.PAV_ECC_CTRL]; omega
  rw [regWrite_rest h v (by omega) (by omega) (by omega)]
  unfold restWrite
  simp only [hk, Off.CAD_CTRL, Off.THM_CTRL, Off.THM_HALT, Off.EVT_ROUTE]
  iterate 7 rw [if_neg (by omega)]
  rw [if_pos hb]
  rfl

end

/-! ### Reads -/

/-- A read of a register with no field that a read clears, beside the signposts, the mailboxes and the adapting receivers' codes. -/
theorem regRead_noClear {off : Nat} {row : RegRow} (src : Nat) (s : State) (h : regAt off = some row) (hc : rcBits row.fields = 0)
    (ho : 0x1000 ≤ off) (hm : off < 0x20000 ∨ 0x40000 ≤ off) (hl : off < 0x80000 ∨ 0x90000 ≤ off ∨ off % 0x40 ≠ 0x0C) :
    regRead src off s = (s.look src off &&& shownBits row.fields, readEffects off s) := by
  have hu : ¬ (0x900 ≤ off ∧ off < 0xA00 ∧ s.poolOn = false) := by omega
  have hm : ¬ (0x20000 ≤ off ∧ off < 0x32000 ∧ off % 0x1000 < 0x400) := by omega
  have hl : ¬ (0x80000 ≤ off ∧ off < 0x90000 ∧ 0x100 ≤ off % 0x1000 ∧ off % 0x1000 < 0x300 ∧ off % 0x40 = 0x0C ∧
      s.laneRuns ((off - 0x80000) / 0x1000) ((off % 0x1000 - 0x100) / 0x40) = true) := by omega
  simp only [regRead, h, if_neg hu, if_neg hl, if_neg hm, if_pos hc, Bool.false_eq_true, if_false]

/-- The table's row of a read, from what the read comes to. -/
theorem exec_of_regRead {c : Instr} {src : Source} {off : Nat} {s t : State} {x : Reg32} (hs : Serves s)
    (hr : regRead src off s = (x, t)) (hc : readRow c = some (src, off)) :
    exec c s = .next (quietStep { t with lastRead := x, lastStatus := stOk }) := by
  rw [exec_of_readRow hc hs, hr]

/-! ### What a read shows, and its effect -/

theorem look_cadNowLo (src : Nat) (s : State) : s.look src Off.CAD_NOW_LO = BitVec.ofNat 32 s.stamp.toNat :=
  BitVec.eq_of_toNat_eq (by simp [State.look, Off.CAD_NOW_LO])

theorem readEffects_cadNowLo (s : State) : readEffects Off.CAD_NOW_LO s =
    { s with cad := { s.cad with nowHi := some (BitVec.ofNat 32 (s.stamp.toNat / 2 ^ 32)) } } := if_pos rfl

theorem look_thmPeak (src : Nat) (s : State) : s.look src Off.THM_PEAK = s.reg Off.THM_PEAK :=
  BitVec.eq_of_toNat_eq (by simp [State.look, Off.THM_PEAK])

theorem readEffects_thmPeak (s : State) : readEffects Off.THM_PEAK s =
    { s with therm := { s.therm with peakFreshD := true, peakFreshB := true } } := by
  unfold readEffects
  rw [if_neg (by decide), if_neg (by decide), if_pos rfl]

/-- The low half of a monitor's sum, or of its level's, shows as stored. -/
theorem look_monSum (src : Nat) (s : State) {off : Nat} (h : 0x41000 ≤ off) (h' : off < 0x44000) (hs : off % 0x100 ≠ 0x2C)
    (hl : off % 0x100 ≠ 0x38) : s.look src off = s.reg off := by
  unfold State.look
  dsimp only
  iterate 5 rw [if_neg (by omega)]
  rw [if_pos ⟨h, h'⟩, if_neg hs, if_neg hl, BitVec.ofNat_toNat, BitVec.setWidth_eq]

/-- A register of a port shows what `lookPrt` makes of it. -/
theorem look_prt (src : Nat) (s : State) {off : Nat} (h : 0x80000 ≤ off) (h' : off < 0x90000) :
    s.look src off = BitVec.ofNat 32 (s.lookPrt ((off - 0x80000) / 0x1000) (off % 0x1000) (s.reg off).toNat) := by
  unfold State.look
  dsimp only
  iterate 6 rw [if_neg (by omega)]
  rw [if_pos ⟨h, h'⟩]

/-- A register of a pavilion shows what `lookPav` makes of it. -/
theorem look_pav (src : Nat) (s : State) {off : Nat} (h : 0xC0000 ≤ off) (h' : off < 0xE0000) :
    s.look src off = BitVec.ofNat 32 (s.lookPav ((off - 0xC0000) / 0x1000) (off % 0x1000) (s.reg off).toNat) := by
  unfold State.look
  dsimp only
  iterate 7 rw [if_neg (by omega)]
  rw [if_pos ⟨h, h'⟩]

/-- A read of a monitor's register, by where it lies among the unit's. -/
theorem readEffects_mon (u : UnitId) {k off : Nat} (hk : k < 0x100) (ho : off = 0x41000 + 0x100 * u.val + k) (s : State) :
    readEffects off s =
      if k = 0x28 then s.modMon u (fun m => { m with sumHi := some (s.reg (Off.MON_SUM_HI u)) })
      else if k = 0x2C then s.modMon u (fun m => { m with sumHi := none })
      else if k = 0x34 then s.modMon u (fun m => { m with lvlHi := some (s.reg (Off.MON_LVL_SUM_HI u)) })
      else if k = 0x38 then s.modMon u (fun m => { m with lvlHi := none })
      else s := by
  have hu := u.isLt
  have h1 : off ≠ Off.CAD_NOW_LO := by simp only [Off.CAD_NOW_LO]; omega
  have h2 : off ≠ Off.CAD_NOW_HI := by simp only [Off.CAD_NOW_HI]; omega
  have h3 : off ≠ Off.THM_PEAK := by simp only [Off.THM_PEAK]; omega
  have h4 : 0x41000 ≤ off ∧ off < 0x44000 := by omega
  have hd : (off - 0x41000) / 0x100 = u := by omega
  have hm : off % 0x100 = k := by omega
  simp only [readEffects, if_neg h1, if_neg h2, if_neg h3, if_pos h4, hd, hm]

/-- A read of a pavilion's register, by where it lies among the pavilion's. -/
theorem readEffects_pav (p : PavId) {k off : Nat} (hk : k < 0x1000) (ho : off = 0xC0000 + 0x1000 * p.val + k) (s : State) :
    readEffects off s =
      if k = 0x23C then s.modPav p (fun v => { v with records := v.records.drop 1 })
      else if k = 0x314 then s.wr (Fld.PAV_BIST_FAIL_0_VALID p) 0
      else s := by
  have hp := p.isLt
  have h1 : off ≠ Off.CAD_NOW_LO := by simp only [Off.CAD_NOW_LO]; omega
  have h2 : off ≠ Off.CAD_NOW_HI := by simp only [Off.CAD_NOW_HI]; omega
  have h3 : off ≠ Off.THM_PEAK := by simp only [Off.THM_PEAK]; omega
  have h4 : ¬ (0x41000 ≤ off ∧ off < 0x44000) := by omega
  have h5 : ¬ (0x80000 ≤ off ∧ off < 0x90000 ∧ 0x100 ≤ k ∧ k < 0x300) := by omega
  have h6 : 0xC0000 ≤ off ∧ off < 0xE0000 := by omega
  have hd : (off - 0xC0000) / 0x1000 = p := by omega
  have hm : off % 0x1000 = k := by omega
  simp only [readEffects, if_neg h1, if_neg h2, if_neg h3, if_neg h4, if_neg h5, if_pos h6, hd, hm]

theorem look_bistFail1 (src : Nat) (p : PavId) (s : State) : s.look src (Off.PAV_BIST_FAIL_1 p) = s.reg (Off.PAV_BIST_FAIL_1 p) := by
  have hm : Off.PAV_BIST_FAIL_1 p % 0x1000 = 0x314 := by simp only [Off.PAV_BIST_FAIL_1]; omega
  rw [look_pav src s (by simp only [Off.PAV_BIST_FAIL_1]; omega) (by simp only [Off.PAV_BIST_FAIL_1]; omega), hm]
  simp only [State.lookPav, BitVec.ofNat_toNat, BitVec.setWidth_eq]

/-- Where the low half of a lane's PRBS bit count lies. -/
theorem prbsBitsLo_bounds (n : PortId) (p : Pos) :
    0x80000 ≤ Off.PRT_LANE_PRBS_BITS_LO n p ∧ Off.PRT_LANE_PRBS_BITS_LO n p < 0x90000 ∧
    (Off.PRT_LANE_PRBS_BITS_LO n p - 0x80000) / 0x1000 = n ∧ 0x100 ≤ Off.PRT_LANE_PRBS_BITS_LO n p % 0x1000 ∧
    Off.PRT_LANE_PRBS_BITS_LO n p % 0x1000 < 0x300 ∧ (Off.PRT_LANE_PRBS_BITS_LO n p % 0x1000 - 0x100) / 0x40 = p ∧
    Off.PRT_LANE_PRBS_BITS_LO n p % 0x40 = 0x14 ∧ Off.PRT_LANE_PRBS_BITS_LO n p % 0x1000 % 0x40 = 0x14 := by
  have hn := n.isLt
  have hp := p.isLt
  simp only [Off.PRT_LANE_PRBS_BITS_LO]
  omega

/-- It shows the bits compared by now (R80). -/
theorem look_prbsBitsLo (src : Nat) (n : PortId) (p : Pos) (s : State) :
    s.look src (Off.PRT_LANE_PRBS_BITS_LO n p) = BitVec.ofNat 32 ((s.prbsCount n p).toNat % 2 ^ 32) := by
  obtain ⟨h, h', hn, hk, hk', hp, -, hm⟩ := prbsBitsLo_bounds n p
  rw [look_prt src s h h', hn]
  generalize Off.PRT_LANE_PRBS_BITS_LO n p % 0x1000 = k at hk hk' hp hm
  unfold State.lookPrt
  dsimp only
  split
  · omega
  · omega
  · omega
  · rw [if_pos ⟨hk, hk'⟩, if_pos hm, hp]

theorem readEffects_prbsBitsLo (n : PortId) (p : Pos) (s : State) : readEffects (Off.PRT_LANE_PRBS_BITS_LO n p) s =
    s.modLane n p (fun l => { l with prbsHi := some (BitVec.ofNat 32 ((s.prbsCount n p).toNat / 2 ^ 32)) }) := by
  obtain ⟨h, h', hn, hk, hk', hp, hm, -⟩ := prbsBitsLo_bounds n p
  generalize Off.PRT_LANE_PRBS_BITS_LO n p = off at *
  have h1 : off ≠ Off.CAD_NOW_LO := by simp only [Off.CAD_NOW_LO]; omega
  have h2 : off ≠ Off.CAD_NOW_HI := by simp only [Off.CAD_NOW_HI]; omega
  have h3 : off ≠ Off.THM_PEAK := by simp only [Off.THM_PEAK]; omega
  have h4 : ¬ (0x41000 ≤ off ∧ off < 0x44000) := by omega
  have h5 : 0x80000 ≤ off ∧ off < 0x90000 ∧ 0x100 ≤ off % 0x1000 ∧ off % 0x1000 < 0x300 := ⟨h, h', hk, hk'⟩
  simp only [readEffects, if_neg h1, if_neg h2, if_neg h3, if_neg h4, if_pos h5, hn, hp, hm, if_true]

/-! ### The rows that read -/

/-- The stack goes on to serve when a register above the GLB block is written. -/
theorem serves_wr {s : State} (h : Serves s) (f : Fld) (v : Nat) (hf : 0x1000 ≤ f.off) : Serves (s.wr f v) := by
  obtain ⟨hv, hl, hh⟩ := h
  have hp : (s.wr f v).power? = s.power? := State.rd_wr_ne _ _ _ _ (by simp only [Fld.GLB_PWR_STAT_STATE]; omega)
  refine ⟨?_, hl, hh⟩
  rw [← hv]
  simp only [State.served, State.mgmtOn, hp, State.wr_power]

section
variable {src : Source} {s : State} {row : RegRow} (hs : Serves s)
include hs

/-- CAD_NOW_LO shows the low half of the time stamp, and takes the high one (R330). -/
theorem exec_cadNowLoRead (h : regAt Off.CAD_NOW_LO = some row) (hc : rcBits row.fields = 0) :
    exec (.cadNowLoRead src) s = .next (quietStep { s with
      cad := { s.cad with nowHi := some (BitVec.ofNat 32 (s.stamp.toNat / 2 ^ 32)) }
      lastRead := BitVec.ofNat 32 s.stamp.toNat &&& shownBits row.fields
      lastStatus := stOk }) := by
  have hr := regRead_noClear src s h hc (by decide) (by decide) (by decide)
  rw [look_cadNowLo, readEffects_cadNowLo] at hr
  exact (exec_of_regRead (c := .cadNowLoRead src) hs hr rfl).trans rfl

/-- THM_PEAK shows the peaks, and both start anew (R455). -/
theorem exec_thmPeakRead (h : regAt Off.THM_PEAK = some row) (hc : rcBits row.fields = 0xFFFFFFFF) :
    exec (.thmPeakRead src) s = .next (quietStep { s.setReg Off.THM_PEAK 0 with
      therm := { s.therm with peakFreshD := true, peakFreshB := true }
      lastRead := s.reg Off.THM_PEAK &&& shownBits row.fields
      lastStatus := stOk }) := by
  have hz : s.reg Off.THM_PEAK &&& ~~~ rcBits row.fields = 0 := by
    rw [hc, show ~~~(0xFFFFFFFF : Reg32) = 0#32 by decide]
    exact BitVec.and_zero
  have hr := regRead_clears src s h (by rw [hc]; decide) (.inr (by decide))
  rw [look_thmPeak, hz, readEffects_thmPeak] at hr
  exact (exec_of_regRead (c := .thmPeakRead src) hs hr rfl).trans rfl

/-- The low half of a monitor's sum comes with its high half (R565). -/
theorem exec_monSumLoRead (u : UnitId) (lvl : Bool)
    (h : regAt (if lvl then Off.MON_LVL_SUM_LO u else Off.MON_SUM_LO u) = some row) (hc : rcBits row.fields = 0) :
    exec (.monSumLoRead src u lvl) s = .next (quietStep {
      (if lvl then s.modMon u (fun m => { m with lvlHi := some (s.reg (Off.MON_LVL_SUM_HI u)) })
        else s.modMon u (fun m => { m with sumHi := some (s.reg (Off.MON_SUM_HI u)) })) with
      lastRead := s.reg (if lvl then Off.MON_LVL_SUM_LO u else Off.MON_SUM_LO u) &&& shownBits row.fields
      lastStatus := stOk }) := by
  have hu := u.isLt
  refine exec_of_regRead hs ?_ rfl
  cases lvl with
  | false =>
    have ho : Off.MON_SUM_LO u = 0x41000 + 0x100 * u.val + 0x28 := by simp only [Off.MON_SUM_LO]; omega
    have he := readEffects_mon u (by decide) ho s
    simp only [Bool.false_eq_true, if_false] at h ⊢
    rw [regRead_noClear src s h hc (by omega) (by omega) (by omega), look_monSum src s (by omega) (by omega) (by omega) (by omega), he]
    rfl
  | true =>
    have ho : Off.MON_LVL_SUM_LO u = 0x41000 + 0x100 * u.val + 0x34 := by simp only [Off.MON_LVL_SUM_LO]; omega
    have he := readEffects_mon u (by decide) ho s
    simp only [if_true] at h ⊢
    rw [regRead_noClear src s h hc (by omega) (by omega) (by omega), look_monSum src s (by omega) (by omega) (by omega) (by omega), he]
    rfl

/-- PAV_BIST_FAIL_1 shows the failure's second word, and the failure is no longer valid (R430). -/
theorem exec_bistFail1Read (p : PavId) (h : regAt (Off.PAV_BIST_FAIL_1 p) = some row) (hc : rcBits row.fields = 0) :
    exec (.bistFail1Read src p) s = .next (quietStep { s.wr (Fld.PAV_BIST_FAIL_0_VALID p) 0 with
      lastRead := s.reg (Off.PAV_BIST_FAIL_1 p) &&& shownBits row.fields
      lastStatus := stOk }) := by
  have ho : Off.PAV_BIST_FAIL_1 p = 0xC0000 + 0x1000 * p.val + 0x314 := by simp only [Off.PAV_BIST_FAIL_1]; omega
  have hr := regRead_noClear src s h hc (by omega) (by omega) (by omega)
  rw [look_bistFail1, readEffects_pav p (by decide) ho] at hr
  exact exec_of_regRead hs hr rfl

/-- PAV_ECC_LOG_3 shows the last word of the oldest record, which goes with it (R375). -/
theorem exec_eccLog3Read (p : PavId) (h : regAt (Off.PAV_ECC_LOG_3 p) = some row) (hc : rcBits row.fields = 0) :
    exec (.eccLog3Read src p) s = .next (quietStep { s.modPav p (fun v => { v with records := v.records.drop 1 }) with
      lastRead := s.look src (Off.PAV_ECC_LOG_3 p) &&& shownBits row.fields
      lastStatus := stOk }) := by
  have ho : Off.PAV_ECC_LOG_3 p = 0xC0000 + 0x1000 * p.val + 0x23C := by simp only [Off.PAV_ECC_LOG_3]; omega
  have hr := regRead_noClear src s h hc (by omega) (by omega) (by omega)
  rw [readEffects_pav p (by decide) ho] at hr
  exact exec_of_regRead hs hr rfl

/-- The errors met since the last access are counted before the read, which takes the high half of the bits compared (R80). -/
theorem exec_prbsBitsLoRead (n : PortId) (p : Pos) (bits errs : Nat) (h : regAt (Off.PRT_LANE_PRBS_BITS_LO n p) = some row)
    (hc : rcBits row.fields = 0) (hr : s.checkerRuns n p = true) (hl : s.on (Fld.PRT_LANE_STAT_PRBS_LOCK n p) = true) :
    let t := s.sat (Fld.PRT_LANE_PRBS_ERR_COUNT n p) (min errs bits)
    exec (.prbsBitsLoRead n p src bits errs) s = .next (quietStep
      { t.modLane n p (fun l => { l with prbsHi := some (BitVec.ofNat 32 ((t.prbsCount n p).toNat / 2 ^ 32)) }) with
        lastRead := BitVec.ofNat 32 ((t.prbsCount n p).toNat % 2 ^ 32) &&& shownBits row.fields
        lastStatus := stOk }) := by
  intro t
  have hcount : countPrbs n p (min errs bits) s = t := if_pos (by rw [hr, hl]; rfl)
  have hx : exec (.prbsBitsLoRead n p src bits errs) s =
      cfgRead src (Off.PRT_LANE_PRBS_BITS_LO n p) (countPrbs n p (min errs bits) s) := rfl
  have ht : Serves t := serves_wr hs _ _ (by simp only [Fld.PRT_LANE_PRBS_ERR_COUNT]; omega)
  obtain ⟨h1, h2, -, -, -, -, hm, -⟩ := prbsBitsLo_bounds n p
  rw [hx, hcount, cfgRead_of_serves ht, regRead_noClear src t h hc (by omega) (by omega) (by omega), look_prbsBitsLo,
    readEffects_prbsBitsLo]

end

/-- Settles O23: each row is the access of its register, and what that access comes to is the register's own effect. -/
theorem eventRegisterRowsAct : Obligations.EventRegisterRowsAct := by
  unfold Obligations.EventRegisterRowsAct
  refine ⟨fun src be v s row => ⟨fun h => ?_, fun i h hf => ?_, fun u h => ?_, fun p h => ?_⟩,
    fun src s hs => ⟨fun row h hc => exec_cadNowLoRead hs h hc, fun row h hc => exec_thmPeakRead hs h hc,
      fun u lvl row h hc => exec_monSumLoRead hs u lvl h hc, fun p row h hc => exec_bistFail1Read hs p h hc,
      fun p row h hc => exec_eccLog3Read hs p h hc,
      fun n p bits errs row h hc _ hr hl => exec_prbsBitsLoRead hs n p bits errs h hc hr hl⟩⟩
  · exact exec_of_regWrite h.toServes (regWrite_evtRoute v h) rfl
  · exact exec_of_regWrite h.toServes (regWrite_evtSeen v i h hf) rfl
  · exact exec_of_regWrite h.toServes (regWrite_monCtrl v u h) rfl
  · exact exec_of_regWrite h.toServes (regWrite_eccCtrl v p h) rfl

end Sys2Proof.Machine
end

section
/-! SUPPORT. What two states have in common, one update at a time: the registers and ports kept, and the state but for some of its parts. -/
namespace Sys2Proof.Machine
open Sys2Proof

section
variable {x s t : State} {offs : List Nat}

theorem RegsKept.refl (s : State) (offs : List Nat) : RegsKept s s offs := fun _ _ => rfl

theorem RegsKept.trans (h : RegsKept x s offs) (k : RegsKept s t offs) : RegsKept x t offs :=
  fun off ho => (k off ho).trans (h off ho)

theorem RegsKept.of_regs (h : RegsKept x s offs) (hr : t.regs = s.regs) : RegsKept x t offs :=
  fun off ho => (State.reg_of_regs hr off).trans (h off ho)

theorem RegsKept.setReg (h : RegsKept x s offs) {off : Nat} (ho : off ∈ offs) (v : Reg32) : RegsKept x (s.setReg off v) offs :=
  fun a ha => (State.reg_setReg_ne s off v (by rintro rfl; exact ha ho)).trans (h a ha)

theorem RegsKept.wr (h : RegsKept x s offs) {f : Fld} (ho : f.off ∈ offs) (v : Nat) : RegsKept x (s.wr f v) offs := h.setReg ho _

theorem RegsKept.rd (h : RegsKept x s offs) {f : Fld} (ho : f.off ∉ offs) : s.rd f = x.rd f := State.rd_of_reg (h _ ho)

theorem PortsKept.refl (s : State) (n : Nat) : PortsKept s s n := fun _ _ => rfl

theorem PortsKept.of_ports {n : Nat} (h : PortsKept x s n) (hp : t.ports = s.ports) : PortsKept x t n :=
  fun i hi => by simpa only [State.port, hp] using h i hi

theorem PortsKept.modPort {n : Nat} (h : PortsKept x s n) (f : Port → Port) : PortsKept x (s.modPort n f) n :=
  fun i hi => (State.port_modPort_ne s n f hi).trans (h i hi)

end

/-- A raising changes nothing but what is on its way to the event logic. -/
theorem State.raise_eq (s : State) (ev d : Nat) : s.raise ev d = { s with crossing := (s.raise ev d).crossing } := by
  unfold State.raise
  split <;> rfl

/-- The bits that go by in a time are those of the port's rate. -/
theorem State.bitsIn_congr {s t : State} {n : Nat} (h : t.reg (Off.PRT_PHY_STAT n) = s.reg (Off.PRT_PHY_STAT n)) (d : Nat) :
    t.bitsIn n d = s.bitsIn n d := by
  simp only [State.bitsIn, State.rd_of_reg (f := Fld.PRT_PHY_STAT_RATE n) h]

end Sys2Proof.Machine
end

section
/-! SUPPORT. Lane faults, grades, checkers and the periodic injector (R64, R79 to R84, R96): what each counts, shows and reports. -/
namespace Sys2Proof.Machine
open Sys2Proof

section
variable (n : PortId) (p : Pos) (s : State)

/-! ### FIFO slips and losses of CDR lock -/

theorem fifoSlip_counted (h : s.laneRuns n p = true) : ∃ t, exec (.fifoSlip n p) s = .next t ∧
    t.rd (Fld.PRT_LANE_FAULTS_FIFO_SLIP n p) = min (2 ^ (Fld.PRT_LANE_FAULTS_FIFO_SLIP n p).w - 1)
      (s.rd (Fld.PRT_LANE_FAULTS_FIFO_SLIP n p) + 1) ∧ (t.lane n p).fifo = 8 ∧ (t.lane n p).slipped = true ∧
    Raised t (evPort n 3) ∧ RegsKept s t [Off.PRT_LANE_FAULTS n p] ∧
    t = { s with regs := t.regs, crossing := t.crossing, lanes := t.lanes } := by
  refine ⟨_, if_pos h, ?_, ?_, ?_, State.raise_sets_out _ _ _, ?_, ?_⟩
  · rw [State.raise_rd, State.rd_sat_same _ _ _ (by simp [Fld.PRT_LANE_FAULTS_FIFO_SLIP])]
    rfl
  · rw [State.raise_lane, State.sat_lane, State.lane_modLane_same]
  · rw [State.raise_lane, State.sat_lane, State.lane_modLane_same]
  · exact ((RegsKept.refl s _).wr (s := s.modLane n p _) (List.mem_singleton_self _) _).of_regs (State.raise_regs _ _ _)
  · rw [State.raise_regs, State.raise_lanes]
    exact State.raise_eq _ _ _

/-- A loss of lock in active that is not the fourth within the last millisecond (R81, R84). -/
theorem execCdrLockLost_active (ha : s.rd (Fld.PRT_LANE_STAT_STATE n p) = laActive)
    (hf : ((s.lane n p).cdrLosses.filter (fun t => decide (s.now < t + tMs))).length < 3) :
    execCdrLockLost n p s = .next
      ((((s.sat (Fld.PRT_LANE_FAULTS_CDR_LOSS n p)).wr (Fld.PRT_LANE_STAT_CDR_LOCK n p) 0).raise (evPort n 2) (2 ^ p.val)).modLane n p
        (fun l => { l with cdrLosses := (s.lane n p).cdrLosses.filter (fun t => decide (s.now < t + tMs)) ++ [s.now] })) := by
  have hr : s.laneRuns n p = true := by
    rw [State.laneRuns, ha]
    rfl
  have h4 : ∀ b : Bool, ¬ (4 ≤ ((s.lane n p).cdrLosses.filter (fun t => decide (s.now < t + tMs)) ++ [s.now]).length ∧ b = true) :=
    fun b hb => by
      have := hb.1
      rw [List.length_append, List.length_singleton] at this
      omega
  unfold execCdrLockLost
  simp only [hr, ha, if_true, true_or, State.raise_lane, State.wr_lane, State.sat_lane, State.raise_now, State.wr_now, State.sat_now,
    if_neg (h4 _)]

theorem cdrLoss_counted (ha : s.rd (Fld.PRT_LANE_STAT_STATE n p) = laActive)
    (hf : ((s.lane n p).cdrLosses.filter (fun t => decide (s.now < t + tMs))).length < 3) :
    ∃ t, exec (.cdrLockLost n p) s = .next t ∧
      t.rd (Fld.PRT_LANE_FAULTS_CDR_LOSS n p) = min (2 ^ (Fld.PRT_LANE_FAULTS_CDR_LOSS n p).w - 1)
        (s.rd (Fld.PRT_LANE_FAULTS_CDR_LOSS n p) + 1) ∧
      t.rd (Fld.PRT_LANE_STAT_CDR_LOCK n p) = 0 ∧ Raised t (evPort n 2) ∧
      t.rd (Fld.PRT_LANE_STAT_HEALTH n p) = s.rd (Fld.PRT_LANE_STAT_HEALTH n p) ∧ t.link n = s.link n ∧
      RegsKept s t [Off.PRT_LANE_FAULTS n p, Off.PRT_LANE_STAT n p] ∧
      t = { s with regs := t.regs, crossing := t.crossing, lanes := t.lanes } := by
  have hk : RegsKept s ((s.sat (Fld.PRT_LANE_FAULTS_CDR_LOSS n p)).wr (Fld.PRT_LANE_STAT_CDR_LOCK n p) 0)
      [Off.PRT_LANE_FAULTS n p, Off.PRT_LANE_STAT n p] :=
    ((RegsKept.refl s _).wr List.mem_cons_self _).wr (List.mem_cons_of_mem _ List.mem_cons_self) _
  refine ⟨_, execCdrLockLost_active n p s ha hf, ?_, ?_, State.raise_sets_out _ _ _, ?_, ?_, hk.of_regs (State.raise_regs _ _ _), ?_⟩
  · rw [State.modLane_rd, State.raise_rd, State.rd_wr_ne _ _ _ _ (by simp [Fld.PRT_LANE_FAULTS_CDR_LOSS, Fld.PRT_LANE_STAT_CDR_LOCK]),
      State.rd_sat_same _ _ _ (by simp [Fld.PRT_LANE_FAULTS_CDR_LOSS])]
  · rw [State.modLane_rd, State.raise_rd, State.rd_wr_same _ _ _ (by simp [Fld.PRT_LANE_STAT_CDR_LOCK]), Nat.zero_mod]
  · rw [State.modLane_rd, State.raise_rd, State.rd_wr_disj _ _ _ _ (by simp [Fld.PRT_LANE_STAT_CDR_LOCK])
      (by simp [Fld.PRT_LANE_STAT_CDR_LOCK, Fld.PRT_LANE_STAT_HEALTH]),
      State.rd_sat_ne _ _ _ _ (by simp [Fld.PRT_LANE_FAULTS_CDR_LOSS, Fld.PRT_LANE_STAT_HEALTH])]
  · have hp := p.isLt
    refine (State.raise_rd _ _ _ _).trans (hk.rd ?_)
    simp [Fld.PRT_LINK_STAT_STATE, Off.PRT_LANE_FAULTS, Off.PRT_LANE_STAT]
    omega
  · rw [State.raise_eq]
    rfl

/-! ### Grades -/

theorem gradeOf_kept {d : Nat} (h : d ≤ 4095) : gradeOf d = if d ≤ 16 then 0 else 1 := by simp only [gradeOf, if_pos h]

theorem gradeOf_failing {d : Nat} (h : 4095 < d) : gradeOf d = 2 := by
  rw [gradeOf, if_neg (by omega), if_neg (by omega)]

/-- A grade that is not failing shows, and nothing more (R81). -/
theorem setGrade_kept {g : Nat} (h : g ≠ 2) : setGrade n p g s = s.wr (Fld.PRT_LANE_STAT_HEALTH n p) g := if_neg fun hg => h hg.1

/-- A change to failing makes the lane unusable, is reported, and starts recovery (R48, R81, R121). -/
theorem setGrade_failing (h : s.rd (Fld.PRT_LANE_STAT_HEALTH n p) ≠ 2) :
    setGrade n p 2 s = enterRecovery n 3 false (((s.wr (Fld.PRT_LANE_STAT_HEALTH n p) 2).wr (Fld.PRT_LANE_STAT_USABLE n p) 0).raise
      (evPort n 1) (2 ^ p.val)) := if_pos ⟨rfl, h⟩

section
variable {n p s} {d w : Nat}
  (hs : s.rd (Fld.PRT_LANE_STAT_STATE n p) = laActive ∨ s.rd (Fld.PRT_LANE_STAT_STATE n p) = laTraining)
  (hc : (s.lane n p).scan = none) (hw : s.windowEnd n p = some w)
include hs hc hw

/-- A window that ends is graded by its count, and the next begins (R81, R96). -/
theorem execGradingWindowEnd_of_window : execGradingWindowEnd n p d s = .next (setGrade n p (gradeOf d)
    (freshWindow n p ((s.atLeast w).wr (Fld.PRT_LANE_MARGIN_ERR_COUNT n p) (min d 0xFFFFFFFF)))) := by
  unfold execGradingWindowEnd
  simp only [hw]
  exact if_pos ⟨hs, by rw [hc]; rfl⟩

theorem gradingWindow_kept (hd : d ≤ 4095) : ∃ t, exec (.gradingWindowEnd n p d) s = .next t ∧ t.now = max s.now w ∧
    t.rd (Fld.PRT_LANE_MARGIN_ERR_COUNT n p) = d ∧ t.rd (Fld.PRT_LANE_STAT_HEALTH n p) = (if d ≤ 16 then 0 else 1) ∧
    (t.lane n p).winFrom = some t.now ∧ RegsKept s t [Off.PRT_LANE_MARGIN_ERR n p, Off.PRT_LANE_STAT n p] ∧
    t = { s with regs := t.regs, lanes := t.lanes, now := t.now } := by
  have hg : gradeOf d ≠ 2 := by
    rw [gradeOf_kept hd]
    split <;> decide
  refine ⟨_, (execGradingWindowEnd_of_window hs hc hw).trans (by rw [setGrade_kept n p _ hg]), rfl, ?_, ?_, ?_, ?_, rfl⟩
  · rw [State.rd_wr_ne _ _ _ _ (by simp [Fld.PRT_LANE_MARGIN_ERR_COUNT, Fld.PRT_LANE_STAT_HEALTH])]
    refine (State.rd_wr_same _ _ _ (by simp [Fld.PRT_LANE_MARGIN_ERR_COUNT])).trans ?_
    simp only [Fld.PRT_LANE_MARGIN_ERR_COUNT]
    omega
  · rw [State.rd_wr_same _ _ _ (by simp [Fld.PRT_LANE_STAT_HEALTH]), gradeOf_kept hd]
    split <;> rfl
  · rw [State.wr_lane, freshWindow, State.lane_modLane_same]
    rfl
  · have h1 : RegsKept s ((s.atLeast w).wr (Fld.PRT_LANE_MARGIN_ERR_COUNT n p) (min d 0xFFFFFFFF))
        [Off.PRT_LANE_MARGIN_ERR n p, Off.PRT_LANE_STAT n p] := (RegsKept.refl s _).wr (s := s.atLeast w) List.mem_cons_self _
    exact (h1.of_regs rfl).wr (f := Fld.PRT_LANE_STAT_HEALTH n p) (List.mem_cons_of_mem _ List.mem_cons_self) _

theorem gradingWindow_failing (hd : 4095 < d) (hd' : d < 2 ^ 32) (hh : s.rd (Fld.PRT_LANE_STAT_HEALTH n p) ≠ 2) :
    exec (.gradingWindowEnd n p d) s = .next (enterRecovery n 3 false ((((freshWindow n p
      ((s.atLeast w).wr (Fld.PRT_LANE_MARGIN_ERR_COUNT n p) d)).wr (Fld.PRT_LANE_STAT_HEALTH n p) 2).wr
      (Fld.PRT_LANE_STAT_USABLE n p) 0).raise (evPort n 1) (2 ^ p.val))) := by
  refine (execGradingWindowEnd_of_window hs hc hw).trans ?_
  rw [gradeOf_failing hd, Nat.min_eq_left (by omega), setGrade_failing]
  rw [freshWindow, State.modLane_rd, State.rd_wr_ne _ _ _ _ (by simp [Fld.PRT_LANE_MARGIN_ERR_COUNT, Fld.PRT_LANE_STAT_HEALTH])]
  exact hh

end

/-! ### Checkers -/

theorem prbsChecker_locks (rx : List Bool) :
    let poly := s.rd (Fld.PRT_PRBS_CTRL_POLY n)
    let bits := rx.map (fun b => b ^^ s.prbsInv n p)
    let c := prbsCompare poly (prbsLoad poly bits) ((bits.drop (prbsDegree poly)).take 64)
    s.checkerRuns n p = true → s.rd (Fld.PRT_LANE_STAT_PRBS_LOCK n p) = 0 → prbsDegree poly + 64 ≤ rx.length → c.1 = 0 →
    ∃ t, exec (.prbsCheckerLock n ⟨p, rx⟩) s = .next t ∧ t.rd (Fld.PRT_LANE_STAT_PRBS_LOCK n p) = 1 ∧
      (t.lane n p).chkReg = c.2 ∧ (t.lane n p).prbsFrom = some s.now ∧ RegsKept s t [Off.PRT_LANE_STAT n p] ∧
      t = { s with regs := t.regs, lanes := t.lanes } := by
  intro poly bits c hr hl hd hc
  refine ⟨_, if_pos ⟨hr, hl, hd, hc⟩, ?_, ?_, ?_, ?_, rfl⟩
  · rw [State.rd_wr_disj _ _ _ _ (by simp [Fld.PRT_LANE_STAT_CDR_LOCK]) (by simp [Fld.PRT_LANE_STAT_CDR_LOCK, Fld.PRT_LANE_STAT_PRBS_LOCK]),
      State.rd_wr_same _ _ _ (by simp [Fld.PRT_LANE_STAT_PRBS_LOCK])]
    rfl
  · rw [State.wr_lane, State.wr_lane, State.lane_modLane_same]
  · rw [State.wr_lane, State.wr_lane, State.lane_modLane_same]
  · exact (((RegsKept.refl s _).of_regs (State.modLane_regs s n p _)).wr (f := Fld.PRT_LANE_STAT_PRBS_LOCK n p)
      (List.mem_singleton_self _) _).wr (f := Fld.PRT_LANE_STAT_CDR_LOCK n p) (List.mem_singleton_self _) _

/-- A checker that has met more than 512 errors in 1,024 bits at most: the bits pass, the errors count, the lock is lost (R79). -/
theorem execPrbsRelock_unlocks {bits errs from_ : Nat} (hr : s.checkerRuns n p = true)
    (hl : s.on (Fld.PRT_LANE_STAT_PRBS_LOCK n p) = true) (hb : bits ≤ 1024) (he : 512 < errs) (he' : errs ≤ bits)
    (hf : (s.lane n p).prbsFrom = some from_) :
    execPrbsRelock n p bits errs s = .next (((prbsUnlock n p ((s.atLeast (from_ + s.bitTicks n bits)).sat
      (Fld.PRT_LANE_PRBS_ERR_COUNT n p) errs)).sat (Fld.PRT_LANE_FAULTS_PRBS_RELOCK n p)).raise (evPort n 4) (2 ^ p.val)) := by
  have hc : countPrbs n p errs (s.atLeast (from_ + s.bitTicks n bits)) =
      (s.atLeast (from_ + s.bitTicks n bits)).sat (Fld.PRT_LANE_PRBS_ERR_COUNT n p) errs :=
    if_pos (Bool.and_eq_true_iff.mpr ⟨hr, hl⟩)
  unfold execPrbsRelock
  rw [if_pos ⟨hr, hl, hb, he, he'⟩, hf]
  simp only [hc]

theorem prbsRelock_counted {bits errs from_ : Nat} (hr : s.checkerRuns n p = true)
    (hl : s.on (Fld.PRT_LANE_STAT_PRBS_LOCK n p) = true) (hb : bits ≤ 1024) (he : 512 < errs) (he' : errs ≤ bits)
    (hf : (s.lane n p).prbsFrom = some from_) :
    ∃ t, exec (.prbsRelock n p bits errs) s = .next t ∧ t.now = max s.now (from_ + s.bitTicks n bits) ∧
      (t.lane n p).prbsBits = (s.lane n p).prbsBits + BitVec.ofNat 64 (s.bitsIn n (t.now - from_)) ∧
      (t.lane n p).prbsFrom = none ∧
      t.rd (Fld.PRT_LANE_PRBS_ERR_COUNT n p) = min (2 ^ (Fld.PRT_LANE_PRBS_ERR_COUNT n p).w - 1)
        (s.rd (Fld.PRT_LANE_PRBS_ERR_COUNT n p) + errs) ∧
      t.rd (Fld.PRT_LANE_STAT_PRBS_LOCK n p) = 0 ∧
      t.rd (Fld.PRT_LANE_FAULTS_PRBS_RELOCK n p) = min (2 ^ (Fld.PRT_LANE_FAULTS_PRBS_RELOCK n p).w - 1)
        (s.rd (Fld.PRT_LANE_FAULTS_PRBS_RELOCK n p) + 1) ∧ Raised t (evPort n 4) ∧
      RegsKept s t [Off.PRT_LANE_PRBS_ERR n p, Off.PRT_LANE_STAT n p, Off.PRT_LANE_FAULTS n p] ∧
      t = { s with regs := t.regs, crossing := t.crossing, lanes := t.lanes, now := t.now } := by
  have hes : Off.PRT_LANE_PRBS_ERR n p ≠ Off.PRT_LANE_STAT n p := by simp [Off.PRT_LANE_PRBS_ERR, Off.PRT_LANE_STAT]
  have hef : Off.PRT_LANE_PRBS_ERR n p ≠ Off.PRT_LANE_FAULTS n p := by simp [Off.PRT_LANE_PRBS_ERR, Off.PRT_LANE_FAULTS]
  have hsf : Off.PRT_LANE_STAT n p ≠ Off.PRT_LANE_FAULTS n p := by simp [Off.PRT_LANE_STAT, Off.PRT_LANE_FAULTS]
  have hrate : ((s.atLeast (from_ + s.bitTicks n bits)).sat (Fld.PRT_LANE_PRBS_ERR_COUNT n p) errs).reg (Off.PRT_PHY_STAT n) =
      s.reg (Off.PRT_PHY_STAT n) :=
    State.reg_sat_ne _ _ _ (by simp only [Off.PRT_PHY_STAT, Fld.PRT_LANE_PRBS_ERR_COUNT]; omega)
  refine ⟨_, execPrbsRelock_unlocks n p s hr hl hb he he' hf, ?_, ?_, ?_, ?_, ?_, ?_, State.raise_sets_out _ _ _, ?_, ?_⟩
  · rw [State.raise_now]
    rfl
  · rw [State.raise_lane, State.raise_now, State.sat_lane, prbsUnlock, State.wr_lane, State.lane_modLane_same]
    simp only [State.prbsCount, State.sat_lane, State.atLeast_lane, hf, State.bitsIn_congr hrate]
    rfl
  · rw [State.raise_lane, State.sat_lane, prbsUnlock, State.wr_lane, State.lane_modLane_same]
  · rw [State.raise_rd, State.rd_sat_ne _ _ _ _ hef, prbsUnlock, State.rd_wr_ne _ _ _ _ hes, State.modLane_rd,
      State.rd_sat_same _ _ _ (by simp [Fld.PRT_LANE_PRBS_ERR_COUNT])]
    rfl
  · rw [State.raise_rd, State.rd_sat_ne _ _ _ _ hsf, prbsUnlock, State.rd_wr_same _ _ _ (by simp [Fld.PRT_LANE_STAT_PRBS_LOCK])]
    rfl
  · rw [State.raise_rd, State.rd_sat_same _ _ _ (by simp [Fld.PRT_LANE_FAULTS_PRBS_RELOCK]), prbsUnlock,
      State.rd_wr_ne _ _ _ _ hsf.symm, State.modLane_rd, State.rd_sat_ne _ _ _ _ hef.symm]
    rfl
  · have h1 : RegsKept s ((s.atLeast (from_ + s.bitTicks n bits)).sat (Fld.PRT_LANE_PRBS_ERR_COUNT n p) errs)
        [Off.PRT_LANE_PRBS_ERR n p, Off.PRT_LANE_STAT n p, Off.PRT_LANE_FAULTS n p] :=
      (RegsKept.refl s _).wr (s := s.atLeast _) List.mem_cons_self _
    exact (((h1.of_regs (State.modLane_regs _ n p _)).wr (f := Fld.PRT_LANE_STAT_PRBS_LOCK n p)
      (List.mem_cons_of_mem _ List.mem_cons_self) 0).wr (f := Fld.PRT_LANE_FAULTS_PRBS_RELOCK n p)
      (List.mem_cons_of_mem _ (List.mem_cons_of_mem _ List.mem_cons_self)) _).of_regs (State.raise_regs _ _ _)
  · rw [State.raise_regs, State.raise_lanes, State.raise_now]
    exact State.raise_eq _ _ _

/-! ### The periodic injection -/

/-- One bit sent inverted: the lane counts it, and in active the flit being sent has it (R83). -/
theorem injectBits_one_txBad (ha : s.rd (Fld.PRT_LANE_STAT_STATE n p) = laActive) :
    ((injectBits n p 1 s).port n).txBad = (s.port n).txBad ++
      [((s.port n).txLog.length + s.rd (Fld.PRT_INJ_CTRL_POS n) / (640 / (positions (s.active n)).length),
        [flitBit (positions (s.active n)).length ((positions (s.active n)).idxOf p.val)
          (s.rd (Fld.PRT_INJ_CTRL_POS n) % (640 / (positions (s.active n)).length))])] := by
  unfold injectBits
  simp only [if_pos ha, State.port_modPort_same, State.modLane_port, List.range_one, List.map_cons, List.map_nil, Nat.add_zero]
  rfl

/-- An injection changes the lane and, in active, what the port has sent. -/
theorem injectBits_changes (k : Nat) : (injectBits n p k s = { s with lanes := (injectBits n p k s).lanes, ports := (injectBits n p k s).ports }) ∧
    PortsKept s (injectBits n p k s) n ∧ ((injectBits n p k s).lane n p).flips = (s.lane n p).flips + k := by
  unfold injectBits
  extract_lets pos st bits s1
  have h1 : (s1.lane n p).flips = (s.lane n p).flips + k := by
    unfold s1
    rw [State.lane_modLane_same]
  split
  · exact ⟨rfl, ((PortsKept.refl s n).of_ports (t := s1) rfl).modPort _, h1⟩
  · exact ⟨rfl, (PortsKept.refl s n).of_ports rfl, h1⟩

theorem periodicInject_counted {w : Nat} (hm : s.rd (Fld.PRT_INJ_CTRL_MODE n) = 2) (hi : s.injects n p = true)
    (hw : (s.lane n p).injAt = some w) :
    ∃ t, exec (.periodicInject n p) s = .next t ∧ t.now = max s.now w ∧ (t.lane n p).flips = (s.lane n p).flips + 1 ∧
      (t.lane n p).injAt = some (w + s.bitTicks n (2 ^ s.injPeriod n)) ∧
      (s.rd (Fld.PRT_LANE_STAT_STATE n p) = laActive →
        let act := positions (s.active n)
        let pos := s.rd (Fld.PRT_INJ_CTRL_POS n)
        (t.port n).txBad = (s.port n).txBad ++ [((s.port n).txLog.length + pos / (640 / act.length),
          [flitBit act.length (act.idxOf p.val) (pos % (640 / act.length))])]) ∧
      PortsKept s t n ∧ t = { s with lanes := t.lanes, ports := t.ports, now := t.now } := by
  obtain ⟨hrest, hports, hflips⟩ := injectBits_changes n p (s.atLeast w) 1
  have hregs : (injectBits n p 1 (s.atLeast w)).regs = s.regs := injectBits_regs _ _ _ _
  have he : exec (.periodicInject n p) s = .next ((injectBits n p 1 (s.atLeast w)).modLane n p
      (fun l => { l with injAt := some (w + (injectBits n p 1 (s.atLeast w)).bitTicks n (2 ^ (injectBits n p 1 (s.atLeast w)).injPeriod n)) })) := by
    show execPeriodicInject n p s = _
    unfold execPeriodicInject
    simp only [hw]
    exact if_pos ⟨hm, hi⟩
  refine ⟨_, he, ?_, ?_, ?_, fun ha => ?_, hports.of_ports rfl, ?_⟩
  · rw [State.modLane_now, hrest]
    rfl
  · rw [State.lane_modLane_same]
    exact hflips
  · rw [State.lane_modLane_same]
    simp only [State.bitTicks, State.injPeriod, State.rd_of_regs hregs]
  · exact injectBits_one_txBad n p (s.atLeast w) ha
  · rw [hrest]
    rfl

end

end Sys2Proof.Machine
end

section
/-! SUPPORT. A lane that changes its state (R55, R67, R78, R83, R96): what it leaves as it was, and the exits from coast and parked. -/
namespace Sys2Proof.Machine
open Sys2Proof

/-- What a lane's checker, injections and grading window leave as it was: every register but INJ_CTRL and the lane's PRBS_LOCK,
every other port, the lane's exit, and everything that is no register, lane or port. -/
structure LaneMoved (n p : Nat) (x s : State) : Prop where
  regs : RegsKept x s [Off.PRT_LANE_STAT n p, Off.PRT_INJ_CTRL n]
  stat : ∀ f : Fld, f.off = Off.PRT_LANE_STAT n p → f.lo + f.w ≤ 7 ∨ 8 ≤ f.lo ∧ f.lo + f.w ≤ 32 → s.rd f = x.rd f
  ports : PortsKept x s n
  exit : (s.lane n p).exitDeadline = (x.lane n p).exitDeadline
  rest : s = { x with regs := s.regs, lanes := s.lanes, ports := s.ports }

section
variable {n p : Nat} {x s : State}

theorem LaneMoved.refl (n p : Nat) (s : State) : LaneMoved n p s s := ⟨.refl _ _, fun _ _ _ => rfl, .refl _ _, rfl, rfl⟩

theorem LaneMoved.ite {a b : State} {c : Prop} [Decidable c] (ha : LaneMoved n p x a) (hb : LaneMoved n p x b) :
    LaneMoved n p x (if c then a else b) := by
  split <;> assumption

variable (h : LaneMoved n p x s)
include h

/-- A further change of registers, lanes and ports still leaves everything else as it was. -/
theorem LaneMoved.rest_of {t : State} (ht : t = { s with regs := t.regs, lanes := t.lanes, ports := t.ports }) :
    t = { x with regs := t.regs, lanes := t.lanes, ports := t.ports } :=
  ht.trans (congrArg (fun u : State => { u with regs := t.regs, lanes := t.lanes, ports := t.ports }) h.rest)

theorem LaneMoved.modLane (f : Lane → Lane) (hf : ∀ l, (f l).exitDeadline = l.exitDeadline) : LaneMoved n p x (s.modLane n p f) :=
  ⟨h.regs.of_regs rfl, h.stat, h.ports.of_ports rfl, by rw [State.lane_modLane_same, hf, h.exit], h.rest_of rfl⟩

theorem LaneMoved.modPort (f : Port → Port) : LaneMoved n p x (s.modPort n f) :=
  ⟨h.regs.of_regs rfl, h.stat, h.ports.modPort f, h.exit, h.rest_of rfl⟩

theorem LaneMoved.wr_prbsLock (v : Nat) : LaneMoved n p x (s.wr (Fld.PRT_LANE_STAT_PRBS_LOCK n p) v) :=
  ⟨h.regs.wr (f := Fld.PRT_LANE_STAT_PRBS_LOCK n p) List.mem_cons_self v,
    fun f hf hw => (State.rd_wr_disj _ _ _ _ (by simp only [Fld.PRT_LANE_STAT_PRBS_LOCK]; omega)
      (by simp only [Fld.PRT_LANE_STAT_PRBS_LOCK]; omega)).trans (h.stat f hf hw),
    h.ports.of_ports rfl, h.exit, h.rest_of rfl⟩

theorem LaneMoved.wr_injMode (v : Nat) : LaneMoved n p x (s.wr (Fld.PRT_INJ_CTRL_MODE n) v) :=
  ⟨h.regs.wr (f := Fld.PRT_INJ_CTRL_MODE n) (List.mem_cons_of_mem _ List.mem_cons_self) v,
    fun f hf hw => (State.rd_wr_ne _ _ _ _ (by rw [hf]; simp only [Off.PRT_LANE_STAT, Fld.PRT_INJ_CTRL_MODE]; omega)).trans (h.stat f hf hw),
    h.ports.of_ports rfl, h.exit, h.rest_of rfl⟩

theorem injectBits_laneMoved (k : Nat) : LaneMoved n p x (injectBits n p k s) := by
  unfold injectBits
  extract_lets pos st bits s1
  have h1 : LaneMoved n p x s1 := h.modLane _ fun _ => rfl
  exact .ite (h1.modPort _) h1

theorem injectLane_laneMoved : LaneMoved n p x (injectLane n p s) := by
  unfold injectLane
  exact .ite (.ite (.ite h (h.modLane _ fun _ => rfl)) (.ite ((injectBits_laneMoved h _).modLane _ fun _ => rfl) h))
    (.ite (h.modLane _ fun _ => rfl) h)

theorem injectEnd_laneMoved : LaneMoved n p x (injectEnd n s) := by
  unfold injectEnd
  exact .ite (h.wr_injMode _) h

theorem prbsSync_laneMoved : LaneMoved n p x (prbsSync n p s) := by
  unfold prbsSync
  extract_lets s1
  have h1 : LaneMoved n p x s1 := h.modLane _ fun l => by split_ifs <;> rfl
  exact .ite h1 ((h1.modLane (fun l => { l with prbsBits := s1.prbsCount n p, prbsFrom := none }) fun _ => rfl).wr_prbsLock _)

end

/-- A lane that is made active moves from the state with its new STATE: its receiver goes on adapting (R78). -/
theorem laneTo_active_laneMoved (n p : Nat) (s : State) :
    LaneMoved n p (s.wr (Fld.PRT_LANE_STAT_STATE n p) laActive) (laneTo n p laActive s) := by
  have ha : adapts laActive = true := rfl
  unfold laneTo
  extract_lets s1 s2 s3 s4 s5
  have h1 : s1 = s := if_neg (by simp [ha])
  have h3 : s3 = s.wr (Fld.PRT_LANE_STAT_STATE n p) laActive := (if_neg (by decide)).trans (by rw [← h1])
  have h4 : LaneMoved n p s3 s4 := (LaneMoved.refl n p s3).modLane _ fun _ => rfl
  have h5 : LaneMoved n p s3 s5 := .ite (h4.modLane _ fun _ => rfl) h4
  exact h3 ▸ injectEnd_laneMoved (injectLane_laneMoved (prbsSync_laneMoved h5))

/-! ### Lanes alone -/

/-- Rounds that change lanes alone change lanes alone. -/
theorem forUpto_lanes {k : Nat} {f : Nat → State → State} (hf : ∀ i a, f i a = { a with lanes := (f i a).lanes }) (s : State) :
    forUpto k f s = { s with lanes := (forUpto k f s).lanes } :=
  forUpto_induction (P := fun a => a = { s with lanes := a.lanes }) k f s rfl fun i a _ ha =>
    (hf i a).trans (congrArg (fun u : State => { u with lanes := (f i a).lanes }) ha)

theorem armCoastExit_lanes (n : Nat) (s : State) : armCoastExit n s = { s with lanes := (armCoastExit n s).lanes } :=
  forUpto_lanes (fun i a => by split <;> rfl) s

/-- A lane that is not in coast is not armed for its exit (R67). -/
theorem armCoastExit_lane_of_ne {n p : Nat} {s : State} (h : s.rd (Fld.PRT_LANE_STAT_STATE n p) ≠ laCoast) :
    (armCoastExit n s).lane n p = s.lane n p := by
  refine (forUpto_induction (P := fun a => a.regs = s.regs ∧ a.lane n p = s.lane n p) 8 _ s ⟨rfl, rfl⟩ fun i a hi ha => ?_).2
  split
  case isFalse => exact ha
  case isTrue hc =>
    refine ⟨ha.1, (State.lane_modLane_ne _ _ _ _ fun e => ?_).trans ha.2⟩
    obtain rfl : p = i := by omega
    rw [State.rd_of_regs ha.1] at hc
    simp [h] at hc

/-! ### Exits -/

/-- A lane that locks in coast: its deadline is over, it has its lock, and it is active. -/
def coastLocked (n p : Nat) (s : State) : State :=
  laneTo n p laActive ((s.modLane n p (fun l => { l with exitDeadline := none })).wr (Fld.PRT_LANE_STAT_CDR_LOCK n p) 1)

section
variable {n p : Nat} {s : State}

theorem coastLocked_state : (coastLocked n p s).rd (Fld.PRT_LANE_STAT_STATE n p) = laActive := by
  rw [coastLocked, (laneTo_active_laneMoved n p _).stat _ rfl (.inl (by simp [Fld.PRT_LANE_STAT_STATE])),
    State.rd_wr_same _ _ _ (by simp [Fld.PRT_LANE_STAT_STATE])]
  rfl

theorem coastLocked_cdrLock : (coastLocked n p s).rd (Fld.PRT_LANE_STAT_CDR_LOCK n p) = 1 := by
  rw [coastLocked, (laneTo_active_laneMoved n p _).stat _ rfl (.inl (by simp [Fld.PRT_LANE_STAT_CDR_LOCK])),
    State.rd_wr_disj _ _ _ _ (by simp [Fld.PRT_LANE_STAT_STATE]) (by simp [Fld.PRT_LANE_STAT_STATE, Fld.PRT_LANE_STAT_CDR_LOCK]),
    State.rd_wr_same _ _ _ (by simp [Fld.PRT_LANE_STAT_CDR_LOCK])]
  rfl

theorem coastLocked_exitDeadline : ((coastLocked n p s).lane n p).exitDeadline = none := by
  rw [coastLocked, (laneTo_active_laneMoved n p _).exit, State.wr_lane, State.wr_lane, State.lane_modLane_same]

theorem coastLocked_regs : RegsKept s (coastLocked n p s) [Off.PRT_LANE_STAT n p, Off.PRT_INJ_CTRL n] :=
  ((((RegsKept.refl s _).of_regs (State.modLane_regs s n p _)).wr (f := Fld.PRT_LANE_STAT_CDR_LOCK n p) List.mem_cons_self 1).wr
    (f := Fld.PRT_LANE_STAT_STATE n p) List.mem_cons_self laActive).trans (laneTo_active_laneMoved n p _).regs

theorem coastLocked_ports : PortsKept s (coastLocked n p s) n := (laneTo_active_laneMoved n p _).ports

theorem coastLocked_rest : coastLocked n p s =
    { s with regs := (coastLocked n p s).regs, lanes := (coastLocked n p s).lanes, ports := (coastLocked n p s).ports } :=
  (laneTo_active_laneMoved n p _).rest

/-- The EXIT sets start when no active lane waits in coast (R67). -/
theorem coastLock_eq : coastLock n p s =
    if (List.range 8).all (fun k => !bitAt ((coastLocked n p s).active n) k ||
      (coastLocked n p s).rd (Fld.PRT_LANE_STAT_STATE n k) != laCoast) = true
    then sendExit n (armCoastExit n (coastLocked n p s)) else armCoastExit n (coastLocked n p s) := by
  have hr : ∀ f, (armCoastExit n (coastLocked n p s)).rd f = (coastLocked n p s).rd f := fun f => by rw [armCoastExit_lanes]; rfl
  show (if (List.range 8).all (fun k => !bitAt ((armCoastExit n (coastLocked n p s)).active n) k ||
    (armCoastExit n (coastLocked n p s)).rd (Fld.PRT_LANE_STAT_STATE n k) != laCoast) = true then _ else _) = _
  simp only [State.active, hr]
  rfl

theorem coastLock_rest : coastLock n p s =
    { coastLocked n p s with lanes := (armCoastExit n (coastLocked n p s)).lanes, ports := (coastLock n p s).ports } := by
  rw [coastLock_eq]
  split
  · rw [sendExit, armCoastExit_lanes]
    rfl
  · rw [armCoastExit_lanes]

theorem sendExit_isSome (n : Nat) (s : State) : ((sendExit n s).port n).exitFrom.isSome = true := by
  rw [sendExit, State.port_modPort_same]
  dsimp only
  split <;> rfl

theorem coastLock_ports : PortsKept s (coastLock n p s) n := by
  have h : PortsKept s (armCoastExit n (coastLocked n p s)) n := coastLocked_ports.of_ports (by rw [armCoastExit_lanes])
  rw [coastLock_eq]
  split
  · exact h.modPort _
  · exact h

/-- No other active lane waits in coast. -/
theorem coastLock_exitFrom
    (hk : ∀ k, k < 8 → k ≠ p → bitAt (s.active n) k = true → s.rd (Fld.PRT_LANE_STAT_STATE n k) ≠ laCoast) :
    ((coastLock n p s).port n).exitFrom.isSome = true := by
  have hact : (coastLocked n p s).active n = s.active n := coastLocked_regs.rd
    (by simp [Fld.PRT_PHY_STAT_ACTIVE, Off.PRT_LANE_STAT, Off.PRT_INJ_CTRL]; omega)
  have hall : (List.range 8).all (fun k => !bitAt ((coastLocked n p s).active n) k ||
      (coastLocked n p s).rd (Fld.PRT_LANE_STAT_STATE n k) != laCoast) = true := by
    simp only [List.all_eq_true, List.mem_range, Bool.or_eq_true, Bool.not_eq_true', bne_iff_ne, hact]
    intro k h8
    by_cases hb : bitAt (s.active n) k = true
    · right
      by_cases hkp : k = p
      · rw [hkp, coastLocked_state]
        decide
      · rw [coastLocked_regs.rd (by simp [Fld.PRT_LANE_STAT_STATE, Off.PRT_LANE_STAT, Off.PRT_INJ_CTRL]; omega)]
        exact hk k h8 hkp hb
    · exact .inl (Bool.eq_false_iff.mpr hb)
  rw [coastLock_eq, if_pos hall]
  exact sendExit_isSome n _

/-- A lane that holds the partner's signal in a link in coast is active again, and the last of them starts the EXIT sets (R67). -/
theorem laneExitLock_coast (n : PortId) (p : Pos) (s : State) (hl : s.link n = lsCoast) (hb : bitAt (s.active n) p = true) :
    ∃ t, exec (.laneExitLock n p) s = .next t ∧
      t.rd (Fld.PRT_LANE_STAT_STATE n p) = laActive ∧ t.rd (Fld.PRT_LANE_STAT_CDR_LOCK n p) = 1 ∧
      (t.lane n p).exitDeadline = none ∧
      ((∀ k, k < 8 → k ≠ p.val → bitAt (s.active n) k = true → s.rd (Fld.PRT_LANE_STAT_STATE n k) ≠ laCoast) →
        (t.port n).exitFrom.isSome = true) ∧
      RegsKept s t [Off.PRT_LANE_STAT n p, Off.PRT_INJ_CTRL n] ∧ PortsKept s t n ∧
      t = { s with regs := t.regs, lanes := t.lanes, ports := t.ports } := by
  have hregs : (coastLock n p s).regs = (coastLocked n p s).regs := by rw [coastLock_rest]
  have hne : (coastLocked n p s).rd (Fld.PRT_LANE_STAT_STATE n p) ≠ laCoast := by
    rw [coastLocked_state]
    decide
  refine ⟨coastLock n p s, if_pos ⟨hl, hb⟩, (State.rd_of_regs hregs _).trans coastLocked_state,
    (State.rd_of_regs hregs _).trans coastLocked_cdrLock, ?_, coastLock_exitFrom, coastLocked_regs.of_regs hregs, coastLock_ports, ?_⟩
  · rw [coastLock_rest]
    exact (congrArg Lane.exitDeadline (armCoastExit_lane_of_ne hne)).trans coastLocked_exitDeadline
  · rw [coastLock_rest, coastLocked_rest]

/-- A recovery counted by an exit takes no time, and leaves the training. -/
theorem countExitRecovery_port (n : Nat) (s : State) :
    (countExitRecovery n s).now = s.now ∧ ((countExitRecovery n s).port n).train = (s.port n).train :=
  forUpto_induction (P := fun a => a.now = s.now ∧ (a.port n).train = (s.port n).train) 8 _ _ ⟨rfl, rfl⟩ fun _ _ _ ha => ha

theorem coastExitWatchdog_recovers (n : PortId) (p : Pos) (s : State) (t : Nat) (ht : (s.lane n p).exitDeadline = some t)
    (hc : (s.lane n p).exitParked = false) :
    let u := (laneTo n p laParked ((s.atLeast t).modLane n p (fun l => { l with exitDeadline := none }))).raise
      (evPort n 5) (2 ^ p.val)
    let v := if (u.port n).train.hasLink then countExitRecovery n u else u
    exec (.coastExitWatchdog n p) s = .next (enterLock n (u.port n).train.hasLink (v.modPort n (fun q =>
      { q with exitFrom := none, train := { q.train with gotExit := 0, recovEnd := some (max s.now t + 2 * tMs) } }))) := by
  intro u v
  have hu : u.now = max s.now t :=
    ((laneTo_laneKept ((LaneKept.refl (s.atLeast t)).modLane _ _ _) n laParked p.isLt).raise _ _).now
  have hv : v.now = u.now ∧ (v.port n).train = (u.port n).train := by
    unfold v
    split
    · exact countExitRecovery_port n u
    · exact ⟨rfl, rfl⟩
  have he : exec (.coastExitWatchdog n p) s = .next (enterLock n
      ((v.modPort n (fun q => { q with exitFrom := none, train := { q.train with gotExit := 0, recovEnd := some (v.now + 2 * tMs) } })).port
        n).train.hasLink
      (v.modPort n (fun q => { q with exitFrom := none, train := { q.train with gotExit := 0, recovEnd := some (v.now + 2 * tMs) } }))) := by
    show execCoastExitWatchdog n p s = _
    unfold execCoastExitWatchdog
    simp only [ht, hc]
    rfl
  rw [he, State.port_modPort_same, hv.1, hv.2, hu]

end

end Sys2Proof.Machine
end

section
/-! O24. Lane faults are counted and reported, and lane exits end or fail. -/
namespace Sys2Proof.Machine
open Sys2Proof

/-- Settles O24: a fault of a lane, of its grade or its checker is counted, shown and reported by writes that meet nothing else, and a
lane that leaves coast moves from the state with its lock by what its checker, injections and grading window leave as it was. -/
theorem laneFaultsAreCounted : Obligations.LaneFaultsAreCounted := by
  unfold Obligations.LaneFaultsAreCounted
  refine ⟨fun n p s => ⟨fifoSlip_counted n p s, cdrLoss_counted n p s, fun d w hs hc hw =>
    ⟨gradingWindow_kept hs hc hw, gradingWindow_failing hs hc hw⟩, prbsChecker_locks n p s,
    fun bits errs from_ hr hl hb he he' hf => prbsRelock_counted n p s hr hl hb he he' hf,
    fun w hm hi hw => periodicInject_counted n p s hm hi hw⟩, fun n p s => ⟨fun h => if_pos h, fun h => if_pos h,
    fun hl hb _ => laneExitLock_coast n p s hl hb, fun hl hb hd => ?_, fun t ht hc => coastExitWatchdog_recovers n p s t ht hc,
    fun t ht hc => ?_⟩⟩
  · exact (if_neg fun h => absurd (hl.symm.trans h.1) (by decide)).trans (if_pos ⟨hl, hb, hd⟩)
  · show execParkedExitWatchdog n p s = _
    unfold execParkedExitWatchdog
    simp only [ht, hc]
    rfl

end Sys2Proof.Machine
end

section
/-! SUPPORT. The ordered sets (R98, R99, R101 to R104): a set that is heard shows in its lane's LANE_STAT alone, and what then comes. -/
namespace Sys2Proof.Machine
open Sys2Proof

/-! ### Changes of a port, a lane and a training as values -/

section
variable {s : State} {n : Nat}

theorem State.modPort_congr {f g : Port → Port} (h : f (s.port n) = g (s.port n)) : s.modPort n f = s.modPort n g :=
  congrArg (s.setPort n) h

theorem State.modTrain_congr {f g : Train → Train} (h : f (s.port n).train = g (s.port n).train) : s.modTrain n f = s.modTrain n g :=
  State.modPort_congr (by rw [h])

theorem State.modLane_congr {p : Nat} {f g : Lane → Lane} (h : f (s.lane n p) = g (s.lane n p)) : s.modLane n p f = s.modLane n p g :=
  congrArg (s.setLane n p) h

theorem State.train_modTrain (s : State) (n : Nat) (f : Train → Train) : ((s.modTrain n f).port n).train = f (s.port n).train := by
  rw [State.modTrain, State.port_modPort_same]

end

/-! ### What a set that is heard changes -/

section
variable (n p : Nat) (inv : Bool) (s : State)

theorem hearSet_port (i : Nat) : (hearSet n p inv s).port i = s.port i := rfl

theorem hearSet_regs : RegsKept s (hearSet n p inv s) [Off.PRT_LANE_STAT n p] :=
  ((RegsKept.refl s _).wr (f := Fld.PRT_LANE_STAT_RX_INV n p) List.mem_cons_self _).wr (f := Fld.PRT_LANE_STAT_CDR_LOCK n p)
    List.mem_cons_self _

/-- A lane's state, and whether it is usable, stay. -/
theorem hearSet_rd_of_le {f : Fld} (hf : f.lo + f.w ≤ 5) : (hearSet n p inv s).rd f = s.rd f := by
  rw [hearSet, State.rd_wr_disj _ _ _ _ (by simp [Fld.PRT_LANE_STAT_CDR_LOCK]) (.inr hf),
    State.rd_wr_disj _ _ _ _ (by simp [Fld.PRT_LANE_STAT_RX_INV]) (.inr (Nat.le_succ_of_le hf))]

theorem hearSet_state (q : Nat) : (hearSet n p inv s).rd (Fld.PRT_LANE_STAT_STATE n q) = s.rd (Fld.PRT_LANE_STAT_STATE n q) :=
  hearSet_rd_of_le n p inv s (by simp [Fld.PRT_LANE_STAT_STATE])

theorem hearSet_isUsable (q : Nat) : (hearSet n p inv s).on (Fld.PRT_LANE_STAT_USABLE n q) = s.on (Fld.PRT_LANE_STAT_USABLE n q) := by
  rw [State.on, State.on, hearSet_rd_of_le n p inv s (by simp [Fld.PRT_LANE_STAT_USABLE])]

theorem hearSet_usable : (hearSet n p inv s).usable n = s.usable n := by
  simp only [State.usable, hearSet_isUsable]

theorem hearSet_active : (hearSet n p inv s).active n = s.active n :=
  (hearSet_regs n p inv s).rd (by simp [Fld.PRT_PHY_STAT_ACTIVE, Off.PRT_LANE_STAT]; omega)

theorem hearSet_link : (hearSet n p inv s).link n = s.link n :=
  (hearSet_regs n p inv s).rd (by simp [Fld.PRT_LINK_STAT_STATE, Off.PRT_LANE_STAT]; omega)

theorem hearSet_role : (hearSet n p inv s).role n = s.role n :=
  (hearSet_regs n p inv s).rd (by simp [Fld.PRT_POOL_CTRL_ROLE, Off.PRT_LANE_STAT]; omega)

end

/-! ### Which sets are heard -/

section
variable {n p type : Nat} {set : List Byte} {s : State} {inv : Bool} {os : OrderedSet} (act : Bool → OrderedSet → Out)

/-- Sixteen bytes that do not spell the set do nothing. -/
theorem withSet_of_none (h : osRead type set = none) : withSet n p type set s act = .next s := by
  unfold withSet
  simp only [h]

theorem withSet_of_some (h : osRead type set = some (inv, os)) (hst : s.rd (Fld.PRT_LANE_STAT_STATE n p) ≠ laLoop)
    (hst' : ¬ (s.rd (Fld.PRT_LANE_STAT_STATE n p) = laPrbs ∨ s.rd (Fld.PRT_LANE_STAT_STATE n p) = laParked)) :
    withSet n p type set s act = act inv os := by
  unfold withSet
  simp only [h, if_neg hst, if_neg hst']

/-- A lane in a far-end loopback sends the set back (R76). -/
theorem withSet_loop (h : osRead type set = some (inv, os)) (hst : s.rd (Fld.PRT_LANE_STAT_STATE n p) = laLoop)
    (ht : s.rd (Fld.PRT_LANE_CTRL_TEST_STATE n p) = 1) :
    withSet n p type set s act = .next (s.modLane n p (fun l => { l with echo := l.echo ++ [set] })) := by
  unfold withSet
  simp only [h, if_pos hst, if_pos ht]

/-- A lane in training, active or coast hears a set. -/
theorem withSet_heard (h : osRead type set = some (inv, os)) {st : Nat} (hst : s.rd (Fld.PRT_LANE_STAT_STATE n p) = st)
    (hs : st = laTraining ∨ st = laActive ∨ st = laCoast) : withSet n p type set s act = act inv os := by
  subst hst
  refine withSet_of_some act h ?_ ?_ <;> rcases hs with e | e | e <;> rw [e] <;> decide

end

/-! ### TS1 and TS2 -/

section
variable {n : PortId} {p : Pos} {set : List Byte} {s : State} {inv : Bool} {os : OrderedSet}

theorem ts1_lock (h : osRead osTs1 set = some (inv, os)) (hst : s.rd (Fld.PRT_LANE_STAT_STATE n p) = laTraining)
    (hl : s.link n = lsLock) :
    let t := (hearSet n p inv s).modTrain n (fun x => { x with
      locked := addPos x.locked p, got1 := addPos x.got1 p, pRates := os.rates, pX1 := os.x1 })
    exec (.ts1 n p set) s = .next (if addPos (s.port n).train.got1 p = 0xFF then enterConfig n t else t) := by
  intro t
  have htr : (t.port n).train.got1 = addPos (s.port n).train.got1 p := by
    rw [State.train_modTrain, hearSet_port]
  refine (withSet_heard _ h hst (.inl rfl)).trans ((if_pos hl).trans ?_)
  show Host.Outcome.next (if (t.port n).train.got1 = 0xFF then enterConfig n t else t) = _
  rw [htr]

theorem ts1_linkUp (h : osRead osTs1 set = some (inv, os)) (hst : s.rd (Fld.PRT_LANE_STAT_STATE n p) = laActive)
    (hl : s.link n = lsUp) (hr : os.recov = true) (hb : bitAt (s.active n) p = true) (hf : os.full = false)
    (hf' : (s.port n).train.full = false) (hc : covers (addPos (s.port n).train.got1 p).toNat (s.active n) = true) :
    let t := (hearSet n p inv s).modTrain n (fun x => { x with got1 := addPos x.got1 p })
    exec (.ts1 n p set) s = .next ((enterRecovery n 6 false t).modTrain n (fun x =>
      { x with got1 := addPos (s.port n).train.got1 p })) := by
  intro t
  have ht : (hearSet n p inv s).modTrain n (fun x => { x with got1 := addPos x.got1 p, full := x.full || os.full }) = t :=
    State.modTrain_congr (by simp only [hearSet_port, hf, hf', Bool.or_self])
  have htr : (t.port n).train = { (s.port n).train with got1 := addPos (s.port n).train.got1 p } := State.train_modTrain _ _ _
  refine (withSet_heard _ h hst (.inr (.inl rfl))).trans ?_
  dsimp only
  rw [ht, htr, if_neg (by rw [hl]; decide), if_neg (by rw [hl]; exact fun e => absurd e.1 (by decide)), if_pos ⟨hl, hr, hb⟩, if_pos hc, hf']
  rfl

section
variable {at_ : Nat} (h : osRead osTs2 set = some (inv, os)) (hst : s.rd (Fld.PRT_LANE_STAT_STATE n p) = laTraining)
  (hl : s.link n = lsConfig)
include h hst hl

theorem ts2_refused (hk : os.kind.toNat ≠ s.role n ∨ os.expect ≠ 1) :
    exec (.ts2 n p ⟨set, at_⟩) s = .next (trainingFailed n 7 (hearSet n p inv s)) := by
  refine (withSet_heard _ h hst (.inl rfl)).trans ((if_pos hl).trans (if_pos ?_))
  rw [hearSet_role]
  exact hk

theorem ts2_config (hk : os.kind.toNat = s.role n) (he : os.expect = 1) (hs : os.seen = true)
    (hu : s.on (Fld.PRT_LANE_STAT_USABLE n p) = true) :
    let t := ((hearSet n p inv s).modTrain n (fun x => { x with
      got2 := addPos x.got2 p
      pUsable := os.usable
      pRates := os.rates
      pX1 := os.x1 })).modLane n p (fun l => { l with arrival := at_ })
    exec (.ts2 n p ⟨set, at_⟩) s = .next
      (if covers (addPos (s.port n).train.got2 p).toNat (s.usable n) then configDone n (deskew n (s.usable n) t) else t) := by
  intro t
  have htr : (t.port n).train.got2 = addPos (s.port n).train.got2 p := by
    rw [State.modLane_port, State.train_modTrain, hearSet_port]
  have hus : t.usable n = s.usable n := hearSet_usable n p inv s
  refine (withSet_heard _ h hst (.inl rfl)).trans ((if_pos hl).trans ((if_neg ?_).trans ((if_pos ?_).trans ?_)))
  · rw [hearSet_role]
    exact fun hk' => hk'.elim (absurd hk) (absurd he)
  · rw [hearSet_isUsable, hs, hu]
    rfl
  · show Host.Outcome.next (if covers (t.port n).train.got2.toNat (t.usable n) then configDone n (deskew n (t.usable n) t) else t) = _
    rw [htr, hus]

end

/-! ### EIOS, EXIT and SDS -/

theorem eios_heard (h : osRead osEios set = some (inv, os)) (hst : s.rd (Fld.PRT_LANE_STAT_STATE n p) = laActive)
    (hb : bitAt (s.active n) p = true) (hl : s.link n = lsUp) :
    ∃ t, exec (.eios n ⟨p, set⟩) s = .next t ∧
      (t.port n).train.gotEios = addPos (s.port n).train.gotEios p ∧ t.rd (Fld.PRT_LANE_STAT_CDR_LOCK n p) = 0 ∧
      RegsKept s t [Off.PRT_LANE_STAT n p] ∧ PortsKept s t n ∧ t = { s with regs := t.regs, ports := t.ports } := by
  refine ⟨_, (withSet_heard _ h hst (.inr (.inl rfl))).trans (if_pos ?_), ?_, ?_, ?_, ?_, rfl⟩
  · rw [hearSet_active, hearSet_link]
    exact ⟨hb, .inl hl⟩
  · rw [State.wr_port, State.train_modTrain, hearSet_port]
  · exact (State.rd_wr_same _ _ _ (by simp [Fld.PRT_LANE_STAT_CDR_LOCK])).trans rfl
  · exact ((hearSet_regs n p inv s).of_regs rfl).wr (f := Fld.PRT_LANE_STAT_CDR_LOCK n p) List.mem_cons_self 0
  · have hk : PortsKept s (hearSet n p inv s) n := (PortsKept.refl s n).of_ports rfl
    exact (hk.modPort (fun q => { q with train := { q.train with gotEios := addPos q.train.gotEios p } })).of_ports rfl

theorem exit_justEntered (h : osRead osExit set = some (inv, os)) (hb : bitAt (s.active n) p = true) (hj : s.justEntered n = true) :
    exec (.exitSets n ⟨p, set⟩) s = .next (abandonEntry n s) := if_pos ⟨hb, hj, by rw [h]; rfl⟩

/-- An EXIT that is heard in coast: a lane that waits there has its lock, and the exit is done when every active lane has it. -/
theorem exit_coast (h : osRead osExit set = some (inv, os)) (hb : bitAt (s.active n) p = true) (hj : s.justEntered n = false)
    (hl : s.link n = lsCoast)
    (hst : s.rd (Fld.PRT_LANE_STAT_STATE n p) = laActive ∨ s.rd (Fld.PRT_LANE_STAT_STATE n p) = laCoast) :
    exec (.exitSets n ⟨p, set⟩) s = .next (coastExitDone n ((if s.rd (Fld.PRT_LANE_STAT_STATE n p) = laCoast
      then coastLock n p (hearSet n p inv s) else hearSet n p inv s).modTrain n (fun x => { x with gotExit := addPos x.gotExit p }))) := by
  have hl' := (hearSet_link n p inv s).trans hl
  refine (if_neg (by rw [hj]; exact fun hc => absurd hc.2.1 (by decide))).trans ((withSet_heard _ h rfl (.inr hst)).trans
    ((if_neg (by rw [hl']; exact fun hc => absurd hc.1 (by decide))).trans ((if_pos ⟨hl', by rw [hearSet_active]; exact hb⟩).trans ?_)))
  rw [hearSet_state]

theorem sds_start (h : osRead osSds set = some (inv, os)) (hst : s.rd (Fld.PRT_LANE_STAT_STATE n p) = laTraining)
    (hl : s.link n = lsStart) (hb : bitAt (s.active n) p = true) :
    let t := (hearSet n p inv s).modTrain n (fun x => { x with gotSds := addPos x.gotSds p })
    exec (.sds n ⟨p, set⟩) s = .next
      (if covers (addPos (s.port n).train.gotSds p).toNat (s.active n) then sendDone n (pump n (linkUp n t)) else t) := by
  intro t
  have htr : (t.port n).train.gotSds = addPos (s.port n).train.gotSds p := by
    rw [State.train_modTrain, hearSet_port]
  refine (withSet_heard _ h hst (.inl rfl)).trans ((if_pos ?_).trans ?_)
  · rw [hearSet_active, hearSet_link, hl, hb]
    rfl
  · show (if covers (t.port n).train.gotSds.toNat ((hearSet n p inv s).active n) = true
      then Host.Outcome.next (sendDone n (pump n (linkUp n t))) else .next t) = _
    rw [htr, hearSet_active]
    split <;> rfl

end

/-! ### The PLL's relock and the presets -/

section
variable {n : PortId} {p : Pos} {s : State}

/-- A measured lane's first preset ends 5 µs after the PLL has the new rate (R103). -/
def armPreset (n p : Nat) (a : State) : State :=
  if bitAt (a.active n) p && !(a.lane n p).presetsDone then a.modLane n p (fun l => { l with presetEnd := some (a.now + 5 * tUs) }) else a

/-- What the arming of one lane keeps: every register, the time, and the lanes' presets. -/
theorem armPreset_changes (n p : Nat) (a : State) : armPreset n p a = { a with lanes := (armPreset n p a).lanes } := by
  unfold armPreset
  split <;> rfl

theorem armPreset_lane (n p : Nat) (a : State) (hb : bitAt (a.active n) p = true) (hd : (a.lane n p).presetsDone = false) :
    ((armPreset n p a).lane n p).presetEnd = some (a.now + 5 * tUs) := by
  rw [armPreset, if_pos (by rw [hb, hd]; rfl), State.lane_modLane_same]

theorem armPreset_lane_ne {n p i : Nat} (h : i ≠ p) (a : State) : (armPreset n i a).lane n p = a.lane n p := by
  unfold armPreset
  split
  · exact State.lane_modLane_ne _ _ _ _ (by omega)
  · rfl

/-- Each active lane that is still to be measured is armed in its own round. -/
theorem armPresets_presetEnd (n : Nat) {p : Nat} (hp : p < 8) (s : State) (hb : bitAt (s.active n) p = true)
    (hd : (s.lane n p).presetsDone = false) : ((forUpto 8 (armPreset n) s).lane n p).presetEnd = some (s.now + 5 * tUs) := by
  have hkeep : ∀ i a, (armPreset n i a).regs = a.regs ∧ (armPreset n i a).now = a.now ∧
      ((armPreset n i a).lane n p).presetsDone = (a.lane n p).presetsDone := fun i a => by
    refine ⟨by rw [armPreset_changes], by rw [armPreset_changes], ?_⟩
    by_cases hi : i = p
    · rw [hi, armPreset]
      split
      · rw [State.lane_modLane_same]
      · rfl
    · rw [armPreset_lane_ne hi]
  refine forUpto_of_round (P := fun a => (a.lane n p).presetEnd = some (s.now + 5 * tUs))
    (Q := fun a => a.regs = s.regs ∧ a.now = s.now ∧ (a.lane n p).presetsDone = false) (armPreset n) s hp ⟨rfl, rfl, hd⟩ ?_ ?_ ?_
  · rintro i a - ⟨hr, hn, hd⟩
    obtain ⟨kr, kn, kd⟩ := hkeep i a
    exact ⟨kr.trans hr, kn.trans hn, kd.trans hd⟩
  · rintro a ⟨hr, hn, hd⟩
    rw [armPreset_lane n p a ((congrArg (bitAt · p) (State.rd_of_regs hr _)).trans hb) hd, hn]
  · rintro i a hi - - ha
    rw [armPreset_lane_ne (by omega)]
    exact ha

/-- The PLL holds the new rate, and its lock shows. -/
def pllRelocked (n : Nat) (s : State) : State :=
  (s.modTrain n (fun t => { t with relock := false })).wr (Fld.PRT_PHY_STAT_PLL_LOCK n) 1

theorem pllRelocked_active (n : Nat) (s : State) : (pllRelocked n s).active n = s.active n :=
  State.rd_wr_disj _ _ _ _ (by simp [Fld.PRT_PHY_STAT_PLL_LOCK]) (by simp [Fld.PRT_PHY_STAT_PLL_LOCK, Fld.PRT_PHY_STAT_ACTIVE])

theorem pllRelocked_regs (n : Nat) (s : State) : RegsKept s (pllRelocked n s) [Off.PRT_PHY_STAT n] :=
  RegsKept.wr (s := s.modTrain n _) (f := Fld.PRT_PHY_STAT_PLL_LOCK n) (RegsKept.refl s _) List.mem_cons_self 1

theorem pllRelockDone_armed (hl : s.link n = lsRate) (hr : (s.port n).train.relock = true) : ∃ t, exec (.pllRelockDone n) s = .next t ∧
    (t.port n).train.relock = false ∧ t.rd (Fld.PRT_PHY_STAT_PLL_LOCK n) = 1 ∧
    (bitAt (s.active n) p = true → (s.lane n p).presetsDone = false → (t.lane n p).presetEnd = some (s.now + 5 * tUs)) ∧
    RegsKept s t [Off.PRT_PHY_STAT n] ∧ PortsKept s t n ∧
    t = { s with regs := t.regs, ports := t.ports, lanes := t.lanes } := by
  have he : exec (.pllRelockDone n) s = .next (forUpto 8 (armPreset n) (pllRelocked n s)) := if_pos ⟨hl, hr⟩
  have hf := forUpto_lanes (armPreset_changes n) (k := 8) (pllRelocked n s)
  refine ⟨_, he, ?_, ?_, fun hb hd => armPresets_presetEnd n p.isLt _ ((pllRelocked_active n s).symm ▸ hb) hd, ?_, ?_, ?_⟩ <;> rw [hf]
  · exact congrArg Train.relock (State.train_modTrain s n (fun t => { t with relock := false }))
  · exact State.rd_wr_same _ _ _ (by simp [Fld.PRT_PHY_STAT_PLL_LOCK])
  · exact (pllRelocked_regs n s).of_regs rfl
  · exact ((PortsKept.refl s n).modPort (fun q => { q with train := { q.train with relock := false } })).of_ports rfl
  · rfl

/-- The best of a lane's presets once another has met `d` disagreements: the first with the fewest (R103). -/
def bestPreset (l : Lane) (d : Nat) : Option (Nat × Nat) :=
  match l.presetBest with
  | some (b, c) => if d < c then some (l.presetNow, d) else some (b, c)
  | none => some (l.presetNow, d)

/-- A measurement that ends in a link that is changing its rate. -/
theorem execPresetMeasureEnd_of_lane {d w : Nat} (hl : s.link n = lsRate) (hr : (s.port n).train.relock = false)
    (hb : bitAt (s.active n) p = true) (hd : (s.lane n p).presetsDone = false) (hw : (s.lane n p).presetEnd = some w) :
    exec (.presetMeasureEnd n p d) s =
      let fin := decide (7 ≤ (s.lane n p).presetNow)
      let t := (s.atLeast w).modLane n p (fun l => { l with
        presetBest := bestPreset (s.lane n p) d
        presetNow := l.presetNow + 1
        presetsDone := fin
        presetEnd := if fin then none else some (max s.now w + 5 * tUs) })
      .next (if fin then rateCheck n t else t) := by
  show execPresetMeasureEnd n p d s = _
  unfold execPresetMeasureEnd
  simp only [hw]
  exact if_pos ⟨hl, hr, hb, hd⟩

theorem presetMeasured {d w : Nat} (hl : s.link n = lsRate) (hr : (s.port n).train.relock = false) (hb : bitAt (s.active n) p = true)
    (hd : (s.lane n p).presetsDone = false) (hw : (s.lane n p).presetEnd = some w) :
    ((s.lane n p).presetNow < 7 → exec (.presetMeasureEnd n p d) s = .next ((s.atLeast w).modLane n p (fun l => { l with
      presetBest := bestPreset (s.lane n p) d
      presetNow := l.presetNow + 1
      presetsDone := false
      presetEnd := some (max s.now w + 5 * tUs) }))) ∧
    ((s.lane n p).presetNow = 7 → exec (.presetMeasureEnd n p d) s = .next (rateCheck n ((s.atLeast w).modLane n p (fun l =>
      { l with presetBest := bestPreset (s.lane n p) d, presetNow := 8, presetsDone := true, presetEnd := none })))) := by
  refine ⟨fun h => ?_, fun h => ?_⟩ <;> rw [execPresetMeasureEnd_of_lane hl hr hb hd hw]
  · rw [decide_eq_false (show ¬ 7 ≤ (s.lane n p).presetNow by omega)]
    rfl
  · rw [decide_eq_true (show 7 ≤ (s.lane n p).presetNow by omega)]
    refine congrArg (fun u => Host.Outcome.next (rateCheck n u)) (State.modLane_congr ?_)
    rw [State.atLeast_lane, h]
    rfl

end

end Sys2Proof.Machine
end

section
/-! O25. The ordered sets take a port through its training. -/
namespace Sys2Proof.Machine
open Sys2Proof

/-- Settles O25: a set that is heard writes its lane's LANE_STAT alone, so that what its port, its link and its width were decides what
comes next. -/
theorem orderedSetsTrain : Obligations.OrderedSetsTrain := by
  unfold Obligations.OrderedSetsTrain
  refine fun n p set s => ⟨fun h => withSet_of_none _ h, fun inv os h hst ht => withSet_loop _ h hst ht,
    fun inv os h hst hl => ts1_lock h hst hl, fun inv os h hst hl hr hb hf hf' hc => ts1_linkUp h hst hl hr hb hf hf' hc,
    fun inv os at_ h hst hl => ⟨ts2_refused h hst hl, ts2_config h hst hl⟩, fun inv os h hst hb hl => eios_heard h hst hb hl,
    fun inv os h hb => ⟨exit_justEntered h hb, fun hj hl hst => ?_, fun hj hl hst => ?_⟩,
    fun inv os h hst hl hb => sds_start h hst hl hb, pllRelockDone_armed, fun d w hl hr hb hd hw => ?_⟩
  · rw [exit_coast h hb hj hl (.inl hst), hst]
    rfl
  · rw [exit_coast h hb hj hl (.inr hst), if_pos hst]
  · exact presetMeasured hl hr hb hd hw

end Sys2Proof.Machine
end

section
/-! SUPPORT. Two changes of one port, one after the other, are one change (a table may hold no entry that stands for the reset value, so
the first change must not make one that the second unmakes). -/
namespace Sys2Proof.Machine
open Sys2Proof

section
variable {α : Type}

theorem tabInsert_tabInsert (t : Tab α) (i : Nat) (a b : α) : tabInsert (tabInsert t i a) i b = tabInsert t i b := by
  induction t with
  | nil => simp [tabInsert]
  | cons e t ih =>
    obtain ⟨k, v⟩ := e
    simp only [tabInsert]
    split_ifs with h1 h2
    · simp [tabInsert]
    · simp [tabInsert]
    · simp [tabInsert, h1, h2, ih]

theorem tabErase_tabInsert (t : Tab α) (i : Nat) (a : α) : tabErase (tabInsert t i a) i = tabErase t i := by
  induction t with
  | nil => simp [tabInsert, tabErase]
  | cons e t ih =>
    obtain ⟨k, v⟩ := e
    simp only [tabInsert]
    split_ifs with h1 h2
    · simp [tabErase]
    · simp [tabErase, h2]
    · simp [tabErase, Ne.symm h2, ih]

theorem tabErase_tabErase (t : Tab α) (i : Nat) : tabErase (tabErase t i) i = tabErase t i := by
  induction t with
  | nil => rfl
  | cons e t ih =>
    obtain ⟨k, v⟩ := e
    simp only [tabErase]
    split_ifs with h
    · exact ih
    · simp [tabErase, h, ih]

variable [DecidableEq α]

theorem tabSet_tabSet (d : α) (t : Tab α) (i : Nat) {a b : α} (h : a ≠ d ∨ b = d) : tabSet d (tabSet d t i a) i b = tabSet d t i b := by
  simp only [tabSet_eq]
  by_cases hb : b = d
  · by_cases ha : a = d
    · rw [if_pos hb, if_pos ha, if_pos hb, tabErase_tabErase]
    · rw [if_pos hb, if_neg ha, if_pos hb, tabErase_tabInsert]
  · rw [if_neg hb, if_neg (h.resolve_right hb), if_neg hb, tabInsert_tabInsert]

end

theorem State.setPort_setPort {s : State} {n : Nat} {a b : Port} (h : a ≠ Port.reset ∨ b = Port.reset) :
    (s.setPort n a).setPort n b = s.setPort n b := by
  simp only [State.setPort, tabSet_tabSet Port.reset s.ports n h]

theorem State.modPort_modPort {s : State} {n : Nat} {f g : Port → Port}
    (h : f (s.port n) ≠ Port.reset ∨ g (f (s.port n)) = Port.reset) : (s.modPort n f).modPort n g = s.modPort n (fun p => g (f p)) := by
  rw [State.modPort, State.port_modPort_same]
  exact State.setPort_setPort h

end Sys2Proof.Machine
end

section
/-! SUPPORT. The handshake into coast and parked (R67, R69, R135), and links that wake (R691, R694). -/
namespace Sys2Proof.Machine
open Sys2Proof

section
variable {n : PortId} {s : State}

/-! ### Requests and answers -/

/-- A slot that is received in LINK_UP is taken after the link's idle time has begun again. -/
theorem execPower_up (hu : s.up n = true) (kind target : BitVec 2) :
    exec (.power n kind target) s = .next (takePower n kind.toNat target.toNat (touch n s)) := if_pos hu

/-- A port in LINK_UP that has no room for a flit is not as at reset: it holds flits or waits for a NULL. -/
theorem port_ne_reset_of_full (hu : s.up n = true) (hr : s.hasRoom n = false) {q : Port} (hq : q.retry = (s.port n).retry)
    (hq' : q.train = (s.port n).train) : q ≠ Port.reset := by
  rintro rfl
  rw [State.hasRoom, hu, ← hq, ← hq'] at hr
  exact absurd hr (by decide)

theorem answerPower_noRoom (hr : s.hasRoom n = false) : answerPower n s = s := by
  unfold answerPower
  split
  · rw [hr]
    rfl
  · rfl

theorem power_waits (hu : s.up n = true) (hr : s.hasRoom n = false) (target : BitVec 2) :
    exec (.power n 0 target) s = .next (s.modPort n (fun p => { p with idleSince := s.now, powerAsk := some target.toNat })) := by
  have ht : (touch n s).modPort n (fun p => { p with powerAsk := some target.toNat }) =
      s.modPort n (fun p => { p with idleSince := s.now, powerAsk := some target.toNat }) :=
    State.modPort_modPort (.inl (port_ne_reset_of_full hu hr rfl rfl))
  have hr' : (s.modPort n (fun p => { p with idleSince := s.now, powerAsk := some target.toNat })).hasRoom n = false := by
    rw [← hr, State.hasRoom, State.port_modPort_same]
    rfl
  rw [execPower_up hu]
  show Host.Outcome.next (answerPower n ((touch n s).modPort n (fun p => { p with powerAsk := some target.toNat }))) = _
  rw [ht, answerPower_noRoom hr']

/-- The port of a request that is answered at once. -/
def powerAsked (n : Nat) (s : State) : State := s.modPort n (fun p => { p with idleSince := s.now, powerAsk := none })

theorem powerAsked_eq (n target : Nat) (s : State) :
    ((touch n s).modPort n (fun p => { p with powerAsk := some target })).modPort n (fun p => { p with powerAsk := none }) =
      powerAsked n s := by
  have h2 : ((touch n s).modPort n (fun p => { p with powerAsk := some target })).modPort n (fun p => { p with powerAsk := none }) =
      (touch n s).modPort n (fun p => { p with powerAsk := none }) :=
    State.modPort_modPort (.inl fun e => absurd (congrArg Port.powerAsk e) (Option.some_ne_none _))
  rw [h2]
  refine State.modPort_modPort (or_iff_not_imp_left.mpr fun e => ?_)
  rw [not_not.mp e]
  rfl

/-- A request with room for the answer is declined or agreed to (R135). -/
theorem power_answered (hc : s.canSend n = true) (target : BitVec 2) : exec (.power n 0 target) s =
    .next (if s.isCadPort n = true ∨ 2 ≤ target.toNat then sendControl n [encPower 2 target.toNat] (powerAsked n s)
      else tryEnter n ((sendControl n [encPower 1 target.toNat] (sendAck n (powerAsked n s))).modPort n (fun p =>
        { p with shake := .agreed (target.toNat == 1), shakeDeadline := none }))) := by
  obtain ⟨hroom, hidle⟩ := Bool.and_eq_true_iff.mp hc
  have hu : s.up n = true := (Bool.and_eq_true_iff.mp (Bool.and_eq_true_iff.mp hroom).1).1
  have hport : ((touch n s).modPort n (fun p => { p with powerAsk := some target.toNat })).port n =
      { s.port n with idleSince := s.now, powerAsk := some target.toNat } := by
    rw [State.port_modPort_same, touch, State.port_modPort_same]
  have hroom' : ((touch n s).modPort n (fun p => { p with powerAsk := some target.toNat })).hasRoom n = true := by
    rw [← hroom, State.hasRoom, hport]
    rfl
  have hidle' : ((powerAsked n s).port n).shake = .idle := by
    rw [powerAsked, State.port_modPort_same]
    exact of_decide_eq_true hidle
  rw [execPower_up hu]
  show Host.Outcome.next (answerPower n ((touch n s).modPort n (fun p => { p with powerAsk := some target.toNat }))) = _
  unfold answerPower
  simp only [hport, hroom', if_true, powerAsked_eq, hidle', ne_eq, not_true_eq_false, or_false]
  rfl

theorem power_accepted {target : BitVec 2} {parked : Bool} (hu : s.up n = true) (hs : (s.port n).shake = .asked parked) :
    exec (.power n 1 target) s = .next (tryEnter n (
      let t := (touch n s).modPort n (fun p => { p with shake := .agreed parked, shakeDeadline := none })
      if parked then holdAnswered n t else t)) := by
  have hs' : ((touch n s).port n).shake = .asked parked := by
    rw [touch, State.port_modPort_same]
    exact hs
  rw [execPower_up hu]
  unfold takePower
  simp only [hs']
  rfl

theorem power_declined {target : BitVec 2} {parked : Bool} (hu : s.up n = true) (hs : (s.port n).shake = .asked parked) :
    exec (.power n 2 target) s = .next (pump n (
      let t := (touch n s).modPort n (fun p => { p with shake := .idle, shakeDeadline := none })
      if parked then holdAbandon n t else t)) := by
  have hs' : ((touch n s).port n).shake = .asked parked := by
    rw [touch, State.port_modPort_same]
    exact hs
  rw [execPower_up hu]
  unfold takePower
  simp only [hs']
  rfl

end

/-! ### Entries -/

section
variable {n : Nat} {s : State} {parked : Bool} (hs : (s.port n).shake = .agreed parked) (hh : (s.port n).retry.held = [])
include hs hh

/-- An entry that the partner's exit does not meet: the link shows it, and parked the lanes' PLL is off (R67, R69). -/
theorem tryEnter_enters (he : (s.port n).exitSeen = none) : (tryEnter n s).link n = (if parked then lsParked else lsCoast) ∧
    (parked = true → (tryEnter n s).rd (Fld.PRT_PHY_STAT_PLL_LOCK n) = 0) := by
  unfold tryEnter
  simp only [hs, hh, he, List.isEmpty_nil, if_true, Bool.false_eq_true, if_false]
  cases parked with
  | false => exact ⟨State.link_setLink _ _ _, fun h => absurd h (by decide)⟩
  | true =>
    refine ⟨?_, fun _ => State.rd_wr_same _ _ _ (by simp [Fld.PRT_PHY_STAT_PLL_LOCK])⟩
    exact (State.rd_wr_ne _ _ _ _ (by simp [Fld.PRT_PHY_STAT_PLL_LOCK, Fld.PRT_LINK_STAT_STATE])).trans (State.link_setLink _ _ _)

/-- An exit that began in the entry's cycle undoes the entry (R69). -/
theorem tryEnter_undone (he : (s.port n).exitSeen = some s.now) :
    tryEnter n s = s.modPort n (fun p => { p with shake := .idle, shakeDeadline := none }) := by
  unfold tryEnter
  simp only [hs, hh, he, List.isEmpty_nil, if_true, sameLaneCycle, beq_self_eq_true]

end

section
variable {n : PortId} {s : State}

/-- A control flit that is sent counts in LINK_SEQ and stands in its port alone. -/
theorem sendControl_regsKept {x : State} {offs : List Nat} (n : Nat) (slots : List (BitVec 80)) (h : RegsKept x s offs)
    (ho : Off.PRT_LINK_SEQ n ∈ offs) : RegsKept x (sendControl n slots s) offs :=
  RegsKept.wr (s := s.modPort n _) (f := Fld.PRT_LINK_SEQ_TX_NEXT n) h ho _

theorem sendControl_portsKept {x : State} (n : Nat) (slots : List (BitVec 80)) (h : PortsKept x s n) :
    PortsKept x (sendControl n slots s) n := by
  rw [sendControl, sendFlit]
  exact (h.modPort _).of_ports (State.wr_ports _ _ _)

theorem coastIdleTimer_asks (hp : s.rd Fld.GLB_PWR_STAT_STATE = psRest) (hc : s.canSend n = true)
    (hk : s.rd (Fld.PRT_LINK_CTRL_COAST_IDLE n) ≠ 15) (hn : s.isCadPort n = false) : ∃ t, exec (.coastIdleTimer n) s = .next t ∧
      t.now = max s.now ((s.port n).idleSince + tNs (64 * 2 ^ s.rd (Fld.PRT_LINK_CTRL_COAST_IDLE n))) ∧
      (t.port n).shake = .asked false ∧ (t.port n).txLog = (s.port n).txLog ++ [⟨2, BitVec.ofNat 10 (s.txNext n), false, [encPower 0 0], none⟩] ∧
      RegsKept s t [Off.PRT_LINK_SEQ n] ∧ PortsKept s t n ∧ t = { s with now := t.now, regs := t.regs, ports := t.ports } := by
  refine ⟨_, if_pos ⟨hp, hc, hk, hn⟩, rfl, ?_, ?_, ?_, ?_, rfl⟩
  · rw [State.port_modPort_same]
  · rw [State.port_modPort_same, sendControl, sendFlit, State.wr_port, State.port_modPort_same]
    rfl
  · exact (sendControl_regsKept (s := s.atLeast _) n _ (RegsKept.refl s _) List.mem_cons_self).of_regs rfl
  · exact (sendControl_portsKept n _ ((PortsKept.refl s n).of_ports (t := s.atLeast _) rfl)).modPort _

theorem holdHandshakeTimeout_abandons {sleep : Bool} {mbx : Nat} {asked answered : BitVec 16} {d : Nat}
    (ht : s.power.trans = .enter sleep mbx asked answered) (hd : (s.port n).shakeDeadline = some d) (ha : asked.getLsbD n = true)
    (ha' : answered.getLsbD n = false) : exec (.holdHandshakeTimeout n) s = .next (quietStep (holdAbandon n (s.atLeast d))) := by
  show execHoldHandshakeTimeout n s = _
  unfold execHoldHandshakeTimeout
  simp only [ht, hd]
  exact if_pos (by rw [ha, ha']; rfl)

/-! ### Activity on a port that sleeps or is parked -/

theorem squelch_parked (hp : s.power? < psHold) (hl : s.link n = lsParked) : exec (.squelchActivity n) s =
    if s.justEntered n = true then .next (abandonEntry n s)
    else if (s.port n).train.hasLink = true ∧ (List.range 8).all (fun p => (s.lane n p).exitDeadline.isNone) = true
    then .next (startParkedExit n s) else .next s := by
  have hu : ¬ s.up n = true := by
    rw [State.up, hl]
    decide
  have hh : s.power? ≠ psHold := Nat.ne_of_lt hp
  have hz : s.power? ≠ psSleep := Nat.ne_of_lt (Nat.lt_succ_of_lt hp)
  refine (if_neg hh).trans ((if_neg hz).trans ((if_neg hu).trans ?_))
  by_cases hj : s.justEntered n = true
  · exact (if_pos ⟨hl, hj⟩).trans (if_pos hj).symm
  · rw [if_neg hj, if_neg fun h => hj h.2]
    by_cases hx : (s.port n).train.hasLink = true ∧ (List.range 8).all (fun p => (s.lane n p).exitDeadline.isNone) = true
    · exact (if_pos ⟨hl, hx⟩).trans (if_pos hx).symm
    · exact (if_neg fun h => hx h.2).trans (if_neg hx).symm

theorem abandonEntry_link (n : Nat) (s : State) : (abandonEntry n s).link n = lsUp :=
  (State.rd_wr_ne _ _ _ _ (by simp [Fld.PRT_PHY_STAT_PLL_LOCK, Fld.PRT_LINK_STAT_STATE])).trans (State.link_setLink _ _ _)

end

end Sys2Proof.Machine
end

section
/-! O30. The handshake into coast and parked runs, and links wake. -/
namespace Sys2Proof.Machine
open Sys2Proof

/-- Settles O30: what two changes of the port in a row leave is what one leaves, so a request is answered, or waits, in one change of its
port; each other case is one branch of its instruction. -/
theorem powerHandshakeRuns : Obligations.PowerHandshakeRuns := by
  unfold Obligations.PowerHandshakeRuns
  refine fun n s => ⟨fun target hu => ⟨fun hr => power_waits hu hr target, fun hc => ⟨fun h => ?_, fun hn ht => ?_⟩⟩,
    fun target parked hu hs => ⟨power_accepted hu hs, power_declined hu hs⟩,
    fun parked hs hh => ⟨tryEnter_enters hs hh, tryEnter_undone hs hh⟩, coastIdleTimer_asks,
    fun sleep mbx asked answered d ht hd ha ha' => holdHandshakeTimeout_abandons ht hd ha ha', fun hp hr he => ?_,
    fun hp hl hj hh hd => ?_, fun hp hl hj => ⟨(squelch_parked hp hl).trans (if_pos hj), abandonEntry_link n s⟩⟩
  · exact (power_answered hc target).trans (congrArg _ (if_pos h))
  · refine (power_answered hc target).trans (congrArg _ (if_neg ?_))
    rw [hn]
    exact fun h => h.elim (absurd · (by decide)) (by omega)
  · exact (if_pos hp).trans (congrArg _ (if_pos ⟨hr, he⟩))
  · refine (squelch_parked hp hl).trans ((if_neg (by rw [hj]; decide)).trans (if_pos ⟨hh, ?_⟩))
    simp only [List.all_eq_true, List.mem_range]
    intro p hp8
    rw [hd p hp8]
    rfl

end Sys2Proof.Machine
end

section
/-! SUPPORT. The bytes of a flit (R107 to R110): numbers written one after the other, and where a flit's parts lie in its bytes. -/
namespace Sys2Proof.Machine
open Sys2Proof

/-! ### Numbers one after the other -/

theorem leAt_append_right (a b : List Byte) (lo n : Nat) : leAt (a ++ b) (a.length + lo) n = leAt b lo n := by simp [leAt]

section
variable {α : Type} (m : Nat) (g : α → Nat)

theorem length_flatMap_leBytes (l : List α) : (l.flatMap (fun a => leBytes m (g a))).length = m * l.length := by
  induction l with
  | nil => rfl
  | cons a l ih => simp [ih, length_leBytes, Nat.mul_add, Nat.add_comm]

theorem leAt_flatMap_leBytes (rest : List Byte) {l : List α} {k : Nat} (hk : k < l.length) :
    leAt (l.flatMap (fun a => leBytes m (g a)) ++ rest) (m * k) m = g l[k] % 256 ^ m := by
  induction l generalizing k with
  | nil => exact absurd hk (Nat.not_lt_zero k)
  | cons a l ih =>
    rw [List.flatMap_cons, List.append_assoc]
    cases k with
    | zero => simp [leAt, length_leBytes, leNat_leBytes]
    | succ k =>
      have ho : m * (k + 1) = (leBytes m (g a)).length + m * k := by rw [length_leBytes]; ring
      rw [ho, leAt_append_right]
      exact ih (Nat.lt_of_succ_lt_succ hk)

end

/-! ### Lines -/

theorem length_lineBytes (d : Line) : (lineBytes d).length = 64 := by
  rw [lineBytes, length_flatMap_leBytes, Vector.length_toList]

/-- A line is the one its bytes spell (R342). -/
theorem lineOf_lineBytes (d : Line) : lineOf (lineBytes d) = d := by
  refine Vector.ext fun k hk => BitVec.eq_of_toNat_eq ?_
  have h := leAt_flatMap_leBytes 8 BitVec.toNat [] (l := d.toList) (k := k) (by simpa using hk)
  rw [List.append_nil] at h
  simp only [lineOf, Vector.getElem_ofFn, BitVec.toNat_ofNat]
  rw [lineBytes, h]
  have := d[k].isLt
  simp
  omega

/-! ### The layout of a flit -/

/-- The header of a flit as a number (R107). -/
def flitNum (f : Flit) : Nat := f.type.toNat + f.seq.toNat * 2 ^ 3 + b2n f.ackP * 2 ^ 13

/-- The control slots of a flit, ten bytes each (R108). -/
def flitCtl (f : Flit) : List Byte := f.slots.flatMap (fun s => leBytes 10 s.toNat)

/-- What stands between a flit's header and its check code. -/
def flitBody (f : Flit) : List Byte :=
  match f.data with
  | some d => (flitCtl f ++ List.replicate 10 0).take 10 ++ lineBytes d
  | none => (flitCtl f ++ List.replicate 74 0).take 74

/-- What a flit's check code covers (R110). -/
def flitHead (f : Flit) : List Byte := leBytes 2 (flitNum f) ++ flitBody f

theorem flitBytes_eq (f : Flit) : flitBytes f = flitHead f ++ leBytes 4 (crc32 (flitHead f)).toNat := rfl

section
variable {f : Flit}

theorem length_flitCtl (f : Flit) : (flitCtl f).length = 10 * f.slots.length := length_flatMap_leBytes 10 _ _

/-- Without a data slot the control slots come first, and zeros fill what is left. -/
theorem flitBody_of_none (hd : f.data = none) (hs : f.slots.length ≤ 7) :
    flitBody f = flitCtl f ++ List.replicate (74 - 10 * f.slots.length) 0 := by
  have hl := length_flitCtl f
  simp only [flitBody, hd]
  rw [List.take_append, List.take_of_length_le (by omega), List.take_replicate, hl]
  congr 2
  omega

theorem flitBody_of_some {d : Line} (hd : f.data = some d) (hs : f.slots.length = 1) : flitBody f = flitCtl f ++ lineBytes d := by
  have hl := length_flitCtl f
  simp only [flitBody, hd]
  rw [List.take_append, List.take_of_length_le (by omega), hl, hs]
  simp

theorem length_flitHead (hb : (flitBody f).length = 74) : (flitHead f).length = 76 := by
  rw [flitHead, List.length_append, length_leBytes, hb]

/-- A flit of a whole body is whole, and its check code right (R110). -/
theorem flitCrcOk_flitBytes (hb : (flitBody f).length = 74) : (flitBytes f).length = 80 ∧ flitCrcOk (flitBytes f) = true := by
  have hh := length_flitHead hb
  have hl : (flitBytes f).length = 80 := by rw [flitBytes_eq, List.length_append, length_leBytes, hh]
  refine ⟨hl, ?_⟩
  have hc : leAt (flitBytes f) 76 4 = (crc32 (flitHead f)).toNat := by
    rw [flitBytes_eq, show 76 = (flitHead f).length + 0 by rw [hh], leAt_append_right, leAt, List.drop_zero,
      List.take_of_length_le (by rw [length_leBytes]), leNat_leBytes]
    exact Nat.mod_eq_of_lt (crc32 (flitHead f)).isLt
  rw [flitCrcOk, hl, hc, flitBytes_eq, List.take_append_of_le_length (Nat.le_of_eq hh.symm), List.take_of_length_le (Nat.le_of_eq hh)]
  simp

theorem flitHeader_flitBytes (f : Flit) : flitHeader (flitBytes f) = flitNum f := by
  have := f.type.isLt
  have := f.seq.isLt
  have : b2n f.ackP ≤ 1 := by cases f.ackP <;> decide
  rw [flitHeader, flitBytes_eq, flitHead, List.append_assoc, leAt, List.drop_zero,
    List.take_append_of_le_length (by rw [length_leBytes]), List.take_of_length_le (by rw [length_leBytes]), leNat_leBytes]
  exact Nat.mod_eq_of_lt (by simp only [flitNum]; omega)

/-- Type, number and ACK come back from the header (R107). -/
theorem flitNum_fields (f : Flit) : bitsOf (flitNum f) 0 3 = f.type.toNat ∧ bitsOf (flitNum f) 3 10 = f.seq.toNat ∧
    bitAt (flitNum f) 13 = f.ackP := by
  have := f.type.isLt
  have := f.seq.isLt
  simp only [bitsOf, bitAt, flitNum]
  refine ⟨by omega, ?_, ?_⟩ <;> cases f.ackP <;> simp [b2n] <;> omega

/-- A control slot comes back from its ten bytes (R108). -/
theorem flitSlot_flitBytes {rest : List Byte} (hb : flitBody f = flitCtl f ++ rest) {k : Nat} (hk : k < f.slots.length) :
    flitSlot (flitBytes f) k = f.slots[k] := by
  rw [flitSlot, flitBytes_eq, flitHead, hb, List.append_assoc, List.append_assoc,
    show 2 + 10 * k = (leBytes 2 (flitNum f)).length + 10 * k by rw [length_leBytes], leAt_append_right, flitCtl,
    leAt_flatMap_leBytes 10 BitVec.toNat _ hk]
  refine BitVec.eq_of_toNat_eq ?_
  rw [BitVec.toNat_ofNat]
  have := f.slots[k].isLt
  omega

theorem lineOf_flitBytes {d : Line} (hb : flitBody f = flitCtl f ++ lineBytes d) (hs : f.slots.length = 1) :
    lineOf (((flitBytes f).drop 12).take 64) = d := by
  have hl : (leBytes 2 (flitNum f) ++ flitCtl f).length = 12 := by rw [List.length_append, length_leBytes, length_flitCtl, hs]
  have hd : (flitBytes f).drop 12 = lineBytes d ++ leBytes 4 (crc32 (flitHead f)).toNat := by
    rw [flitBytes_eq, flitHead, hb, ← List.append_assoc, List.append_assoc, ← hl, List.drop_left]
  rw [hd, ← length_lineBytes d, List.take_left, lineOf_lineBytes]

theorem flitOf_flitBytes (f : Flit) : flitOf (flitBytes f) =
    { f with
      slots := if f.type.toNat = ftControl then (List.range 7).map (flitSlot (flitBytes f))
        else if f.type.toNat = ftData ∨ f.type.toNat = ftNull then [flitSlot (flitBytes f) 0] else []
      data := if f.type.toNat = ftData then some (lineOf (((flitBytes f).drop 12).take 64)) else none } := by
  obtain ⟨ht, hq, ha⟩ := flitNum_fields f
  simp only [flitOf, flitHeader_flitBytes, ht, hq, ha, BitVec.ofNat_toNat, BitVec.setWidth_eq]

end

/-- The shape of a flit: how many slots its type has, and whether it has a data slot (R108). -/
inductive FlitShape (f : Flit) : Prop
  | control (ht : f.type.toNat = ftControl) (hs : f.slots.length = 7) (hd : f.data = none)
  | data (ht : f.type.toNat = ftData) (hs : f.slots.length = 1) (d : Line) (hd : f.data = some d)
  | null (ht : f.type.toNat = ftNull) (hs : f.slots.length = 1) (hd : f.data = none)
  | replay (ht : f.type.toNat = ftReplay) (hs : f.slots = []) (hd : f.data = none)

theorem FlitShape.of_cases {f : Flit} (h : (f.type.toNat = ftControl ∧ f.slots.length = 7 ∧ f.data = none) ∨
    (f.type.toNat = ftData ∧ f.slots.length = 1 ∧ f.data.isSome = true) ∨
    (f.type.toNat = ftNull ∧ f.slots.length = 1 ∧ f.data = none) ∨
    (f.type.toNat = ftReplay ∧ f.slots = [] ∧ f.data = none)) : FlitShape f := by
  rcases h with ⟨ht, hs, hd⟩ | ⟨ht, hs, hd⟩ | ⟨ht, hs, hd⟩ | ⟨ht, hs, hd⟩
  · exact .control ht hs hd
  · obtain ⟨d, hd'⟩ := Option.isSome_iff_exists.mp hd
    exact .data ht hs d hd'
  · exact .null ht hs hd
  · exact .replay ht hs hd

theorem FlitShape.length_flitBody {f : Flit} (h : FlitShape f) : (flitBody f).length = 74 := by
  have of_none : f.data = none → f.slots.length ≤ 7 → (flitBody f).length = 74 := fun hd hs => by
    rw [flitBody_of_none hd hs, List.length_append, length_flitCtl, List.length_replicate]
    omega
  cases h with
  | control _ hs hd => exact of_none hd (by omega)
  | data _ hs d hd => rw [flitBody_of_some hd hs, List.length_append, length_flitCtl, length_lineBytes, hs]
  | null _ hs hd => exact of_none hd (by omega)
  | replay _ hs hd => exact of_none hd (by simp [hs])

/-- A flit of a shape is the one its bytes spell (R107, R108). -/
theorem FlitShape.flitOf_flitBytes {f : Flit} (h : FlitShape f) : flitOf (flitBytes f) = f := by
  obtain ⟨type, seq, ackP, slots, data⟩ := f
  rw [Machine.flitOf_flitBytes]
  cases h with
  | control ht hs hd =>
    have hb := flitBody_of_none hd (Nat.le_of_eq hs)
    dsimp only at ht hs hd ⊢
    rw [if_pos ht, if_neg (by rw [ht]; decide), hd]
    congr 1
    refine List.ext_getElem (by simp [hs]) fun k hk hk' => ?_
    rw [List.getElem_map, List.getElem_range]
    subst hd
    exact flitSlot_flitBytes hb hk'
  | data ht hs d hd =>
    have hb := flitBody_of_some hd hs
    have h0 := flitSlot_flitBytes hb (k := 0) (by rw [hs]; decide)
    have hl := lineOf_flitBytes hb hs
    dsimp only at ht hs hd h0 hl ⊢
    obtain ⟨x, rfl⟩ := List.length_eq_one_iff.mp hs
    rw [if_neg (by rw [ht]; decide), if_pos (.inl ht), if_pos ht, h0, hl, hd]
    rfl
  | null ht hs hd =>
    have h0 := flitSlot_flitBytes (flitBody_of_none hd (by omega)) (k := 0) (by rw [hs]; decide)
    dsimp only at ht hs hd h0 ⊢
    obtain ⟨x, rfl⟩ := List.length_eq_one_iff.mp hs
    rw [if_neg (by rw [ht]; decide), if_pos (.inr ht), if_neg (by rw [ht]; decide), h0, hd]
    rfl
  | replay ht hs hd =>
    dsimp only at ht hs hd ⊢
    rw [if_neg (by rw [ht]; decide), if_neg (by rw [ht]; decide), if_neg (by rw [ht]; decide), hs, hd]

end Sys2Proof.Machine
end

section
/-! SUPPORT. What the lanes carry (R10, R49, R98, R99): bytes as bits and back, a flit's bytes over the lanes, ordered sets. -/
namespace Sys2Proof.Machine
open Sys2Proof

/-! ### Bytes as bits -/

theorem laneBits_cons (b : Byte) (bs : List Byte) : laneBits (b :: bs) = (List.range 8).map (fun i => b.getLsbD i) ++ laneBits bs := rfl

theorem length_laneBits (bs : List Byte) : (laneBits bs).length = 8 * bs.length := by
  induction bs with
  | nil => rfl
  | cons b bs ih =>
    simp [laneBits_cons, ih]
    omega

theorem drop_laneBits (bs : List Byte) (j : Nat) : (laneBits bs).drop (8 * j) = laneBits (bs.drop j) := by
  induction bs generalizing j with
  | nil => simp [laneBits]
  | cons b bs ih =>
    cases j with
    | zero => rfl
    | succ j => rw [laneBits_cons, Nat.mul_succ, Nat.add_comm, ← List.drop_drop, List.drop_left' (by simp), ih, List.drop_succ_cons]

/-- Bit b of a lane is bit b mod 8 of its byte b / 8, the least significant first (R10). -/
theorem getD_laneBits (bs : List Byte) (b : Nat) : (laneBits bs).getD b false = (bs.getD (b / 8) 0).getLsbD (b % 8) := by
  have hb : (laneBits bs).getD b false = (laneBits (bs.drop (b / 8))).getD (b % 8) false := by
    rw [← drop_laneBits, List.getD_eq_getElem?_getD, List.getD_eq_getElem?_getD, List.getElem?_drop, Nat.div_add_mod]
  have hm : b % 8 < 8 := Nat.mod_lt b (by decide)
  rw [hb]
  by_cases hl : b / 8 < bs.length
  · rw [List.drop_eq_getElem_cons hl, laneBits_cons, List.getD_eq_getElem _ _ hl, List.getD_eq_getElem?_getD,
      List.getElem?_append_left (by simpa using hm)]
    simp [hm]
  · rw [List.drop_eq_nil_of_le (Nat.le_of_not_lt hl), List.getD_eq_default _ _ (Nat.le_of_not_lt hl)]
    simp [laneBits]

/-- Eight bits of a byte, the first the least significant, spell it (R10). -/
theorem bitsByte_laneBits (b : Byte) : bitsByte ((List.range 8).map (fun i => b.getLsbD i)) = b := by
  revert b
  decide

theorem laneByte_laneBits {bs : List Byte} {j : Nat} (hj : j < bs.length) : laneByte (laneBits bs) j = bs[j] := by
  rw [laneByte, drop_laneBits, List.drop_eq_getElem_cons hj, laneBits_cons, List.take_left' (by simp), bitsByte_laneBits]

/-! ### A flit over its lanes -/

section
variable {w : Nat} {bs : List Byte}

theorem length_laneShare (w i : Nat) (bs : List Byte) : (laneShare w i bs).length = (bs.length + w - 1 - i) / w := by
  simp [laneShare]

/-- Byte j of a lane's share is the flit's byte w × j + i (R49). -/
theorem getD_laneShare {i j : Nat} (hj : j < (bs.length + w - 1 - i) / w) : (laneShare w i bs).getD j 0 = bs.getD (w * j + i) 0 := by
  simp [laneShare, List.getD_eq_getElem?_getD, hj]

/-- The shares of the lanes are gathered as they were striped (R10, R49). -/
theorem gatherFlit_laneShare (hw : w = 1 ∨ w = 2 ∨ w = 4 ∨ w = 8) (hb : bs.length = 80) :
    gatherFlit ((List.range w).map (fun i => laneBits (laneShare w i bs))) = bs := by
  have hpos : 0 < w := by omega
  have hshare : ∀ i < w, (bs.length + w - 1 - i) / w = 80 / w := fun i hi => by
    rw [hb]
    rcases hw with rfl | rfl | rfl | rfl <;> omega
  have hwhole : w * (8 * (80 / w)) = 640 := by rcases hw with rfl | rfl | rfl | rfl <;> rfl
  unfold gatherFlit
  simp only [List.length_map, List.length_range]
  rw [if_pos]
  · refine List.ext_getElem (by simp [hb]) fun k hk hk' => ?_
    have hm : k % w < w := Nat.mod_lt k hpos
    have hkw : k / w < (laneShare w (k % w) bs).length := by
      rw [length_laneShare, hshare _ hm]
      rcases hw with rfl | rfl | rfl | rfl <;> omega
    have hg := getD_laneShare (w := w) (bs := bs) (i := k % w) (j := k / w) (by rwa [length_laneShare] at hkw)
    rw [List.getD_eq_getElem _ _ hkw, Nat.div_add_mod, List.getD_eq_getElem _ _ hk'] at hg
    rw [List.getElem_map, List.getElem_range, laneIndex, List.getD_eq_getElem _ _ (by simpa using hm), List.getElem_map,
      List.getElem_range, laneByte_laneBits hkw, hg]
  · refine ⟨Nat.ne_of_gt hpos, ?_⟩
    simp only [List.all_map, List.all_eq_true, List.mem_range, Function.comp, decide_eq_true_eq]
    intro i hi
    rw [length_laneBits, length_laneShare, hshare i hi, hwhole]

/-- Each bit of a lane's stream is the bit of the flit that R49 says. -/
theorem getD_laneBits_laneShare (hw : w = 1 ∨ w = 2 ∨ w = 4 ∨ w = 8) (hb : bs.length = 80) {i b : Nat} (hi : i < w)
    (hlt : b < 640 / w) : (laneBits (laneShare w i bs)).getD b false = (laneBits bs).getD (flitBit w i b) false := by
  have hj : b / 8 < (bs.length + w - 1 - i) / w := by
    rw [hb]
    rcases hw with rfl | rfl | rfl | rfl <;> omega
  rw [getD_laneBits, getD_laneBits, getD_laneShare hj, flitBit, Nat.mul_add_div (by decide), Nat.mul_add_mod,
    Nat.div_eq_of_lt (Nat.mod_lt b (by decide)), Nat.mod_mod, Nat.add_zero]

end

/-! ### Ordered sets -/

theorem map_not_map_not (bs : List Byte) : (bs.map (fun b => ~~~b)).map (fun b => ~~~b) = bs := by
  simp [List.map_map, Function.comp_def]

/-- A field of a number that holds it (R9). -/
theorem extractLsb'_of_div {v n lo w : Nat} {x : BitVec w} (hn : n < 2 ^ v) (h : n / 2 ^ lo % 2 ^ w = x.toNat) :
    (BitVec.ofNat v n).extractLsb' lo w = x := by
  refine BitVec.eq_of_toNat_eq ?_
  rw [BitVec.extractLsb'_toNat, BitVec.toNat_ofNat, Nat.mod_eq_of_lt hn, Nat.shiftRight_eq_div_pow, h]

/-- A bit of a number that holds it (R9). -/
theorem getLsbD_of_div {v n i : Nat} {b : Bool} (hn : n < 2 ^ v) (h : n / 2 ^ i % 2 = b2n b) : (BitVec.ofNat v n).getLsbD i = b := by
  rw [← bitAt_toNat, BitVec.toNat_ofNat, Nat.mod_eq_of_lt hn, bitAt, h]
  cases b <;> rfl

theorem b2n_le_one (b : Bool) : b2n b ≤ 1 := by cases b <;> decide

theorem take_osBytes (type pos : Nat) (os : OrderedSet) : (osBytes type pos os).take 4 = osMarker := rfl

theorem length_osBytes (type pos : Nat) (os : OrderedSet) : (osBytes type pos os).length = 16 := rfl

/-- An ordered set is the one its bytes spell (R98). -/
theorem osFields_osBytes (type pos : Nat) (os : OrderedSet) : osFields (osBytes type pos os) = os := by
  obtain ⟨rates, rate, seen, recov, x1, full, preset, presetV, usable, kind, expect, attempt⟩ := os
  have hrates := rates.isLt
  have hrate := rate.isLt
  have hseen := b2n_le_one seen
  have hrecov := b2n_le_one recov
  have hx1 := b2n_le_one x1
  have hfull := b2n_le_one full
  have hpreset := preset.isLt
  have hpresetV := b2n_le_one presetV
  have hkind := kind.isLt
  have hexpect := expect.isLt
  simp only [osFields, OrderedSet.mk.injEq]
  refine ⟨extractLsb'_of_div ?_ ?_, extractLsb'_of_div ?_ ?_, getLsbD_of_div ?_ ?_, getLsbD_of_div ?_ ?_, getLsbD_of_div ?_ ?_,
    getLsbD_of_div ?_ ?_, extractLsb'_of_div ?_ ?_, getLsbD_of_div ?_ ?_, rfl, extractLsb'_of_div ?_ ?_, extractLsb'_of_div ?_ ?_, rfl⟩
  all_goals dsimp only; omega

/-- A set is read as it was composed, plain or from an inverted pair (R98, R99). -/
theorem osRead_osBytes {type : Nat} (pos : Nat) (os : OrderedSet) (ht : type < 256) :
    osRead type (osBytes type pos os) = some (false, os) ∧
    osRead type ((osBytes type pos os).map (fun b => ~~~b)) = some (true, os) := by
  have hty : ((osBytes type pos os).getD 4 0).toNat = type := Nat.mod_eq_of_lt ht
  have hplain : (osMarker.map (fun b => ~~~b) == osMarker) = false := by decide
  have hinv : ((((osBytes type pos os).map (fun b => ~~~b)).take 4).map (fun b => ~~~b) == osMarker) = true := by
    rw [← List.map_take, map_not_map_not, take_osBytes]
    decide
  refine ⟨?_, ?_⟩ <;> unfold osRead
  · simp only [take_osBytes, hplain, Bool.false_eq_true, if_false, length_osBytes, hty, osFields_osBytes, and_self, if_true]
  · simp only [hinv, if_true, List.length_map, map_not_map_not, take_osBytes, length_osBytes, hty, osFields_osBytes, and_self]

end Sys2Proof.Machine
end

section
/-! O32. The bytes of a flit and of an ordered set, and their bits on the lanes. -/
namespace Sys2Proof.Machine
open Sys2Proof

/-- Settles O32: a flit's parts lie in its bytes one after the other, a lane carries every w-th of these bytes, and an ordered set's
fields lie beside each other in its bytes. -/
theorem flitsRoundTrip : Obligations.FlitsRoundTrip := by
  unfold Obligations.FlitsRoundTrip
  refine ⟨fun f h => ?_, fun w bs hw hb => ⟨gatherFlit_laneShare hw hb, fun i b hi hlt => ?_⟩,
    fun type pos os ht => ⟨length_osBytes type pos os, osRead_osBytes pos os ht⟩⟩
  · have hf := FlitShape.of_cases h
    obtain ⟨hl, hc⟩ := flitCrcOk_flitBytes hf.length_flitBody
    exact ⟨hl, hc, hf.flitOf_flitBytes⟩
  · have hlane : ((List.range w).map (fun i => laneBits (laneShare w i bs))).getD i [] = laneBits (laneShare w i bs) := by
      rw [List.getD_eq_getElem _ _ (by simpa using hi), List.getElem_map, List.getElem_range]
    rw [hlane]
    exact getD_laneBits_laneShare hw hb hi hlt

end Sys2Proof.Machine
end


section
/-! SUPPORT. The control slots (R109, R114, R125, R128, R133, R135, R150, R163, R165, R168, R172): fields that are joined, or added at
their places, are read back. -/
namespace Sys2Proof.Machine
open Sys2Proof

/-! ### Fields that are joined -/

section
variable {v w i : Nat} {a : BitVec v} {b : BitVec w}

theorem getLsbD_append_low (h : i < w) : (a ++ b).getLsbD i = b.getLsbD i := by rw [BitVec.getLsbD_append, if_pos h]

theorem getLsbD_append_high (h : w ≤ i) : (a ++ b).getLsbD i = a.getLsbD (i - w) := by
  rw [BitVec.getLsbD_append, if_neg (Nat.not_lt.mpr h)]

end

theorem encMem_fields (op : BitVec 6) (r : MemReq) : let x := encMem op.toNat r
    slotOp x = op.toNat ∧ slotTag x = r.tag ∧ slotLine x = r.line.toNat ∧ slotTc x = r.tc ∧ slotHint x = r.hint ∧
    slotPanic x = r.panic ∧ slotHop x = r.hop ∧ slotSrc x = r.src ∧ slotLcount x = r.lcount.toNat := by
  simp (disch := omega) only [encMem, slotOp, slotTag, slotLine, slotTc, slotHint, slotPanic, slotHop, slotSrc, slotLcount,
    BitVec.extractLsb'_append_eq_of_le, BitVec.extractLsb'_append_eq_of_add_le, getLsbD_append_low, getLsbD_append_high]
  simp

theorem encFence_fields (r : FenceReq) : let x := encFence r
    slotOp x = 0x14 ∧ slotTag x = r.tag ∧ slotClasses x = r.classes ∧ slotHold x = r.hold ∧ slotTc x = r.tc := by
  simp (disch := omega) only [encFence, slotOp, slotTag, slotClasses, slotHold, slotTc, BitVec.extractLsb'_append_eq_of_le,
    BitVec.extractLsb'_append_eq_of_add_le, getLsbD_append_low, getLsbD_append_high]
  simp

theorem encCfg_fields (op : BitVec 6) (r : CfgReq) : let x := encCfg op.toNat r
    slotOp x = op.toNat ∧ slotTag x = r.tag ∧ slotOffset x = 4 * r.offset.toNat ∧ slotBe x = r.be ∧ slotWindow x = r.window.toNat ∧
    slotLocal x = r.isLocal ∧ slotTc x = r.tc ∧ slotHop x = r.hop ∧ slotSrc x = r.src := by
  simp (disch := omega) only [encCfg, slotOp, slotTag, slotOffset, slotBe, slotWindow, slotLocal, slotTc, slotHop, slotSrc,
    BitVec.extractLsb'_append_eq_of_le, BitVec.extractLsb'_append_eq_of_add_le, getLsbD_append_low, getLsbD_append_high]
  simp

theorem encMsg_fields (r : MsgReq) : let x := encMsg r
    slotOp x = 0x1C ∧ slotMtype x = r.mtype.toNat ∧ slotMsgData x = r.data ∧ slotValue x = r.value ∧ slotTc x = r.tc := by
  simp (disch := omega) only [encMsg, slotOp, slotMtype, slotMsgData, slotValue, slotTc, BitVec.extractLsb'_append_eq_of_le,
    BitVec.extractLsb'_append_eq_of_add_le, getLsbD_append_low, getLsbD_append_high]
  simp

theorem encRsp_fields (op : BitVec 6) (r : RspSlot) : slotOp (encRsp op r) = op.toNat ∧ rspOf (encRsp op r) = r := by
  simp (disch := omega) only [encRsp, slotOp, rspOf, BitVec.extractLsb'_append_eq_of_le, BitVec.extractLsb'_append_eq_of_add_le]
  simp

theorem encCredit_fields (c : CreditSlot) : slotOp (encCredit c) = 0x39 ∧ creditOf (encCredit c) = c := by
  simp (disch := omega) only [encCredit, slotOp, creditOf, BitVec.extractLsb'_append_eq_of_le, BitVec.extractLsb'_append_eq_of_add_le,
    getLsbD_append_low, getLsbD_append_high]
  simp

/-! ### Fields that are added at their places -/

/-- The opcode of a slot that is composed as a number. -/
theorem slotOp_ofNat {x op : Nat} (hx : x < 2 ^ 80) (h : x % 2 ^ 6 = op) : slotOp (BitVec.ofNat 80 x) = op := by
  have hop : op < 2 ^ 6 := h ▸ Nat.mod_lt _ (by decide)
  rw [slotOp, extractLsb'_of_div (x := BitVec.ofNat 6 op) hx, BitVec.toNat_ofNat, Nat.mod_eq_of_lt hop]
  rw [BitVec.toNat_ofNat, Nat.mod_eq_of_lt hop, Nat.pow_zero, Nat.div_one, h]

theorem encAck_fields (seq : BitVec 10) : slotOp (encAck seq.toNat) = 0x38 ∧ slotAckSeq (encAck seq.toNat) = seq.toNat := by
  have := seq.isLt
  refine ⟨slotOp_ofNat (by omega) (by omega), ?_⟩
  exact congrArg BitVec.toNat (extractLsb'_of_div (x := seq) (by omega) (by omega))

theorem encTurn_fields (lo : BitVec 16) (late : BitVec 12) : let x := encTurn lo.toNat late.toNat
    slotOp x = 0x3A ∧ x.extractLsb' 6 16 = lo ∧ x.extractLsb' 22 12 = late := by
  have := lo.isLt
  have := late.isLt
  exact ⟨slotOp_ofNat (by omega) (by omega), extractLsb'_of_div (by omega) (by omega), extractLsb'_of_div (by omega) (by omega)⟩

theorem encPower_fields (kind target : BitVec 2) : let x := encPower kind.toNat target.toNat
    slotOp x = 0x3B ∧ x.extractLsb' 6 2 = kind ∧ x.extractLsb' 8 2 = target := by
  have := kind.isLt
  have := target.isLt
  exact ⟨slotOp_ofNat (by omega) (by omega), extractLsb'_of_div (by omega) (by omega), extractLsb'_of_div (by omega) (by omega)⟩

theorem encRetrain_fields (widen : Bool) : slotOp (encRetrain widen) = 0x3C ∧ (encRetrain widen).getLsbD 6 = widen := by
  have := b2n_le_one widen
  exact ⟨slotOp_ofNat (by omega) (by omega), getLsbD_of_div (by omega) (by omega)⟩

end Sys2Proof.Machine
end

section
/-! O33. The slots the stack composes. -/
namespace Sys2Proof.Machine
open Sys2Proof

/-- Settles O33: each kind of slot holds its fields beside each other, in bits of their own. -/
theorem slotsRoundTrip : Obligations.SlotsRoundTrip := by
  unfold Obligations.SlotsRoundTrip
  exact ⟨encMem_fields, encFence_fields, encCfg_fields, encMsg_fields, encRsp_fields, encCredit_fields, encAck_fields, encTurn_fields,
    encPower_fields, encRetrain_fields⟩

end Sys2Proof.Machine
end

section
/-! SUPPORT. What the operations of a port's lanes leave (R57 to R105): registers outside the block of its lanes, every port but for the
bits inverted on its wire, and everything that is no register, lane, port or free value. -/
namespace Sys2Proof.Machine
open Sys2Proof

/-! ### Raisings stay on their way -/

/-- A raising that is on its way stays so when another one sets out. -/
theorem Raised.raise {s : State} {ev : Nat} (h : Raised s ev) (ev' d : Nat) : Raised (s.raise ev' d) ev := by
  unfold Raised State.raise at *
  split
  · obtain ⟨c, hc, he⟩ := List.any_eq_true.mp h
    refine List.any_eq_true.mpr ⟨_, List.mem_map_of_mem hc, ?_⟩
    split
    · exact he
    · exact he
  · rw [List.any_append, h, Bool.true_or]

theorem Raised.of_crossing {s t : State} {ev : Nat} (h : Raised s ev) (hc : t.crossing = s.crossing) : Raised t ev := by
  rw [Raised, hc]
  exact h

/-! ### What lane operations leave -/

/-- A register that no operation of port n's lanes writes: outside the block of its lanes, and not PRT_INJ_CTRL. -/
def BesideLanes (n off : Nat) : Prop :=
  off ≠ Off.PRT_INJ_CTRL n ∧ (off < Off.PRT_LANE_CTRL n 0 ∨ Off.PRT_LINK_CTRL n ≤ off)

theorem BesideLanes.ne_stat {n p off : Nat} (h : BesideLanes n off) (hp : p < 8) : off ≠ Off.PRT_LANE_STAT n p := by
  simp only [BesideLanes, Off.PRT_INJ_CTRL, Off.PRT_LANE_CTRL, Off.PRT_LINK_CTRL, Off.PRT_LANE_STAT] at *
  omega

theorem BesideLanes.ne_rxeq {n p off : Nat} (h : BesideLanes n off) (hp : p < 8) : off ≠ Off.PRT_LANE_RXEQ n p := by
  simp only [BesideLanes, Off.PRT_INJ_CTRL, Off.PRT_LANE_CTRL, Off.PRT_LINK_CTRL, Off.PRT_LANE_RXEQ] at *
  omega

theorem BesideLanes.ne_txeq {n p off : Nat} (h : BesideLanes n off) (hp : p < 8) : off ≠ Off.PRT_LANE_TXEQ n p := by
  simp only [BesideLanes, Off.PRT_INJ_CTRL, Off.PRT_LANE_CTRL, Off.PRT_LINK_CTRL, Off.PRT_LANE_TXEQ] at *
  omega

theorem besideLanes_phyStat (n : Nat) : BesideLanes n (Off.PRT_PHY_STAT n) := by
  simp only [BesideLanes, Off.PRT_INJ_CTRL, Off.PRT_LANE_CTRL, Off.PRT_LINK_CTRL, Off.PRT_PHY_STAT]
  omega

theorem besideLanes_calStat (n : Nat) : BesideLanes n (Off.PRT_CAL_STAT n) := by
  simp only [BesideLanes, Off.PRT_INJ_CTRL, Off.PRT_LANE_CTRL, Off.PRT_LINK_CTRL, Off.PRT_CAL_STAT]
  omega

/-- The registers of a port's link lie above its lanes. -/
theorem besideLanes_of_le {n off : Nat} (h : Off.PRT_LINK_CTRL n ≤ off) : BesideLanes n off := by
  simp only [BesideLanes, Off.PRT_INJ_CTRL, Off.PRT_LANE_CTRL, Off.PRT_LINK_CTRL] at *
  omega

/-- What the operations of the lanes of port n leave. -/
structure LanesMoved (n : Nat) (x s : State) : Prop where
  regs : ∀ off, BesideLanes n off → s.reg off = x.reg off
  ports : PortsKept x s n
  wire : s.port n = { x.port n with txBad := (s.port n).txBad }
  rest : s = { x with freeIdx := s.freeIdx, regs := s.regs, lanes := s.lanes, ports := s.ports }

theorem LanesMoved.refl (n : Nat) (s : State) : LanesMoved n s s := ⟨fun _ _ => rfl, .refl _ _, rfl, rfl⟩

theorem LanesMoved.ite {n : Nat} {x a b : State} {c : Prop} [Decidable c] (ha : LanesMoved n x a) (hb : LanesMoved n x b) :
    LanesMoved n x (if c then a else b) := by
  split <;> assumption

section
variable {n : Nat} {x s t : State} (h : LanesMoved n x s)
include h

theorem LanesMoved.crossing_eq : s.crossing = x.crossing := by rw [h.rest]

theorem LanesMoved.now_eq : s.now = x.now := by rw [h.rest]

theorem LanesMoved.rd {f : Fld} (hf : BesideLanes n f.off) : s.rd f = x.rd f := State.rd_of_reg (h.regs _ hf)

/-- A further change of free values, registers, lanes and ports still leaves everything else. -/
theorem LanesMoved.rest_of (ht : t = { s with freeIdx := t.freeIdx, regs := t.regs, lanes := t.lanes, ports := t.ports }) :
    t = { x with freeIdx := t.freeIdx, regs := t.regs, lanes := t.lanes, ports := t.ports } :=
  ht.trans (congrArg (fun u : State => { u with freeIdx := t.freeIdx, regs := t.regs, lanes := t.lanes, ports := t.ports }) h.rest)

theorem LanesMoved.modLane (q p : Nat) (f : Lane → Lane) : LanesMoved n x (s.modLane q p f) :=
  ⟨h.regs, h.ports.of_ports rfl, h.wire, h.rest_of rfl⟩

theorem LanesMoved.setReg {off : Nat} (ho : ∀ a, BesideLanes n a → a ≠ off) (v : Reg32) : LanesMoved n x (s.setReg off v) :=
  ⟨fun a ha => (State.reg_setReg_ne s off v (ho a ha)).trans (h.regs a ha), h.ports.of_ports rfl, h.wire, h.rest_of rfl⟩

theorem LanesMoved.wrStat {f : Fld} {p : Nat} (hp : p < 8) (hf : f.off = Off.PRT_LANE_STAT n p) (v : Nat) :
    LanesMoved n x (s.wr f v) := h.setReg (fun _ ha => hf ▸ ha.ne_stat hp) _

theorem LanesMoved.addBad (l : List (Nat × List Nat)) :
    LanesMoved n x (s.modPort n (fun q => { q with txBad := q.txBad ++ l })) :=
  ⟨h.regs, h.ports.modPort _, by
    rw [State.port_modPort_same]
    exact congrArg (fun q : Port => { q with txBad := (s.port n).txBad ++ l }) h.wire, h.rest_of rfl⟩

theorem LanesMoved.forUpto {k : Nat} {f : Nat → State → State} (hf : ∀ i a, i < k → LanesMoved n x a → LanesMoved n x (f i a)) :
    LanesMoved n x (forUpto k f s) := forUpto_induction k f s h hf

end

/-! ### The operations of lanes -/

section
variable {n p : Nat} {x s : State} (h : LanesMoved n x s)
include h

theorem adaptRx_lanesMoved (hp : p < 8) : LanesMoved n x (adaptRx n p s) :=
  LanesMoved.setReg (s := { s with freeIdx := s.freeIdx + 1 }) ⟨h.regs, h.ports.of_ports rfl, h.wire, h.rest_of rfl⟩
    (fun _ ha => ha.ne_rxeq hp) _

theorem injectBits_lanesMoved (p k : Nat) : LanesMoved n x (injectBits n p k s) := by
  unfold injectBits
  extract_lets pos st bits s1
  have h1 : LanesMoved n x s1 := h.modLane _ _ _
  exact .ite (h1.addBad _) h1

theorem injectLane_lanesMoved (p : Nat) : LanesMoved n x (injectLane n p s) := by
  unfold injectLane
  exact .ite (.ite (.ite h (h.modLane _ _ _)) (.ite ((injectBits_lanesMoved h _ _).modLane _ _ _) h)) (.ite (h.modLane _ _ _) h)

theorem injectEnd_lanesMoved : LanesMoved n x (injectEnd n s) := by
  unfold injectEnd
  exact .ite (h.setReg (fun _ ha => ha.1) _) h

theorem prbsSync_lanesMoved (hp : p < 8) : LanesMoved n x (prbsSync n p s) := by
  unfold prbsSync
  exact .ite (h.modLane _ _ _) (((h.modLane _ _ _).modLane _ _ _).wrStat hp rfl _)

theorem laneTo_lanesMoved (st : Nat) (hp : p < 8) : LanesMoved n x (laneTo n p st s) := by
  unfold laneTo
  extract_lets s1 s2 s3 s4 s5
  have h1 : LanesMoved n x s1 := .ite (adaptRx_lanesMoved h hp) h
  have h2 : LanesMoved n x s2 := h1.wrStat hp rfl _
  have h3 : LanesMoved n x s3 := .ite (h2.wrStat hp rfl _) h2
  have h4 : LanesMoved n x s4 := h3.modLane _ _ _
  have h5 : LanesMoved n x s5 := .ite (h4.modLane _ _ _) h4
  exact injectEnd_lanesMoved (injectLane_lanesMoved (prbsSync_lanesMoved h5 hp) _)

theorem lanesTo_lanesMoved (mask st : Nat) : LanesMoved n x (lanesTo n mask st s) :=
  h.forUpto fun _ _ hi ha => .ite (laneTo_lanesMoved ha st hi) ha

theorem setEdge_lanesMoved (hp : p < 8) : LanesMoved n x (setEdge n p s) := h.wrStat hp rfl _

theorem holdEq_lanesMoved : LanesMoved n x (holdEq n s) := h.forUpto fun _ _ _ ha => ha.modLane _ _ _

theorem retryPositions_lanesMoved : LanesMoved n x (retryPositions n s) :=
  h.forUpto fun _ _ hi ha => .ite (ha.wrStat hi rfl _) ha

end

/-! ### A lane whose receiver adapts in its new state -/

section
variable {n p st : Nat} (ha : adapts st = true)
include ha

/-- A lane that takes a state in which its receiver adapts (R62) draws no value. -/
theorem laneTo_laneMoved (s : State) : LaneMoved n p (s.wr (Fld.PRT_LANE_STAT_STATE n p) st) (laneTo n p st s) := by
  have hpk : st ≠ laParked := by
    rintro rfl
    exact absurd ha (by decide)
  unfold laneTo
  extract_lets s1 s2 s3 s4 s5
  have h1 : s1 = s := if_neg (by simp [ha])
  have h3 : s3 = s.wr (Fld.PRT_LANE_STAT_STATE n p) st := (if_neg hpk).trans (by rw [← h1])
  have h4 : LaneMoved n p s3 s4 := (LaneMoved.refl n p s3).modLane _ fun _ => rfl
  have h5 : LaneMoved n p s3 s5 := .ite (h4.modLane _ fun _ => rfl) h4
  exact h3 ▸ injectEnd_laneMoved (injectLane_laneMoved (prbsSync_laneMoved h5))

theorem laneTo_freeIdx (s : State) : (laneTo n p st s).freeIdx = s.freeIdx := by
  rw [(laneTo_laneMoved ha s).rest]
  rfl

theorem laneTo_state (hst : st < 8) (s : State) : (laneTo n p st s).rd (Fld.PRT_LANE_STAT_STATE n p) = st := by
  rw [(laneTo_laneMoved ha s).stat _ rfl (.inl (by simp [Fld.PRT_LANE_STAT_STATE])),
    State.rd_wr_same _ _ _ (by simp [Fld.PRT_LANE_STAT_STATE])]
  exact Nat.mod_eq_of_lt hst

/-- The registers of other lanes stay. -/
theorem laneTo_regsKept (s : State) : RegsKept s (laneTo n p st s) [Off.PRT_LANE_STAT n p, Off.PRT_INJ_CTRL n] :=
  ((RegsKept.refl s _).wr (f := Fld.PRT_LANE_STAT_STATE n p) List.mem_cons_self st).trans (laneTo_laneMoved ha s).regs

theorem lanesTo_freeIdx (mask : Nat) (s : State) : (lanesTo n mask st s).freeIdx = s.freeIdx :=
  forUpto_induction (P := fun a => a.freeIdx = s.freeIdx) 8 _ s rfl fun i a _ hi => by
    split
    · exact (laneTo_freeIdx ha a).trans hi
    · exact hi

theorem lanesTo_state {mask : Nat} (hst : st < 8) (hp : p < 8) (hb : bitAt mask p = true) (s : State) :
    (lanesTo n mask st s).rd (Fld.PRT_LANE_STAT_STATE n p) = st := by
  refine forUpto_of_round (P := fun a => a.rd (Fld.PRT_LANE_STAT_STATE n p) = st) (Q := fun _ => True) _ s hp trivial
    (fun _ _ _ _ => trivial) (fun a _ => ?_) fun i a hi h8 _ hs => ?_
  · rw [if_pos hb]
    exact laneTo_state ha hst a
  · split
    · refine ((laneTo_regsKept ha a).rd ?_).trans hs
      simp [Fld.PRT_LANE_STAT_STATE, Off.PRT_LANE_STAT, Off.PRT_INJ_CTRL]
      omega
    · exact hs

end

end Sys2Proof.Machine
end

section
/-! SUPPORT. A port that begins to train (R101): T_LOCK at 8 Gb/s, then a round for each of its lanes. -/
namespace Sys2Proof.Machine
open Sys2Proof

/-! ### The link's state and cause -/

/-- A link in any state but LINK_UP shows UP = 0 (R139). -/
theorem State.rd_up_setLink (s : State) (n : Nat) {st : Nat} (h : st ≠ lsUp) : (s.setLink n st).rd (Fld.PRT_LINK_STAT_UP n) = 0 := by
  rw [State.setLink, State.rd_wr_same _ _ _ (by simp [Fld.PRT_LINK_STAT_UP]), beq_eq_false_iff_ne.mpr h]
  rfl

theorem State.rd_setLink_of_le (s : State) (n st : Nat) {f : Fld} (h : 20 ≤ f.lo) : (s.setLink n st).rd f = s.rd f := by
  rw [State.setLink, State.rd_wr_disj _ _ _ _ (by simp [Fld.PRT_LINK_STAT_UP]) (.inl (by simp only [Fld.PRT_LINK_STAT_UP]; omega))]
  exact State.rd_wr_disj _ _ _ _ (by simp [Fld.PRT_LINK_STAT_STATE]) (.inl h)

theorem State.reg_setLink_ne (s : State) (n st : Nat) {off : Nat} (h : off ≠ Off.PRT_LINK_STAT n) : (s.setLink n st).reg off = s.reg off :=
  (State.reg_wr_ne _ (Fld.PRT_LINK_STAT_UP n) _ h).trans (State.reg_wr_ne _ (Fld.PRT_LINK_STAT_STATE n) _ h)

/-! ### What is no register, port, lane or raising -/

/-- Two states have everything in common that is no register, port, lane or raising. -/
def LinkRest (x s : State) : Prop := s = { x with regs := s.regs, ports := s.ports, lanes := s.lanes, crossing := s.crossing }

theorem LinkRest.refl (s : State) : LinkRest s s := rfl

section
variable {x s t : State} (h : LinkRest x s)
include h

theorem LinkRest.trans (k : LinkRest s t) : LinkRest x t := by
  unfold LinkRest at *
  rw [h] at k
  exact k

theorem LinkRest.wr (f : Fld) (v : Nat) : LinkRest x (s.wr f v) := h.trans rfl

theorem LinkRest.setLink (n st : Nat) : LinkRest x (s.setLink n st) := (h.wr _ _).wr _ _

theorem LinkRest.modPort (n : Nat) (f : Port → Port) : LinkRest x (s.modPort n f) := h.trans rfl

theorem LinkRest.modLane (n p : Nat) (f : Lane → Lane) : LinkRest x (s.modLane n p f) := h.trans rfl

theorem LinkRest.raise (ev d : Nat) : LinkRest x (s.raise ev d) := h.trans (by rw [State.raise_eq]; rfl)

theorem LinkRest.forUpto {k : Nat} {f : Nat → State → State} (hf : ∀ i a, i < k → LinkRest x a → LinkRest x (f i a)) :
    LinkRest x (forUpto k f s) := forUpto_induction k f s h hf

/-- Where no raising set out, the raisings are in common too. -/
theorem LinkRest.of_crossing (hc : s.crossing = x.crossing) : s = { x with regs := s.regs, ports := s.ports, lanes := s.lanes } := by
  unfold LinkRest at h
  rw [hc] at h
  exact h

end

/-- Operations of lanes that draw no value. -/
theorem LanesMoved.linkRest {n : Nat} {x s : State} (h : LanesMoved n x s) (hf : s.freeIdx = x.freeIdx) : LinkRest x s := by
  have hr := h.rest
  rw [hf] at hr
  refine hr.trans ?_
  rw [h.crossing_eq]

/-! ### The rate -/

theorem setRate_linkRest {x s : State} (h : LinkRest x s) (n code : Nat) : LinkRest x (setRate n code s) :=
  LinkRest.forUpto (LinkRest.wr (LinkRest.forUpto h fun _ _ _ ha => ha.modLane _ _ _) _ _) fun _ _ _ ha => ha.wr _ _

/-- What a rate does to the grading windows of a port's lanes (R81): they go on at it. -/
def rateWindows (n : Nat) (s : State) : State :=
  forUpto 8 (fun p a => a.modLane n p (fun l => { l with
    winLeft := (match l.winFrom with | some f => l.winLeft - a.bitsIn n (a.now - f) | none => l.winLeft)
    winFrom := l.winFrom.map (fun _ => a.now) })) s

theorem setRate_eq (n code : Nat) (s : State) :
    setRate n code s = forUpto 8 (fun p a => setEdge n p a) ((rateWindows n s).wr (Fld.PRT_PHY_STAT_RATE n) code) := rfl

theorem rateWindows_lanes (n : Nat) (s : State) : rateWindows n s = { s with lanes := (rateWindows n s).lanes } :=
  forUpto_lanes (fun _ _ => rfl) s

theorem setEdges_lanesMoved {n : Nat} {x s : State} (h : LanesMoved n x s) :
    LanesMoved n x (forUpto 8 (fun p a => setEdge n p a) s) := h.forUpto fun _ _ hi ha => setEdge_lanesMoved ha hi

theorem setRate_edges (n code : Nat) (s : State) :
    LanesMoved n ((rateWindows n s).wr (Fld.PRT_PHY_STAT_RATE n) code) (setRate n code s) := by
  rw [setRate_eq]
  exact setEdges_lanesMoved (.refl n _)

theorem setRate_ports (n code : Nat) (s : State) : (setRate n code s).ports = s.ports := by
  rw [setRate_eq]
  refine forUpto_induction (P := fun a => a.ports = s.ports) 8 _ _ ?_ fun _ _ _ ha => ha
  rw [State.wr_ports, rateWindows_lanes]

theorem rd_setRate_same (n code : Nat) (s : State) : (setRate n code s).rd (Fld.PRT_PHY_STAT_RATE n) = code % 8 :=
  ((setRate_edges n code s).rd (besideLanes_phyStat n)).trans (State.rd_wr_same _ _ _ (by simp [Fld.PRT_PHY_STAT_RATE]))

theorem reg_setRate (n code : Nat) (s : State) {off : Nat} (ho : BesideLanes n off) (hp : off ≠ Off.PRT_PHY_STAT n) :
    (setRate n code s).reg off = s.reg off := by
  rw [(setRate_edges n code s).regs off ho, State.reg_wr_ne _ (Fld.PRT_PHY_STAT_RATE n) _ hp]
  exact State.reg_of_regs (by rw [rateWindows_lanes]) off

/-! ### T_LOCK -/

/-- What T_LOCK does to one lane (R101): preset 0, in training, and not usable until it locks. -/
def lockRound (n : Nat) (recov : Bool) (p : Nat) (a : State) : State :=
  let a := ((a.wr (Fld.PRT_LANE_TXEQ_PRESET n p) 0).wr (Fld.PRT_LANE_TXEQ_PRE n p) 0).wr (Fld.PRT_LANE_TXEQ_POST n p) 0
  let a := if !recov && a.rd (Fld.PRT_LANE_STAT_HEALTH n p) == 2 then a.wr (Fld.PRT_LANE_STAT_HEALTH n p) 0 else a
  let a := (laneTo n p laTraining (a.wr (Fld.PRT_LANE_STAT_USABLE n p) 0))
  a.modLane n p (fun l => { l with exitDeadline := none, presetEnd := none })

section
variable (n : Nat) (recov : Bool) {p : Nat}

/-- A round is the lane's preset, then its state, then its deadlines. -/
theorem lockRound_eq (p : Nat) (a : State) : ∃ b,
    (∀ off, off ≠ Off.PRT_LANE_STAT n p → off ≠ Off.PRT_LANE_TXEQ n p → b.reg off = a.reg off) ∧
    b.rd (Fld.PRT_LANE_TXEQ_PRESET n p) = 0 ∧ b = { a with regs := b.regs } ∧
    lockRound n recov p a = (laneTo n p laTraining b).modLane n p (fun l => { l with exitDeadline := none, presetEnd := none }) := by
  unfold lockRound
  extract_lets a1 a2
  have h1 : a1.rd (Fld.PRT_LANE_TXEQ_PRESET n p) = 0 := by
    unfold a1
    rw [State.rd_wr_disj _ _ _ _ (by simp [Fld.PRT_LANE_TXEQ_POST]) (by simp [Fld.PRT_LANE_TXEQ_POST, Fld.PRT_LANE_TXEQ_PRESET]),
      State.rd_wr_disj _ _ _ _ (by simp [Fld.PRT_LANE_TXEQ_PRE]) (by simp [Fld.PRT_LANE_TXEQ_PRE, Fld.PRT_LANE_TXEQ_PRESET]),
      State.rd_wr_same _ _ _ (by simp [Fld.PRT_LANE_TXEQ_PRESET])]
    rfl
  have hne : Off.PRT_LANE_TXEQ n p ≠ Off.PRT_LANE_STAT n p := by simp only [Off.PRT_LANE_TXEQ, Off.PRT_LANE_STAT]; omega
  have k1 : ∀ off, off ≠ Off.PRT_LANE_TXEQ n p → a1.reg off = a.reg off := fun off ho =>
    (State.reg_wr_ne _ (Fld.PRT_LANE_TXEQ_POST n p) _ ho).trans ((State.reg_wr_ne _ (Fld.PRT_LANE_TXEQ_PRE n p) _ ho).trans
      (State.reg_wr_ne _ (Fld.PRT_LANE_TXEQ_PRESET n p) _ ho))
  have k2 : ∀ off, off ≠ Off.PRT_LANE_STAT n p → a2.reg off = a1.reg off := fun off ho => by
    unfold a2
    split
    · exact State.reg_wr_ne _ (Fld.PRT_LANE_STAT_HEALTH n p) _ ho
    · rfl
  have k3 : ∀ off, off ≠ Off.PRT_LANE_STAT n p → (a2.wr (Fld.PRT_LANE_STAT_USABLE n p) 0).reg off = a1.reg off := fun off ho =>
    (State.reg_wr_ne _ (Fld.PRT_LANE_STAT_USABLE n p) _ ho).trans (k2 off ho)
  refine ⟨a2.wr (Fld.PRT_LANE_STAT_USABLE n p) 0, fun off ho ho' => (k3 off ho).trans (k1 off ho'),
    (State.rd_of_reg (k3 _ hne)).trans h1, ?_, rfl⟩
  unfold a2
  split <;> rfl

theorem lockRound_lanesMoved {x a : State} (h : LanesMoved n x a) (hp : p < 8) : LanesMoved n x (lockRound n recov p a) := by
  obtain ⟨b, hr, -, hb, he⟩ := lockRound_eq n recov p a
  have h1 : LanesMoved n x b := by
    refine ⟨fun off ho => (hr off (ho.ne_stat hp) (ho.ne_txeq hp)).trans (h.regs off ho), h.ports.of_ports (by rw [hb]), ?_,
      h.rest_of (by rw [hb])⟩
    rw [show b.port n = a.port n by rw [hb]; rfl]
    exact h.wire
  exact he ▸ (laneTo_lanesMoved h1 laTraining hp).modLane _ _ _

theorem lockRound_freeIdx (p : Nat) (a : State) : (lockRound n recov p a).freeIdx = a.freeIdx := by
  obtain ⟨b, -, -, hb, he⟩ := lockRound_eq n recov p a
  rw [he, State.modLane_freeIdx, laneTo_freeIdx rfl, hb]

/-- After its round a lane is in training with preset 0. -/
theorem lockRound_lane (p : Nat) (a : State) : (lockRound n recov p a).rd (Fld.PRT_LANE_STAT_STATE n p) = laTraining ∧
    (lockRound n recov p a).rd (Fld.PRT_LANE_TXEQ_PRESET n p) = 0 := by
  obtain ⟨b, -, hpre, -, he⟩ := lockRound_eq n recov p a
  rw [he, State.modLane_rd, State.modLane_rd, laneTo_state rfl (by decide)]
  refine ⟨rfl, ((laneTo_regsKept rfl b).rd ?_).trans hpre⟩
  simp [Fld.PRT_LANE_TXEQ_PRESET, Off.PRT_LANE_STAT, Off.PRT_INJ_CTRL]
  omega

/-- The round of one lane leaves what the round of another one brought about. -/
theorem lockRound_otherLane {i : Nat} (hi : p < i) (_ : i < 8) (a : State) {f : Fld}
    (hf : f.off = Off.PRT_LANE_STAT n p ∨ f.off = Off.PRT_LANE_TXEQ n p) : (lockRound n recov i a).rd f = a.rd f := by
  obtain ⟨b, hr, -, -, he⟩ := lockRound_eq n recov i a
  simp only [Off.PRT_LANE_STAT, Off.PRT_LANE_TXEQ] at hf hr
  rw [he, State.modLane_rd, (laneTo_regsKept rfl b).rd (by simp [Off.PRT_LANE_STAT, Off.PRT_INJ_CTRL]; omega)]
  exact State.rd_of_reg (hr _ (by omega) (by omega))

theorem lockRounds_freeIdx (s : State) : (forUpto 8 (lockRound n recov) s).freeIdx = s.freeIdx :=
  forUpto_induction (P := fun a => a.freeIdx = s.freeIdx) 8 _ s rfl fun _ a _ ha => (lockRound_freeIdx n recov _ a).trans ha

theorem lockRounds_lane (hp : p < 8) (s : State) :
    (forUpto 8 (lockRound n recov) s).rd (Fld.PRT_LANE_STAT_STATE n p) = laTraining ∧
    (forUpto 8 (lockRound n recov) s).rd (Fld.PRT_LANE_TXEQ_PRESET n p) = 0 :=
  forUpto_of_round (P := fun a => a.rd (Fld.PRT_LANE_STAT_STATE n p) = laTraining ∧ a.rd (Fld.PRT_LANE_TXEQ_PRESET n p) = 0)
    (Q := fun _ => True) (lockRound n recov) s hp trivial (fun _ _ _ _ => trivial) (fun a _ => lockRound_lane n recov p a)
    fun _ a hi h8 _ ha => ⟨(lockRound_otherLane n recov hi h8 a (.inl rfl)).trans ha.1,
      (lockRound_otherLane n recov hi h8 a (.inr rfl)).trans ha.2⟩

end

/-- A training that enters T_LOCK (R101): nothing heard yet, and 100 µs to lock. -/
def lockTrain (recov : Bool) (now maxRate : Nat) (t : Train) : Train :=
  { t with
    attempt := t.attempt + 1
    locked := 0
    got1 := 0
    got1seen := 0
    got2 := 0
    gotSds := 0
    gotEios := 0
    pRates := 0
    pUsable := 0
    pX1 := false
    deadline := some (now + 100 * tUs)
    retryAt := none
    relock := false
    recov := recov
    fullAt := none
    fallbackAt := none
    cap := if recov then t.cap else 4
    maxRate := maxRate }

/-- A port whose training enters T_LOCK, its PLL locked. -/
def lockArmed (n : Nat) (recov : Bool) (s : State) : State :=
  (s.modTrain n (lockTrain recov s.now (s.rd (Fld.PRT_PHY_CTRL_MAX_RATE n)))).wr (Fld.PRT_PHY_STAT_PLL_LOCK n) 1

/-- A port that has entered T_LOCK, before the rounds of its lanes (R101). -/
def lockBegun (n : Nat) (recov : Bool) (s : State) : State :=
  ((setRate n 0 (lockArmed n recov s)).wr (Fld.PRT_PHY_STAT_RECOVERY n) 0).setLink n lsLock

theorem enterLock_eq (n : Nat) (recov : Bool) (s : State) : enterLock n recov s = forUpto 8 (lockRound n recov) (lockBegun n recov s) := rfl

section
variable (n : Nat) (recov : Bool) (s : State)

theorem lockBegun_ports : (lockBegun n recov s).ports = (lockArmed n recov s).ports := by
  rw [lockBegun, State.setLink, State.wr_ports, State.wr_ports, State.wr_ports, setRate_ports]

theorem lockBegun_port : (lockBegun n recov s).port n =
    { s.port n with train := lockTrain recov s.now (s.rd (Fld.PRT_PHY_CTRL_MAX_RATE n)) (s.port n).train } := by
  rw [State.port, lockBegun_ports, lockArmed, State.wr_ports]
  exact State.port_modPort_same s n _

theorem lockBegun_linkRest : LinkRest s (lockBegun n recov s) :=
  ((setRate_linkRest (((LinkRest.refl s).modPort n _).wr _ 1) n 0).wr _ _).setLink n lsLock

theorem phyStat_ne_linkStat : Off.PRT_PHY_STAT n ≠ Off.PRT_LINK_STAT n := by
  simp only [Off.PRT_PHY_STAT, Off.PRT_LINK_STAT]
  omega

theorem reg_lockBegun {off : Nat} (h1 : BesideLanes n off) (h2 : off ≠ Off.PRT_PHY_STAT n) (h3 : off ≠ Off.PRT_LINK_STAT n) :
    (lockBegun n recov s).reg off = s.reg off :=
  (State.reg_setLink_ne _ _ _ h3).trans ((State.reg_wr_ne _ (Fld.PRT_PHY_STAT_RECOVERY n) _ h2).trans
    ((reg_setRate n 0 (lockArmed n recov s) h1 h2).trans (State.reg_wr_ne _ (Fld.PRT_PHY_STAT_PLL_LOCK n) _ h2)))

theorem lockBegun_link : (lockBegun n recov s).link n = lsLock ∧ (lockBegun n recov s).rd (Fld.PRT_LINK_STAT_UP n) = 0 :=
  ⟨State.link_setLink _ _ _, State.rd_up_setLink _ _ (by decide)⟩

theorem lockBegun_cause : (lockBegun n recov s).rd (Fld.PRT_LINK_STAT_CAUSE n) = s.rd (Fld.PRT_LINK_STAT_CAUSE n) := by
  have hne := (phyStat_ne_linkStat n).symm
  rw [lockBegun, State.rd_setLink_of_le _ _ _ (by simp [Fld.PRT_LINK_STAT_CAUSE]), State.rd_wr_ne _ _ _ _ hne,
    State.rd_of_reg (f := Fld.PRT_LINK_STAT_CAUSE n) (reg_setRate n 0 (lockArmed n recov s) (besideLanes_of_le _) hne), lockArmed,
    State.rd_wr_ne _ _ _ _ hne]
  · rfl
  · simp [Fld.PRT_LINK_STAT_CAUSE, Off.PRT_LINK_CTRL]

theorem lockBegun_rate : (lockBegun n recov s).rd (Fld.PRT_PHY_STAT_RATE n) = 0 := by
  rw [lockBegun, State.rd_of_reg (f := Fld.PRT_PHY_STAT_RATE n) (State.reg_setLink_ne _ _ _ (phyStat_ne_linkStat n)),
    State.rd_wr_disj _ _ _ _ (by simp [Fld.PRT_PHY_STAT_RECOVERY])
      (by simp [Fld.PRT_PHY_STAT_RECOVERY, Fld.PRT_PHY_STAT_RATE]), rd_setRate_same]

theorem lockRounds_lanesMoved : LanesMoved n (lockBegun n recov s) (enterLock n recov s) := by
  rw [enterLock_eq]
  exact (LanesMoved.refl n _).forUpto fun _ _ hi ha => lockRound_lanesMoved n recov ha hi

theorem enterLock_linkRest : LinkRest s (enterLock n recov s) :=
  (lockBegun_linkRest n recov s).trans ((lockRounds_lanesMoved n recov s).linkRest (lockRounds_freeIdx n recov _))

end

end Sys2Proof.Machine
end

section
/-! SUPPORT. What a link that goes down drops (R126, R194, R226, R231), and what its port is left with. -/
namespace Sys2Proof.Machine
open Sys2Proof

/-! ### Operations that leave raisings, queues and the links' states -/

/-- A register that is no PRT_LINK_STAT. -/
def NoLinkStat (off : Nat) : Prop := off % 0x1000 ≠ 0x304

theorem NoLinkStat.ne {off : Nat} (h : NoLinkStat off) (i : Nat) : Off.PRT_LINK_STAT i ≠ off := by
  rintro rfl
  simp only [NoLinkStat, Off.PRT_LINK_STAT] at h
  omega

theorem noLinkStat_fldRx (n : Nat) {tc : Nat} (h : tc < 4) (kind : Nat) : NoLinkStat (fldRx n tc kind).off := by
  simp only [NoLinkStat]
  unfold fldRx
  split_ifs <;> simp only [Fld.PRT_CREDIT_RX_TC_REQ, Fld.PRT_CREDIT_RX_TC_DAT, Fld.PRT_CREDIT_RX_TC_RSP] <;> omega

theorem noLinkStat_linkSeq (n : Nat) : NoLinkStat (Off.PRT_LINK_SEQ n) := by simp only [NoLinkStat, Off.PRT_LINK_SEQ]; omega

theorem noLinkStat_txnLost (n : Nat) : NoLinkStat (Off.PRT_TXN_LOST n) := by simp only [NoLinkStat, Off.PRT_TXN_LOST]; omega

theorem noLinkStat_poolRefused (n : Nat) : NoLinkStat (Off.PRT_POOL_REFUSED n) := by simp only [NoLinkStat, Off.PRT_POOL_REFUSED]; omega

theorem noLinkStat_calStat (n : Nat) : NoLinkStat (Off.PRT_CAL_STAT n) := by simp only [NoLinkStat, Off.PRT_CAL_STAT]; omega

theorem noLinkStat_eye (n : Nat) {p : Nat} (_ : p < 8) : NoLinkStat (Off.PRT_LANE_EYE n p) := by
  simp only [NoLinkStat, Off.PRT_LANE_EYE]
  omega

theorem noLinkStat_marginCfg (n : Nat) {p : Nat} (_ : p < 8) : NoLinkStat (Off.PRT_LANE_MARGIN_CFG n p) := by
  simp only [NoLinkStat, Off.PRT_LANE_MARGIN_CFG]
  omega

/-- What stands in a port's queues of data slots owed and of requests that wait for the forwarder. -/
def QueuesPart (p q : Port) : Prop := q.owedQ = p.owedQ ∧ q.fwd = p.fwd

/-- Raisings stay on their way, every link shows what it showed, and no port's queues change. -/
structure QueuesKept (x s : State) : Prop where
  raised : ∀ ev, Raised x ev → Raised s ev
  stat : ∀ i, s.reg (Off.PRT_LINK_STAT i) = x.reg (Off.PRT_LINK_STAT i)
  port : ∀ i, QueuesPart (x.port i) (s.port i)

theorem QueuesKept.refl (s : State) : QueuesKept s s := ⟨fun _ h => h, fun _ => rfl, fun _ => ⟨rfl, rfl⟩⟩

theorem QueuesKept.ite {x a b : State} {c : Prop} [Decidable c] (ha : QueuesKept x a) (hb : QueuesKept x b) :
    QueuesKept x (if c then a else b) := by
  split <;> assumption

section
variable {x s t : State} (h : QueuesKept x s)
include h

/-- Nothing that `QueuesKept` speaks of changes. -/
theorem QueuesKept.of_eq (hc : t.crossing = s.crossing) (hr : t.regs = s.regs) (hp : t.ports = s.ports) : QueuesKept x t :=
  ⟨fun ev hx => (h.raised ev hx).of_crossing hc, fun i => (State.reg_of_regs hr _).trans (h.stat i),
    fun i => by simpa only [State.port, hp] using h.port i⟩

theorem QueuesKept.raise (ev d : Nat) : QueuesKept x (s.raise ev d) :=
  ⟨fun e hx => (h.raised e hx).raise ev d, fun i => (State.raise_reg s ev d _).trans (h.stat i),
    fun i => by rw [State.raise_port]; exact h.port i⟩

theorem QueuesKept.setReg {off : Nat} (ho : NoLinkStat off) (v : Reg32) : QueuesKept x (s.setReg off v) :=
  ⟨h.raised, fun i => (State.reg_setReg_ne s off v (ho.ne i)).trans (h.stat i), h.port⟩

theorem QueuesKept.wr {f : Fld} (hf : NoLinkStat f.off) (v : Nat) : QueuesKept x (s.wr f v) := h.setReg hf _

theorem QueuesKept.modPort (n : Nat) (f : Port → Port) (hf : QueuesPart (s.port n) (f (s.port n))) : QueuesKept x (s.modPort n f) := by
  refine ⟨h.raised, h.stat, fun i => ?_⟩
  by_cases hi : i = n
  · subst hi
    obtain ⟨h1, h2⟩ := h.port i
    obtain ⟨k1, k2⟩ := hf
    rw [State.port_modPort_same]
    exact ⟨k1.trans h1, k2.trans h2⟩
  · rw [State.port_modPort_ne s n f hi]
    exact h.port i

theorem QueuesKept.modCredit (n : Nat) (f : Credit → Credit) : QueuesKept x (s.modCredit n f) := h.modPort n _ ⟨rfl, rfl⟩

theorem QueuesKept.modLane (n p : Nat) (f : Lane → Lane) : QueuesKept x (s.modLane n p f) := h.of_eq rfl rfl rfl

theorem QueuesKept.finish (m code : Nat) (pl : List Byte) : QueuesKept x (s.finish m code pl) := by
  unfold State.finish
  dsimp only
  split
  · exact h.of_eq rfl rfl rfl
  · exact h

theorem QueuesKept.forUpto {k : Nat} {f : Nat → State → State} (hf : ∀ i a, i < k → QueuesKept x a → QueuesKept x (f i a)) :
    QueuesKept x (forUpto k f s) := forUpto_induction k f s h hf

theorem QueuesKept.foldl {α : Type} (l : List α) {f : State → α → State} (hf : ∀ a e, QueuesKept x a → QueuesKept x (f a e)) :
    QueuesKept x (l.foldl f s) := List.foldlRecOn (motive := QueuesKept x) l f h fun a ha e _ => hf a e ha

/-! ### Transactions and credits of a link that goes down -/

theorem sendCredit_queuesKept (n : Nat) {tc : Nat} (ht : tc < 4) : QueuesKept x (sendCredit n tc s) := by
  unfold sendCredit
  extract_lets c q d r slot s1 s2
  have h1 : QueuesKept x s1 := (h.modPort n _ ⟨rfl, rfl⟩).wr (noLinkStat_linkSeq n) _
  have h2 : QueuesKept x s2 := ((h1.wr (noLinkStat_fldRx n ht 0) _).wr (noLinkStat_fldRx n ht 1) _).wr (noLinkStat_fldRx n ht 2) _
  exact .ite (h2.modCredit _ _) h

theorem giveBack_queuesKept (n kind k : Nat) {tc : Nat} (ht : tc < 4) : QueuesKept x (giveBack n tc kind k s) := by
  unfold giveBack
  refine .ite h ?_
  extract_lets s1
  have h1 : QueuesKept x s1 := h.modCredit _ _
  exact .ite (sendCredit_queuesKept h1 n ht) h1

theorem rspLeaves_queuesKept (via : Option Nat) (tc : BitVec 2) (rsp dat : Nat) : QueuesKept x (rspLeaves via tc.toNat rsp dat s) := by
  cases via with
  | none => exact h
  | some e => exact giveBack_queuesKept (giveBack_queuesKept h e 2 rsp tc.isLt) e 1 dat tc.isLt

theorem pushReady_queuesKept (n : Nat) (r : ReadyRsp) (dead : Bool) : QueuesKept x (pushReady n r dead s) := by
  unfold pushReady
  exact .ite (rspLeaves_queuesKept (h.wr (noLinkStat_txnLost n) _) _ _ _ _) (h.modPort n _ ⟨rfl, rfl⟩)

theorem pathDown_queuesKept (ingress serial : Nat) : QueuesKept x (pathDown ingress serial s) := by
  unfold pathDown
  split
  · exact h
  · extract_lets s1 s2
    have h1 : QueuesKept x s1 := .ite h (h.wr (noLinkStat_poolRefused ingress) _)
    have h2 : QueuesKept x s2 := pushReady_queuesKept h1 _ _ _
    exact .ite (h2.modPort _ _ ⟨rfl, rfl⟩) h2

theorem egressDown_queuesKept (n : Nat) : QueuesKept x (egressDown n s) := by
  unfold egressDown
  extract_lets cs s1
  have h1 : QueuesKept x s1 := h.modPort n _ ⟨rfl, rfl⟩
  exact h1.foldl cs fun a c ha => .ite ha (pathDown_queuesKept ha _ _)

theorem endRetune_queuesKept (n : Nat) : QueuesKept x (endRetune n s) := by
  unfold endRetune
  split
  · extract_lets s1
    have h1 : QueuesKept x s1 := .ite h (h.wr (noLinkStat_calStat n) _)
    exact (h1.finish _ _ _).modPort n _ ⟨rfl, rfl⟩
  · exact h

/-- An eye scan that ends gives its lane the margin it had (R470). -/
theorem endScans_queuesKept (n : Nat) : QueuesKept x (endScans n s) := by
  unfold endScans
  extract_lets mask s1 s2 s3
  have h1 : QueuesKept x s1 := h.forUpto fun p a hp ha => by
    refine .ite ?_ ha
    extract_lets a1 a2
    have k1 : QueuesKept x a1 := ha.wr (noLinkStat_eye n hp) _
    have k2 : QueuesKept x a2 := by
      unfold a2
      split
      · exact k1.setReg (noLinkStat_marginCfg n hp) _
      · exact k1
    exact ((k2.modLane _ _ _).modLane _ _ _).raise _ _
  have h2 : QueuesKept x s2 := h1.wr (noLinkStat_calStat n) _
  have h3 : QueuesKept x s3 := .ite (h2.wr (noLinkStat_calStat n) _) h2
  refine .ite h ?_
  split
  · exact (h3.finish _ _ _).modPort _ _ ⟨rfl, rfl⟩
  · exact h3

end

/-- The transactions that are dropped leave the port no data slot owed and no request for the forwarder (R126, R233). -/
theorem dropTxns_queues (n : Nat) (s : State) : (∀ ev, Raised s ev → Raised (dropTxns n s) ev) ∧
    (∀ i, (dropTxns n s).reg (Off.PRT_LINK_STAT i) = s.reg (Off.PRT_LINK_STAT i)) ∧
    ((dropTxns n s).port n).owedQ = [] ∧ ((dropTxns n s).port n).fwd = [] := by
  unfold dropTxns
  extract_lets p lost answered keep s1 s2 s3 s4
  have h1 : QueuesKept s1 s1 := .refl s1
  have h2 : QueuesKept s1 s2 := h1.wr (noLinkStat_txnLost n) _
  have h3 : QueuesKept s1 s3 := h2.forUpto fun e a _ ha => ha.modPort e _ ⟨rfl, rfl⟩
  have h4 : QueuesKept s1 s4 := h3.foldl _ fun a r ha => rspLeaves_queuesKept ha _ _ _ _
  obtain ⟨hr, hs, hp⟩ := h4.foldl p.txData fun a d ha => rspLeaves_queuesKept ha d.via d.tc 0 1
  obtain ⟨ho, hf⟩ := hp n
  have hport : (s1.port n).owedQ = [] ∧ (s1.port n).fwd = [] := by
    rw [State.port_setPort_same]
    exact ⟨rfl, rfl⟩
  exact ⟨fun ev hx => hr ev hx, fun i => hs i, ho.trans hport.1, hf.trans hport.2⟩

end Sys2Proof.Machine
end

section
/-! SUPPORT. A link that goes down forgets what it held (R126, R129), parks its lanes, and trains again when it may. -/
namespace Sys2Proof.Machine
open Sys2Proof

/-! ### What comes after the link's state is forgotten -/

/-- What the parking of lanes and the start of a training leave of a port that has lost its link. -/
structure AfterLoss (n : Nat) (u t : State) : Prop where
  port : t.port n = { u.port n with train := (t.port n).train, txBad := (t.port n).txBad }
  hasLink : (t.port n).train.hasLink = (u.port n).train.hasLink
  regs : ∀ off, Off.PRT_LINK_CTRL n ≤ off → off ≠ Off.PRT_LINK_STAT n → t.reg off = u.reg off
  cause : t.rd (Fld.PRT_LINK_STAT_CAUSE n) = u.rd (Fld.PRT_LINK_STAT_CAUSE n)
  crossing : t.crossing = u.crossing

theorem AfterLoss.refl (n : Nat) (s : State) : AfterLoss n s s := ⟨rfl, rfl, fun _ _ _ => rfl, rfl, rfl⟩

theorem AfterLoss.trans {n : Nat} {x s t : State} (h : AfterLoss n x s) (k : AfterLoss n s t) : AfterLoss n x t where
  port := k.port.trans (congrArg (fun q : Port => { q with train := (t.port n).train, txBad := (t.port n).txBad }) h.port)
  hasLink := k.hasLink.trans h.hasLink
  regs := fun off h1 h2 => (k.regs off h1 h2).trans (h.regs off h1 h2)
  cause := k.cause.trans h.cause
  crossing := k.crossing.trans h.crossing

theorem LanesMoved.afterLoss {n : Nat} {x s : State} (h : LanesMoved n x s) : AfterLoss n x s where
  port := by rw [h.wire]
  hasLink := by rw [h.wire]
  regs := fun off h1 _ => h.regs off (besideLanes_of_le h1)
  cause := h.rd (besideLanes_of_le (by simp [Fld.PRT_LINK_STAT_CAUSE, Off.PRT_LINK_CTRL]))
  crossing := h.crossing_eq

section
variable (n : Nat) (s : State)

theorem afterLoss_wrPhyStat {f : Fld} (hf : f.off = Off.PRT_PHY_STAT n) (v : Nat) : AfterLoss n s (s.wr f v) where
  port := rfl
  hasLink := rfl
  regs := fun off h1 _ => State.reg_wr_ne s f v (by simp only [hf, Off.PRT_PHY_STAT, Off.PRT_LINK_CTRL] at *; omega)
  cause := State.rd_wr_ne s f _ v (by simp only [hf, Off.PRT_PHY_STAT, Fld.PRT_LINK_STAT_CAUSE]; omega)
  crossing := rfl

theorem afterLoss_setLink (st : Nat) : AfterLoss n s (s.setLink n st) where
  port := rfl
  hasLink := rfl
  regs := fun _ _ h2 => State.reg_setLink_ne s n st h2
  cause := State.rd_setLink_of_le s n st (by simp [Fld.PRT_LINK_STAT_CAUSE])
  crossing := rfl

theorem parkLanes_afterLoss : AfterLoss n s (parkLanes n s) := by
  have h1 : LanesMoved n s (forUpto 8 (fun p a => a.modLane n p (fun l => { l with exitDeadline := none })) s) :=
    (LanesMoved.refl n s).forUpto fun _ _ _ ha => ha.modLane _ _ _
  have h2 := (lanesTo_lanesMoved h1 0xFF laParked).afterLoss
  have h3 := h2.trans (afterLoss_wrPhyStat n _ (f := Fld.PRT_PHY_STAT_PLL_LOCK n) rfl 0)
  exact h3.trans (afterLoss_wrPhyStat n _ (f := Fld.PRT_PHY_STAT_RECOVERY n) rfl 0)

theorem setRate_crossing (code : Nat) : (setRate n code s).crossing = s.crossing := by
  rw [setRate_eq]
  refine forUpto_induction (P := fun a => a.crossing = s.crossing) 8 _ _ ?_ fun _ _ _ ha => ha
  rw [State.wr_crossing, rateWindows_lanes]

theorem lockBegun_afterLoss (recov : Bool) : AfterLoss n s (lockBegun n recov s) where
  port := by rw [lockBegun_port]
  hasLink := by rw [lockBegun_port]; rfl
  regs := fun off h1 h2 => reg_lockBegun n recov s (besideLanes_of_le h1)
    (by simp only [Off.PRT_PHY_STAT, Off.PRT_LINK_CTRL] at *; omega) h2
  cause := lockBegun_cause n recov s
  crossing := by
    rw [lockBegun, State.setLink, State.wr_crossing, State.wr_crossing, State.wr_crossing, setRate_crossing, lockArmed, State.wr_crossing]
    rfl

theorem startTraining_afterLoss : AfterLoss n s (startTraining n s) := by
  unfold startTraining
  split
  · exact (lockBegun_afterLoss n s false).trans (lockRounds_lanesMoved n false s).afterLoss
  · exact .refl n s

/-- A port whose lanes stand in T_LOCK shows it, and that its link is not up. -/
theorem enterLock_link (recov : Bool) : (enterLock n recov s).link n = lsLock ∧
    (enterLock n recov s).rd (Fld.PRT_LINK_STAT_UP n) = 0 := by
  have h := lockRounds_lanesMoved n recov s
  have hb : BesideLanes n (Off.PRT_LINK_STAT n) := besideLanes_of_le (by simp [Off.PRT_LINK_STAT, Off.PRT_LINK_CTRL])
  obtain ⟨hl, hu⟩ := lockBegun_link n recov s
  exact ⟨(h.rd hb).trans hl, (h.rd hb).trans hu⟩

theorem startTraining_link (h : s.rd (Fld.PRT_LINK_STAT_UP n) = 0) :
    ((startTraining n s).link n = s.link n ∨ (startTraining n s).link n = lsLock) ∧
    (startTraining n s).rd (Fld.PRT_LINK_STAT_UP n) = 0 := by
  unfold startTraining
  split
  · exact ⟨.inr (enterLock_link n s false).1, (enterLock_link n s false).2⟩
  · exact ⟨.inl rfl, h⟩

end

/-! ### The link's state is forgotten -/

/-- A port whose link has been lost: no flit held, numbers and credits 0, no link state (R126, R129). -/
structure LinkForgot (n cause : Nat) (s u : State) : Prop where
  held : (u.port n).retry.held = []
  hasLink : (u.port n).train.hasLink = false
  credit : (u.port n).credit = Credit.reset
  shake : (u.port n).shake = .idle
  turnDue : (u.port n).turnDue = none
  owedQ : (u.port n).owedQ = []
  fwd : (u.port n).fwd = []
  seq : u.reg (Off.PRT_LINK_SEQ n) = 0
  credits : ∀ tc < 4, u.reg (Off.PRT_CREDIT_TX_TC n tc) = 0 ∧ u.reg (Off.PRT_CREDIT_RX_TC n tc) = 0
  cause : u.rd (Fld.PRT_LINK_STAT_CAUSE n) = cause
  raised : (s.port n).train.hasLink = true → Raised u (evPort n 7)

theorem LinkForgot.afterLoss {n cause : Nat} {s u t : State} (h : LinkForgot n cause s u) (k : AfterLoss n u t) : LinkForgot n cause s t where
  held := by rw [k.port]; exact h.held
  hasLink := k.hasLink.trans h.hasLink
  credit := by rw [k.port]; exact h.credit
  shake := by rw [k.port]; exact h.shake
  turnDue := by rw [k.port]; exact h.turnDue
  owedQ := by rw [k.port]; exact h.owedQ
  fwd := by rw [k.port]; exact h.fwd
  seq := (k.regs _ (by simp [Off.PRT_LINK_SEQ, Off.PRT_LINK_CTRL]) (by simp [Off.PRT_LINK_SEQ, Off.PRT_LINK_STAT])).trans h.seq
  credits := fun tc htc => by
    obtain ⟨h1, h2⟩ := h.credits tc htc
    refine ⟨(k.regs _ ?_ ?_).trans h1, (k.regs _ ?_ ?_).trans h2⟩ <;>
      simp only [Off.PRT_CREDIT_TX_TC, Off.PRT_CREDIT_RX_TC, Off.PRT_LINK_CTRL, Off.PRT_LINK_STAT] <;> omega
  cause := k.cause.trans h.cause
  raised := fun hl => (h.raised hl).of_crossing k.crossing

/-- The cadence unit's search for a source is no matter of ports, nor of their registers. -/
theorem cadSeek_kept (cause : Nat) (s : State) : (cadSeek cause s).ports = s.ports ∧
    (∀ off, 0x2000 ≤ off → (cadSeek cause s).reg off = s.reg off) ∧ (∀ ev, Raised s ev → Raised (cadSeek cause s) ev) := by
  unfold cadSeek
  extract_lets was s1 cad s2
  have h1 : ∀ off, 0x2000 ≤ off → s2.reg off = s.reg off := fun off ho => by
    have hne : ∀ {f : Fld}, f.off < 0x2000 → off ≠ f.off := fun hf => by omega
    exact (State.reg_wr_ne _ Fld.CAD_STAT_FW_CAUSE _ (hne (by decide))).trans ((State.reg_wr_ne _ Fld.CAD_STAT_LOCK _ (hne (by decide))).trans
      (State.reg_wr_ne _ Fld.CAD_STAT_STATE _ (hne (by decide))))
  split
  · refine ⟨by rw [State.raise_ports, State.sat_ports]; rfl, fun off ho => ?_,
      fun ev h => Raised.raise (s := s2.sat Fld.CAD_CNT_FREEWHEEL) (h.of_crossing rfl) _ _⟩
    rw [State.raise_reg, State.reg_sat_ne _ Fld.CAD_CNT_FREEWHEEL _ (by simp only [Fld.CAD_CNT_FREEWHEEL]; omega)]
    exact h1 off ho
  · exact ⟨rfl, h1, fun ev h => h.of_crossing rfl⟩

theorem LinkForgot.cadSeek {n cause : Nat} {s u : State} (h : LinkForgot n cause s u) (c : Nat) : LinkForgot n cause s (cadSeek c u) := by
  obtain ⟨hp, hr, hx⟩ := cadSeek_kept c u
  have hport : (Machine.cadSeek c u).port n = u.port n := by rw [State.port, hp]; rfl
  have hlow : ∀ {off}, Off.PRT_LINK_CTRL n ≤ off → 0x2000 ≤ off := fun ho => by simp only [Off.PRT_LINK_CTRL] at ho; omega
  have k : ∀ off, Off.PRT_LINK_CTRL n ≤ off → (Machine.cadSeek c u).reg off = u.reg off := fun off ho => hr off (hlow ho)
  refine ⟨hport ▸ h.held, hport ▸ h.hasLink, hport ▸ h.credit, hport ▸ h.shake, hport ▸ h.turnDue, hport ▸ h.owedQ, hport ▸ h.fwd,
    (k _ ?_).trans h.seq, fun tc htc => ⟨(k _ ?_).trans (h.credits tc htc).1, (k _ ?_).trans (h.credits tc htc).2⟩,
    (State.rd_of_reg (k _ ?_)).trans h.cause, fun hl => hx _ (h.raised hl)⟩ <;>
    simp only [Off.PRT_LINK_CTRL, Off.PRT_LINK_SEQ, Off.PRT_CREDIT_TX_TC, Off.PRT_CREDIT_RX_TC, Fld.PRT_LINK_STAT_CAUSE] <;> omega

/-- The registers of a port's four traffic classes cleared (R126). -/
def clearCredits (n : Nat) (s : State) : State :=
  forUpto 4 (fun tc a => (a.setReg (Off.PRT_CREDIT_TX_TC n tc) 0).setReg (Off.PRT_CREDIT_RX_TC n tc) 0) s

theorem clearCredits_regsOnly (n : Nat) (s : State) : clearCredits n s = { s with regs := (clearCredits n s).regs } :=
  forUpto_induction (P := fun a => a = { s with regs := a.regs }) 4 _ s rfl fun _ a _ ha => by
    rw [State.setReg, State.setReg, ha]

theorem clearCredits_reg_ne (n : Nat) (s : State) {off : Nat}
    (h : ∀ tc < 4, off ≠ Off.PRT_CREDIT_TX_TC n tc ∧ off ≠ Off.PRT_CREDIT_RX_TC n tc) : (clearCredits n s).reg off = s.reg off :=
  forUpto_induction (P := fun a => a.reg off = s.reg off) 4 _ s rfl fun tc a htc ha => by
    obtain ⟨h1, h2⟩ := h tc htc
    rw [State.reg_setReg_ne _ _ _ h2, State.reg_setReg_ne _ _ _ h1, ha]

theorem clearCredits_zero (n : Nat) (s : State) {tc : Nat} (htc : tc < 4) :
    (clearCredits n s).reg (Off.PRT_CREDIT_TX_TC n tc) = 0 ∧ (clearCredits n s).reg (Off.PRT_CREDIT_RX_TC n tc) = 0 := by
  refine forUpto_of_round (P := fun a => a.reg (Off.PRT_CREDIT_TX_TC n tc) = 0 ∧ a.reg (Off.PRT_CREDIT_RX_TC n tc) = 0)
    (Q := fun _ => True) _ s htc trivial (fun _ _ _ _ => trivial) (fun a _ => ⟨?_, State.reg_setReg_same _ _ _⟩)
    fun i a hi h4 _ ha => ⟨?_, ?_⟩
  · rw [State.reg_setReg_ne _ _ _ (by simp only [Off.PRT_CREDIT_TX_TC, Off.PRT_CREDIT_RX_TC]; omega)]
    exact State.reg_setReg_same _ _ _
  · rw [State.reg_setReg_ne _ _ _ (by simp only [Off.PRT_CREDIT_TX_TC, Off.PRT_CREDIT_RX_TC]; omega),
      State.reg_setReg_ne _ _ _ (by simp only [Off.PRT_CREDIT_TX_TC]; omega)]
    exact ha.1
  · rw [State.reg_setReg_ne _ _ _ (by simp only [Off.PRT_CREDIT_RX_TC]; omega),
      State.reg_setReg_ne _ _ _ (by simp only [Off.PRT_CREDIT_TX_TC, Off.PRT_CREDIT_RX_TC]; omega)]
    exact ha.2

theorem linkDown_forgets {n cause : Nat} (hc : cause < 16) (s : State) : ∃ u, LinkForgot n cause s u ∧
    linkDown n cause s = startTraining n ((parkLanes n u).setLink n lsDown) := by
  unfold linkDown
  extract_lets was s1 s2 s3 s4 s5 retry s6 s7 s8 s9 s10
  refine ⟨s9, ?_, rfl⟩
  have hq : QueuesKept s3 s5 := endRetune_queuesKept (endScans_queuesKept (egressDown_queuesKept (.refl s3) n) n) n
  obtain ⟨hraised, hstat, howed, hfwd⟩ := dropTxns_queues n s2
  obtain ⟨howed5, hfwd5⟩ := hq.port n
  have hport : s8.port n = s6.port n := by
    rw [State.port, State.setReg_ports, show s7 = clearCredits n s6 from rfl, clearCredits_regsOnly]
    rfl
  have hcross : s8.crossing = s5.crossing := by
    rw [State.setReg_crossing, show s7 = clearCredits n s6 from rfl, clearCredits_regsOnly]
    rfl
  have h6 := State.port_modPort_same s5 n
  have hseq : ∀ tc < 4, Off.PRT_CREDIT_TX_TC n tc ≠ Off.PRT_LINK_SEQ n ∧ Off.PRT_CREDIT_RX_TC n tc ≠ Off.PRT_LINK_SEQ n := fun tc htc => by
    simp only [Off.PRT_CREDIT_TX_TC, Off.PRT_CREDIT_RX_TC, Off.PRT_LINK_SEQ]
    omega
  have hne : (∀ tc < 4, Off.PRT_LINK_STAT n ≠ Off.PRT_CREDIT_TX_TC n tc ∧ Off.PRT_LINK_STAT n ≠ Off.PRT_CREDIT_RX_TC n tc) ∧
      Off.PRT_LINK_STAT n ≠ Off.PRT_LINK_SEQ n := by
    simp only [Off.PRT_CREDIT_TX_TC, Off.PRT_CREDIT_RX_TC, Off.PRT_LINK_STAT, Off.PRT_LINK_SEQ]
    exact ⟨fun tc htc => by omega, by omega⟩
  have h8 : LinkForgot n cause s s8 :=
    { held := by
        rw [hport, h6]
        rfl
      hasLink := by rw [hport, h6]
      credit := by rw [hport, h6]
      shake := by rw [hport, h6]
      turnDue := by rw [hport, h6]
      owedQ := by
        rw [hport, h6]
        exact howed5.trans howed
      fwd := by
        rw [hport, h6]
        exact hfwd5.trans hfwd
      seq := State.reg_setReg_same _ _ _
      credits := fun tc htc => by
        obtain ⟨ht, hr⟩ := hseq tc htc
        rw [State.reg_setReg_ne _ _ _ ht, State.reg_setReg_ne _ _ _ hr]
        exact clearCredits_zero n s6 htc
      cause := by
        have h3 : s8.reg (Off.PRT_LINK_STAT n) = s1.reg (Off.PRT_LINK_STAT n) := by
          rw [State.reg_setReg_ne _ _ _ hne.2, show s7 = clearCredits n s6 from rfl, clearCredits_reg_ne n s6 hne.1]
          refine (hq.stat n).trans ((hstat n).trans ?_)
          unfold s2
          split
          · exact State.raise_reg _ _ _ _
          · rfl
        rw [State.rd_of_reg (f := Fld.PRT_LINK_STAT_CAUSE n) h3, State.rd_wr_same _ _ _ (by simp [Fld.PRT_LINK_STAT_CAUSE])]
        exact Nat.mod_eq_of_lt hc
      raised := fun hl => by
        refine Raised.of_crossing (hq.raised _ (hraised _ ?_)) hcross
        rw [show s2 = s1.raise (evPort n 7) cause from if_pos hl]
        exact State.raise_sets_out _ _ _ }
  unfold s9
  split
  · exact h8.cadSeek 2
  · exact h8

/-- A link that has gone down is down, or trains again; it is not up (R126). -/
theorem linkDown_link {n cause : Nat} (hc : cause < 16) (s : State) :
    ((linkDown n cause s).link n = lsDown ∨ (linkDown n cause s).link n = lsLock) ∧
    (linkDown n cause s).rd (Fld.PRT_LINK_STAT_UP n) = 0 := by
  obtain ⟨u, -, hu⟩ := linkDown_forgets hc s
  obtain ⟨hl, hup⟩ := startTraining_link n ((parkLanes n u).setLink n lsDown) (State.rd_up_setLink _ _ (by decide))
  rw [State.link_setLink] at hl
  exact hu ▸ ⟨hl, hup⟩

theorem linkDown_forgot {n cause : Nat} (hc : cause < 16) (s : State) : LinkForgot n cause s (linkDown n cause s) := by
  obtain ⟨u, h, hu⟩ := linkDown_forgets hc s
  rw [hu]
  exact h.afterLoss (((parkLanes_afterLoss n u).trans (afterLoss_setLink n _ lsDown)).trans (startTraining_afterLoss n _))

end Sys2Proof.Machine
end

section
/-! SUPPORT. A change to one port and to some registers, one update at a time. -/
namespace Sys2Proof.Machine
open Sys2Proof

/-- A change to port n and to the registers `offs`, and to nothing else. -/
structure PortEdit (offs : List Nat) (n : Nat) (x s : State) : Prop where
  regs : RegsKept x s offs
  ports : PortsKept x s n
  rest : s = { x with regs := s.regs, ports := s.ports }

theorem PortEdit.refl (offs : List Nat) (n : Nat) (s : State) : PortEdit offs n s s := ⟨.refl _ _, .refl _ _, rfl⟩

section
variable {offs : List Nat} {n : Nat} {x s t : State} (h : PortEdit offs n x s)
include h

theorem PortEdit.trans (k : PortEdit offs n s t) : PortEdit offs n x t where
  regs := h.regs.trans k.regs
  ports := fun i hi => (k.ports i hi).trans (h.ports i hi)
  rest := by
    have hk := k.rest
    rw [h.rest] at hk
    exact hk

theorem PortEdit.setReg {off : Nat} (ho : off ∈ offs) (v : Reg32) : PortEdit offs n x (s.setReg off v) :=
  h.trans ⟨(RegsKept.refl s offs).setReg ho v, .refl _ _, rfl⟩

theorem PortEdit.wr {f : Fld} (ho : f.off ∈ offs) (v : Nat) : PortEdit offs n x (s.wr f v) := h.setReg ho _

theorem PortEdit.sat {f : Fld} (ho : f.off ∈ offs) : PortEdit offs n x (s.sat f) := h.wr ho _

theorem PortEdit.modPort (f : Port → Port) : PortEdit offs n x (s.modPort n f) :=
  h.trans ⟨.refl _ _, (PortsKept.refl s n).modPort f, rfl⟩

theorem PortEdit.modRetry (f : Retry → Retry) : PortEdit offs n x (s.modRetry n f) := h.modPort _

theorem PortEdit.modCredit (f : Credit → Credit) : PortEdit offs n x (s.modCredit n f) := h.modPort _

theorem PortEdit.setLink (ho : Off.PRT_LINK_STAT n ∈ offs) (st : Nat) : PortEdit offs n x (s.setLink n st) :=
  (h.wr (f := Fld.PRT_LINK_STAT_STATE n) ho _).wr (f := Fld.PRT_LINK_STAT_UP n) ho _

theorem PortEdit.mono {offs' : List Nat} (ho : ∀ off ∈ offs, off ∈ offs') : PortEdit offs' n x s :=
  ⟨fun off hn => h.regs off fun hm => hn (ho off hm), h.ports, h.rest⟩

theorem PortEdit.rd {f : Fld} (ho : f.off ∉ offs) : s.rd f = x.rd f := h.regs.rd ho

theorem PortEdit.up_eq (ho : Off.PRT_LINK_STAT n ∉ offs) : s.up n = x.up n := by
  rw [State.up, State.up, State.link, State.link, h.rd (f := Fld.PRT_LINK_STAT_STATE n) ho]

theorem PortEdit.now_eq : s.now = x.now := by rw [h.rest]

theorem PortEdit.crossing_eq : s.crossing = x.crossing := by rw [h.rest]

end

end Sys2Proof.Machine
end

section
/-! SUPPORT. The timers of training and recovery (R101, R102, R123, R124), a training that fails, and one that starts. -/
namespace Sys2Proof.Machine
open Sys2Proof

/-! ### The timers -/

section
variable {n : PortId} {t : Nat} {s : State}

/-- What each time limit of a training attempt does when it expires in the state it limits (R101, R102). -/
theorem exec_trainingTimeouts (h : (s.port n).train.deadline = some t) :
    (s.link n = lsLock → exec (.tLockTimeout n) s = .next
      (if (pickActive (laneMask (fun p => s.lockUsable n p))).isSome then enterConfig n (s.atLeast t)
        else trainingFailed n 8 (s.atLeast t))) ∧
    (s.link n = lsConfig → exec (.tConfigTimeout n) s = .next (trainingFailed n 8 (s.atLeast t))) ∧
    (s.link n = lsRate → exec (.tRateTimeout n) s = .next (fallBack n 8 (s.atLeast t))) ∧
    (s.link n = lsVerify → exec (.tVerifyTimeout n) s = .next (fallBack n 8 (s.atLeast t))) ∧
    (s.link n = lsStart → exec (.tStartTimeout n) s = .next (trainingFailed n 8 (s.atLeast t))) := by
  refine ⟨fun hl => ?_, fun hl => ?_, fun hl => ?_, fun hl => ?_, fun hl => ?_⟩
  · show execTLockTimeout n s = _
    simp only [execTLockTimeout, h, if_pos hl]
    rfl
  · show execTConfigTimeout n s = _
    simp only [execTConfigTimeout, h, if_pos hl]
  · show execTRateTimeout n s = _
    simp only [execTRateTimeout, h, if_pos hl]
  · show execTVerifyTimeout n s = _
    simp only [execTVerifyTimeout, h, if_pos hl]
  · show execTStartTimeout n s = _
    simp only [execTStartTimeout, h, if_pos hl]

theorem exec_trainingRetryTimer (h : (s.port n).train.retryAt = some t) (hl : (s.port n).train.hasLink = false) :
    exec (.trainingRetryTimer n) s = .next (startTraining n ((s.atLeast t).modTrain n (fun x => { x with retryAt := none }))) := by
  have hrec : ¬ ((((s.atLeast t).port n).train.recov && ((s.atLeast t).port n).train.hasLink) = true) := by
    rw [show (s.atLeast t).port n = s.port n from rfl, hl, Bool.and_false]
    exact Bool.false_ne_true
  show execTrainingRetryTimer n s = _
  simp only [execTrainingRetryTimer, h, if_neg hrec]

theorem exec_recoveryFallbackTimer (h : (s.port n).train.fallbackAt = some t) (hl : s.link n = lsRecovery) :
    exec (.recoveryFallbackTimer n) s = .next (enterLock n true (s.atLeast t)) := by
  show execRecoveryFallbackTimer n s = _
  simp only [execRecoveryFallbackTimer, h, if_pos hl, recoverFull]

theorem exec_recoveryTimeout (h : (s.port n).train.recovEnd = some t) :
    exec (.recoveryTimeout n) s = .next (linkDown n 4 (s.atLeast t)) := by
  show execRecoveryTimeout n s = _
  simp only [execRecoveryTimeout, h]

theorem exec_fullTrainingTimer (h : (s.port n).train.fullAt = some t) :
    exec (.fullTrainingTimer n) s = .next (enterLock n true (s.atLeast t)) := by
  show execFullTrainingTimer n s = _
  simp only [execFullTrainingTimer, h, recoverFull]

end

/-! ### A training attempt that fails -/

/-- An attempt that fails while the port has no link stands idle, and the next one is 1 ms away (R101). -/
theorem trainingFailed_eq {n : Nat} (cause : Nat) {s : State} (hl : (s.port n).train.hasLink = false) :
    trainingFailed n cause s = ((s.wr (Fld.PRT_LINK_STAT_CAUSE n) cause).modTrain n
      (fun t => { t with deadline := none, relock := false, retryAt := some (s.now + tMs) })).setLink n lsIdle := by
  unfold trainingFailed
  extract_lets s1 s2
  have hport : (s2.port n).train.hasLink = false := (congrArg (fun p : Port => p.train.hasLink) (State.port_modPort_same s1 n _)).trans hl
  rw [hport, Bool.and_false]
  rfl

theorem trainingFailed_waits {n cause : Nat} (hc : cause < 16) {s : State} (hl : (s.port n).train.hasLink = false) :
    let t := trainingFailed n cause s
    t.link n = lsIdle ∧ (t.port n).train.retryAt = some (s.now + tMs) ∧ (t.port n).train.deadline = none ∧
    t.rd (Fld.PRT_LINK_STAT_CAUSE n) = cause ∧ RegsKept s t [Off.PRT_LINK_STAT n] ∧ PortsKept s t n ∧
    t = { s with regs := t.regs, ports := t.ports } := by
  intro t
  have ht : t = _ := trainingFailed_eq cause hl
  have he : PortEdit [Off.PRT_LINK_STAT n] n s t := by
    rw [ht]
    exact (((PortEdit.refl _ n s).wr (f := Fld.PRT_LINK_STAT_CAUSE n) List.mem_cons_self cause).modPort _).setLink List.mem_cons_self lsIdle
  have hport : t.port n = { s.port n with train := { (s.port n).train with
      deadline := none, relock := false, retryAt := some (s.now + tMs) } } := by
    rw [ht, State.port, State.setLink, State.wr_ports, State.wr_ports]
    exact State.port_modPort_same (s.wr (Fld.PRT_LINK_STAT_CAUSE n) cause) n _
  refine ⟨?_, congrArg (fun p : Port => p.train.retryAt) hport, congrArg (fun p : Port => p.train.deadline) hport, ?_,
    he.regs, he.ports, he.rest⟩
  · rw [ht]
    exact State.link_setLink _ _ _
  · rw [ht, State.rd_setLink_of_le _ _ _ (by simp [Fld.PRT_LINK_STAT_CAUSE])]
    exact (State.rd_wr_same _ _ _ (by simp [Fld.PRT_LINK_STAT_CAUSE])).trans (Nat.mod_eq_of_lt hc)

/-! ### A training that starts -/

/-- A training that starts stands in T_LOCK at 8 Gb/s with 100 µs to lock, its lanes in training with preset 0 (R101). -/
theorem enterLock_begins (n : Nat) (s : State) :
    let t := enterLock n false s
    t.link n = lsLock ∧ t.rd (Fld.PRT_LINK_STAT_UP n) = 0 ∧ t.rd (Fld.PRT_PHY_STAT_RATE n) = 0 ∧
    (t.port n).train.deadline = some (s.now + 100 * tUs) ∧
    (t.port n).train.attempt = (s.port n).train.attempt + 1 ∧ (t.port n).train.recov = false ∧
    (∀ p, p < 8 → t.rd (Fld.PRT_LANE_STAT_STATE n p) = laTraining ∧ t.rd (Fld.PRT_LANE_TXEQ_PRESET n p) = 0) ∧
    PortsKept s t n ∧ t = { s with regs := t.regs, ports := t.ports, lanes := t.lanes } := by
  have hm := lockRounds_lanesMoved n false s
  have hport := hm.wire
  rw [lockBegun_port] at hport
  obtain ⟨hlink, hup⟩ := enterLock_link n s false
  refine ⟨hlink, hup, (hm.rd (besideLanes_phyStat n)).trans (lockBegun_rate n false s), congrArg (fun p : Port => p.train.deadline) hport,
    congrArg (fun p : Port => p.train.attempt) hport, congrArg (fun p : Port => p.train.recov) hport,
    fun p hp => lockRounds_lane n false hp _, fun i hi => ?_, ?_⟩
  · rw [hm.ports i hi, State.port, lockBegun_ports, lockArmed, State.wr_ports]
    exact State.port_modPort_ne s n _ hi
  · exact (enterLock_linkRest n false s).of_crossing (hm.crossing_eq.trans (lockBegun_afterLoss n s false).crossing)

end Sys2Proof.Machine
end

section
/-! O26. Training starts, times out and fails, and a link that goes down forgets what it held. -/
namespace Sys2Proof.Machine
open Sys2Proof

/-- Settles O26: each timer is its function at its expiry; a failed attempt waits and a started one is `lockBegun` with a round for
each lane; a link that goes down is cleared before its lanes park and its port may train again (`linkDown_forgets`), and neither
touches what was cleared. -/
theorem trainingStartsTimesOutAndFails : Obligations.TrainingStartsTimesOutAndFails := by
  unfold Obligations.TrainingStartsTimesOutAndFails
  refine ⟨fun n t s => ⟨exec_trainingTimeouts, exec_trainingRetryTimer, exec_recoveryFallbackTimer, exec_recoveryTimeout,
    exec_fullTrainingTimer⟩, ⟨fun n cause s _ hc hl => trainingFailed_waits hc hl, fun n s _ => ⟨fun hm => ?_, fun hm => ?_⟩⟩,
    fun n cause s _ hc => ?_⟩
  · exact if_neg (by rw [hm]; exact Bool.false_ne_true)
  · rw [startTraining, if_pos hm]
    exact enterLock_begins n s
  · have h := linkDown_forgot hc s (n := n)
    obtain ⟨hlink, hup⟩ := linkDown_link hc s (n := n)
    have hseq : ∀ {f : Fld}, f.off = Off.PRT_LINK_SEQ n → (linkDown n cause s).rd f = 0 := fun hf => by
      rw [State.rd, hf, h.seq]
      simp [bitsOf]
    exact ⟨h.held, h.hasLink, h.credit, h.shake, h.turnDue, h.owedQ, h.fwd, hseq rfl, hseq rfl, hseq rfl, h.credits, h.cause, hup, hlink,
      h.raised⟩

end Sys2Proof.Machine
end

section
/-! SUPPORT. A flit that is received (R49, R54, R110 to R118): its bits gathered, its check code, and its number against the one expected. -/
namespace Sys2Proof.Machine
open Sys2Proof

/-! ### The bits of the active lanes -/

theorem lt_of_mem_positions {act p : Nat} (h : p ∈ positions act) : p < 8 ∧ bitAt act p = true := by
  obtain ⟨hr, hb⟩ := List.mem_filter.mp h
  exact ⟨List.mem_range.mp hr, hb⟩

theorem mem_positions {act p : Nat} (hp : p < 8) (hb : bitAt act p = true) : p ∈ positions act :=
  List.mem_filter.mpr ⟨List.mem_range.mpr hp, hb⟩

/-- Bits of lanes that are not inverted are taken as they came. -/
theorem uninverted_zip {ps : List Nat} {lanes : List (List Bool)} {inv : Nat → Bool} (hl : lanes.length = ps.length)
    (hi : ∀ p ∈ ps, inv p = false) : (ps.zip lanes).map (fun x => x.2.map (fun b => b ^^ inv x.1)) = lanes := by
  rw [List.map_congr_left (g := Prod.snd) fun x hx => ?_]
  · exact List.map_snd_zip hl.le
  · rw [hi _ (List.of_mem_zip (a := x.1) (b := x.2) hx).1]
    simp

section
variable {n : Nat} {lanes : List (List Bool)} {s : State}

theorem gathered_straight (h : ∀ p < 8, bitAt (s.active n) p = true →
      (s.lane n p).slipped = false ∧ s.on (Fld.PRT_LANE_STAT_RX_INV n p) = false) (hl : lanes.length = (positions (s.active n)).length) : s.gathered n lanes = gatherFlit lanes := by
  have hlane : ∀ p ∈ positions (s.active n), (s.lane n p).slipped = false ∧ s.on (Fld.PRT_LANE_STAT_RX_INV n p) = false := fun p hp =>
    have ⟨hp8, hb⟩ := lt_of_mem_positions hp
    h p hp8 hb
  have hall : (positions (s.active n)).all (fun p => !(s.lane n p).slipped) = true :=
    List.all_eq_true.mpr fun p hp => by rw [(hlane p hp).1]; rfl
  refine (if_pos ⟨hl, hall⟩).trans (congrArg gatherFlit ?_)
  exact uninverted_zip (inv := fun p => s.on (Fld.PRT_LANE_STAT_RX_INV n p)) hl fun p hp => (hlane p hp).2

theorem gathered_slipped {p : Nat} (hp : p < 8) (hb : bitAt (s.active n) p = true) (hs : (s.lane n p).slipped = true) :
    s.gathered n lanes = [] := by
  refine if_neg fun ⟨_, hall⟩ => ?_
  have := List.all_eq_true.mp hall p (mem_positions hp hb)
  rw [hs] at this
  exact absurd this (by decide)

end

/-! ### The check code, the protocol and the number -/

section
variable {n : Nat} {bytes : List Byte} {s : State}

theorem recvFlit_badCrc (h : flitCrcOk bytes = false) : recvFlit n bytes s = askReplay n (s.sat (Fld.PRT_LINK_CRC_ERR_COUNT n)) :=
  if_pos (by rw [h]; rfl)

variable {f : Flit} (hf : flitOf bytes = f) (hc : flitCrcOk bytes = true)
include hf hc

theorem recvFlit_protoBad (hp : flitProtoBad f = true) : recvFlit n bytes s = askReplay n (protoError n s) := by
  subst hf
  exact (if_neg (by rw [hc]; decide)).trans (if_pos hp)

/-- A flit that keeps the protocol is taken by its type. -/
theorem recvFlit_byType (hp : flitProtoBad f = false) (ht : f.type.toNat ≠ ftNull) : recvFlit n bytes s =
    if f.type.toNat = ftReplay then startReplay n f.seq.toNat s
    else
      let d := (f.seq.toNat + 1024 - s.expect n) % 1024
      if d = 0 then acceptFlit n f s
      else if d < 512 then askReplay n (flitAck n f s)
      else flitAck n f s := by
  subst hf
  exact (if_neg (by rw [hc]; decide)).trans ((if_neg (by rw [hp]; decide)).trans (if_neg ht))

theorem recvFlit_replay (hp : flitProtoBad f = false) (ht : f.type.toNat = ftReplay) :
    recvFlit n bytes s = startReplay n f.seq.toNat s :=
  (recvFlit_byType hf hc hp (by rw [ht]; decide)).trans (if_pos ht)

/-- A DATA or CONTROL flit that carries no ACK is taken by its distance from the number expected (R113, R118). -/
theorem recvFlit_byNumber (hp : flitProtoBad f = false) (ht : f.type.toNat = ftData ∨ f.type.toNat = ftControl) (ha : f.ackP = false) :
    recvFlit n bytes s =
      let d := (f.seq.toNat + 1024 - s.expect n) % 1024
      if d = 0 then acceptFlit n f s else if d < 512 then askReplay n s else s := by
  have hn : f.type.toNat ≠ ftNull ∧ f.type.toNat ≠ ftReplay := by
    rcases ht with h | h <;> rw [h] <;> decide
  have hack : flitAck n f s = s := if_neg (by rw [ha]; decide)
  rw [recvFlit_byType hf hc hp hn.1, if_neg hn.2, hack]

theorem recvFlit_numbered (hp : flitProtoBad f = false) (ht : f.type.toNat = ftData ∨ f.type.toNat = ftControl) (ha : f.ackP = false) :
    (f.seq.toNat = s.expect n → s.expect n < 1024 → recvFlit n bytes s = acceptFlit n f s) ∧
    (∀ d, 0 < d → d < 512 → f.seq.toNat = (s.expect n + d) % 1024 → recvFlit n bytes s = askReplay n s) ∧
    (∀ d, 0 < d → d ≤ 512 → (f.seq.toNat + d) % 1024 = s.expect n → recvFlit n bytes s = s) := by
  have he : s.expect n < 1024 := s.rd_lt _
  rw [recvFlit_byNumber hf hc hp ht ha]
  refine ⟨fun h _ => if_pos (by omega), fun d h0 h1 hd => ?_, fun d h0 h1 hd => ?_⟩
  · exact (if_neg (by omega)).trans (if_pos (by omega))
  · exact (if_neg (by omega)).trans (if_neg (by omega))

end

/-! ### A flit that is accepted -/

/-- What the port notes of a flit it accepts (R113, R115). -/
def noteFlit (now : Nat) (p : Port) : Port :=
  { p with
    idleSince := now
    retry := { p.retry with
      unacked := p.retry.unacked + 1
      ackAt := match p.retry.ackAt with | some t => some t | none => some (now + tNs 100)
      askedFor := none
      askAgainAt := none
      sameAsk := none } }

theorem takeSlots_none (n age : Nat) (s : State) : takeSlots n age [] none s = s := rfl

/-- An empty flit, the first since the last ACK, is counted and leaves an ACK to send; one flit never calls for it at once (R115). -/
theorem acceptFlit_empty {n : Nat} {f : Flit} {s : State} (ha : f.ackP = false) (hs : f.slots = []) (hd : f.data = none)
    (hu : (s.port n).retry.unacked = 0) :
    acceptFlit n f s = (s.wr (Fld.PRT_LINK_SEQ_RX_EXPECT n) ((s.expect n + 1) % 1024)).modPort n (noteFlit s.now) := by
  have hack : flitAck n f s = s := if_neg (by rw [ha]; decide)
  unfold acceptFlit
  extract_lets s1 s2 s3 s4
  have h3 : s3 = (s.wr (Fld.PRT_LINK_SEQ_RX_EXPECT n) ((s.expect n + 1) % 1024)).modPort n (noteFlit s.now) := by
    unfold s3 s2 s1
    rw [hack]
    rfl
  have hun : (s3.port n).retry.unacked = 1 := by
    rw [h3, State.port_modPort_same]
    exact congrArg (· + 1) hu
  have h4 : s4 = s3 := if_neg (by omega)
  rw [hs, hd, takeSlots_none, h4, h3]

end Sys2Proof.Machine
end

section
/-! O27. A flit is checked, numbered, taken in order or asked for again. -/
namespace Sys2Proof.Machine
open Sys2Proof

/-- Settles O27: the branches of `recvFlit` are told apart by the check code, the protocol and the distance of the flit's number from the
one expected, modulo 1024. -/
theorem flitsAreCheckedAndNumbered : Obligations.FlitsAreCheckedAndNumbered := by
  unfold Obligations.FlitsAreCheckedAndNumbered
  refine fun n lanes bytes s hu => ⟨if_pos hu, gathered_straight, fun p => gathered_slipped, recvFlit_badCrc,
    fun f _ hf hc => ⟨recvFlit_protoBad hf hc, recvFlit_replay hf hc, fun hp ht ha => recvFlit_numbered hf hc hp ht ha⟩,
    fun f ha hs hd hun => ⟨_, acceptFlit_empty ha hs hd hun, ?_⟩⟩
  have he : PortEdit [Off.PRT_LINK_SEQ n] n s
      ((s.wr (Fld.PRT_LINK_SEQ_RX_EXPECT n) ((s.expect n + 1) % 1024)).modPort n (noteFlit s.now)) :=
    ((PortEdit.refl _ n s).wr (f := Fld.PRT_LINK_SEQ_RX_EXPECT n) List.mem_cons_self _).modPort _
  have hport := State.port_modPort_same (s.wr (Fld.PRT_LINK_SEQ_RX_EXPECT n) ((s.expect n + 1) % 1024)) n (noteFlit s.now)
  rw [State.wr_port] at hport
  rw [hport]
  refine ⟨?_, congrArg (· + 1) hun, fun hnone => ?_, rfl, rfl, he.regs, he.ports, he.rest⟩
  · exact (State.rd_wr_same s (Fld.PRT_LINK_SEQ_RX_EXPECT n) _ (by simp [Fld.PRT_LINK_SEQ_RX_EXPECT])).trans (Nat.mod_mod _ _)
  · rw [noteFlit, hnone]

end Sys2Proof.Machine
end

section
/-! SUPPORT. A link that enters recovery (R121, R123 to R125): what its port notes, and its lanes in training. -/
namespace Sys2Proof.Machine
open Sys2Proof

/-- A port that enters recovery: no handshake, and the time limits of the recovery run (R123, R124). -/
def recovPort (full : Bool) (now : Nat) (p : Port) : Port :=
  { p with
    shake := .idle
    shakeDeadline := none
    powerAsk := none
    train := { p.train with
      recov := true
      full := full
      got1 := 0
      got1seen := 0
      got2 := 0
      gotSds := 0
      gotEios := 0
      fallbackAt := some (now + 20 * tUs)
      recovEnd := some (now + 2 * tMs)
      fullAt := if full then some (now + 4 * tUs) else none
      awaitNull := false } }

/-- A recovery that is counted and raised, and noted by its port. -/
def recovBegun (n cause : Nat) (full : Bool) (s : State) : State :=
  ((s.sat (Fld.PRT_LINK_STAT_RECOV_CNT n)).raise (evPort n 8) cause).modPort n
    (recovPort full ((s.sat (Fld.PRT_LINK_STAT_RECOV_CNT n)).raise (evPort n 8) cause).now)

/-- A recovery that has begun, with its active lanes in training. -/
def recovTrains (n cause : Nat) (full : Bool) (s : State) : State :=
  lanesTo n ((recovBegun n cause full s).active n) laTraining ((holdEq n (recovBegun n cause full s)).setLink n lsRecovery)

theorem enterRecovery_eq {n : Nat} {s : State} (hu : s.up n = true) (cause : Nat) (full : Bool) :
    enterRecovery n cause full s = endScans n (recovTrains n cause full s) := if_pos hu

section
variable (n cause : Nat) (full : Bool) (s : State)

theorem recovBegun_port : (recovBegun n cause full s).port n = recovPort full s.now (s.port n) := by
  rw [recovBegun, State.port_modPort_same, State.raise_port, State.sat_port, State.raise_now, State.sat_now]

theorem recovBegun_raised : Raised (recovBegun n cause full s) (evPort n 8) :=
  State.raise_sets_out (s.sat (Fld.PRT_LINK_STAT_RECOV_CNT n)) (evPort n 8) cause

theorem reg_recovBegun {off : Nat} (h : off ≠ Off.PRT_LINK_STAT n) : (recovBegun n cause full s).reg off = s.reg off :=
  (State.raise_reg _ _ _ _).trans (State.reg_sat_ne s (Fld.PRT_LINK_STAT_RECOV_CNT n) 1 h)

theorem rd_recovBegun_count : (recovBegun n cause full s).rd (Fld.PRT_LINK_STAT_RECOV_CNT n) =
    min (2 ^ (Fld.PRT_LINK_STAT_RECOV_CNT n).w - 1) (s.rd (Fld.PRT_LINK_STAT_RECOV_CNT n) + 1) :=
  (State.rd_of_regs (State.raise_regs _ _ _) _).trans (State.rd_sat_same s _ 1 (by simp [Fld.PRT_LINK_STAT_RECOV_CNT]))

theorem recovTrains_lanesMoved :
    LanesMoved n ((holdEq n (recovBegun n cause full s)).setLink n lsRecovery) (recovTrains n cause full s) :=
  lanesTo_lanesMoved (.refl n _) _ _

theorem besideLanes_linkStat : BesideLanes n (Off.PRT_LINK_STAT n) :=
  besideLanes_of_le (by simp [Off.PRT_LINK_STAT, Off.PRT_LINK_CTRL])

theorem rd_setLink_recovCnt (x : State) (st : Nat) :
    (x.setLink n st).rd (Fld.PRT_LINK_STAT_RECOV_CNT n) = x.rd (Fld.PRT_LINK_STAT_RECOV_CNT n) := by
  rw [State.setLink, State.rd_wr_disj _ _ _ _ (by simp [Fld.PRT_LINK_STAT_UP]) (by simp [Fld.PRT_LINK_STAT_UP, Fld.PRT_LINK_STAT_RECOV_CNT])]
  exact State.rd_wr_disj _ _ _ _ (by simp [Fld.PRT_LINK_STAT_STATE]) (by simp [Fld.PRT_LINK_STAT_STATE, Fld.PRT_LINK_STAT_RECOV_CNT])

/-- A link whose recovery has begun shows it, and is counted and raised (R121, R137). -/
theorem recovTrains_link :
    (recovTrains n cause full s).link n = lsRecovery ∧ (recovTrains n cause full s).rd (Fld.PRT_LINK_STAT_UP n) = 0 ∧
    (recovTrains n cause full s).rd (Fld.PRT_LINK_STAT_RECOV_CNT n) =
      min (2 ^ (Fld.PRT_LINK_STAT_RECOV_CNT n).w - 1) (s.rd (Fld.PRT_LINK_STAT_RECOV_CNT n) + 1) ∧
    Raised (recovTrains n cause full s) (evPort n 8) := by
  have hm := recovTrains_lanesMoved n cause full s
  have hh := holdEq_lanesMoved (.refl n (recovBegun n cause full s))
  have hb := besideLanes_linkStat n
  refine ⟨(hm.rd hb).trans (State.link_setLink _ _ _), (hm.rd hb).trans (State.rd_up_setLink _ _ (by decide)), ?_, ?_⟩
  · rw [hm.rd (f := Fld.PRT_LINK_STAT_RECOV_CNT n) hb, rd_setLink_recovCnt,
      hh.rd (f := Fld.PRT_LINK_STAT_RECOV_CNT n) hb, rd_recovBegun_count]
  · exact ((recovBegun_raised n cause full s).of_crossing hh.crossing_eq).of_crossing hm.crossing_eq

/-- Its port has noted the recovery; only the bits inverted on the wire are not as they were. -/
theorem recovTrains_port : (recovTrains n cause full s).port n =
    { recovPort full s.now (s.port n) with txBad := ((recovTrains n cause full s).port n).txBad } := by
  have hm := (recovTrains_lanesMoved n cause full s).wire
  have hh := (holdEq_lanesMoved (.refl n (recovBegun n cause full s))).wire
  rw [State.setLink, State.wr_port, State.wr_port, hh, recovBegun_port] at hm
  exact hm

theorem recovTrains_portsKept : PortsKept s (recovTrains n cause full s) n := fun i hi => by
  rw [(recovTrains_lanesMoved n cause full s).ports i hi, State.setLink, State.wr_port, State.wr_port,
    (holdEq_lanesMoved (.refl n (recovBegun n cause full s))).ports i hi, recovBegun, State.port_modPort_ne _ _ _ hi, State.raise_port,
    State.sat_port]

theorem holdEq_linkRest (x : State) : LinkRest x (holdEq n x) := (LinkRest.refl x).forUpto fun _ _ _ ha => ha.modLane _ _ _

theorem recovTrains_linkRest : LinkRest s (recovTrains n cause full s) :=
  ((((((LinkRest.refl s).wr _ _).raise _ _).modPort n _).trans (holdEq_linkRest n _)).setLink n lsRecovery).trans
    ((recovTrains_lanesMoved n cause full s).linkRest (lanesTo_freeIdx rfl _ _))

/-- Every active lane is in training (R123). -/
theorem recovTrains_lane {p : Nat} (hp : p < 8) (hb : bitAt (s.active n) p = true) :
    (recovTrains n cause full s).rd (Fld.PRT_LANE_STAT_STATE n p) = laTraining := by
  refine lanesTo_state rfl (by decide) hp ?_ _
  rw [State.active, State.rd_of_reg (f := Fld.PRT_PHY_STAT_ACTIVE n) (reg_recovBegun n cause full s (phyStat_ne_linkStat n))]
  exact hb

end

/-! ### Eye scans that end with it -/

theorem State.finish_ports (s : State) (m code : Nat) (pl : List Byte) : (s.finish m code pl).ports = s.ports := by
  unfold State.finish
  dsimp only
  split <;> rfl

/-- The end of eye scans changes nothing of a port but whom the scan answers (R470). -/
theorem endScans_port (n i : Nat) (s : State) : (endScans n s).port i = { s.port i with scanMbx := ((endScans n s).port i).scanMbx } := by
  unfold endScans
  extract_lets mask s1 s2 s3
  have h1 : s1.ports = s.ports := forUpto_induction (P := fun a => a.ports = s.ports) 8 _ s rfl fun p a _ ha => by
    split
    · extract_lets a1 a2
      have h2 : a2.ports = a.ports := by
        unfold a2
        split <;> rfl
      rw [State.raise_ports]
      exact h2.trans ha
    · exact ha
  have h3 : s3.ports = s.ports := by
    unfold s3
    split <;> exact h1
  have hport : ∀ {t : State}, t.ports = s.ports → t.port i = s.port i := fun ht => by rw [State.port, ht]; rfl
  split
  · rfl
  · split
    · next m _ =>
      have hf := hport ((State.finish_ports s3 m ccAborted
        ((List.range 8).flatMap fun p => leBytes 4 (s3.reg (Off.PRT_LANE_EYE n p)).toNat)).trans h3)
      by_cases hi : i = n
      · subst hi
        rw [State.port_modPort_same, hf]
      · rw [State.port_modPort_ne _ _ _ hi, hf]
    · rw [hport h3]

/-- With no eye scan under way nothing ends. -/
theorem endScans_none {n : Nat} {s : State} (h : s.rd (Fld.PRT_CAL_STAT_SCANNING n) = 0) : endScans n s = s := if_pos h

/-- A recovery of a link that is up is raised and shown, keeps the retry buffer and has 2 ms (R121, R123). -/
theorem enterRecovery_begins {n : Nat} {s : State} (hu : s.up n = true) (cause : Nat) (full : Bool) :
    let t := enterRecovery n cause full s
    t.link n = lsRecovery ∧ Raised t (evPort n 8) ∧ (t.port n).retry = (s.port n).retry ∧
    (t.port n).train.recovEnd = some (s.now + 2 * tMs) := by
  rw [enterRecovery_eq hu]
  have hq := endScans_queuesKept (.refl (recovTrains n cause full s)) n
  obtain ⟨hlink, -, -, hraised⟩ := recovTrains_link n cause full s
  have hport := endScans_port n n (recovTrains n cause full s)
  rw [recovTrains_port] at hport
  refine ⟨(State.rd_of_reg (hq.stat n)).trans hlink, hq.raised _ hraised, ?_, ?_⟩
  · exact (congrArg Port.retry hport).trans rfl
  · exact (congrArg (fun p : Port => p.train.recovEnd) hport).trans rfl

end Sys2Proof.Machine
end

section
/-! SUPPORT. The retry buffer (R114 to R122): what is freed, what is sent again, and what nothing waits for. -/
namespace Sys2Proof.Machine
open Sys2Proof

/-! ### Nothing waits for the transmitter -/

theorem NothingWaits.of_port {n : Nat} {s t : State} (h : NothingWaits s n) (h1 : (t.port n).turnDue = (s.port n).turnDue)
    (h2 : (t.port n).powerAsk = (s.port n).powerAsk) (h3 : (t.port n).shake = (s.port n).shake)
    (h4 : (t.port n).credit = (s.port n).credit) : NothingWaits t n :=
  ⟨h1.trans h.turn, h2.trans h.asked, h3.trans h.shake, fun k hk => h4 ▸ h.few k hk, fun tc htc => h4 ▸ h.late tc htc⟩

theorem pump_idle {n : Nat} {s : State} (h : NothingWaits s n) : pump n s = s := by
  have hturn : sendTurn n s = s := by rw [sendTurn, h.turn]
  have hask : answerPower n s = s := by rw [answerPower, h.asked]
  unfold pump
  rw [hturn, hask]
  refine forUpto_induction (P := fun a => a = s) 4 _ s rfl fun tc a htc ha => ?_
  subst ha
  refine if_neg ?_
  have h0 := h.few tc (by omega)
  have h1 := h.few (4 + tc) (by omega)
  have h2 := h.few (8 + tc) (by omega)
  simp only [h.late tc htc]
  simp
  omega

theorem tryEnter_idle {n : Nat} {s : State} (h : (s.port n).shake = .idle) : tryEnter n s = s := by rw [tryEnter, h]

theorem sendDone_empty {n : Nat} {s : State} (h : (s.port n).msgs = []) : sendDone n s = s := by
  unfold sendDone
  rw [h]
  rfl

/-! ### Held flits are freed -/

/-- A port that frees `k` of its oldest held flits: the replay timer restarts or stops (R116, R120). -/
def freedPort (k now : Nat) (p : Port) : Port :=
  { p with retry := { p.retry with
    held := p.retry.held.drop k
    expiries := 0
    replayAt := if (p.retry.held.drop k).isEmpty then none else some (now + tUs) } }

/-- A state whose port n has freed `k` flits. -/
def freed (n k : Nat) (s : State) : State :=
  (s.modPort n (freedPort k s.now)).wr (Fld.PRT_LINK_SEQ_TX_OLDEST n) ((s.txOldest n + k) % 1024)

section
variable {n k : Nat} {s : State}

theorem freeHeld_idle (hk : 0 < k) (h : (s.port n).shake = .idle) : freeHeld n k s = freed n k s := by
  refine (if_neg (by omega)).trans (tryEnter_idle ?_)
  rw [State.wr_port, State.modRetry, State.port_modPort_same]
  exact h

theorem freed_port : (freed n k s).port n = freedPort k s.now (s.port n) := by
  rw [freed, State.wr_port, State.port_modPort_same]

theorem freed_portEdit : PortEdit [Off.PRT_LINK_SEQ n] n s (freed n k s) :=
  ((PortEdit.refl _ n s).modPort _).wr (f := Fld.PRT_LINK_SEQ_TX_OLDEST n) List.mem_cons_self _

theorem freed_txOldest : (freed n k s).txOldest n = (s.txOldest n + k) % 1024 :=
  (State.rd_wr_same _ (Fld.PRT_LINK_SEQ_TX_OLDEST n) _ (by simp [Fld.PRT_LINK_SEQ_TX_OLDEST])).trans (Nat.mod_mod _ _)

theorem NothingWaits.freed (h : NothingWaits s n) : NothingWaits (freed n k s) n := by
  refine h.of_port ?_ ?_ ?_ ?_ <;> rw [freed_port, freedPort]

end

theorem retry_modRetry (n : Nat) (f : Retry → Retry) (s : State) : ((s.modRetry n f).port n).retry = f (s.port n).retry :=
  congrArg Port.retry (State.port_modPort_same s n _)

/-! ### Counters of a port's link -/

theorem protoError_eq (n : Nat) (s : State) : protoError n s =
    { s.sat (Fld.PRT_LINK_ERR_PROTO_ERR n) with crossing := (protoError n s).crossing } := State.raise_eq _ _ _

theorem rd_protoError (n : Nat) (s : State) : (protoError n s).rd (Fld.PRT_LINK_ERR_PROTO_ERR n) =
    min (2 ^ (Fld.PRT_LINK_ERR_PROTO_ERR n).w - 1) (s.rd (Fld.PRT_LINK_ERR_PROTO_ERR n) + 1) :=
  (State.rd_of_regs (State.raise_regs _ _ _) _).trans (State.rd_sat_same s _ 1 (by simp [Fld.PRT_LINK_ERR_PROTO_ERR]))

theorem protoError_raised (n : Nat) (s : State) : Raised (protoError n s) (evPort n 12) := State.raise_sets_out _ _ _

theorem protoError_regsKept (n : Nat) (s : State) : RegsKept s (protoError n s) [Off.PRT_LINK_ERR n] :=
  ((RegsKept.refl s _).wr (f := Fld.PRT_LINK_ERR_PROTO_ERR n) List.mem_cons_self _).of_regs (State.raise_regs _ _ _)

theorem protoError_ports (n : Nat) (s : State) : (protoError n s).ports = s.ports := by
  rw [protoError, State.raise_ports, State.sat_ports]

theorem protoError_rest (n : Nat) (s : State) :
    protoError n s = { s with regs := (protoError n s).regs, crossing := (protoError n s).crossing } := by
  rw [protoError_eq]
  rfl

/-! ### ACK -/

section
variable {n : PortId} {s : State} (hu : s.up n = true)
include hu

theorem exec_ack (seq : BitVec 10) : exec (.ack n seq) s = .next (sendDone n (applyAck n seq.toNat s)) := if_pos hu

section
variable (hm : (s.port n).msgs = []) (hw : NothingWaits s n) {seq : BitVec 10}
include hm

theorem ack_again (h : (seq.toNat + 1024 - s.txOldest n + 1) % 1024 = 0) : exec (.ack n seq) s = .next s := by
  rw [exec_ack hu, applyAck, h]
  exact congrArg _ (sendDone_empty hm)

theorem ack_unsent (h : (s.txNext n + 1024 - s.txOldest n) % 1024 < (seq.toNat + 1024 - s.txOldest n + 1) % 1024) :
    exec (.ack n seq) s = .next (protoError n s) := by
  have ha : applyAck n seq.toNat s = protoError n s := (if_neg (by omega)).trans (if_neg (by omega))
  rw [exec_ack hu, ha]
  refine congrArg _ (sendDone_empty ?_)
  rw [State.port, protoError_ports]
  exact hm

include hw

theorem ack_frees (h : 0 < (seq.toNat + 1024 - s.txOldest n + 1) % 1024)
    (ho : (seq.toNat + 1024 - s.txOldest n + 1) % 1024 ≤ (s.txNext n + 1024 - s.txOldest n) % 1024) :
    exec (.ack n seq) s = .next (freed n ((seq.toNat + 1024 - s.txOldest n + 1) % 1024) s) := by
  have ha : applyAck n seq.toNat s = pump n (freeHeld n ((seq.toNat + 1024 - s.txOldest n + 1) % 1024) s) :=
    (if_neg (by omega)).trans (if_pos ho)
  rw [exec_ack hu, ha, freeHeld_idle h hw.shake, pump_idle hw.freed]
  refine congrArg _ (sendDone_empty ?_)
  rw [freed_port]
  exact hm

end

/-- A port that sends an ACK of the last flit it accepted (R114, R115). -/
def ackedPort (n : Nat) (s : State) (p : Port) : Port :=
  { p with
    txLog := p.txLog ++ [⟨0, BitVec.ofNat 10 (s.txNext n), true, [encAck ((s.expect n + 1023) % 1024)], none⟩]
    retry := { p.retry with unacked := 0, ackAt := none } }

omit hu in
theorem sendAck_port (n : Nat) (s : State) : (sendAck n s).port n = ackedPort n s (s.port n) := by
  unfold sendAck sendPlain State.modRetry
  rw [State.port_modPort_same, State.port_modPort_same]
  rfl

omit hu in
theorem sendAck_portEdit (offs : List Nat) (n : Nat) (s : State) : PortEdit offs n s (sendAck n s) := by
  unfold sendAck sendPlain
  exact ((PortEdit.refl offs n s).modPort _).modRetry _

theorem exec_ackTimer {d : Nat} (h : (s.port n).retry.ackAt = some d) : exec (.ackTimer n) s = .next (sendAck n (s.atLeast d)) := by
  show execAckTimer n s = _
  simp only [execAckTimer, h, if_pos hu]

end

/-! ### REPLAY -/

/-- A REPLAY that is received counts, and its time stands with those of the last millisecond (R119, R122). -/
def replayNoted (n : Nat) (s : State) : State :=
  (touch n (s.sat (Fld.PRT_LINK_ERR_REPLAY_RX n))).modRetry n (fun r => { r with
    rxTimes := r.rxTimes.filter (fun t => decide (s.now < t + tMs)) ++ [s.now] })

/-- The times of the REPLAYs of the last millisecond, with the one that comes now (R122). -/
def replayTimes (s : State) (n : Nat) : List Nat := (s.port n).retry.rxTimes.filter (fun t => decide (s.now < t + tMs)) ++ [s.now]

section
variable (n : Nat) (s : State)

theorem replayNoted_port : (replayNoted n s).port n =
    { s.port n with idleSince := s.now, retry := { (s.port n).retry with rxTimes := replayTimes s n } } := by
  rw [replayNoted, State.modRetry, State.port_modPort_same, touch, State.port_modPort_same, State.sat_port, State.sat_now]
  rfl

theorem replayNoted_portEdit : PortEdit [Off.PRT_LINK_ERR n] n s (replayNoted n s) :=
  (((PortEdit.refl _ n s).sat (f := Fld.PRT_LINK_ERR_REPLAY_RX n) List.mem_cons_self).modPort _).modRetry _

theorem rd_replayNoted : (replayNoted n s).rd (Fld.PRT_LINK_ERR_REPLAY_RX n) =
    min (2 ^ (Fld.PRT_LINK_ERR_REPLAY_RX n).w - 1) (s.rd (Fld.PRT_LINK_ERR_REPLAY_RX n) + 1) :=
  State.rd_sat_same s _ 1 (by simp [Fld.PRT_LINK_ERR_REPLAY_RX])

theorem replayNoted_numbers : (replayNoted n s).txOldest n = s.txOldest n ∧ (replayNoted n s).txNext n = s.txNext n :=
  have h : Off.PRT_LINK_SEQ n ≠ (Fld.PRT_LINK_ERR_REPLAY_RX n).off := by simp [Fld.PRT_LINK_ERR_REPLAY_RX, Off.PRT_LINK_SEQ]
  ⟨State.rd_sat_ne s _ (Fld.PRT_LINK_SEQ_TX_OLDEST n) 1 h, State.rd_sat_ne s _ (Fld.PRT_LINK_SEQ_TX_NEXT n) 1 h⟩

/-- A port that has sent its held flits again (R119, R120). -/
def resentPort (now : Nat) (p : Port) : Port :=
  { p with
    txLog := p.txLog ++ p.retry.held
    idleSince := if p.retry.held.isEmpty then p.idleSince else now
    train := { p.train with awaitNull := false } }

theorem resend_port : (resend n s).port n = resentPort s.now (s.port n) := State.port_modPort_same s n _

theorem resend_portEdit (offs : List Nat) : PortEdit offs n s (resend n s) := (PortEdit.refl offs n s).modPort _

variable {n s}

/-- What a port keeps when held flits are freed, or none are: all but the retry buffer and its timer. -/
theorem freeHeld_port (d : Nat) (h : (s.port n).shake = .idle) :
    (freeHeld n d s).port n = { s.port n with retry := { (s.port n).retry with
      held := (s.port n).retry.held.drop d
      expiries := ((freeHeld n d s).port n).retry.expiries
      replayAt := ((freeHeld n d s).port n).retry.replayAt } } := by
  rcases Nat.eq_zero_or_pos d with rfl | hd
  · rfl
  · rw [freeHeld_idle hd h, freed_port]
    rfl

theorem freeHeld_portEdit (d : Nat) (h : (s.port n).shake = .idle) : PortEdit [Off.PRT_LINK_SEQ n] n s (freeHeld n d s) := by
  rcases Nat.eq_zero_or_pos d with rfl | hd
  · exact .refl _ n s
  · rw [freeHeld_idle hd h]
    exact freed_portEdit

theorem freeHeld_txOldest (d : Nat) (h : (s.port n).shake = .idle) : (freeHeld n d s).txOldest n = (s.txOldest n + d) % 1024 := by
  rcases Nat.eq_zero_or_pos d with rfl | hd
  · exact (Nat.mod_eq_of_lt (s.rd_lt (Fld.PRT_LINK_SEQ_TX_OLDEST n))).symm
  · rw [freeHeld_idle hd h, freed_txOldest]

/-- The held flits from the one a REPLAY names, sent again (R119). -/
def replayed (n d : Nat) (s : State) : State := resend n (freeHeld n d (replayNoted n s))

theorem replayNoted_shake (h : (s.port n).shake = .idle) : ((replayNoted n s).port n).shake = .idle := by
  rw [replayNoted_port]
  exact h

/-- After a REPLAY the flits from the one it names are held, and have gone out again; nothing else waits for its sake (R119). -/
theorem replayed_port (d : Nat) (h : (s.port n).shake = .idle) :
    ((replayed n d s).port n).txLog = (s.port n).txLog ++ (s.port n).retry.held.drop d ∧
    ((replayed n d s).port n).retry.held = (s.port n).retry.held.drop d ∧
    ((replayed n d s).port n).retry.rxTimes = replayTimes s n ∧
    ((replayed n d s).port n).turnDue = (s.port n).turnDue ∧ ((replayed n d s).port n).powerAsk = (s.port n).powerAsk ∧
    ((replayed n d s).port n).shake = (s.port n).shake ∧ ((replayed n d s).port n).credit = (s.port n).credit := by
  have hf := freeHeld_port d (replayNoted_shake h)
  rw [replayNoted_port] at hf
  rw [replayed, resend_port, resentPort, hf]
  exact ⟨rfl, rfl, rfl, rfl, rfl, rfl, rfl⟩

theorem replayed_portEdit (d : Nat) (h : (s.port n).shake = .idle) :
    PortEdit [Off.PRT_LINK_SEQ n, Off.PRT_LINK_ERR n] n s (replayed n d s) :=
  (((replayNoted_portEdit n s).mono (by simp)).trans ((freeHeld_portEdit d (replayNoted_shake h)).mono (by simp))).trans
    (resend_portEdit n _ _)

theorem replayed_numbers (d : Nat) (h : (s.port n).shake = .idle) : (replayed n d s).txOldest n = (s.txOldest n + d) % 1024 ∧
    (replayed n d s).rd (Fld.PRT_LINK_ERR_REPLAY_RX n) =
      min (2 ^ (Fld.PRT_LINK_ERR_REPLAY_RX n).w - 1) (s.rd (Fld.PRT_LINK_ERR_REPLAY_RX n) + 1) := by
  refine ⟨?_, ?_⟩
  · refine (freeHeld_txOldest d (replayNoted_shake h)).trans ?_
    rw [(replayNoted_numbers n s).1]
  · refine ((freeHeld_portEdit d (replayNoted_shake h)).rd (f := Fld.PRT_LINK_ERR_REPLAY_RX n) ?_).trans (rd_replayNoted n s)
    simp [Fld.PRT_LINK_ERR_REPLAY_RX, Off.PRT_LINK_SEQ]

theorem NothingWaits.replayed (h : NothingWaits s n) (d : Nat) : NothingWaits (replayed n d s) n := by
  obtain ⟨-, -, -, hturn, hask, hshake, hcredit⟩ := replayed_port d h.shake
  exact h.of_port hturn hask hshake hcredit

/-- A REPLAY of a flit not sent takes the link down (R119). -/
theorem startReplay_unsent {seq : Nat} (h : (s.txNext n + 1024 - s.txOldest n) % 1024 < (seq + 1024 - s.txOldest n) % 1024) :
    startReplay n seq s = linkDown n 6 (replayNoted n s) := by
  obtain ⟨ho, hn⟩ := replayNoted_numbers n s
  refine if_pos ?_
  show ((replayNoted n s).txNext n + 1024 - (replayNoted n s).txOldest n) % 1024 < (seq + 1024 - (replayNoted n s).txOldest n) % 1024
  rw [ho, hn]
  exact h

/-- A REPLAY of a flit that is held, within the limit of REPLAYs, sends it and those after it again (R119, R122). -/
theorem startReplay_held {seq : Nat} (hw : NothingWaits s n)
    (hd : (seq + 1024 - s.txOldest n) % 1024 < (s.txNext n + 1024 - s.txOldest n) % 1024)
    (hl : (replayTimes s n).length ≤ s.rd (Fld.PRT_LINK_CTRL_REPLAY_LIMIT n)) :
    startReplay n seq s = replayed n ((seq + 1024 - s.txOldest n) % 1024) s := by
  obtain ⟨ho, hn⟩ := replayNoted_numbers n s
  unfold startReplay
  extract_lets s1 s2 d out s3 cnt
  have hd' : d = (seq + 1024 - s.txOldest n) % 1024 := by rw [← ho]; rfl
  have hout : out = (s.txNext n + 1024 - s.txOldest n) % 1024 := by rw [← ho, ← hn]; rfl
  have h3 : s3 = replayed n d s := (if_pos (by rw [hd', hout]; exact hd)).trans (pump_idle (hw.replayed d))
  have hcnt : cnt = (replayTimes s n).length := by
    obtain ⟨-, -, htimes, -⟩ := replayed_port d hw.shake
    show (s3.port n).retry.rxTimes.length = _
    rw [h3, htimes]
  have hlim : s3.rd (Fld.PRT_LINK_CTRL_REPLAY_LIMIT n) = s.rd (Fld.PRT_LINK_CTRL_REPLAY_LIMIT n) := by
    rw [h3]
    exact (replayed_portEdit d hw.shake).rd (by simp [Fld.PRT_LINK_CTRL_REPLAY_LIMIT, Off.PRT_LINK_SEQ, Off.PRT_LINK_ERR])
  rw [if_neg (by rw [hd', hout]; omega), if_neg (by rw [hlim, hcnt]; omega), h3, hd']

end

end Sys2Proof.Machine
end

section
/-! SUPPORT. The timers of the retry buffer (R118, R120, R121): held flits sent again, a REPLAY sent again, and the recovery that the
fourth in a row starts. -/
namespace Sys2Proof.Machine
open Sys2Proof

/-! ### The replay timer -/

/-- An expiry of the replay timer that is counted, the held flits sent again (R120). -/
def expired (n d : Nat) (s : State) : State := resend n ((s.atLeast d).sat (Fld.PRT_LINK_ERR_REPLAY_TO n))

/-- The timer restarted, with the expiries in a row (R120). -/
def rearmed (n k : Nat) (s : State) : State := s.modRetry n (fun r => { r with expiries := k, replayAt := some (s.now + tUs) })

section
variable {n d : Nat} {s : State}

theorem expired_port : (expired n d s).port n = resentPort (max s.now d) (s.port n) := by
  rw [expired, resend_port, State.sat_port]
  rfl

theorem expired_portEdit : PortEdit [Off.PRT_LINK_ERR n] n (s.atLeast d) (expired n d s) :=
  ((PortEdit.refl _ n (s.atLeast d)).sat (f := Fld.PRT_LINK_ERR_REPLAY_TO n) List.mem_cons_self).trans (resend_portEdit n _ _)

theorem rearmed_port (k : Nat) : (rearmed n k (expired n d s)).port n = { resentPort (max s.now d) (s.port n) with
    retry := { (s.port n).retry with expiries := k, replayAt := some (max s.now d + tUs) } } := by
  rw [rearmed, State.modRetry, State.port_modPort_same, expired_port, expired_portEdit.now_eq]
  rfl

theorem rearmed_portEdit (k : Nat) : PortEdit [Off.PRT_LINK_ERR n] n (s.atLeast d) (rearmed n k (expired n d s)) :=
  expired_portEdit.modRetry _

theorem rd_rearmed (k : Nat) : (rearmed n k (expired n d s)).rd (Fld.PRT_LINK_ERR_REPLAY_TO n) =
    min (2 ^ (Fld.PRT_LINK_ERR_REPLAY_TO n).w - 1) (s.rd (Fld.PRT_LINK_ERR_REPLAY_TO n) + 1) :=
  State.rd_sat_same (s.atLeast d) _ 1 (by simp [Fld.PRT_LINK_ERR_REPLAY_TO])

end

section
variable {n : PortId} {d : Nat} {s : State} (hu : s.up n = true)
include hu

/-- The replay timer counts its expiries in a row, and the fourth starts recovery (R120, R121). -/
theorem exec_replayTimer (h : (s.port n).retry.replayAt = some d) : exec (.replayTimer n) s =
    .next (let t := rearmed n ((s.port n).retry.expiries + 1) (expired n d s)
      if 4 ≤ (s.port n).retry.expiries + 1 then enterRecovery n 0 false (t.modRetry n (fun r => { r with expiries := 0 })) else t) := by
  have hk : ((expired n d s).port n).retry.expiries = (s.port n).retry.expiries := by
    rw [expired_port]
    rfl
  show execReplayTimer n s = _
  simp only [execReplayTimer, h, if_pos hu]
  rw [← hk]
  rfl

theorem replayTimer_resends (h : (s.port n).retry.replayAt = some d) (hk : (s.port n).retry.expiries < 3) :
    exec (.replayTimer n) s = .next (rearmed n ((s.port n).retry.expiries + 1) (expired n d s)) :=
  (exec_replayTimer hu h).trans (congrArg _ (if_neg (by omega)))

/-- The recovery that the fourth expiry in a row starts keeps the held flits (R121, R123). -/
theorem replayTimer_recovers (h : (s.port n).retry.replayAt = some d) (hk : 3 ≤ (s.port n).retry.expiries) :
    ∃ t, exec (.replayTimer n) s = .next t ∧ t.link n = lsRecovery ∧ Raised t (evPort n 8) ∧
      (t.port n).retry.expiries = 0 ∧ (t.port n).retry.held = (s.port n).retry.held ∧
      (t.port n).train.recovEnd = some (max s.now d + 2 * tMs) := by
  have he := (rearmed_portEdit (n := n) (d := d) (s := s) ((s.port n).retry.expiries + 1)).modRetry (fun r => { r with expiries := 0 })
  have hup : State.up _ n = true := (he.up_eq (by simp [Off.PRT_LINK_STAT, Off.PRT_LINK_ERR])).trans hu
  obtain ⟨hlink, hraised, hretry, hend⟩ := enterRecovery_begins hup 0 false
  rw [retry_modRetry, rearmed_port] at hretry
  rw [he.now_eq] at hend
  refine ⟨_, (exec_replayTimer hu h).trans (congrArg _ (if_pos (by omega))), hlink, hraised,
    (congrArg Retry.expiries hretry).trans rfl, (congrArg Retry.held hretry).trans rfl, hend⟩

end

/-! ### The request for a replay -/

/-- The retry state of a port that has asked for flit `e`, the `k`-th time in a row (R118, R121). -/
def askedRetry (e : BitVec 10) (k now span : Nat) (r : Retry) : Retry :=
  { r with
    askedFor := some e
    askAgainAt := some (now + tUs)
    sameAsk := some (e, k)
    noMarkerUntil := max r.noMarkerUntil (now + span) }

/-- A REPLAY of the flit expected that has gone out (R118). -/
def asked (n k : Nat) (s : State) : State :=
  let s1 := (sendPlain n ⟨3, BitVec.ofNat 10 (s.expect n), false, [], none⟩ s).sat (Fld.PRT_LINK_ERR_REPLAY_TX n)
  s1.modRetry n (askedRetry (BitVec.ofNat 10 (s.expect n)) k s1.now (s1.replaySpan n))

section
variable {n k : Nat} {s : State}

theorem asked_portEdit : PortEdit [Off.PRT_LINK_ERR n] n s (asked n k s) :=
  (((PortEdit.refl _ n s).modPort _).sat (f := Fld.PRT_LINK_ERR_REPLAY_TX n) List.mem_cons_self).modRetry _

theorem asked_port : ∃ m, (asked n k s).port n = { s.port n with
    txLog := (s.port n).txLog ++ [⟨3, BitVec.ofNat 10 (s.expect n), false, [], none⟩]
    retry := { (s.port n).retry with
      askedFor := some (BitVec.ofNat 10 (s.expect n))
      askAgainAt := some (s.now + tUs)
      sameAsk := some (BitVec.ofNat 10 (s.expect n), k)
      noMarkerUntil := m } } := by
  unfold asked
  extract_lets s1
  refine ⟨max (s.port n).retry.noMarkerUntil (s.now + s1.replaySpan n), ?_⟩
  rw [State.modRetry, State.port_modPort_same, State.sat_port, State.sat_now, sendPlain, State.port_modPort_same]
  rfl

theorem rd_asked : (asked n k s).rd (Fld.PRT_LINK_ERR_REPLAY_TX n) =
    min (2 ^ (Fld.PRT_LINK_ERR_REPLAY_TX n).w - 1) (s.rd (Fld.PRT_LINK_ERR_REPLAY_TX n) + 1) :=
  State.rd_sat_same (sendPlain n _ s) _ 1 (by simp [Fld.PRT_LINK_ERR_REPLAY_TX])

/-- With no request of the last microsecond another one goes out, and counts with those for the same flit (R118). -/
theorem requestReplay_again (ha : (s.port n).retry.askAgainAt = none)
    (hs : (s.port n).retry.sameAsk = some (BitVec.ofNat 10 (s.expect n), k)) : requestReplay n s = asked n (k + 1) s := by
  unfold requestReplay
  simp only [ha, hs, Bool.false_eq_true, and_false, if_false, if_true]
  rfl

/-- The fourth request in a row for one flit starts recovery (R121). -/
theorem askReplay_again (ha : (s.port n).retry.askAgainAt = none)
    (hs : (s.port n).retry.sameAsk = some (BitVec.ofNat 10 (s.expect n), k)) : askReplay n s =
    if 4 ≤ k + 1 then enterRecovery n 1 false ((asked n (k + 1) s).modRetry n (fun r => { r with sameAsk := none }))
    else asked n (k + 1) s := by
  obtain ⟨m, hp⟩ := asked_port (n := n) (k := k + 1) (s := s)
  have hsame : ((asked n (k + 1) s).port n).retry.sameAsk = some (BitVec.ofNat 10 (s.expect n), k + 1) := by rw [hp]
  unfold askReplay
  rw [requestReplay_again ha hs]
  simp only [hsame]

end

/-- The time limit of a request for a replay has passed. -/
def askLapsed (n d : Nat) (s : State) : State := (s.atLeast d).modRetry n (fun r => { r with askAgainAt := none })

section
variable {n : PortId} {d k : Nat} {s : State} (hu : s.up n = true) (h : (s.port n).retry.askAgainAt = some d)
  (hs : (s.port n).retry.sameAsk = some (BitVec.ofNat 10 (s.expect n), k))

theorem askLapsed_port (n d : Nat) (s : State) :
    (askLapsed n d s).port n = { s.port n with retry := { (s.port n).retry with askAgainAt := none } } := State.port_modPort_same _ n _

include hu h hs

theorem exec_replayRepeatTimer : exec (.replayRepeatTimer n) s =
    .next (if 4 ≤ k + 1 then enterRecovery n 1 false ((asked n (k + 1) (askLapsed n d s)).modRetry n (fun r => { r with sameAsk := none }))
    else asked n (k + 1) (askLapsed n d s)) := by
  have hp := askLapsed_port n d s
  have hr := askReplay_again (n := n) (k := k) (s := askLapsed n d s) (by rw [hp]) (by rw [hp]; exact hs)
  show execReplayRepeatTimer n s = _
  simp only [execReplayRepeatTimer, h, if_pos hu]
  exact congrArg _ hr

/-- A REPLAY that has had no answer is sent again (R118). -/
theorem replayRepeatTimer_asks (hk : k < 3) : ∃ t, exec (.replayRepeatTimer n) s = .next t ∧
    (t.port n).txLog = (s.port n).txLog ++ [⟨3, BitVec.ofNat 10 (s.expect n), false, [], none⟩] ∧
    (t.port n).retry.askAgainAt = some (max s.now d + tUs) ∧
    (t.port n).retry.sameAsk = some (BitVec.ofNat 10 (s.expect n), k + 1) ∧
    t.rd (Fld.PRT_LINK_ERR_REPLAY_TX n) = min (2 ^ (Fld.PRT_LINK_ERR_REPLAY_TX n).w - 1)
      (s.rd (Fld.PRT_LINK_ERR_REPLAY_TX n) + 1) ∧
    PortEdit [Off.PRT_LINK_ERR n] n (s.atLeast d) t := by
  have hl := askLapsed_port n d s
  obtain ⟨m, hp⟩ := asked_port (n := n) (k := k + 1) (s := askLapsed n d s)
  rw [hl] at hp
  refine ⟨_, (exec_replayRepeatTimer hu h hs).trans (congrArg _ (if_neg (by omega))), ?_, ?_, ?_, rd_asked, ?_⟩
  · rw [hp]
    rfl
  · rw [hp]
    rfl
  · rw [hp]
    rfl
  · exact ((PortEdit.refl _ (n : Nat) (s.atLeast d)).modRetry _).trans asked_portEdit

theorem replayRepeatTimer_recovers (hk : 3 ≤ k) : ∃ t, exec (.replayRepeatTimer n) s = .next t ∧ t.link n = lsRecovery ∧
    (t.port n).retry.sameAsk = none ∧ Raised t (evPort n 8) := by
  have he : PortEdit [Off.PRT_LINK_ERR n] n (s.atLeast d) (asked n (k + 1) (askLapsed n d s)) :=
    ((PortEdit.refl _ (n : Nat) (s.atLeast d)).modRetry _).trans asked_portEdit
  have hup : ((asked n (k + 1) (askLapsed n d s)).modRetry n (fun r => { r with sameAsk := none })).up n = true :=
    ((he.modRetry _).up_eq (by simp [Off.PRT_LINK_STAT, Off.PRT_LINK_ERR])).trans hu
  obtain ⟨hlink, hraised, hretry, -⟩ := enterRecovery_begins hup 1 false
  refine ⟨_, (exec_replayRepeatTimer hu h hs).trans (congrArg _ (if_pos (by omega))), hlink, ?_, hraised⟩
  rw [hretry, retry_modRetry]

end

end Sys2Proof.Machine
end

section
/-! O28. An acknowledge frees held flits, and a replay sends them again. -/
namespace Sys2Proof.Machine
open Sys2Proof

/-- Settles O28: where nothing waits for the transmitter, an ACK is `freed` and a REPLAY `replayed`, each a change of one port and its
sequence numbers; the fourth request or expiry in a row is `enterRecovery`. -/
theorem heldFlitsAreFreedAndSentAgain : Obligations.HeldFlitsAreFreedAndSentAgain := by
  unfold Obligations.HeldFlitsAreFreedAndSentAgain
  refine ⟨fun n seq s hu hm hw => ⟨fun h ho => ?_, ack_again hu hm, fun h => ?_, fun d hd => ?_⟩,
    fun n s hu => ⟨fun seq hw => ⟨fun hd hl => ?_, fun h => ?_⟩, fun d hd => ⟨fun hk => ?_, replayTimer_recovers hu hd⟩,
      fun d k hd hs => ⟨fun hk => ?_, replayRepeatTimer_recovers hu hd hs⟩⟩⟩
  · have he := freed_portEdit (n := (n : Nat)) (k := (seq.toNat + 1024 - s.txOldest n + 1) % 1024) (s := s)
    refine ⟨_, ack_frees hu hm hw h ho, ?_, freed_txOldest, ?_, ?_, he.regs, he.ports, he.rest⟩ <;> rw [freed_port] <;> rfl
  · exact ⟨_, ack_unsent hu hm h, rd_protoError n s, protoError_raised n s, protoError_regsKept n s, protoError_rest n s⟩
  · have he := sendAck_portEdit [] n (s.atLeast d)
    have hp := sendAck_port n (s.atLeast d)
    refine ⟨_, exec_ackTimer hu hd, by rw [hp]; rfl, by rw [hp]; rfl, by rw [hp]; rfl, he.ports, rfl⟩
  · have he := replayed_portEdit (n := (n : Nat)) (s := s) ((seq.toNat + 1024 - s.txOldest n) % 1024) hw.shake
    obtain ⟨hlog, hheld, -⟩ := replayed_port (n := (n : Nat)) (s := s) ((seq.toNat + 1024 - s.txOldest n) % 1024) hw.shake
    obtain ⟨hold, hrx⟩ := replayed_numbers (n := (n : Nat)) (s := s) ((seq.toNat + 1024 - s.txOldest n) % 1024) hw.shake
    have hlim : (replayTimes s n).length ≤ s.rd (Fld.PRT_LINK_CTRL_REPLAY_LIMIT n) := by
      rw [replayTimes, List.length_append]
      exact hl
    exact ⟨_, (if_pos hu).trans (congrArg _ (startReplay_held hw hd hlim)), hlog, hheld, hold, hrx, he.regs, he.ports, he.rest⟩
  · exact (if_pos hu).trans (congrArg _ (startReplay_unsent h))
  · have he := rearmed_portEdit (n := (n : Nat)) (d := d) (s := s) ((s.port n).retry.expiries + 1)
    have hp := rearmed_port (n := (n : Nat)) (d := d) (s := s) ((s.port n).retry.expiries + 1)
    exact ⟨_, replayTimer_resends hu hd hk, by rw [hp]; rfl, by rw [hp], by rw [hp], by rw [hp], rd_rearmed _, he.regs, he.ports, he.rest⟩
  · obtain ⟨t, ht, hlog, hat, hsame, htx, he⟩ := replayRepeatTimer_asks hu hd hs hk
    exact ⟨t, ht, hlog, hat, hsame, htx, he.regs, he.ports, he.rest⟩

end Sys2Proof.Machine
end

section
/-! SUPPORT. Credits (R127 to R132): the pools of a class, what an INIT and a return do to them, and what is sent back. -/
namespace Sys2Proof.Machine
open Sys2Proof

/-! ### The pools of a class -/

/-- The three pools of a class that the stack holds are thirds of one register. -/
theorem fldTx_eq (n tc : Nat) {k : Nat} (hk : k < 3) : fldTx n tc k = ⟨Off.PRT_CREDIT_TX_TC n tc, 10 * k, 10⟩ := by
  interval_cases k <;> rfl

theorem fldRx_eq (n tc : Nat) {k : Nat} (hk : k < 3) : fldRx n tc k = ⟨Off.PRT_CREDIT_RX_TC n tc, 10 * k, 10⟩ := by
  interval_cases k <;> rfl

section
variable (s : State) (n tc : Nat) {j k : Nat} (hj : j < 3) (hk : k < 3)
include hj hk

theorem State.rd_wr_fldTx (v : Nat) :
    (s.wr (fldTx n tc j) v).rd (fldTx n tc k) = if k = j then v % 1024 else s.rd (fldTx n tc k) := by
  split
  · next h =>
    subst h
    rw [fldTx_eq n tc hk]
    exact State.rd_wr_same _ _ _ (by simp only; omega)
  · rw [fldTx_eq n tc hk, fldTx_eq n tc hj]
    exact State.rd_wr_disj _ _ _ _ (by simp only; omega) (by simp only; omega)

theorem State.rd_wr_fldRx (v : Nat) :
    (s.wr (fldRx n tc j) v).rd (fldRx n tc k) = if k = j then v % 1024 else s.rd (fldRx n tc k) := by
  split
  · next h =>
    subst h
    rw [fldRx_eq n tc hk]
    exact State.rd_wr_same _ _ _ (by simp only; omega)
  · rw [fldRx_eq n tc hk, fldRx_eq n tc hj]
    exact State.rd_wr_disj _ _ _ _ (by simp only; omega) (by simp only; omega)

end

/-- A bit of a mask that is set is set. -/
theorem getLsbD_bitPut_true {w i : Nat} (x : BitVec w) (h : i < w) : (BitVec.ofNat w (bitPut x.toNat i true)).getLsbD i = true := by
  have hb : bitsOf (bitPut x.toNat i true) i 1 = 1 := bitsOf_bitsSet_same _ _ _ _
  rw [BitVec.getLsbD_ofNat, decide_eq_true h, Bool.true_and, Nat.testBit_eq_decide_div_mod_eq]
  exact decide_eq_true hb

/-! ### A change with raisings -/

/-- A change to port n and to the registers `offs`, with raisings that may set out. -/
structure RaiseEdit (offs : List Nat) (n : Nat) (x s : State) : Prop where
  regs : RegsKept x s offs
  ports : PortsKept x s n
  rest : s = { x with regs := s.regs, ports := s.ports, crossing := s.crossing }

theorem PortEdit.raiseEdit {offs : List Nat} {n : Nat} {x s : State} (h : PortEdit offs n x s) : RaiseEdit offs n x s where
  regs := h.regs
  ports := h.ports
  rest := by
    have hr := h.rest
    rw [h.crossing_eq]
    exact hr

theorem RaiseEdit.trans {offs : List Nat} {n : Nat} {x s t : State} (h : RaiseEdit offs n x s) (k : RaiseEdit offs n s t) :
    RaiseEdit offs n x t where
  regs := h.regs.trans k.regs
  ports := fun i hi => (k.ports i hi).trans (h.ports i hi)
  rest := by
    have hk := k.rest
    rw [h.rest] at hk
    exact hk

theorem raise_raiseEdit (offs : List Nat) (n ev d : Nat) (s : State) : RaiseEdit offs n s (s.raise ev d) where
  regs := (RegsKept.refl s offs).of_regs (State.raise_regs _ _ _)
  ports := (PortsKept.refl s n).of_ports (State.raise_ports _ _ _)
  rest := by
    rw [State.raise_eq]

theorem raise_rest (s : State) (ev d : Nat) :
    s.raise ev d = { s with ports := (s.raise ev d).ports, crossing := (s.raise ev d).crossing } := by
  rw [State.raise_ports]
  exact State.raise_eq s ev d

theorem rd_modCredit (n : Nat) (f : Credit → Credit) (s : State) (g : Fld) : (s.modCredit n f).rd g = s.rd g := rfl

theorem protoError_raiseEdit {offs : List Nat} {n : Nat} (ho : Off.PRT_LINK_ERR n ∈ offs) (s : State) : RaiseEdit offs n s (protoError n s) :=
  ((PortEdit.refl offs n s).sat (f := Fld.PRT_LINK_ERR_PROTO_ERR n) ho).raiseEdit.trans (raise_raiseEdit offs n _ _ _)

/-! ### Returned credits -/

/-- The credits of a pool of `cur` after `k` are returned: an unlimited pool is not counted, and none grows past its initial grant `g`
(R129, R131). -/
def poolAfter (g cur k : Nat) : Nat := if k = 0 ∨ cur = 0x3FF then cur else min g (cur + k)

section
variable (n : Nat) {tc : Nat} {j k : Nat} (a : Nat) (s : State)

theorem unstall_grant (i : Nat) : ((unstall n tc j s).port i).credit.grant = (s.port i).credit.grant := by
  unfold unstall State.modCredit
  by_cases hi : i = n
  · subst hi
    rw [State.port_modPort_same]
  · rw [State.port_modPort_ne _ _ _ hi]

theorem rd_protoError_fldTx {x : State} (hk : k < 3) : (protoError n x).rd (fldTx n tc k) = x.rd (fldTx n tc k) := by
  refine (protoError_regsKept n x).rd ?_
  rw [fldTx_eq n tc hk]
  simp [Off.PRT_CREDIT_TX_TC, Off.PRT_LINK_ERR]
  omega

theorem addTx_grant (i : Nat) : ((addTx n tc j a s).port i).credit.grant = (s.port i).credit.grant := by
  unfold addTx
  split
  · rfl
  · extract_lets g cur s1
    have h1 : (s1.port i).credit.grant = (s.port i).credit.grant := unstall_grant n s i
    split
    · exact h1
    · split
      · rw [State.port, protoError_ports, State.wr_ports]
        exact h1
      · exact h1

theorem addTx_raiseEdit (hj : j < 3) : RaiseEdit [Off.PRT_CREDIT_TX_TC n tc, Off.PRT_LINK_ERR n] n s (addTx n tc j a s) := by
  have hoff : (fldTx n tc j).off ∈ [Off.PRT_CREDIT_TX_TC n tc, Off.PRT_LINK_ERR n] := by
    rw [fldTx_eq n tc hj]
    exact List.mem_cons_self
  unfold addTx
  split
  · exact (PortEdit.refl _ n s).raiseEdit
  · extract_lets g cur s1
    have h1 : PortEdit [Off.PRT_CREDIT_TX_TC n tc, Off.PRT_LINK_ERR n] n s s1 := (PortEdit.refl _ n s).modCredit _
    split
    · exact h1.raiseEdit
    · split
      · exact (h1.wr hoff _).raiseEdit.trans (protoError_raiseEdit (List.mem_cons_of_mem _ List.mem_cons_self) _)
      · exact (h1.wr hoff _).raiseEdit

theorem poolAfter_lt {g cur : Nat} (hg : g < 1024) (hc : cur < 1024) : poolAfter g cur a < 1024 := by
  unfold poolAfter
  split <;> omega

theorem rd_addTx_same (hj : j < 3) : (addTx n tc j a s).rd (fldTx n tc j) =
    poolAfter (tabGet 0 (s.port n).credit.grant (4 * j + tc)) (s.rd (fldTx n tc j)) a % 1024 := by
  have hlt : s.rd (fldTx n tc j) < 1024 := by
    rw [fldTx_eq n tc hj]
    exact s.rd_lt _
  unfold addTx
  by_cases ha : a = 0
  · rw [if_pos ha, poolAfter, if_pos (Or.inl ha), Nat.mod_eq_of_lt hlt]
  · rw [if_neg ha]
    extract_lets g cur s1
    have h1 : s1.rd (fldTx n tc j) = s.rd (fldTx n tc j) := rfl
    by_cases hc : cur = 0x3FF
    · rw [if_pos hc, poolAfter, if_pos (Or.inr hc), Nat.mod_eq_of_lt hlt, h1]
    · rw [if_neg hc, poolAfter, if_neg (not_or.mpr ⟨ha, hc⟩)]
      by_cases hg : g < cur + a
      · rw [if_pos hg, rd_protoError_fldTx n hj, State.rd_wr_fldTx _ n tc hj hj, if_pos rfl, Nat.min_eq_left hg.le]
      · rw [if_neg hg, State.rd_wr_fldTx _ n tc hj hj, if_pos rfl, Nat.min_eq_right (by omega)]

/-- A return to one pool leaves the other two of its class. -/
theorem rd_addTx_ne (hj : j < 3) (hk : k < 3) (hjk : k ≠ j) : (addTx n tc j a s).rd (fldTx n tc k) = s.rd (fldTx n tc k) := by
  unfold addTx
  split
  · rfl
  · extract_lets g cur s1
    split
    · rfl
    · split
      · rw [rd_protoError_fldTx n hk, State.rd_wr_fldTx _ n tc hj hk, if_neg hjk]
        rfl
      · rw [State.rd_wr_fldTx _ n tc hj hk, if_neg hjk]
        rfl

end

section
variable {n : Nat} {c : CreditSlot} {s : State}

/-- A CREDIT slot without INIT returns to the three pools of its class (R128). -/
theorem takeCredit_returns (hi : c.init = false) : takeCredit n c s =
    addTx n c.tc.toNat 2 c.rsp.toNat (addTx n c.tc.toNat 1 c.dat.toNat (addTx n c.tc.toNat 0 c.req.toNat s)) :=
  if_neg (by rw [hi]; decide)

theorem takeCredit_raiseEdit (hi : c.init = false) :
    RaiseEdit [Off.PRT_CREDIT_TX_TC n c.tc.toNat, Off.PRT_LINK_ERR n] n s (takeCredit n c s) := by
  rw [takeCredit_returns hi]
  exact ((addTx_raiseEdit n _ _ (by decide)).trans (addTx_raiseEdit n _ _ (by decide))).trans (addTx_raiseEdit n _ _ (by decide))

/-- Each pool grows by its own return alone. -/
theorem rd_takeCredit_returns (hi : c.init = false) (hg : ∀ k < 3, tabGet 0 (s.port n).credit.grant (4 * k + c.tc.toNat) < 1024)
    {k : Nat} (hk : k < 3) : (takeCredit n c s).rd (fldTx n c.tc.toNat k) =
      poolAfter (tabGet 0 (s.port n).credit.grant (4 * k + c.tc.toNat)) (s.rd (fldTx n c.tc.toNat k))
        ([c.req.toNat, c.dat.toNat, c.rsp.toNat].getD k 0) := by
  have hlt : s.rd (fldTx n c.tc.toNat k) < 1024 := by
    rw [fldTx_eq n _ hk]
    exact s.rd_lt _
  rw [takeCredit_returns hi, ← Nat.mod_eq_of_lt (poolAfter_lt _ (hg k hk) hlt)]
  interval_cases k
  · rw [rd_addTx_ne n _ _ (by decide) (by decide) (by decide), rd_addTx_ne n _ _ (by decide) (by decide) (by decide),
      rd_addTx_same n _ _ (by decide)]
    rfl
  · rw [rd_addTx_ne n _ _ (by decide) (by decide) (by decide), rd_addTx_same n _ _ (by decide), addTx_grant,
      rd_addTx_ne n _ _ (by decide) (by decide) (by decide)]
    rfl
  · rw [rd_addTx_same n _ _ (by decide), addTx_grant, addTx_grant, rd_addTx_ne n _ _ (by decide) (by decide) (by decide),
      rd_addTx_ne n _ _ (by decide) (by decide) (by decide)]
    rfl

/-! ### INIT -/

/-- The grants of an INIT as the port notes them (R128). -/
def initPort (c : CreditSlot) (p : Port) : Port :=
  { p with credit := { p.credit with
    inited := BitVec.ofNat 4 (bitPut p.credit.inited.toNat c.tc.toNat true)
    grant := tabSet 0 (tabSet 0 (tabSet 0 p.credit.grant c.tc.toNat c.req.toNat) (4 + c.tc.toNat) c.dat.toNat)
      (8 + c.tc.toNat) c.rsp.toNat } }

/-- The three pools set to an INIT's grants (R128). -/
def initPools (n : Nat) (c : CreditSlot) (s : State) : State :=
  (((s.modPort n (initPort c)).wr (fldTx n c.tc.toNat 0) c.req.toNat).wr (fldTx n c.tc.toNat 1) c.dat.toNat).wr
    (fldTx n c.tc.toNat 2) c.rsp.toNat

theorem takeCredit_init (hi : c.init = true) (hn : (s.port n).credit.inited.getLsbD c.tc.toNat = false) : takeCredit n c s =
    forUpto 3 (fun k a => if a.hasTx n c.tc.toNat k 1 then unstall n c.tc.toNat k a else a) (initPools n c s) :=
  (if_pos hi).trans (if_neg (by rw [hn]; decide))

theorem initPools_portEdit : PortEdit [Off.PRT_CREDIT_TX_TC n c.tc.toNat] n s (initPools n c s) := by
  have hoff : ∀ k < 3, (fldTx n c.tc.toNat k).off ∈ [Off.PRT_CREDIT_TX_TC n c.tc.toNat] := fun k hk => by
    rw [fldTx_eq n _ hk]
    exact List.mem_cons_self
  exact ((((PortEdit.refl _ n s).modPort _).wr (hoff 0 (by decide)) _).wr (hoff 1 (by decide)) _).wr (hoff 2 (by decide)) _

theorem rd_initPools : (initPools n c s).rd (fldTx n c.tc.toNat 0) = c.req.toNat ∧
    (initPools n c s).rd (fldTx n c.tc.toNat 1) = c.dat.toNat ∧ (initPools n c s).rd (fldTx n c.tc.toNat 2) = c.rsp.toNat := by
  refine ⟨?_, ?_, ?_⟩
  · rw [initPools, State.rd_wr_fldTx _ n _ (by decide) (by decide), if_neg (by decide), State.rd_wr_fldTx _ n _ (by decide) (by decide),
      if_neg (by decide), State.rd_wr_fldTx _ n _ (by decide) (by decide), if_pos rfl]
    exact Nat.mod_eq_of_lt c.req.isLt
  · rw [initPools, State.rd_wr_fldTx _ n _ (by decide) (by decide), if_neg (by decide), State.rd_wr_fldTx _ n _ (by decide) (by decide),
      if_pos rfl]
    exact Nat.mod_eq_of_lt c.dat.isLt
  · rw [initPools, State.rd_wr_fldTx _ n _ (by decide) (by decide), if_pos rfl]
    exact Nat.mod_eq_of_lt c.rsp.isLt

/-- What the stack no longer waits for changes its port alone, and no register. -/
theorem unstalled_kept (n tc : Nat) (s : State) :
    let t := forUpto 3 (fun k a => if a.hasTx n tc k 1 then unstall n tc k a else a) s
    t.regs = s.regs ∧ (t.port n).credit.inited = (s.port n).credit.inited ∧ PortEdit [] n s t := by
  refine forUpto_induction (P := fun a => a.regs = s.regs ∧ (a.port n).credit.inited = (s.port n).credit.inited ∧ PortEdit [] n s a) 3 _ s
    ⟨rfl, rfl, .refl _ _ _⟩ fun k a _ ha => ?_
  obtain ⟨hr, hi, he⟩ := ha
  split
  · refine ⟨hr, ?_, he.modCredit _⟩
    rw [unstall, State.modCredit, State.port_modPort_same]
    exact hi
  · exact ⟨hr, hi, he⟩

/-- The first INIT of a class sets its three pools (R128). -/
theorem takeCredit_grants (hi : c.init = true) (hn : (s.port n).credit.inited.getLsbD c.tc.toNat = false) :
    let t := takeCredit n c s
    t.rd (fldTx n c.tc.toNat 0) = c.req.toNat ∧ t.rd (fldTx n c.tc.toNat 1) = c.dat.toNat ∧
    t.rd (fldTx n c.tc.toNat 2) = c.rsp.toNat ∧ (t.port n).credit.inited.getLsbD c.tc.toNat = true ∧
    PortEdit [Off.PRT_CREDIT_TX_TC n c.tc.toNat] n s t := by
  rw [takeCredit_init hi hn]
  obtain ⟨hregs, hinited, he⟩ := unstalled_kept n c.tc.toNat (initPools n c s)
  obtain ⟨h0, h1, h2⟩ := rd_initPools (n := n) (c := c) (s := s)
  refine ⟨(State.rd_of_regs hregs _).trans h0, (State.rd_of_regs hregs _).trans h1, (State.rd_of_regs hregs _).trans h2, ?_,
    initPools_portEdit.trans (he.mono (by simp))⟩
  rw [hinited, initPools, State.wr_port, State.wr_port, State.wr_port, State.port_modPort_same]
  exact getLsbD_bitPut_true _ c.tc.isLt

theorem takeCredit_initAgain (hi : c.init = true) (hn : (s.port n).credit.inited.getLsbD c.tc.toNat = true) :
    takeCredit n c s = protoError n s := (if_pos hi).trans (if_pos hn)

end

/-! ### Credits sent back -/

section
variable {n : Nat} {tc : BitVec 2} {s : State}

/-- The CREDIT slot of the credits pending of a class (R131). -/
def pendingSlot (p : Port) (tc : BitVec 2) : BitVec 80 :=
  encCredit ⟨BitVec.ofNat 10 (tabGet 0 p.credit.ret (8 + tc.toNat)), BitVec.ofNat 10 (tabGet 0 p.credit.ret (4 + tc.toNat)),
    BitVec.ofNat 10 (tabGet 0 p.credit.ret tc.toNat), false, tc⟩

/-- The pools granted, with the credits that are sent back (R131). -/
def grantBack (n tc q d r : Nat) (s : State) : State :=
  ((s.wr (fldRx n tc 0) (s.rd (fldRx n tc 0) + q)).wr (fldRx n tc 1) (s.rd (fldRx n tc 1) + d)).wr
    (fldRx n tc 2) (s.rd (fldRx n tc 2) + r)

/-- A class with no credits pending. -/
def noneDue (tc : Nat) (c : Credit) : Credit :=
  { c with ret := tabSet 0 (tabSet 0 (tabSet 0 c.ret tc 0) (4 + tc) 0) (8 + tc) 0, retAt := tabSet none c.retAt tc none }

/-- Credits that are pending go out in one CREDIT slot when a flit can be sent (R131). -/
theorem sendCredit_sends (hc : s.canSend n = true) (h : 0 < tabGet 0 (s.port n).credit.ret tc.toNat +
      tabGet 0 (s.port n).credit.ret (4 + tc.toNat) + tabGet 0 (s.port n).credit.ret (8 + tc.toNat)) : sendCredit n tc.toNat s =
    (grantBack n tc.toNat (tabGet 0 (s.port n).credit.ret tc.toNat) (tabGet 0 (s.port n).credit.ret (4 + tc.toNat))
      (tabGet 0 (s.port n).credit.ret (8 + tc.toNat)) (sendControl n [pendingSlot (s.port n) tc] s)).modCredit n (noneDue tc.toNat) := by
  have htc : BitVec.ofNat 2 tc.toNat = tc := by simp
  unfold sendCredit
  rw [htc]
  exact if_pos (by rw [hc, decide_eq_true h]; rfl)

theorem grantBack_portEdit (m q d r : Nat) (x : State) : PortEdit [Off.PRT_CREDIT_RX_TC n m] n x (grantBack n m q d r x) := by
  have hoff : ∀ k < 3, (fldRx n m k).off ∈ [Off.PRT_CREDIT_RX_TC n m] := fun k hk => by
    rw [fldRx_eq n _ hk]
    exact List.mem_cons_self
  exact (((PortEdit.refl _ n x).wr (hoff 0 (by decide)) _).wr (hoff 1 (by decide)) _).wr (hoff 2 (by decide)) _

theorem rd_grantBack (m q d r : Nat) (x : State) :
    (grantBack n m q d r x).rd (fldRx n m 0) = (x.rd (fldRx n m 0) + q) % 1024 ∧
    (grantBack n m q d r x).rd (fldRx n m 1) = (x.rd (fldRx n m 1) + d) % 1024 ∧
    (grantBack n m q d r x).rd (fldRx n m 2) = (x.rd (fldRx n m 2) + r) % 1024 := by
  refine ⟨?_, ?_, ?_⟩
  · rw [grantBack, State.rd_wr_fldRx _ n _ (by decide) (by decide), if_neg (by decide), State.rd_wr_fldRx _ n _ (by decide) (by decide),
      if_neg (by decide), State.rd_wr_fldRx _ n _ (by decide) (by decide), if_pos rfl]
  · rw [grantBack, State.rd_wr_fldRx _ n _ (by decide) (by decide), if_neg (by decide), State.rd_wr_fldRx _ n _ (by decide) (by decide),
      if_pos rfl]
  · rw [grantBack, State.rd_wr_fldRx _ n _ (by decide) (by decide), if_pos rfl]

/-- A control flit is sent with its number, and held (R112, R117). -/
theorem sendControl_portEdit (slots : List (BitVec 80)) (x : State) : PortEdit [Off.PRT_LINK_SEQ n] n x (sendControl n slots x) :=
  ((PortEdit.refl _ n x).modPort _).wr (f := Fld.PRT_LINK_SEQ_TX_NEXT n) List.mem_cons_self _

theorem sendControl_port (slots : List (BitVec 80)) (x : State) :
    ((sendControl n slots x).port n).txLog = (x.port n).txLog ++ [⟨2, BitVec.ofNat 10 (x.txNext n), false, slots, none⟩] ∧
    ((sendControl n slots x).port n).credit = (x.port n).credit := by
  rw [sendControl, sendFlit, State.wr_port, State.port_modPort_same]
  exact ⟨rfl, rfl⟩

theorem grantBack_port (m q d r : Nat) (x : State) : (grantBack n m q d r x).port n = x.port n := by
  rw [grantBack, State.wr_port, State.wr_port, State.wr_port]

theorem noneDue_ret (m : Nat) (c : Credit) : tabGet 0 (noneDue m c).ret m = 0 ∧ tabGet none (noneDue m c).retAt m = none := by
  refine ⟨?_, tabGet_tabSet_same _ _ _ _⟩
  rw [noneDue, tabGet_tabSet_ne _ _ _ _ (by omega), tabGet_tabSet_ne _ _ _ _ (by omega), tabGet_tabSet_same]

end

section
variable {n : PortId} {s : State}

/-- 100 ns after a credit became pending the CREDIT slot of its class goes out (R131). -/
theorem creditReturnTimer_sends {tc : BitVec 2} {d : Nat} (h : tabGet none (s.port n).credit.retAt tc.toNat = some d)
    (hc : s.canSend n = true) (hp : 0 < tabGet 0 (s.port n).credit.ret tc.toNat + tabGet 0 (s.port n).credit.ret (4 + tc.toNat) +
      tabGet 0 (s.port n).credit.ret (8 + tc.toNat)) : exec (.creditReturnTimer n tc) s = .next
    ((grantBack n tc.toNat (tabGet 0 (s.port n).credit.ret tc.toNat) (tabGet 0 (s.port n).credit.ret (4 + tc.toNat))
      (tabGet 0 (s.port n).credit.ret (8 + tc.toNat)) (sendControl n [pendingSlot (s.port n) tc] (s.atLeast d))).modCredit n
        (noneDue tc.toNat)) := by
  show execCreditReturnTimer n tc s = _
  simp only [execCreditReturnTimer, h]
  exact congrArg _ (sendCredit_sends (n := n) (s := s.atLeast d) hc hp)

/-- A pool that has waited 1 ms raises its event, and not again (R132). -/
theorem creditStallTimer_raises {pool : Fin 3} {tc : BitVec 2} {d : Nat}
    (h : tabGet none (s.port n).credit.stall (4 * pool.val + tc.toNat) = some d)
    (hs : (s.port n).credit.stalled.getLsbD (4 * pool.val + tc.toNat) = false) : exec (.creditStallTimer n pool tc) s = .next
    (((s.atLeast (d + tMs)).modCredit n (fun c => { c with
      stalled := BitVec.ofNat 12 (bitPut c.stalled.toNat (4 * pool.val + tc.toNat) true) })).raise (evPort n 11) (tc.toNat + 4 * pool.val)) := by
  show execCreditStallTimer n pool tc s = _
  simp only [execCreditStallTimer, h, hs, Bool.false_eq_true, if_false]

end

end Sys2Proof.Machine
end

section
/-! O29. Credits are granted once, returned, and supervised. -/
namespace Sys2Proof.Machine
open Sys2Proof

/-- Settles O29: the three pools of a class are three fields of one register, so that each of an INIT, a return and a CREDIT slot sent
changes them one by one (`rd_initPools`, `rd_addTx_same`, `rd_grantBack`). -/
theorem creditsAreGrantedAndReturned : Obligations.CreditsAreGrantedAndReturned := by
  unfold Obligations.CreditsAreGrantedAndReturned
  refine fun n s => ⟨fun c hu => if_pos hu, fun c hi hn => ?_, fun c hi hn => takeCredit_initAgain hi hn, fun c hi hg => ?_,
    fun tc d h => ?_, fun pool tc d h hs => ?_⟩
  · obtain ⟨h0, h1, h2, hin, he⟩ := takeCredit_grants hi hn
    exact ⟨h0, h1, h2, hin, he.regs, he.ports, he.rest⟩
  · have he := takeCredit_raiseEdit (n := n) (s := s) hi
    exact ⟨fun k hk => rd_takeCredit_returns hi hg hk, he.regs, he.ports, he.rest⟩
  · intro q e r hc hp
    have hs := sendControl_portEdit (n := n) [pendingSlot (s.port n) tc] (s.atLeast d)
    have hg := grantBack_portEdit (n := n) tc.toNat q e r (sendControl n [pendingSlot (s.port n) tc] (s.atLeast d))
    have he := ((hs.mono (offs' := [Off.PRT_CREDIT_RX_TC n tc.toNat, Off.PRT_LINK_SEQ n]) (by simp)).trans
      (hg.mono (by simp))).modCredit (noneDue tc.toNat)
    obtain ⟨h0, h1, h2⟩ := rd_grantBack (n := n) tc.toNat q e r (sendControl n [pendingSlot (s.port n) tc] (s.atLeast d))
    obtain ⟨hlog, hcredit⟩ := sendControl_port (n := n) [pendingSlot (s.port n) tc] (s.atLeast d)
    have hrx : ∀ k < 3, (sendControl n [pendingSlot (s.port n) tc] (s.atLeast d)).rd (fldRx n tc.toNat k) = s.rd (fldRx n tc.toNat k) :=
      fun k hk => by
        refine hs.rd ?_
        rw [fldRx_eq n _ hk]
        simp [Off.PRT_CREDIT_RX_TC, Off.PRT_LINK_SEQ]
        omega
    have hport := State.port_modPort_same (grantBack n tc.toNat q e r (sendControl n [pendingSlot (s.port n) tc] (s.atLeast d))) n
      (fun p => { p with credit := noneDue tc.toNat p.credit })
    rw [grantBack_port] at hport
    obtain ⟨hret, hat⟩ := noneDue_ret tc.toNat ((sendControl n [pendingSlot (s.port n) tc] (s.atLeast d)).port n).credit
    exact ⟨_, creditReturnTimer_sends h hc hp, (congrArg Port.txLog hport).trans hlog,
      (rd_modCredit n _ _ _).trans (h0.trans (by rw [hrx 0 (by decide)])),
      (rd_modCredit n _ _ _).trans (h1.trans (by rw [hrx 1 (by decide)])),
      (rd_modCredit n _ _ _).trans (h2.trans (by rw [hrx 2 (by decide)])),
      (congrArg (fun p : Port => tabGet 0 p.credit.ret tc.toNat) hport).trans hret,
      (congrArg (fun p : Port => tabGet none p.credit.retAt tc.toNat) hport).trans hat, he.regs, he.ports, he.rest⟩
  · have he := ((PortEdit.refl [] (n : Nat) (s.atLeast (d + tMs))).modCredit (fun c => { c with
      stalled := BitVec.ofNat 12 (bitPut c.stalled.toNat (4 * pool.val + tc.toNat) true) })).raiseEdit.trans
        (raise_raiseEdit [] n (evPort n 11) (tc.toNat + 4 * pool.val) _)
    refine ⟨_, creditStallTimer_raises h hs, ?_, State.raise_sets_out _ _ _, State.raise_regs _ _ _, he.ports,
      (raise_rest _ _ _).trans rfl⟩
    rw [State.raise_port, State.modCredit, State.port_modPort_same]
    exact getLsbD_bitPut_true _ (by have := pool.isLt; have := tc.isLt; omega)

end Sys2Proof.Machine
end

section
/-! SUPPORT. TURN and RETRAIN slots (R121, R125, R133, R134, R235). -/
namespace Sys2Proof.Machine
open Sys2Proof

/-! ### TURN -/

section
variable {n : PortId} {s : State} (hu : s.up n = true) (lo : BitVec 16) {late : BitVec 12} (age : Nat)

theorem toNat_eq_noLate : late.toNat = 0xFFF ↔ late = 0xFFF :=
  ⟨fun h => BitVec.eq_of_toNat_eq h, fun h => h ▸ rfl⟩

include hu

theorem exec_turn : exec (.turn n lo late age) s = .next (takeTurn n lo.toNat late.toNat age (touch n s)) := if_pos hu

/-- A TURN slot on the designated port is a marker LATE fabric cycles earlier (R134, R235). -/
theorem turn_marks (hc : s.isCadPort n = true) (hl : late ≠ 0xFFF) (hm : (s.port n).retry.noMarkerUntil ≤ s.now) :
    exec (.turn n lo late age) s = .next (marker (s.markTime age - late.toNat * 256) (some lo.toNat) (touch n s)) := by
  have hm' : ((touch n s).port n).retry.noMarkerUntil ≤ (touch n s).now := by
    rw [touch, State.port_modPort_same]
    exact hm
  exact (exec_turn hu lo age).trans (congrArg _ (if_pos ⟨hc, mt toNat_eq_noLate.mp hl, hm'⟩))

theorem turn_noMarker (h : s.isCadPort n = false ∨ late = 0xFFF ∨ s.now < (s.port n).retry.noMarkerUntil) :
    exec (.turn n lo late age) s = .next (touch n s) := by
  refine (exec_turn hu lo age).trans (congrArg _ (if_neg fun ⟨hc, hl, hm⟩ => ?_))
  rw [touch, State.port_modPort_same] at hm
  rcases h with hn | hl' | hm'
  · exact absurd (show s.isCadPort n = true from hc) (by rw [hn]; decide)
  · exact hl (toNat_eq_noLate.mpr hl')
  · exact absurd (show (s.port n).retry.noMarkerUntil ≤ s.now from hm) (by omega)

end

/-! ### RETRAIN -/

/-- A port that has taken a RETRAIN slot: with WIDEN its failed positions may be tried again (R125). -/
def retrainTaken (n : Nat) (widen : Bool) (s : State) : State := if widen then retryPositions n (touch n s) else touch n s

theorem touch_linkRest (n : Nat) (s : State) : LinkRest s (touch n s) := by
  unfold touch
  exact (LinkRest.refl s).modPort n _

theorem retryPositions_freeIdx (n : Nat) (x : State) : (retryPositions n x).freeIdx = x.freeIdx :=
  forUpto_induction (P := fun a => a.freeIdx = x.freeIdx) 8 _ x rfl fun p a _ ha => by
    split
    · exact (State.wr_freeIdx a _ _).trans ha
    · exact ha

section
variable (n : Nat) (widen : Bool) (s : State)

theorem retrainTaken_lanesMoved : LanesMoved n (touch n s) (retrainTaken n widen s) := by
  unfold retrainTaken
  split
  · exact retryPositions_lanesMoved (LanesMoved.refl n (touch n s))
  · exact .refl n _

theorem retrainTaken_freeIdx : (retrainTaken n widen s).freeIdx = (touch n s).freeIdx := by
  unfold retrainTaken
  split
  · exact retryPositions_freeIdx n (touch n s)
  · rfl

theorem retrainTaken_linkRest : LinkRest s (retrainTaken n widen s) :=
  (touch_linkRest n s).trans ((retrainTaken_lanesMoved n widen s).linkRest (retrainTaken_freeIdx n widen s))

theorem rd_retrainTaken {f : Fld} (hf : BesideLanes n f.off) : (retrainTaken n widen s).rd f = s.rd f :=
  ((retrainTaken_lanesMoved n widen s).rd hf).trans (State.modPort_rd s n _ f)

theorem retrainTaken_port : (retrainTaken n widen s).port n =
    { s.port n with idleSince := s.now, txBad := ((retrainTaken n widen s).port n).txBad } := by
  have h := (retrainTaken_lanesMoved n widen s).wire
  rw [touch, State.port_modPort_same] at h
  exact h

theorem retrainTaken_portsKept : PortsKept s (retrainTaken n widen s) n := fun i hi =>
  ((retrainTaken_lanesMoved n widen s).ports i hi).trans (State.port_modPort_ne s n _ hi)

theorem retrainTaken_now : (retrainTaken n widen s).now = s.now := (retrainTaken_lanesMoved n widen s).now_eq

end

/-- A recovery that begins while no eye is scanned ends no scan. -/
theorem enterRecovery_noScan {n : Nat} {s : State} (hu : s.up n = true) (hs : s.rd (Fld.PRT_CAL_STAT_SCANNING n) = 0) (cause : Nat)
    (full : Bool) : enterRecovery n cause full s = recovTrains n cause full s := by
  have hb : BesideLanes n (Fld.PRT_CAL_STAT_SCANNING n).off := besideLanes_calStat n
  have hne : (Fld.PRT_CAL_STAT_SCANNING n).off ≠ Off.PRT_LINK_STAT n := by
    simp only [Fld.PRT_CAL_STAT_SCANNING, Off.PRT_LINK_STAT]
    omega
  rw [enterRecovery_eq hu, endScans_none]
  rw [(recovTrains_lanesMoved n cause full s).rd hb, State.rd_of_reg (State.reg_setLink_ne _ _ _ hne),
    (holdEq_lanesMoved (.refl n (recovBegun n cause full s))).rd hb, State.rd_of_reg (reg_recovBegun n cause full s hne), hs]

section
variable {n : PortId} {s : State} (hu : s.up n = true) (widen : Bool) (hs : s.rd (Fld.PRT_CAL_STAT_SCANNING n) = 0)
include hu hs

theorem exec_retrain : exec (.retrain n widen) s = .next (recovTrains n 4 widen (retrainTaken n widen s)) := by
  have hup : (retrainTaken n widen s).up n = true := by
    rw [State.up, State.link, rd_retrainTaken (n := n) widen s (f := Fld.PRT_LINK_STAT_STATE n) (besideLanes_linkStat n)]
    exact hu
  have hscan : (retrainTaken n widen s).rd (Fld.PRT_CAL_STAT_SCANNING n) = 0 :=
    (rd_retrainTaken (n := n) widen s (besideLanes_calStat n)).trans hs
  exact (if_pos hu).trans (congrArg _ (enterRecovery_noScan hup hscan 4 widen))

end

/-- What the port notes of a RETRAIN slot: the recovery with its time limits, and its retry buffer and credits as they were (R123 to R125). -/
theorem retrain_port (n : Nat) (widen : Bool) (s : State) :
    let p := (recovTrains n 4 widen (retrainTaken n widen s)).port n
    p.train.recov = true ∧ p.train.full = widen ∧ p.train.fallbackAt = some (s.now + 20 * tUs) ∧
    p.train.recovEnd = some (s.now + 2 * tMs) ∧ p.train.fullAt = (if widen then some (s.now + 4 * tUs) else none) ∧
    p.retry = (s.port n).retry ∧ p.credit = (s.port n).credit := by
  have h := recovTrains_port n 4 widen (retrainTaken n widen s)
  rw [retrainTaken_port, retrainTaken_now] at h
  intro p
  refine ⟨?_, ?_, ?_, ?_, ?_, ?_, ?_⟩ <;> (show _ = _; rw [show p = _ from h]; rfl)

end Sys2Proof.Machine
end

section
/-! O31. TURN slots mark turns and RETRAIN slots retrain. -/
namespace Sys2Proof.Machine
open Sys2Proof

/-- Settles O31: a TURN slot is `marker` or nothing, by three tests that the receipt of the slot leaves as they were; a RETRAIN slot is a
recovery (`recovTrains`) of the port it leaves. -/
theorem turnAndRetrainSlotsAct : Obligations.TurnAndRetrainSlotsAct := by
  unfold Obligations.TurnAndRetrainSlotsAct
  refine fun n s hu => ⟨fun lo late age => ⟨turn_marks hu lo age, turn_noMarker hu lo age⟩, fun widen hs => ?_⟩
  have hkept := recovTrains_portsKept n 4 widen (retrainTaken n widen s)
  obtain ⟨hlink, hup, hcount, hraised⟩ := recovTrains_link n 4 widen (retrainTaken n widen s)
  rw [rd_retrainTaken (n := n) widen s (f := Fld.PRT_LINK_STAT_RECOV_CNT n) (besideLanes_linkStat n)] at hcount
  obtain ⟨hrecov, hfull, hfall, hend, hat, hretry, hcredit⟩ := retrain_port n widen s
  refine ⟨_, exec_retrain hu widen hs, hlink, hup, hcount, hraised, hrecov, hfull, hfall, hend, hat, hretry, hcredit, fun p hp hb => ?_,
    fun i hi => (hkept i hi).trans (retrainTaken_portsKept n widen s i hi),
    (retrainTaken_linkRest n widen s).trans (recovTrains_linkRest n 4 widen _)⟩
  refine recovTrains_lane n 4 widen _ hp ?_
  rw [State.active, rd_retrainTaken (n := n) widen s (f := Fld.PRT_PHY_STAT_ACTIVE n) (besideLanes_phyStat n)]
  exact hb

end Sys2Proof.Machine
end

section
/-! SUPPORT. The rows that are one request or response slot with its data slots (R127, R131, R146). -/
namespace Sys2Proof.Machine
open Sys2Proof

/-! ### The slots of the rows -/

theorem encReserved_op (op : BitVec 6) (tc : BitVec 2) (tag : BitVec 12) : slotOp (encReserved op tc tag) = op.toNat := by
  simp (disch := omega) only [encReserved, slotOp, BitVec.extractLsb'_append_eq_of_add_le]
  simp

/-- A slot that is a request or a response. -/
def IsTxn (slot : BitVec 80) : Prop := 0 < slotOp slot ∧ slotOp slot < 0x38

theorem IsTxn.of_op {slot : BitVec 80} {k : Nat} (h : slotOp slot = k) (h0 : 0 < k) (h1 : k < 0x38) : IsTxn slot :=
  ⟨by omega, by omega⟩

section
variable {k : Nat} (h0 : 0 < k) (h1 : k < 0x38)
include h0 h1

theorem encMem_isTxn (r : MemReq) : IsTxn (encMem k r) := by
  have h := (encMem_fields (BitVec.ofNat 6 k) r).1
  rw [BitVec.toNat_ofNat, Nat.mod_eq_of_lt (by omega)] at h
  exact .of_op h h0 h1

theorem encCfg_isTxn (r : CfgReq) : IsTxn (encCfg k r) := by
  have h := (encCfg_fields (BitVec.ofNat 6 k) r).1
  rw [BitVec.toNat_ofNat, Nat.mod_eq_of_lt (by omega)] at h
  exact .of_op h h0 h1

end

theorem encFence_isTxn (r : FenceReq) : IsTxn (encFence r) := .of_op (encFence_fields r).1 (by decide) (by decide)

theorem encMsg_isTxn (r : MsgReq) : IsTxn (encMsg r) := .of_op (encMsg_fields r).1 (by decide) (by decide)

theorem encRsp_isTxn {op : BitVec 6} (h0 : 0 < op.toNat) (h1 : op.toNat < 0x38) (r : RspSlot) : IsTxn (encRsp op r) :=
  .of_op (encRsp_fields op r).1 h0 h1

theorem encReserved_isTxn {op : BitVec 6} (h0 : op ≠ 0) (h1 : op.toNat < 0x20) (tc : BitVec 2) (tag : BitVec 12) :
    IsTxn (encReserved op tc tag) :=
  .of_op (encReserved_op op tc tag) (Nat.pos_of_ne_zero fun h => h0 (BitVec.eq_of_toNat_eq h)) (by omega)

/-- A row of the table that is one slot with its data slots is its receipt. -/
theorem txnRow_exec (c : Instr) (n : PortId) (slot : BitVec 80) (data : List Line) (s : State) (h : txnRow c = some (n, slot, data)) :
    exec c s = .next (recvTxn n slot data s) := by
  cases c <;> simp only [txnRow, Option.some.injEq, Prod.mk.injEq, reduceCtorEq] at h
  case reservedRequest m op tc tag =>
    split at h
    · next hop =>
      obtain ⟨rfl, rfl, rfl⟩ := h
      exact if_pos hop
    · exact absurd h (by simp)
  case reservedResponse m op =>
    split at h
    · next hop =>
      obtain ⟨rfl, rfl, rfl⟩ := h
      exact if_pos hop
    · exact absurd h (by simp)
  all_goals
    obtain ⟨rfl, rfl, rfl⟩ := h
    rfl

/-- The slot of such a row is a request or a response. -/
theorem txnRow_isTxn (c : Instr) (n : PortId) (slot : BitVec 80) (data : List Line) (h : txnRow c = some (n, slot, data)) :
    IsTxn slot := by
  cases c <;> simp only [txnRow, Option.some.injEq, Prod.mk.injEq, reduceCtorEq] at h
  case fence =>
    obtain ⟨-, rfl, -⟩ := h
    exact encFence_isTxn _
  case cfgRd | cfgWr =>
    obtain ⟨-, rfl, -⟩ := h
    exact encCfg_isTxn (by decide) (by decide) _
  case doorbell | msg =>
    obtain ⟨-, rfl, -⟩ := h
    exact encMsg_isTxn _
  case rdData | cmp | atData | cfgData =>
    obtain ⟨-, rfl, -⟩ := h
    exact encRsp_isTxn (by decide) (by decide) _
  case reservedRequest op tc tag =>
    split at h
    · next hop =>
      obtain ⟨h0, h1, -⟩ := hop
      obtain ⟨-, rfl, -⟩ := h
      exact encReserved_isTxn h0 h1 tc tag
    · exact absurd h (by simp)
  case reservedResponse op =>
    split at h
    · next hop =>
      obtain ⟨-, rfl, -⟩ := h
      exact encRsp_isTxn (by omega) hop.2 _
    · exact absurd h (by simp)
  all_goals
    obtain ⟨-, rfl, -⟩ := h
    exact encMem_isTxn (by decide) (by decide) _

/-! ### The receipt of a slot with its data slots -/

section
variable {n : Nat} {slot : BitVec 80} {s : State}

theorem takeSlot_request (h : IsTxn slot) (hr : slotOp slot < 0x20) (age : Nat) : takeSlot n age slot s = takeRequest n slot s :=
  (if_neg (by have := h.1; omega)).trans (if_pos hr)

theorem takeSlot_response (h : IsTxn slot) (hr : 0x20 ≤ slotOp slot) (age : Nat) : takeSlot n age slot s = takeResponse n slot s :=
  (if_neg (by omega)).trans ((if_neg (by omega)).trans (if_pos h.2))

/-- A slot whose credits are held is charged, and taken (R127, R131, R146). -/
theorem takeSlots_alone (h : s.creditsHeld n (s.flitCredits n [slot] false) = true) :
    takeSlots n 0 [slot] none s = takeSlot n 0 slot (Charged n [slot] false s) := if_pos h

theorem takeSlots_withData (d : Line) (h : s.creditsHeld n (s.flitCredits n [slot] true) = true) :
    takeSlots n 0 [slot] (some d) s = takeData n d (takeSlot n 0 slot (Charged n [slot] true s)) := if_pos h

theorem takeSlots_lacking (data : Option Line) (h : s.creditsHeld n (s.flitCredits n [slot] data.isSome) = false) :
    takeSlots n 0 [slot] data s = linkDown n 5 s := if_neg (by rw [h]; decide)

/-- What a flit uses is told by its slots and by what the port is owed; that it has been heard is no matter. -/
theorem flitCredits_heard (slots : List (BitVec 80)) (data : Bool) : (Heard n s).flitCredits n slots data = s.flitCredits n slots data := by
  have h : ((Heard n s).port n).owedQ = (s.port n).owedQ := by rw [Heard, State.port_modPort_same]
  simp only [State.flitCredits, State.dataClass, h]

theorem recvTxn_up (hu : s.up n = true) (data : List Line) : recvTxn n slot data s =
    pumpAll (data.tail.foldl (fun a d => if a.up n then takeSlots n 0 [] (some d) a else a) (takeSlots n 0 [slot] data.head? (Heard n s))) :=
  if_pos hu

/-- A link that is down takes no more data slots. -/
theorem foldl_down (data : List Line) (hd : s.up n = false) :
    data.foldl (fun a d => if a.up n then takeSlots n 0 [] (some d) a else a) s = s := by
  induction data with
  | nil => rfl
  | cons d ds ih => rw [List.foldl_cons, if_neg (by rw [hd]; decide), ih]

theorem linkDown_up {cause : Nat} (hc : cause < 16) : (linkDown n cause s).up n = false := by
  rw [State.up]
  rcases (linkDown_link hc s (n := n)).1 with h | h <;> rw [h] <;> decide

end

end Sys2Proof.Machine
end

section
/-! O34. A request or response slot is taken with its credits, or takes the link down. -/
namespace Sys2Proof.Machine
open Sys2Proof

/-- Settles O34: every row is `recvTxn` of its slot; without the credits the link is down, and takes none of the data slots that
follow. -/
theorem transactionSlotsAreTaken : Obligations.TransactionSlotsAreTaken := by
  unfold Obligations.TransactionSlotsAreTaken
  intro c n slot data s hrow hu
  have htxn := txnRow_isTxn c n slot data hrow
  have hexec := (txnRow_exec c n slot data s hrow).trans (congrArg _ (recvTxn_up hu data))
  rw [hexec, ← flitCredits_heard]
  refine ⟨fun h => ?_, fun h ht => ?_, fun d ds hd h => ?_, fun h => takeSlot_request htxn h 0, fun h => takeSlot_response htxn h 0⟩
  · rw [takeSlots_lacking _ h, foldl_down _ (linkDown_up (by decide))]
  · rw [ht, List.foldl_nil]
    cases data with
    | nil => exact congrArg _ (congrArg pumpAll (takeSlots_alone h))
    | cons d ds => exact congrArg _ (congrArg pumpAll (takeSlots_withData d h))
  · subst hd
    rw [← flitCredits_heard] at h
    rw [List.tail_cons, List.head?_cons, takeSlots_withData d h]

end Sys2Proof.Machine
end

section
/-! O38. What an atomic makes of the word it addresses (R159). -/
namespace Sys2Proof.Machine
open Sys2Proof

/-! ### The comparing operations -/

theorem getD_ite_some {α : Type} (p : Prop) [Decidable p] (x y : α) : (if p then some x else none).getD y = if p then x else y := by
  split <;> rfl

section
variable (old a c : Word64)

theorem atomicNew_smax : ((atomicNew .atSmax old a c).getD old).toInt = max old.toInt a.toInt := by
  rw [atomicNew, getD_ite_some, apply_ite BitVec.toInt, max_def_lt]
  simp only [BitVec.slt_iff_toInt_lt]

theorem atomicNew_smin : ((atomicNew .atSmin old a c).getD old).toInt = min old.toInt a.toInt := by
  rw [atomicNew, getD_ite_some, apply_ite BitVec.toInt, min_comm, min_def_lt]
  simp only [BitVec.slt_iff_toInt_lt]

theorem atomicNew_umax : ((atomicNew .atUmax old a c).getD old).toNat = max old.toNat a.toNat := by
  rw [atomicNew, getD_ite_some, apply_ite BitVec.toNat, max_def_lt]
  simp only [BitVec.ult_iff_lt, BitVec.lt_def]

theorem atomicNew_umin : ((atomicNew .atUmin old a c).getD old).toNat = min old.toNat a.toNat := by
  rw [atomicNew, getD_ite_some, apply_ite BitVec.toNat, min_comm, min_def_lt]
  simp only [BitVec.ult_iff_lt, BitVec.lt_def]

end

/-- Settles O38: the comparing operations leave the larger or the smaller of two whole numbers, and write when their test holds; the
others are the operations of the word. -/
theorem atomicsCompute : Obligations.AtomicsCompute := by
  unfold Obligations.AtomicsCompute
  intro old a c
  refine ⟨rfl, BitVec.toNat_add old a, getD_ite_some _ a old, fun i => BitVec.getLsbD_and, fun i => BitVec.getLsbD_or,
    fun i => BitVec.getLsbD_xor, atomicNew_smax old a c, atomicNew_smin old a c, atomicNew_umax old a c, atomicNew_umin old a c,
    by simp [atomicNew], Option.isSome_ite, Option.isSome_ite.trans BitVec.slt_iff_toInt_lt, Option.isSome_ite.trans BitVec.ult_iff_lt⟩

end Sys2Proof.Machine
end

section
/-! SUPPORT. The checks of a request in their order (R191, R213), and how a refusal is counted (R191, R196, R213). -/
namespace Sys2Proof.Machine
open Sys2Proof

/-! ### What the checks come to -/

/-- A request that is malformed (order 1 of R191). -/
def Malformed (slot : BitVec 80) : Prop :=
  reqDefined (slotOp slot) = false ∨ (reqMemory (slotOp slot) = true ∧ slotTc slot = 3) ∨
    ((slotOp slot = 0x18 ∨ slotOp slot = 0x19) ∧ slotTc slot ≠ 3) ∨ (slotOp slot = 0x04 ∧ slotLcount slot ≠ 0)

/-- A verdict of the checks of place, retirement and halt (orders 4 to 6 of R191): it is none of the refusals before them. -/
def Verdict.OfPlace : Verdict → Prop
  | .refuse st _ => st = stUnmapped ∨ st = stRetired ∨ st = stHalt ∨ st = stHopLimit ∨ st = stPathDown
  | .serve => True
  | .forward _ _ => True

theorem Verdict.OfPlace.status_ne {v : Verdict} {st : BitVec 4} {l : Bool} (h : v.OfPlace) (hv : v = .refuse st l) :
    st ≠ stMalformed ∧ st ≠ stTagInUse ∧ st ≠ stUnsupported := by
  subst hv
  rcases h with rfl | rfl | rfl | rfl | rfl <;> decide

section
variable (s : State) (n : Nat)

theorem State.route_refuses {hop w : Nat} {st : BitVec 4} {loop : Bool} (h : s.route n hop w = .inr (st, loop)) :
    st = stUnmapped ∨ st = stHopLimit ∨ st = stPathDown := by
  unfold State.route at h
  split at h
  · cases h
    exact .inl rfl
  · split at h
    · cases h
      exact .inl rfl
    · extract_lets p a av at h
      split_ifs at h
      · cases h
        exact .inl rfl
      · cases h
        exact .inr (.inl rfl)
      · cases h
        exact .inr (.inr rfl)

/-- A request that is not served here is forwarded, or refused by the steps of R213. -/
theorem State.routed_ofPlace (hop w : Nat) (cfg : Bool) : (s.routed n hop w cfg).OfPlace ∧ s.routed n hop w cfg ≠ .serve := by
  unfold State.routed
  split
  · exact ⟨trivial, by simp⟩
  · next st loop h =>
    refine ⟨?_, by simp⟩
    rcases s.route_refuses n h with rfl | rfl | rfl <;> simp [Verdict.OfPlace]

/-- Every line a memory request covers lies in the window, and in a pavilion that is not retired. -/
def State.AllServed (s : State) (slot : BitVec 80) : Prop :=
  ∀ i < reqLines slot, s.lineIsLocal (slotLine slot + i) = true ∧
    ∃ loc, s.locate (lineLocal (slotLine slot + i)) = some loc ∧ s.retiredRunning loc.pav = false

theorem reqLines_pos (slot : BitVec 80) : 0 < reqLines slot := by
  unfold reqLines
  dsimp only
  split <;> omega

theorem State.checkMem_ofPlace (slot : BitVec 80) (halt : Bool) : (s.checkMem n slot halt).OfPlace := by
  unfold State.checkMem
  extract_lets l0 ls pavs
  split
  · split_ifs <;> simp [Verdict.OfPlace]
  · split
    · exact .inl rfl
    · exact (s.routed_ofPlace n _ _ _).1

/-- A memory request passes the checks of place just when no halt applies and all its lines are served. -/
theorem State.checkMem_serve (slot : BitVec 80) (halt : Bool) :
    s.checkMem n slot halt = .serve ↔ halt = false ∧ s.AllServed slot := by
  unfold State.checkMem
  extract_lets l0 ls pavs
  have hls : ∀ l, l ∈ ls ↔ ∃ i < reqLines slot, l0 + i = l := fun l => by simp [ls]
  have hpavs : ∀ q, q ∈ pavs ↔ ∃ i < reqLines slot, (s.locate (lineLocal (l0 + i))).map Loc.pav = q := fun q => by
    simp only [pavs, ls, List.mem_map, List.mem_range, exists_exists_and_eq_and]
    refine exists_congr fun i => and_congr_right fun _ => ?_
    cases s.locate (lineLocal (l0 + i)) <;> rfl
  constructor
  · intro h
    split at h
    · split_ifs at h with hl hn hr hh
      refine ⟨Bool.eq_false_of_not_eq_true hh, fun i hi => ?_⟩
      cases hloc : s.locate (lineLocal (slotLine slot + i)) with
      | none => exact absurd (List.any_eq_true.mpr ⟨none, (hpavs _).mpr ⟨i, hi, congrArg _ hloc⟩, rfl⟩) hn
      | some loc =>
        have hlocal := List.all_eq_true.mp (Bool.of_not_eq_false hl) _ ((hls _).mpr ⟨i, hi, rfl⟩)
        refine ⟨hlocal, loc, rfl, Bool.eq_false_of_not_eq_true fun hrun => ?_⟩
        exact hr (List.any_eq_true.mpr ⟨some loc.pav, (hpavs _).mpr ⟨i, hi, congrArg _ hloc⟩, hrun⟩)
    · split_ifs at h
      exact absurd h (s.routed_ofPlace n _ _ _).2
  · rintro ⟨rfl, hall⟩
    have hlocal : ls.all (fun l => s.lineIsLocal l) ≠ false := by
      refine ne_false_of_eq_true (List.all_eq_true.mpr fun l hl => ?_)
      obtain ⟨i, hi, rfl⟩ := (hls l).mp hl
      exact (hall i hi).1
    have hpav : ∀ q ∈ pavs, ∃ p, q = some p ∧ s.retiredRunning p = false := fun q hq => by
      obtain ⟨i, hi, rfl⟩ := (hpavs q).mp hq
      obtain ⟨-, loc, hloc, hrun⟩ := hall i hi
      exact ⟨loc.pav, congrArg _ hloc, hrun⟩
    have hfirst : s.lineIsLocal l0 = true := (hall 0 (reqLines_pos slot)).1
    rw [if_pos hfirst, if_neg hlocal, if_neg, if_neg, if_neg Bool.false_ne_true]
    · rw [List.any_eq_true]
      rintro ⟨q, hq, h⟩
      obtain ⟨p, rfl, hp⟩ := hpav q hq
      exact absurd (hp.symm.trans h) (by decide)
    · rw [List.any_eq_true]
      rintro ⟨q, hq, h⟩
      obtain ⟨p, rfl, -⟩ := hpav q hq
      exact absurd h (by simp)

/-! ### The checks in their order -/

variable {slot : BitVec 80}

theorem not_malformed_iff : ¬ Malformed slot ↔ (!reqDefined (slotOp slot) || (reqMemory (slotOp slot) && slotTc slot == 3) ||
    ((slotOp slot == 0x18 || slotOp slot == 0x19) && slotTc slot != 3) || (slotOp slot == 0x04 && slotLcount slot != 0)) = false := by
  rw [← Bool.not_eq_true]
  refine not_congr ?_
  simp [Malformed, or_assoc]

/-- Order 1: a malformed request is refused, whatever else is wrong with it. -/
theorem State.check_malformed (dup : Bool) (h : Malformed slot) : s.check n slot dup = .refuse stMalformed false :=
  if_pos (Bool.of_not_eq_false fun hb => not_malformed_iff.mpr hb h)

/-- Order 2: a request whose tag is in use. -/
theorem State.check_tagInUse (h : ¬ Malformed slot) : s.check n slot true = .refuse stTagInUse false :=
  (if_neg (by rw [not_malformed_iff.mp h]; decide)).trans (if_pos rfl)

/-- The checks after those of form and tag. -/
def State.checkRest (s : State) (n : Nat) (slot : BitVec 80) : Verdict :=
  if slotOp slot = 0x14 then .serve
  else if reqAtomic (slotOp slot) && !s.atomicsOn then .refuse stUnsupported false
  else if slotOp slot == 0x18 || slotOp slot == 0x19 then
    (if slotLocal slot || slotWindow slot == s.rd Fld.GLB_POOL_WINDOW_BASE then .serve
     else s.routed n (slotHop slot).toNat (slotWindow slot) true)
  else s.checkMem n slot s.halted

theorem State.check_rest (h : ¬ Malformed slot) : s.check n slot false = s.checkRest n slot :=
  (if_neg (by rw [not_malformed_iff.mp h]; decide)).trans (if_neg (by decide))

theorem reqAtomic_memory {op : Nat} (h : reqAtomic op = true) : reqMemory op = true := by
  simp only [reqAtomic, reqMemory] at h ⊢
  rw [h, Bool.or_true]

/-- Order 3: an atomic that is not supported. -/
theorem State.checkRest_unsupported (ha : reqAtomic (slotOp slot) = true) (hs : s.atomicsOn = false) :
    s.checkRest n slot = .refuse stUnsupported false := by
  rw [State.checkRest, if_neg, if_pos (by rw [ha, hs]; rfl)]
  intro h
  rw [h] at ha
  exact absurd ha (by decide)

theorem State.checkRest_ofPlace (h : ¬ (reqAtomic (slotOp slot) = true ∧ s.atomicsOn = false)) : (s.checkRest n slot).OfPlace := by
  unfold State.checkRest
  split
  · exact trivial
  · split
    · next hu => exact absurd (by simpa using hu) h
    · split
      · split
        · exact trivial
        · exact (s.routed_ofPlace n _ _ _).1
      · exact s.checkMem_ofPlace n slot _

/-- A memory request is past order 3 checked by its place. -/
theorem State.checkRest_memory (hm : reqMemory (slotOp slot) = true) (h : reqAtomic (slotOp slot) = true → s.atomicsOn = true) :
    s.checkRest n slot = s.checkMem n slot s.halted := by
  have hne : slotOp slot ≠ 0x14 ∧ slotOp slot ≠ 0x18 ∧ slotOp slot ≠ 0x19 := by
    refine ⟨?_, ?_, ?_⟩ <;> intro ho <;> rw [ho] at hm <;> exact absurd hm (by decide)
  obtain ⟨h14, h18, h19⟩ := hne
  rw [State.checkRest, if_neg h14, if_neg (by simpa using h), if_neg (by simp [h18, h19])]

theorem config_of_defined {op : Nat} (hd : reqDefined op = true) (hm : reqMemory op = false) (h14 : op ≠ 0x14) (h1C : op ≠ 0x1C) :
    op = 0x18 ∨ op = 0x19 := by
  simp only [reqDefined, reqMemory, Bool.or_eq_true, Bool.or_eq_false_iff] at hd hm
  simp_all

/-- A configuration request is served here when it is local or for the stack's own window. -/
theorem State.checkRest_config (hc : slotOp slot = 0x18 ∨ slotOp slot = 0x19) : s.checkRest n slot = .serve ↔
    slotLocal slot = true ∨ slotWindow slot = s.rd Fld.GLB_POOL_WINDOW_BASE := by
  have hna : reqAtomic (slotOp slot) = false := by rcases hc with h | h <;> rw [h] <;> rfl
  rw [State.checkRest, if_neg (by omega), if_neg (by simp [hna]), if_pos (by simpa using hc)]
  split
  · next h => simpa using h
  · next h => exact iff_of_false (s.routed_ofPlace n _ _ _).2 (by simpa using h)

/-- What the checks come to: the first of the refusals of form, tag and support that applies, else the checks of place. -/
theorem State.check_cases (slot : BitVec 80) (dup : Bool) :
    (Malformed slot ∧ s.check n slot dup = .refuse stMalformed false) ∨
    (¬ Malformed slot ∧ dup = true ∧ s.check n slot dup = .refuse stTagInUse false) ∨
    (¬ Malformed slot ∧ dup = false ∧ reqAtomic (slotOp slot) = true ∧ s.atomicsOn = false ∧
      s.check n slot dup = .refuse stUnsupported false) ∨
    (¬ Malformed slot ∧ dup = false ∧ (reqAtomic (slotOp slot) = true → s.atomicsOn = true) ∧
      s.check n slot dup = s.checkRest n slot ∧ (s.checkRest n slot).OfPlace) := by
  by_cases hbad : Malformed slot
  · exact .inl ⟨hbad, s.check_malformed n dup hbad⟩
  refine .inr ?_
  cases dup with
  | true => exact .inl ⟨hbad, rfl, s.check_tagInUse n hbad⟩
  | false =>
    refine .inr ?_
    by_cases hu : reqAtomic (slotOp slot) = true ∧ s.atomicsOn = false
    · obtain ⟨ha, hs⟩ := hu
      exact .inl ⟨hbad, rfl, ha, hs, (s.check_rest n hbad).trans (s.checkRest_unsupported n ha hs)⟩
    · exact .inr ⟨hbad, rfl, fun ha => Bool.of_not_eq_false fun hs => hu ⟨ha, hs⟩, s.check_rest n hbad, s.checkRest_ofPlace n hu⟩

/-- The refusals that come before the checks of place. -/
theorem State.check_refuses (slot : BitVec 80) (dup : Bool) :
    ((∃ l, s.check n slot dup = .refuse stMalformed l) ↔ Malformed slot) ∧
    ((∃ l, s.check n slot dup = .refuse stTagInUse l) ↔ ¬ Malformed slot ∧ dup = true) ∧
    ((∃ l, s.check n slot dup = .refuse stUnsupported l) ↔
      ¬ Malformed slot ∧ dup = false ∧ reqAtomic (slotOp slot) = true ∧ s.atomicsOn = false) := by
  rcases s.check_cases n slot dup with ⟨hm, e⟩ | ⟨hm, rfl, e⟩ | ⟨hm, rfl, ha, hs, e⟩ | ⟨hm, rfl, ha, e, hp⟩ <;> rw [e]
  · simp [hm, stMalformed, stTagInUse, stUnsupported]
  · simp [hm, stMalformed, stTagInUse, stUnsupported]
  · simp [hm, ha, hs, stMalformed, stTagInUse, stUnsupported]
  · exact ⟨iff_of_false (fun ⟨_, h⟩ => (hp.status_ne h).1 rfl) hm, iff_of_false (fun ⟨_, h⟩ => (hp.status_ne h).2.1 rfl) (by simp),
      iff_of_false (fun ⟨_, h⟩ => (hp.status_ne h).2.2 rfl) fun ⟨_, _, h, h'⟩ => Bool.false_ne_true (h'.symm.trans (ha h))⟩

/-- A request that is served has passed every check; `P` is what its checks of place ask. -/
theorem State.check_serve (slot : BitVec 80) (dup : Bool) {P : Prop}
    (hP : (reqAtomic (slotOp slot) = true → s.atomicsOn = true) → (s.checkRest n slot = .serve ↔ P)) :
    s.check n slot dup = .serve ↔
      ¬ Malformed slot ∧ dup = false ∧ (reqAtomic (slotOp slot) = true → s.atomicsOn = true) ∧ P := by
  rcases s.check_cases n slot dup with ⟨hm, e⟩ | ⟨hm, rfl, e⟩ | ⟨hm, rfl, ha, hs, e⟩ | ⟨hm, rfl, ha, e, -⟩ <;> rw [e]
  · simp [hm]
  · simp
  · simp [ha, hs]
  · rw [hP ha]
    exact ⟨fun h => ⟨hm, rfl, ha, h⟩, fun ⟨_, _, _, h⟩ => h⟩

end

/-! ### Refusals counted -/

/-- A field counts one, an event is raised, and nothing else changes. -/
def Counted (f : Fld) (ev : Nat) (s t : State) : Prop :=
  t.rd f = min (2 ^ f.w - 1) (s.rd f + 1) ∧ Raised t ev ∧ RegsKept s t [f.off] ∧ t = { s with regs := t.regs, crossing := t.crossing }

theorem counted_sat_raise (s : State) {f : Fld} (ev d : Nat) (h : f.lo + f.w ≤ 32) : Counted f ev s ((s.sat f).raise ev d) := by
  refine ⟨?_, State.raise_sets_out _ _ _, ((RegsKept.refl s _).wr List.mem_cons_self _).of_regs (State.raise_regs _ _ _), ?_⟩
  · rw [State.raise_rd, State.rd_sat_same s f 1 h]
  · rw [State.raise_eq]
    rfl

end Sys2Proof.Machine
end

section
/-! O36. The checks of a request come in their order, and each refusal is counted and reported. -/
namespace Sys2Proof.Machine
open Sys2Proof

/-- Settles O36: the first of the refusals of form, tag and support that applies, and then the checks of place, which alone can serve
(`check_cases`); a refusal counts in one field and raises one event. -/
theorem checksComeInOrderAndCount : Obligations.ChecksComeInOrderAndCount := by
  unfold Obligations.ChecksComeInOrderAndCount
  refine ⟨fun n slot dup s => ?_, fun n op tc s => ?_⟩
  · obtain ⟨hmalformed, htag, hunsupported⟩ := s.check_refuses n slot dup
    refine ⟨hmalformed, htag, hunsupported, fun hm => ?_, fun hm h14 hd h1C => ?_⟩
    · exact s.check_serve n slot dup fun ha => by rw [s.checkRest_memory n hm ha, s.checkMem_serve n slot]; rfl
    · have hc : slotOp slot = 0x18 ∨ slotOp slot = 0x19 := config_of_defined hd hm h14 h1C
      have hna : reqAtomic (slotOp slot) = false := by rcases hc with h | h <;> rw [h] <;> rfl
      refine (s.check_serve n slot dup fun _ => s.checkRest_config n hc).trans ?_
      simp only [hna, Bool.false_eq_true, false_imp_iff, true_and]
      rfl
  · refine ⟨fun _ => counted_sat_raise s _ _ ?_, fun _ => counted_sat_raise s _ _ ?_, counted_sat_raise s _ _ ?_,
      counted_sat_raise s _ _ ?_, fun _ => counted_sat_raise s _ _ ?_, fun _ => counted_sat_raise s _ _ ?_,
      fun _ => counted_sat_raise s _ _ ?_, fun _ => counted_sat_raise s _ _ ?_, fun _ => counted_sat_raise s _ _ ?_⟩ <;>
    exact of_decide_eq_true rfl

end Sys2Proof.Machine
end

section
/-! SUPPORT. Rules for the operations of a port's transactions (R131, R146, R172, R176): credits given back, data slots owed, a request
entered, a response ready. -/
namespace Sys2Proof.Machine
open Sys2Proof

/-! ### Slots with fields replaced -/

section
variable {slot : BitVec 80} {lo w v : Nat}

theorem getLsbD_slotPut_below {i : Nat} (h : i < lo) : (slotPut slot lo w v).getLsbD i = slot.getLsbD i := by
  rw [slotPut, BitVec.getLsbD_ofNat, testBit_bitsSet, if_pos h, BitVec.getLsbD]
  by_cases hi : i < 80
  · rw [decide_eq_true hi, Bool.true_and]
  · rw [decide_eq_false hi, Bool.false_and, Nat.testBit_lt_two_pow]
    exact Nat.lt_of_lt_of_le slot.isLt (Nat.pow_le_pow_right (by decide) (Nat.not_lt.mp hi))

theorem extractLsb'_slotPut_below {a k : Nat} (h : a + k ≤ lo) : (slotPut slot lo w v).extractLsb' a k = slot.extractLsb' a k := by
  apply BitVec.eq_of_getLsbD_eq
  intro i hi
  rw [BitVec.getLsbD_extractLsb', BitVec.getLsbD_extractLsb', getLsbD_slotPut_below (by omega)]

end

/-- What a port reads of a slot below its fields HOP and SRC is as it was sent. -/
theorem extractLsb'_asTaken (s : State) (n : Nat) (slot : BitVec 80) {a k : Nat} (h : a + k ≤ 65) :
    (asTaken s n slot).extractLsb' a k = slot.extractLsb' a k := by
  unfold asTaken
  split
  · rw [extractLsb'_slotPut_below (by omega), extractLsb'_slotPut_below h]
  · rfl

theorem getLsbD_asTaken (s : State) (n : Nat) (slot : BitVec 80) {i : Nat} (h : i < 65) :
    (asTaken s n slot).getLsbD i = slot.getLsbD i := by
  unfold asTaken
  split
  · rw [getLsbD_slotPut_below (by omega), getLsbD_slotPut_below h]
  · rfl

/-! ### Credits given back -/

/-- Credits of a class given back: besides its credits, a port's flits and the time of the last of them may change, and with them
PRT_LINK_SEQ and PRT_CREDIT_RX_TC. -/
structure CreditEdit (n tc : Nat) (x s : State) : Prop where
  edit : PortEdit [Off.PRT_LINK_SEQ n, Off.PRT_CREDIT_RX_TC n tc] n x s
  port : s.port n = { x.port n with
    credit := (s.port n).credit, txLog := (s.port n).txLog, idleSince := (s.port n).idleSince, retry := (s.port n).retry }

section
variable {n tc : Nat} {x s t : State}

theorem CreditEdit.refl (n tc : Nat) (s : State) : CreditEdit n tc s s := ⟨.refl _ _ _, rfl⟩

theorem CreditEdit.trans (h : CreditEdit n tc x s) (k : CreditEdit n tc s t) : CreditEdit n tc x t :=
  ⟨h.edit.trans k.edit, by rw [k.port, h.port]⟩

theorem CreditEdit.modCredit (h : CreditEdit n tc x s) (f : Credit → Credit) : CreditEdit n tc x (s.modCredit n f) := by
  refine ⟨h.edit.modCredit f, ?_⟩
  rw [State.modCredit, State.port_modPort_same, h.port]

theorem CreditEdit.wr (h : CreditEdit n tc x s) {f : Fld} (hf : f.off ∈ [Off.PRT_LINK_SEQ n, Off.PRT_CREDIT_RX_TC n tc]) (v : Nat) :
    CreditEdit n tc x (s.wr f v) := ⟨h.edit.wr hf v, h.port⟩

theorem CreditEdit.ite {a b : State} {c : Prop} [Decidable c] (ha : CreditEdit n tc x a) (hb : CreditEdit n tc x b) :
    CreditEdit n tc x (if c then a else b) := by
  split <;> assumption

theorem sendControl_creditEdit (n tc : Nat) (slots : List (BitVec 80)) (s : State) : CreditEdit n tc s (sendControl n slots s) := by
  refine ⟨(sendControl_portEdit slots s).mono (by simp), ?_⟩
  rw [sendControl, sendFlit, State.wr_port, State.port_modPort_same]

theorem sendCredit_creditEdit (n tc : Nat) (s : State) : CreditEdit n tc s (sendCredit n tc s) := by
  unfold sendCredit
  extract_lets c q d r slot s1 s2
  have hrx : ∀ k < 3, (fldRx n tc k).off ∈ [Off.PRT_LINK_SEQ n, Off.PRT_CREDIT_RX_TC n tc] := fun k hk => by
    rw [fldRx_eq n _ hk]
    simp
  have h1 : CreditEdit n tc s s1 := sendControl_creditEdit n tc _ s
  have h2 : CreditEdit n tc s s2 := ((h1.wr (hrx 0 (by decide)) _).wr (hrx 1 (by decide)) _).wr (hrx 2 (by decide)) _
  exact .ite (h2.modCredit _) (.refl n tc s)

theorem giveBack_creditEdit (n tc kind k : Nat) (s : State) : CreditEdit n tc s (giveBack n tc kind k s) := by
  unfold giveBack
  refine .ite (.refl n tc s) ?_
  extract_lets s1
  have h1 : CreditEdit n tc s s1 := (CreditEdit.refl n tc s).modCredit _
  exact .ite (h1.trans (sendCredit_creditEdit n tc s1)) h1

/-- A register of a port that is neither PRT_LINK_SEQ nor PRT_CREDIT_RX_TC is as it was. -/
theorem CreditEdit.reg (h : CreditEdit n tc x s) {off : Nat} (h1 : off ≠ Off.PRT_LINK_SEQ n) (h2 : off ≠ Off.PRT_CREDIT_RX_TC n tc) :
    s.reg off = x.reg off := h.edit.regs off (by simp [h1, h2])

theorem CreditEdit.role (h : CreditEdit n tc x s) (ht : tc < 4) : s.role n = x.role n :=
  State.rd_of_reg (h.reg (by simp [Fld.PRT_POOL_CTRL_ROLE, Off.PRT_LINK_SEQ])
    (by simp [Fld.PRT_POOL_CTRL_ROLE, Off.PRT_CREDIT_RX_TC]; omega))

end

/-! ### A change of one port alone -/

/-- A change to port n and to nothing else. -/
structure OnlyPort (n : Nat) (x s : State) : Prop where
  ports : PortsKept x s n
  rest : s = { x with ports := s.ports }

section
variable {n : Nat} {x s t : State}

theorem OnlyPort.refl (n : Nat) (s : State) : OnlyPort n s s := ⟨.refl _ _, rfl⟩

theorem OnlyPort.trans (h : OnlyPort n x s) (k : OnlyPort n s t) : OnlyPort n x t where
  ports := fun i hi => (k.ports i hi).trans (h.ports i hi)
  rest := by
    have hk := k.rest
    rw [h.rest] at hk
    exact hk

theorem OnlyPort.modPort (h : OnlyPort n x s) (f : Port → Port) : OnlyPort n x (s.modPort n f) :=
  h.trans ⟨(PortsKept.refl s n).modPort f, rfl⟩

/-! ### Data slots owed, and a request entered -/

theorem oweData_onlyPort (n k : Nat) (who : OwedBy) (tc : BitVec 2) (s : State) : OnlyPort n s (oweData n k who tc s) := by
  unfold oweData
  split
  · exact .refl n s
  · exact (OnlyPort.refl n s).modPort _

theorem oweData_port (n k : Nat) (who : OwedBy) (tc : BitVec 2) (s : State) : (oweData n k who tc s).port n =
    { s.port n with owedQ := (s.port n).owedQ ++ List.replicate k { who := who, tc := tc } } := by
  unfold oweData
  split
  · next h =>
    subst h
    rw [List.replicate_zero, List.append_nil]
  · rw [State.port_modPort_same]

theorem oweData_zero (n : Nat) (who : OwedBy) (tc : BitVec 2) (s : State) : oweData n 0 who tc s = s := if_pos rfl

theorem addTxn_port (n : Nat) (t : Txn) (s : State) : (addTxn n t s).port n =
    { s.port n with txns := (s.port n).txns ++ [t], nextSerial := (s.port n).nextSerial + 1 } := State.port_modPort_same _ _ _

theorem addTxn_onlyPort (n : Nat) (t : Txn) (s : State) : OnlyPort n { s with nextId := s.nextId + 1 } (addTxn n t s) :=
  (OnlyPort.refl n _).modPort _

/-! ### Responses -/

/-- The response of a request whose link has not gone down is ready (R172). -/
theorem answer_alive {t : Txn} (h : t.dead = false) (r : ReadyRsp) :
    answer n t r s = s.modPort n (fun p => { p with ready := p.ready ++ [r] }) := by
  simp only [answer, pushReady, h, Bool.false_eq_true, if_false, Bool.false_and]

/-- The CMP of a request as it is ready to be sent (R172). -/
def cmpReady (t : Txn) (status : BitVec 4) (peer : Bool) : ReadyRsp :=
  { op := 0x21, slot := cmpOf t status peer, data := [], serial := t.serial, final := true }

theorem complete_alive {t : Txn} (h : t.dead = false) (status : BitVec 4) :
    complete n t status s = s.modPort n (fun p => { p with ready := p.ready ++ [cmpReady t status (s.role n == 1)] }) := answer_alive h _

/-- A refusal counts in a field of one of three registers of the port, and raises an event. -/
theorem countRefusal_counts (n op tc : Nat) (status : BitVec 4) (loop : Bool) (s : State) : ∃ f ev d,
    countRefusal n op tc status loop s = (s.sat f).raise ev d ∧
    f.off ∈ [Off.PRT_TXN_ERR n, Off.PRT_TXN_REFUSED n, Off.PRT_POOL_REFUSED n] := by
  unfold countRefusal
  split_ifs <;> exact ⟨_, _, _, rfl, by simp [Fld.PRT_TXN_ERR_MALFORMED, Fld.PRT_TXN_ERR_TAG_DUP, Fld.PRT_TXN_REFUSED_UNMAPPED,
    Fld.PRT_POOL_REFUSED_LOOP, Fld.PRT_TXN_REFUSED_RETIRED, Fld.PRT_TXN_REFUSED_THERMAL_HALT, Fld.PRT_TXN_REFUSED_UNSUPPORTED,
    Fld.PRT_POOL_REFUSED_HOP_LIMIT, Fld.PRT_POOL_REFUSED_PATH_DOWN, Off.PRT_TXN_ERR, Off.PRT_TXN_REFUSED, Off.PRT_POOL_REFUSED]⟩

theorem countRefusal_port (m n op tc : Nat) (status : BitVec 4) (loop : Bool) (s : State) :
    (countRefusal n op tc status loop s).port m = s.port m := by
  obtain ⟨f, ev, d, h, -⟩ := countRefusal_counts n op tc status loop s
  rw [h, State.raise_port, State.sat_port]

theorem countRefusal_role (n op tc : Nat) (status : BitVec 4) (loop : Bool) (s : State) :
    (countRefusal n op tc status loop s).role n = s.role n := by
  obtain ⟨f, ev, d, h, hf⟩ := countRefusal_counts n op tc status loop s
  rw [h, State.role, State.raise_rd, State.rd_sat_ne]
  · rfl
  · simp only [List.mem_cons, List.not_mem_nil, or_false, Off.PRT_TXN_ERR, Off.PRT_TXN_REFUSED, Off.PRT_POOL_REFUSED] at hf
    simp only [Fld.PRT_POOL_CTRL_ROLE]
    omega

end

end Sys2Proof.Machine
end

section
/-! SUPPORT. The acceptance of a request slot (R146, R151, R176, R178, R191, R219) and of a message (R170). -/
namespace Sys2Proof.Machine
open Sys2Proof

section
variable (n : Nat) (slot : BitVec 80) (s : State)

/-- A request as it is entered when its slot is accepted and no check has refused or forwarded it. -/
def Entered (n : Nat) (slot : BitVec 80) (s : State) : Txn :=
  { serial := (s.port n).nextSerial, slot := asTaken s n slot, owed := reqOwns (asTaken s n slot), data := [], refused := none,
    panic := slotTc slot == 2 && slotPanic (asTaken s n slot) && reqMemory (slotOp slot) && s.on (Fld.PRT_TXN_CTRL_PANIC_EN n),
    dispatched := false, handed := 0, done := 0, poisoned := false, back := [], runMax := s.rd (Fld.PRT_TXN_CTRL_RUN_MAX n), answered := 0,
    holdsTag := true, rid := s.nextId, aged := false, forwarded := none, dead := false, at_ := s.now, measured := false }

theorem asTaken_eq : (if (s.role n == 0) = true then slotPut (slotPut slot 65 3 0) 68 4 0 else slot) = asTaken s n slot := by
  simp only [asTaken, beq_iff_eq]

/-- The data slots that an accepted request owns are expected in order (R146). -/
def expectData (n : Nat) (slot : BitVec 80) (s t : State) : State :=
  oweData n (reqOwns (asTaken s n slot)) (.txn (s.port n).nextSerial) (slotTc slot) t

variable {n slot s}

theorem takeRequest_serve (h1C : slotOp slot ≠ 0x1C) (h14 : slotOp slot ≠ 0x14)
    (h : s.check n (asTaken s n slot) (tagHeld s n (asTaken s n slot)) = .serve) :
    takeRequest n slot s = expectData n slot s (addTxn n (Entered n slot s) s) := by
  unfold tagHeld at h
  simp only [takeRequest, asTaken_eq, if_neg h1C, if_neg h14, h]
  rfl

/-- The request that a check has forwarded: it leaves with LOCAL = 1 when the route says so (R219). -/
def ForwardedTxn (n : Nat) (slot : BitVec 80) (e : Nat) (setLocal : Bool) (s : State) : Txn :=
  { Entered n slot s with
    slot := if setLocal then slotPut (asTaken s n slot) 51 1 1 else asTaken s n slot
    forwarded := some e }

theorem takeRequest_forward (h1C : slotOp slot ≠ 0x1C) {e : Nat} {setLocal : Bool}
    (h : s.check n (asTaken s n slot) (tagHeld s n (asTaken s n slot)) = .forward e setLocal) :
    takeRequest n slot s = expectData n slot s (addTxn n (ForwardedTxn n slot e setLocal s) s) := by
  unfold tagHeld at h
  simp only [takeRequest, asTaken_eq, if_neg h1C, h]
  rfl

/-- The request that a check has refused: one answered TAG_IN_USE holds no tag (R176). -/
def RefusedTxn (n : Nat) (slot : BitVec 80) (st : BitVec 4) (s : State) : Txn :=
  { Entered n slot s with refused := some st, holdsTag := st != stTagInUse }

/-- A refused request is entered and its refusal counted. -/
def refusalNoted (n : Nat) (slot : BitVec 80) (st : BitVec 4) (loop : Bool) (s : State) : State :=
  countRefusal n (slotOp slot) (slotTc slot).toNat st loop (addTxn n (RefusedTxn n slot st s) s)

theorem takeRequest_refuse (h1C : slotOp slot ≠ 0x1C) {st : BitVec 4} {loop : Bool}
    (h : s.check n (asTaken s n slot) (tagHeld s n (asTaken s n slot)) = .refuse st loop) :
    takeRequest n slot s = expectData n slot s (if reqOwns (asTaken s n slot) = 0 then
      refuseDone n (RefusedTxn n slot st s) (refusalNoted n slot st loop s) else refusalNoted n slot st loop s) := by
  unfold tagHeld at h
  simp only [takeRequest, asTaken_eq, if_neg h1C, h]
  rfl

theorem expectData_port (t : State) : (expectData n slot s t).port n = { t.port n with
    owedQ := (t.port n).owedQ ++ List.replicate (reqOwns (asTaken s n slot)) { who := .txn (s.port n).nextSerial, tc := slotTc slot } } :=
  oweData_port n _ _ _ t

/-- A request that is entered leaves the queue of data slots owed and every other port, and takes a number. -/
theorem expectData_addTxn (t : Txn) : OnlyPort n { s with nextId := s.nextId + 1 } (expectData n slot s (addTxn n t s)) :=
  (addTxn_onlyPort n t s).trans (oweData_onlyPort n _ _ _ _)

theorem refusalNoted_port (st : BitVec 4) (loop : Bool) : (refusalNoted n slot st loop s).port n = { s.port n with
    txns := (s.port n).txns ++ [RefusedTxn n slot st s], nextSerial := (s.port n).nextSerial + 1 } := by
  rw [refusalNoted, countRefusal_port, addTxn_port]

theorem refusalNoted_role (st : BitVec 4) (loop : Bool) : (refusalNoted n slot st loop s).role n = s.role n :=
  countRefusal_role n _ _ st loop _

/-- A refused request that owes no data has its CMP ready at once (R178). -/
theorem refuseDone_refusalNoted (st : BitVec 4) (loop : Bool) :
    let t := refuseDone n (RefusedTxn n slot st s) (refusalNoted n slot st loop s)
    (t.port n).txns = (s.port n).txns ++ [RefusedTxn n slot st s] ∧
    (t.port n).ready = (s.port n).ready ++ [cmpReady (RefusedTxn n slot st s) st (s.role n == 1)] := by
  have hg := giveBack_creditEdit n (slotTc (RefusedTxn n slot st s).slot).toNat 0 1 (refusalNoted n slot st loop s)
  have hrole := (hg.role (BitVec.isLt _)).trans (refusalNoted_role st loop)
  have hport := hg.port
  rw [refusalNoted_port] at hport
  intro t
  have ht : t = complete n (RefusedTxn n slot st s) st
    (giveBack n (slotTc (RefusedTxn n slot st s).slot).toNat 0 1 (refusalNoted n slot st loop s)) := rfl
  rw [ht, complete_alive rfl, State.port_modPort_same, hrole, hport]
  exact ⟨rfl, rfl⟩

/-! ### Messages -/

theorem encMsg_asTaken (n : Nat) (r : MsgReq) (s : State) : let x := asTaken s n (encMsg r)
    slotOp x = 0x1C ∧ slotMtype x = r.mtype.toNat ∧ slotMsgData x = r.data ∧ slotValue x = r.value := by
  obtain ⟨hop, hty, hdata, hval, -⟩ := encMsg_fields r
  refine ⟨?_, ?_, ?_, ?_⟩
  · rw [← hop, slotOp, extractLsb'_asTaken s n _ (by decide), slotOp]
  · rw [← hty, slotMtype, extractLsb'_asTaken s n _ (by decide), slotMtype]
  · rw [← hdata, slotMsgData, getLsbD_asTaken s n _ (by decide), slotMsgData]
  · rw [← hval, slotValue, extractLsb'_asTaken s n _ (by decide), slotValue]

/-- A DOORBELL in TC3 without data on a host port is entered (R170). -/
theorem takeRequest_doorbell {r : MsgReq} (h : r.mtype = 0 ∧ r.tc = 3 ∧ r.data = false ∧ s.role n = 0) :
    takeRequest n (encMsg r) s = addTxn n { Entered n (encMsg r) s with holdsTag := false } s := by
  obtain ⟨hty, htc, hdata, hrole⟩ := h
  obtain ⟨hop, -, -, -, htc'⟩ := encMsg_fields r
  obtain ⟨-, hty', hdata', -⟩ := encMsg_asTaken n r s
  simp only [takeRequest, asTaken_eq, if_pos hop]
  exact if_pos ⟨hty'.trans (congrArg BitVec.toNat hty), htc'.trans htc, hdata'.trans hdata, by rw [hrole]; rfl⟩

/-- Any other message is discarded, and its data slot with it (R170). -/
theorem takeRequest_message {r : MsgReq} (h : ¬ (r.mtype = 0 ∧ r.tc = 3 ∧ r.data = false ∧ s.role n = 0)) :
    takeRequest n (encMsg r) s = oweData n (b2n r.data) .none_ r.tc (dropMsg n r.tc.toNat s) := by
  obtain ⟨hop, -, -, -, htc'⟩ := encMsg_fields r
  obtain ⟨hop', hty', hdata', -⟩ := encMsg_asTaken n r s
  have howns : reqOwns (asTaken s n (encMsg r)) = b2n r.data := by
    simp only [reqOwns, hop', hdata']
    rfl
  have hnot : ¬ (r.mtype.toNat = 0 ∧ r.tc = 3 ∧ r.data = false ∧ (s.role n == 0) = true) := by
    rintro ⟨hty, htc, hdata, hrole⟩
    exact h ⟨BitVec.eq_of_toNat_eq hty, htc, hdata, by simpa using hrole⟩
  simp only [takeRequest, asTaken_eq, if_pos hop, hty', htc', hdata', howns, if_neg hnot]

/-- A message that is discarded is counted and reported; its queues are as they were. -/
theorem dropMsg_counts (n : Nat) (tc : BitVec 2) (s : State) : let t := dropMsg n tc.toNat s
    t.rd (Fld.PRT_TXN_ERR_MSG_BAD n) = min (2 ^ (Fld.PRT_TXN_ERR_MSG_BAD n).w - 1) (s.rd (Fld.PRT_TXN_ERR_MSG_BAD n) + 1) ∧
    Raised t (evPort n 13) ∧ (t.port n).txns = (s.port n).txns ∧ (t.port n).owedQ = (s.port n).owedQ := by
  obtain ⟨hrd, hraised, -, -⟩ := counted_sat_raise s (f := Fld.PRT_TXN_ERR_MSG_BAD n) (evPort n 13) 1 (of_decide_eq_true rfl)
  have hg := giveBack_creditEdit n tc.toNat 0 1 ((s.sat (Fld.PRT_TXN_ERR_MSG_BAD n)).raise (evPort n 13) 1)
  have hport := hg.port
  rw [State.raise_port, State.sat_port] at hport
  have htc := tc.isLt
  refine ⟨(State.rd_of_reg (hg.reg ?_ ?_)).trans hrd, hraised.of_crossing hg.edit.crossing_eq, (congrArg Port.txns hport :),
    (congrArg Port.owedQ hport :)⟩
  · simp [Fld.PRT_TXN_ERR_MSG_BAD, Off.PRT_LINK_SEQ]
  · simp [Fld.PRT_TXN_ERR_MSG_BAD, Off.PRT_CREDIT_RX_TC]
    omega

/-! ### Data slots -/

variable {d : Line}

/-- A data slot that nothing expects is counted (R148). -/
theorem takeData_orphan (h : (s.port n).owedQ = []) :
    takeData n d s = (s.sat (Fld.PRT_TXN_ERR_ORPHAN n)).raise (evPort n 13) 0 := by
  rw [takeData, h]

/-- A data slot of a request that was discarded is thrown away (R178). -/
theorem takeData_discarded {tc : BitVec 2} {rest : List Owed} (h : (s.port n).owedQ = ⟨.none_, tc⟩ :: rest) :
    takeData n d s = giveBack n tc.toNat 1 1 (s.modPort n (fun p => { p with owedQ := rest })) := by
  rw [takeData, h]

theorem txn?_modPort (m : Nat) (f : Port → Port) (h : (f (s.port m)).txns = (s.port m).txns) (i serial : Nat) :
    (s.modPort m f).txn? i serial = s.txn? i serial := by
  unfold State.txn?
  by_cases hi : i = m
  · subst hi
    rw [State.port_modPort_same, h]
  · rw [State.port_modPort_ne s m f hi]

theorem State.txn?_serial {serial : Nat} {k : Txn} (h : s.txn? n serial = some k) : k.serial = serial := by
  simpa using List.find?_some h

/-- A change of a transaction that keeps its number is what is found of it, and of no other. -/
theorem txn?_modTxn (n serial x : Nat) (f : Txn → Txn) (hf : ∀ t : Txn, t.serial = serial → (f t).serial = serial) (s : State) :
    (modTxn n serial f s).txn? n x = (s.txn? n x).map (fun t => if t.serial = serial then f t else t) := by
  unfold State.txn? modTxn
  rw [State.port_modPort_same, List.find?_map]
  congr 2
  funext t
  simp only [Function.comp_apply]
  split
  · next h => rw [hf t h, h]
  · rfl

/-- A request that has got one of the data slots it owns. -/
def gotData (k : Txn) (d : Line) : Txn := { k with owed := k.owed - 1, data := k.data ++ [d] }

/-- A data slot of a request that has not been refused joins its data (R146). -/
theorem takeData_request {serial : Nat} {tc : BitVec 2} {rest : List Owed} {k : Txn}
    (h : (s.port n).owedQ = ⟨.txn serial, tc⟩ :: rest) (hk : s.txn? n serial = some k) (hr : k.refused = none) :
    takeData n d s = modTxn n serial (fun _ => gotData k d)
      (s.modPort n (fun p => { p with owedQ := rest })) := by
  have hk' : (s.modPort n (fun p => { p with owedQ := rest })).txn? n serial = some k := (txn?_modPort n _ rfl n serial).trans hk
  simp only [takeData, h, hk', hr, Option.isSome_none, Bool.false_eq_true, if_false, gotData]

theorem modTxn_onlyPort (n serial : Nat) (f : Txn → Txn) (s : State) : OnlyPort n s (modTxn n serial f s) := (OnlyPort.refl n s).modPort _

end
end Sys2Proof.Machine
end

section
/-! O35. A request is entered, forwarded or refused, and data slots find the request that owns them. -/
namespace Sys2Proof.Machine
open Sys2Proof

/-- Settles O35: a slot is entered as its verdict says (`takeRequest_serve`, `takeRequest_forward`, `takeRequest_refuse`) before its data
slots are expected; a data slot goes by the head of the queue. -/
theorem requestsAreEnteredOrRefused : Obligations.RequestsAreEnteredOrRefused := by
  unfold Obligations.RequestsAreEnteredOrRefused
  refine ⟨fun n slot s hop h1C => ?_, fun n s => ⟨fun r => ⟨fun h => ?_, fun h => ?_⟩, fun d h => ?_,
    fun d serial tc rest k h hk hr => ?_, fun d tc rest h => takeData_discarded h⟩⟩
  · extract_lets x owes
    refine ⟨fun hc h14 => ?_, fun e setLocal hc h14 => ?_, fun st loop hc => ⟨RefusedTxn n slot st s, rfl, rfl, rfl, rfl, ?_⟩⟩
    · have he := expectData_addTxn (n := n) (slot := slot) (s := s) (Entered n slot s)
      refine ⟨_, Entered n slot s, takeRequest_serve h1C h14 hc, ?_, rfl, rfl, rfl, rfl, rfl, rfl, rfl, rfl, ?_, he.ports, he.rest⟩ <;>
        rw [expectData_port, addTxn_port]
    · have he := expectData_addTxn (n := n) (slot := slot) (s := s) (ForwardedTxn n slot e setLocal s)
      refine ⟨_, ForwardedTxn n slot e setLocal s, takeRequest_forward h1C hc, ?_, rfl, rfl, rfl, rfl, ?_, he.ports, he.rest⟩ <;>
        rw [expectData_port, addTxn_port]
    · rw [takeRequest_refuse h1C hc, expectData_port]
      by_cases h0 : reqOwns x = 0
      · obtain ⟨htxns, hready⟩ := refuseDone_refusalNoted (n := n) (slot := slot) (s := s) st loop
        rw [if_pos h0]
        exact ⟨htxns, fun _ => hready, fun h => absurd h0 h⟩
      · rw [if_neg h0, refusalNoted_port]
        exact ⟨rfl, fun h => absurd h h0, fun _ => ⟨rfl, rfl⟩⟩
  · obtain ⟨hop, -, -, hval⟩ := encMsg_asTaken n r s
    rw [takeRequest_doorbell h, addTxn_port]
    exact ⟨_, rfl, hval, hop, rfl, rfl⟩
  · obtain ⟨hrd, hraised, htxns, howed⟩ := dropMsg_counts n r.tc s
    have ho := oweData_onlyPort n (b2n r.data) .none_ r.tc (dropMsg n r.tc.toNat s)
    rw [takeRequest_message h, oweData_port]
    refine ⟨?_, hraised.of_crossing (by rw [ho.rest]), htxns, ?_⟩
    · rw [ho.rest]
      exact hrd
    · rw [howed]
      cases r.data <;> rfl
  · exact ⟨_, takeData_orphan h, counted_sat_raise s _ _ (of_decide_eq_true rfl)⟩
  · have he : OnlyPort n s (takeData n d s) := by
      rw [takeData_request h hk hr]
      exact ((OnlyPort.refl n s).modPort _).trans (modTxn_onlyPort _ _ _ _)
    have hserial := State.txn?_serial hk
    have hgot : (gotData k d).serial = serial := hserial
    refine ⟨_, rfl, ?_, ?_, fun i hi => ?_, he.ports, he.rest⟩
    · rw [takeData_request h hk hr, modTxn, State.port_modPort_same, State.port_modPort_same]
    · rw [takeData_request h hk hr, txn?_modTxn _ _ _ _ (fun _ _ => hgot), txn?_modPort n _ rfl, hk, Option.map_some, if_pos hserial]
      rfl
    · rw [takeData_request h hk hr, txn?_modTxn _ _ _ _ (fun _ _ => hgot), txn?_modPort n _ rfl]
      cases hx : s.txn? n i with
      | none => rfl
      | some y => rw [Option.map_some, if_neg (by rw [State.txn?_serial hx]; exact hi)]

end Sys2Proof.Machine
end

section
/-! SUPPORT. What credits given back and waits that end leave as it was (R131, R132, R226), and what an arbiter picks (R22, R23). -/
namespace Sys2Proof.Machine
open Sys2Proof

/-! ### Changes that touch credits alone -/

/-- A part of a port that a change of one port leaves is as it was in every port. -/
theorem part_modPort {α : Type} (part : Port → α) (m : Nat) (f : Port → Port) (s : State) (h : part (f (s.port m)) = part (s.port m))
    (i : Nat) : part ((s.modPort m f).port i) = part (s.port i) := by
  by_cases hi : i = m
  · subst hi
    rw [State.port_modPort_same, h]
  · rw [State.port_modPort_ne s m f hi]

/-- Of a port its credits, its flits sent and the time of the last of them may differ. -/
def CreditPart (p q : Port) : Prop :=
  q = { p with credit := q.credit, txLog := q.txLog, idleSince := q.idleSince, retry := q.retry }

theorem CreditPart.refl (p : Port) : CreditPart p p := rfl

theorem CreditPart.trans {p q r : Port} (h : CreditPart p q) (k : CreditPart q r) : CreditPart p r := by
  unfold CreditPart at *
  rw [k, h]

/-- A register that returns of credits write: PRT_LINK_SEQ or PRT_CREDIT_RX_TC. -/
def CreditReg (off : Nat) : Prop := off % 0x1000 = 0x308 ∨ (0x330 ≤ off % 0x1000 ∧ off % 0x1000 < 0x340)

/-- Credits are given back, on any ports, and nothing else happens. -/
structure CreditsOnly (x s : State) : Prop where
  part : ∀ i, CreditPart (x.port i) (s.port i)
  regs : ∀ off, ¬ CreditReg off → s.reg off = x.reg off
  rest : s = { x with regs := s.regs, ports := s.ports }

section
variable {x s t : State}

theorem CreditsOnly.refl (s : State) : CreditsOnly s s := ⟨fun _ => .refl _, fun _ _ => rfl, rfl⟩

theorem CreditsOnly.trans (h : CreditsOnly x s) (k : CreditsOnly s t) : CreditsOnly x t where
  part := fun i => (h.part i).trans (k.part i)
  regs := fun off ho => (k.regs off ho).trans (h.regs off ho)
  rest := by
    have hk := k.rest
    rw [h.rest] at hk
    exact hk

theorem CreditsOnly.ite {a b : State} {c : Prop} [Decidable c] (ha : CreditsOnly x a) (hb : CreditsOnly x b) :
    CreditsOnly x (if c then a else b) := by
  split <;> assumption

theorem CreditsOnly.now_eq (h : CreditsOnly x s) : s.now = x.now := by rw [h.rest]

theorem giveBack_creditsOnly (n kind k : Nat) {tc : Nat} (ht : tc < 4) (s : State) : CreditsOnly s (giveBack n tc kind k s) := by
  have h := giveBack_creditEdit n tc kind k s
  refine ⟨fun i => ?_, fun off ho => h.reg ?_ ?_, h.edit.rest⟩
  · by_cases hi : i = n
    · subst hi
      exact h.port
    · rw [h.edit.ports i hi]
      exact .refl _
  · rintro rfl
    exact ho (by simp only [CreditReg, Off.PRT_LINK_SEQ]; omega)
  · rintro rfl
    exact ho (by simp only [CreditReg, Off.PRT_CREDIT_RX_TC]; omega)

theorem rspLeaves_creditsOnly (via : Option Nat) (tc : BitVec 2) (rsp dat : Nat) (s : State) :
    CreditsOnly s (rspLeaves via tc.toNat rsp dat s) := by
  cases via with
  | none => exact .refl s
  | some e => exact (giveBack_creditsOnly e 2 rsp tc.isLt s).trans (giveBack_creditsOnly e 1 dat tc.isLt _)

theorem unstall_creditsOnly (n tc kind : Nat) (s : State) : CreditsOnly s (unstall n tc kind s) := by
  refine ⟨fun i => ?_, fun _ _ => rfl, rfl⟩
  by_cases hi : i = n
  · subst hi
    rw [unstall, State.modCredit, State.port_modPort_same]
    rfl
  · rw [unstall, State.modCredit, State.port_modPort_ne _ _ _ hi]
    exact .refl _

theorem CreditsOnly.txn? (h : CreditsOnly x s) (n serial : Nat) : s.txn? n serial = x.txn? n serial := by
  rw [State.txn?, State.txn?, h.part n]

end

/-! ### What an arbiter picks -/

section
variable {α : Type} {key : α → List Nat}

/-- The least element is none only of an empty list, and is one of the list. -/
theorem leastBy_cases (key : α → List Nat) (l : List α) :
    (l = [] ∧ leastBy key l = none) ∨ ∃ x ∈ l, leastBy key l = some x := by
  cases l with
  | nil => exact .inl ⟨rfl, rfl⟩
  | cons a l =>
    right
    refine List.foldlRecOn (motive := fun b => ∃ x ∈ a :: l, b = some x) l _ ⟨a, List.mem_cons_self, rfl⟩ ?_
    rintro _ ⟨y, hy, rfl⟩ x hx
    dsimp only
    split
    · exact ⟨x, List.mem_cons_of_mem _ hx, rfl⟩
    · exact ⟨y, hy, rfl⟩

theorem leastBy_mem {l : List α} {x : α} (h : leastBy key l = some x) : x ∈ l := by
  rcases leastBy_cases key l with ⟨-, hn⟩ | ⟨y, hy, he⟩
  · rw [hn] at h
    cases h
  · rw [he] at h
    cases h
    exact hy

theorem eq_nil_of_leastBy_none {l : List α} (h : leastBy key l = none) : l = [] := by
  rcases leastBy_cases key l with ⟨hl, -⟩ | ⟨y, hy, he⟩
  · exact hl
  · rw [he] at h
    cases h

/-- An arbiter picks one of those it can admit, and one past the age limit before any other (R22, R23). -/
theorem arbPick_some {s : State} {dest : Nat} {aged : α → Bool} {cls agent : α → Nat} {ls : List α} {x : α} {k : Nat}
    (h : arbPick s dest aged cls agent ls = some (x, k)) : x ∈ ls ∧ ((∃ y ∈ ls, aged y = true) → aged x = true) := by
  unfold arbPick at h
  extract_lets last at h
  split at h
  · next r hr =>
    cases h
    obtain ⟨hm, ha⟩ := List.mem_filter.mp (leastBy_mem hr)
    exact ⟨hm, fun _ => ha⟩
  · next hr =>
    have hnone := eq_nil_of_leastBy_none hr
    refine ⟨?_, fun ⟨y, hy, ha⟩ => absurd (hnone ▸ List.mem_filter.mpr ⟨hy, ha⟩) (by simp)⟩
    refine List.foldlRecOn (motive := fun b => ∀ y : α × Nat, b = some y → y.1 ∈ ls) (List.range 5) _ (by simp) ?_ (x, k) h
    intro b hb c _ y hy
    cases b with
    | some z => exact hb y hy
    | none =>
      obtain ⟨r, hr, rfl⟩ := Option.map_eq_some_iff.mp hy
      exact (List.mem_filter.mp (leastBy_mem hr)).1

end

end Sys2Proof.Machine
end

section
/-! SUPPORT. A response that is sent (R127, R146, R176, R179): the one that may go, and what its sending leaves. -/
namespace Sys2Proof.Machine
open Sys2Proof

section
variable {n : Nat} {r : ReadyRsp} {s : State}

/-- The response that may go has its credits, and no data slot goes before its own (R127, R179, R217). -/
theorem pickRsp_some (h : s.pickRsp n = some r) : s.hasTx n r.slot.tc.toNat 2 1 = true ∧ (s.port n).txData = [] ∧
    (r.data = [] ∨ s.hasTx n r.slot.tc.toNat 1 1 = true) := by
  unfold State.pickRsp at h
  extract_lets p ok at h
  have hok : ok r = true := by
    refine List.foldlRecOn (motive := fun b : Option ReadyRsp => ∀ y, b = some y → ok y = true) _ _ (by simp) ?_ r h
    intro b hb x _ y hy
    split at hy
    · next hx =>
      split at hy
      · cases hy
        exact hx
      · next z =>
        split at hy <;> cases hy
        · exact hx
        · exact hb _ rfl
    · exact hb y hy
  simp only [ok, Bool.and_eq_true, Bool.or_eq_true, List.isEmpty_iff] at hok
  obtain ⟨⟨hrsp, hempty⟩, hdat⟩ := hok
  exact ⟨hrsp, hempty, hdat⟩

/-! ### Parts of a port that stay -/

theorem monSample_rest (u lat tc : Nat) (write : Bool) (fwd : Option Bool) (s : State) :
    monSample u lat tc write fwd s = { s with mons := (monSample u lat tc write fwd s).mons } := by
  unfold monSample
  extract_lets m c kind scope sel
  split <;> rfl

/-- A latency that is measured marks its request, and counts in a monitor unit (R560). -/
theorem measure_cases (n : Nat) (r : ReadyRsp) (s : State) : measure n r s = s ∨ ∃ f ms,
    measure n r s = { modTxn n r.serial f s with mons := ms } := by
  unfold measure
  split
  · exact .inl rfl
  · split
    · exact .inl rfl
    · refine .inr ⟨fun x => { x with measured := true }, ?_⟩
      extract_lets s1
      split
      · exact ⟨_, monSample_rest _ _ _ _ _ s1⟩
      · exact ⟨_, rfl⟩

theorem modTxn_part {α : Type} (part : Port → α) (hp : ∀ (p : Port) (ts : List Txn), part { p with txns := ts } = part p)
    (m serial : Nat) (f : Txn → Txn) (s : State) (i : Nat) : part ((modTxn m serial f s).port i) = part (s.port i) := by
  unfold modTxn
  exact part_modPort part m _ s (hp _ _) i

theorem measure_part {α : Type} (part : Port → α) (hp : ∀ (p : Port) (ts : List Txn), part { p with txns := ts } = part p)
    (n : Nat) (r : ReadyRsp) (s : State) (i : Nat) : part ((measure n r s).port i) = part (s.port i) := by
  rcases measure_cases n r s with h | ⟨f, ms, h⟩ <;> rw [h]
  exact modTxn_part part hp n r.serial f s i

theorem measure_regs (n : Nat) (r : ReadyRsp) (s : State) : (measure n r s).regs = s.regs := by
  rcases measure_cases n r s with h | ⟨f, ms, h⟩ <;> rw [h]
  rfl

theorem useTx_ports (n tc kind k : Nat) (s : State) : (useTx n tc kind k s).ports = s.ports := by
  unfold useTx
  split <;> rfl

theorem endTxn_part {α : Type} (part : Port → α) (hp : ∀ (p : Port) (ts : List Txn) (fs : List Fence) (cs : List Ctx),
    part { p with txns := ts, fences := fs, ctxs := cs } = part p) (n serial : Nat) (s : State) (i : Nat) :
    part ((endTxn n serial s).port i) = part (s.port i) := by
  unfold endTxn
  extract_lets eg s1
  clear_value eg
  have h1 : part (s1.port i) = part (s.port i) := part_modPort part n _ s (hp _ _ _ (s.port n).ctxs) i
  split
  · exact (part_modPort part _ _ s1 (hp _ (s1.port _).txns (s1.port _).fences _) i).trans h1
  · exact h1

theorem endTxn_regs (n serial : Nat) (s : State) : (endTxn n serial s).regs = s.regs := by
  unfold endTxn
  extract_lets eg s1
  clear_value eg
  split <;> rfl

/-- A transaction that is over is in hand no longer. -/
theorem endTxn_txns (n serial : Nat) (s : State) : ∀ k ∈ ((endTxn n serial s).port n).txns, k.serial ≠ serial := by
  unfold endTxn
  extract_lets eg s1
  clear_value eg
  have h1 : ∀ k ∈ (s1.port n).txns, k.serial ≠ serial := fun k hk => by
    rw [State.port_modPort_same] at hk
    simpa using (List.mem_filter.mp hk).2
  split
  · rw [part_modPort Port.txns _ _ s1 rfl n]
    exact h1
  · exact h1

/-! ### What sending a response leaves -/

/-- A response has left the ready ones, and its data slots join those to be sent (R146). -/
def rspTaken (n : Nat) (r : ReadyRsp) (s : State) : State :=
  (useTx n r.slot.tc.toNat 2 1 (measure n r s)).modPort n (fun p => { p with
    ready := p.ready.erase r
    txData := p.txData ++ r.data.map (fun d => { tc := r.slot.tc, data := d, via := r.via }) })

theorem rspSent_eq (n : Nat) (r : ReadyRsp) (s : State) : rspSent n r s = changesDue n (.cmp r.serial)
    (if r.final then endTxn n r.serial (rspLeaves r.via r.slot.tc.toNat 1 0 (rspTaken n r s))
      else rspLeaves r.via r.slot.tc.toNat 1 0 (rspTaken n r s)) := rfl

theorem rspSent_part {α : Type} (part : Port → α) (hp : ∀ (p : Port) (ts : List Txn) (fs : List Fence) (cs : List Ctx),
    part { p with txns := ts, fences := fs, ctxs := cs } = part p)
    (hd : ∀ (p : Port) (ds : List Later), part { p with delayed := ds } = part p)
    (hc : ∀ p q, CreditPart p q → part q = part p) (n : Nat) (r : ReadyRsp) (s : State) :
    part ((rspSent n r s).port n) = part ((rspTaken n r s).port n) := by
  have hl := hc _ _ ((rspLeaves_creditsOnly r.via r.slot.tc 1 0 (rspTaken n r s)).part n)
  rw [rspSent_eq, changesDue, part_modPort part n _ _ (hd _ _)]
  split
  · exact (endTxn_part part hp n r.serial _ n).trans hl
  · exact hl

theorem rspSent_ready (n : Nat) (r : ReadyRsp) (s : State) : ((rspSent n r s).port n).ready = (s.port n).ready.erase r := by
  rw [rspSent_part Port.ready (fun _ _ _ _ => rfl) (fun _ _ => rfl) (fun p q h => by rw [h]), rspTaken,
    State.port_modPort_same, State.port,
    useTx_ports]
  exact congrArg (List.erase · r) (measure_part Port.ready (fun _ _ => rfl) n r s n)

theorem rspSent_txData (n : Nat) (r : ReadyRsp) (s : State) : ((rspSent n r s).port n).txData =
    (s.port n).txData ++ r.data.map (fun d => { tc := r.slot.tc, data := d, via := r.via }) := by
  rw [rspSent_part Port.txData (fun _ _ _ _ => rfl) (fun _ _ => rfl) (fun p q h => by rw [h]), rspTaken,
    State.port_modPort_same, State.port,
    useTx_ports]
  exact congrArg (· ++ _) (measure_part Port.txData (fun _ _ => rfl) n r s n)

/-- The final response frees its tag (R176). -/
theorem rspSent_final (hf : r.final = true) : ∀ k ∈ ((rspSent n r s).port n).txns, k.serial ≠ r.serial := by
  rw [rspSent_eq, if_pos hf, changesDue, part_modPort Port.txns n _ _ rfl]
  exact endTxn_txns n r.serial _

/-- The credits for the data slots of the class are those held before the response slot went. -/
theorem rspSent_hasTx (n : Nat) (r : ReadyRsp) (s : State) :
    (rspSent n r s).hasTx n r.slot.tc.toNat 1 1 = s.hasTx n r.slot.tc.toNat 1 1 := by
  have htaken : (rspTaken n r s).rd (fldTx n r.slot.tc.toNat 1) = s.rd (fldTx n r.slot.tc.toNat 1) := by
    refine Eq.trans (b := (useTx n r.slot.tc.toNat 2 1 (measure n r s)).rd (fldTx n r.slot.tc.toNat 1)) rfl ?_
    unfold useTx
    split
    · exact State.rd_of_regs (measure_regs n r s) _
    · rw [State.rd_wr_fldTx _ n _ (by decide) (by decide), if_neg (by decide)]
      exact State.rd_of_regs (measure_regs n r s) _
  have hleaves : (rspLeaves r.via r.slot.tc.toNat 1 0 (rspTaken n r s)).rd (fldTx n r.slot.tc.toNat 1) =
      s.rd (fldTx n r.slot.tc.toNat 1) := by
    refine (State.rd_of_reg ((rspLeaves_creditsOnly r.via r.slot.tc 1 0 _).regs _ ?_)).trans htaken
    have := r.slot.tc.isLt
    rw [fldTx_eq n _ (by decide)]
    simp only [CreditReg, Off.PRT_CREDIT_TX_TC]
    omega
  have hsent : (rspSent n r s).rd (fldTx n r.slot.tc.toNat 1) = s.rd (fldTx n r.slot.tc.toNat 1) := by
    refine Eq.trans ?_ hleaves
    rw [rspSent_eq]
    split
    · exact State.rd_of_regs (endTxn_regs n r.serial _) _
    · rfl
  rw [State.hasTx, State.hasTx, hsent]

/-! ### The flit of a response -/

theorem takeTxData_none (h : (s.port n).txData = []) : takeTxData n s = (none, s) := by
  simp only [takeTxData, h]

theorem takeTxData_some {d : TxSlot} {ds : List TxSlot} (h : (s.port n).txData = d :: ds) (ht : s.hasTx n d.tc.toNat 1 1 = true) :
    ∃ u, takeTxData n s = (some d.data, u) := by
  simp only [takeTxData, h, if_pos ht]
  exact ⟨_, rfl⟩

end

section
variable {n : PortId} {r : ReadyRsp} {s : State} (hc : s.canSend n = true) (hp : s.pickRsp n = some r)
include hc hp

/-- A response without data slots goes in a control flit. -/
theorem responseSend_alone (hd : r.data = []) (hx : (s.port n).txData = []) :
    exec (.responseSend n) s = .next (pumpAll (sendDone n (sendControl n [encRsp r.op r.slot] (rspSent n r s)))) := by
  have hnone : ((rspSent n r s).port n).txData = [] := by rw [rspSent_txData, hd, hx]; rfl
  show execResponseSend n s = _
  simp only [execResponseSend, sendRsp, if_pos hc, hp, takeTxData_none hnone]

/-- A response with data slots goes with the first of them, for which it has the credit. -/
theorem responseSend_withData {d : Line} {ds : List Line} (hd : r.data = d :: ds) : ∃ u, takeTxData n (rspSent n r s) = (some d, u) ∧
    exec (.responseSend n) s = .next (pumpAll (sendDone n (sendFlit n ftData [encRsp r.op r.slot] (some d) u))) := by
  obtain ⟨-, hx, hdat⟩ := pickRsp_some hp
  have ht : s.hasTx n r.slot.tc.toNat 1 1 = true := hdat.resolve_left (by rw [hd]; simp)
  have hnext : ((rspSent n r s).port n).txData = ⟨r.slot.tc, d, r.via⟩ :: ds.map (fun d => ⟨r.slot.tc, d, r.via⟩) := by
    rw [rspSent_txData, hd, hx]
    rfl
  obtain ⟨u, hu⟩ := takeTxData_some hnext ((rspSent_hasTx n r s).trans ht)
  refine ⟨u, hu, ?_⟩
  show execResponseSend n s = _
  simp only [execResponseSend, sendRsp, if_pos hc, hp, hu]

end

end Sys2Proof.Machine
end

section
/-! SUPPORT. What waits too long (R23, R230, R232): a request held at the forwarder, a context, a request or line at an arbiter. -/
namespace Sys2Proof.Machine
open Sys2Proof

/-! ### PATH_DOWN -/

section
variable {n serial : Nat} {s : State}

/-- A forwarded request that ends without an answer from its path is counted, and its CMP is ready (R230 to R232). -/
theorem pathDown_alive {k : Txn} (hk : s.txn? n serial = some k) (hd : k.dead = false) : pathDown n serial s =
    (s.sat (Fld.PRT_POOL_REFUSED_PATH_DOWN n)).modPort n (fun p => { p with
      ready := p.ready ++ [cmpReady k stPathDown (s.role n == 1)] }) := by
  have hrole : (s.sat (Fld.PRT_POOL_REFUSED_PATH_DOWN n)).role n = s.role n :=
    State.rd_sat_ne s _ _ 1 (by simp [Fld.PRT_POOL_REFUSED_PATH_DOWN, Fld.PRT_POOL_CTRL_ROLE])
  unfold State.txn? at hk
  simp only [pathDown, hk, hd, answerCmp, pushReady, hrole, Bool.false_eq_true, if_false]
  rfl

theorem pathDown_answers {k : Txn} (hk : s.txn? n serial = some k) (hd : k.dead = false) :
    ((pathDown n serial s).port n).ready = (s.port n).ready ++ [cmpReady k stPathDown (s.role n == 1)] ∧
    (pathDown n serial s).rd (Fld.PRT_POOL_REFUSED_PATH_DOWN n) = min (2 ^ (Fld.PRT_POOL_REFUSED_PATH_DOWN n).w - 1)
      (s.rd (Fld.PRT_POOL_REFUSED_PATH_DOWN n) + 1) := by
  rw [pathDown_alive hk hd, State.port_modPort_same, State.modPort_rd, State.rd_sat_same s _ 1 (of_decide_eq_true rfl)]
  exact ⟨rfl, rfl⟩

end

/-! ### A request held at the forwarder -/

/-- A request is no longer held at the forwarder, and its credits are given back (R132, R230). -/
def heldFreed (n : Nat) (w : FwdWait) (t : Nat) (s : State) : State :=
  let tc := (slotTc w.slot).toNat
  let s := (s.atLeast t).modPort n (fun p => { p with fwd := p.fwd.erase w })
  let s := forUpto 2 (fun kind a => if a.poolWanted w.egress tc kind w.serial n then a else unstall w.egress tc kind a) s
  giveBack n tc 1 w.data.length (giveBack n tc 0 1 s)

section
variable {n : Nat} {w : FwdWait} {t : Nat} {s : State}

theorem heldFreed_creditsOnly : CreditsOnly ((s.atLeast t).modPort n (fun p => { p with fwd := p.fwd.erase w })) (heldFreed n w t s) := by
  have htc := (slotTc w.slot).isLt
  have hu : CreditsOnly ((s.atLeast t).modPort n (fun p => { p with fwd := p.fwd.erase w }))
      (forUpto 2 (fun kind a => if a.poolWanted w.egress (slotTc w.slot).toNat kind w.serial n then a
        else unstall w.egress (slotTc w.slot).toNat kind a) ((s.atLeast t).modPort n (fun p => { p with fwd := p.fwd.erase w }))) :=
    forUpto_induction 2 _ _ (.refl _) fun kind a _ ha => .ite ha (ha.trans (unstall_creditsOnly _ _ _ a))
  exact (hu.trans (giveBack_creditsOnly n 0 1 htc _)).trans (giveBack_creditsOnly n 1 _ htc _)

theorem heldFreed_now : (heldFreed n w t s).now = max s.now t := heldFreed_creditsOnly.now_eq

theorem heldFreed_fwd : ((heldFreed n w t s).port n).fwd = (s.port n).fwd.erase w := by
  rw [heldFreed_creditsOnly.part n, State.port_modPort_same]
  rfl

theorem heldFreed_txn? (serial : Nat) : (heldFreed n w t s).txn? n serial = s.txn? n serial := by
  rw [heldFreed_creditsOnly.txn?, txn?_modPort n _ rfl]
  rfl

end

section
variable {n : PortId} {s : State}

theorem exec_forwardHoldTimeout {w : FwdWait} {t0 : Nat} (hw : (s.port n).fwd.find? (fun w => w.starved.isSome) = some w)
    (ht : w.starved = some t0) (hk : s.rd (Fld.PRT_POOL_CTRL_HOLD_TO n) ≠ 15) : exec (.forwardHoldTimeout n) s =
    .next (pumpAll (pathDown n w.serial (modTxn n w.serial (fun t => { t with dispatched := true, forwarded := none })
      (heldFreed n w (t0 + 2 ^ s.rd (Fld.PRT_POOL_CTRL_HOLD_TO n) * tUs) s)))) := by
  show execForwardHoldTimeout n s = _
  simp only [execForwardHoldTimeout, hw, if_neg hk, ht, Option.getD_some]
  rfl

theorem forwardHoldTimeout_givesUp {w : FwdWait} {t0 : Nat} (hw : (s.port n).fwd.find? (fun w => w.starved.isSome) = some w)
    (ht : w.starved = some t0) (hk : s.rd (Fld.PRT_POOL_CTRL_HOLD_TO n) ≠ 15) : ∃ v,
    exec (.forwardHoldTimeout n) s = .next (pumpAll (pathDown n w.serial v)) ∧
    v.now = max s.now (t0 + 2 ^ s.rd (Fld.PRT_POOL_CTRL_HOLD_TO n) * tUs) ∧ (v.port n).fwd = (s.port n).fwd.erase w ∧
    v.txn? n w.serial = (s.txn? n w.serial).map (fun t => { t with dispatched := true, forwarded := none }) := by
  refine ⟨_, exec_forwardHoldTimeout hw ht hk, heldFreed_now, ?_, ?_⟩
  · rw [modTxn_part Port.fwd (fun _ _ => rfl), heldFreed_fwd]
  · rw [txn?_modTxn n w.serial w.serial (fun t => { t with dispatched := true, forwarded := none }) (fun _ h => h), heldFreed_txn?]
    cases hx : s.txn? n w.serial with
    | none => rfl
    | some k => rw [Option.map_some, Option.map_some, if_pos (State.txn?_serial hx)]

/-! ### A context -/

/-- A context has waited too long: it is counted and quarantined, and its request is forwarded no longer (R232). -/
def ctxGivenUp (n : Nat) (c : Ctx) (t : Nat) (s : State) : State :=
  modTxn c.ingress c.serial (fun t => { t with forwarded := none })
    (((s.atLeast t).sat (Fld.PRT_POOL_REFUSED_CTX_TIMEOUT n)).modPort n (fun p => { p with
      ctxs := p.ctxs.map (fun x => if x.id = c.id then { x with quarantined := true } else x) }))

theorem exec_contextTimeout {ctx : BitVec 12} {c : Ctx} (hc : (s.port n).ctxs.find? (fun c => c.id == ctx.toNat) = some c)
    (hk : s.rd (Fld.PRT_POOL_CTRL_CTX_TO n) ≠ 15) (hq : c.quarantined = false)
    (hr : (s.port c.ingress).ready.any (fun r => r.serial == c.serial && r.final) = false)
    (hl : (s.port n).relay.any (fun r => r.ctx == c.id && r.owed == 0 && rspFinal (encRsp r.op r.slot)) = false) :
    exec (.contextTimeout n ctx) s = .next (pumpAll (pathDown c.ingress c.serial
      (ctxGivenUp n c (c.since + 2 ^ s.rd (Fld.PRT_POOL_CTRL_CTX_TO n) * tUs) s))) := by
  show execContextTimeout n ctx s = _
  have hgo : ¬ (s.rd (Fld.PRT_POOL_CTRL_CTX_TO n) = 15 ∨ c.quarantined = true ∨
      (s.port c.ingress).ready.any (fun r => r.serial == c.serial && r.final) = true ∨
      (s.port n).relay.any (fun r => r.ctx == c.id && r.owed == 0 && rspFinal (encRsp r.op r.slot)) = true) := by
    rw [hq, hr, hl]
    simpa using hk
  simp only [execContextTimeout, hc, if_neg hgo]
  rfl

theorem ctxGivenUp_quarantined (n : Nat) (c : Ctx) (t : Nat) (s : State) :
    ∀ x ∈ ((ctxGivenUp n c t s).port n).ctxs, x.id = c.id → x.quarantined = true := by
  rw [ctxGivenUp, modTxn_part Port.ctxs (fun _ _ => rfl), State.port_modPort_same]
  intro x hx hid
  obtain ⟨y, -, rfl⟩ := List.mem_map.mp hx
  split at hid
  · next h => rw [if_pos h]
  · next h => exact absurd hid h

theorem ctxGivenUp_counts (n : Nat) (c : Ctx) (t : Nat) (s : State) :
    (ctxGivenUp n c t s).rd (Fld.PRT_POOL_REFUSED_CTX_TIMEOUT n) = min (2 ^ (Fld.PRT_POOL_REFUSED_CTX_TIMEOUT n).w - 1)
      (s.rd (Fld.PRT_POOL_REFUSED_CTX_TIMEOUT n) + 1) ∧ RegsKept s (ctxGivenUp n c t s) [Off.PRT_POOL_REFUSED n] :=
  ⟨State.rd_sat_same (s.atLeast t) _ 1 (of_decide_eq_true rfl),
    (((RegsKept.refl s _).of_regs (t := s.atLeast t) rfl).wr (f := Fld.PRT_POOL_REFUSED_CTX_TIMEOUT n) List.mem_cons_self _).of_regs rfl⟩

/-! ### The age limit of an arbiter -/

/-- A line that has waited 64 fabric cycles at its pavilion's arbiter goes before the others (R23). -/
theorem arbiterAgeLimit_line {id : Nat} {r : LineReq} (h : s.prom.find? (fun r => r.id == id) = some r) :
    exec (.arbiterAgeLimit id) s = .next { s with
      now := max s.now (r.since + 64 * tFab)
      prom := s.prom.map (fun x => if x.id = id then { x with promoted := true } else x) } := by
  show execArbiterAgeLimit id s = _
  simp only [execArbiterAgeLimit, h]
  rfl

/-- A request that waits at the signpost table's arbiter is marked (R23). -/
theorem arbiterAgeLimit_request {id : Nat} {k : Txn} {w : FwdWait} (h : s.prom.find? (fun r => r.id == id) = none)
    (hk : k ∈ (s.port n).txns) (hid : k.rid = id) (hw : w ∈ (s.port n).fwd) (hs : w.serial = k.serial)
    (ho : ∀ i < 16, i ≠ n.val → ∀ x ∈ (s.port i).txns, x.rid ≠ id) : ∃ t, exec (.arbiterAgeLimit id) s =
      .next ((s.atLeast t).modPort n (fun q => { q with
        txns := q.txns.map (fun x => if x.rid = id then { x with aged := true } else x) })) := by
  show ∃ t, execArbiterAgeLimit id s = _
  unfold execArbiterAgeLimit
  simp only [h]
  split
  · next m hm =>
    have hmn : m = n.val := by
      have hany := List.find?_some hm
      simp only [List.any_eq_true, Bool.and_eq_true, beq_iff_eq] at hany
      obtain ⟨x, hx, hwait⟩ := hany
      have hlt := List.mem_range.mp (List.mem_of_find?_eq_some hm)
      exact Decidable.byContradiction fun hne => ho m hlt hne x hx hwait.1
    subst hmn
    exact ⟨_, rfl⟩
  · next hm =>
    refine absurd (List.find?_eq_none.mp hm n.val (List.mem_range.mpr n.isLt)) (not_not.mpr (List.any_eq_true.mpr ⟨k, hk, ?_⟩))
    have hfwd : (s.port n).fwd.any (fun w => w.serial == k.serial) = true := List.any_eq_true.mpr ⟨w, hw, by simp [hs]⟩
    simp [hid, hfwd]

end

/-! ### The line that is granted -/

/-- The line a pavilion's arbiter picks waits for that pavilion and can be admitted now; one past the age limit goes first. -/
theorem pickLine_some {p k : Nat} {x : LineReq} {s : State} (h : s.pickLine p = some (x, k)) :
    x ∈ s.prom ∧ x.loc.pav = p ∧ s.noRoom p x = none ∧
    ((∃ y ∈ s.promHeads p, y.promoted = true ∧ s.noRoom p y = none ∧ s.lineFrom p y ≤ s.now / tFab) → x.promoted = true) := by
  obtain ⟨hm, haged⟩ := arbPick_some h
  obtain ⟨hhead, hroom⟩ := List.mem_filter.mp hm
  obtain ⟨hprom, hpav⟩ := List.mem_filter.mp (List.mem_filter.mp hhead).1
  simp only [Bool.and_eq_true, Option.isNone_iff_eq_none] at hroom
  refine ⟨hprom, by simpa using hpav, hroom.1, fun ⟨y, hy, ha, hn, hl⟩ => haged ⟨y, List.mem_filter.mpr ⟨hy, ?_⟩, ha⟩⟩
  simp [hn, hl]

end Sys2Proof.Machine
end

section
/-! O37. Responses leave with their credits, and what waits too long is given up. -/
namespace Sys2Proof.Machine
open Sys2Proof

/-- Settles O37: the response that may go takes its credits and its first data slot with it (`responseSend_withData`); a wait that is
given up is answered PATH_DOWN (`pathDown_answers`); an arbiter grants by age first (`arbPick_some`). -/
theorem responsesLeaveAndWaitsExpire : Obligations.ResponsesLeaveAndWaitsExpire := by
  unfold Obligations.ResponsesLeaveAndWaitsExpire
  refine ⟨fun n r s hc hp => ⟨(pickRsp_some hp).1, responseSend_alone hc hp, fun d ds => responseSend_withData hc hp,
    rspSent_ready n r s, rspSent_final⟩, fun n s => ⟨fun w t0 hw ht hk => forwardHoldTimeout_givesUp hw ht hk,
    fun serial k hk hd => pathDown_answers hk hd, fun ctx c hc hk hq hr hl => ?_, fun id r h => ?_, fun id k w h hk hid hw hs ho => ?_,
    fun _ => rfl, rfl, fun dest h => ?_, fun p x k h => pickLine_some h⟩⟩
  · obtain ⟨hrd, hregs⟩ := ctxGivenUp_counts n c (c.since + 2 ^ s.rd (Fld.PRT_POOL_CTRL_CTX_TO n) * tUs) s
    exact ⟨_, exec_contextTimeout hc hk hq hr hl, rfl, hrd, ctxGivenUp_quarantined n c _ s, hregs⟩
  · exact ⟨_, arbiterAgeLimit_line h, rfl, rfl, rfl⟩
  · obtain ⟨t, ht⟩ := arbiterAgeLimit_request h hk hid hw hs ho
    refine ⟨_, ht, ?_, ((PortsKept.refl s n).of_ports (t := s.atLeast t) rfl).modPort _, rfl⟩
    rw [State.port_modPort_same]
    rfl
  · rcases h with rfl | rfl | rfl <;> rfl

end Sys2Proof.Machine
end

section
/-! SUPPORT. What a pavilion's scheduler may issue (R251, R272), its atomics (R160, R265) and its sparing copies (R369). -/
namespace Sys2Proof.Machine
open Sys2Proof

/-! ### What may issue -/

section
variable {p t : Nat} {rows : List RowCand} {cols : List ColCand} {s : State}

/-- A row command that issues is one of those that wait, and is legal by then (R251). -/
theorem pickRow_some {w : RowCand} (h : s.pickRow p t rows cols = some w) : w ∈ rows ∧ w.at_ ≤ t := by
  obtain ⟨hmem, hok⟩ := List.mem_filter.mp (leastBy_mem h)
  rw [State.rowOk, Bool.and_eq_true] at hok
  exact ⟨hmem, of_decide_eq_true hok.1⟩

theorem pauseStops_eq_false {v : Pav} {lvl : Nat} {free : Bool} (h : pauseStops v t lvl free = false) (ht : t < v.pausedUntil)
    (hf : free = false) : lvl = 1 ∨ lvl = 5 := by
  simp only [pauseStops, ht, hf, decide_true, Bool.not_false, Bool.true_and, Bool.and_eq_false_iff, bne_eq_false_iff_eq] at h
  exact h

/-- A column command that issues is one of those that wait, is legal by then, and is none that a pause stops (R251, R272). -/
theorem pickCol_some {c : ColCand} (h : s.pickCol p t rows cols = some c) :
    c ∈ cols ∧ c.at_ ≤ t ∧ pauseStops (s.pav p) t c.lvl c.free = false := by
  obtain ⟨hmem, hok⟩ := List.mem_filter.mp (leastBy_mem h)
  simp only [State.colOk, Bool.and_eq_true, Bool.not_eq_true'] at hok
  exact ⟨hmem, of_decide_eq_true hok.1.1, hok.1.2⟩

end

section
variable {p : PavId} {s : State}

theorem schedulerIssue_gated (h : ((pavSettle p s).pav p).gated = true) : exec (.schedulerIssue p) s = .next (pavSettle p s) := by
  show execSchedulerIssue p s = _
  simp only [execSchedulerIssue, h, if_true]

theorem schedulerIssue_issues {t : Nat} {u : State} (hg : ((pavSettle p s).pav p).gated = false)
    (h : (pavSettle p s).issueFirst p ((pavSettle p s).rowCands p) ((pavSettle p s).colCands p)
      (((pavSettle p s).rowCands p).length + ((pavSettle p s).colCands p).length + 2) (cycleFrom (pavSettle p s).now) = some (t, u)) :
    exec (.schedulerIssue p) s = .next (drainStep p (trimStep p (serveBuffered p (refAll p u)))) := by
  show execSchedulerIssue p s = _
  simp only [execSchedulerIssue, hg, h, Bool.false_eq_true, if_false]

theorem rmwComplete_done {e : Ent} {g : Got} (he : (s.pav p).ents.find? (fun e => e.st == .merging) = some e) (hg : e.got = some g) :
    exec (.rmwComplete p) s =
      .next (pumpAll (drainStep p (pavSettle p (rmwDone p e g (s.atLeast (s.now + 2 * tPav)))))) := by
  show execRmwComplete p s = _
  simp only [execRmwComplete, he, hg]

end

/-! ### Atomics -/

/-- A line goes to the write buffer in the entry that asked for it (R160, R265). -/
def lineBuffered (p : Nat) (e : Ent) (w : RawLine) (s : State) : State := s.modPav p (fun v => { v with ents := v.ents.map (fun x =>
  if x.req.id = e.req.id then { x with st := .buffered, words := w, got := none } else x) })

theorem lineBuffered_ents (p : Nat) (e : Ent) (w : RawLine) (s : State) :
    ∀ x ∈ ((lineBuffered p e w s).pav p).ents, x.req.id = e.req.id → x.st = .buffered ∧ x.words = w := by
  rw [lineBuffered, State.pav_modPav_same]
  intro x hx hid
  obtain ⟨y, -, rfl⟩ := List.mem_map.mp hx
  split at hid
  · next h =>
    rw [if_pos h]
    exact ⟨rfl, rfl⟩
  · next h => exact absurd hid h

/-- The AT_DATA of an atomic whose word was read: the old word, whether the operation wrote, whether the word was corrected (R160, R172). -/
def atomicReady (k : Txn) (old : Word64) (written corr peer : Bool) : ReadyRsp :=
  { op := 0x22, slot := { cmpOf k stOk peer with spec := BitVec.ofNat 49 (b2n written + 2 * b2n corr) },
    data := [lineOf (leBytes 8 old.toNat)], serial := k.serial, final := true }

theorem atomicReady_written (k : Txn) (old : Word64) (written corr peer : Bool) :
    (atomicReady k old written corr peer).slot.spec.getLsbD 0 = written := by
  show (BitVec.ofNat 49 (b2n written + 2 * b2n corr)).getLsbD 0 = written
  cases written <;> cases corr <;> rfl

theorem atomicDone_alive {n serial : Nat} {k : Txn} {s : State} (hk : s.txn? n serial = some k) (hd : k.dead = false) (old : Word64)
    (written corr : Bool) : atomicDone (.port n serial) stOk old written corr s =
      s.modPort n (fun q => { q with ready := q.ready ++ [atomicReady k old written corr (s.role n == 1)] }) := by
  simp only [atomicDone, hk, answer_alive hd]
  rfl

section
variable {p word : Nat} {e : Ent} {g : Got} {op : MemOp} {a c : Word64} {s : State}

/-- An atomic on a word that could be read writes its line to the write buffer and answers with the old word (R160). -/
theorem rmwDone_atomic (hop : e.req.op = .atomic op word a c) (hun : g.uncorr.getLsbD word = false) :
    let old := g.data.toList.getD word 0
    rmwDone p e g s = atomicDone e.req.owner stOk old (atomicNew op old a c).isSome (g.corr.getLsbD word)
      (lineBuffered p e (atomicLine g word ((atomicNew op old a c).getD old)) s) := by
  dsimp only
  simp only [rmwDone, hop, hun, Bool.false_eq_true, if_false]
  cases atomicNew op (g.data.toList.getD word 0) a c with
  | none => rfl
  | some x => rfl

end

/-! ### Sparing copies -/

/-- Writes of lines change nothing but the DRAM. -/
theorem writeWord_rest (p b phys col w : Nat) (v : Raw72) (s : State) :
    writeWord p b phys col w v s = { s with dram := (writeWord p b phys col w v s).dram } :=
  List.foldlRecOn (motive := fun u : State => u = { s with dram := u.dram }) _ _ rfl fun u hu _ _ => by rw [hu]

theorem writePhys_rest (p b phys col : Nat) (v : RawLine) (s : State) :
    writePhys p b phys col v s = { s with dram := (writePhys p b phys col v s).dram } :=
  forUpto_induction (P := fun u : State => u = { s with dram := u.dram }) 8 _ s rfl fun w u _ hu => by
    rw [writeWord_rest, hu]

/-- The lines of a running copy are in the spare it fills (R369). -/
def copyWritten (p : Nat) (c : Copy) (flips : List RawLine) (s : State) : State :=
  (copyRest p c s).zipIdx.foldl (fun a e =>
    writePhys p c.bank (physOfSpare c.spare) e.2 (copyWords e.1 (flips.getD e.2 (Vector.replicate 8 0))) a) s

theorem copyWritten_pavs (p : Nat) (c : Copy) (flips : List RawLine) (s : State) : (copyWritten p c flips s).pavs = s.pavs :=
  List.foldlRecOn (motive := fun u : State => u.pavs = s.pavs) _ _ rfl fun u hu _ _ => by rw [writePhys_rest, ← hu]

/-- The bank of a copy, precharged if it is open. -/
def bankShut (p b : Nat) (s : State) : State := if (s.bank p b).open_.isSome then closeBank p b s.now s else s

theorem PavsKept.modPav {x s : State} {p : Nat} (h : PavsKept x s p) (f : Pav → Pav) : PavsKept x (s.modPav p f) p :=
  fun i hi => (State.pav_modPav_ne s p f hi).trans (h i hi)

theorem PavsKept.of_pavs {x s t : State} {p : Nat} (h : PavsKept x s p) (hp : t.pavs = s.pavs) : PavsKept x t p :=
  fun i hi => (congrArg (tabGet Pav.reset · i) hp).trans (h i hi)

theorem State.bank_modBank_same (p b : Nat) (f : Bank → Bank) (s : State) : (s.modBank p b f).bank p b = f (s.bank p b) := by
  rw [State.modBank, State.setBank, State.bank, State.pav_modPav_same]
  exact tabGet_tabSet_same _ _ _ _

theorem rowClosed_bank (p b row t i : Nat) (s : State) : (rowClosed p b row t s).bank p i = s.bank p i := by
  rw [State.bank, rowClosed, State.pav_modPav_same]
  rfl

theorem closeBank_open (p b t : Nat) (s : State) : ((closeBank p b t s).bank p b).open_ = none := by
  unfold closeBank
  cases (s.bank p b).open_ with
  | none => simp only [State.bank_modBank_same]
  | some r => simp only [rowClosed_bank, State.bank_modBank_same]

theorem closeBank_pavsKept (p b t : Nat) (s : State) : PavsKept s (closeBank p b t s) p := by
  have hm : PavsKept s (s.modBank p b (fun k => { k with open_ := none, pre := some t, hits := 0, close := none, stop := [] })) p :=
    PavsKept.modPav (fun _ _ => rfl) _
  unfold closeBank
  cases (s.bank p b).open_ with
  | none => exact hm
  | some r => exact hm.modPav _

theorem bankShut_open (p b : Nat) (s : State) : ((bankShut p b s).bank p b).open_ = none := by
  unfold bankShut
  split
  · exact closeBank_open p b _ s
  · next h => exact Option.not_isSome_iff_eq_none.mp h

theorem bankShut_pavsKept (p b : Nat) (s : State) : PavsKept s (bankShut p b s) p := by
  unfold bankShut
  split
  · exact closeBank_pavsKept p b _ s
  · exact fun _ _ => rfl

/-! ### Rows that another spare serves -/

/-- A pavilion whose row is served by spare j from now on (R368, R369); phys is where the row was. -/
def rowSwitched (b row j phys : Nat) (v : Pav) : Pav := { v with
  repeats := v.repeats.filter (fun e => !(e.bank == b && e.phys == phys))
  leftSpares := v.leftSpares ++ (v.spared.filter (fun x => x.bank == b && x.row == row)).map (fun x => (b, x.spare))
  spared := v.spared.filter (fun x => !(x.bank == b && x.row == row)) ++ [{ bank := b, row := row, spare := j, runtime := true }] }

/-- A lost record is counted, and its event raised at most once in a turn: the pavilions stay as they are (R375). -/
theorem logRecord_pavs (p : Nat) (r : EccRec) (s : State) : (logRecord p r s).pavs = s.pavs ∨
    logRecord p r s = s.modPav p (fun v => { v with records := v.records ++ [r] }) := by
  unfold logRecord
  split
  · exact .inl rfl
  split
  · exact .inl (by rw [State.raiseOnce_pavs, State.sat_pavs])
  · exact .inr rfl

theorem logRecord_pavsKept (p : Nat) (r : EccRec) (s : State) : PavsKept s (logRecord p r s) p := by
  rcases logRecord_pavs p r s with h | h
  · exact PavsKept.of_pavs (fun _ _ => rfl) h
  · rw [h]
    exact PavsKept.modPav (fun _ _ => rfl) _

/-- A part of a pavilion that its error records are no part of. -/
theorem logRecord_part {α : Type} (part : Pav → α) (hp : ∀ (v : Pav) (rs : List EccRec), part { v with records := rs } = part v)
    (p : Nat) (r : EccRec) (s : State) : part ((logRecord p r s).pav p) = part (s.pav p) := by
  rcases logRecord_pavs p r s with h | h
  · exact congrArg (fun l => part (tabGet Pav.reset l p)) h
  · rw [h, State.pav_modPav_same, hp]

/-- The pavilion of a row that another spare serves from now on: the row is switched, then its record is written and its event raised. -/
theorem switchRow_eq (p b row j : Nat) (s : State) : ∃ r t,
    switchRow p b row j s = ((logRecord p r t).raise (evPav p 9) b).sat (Fld.PAV_REPAIR_STAT_RUNTIME_USED p) ∧
    t.pav p = rowSwitched b row j (s.physOf p b row) (s.pav p) ∧ PavsKept s t p := by
  refine ⟨_, _, rfl, ?_, (PavsKept.modPav (fun _ _ => rfl) _).modPav _⟩
  rw [State.pav_modPav_same, freeRepeats, State.pav_modPav_same]
  rfl

theorem switchRow_part {α : Type} (part : Pav → α) (hp : ∀ (v : Pav) (rs : List EccRec), part { v with records := rs } = part v)
    (p b row j : Nat) (s : State) :
    part ((switchRow p b row j s).pav p) = part (rowSwitched b row j (s.physOf p b row) (s.pav p)) := by
  obtain ⟨r, t, he, ht, -⟩ := switchRow_eq p b row j s
  rw [he, State.sat_pav, State.raise_pav, logRecord_part part hp p r t, ht]

theorem switchRow_pavsKept (p b row j : Nat) (s : State) : PavsKept s (switchRow p b row j s) p := by
  obtain ⟨r, t, he, -, ht⟩ := switchRow_eq p b row j s
  intro i hi
  rw [he, State.sat_pav, State.raise_pav, logRecord_pavsKept p r t i hi, ht i hi]

theorem switchRow_raised (p b row j : Nat) (s : State) : Raised (switchRow p b row j s) (evPav p 9) := State.raise_sets_out _ _ _

/-- A row that was switched to a spare is served by it (R250, R369). -/
theorem switchRow_physOf (p b row j : Nat) (s : State) : (switchRow p b row j s).physOf p b row = physOfSpare j := by
  have hfind : ((switchRow p b row j s).pav p).spared.find? (fun x => x.bank == b && x.row == row) =
      some { bank := b, row := row, spare := j, runtime := true } := by
    rw [switchRow_part Pav.spared (fun _ _ => rfl), rowSwitched, List.find?_append, List.find?_eq_none.mpr]
    · simp
    · intro x hx
      simpa only [Bool.not_eq_true', Bool.not_eq_true] using (List.mem_filter.mp hx).2
  rw [State.physOf, State.spareOf, hfind]

/-! ### Sparing copies that finish -/

/-- A finished copy: its lines are in the spare, its bank is shut, the row is switched and the command that asked for it ends (R369). -/
def copyDone (p : Nat) (c : Copy) (rest : List Copy) (flips : List RawLine) (s : State) : State :=
  let s := switchRow p c.bank c.row c.spare
    ((bankShut p c.bank (copyWritten p c flips (s.atLeast (s.copyOver p c)))).modPav p (fun v => { v with copies := rest }))
  match c.mbx with | some m => s.finish m ccOk [0] | none => s

theorem exec_sparingCopyDone {p : PavId} {c : Copy} {rest : List Copy} {s : State} (hc : (s.pav p).copies = c :: rest)
    (hr : c.running = true) (flips : List RawLine) :
    exec (.sparingCopyDone p flips) s = .next (pumpAll (drainStep p (pavSettle p (copyDone p c rest flips s)))) := by
  show execSparingCopyDone p flips s = _
  simp only [execSparingCopyDone, hc, hr, if_true]
  rfl

theorem State.finish_crossing (m code : Nat) (pl : List Byte) (s : State) : (s.finish m code pl).crossing = s.crossing := by
  unfold State.finish
  dsimp only
  split <;> rfl

/-- A finished copy as the row is switched: the command that asked for it is in its mailbox. -/
theorem copyDone_eq (p : Nat) (c : Copy) (rest : List Copy) (flips : List RawLine) (s : State) : ∃ t,
    (copyDone p c rest flips s).pavs = (switchRow p c.bank c.row c.spare t).pavs ∧
    (copyDone p c rest flips s).crossing = (switchRow p c.bank c.row c.spare t).crossing ∧
    (t.pav p).copies = rest ∧ (t.bank p c.bank).open_ = none ∧ PavsKept s t p := by
  refine ⟨(bankShut p c.bank (copyWritten p c flips (s.atLeast (s.copyOver p c)))).modPav p (fun v => { v with copies := rest }),
    ?_, ?_, ?_, ?_, ?_⟩
  · unfold copyDone
    cases c.mbx with
    | none => rfl
    | some m => exact State.finish_pavs _ _ _ _
  · unfold copyDone
    cases c.mbx with
    | none => rfl
    | some m => exact State.finish_crossing _ _ _ _
  · rw [State.pav_modPav_same]
  · rw [State.bank, State.pav_modPav_same]
    exact bankShut_open p c.bank _
  · refine PavsKept.modPav (fun i hi => (bankShut_pavsKept p c.bank _ i hi).trans ?_) _
    exact congrArg (tabGet Pav.reset · i) (copyWritten_pavs p c flips _)

theorem copyDone_switches (p : Nat) (c : Copy) (rest : List Copy) (flips : List RawLine) (s : State) :
    let u := copyDone p c rest flips s
    u.physOf p c.bank c.row = physOfSpare c.spare ∧ (u.pav p).copies = rest ∧ (u.bank p c.bank).open_ = none ∧
    Raised u (evPav p 9) ∧ PavsKept s u p := by
  obtain ⟨t, hpavs, hcross, hcopies, hopen, hkept⟩ := copyDone_eq p c rest flips s
  have hpav : ∀ i, (copyDone p c rest flips s).pav i = (switchRow p c.bank c.row c.spare t).pav i := fun i =>
    congrArg (tabGet Pav.reset · i) hpavs
  refine ⟨?_, ?_, ?_, (switchRow_raised p c.bank c.row c.spare t).of_crossing hcross, fun i hi => ?_⟩
  · rw [← switchRow_physOf p c.bank c.row c.spare t, State.physOf, State.spareOf, hpav]
    rfl
  · rw [hpav, switchRow_part Pav.copies (fun _ _ => rfl)]
    exact hcopies
  · rw [State.bank, hpav, switchRow_part Pav.banks (fun _ _ => rfl)]
    exact hopen
  · rw [hpav, switchRow_pavsKept _ _ _ _ t i hi, hkept i hi]

end Sys2Proof.Machine
end

section
/-! O41. The engines of a pavilion issue, return, modify and copy. -/
namespace Sys2Proof.Machine
open Sys2Proof

/-- Settles O41: what is picked is one of the commands that wait and may issue (`pickRow_some`, `pickCol_some`); an atomic buffers its line
and answers (`rmwDone_atomic`, `atomicDone_alive`); a finished copy switches its row (`copyDone_switches`). -/
theorem pavilionEnginesRun : Obligations.PavilionEnginesRun := by
  unfold Obligations.PavilionEnginesRun
  refine fun p s => ⟨schedulerIssue_gated, fun t u => schedulerIssue_issues, fun t rows cols w => pickRow_some, fun t rows cols c h => ?_,
    fun _ => rfl, fun e g => rmwComplete_done, fun e g op word a c n serial k hop how _ hun hk hd => ?_,
    fun c rest flips hc hr => ⟨_, exec_sparingCopyDone hc hr flips, copyDone_switches p c rest flips s⟩⟩
  · obtain ⟨hmem, hat, hpause⟩ := pickCol_some h
    exact ⟨hmem, hat, pauseStops_eq_false hpause⟩
  · dsimp only
    rw [rmwDone_atomic hop hun, how, atomicDone_alive (s := lineBuffered p e _ s) hk hd]
    exact ⟨lineBuffered_ents p e _ s, atomicReady k _ _ _ (s.role n == 1), by rw [State.port_modPort_same]; rfl, rfl, rfl, rfl, rfl, rfl,
      atomicReady_written _ _ _ _ _⟩

end Sys2Proof.Machine
end

section
/-! SUPPORT. A mailbox command that the firmware accepts comes to what its opcode does (R512, R514, R519), and what the status commands and
the commands of pool and map do on payloads in their bounds (R236, R248, R324, R376, R377, R482, R525). -/
namespace Sys2Proof.Machine
open Sys2Proof

/-! ### An accepted command -/

/-- None of the checks of R519 orders 1 to 5 stops an accepted command, so that its opcode runs in the state that takes it. -/
theorem issue_runs {m : MbxId} {op : Nat} {pl : List Byte} {s : State} (ho : op < 65536) (hk : opcodes.contains op = true)
    (h : Accepts m op pl s) : issue m op pl s = runOp m op pl (Taken m op pl s) := by
  obtain ⟨hissue, hheader, harea⟩ := issue_accepted m op pl s ho h.takes h.owner h.free h.next h.len
  have hworkshop : (opsWorkshop.contains op && m.val != 17) = false := by
    cases hc : opsWorkshop.contains op with
    | false => rfl
    | true => simp [h.workshop hc]
  rw [hissue]
  simp only [checkedRun, hheader, harea, hk, State.opAbsent_taken, h.present, hworkshop, State.opAllowed_taken, h.allowed, Bool.not_true,
    Bool.false_eq_true, if_false]

/-- A row of a mailbox command that is accepted answers with what its opcode leaves of the state that takes it. -/
theorem exec_accepted {c : Instr} {m : MbxId} {op : Nat} {pl : List Byte} {s u : State} (hrow : mailboxRow c = some (m, op, pl))
    (h : Accepts m op pl s) (hrun : runOp m op pl (Taken m op pl s) = u) : exec c s = .next (quietStep u) := by
  obtain ⟨ho, hk, hexec⟩ := mailboxRow_exec c m op pl hrow s
  rw [hexec, issue_runs ho hk h, hrun]

theorem firstNonzero_eq_none {pl : List Byte} {ks : List Nat} (h : ∀ k ∈ ks, leAt pl k 1 = 0) : firstNonzero pl ks = none := by
  refine List.find?_eq_none.2 fun k hk => ?_
  simp [h k hk]

/-! ### The status commands -/

section
variable {m : Nat} {pl : List Byte} {s : State}

theorem opStartupRecordRead_done (h : s.power.boot = .done) : opStartupRecordRead m s = s.finish m ccOk s.test.record := by
  simp [opStartupRecordRead, h]

/-- CAD_STATUS answers with the stamp of the time at which it runs. -/
theorem opCadStatus_stamp : opCadStatus m s = s.finish m ccOk (s.mbxRegs m [Off.CAD_STAT, Off.CAD_LEN] ++ leBytes 4 s.stamp.toNat ++
    leBytes 4 (s.stamp.toNat / 2 ^ 32) ++ s.mbxRegs m [Off.CAD_RELOCK, Off.CAD_PORT_OFS, Off.CAD_CNT]) :=
  rfl

theorem State.stamp_taken (op : Nat) : (Taken m op pl s).stamp = s.stamp := by
  rw [State.stamp, State.taken_cad, State.stamp]

/-- FW_STATUS answers with how much of the staging area is loaded, beside the registers of the firmware. -/
theorem opFwStatus_staging : opFwStatus m s = s.finish m ccOk (s.mbxRegs m [Off.GLB_FW_STAT, Off.GLB_FW_VER, Off.GLB_FW_SVN,
    Off.GLB_FW_CAP] ++ leBytes 4 s.stagingHigh) :=
  rfl

theorem opRefStatus_pav (h : leAt pl 0 1 ≤ 31) : opRefStatus m pl s = s.finish m ccOk
    (s.mbxRegs m [Off.PAV_REF_STAT (leAt pl 0 1), Off.PAV_REF_CNT (leAt pl 0 1)] ++
      (List.range 4).flatMap (fun r => (List.range 4).flatMap (fun w => s.mbxRegs m [Off.PAV_REF_WIN (leAt pl 0 1) r w]))) :=
  if_neg (Nat.not_lt.2 h)

theorem opEccStatus_pav (h : leAt pl 0 1 ≤ 31) : opEccStatus m pl s = s.finish m ccOk (s.mbxRegs m
    ([Off.PAV_ECC_CTRL, Off.PAV_BUCKET_CFG, Off.PAV_BUCKET_STAT, Off.PAV_SCRUB_CTRL, Off.PAV_SCRUB_POS, Off.PAV_ECC_CE, Off.PAV_ECC_UE,
      Off.PAV_ECC_CNT, Off.PAV_SCRUB_CNT, Off.PAV_REPAIR_STAT].map (· (leAt pl 0 1)))) :=
  if_neg (Nat.not_lt.2 h)

theorem opBistStatus_pav (h : leAt pl 0 1 ≤ 31) : opBistStatus m pl s = s.finish m ccOk (s.regsBytes 0
    ([Off.GLB_BIST_STAT, Off.GLB_PARK_SEQ] ++ [Off.PAV_BIST_POS, Off.PAV_BIST_STAT, Off.PAV_BIST_DONE, Off.PAV_BIST_CNT,
      Off.PAV_BIST_FAIL_0, Off.PAV_BIST_FAIL_1].map (· (leAt pl 0 1)))) :=
  if_neg (Nat.not_lt.2 h)

theorem opCalStatus_units (hn : leAt pl 0 1 ≤ 15) (hp : leAt pl 1 1 ≤ 31) : opCalStatus m pl s = s.finish m ccOk
    (s.regBytes 0 (Off.PRT_CAL_STAT (leAt pl 0 1)) ++ s.eyeBytes (leAt pl 0 1) ++ s.regBytes 0 (Off.PAV_TSV_STAT (leAt pl 1 1)) ++
      s.regBytes 0 Off.GLB_CAL_CTRL ++ s.regBytes 0 Off.GLB_OSC_TRIM) :=
  (if_neg (Nat.not_lt.2 hn)).trans (if_neg (Nat.not_lt.2 hp))

/-- With no command at work, BULK_STATUS answers with the counts of the last. -/
theorem opBulkStatus_idle (h : s.bulk = none) : opBulkStatus m s = s.finish m ccOk ([0, BitVec.ofNat 8 s.bulkLast.1] ++ zeros 6 ++
    leBytes 8 s.bulkLast.2.1 ++ leBytes 8 s.bulkLast.2.2) := by
  rw [opBulkStatus, h]
  rfl

/-- With one at work, it answers with the counts of that one, which is the last too. -/
theorem opBulkStatus_busy {b : Bulk} (h : s.bulk = some b) : opBulkStatus m s = s.finish m ccOk
    ([if b.copy then 2 else 1, if b.copy then 2 else 1] ++ zeros 6 ++ leBytes 8 (b.written + b.skipped) ++ leBytes 8 b.lines) := by
  rw [opBulkStatus, h]
  cases hc : b.copy <;> simp [hc]

/-- OTP_STATUS answers with one word for each register, whoever asks. -/
theorem opOtpStatus_words : opOtpStatus m s = s.finish m ccOk (([Off.OTP_STAT, Off.OTP_ARB, Off.OTP_PROG] ++
    (List.range 6).map (fun i => Off.OTP_REGION i) ++ [Off.OTP_MARGIN_STAT] ++ (List.range 16).map (fun i => Off.OTP_MARGIN i) ++
    (List.range 16).map (fun i => Off.OTP_DF i)).flatMap (fun off => leBytes 4 (s.reg off).toNat)) := by
  simp only [opOtpStatus, List.flatMap_append, List.flatMap_map, List.flatMap_cons, List.flatMap_nil, List.append_nil, List.append_assoc]

end

/-! ### The commands that set pool, map and privilege registers -/

section
variable {m : Nat} {pl : List Byte} {s u : State}

/-- STEWARD_SET, while the register is not locked (R504). -/
theorem opStewardSet_put (h2 : leAt pl 2 1 ≤ 1) (h3 : leAt pl 3 1 = 0) (h4 : leAt pl 4 1 ≤ 1)
    (hlock : s.on Fld.GLB_STEWARD_LOCK = false) (hput : putSteward (leAt pl 0 4) (leAt pl 4 1 == 1) s = some u) :
    opStewardSet m pl s = u.finish m ccOk [] := by
  have hzero : firstNonzero pl [3] = none := firstNonzero_eq_none (by simpa using h3)
  rw [opStewardSet, if_neg (Nat.not_lt.2 h2), hzero]
  simp [Nat.not_lt.2 h4, hlock, hput]

/-- The end of a command's work leaves every register, the owners of the mailboxes among them. -/
theorem State.finish_regs (s : State) (m code : Nat) (pl : List Byte) : (s.finish m code pl).regs = s.regs := by
  unfold State.finish
  dsimp only
  split <;> rfl

theorem State.owner_of_regs {t : State} (h : t.regs = s.regs) (m : Nat) : t.owner m = s.owner m := by
  simp only [State.owner, State.rd, State.reg, h]

/-- PORT_ROLE_SET: the role of the mailbox's own port is left to the completion (R204). -/
theorem opPortRoleSet_apply (hn : leAt pl 0 1 ≤ 15) (hr : leAt pl 1 1 ≤ 2) (hpool : leAt pl 1 1 = 1 → s.poolOn = true)
    (hport : s.portEnabled (leAt pl 0 1) = true) :
    opPortRoleSet m pl s = if s.owner m = leAt pl 0 1 then s.finish m ccOk []
      else applyRole (leAt pl 0 1) (leAt pl 1 1) (s.finish m ccOk []) := by
  have hsupported : ((leAt pl 1 1 == 1 && !s.poolOn) || !s.portEnabled (leAt pl 0 1)) = false := by
    simpa [hport] using hpool
  have howner := State.owner_of_regs (State.finish_regs s m ccOk []) m
  simp [opPortRoleSet, Nat.not_lt.2 hn, Nat.not_lt.2 hr, hsupported, State.ownPort, howner]

/-- WINDOW_SET, while the window is not locked (R206). -/
theorem opWindowSet_base (h1 : leAt pl 1 1 ≤ 7) (hlock : s.on Fld.GLB_POOL_WINDOW_LOCKED = false) :
    opWindowSet m pl s = (s.wr Fld.GLB_POOL_WINDOW_BASE (leAt pl 0 2)).finish m ccOk [] := by
  simp [opWindowSet, Nat.not_lt.2 h1, hlock]

/-- SIGNPOST_SET of a legal entry (R209). -/
theorem opSignpostSet_commit (h0 : leAt pl 0 1 ≤ 31) (hlegal : commitSignpost (leAt pl 0 1)
    (BitVec.ofNat 32 (leAt pl 4 4) &&& 0x000F07FF).toNat (BitVec.ofNat 32 (leAt pl 8 4) &&& 0xE0000F0F).toNat s = some u) :
    opSignpostSet m pl s = u.finish m ccOk [] := by
  rw [opSignpostSet, if_neg (Nat.not_lt.2 h0), hlegal]

/-- MAP_SET of legal masks, while the map is not locked (R245, R248): the map and the sets it loads. -/
theorem opMapSet_load (h0 : leAt pl 0 1 ≤ 1) (h1 : leAt pl 1 1 ≤ 3) (h2 : leAt pl 2 1 = 0) (h3 : leAt pl 3 1 = 0)
    (hI : bitAt (leAt pl 1 1) 0 = true → badMask pl false 4 11 = none)
    (hP : bitAt (leAt pl 1 1) 1 = true → badMask pl true 92 6 = none)
    (hretired : leAt pl 0 1 = 0 → s.retiredCount = 0) (hlock : s.on Fld.GLB_MAP_CTRL_LOCKED = false) :
    opMapSet m pl s =
      (let u := s.wr Fld.GLB_MAP_CTRL_SEL (leAt pl 0 1)
       let u := if bitAt (leAt pl 1 1) 0 then loadMasks pl false 4 11 u else u
       let u := if bitAt (leAt pl 1 1) 1 then loadMasks pl true 92 6 u else u
       u.finish m ccOk []) := by
  have hzero : firstNonzero pl [2, 3] = none := firstNonzero_eq_none (by simp [h2, h3])
  have hmap : ¬ (leAt pl 0 1 = 0 ∧ 0 < s.retiredCount) := fun ⟨hz, hc⟩ => by rw [hretired hz] at hc; exact absurd hc (by decide)
  have hsetI : (if bitAt (leAt pl 1 1) 0 = true then badMask pl false 4 11 else none) = none := ite_eq_right_iff.2 hI
  have hsetP : (if bitAt (leAt pl 1 1) 1 = true then badMask pl true 92 6 else none) = none := ite_eq_right_iff.2 hP
  rw [opMapSet, if_neg (Nat.not_lt.2 h0), if_neg (Nat.not_lt.2 h1), hzero]
  simp only [hsetI, hsetP, if_neg hmap, hlock, Bool.false_eq_true, if_false]

end

end Sys2Proof.Machine
end

section
/-! O8, O10. The commands that answer with the status of the stack, and those that set pool, map and privilege registers. -/
namespace Sys2Proof.Machine
open Sys2Proof

/-- Settles O8: each row is accepted and runs its opcode (`exec_accepted`), which answers with the registers of its table, of a unit
that its payload names in bounds; and the state that takes the command is the one it is given, but for the mailbox. -/
theorem statusCommandsAnswer : Obligations.StatusCommandsAnswer := by
  unfold Obligations.StatusCommandsAnswer
  intro m pl s
  refine ⟨fun h => exec_accepted rfl h rfl, fun h hboot => ?startupRecord, fun h => exec_accepted rfl h rfl,
    fun h => exec_accepted rfl h rfl, fun h => exec_accepted rfl h rfl, fun h => ?cadStatus,
    fun h hp => exec_accepted rfl h (opRefStatus_pav hp), fun h hp => exec_accepted rfl h (opEccStatus_pav hp),
    fun h hidle => ?bulkIdle, fun b h hbusy => exec_accepted rfl h (opBulkStatus_busy ((State.taken_bulk ..).trans hbusy)),
    fun h hp => exec_accepted rfl h (opBistStatus_pav hp), fun h => exec_accepted rfl h rfl,
    fun h hn hp => exec_accepted rfl h (opCalStatus_units hn hp), fun h => exec_accepted rfl h rfl, fun h => ?fwStatus,
    fun h => exec_accepted rfl h opOtpStatus_words, fun h => exec_accepted rfl h rfl⟩
  case startupRecord =>
    refine exec_accepted rfl h ((opStartupRecordRead_done ?_).trans ?_)
    · rw [State.taken_power, hboot]
    · rw [State.taken_test]
  case cadStatus =>
    refine exec_accepted rfl h (opCadStatus_stamp.trans ?_)
    rw [State.stamp_taken]
  case bulkIdle =>
    refine exec_accepted rfl h ((opBulkStatus_idle ?_).trans ?_)
    · rw [State.taken_bulk, hidle]
    · rw [State.taken_bulkLast]
  case fwStatus =>
    refine exec_accepted rfl h (opFwStatus_staging.trans ?_)
    rw [State.taken_stagingHigh]

/-- Settles O10: each row is accepted and runs its opcode (`exec_accepted`), whose bounds, lock and legality hold, so that it sets its
registers and completes. -/
theorem poolAndMapCommandsSet : Obligations.PoolAndMapCommandsSet := by
  unfold Obligations.PoolAndMapCommandsSet
  exact fun m pl s => ⟨fun u h h2 h3 h4 hlock hput => exec_accepted rfl h (opStewardSet_put h2 h3 h4 hlock hput),
    fun h hn hr hpool hport => exec_accepted rfl h (opPortRoleSet_apply hn hr hpool hport),
    fun h h1 hlock => exec_accepted rfl h (opWindowSet_base h1 hlock),
    fun u h h0 hlegal => exec_accepted rfl h (opSignpostSet_commit h0 hlegal),
    fun h h0 h1 h2 h3 hI hP hretired hlock => exec_accepted rfl h (opMapSet_load h0 h1 h2 h3 hI hP hretired hlock)⟩

end Sys2Proof.Machine
end

section
/-! SUPPORT. What the commands that read stored data answer, on payloads in their bounds (R248, R376, R414, R418, R525, R571, R608). -/
namespace Sys2Proof.Machine
open Sys2Proof

section
variable {m : Nat} {pl : List Byte} {s : State}

/-- MAP_TRANSLATE of an address that has a location. -/
theorem opMapTranslate_some {l : Loc} (ha : leAt pl 0 8 < 2 ^ 37) (hl : s.locate (leAt pl 0 8) = some l) : opMapTranslate m pl s =
    s.finish m ccOk ([BitVec.ofNat 8 l.pav, BitVec.ofNat 8 (l.bank / 16), BitVec.ofNat 8 (l.bank / 4 % 4), BitVec.ofNat 8 (l.bank % 4)] ++
      leBytes 2 l.row ++ [BitVec.ofNat 8 l.col, BitVec.ofNat 8 (2 * b2n (s.retiredRunning l.pav))]) := by
  rw [opMapTranslate, if_neg (Nat.not_le.2 ha), hl]

/-- MAP_TRANSLATE of an address that has none. -/
theorem opMapTranslate_none (ha : leAt pl 0 8 < 2 ^ 37) (hl : s.locate (leAt pl 0 8) = none) :
    opMapTranslate m pl s = s.finish m ccOk [0, 0, 0, 0, 0, 0, 0, 1] := by
  rw [opMapTranslate, if_neg (Nat.not_le.2 ha), hl]
  rfl

theorem opRepairMapRead_words (h : leAt pl 0 2 ≤ 6143) : opRepairMapRead m pl s = (let n := min 112 (6144 - leAt pl 0 2)
    s.finish m ccOk (leBytes 2 n ++ zeros 2 ++
      (List.range n).flatMap (fun i => leBytes 4 (s.otpWordNow (0x480 + leAt pl 0 2 + i)).toNat))) :=
  if_neg (Nat.not_lt.2 h)

theorem opSpareList_spares (h : leAt pl 0 1 ≤ 31) : opSpareList m pl s = (let all := s.runtimeSpares (leAt pl 0 1)
    let out := (all.drop (leAt pl 2 2)).take 112
    s.finish m ccOk (leBytes 2 all.length ++ leBytes 2 out.length ++ out.flatMap (fun e => leBytes 4 e))) :=
  if_neg (Nat.not_lt.2 h)

/-- CERT_READ from within the certificate of the parking test. -/
theorem opCertRead_bytes {c : List Byte} (hc : s.test.parkCert = some c) (h : leAt pl 0 4 < c.length) : opCertRead m pl s =
    (let bs := (c.drop (leAt pl 0 4)).take 448
     s.finish m ccOk (leBytes 2 bs.length ++ zeros 2 ++ bs)) := by
  rw [opCertRead, hc]
  exact if_neg (Nat.not_le.2 h)

/-- ARRAY_RAW_READ while the pavilions serve. -/
theorem opArrayRawRead_words (h : rawBad pl = none) (hp : s.pavsClosed = false) : opArrayRawRead m pl s =
    s.finish m ccOk ((List.range 8).flatMap (fun w =>
      leBytes 9 (s.rawWord (leAt pl 0 1) (leAt pl 1 1) (leAt pl 2 2) (leAt pl 4 1) w).toNat)) := by
  rw [opArrayRawRead, h]
  exact if_neg (Bool.eq_false_iff.1 hp)

theorem opMonRead_unit (h : leAt pl 0 1 ≤ 47) : opMonRead m pl s = (let u := leAt pl 0 1
    s.finish m ccOk (leBytes 4 (s.rd (Fld.MON_SEQ_A_SEQ u)) ++ leBytes 4 (s.reg (Off.MON_TS_LO u)).toNat ++
      leBytes 4 (s.reg (Off.MON_TS_HI u)).toNat ++ ((monPart0 s u).drop 12).take 36 ++ monPart s u 1 ++ monPart s u 2)) :=
  if_neg (Nat.not_lt.2 h)

/-- The sequence numbers whose records EVT_READ answers with, of those from the number `q` on that the ring may hold: what the ring holds
at their places are their own records. -/
def evtReadNumbers (s : State) (q n : Nat) : Nat × List Nat :=
  let next := s.rd Fld.EVT_SEQ_NEXT
  let age := (next + 2 ^ 32 - q) % 2 ^ 32
  let held := decide (0 < age) && decide (age < 2 ^ 31)
  let first := if held && decide (2048 < age) then (next + 2 ^ 32 - 2048) % 2 ^ 32 else q
  (first, ((List.range (min n (if held then min 2048 age else 0))).map (fun i => (first + i) % 2 ^ 32)).filter
    (fun k => leAt (s.ringRecord k) 10 2 == k % 65536))

theorem opEvtRead_records (h1 : 1 ≤ leAt pl 4 1) (h30 : leAt pl 4 1 ≤ 30) : opEvtRead m pl s =
    (let r := evtReadNumbers s (leAt pl 0 4) (leAt pl 4 1)
     s.finish m ccOk (leBytes 4 (match r.2 with | k :: _ => k | [] => r.1) ++ leBytes 4 (s.rd Fld.EVT_SEQ_NEXT) ++ leBytes 2 r.2.length ++
       zeros 6 ++ r.2.flatMap (fun k => s.ringRecord k))) :=
  if_neg (by omega)

/-- A word's two status bits in the answer of OTP_READ (R608): 3 programmed since the power-on read, 1 uncorrectable, 2 marginal,
0 sound. -/
def otpReadStatus (o : Otp) (w : Nat) : Nat :=
  if o.fresh.contains w then 3 else if o.badWords.contains w then 1 else if o.margs.contains (1, w) then 2 else 0

theorem opOtpRead_words (hf : leAt pl 0 2 ≤ 8191) (h1 : 1 ≤ leAt pl 2 1) (h112 : leAt pl 2 1 ≤ 112) : opOtpRead m pl s =
    (let first := leAt pl 0 2
     let k := min (leAt pl 2 1) (8192 - first)
     s.finish m ccOk (leBytes 2 k ++ [0, 0] ++
       (List.range 112).flatMap (fun i => leBytes 4 (if i < k then (s.otpWordNow (first + i)).toNat else 0)) ++
       leBytes 28 ((List.range k).foldl (fun a i => a + otpReadStatus s.otp (first + i) * 4 ^ i) 0))) :=
  (if_neg (Nat.not_lt.2 hf)).trans (if_neg (by omega))

/-- OTP_JOURNAL_READ from within the journal, or of one that is empty. -/
theorem opOtpJournalRead_entries (h : leAt pl 0 2 < s.otp.journal.length ∨ s.otp.journal = []) : opOtpJournalRead m pl s =
    (let es := (s.otp.journal.drop (leAt pl 0 2)).take 60
     let st : Byte := if s.otp.journal.isEmpty then 0 else if s.otp.journalEarly then 2 else 1
     s.finish m ccOk (leBytes 2 s.otp.journal.length ++ [st, s.otp.journalEnd.getD 0] ++ leBytes 2 (leAt pl 0 2) ++ leBytes 2 es.length ++
       es.flatMap (fun x => leBytes 2 x.1.entry.1 ++ [BitVec.ofNat 8 x.2.code, 0] ++ leBytes 4 x.1.entry.2))) := by
  have hin : ¬ (s.otp.journal.length ≤ leAt pl 0 2 ∧ s.otp.journal ≠ []) := fun ⟨hle, hne⟩ => h.elim (Nat.not_lt.2 hle) hne
  rw [opOtpJournalRead, if_neg hin]
  cases s.otp.journal.isEmpty <;> cases s.otp.journalEarly <;> rfl

end

end Sys2Proof.Machine
end

section
/-! O9. The commands that answer with stored data. -/
namespace Sys2Proof.Machine
open Sys2Proof

/-- Settles O9: each row is accepted and runs its opcode (`exec_accepted`), which answers with what is stored once its bounds hold; what
the statement reads before the command is taken, the taking leaves. -/
theorem readingCommandsAnswer : Obligations.ReadingCommandsAnswer := by
  unfold Obligations.ReadingCommandsAnswer
  intro m pl s
  refine ⟨fun h => exec_accepted rfl h rfl, fun l h ha hl => exec_accepted rfl h (opMapTranslate_some ha hl),
    fun h ha hl => exec_accepted rfl h (opMapTranslate_none ha hl), fun h hk => exec_accepted rfl h (opRepairMapRead_words hk),
    fun h hp => exec_accepted rfl h (opSpareList_spares hp),
    fun c h hc ho => exec_accepted rfl h (opCertRead_bytes ((congrArg Test.parkCert (State.taken_test ..)).trans hc) ho),
    fun h hb hp => exec_accepted rfl h (opArrayRawRead_words hb hp), fun h hu => exec_accepted rfl h (opMonRead_unit hu),
    fun h h1 h30 => exec_accepted rfl h (opEvtRead_records h1 h30), fun h hf h1 h112 => ?otpRead, fun h hin => ?journal⟩
  case otpRead =>
    refine exec_accepted rfl h ((opOtpRead_words hf h1 h112).trans ?_)
    rw [State.taken_otp]
    rfl
  case journal =>
    refine exec_accepted rfl h ((opOtpJournalRead_entries ?_).trans ?_)
    · rwa [State.taken_otp]
    · rw [State.taken_otp]

end Sys2Proof.Machine
end

section
/-! SUPPORT. The cells of the DRAM (R250, R342, R364, R365): what a cell, a word and a line read as after a word is written, behind the
column groups that hold bits of it. -/
namespace Sys2Proof.Machine
open Sys2Proof

/-! ### Bits that are put into a word -/

theorem testBit_bitPut (x i j : Nat) (b : Bool) : (bitPut x i b).testBit j = if j = i then b else x.testBit j := by
  rw [bitPut, testBit_bitsSet]
  by_cases h : j = i
  · subst h
    cases b <;> simp
  · rw [if_neg h]
    split
    · rfl
    · exact if_neg (by omega)

theorem getLsbD_bitPut {n : Nat} (x : BitVec n) (i j : Nat) (b : Bool) :
    (BitVec.ofNat n (bitPut x.toNat i b)).getLsbD j = if j = i then decide (j < n) && b else x.getLsbD j := by
  rw [BitVec.getLsbD_ofNat, testBit_bitPut]
  split
  · rfl
  · by_cases hj : j < n
    · rw [decide_eq_true hj, Bool.true_and]
      rfl
    · rw [decide_eq_false hj, Bool.false_and, BitVec.getLsbD_of_ge x j (Nat.le_of_not_lt hj)]

/-- Putting a bit where it already is changes nothing. -/
theorem bitPut_getLsbD (x : BitVec 72) (i : Nat) : BitVec.ofNat 72 (bitPut x.toNat i (x.getLsbD i)) = x := by
  refine BitVec.eq_of_getLsbD_eq fun j hj => ?_
  rw [getLsbD_bitPut, decide_eq_true hj, Bool.true_and]
  split
  · next h => rw [h]
  · rfl

/-! ### Single cells -/

section
variable (s : State) (m : List Host.Cell) {a b : Nat} (v : Byte)

theorem State.cell_memPut_same : ({ s with dram := memPut m a v } : State).cell a = v := by
  simp only [State.cell, memFind_memPut_same]

theorem State.cell_memPut_ne (h : b ≠ a) :
    ({ s with dram := memPut m a v } : State).cell b = ({ s with dram := m } : State).cell b := by
  simp only [State.cell, memFind_memPut_ne _ _ h]

end

theorem State.cell_putCells_outside (s : State) (bs : List Byte) {a b : Nat} (m : List Host.Cell) (h : b < a ∨ a + bs.length ≤ b) :
    ({ s with dram := putCells a bs m } : State).cell b = ({ s with dram := m } : State).cell b := by
  induction bs generalizing a m with
  | nil => rfl
  | cons x t ih =>
    rw [List.length_cons] at h
    rw [putCells, ih _ (by omega), State.cell_memPut_ne s m x (by omega)]

theorem State.cell_putCells_inside (s : State) (bs : List Byte) {a k : Nat} (m : List Host.Cell) (h : k < bs.length) :
    ({ s with dram := putCells a bs m } : State).cell (a + k) = bs[k] := by
  induction bs generalizing a k m with
  | nil => exact absurd h (Nat.not_lt_zero k)
  | cons x t ih =>
    cases k with
    | zero => rw [putCells, State.cell_putCells_outside _ _ _ (by omega)]; exact State.cell_memPut_same s m x
    | succ k =>
      rw [putCells, show a + (k + 1) = a + 1 + k by omega, ih _ (by simpa using h)]
      rfl

/-! ### Stored words without substitution -/

/-- The place of a stored word in the DRAM: pavilion, bank, physical position, column, word (R249, R342, R363). -/
structure InDram (p bank phys col w : Nat) : Prop where
  pav : p < 32
  bank : bank < 64
  phys : phys < 32832
  col : col < 32
  word : w < 8

section
variable {p bank phys col w p' bank' phys' col' w' : Nat}

theorem wordIndex_inj (h : InDram p bank phys col w) (h' : InDram p' bank' phys' col' w')
    (he : wordIndex p bank phys col w = wordIndex p' bank' phys' col' w') : (p, bank, phys, col, w) = (p', bank', phys', col', w') := by
  obtain ⟨-, h1, h2, h3, h4⟩ := h
  obtain ⟨-, h1', h2', h3', h4'⟩ := h'
  unfold wordIndex at he
  simp only [Prod.mk.injEq]
  omega

theorem wordIndex_lt_spare (h : InDram p bank phys col w) : wordIndex p bank phys col w * 9 + 9 ≤ spareColBase := by
  obtain ⟨h0, h1, h2, h3, h4⟩ := h
  unfold spareColBase wordIndex
  omega

theorem spareColCell_inj {g g' : Nat} (hb : bank < 64) (hb' : bank' < 64) (hp : phys < 32832) (hp' : phys' < 32832) (hg : g < 4)
    (hg' : g' < 4) (he : spareColCell p bank g phys = spareColCell p' bank' g' phys') :
    p = p' ∧ bank = bank' ∧ g = g' ∧ phys = phys' := by
  unfold spareColCell at he
  omega

theorem rawWord_setRawWord_same (v : Raw72) (s : State) : (setRawWord p bank phys col w v s).rawWord p bank phys col w = v := by
  have hcells : (List.range 9).map (fun k => (setRawWord p bank phys col w v s).cell (wordIndex p bank phys col w * 9 + k)) =
      leBytes 9 v.toNat := by
    refine List.ext_getElem (by simp [length_leBytes]) fun k hk hk' => ?_
    rw [List.getElem_map, List.getElem_range]
    exact State.cell_putCells_inside s _ s.dram hk'
  rw [State.rawWord, State.cells9, hcells, leNat_leBytes,
    Nat.mod_eq_of_lt (show v.toNat < 256 ^ 9 from v.isLt), BitVec.ofNat_toNat, BitVec.setWidth_eq]

/-- What the word at a place reads as goes by its nine cells. -/
theorem rawWord_congr {s t : State}
    (h : ∀ k < 9, t.cell (wordIndex p bank phys col w * 9 + k) = s.cell (wordIndex p bank phys col w * 9 + k)) :
    t.rawWord p bank phys col w = s.rawWord p bank phys col w := by
  rw [State.rawWord, State.rawWord, State.cells9, State.cells9, List.map_congr_left fun k hk => h k (List.mem_range.1 hk)]

theorem cell_setRawWord_ne {a : Nat} (v : Raw72) (s : State)
    (h : a < wordIndex p bank phys col w * 9 ∨ wordIndex p bank phys col w * 9 + 9 ≤ a) :
    (setRawWord p bank phys col w v s).cell a = s.cell a :=
  State.cell_putCells_outside s _ s.dram (by rwa [length_leBytes])

theorem rawWord_setRawWord_ne (h : InDram p bank phys col w) (h' : InDram p' bank' phys' col' w')
    (hne : (p', bank', phys', col', w') ≠ (p, bank, phys, col, w)) (v : Raw72) (s : State) :
    (setRawWord p bank phys col w v s).rawWord p' bank' phys' col' w' = s.rawWord p' bank' phys' col' w' := by
  have hi : wordIndex p' bank' phys' col' w' ≠ wordIndex p bank phys col w := fun he => hne (wordIndex_inj h' h he)
  exact rawWord_congr fun k hk => cell_setRawWord_ne v s (by omega)

end

/-! ### Column groups -/

/-- No bank uses more than its four column groups (R365). -/
def GroupsFit (s : State) : Prop := ∀ p b, ((s.pav p).cols.filter (fun c => c.1 == b)).length ≤ 4

theorem mem_colGroups {s : State} {p bank col : Nat} {g : Nat × Nat} (h : g ∈ s.colGroups p bank col) :
    ∃ x, ((s.pav p).cols.filter (fun c => c.1 == bank))[g.1]? = some x ∧ x.2.2 = col ∧ x.2.1 = g.2 := by
  obtain ⟨⟨x, i⟩, he, rfl⟩ := List.mem_map.1 h
  obtain ⟨hx, hc⟩ := List.mem_filter.1 he
  exact ⟨x, List.mem_zipIdx_iff_getElem?.1 hx, by simpa using hc, rfl⟩

theorem colGroups_lt {s : State} (hs : GroupsFit s) {p bank col : Nat} {g : Nat × Nat} (h : g ∈ s.colGroups p bank col) : g.1 < 4 := by
  obtain ⟨x, hx, -⟩ := mem_colGroups h
  exact Nat.lt_of_lt_of_le (List.getElem?_eq_some_iff.1 hx).1 (hs p bank)

/-- A column group of a bank serves one bit of one column. -/
theorem colGroups_inj {s : State} {p bank col col' : Nat} {g g' : Nat × Nat} (h : g ∈ s.colGroups p bank col)
    (h' : g' ∈ s.colGroups p bank col') (he : g.1 = g'.1) : col = col' ∧ g.2 = g'.2 := by
  obtain ⟨x, hx, hc, hb⟩ := mem_colGroups h
  obtain ⟨x', hx', hc', hb'⟩ := mem_colGroups h'
  have hxx : x = x' := Option.some_inj.1 (hx.symm.trans ((congrArg _ he).trans hx'))
  subst hxx
  exact ⟨hc.symm.trans hc', hb.symm.trans hb'⟩

theorem colGroups_congr {s t : State} (h : t.pavs = s.pavs) (p bank col : Nat) : t.colGroups p bank col = s.colGroups p bank col := by
  simp only [State.colGroups, State.pav, h]

/-! ### The bits in the cells of column groups -/

/-- A column group takes its bit of a word. -/
def putSpareBit (p bank phys w : Nat) (v : Raw72) (s : State) (g : Nat × Nat) : State :=
  let c := spareColCell p bank g.1 phys
  { s with dram := memPut s.dram c (BitVec.ofNat 8 (bitPut (s.cell c).toNat w (v.getLsbD g.2))) }

theorem writeWord_eq (p bank phys col w : Nat) (v : Raw72) (s : State) : writeWord p bank phys col w v s =
    (s.colGroups p bank col).foldl (putSpareBit p bank phys w v) (setRawWord p bank phys col w v s) :=
  rfl

section
variable {p bank phys w : Nat} {v : Raw72}

theorem cell_putSpareBit_ne {a : Nat} {g : Nat × Nat} (h : a ≠ spareColCell p bank g.1 phys) (s : State) :
    (putSpareBit p bank phys w v s g).cell a = s.cell a :=
  State.cell_memPut_ne s s.dram _ h

theorem getLsbD_putSpareBit (hw : w < 8) (s : State) (g : Nat × Nat) (j : Nat) :
    ((putSpareBit p bank phys w v s g).cell (spareColCell p bank g.1 phys)).getLsbD j =
      if j = w then v.getLsbD g.2 else (s.cell (spareColCell p bank g.1 phys)).getLsbD j := by
  rw [show (putSpareBit p bank phys w v s g).cell (spareColCell p bank g.1 phys) = _ from State.cell_memPut_same s s.dram _, getLsbD_bitPut]
  split
  · next h => rw [h, decide_eq_true hw, Bool.true_and]
  · rfl

theorem cell_putSpareBits_ne {a : Nat} {gs : List (Nat × Nat)} (h : ∀ g ∈ gs, a ≠ spareColCell p bank g.1 phys) (s : State) :
    (gs.foldl (putSpareBit p bank phys w v) s).cell a = s.cell a :=
  List.foldlRecOn (motive := fun u : State => u.cell a = s.cell a) gs _ rfl fun _ hu g hg => (cell_putSpareBit_ne (h g hg) _).trans hu

/-- The bits of other words stay in a group's cell. -/
theorem getLsbD_putSpareBits_ne (hw : w < 8) {a j : Nat} (hj : j ≠ w) (gs : List (Nat × Nat)) (s : State) :
    ((gs.foldl (putSpareBit p bank phys w v) s).cell a).getLsbD j = (s.cell a).getLsbD j := by
  refine List.foldlRecOn (motive := fun u : State => (u.cell a).getLsbD j = (s.cell a).getLsbD j) gs _ rfl fun u hu g _ => ?_
  by_cases ha : a = spareColCell p bank g.1 phys
  · subst ha
    rw [getLsbD_putSpareBit hw, if_neg hj, hu]
  · rw [cell_putSpareBit_ne ha, hu]

/-- Each group holds its bit of the word. -/
theorem getLsbD_putSpareBits (hw : w < 8) {gs : List (Nat × Nat)}
    (hgs : ∀ g ∈ gs, ∀ h ∈ gs, spareColCell p bank g.1 phys = spareColCell p bank h.1 phys → g.2 = h.2) {g : Nat × Nat}
    (hg : g ∈ gs) (s : State) :
    ((gs.foldl (putSpareBit p bank phys w v) s).cell (spareColCell p bank g.1 phys)).getLsbD w = v.getLsbD g.2 := by
  induction gs generalizing s g with
  | nil => exact absurd hg List.not_mem_nil
  | cons h t ih =>
    by_cases ht : ∃ x ∈ t, spareColCell p bank g.1 phys = spareColCell p bank x.1 phys
    · obtain ⟨x, hx, he⟩ := ht
      rw [he, hgs g hg x (List.mem_cons_of_mem _ hx) he]
      exact ih (fun y hy z hz => hgs y (List.mem_cons_of_mem _ hy) z (List.mem_cons_of_mem _ hz)) hx _
    · push Not at ht
      obtain rfl : g = h := (List.mem_cons.1 hg).resolve_right fun hm => ht g hm rfl
      rw [List.foldl_cons, cell_putSpareBits_ne ht, getLsbD_putSpareBit hw, if_pos rfl]

end

/-! ### Words and lines behind the column groups -/

section
variable {p bank phys col w p' bank' phys' col' w' : Nat} {s : State}

theorem rawWord_putSpareBits (h : InDram p' bank' phys' col' w') (v : Raw72) (gs : List (Nat × Nat)) (s : State) :
    (gs.foldl (putSpareBit p bank phys w v) s).rawWord p' bank' phys' col' w' = s.rawWord p' bank' phys' col' w' := by
  have hlt := wordIndex_lt_spare h
  exact rawWord_congr fun k hk => cell_putSpareBits_ne (fun g _ => by unfold spareColCell; omega) s

theorem readWord_writeWord_same (hs : GroupsFit s) (h : InDram p bank phys col w) (v : Raw72) :
    (writeWord p bank phys col w v s).readWord p bank phys col w = v := by
  have hraw : (writeWord p bank phys col w v s).rawWord p bank phys col w = v := by
    rw [writeWord_eq, rawWord_putSpareBits h, rawWord_setRawWord_same]
  rw [State.readWord, hraw, colGroups_congr (by rw [writeWord_rest])]
  refine List.foldlRecOn (motive := fun x : Raw72 => x = v) _ _ rfl fun x hx g hg => ?_
  have hbit : ((writeWord p bank phys col w v s).cell (spareColCell p bank g.1 phys)).getLsbD w = v.getLsbD g.2 :=
    getLsbD_putSpareBits h.word (fun a ha b hb he => (colGroups_inj ha hb
      (spareColCell_inj h.bank h.bank h.phys h.phys (colGroups_lt hs ha) (colGroups_lt hs hb) he).2.2.1).2) hg _
  rw [hx, hbit, bitPut_getLsbD]

theorem readWord_writeWord_ne (hs : GroupsFit s) (h : InDram p bank phys col w) (h' : InDram p' bank' phys' col' w')
    (hne : (p', bank', phys', col', w') ≠ (p, bank, phys, col, w)) (v : Raw72) :
    (writeWord p bank phys col w v s).readWord p' bank' phys' col' w' = s.readWord p' bank' phys' col' w' := by
  have hraw : (writeWord p bank phys col w v s).rawWord p' bank' phys' col' w' = s.rawWord p' bank' phys' col' w' := by
    rw [writeWord_eq, rawWord_putSpareBits h', rawWord_setRawWord_ne h h' hne]
  have hcell (g : Nat × Nat) (hg : g ∈ s.colGroups p' bank' col') :
      ((writeWord p bank phys col w v s).cell (spareColCell p' bank' g.1 phys')).getLsbD w' =
        (s.cell (spareColCell p' bank' g.1 phys')).getLsbD w' := by
    have hlt := wordIndex_lt_spare h
    have hset : (setRawWord p bank phys col w v s).cell (spareColCell p' bank' g.1 phys') = s.cell (spareColCell p' bank' g.1 phys') :=
      cell_setRawWord_ne v s (by unfold spareColCell; omega)
    rw [← hset, writeWord_eq]
    by_cases hw : w' = w
    · have hout (x : Nat × Nat) (hx : x ∈ s.colGroups p bank col) : spareColCell p' bank' g.1 phys' ≠ spareColCell p bank x.1 phys := by
        intro he
        obtain ⟨rfl, rfl, hgx, rfl⟩ :=
          spareColCell_inj h'.bank h.bank h'.phys h.phys (colGroups_lt hs hg) (colGroups_lt hs hx) he
        exact hne (by rw [(colGroups_inj hg hx hgx).1, hw])
      rw [cell_putSpareBits_ne hout]
    · exact getLsbD_putSpareBits_ne h.word hw _ _
  rw [State.readWord, State.readWord, hraw, colGroups_congr (by rw [writeWord_rest])]
  exact List.foldl_ext _ _ _ fun x g hg => by rw [hcell g hg]

end

theorem GroupsFit.of_pavs {s t : State} (hs : GroupsFit s) (h : t.pavs = s.pavs) : GroupsFit t := by
  simpa only [GroupsFit, State.pav, h] using hs

theorem writeLine_rest (l : Loc) (v : RawLine) (s : State) : writeLine l v s = { s with dram := (writeLine l v s).dram } :=
  writePhys_rest l.pav l.bank (s.physOf l.pav l.bank l.row) l.col v s

theorem writeLine_pavs (l : Loc) (v : RawLine) (s : State) : (writeLine l v s).pavs = s.pavs := by
  rw [writeLine_rest]

theorem State.physOf_of_pavs {s t : State} (h : t.pavs = s.pavs) (p bank row : Nat) : t.physOf p bank row = s.physOf p bank row := by
  simp only [State.physOf, State.spareOf, State.pav, h]

/-- The words of a line that are written so far read as they were written, all others as before. -/
theorem readWord_writeWords {p bank phys col : Nat} {s : State} (hs : GroupsFit s) (h : ∀ w < 8, InDram p bank phys col w)
    (f : Nat → Raw72) {n : Nat} (hn : n ≤ 8) :
    (∀ w < n, (forUpto n (fun w a => writeWord p bank phys col w (f w) a) s).readWord p bank phys col w = f w) ∧
    (∀ p' bank' phys' col' w', InDram p' bank' phys' col' w' → (p', bank', phys', col') ≠ (p, bank, phys, col) →
      (forUpto n (fun w a => writeWord p bank phys col w (f w) a) s).readWord p' bank' phys' col' w' =
        s.readWord p' bank' phys' col' w') ∧
    GroupsFit (forUpto n (fun w a => writeWord p bank phys col w (f w) a) s) := by
  induction n with
  | zero => exact ⟨fun w hw => absurd hw (Nat.not_lt_zero w), fun _ _ _ _ _ _ _ => rfl, hs⟩
  | succ n ih =>
    obtain ⟨hsame, hother, hfit⟩ := ih (Nat.le_of_succ_le hn)
    have hplace := h n hn
    rw [forUpto_succ]
    refine ⟨fun w hw => ?_, fun p' bank' phys' col' w' hplace' hne => ?_, hfit.of_pavs (by rw [writeWord_rest])⟩
    · by_cases hwn : w = n
      · rw [hwn, readWord_writeWord_same hfit hplace]
      · rw [readWord_writeWord_ne hfit hplace (h w (by omega)) (by simp [hwn]), hsame w (by omega)]
    · rw [readWord_writeWord_ne hfit hplace hplace' (fun he => hne (by simp_all)), hother p' bank' phys' col' w' hplace' hne]

section
variable {p bank phys col : Nat} {s : State}

theorem readPhys_writePhys_same (hs : GroupsFit s) (h : ∀ w < 8, InDram p bank phys col w) (v : RawLine) :
    (writePhys p bank phys col v s).readPhys p bank phys col = v := by
  refine Vector.ext fun w hw => ?_
  rw [State.readPhys, Vector.getElem_ofFn, writePhys, (readWord_writeWords hs h _ le_rfl).1 w hw]
  simp [hw]

theorem readPhys_writePhys_ne (hs : GroupsFit s) (h : ∀ w < 8, InDram p bank phys col w) {p' bank' phys' col' : Nat}
    (h' : ∀ w < 8, InDram p' bank' phys' col' w) (hne : (p', bank', phys', col') ≠ (p, bank, phys, col)) (v : RawLine) :
    (writePhys p bank phys col v s).readPhys p' bank' phys' col' = s.readPhys p' bank' phys' col' := by
  refine Vector.ext fun w hw => ?_
  rw [State.readPhys, State.readPhys, Vector.getElem_ofFn, Vector.getElem_ofFn, writePhys,
    (readWord_writeWords hs h _ le_rfl).2.1 _ _ _ _ _ (h' w hw) hne]

end

end Sys2Proof.Machine
end

section
/-! O43. A line of the DRAM is read back as it was written. -/
namespace Sys2Proof.Machine
open Sys2Proof

/-- Settles O43: a stored word has nine cells of its own, and a column group one bit of one column, so that a word is read back as
written and no other word changes (`readWord_writeWord_same`, `readWord_writeWord_ne`); the substitution is that of the pavilions, which
a write leaves. -/
theorem dramHoldsWhatIsWritten : Obligations.DramHoldsWhatIsWritten := by
  unfold Obligations.DramHoldsWhatIsWritten
  intro l v s hp hb hc hr hs
  have hplace : ∀ w < 8, InDram l.pav l.bank (s.physOf l.pav l.bank l.row) l.col w := fun w hw => ⟨hp, hb, hr, hc, hw⟩
  refine ⟨?_, fun p bank phys col h1 h2 h3 h4 hne => readPhys_writePhys_ne hs hplace (fun w hw => ⟨h1, h2, h3, h4, hw⟩) hne v,
    writeLine_rest l v s, (writeLine_keeps l v (Keeps.refl s)).mem⟩
  rw [State.readLine, State.physOf_of_pavs (writeLine_pavs l v s)]
  exact readPhys_writePhys_same hs hplace v

end Sys2Proof.Machine
end

section
/-! SUPPORT. What a pavilion's timers leave: lines that age or stall (R261, R271), throttle windows (R272, R273), the precharge of a page
policy (R253) and the entry into power-down (R274). -/
namespace Sys2Proof.Machine
open Sys2Proof

theorem PavsKept.refl (s : State) (p : Nat) : PavsKept s s p := fun _ _ => rfl

theorem PavsKept.trans {x s t : State} {p : Nat} (h : PavsKept x s p) (k : PavsKept s t p) : PavsKept x t p :=
  fun i hi => (k i hi).trans (h i hi)

theorem PavsKept.atLeast {x s : State} {p : Nat} (h : PavsKept x s p) (t : Nat) : PavsKept x (s.atLeast t) p := h

/-- An event that is raised at most once a turn is on its way, or stands among those of this turn. -/
theorem raised_or_mem (s : State) (ev d : Nat) : Raised (s.raiseOnce ev d) ev ∨ ev ∈ s.onceTurn :=
  (State.raised_raiseOnce s ev d).imp_right List.contains_iff_mem.1

/-! ### Lines that age (R261, R262) -/

/-- A pavilion whose lines of a number are aged. -/
def entsAged (id lv : Nat) (v : Pav) : Pav :=
  { v with ents := v.ents.map (fun x => if x.req.id = id then { x with aged := lv } else x) }

/-- At a time, the lines of a number are aged, and counted. -/
def agedTo (p id lv t : Nat) (f : Fld) (s : State) : State := ((s.atLeast t).modPav p (entsAged id lv)).sat f

section
variable (p id lv t : Nat) (f : Fld) (s : State)

theorem agedTo_now : (agedTo p id lv t f s).now = max s.now t := rfl

theorem agedTo_ents : ((agedTo p id lv t f s).pav p).ents =
    (s.pav p).ents.map (fun x => if x.req.id = id then { x with aged := lv } else x) := by
  rw [agedTo, State.sat_pav, State.pav_modPav_same, State.atLeast_pav, entsAged]

theorem agedTo_counts (hf : f.lo + f.w ≤ 32) : (agedTo p id lv t f s).rd f = min (2 ^ f.w - 1) (s.rd f + 1) := State.rd_sat_same _ f 1 hf

theorem agedTo_regsKept : RegsKept s (agedTo p id lv t f s) [f.off] := (RegsKept.refl s _).wr (List.mem_singleton.2 rfl) _

theorem agedTo_pavsKept : PavsKept s (agedTo p id lv t f s) p :=
  ((PavsKept.refl s p).modPav (entsAged id lv)).of_pavs rfl

end

section
variable {p : PavId} {id : Nat} {e : Ent} {s : State}

theorem exec_aged1 (he : (s.pav p).ents.find? (fun e => e.req.id == id && e.host && e.aged == 0 && (e.st == .waiting || e.st == .buffered)) =
    some e) : exec (.aged1 p id) s =
      .next (refAll p (agedTo p id 1 (e.req.since + s.starve p + tPav) (Fld.PAV_SCHED_CNT_AGED1 p) s)) := by
  show execAged1 p id s = _
  rw [execAged1, he]
  rfl

theorem exec_aged2 (he : (s.pav p).ents.find? (fun e => e.req.id == id && e.host && e.aged != 2 && (e.st == .waiting || e.st == .buffered)) =
    some e) (h1 : e.aged = 1) : exec (.aged2 p id) s =
      .next (refAll p ((agedTo p id 2 (e.req.since + 2 * s.starve p + tPav) (Fld.PAV_SCHED_CNT_AGED2 p) s).raiseOnce (evPav p 0)
        (e.req.tc.toNat + 4 * (e.req.loc.bank / 16)))) := by
  show execAged2 p id s = _
  rw [execAged2, he]
  simp only [h1, if_neg Nat.one_ne_zero]
  rfl

end

/-- An aged line goes at level 4 at the latest, then at level 2. -/
theorem ownLevel_aged {p : Nat} {e : Ent} {s : State} (hh : e.host = true) (hd : (s.pav p).drain ≠ .halt) :
    (e.aged = 1 → s.ownLevel p e ≤ 4) ∧ (e.aged = 2 → s.ownLevel p e = 2) := by
  refine ⟨fun h1 => ?_, fun h2 => ?_⟩
  · rw [State.ownLevel, if_neg hd, if_pos hh]
    simp only [h1, if_neg (show ¬ 1 = 2 by decide), if_true]
    exact Nat.min_le_right _ _
  · rw [State.ownLevel, if_neg hd, if_pos hh]
    simp only [h2, if_true]

/-! ### Lines that stall (R271) -/

/-- At a time, the lines of a number wait too long for room in a pavilion: marked, counted and reported. -/
def stalledAt (p id t d : Nat) (s : State) : State :=
  let u : State := { s.atLeast t with prom := s.prom.map (fun x => if x.id = id then { x with stalled := true } else x) }
  (u.sat (Fld.PAV_SCHED_CNT_STALL p)).raise (evPav p 1) d

section
variable (p id t d : Nat) (s : State)

theorem stalledAt_now : (stalledAt p id t d s).now = max s.now t := State.raise_now _ _ _

theorem stalledAt_prom : (stalledAt p id t d s).prom = s.prom.map (fun x => if x.id = id then { x with stalled := true } else x) :=
  State.raise_prom _ _ _

theorem stalledAt_counts : (stalledAt p id t d s).rd (Fld.PAV_SCHED_CNT_STALL p) =
    min (2 ^ (Fld.PAV_SCHED_CNT_STALL p).w - 1) (s.rd (Fld.PAV_SCHED_CNT_STALL p) + 1) :=
  (State.raise_rd _ _ _ _).trans (State.rd_sat_same _ _ 1 (show 8 + 8 ≤ 32 by decide))

theorem stalledAt_regsKept : RegsKept s (stalledAt p id t d s) [Off.PAV_SCHED_CNT p] :=
  ((RegsKept.refl s _).wr (f := Fld.PAV_SCHED_CNT_STALL p) (List.mem_singleton.2 rfl) _).of_regs (State.raise_regs _ _ _)

theorem stalledAt_rest : stalledAt p id t d s =
    { s with
      now := (stalledAt p id t d s).now, prom := (stalledAt p id t d s).prom, regs := (stalledAt p id t d s).regs
      crossing := (stalledAt p id t d s).crossing } := by
  rw [stalledAt, State.raise_eq]
  rfl

end

theorem exec_acceptanceStallTimer {p : PavId} {r : LineReq} {s : State}
    (hr : s.prom.find? (fun r => r.loc.pav == p.val && !r.stalled) = some r) : ∃ d,
    exec (.acceptanceStallTimer p) s = .next (stalledAt p r.id (r.since + tUs) d s) := by
  show ∃ d, execAcceptanceStallTimer p s = _
  rw [execAcceptanceStallTimer, hr]
  exact ⟨_, rfl⟩

/-! ### Throttle windows (R272, R273) -/

/-- When the next throttle window of a pavilion begins. -/
def State.windowAt (s : State) (p : Nat) : Nat :=
  let v := s.pav p
  let t0 := v.startAt + 4096 * ((s.now - v.startAt + 4096 - 1) / 4096)
  match v.lastWin with | some w => max t0 (w + 4096) | none => t0

/-- The pavilion cycles for which the next throttle window pauses. -/
def State.windowPause (s : State) (p : Nat) : Nat :=
  let lv := (s.pav p).throttleNext
  if lv = 1 then min 1000 (s.rd (Fld.PAV_THROTTLE_PAUSE1 p)) else if lv = 2 then min 1000 (s.rd (Fld.PAV_THROTTLE_PAUSE2 p)) else 0

/-- A throttle window with a pause as a pavilion goes into it: a slice and a TSV step in progress stand still during the pause. -/
def windowEntered (t pause : Nat) (v : Pav) : Pav :=
  let stop := t + tPav * pause
  { v with
    lastWin := some t
    pausedUntil := stop
    slice := (match v.slice with
      | some x => some (if pause = 0 then x else { x with held := x.held + (t - x.heldAt) / tPav, heldAt := max x.heldAt stop })
      | none => none)
    tsv := (match v.tsv with
      | some x => some (if pause = 0 ∨ x.step.isNone = true then x else
          { x with held := x.held + (t - x.heldAt) / tPav, heldAt := max x.heldAt stop })
      | none => none) }

/-- The level declared for a throttle window takes effect as it begins; a pause is counted. -/
def windowBegun (p : Nat) (s : State) : State :=
  let u := ((s.atLeast (s.windowAt p)).wr (Fld.PAV_THROTTLE_LEVEL p) (s.pav p).throttleNext).modPav p
    (windowEntered (s.windowAt p) (s.windowPause p))
  if s.windowPause p = 0 then u else u.sat (Fld.PAV_SCHED_CNT_PAUSES p)

theorem exec_throttleWindowBoundary {p : PavId} {s : State} (hg : (s.pav p).gated = false) :
    exec (.throttleWindowBoundary p) s = .next (windowBegun p s) :=
  if_neg (by rw [hg]; exact Bool.false_ne_true)

theorem State.windowAt_spaced {p w : Nat} {s : State} (h : (s.pav p).lastWin = some w) : w + 4096 ≤ s.windowAt p := by
  simp only [State.windowAt, h]
  exact Nat.le_max_right _ _

theorem State.windowPause_eq {p : Nat} {s : State} (h : (s.pav p).throttleNext < 3) : s.windowPause p =
    [0, min 1000 (s.rd (Fld.PAV_THROTTLE_PAUSE1 p)), min 1000 (s.rd (Fld.PAV_THROTTLE_PAUSE2 p))].getD (s.pav p).throttleNext 0 := by
  unfold State.windowPause
  generalize (s.pav p).throttleNext = lv at h
  match lv, h with
  | 0, _ => rfl
  | 1, _ => rfl
  | 2, _ => rfl

section
variable (p : Nat) (s : State)

theorem windowBegun_eq : windowBegun p s =
    { (s.atLeast (s.windowAt p)).modPav p (windowEntered (s.windowAt p) (s.windowPause p)) with regs := (windowBegun p s).regs } := by
  unfold windowBegun
  dsimp only
  split <;> rfl

theorem windowBegun_now : (windowBegun p s).now = max s.now (s.windowAt p) := by
  rw [windowBegun_eq]
  rfl

theorem windowBegun_pavs : (windowBegun p s).pavs = (s.modPav p (windowEntered (s.windowAt p) (s.windowPause p))).pavs := by
  rw [windowBegun_eq]
  rfl

theorem windowBegun_rest : windowBegun p s =
    { s with now := (windowBegun p s).now, regs := (windowBegun p s).regs, pavs := (windowBegun p s).pavs } := by
  rw [windowBegun_now, windowBegun_pavs]
  exact windowBegun_eq p s

theorem windowBegun_pav : (windowBegun p s).pav p = windowEntered (s.windowAt p) (s.windowPause p) (s.pav p) := by
  rw [State.pav, windowBegun_pavs]
  exact State.pav_modPav_same s p _

theorem windowBegun_pavsKept : PavsKept s (windowBegun p s) p := ((PavsKept.refl s p).modPav _).of_pavs (windowBegun_pavs p s)

theorem windowBegun_regsKept : RegsKept s (windowBegun p s) [Off.PAV_THROTTLE p, Off.PAV_SCHED_CNT p] := by
  have hlevel : RegsKept s ((s.atLeast (s.windowAt p)).wr (Fld.PAV_THROTTLE_LEVEL p) (s.pav p).throttleNext)
      [Off.PAV_THROTTLE p, Off.PAV_SCHED_CNT p] :=
    ((RegsKept.refl s _).of_regs rfl).wr (f := Fld.PAV_THROTTLE_LEVEL p) (List.mem_cons.2 (.inl rfl)) _
  unfold windowBegun
  dsimp only
  split
  · exact hlevel.of_regs rfl
  · exact (hlevel.of_regs rfl).wr (f := Fld.PAV_SCHED_CNT_PAUSES p) (List.mem_cons.2 (.inr (List.mem_singleton.2 rfl))) _

theorem windowBegun_level (h : (s.pav p).throttleNext < 3) : (windowBegun p s).rd (Fld.PAV_THROTTLE_LEVEL p) = (s.pav p).throttleNext := by
  have hlevel (a : State) : (a.wr (Fld.PAV_THROTTLE_LEVEL p) (s.pav p).throttleNext).rd (Fld.PAV_THROTTLE_LEVEL p) = (s.pav p).throttleNext :=
    (State.rd_wr_same a _ _ (show 30 + 2 ≤ 32 by decide)).trans (Nat.mod_eq_of_lt (show (s.pav p).throttleNext < 2 ^ 2 by omega))
  unfold windowBegun
  dsimp only
  split
  · exact hlevel _
  · rw [State.rd_sat_ne _ _ _ _ (show 0xC0010 + 0x1000 * p ≠ 0xC0030 + 0x1000 * p by omega)]
    exact hlevel _

end

/-! ### Precharges (R251, R253) -/

theorem State.bank_modBank_ne (p b : Nat) (f : Bank → Bank) (s : State) {i : Nat} (h : i ≠ b) :
    (s.modBank p b f).bank p i = s.bank p i := by
  rw [State.modBank, State.setBank, State.bank, State.pav_modPav_same]
  exact tabGet_tabSet_ne _ _ _ _ h

theorem State.rank_setRank_same (p r : Nat) (k : Rank) (s : State) : (s.setRank p r k).rank p r = k := by
  rw [State.setRank, State.rank, State.pav_modPav_same]
  exact tabGet_tabSet_same _ _ _ _

theorem State.bank_setRank (p r : Nat) (k : Rank) (s : State) (b : Nat) : (s.setRank p r k).bank p b = s.bank p b := by
  rw [State.setRank, State.bank, State.pav_modPav_same]
  rfl

theorem closeBank_rest (p b t : Nat) (s : State) : closeBank p b t s = { s with pavs := (closeBank p b t s).pavs } := by
  unfold closeBank
  cases (s.bank p b).open_ <;> rfl

theorem closeBank_pre (p b t : Nat) (s : State) : ((closeBank p b t s).bank p b).pre = some t := by
  unfold closeBank
  cases (s.bank p b).open_ with
  | none => simp only [State.bank_modBank_same]
  | some r => simp only [rowClosed_bank, State.bank_modBank_same]

theorem closeBank_bank_ne (p b t : Nat) (s : State) {i : Nat} (h : i ≠ b) : (closeBank p b t s).bank p i = s.bank p i := by
  unfold closeBank
  cases (s.bank p b).open_ with
  | none => exact State.bank_modBank_ne p b _ s h
  | some r => exact (rowClosed_bank p b r t i _).trans (State.bank_modBank_ne p b _ s h)

theorem issueRow_pre {p t : Nat} {w : RowCand} (h : w.cmd = .pre) (s : State) :
    issueRow p t w s = closeBank p w.bank t (s.modPav p (fun v => { v with lastIssue := some t })) := by
  rw [issueRow, rowDoes, h]

theorem exec_adaptiveCloseTimer {p : PavId} {b : BankId} {lv t0 : Nat} {s : State} (hc : (s.bank p b).close = some (lv, t0))
    (ho : (s.bank p b).open_.isSome = true) (hh : s.bankHeld p b = false) :
    let t := cycleFrom (max (max s.now t0) (max (s.earliestPre p b) (afterCyc (s.pav p).lastIssue 1)))
    let u := s.atLeast t
    let w : RowCand := { lvl := lv, bank := b, cmd := .pre, at_ := t, policy := true, free := true }
    exec (.adaptiveCloseTimer p b) s = .next (if u.rowOk p t (u.rowCands p) (u.colCands p) w then issueRow p t w u else u) := by
  show execAdaptiveCloseTimer p b s = _
  rw [execAdaptiveCloseTimer, hc]
  exact if_pos ⟨ho, hh⟩

/-! ### Power-down (R274, R275) -/

/-- A bank is precharged if it is open, in the first cycle that allows it. -/
def bankIdled (p b : Nat) (s : State) : State :=
  if (s.bank p b).open_.isSome then
    let t := cycleFrom (max (max s.now (s.earliestPre p b)) (afterCyc (s.pav p).lastIssue 1))
    issueRow p t { lvl := 10, bank := b, cmd := .pre, at_ := t } (s.atLeast t)
  else s

section
variable (p b : Nat) (s : State)

/-- A bank that is open is precharged in a state that differs in time and in the pavilion's last row command alone. -/
theorem bankIdled_cases : bankIdled p b s = s ∧ (s.bank p b).open_ = none ∨ ∃ t u, bankIdled p b s = closeBank p b t u ∧
    u.regs = s.regs ∧ s.now ≤ u.now ∧ PavsKept s u p ∧ ∀ i, u.bank p i = s.bank p i := by
  unfold bankIdled
  split
  · refine .inr ⟨_, _, issueRow_pre rfl _, rfl, Nat.le_max_left _ _, ((PavsKept.refl s p).atLeast _).modPav _, fun i => ?_⟩
    rw [State.bank, State.pav_modPav_same]
    rfl
  · next h => exact .inl ⟨rfl, by simpa using h⟩

theorem bankIdled_shut : ((bankIdled p b s).bank p b).open_ = none := by
  obtain ⟨he, ho⟩ | ⟨t, u, he, -⟩ := bankIdled_cases p b s
  · rw [he, ho]
  · rw [he, closeBank_open]

theorem bankIdled_bank_ne {i : Nat} (h : i ≠ b) : (bankIdled p b s).bank p i = s.bank p i := by
  obtain ⟨he, -⟩ | ⟨t, u, he, -, -, -, hbank⟩ := bankIdled_cases p b s
  · rw [he]
  · rw [he, closeBank_bank_ne p b t u h, hbank]

theorem bankIdled_regs : (bankIdled p b s).regs = s.regs := by
  obtain ⟨he, -⟩ | ⟨t, u, he, hregs, -⟩ := bankIdled_cases p b s
  · rw [he]
  · rw [he, closeBank_rest, ← hregs]

theorem bankIdled_now : s.now ≤ (bankIdled p b s).now := by
  obtain ⟨he, -⟩ | ⟨t, u, he, -, hnow, -⟩ := bankIdled_cases p b s
  · rw [he]
  · rw [he, closeBank_rest]
    exact hnow

theorem bankIdled_pavsKept : PavsKept s (bankIdled p b s) p := by
  obtain ⟨he, -⟩ | ⟨t, u, he, -, -, hkept, -⟩ := bankIdled_cases p b s
  · rw [he]
    exact .refl s p
  · rw [he]
    exact hkept.trans (closeBank_pavsKept p b t u)

end

/-- The banks of a rank are precharged, one after the other. -/
def banksIdled (p r : Nat) (s : State) : State := forUpto 16 (fun i a => bankIdled p (16 * r + i) a) s

/-- What `n` rounds of precharges leave: the banks they come to are shut. -/
theorem bankIdled_rounds (p r n : Nat) (s : State) : ∃ u, forUpto n (fun i a => bankIdled p (16 * r + i) a) s = u ∧
    (∀ i < n, (u.bank p (16 * r + i)).open_ = none) ∧ u.regs = s.regs ∧ s.now ≤ u.now ∧ PavsKept s u p := by
  induction n with
  | zero => exact ⟨s, rfl, fun i hi => absurd hi (Nat.not_lt_zero i), rfl, le_rfl, .refl s p⟩
  | succ n ih =>
    obtain ⟨u, he, hshut, hregs, hnow, hkept⟩ := ih
    refine ⟨_, by rw [forUpto_succ, he], fun i hi => ?_, (bankIdled_regs _ _ _).trans hregs, hnow.trans (bankIdled_now _ _ _),
      hkept.trans (bankIdled_pavsKept _ _ _)⟩
    by_cases hin : i = n
    · rw [hin]
      exact bankIdled_shut _ _ _
    · rw [bankIdled_bank_ne _ _ _ (by omega)]
      exact hshut i (by omega)

/-- A rank enters power-down, its banks precharged first. -/
def poweredDown (p r : Nat) (s : State) : State :=
  (banksIdled p r s).modRank p r (fun k => { k with down := true, lastUse := (banksIdled p r s).now })

section
variable (p r : Nat) (s : State)

theorem poweredDown_down : ((poweredDown p r s).rank p r).down = true := by
  rw [poweredDown, State.modRank, State.rank_setRank_same]

/-- The rest of what the entry leaves. -/
theorem poweredDown_rest : (∀ i < 16, ((poweredDown p r s).bank p (16 * r + i)).open_ = none) ∧ (poweredDown p r s).regs = s.regs ∧
    s.now ≤ (poweredDown p r s).now ∧ PavsKept s (poweredDown p r s) p := by
  obtain ⟨u, he, hshut, hregs, hnow, hkept⟩ := bankIdled_rounds p r 16 s
  rw [poweredDown, banksIdled, he, State.modRank]
  exact ⟨fun i hi => by rw [State.bank_setRank, hshut i hi], (State.setRank_regs _ _ _ _).trans hregs, hnow, hkept.modPav _⟩

end

theorem exec_powerDownEntry {p : PavId} {r : RankId} {s : State} (hrest : s.rd Fld.GLB_PWR_STAT_STATE = psRest)
    (hidle : s.rd (Fld.PAV_PWR_PD_IDLE p) ≠ 0) (hdown : (s.rank p r).down = false) (hself : (s.rank p r).inSelf = false)
    (hst : (s.rank p r).st ≠ .self_) (hents : ∀ e ∈ (s.pav p).ents, e.req.loc.bank / 16 ≠ r.val)
    (hdue : s.rankDue p r (max s.now ((s.rank p r).lastUse + tPav * s.rd (Fld.PAV_PWR_PD_IDLE p)) +
      tPav * s.rd (Fld.PAV_PWR_PD_IDLE p)) = false)
    (hheld : ∀ i < 16, s.bankHeld p (16 * r + i) = false) : exec (.powerDownEntry p r) s =
      .next (poweredDown p r (s.atLeast ((s.rank p r).lastUse + tPav * s.rd (Fld.PAV_PWR_PD_IDLE p)))) := by
  refine if_pos ⟨hrest, hidle, hdown, hself, hst, ?_, hdue, ?_⟩
  · exact List.any_eq_false.2 fun e he => by simpa using hents e he
  · exact List.all_eq_true.2 fun i hi => by rw [hheld i (List.mem_range.1 hi)]; rfl

end Sys2Proof.Machine
end

section
/-! SUPPORT. What the timers of scrub steps, repeat-corrector entries and neighbour entries leave (R321, R357, R359, R361). -/
namespace Sys2Proof.Machine
open Sys2Proof

section
variable {p : PavId} {s : State}

theorem exec_scrubStepDue_due (hl : (s.pav p).scrubLeft = 0) (hg : (s.pav p).gated = false) (hh : s.halted = false)
    (hr : s.on (Fld.PAV_REPAIR_STAT_RETIRED p) = false) (hps : s.rd Fld.GLB_PWR_STAT_STATE < 2) (hd : (s.pav p).scrubDue = false) :
    exec (.scrubStepDue p) s = .next ((s.modPav p (fun v => { v with scrubLeft := s.rd (Fld.PAV_SCRUB_CTRL_INTERVAL p) + 1 })).modPav p
      (fun v => { v with scrubDue := true, scrubMissed := 0, scrubEsc := false })) := by
  refine (if_pos hl).trans (if_neg ?_)
  rintro (h | h | h | h | h)
  · exact Bool.false_ne_true (hg.symm.trans h)
  · exact Bool.false_ne_true (hh.symm.trans h)
  · exact Bool.false_ne_true (hr.symm.trans h)
  · exact absurd hps (Nat.not_lt.2 h)
  · exact Bool.false_ne_true (hd.symm.trans h)

/-- The scrub step of a pavilion is escalated, and counted while the pavilion accounts for errors (R348, R361). -/
def scrubEscalated (p : Nat) (s : State) : State :=
  let u := s.modPav p (fun v => { v with scrubEsc := true })
  if s.accounts p then u.sat (Fld.PAV_SCRUB_CNT_ESCALATED p) else u

theorem exec_scrubEscalation (hd : (s.pav p).scrubDue = true) (he : (s.pav p).scrubEsc = false) (hm : 4 ≤ (s.pav p).scrubMissed) :
    exec (.scrubEscalation p) s = .next (refAll p ((scrubEscalated p s).raiseOnce (evPav p 12) 0)) :=
  if_pos ⟨hd, he, hm⟩

theorem scrubEscalated_accounts (ha : s.accounts p = true) : scrubEscalated p s =
    (s.modPav p (fun v => { v with scrubEsc := true })).sat (Fld.PAV_SCRUB_CNT_ESCALATED p) := if_pos ha

theorem scrubEscalated_silent (ha : s.accounts p = false) : scrubEscalated p s = s.modPav p (fun v => { v with scrubEsc := true }) :=
  if_neg (by rw [ha]; exact Bool.false_ne_true)

theorem scrubEscalated_eq : scrubEscalated p s =
    { s.modPav p (fun v => { v with scrubEsc := true }) with regs := (scrubEscalated p s).regs } := by
  unfold scrubEscalated
  dsimp only
  split <;> rfl

theorem scrubEscalated_onceTurn : (scrubEscalated p s).onceTurn = s.onceTurn := by
  rw [scrubEscalated_eq]
  rfl

theorem scrubEscalated_pavs : (scrubEscalated p s).pavs = (s.modPav p (fun v => { v with scrubEsc := true })).pavs := by
  rw [scrubEscalated_eq]

theorem scrubEscalated_esc : ((scrubEscalated p s).pav p).scrubEsc = true := by
  rw [State.pav, scrubEscalated_pavs, ← State.pav, State.pav_modPav_same]

theorem scrubEscalated_regsKept : RegsKept s (scrubEscalated p s) [Off.PAV_SCRUB_CNT p] := by
  cases ha : s.accounts p with
  | false =>
    rw [scrubEscalated_silent ha]
    exact .refl s _
  | true =>
    rw [scrubEscalated_accounts ha]
    exact (RegsKept.refl s _).wr (f := Fld.PAV_SCRUB_CNT_ESCALATED p) (List.mem_singleton.2 rfl) _

theorem scrubEscalated_pavsKept : PavsKept s (scrubEscalated p s) p := ((PavsKept.refl s p).modPav _).of_pavs scrubEscalated_pavs

/-- Whether a repeat-corrector entry has had a correction in the last 2^EXPIRE turns. -/
def State.repeatFresh (s : State) (p : Nat) (x : Repeat) : Bool :=
  decide ((s.cad.turn.toNat + 2 ^ 40 - x.turn) % 2 ^ 40 < 2 ^ s.rd (Fld.PAV_ECC_CTRL_EXPIRE p))

theorem exec_repeatEntryExpiry (h : s.rd (Fld.PAV_ECC_CTRL_EXPIRE p) ≠ 31) :
    exec (.repeatEntryExpiry p) s = .next (s.modPav p (fun v => { v with repeats := v.repeats.filter (s.repeatFresh p) })) :=
  if_neg h

/-- A neighbour entry that is escalated at a time is counted. -/
def neighEscalated (p : Nat) (x : Neigh) (t : Nat) (s : State) : State :=
  ((s.atLeast t).modPav p (fun v => { v with neigh := v.neigh.map (fun y => if y = x then { y with escalated := true } else y) })).sat
    (Fld.PAV_NEIGH_STAT_ESCALATED p)

theorem neighEscalated_regsKept (p : Nat) (x : Neigh) (t : Nat) (s : State) :
    RegsKept s (neighEscalated p x t s) [Off.PAV_NEIGH_STAT p] :=
  (RegsKept.refl s _).wr (f := Fld.PAV_NEIGH_STAT_ESCALATED p) (List.mem_singleton.2 rfl) _

theorem neighEscalated_pavsKept (p : Nat) (x : Neigh) (t : Nat) (s : State) : PavsKept s (neighEscalated p x t s) p := by
  rw [neighEscalated]
  exact (((PavsKept.refl s p).atLeast t).modPav _).of_pavs (State.sat_pavs _ _ _)

theorem exec_neighbourEscalation {x : Neigh} (h : (s.pav p).neigh.find? (fun x => !x.escalated && !x.started) = some x) :
    exec (.neighbourEscalation p) s =
      .next (refAll p ((neighEscalated p x (x.since + 64 * tUs) s).raiseOnce (evPav p 4) x.bank)) := by
  show execNeighbourEscalation p s = _
  rw [execNeighbourEscalation, h]
  rfl

end

end Sys2Proof.Machine
end

section
/-! O40. Lines age and stall, windows begin, rows close and ranks power down; scrubs, repeats and neighbours fall due. -/
namespace Sys2Proof.Machine
open Sys2Proof

/-- Settles O40: each timer that is armed leaves its pavilion changed in its own part, with its counter one higher. -/
theorem waitingLinesAgeAndScrubsFallDue : Obligations.WaitingLinesAgeAndScrubsFallDue := by
  unfold Obligations.WaitingLinesAgeAndScrubsFallDue
  refine ⟨fun p s => ⟨fun id e he => ?aged1, fun id e he h1 => ?aged2, fun e hh hd => ownLevel_aged hh hd, fun r hr => ?stall,
    fun hg hlv => ?window, fun b lv t0 hc ho hh => ?close, fun r hrest hidle hdown hself hst hents hdue hheld => ?powerDown⟩,
    fun p s => ⟨fun hl hg hh hr hps hd => ?scrubDue, fun hl => if_neg hl, fun hd he hm => ?escalated, fun h => ?expiry,
      fun h => if_pos h, fun x hx => ?neighbour⟩⟩
  case aged1 =>
    exact ⟨_, exec_aged1 he, agedTo_now .., agedTo_ents .., agedTo_counts _ _ _ _ _ _ (show 16 + 8 ≤ 32 by decide),
      agedTo_regsKept _ _ _ _ _ _, agedTo_pavsKept _ _ _ _ _ _⟩
  case aged2 =>
    refine ⟨_, exec_aged2 he h1, ?_, ?_, ?_, ?_, ?_, ?_⟩
    · rw [State.raiseOnce_now, agedTo_now]
    · rw [State.raiseOnce_pav, agedTo_ents]
    · rw [State.raiseOnce_rd, agedTo_counts _ _ _ _ _ _ (show 24 + 8 ≤ 32 by decide)]
    · exact raised_or_mem _ _ _
    · exact (agedTo_regsKept _ _ _ _ _ _).of_regs (State.raiseOnce_regs _ _ _)
    · exact (agedTo_pavsKept _ _ _ _ _ _).of_pavs (State.raiseOnce_pavs _ _ _)
  case stall =>
    obtain ⟨d, hexec⟩ := exec_acceptanceStallTimer hr
    exact ⟨_, hexec, stalledAt_now .., stalledAt_prom .., State.raise_sets_out _ _ _, stalledAt_counts .., stalledAt_regsKept _ _ _ _ _,
      stalledAt_rest ..⟩
  case window =>
    refine ⟨s.windowAt p, _, exec_throttleWindowBoundary hg, windowBegun_now p s, ?_, fun w hw => State.windowAt_spaced hw,
      windowBegun_level p s hlv, ?_, windowBegun_regsKept p s, windowBegun_pavsKept p s, windowBegun_rest p s⟩
    · rw [windowBegun_pav]
      rfl
    · rw [windowBegun_pav, ← State.windowPause_eq hlv]
      rfl
  case close =>
    refine ⟨exec_adaptiveCloseTimer hc ho hh, ?_, ?_⟩
    · rw [issueRow_pre rfl, closeBank_open]
    · rw [issueRow_pre rfl, closeBank_pre]
  case powerDown =>
    obtain ⟨hshut, hregs, hnow, hkept⟩ := poweredDown_rest p r (s.atLeast ((s.rank p r).lastUse + tPav * s.rd (Fld.PAV_PWR_PD_IDLE p)))
    exact ⟨_, exec_powerDownEntry hrest hidle hdown hself hst hents hdue hheld, poweredDown_down _ _ _, hshut, hnow, hregs,
      ((PavsKept.refl s p).atLeast _).trans hkept⟩
  case scrubDue =>
    refine ⟨_, exec_scrubStepDue_due hl hg hh hr hps hd, ?_, ?_, ?_, ?_, ((PavsKept.refl s p).modPav _).modPav _, rfl⟩ <;>
      simp only [State.pav_modPav_same]
  case escalated =>
    refine ⟨_, exec_scrubEscalation hd he hm, ?_, ?_, fun ha => ?_, fun ha => ?_, ?_, ?_⟩
    · rw [State.raiseOnce_pav, scrubEscalated_esc]
    · rw [← scrubEscalated_onceTurn (p := p)]
      exact raised_or_mem _ _ _
    · rw [State.raiseOnce_rd, scrubEscalated_accounts ha, State.rd_sat_same _ _ _ (show 24 + 8 ≤ 32 by decide), State.modPav_rd]
    · rw [State.raiseOnce_regs, scrubEscalated_silent ha, State.modPav_regs]
    · exact scrubEscalated_regsKept.of_regs (State.raiseOnce_regs _ _ _)
    · exact scrubEscalated_pavsKept.of_pavs (State.raiseOnce_pavs _ _ _)
  case expiry =>
    refine ⟨_, exec_repeatEntryExpiry h, fun x => ?_, (PavsKept.refl s p).modPav _, rfl⟩
    rw [State.pav_modPav_same, List.mem_filter, State.repeatFresh, decide_eq_true_eq]
  case neighbour =>
    refine ⟨_, exec_neighbourEscalation hx, ?_, ?_, raised_or_mem _ _ _, ?_, ?_, ?_⟩
    · rw [State.raiseOnce_now]
      rfl
    · rw [State.raiseOnce_pav, neighEscalated, State.sat_pav, State.pav_modPav_same, State.atLeast_pav]
    · rw [State.raiseOnce_rd, neighEscalated, State.rd_sat_same _ _ _ (show 24 + 8 ≤ 32 by decide), State.modPav_rd, State.atLeast_rd]
    · exact (neighEscalated_regsKept _ _ _ _).of_regs (State.raiseOnce_regs _ _ _)
    · exact (neighEscalated_pavsKept _ _ _ _).of_pavs (State.raiseOnce_pavs _ _ _)

end Sys2Proof.Machine
end

section
/-! SUPPORT. A stack in which nothing goes on at the end of a drain: no change of power state, no shutdown, and a slice that a test still
waits for (R411, R690, R706). -/
namespace Sys2Proof.Machine
open Sys2Proof

section
variable {s : State}

theorem heldAll_settled (h : s.power.trans = .none_) : heldAll s = s := by rw [heldAll, h]

theorem holdStep_settled (h : s.power.trans = .none_) : holdStep s = s := by rw [holdStep, h]

theorem shutStep_none (h : s.power.shut = none) : shutStep s = s := by rw [shutStep, h]

theorem slices_ne_zero {p : Nat} (hp : p < 32) (h : (s.pav p).slice.isSome = true) : s.slices ≠ 0 := by
  have hsum : s.slices = ((List.range 32).map fun q => b2n (s.pav q).slice.isSome).sum := by
    rw [State.slices, List.sum_eq_foldl, List.foldl_map]
  rw [hsum, Ne, List.sum_eq_zero_iff]
  intro hzero
  have hb := hzero _ (List.mem_map.2 ⟨p, List.mem_range.2 hp, rfl⟩)
  rw [h] at hb
  exact absurd hb (by decide)

theorem slicesOver_eq_false {p : Nat} (hp : p < 32) (h : (s.pav p).slice.isSome = true) : s.slicesOver = false := by
  refine List.all_eq_false.2 ⟨p, List.mem_range.2 hp, ?_⟩
  rw [Option.isNone_eq_false_iff.2 h]
  exact Bool.false_ne_true

/-- A parking test waits for the slice that is in progress. -/
theorem parkStep_slice {p : Nat} (hp : p < 32) (h : (s.pav p).slice.isSome = true) : parkStep s = s := by
  simp [parkStep, slices_ne_zero hp h, slicesOver_eq_false hp h]

theorem quietStep_heldAll_slice {p : Nat} (ht : s.power.trans = .none_) (hs : s.power.shut = none) (hp : p < 32)
    (h : (s.pav p).slice.isSome = true) : quietStep (heldAll s) = s := by
  rw [heldAll_settled ht, quietStep, holdStep_settled ht, parkStep_slice hp h, shutStep_none hs]

end

/-! ### A line in another pavilion's buffer -/

/-- A write-back in the buffer of pavilion 0 whose line lies in pavilion 1. -/
def strayEnt : Ent :=
  { req := { id := 1, owner := .scrub, agent := 0, loc := { pav := 1, bank := 0, row := 0, col := 0 }, idx := 0, op := .read, tc := 0,
             panic := false, hint := 0, since := 0, promoted := false, stalled := false },
    st := .buffered, aged := 0, words := Vector.replicate 8 0, host := false, level := 9, got := none }

/-- A slice that has just begun. -/
def freshSlice : Slice :=
  { bank := 1, phys := 0, row := 0, isSpare := false, why := .sweep, save := [], held := 0, heldAt := 0, aborted := none, phase := 0,
    col := 0, half := false, yielded := false, checker := false }

/-- Pavilion 0 drains with that line in its buffer, while the repeat corrector of pavilion 1 has an entry of a word of the line, and a
slice is in progress there. -/
def strayState : State :=
  { State.reset with pavs :=
      [(0, { Pav.reset with drain := .power, ents := [strayEnt] }),
       (1, { Pav.reset with repeats := [{ bank := 0, phys := 0, col := 0, word := 0, writtenBack := false, turn := 0 }],
                            slice := some freshSlice })] }

/-- What its drain leaves. -/
def strayDrained : State := gatePav 0 (settlePav 0 strayState)

theorem strayDrained_power : strayDrained.power = strayState.power := by decide

theorem strayDrained_slice : ((strayDrained.pav 1).slice).isSome = true := by decide

/-- The line's way to the DRAM marks the entry of pavilion 1 (R355). -/
theorem strayDrained_repeats : (strayDrained.pav 1).repeats ≠ (strayState.pav 1).repeats := by decide

end Sys2Proof.Machine
end

section
/-! O60. Pavilions drain into Hold and Sleep. -/
namespace Sys2Proof.Machine
open Sys2Proof

/-- Refutes O60: a pavilion that drains writes every line of its buffer where the line lies, and no premise says that this is in the
pavilion itself. In `strayState` the line lies in pavilion 1, whose repeat corrector the drain of pavilion 0 changes (R355). The state the
statement asks for would be the one the drain leaves: with a slice in progress in pavilion 1, which it has to keep, nothing else goes on. -/
theorem not_stackSleepsAndWakes : ¬ Obligations.StackSleepsAndWakes := by
  unfold Obligations.StackSleepsAndWakes
  intro h
  obtain ⟨v, hexec, -, hpower, -, hkept, -⟩ := (h strayState).1 0 rfl (by decide)
  have hdrained : exec (.pavilionDrainDone 0) strayState = .next (quietStep (heldAll strayDrained)) := rfl
  have hpav : v.pav 1 = strayState.pav 1 := hkept 1 (by decide)
  have hstill : quietStep (heldAll strayDrained) = strayDrained :=
    quietStep_heldAll_slice (p := 1) (by rw [strayDrained_power]; rfl) (by rw [strayDrained_power]; rfl) (by decide) strayDrained_slice
  have hv : quietStep (heldAll v) = v :=
    quietStep_heldAll_slice (p := 1) (by rw [hpower]; rfl) (by rw [hpower]; rfl) (by decide) (by rw [hpav]; rfl)
  have hsame : strayDrained = v := by
    have hnext := Host.Outcome.next.inj (hdrained.symm.trans hexec)
    rwa [hstill, hv] at hnext
  exact strayDrained_repeats (by rw [hsame, hpav])

end Sys2Proof.Machine
end

section
/-! SUPPORT. What the commands that set cadence, refresh, ECC and repair registers do on payloads in their bounds (R324, R373, R374, R376). -/
namespace Sys2Proof.Machine
open Sys2Proof

section
variable {m : Nat} {pl : List Byte} {s : State} {ps : List Nat}

/-- CAD_SET (R326): the source and its port. -/
theorem opCadSet_source (h0 : leAt pl 0 1 ≤ 2) (h1 : leAt pl 1 1 ≤ 15) (h2 : leAt pl 2 1 = 0) (h3 : leAt pl 3 1 = 0) :
    opCadSet m pl s = (setSource (leAt pl 0 1) (leAt pl 1 1) s).finish m ccOk [] := by
  have hzero : firstNonzero pl [2, 3] = none := firstNonzero_eq_none (by simp [h2, h3])
  rw [opCadSet, if_neg (Nat.not_lt.2 h0), if_neg (Nat.not_lt.2 h1), hzero]

/-- SLOT_SET (R333): the slot takes its value at a turn boundary. -/
theorem opSlotSet_slot (h0 : leAt pl 0 1 ≤ 3) (h1 : leAt pl 1 1 = 0) (h2 : leAt pl 2 1 = 0) (h3 : leAt pl 3 1 = 0)
    (h7 : leAt pl 7 1 ≤ 15) : opSlotSet m pl s =
      (putAtTurn (Off.CAD_SLOT (leAt pl 0 1)) (BitVec.ofNat 32 (leAt pl 4 4)) s).finish m ccOk [] := by
  have hzero : firstNonzero pl [1, 2, 3] = none := firstNonzero_eq_none (by simp [h1, h2, h3])
  simp only [opSlotSet, if_neg (Nat.not_lt.2 h0), hzero, if_neg (Nat.not_lt.2 h7)]

/-- REF_WINDOWS_SET of windows that break no rule (R304). -/
theorem opRefWindowsSet_windows (hp : pavsNamed (leAt pl 0 1) = some ps) (h1 : leAt pl 1 1 ≤ 15) (h2 : leAt pl 2 1 = 0)
    (h3 : leAt pl 3 1 = 0) (hw : badWindow pl = none) : opRefWindowsSet m pl s =
      (ps.foldl (fun a p => forUpto 4 (fun r b => if bitAt (leAt pl 1 1) r then
        forUpto 4 (fun w c => putAtTurn (Off.PAV_REF_WIN p r w) (BitVec.ofNat 32 (leAt pl (4 + 4 * w) 4)) c) b else b) a) s).finish
          m ccOk [] := by
  have hzero : firstNonzero pl [2, 3] = none := firstNonzero_eq_none (by simp [h2, h3])
  simp only [opRefWindowsSet, hp, if_neg (Nat.not_lt.2 h1), hzero, hw]

/-- REF_SPREAD (R305): one, two or four windows a rank. -/
theorem opRefSpread_spread (hn : leAt pl 0 1 = 1 ∨ leAt pl 0 1 = 2 ∨ leAt pl 0 1 = 4) (hw : 1 ≤ leAt pl 1 1) (hw' : leAt pl 1 1 ≤ 63)
    (h3 : leAt pl 3 1 ≤ 3) : opRefSpread m pl s =
      (spreadWindows (leAt pl 0 1) (leAt pl 1 1) (leAt pl 2 2) s).finish m ccOk [] :=
  (if_neg (by omega)).trans ((if_neg (by omega)).trans (if_neg (Nat.not_lt.2 h3)))

/-- NEIGH_SET (R338): K, EN and D2 of the pavilions named. -/
theorem opNeighSet_fields (hp : pavsNamed (leAt pl 0 1) = some ps) (h6 : 6 ≤ leAt pl 1 1) (h14 : leAt pl 1 1 ≤ 14)
    (h2 : leAt pl 2 1 ≤ 3) (h3 : leAt pl 3 1 = 0) : opNeighSet m pl s =
      (ps.foldl (fun a p => ((a.wr (Fld.PAV_NEIGH_CTRL_K p) (leAt pl 1 1)).wr (Fld.PAV_NEIGH_CTRL_EN p) (leAt pl 2 1 % 2)).wr
        (Fld.PAV_NEIGH_CTRL_D2 p) (leAt pl 2 1 / 2)) s).finish m ccOk [] := by
  have hzero : firstNonzero pl [3] = none := firstNonzero_eq_none (by simpa using h3)
  have hk : ¬ (leAt pl 1 1 < 6 ∨ 14 < leAt pl 1 1) := by omega
  simp only [opNeighSet, hp, if_neg hk, if_neg (Nat.not_lt.2 h2), hzero]

/-- ECC_CLEAR (R756). -/
theorem opEccClear_pavs (hp : pavsNamed (leAt pl 0 1) = some ps) (h1 : leAt pl 1 1 ≤ 15) : opEccClear m pl s =
    (ps.foldl (fun a p => eccClear (leAt pl 1 1) p a) s).finish m ccOk [] := by
  simp only [opEccClear, hp, if_neg (Nat.not_lt.2 h1)]

/-- SCRUB_REGIONS (R376): the enables of the regions after the operation, which it answers with. -/
theorem opScrubRegions_enables (h0 : leAt pl 0 1 ≤ 2) (h1 : leAt pl 1 1 = 0) (h2 : leAt pl 2 1 = 0) (h3 : leAt pl 3 1 = 0) :
    opScrubRegions m pl s =
      (let u := forUpto 16 (fun i a => a.setReg (Off.GLB_SCRUB_EN i)
        (let v := BitVec.ofNat 32 (leAt pl (4 + 4 * i) 4)
         let old := a.reg (Off.GLB_SCRUB_EN i)
         if leAt pl 0 1 = 0 then v else if leAt pl 0 1 = 1 then old ||| v else old &&& ~~~v)) s
       u.finish m ccOk ((List.range 16).flatMap (fun i => leBytes 4 (u.reg (Off.GLB_SCRUB_EN i)).toNat))) := by
  have hzero : firstNonzero pl [1, 2, 3] = none := firstNonzero_eq_none (by simp [h1, h2, h3])
  rw [opScrubRegions, if_neg (Nat.not_lt.2 h0), hzero]

/-- PAV_RETIRE (R373, R374), while another pavilion serves. -/
theorem opPavRetire_retires (h0 : leAt pl 0 1 ≤ 31)
    (hq : ∃ q, q < 32 ∧ q ≠ leAt pl 0 1 ∧ s.on (Fld.PAV_REPAIR_STAT_RETIRED q) = false) : opPavRetire m pl s =
      (if s.on Fld.GLB_MAP_CTRL_LOCKED then retireRunning (leAt pl 0 1) 1 s else retireBefore (leAt pl 0 1) s).finish m ccOk [] := by
  obtain ⟨q, hlt, hne, hserves⟩ := hq
  have hlast : (List.range 32).all (fun q => q == leAt pl 0 1 || s.on (Fld.PAV_REPAIR_STAT_RETIRED q)) = false :=
    List.all_eq_false.2 ⟨q, List.mem_range.2 hlt, by simp [hne, hserves]⟩
  rw [opPavRetire, if_neg (Nat.not_lt.2 h0), hlast]
  exact if_neg Bool.false_ne_true

end

end Sys2Proof.Machine
end

section
/-! O11. The commands that set cadence, refresh, ECC and repair registers. -/
namespace Sys2Proof.Machine
open Sys2Proof

/-- Settles O11: each row is accepted and runs its opcode (`exec_accepted`), whose bounds hold, so that it sets its registers and
completes. -/
theorem refreshCommandsSet : Obligations.RefreshCommandsSet := by
  unfold Obligations.RefreshCommandsSet
  exact fun m pl s => ⟨fun h h0 h1 h2 h3 => exec_accepted rfl h (opCadSet_source h0 h1 h2 h3),
    fun h h0 h1 h2 h3 h7 => exec_accepted rfl h (opSlotSet_slot h0 h1 h2 h3 h7),
    fun ps h hp h1 h2 h3 hw => exec_accepted rfl h (opRefWindowsSet_windows hp h1 h2 h3 hw),
    fun h hn hw hw' h3 => exec_accepted rfl h (opRefSpread_spread hn hw hw' h3),
    fun ps h hp h6 h14 h2 h3 => exec_accepted rfl h (opNeighSet_fields hp h6 h14 h2 h3),
    fun ps h hp h1 => exec_accepted rfl h (opEccClear_pavs hp h1),
    fun h h0 h1 h2 h3 => exec_accepted rfl h (opScrubRegions_enables h0 h1 h2 h3),
    fun h h0 hq => exec_accepted rfl h (opPavRetire_retires h0 hq)⟩

end Sys2Proof.Machine
end

section
/-! SUPPORT. What the refresh engines of a pavilion change and leave (R275, R309): its ranks, PAV_REF_CNT, and raisings that set out. -/
namespace Sys2Proof.Machine
open Sys2Proof

/-! ### A loop at one of its rounds -/

/-- A part of the state that one round of a loop alone changes is after the loop as that round leaves it, in a state that the rounds before
lead to; `R` is what any round may do. -/
theorem forUpto_at_round {α : Type} {R : State → State → Prop} (hrefl : ∀ a, R a a) (htrans : ∀ {a b c}, R a b → R b c → R a c)
    {n k : Nat} {f : Nat → State → State} {part : State → α} (hf : ∀ i a, R a (f i a))
    (hpart : ∀ i a, i ≠ k → part (f i a) = part a) (hk : k < n) (s : State) :
    ∃ a, R s a ∧ part a = part s ∧ R (f k a) (forUpto n f s) ∧ part (forUpto n f s) = part (f k a) := by
  induction n with
  | zero => omega
  | succ n ih =>
    rw [forUpto_succ]
    by_cases hkn : k = n
    · subst hkn
      refine ⟨_, ?_, ?_, hrefl _, rfl⟩
      · exact forUpto_induction (P := R s) k f s (hrefl s) fun i a _ ha => htrans ha (hf i a)
      · exact forUpto_induction (P := fun a => part a = part s) k f s rfl fun i a hi ha => (hpart i a (by omega)).trans ha
    · obtain ⟨a, hbefore, hsame, hafter, hpost⟩ := ih (by omega)
      exact ⟨a, hbefore, hsame, htrans hafter (hf n _), (hpart n _ (by omega)).trans hpost⟩

/-! ### Ranks -/

theorem State.rank_setRank_ne (p r : Nat) (k : Rank) (s : State) {i : Nat} (h : i ≠ r) : (s.setRank p r k).rank p i = s.rank p i := by
  rw [State.setRank, State.rank, State.pav_modPav_same]
  exact tabGet_tabSet_ne _ _ _ _ h

theorem State.rank_of_pavs {s t : State} (h : t.pavs = s.pavs) (p r : Nat) : t.rank p r = s.rank p r := by
  rw [State.rank, State.pav, h, State.rank, State.pav]

/-! ### Operations that change ranks alone -/

/-- Only ranks of one pavilion differ. -/
structure RanksMoved (p : Nat) (x s : State) : Prop where
  pavs : PavsKept x s p
  pav : s.pav p = { x.pav p with ranks := (s.pav p).ranks }
  rest : s = { x with pavs := s.pavs }

theorem RanksMoved.refl (p : Nat) (s : State) : RanksMoved p s s := ⟨.refl s p, rfl, rfl⟩

section
variable {p : Nat} {x s t : State}

theorem RanksMoved.trans (h : RanksMoved p x s) (k : RanksMoved p s t) : RanksMoved p x t where
  pavs := h.pavs.trans k.pavs
  pav := k.pav.trans (congrArg (fun v : Pav => { v with ranks := (t.pav p).ranks }) h.pav)
  rest := k.rest.trans (congrArg (fun u : State => { u with pavs := t.pavs }) h.rest)

theorem RanksMoved.ite {a b : State} {c : Prop} [Decidable c] (ha : RanksMoved p x a) (hb : RanksMoved p x b) :
    RanksMoved p x (if c then a else b) := by
  split <;> assumption

theorem setRank_ranksMoved (p r : Nat) (k : Rank) (s : State) : RanksMoved p s (s.setRank p r k) where
  pavs := (PavsKept.refl s p).modPav _
  pav := by
    rw [State.setRank, State.pav_modPav_same]
  rest := rfl

theorem RanksMoved.setRank (h : RanksMoved p x s) (r : Nat) (k : Rank) : RanksMoved p x (s.setRank p r k) :=
  h.trans (setRank_ranksMoved p r k s)

theorem RanksMoved.forUpto (h : RanksMoved p x s) {n : Nat} {f : Nat → State → State} (hf : ∀ i a, RanksMoved p a (f i a)) :
    RanksMoved p x (forUpto n f s) := forUpto_induction n f s h fun i a _ ha => ha.trans (hf i a)

theorem RanksMoved.regs (h : RanksMoved p x s) : s.regs = x.regs := by rw [h.rest]

theorem RanksMoved.rd (h : RanksMoved p x s) (f : Fld) : s.rd f = x.rd f := State.rd_of_regs h.regs f

theorem RanksMoved.debt (h : RanksMoved p x s) (r : Nat) : s.debt p r = x.debt p r := h.rd _

theorem RanksMoved.now (h : RanksMoved p x s) : s.now = x.now := by rw [h.rest]

theorem RanksMoved.crossing (h : RanksMoved p x s) : s.crossing = x.crossing := by rw [h.rest]

theorem RanksMoved.cell (h : RanksMoved p x s) (a : Nat) : s.cell a = x.cell a := by rw [h.rest]; rfl

/-- What waits for a rank does not lie in the ranks. -/
theorem RanksMoved.waitsFor (h : RanksMoved p x s) (r : Nat) : s.waitsFor p r = x.waitsFor p r := by
  have hscrub : s.scrubAt p = x.scrubAt p := by rw [State.scrubAt, h.rd, h.rd, State.scrubAt]
  have hesc (y : Neigh) : s.neighEsc p y = x.neighEsc p y := by rw [State.neighEsc, h.pav, State.neighEsc]
  have hlevel (e : Ent) : s.entLevel p e = x.entLevel p e := by
    have hown (e : Ent) : s.ownLevel p e = x.ownLevel p e := by rw [State.ownLevel, h.pav, State.ownLevel]
    rw [State.entLevel, h.pav, State.entLevel]
    simp only [hown]
  rw [State.waitsFor, State.waitsFor]
  simp only [hscrub, hesc, hlevel]
  rw [h.pav]

end

section
variable (p r : Nat) (s : State)

theorem wakeRank_ranksMoved : RanksMoved p s (wakeRank p r s) := .ite (setRank_ranksMoved p r _ s) (.refl p s)

theorem wakeDue_ranksMoved : RanksMoved p s (wakeDue p r s) := .ite (wakeRank_ranksMoved p r s) (.refl p s)

theorem noteUrgent_ranksMoved : RanksMoved p s (noteUrgent p r s) := .ite (.refl p s) (setRank_ranksMoved p r _ s)

theorem payEnd_ranksMoved : RanksMoved p s (payEnd p r s) :=
  .ite (setRank_ranksMoved p r _ s) (.ite (setRank_ranksMoved p r _ s) (.refl p s))

theorem enterSelf_ranksMoved : RanksMoved p s (enterSelf p r s) :=
  .ite (setRank_ranksMoved p r _ s) ((setRank_ranksMoved p r _ s).trans (wakeDue_ranksMoved p r _))

theorem selfReady_ranksMoved : RanksMoved p s (selfReady p r s) := .ite (setRank_ranksMoved p r _ s) (.refl p s)

theorem drainStep_ranksMoved : RanksMoved p s (drainStep p s) :=
  .ite (RanksMoved.forUpto (.refl p s) fun r a => (enterSelf_ranksMoved p r a).trans (selfReady_ranksMoved p r _)) (.refl p s)

/-- A rank that leaves power-down is otherwise as it was (R275). -/
theorem wakeRank_rank : ∃ down since, (wakeRank p r s).rank p r = { s.rank p r with down := down, notBefore := since } := by
  unfold wakeRank
  extract_lets k
  split
  · exact ⟨_, _, State.rank_setRank_same p r _ s⟩
  · exact ⟨_, _, rfl⟩

theorem wakeDue_rank : ∃ down since, (wakeDue p r s).rank p r = { s.rank p r with down := down, notBefore := since } := by
  unfold wakeDue
  split
  · exact wakeRank_rank p r s
  · exact ⟨_, _, rfl⟩

theorem wakeRank_rank_ne {i : Nat} (h : i ≠ r) : (wakeRank p r s).rank p i = s.rank p i := by
  unfold wakeRank
  extract_lets k
  split
  · exact State.rank_setRank_ne p r _ s h
  · rfl

theorem wakeDue_rank_ne {i : Nat} (h : i ≠ r) : (wakeDue p r s).rank p i = s.rank p i := by
  unfold wakeDue
  split
  · exact wakeRank_rank_ne p r s h
  · rfl

/-- Of its rank it notes since when urgent work has waited. -/
theorem noteUrgent_rank : ∃ since, (noteUrgent p r s).rank p r = { s.rank p r with urgent := since } := by
  unfold noteUrgent
  extract_lets since
  split
  · exact ⟨_, rfl⟩
  · exact ⟨_, State.rank_setRank_same p r _ s⟩

end

/-- Urgent work that is known to wait is not noted again. -/
theorem noteUrgent_known {p r t : Nat} {s : State} (hw : s.waitsFor p r = true) (ht : (s.rank p r).urgent = some t) :
    noteUrgent p r s = s := by
  simp [noteUrgent, hw, ht]

/-! ### Operations of the engines -/

/-- What the refresh engines of a pavilion may change. -/
structure EngineMoved (p : Nat) (x s : State) : Prop where
  regs : RegsKept x s [Off.PAV_REF_CNT p]
  pavs : PavsKept x s p
  pav : s.pav p = { x.pav p with ranks := (s.pav p).ranks }
  raised : ∀ ev, Raised x ev → Raised s ev
  rest : s = { x with regs := s.regs, pavs := s.pavs, crossing := s.crossing, onceTurn := s.onceTurn }

theorem RanksMoved.engineMoved {p : Nat} {x s : State} (h : RanksMoved p x s) : EngineMoved p x s where
  regs := (RegsKept.refl x _).of_regs h.regs
  pavs := h.pavs
  pav := h.pav
  raised := fun _ hx => hx.of_crossing h.crossing
  rest := by rw [h.rest]

theorem EngineMoved.refl (p : Nat) (s : State) : EngineMoved p s s := (RanksMoved.refl p s).engineMoved

section
variable {p : Nat} {x s t : State}

theorem EngineMoved.trans (h : EngineMoved p x s) (k : EngineMoved p s t) : EngineMoved p x t where
  regs := h.regs.trans k.regs
  pavs := h.pavs.trans k.pavs
  pav := k.pav.trans (congrArg (fun v : Pav => { v with ranks := (t.pav p).ranks }) h.pav)
  raised := fun ev hx => k.raised ev (h.raised ev hx)
  rest := k.rest.trans (congrArg (fun u : State =>
    { u with regs := t.regs, pavs := t.pavs, crossing := t.crossing, onceTurn := t.onceTurn }) h.rest)

theorem EngineMoved.ite {a b : State} {c : Prop} [Decidable c] (ha : EngineMoved p x a) (hb : EngineMoved p x b) :
    EngineMoved p x (if c then a else b) := by
  split <;> assumption

theorem EngineMoved.sat (h : EngineMoved p x s) {f : Fld} (hf : f.off = Off.PAV_REF_CNT p) : EngineMoved p x (s.sat f) :=
  h.trans ⟨(RegsKept.refl s _).wr (List.mem_singleton.2 hf) _, .refl s p, rfl, fun _ hx => hx, rfl⟩

theorem EngineMoved.raise (h : EngineMoved p x s) (ev d : Nat) : EngineMoved p x (s.raise ev d) :=
  h.trans ⟨(RegsKept.refl s _).of_regs (State.raise_regs s ev d), (PavsKept.refl s p).of_pavs (State.raise_pavs s ev d),
    by rw [State.raise_pav], fun _ hx => hx.raise ev d, by rw [State.raise_eq]⟩

theorem EngineMoved.raiseOnce (h : EngineMoved p x s) (ev d : Nat) : EngineMoved p x (s.raiseOnce ev d) := by
  unfold State.raiseOnce
  split
  · exact h
  · exact (h.raise ev d).trans ⟨.refl _ _, .refl _ p, rfl, fun _ hx => hx, rfl⟩

theorem EngineMoved.forUpto (h : EngineMoved p x s) {n : Nat} {f : Nat → State → State} (hf : ∀ i a, EngineMoved p a (f i a)) :
    EngineMoved p x (forUpto n f s) := forUpto_induction n f s h fun i a _ ha => ha.trans (hf i a)

theorem EngineMoved.now (h : EngineMoved p x s) : s.now = x.now := by rw [h.rest]

/-- The debt of a rank lies in PAV_REF_STAT. -/
theorem fldDebt_off (p r : Nat) : (fldDebt p r).off = Off.PAV_REF_STAT p := by
  unfold fldDebt
  split_ifs <;> rfl

theorem EngineMoved.debt (h : EngineMoved p x s) (r : Nat) : s.debt p r = x.debt p r :=
  h.regs.rd (by
    rw [fldDebt_off, List.mem_singleton]
    simp only [Off.PAV_REF_STAT, Off.PAV_REF_CNT]
    omega)

end

section
variable (p r : Nat) (s : State)

theorem forceRank_engineMoved : EngineMoved p s (forceRank p r s) :=
  ((((setRank_ranksMoved p r _ s).engineMoved.sat rfl).raiseOnce _ _)).trans (wakeDue_ranksMoved p r _).engineMoved

theorem bandRank_engineMoved : EngineMoved p s (bandRank p r s) :=
  .ite ((((setRank_ranksMoved p r _ s).engineMoved.sat rfl).raise _ _).trans (wakeDue_ranksMoved p r _).engineMoved) (.refl p s)

theorem refStep_engineMoved : EngineMoved p s (refStep p r s) := by
  have h : EngineMoved p s (noteUrgent p r (payEnd p r s)) :=
    ((payEnd_ranksMoved p r s).trans (noteUrgent_ranksMoved p r _)).engineMoved
  exact .ite (h.trans (forceRank_engineMoved p r _)) (.ite ((h.trans (setRank_ranksMoved p r _ _).engineMoved).sat rfl)
    (.ite (h.trans ((setRank_ranksMoved p r _ _).trans (wakeDue_ranksMoved p r _)).engineMoved) h))

theorem refAll_engineMoved : EngineMoved p s (refAll p s) := (EngineMoved.refl p s).forUpto fun r a => refStep_engineMoved p r a

end

end Sys2Proof.Machine
end

section
/-! SUPPORT. How a rank pays, is forced and postponed, enters BAND, accrues debt and leaves self-refresh (R307, R309, R311, R312). -/
namespace Sys2Proof.Machine
open Sys2Proof

/-! ### Debt -/

section
variable (p r v : Nat) (s : State)

theorem fldDebt_w : (fldDebt p r).w = 4 := by
  unfold fldDebt
  split_ifs <;> rfl

theorem fldDebt_fits : (fldDebt p r).lo + (fldDebt p r).w ≤ 32 := by
  unfold fldDebt
  split_ifs <;>
    simp [Fld.PAV_REF_STAT_DEBT_0, Fld.PAV_REF_STAT_DEBT_1, Fld.PAV_REF_STAT_DEBT_2, Fld.PAV_REF_STAT_DEBT_3]

theorem State.debt_wr_same (h : v < 16) : (s.wr (fldDebt p r) v).debt p r = v := by
  rw [State.debt, State.rd_wr_same _ _ _ (fldDebt_fits p r), fldDebt_w]
  exact Nat.mod_eq_of_lt h

end

/-! ### Forcing and BAND -/

section
variable (p r : Nat) (s : State)

theorem forceRank_rank : ∃ down since, (forceRank p r s).rank p r =
    { s.rank p r with st := .forced, n := 1, down := down, notBefore := since } := by
  obtain ⟨down, since, h⟩ := wakeDue_rank p r
    (((s.modRank p r (fun k => { k with st := .forced, n := 1 })).sat (Fld.PAV_REF_CNT_FORCED p)).raiseOnce (evPav p 2) r)
  refine ⟨down, since, h.trans ?_⟩
  rw [State.rank_of_pavs (State.raiseOnce_pavs _ _ _), State.rank_of_pavs (State.sat_pavs _ _ _), State.modRank,
    State.rank_setRank_same]

theorem rd_forceRank_counts : (forceRank p r s).rd (Fld.PAV_REF_CNT_FORCED p) =
    min (2 ^ (Fld.PAV_REF_CNT_FORCED p).w - 1) (s.rd (Fld.PAV_REF_CNT_FORCED p) + 1) := by
  rw [forceRank, (wakeDue_ranksMoved p r _).rd, State.raiseOnce_rd, State.rd_sat_same _ _ _ (show 24 + 8 ≤ 32 by decide), State.modRank,
    (setRank_ranksMoved p r _ s).rd]

theorem bandRank_rank_ne {i : Nat} (h : i ≠ r) : (bandRank p r s).rank p i = s.rank p i := by
  unfold bandRank
  extract_lets k d
  split
  · rw [wakeDue_rank_ne p r _ h, State.rank_of_pavs (State.raise_pavs _ _ _), State.rank_of_pavs (State.sat_pavs _ _ _),
      State.rank_setRank_ne p r _ s h]
  · rfl

/-- A rise of the rate leaves what a rank has accumulated. -/
theorem bandRank_acc : ((bandRank p r s).rank p r).acc = (s.rank p r).acc := by
  unfold bandRank
  extract_lets k d
  split
  · obtain ⟨down, since, h⟩ := wakeDue_rank p r
      (((s.setRank p r { k with st := .band, n := d }).sat (Fld.PAV_REF_CNT_BAND p)).raise (evPav p 3) (d + 16 * r))
    rw [h, State.rank_of_pavs (State.raise_pavs _ _ _), State.rank_of_pavs (State.sat_pavs _ _ _), State.rank_setRank_same]
  · rfl

variable {p r s}

/-- A rank that owes pays all of it on a rise of the rate (R309). -/
theorem bandRank_owed (ho : (s.rank p r).st = .owed) (hd : 1 ≤ s.debt p r) : ((bandRank p r s).rank p r).st = .band ∧
    ((bandRank p r s).rank p r).n = s.debt p r ∧ Raised (bandRank p r s) (evPav p 3) := by
  rw [bandRank, if_pos ⟨hd, .inl ho⟩]
  generalize hu : ((s.setRank p r { s.rank p r with st := .band, n := s.debt p r }).sat (Fld.PAV_REF_CNT_BAND p)).raise (evPav p 3)
    (s.debt p r + 16 * r) = u
  have hrank : u.rank p r = { s.rank p r with st := .band, n := s.debt p r } := by
    rw [← hu, State.rank_of_pavs (State.raise_pavs _ _ _), State.rank_of_pavs (State.sat_pavs _ _ _), State.rank_setRank_same]
  have hraised : Raised u (evPav p 3) := hu ▸ State.raise_sets_out _ _ _
  obtain ⟨down, since, h⟩ := wakeDue_rank p r u
  rw [h, hrank]
  exact ⟨rfl, rfl, hraised.of_crossing (wakeDue_ranksMoved p r u).crossing⟩

/-! ### The conditions of R309 for a rank -/

theorem payEnd_owed (h : (s.rank p r).st = .owed) : payEnd p r s = s := by simp [payEnd, h]

theorem payEnd_paying (h : (s.rank p r).st = .paying) (hn : (s.rank p r).n ≠ 0) : payEnd p r s = s := by simp [payEnd, h, hn]

theorem noteUrgent_st : ((noteUrgent p r s).rank p r).st = (s.rank p r).st := by
  obtain ⟨since, h⟩ := noteUrgent_rank p r s
  rw [h]

theorem noteUrgent_windowOpen : (noteUrgent p r s).windowOpen p r = s.windowOpen p r := by
  obtain ⟨since, h⟩ := noteUrgent_rank p r s
  rw [State.windowOpen, h, State.windowOpen]

/-- A rank that owes eight refreshes is forced. -/
theorem refStep_forced (ho : (s.rank p r).st = .owed) (hd : 8 ≤ s.debt p r) : refStep p r s = forceRank p r (noteUrgent p r s) := by
  have hd' : 8 ≤ (noteUrgent p r s).debt p r := (noteUrgent_ranksMoved p r s).debt r ▸ hd
  rw [refStep, payEnd_owed ho]
  exact if_pos ⟨.inl (noteUrgent_st.trans ho), hd'⟩

/-- A rank that owes less pays in its window, while no urgent work waits for it. -/
theorem refStep_pays (ho : (s.rank p r).st = .owed) (hd : s.debt p r < 8) (hw : s.windowOpen p r = true) (hu : s.waitsFor p r = false) :
    refStep p r s = wakeDue p r ((noteUrgent p r s).setRank p r
      { (noteUrgent p r s).rank p r with st := .paying, n := (noteUrgent p r s).debt p r }) := by
  have hm := noteUrgent_ranksMoved p r s
  have ho' : ((noteUrgent p r s).rank p r).st = .owed := noteUrgent_st.trans ho
  have hd' : (noteUrgent p r s).debt p r < 8 := hm.debt r ▸ hd
  rw [refStep, payEnd_owed ho]
  dsimp only
  rw [if_neg (fun h => Nat.not_le.2 hd' h.2), if_neg (fun h => by rw [ho'] at h; exact absurd h.1 (by decide)),
    if_pos ⟨ho', noteUrgent_windowOpen.trans hw, (hm.waitsFor r).trans hu⟩]

/-- Urgent work that has waited since an earlier cycle postpones a payment. -/
theorem refStep_postponed {t : Nat} (hp : (s.rank p r).st = .paying) (hn : (s.rank p r).n ≠ 0) (hd : s.debt p r < 8)
    (hu : s.waitsFor p r = true) (ht : (s.rank p r).urgent = some t) (hc : cycleFrom t ≠ cycleFrom s.now) :
    refStep p r s = (s.setRank p r { s.rank p r with st := .owed, n := 0 }).sat (Fld.PAV_REF_CNT_POSTPONED p) := by
  have hpost : s.postpones p r = true := by simp [State.postpones, hu, ht, hc]
  rw [refStep, payEnd_paying hp hn, noteUrgent_known hu ht]
  dsimp only
  rw [if_neg (fun h => Nat.not_le.2 hd h.2), if_pos ⟨hp, hpost⟩]

end

/-! ### Accrual (R307) -/

/-- The pavilion cycles after which a rank's accumulator reaches 9,375. -/
def State.accrualCycles (s : State) (p r : Nat) : Nat :=
  (9375 - (s.rank p r).acc + 2 * (s.pav p).rate - 1) / (2 * (s.pav p).rate)

/-- A rank whose accumulator has reached 9,375, at the time at which it does. -/
def accrued (p r : Nat) (s : State) : State :=
  let k := s.rank p r
  let c := s.accrualCycles p r
  (s.atLeast (k.accAt + tPav * c)).setRank p r { k with acc := k.acc + 2 * (s.pav p).rate * c - 9375, accAt := k.accAt + tPav * c }

theorem accrued_rank (p r : Nat) (s : State) : (accrued p r s).rank p r = { s.rank p r with
    acc := (s.rank p r).acc + 2 * (s.pav p).rate * s.accrualCycles p r - 9375
    accAt := (s.rank p r).accAt + tPav * s.accrualCycles p r } := State.rank_setRank_same _ _ _ _

section
variable {p : PavId} {r : RankId} {s : State}

theorem exec_refreshAccrual (hin : (s.rank p r).inSelf = false) (hrate : 0 < (s.pav p).rate) (hst : (s.rank p r).st ≠ .self_) :
    exec (.refreshAccrual p r) s = .next (refStep p r ((accrued p r s).wr (fldDebt p r) (min 8 (s.debt p r + 1)))) := by
  have hruns : ¬ ((s.rank p r).inSelf = true ∨ 2 * (s.pav p).rate = 0) := by
    rw [hin]
    rintro (h | h)
    · exact Bool.false_ne_true h
    · omega
  show execRefreshAccrual p r s = _
  unfold execRefreshAccrual
  dsimp only
  rw [if_neg hruns, if_neg hst]
  rfl

/-- The accumulator has just reached 9,375: less than one step lies above it. -/
theorem accrual_reached (hrate : 0 < (s.pav p).rate) (hacc : (s.rank p r).acc < 9375) :
    9375 ≤ (s.rank p r).acc + 2 * (s.pav p).rate * s.accrualCycles p r ∧
    (s.rank p r).acc + 2 * (s.pav p).rate * s.accrualCycles p r < 9375 + 2 * (s.pav p).rate := by
  unfold State.accrualCycles
  generalize (s.rank p r).acc = acc at *
  generalize hstep : 2 * (s.pav p).rate = step
  have hpos : 0 < step := by omega
  have hdiv := Nat.div_add_mod (9375 - acc + step - 1) step
  have hmod := Nat.mod_lt (9375 - acc + step - 1) hpos
  omega

end

/-! ### A rate that is applied (R311) -/

/-- The accumulator of one rank counts up to now. -/
def accSettled (p r : Nat) (s : State) : State := s.modRank p r (fun k => { k with acc := s.accNow p r, accAt := s.now })

/-- A pavilion whose ranks have accumulated up to now takes a rate and a throttle level. -/
def rateTaken (p m level : Nat) (s : State) : State :=
  (forUpto 4 (accSettled p) s).modPav p (fun v => { v with rate := m, throttleNext := level })

theorem applyRate_eq (p m level : Nat) (s : State) : applyRate p m level s =
    if (s.pav p).rate < m then forUpto 4 (fun r a => bandRank p r a) (rateTaken p m level s) else rateTaken p m level s := by
  unfold applyRate rateTaken
  simp only [decide_eq_true_eq]
  rfl

section
variable (p m level : Nat) (s : State)

theorem accSettled_rounds : RanksMoved p s (forUpto 4 (accSettled p) s) :=
  (RanksMoved.refl p s).forUpto fun r a => setRank_ranksMoved p r _ a

theorem rateTaken_pav : (rateTaken p m level s).pav p =
    { s.pav p with rate := m, throttleNext := level, ranks := ((rateTaken p m level s).pav p).ranks } := by
  rw [rateTaken, State.pav_modPav_same, (accSettled_rounds p s).pav]

theorem rateTaken_regs : (rateTaken p m level s).regs = s.regs := (State.modPav_regs _ _ _).trans (accSettled_rounds p s).regs

theorem rateTaken_now : (rateTaken p m level s).now = s.now := (State.modPav_now _ _ _).trans (accSettled_rounds p s).now

theorem rateTaken_pavsKept : PavsKept s (rateTaken p m level s) p := (accSettled_rounds p s).pavs.modPav _

/-- A rank has accumulated at the rate that was in force. -/
theorem rateTaken_rank {r : Nat} (hr : r < 4) :
    (rateTaken p m level s).rank p r = { s.rank p r with acc := s.accNow p r, accAt := s.now } := by
  obtain ⟨a, hbefore, hsame, -, hpost⟩ := forUpto_at_round (R := RanksMoved p) (part := fun a => a.rank p r) (f := accSettled p)
    (RanksMoved.refl p) RanksMoved.trans (fun i a => setRank_ranksMoved p i _ a)
    (fun i a hi => State.rank_setRank_ne p i _ a (Ne.symm hi)) hr s
  have hacc : a.accNow p r = s.accNow p r := by
    rw [State.accNow, hsame, hbefore.now, hbefore.pav, State.accNow]
  have hranks : (rateTaken p m level s).rank p r = (forUpto 4 (accSettled p) s).rank p r := by
    rw [rateTaken, State.rank, State.pav_modPav_same]
    rfl
  rw [hranks, hpost, accSettled, State.modRank, State.rank_setRank_same, hacc, hsame, hbefore.now]

variable {p m level s}

theorem applyRate_engineMoved : EngineMoved p (rateTaken p m level s) (applyRate p m level s) := by
  rw [applyRate_eq]
  exact .ite ((EngineMoved.refl p _).forUpto fun r a => bandRank_engineMoved p r a) (.refl p _)

/-- Without a rise the ranks go on as they were. -/
theorem applyRate_steady (h : m ≤ (s.pav p).rate) : applyRate p m level s = rateTaken p m level s := by
  rw [applyRate_eq, if_neg (Nat.not_lt.2 h)]

/-- On a rise each rank has its turn to enter BAND. -/
theorem applyRate_rise {r : Nat} (hr : r < 4) (h : (s.pav p).rate < m) : ∃ a, EngineMoved p (rateTaken p m level s) a ∧
    a.rank p r = (rateTaken p m level s).rank p r ∧ EngineMoved p (bandRank p r a) (applyRate p m level s) ∧
    (applyRate p m level s).rank p r = (bandRank p r a).rank p r := by
  rw [applyRate_eq, if_pos h]
  exact forUpto_at_round (R := EngineMoved p) (part := fun a => a.rank p r) (EngineMoved.refl p) EngineMoved.trans
    (fun i a => bandRank_engineMoved p i a) (fun i a hi => bandRank_rank_ne p i a (Ne.symm hi)) hr _

theorem applyRate_acc {r : Nat} (hr : r < 4) : ((applyRate p m level s).rank p r).acc = s.accNow p r := by
  rcases Nat.lt_or_ge (s.pav p).rate m with h | h
  · obtain ⟨a, -, hsame, -, hpost⟩ := applyRate_rise (level := level) hr h
    rw [hpost, bandRank_acc, hsame, rateTaken_rank p m level s hr]
  · rw [applyRate_steady h, rateTaken_rank p m level s hr]

/-- On a rise a rank that owes pays all of it (R309). -/
theorem applyRate_band {r : Nat} (hr : r < 4) (h : (s.pav p).rate < m) (ho : (s.rank p r).st = .owed) (hd : 1 ≤ s.debt p r) :
    ((applyRate p m level s).rank p r).st = .band ∧ ((applyRate p m level s).rank p r).n = s.debt p r ∧
    Raised (applyRate p m level s) (evPav p 3) := by
  obtain ⟨a, hbefore, hsame, hafter, hpost⟩ := applyRate_rise (level := level) hr h
  have hdebt : a.debt p r = s.debt p r := (hbefore.debt r).trans (State.rd_of_regs (rateTaken_regs p m level s) _)
  have howed : (a.rank p r).st = .owed := by rw [hsame, rateTaken_rank p m level s hr]; exact ho
  obtain ⟨hst, hn, hraised⟩ := bandRank_owed howed (hdebt ▸ hd)
  rw [hpost]
  exact ⟨hst, hn.trans hdebt, hafter.raised _ hraised⟩

end

/-! ### A declared change that arrives (R311) -/

/-- A declared change that has reached its pavilion at a time is no longer on its way. -/
def rateArrived (p t : Nat) (rest : List (Nat × Nat × Nat)) (s : State) : State :=
  (s.atLeast t).modPav p (fun v => { v with rateNext := rest })

theorem exec_rateChangeApply {p : PavId} {t m level : Nat} {rest : List (Nat × Nat × Nat)} {s : State}
    (h : (s.pav p).rateNext = (t, m, level) :: rest) :
    exec (.rateChangeApply p) s = .next (applyRate p m level (rateArrived p t rest s)) := by
  show execRateChangeApply p s = _
  rw [execRateChangeApply, h]
  rfl

section
variable (p t : Nat) (rest : List (Nat × Nat × Nat)) (s : State)

theorem rateArrived_pav : (rateArrived p t rest s).pav p = { s.pav p with rateNext := rest } := by
  rw [rateArrived, State.pav_modPav_same, State.atLeast_pav]

theorem rateArrived_rate : ((rateArrived p t rest s).pav p).rate = (s.pav p).rate := by rw [rateArrived_pav]

theorem rateArrived_rank (r : Nat) : (rateArrived p t rest s).rank p r = s.rank p r := by
  rw [State.rank, rateArrived_pav, State.rank]

theorem rateArrived_now : (rateArrived p t rest s).now = max s.now t := rfl

theorem rateArrived_regs : (rateArrived p t rest s).regs = s.regs := rfl

theorem rateArrived_pavsKept : PavsKept s (rateArrived p t rest s) p := ((PavsKept.refl s p).atLeast t).modPav _

end

/-! ### Out of self-refresh (R309) -/

theorem exec_selfRefreshExit {p : PavId} {r : RankId} {t : Nat} {s : State} (h : (s.rank p r).leaving = some t) :
    exec (.selfRefreshExit p r) s = .next (rankForced p r (s.atLeast (t + tPav * 432))) := by
  show execSelfRefreshExit p r s = _
  rw [execSelfRefreshExit, h]

section
variable (p r : Nat) (s : State)

/-- A rank that has left self-refresh starts over with one refresh owed. -/
theorem rankForced_rank : ∃ down since, (rankForced p r s).rank p r = { s.rank p r with
    acc := 0, accAt := s.now, inSelf := false, leaving := none, st := .forced, n := 1, down := down, notBefore := since } := by
  obtain ⟨down, since, h⟩ := forceRank_rank p r ((s.setRank p r { s.rank p r with
    acc := 0, accAt := s.now, inSelf := false, leaving := none, down := false }).wr (fldDebt p r) 1)
  refine ⟨down, since, h.trans ?_⟩
  rw [State.rank_of_pavs (State.wr_pavs _ _ _), State.rank_setRank_same]

theorem rankForced_debt : (rankForced p r s).debt p r = 1 :=
  ((forceRank_engineMoved p r _).debt r).trans (State.debt_wr_same p r 1 _ (by decide))

theorem rankForced_now : (rankForced p r s).now = s.now := (forceRank_engineMoved p r _).now

theorem rankForced_pavsKept : PavsKept s (rankForced p r s) p :=
  ((setRank_ranksMoved p r _ s).pavs.of_pavs (State.wr_pavs _ _ _)).trans (forceRank_engineMoved p r _).pavs

end

end Sys2Proof.Machine
end

section
/-! O39. Refresh debt accrues at the rate in force, and is paid, postponed or forced. -/
namespace Sys2Proof.Machine
open Sys2Proof

/-- Settles O39: the accumulator, the conditions of R309 for a rank, a rate that is applied and the end of self-refresh, each by what it
makes of the rank. -/
theorem refreshDebtAccrues : Obligations.RefreshDebtAccrues := by
  unfold Obligations.RefreshDebtAccrues
  intro p r s
  refine ⟨fun hin hrate hst hacc => ?accrual, fun hin => if_pos (.inl hin), fun ho hd => ?forced, fun ho hd hw hu => ?pays,
    fun t hp hn hd hu ht hc => ?postponed, fun t m level rest hnext => ?rate, fun t ht => ?leaves⟩
  case accrual =>
    obtain ⟨hreached, hbelow⟩ := accrual_reached hrate hacc
    have hmoved := setRank_ranksMoved p r { s.rank p r with
      acc := (s.rank p r).acc + 2 * (s.pav p).rate * s.accrualCycles p r - 9375
      accAt := (s.rank p r).accAt + tPav * s.accrualCycles p r } (s.atLeast ((s.rank p r).accAt + tPav * s.accrualCycles p r))
    have hrank : ((accrued p r s).wr (fldDebt p r) (min 8 (s.debt p r + 1))).rank p r = _ := accrued_rank p r s
    refine ⟨s.accrualCycles p r, _, exec_refreshAccrual hin hrate hst, State.debt_wr_same p r _ _ (by omega), ?_, ?_, ?_, ?_, ?_, ?_,
      hmoved.pavs, rfl⟩
    · rw [hrank]
    · rw [hrank]
      exact Nat.sub_add_cancel hreached
    · rw [hrank]
      exact Nat.sub_lt_left_of_lt_add hreached hbelow
    · rw [hrank]
    · rw [hrank]
      rfl
    · exact ((RegsKept.refl s _).of_regs hmoved.regs).wr (List.mem_singleton.2 (fldDebt_off p r)) _
  case forced =>
    obtain ⟨down, since, hrank⟩ := forceRank_rank p r (noteUrgent p r s)
    rw [refStep_forced ho hd, hrank, rd_forceRank_counts, (noteUrgent_ranksMoved p r s).rd]
    exact ⟨rfl, rfl, rfl⟩
  case pays =>
    have hnoted := noteUrgent_ranksMoved p r s
    have hpaying := setRank_ranksMoved p r
      { (noteUrgent p r s).rank p r with st := .paying, n := (noteUrgent p r s).debt p r } (noteUrgent p r s)
    obtain ⟨down, since, hrank⟩ := wakeDue_rank p r ((noteUrgent p r s).setRank p r
      { (noteUrgent p r s).rank p r with st := .paying, n := (noteUrgent p r s).debt p r })
    rw [refStep_pays ho hd hw hu, hrank, State.rank_setRank_same]
    exact ⟨rfl, hnoted.debt r, ((hnoted.trans hpaying).trans (wakeDue_ranksMoved p r _)).regs⟩
  case postponed =>
    rw [refStep_postponed hp hn hd hu ht hc, State.rank_of_pavs (State.sat_pavs _ _ _), State.rank_setRank_same,
      State.rd_sat_same _ _ _ (show 8 + 8 ≤ 32 by decide), (setRank_ranksMoved p r _ s).rd]
    exact ⟨rfl, rfl⟩
  case rate =>
    have hr : r.val < 4 := r.isLt
    have hrate := rateArrived_rate p t rest s
    have hrank := rateArrived_rank p t rest s r
    have hmoved : EngineMoved p _ (applyRate p m level (rateArrived p t rest s)) := applyRate_engineMoved
    refine ⟨_, exec_rateChangeApply hnext, ?_, ?_, ?_, ?_, ?_, fun hrise ho hd => ?_, fun hsteady => ?_, ?_⟩
    · rw [hmoved.now, rateTaken_now, rateArrived_now]
    · rw [hmoved.pav, rateTaken_pav]
    · rw [hmoved.pav, rateTaken_pav]
    · rw [hmoved.pav, rateTaken_pav, rateArrived_pav]
    · rw [applyRate_acc hr, State.accNow, hrank, hrate, rateArrived_now]
    · exact applyRate_band (s := rateArrived p t rest s) hr (hrate ▸ hrise) (hrank ▸ ho) hd
    · rw [applyRate_steady (hrate ▸ hsteady), rateTaken_rank _ _ _ _ hr, rateTaken_regs, hrank]
      exact ⟨rfl, rateArrived_regs p t rest s⟩
    · exact ((rateArrived_pavsKept p t rest s).trans (rateTaken_pavsKept p m level _)).trans hmoved.pavs
  case leaves =>
    obtain ⟨down, since, hrank⟩ := rankForced_rank p r (s.atLeast (t + tPav * 432))
    refine ⟨_, exec_selfRefreshExit ht, rankForced_now p r _, ?_, ?_, ?_, ?_, ?_, rankForced_debt p r _,
      ((PavsKept.refl s p).atLeast _).trans (rankForced_pavsKept p r _)⟩ <;> rw [hrank]

end Sys2Proof.Machine
end

section
/-! SUPPORT. What leaves the turn and its length as they are (R291, R293): refresh engines, lanes, links, monitors and calibration. -/
namespace Sys2Proof.Machine
open Sys2Proof

/-! ### The turn -/

/-- The turn with its beginning and angle, the values that wait for its end, CAD_STAT and CAD_LEN are as they were, and raisings stay on
their way. -/
structure TurnKept (x s : State) : Prop where
  turn : s.cad.turn = x.cad.turn
  t0 : s.cad.t0 = x.cad.t0
  angle : s.cad.angle = x.cad.angle
  eff : s.eff = x.eff
  stat : s.reg Off.CAD_STAT = x.reg Off.CAD_STAT
  len : s.reg Off.CAD_LEN = x.reg Off.CAD_LEN
  raised : ∀ ev, Raised x ev → Raised s ev

theorem TurnKept.refl (s : State) : TurnKept s s := ⟨rfl, rfl, rfl, rfl, rfl, rfl, fun _ h => h⟩

/-- An offset of an indexed register lies above that of the first. -/
theorem above_add {a : Nat} (b : Nat) (h : Off.CAD_LEN < a) : Off.CAD_LEN < a + b := Nat.lt_add_right b h

section
variable {x s t : State}

theorem TurnKept.trans (h : TurnKept x s) (k : TurnKept s t) : TurnKept x t :=
  ⟨k.turn.trans h.turn, k.t0.trans h.t0, k.angle.trans h.angle, k.eff.trans h.eff, k.stat.trans h.stat, k.len.trans h.len,
    fun ev hx => k.raised ev (h.raised ev hx)⟩

theorem TurnKept.ite {a b : State} {c : Prop} [Decidable c] (ha : TurnKept x a) (hb : TurnKept x b) : TurnKept x (if c then a else b) := by
  split <;> assumption

section
variable (h : TurnKept x s)
include h

/-- Nothing that `TurnKept` speaks of changes. -/
theorem TurnKept.of_eq (hc : t.cad = s.cad) (he : t.eff = s.eff) (hr : t.regs = s.regs) (hx : t.crossing = s.crossing) : TurnKept x t :=
  h.trans ⟨by rw [hc], by rw [hc], by rw [hc], he, State.reg_of_regs hr _, State.reg_of_regs hr _, fun _ hs => hs.of_crossing hx⟩

theorem TurnKept.setReg {off : Nat} (ho : Off.CAD_LEN < off) (v : Reg32) : TurnKept x (s.setReg off v) :=
  h.trans ⟨rfl, rfl, rfl, rfl, State.reg_setReg_ne s off v (by simp only [Off.CAD_LEN, Off.CAD_STAT] at *; omega),
    State.reg_setReg_ne s off v (Nat.ne_of_lt ho), fun _ hs => hs⟩

theorem TurnKept.wr {f : Fld} (v : Nat) (hf : Off.CAD_LEN < f.off := by exact above_add _ (by decide)) : TurnKept x (s.wr f v) :=
  h.setReg hf _

theorem TurnKept.sat {f : Fld} (hf : Off.CAD_LEN < f.off := by exact above_add _ (by decide)) : TurnKept x (s.sat f) := h.wr _ hf

theorem TurnKept.raise (ev d : Nat) : TurnKept x (s.raise ev d) :=
  h.trans ⟨by rw [State.raise_cad], by rw [State.raise_cad], by rw [State.raise_cad], State.raise_eff s ev d, State.raise_reg s ev d _,
    State.raise_reg s ev d _, fun _ hs => hs.raise ev d⟩

theorem TurnKept.finish (m code : Nat) (pl : List Byte) : TurnKept x (s.finish m code pl) := by
  unfold State.finish
  dsimp only
  split
  · exact h.of_eq rfl rfl rfl rfl
  · exact h

theorem TurnKept.modPort (n : Nat) (f : Port → Port) : TurnKept x (s.modPort n f) := h.of_eq rfl rfl rfl rfl

theorem TurnKept.modLane (n p : Nat) (f : Lane → Lane) : TurnKept x (s.modLane n p f) := h.of_eq rfl rfl rfl rfl

theorem TurnKept.modPav (p : Nat) (f : Pav → Pav) : TurnKept x (s.modPav p f) := h.of_eq rfl rfl rfl rfl

theorem TurnKept.setMon (u : Nat) (m : Mon) : TurnKept x (s.setMon u m) := h.of_eq rfl rfl rfl rfl

theorem TurnKept.modMon (u : Nat) (f : Mon → Mon) : TurnKept x (s.modMon u f) := h.setMon u _

theorem TurnKept.forUpto {k : Nat} {f : Nat → State → State} (hf : ∀ i a, TurnKept a (f i a)) : TurnKept x (forUpto k f s) :=
  forUpto_induction k f s h fun i a _ ha => ha.trans (hf i a)

theorem TurnKept.foldl {α : Type} (l : List α) {f : State → α → State} (hf : ∀ a e, TurnKept a (f a e)) : TurnKept x (l.foldl f s) :=
  List.foldlRecOn (motive := TurnKept x) l f h fun a ha e _ => ha.trans (hf a e)

theorem TurnKept.rd_stat {f : Fld} (hf : f.off = Off.CAD_STAT) : s.rd f = x.rd f := State.rd_of_reg (hf ▸ h.stat)

theorem TurnKept.rd_len {f : Fld} (hf : f.off = Off.CAD_LEN) : s.rd f = x.rd f := State.rd_of_reg (hf ▸ h.len)

end

theorem RegsKept.turnRegs {offs : List Nat} (h : RegsKept x s offs) (ho : ∀ off ∈ offs, Off.CAD_LEN < off) :
    s.reg Off.CAD_STAT = x.reg Off.CAD_STAT ∧ s.reg Off.CAD_LEN = x.reg Off.CAD_LEN :=
  ⟨h _ fun hm => absurd (ho _ hm) (by decide), h _ fun hm => absurd (ho _ hm) (by decide)⟩

theorem EngineMoved.turnKept {p : Nat} (h : EngineMoved p x s) : TurnKept x s := by
  obtain ⟨hstat, hlen⟩ := h.regs.turnRegs fun off ho => by
    rw [List.mem_singleton.1 ho]
    exact above_add _ (by decide)
  exact ⟨by rw [h.rest], by rw [h.rest], by rw [h.rest], by rw [h.rest], hstat, hlen, h.raised⟩

theorem RanksMoved.turnKept {p : Nat} (h : RanksMoved p x s) : TurnKept x s := h.engineMoved.turnKept

theorem LanesMoved.turnKept {n : Nat} (h : LanesMoved n x s) : TurnKept x s := by
  have hbeside {off : Nat} (ho : off ≤ Off.CAD_LEN) : BesideLanes n off := by
    simp only [BesideLanes, Off.CAD_LEN, Off.PRT_INJ_CTRL, Off.PRT_LANE_CTRL] at *
    omega
  exact ⟨by rw [h.rest], by rw [h.rest], by rw [h.rest], by rw [h.rest], h.regs _ (hbeside (by decide)), h.regs _ (hbeside (by decide)),
    fun _ hx => hx.of_crossing h.crossing_eq⟩

end

/-! ### Lanes and links -/

section
variable (n : Nat) (s : State)

theorem setLink_turnKept (st : Nat) : TurnKept s (s.setLink n st) :=
  ((TurnKept.refl s).wr _).wr _

theorem endScans_turnKept : TurnKept s (endScans n s) := by
  unfold endScans
  extract_lets mask s1 s2 s3
  have h1 : TurnKept s s1 := (TurnKept.refl s).forUpto fun p a => by
    refine .ite ?_ (.refl a)
    extract_lets a1 a2
    have k1 : TurnKept a a1 := (TurnKept.refl a).wr _ (above_add _ (above_add _ (by decide)))
    have k2 : TurnKept a a2 := by
      unfold a2
      split
      · exact k1.setReg (above_add _ (above_add _ (by decide))) _
      · exact k1
    exact ((k2.modLane _ _ _).modLane _ _ _).raise _ _
  have h2 : TurnKept s s2 := h1.wr _
  have h3 : TurnKept s s3 := .ite (h2.wr _) h2
  refine .ite (.refl s) ?_
  split
  · exact (h3.finish _ _ _).modPort _ _
  · exact h3

theorem recovTrains_turnKept (cause : Nat) (full : Bool) : TurnKept s (recovTrains n cause full s) := by
  have hbegun : TurnKept s (recovBegun n cause full s) := (((TurnKept.refl s).sat).raise _ _).modPort _ _
  have hheld : TurnKept s (holdEq n (recovBegun n cause full s)) := hbegun.trans (holdEq_lanesMoved (.refl n _)).turnKept
  exact (hheld.trans (setLink_turnKept n _ _)).trans (recovTrains_lanesMoved n cause full s).turnKept

theorem enterRecovery_turnKept (cause : Nat) (full : Bool) : TurnKept s (enterRecovery n cause full s) := by
  cases hu : s.up n with
  | true =>
    rw [enterRecovery_eq hu]
    exact (recovTrains_turnKept n s cause full).trans (endScans_turnKept n _)
  | false =>
    unfold enterRecovery
    rw [if_neg (by rw [hu]; exact Bool.false_ne_true)]
    exact .ite ((TurnKept.refl s).modPort _ _) (.refl s)

theorem startCoastExit_turnKept : TurnKept s (startCoastExit n s) := by
  rw [startCoastExit, armCoastExit_lanes]
  exact (TurnKept.refl s).of_eq rfl rfl rfl rfl

theorem startParkedExit_turnKept : TurnKept s (startParkedExit n s) := by
  have hlock : TurnKept s (s.wr (Fld.PRT_PHY_STAT_PLL_LOCK n) 1) := (TurnKept.refl s).wr _
  exact forUpto_induction 8 _ _ hlock fun p a hp ha =>
    .ite ((ha.modLane _ _ _).trans (laneTo_lanesMoved (.refl n _) laTraining hp).turnKept) ha

/-- A requested retune that starts (R465, R467). -/
theorem retuneStart_turnKept : TurnKept s (retuneStart n s) := by
  have hrun : TurnKept s (s.wr (Fld.PRT_CAL_STAT_STATE n) 2) := (TurnKept.refl s).wr _
  exact .ite (.ite (hrun.trans (enterRecovery_turnKept n _ 5 true)) (.ite (.refl s) (.ite (startCoastExit_turnKept n s)
    (.ite (startParkedExit_turnKept n s) (.refl s))))) (.refl s)

theorem sendTurn_turnKept : TurnKept s (sendTurn n s) := by
  unfold sendTurn
  split
  · exact .refl s
  · exact .ite ((((TurnKept.refl s).modPort _ _).modPort _ _).wr _) (.refl s)

end

/-! ### Pavilions -/

section
variable (p : Nat) (s : State)

theorem stepWindows_ranksMoved (r a : Nat) : RanksMoved p s (stepWindows p r a s) := .ite (.refl p s) (setRank_ranksMoved p r _ s)

theorem closeChanged_ranksMoved (r : Nat) : RanksMoved p s (closeChanged p r s) := .ite (.refl p s) (setRank_ranksMoved p r _ s)

theorem wakeBeforeWindow_ranksMoved (angle : Nat) : RanksMoved p s (wakeBeforeWindow p angle s) :=
  (RanksMoved.refl p s).forUpto fun r a => .ite (.ite (wakeRank_ranksMoved p r a) (.refl p a)) (.refl p a)

theorem closeBank_turnKept (b t : Nat) : TurnKept s (closeBank p b t s) := by
  rw [closeBank_rest]
  exact (TurnKept.refl s).of_eq rfl rfl rfl rfl

/-- A TSV step that starts (R472, R474). -/
theorem tsvStepStart_turnKept : TurnKept s (tsvStepStart p s) := by
  unfold tsvStepStart
  split
  · refine .ite ?_ (.refl s)
    split
    · next r _ =>
      extract_lets s1 s2 s3
      have h1 : TurnKept s s1 := (wakeRank_ranksMoved p r s).turnKept
      have h2 : TurnKept s s2 := h1.forUpto fun i a => .ite (closeBank_turnKept p a _ _) (.refl a)
      have h3 : TurnKept s s3 := h2.modPav _ _
      exact (h3.wr _).wr _
    · exact .refl s
  · exact .refl s

theorem pavTurn_turnKept : TurnKept s (pavTurn p s) := by
  unfold pavTurn
  extract_lets leak s1 auto s2
  have h1 : TurnKept s s1 := .ite ((TurnKept.refl s).wr _) (.refl s)
  have h2 : TurnKept s s2 := h1.modPav _ _
  exact h2.of_eq rfl rfl rfl rfl

end

/-! ### Monitors -/

section
variable (u : Nat) (s : State)

theorem monLevels_turnKept : TurnKept s (monLevels s) := (TurnKept.refl s).forUpto fun u a => .ite ((TurnKept.refl a).setMon u _) (.refl a)

/-- A window's accumulators are copied (R564, R565). -/
theorem monCopy_turnKept (ts : BitVec 50) (a : MonAcc) : TurnKept s (monCopy u ts a s) := by
  unfold monCopy
  extract_lets seq s1 s2 s3 s4 s5 s6 s7 s8
  have h1 : TurnKept s s1 := ((TurnKept.refl s).wr _).wr _
  have h2 : TurnKept s s2 := (h1.wr _).wr _
  have h3 : TurnKept s s3 := ((h2.wr _).wr _).wr _
  have h4 : TurnKept s s4 := (h3.wr _).wr _
  have h5 : TurnKept s s5 := by
    refine .ite ?_ ((h4.wr _).wr _)
    exact ((h4.of_eq (t := { s4 with freeIdx := s4.freeIdx + 1 }) rfl rfl rfl rfl).wr _).wr _
  have h6 : TurnKept s s6 := (h5.wr _).wr _
  have h7 : TurnKept s s7 := h6.wr _
  have h8 : TurnKept s s8 := h7.forUpto fun i b => (TurnKept.refl b).wr _ (above_add _ (above_add _ (by decide)))
  exact h8.modMon _ _

theorem monEnd_turnKept : TurnKept s (monEnd u s) := by
  unfold monEnd
  extract_lets m en
  split
  · exact ((TurnKept.refl s).modMon _ _).trans (monCopy_turnKept u _ _ _)
  · extract_lets s1 s2
    have h1 : TurnKept s s1 := .ite (monCopy_turnKept u s _ _) (.refl s)
    have h2 : TurnKept s s2 := .ite (h1.wr _) h1
    exact (h2.modMon _ _).modMon _ _
  · exact .refl s

/-- A turn boundary that reaches a monitor unit (R564, R566). -/
theorem monTurn_turnKept : TurnKept s (monTurn u s) := by
  unfold monTurn
  extract_lets s1 m k
  have h1 : TurnKept s s1 := .ite (monEnd_turnKept u s) (.refl s)
  have hended : TurnKept s (if bitAt m.ctrl.toNat 1 then s1.wr (Fld.MON_CTRL_EN u) 0 else s1) := .ite (h1.wr _) h1
  exact .ite (h1.modMon _ _) (.ite (.ite (.ite ((hended.modMon _ _).modMon _ _) (h1.modMon _ _)) (h1.setMon _ _)) (h1.setMon _ _))

theorem finishSnaps_turnKept (ts : BitVec 50) : TurnKept s (finishSnaps ts s) :=
  (TurnKept.refl s).foldl _ fun a e => .ite
    ((TurnKept.of_eq (t := { a with monSnapMbx := a.monSnapMbx.erase e }) (.refl a) rfl rfl rfl rfl).finish _ _ _) (.refl a)

theorem queueTele_turnKept (n : Nat) (msg : OutMsg) : TurnKept s (queueTele n msg s) :=
  .ite (((TurnKept.refl s).modPort _ _).sat (by decide)) ((TurnKept.refl s).modPort _ _)

theorem queueTelemetry_turnKept : TurnKept s (queueTelemetry s) := by
  unfold queueTelemetry
  extract_lets tc ports parts
  refine (TurnKept.refl s).forUpto fun u a => ?_
  extract_lets masked seq a1
  have h1 : TurnKept a a1 := (TurnKept.refl a).modMon _ _
  refine .ite (h1.foldl _ fun b k => ?_) (.refl a)
  extract_lets msg
  exact (TurnKept.refl b).forUpto fun n c =>
    .ite (.ite (queueTele_turnKept c n msg) (.ite ((TurnKept.refl c).sat (by decide)) (.refl c))) (.refl c)

end

end Sys2Proof.Machine
end

section
/-! SUPPORT. What an angle step, a turn boundary and a lock leave of the cadence unit (R291, R293, R296 to R299, R301, R328). -/
namespace Sys2Proof.Machine
open Sys2Proof

/-! ### Angle steps -/

/-- The angle that has been delivered (R293). -/
def angleTaken (a : Nat) (s : State) : State := { s with cad := { s.cad with angle := some a } }

/-- The delivery of an angle step leaves the turn. -/
theorem deliverStep_turnKept (a : Nat) (s : State) : TurnKept (angleTaken a s) (deliverStep a s) := by
  unfold deliverStep
  extract_lets c s1 s2 s3 s4
  have h2 : TurnKept s1 s2 := monLevels_turnKept s1
  have h3 : TurnKept s1 s3 := h2.forUpto fun p b => by
    extract_lets b1
    have hwin : RanksMoved p b (forUpto 4 (fun r c => stepWindows p r a c) b) :=
      (RanksMoved.refl p b).forUpto fun r c => stepWindows_ranksMoved p c r a
    have h1 : TurnKept b b1 :=
      ((hwin.trans (wakeBeforeWindow_ranksMoved p _ a)).engineMoved.trans (refAll_engineMoved p _)).turnKept
    exact .ite (h1.trans (tsvStepStart_turnKept p b1)) h1
  have h4 : TurnKept s1 s4 := h3.forUpto fun n b => .ite (retuneStart_turnKept n b) (.refl b)
  exact .ite (h4.trans (queueTelemetry_turnKept s4)) h4

/-! ### Turn boundaries -/

/-- Windows of a rank whose setting changes close as their turn ends (R304). -/
def windowsEnded (s : State) : State :=
  if s.eff.isEmpty then s else forUpto 32 (fun p a => forUpto 4 (fun r b => closeChanged p r b) a) s

/-- A turn that has begun (R291, R328). -/
def turnBegun (t0 : Nat) (marker : Bool) (s : State) : State :=
  { windowsEnded s with
    eff := []
    onceTurn := []
    cad := { (windowsEnded s).cad with turn := (windowsEnded s).cad.turn + 1, t0 := t0, angle := none, lastByMarker := marker } }.wr
    Fld.CAD_STAT_MISS (b2n (!marker))

theorem windowsEnded_turnKept (s : State) : TurnKept s (windowsEnded s) :=
  .ite (.refl s) ((TurnKept.refl s).forUpto fun p a =>
    ((RanksMoved.refl p a).forUpto fun r b => closeChanged_ranksMoved p b r).turnKept)

section
variable (t0 : Nat) (marker : Bool) (s : State)

/-- What a boundary does to pavilions, monitors and ports leaves the turn that has begun. -/
theorem newTurn_turnKept : TurnKept (turnBegun t0 marker s) (newTurn t0 marker s) := by
  unfold newTurn
  extract_lets s1 c s2 s3 t s4 s5 s6 s7
  have h4 : TurnKept s3 s4 := (TurnKept.refl s3).of_eq rfl rfl rfl rfl
  have h5 : TurnKept s3 s5 := h4.forUpto fun p a => pavTurn_turnKept p a
  have h6 : TurnKept s3 s6 := h5.forUpto fun u a => monTurn_turnKept u a
  have h7 : TurnKept s3 s7 := h6.trans (finishSnaps_turnKept s6 _)
  exact h7.forUpto fun n a => .ite (((TurnKept.refl a).modPort n _).trans (sendTurn_turnKept n _)) (.refl a)

theorem newTurn_cad : (newTurn t0 marker s).cad.turn = s.cad.turn + 1 ∧ (newTurn t0 marker s).cad.t0 = t0 ∧
    (newTurn t0 marker s).cad.angle = none ∧ (newTurn t0 marker s).eff = [] := by
  have h := newTurn_turnKept t0 marker s
  exact ⟨h.turn.trans (congrArg (· + 1) (windowsEnded_turnKept s).turn), h.t0, h.angle, h.eff⟩

/-- CAD_STAT.MISS says whether a marker ended the turn (R328). -/
theorem newTurn_miss : (newTurn t0 marker s).rd Fld.CAD_STAT_MISS = b2n (!marker) := by
  rw [(newTurn_turnKept t0 marker s).rd_stat rfl, turnBegun, State.rd_wr_same _ _ _ (by decide)]
  cases marker <;> rfl

/-- The other fields of CAD_STAT stay. -/
theorem newTurn_stat {f : Fld} (hf : f.off = Off.CAD_STAT) (h : 2 ≤ f.lo ∨ f.lo + f.w ≤ 1) :
    (newTurn t0 marker s).rd f = s.rd f := by
  rw [(newTurn_turnKept t0 marker s).rd_stat hf, turnBegun, State.rd_wr_disj _ Fld.CAD_STAT_MISS f _ (by decide) h]
  exact (windowsEnded_turnKept s).rd_stat hf

theorem newTurn_len : (newTurn t0 marker s).rd Fld.CAD_LEN_LEN = s.rd Fld.CAD_LEN_LEN := by
  rw [(newTurn_turnKept t0 marker s).rd_len rfl, turnBegun, State.rd_wr_ne _ _ _ _ (by decide)]
  exact (windowsEnded_turnKept s).rd_len rfl

end

/-! ### Markers missed and the lock (R297, R298) -/

/-- In SEEK the unit shows its state, no lock, and why it lost it (R298, R300). -/
theorem cadSeek_stat (cause : Nat) (s : State) : (cadSeek cause s).rd Fld.CAD_STAT_STATE = 1 ∧ (cadSeek cause s).rd Fld.CAD_STAT_LOCK = 0 ∧
    (cadSeek cause s).rd Fld.CAD_STAT_FW_CAUSE = cause % 4 := by
  unfold cadSeek
  extract_lets was s1 c s2
  have hkept : TurnKept s2 (if was = 2 then (s2.sat Fld.CAD_CNT_FREEWHEEL).raise (928 + 1) cause else s2) :=
    .ite (((TurnKept.refl s2).sat (by decide)).raise _ _) (.refl s2)
  have hcause (f : Fld) (h : f.lo + f.w ≤ 8) : s2.rd f = ((s.wr Fld.CAD_STAT_STATE 1).wr Fld.CAD_STAT_LOCK 0).rd f :=
    State.rd_wr_disj _ Fld.CAD_STAT_FW_CAUSE f _ (by decide) (.inr h)
  refine ⟨?_, ?_, ?_⟩
  · rw [hkept.rd_stat rfl, hcause _ (by decide), State.rd_wr_disj _ _ _ _ (by decide) (by decide), State.rd_wr_same _ _ _ (by decide)]
    rfl
  · rw [hkept.rd_stat rfl, hcause _ (by decide), State.rd_wr_same _ _ _ (by decide)]
    rfl
  · rw [hkept.rd_stat rfl]
    exact State.rd_wr_same _ Fld.CAD_STAT_FW_CAUSE _ (by decide)

/-- The counted end of a turn without a marker (R298). -/
def turnMissed (s : State) : State := newTurn s.missAt false ((s.atLeast (s.cadTick s.missAt)).sat Fld.CAD_CNT_MISSED)

theorem missTurn_eq (s : State) : missTurn s = if s.on Fld.CAD_STAT_MISS then cadSeek 1 (turnMissed s) else turnMissed s := rfl

/-- The low half of the turn number of a port's marker (R301). -/
theorem portOffset_turnKept (lo : Option Nat) (s : State) : TurnKept s (portOffset lo s) := by
  unfold portOffset
  split
  · exact .refl s
  · extract_lets v old s1
    have h1 : TurnKept s s1 := (TurnKept.refl s).wr _ (by decide)
    exact .ite (h1.trans ⟨rfl, rfl, rfl, rfl, rfl, rfl, fun _ h => h⟩) (.ite h1 ((h1.sat (by decide)).raise _ _))

/-- A unit that takes LEN from four intervals and shows its lock (R297). -/
def lockLearnt (len : Nat) (s : State) : State :=
  ((((s.wr Fld.CAD_LEN_LEN len).wr Fld.CAD_STAT_LEARNT 1).wr Fld.CAD_STAT_STATE 2).wr Fld.CAD_STAT_LOCK 1).sat Fld.CAD_CNT_LOCKS

/-- The turn of a lock: its offset noted, and the lock raised. -/
def lockTurn (m ofs : Nat) (s : State) : State :=
  (((newTurn m true s).wr Fld.CAD_RELOCK_OFFSET ofs).wr Fld.CAD_RELOCK_TURN
    (((newTurn m true s).wr Fld.CAD_RELOCK_OFFSET ofs).cad.turn.toNat % 65536)).raise 928 (ofs / 4 % 256)

theorem cadLock_learn (m len : Nat) (lo : Option Nat) (s : State) : ∃ k ofs, cadLock m len true lo s =
    deliverStep k { portOffset lo (lockTurn m ofs (lockLearnt len s)) with
      cad := { (portOffset lo (lockTurn m ofs (lockLearnt len s))).cad with intervals := [] } } := ⟨_, _, rfl⟩

theorem lockLearnt_shows {len : Nat} (h : len < 2 ^ 23) (s : State) : (lockLearnt len s).rd Fld.CAD_STAT_STATE = 2 ∧
    (lockLearnt len s).rd Fld.CAD_STAT_LOCK = 1 ∧ (lockLearnt len s).rd Fld.CAD_LEN_LEN = len := by
  unfold lockLearnt
  refine ⟨?_, ?_, ?_⟩
  · rw [State.rd_sat_ne _ _ _ _ (by decide), State.rd_wr_disj _ _ _ _ (by decide) (by decide), State.rd_wr_same _ _ _ (by decide)]
    rfl
  · rw [State.rd_sat_ne _ _ _ _ (by decide), State.rd_wr_same _ _ _ (by decide)]
    rfl
  · rw [State.rd_sat_ne _ _ _ _ (by decide), State.rd_wr_ne _ _ _ _ (by decide), State.rd_wr_ne _ _ _ _ (by decide),
      State.rd_wr_ne _ _ _ _ (by decide), State.rd_wr_same _ _ _ (by decide)]
    exact Nat.mod_eq_of_lt h

/-- A lock leaves the turn that its marker begins, and is raised. -/
theorem lockTurn_turnKept (m ofs : Nat) (s : State) : TurnKept (newTurn m true s) (lockTurn m ofs s) :=
  (((TurnKept.refl _).wr _ (by decide)).wr _ (by decide)).raise _ _

/-- What comes after the turn of a lock shows the lock as it was. -/
theorem cadLock_kept (m len : Nat) (lo : Option Nat) (s : State) : ∃ ofs,
    (cadLock m len true lo s).reg Off.CAD_STAT = (newTurn m true (lockLearnt len s)).reg Off.CAD_STAT ∧
    (cadLock m len true lo s).reg Off.CAD_LEN = (newTurn m true (lockLearnt len s)).reg Off.CAD_LEN ∧
    (cadLock m len true lo s).cad.turn = (newTurn m true (lockLearnt len s)).cad.turn ∧
    ∀ ev, Raised (lockTurn m ofs (lockLearnt len s)) ev → Raised (cadLock m len true lo s) ev := by
  obtain ⟨k, ofs, he⟩ := cadLock_learn m len lo s
  have hturn := lockTurn_turnKept m ofs (lockLearnt len s)
  have hofs := portOffset_turnKept lo (lockTurn m ofs (lockLearnt len s))
  have hstep := deliverStep_turnKept k { portOffset lo (lockTurn m ofs (lockLearnt len s)) with
    cad := { (portOffset lo (lockTurn m ofs (lockLearnt len s))).cad with intervals := [] } }
  rw [he]
  exact ⟨ofs, hstep.stat.trans (hofs.stat.trans hturn.stat), hstep.len.trans (hofs.len.trans hturn.len),
    hstep.turn.trans (hofs.turn.trans hturn.turn), fun ev h => hstep.raised ev (hofs.raised ev h)⟩

end Sys2Proof.Machine
end

section
/-! O42. Turns and angle steps are counted, and missed markers too. -/
namespace Sys2Proof.Machine
open Sys2Proof

/-- Settles O42: what a boundary, an angle step and a lock do to the rest of the stack leaves the turn that has begun (`newTurn_turnKept`,
`deliverStep_turnKept`, `cadLock_kept`), and each command is its boundary, step or marker. -/
theorem turnsAreCounted : Obligations.TurnsAreCounted := by
  unfold Obligations.TurnsAreCounted
  intro s
  refine ⟨fun hc hk => ?step, fun k => ?delivered, fun hc hst => ?boundary, fun hc hst => if_pos ⟨hc, hst⟩, fun t m => ?turn,
    fun hst hmiss => ?lost, fun hst hmiss => ?missed, fun age hc hsrc htap hosc => ?edge, fun m len lo hlen => ?lock⟩
  case step =>
    exact ⟨_, if_pos ⟨hc, hk⟩, rfl, Nat.le_max_left _ _⟩
  case delivered =>
    have h := deliverStep_turnKept k s
    exact ⟨h.angle, h.turn⟩
  case boundary =>
    exact if_neg (not_or.2 ⟨by simp [hc], hst⟩)
  case turn =>
    obtain ⟨hturn, ht0, hangle, heff⟩ := newTurn_cad t m s
    exact ⟨hturn, ht0, hangle, newTurn_miss t m s, heff, newTurn_len t m s, newTurn_stat t m s rfl (.inl (by decide))⟩
  case lost =>
    have hon : s.on Fld.CAD_STAT_MISS = true := by rw [State.on, hmiss]; rfl
    rw [missTurn_eq, if_pos hon]
    exact cadSeek_stat 1 _
  case missed =>
    have hon : s.on Fld.CAD_STAT_MISS = false := by rw [State.on, hmiss]; rfl
    rw [missTurn_eq, hon, if_neg Bool.false_ne_true, turnMissed, newTurn_stat _ _ _ rfl (.inl (by decide)), newTurn_miss]
    exact ⟨(State.rd_sat_ne _ _ _ _ (by decide)).trans hst, rfl⟩
  case edge =>
    exact if_pos ⟨hc, hsrc, htap, by rw [hosc]; rfl⟩
  case lock =>
    obtain ⟨hstate, hlock, hlen'⟩ := lockLearnt_shows hlen s
    obtain ⟨ofs, hstat, hlenReg, hturn, hraised⟩ := cadLock_kept m len lo s
    refine ⟨?_, ?_, ?_, ?_, hraised _ (State.raise_sets_out _ _ _)⟩
    · rw [State.rd_of_reg (f := Fld.CAD_STAT_STATE) hstat, newTurn_stat _ _ _ rfl (.inl (by decide)), hstate]
    · rw [State.rd_of_reg (f := Fld.CAD_STAT_LOCK) hstat, newTurn_stat _ _ _ rfl (.inr (by decide)), hlock]
    · rw [State.rd_of_reg (f := Fld.CAD_LEN_LEN) hlenReg, newTurn_len, hlen']
    · exact hturn.trans (newTurn_cad m true (lockLearnt len s)).1

end Sys2Proof.Machine
end

section
/-! SUPPORT. The reset of a pavilion (R316, R685): its write buffer, its registers and its ranks. -/
namespace Sys2Proof.Machine
open Sys2Proof

/-! ### The write buffer -/

/-- A line's way to the DRAM raises nothing and starts or ends no drain (R270, R355). -/
theorem storeLine_leaves (l : Loc) (v : RawLine) (s : State) (p : Nat) :
    (storeLine l v s).crossing = s.crossing ∧ ((storeLine l v s).pav p).drain = (s.pav p).drain := by
  have hpavs : (writeLine l v s).pavs = s.pavs := by rw [writeLine, writePhys_rest]
  have hpav (i : Nat) : (writeLine l v s).pav i = s.pav i := congrArg (tabGet Pav.reset · i) hpavs
  refine ⟨?_, ?_⟩
  · rw [storeLine, noteWrite, State.modPav_crossing, writeLine, writePhys_rest]
  · rw [storeLine, noteWrite]
    by_cases hp : p = l.pav
    · rw [hp, State.pav_modPav_same, hpav]
    · rw [State.pav_modPav_ne _ _ _ hp, hpav]

theorem monSample_leaves (u lat tc : Nat) (write : Bool) (fwd : Option Bool) (s : State) (p : Nat) :
    (monSample u lat tc write fwd s).crossing = s.crossing ∧ ((monSample u lat tc write fwd s).pav p).drain = (s.pav p).drain := by
  rw [monSample_rest]
  exact ⟨rfl, rfl⟩

/-- The write buffer's way to the DRAM raises nothing and starts or ends no drain. -/
theorem flushPav_leaves (p : Nat) (s : State) : (flushPav p s).crossing = s.crossing ∧ ((flushPav p s).pav p).drain = (s.pav p).drain := by
  unfold flushPav
  extract_lets es s1
  have h1 : s1.crossing = s.crossing ∧ (s1.pav p).drain = (s.pav p).drain :=
    List.foldlRecOn (motive := fun u : State => u.crossing = s.crossing ∧ (u.pav p).drain = (s.pav p).drain) _ _ ⟨rfl, rfl⟩
      fun u ⟨hc, hd⟩ e _ => by
        obtain ⟨hstored, hdrain⟩ := storeLine_leaves e.req.loc e.words u p
        dsimp only
        split
        · exact (monSample_leaves _ _ _ _ _ _ p).imp (fun h => h.trans (hstored.trans hc)) fun h => h.trans (hdrain.trans hd)
        · exact ⟨hstored.trans hc, hdrain.trans hd⟩
  rwa [State.modPav_crossing, State.pav_modPav_same]

/-- With an empty buffer nothing is written. -/
theorem flushPav_empty {p : Nat} {s : State} (h : (s.pav p).ents = []) : flushPav p s =
    s.modPav p (fun v => { v with ents := v.ents.filter (fun e => e.st != .buffered) }) := by
  rw [flushPav, h]
  rfl

theorem State.cell_modPav (p : Nat) (f : Pav → Pav) (s : State) (a : Nat) : (s.modPav p f).cell a = s.cell a := rfl

/-! ### Registers that return to their reset values -/

theorem tabGet_filter {α : Type} (d : α) (t : Tab α) (f : Nat → Bool) (i : Nat) :
    tabGet d (t.filter (fun e => f e.1)) i = if f i then tabGet d t i else d := by
  induction t with
  | nil => simp [tabGet]
  | cons e t ih =>
    obtain ⟨k, v⟩ := e
    by_cases hk : k = i
    · subst hk
      cases hf : f k <;> simp [tabGet, hf, ih]
    · cases hf : f k <;> simp [tabGet, hf, ih, hk]

theorem State.reg_resetRegs (s : State) (lo hi off : Nat) :
    (s.resetRegs lo hi).reg off = if off < lo ∨ hi < off then s.reg off else regReset off := by
  unfold State.reg State.resetRegs
  rw [tabGet_filter (regReset off) s.regs (fun i => decide (i < lo ∨ hi < i)) off]
  simp only [decide_eq_true_eq]

/-- A reset clears the counters of a pavilion's refreshes (R337, R685). -/
theorem clearPavRegs_refCnt (p : Nat) (s : State) : (clearPavRegs p s).reg (Off.PAV_REF_CNT p) = regReset (Off.PAV_REF_CNT p) := by
  have hin : ¬ (Off.PAV_REF_CNT p < 0xC0000 + 0x1000 * p + 0x140 ∨ 0xC0000 + 0x1000 * p + 0x144 < Off.PAV_REF_CNT p) := by
    simp only [Off.PAV_REF_CNT]
    omega
  simp only [clearPavRegs, State.reg_resetRegs, if_neg hin, ite_self]

theorem refCnt_reset_band (p : PavId) : bitsOf (regReset (Off.PAV_REF_CNT p)).toNat 16 8 = 0 := by
  revert p
  decide

/-! ### Ranks that start in BAND (R316) -/

/-- A rank after the reset of its pavilion, with its windows as they were open. -/
def rankReset (now : Nat) (wins : BitVec 4) : Rank :=
  { Rank.reset with st := .band, n := 8, accAt := now, inSelf := false, wins := wins }

/-- Every rank of a pavilion starts in BAND, with a debt of 8. -/
def ranksReset (p now : Nat) (wins : Nat → BitVec 4) (s : State) : State :=
  forUpto 4 (fun r a => (a.wr (fldDebt p r) 8).setRank p r (rankReset now (wins r))) s

theorem fldDebt_disj (p : Nat) {i r : Nat} (hi : i < 4) (hr : r < 4) (h : i ≠ r) :
    (fldDebt p i).lo + (fldDebt p i).w ≤ (fldDebt p r).lo ∨ (fldDebt p r).lo + (fldDebt p r).w ≤ (fldDebt p i).lo := by
  have hlo : ∀ j < 4, (fldDebt p j).lo = 4 * j ∧ (fldDebt p j).w = 4 := fun j hj => by
    interval_cases j <;> exact ⟨rfl, rfl⟩
  obtain ⟨hloi, hwi⟩ := hlo i hi
  obtain ⟨hlor, hwr⟩ := hlo r hr
  omega

section
variable (p now : Nat) (wins : Nat → BitVec 4) (s : State)

theorem ranksReset_rank {r : Nat} (hr : r < 4) : (ranksReset p now wins s).debt p r = 8 ∧
    (ranksReset p now wins s).rank p r = rankReset now (wins r) := by
  refine forUpto_of_round (Q := fun _ => True) (P := fun a => a.debt p r = 8 ∧ a.rank p r = rankReset now (wins r)) _ s hr trivial
    (fun _ _ _ _ => trivial) (fun a _ => ?_) fun i a hri hi _ ⟨hdebt, hrank⟩ => ?_
  · exact ⟨((setRank_ranksMoved p r _ _).debt r).trans (State.debt_wr_same p r 8 a (by decide)), State.rank_setRank_same p r _ _⟩
  · refine ⟨((setRank_ranksMoved p i _ _).debt r).trans (Eq.trans ?_ hdebt), (State.rank_setRank_ne p i _ _ (Nat.ne_of_lt hri)).trans hrank⟩
    exact State.rd_wr_disj a _ _ _ (fldDebt_fits p i) (fldDebt_disj p hi hr (Nat.ne_of_gt hri))

/-- Beside the debts only the ranks have changed. -/
theorem ranksReset_moved : RegsKept s (ranksReset p now wins s) [Off.PAV_REF_STAT p] ∧
    RanksMoved p { s with regs := (ranksReset p now wins s).regs } (ranksReset p now wins s) :=
  forUpto_induction (P := fun a => RegsKept s a [Off.PAV_REF_STAT p] ∧ RanksMoved p { s with regs := a.regs } a) 4 _ s
    ⟨.refl s _, .refl p s⟩ fun r a _ ⟨hregs, hmoved⟩ => by
      have hwr : RanksMoved p { s with regs := (a.wr (fldDebt p r) 8).regs } (a.wr (fldDebt p r) 8) :=
        ⟨hmoved.pavs, hmoved.pav, congrArg (fun u : State => u.wr (fldDebt p r) 8) hmoved.rest⟩
      exact ⟨hregs.wr (List.mem_singleton.2 (fldDebt_off p r)) _, hwr.setRank r _⟩

end

/-! ### A drain that waits for the debts to be paid -/

section
variable {p r : Nat} {s : State}

theorem enterSelf_rank_ne {i : Nat} (h : r ≠ i) : (enterSelf p i s).rank p r = s.rank p r := by
  unfold enterSelf
  extract_lets k
  split
  · exact State.rank_setRank_ne p i _ s h
  · exact (wakeDue_rank_ne p i _ h).trans (State.rank_setRank_ne p i _ s h)

theorem selfReady_rank_ne {i : Nat} (h : r ≠ i) : (selfReady p i s).rank p r = s.rank p r := by
  unfold selfReady
  extract_lets k
  split
  · exact State.rank_setRank_ne p i _ s h
  · rfl

/-- A rank that is to enter self-refresh has all its debt to pay first (R309). -/
theorem enterSelf_rank (hn : (s.rank p r).n = s.debt p r) : ((enterSelf p r s).rank p r).n = s.debt p r ∧
    ((enterSelf p r s).rank p r).acc = (s.rank p r).acc := by
  unfold enterSelf
  extract_lets k
  split
  · rw [State.rank_setRank_same]
    exact ⟨hn, rfl⟩
  · obtain ⟨down, since, h⟩ := wakeDue_rank p r (s.setRank p r { k with st := .self_, n := s.debt p r })
    rw [h, State.rank_setRank_same]
    exact ⟨rfl, rfl⟩

theorem selfReady_pending (hn : (s.rank p r).n ≠ 0) : selfReady p r s = s :=
  if_neg fun ⟨_, _, h, _⟩ => hn h

/-- A rank whose debt is all pending owes it through a drain. -/
theorem drainStep_owes (hn : (s.rank p r).n = s.debt p r) (hd : s.debt p r ≠ 0) : ((drainStep p s).rank p r).n = s.debt p r ∧
    ((drainStep p s).rank p r).acc = (s.rank p r).acc := by
  unfold drainStep
  extract_lets v
  split
  · refine (forUpto_induction (P := fun a => a.debt p r = s.debt p r ∧ (a.rank p r).n = s.debt p r ∧
      (a.rank p r).acc = (s.rank p r).acc) 4 _ s ⟨rfl, hn, rfl⟩ fun i a _ ⟨hdebt, hpend, hacc⟩ => ?_).2
    have hmoved : RanksMoved p a (selfReady p i (enterSelf p i a)) :=
      (enterSelf_ranksMoved p i a).trans (selfReady_ranksMoved p i _)
    refine ⟨(hmoved.debt r).trans hdebt, ?_⟩
    by_cases hi : r = i
    · subst hi
      obtain ⟨hpend', hacc'⟩ := enterSelf_rank (hpend.trans hdebt.symm)
      rw [selfReady_pending (by rw [hpend', hdebt]; exact hd), hpend', hacc']
      exact ⟨hdebt, hacc⟩
    · rw [selfReady_rank_ne hi, enterSelf_rank_ne hi]
      exact ⟨hpend, hacc⟩
  · exact ⟨hn, rfl⟩

/-- A pavilion that drains for nothing, or for a reset, does not enter self-refresh. -/
theorem drainStep_none (h : (s.pav p).drain = .none_) : drainStep p s = s :=
  if_neg fun ⟨hd, _⟩ => by simp [h] at hd

end

/-! ### The pavilion that has been reset -/

/-- A pavilion's registers cleared and its monitor window discarded: the rest is as it was. -/
def pavCleared (p : Nat) (s : State) : State := clearPavRegs p (monDiscard p s)

section
variable (p : Nat) (s : State)

theorem pavCleared_pav (i : Nat) : (pavCleared p s).pav i = s.pav i := by
  simp only [pavCleared, clearPavRegs, State.resetRegs_pav, monDiscard, State.modMon_pav]

theorem pavCleared_crossing : (pavCleared p s).crossing = s.crossing := by
  simp only [pavCleared, clearPavRegs, State.resetRegs_crossing, monDiscard, State.modMon_crossing]

theorem pavCleared_cell (a : Nat) : (pavCleared p s).cell a = s.cell a := by
  simp only [State.cell, pavCleared, clearPavRegs, State.resetRegs_dram, State.resetRegs_epoch, monDiscard, State.modMon_dram,
    State.modMon_epoch]

end

/-- A pavilion that a reset begins anew, before its ranks start in BAND. -/
structure PavBlank (p : Nat) (s t : State) : Prop where
  asked : (t.pav p).resetAsked = false
  drain : (t.pav p).drain = if (s.pav p).drain = .reset_ then .none_ else (s.pav p).drain
  crossing : t.crossing = s.crossing
  refCnt : t.reg (Off.PAV_REF_CNT p) = regReset (Off.PAV_REF_CNT p)
  kept : (s.pav p).ents = [] → DramKept s t ∧ PavsKept s t p

/-- The write buffer goes to the DRAM, and what a pavilion's reset clears is cleared. -/
theorem pavBlank_cleared {p : Nat} {s : State} {f : Pav → Pav} (hasked : ∀ v, (f v).resetAsked = false)
    (hdrain : ∀ v : Pav, (f v).drain = if v.drain = .reset_ then .none_ else v.drain) :
    PavBlank p s ((pavCleared p (flushPav p s)).modPav p f) := by
  obtain ⟨hraised, hdrains⟩ := flushPav_leaves p s
  refine ⟨?_, ?_, ?_, ?_, fun h => ⟨fun a => ?_, fun i hi => ?_⟩⟩
  · rw [State.pav_modPav_same, hasked]
  · rw [State.pav_modPav_same, hdrain, pavCleared_pav, hdrains]
  · rw [State.modPav_crossing, pavCleared_crossing, hraised]
  · rw [State.modPav_reg, pavCleared, clearPavRegs_refCnt]
  · rw [State.cell_modPav, pavCleared_cell, flushPav_empty h, State.cell_modPav]
  · rw [State.pav_modPav_ne _ _ _ hi, pavCleared_pav, flushPav_empty h, State.pav_modPav_ne _ _ _ hi]

/-- The ranks of a blank pavilion start in BAND, its register takes entropy, and a drain that goes on sends them to self-refresh. -/
def bandStarted (p : Nat) (wins : Nat → BitVec 4) (s : State) : State := drainStep p (reseed p (ranksReset p s.now wins s))

theorem pavReset_eq (p : Nat) (s : State) : ∃ t, PavBlank p s t ∧ pavReset p s = bandStarted p (fun r => (s.rank p r).wins) t := by
  unfold pavReset
  extract_lets wins s1 blank s2 band s3
  have hblank : PavBlank p s s2 := pavBlank_cleared (fun _ => rfl) (fun _ => rfl)
  clear_value s2
  exact ⟨s2, hblank, rfl⟩

/-! ### Ranks that have started -/

section
variable (p : Nat) (s : State)

/-- Entropy that enters a pavilion's register leaves what is not of the register (R319). -/
theorem reseed_eq : ∃ x : BitVec 32, reseed p s =
    { s with freeIdx := s.freeIdx + 1 }.modPav p (fun v => { v with lfsr := x, lfsrAt := s.now }) := ⟨_, rfl⟩

theorem reseed_pav : ∃ x : BitVec 32, (reseed p s).pav p = { s.pav p with lfsr := x, lfsrAt := s.now } := by
  obtain ⟨x, h⟩ := reseed_eq p s
  exact ⟨x, by rw [h, State.pav_modPav_same]; rfl⟩

theorem reseed_rank (r : Nat) : (reseed p s).rank p r = s.rank p r := by
  obtain ⟨x, h⟩ := reseed_pav p s
  rw [State.rank, h, State.rank]

theorem reseed_regs : (reseed p s).regs = s.regs := rfl

theorem reseed_crossing : (reseed p s).crossing = s.crossing := rfl

theorem reseed_cell (a : Nat) : (reseed p s).cell a = s.cell a := rfl

theorem reseed_pavsKept : PavsKept s (reseed p s) p := fun _ hi => State.pav_modPav_ne _ _ _ hi

variable (wins : Nat → BitVec 4)

/-- Each rank owes eight refreshes, and pays them in BAND unless it is to enter self-refresh (R316). -/
theorem bandStarted_rank {r : Nat} (hr : r < 4) : (bandStarted p wins s).debt p r = 8 ∧ ((bandStarted p wins s).rank p r).n = 8 ∧
    ((bandStarted p wins s).rank p r).acc = 0 ∧ ((s.pav p).drain = .none_ → ((bandStarted p wins s).rank p r).st = .band) := by
  rw [bandStarted]
  obtain ⟨-, hmoved⟩ := ranksReset_moved p s.now wins s
  obtain ⟨hdebt, hreset⟩ := ranksReset_rank p s.now wins s hr
  generalize ranksReset p s.now wins s = u at hmoved hdebt hreset
  have howed : (reseed p u).debt p r = 8 := (State.rd_of_regs (reseed_regs p u) _).trans hdebt
  have hrank : (reseed p u).rank p r = rankReset s.now (wins r) := (reseed_rank p u r).trans hreset
  have hn : ((reseed p u).rank p r).n = 8 := by rw [hrank]; rfl
  obtain ⟨hpending, hacc⟩ := drainStep_owes (hn.trans howed.symm) (by rw [howed]; decide)
  refine ⟨((drainStep_ranksMoved p _).debt r).trans howed, hpending.trans howed, hacc.trans (by rw [hrank]; rfl), fun hd => ?_⟩
  have hnone : ((reseed p u).pav p).drain = .none_ := by
    obtain ⟨x, hpav⟩ := reseed_pav p u
    rw [hpav, hmoved.pav]
    exact hd
  rw [drainStep_none hnone, hrank]
  rfl

/-- Beside the debts and the ranks nothing is touched that the reset has left. -/
theorem bandStarted_leaves : RegsKept s (bandStarted p wins s) [Off.PAV_REF_STAT p] ∧ PavsKept s (bandStarted p wins s) p ∧
    ((bandStarted p wins s).pav p).resetAsked = (s.pav p).resetAsked ∧ (bandStarted p wins s).crossing = s.crossing ∧
    DramKept s (bandStarted p wins s) := by
  rw [bandStarted]
  obtain ⟨hregs, hmoved⟩ := ranksReset_moved p s.now wins s
  generalize ranksReset p s.now wins s = u at hregs hmoved
  have hdrained := drainStep_ranksMoved p (reseed p u)
  refine ⟨(hregs.of_regs (reseed_regs p u)).of_regs hdrained.regs, (hmoved.pavs.trans (reseed_pavsKept p u)).trans hdrained.pavs, ?_, ?_,
    fun a => ?_⟩
  · obtain ⟨x, hpav⟩ := reseed_pav p u
    rw [hdrained.pav, hpav, hmoved.pav]
    rfl
  · rw [hdrained.crossing, reseed_crossing, hmoved.crossing]
  · rw [hdrained.cell, reseed_cell, hmoved.cell]
    rfl

end

end Sys2Proof.Machine
end

section
/-! O59. After a pavilion reset each rank starts in BAND with a debt of 8. -/
namespace Sys2Proof.Machine
open Sys2Proof

/-- What the reset of a pavilion leaves: its ranks owe eight refreshes each, and neither the reset nor a drain that goes on counts or raises
anything (R316). -/
theorem pavReset_starts (p : PavId) (s : State) : ((pavReset p s).pav p).resetAsked = false ∧
    (∀ r < 4, (pavReset p s).rd (fldDebt p r) = 8 ∧ ((pavReset p s).rank p r).n = 8 ∧ ((pavReset p s).rank p r).acc = 0 ∧
      ((s.pav p).drain = .none_ ∨ (s.pav p).drain = .reset_ → ((pavReset p s).rank p r).st = .band)) ∧
    (pavReset p s).crossing = s.crossing ∧ (pavReset p s).rd (Fld.PAV_REF_CNT_BAND p) = 0 ∧
    ((s.pav p).ents = [] → DramKept s (pavReset p s) ∧ PavsKept s (pavReset p s) p) := by
  obtain ⟨t, hblank, he⟩ := pavReset_eq p s
  obtain ⟨hregs, hpavs, hasked, hcrossing, hdram⟩ := bandStarted_leaves p t (fun r => (s.rank p r).wins)
  rw [he]
  refine ⟨hasked.trans hblank.asked, fun r hr => ?_, hcrossing.trans hblank.crossing, ?_, fun hents => ?_⟩
  · obtain ⟨hdebt, hn, hacc, hst⟩ := bandStarted_rank p t (fun r => (s.rank p r).wins) hr
    refine ⟨hdebt, hn, hacc, fun hd => hst (hblank.drain.trans ?_)⟩
    rcases hd with h | h <;> rw [h] <;> rfl
  · have hcleared : (bandStarted p (fun r => (s.rank p r).wins) t).reg (Off.PAV_REF_CNT p) = regReset (Off.PAV_REF_CNT p) := by
      refine (hregs _ ?_).trans hblank.refCnt
      simp only [List.mem_singleton, Off.PAV_REF_CNT, Off.PAV_REF_STAT]
      omega
    exact (congrArg (fun v : Reg32 => bitsOf v.toNat 16 8) hcleared).trans (refCnt_reset_band p)
  · obtain ⟨hcells, hothers⟩ := hblank.kept hents
    exact ⟨fun a => (hdram a).trans (hcells a), hothers.trans hpavs⟩

/-- Settles O59: the reset runs once its pavilion's lines are complete, and leaves what `pavReset_starts` says. -/
theorem pavilionResetStartsInBand : Obligations.PavilionResetStartsInBand := by
  unfold Obligations.PavilionResetStartsInBand
  exact fun p s hasked hgated hdrainable => ⟨pavReset p s, if_pos ⟨hasked, hgated, hdrainable⟩, pavReset_starts p s⟩

end Sys2Proof.Machine
end

section
/-! SUPPORT. Numbers that a test of each bit spells: the masks of lanes, of pavilions and of words. -/
namespace Sys2Proof.Machine
open Sys2Proof

/-- The number whose bits below `n` are those that meet a test. -/
def bitSum (f : Nat → Bool) (n : Nat) : Nat := (List.range n).foldl (fun a p => a + b2n (f p) * 2 ^ p) 0

theorem laneMask_eq_bitSum (f : Nat → Bool) : laneMask f = bitSum f 8 := rfl

theorem wordMask_eq_bitSum (ds : List Decoded) (f : Decoded → Bool) :
    wordMask ds f = BitVec.ofNat 8 (bitSum (fun w => f (ds.getD w (.clean 0))) 8) := rfl

section
variable {f g : Nat → Bool} {n : Nat}

theorem bitSum_succ : bitSum f (n + 1) = 2 ^ n * b2n (f n) + bitSum f n := by
  rw [bitSum, List.range_succ, List.foldl_append, List.foldl_cons, List.foldl_nil, bitSum, Nat.add_comm, Nat.mul_comm]

theorem bitSum_congr (h : ∀ p < n, f p = g p) : bitSum f n = bitSum g n := by
  induction n with
  | zero => rfl
  | succ n ih => rw [bitSum_succ, bitSum_succ, ih fun p hp => h p (by omega), h n (Nat.lt_succ_self n)]

/-- A second test is not needed of bits that meet it with the first. -/
theorem bitSum_and_of_imp (h : ∀ p < n, f p = true → g p = true) : bitSum (fun p => f p && g p) n = bitSum f n := by
  refine bitSum_congr fun p hp => ?_
  cases hf : f p
  · rfl
  · exact h p hp hf

theorem bitSum_eq_zero (h : ∀ p < n, f p = false) : bitSum f n = 0 := by
  induction n with
  | zero => rfl
  | succ n ih => rw [bitSum_succ, ih fun p hp => h p (by omega), h n (Nat.lt_succ_self n)]; rfl

theorem bitSum_lt : bitSum f n < 2 ^ n := by
  induction n with
  | zero => exact Nat.one_pos
  | succ n ih =>
    have hbit : 2 ^ n * b2n (f n) ≤ 2 ^ n * 1 := Nat.mul_le_mul_left _ (by cases f n <;> decide)
    rw [bitSum_succ, Nat.pow_succ]
    omega

theorem bitAt_eq_testBit (x i : Nat) : bitAt x i = x.testBit i := by
  simp [bitAt, Nat.testBit_eq_decide_div_mod_eq, Bool.beq_eq_decide_eq]

theorem bitAt_bitSum {p : Nat} (hp : p < n) : bitAt (bitSum f n) p = f p := by
  induction n with
  | zero => omega
  | succ n ih =>
    rw [bitSum_succ, bitAt_eq_testBit, Nat.testBit_two_pow_mul_add _ bitSum_lt, ← bitAt_eq_testBit]
    split
    · next h => exact ih h
    · next h =>
      obtain rfl : p = n := by omega
      rw [Nat.sub_self]
      cases f p <;> rfl

/-- A number below 2^n with a bit set spells a mask that is not 0. -/
theorem bitSum_bitAt_ne_zero {x : Nat} (hx : x < 2 ^ n) (h : x ≠ 0) : bitSum (fun p => bitAt x p) n ≠ 0 := fun h0 =>
  h (Nat.zero_of_testBit_eq_false fun p => by
    rcases Nat.lt_or_ge p n with hp | hp
    · rw [← bitAt_eq_testBit, ← bitAt_bitSum (f := fun p => bitAt x p) hp, h0, bitAt_eq_testBit, Nat.zero_testBit]
    · exact Nat.testBit_lt_two_pow (hx.trans_le (Nat.pow_le_pow_right Nat.two_pos hp)))

end

end Sys2Proof.Machine
end

section
/-! SUPPORT. The code of the DRAM words (R341, R343): the check bits add up the columns of the data bits that are set, and the syndrome
those of the bits that are wrong. -/
namespace Sys2Proof.Machine
open Sys2Proof

/-! ### Counts of a test, by parity -/

/-- The ones of a list for the exclusive or of two tests are, by parity, those of the one and of the other. -/
theorem length_filter_xor {α : Type} (f g : α → Bool) (l : List α) :
    (l.filter (fun x => f x ^^ g x)).length % 2 = ((l.filter f).length + (l.filter g).length) % 2 := by
  induction l with
  | nil => rfl
  | cons x l ih =>
    cases hf : f x <;> cases hg : g x <;> simp [hf, hg] <;> omega

/-- The number of ones among the low eight bits: the weight of a column (R341). -/
def onesIn8 (x : Nat) : Nat := ((List.range 8).filter (fun j => x.testBit j)).length

theorem onesIn8_xor (x y : Nat) : onesIn8 (x ^^^ y) % 2 = (onesIn8 x + onesIn8 y) % 2 := by
  simp only [onesIn8, Nat.testBit_xor]
  exact length_filter_xor _ _ _

/-! ### The columns -/

/-- The columns of the 72 bits of a stored word: those of the data bits, and one of weight 1 for each check bit. -/
def codeColumns : List Nat := secdedCols ++ (List.range 8).map (2 ^ ·)

theorem length_secdedCols : secdedCols.length = 64 := by decide

theorem codeColumns_nodup : codeColumns.Nodup := by decide

theorem codeColumns_odd : ∀ c ∈ codeColumns, onesIn8 c % 2 = 1 ∧ c < 256 := by decide

theorem length_codeColumns : codeColumns.length = 72 := by
  simp [codeColumns, length_secdedCols]

/-- The column of a bit of a stored word. -/
def columnOf (i : Nat) : Byte := BitVec.ofNat 8 (codeColumns.getD i 0)

section
variable {i : Nat}

theorem codeColumns_data (hi : i < 64) : codeColumns.getD i 0 = secdedCols.getD i 0 :=
  List.getD_append _ _ _ _ (hi.trans_eq length_secdedCols.symm)

theorem codeColumns_check {j : Nat} (hj : j < 8) : codeColumns.getD (64 + j) 0 = 2 ^ j := by
  rw [codeColumns, List.getD_append_right _ _ _ _ (length_secdedCols.trans_le (Nat.le_add_right 64 j)), length_secdedCols]
  simp [hj]

theorem codeColumns_mem (hi : i < 72) : codeColumns.getD i 0 ∈ codeColumns := by
  rw [List.getD_eq_getElem _ _ (hi.trans_eq length_codeColumns.symm)]
  exact List.getElem_mem _

theorem columnOf_toNat (hi : i < 72) : (columnOf i).toNat = codeColumns.getD i 0 := by
  rw [columnOf, BitVec.toNat_ofNat]
  exact Nat.mod_eq_of_lt (codeColumns_odd _ (codeColumns_mem hi)).2

theorem columnOf_inj {j : Nat} (hi : i < 72) (hj : j < 72) (h : columnOf i = columnOf j) : i = j := by
  have hcol : codeColumns.getD i 0 = codeColumns.getD j 0 := by rw [← columnOf_toNat hi, ← columnOf_toNat hj, h]
  rw [List.getD_eq_getElem _ _ (hi.trans_eq length_codeColumns.symm),
    List.getD_eq_getElem _ _ (hj.trans_eq length_codeColumns.symm)] at hcol
  exact (codeColumns_nodup.getElem_inj_iff ..).1 hcol

end

/-! ### Check bits -/

theorem checkFrom_xor (a b : Word64) (i : Nat) (cs : List Nat) :
    checkFrom (a ^^^ b) i cs = checkFrom a i cs ^^^ checkFrom b i cs := by
  induction cs generalizing i with
  | nil => simp [checkFrom]
  | cons c cs ih =>
    have hcol : (if (a ^^^ b).getLsbD i then BitVec.ofNat 8 c else 0) =
        (if a.getLsbD i then BitVec.ofNat 8 c else 0) ^^^ (if b.getLsbD i then BitVec.ofNat 8 c else 0) := by
      cases ha : a.getLsbD i <;> cases hb : b.getLsbD i <;> simp [ha, hb]
    rw [checkFrom, checkFrom, checkFrom, ih, hcol]
    ac_rfl

/-- A word with a single one takes that bit's column for check bits. -/
theorem checkFrom_oneBit {k : Nat} (hk : k < 64) (i : Nat) (cs : List Nat) :
    checkFrom (1#64 <<< k) i cs = if i ≤ k then BitVec.ofNat 8 (cs.getD (k - i) 0) else 0 := by
  induction cs generalizing i with
  | nil => simp [checkFrom]
  | cons c cs ih =>
    have hbit : (1#64 <<< k).getLsbD i = decide (i = k) := by
      rw [← BitVec.twoPow_eq, BitVec.getLsbD_twoPow, decide_eq_true hk, Bool.true_and]
      exact decide_eq_decide.2 eq_comm
    rw [checkFrom, ih, hbit]
    rcases Nat.lt_trichotomy i k with h | rfl | h
    · obtain ⟨d, rfl⟩ := Nat.exists_eq_add_of_le h
      have hhere : decide (i = i.succ + d) = false := decide_eq_false (by omega)
      rw [hhere, if_pos (Nat.le_add_right (i + 1) d), if_pos h.le, Nat.add_sub_cancel_left, show i.succ + d - i = d + 1 by omega]
      simp
    · simp
    · simp [Nat.not_le.2 h, Nat.ne_of_gt h, Nat.not_lt.2 h.le]

/-- Check bit `j` is the parity of the data bits whose column has bit `j` (R341). -/
theorem checkFrom_getLsbD (w : Word64) (i : Nat) (cs : List Nat) {j : Nat} (hj : j < 8) : (checkFrom w i cs).getLsbD j =
    decide (((List.range cs.length).filter (fun k => w.getLsbD (i + k) && (cs.getD k 0).testBit j)).length % 2 = 1) := by
  induction cs generalizing i with
  | nil => simp [checkFrom]
  | cons c cs ih =>
    have hshift : ((List.range cs.length).map Nat.succ).filter (fun k => w.getLsbD (i + k) && ((c :: cs).getD k 0).testBit j) =
        ((List.range cs.length).filter (fun k => w.getLsbD (i + 1 + k) && (cs.getD k 0).testBit j)).map Nat.succ := by
      rw [List.filter_map]
      congr 2
      funext k
      simp [Nat.add_assoc, Nat.add_comm 1 k]
    have hcol : (if w.getLsbD i then BitVec.ofNat 8 c else 0).getLsbD j = (w.getLsbD i && c.testBit j) := by
      cases w.getLsbD i
      · simp
      · simp only [if_true, BitVec.getLsbD_ofNat, decide_eq_true hj, Bool.true_and]
    rw [checkFrom, BitVec.getLsbD_xor, ih, hcol, List.length_cons, List.range_succ_eq_map, List.filter_cons, hshift]
    cases hbit : (w.getLsbD i && c.testBit j)
    · simp [hbit]
    · have hodd (n : Nat) : (true ^^ decide (n % 2 = 1)) = decide ((n + 1) % 2 = 1) := by
        rw [Bool.true_xor, ← decide_not]
        exact decide_eq_decide.2 (by omega)
      simp [hbit, hodd]

theorem checkBits_zero : checkBits 0 = 0 := by
  have h := checkFrom_xor 0 0 0 secdedCols
  rwa [BitVec.xor_self, BitVec.xor_self] at h

theorem checkBits_oneBit {k : Nat} (hk : k < 64) : checkBits (1#64 <<< k) = columnOf k := by
  rw [checkBits, checkFrom_oneBit hk, if_pos (Nat.zero_le k), Nat.sub_zero, columnOf, codeColumns_data hk]

/-! ### Syndromes -/

@[simp] theorem dataOf72_encode72 (w : Word64) : dataOf72 (encode72 w) = w := BitVec.extractLsb'_append_eq_right

theorem dataOf72_xor (r e : Raw72) : dataOf72 (r ^^^ e) = dataOf72 r ^^^ dataOf72 e := BitVec.extractLsb'_xor

@[simp] theorem syndrome72_encode72 (w : Word64) : syndrome72 (encode72 w) = 0 := by
  rw [syndrome72, dataOf72_encode72, encode72, BitVec.extractLsb'_append_eq_left, BitVec.xor_self]
  rfl

theorem syndrome72_xor (r e : Raw72) : syndrome72 (r ^^^ e) = syndrome72 r ^^^ syndrome72 e := by
  simp only [syndrome72, dataOf72_xor, BitVec.extractLsb'_xor, checkBits, checkFrom_xor]
  grind

theorem oneBit_eq_ofNat {w : Nat} (i : Nat) : 1#w <<< i = BitVec.ofNat w (2 ^ i) := by
  rw [← BitVec.twoPow_eq]
  exact BitVec.eq_of_toNat_eq (BitVec.toNat_twoPow w i)

/-- A part of a word with a single one. -/
theorem extractLsb'_oneBit (lo len : Nat) {w i : Nat} (hi : i < w) :
    (1#w <<< i).extractLsb' lo len = if lo ≤ i then 1#len <<< (i - lo) else 0 := by
  refine BitVec.eq_of_getLsbD_eq fun k hk => ?_
  rw [← BitVec.twoPow_eq, ← BitVec.twoPow_eq, BitVec.getLsbD_extractLsb', BitVec.getLsbD_twoPow, decide_eq_true hk, decide_eq_true hi,
    Bool.true_and, Bool.true_and]
  split
  · rw [BitVec.getLsbD_twoPow, Bool.eq_iff_iff]
    simp only [Bool.and_eq_true, decide_eq_true_eq]
    omega
  · exact (decide_eq_false (by omega)).trans BitVec.getLsbD_zero.symm

theorem dataOf72_oneBit_data {i : Nat} (hi : i < 64) : dataOf72 (1#72 <<< i) = 1#64 <<< i :=
  (extractLsb'_oneBit 0 64 (hi.trans (by decide))).trans (if_pos (Nat.zero_le i))

theorem dataOf72_oneBit_check {j : Nat} (hj : j < 8) : dataOf72 (1#72 <<< (64 + j)) = 0 := by
  have h : dataOf72 (1#72 <<< (64 + j)) = 1#64 <<< (64 + j) :=
    (extractLsb'_oneBit 0 64 (by omega)).trans (if_pos (Nat.zero_le _))
  rw [h]
  exact BitVec.shiftLeft_eq_zero (Nat.le_add_right 64 j)

/-- The syndrome of one wrong bit is its column. -/
theorem syndrome72_oneBit {i : Nat} (hi : i < 72) : syndrome72 (1#72 <<< i) = columnOf i := by
  rw [syndrome72, extractLsb'_oneBit 64 8 hi]
  rcases Nat.lt_or_ge i 64 with h | h
  · rw [if_neg (Nat.not_le.2 h), dataOf72_oneBit_data h, checkBits_oneBit h]
    exact BitVec.zero_xor
  · obtain ⟨j, rfl⟩ := Nat.exists_eq_add_of_le h
    have hj : j < 8 := by omega
    rw [if_pos h, dataOf72_oneBit_check hj, checkBits_zero, columnOf, codeColumns_check hj, Nat.add_sub_cancel_left, oneBit_eq_ofNat]
    exact BitVec.xor_zero

theorem syndrome72_encode72_xor (w : Word64) (e : Raw72) : syndrome72 (encode72 w ^^^ e) = syndrome72 e := by
  rw [syndrome72_xor, syndrome72_encode72]
  exact BitVec.zero_xor

/-! ### The decoder -/

section
variable {r : Raw72}

theorem decode72_clean (h : (syndrome72 r).toNat = 0) : decode72 r = .clean (dataOf72 r) := by
  simp [decode72, h]

theorem decode72_poison (h : (syndrome72 r).toNat = 0xFF) : decode72 r = .uncorrectable (dataOf72 r) true := by
  simp [decode72, h]

/-- The two tests of the syndrome that come before the columns let every column pass. -/
theorem codeColumns_tests {c : Nat} (h : c ∈ codeColumns) : c ≠ 0 ∧ c ≠ 0xFF := by
  have hodd := (codeColumns_odd c h).1
  constructor <;> rintro rfl <;> exact absurd hodd (by decide)

theorem decode72_check {j : Nat} (hj : j < 8) (h : (syndrome72 r).toNat = 2 ^ j) : decode72 r = .corrected (dataOf72 r) (64 + j) := by
  have hmem : 2 ^ j ∈ codeColumns := by rw [← codeColumns_check hj]; exact codeColumns_mem (by omega)
  obtain ⟨hzero, hff⟩ := codeColumns_tests hmem
  have hfind : (List.range 8).find? (fun k => 2 ^ k == 2 ^ j) = some j := by
    refine List.find?_range_eq_some.2 ⟨beq_self_eq_true _, List.mem_range.2 hj, fun k hk => ?_⟩
    simpa using hk.ne
  simp only [decode72, h, if_neg hzero, if_neg hff, hfind]

theorem decode72_data {i : Nat} (hi : i < 64) (h : (syndrome72 r).toNat = secdedCols.getD i 0) :
    decode72 r = .corrected (dataOf72 r ^^^ (1#64 <<< i)) i := by
  have hmem : secdedCols.getD i 0 ∈ codeColumns := by rw [← codeColumns_data hi]; exact codeColumns_mem (by omega)
  obtain ⟨hzero, hff⟩ := codeColumns_tests hmem
  obtain ⟨hcols, -, hdisjoint⟩ := List.nodup_append'.1 codeColumns_nodup
  have hlen : i < secdedCols.length := hi.trans_eq length_secdedCols.symm
  have hcheck : (List.range 8).find? (fun k => 2 ^ k == secdedCols.getD i 0) = none := by
    refine List.find?_eq_none.2 fun k hk hpow => hdisjoint (List.getElem_mem hlen) (List.mem_map.2 ⟨k, hk, ?_⟩)
    rw [← List.getD_eq_getElem _ 0 hlen]
    exact beq_iff_eq.1 hpow
  have hcol : secdedCols.findIdx? (fun c => c == secdedCols.getD i 0) = some i := by
    refine List.findIdx?_eq_some_iff_getElem.2 ⟨hlen, ?_, fun k hk => ?_⟩
    · simp [hlen]
    · simpa [hlen, hcols.getElem_inj_iff] using hk.ne
  simp only [decode72, h, if_neg hzero, if_neg hff, hcheck, hcol, oneBit_eq_ofNat]

theorem decode72_other (hzero : (syndrome72 r).toNat ≠ 0) (hff : (syndrome72 r).toNat ≠ 0xFF)
    (h : (syndrome72 r).toNat ∉ codeColumns) : decode72 r = .uncorrectable (dataOf72 r) false := by
  simp only [codeColumns, List.mem_append, List.mem_map, List.mem_range, not_or, not_exists, not_and] at h
  obtain ⟨hdata, hpow⟩ := h
  have hcheck : (List.range 8).find? (fun k => 2 ^ k == (syndrome72 r).toNat) = none := by
    simpa using hpow
  have hcol : secdedCols.findIdx? (fun c => c == (syndrome72 r).toNat) = none := List.findIdx?_eq_none_iff.2 fun c hc =>
    beq_eq_false_iff_ne.2 fun he => hdata (he ▸ hc)
  simp only [decode72, if_neg hzero, if_neg hff, hcheck, hcol]

/-- No column has an even weight, so that a syndrome of even weight other than 0 is never corrected. -/
theorem decode72_even (heven : onesIn8 (syndrome72 r).toNat % 2 = 0) (hzero : (syndrome72 r).toNat ≠ 0)
    (hff : (syndrome72 r).toNat ≠ 0xFF) : decode72 r = .uncorrectable (dataOf72 r) false :=
  decode72_other hzero hff fun h => by have := (codeColumns_odd _ h).1; omega

/-- Of odd weight, a column of a check bit has weight 1. -/
theorem decode72_odd (hodd : onesIn8 (syndrome72 r).toNat % 2 = 1) (hone : onesIn8 (syndrome72 r).toNat ≠ 1)
    (hcols : (syndrome72 r).toNat ∉ secdedCols) : decode72 r = .uncorrectable (dataOf72 r) false := by
  have hpows : ∀ c ∈ (List.range 8).map (2 ^ ·), onesIn8 c = 1 := by decide
  refine decode72_other ?_ ?_ fun h => (List.mem_append.1 h).elim hcols fun hp => hone (hpows _ hp)
  all_goals
    intro h
    rw [h] at hodd
    exact absurd hodd (by decide)

end

/-! ### Wrong bits -/

theorem decode72_encode72 (w : Word64) : decode72 (encode72 w) = .clean w := by
  rw [decode72_clean (by simp), dataOf72_encode72]

theorem decode72_oneWrong (w : Word64) {i : Nat} (hi : i < 72) : decode72 (encode72 w ^^^ (1#72 <<< i)) = .corrected w i := by
  have hs : (syndrome72 (encode72 w ^^^ (1#72 <<< i))).toNat = codeColumns.getD i 0 := by
    rw [syndrome72_encode72_xor, syndrome72_oneBit hi, columnOf_toNat hi]
  rcases Nat.lt_or_ge i 64 with h | h
  · rw [decode72_data h (hs.trans (codeColumns_data h)), dataOf72_xor, dataOf72_encode72, dataOf72_oneBit_data h, BitVec.xor_assoc,
      BitVec.xor_self, BitVec.xor_zero]
  · obtain ⟨j, rfl⟩ := Nat.exists_eq_add_of_le h
    rw [decode72_check (by omega) (hs.trans (codeColumns_check (by omega))), dataOf72_xor, dataOf72_encode72,
      dataOf72_oneBit_check (by omega)]
    exact congrArg (Decoded.corrected · _) BitVec.xor_zero

/-- Two columns differ and have odd weight each, so that their sum has an even weight and is not 0. -/
theorem decode72_twoWrong (w : Word64) {i j : Nat} (hi : i < 72) (hj : j < 72) (hne : i ≠ j) :
    (decode72 (encode72 w ^^^ (1#72 <<< i) ^^^ (1#72 <<< j))).bad = true := by
  have hs : syndrome72 (encode72 w ^^^ (1#72 <<< i) ^^^ (1#72 <<< j)) = columnOf i ^^^ columnOf j := by
    rw [syndrome72_xor, syndrome72_encode72_xor, syndrome72_oneBit hi, syndrome72_oneBit hj]
  have hzero : (syndrome72 (encode72 w ^^^ (1#72 <<< i) ^^^ (1#72 <<< j))).toNat ≠ 0 := fun h =>
    hne (columnOf_inj hi hj (BitVec.xor_eq_zero_iff.1 (hs.symm.trans (BitVec.eq_of_toNat_eq h))))
  have heven : onesIn8 (syndrome72 (encode72 w ^^^ (1#72 <<< i) ^^^ (1#72 <<< j))).toNat % 2 = 0 := by
    have hi1 := (codeColumns_odd _ (codeColumns_mem hi)).1
    have hj1 := (codeColumns_odd _ (codeColumns_mem hj)).1
    rw [hs, BitVec.toNat_xor, onesIn8_xor, columnOf_toNat hi, columnOf_toNat hj]
    omega
  by_cases hff : (syndrome72 (encode72 w ^^^ (1#72 <<< i) ^^^ (1#72 <<< j))).toNat = 0xFF
  · rw [decode72_poison hff, Decoded.bad]
  · rw [decode72_even heven hzero hff, Decoded.bad]

/-- At most one wrong bit: the word reads as it was written, and is not uncorrectable. -/
theorem decode72_atMostOneWrong (w : Word64) {e : Raw72} (he : e = 0 ∨ ∃ i < 72, e = 1#72 <<< i) :
    (decode72 (encode72 w ^^^ e)).word = w ∧ (decode72 (encode72 w ^^^ e)).bad = false := by
  rcases he with rfl | ⟨i, hi, rfl⟩
  · have h : encode72 w ^^^ 0 = encode72 w := BitVec.xor_zero
    rw [h, decode72_encode72]
    exact ⟨rfl, rfl⟩
  · rw [decode72_oneWrong w hi]
    exact ⟨rfl, rfl⟩

/-! ### Lines -/

theorem decodeLine_getD (r : RawLine) (w : Fin 8) (x : Decoded) : (decodeLine r).getD w.val x = decode72 r[w] := by
  simp [decodeLine]

theorem wordMask_eq_zero {ds : List Decoded} {f : Decoded → Bool} (h : ∀ w : Fin 8, f (ds.getD w.val (.clean 0)) = false) :
    wordMask ds f = 0 := by
  rw [wordMask_eq_bitSum, bitSum_eq_zero fun w hw => h ⟨w, hw⟩]
  rfl

/-- A word of a line without poison that is read with wrong bits. -/
theorem flipLine_encodeLine_getElem (d : Line) (flips : RawLine) (w : Fin 8) :
    (flipLine (encodeLine d 0) flips)[w] = encode72 d[w] ^^^ flips[w] := by
  simp [flipLine, encodeLine]

end Sys2Proof.Machine
end

section
/-! O44. The code of the DRAM words corrects one wrong bit and detects two. -/
namespace Sys2Proof.Machine
open Sys2Proof

/-- Settles O44: the decoder by the syndrome, case by case, and the syndrome as the sum of the columns of the bits that are wrong, which are
odd and differ. -/
theorem secdedCorrectsOneDetectsTwo : Obligations.SecdedCorrectsOneDetectsTwo := by
  unfold Obligations.SecdedCorrectsOneDetectsTwo
  refine ⟨by decide, fun w j hj => ?checks, fun r => ⟨rfl, decode72_clean, fun j hj h => decode72_check hj h,
    fun i hi h => decode72_data hi h, fun hodd hone hcols => ?odd, decode72_poison, decode72_even⟩, decode72_encode72,
    fun w i hi => decode72_oneWrong w hi, fun w i j hi hj hne => decode72_twoWrong w hi hj hne, ?poison, fun d flips hflips => ?line⟩
  case checks =>
    rw [checkBits, checkFrom_getLsbD w 0 secdedCols hj, length_secdedCols]
    simp
  case odd => exact decode72_odd hodd hone hcols
  case poison => exact decode72_poison (by decide)
  case line =>
    have hword (w : Fin 8) := decode72_atMostOneWrong d[w] (hflips w)
    have hget (w : Fin 8) (x : Decoded) :
        (decodeLine (flipLine (encodeLine d 0) flips)).getD w.val x = decode72 (encode72 d[w] ^^^ flips[w]) := by
      rw [decodeLine_getD, flipLine_encodeLine_getElem]
    refine ⟨?_, wordMask_eq_zero fun w => by rw [hget]; exact (hword w).2⟩
    ext1 k hk
    rw [decodedData, Vector.getElem_ofFn, hget ⟨k, hk⟩]
    exact (hword ⟨k, hk⟩).1

end Sys2Proof.Machine
end

section
/-! SUPPORT. What the commands that begin or end the work of an engine do on payloads in their bounds, while the engine may take them
(R349 to R351, R372, R404, R411, R413, R465 to R482, R757). -/
namespace Sys2Proof.Machine
open Sys2Proof

theorem leNat_lt (bs : List Byte) : leNat bs < 256 ^ bs.length := by
  induction bs with
  | nil => exact Nat.one_pos
  | cons b bs ih =>
    have hb := b.isLt
    rw [leNat, List.length_cons, Nat.pow_succ]
    omega

theorem leAt_lt (bs : List Byte) (lo n : Nat) : leAt bs lo n < 256 ^ n :=
  (leNat_lt _).trans_le (Nat.pow_le_pow_right (by decide) (List.length_take_le _ _))

theorem forUpto_congr {n : Nat} {f g : Nat → State → State} (h : ∀ i < n, f i = g i) (s : State) : forUpto n f s = forUpto n g s := by
  induction n with
  | zero => rfl
  | succ n ih => rw [forUpto_succ, forUpto_succ, ih fun i hi => h i (by omega), h n (Nat.lt_succ_self n)]

/-! ### Repair -/

section
variable {m : Nat} {pl : List Byte} {s : State}

/-- ROW_SPARE of a row of a pavilion that serves (R757): answered when its copy is done, or at once with why none is queued. -/
theorem opRowSpare_queue {l : Loc} (ha : leAt pl 0 8 < 2 ^ 37) (hl : s.locate (leAt pl 0 8) = some l)
    (hserves : s.on (Fld.PAV_REPAIR_STAT_RETIRED l.pav) = false) : opRowSpare m pl s =
      (let r := queueCopy l.pav l.bank l.row (some m) s
       if r.1 = 0 then r.2 else r.2.finish m ccOk [BitVec.ofNat 8 r.1]) := by
  rw [opRowSpare, if_neg (Nat.not_le.2 ha), hl]
  simp only [hserves, Bool.false_eq_true, if_false]

/-- The entries that SPARE_COMMIT writes to the repair map: the rows spared in the pavilions named, then those pavilions retired, since the
start (R372). -/
def spareEntries (s : State) (p : Nat) : List Nat :=
  (if p = 255 then (List.range 32).flatMap (fun q => s.runtimeSpares q) else s.runtimeSpares p) ++
    s.retiredEntries (fun q => p == 255 || p == q)

/-- The first words of the repair map that are blank, as many as asked for where there are (R607). -/
def blankWords (s : State) (n : Nat) : List Nat := ((List.range 6144).filter (fun i => s.otp.rawAt (0x480 + i) == 0)).take n

theorem opSpareCommit_starts (hp : leAt pl 0 1 < 32 ∨ leAt pl 0 1 = 255) (hcheck : s.progCheck m [] false none = none)
    (hroom : (blankWords s (spareEntries s (leAt pl 0 1)).length).length = (spareEntries s (leAt pl 0 1)).length)
    (hany : spareEntries s (leAt pl 0 1) ≠ []) : opSpareCommit m pl s =
      progStart (some m) 0x0422 (((spareEntries s (leAt pl 0 1)).zip (blankWords s (spareEntries s (leAt pl 0 1)).length)).map
        (fun e => .word (0x480 + e.2) (BitVec.ofNat 32 e.1))) 0 0 s := by
  rw [opSpareCommit, if_neg (by omega), hcheck]
  exact (if_neg (Nat.not_lt.2 hroom.ge)).trans (if_neg fun h => hany (List.isEmpty_iff.1 h))

/-! ### Bulk -/

theorem opFill_starts (h64 : leAt pl 0 8 % 64 = 0) (hrange : s.rangeBad (leAt pl 0 8) (leAt pl 8 8) = false) (hmark : leAt pl 24 1 ≤ 1) :
    opFill m pl s = bulkStart m
      { copy := false, mbx := m, start := leAt pl 0 8, dst := leAt pl 0 8, lines := leAt pl 8 8 / 64,
        pattern := BitVec.ofNat 64 (leAt pl 16 8), mark := leAt pl 24 1 == 1, issued := 0, written := 0,
        skipped := 0, poisoned := 0, flying := 0, marks := [], readBack := [], ending := none } s := by
  rw [opFill, if_neg (not_not.2 h64), hrange, if_neg Bool.false_ne_true, if_neg (by omega)]

/-- COPY of a range onto another that it does not meet (R350). -/
theorem opCopy_starts (hsrc : leAt pl 0 8 % 64 = 0) (hdst : leAt pl 8 8 % 64 = 0)
    (hfrom : s.rangeBad (leAt pl 0 8) (leAt pl 16 8) = false) (hto : s.rangeBad (leAt pl 8 8) (leAt pl 16 8) = false)
    (hapart : leAt pl 8 8 + leAt pl 16 8 ≤ leAt pl 0 8 ∨ leAt pl 0 8 + leAt pl 16 8 ≤ leAt pl 8 8) :
    opCopy m pl s = bulkStart m
      { copy := true, mbx := m, start := leAt pl 0 8, dst := leAt pl 8 8, lines := leAt pl 16 8 / 64, pattern := 0,
        mark := false, issued := 0, written := 0, skipped := 0, poisoned := 0, flying := 0,
        marks := [], readBack := [], ending := none } s := by
  rw [opCopy, if_neg (not_not.2 hsrc), if_neg (not_not.2 hdst), hfrom, hto, Bool.or_self, if_neg Bool.false_ne_true, if_neg (by omega)]

/-! ### Tests -/

/-- SWEEP_START (R404): the sweep's registers, and its first slices due at once. -/
theorem opSweepStart_sweeps (htests : s.testRuns = false) (hopen : s.pavsClosed = false) : opSweepStart m pl s =
    (let u := ((s.wr Fld.GLB_BIST_SWEEP_INTERVAL (leAt pl 4 2)).wr Fld.GLB_BIST_SWEEP_MASK (leAt pl 0 4)).wr Fld.GLB_BIST_CTRL_SWEEP 1
     ({ u with test := { u.test with sweepMask := BitVec.ofNat 32 (leAt pl 0 4), sweepLeft := 0 } }).finish m ccOk []) := by
  rw [opSweepStart, htests, hopen, Bool.or_self, if_neg Bool.false_ne_true]

/-- SLICE_ROW of a row whose pavilion serves: the slice waits for its slot. -/
theorem opSliceRow_waits {l : Loc} (ha : leAt pl 0 8 < 2 ^ 37) (hl : s.locate (leAt pl 0 8) = some l)
    (hserves : s.on (Fld.PAV_REPAIR_STAT_RETIRED l.pav) = false) (hsaves : s.on (Fld.PAV_BIST_STAT_SAVE_FAULT l.pav) = false)
    (hopen : s.pavsClosed = false) (hnone : (s.pav l.pav).rowTest = none) :
    opSliceRow m pl s = s.modPav l.pav (fun v => { v with rowTest := some (l.bank, l.row, m) }) := by
  rw [opSliceRow, if_neg (Nat.not_le.2 ha), hl]
  simp [hserves, hsaves, hopen, hnone]

theorem opParkStart_begins (hk : leAt pl 0 1 ≤ 2 ∨ leAt pl 0 1 = 255) (hpolicy : s.test.parkPolicy = 256)
    (hboot : s.power.boot = .done) (hopen : s.pavsClosed = false) :
    opParkStart m pl s = quietStep (beginPark (leAt pl 0 1) (some m) s) := by
  rw [opParkStart, if_neg (by omega)]
  simp [hpolicy, hboot, hopen]

/-! ### Calibration -/

/-- LANE_RETUNE of a port that is up: it begins at the port's next step (R465). -/
theorem opLaneRetune_up (hn : leAt pl 0 1 ≤ 15) (hrole : s.role (leAt pl 0 1) ≠ 2) (hport : s.portEnabled (leAt pl 0 1) = true)
    (hdown : (s.port (leAt pl 0 1)).markedDown = false) (htests : s.testRuns = false) (hwork : s.workable? = true)
    (hnone : (s.port (leAt pl 0 1)).retune = none) (hlink : (s.port (leAt pl 0 1)).train.hasLink = true)
    (hup : s.up (leAt pl 0 1) = true) : opLaneRetune m pl s =
      (s.modPort (leAt pl 0 1) (fun p => { p with retune := some m })).wr (Fld.PRT_CAL_STAT_STATE (leAt pl 0 1)) 1 := by
  have hstays : ((s.modPort (leAt pl 0 1) (fun p => { p with retune := some m })).wr (Fld.PRT_CAL_STAT_STATE (leAt pl 0 1)) 1).up
      (leAt pl 0 1) = true := by
    have hlinkState : (Fld.PRT_LINK_STAT_STATE (leAt pl 0 1)).off ≠ (Fld.PRT_CAL_STAT_STATE (leAt pl 0 1)).off := by
      simp only [Fld.PRT_LINK_STAT_STATE, Fld.PRT_CAL_STAT_STATE]
      omega
    rw [State.up, State.link, State.rd_wr_ne _ _ _ _ hlinkState]
    exact hup
  simp [opLaneRetune, Nat.not_lt.2 hn, hrole, hport, hdown, htests, hwork, hnone, hlink, hstays]

/-- The lanes of a port that a mask names begin an eye scan, at its first point (R468). -/
def scansBegun (n mask : Nat) (s : State) : State :=
  forUpto 8 (fun p a => if bitAt mask p then
    (a.modLane n p (fun l => { l with scan := some (0, []), marginHeld := none, winFrom := none })).wr (Fld.PRT_LANE_EYE_ABORT n p) 0
  else a) s

/-- No lane counts as aborted where every lane that is selected begins its scan. -/
theorem scansBegun_of_selected {go mask : Nat} (h : ∀ p < 8, bitAt mask p = true → bitAt go p = true) (n : Nat) (s : State) :
    forUpto 8 (fun p a =>
      if bitAt go p then
        (a.modLane n p (fun l => { l with scan := some (0, []), marginHeld := none, winFrom := none })).wr (Fld.PRT_LANE_EYE_ABORT n p) 0
      else if bitAt mask p then (a.wr (Fld.PRT_LANE_EYE_ABORT n p) 1).raise (968 + 25) n
      else a) s = scansBegun n go s := by
  refine forUpto_congr (fun p hp => funext fun a => ?_) s
  cases hgo : bitAt go p
  · have hmask : bitAt mask p = false := Bool.eq_false_iff.2 fun hb => by simp [h p hp hb] at hgo
    simp [hmask]
  · rfl

/-- Scans that begin leave what the port's calibration shows. -/
theorem scansBegun_calState (n mask k : Nat) (s : State) :
    (scansBegun n mask s).rd (Fld.PRT_CAL_STAT_STATE k) = s.rd (Fld.PRT_CAL_STAT_STATE k) := by
  refine forUpto_induction (P := fun a => a.rd (Fld.PRT_CAL_STAT_STATE k) = s.rd (Fld.PRT_CAL_STAT_STATE k)) _ _ s rfl fun p a hp ha => ?_
  split
  · rw [State.rd_wr_ne _ _ _ _ (by simp only [Fld.PRT_CAL_STAT_STATE, Fld.PRT_LANE_EYE_ABORT]; omega)]
    exact ha
  · exact ha

theorem scansBegun_now (n mask : Nat) (s : State) : (scansBegun n mask s).now = s.now := by
  refine forUpto_induction (P := fun a => a.now = s.now) _ _ s rfl fun p a _ ha => ?_
  split
  · exact ha
  · exact ha

/-- EYE_SCAN of lanes that are active, while the port's calibration shows another work. -/
theorem opEyeScan_scans (hn : leAt pl 0 1 ≤ 15) (hmask : leAt pl 1 1 ≠ 0) (hrole : s.role (leAt pl 0 1) ≠ 2)
    (hport : s.portEnabled (leAt pl 0 1) = true) (htests : s.testRuns = false) (hwork : s.workable? = true)
    (hidle : s.rd (Fld.PRT_CAL_STAT_SCANNING (leAt pl 0 1)) = 0)
    (hactive : ∀ p, p < 8 → bitAt (leAt pl 1 1) p = true → s.rd (Fld.PRT_LANE_STAT_STATE (leAt pl 0 1) p) = laActive)
    (hstate : s.rd (Fld.PRT_CAL_STAT_STATE (leAt pl 0 1)) ≠ 0) : opEyeScan m pl s =
      (let n := leAt pl 0 1
       let go := laneMask (fun p => bitAt (leAt pl 1 1) p)
       ((scansBegun n go s).wr (Fld.PRT_CAL_STAT_SCANNING n) go).modPort n (fun p => { p with scanMbx := some m, pointAt := s.now })) := by
  have hbusy : (List.range 8).any (fun p => bitAt (leAt pl 1 1) p && (s.rd (Fld.PRT_LANE_STAT_STATE (leAt pl 0 1) p) == laLoop ||
      s.rd (Fld.PRT_LANE_STAT_STATE (leAt pl 0 1) p) == laPrbs)) = false := by
    refine List.any_eq_false.2 fun p hp hb => ?_
    obtain ⟨hb, htest⟩ := Bool.and_eq_true_iff.1 hb
    rw [hactive p (List.mem_range.1 hp) hb] at htest
    exact absurd htest (by decide)
  have hgo : laneMask (fun p => bitAt (leAt pl 1 1) p && s.rd (Fld.PRT_LANE_STAT_STATE (leAt pl 0 1) p) == laActive) =
      laneMask (fun p => bitAt (leAt pl 1 1) p) :=
    bitSum_and_of_imp fun p hp hb => beq_iff_eq.2 (hactive p hp hb)
  have hnonzero : laneMask (fun p => bitAt (leAt pl 1 1) p) ≠ 0 := bitSum_bitAt_ne_zero (leAt_lt pl 1 1) hmask
  have hselected : ∀ p < 8, bitAt (leAt pl 1 1) p = true → bitAt (laneMask (fun p => bitAt (leAt pl 1 1) p)) p = true :=
    fun p hp hb => (bitAt_bitSum hp).trans hb
  simp only [opEyeScan, hbusy, hgo, htests, hwork, hidle]
  rw [if_neg (Nat.not_lt.2 hn), if_neg hmask, if_neg (by simp [hrole, hport]), if_neg (by decide), if_neg hnonzero,
    scansBegun_of_selected hselected, State.rd_wr_disj _ (Fld.PRT_CAL_STAT_SCANNING _) _ _
    (show 16 + 8 ≤ 32 by decide) (.inr (show 0 + 2 ≤ 16 by decide)), scansBegun_calState, if_neg hstate,
    State.wr_now, scansBegun_now]

/-- TSV_CAL of pavilions that serve and calibrate nothing (R472). -/
theorem opTsvCal_begins (h1 : 1 ≤ leAt pl 4 1) (h15 : leAt pl 4 1 ≤ 15) (htests : s.testRuns = false) (hwork : s.workable? = true)
    (hpavs : ∀ p, p < 32 → bitAt (leAt pl 0 4) p = true → (s.pav p).tsv = none ∧ s.on (Fld.PAV_REPAIR_STAT_RETIRED p) = false)
    (hmask : leAt pl 0 4 ≠ 0) : opTsvCal m pl s =
      (let u := forUpto 32 (fun p a => if bitAt (leAt pl 0 4) p then tsvBegin p (BitVec.ofNat 4 (leAt pl 4 1)) a else a) s
       { u with tsvCmds := u.tsvCmds ++ [{ mbx := m, left := BitVec.ofNat 32 (leAt pl 0 4), low := 0, aborted := 0 }] }) := by
  have hbusy : ((List.range 32).any fun p => bitAt (leAt pl 0 4) p && (s.pav p).tsv.isSome) = false := by
    refine List.any_eq_false.2 fun p hp hb => ?_
    rw [Bool.and_eq_true] at hb
    rw [(hpavs p (List.mem_range.1 hp) hb.1).1] at hb
    exact absurd hb.2 (by decide)
  have hdead : bitSum (fun p => bitAt (leAt pl 0 4) p && s.on (Fld.PAV_REPAIR_STAT_RETIRED p)) 32 = 0 :=
    bitSum_eq_zero fun p hp => Bool.and_eq_false_imp.2 fun hb => (hpavs p hp hb).2
  rw [bitSum] at hdead
  simp only [opTsvCal, hbusy, hdead, htests, hwork]
  rw [if_neg (by omega), if_neg (by decide), Nat.sub_zero, if_neg hmask]
  rfl

/-- Opcode 0x0704 is TSV_CAL. By rewriting: by `rfl` the kernel would compare the two sides with the loops of TSV_CAL unfolded. -/
theorem runOp_tsvCal : runOp m 0x0704 pl s = opTsvCal m pl s := by
  simp [runOp]

/-- SENSOR_CAL of a reference in its bounds, while no other runs (R478). -/
theorem opSensorCal_begins (h24 : leAt pl 0 4 < 2 ^ 24) (hmask : leAt pl 0 4 ≠ 0) (hlo : -320 ≤ signed (leAt pl 4 2) 16)
    (hhi : signed (leAt pl 4 2) 16 ≤ 1000) (hcal : s.therm.cal = none) : opSensorCal m pl s =
      { s with therm := { s.therm with cal := some { mbx := m, mask := BitVec.ofNat 24 (leAt pl 0 4), ref := signed (leAt pl 4 2) 16,
                                                     sums := [], counts := [], set_ := 0, clamped := 0 } } } := by
  rw [opSensorCal, if_neg (Nat.not_le.2 h24)]
  simp only [hcal]
  rw [if_neg (by omega), if_neg (by decide), if_neg hmask]

theorem opCalAbort_aborts (hk : leAt pl 0 1 ≤ 1) (hu : leAt pl 1 1 ≤ (if leAt pl 0 1 = 0 then 15 else 31)) : opCalAbort m pl s =
    (if leAt pl 0 1 = 0 then calAbortPort (leAt pl 1 1) s else abortTsv (leAt pl 1 1) s).finish m ccOk [] := by
  have hunit : ¬ ((leAt pl 0 1 = 0 ∧ 15 < leAt pl 1 1) ∨ 31 < leAt pl 1 1) := by
    split at hu <;> omega
  rw [opCalAbort, if_neg (Nat.not_lt.2 hk), if_neg hunit]

end

end Sys2Proof.Machine
end

section
/-! O13. The commands that begin or end the work of the repair, bulk, test and calibration engines. -/
namespace Sys2Proof.Machine
open Sys2Proof

/-- Settles O13: each row is accepted and runs its opcode (`exec_accepted`), whose bounds hold and whose engine may take the work. -/
theorem engineCommandsBegin : Obligations.EngineCommandsBegin := by
  unfold Obligations.EngineCommandsBegin
  exact fun m pl s => ⟨fun l h ha hl hserves => exec_accepted rfl h (opRowSpare_queue ha hl hserves),
    fun h hp hcheck hroom hany => exec_accepted rfl h (opSpareCommit_starts hp hcheck hroom hany),
    fun h h64 hrange hmark => exec_accepted rfl h (opFill_starts h64 hrange hmark),
    fun h hsrc hdst hfrom hto hapart => exec_accepted rfl h (opCopy_starts hsrc hdst hfrom hto hapart),
    fun h => exec_accepted rfl h rfl,
    fun h htests hopen => exec_accepted rfl h (opSweepStart_sweeps htests hopen),
    fun h => exec_accepted rfl h rfl,
    fun l h ha hl hserves hsaves hopen hnone => exec_accepted rfl h (opSliceRow_waits ha hl hserves hsaves hopen hnone),
    fun h hk hpolicy hboot hopen => exec_accepted rfl h (opParkStart_begins hk
      ((congrArg Test.parkPolicy (State.taken_test ..)).trans hpolicy) ((congrArg Power.boot (State.taken_power ..)).trans hboot) hopen),
    fun h hn hrole hport hdown htests hwork hnone hlink hup =>
      exec_accepted rfl h (opLaneRetune_up hn hrole hport hdown htests hwork hnone hlink hup),
    fun h hn hmask hrole hport htests hwork hidle hactive hstate =>
      exec_accepted rfl h (opEyeScan_scans hn hmask hrole hport htests hwork hidle hactive hstate),
    fun h h1 h15 htests hwork hpavs hmask => exec_accepted rfl h (runOp_tsvCal.trans (opTsvCal_begins h1 h15 htests hwork hpavs hmask)),
    fun h h24 hmask hlo hhi hcal =>
      exec_accepted rfl h (opSensorCal_begins h24 hmask hlo hhi ((congrArg Thermal.cal (State.taken_therm ..)).trans hcal)),
    fun h hk hu => exec_accepted rfl h (opCalAbort_aborts hk hu)⟩

end Sys2Proof.Machine
end

section
/-! SUPPORT. What the commands that store bytes or raw words from outside do on payloads in their bounds (R410, R415, R418, R419, R521,
R524). -/
namespace Sys2Proof.Machine
open Sys2Proof

/-! ### Bytes that are stored -/

/-- A table of bytes with a string put in from an index on. -/
def bytesPut (o : Nat) (bs : List Byte) (t : Tab Byte) : Tab Byte := bs.zipIdx.foldl (fun t e => tabSet 0 t (o + e.2) e.1) t

theorem tabGet_bytesPut (o : Nat) (bs : List Byte) (t : Tab Byte) (k : Nat) :
    tabGet 0 (bytesPut o bs t) k = if o ≤ k ∧ k < o + bs.length then bs.getD (k - o) 0 else tabGet 0 t k := by
  induction bs using List.reverseRecOn with
  | nil => simp [bytesPut]
  | append_singleton bs b ih =>
    have hput : bytesPut o (bs ++ [b]) t = tabSet 0 (bytesPut o bs t) (o + bs.length) b := by
      simp [bytesPut, List.zipIdx_append]
    rw [hput, List.length_append, List.length_singleton]
    by_cases hk : k = o + bs.length
    · subst hk
      rw [tabGet_tabSet_same, if_pos (by omega), Nat.add_sub_cancel_left]
      simp
    · rw [tabGet_tabSet_ne _ _ _ _ hk, ih]
      by_cases hin : o ≤ k ∧ k < o + bs.length
      · rw [if_pos hin, if_pos (by omega), List.getD_append _ _ _ _ (by omega)]
      · rw [if_neg hin, if_neg (by omega)]

/-- The bytes that CERT_LOAD and FW_LOAD store: those of the payload from byte 8 on, and zeros for those it lacks (R419, R524). -/
def loadedBytes (pl : List Byte) (n : Nat) : List Byte := (pl.drop 8).take n ++ zeros (n - (pl.drop 8).length)

theorem length_loadedBytes (pl : List Byte) (n : Nat) : (loadedBytes pl n).length = n := by
  simp only [loadedBytes, zeros, List.length_append, List.length_take, List.length_replicate]
  omega

theorem getD_loadedBytes (pl : List Byte) {n i : Nat} (hi : i < n) : (loadedBytes pl n).getD i 0 = (pl.drop (8 + i)).headD 0 := by
  have htail : (pl.drop (8 + i)).headD 0 = (pl.drop 8).getD i 0 := by
    rw [← List.drop_drop, List.headD_eq_head?_getD, List.head?_drop, List.getD_eq_getElem?_getD]
  rw [htail, loadedBytes]
  by_cases hl : i < (pl.drop 8).length
  · rw [List.getD_append _ _ _ _ (by rw [List.length_take]; omega), List.getD_eq_getElem?_getD, List.getElem?_take_of_lt hi,
      List.getD_eq_getElem?_getD]
  · rw [List.getD_append_right _ _ _ _ (by rw [List.length_take]; omega), List.getD_eq_default _ _ (Nat.le_of_not_lt hl), zeros,
      List.getD_eq_getElem?_getD, List.getElem?_replicate]
    split
    · rfl
    · rfl

theorem tabGet_loaded (o n : Nat) (pl : List Byte) (t : Tab Byte) (k : Nat) : tabGet 0 (bytesPut o (loadedBytes pl n) t) k =
    if o ≤ k ∧ k < o + n then (pl.drop (8 + (k - o))).headD 0 else tabGet 0 t k := by
  rw [tabGet_bytesPut, length_loadedBytes]
  split
  · next h => exact getD_loadedBytes pl (by omega)
  · rfl

/-! ### The commands -/

section
variable {m : MbxId} {pl : List Byte} {s : State}

/-- CERT_LOAD while certificates are taken (R419). -/
theorem opCertLoad_stores (h1 : 1 ≤ leAt pl 4 2) (h448 : leAt pl 4 2 ≤ 448) (hend : leAt pl 0 4 + leAt pl 4 2 ≤ 20672)
    (hopen : s.certOpen = true) : opCertLoad m pl s = State.finish { s with test := { s.test with
      certBytes := bytesPut (leAt pl 0 4) (loadedBytes pl (leAt pl 4 2)) s.test.certBytes } } m ccOk [] := by
  simp only [opCertLoad]
  rw [if_neg (by omega), if_neg (by omega), if_neg (by simp [hopen])]
  rfl

/-- CERT_SUBMIT while certificates are taken (R410, R415). -/
theorem opCertSubmit_submits (hpol : leAt pl 2 1 ≤ 2 ∨ leAt pl 2 1 = 255) (hopen : s.certOpen = true) : opCertSubmit m pl s =
    (let r := if leAt pl 0 2 = 0 then 5 else s.certCheck (leAt pl 0 2)
     State.finish { s with test := { s.test with submitted := some (leAt pl 0 2, leAt pl 2 1), certResult := r } } m ccOk
       [BitVec.ofNat 8 r]) := by
  simp only [opCertSubmit]
  rw [if_neg (by omega), if_neg (by simp [hopen])]

/-- FW_LOAD while no image is being switched to (R524). -/
theorem opFwLoad_stores (h1 : 1 ≤ leAt pl 4 2) (h448 : leAt pl 4 2 ≤ 448) (hend : leAt pl 0 4 + leAt pl 4 2 ≤ 786432)
    (hswitch : s.switch = none) : opFwLoad m pl s = State.finish { s with
      staging := bytesPut (leAt pl 0 4) (loadedBytes pl (leAt pl 4 2)) s.staging
      stagingHigh := max s.stagingHigh (leAt pl 0 4 + leAt pl 4 2) } m ccOk [] := by
  simp only [opFwLoad]
  rw [if_neg (by omega), if_neg (by omega), if_neg (by simp [hswitch])]
  rfl

/-- FW_ACTIVATE while no test, no programming, no switch and no other command runs (R521, R522). -/
theorem opFwActivate_switches (h1 : leAt pl 0 1 ≤ 1) (hlen : leAt pl 0 1 = 0 → 1 ≤ leAt pl 4 4 ∧ leAt pl 4 4 ≤ 786432)
    (htests : s.testRuns = false) (hotp : s.otpBusy = false) (hswitch : s.switch = none)
    (hidle : ∀ k, k < 18 → k ≠ m.val → s.rd (Fld.MBX_STAT_STATE k) ≠ mbRunning ∧ s.rd (Fld.MBX_STAT_STATE k) ≠ mbAborting) :
    opFwActivate m pl s =
      (let w : Switch := { mbx := m, staged := leAt pl 0 1 == 0, len := leAt pl 4 4, prevImage := s.rd Fld.GLB_FW_STAT_IMAGE,
                           verified := leAt pl 0 1 == 1 }
       ((({ (if leAt pl 0 1 = 1 then coreStart s else s) with switch := some w }).raise (968 + 1) (leAt pl 0 1)).wr
         Fld.GLB_FW_STAT_IMAGE 3).wr Fld.GLB_FW_STAT_READY 0) := by
  have hany : ((List.range 18).any fun k => k != m.val && (s.rd (Fld.MBX_STAT_STATE k) == mbRunning ||
      s.rd (Fld.MBX_STAT_STATE k) == mbAborting)) = false := by
    refine List.any_eq_false.2 fun k hk hb => ?_
    obtain ⟨hne, hstate⟩ := Bool.and_eq_true_iff.1 hb
    obtain ⟨hrun, habort⟩ := hidle k (List.mem_range.1 hk) (bne_iff_ne.1 hne)
    rcases Bool.or_eq_true_iff.1 hstate with h | h
    · exact hrun (beq_iff_eq.1 h)
    · exact habort (beq_iff_eq.1 h)
  simp only [opFwActivate, hany, htests, hotp, hswitch]
  rw [if_neg (by omega), if_neg (by omega), if_neg (by decide)]

/-- ARRAY_TEST while pavilions take work: the rows hold the background, and the number of failures is free (R418). -/
theorem opArrayTest_writes (hp : leAt pl 0 1 ≤ 31) (hb : leAt pl 1 1 ≤ 63) (hrows : leAt pl 2 2 + leAt pl 4 2 ≤ 32768)
    (hopen : s.pavsClosed = false) : opArrayTest m pl s =
      (let u := forUpto (leAt pl 4 2) (fun i a => forUpto 32 (fun c d => writePhys (leAt pl 0 1) (leAt pl 1 1)
         (a.physOf (leAt pl 0 1) (leAt pl 1 1) (leAt pl 2 2 + i)) c
         (Vector.replicate 8 (bgWord (s.rd Fld.GLB_BIST_CTRL_BG == 1) c)) d) a) s
       State.finish { u with freeIdx := u.freeIdx + 1 } m ccOk
         (leBytes 2 ((Config.freeBits u.freeIdx).toNat % (leAt pl 4 2 + 1)))) := by
  simp only [opArrayTest]
  rw [if_neg (by omega), if_neg (by omega), if_neg (by omega), if_neg (by simp [hopen])]
  rfl

/-- ARRAY_RAW_WRITE while pavilions take work (R418). -/
theorem opArrayRawWrite_writes (hplace : rawBad pl = none) (hopen : s.pavsClosed = false) : opArrayRawWrite m pl s =
    (forUpto 8 (fun w a => setRawWord (leAt pl 0 1) (leAt pl 1 1) (leAt pl 2 2) (leAt pl 4 1) w
      (BitVec.ofNat 72 (leAt pl (8 + 9 * w) 9)) a) s).finish m ccOk [] := by
  simp only [opArrayRawWrite, hplace]
  rw [if_neg (by simp [hopen])]

end

end Sys2Proof.Machine
end

section
/-! O14. The commands that store bytes or raw words from outside. -/
namespace Sys2Proof.Machine
open Sys2Proof

/-- Settles O14: each row is accepted and runs its opcode (`exec_accepted`), whose bounds hold and whose engine takes the work; what is
loaded reads back byte by byte (`tabGet_loaded`). -/
theorem loadingCommandsStore : Obligations.LoadingCommandsStore := by
  unfold Obligations.LoadingCommandsStore
  refine fun m pl s => ⟨fun h h1 h448 hend hopen => ?_, fun h hpol hopen => exec_accepted rfl h (opCertSubmit_submits hpol hopen),
    fun h h1 h448 hend hswitch => ?_,
    fun h h1 hlen htests hotp hswitch hidle => exec_accepted rfl h (opFwActivate_switches h1 hlen htests hotp hswitch hidle),
    fun h hp hb hrows hopen => ⟨_, exec_accepted rfl h (opArrayTest_writes hp hb hrows hopen), rfl⟩,
    fun h hplace hopen => exec_accepted rfl h (opArrayRawWrite_writes hplace hopen)⟩
  · refine ⟨_, exec_accepted rfl h (opCertLoad_stores h1 h448 hend hopen), fun k => ?_, rfl⟩
    rw [State.taken_test]
    exact tabGet_loaded _ _ _ _ _
  · refine ⟨_, exec_accepted rfl h (opFwLoad_stores h1 h448 hend ((State.taken_switch ..).trans hswitch)), fun k => ?_, ?_⟩
    · rw [State.taken_staging]
      exact tabGet_loaded _ _ _ _ _
    · rw [State.taken_stagingHigh]

end Sys2Proof.Machine
end

section
/-! SUPPORT. A row of the DRAM that is restored line by line reads as it was saved (R391), whatever column groups serve its bank: within
one row no two of them share a cell (R365). -/
namespace Sys2Proof.Machine
open Sys2Proof

section
variable {p bank phys col w col' w' : Nat} {s : State}

/-- At one physical position each column group of a bank has a cell of its own. -/
theorem spareColCell_inj_group {g g' : Nat} (he : spareColCell p bank g phys = spareColCell p bank g' phys) : g = g' := by
  unfold spareColCell at he
  omega

theorem readWord_writeWord_inRow_same (h : InDram p bank phys col w) (v : Raw72) :
    (writeWord p bank phys col w v s).readWord p bank phys col w = v := by
  have hraw : (writeWord p bank phys col w v s).rawWord p bank phys col w = v := by
    rw [writeWord_eq, rawWord_putSpareBits h, rawWord_setRawWord_same]
  rw [State.readWord, hraw, colGroups_congr (by rw [writeWord_rest])]
  refine List.foldlRecOn (motive := fun x : Raw72 => x = v) _ _ rfl fun x hx g hg => ?_
  have hbit : ((writeWord p bank phys col w v s).cell (spareColCell p bank g.1 phys)).getLsbD w = v.getLsbD g.2 :=
    getLsbD_putSpareBits h.word (fun a ha b hb he => (colGroups_inj ha hb (spareColCell_inj_group he)).2) hg _
  rw [hx, hbit, bitPut_getLsbD]

theorem readWord_writeWord_inRow_ne (h : InDram p bank phys col w) (h' : InDram p bank phys col' w') (hne : (col', w') ≠ (col, w))
    (v : Raw72) : (writeWord p bank phys col w v s).readWord p bank phys col' w' = s.readWord p bank phys col' w' := by
  have hraw : (writeWord p bank phys col w v s).rawWord p bank phys col' w' = s.rawWord p bank phys col' w' := by
    rw [writeWord_eq, rawWord_putSpareBits h', rawWord_setRawWord_ne h h' (fun he => hne (by simp_all))]
  have hcell (g : Nat × Nat) (hg : g ∈ s.colGroups p bank col') :
      ((writeWord p bank phys col w v s).cell (spareColCell p bank g.1 phys)).getLsbD w' =
        (s.cell (spareColCell p bank g.1 phys)).getLsbD w' := by
    have hlt := wordIndex_lt_spare h
    have hset : (setRawWord p bank phys col w v s).cell (spareColCell p bank g.1 phys) = s.cell (spareColCell p bank g.1 phys) :=
      cell_setRawWord_ne v s (by unfold spareColCell; omega)
    rw [← hset, writeWord_eq]
    by_cases hw : w' = w
    · have hout (x : Nat × Nat) (hx : x ∈ s.colGroups p bank col) : spareColCell p bank g.1 phys ≠ spareColCell p bank x.1 phys :=
        fun he => hne (by rw [(colGroups_inj hg hx (spareColCell_inj_group he)).1, hw])
      rw [cell_putSpareBits_ne hout]
    · exact getLsbD_putSpareBits_ne h.word hw _ _
  rw [State.readWord, State.readWord, hraw, colGroups_congr (by rw [writeWord_rest])]
  exact List.foldl_ext _ _ _ fun x g hg => by rw [hcell g hg]

/-- The words of a line that are written so far read as they were written, all others of its row as before. -/
theorem readWord_writeWords_inRow (h : ∀ w < 8, InDram p bank phys col w) (h' : ∀ w < 8, InDram p bank phys col' w) (f : Nat → Raw72)
    (hw : w < 8) {n : Nat} (hn : n ≤ 8) :
    (forUpto n (fun w a => writeWord p bank phys col w (f w) a) s).readWord p bank phys col' w =
      if col' = col ∧ w < n then f w else s.readWord p bank phys col' w := by
  induction n with
  | zero => rw [if_neg (by omega)]; rfl
  | succ n ih =>
    rw [forUpto_succ]
    by_cases hc : col' = col ∧ w = n
    · obtain ⟨rfl, rfl⟩ := hc
      rw [readWord_writeWord_inRow_same (h w hw), if_pos ⟨rfl, Nat.lt_succ_self w⟩]
    · rw [readWord_writeWord_inRow_ne (h n hn) (h' w hw) (fun he => hc (by simpa using he)), ih (Nat.le_of_succ_le hn)]
      congr 1
      exact propext ⟨fun ⟨h1, h2⟩ => ⟨h1, by omega⟩, fun ⟨h1, h2⟩ => ⟨h1, by omega⟩⟩

theorem readPhys_writePhys_inRow (h : ∀ w < 8, InDram p bank phys col w) (h' : ∀ w < 8, InDram p bank phys col' w) (v : RawLine) :
    (writePhys p bank phys col v s).readPhys p bank phys col' = if col' = col then v else s.readPhys p bank phys col' := by
  refine Vector.ext fun w hw => ?_
  rw [State.readPhys, Vector.getElem_ofFn, writePhys, readWord_writeWords_inRow h h' _ hw le_rfl]
  by_cases hc : col' = col
  · simp [hc, hw]
  · simp [hc, State.readPhys]

end

theorem restoreInto_append (p b phys : Nat) (save : List RawLine) (v : RawLine) (s : State) :
    restoreInto p b phys (save ++ [v]) s = writePhys p b phys save.length v (restoreInto p b phys save s) := by
  simp [restoreInto, List.zipIdx_append]

/-- A restored row reads as it was saved. -/
theorem readPhys_restoreInto {p b phys : Nat} (hp : p < 32) (hb : b < 64) (hphys : phys < 32832) {save : List RawLine}
    (hlen : save.length ≤ 32) (s : State) {c : Nat} (hc : c < save.length) :
    (restoreInto p b phys save s).readPhys p b phys c = save.getD c (Vector.replicate 8 0) := by
  induction save using List.reverseRecOn with
  | nil => exact absurd hc (Nat.not_lt_zero c)
  | append_singleton save v ih =>
    rw [List.length_append, List.length_singleton] at hlen hc
    have hplace {col : Nat} (hcol : col < 32) : ∀ w < 8, InDram p b phys col w := fun w hw => ⟨hp, hb, hphys, hcol, hw⟩
    rw [restoreInto_append, readPhys_writePhys_inRow (hplace (by omega)) (hplace (by omega))]
    split
    · next he => simp [he]
    · rw [ih (by omega) (by omega), List.getD_append _ _ _ _ (by omega)]

theorem restoreInto_rest (p b phys : Nat) (save : List RawLine) (s : State) :
    restoreInto p b phys save s = { s with dram := (restoreInto p b phys save s).dram } :=
  List.foldlRecOn (motive := fun u : State => u = { s with dram := u.dram }) _ _ rfl fun u hu _ _ => by rw [writePhys_rest, hu]

/-- What a line reads as goes by the cells and the column groups of its pavilion. -/
theorem readPhys_congr {s t : State} {p : Nat} (hc : ∀ a, t.cell a = s.cell a) (hcols : (t.pav p).cols = (s.pav p).cols)
    (b phys c : Nat) : t.readPhys p b phys c = s.readPhys p b phys c := by
  simp only [State.readPhys, State.readWord, State.rawWord, State.cells9, State.colGroups, hc, hcols]

end Sys2Proof.Machine
end

section
/-! SUPPORT. Slices that begin, end and are cut short, and the sweep's turn (R391, R393, R396, R398, R400, R403, R404). -/
namespace Sys2Proof.Machine
open Sys2Proof

/-! ### The beginning -/

/-- The slice of a row that begins: its row is saved, and none of its commands has issued (R391, R396). -/
def sliceBegun (s : State) (p b phys row : Nat) (spare : Bool) (why : SliceFor) : Slice :=
  { bank := b, phys := phys, row := row, isSpare := spare, why := why,
    save := (List.range 32).map (fun c => s.readPhys p b phys c), held := 0, heldAt := s.now, aborted := none,
    phase := 0, col := 0, half := false, yielded := true, checker := s.rd Fld.GLB_BIST_CTRL_BG == 1 }

/-- A pavilion whose slice has begun: what it was due for waits no longer. -/
def sliceClaimed (x : Slice) (v : Pav) : Pav := { v with
  slice := some x
  sliceDue := if x.why = .sweep then false else v.sliceDue
  rowTest := (match x.why with | .row _ => none | _ => v.rowTest) }

theorem exec_sliceStart {p : PavId} {b phys row : Nat} {spare : Bool} {why : SliceFor} {s : State} (hdue : (s.pav p).sliceDue = false)
    (hnext : s.sliceNext p = some (b, phys, row, spare, why)) (hmay : s.sliceMay p b why = true) (hturn : s.sliceTurn p = true) :
    exec (.sliceStart p) s = .next (s.modPav p (sliceClaimed (sliceBegun s p b phys row spare why))) := by
  show execSliceStart p s = _
  simp only [execSliceStart, hdue, Bool.false_and, Bool.false_eq_true, if_false, hnext, hmay, hturn, Bool.and_self, if_true]
  cases why <;> rfl

/-! ### The end -/

section
variable (p : Nat) (x : Slice) (s : State)

theorem sliceBank_rest : sliceBank p x s = { s with pavs := (sliceBank p x s).pavs } := by
  unfold sliceBank
  split
  · exact closeBank_rest _ _ _ _
  · rfl

theorem sliceBank_open : ((sliceBank p x s).bank p x.bank).open_ = none := by
  unfold sliceBank
  split
  · exact closeBank_open _ _ _ _
  · next h => exact Option.not_isSome_iff_eq_none.1 h

theorem closeBank_cols (b t : Nat) : ((closeBank p b t s).pav p).cols = (s.pav p).cols := by
  have hmod (f : Bank → Bank) : ((s.modBank p b f).pav p).cols = (s.pav p).cols := by
    rw [State.modBank, State.setBank, State.pav_modPav_same]
  unfold closeBank
  cases (s.bank p b).open_ with
  | none => exact hmod _
  | some r => simp only [rowClosed, State.pav_modPav_same, hmod]

theorem sliceBank_cols : ((sliceBank p x s).pav p).cols = (s.pav p).cols := by
  unfold sliceBank
  split
  · rw [closeBank_cols, State.modBank, State.setBank, State.pav_modPav_same]
  · rfl

/-- The sweep that moves on writes its position, and reports a wrap (R403, R421). -/
theorem sweepStep_cases (k : Nat) : (∃ v, sweepStep p k s = s.wr (Fld.PAV_BIST_POS_K p) v) ∨
    sweepStep p k s = ((s.wr (Fld.PAV_BIST_POS_K p) 0).sat (Fld.PAV_BIST_POS_PASSES p)).raiseOnce (1008 + 5) p := by
  unfold sweepStep
  split
  · exact .inl ⟨_, rfl⟩
  · exact .inr rfl

theorem sweepStep_regsKept (k : Nat) : RegsKept s (sweepStep p k s) [Off.PAV_BIST_POS p] := by
  obtain ⟨v, h⟩ | h := sweepStep_cases p s k <;> rw [h]
  · exact (RegsKept.refl s _).wr (f := Fld.PAV_BIST_POS_K p) List.mem_cons_self v
  · exact (((RegsKept.refl s _).wr (f := Fld.PAV_BIST_POS_K p) List.mem_cons_self 0).wr (f := Fld.PAV_BIST_POS_PASSES p)
      List.mem_cons_self _).of_regs (State.raiseOnce_regs _ _ _)

theorem sweepStep_pavs (k : Nat) : (sweepStep p k s).pavs = s.pavs := by
  obtain ⟨v, h⟩ | h := sweepStep_cases p s k <;> rw [h]
  · rfl
  · rw [State.raiseOnce_pavs]
    rfl

theorem sweepStep_cell (k a : Nat) : (sweepStep p k s).cell a = s.cell a := by
  obtain ⟨v, h⟩ | h := sweepStep_cases p s k <;> rw [h]
  · rfl
  · rw [State.cell, State.raiseOnce_dram, State.raiseOnce_epoch]
    rfl

/-- A slice's row as the end of the slice leaves it, its bank closed and the slice gone (R391, R395). -/
def sliceGone : State := (sliceBank p x (restoreSlice p x s)).modPav p (fun v => { v with slice := none })

theorem sliceGone_slice : ((sliceGone p x s).pav p).slice = none := by rw [sliceGone, State.pav_modPav_same]

theorem sliceGone_open : ((sliceGone p x s).bank p x.bank).open_ = none := by
  rw [State.bank, sliceGone, State.pav_modPav_same]
  exact sliceBank_open p x _

theorem sliceGone_cols : ((sliceGone p x s).pav p).cols = ((restoreSlice p x s).pav p).cols := by
  rw [sliceGone, State.pav_modPav_same]
  exact sliceBank_cols p x _

theorem sliceGone_cell (a : Nat) : (sliceGone p x s).cell a = (restoreSlice p x s).cell a := by
  rw [sliceGone, sliceBank_rest]
  rfl

theorem sliceGone_regs : (sliceGone p x s).regs = s.regs := by
  rw [sliceGone, sliceBank_rest, State.modPav_regs, restoreSlice]
  split
  · rw [restoreInto_rest]
  · rfl

end

section
variable {p : Nat} {x : Slice} {s : State}

/-- The end of a sweep's slice that was not cut short: it counts as done, and the sweep moves on (R391, R403, R428). -/
theorem endSlice_sweep (hwhy : x.why = .sweep) (hend : x.aborted = none) (answer : Nat) :
    endSlice p x answer s = sweepStep p x.pos ((sliceGone p x s).sat (Fld.PAV_BIST_DONE_COUNT p)) := by
  simp only [endSlice, hwhy, hend, Option.isSome_none, Bool.false_eq_true, if_false]
  rfl

variable (hwhy : x.why = .sweep) (hend : x.aborted = none) (answer : Nat)
include hwhy hend

theorem endSlice_pav : (endSlice p x answer s).pav p = (sliceGone p x s).pav p := by
  rw [endSlice_sweep hwhy hend, State.pav, sweepStep_pavs]
  rfl

theorem endSlice_cell (a : Nat) : (endSlice p x answer s).cell a = (restoreSlice p x s).cell a := by
  rw [endSlice_sweep hwhy hend, sweepStep_cell]
  exact sliceGone_cell p x s a

/-- A slice whose March elements have not begun, or whose row is restored, leaves the DRAM as it is. -/
theorem endSlice_dramKept (hphase : x.phase = 9) : DramKept s (endSlice p x answer s) := by
  intro a
  rw [endSlice_cell hwhy hend, restoreSlice, if_neg (by omega)]

/-- A slice that ends amid its March elements gives its row back what it saved. -/
theorem endSlice_readPhys (h1 : 1 ≤ x.phase) (h7 : x.phase ≤ 7) (hlen : x.save.length = 32) (hp : p < 32) (hb : x.bank < 64)
    (hphys : x.phys < 32832) {c : Nat} (hc : c < 32) :
    (endSlice p x answer s).readPhys p x.bank x.phys c = x.save.getD c (Vector.replicate 8 0) := by
  have hcols : ((endSlice p x answer s).pav p).cols = ((restoreSlice p x s).pav p).cols := by
    rw [endSlice_pav hwhy hend, sliceGone_cols]
  rw [readPhys_congr (endSlice_cell hwhy hend answer) hcols, restoreSlice, if_pos ⟨h1, h7⟩]
  exact readPhys_restoreInto hp hb hphys (by omega) s (by omega)

theorem endSlice_doneCount : (endSlice p x answer s).rd (Fld.PAV_BIST_DONE_COUNT p) =
    min (2 ^ (Fld.PAV_BIST_DONE_COUNT p).w - 1) (s.rd (Fld.PAV_BIST_DONE_COUNT p) + 1) := by
  rw [endSlice_sweep hwhy hend, (sweepStep_regsKept p _ x.pos).rd
      (by simp only [Fld.PAV_BIST_DONE_COUNT, Off.PAV_BIST_POS, List.mem_singleton]; omega),
    State.rd_sat_same _ _ _ (by simp [Fld.PAV_BIST_DONE_COUNT]), State.rd_of_regs (sliceGone_regs p x s)]

end

theorem exec_sliceEnd_passed {p : PavId} {x : Slice} {s : State} (h : (s.pav p).slice = some x) :
    exec (.sliceEnd p .passed) s = .next (drainStep p (endSlice p x 0 (s.atLeast (s.sliceOver p x)))) := by
  show execSliceEnd p .passed s = _
  simp only [execSliceEnd, h]

theorem exec_sliceEnd_failed {p : PavId} {x : Slice} {s : State} (h : (s.pav p).slice = some x) (f : SliceFail) (ok : Bool) :
    exec (.sliceEnd p (.failed f ok)) s = .next (drainStep p
      (endSlice p x (sliceFailed p x f ok (s.atLeast (s.now + tPav * (161 + 136)))).1
        (sliceFailed p x f ok (s.atLeast (s.now + tPav * (161 + 136)))).2)) := by
  show execSliceEnd p (.failed f ok) s = _
  simp only [execSliceEnd, h]

/-! ### Slices cut short -/

/-- A slice cut short is the same slice, with the cause. -/
theorem Slice.cutShort_kept (x : Slice) (cause : Nat) (isOpen : Bool) (now : Nat) :
    (x.cutShort cause isOpen now).aborted = some cause ∧ (x.cutShort cause isOpen now).bank = x.bank ∧
    (x.cutShort cause isOpen now).phys = x.phys ∧ (x.cutShort cause isOpen now).save = x.save := by
  unfold Slice.cutShort
  dsimp only
  split_ifs <;> exact ⟨rfl, rfl, rfl, rfl⟩

theorem abortSlice_eq {p : Nat} {x : Slice} {s : State} (h : (s.pav p).slice = some x) (hend : x.aborted = none) (cause : Nat) :
    abortSlice p cause s = ((s.modPav p (fun v => { v with
      slice := some (x.cutShort cause (s.bank p x.bank).open_.isSome s.now) })).sat (Fld.PAV_BIST_CNT_ABORTED p)).raise
        (evPav p 16) cause := by
  simp only [abortSlice, h, hend, Option.isSome_none, Bool.false_eq_true, if_false]
  rfl

theorem exec_sliceWatchdog {p : PavId} {x : Slice} {s : State} (h : (s.pav p).slice = some x) (hend : x.aborted = none) :
    exec (.sliceWatchdog p) s = .next (abortSlice p 5 (s.atLeast (x.heldAt + tPav * (8192 - x.held)))) := by
  show execSliceWatchdog p s = _
  simp only [execSliceWatchdog, h, hend, Option.isSome_none, Bool.false_eq_true, if_false]

/-- A slice that is cut short is counted, its event raised, and nothing outside its pavilion changes (R399, R400). -/
theorem abortSlice_cuts {p : Nat} {x : Slice} {s : State} (h : (s.pav p).slice = some x) (hend : x.aborted = none) (cause : Nat) :
    let u := abortSlice p cause s
    ∃ y, (u.pav p).slice = some y ∧ y.aborted = some cause ∧ y.bank = x.bank ∧ y.phys = x.phys ∧ y.save = x.save ∧
      Raised u (evPav p 16) ∧
      u.rd (Fld.PAV_BIST_CNT_ABORTED p) = min (2 ^ (Fld.PAV_BIST_CNT_ABORTED p).w - 1) (s.rd (Fld.PAV_BIST_CNT_ABORTED p) + 1) ∧
      u.now = s.now ∧ RegsKept s u [Off.PAV_BIST_CNT p] ∧ PavsKept s u p := by
  obtain ⟨hcause, hbank, hphys, hsave⟩ := x.cutShort_kept cause (s.bank p x.bank).open_.isSome s.now
  refine ⟨x.cutShort cause (s.bank p x.bank).open_.isSome s.now, ?_, hcause, hbank, hphys, hsave, ?_, ?_, ?_, ?_, ?_⟩ <;>
    rw [abortSlice_eq h hend]
  · rw [State.raise_pav, State.sat_pav, State.pav_modPav_same]
  · exact State.raise_sets_out _ _ _
  · rw [State.raise_rd, State.rd_sat_same _ _ _ (by simp [Fld.PAV_BIST_CNT_ABORTED])]
    rfl
  · rw [State.raise_now]
    rfl
  · exact RegsKept.of_regs (RegsKept.wr (s := s.modPav p _) (fun _ _ => rfl) (f := Fld.PAV_BIST_CNT_ABORTED p) List.mem_cons_self _)
      (State.raise_regs _ _ _)
  · exact ((PavsKept.refl s p).modPav _).of_pavs ((State.raise_pavs _ _ _).trans (State.sat_pavs _ _ _))

/-! ### The sweep's turn -/

/-- A sweep's slice falls due in a pavilion that the sweep covers and that tests rows (R404). -/
def dueRound (p : Nat) (a : State) : State :=
  if a.test.sweepMask.getLsbD p && !a.on (Fld.PAV_REPAIR_STAT_RETIRED p) && !a.on (Fld.PAV_BIST_STAT_SAVE_FAULT p) then
    a.modPav p (fun v => { v with sliceDue := true })
  else a

theorem dueRound_rest (p : Nat) (a : State) : dueRound p a = { a with pavs := (dueRound p a).pavs } := by
  unfold dueRound
  split <;> rfl

theorem dueRound_pav_ne {p q : Nat} (h : p ≠ q) (a : State) : (dueRound p a).pav q = a.pav q := by
  unfold dueRound
  split
  · exact State.pav_modPav_ne a p _ (Ne.symm h)
  · rfl

theorem dueRound_sliceDue (p : Nat) (a : State) : ((dueRound p a).pav p).sliceDue = ((a.pav p).sliceDue ||
    (a.test.sweepMask.getLsbD p && !a.on (Fld.PAV_REPAIR_STAT_RETIRED p) && !a.on (Fld.PAV_BIST_STAT_SAVE_FAULT p))) := by
  unfold dueRound
  split
  · next h => rw [State.pav_modPav_same, h, Bool.or_true]
  · next h => rw [Bool.eq_false_iff.2 h, Bool.or_false]

theorem dueRounds_rest (s : State) : forUpto 32 dueRound s = { s with pavs := (forUpto 32 dueRound s).pavs } :=
  forUpto_induction (P := fun a => a = { s with pavs := a.pavs }) 32 dueRound s rfl fun i a _ ha => by
    rw [dueRound_rest]
    exact congrArg (fun u : State => { u with pavs := (dueRound i a).pavs }) ha

theorem dueRounds_sliceDue {q : Nat} (hq : q < 32) (s : State) : ((forUpto 32 dueRound s).pav q).sliceDue = ((s.pav q).sliceDue ||
    (s.test.sweepMask.getLsbD q && !s.on (Fld.PAV_REPAIR_STAT_RETIRED q) && !s.on (Fld.PAV_BIST_STAT_SAVE_FAULT q))) := by
  obtain ⟨a, ha, hbefore, -, hafter⟩ := forUpto_at_round (R := fun x y : State => y = { x with pavs := y.pavs })
    (part := fun a => (a.pav q).sliceDue) (fun _ => rfl)
    (fun {x y z} hxy hyz => by rw [hyz]; exact congrArg (fun u : State => { u with pavs := z.pavs }) hxy)
    dueRound_rest (fun i a hi => by simp only [dueRound_pav_ne hi]) hq s
  rw [hafter, dueRound_sliceDue, hbefore, ha]
  rfl

theorem exec_sweepSliceDue {s : State} (hon : s.on Fld.GLB_BIST_CTRL_SWEEP = true) (hleft : s.test.sweepLeft = 0) :
    exec .sweepSliceDue s = .next (forUpto 32 dueRound
      { s with test := { s.test with sweepLeft := s.rd Fld.GLB_BIST_SWEEP_INTERVAL + 1 } }) := by
  show execSweepSliceDue s = _
  rw [execSweepSliceDue, if_pos ⟨hon, hleft⟩]
  rfl

end Sys2Proof.Machine
end

section
/-! SUPPORT. The end of the parking test, and what the signing engine returns (R401, R411, R413, R415, R618, R706). -/
namespace Sys2Proof.Machine
open Sys2Proof

/-! ### The end of the parking test -/

section
variable {s : State} (hrun : s.test.parkRun = true) (hstep : s.test.step = 4) (hslices : s.slices = 0)
include hrun hstep hslices

theorem exec_parkingTestDone_aborted (ha : s.test.parkAborted.isSome = true) :
    exec (.parkingTestDone ()) s = .next (parkAnswer false s) := by
  show execParkingTestDone () s = _
  rw [execParkingTestDone, if_pos ⟨hrun, hstep, hslices⟩, if_pos ha]

theorem exec_parkingTestDone_waits (ha : s.test.parkAborted = none) (hw : s.testWaits = true) :
    exec (.parkingTestDone ()) s = .next s := by
  show execParkingTestDone () s = _
  rw [execParkingTestDone, if_pos ⟨hrun, hstep, hslices⟩, if_neg (by simp [ha]), if_pos hw]

end

/-- A parking test whose rows have all been tested: "all rows passed" shows where none failed (R419), and the signature is next. -/
def parkSigning (v : State) : State :=
  { v with test := { v.test with
    step := 5
    parkBits := if v.test.parkFailed = 0 then v.test.parkBits ||| 8 else v.test.parkBits } }

/-- A parking test that ends with every row tested has its certificate signed (R411, R414). -/
theorem exec_parkingTestDone_signs {s : State} {rows : Option Nat} (hrun : s.test.parkRun = true) (hstep : s.test.step = 4)
    (hslices : s.slices = 0) (ha : s.test.parkAborted = none) (hrows : s.testRows = some rows) (hw : s.testWaits = false)
    (hspares : (restPassed rows s).certSpares.length ≤ 4096) (hunusable : (restPassed rows s).certUnusable.length ≤ 1024)
    (hkey : (restPassed rows s).keyLost = false) : exec (.parkingTestDone ()) s =
      .next (submit (.parkCert (parkSigning (restPassed rows s)).certBody ((restPassed rows s).test.parkMbx.getD 18))
        (parkSigning (restPassed rows s))) := by
  show execParkingTestDone () s = _
  rw [execParkingTestDone, if_pos ⟨hrun, hstep, hslices⟩, if_neg (by simp [ha]), if_neg (by simp [hw])]
  simp only [hrows]
  generalize restPassed rows s = v at hspares hunusable hkey ⊢
  have hfits : ¬ (4096 < v.certSpares.length ∨ 1024 < v.certUnusable.length) := by omega
  by_cases hf : v.test.parkFailed = 0 <;>
    [rw [if_pos hf, parkSigning, if_pos hf]; rw [if_neg hf, parkSigning, if_neg hf]] <;>
    exact (if_neg hfits).trans (if_neg (ne_true_of_eq_false hkey))

theorem parkSigning_submitted (v : State) (m : Nat) : let u := submit (.parkCert (parkSigning v).certBody m) (parkSigning v)
    u.test.step = 5 ∧ u.signing = v.signing ++ [.parkCert u.certBody m] ∧ u.regs = v.regs ∧
    u.test.parkBits = (if v.test.parkFailed = 0 then v.test.parkBits ||| 8 else v.test.parkBits) :=
  ⟨rfl, rfl, rfl, rfl⟩

/-! ### What the parking test's answer leaves -/

section
variable (s : State)

theorem drainPav_rest (p : Nat) (why : DrainFor) : drainPav p why s = { s with pavs := (drainPav p why s).pavs } := by
  unfold drainPav
  split <;> rfl

theorem drained_rest (p : Nat) (why : DrainFor) :
    drainStep p (drainPav p why s) = { s with pavs := (drainStep p (drainPav p why s)).pavs } :=
  (drainStep_ranksMoved p _).rest.trans
    (congrArg (fun u : State => { u with pavs := (drainStep p (drainPav p why s)).pavs }) (drainPav_rest s p why))

/-- Step 4 of SHUTDOWN is a matter of pavilions and of its own step (R706). -/
theorem shutDrain_rest : shutDrain s = { s with pavs := (shutDrain s).pavs, power := (shutDrain s).power } := by
  unfold shutDrain
  split
  · next h _ =>
    refine forUpto_induction (P := fun a : State => a = { s with pavs := a.pavs, power := a.power }) 32 _ _ rfl fun p a _ ha => ?_
    split
    · exact ha
    · obtain ⟨pv, ht⟩ : ∃ pv, drainStep p (drainPav p .shutdown a) = { a with pavs := pv } :=
        ⟨_, drained_rest a p .shutdown⟩
      rw [ht]
      exact congrArg (fun u : State => { u with pavs := pv }) ha
  · rfl

theorem State.finish_rest (m code : Nat) (pl : List Byte) : s.finish m code pl = { s with mbxs := (s.finish m code pl).mbxs } := by
  unfold State.finish
  dsimp only
  split <;> rfl

/-- The answer of a parking test raises its event, ends the test, and is otherwise a matter of pavilions, mailboxes and SHUTDOWN's
step (R411, R706). -/
theorem parkAnswer_rest (big : Bool) : parkAnswer big s = { s with
    crossing := (s.raise (1008 + 1) (s.test.parkBits.toNat + 128 * b2n big)).crossing
    test := { s.test with step := 0, parkRun := false }
    pavs := (parkAnswer big s).pavs, power := (parkAnswer big s).power, mbxs := (parkAnswer big s).mbxs } := by
  unfold parkAnswer
  rw [State.raise_eq]
  dsimp only
  split
  · rw [State.finish_rest]
  · rw [shutDrain_rest]

theorem parkAnswer_raised (big : Bool) : Raised (parkAnswer big s) (1008 + 1) := by
  rw [Raised, parkAnswer_rest]
  exact State.raise_sets_out _ _ _

end

/-! ### The signing engine -/

section
variable {j : SignJob} {rest : List SignJob} {s : State}

/-- The head request of the engine is served once the key is there and the firmware runs (R618, R621). -/
theorem exec_signingDone (h : s.signing = j :: rest) (hkey : s.on Fld.GLB_SEC_STAT_IDENT = true) (hfw : s.firmwareRuns = true) :
    exec .signingDone s = .next (signed_ j { s with signing := rest }) := by
  show execSigningDone s = _
  simp only [execSigningDone, h, hkey, hfw, Bool.not_true, Bool.and_false, Bool.or_self, Bool.false_eq_true, if_false]

theorem exec_signingDone_none (h : s.signing = []) : exec .signingDone s = .next s := by
  show execSigningDone s = _
  simp only [execSigningDone, h]

/-- A signed parking certificate is kept and shown, and ends its test (R413, R415). -/
theorem signed_parkCert (body : List Byte) (m : Nat) (s : State) : let u := signed_ (.parkCert body m) s
    u.signing = s.signing ∧ u.test.parkCert = some (body ++ s.deviceSign tagPark body) ∧ u.rd Fld.GLB_BIST_STAT_PARK_DONE = 1 ∧
    Raised u (1008 + 1) := by
  intro u
  have hu : u = parkAnswer false (State.wr { s with test := { s.test with parkCert := some (body ++ s.deviceSign tagPark body) } }
    Fld.GLB_BIST_STAT_PARK_DONE 1) := rfl
  refine ⟨?_, ?_, ?_, ?_⟩ <;> rw [hu]
  · rw [parkAnswer_rest]
    rfl
  · rw [parkAnswer_rest]
    rfl
  · rw [State.rd_of_regs (congrArg State.regs (parkAnswer_rest _ false)) Fld.GLB_BIST_STAT_PARK_DONE]
    exact State.rd_wr_same _ _ _ (by decide)
  · exact parkAnswer_raised _ _

end

end Sys2Proof.Machine
end

section
/-! O46. Slices test rows, and the parking test ends with its certificate. -/
namespace Sys2Proof.Machine
open Sys2Proof

/-- Settles O46: a slice is claimed as `sliceBegun`, ends as `endSlice` of a sweep says (`endSlice_sweep`) or is cut short
(`abortSlice_cuts`), and falls due in its round (`dueRounds_sliceDue`); the parking test answers, waits or has its certificate signed
(`exec_parkingTestDone_signs`), and a signed certificate ends it (`signed_parkCert`). -/
theorem slicesAndParkingTestsEnd : Obligations.SlicesAndParkingTestsEnd := by
  unfold Obligations.SlicesAndParkingTestsEnd
  refine ⟨fun p s => ⟨fun b phys row spare why hdue hnext hmay hturn => ?begins, fun x h hend hwhy => ?passed,
    fun x f ok h => exec_sliceEnd_failed h f ok, fun x h hend => ?watchdog, fun hon hleft => ?due⟩,
    fun s => ⟨fun hrun hstep hslices => ⟨exec_parkingTestDone_aborted hrun hstep hslices, exec_parkingTestDone_waits hrun hstep hslices,
      fun rows ha hrows hw hspares hunusable hkey => ?signs⟩, exec_signingDone_none,
      fun body m rest h hkey hfw => ⟨_, exec_signingDone h hkey hfw, signed_parkCert body m _⟩,
      fun m body rest h hkey hfw => exec_signingDone h hkey hfw, fun m body rest h hkey hfw => exec_signingDone h hkey hfw⟩⟩
  case begins =>
    exact ⟨_, sliceBegun s p b phys row spare why, exec_sliceStart hdue hnext hmay hturn, by rw [State.pav_modPav_same]; rfl,
      rfl, rfl, rfl, rfl, rfl, rfl, rfl, rfl, rfl, rfl, (PavsKept.refl s p).modPav _, rfl⟩
  case passed =>
    refine ⟨exec_sliceEnd_passed h, ?_, ?_, endSlice_dramKept hwhy hend 0,
      fun h1 h7 hlen hb hphys c hc => endSlice_readPhys hwhy hend 0 h1 h7 hlen p.isLt hb hphys hc, endSlice_doneCount hwhy hend 0⟩
    · rw [endSlice_pav hwhy hend, sliceGone_slice]
    · rw [State.bank, endSlice_pav hwhy hend]
      exact sliceGone_open p x s
  case watchdog =>
    obtain ⟨y, hslice, hcause, hbank, hphys, hsave, hraised, hcount, hnow, hregs, hpavs⟩ :=
      abortSlice_cuts (s := s.atLeast (x.heldAt + tPav * (8192 - x.held))) h hend 5
    exact ⟨_, y, exec_sliceWatchdog h hend, hslice, hcause, hbank, hphys, hsave, hraised, hcount, hnow, hregs, hpavs⟩
  case due =>
    refine ⟨_, exec_sweepSliceDue hon hleft, ?_, ?_, fun q hq => dueRounds_sliceDue hq _, ?_⟩ <;> rw [dueRounds_rest]
  case signs =>
    exact ⟨_, exec_parkingTestDone_signs hrun hstep hslices ha hrows hw hspares hunusable hkey, parkSigning_submitted _ _⟩

end Sys2Proof.Machine
end

section
/-! SUPPORT. What a port that changes its lanes, trains or loses its link leaves (R62, R101, R126, R194, R231): the registers outside its
own block, lanes marked bad, and everything that is no register, port, lane, raising or mailbox. -/
namespace Sys2Proof.Machine
open Sys2Proof

/-- A register outside port n's block and the cadence unit, and at no offset at which a port's loss of its link may count on a port of any
number. -/
def Apart (n off : Nat) : Prop :=
  (off < 0x80000 + 0x1000 * n ∨ 0x81000 + 0x1000 * n ≤ off) ∧ (off < 0x1000 ∨ 0x2000 ≤ off) ∧ ¬ CreditReg off ∧
    off % 0x1000 ≠ 0x410 ∧ off % 0x1000 ≠ 0x508

/-- A register of port n's block. -/
def InPort (n off : Nat) : Prop := 0x80000 + 0x1000 * n ≤ off ∧ off < 0x81000 + 0x1000 * n

/-- What operations of ports leave that keep the registers of `F`. -/
structure PortMoved (F : Nat → Prop) (x s : State) : Prop where
  regs : ∀ off, F off → s.reg off = x.reg off
  bad : ∀ k q, (s.lane k q).bad = (x.lane k q).bad
  rest : s = { x with freeIdx := s.freeIdx, regs := s.regs, lanes := s.lanes, ports := s.ports, crossing := s.crossing, mbxs := s.mbxs,
                      cad := s.cad }

theorem PortMoved.refl (F : Nat → Prop) (s : State) : PortMoved F s s := ⟨fun _ _ => rfl, fun _ _ => rfl, rfl⟩

theorem PortMoved.ite {F : Nat → Prop} {x a b : State} {c : Prop} [Decidable c] (ha : PortMoved F x a) (hb : PortMoved F x b) :
    PortMoved F x (if c then a else b) := by
  split <;> assumption

section
variable {F : Nat → Prop} {x s t : State} (h : PortMoved F x s)
include h

theorem PortMoved.trans (k : PortMoved F s t) : PortMoved F x t where
  regs := fun off ho => (k.regs off ho).trans (h.regs off ho)
  bad := fun i q => (k.bad i q).trans (h.bad i q)
  rest := k.rest.trans (congrArg (fun u : State => { u with freeIdx := t.freeIdx, regs := t.regs, lanes := t.lanes, ports := t.ports,
                                                            crossing := t.crossing, mbxs := t.mbxs, cad := t.cad }) h.rest)

theorem PortMoved.mono {G : Nat → Prop} (hg : ∀ off, G off → F off) : PortMoved G x s :=
  ⟨fun off ho => h.regs off (hg off ho), h.bad, h.rest⟩

theorem PortMoved.test_eq : s.test = x.test := by rw [h.rest]

theorem PortMoved.power_eq : s.power = x.power := by rw [h.rest]

theorem PortMoved.now_eq : s.now = x.now := by rw [h.rest]

/-- A change that touches neither registers nor lanes. -/
theorem PortMoved.step (hr : t.regs = s.regs) (hl : t.lanes = s.lanes)
    (ht : t = { s with freeIdx := t.freeIdx, regs := t.regs, lanes := t.lanes, ports := t.ports, crossing := t.crossing, mbxs := t.mbxs,
                       cad := t.cad }) : PortMoved F x t :=
  h.trans ⟨fun off _ => State.reg_of_regs hr off, fun k q => by simp only [State.lane, hl], ht⟩

theorem PortMoved.setReg {off : Nat} (ho : ¬ F off) (v : Reg32) : PortMoved F x (s.setReg off v) :=
  h.trans ⟨fun _ ha => State.reg_setReg_ne s off v (fun e => ho (e ▸ ha)), fun _ _ => rfl, rfl⟩

theorem PortMoved.modPort (i : Nat) (f : Port → Port) : PortMoved F x (s.modPort i f) := h.step rfl rfl rfl

theorem PortMoved.modTrain (i : Nat) (f : Train → Train) : PortMoved F x (s.modTrain i f) := h.modPort i _

theorem PortMoved.raise (ev d : Nat) : PortMoved F x (s.raise ev d) := by
  rw [State.raise_eq]
  exact h.step rfl rfl rfl

theorem PortMoved.finish (m code : Nat) (pl : List Byte) : PortMoved F x (s.finish m code pl) := by
  unfold State.finish
  dsimp only
  split
  · exact h.step rfl rfl rfl
  · exact h

/-- A change to a lane that leaves its mark. -/
theorem PortMoved.modLane (k p : Nat) {f : Lane → Lane} (hf : ∀ l, (f l).bad = l.bad) : PortMoved F x (s.modLane k p f) := by
  refine h.trans ⟨fun _ _ => rfl, fun i q => ?_, rfl⟩
  by_cases hi : 8 * i + q = 8 * k + p
  · have he : ∀ u : State, u.lane i q = u.lane k p := fun u => by rw [State.lane, State.lane, hi]
    rw [he, he, State.lane_modLane_same, hf]
  · rw [State.lane_modLane_ne s k p f hi]

theorem PortMoved.forUpto {k : Nat} {f : Nat → State → State} (hf : ∀ i a, i < k → PortMoved F x a → PortMoved F x (f i a)) :
    PortMoved F x (forUpto k f s) := forUpto_induction k f s h hf

theorem PortMoved.foldl {α : Type} (l : List α) {f : State → α → State} (hf : ∀ a e, PortMoved F x a → PortMoved F x (f a e)) :
    PortMoved F x (l.foldl f s) := List.foldlRecOn (motive := PortMoved F x) l f h fun a ha e _ => hf a e ha

end

section
variable {n : Nat} {x s : State} (h : PortMoved (Apart n) x s)
include h

/-- A register of the port's own block. -/
theorem PortMoved.setOwn {off : Nat} (ho : InPort n off) (v : Reg32) : PortMoved (Apart n) x (s.setReg off v) :=
  h.setReg (fun ha => by obtain ⟨h1, h2⟩ := ho; obtain ⟨h3 | h3, -⟩ := ha <;> omega) v

theorem PortMoved.wr {f : Fld} (hf : InPort n f.off) (v : Nat) : PortMoved (Apart n) x (s.wr f v) := h.setOwn hf _

end

/-! ### Registers of a port's block -/

section
variable (n : Nat) {p : Nat}

theorem inPort_phyStat : InPort n (Off.PRT_PHY_STAT n) := by simp only [InPort, Off.PRT_PHY_STAT]; omega

theorem inPort_injCtrl : InPort n (Off.PRT_INJ_CTRL n) := by simp only [InPort, Off.PRT_INJ_CTRL]; omega

theorem inPort_calStat : InPort n (Off.PRT_CAL_STAT n) := by simp only [InPort, Off.PRT_CAL_STAT]; omega

theorem inPort_linkStat : InPort n (Off.PRT_LINK_STAT n) := by simp only [InPort, Off.PRT_LINK_STAT]; omega

theorem inPort_linkSeq : InPort n (Off.PRT_LINK_SEQ n) := by simp only [InPort, Off.PRT_LINK_SEQ]; omega

theorem inPort_credits (hp : p < 4) : InPort n (Off.PRT_CREDIT_TX_TC n p) ∧ InPort n (Off.PRT_CREDIT_RX_TC n p) := by
  simp only [InPort, Off.PRT_CREDIT_TX_TC, Off.PRT_CREDIT_RX_TC]; omega

/-- The registers of a lane. -/
theorem inPort_lane (hp : p < 8) {off : Nat} (h1 : Off.PRT_LANE_CTRL n p ≤ off) (h2 : off ≤ Off.PRT_LANE_EYE n p) : InPort n off := by
  simp only [InPort, Off.PRT_LANE_CTRL, Off.PRT_LANE_EYE] at *
  omega

theorem inPort_laneStat (hp : p < 8) : InPort n (Off.PRT_LANE_STAT n p) :=
  inPort_lane n hp (by simp only [Off.PRT_LANE_CTRL, Off.PRT_LANE_STAT]; omega) (by simp only [Off.PRT_LANE_EYE, Off.PRT_LANE_STAT]; omega)

theorem inPort_laneTxeq (hp : p < 8) : InPort n (Off.PRT_LANE_TXEQ n p) :=
  inPort_lane n hp (by simp only [Off.PRT_LANE_CTRL, Off.PRT_LANE_TXEQ]; omega) (by simp only [Off.PRT_LANE_EYE, Off.PRT_LANE_TXEQ]; omega)

theorem inPort_laneRxeq (hp : p < 8) : InPort n (Off.PRT_LANE_RXEQ n p) :=
  inPort_lane n hp (by simp only [Off.PRT_LANE_CTRL, Off.PRT_LANE_RXEQ]; omega) (by simp only [Off.PRT_LANE_EYE, Off.PRT_LANE_RXEQ]; omega)

theorem inPort_laneMargin (hp : p < 8) : InPort n (Off.PRT_LANE_MARGIN_CFG n p) :=
  inPort_lane n hp (by simp only [Off.PRT_LANE_CTRL, Off.PRT_LANE_MARGIN_CFG]; omega)
    (by simp only [Off.PRT_LANE_EYE, Off.PRT_LANE_MARGIN_CFG]; omega)

theorem inPort_laneEye (hp : p < 8) : InPort n (Off.PRT_LANE_EYE n p) :=
  inPort_lane n hp (by simp only [Off.PRT_LANE_CTRL, Off.PRT_LANE_EYE]; omega) le_rfl

end

/-! ### Lanes -/

section
variable {n p : Nat} {x s : State} (h : PortMoved (Apart n) x s)
include h

theorem adaptRx_portMoved (hp : p < 8) : PortMoved (Apart n) x (adaptRx n p s) :=
  PortMoved.setOwn (s := { s with freeIdx := s.freeIdx + 1 }) (h.step rfl rfl rfl) (inPort_laneRxeq n hp) _

theorem injectBits_portMoved (p k : Nat) : PortMoved (Apart n) x (injectBits n p k s) := by
  unfold injectBits
  extract_lets pos st bits s1
  have h1 : PortMoved (Apart n) x s1 := h.modLane n p fun _ => rfl
  exact .ite (h1.modPort _ _) h1

theorem injectLane_portMoved (p : Nat) : PortMoved (Apart n) x (injectLane n p s) := by
  unfold injectLane
  exact .ite (.ite (.ite h (h.modLane _ _ fun _ => rfl)) (.ite ((injectBits_portMoved h _ _).modLane _ _ fun _ => rfl) h))
    (.ite (h.modLane _ _ fun _ => rfl) h)

theorem injectEnd_portMoved : PortMoved (Apart n) x (injectEnd n s) := by
  unfold injectEnd
  exact .ite (h.wr (inPort_injCtrl n) _) h

theorem freshWindow_portMoved (p : Nat) : PortMoved (Apart n) x (freshWindow n p s) := h.modLane _ _ fun _ => rfl

theorem prbsUnlock_portMoved (hp : p < 8) : PortMoved (Apart n) x (prbsUnlock n p s) := by
  unfold prbsUnlock
  extract_lets k
  exact (h.modLane n p (f := fun l => { l with prbsBits := k, prbsFrom := none }) fun _ => rfl).wr (inPort_laneStat n hp) _

theorem prbsSync_portMoved (hp : p < 8) : PortMoved (Apart n) x (prbsSync n p s) := by
  unfold prbsSync
  extract_lets s1
  have h1 : PortMoved (Apart n) x s1 := h.modLane n p fun l => by split_ifs <;> rfl
  exact .ite h1 (prbsUnlock_portMoved h1 hp)

theorem laneTo_portMoved (st : Nat) (hp : p < 8) : PortMoved (Apart n) x (laneTo n p st s) := by
  unfold laneTo
  extract_lets s1 s2 s3 s4 s5
  have h1 : PortMoved (Apart n) x s1 := .ite (adaptRx_portMoved h hp) h
  have h2 : PortMoved (Apart n) x s2 := h1.wr (inPort_laneStat n hp) _
  have h3 : PortMoved (Apart n) x s3 := .ite (h2.wr (inPort_laneStat n hp) _) h2
  have h4 : PortMoved (Apart n) x s4 := h3.modLane n p fun _ => rfl
  have h5 : PortMoved (Apart n) x s5 := .ite (freshWindow_portMoved h4 p) h4
  exact injectEnd_portMoved (injectLane_portMoved (prbsSync_portMoved h5 hp) p)

theorem lanesTo_portMoved (mask st : Nat) : PortMoved (Apart n) x (lanesTo n mask st s) :=
  h.forUpto fun _ _ hi ha => .ite (laneTo_portMoved ha st hi) ha

theorem parkLanes_portMoved : PortMoved (Apart n) x (parkLanes n s) := by
  unfold parkLanes
  extract_lets s1
  have h1 : PortMoved (Apart n) x s1 := h.forUpto fun p a _ ha => ha.modLane n p fun _ => rfl
  exact ((lanesTo_portMoved h1 0xFF laParked).wr (inPort_phyStat n) _).wr (inPort_phyStat n) _

theorem setRate_portMoved (code : Nat) : PortMoved (Apart n) x (setRate n code s) := by
  have h1 : PortMoved (Apart n) x (rateWindows n s) := h.forUpto fun p a _ ha => ha.modLane n p fun _ => rfl
  rw [setRate_eq]
  exact (h1.wr (inPort_phyStat n) _).forUpto fun p a hp ha => ha.wr (inPort_laneStat n hp) _

/-- A lane's eye scan that ends (R470). -/
theorem endScans_portMoved : PortMoved (Apart n) x (endScans n s) := by
  unfold endScans
  extract_lets mask s1 s2 s3
  have h1 : PortMoved (Apart n) x s1 := h.forUpto fun p a hp ha => by
    refine .ite ?_ ha
    extract_lets a1 a2
    have k1 : PortMoved (Apart n) x a1 := ha.wr (inPort_laneEye n hp) _
    have k2 : PortMoved (Apart n) x a2 := by
      unfold a2
      split
      · exact k1.setOwn (inPort_laneMargin n hp) _
      · exact k1
    exact (freshWindow_portMoved (k2.modLane n p fun _ => by rfl) p).raise _ _
  have h2 : PortMoved (Apart n) x s2 := h1.wr (inPort_calStat n) _
  have h3 : PortMoved (Apart n) x s3 := .ite (h2.wr (inPort_calStat n) _) h2
  refine .ite h ?_
  split
  · exact (h3.finish _ _ _).modPort _ _
  · exact h3

/-! ### Training -/

theorem PortMoved.setLink (st : Nat) : PortMoved (Apart n) x (s.setLink n st) := (h.wr (inPort_linkStat n) _).wr (inPort_linkStat n) _

theorem lockRound_portMoved (recov : Bool) (hp : p < 8) : PortMoved (Apart n) x (lockRound n recov p s) := by
  unfold lockRound
  extract_lets s1 s2 s3
  have h1 : PortMoved (Apart n) x s1 := ((h.wr (inPort_laneTxeq n hp) _).wr (inPort_laneTxeq n hp) _).wr (inPort_laneTxeq n hp) _
  have h2 : PortMoved (Apart n) x s2 := .ite (h1.wr (inPort_laneStat n hp) _) h1
  exact (laneTo_portMoved (h2.wr (inPort_laneStat n hp) _) laTraining hp).modLane n p fun _ => rfl

theorem startTraining_portMoved : PortMoved (Apart n) x (startTraining n s) := by
  unfold startTraining
  refine .ite ?_ h
  rw [enterLock_eq]
  have h1 : PortMoved (Apart n) x (lockArmed n false s) := (h.modTrain n _).wr (inPort_phyStat n) _
  have h2 : PortMoved (Apart n) x (lockBegun n false s) := ((setRate_portMoved h1 0).wr (inPort_phyStat n) _).setLink lsLock
  exact h2.forUpto fun p a hp ha => lockRound_portMoved ha false hp

/-! ### The transactions of a link that goes down -/

theorem PortMoved.credits {t : State} (k : CreditsOnly s t) : PortMoved (Apart n) x t :=
  h.trans ⟨fun off ho => k.regs off ho.2.2.1, fun i q => by rw [k.rest]; rfl, by rw [k.rest]⟩

theorem pushReady_portMoved (i : Nat) (r : ReadyRsp) (dead : Bool) : PortMoved (Apart n) x (pushReady i r dead s) := by
  have hlost : ¬ Apart n (Off.PRT_TXN_LOST i) := fun ha => ha.2.2.2.1 (by simp only [Off.PRT_TXN_LOST]; omega)
  unfold pushReady
  exact .ite ((h.setReg hlost _).credits (rspLeaves_creditsOnly _ _ _ _ _)) (h.modPort _ _)

theorem pathDown_portMoved (ingress serial : Nat) : PortMoved (Apart n) x (pathDown ingress serial s) := by
  have hrefused : ¬ Apart n (Off.PRT_POOL_REFUSED ingress) := fun ha => ha.2.2.2.2 (by simp only [Off.PRT_POOL_REFUSED]; omega)
  unfold pathDown
  split
  · exact h
  · extract_lets s1 s2
    have h1 : PortMoved (Apart n) x s1 := .ite h (h.setReg hrefused _)
    have h2 : PortMoved (Apart n) x s2 := pushReady_portMoved h1 _ _ _
    exact .ite (h2.modPort _ _) h2

theorem egressDown_portMoved : PortMoved (Apart n) x (egressDown n s) := by
  unfold egressDown
  extract_lets cs s1
  have h1 : PortMoved (Apart n) x s1 := h.modPort n _
  exact h1.foldl cs fun a c ha => .ite ha (pathDown_portMoved ha _ _)

theorem dropTxns_portMoved : PortMoved (Apart n) x (dropTxns n s) := by
  have hlost : InPort n (Off.PRT_TXN_LOST n) := by simp only [InPort, Off.PRT_TXN_LOST]; omega
  unfold dropTxns
  extract_lets p lost answered keep s1 s2 s3 s4
  have h2 : PortMoved (Apart n) x s2 := (h.modPort n fun _ => _).wr hlost _
  have h3 : PortMoved (Apart n) x s3 := h2.forUpto fun e a _ ha => ha.modPort e _
  have h4 : PortMoved (Apart n) x s4 := h3.foldl _ fun a r ha => ha.credits (rspLeaves_creditsOnly _ _ _ _ _)
  exact h4.foldl _ fun a d ha => ha.credits (rspLeaves_creditsOnly _ _ _ _ _)

theorem endRetune_portMoved : PortMoved (Apart n) x (endRetune n s) := by
  unfold endRetune
  split
  · extract_lets s1
    have h1 : PortMoved (Apart n) x s1 := .ite h (h.wr (inPort_calStat n) _)
    exact (h1.finish _ _ _).modPort n _
  · exact h

theorem cadSeek_portMoved (cause : Nat) : PortMoved (Apart n) x (cadSeek cause s) := by
  have hr : ∀ {f : Fld}, 0x1000 ≤ f.off → f.off < 0x2000 → ¬ Apart n f.off := fun h1 h2 ha => by
    obtain ⟨-, h3 | h3, -⟩ := ha <;> omega
  unfold cadSeek
  extract_lets was s1 cad s2
  have h1 : PortMoved (Apart n) x s1 :=
    ((h.setReg (hr (f := Fld.CAD_STAT_STATE) (by decide) (by decide)) _).setReg (hr (f := Fld.CAD_STAT_LOCK) (by decide) (by decide))
      _).setReg (hr (f := Fld.CAD_STAT_FW_CAUSE) (by decide) (by decide)) _
  have h2 : PortMoved (Apart n) x s2 := h1.step rfl rfl rfl
  exact .ite (PortMoved.raise (h2.setReg (hr (f := Fld.CAD_CNT_FREEWHEEL) (by decide) (by decide)) _) _ _) h2

/-! ### The loss of a link, and a port marked down -/

theorem linkDown_portMoved (cause : Nat) : PortMoved (Apart n) x (linkDown n cause s) := by
  unfold linkDown
  extract_lets was s1 s2 s3 s4 s5 retry s6 s7 s8 s9 s10
  have h1 : PortMoved (Apart n) x s1 := h.wr (inPort_linkStat n) _
  have h2 : PortMoved (Apart n) x s2 := .ite (h1.raise _ _) h1
  have h5 : PortMoved (Apart n) x s5 := endRetune_portMoved (endScans_portMoved (egressDown_portMoved (dropTxns_portMoved h2)))
  have h6 : PortMoved (Apart n) x s6 := h5.modPort n _
  have h7 : PortMoved (Apart n) x s7 := h6.forUpto fun tc a ht ha => (ha.setOwn (inPort_credits n ht).1 _).setOwn (inPort_credits n ht).2 _
  have h8 : PortMoved (Apart n) x s8 := h7.setOwn (inPort_linkSeq n) _
  have h9 : PortMoved (Apart n) x s9 := .ite (cadSeek_portMoved h8 2) h8
  exact startTraining_portMoved ((parkLanes_portMoved h9).setLink lsDown)

theorem markDown_portMoved (cause : Nat) : PortMoved (Apart n) x (markDown n cause s) := by
  unfold markDown
  extract_lets s1 s2 s3
  have h1 : PortMoved (Apart n) x s1 := h.modPort n _
  have h2 : PortMoved (Apart n) x s2 := (h1.wr (inPort_phyStat n) _).wr (inPort_linkStat n) _
  have h3 : PortMoved (Apart n) x s3 := h2.modTrain n _
  exact .ite (linkDown_portMoved (h1.wr (inPort_phyStat n) _) cause) ((parkLanes_portMoved h3).setLink lsDown)

end

end Sys2Proof.Machine
end

section
/-! SUPPORT. Ports one after another, a port marked down (R48, R102), and what the start of the short tests leaves (R699). -/
namespace Sys2Proof.Machine
open Sys2Proof

/-! ### All ports -/

/-- A register that the operations of all sixteen ports keep. -/
def ApartAll (off : Nat) : Prop := ∀ n < 16, Apart n off

theorem forUpto_portMoved {f : Nat → State → State} (hf : ∀ n a, n < 16 → PortMoved (Apart n) a (f n a)) (s : State) :
    PortMoved ApartAll s (forUpto 16 f s) :=
  (PortMoved.refl ApartAll s).forUpto fun n a hn ha => ha.trans ((hf n a hn).mono fun _ ho => ho n hn)

/-- The registers of the stack as a whole, outside the offsets of credits and counters. -/
theorem apart_glb {off : Nat} (h : off < 0x1000) (hc : ¬ CreditReg off) (h1 : off ≠ 0x410) (h2 : off ≠ 0x508) (n : Nat) : Apart n off := by
  refine ⟨.inl (by omega), .inl h, hc, ?_, ?_⟩ <;> rwa [Nat.mod_eq_of_lt h]

theorem apart_bistStat (n : Nat) : Apart n Off.GLB_BIST_STAT :=
  apart_glb (by decide) (by simp only [CreditReg, Off.GLB_BIST_STAT]; omega) (by decide) (by decide) n

theorem apart_bootStat (n : Nat) : Apart n Off.GLB_BOOT_STAT :=
  apart_glb (by decide) (by simp only [CreditReg, Off.GLB_BOOT_STAT]; omega) (by decide) (by decide) n

theorem apartAll_repairStat (p : Nat) : ApartAll (Off.PAV_REPAIR_STAT p) := fun n hn => by
  simp only [Apart, CreditReg, Off.PAV_REPAIR_STAT]
  omega

theorem apartAll_pavBistStat (p : Nat) : ApartAll (Off.PAV_BIST_STAT p) := fun n hn => by
  simp only [Apart, CreditReg, Off.PAV_BIST_STAT]
  omega

/-- The state and the mark that another port shows. -/
theorem apart_otherPort {n m : Nat} (h : n ≠ m) : Apart n (Off.PRT_LINK_STAT m) ∧ Apart n (Off.PRT_PHY_STAT m) := by
  simp only [Apart, CreditReg, Off.PRT_LINK_STAT, Off.PRT_PHY_STAT]
  omega

theorem State.link_of_reg {s t : State} {n : Nat} (h : t.reg (Off.PRT_LINK_STAT n) = s.reg (Off.PRT_LINK_STAT n)) : t.link n = s.link n :=
  State.rd_of_reg (f := Fld.PRT_LINK_STAT_STATE n) h

/-! ### A port marked down -/

theorem markDown_of_link {n : Nat} (cause : Nat) {s : State} (h : (s.port n).train.hasLink = true) : markDown n cause s =
    linkDown n cause ((s.modPort n (fun p => { p with markedDown := true })).wr (Fld.PRT_PHY_STAT_DOWN n) 1) := by
  rw [markDown]
  exact if_pos (by rw [State.port_modPort_same]; exact h)

/-- A port without a link that is marked down, before its lanes park. -/
def markedIdle (n cause : Nat) (s : State) : State :=
  (((s.modPort n (fun p => { p with markedDown := true })).wr (Fld.PRT_PHY_STAT_DOWN n) 1).wr (Fld.PRT_LINK_STAT_CAUSE n) cause).modTrain n
    (fun t => { t with deadline := none, retryAt := none, relock := false })

theorem markDown_of_idle {n : Nat} (cause : Nat) {s : State} (h : (s.port n).train.hasLink = false) :
    markDown n cause s = (parkLanes n (markedIdle n cause s)).setLink n lsDown := by
  rw [markDown]
  exact if_neg (by rw [State.port_modPort_same]; exact ne_true_of_eq_false h)

/-- No port trains while it is marked down (R48). -/
theorem State.mayTrain_of_markedDown {s : State} {n : Nat} (h : (s.port n).markedDown = true) : s.mayTrain n = false := by
  simp [State.mayTrain, h]

/-- The link of a port marked down goes down and stays down. -/
theorem linkDown_markedDown {n cause : Nat} (hc : cause < 16) {s : State} (h : (s.port n).markedDown = true) :
    (linkDown n cause s).link n = lsDown := by
  obtain ⟨u, -, hu⟩ := linkDown_forgets hc s
  have hmark : ((linkDown n cause s).port n).markedDown = true := ((linkDown_linkKept (.refl s) n cause).port n).1.trans h
  rw [hu] at hmark ⊢
  have hbefore : (((parkLanes n u).setLink n lsDown).port n).markedDown = true := by
    rw [← ((startTraining_linkKept (.refl ((parkLanes n u).setLink n lsDown)) n).port n).1]
    exact hmark
  rw [startTraining, if_neg (by rw [State.mayTrain_of_markedDown hbefore]; decide), State.link_setLink]
  rfl

theorem markDown_shows {n cause : Nat} (hc : cause < 16) (s : State) :
    (markDown n cause s).rd (Fld.PRT_PHY_STAT_DOWN n) = 1 ∧ (markDown n cause s).link n = lsDown := by
  have hwr : ∀ a : State, (a.wr (Fld.PRT_PHY_STAT_DOWN n) 1).rd (Fld.PRT_PHY_STAT_DOWN n) = 1 := fun a =>
    State.rd_wr_same a _ 1 (by simp [Fld.PRT_PHY_STAT_DOWN])
  cases h : (s.port n).train.hasLink with
  | true =>
    rw [markDown_of_link cause h]
    refine ⟨((linkDown_linkKept (.refl _) n cause).down n).trans (hwr _), linkDown_markedDown hc ?_⟩
    rw [State.wr_port, State.port_modPort_same]
  | false =>
    have hne : Off.PRT_PHY_STAT n ≠ Off.PRT_LINK_STAT n := phyStat_ne_linkStat n
    rw [markDown_of_idle cause h]
    refine ⟨?_, State.link_setLink _ n lsDown⟩
    rw [State.rd_of_reg (f := Fld.PRT_PHY_STAT_DOWN n) (State.reg_setLink_ne _ n lsDown hne),
      (parkLanes_laneKept (.refl (markedIdle n cause s)) n).down n]
    rw [markedIdle, State.modTrain, State.modPort_rd, State.rd_wr_ne _ _ _ _ hne]
    exact hwr _

/-- Which ports there are, and their roles, are no matter of a port marked down. -/
theorem markDown_linkFree (n cause : Nat) (s : State) {off : Nat} (ho : LinkFree off) : (markDown n cause s).reg off = s.reg off := by
  have hphy : off ≠ Off.PRT_PHY_STAT n := ho.laneFree.ne_phyStat n
  cases h : (s.port n).train.hasLink with
  | true => rw [markDown_of_link cause h, (linkDown_linkKept (.refl _) n cause).reg off ho, State.reg_wr_ne _ _ _ hphy,
      State.modPort_reg]
  | false =>
    have hlink : off ≠ Off.PRT_LINK_STAT n := ho.ne_linkReg (linkReg_linkStat n)
    rw [markDown_of_idle cause h, State.reg_setLink_ne _ n lsDown hlink, (parkLanes_laneKept (.refl (markedIdle n cause s)) n).reg off
      ho.laneFree, markedIdle, State.modTrain, State.modPort_reg, State.reg_wr_ne _ (Fld.PRT_LINK_STAT_CAUSE n) _ hlink,
      State.reg_wr_ne _ (Fld.PRT_PHY_STAT_DOWN n) _ hphy, State.modPort_reg]

/-- Which ports there are, and their roles, stand in registers that no operation of a link writes. -/
theorem State.portEnabled_of_linkFree {s t : State} (h : ∀ off, LinkFree off → t.reg off = s.reg off) (n : Nat) :
    t.portEnabled n = s.portEnabled n ∧ t.role n = s.role n := by
  constructor
  · rw [State.portEnabled, State.portEnabled, State.rd_of_reg (h _ (.inl (by decide)))]
  · exact State.rd_of_reg (h _ (.inr (.inr (by simp only [Fld.PRT_POOL_CTRL_ROLE]; omega))))

/-! ### The start of the short tests -/

/-- The short tests as they begin, before the links go down. -/
def shortBegun (s : State) : State := { s with test := { s.test with step := 2 }, power := { s.power with testAt := s.now } }

theorem shortTests_portMoved (s : State) : PortMoved ApartAll (shortBegun s) (shortTests s) :=
  forUpto_portMoved (fun _ a _ => .ite (linkDown_portMoved (.refl _ a) 3) (.refl _ a)) _

theorem testBegun_kept (s : State) : (testBegun s).test.certResult = s.test.certResult ∧ (testBegun s).power.boot = s.power.boot := by
  unfold testBegun
  extract_lets a
  have h : a.test.certResult = s.test.certResult ∧ a.power.boot = s.power.boot :=
    forUpto_induction (P := fun a => a.test.certResult = s.test.certResult ∧ a.power.boot = s.power.boot) 32 _ s ⟨rfl, rfl⟩
      fun p a _ ha => by rwa [State.modPav_test, State.modPav_power]
  exact h

/-- The certificate's result and how it shows, and what start-up has reached. -/
structure CertKept (x s : State) : Prop where
  result : s.test.certResult = x.test.certResult
  boot : s.power.boot = x.power.boot
  cert : s.rd Fld.GLB_BIST_STAT_CERT = x.rd Fld.GLB_BIST_STAT_CERT
  phase : s.rd Fld.GLB_BOOT_STAT_PHASE = x.rd Fld.GLB_BOOT_STAT_PHASE

theorem shortTests_certKept (s : State) : CertKept s (shortTests s) := by
  have h := shortTests_portMoved s
  have hr : (shortBegun s).regs = s.regs := State.regs_testPower s _ _
  exact ⟨by rw [h.test_eq]; rfl, by rw [h.power_eq]; rfl,
    (State.rd_of_reg (h.regs _ fun n _ => apart_bistStat n)).trans (State.rd_of_regs hr _),
    (State.rd_of_reg (h.regs _ fun n _ => apart_bootStat n)).trans (State.rd_of_regs hr _)⟩

/-- The short tests show phase 1, beside the certificate's result. -/
theorem shortTests_begun_certKept (s : State) : CertKept s (shortTests (s.wr Fld.GLB_BIST_STAT_PHASE 1)) := by
  obtain ⟨hres, hboot, hcert, hphase⟩ := shortTests_certKept (s.wr Fld.GLB_BIST_STAT_PHASE 1)
  exact ⟨hres.trans (congrArg Test.certResult (State.wr_test _ _ _)), hboot.trans (congrArg Power.boot (State.wr_power _ _ _)),
    hcert.trans (State.rd_wr_disj _ _ _ _ (by decide) (.inl (by decide))), hphase.trans (State.rd_wr_ne _ _ _ _ (by decide))⟩

theorem testBegun_certKept (s : State) : CertKept s (testBegun s) := by
  obtain ⟨hres, hboot⟩ := testBegun_kept s
  exact ⟨hres, hboot, State.rd_of_regs (testBegun_regs s) _, State.rd_of_regs (testBegun_regs s) _⟩

/-- The test's own part in its end: step 7 of start-up, and no phase of the test (R697). -/
theorem testOver_result (s : State) : (testOver s).power.boot = .finish ∧ (testOver s).test.certResult = s.test.certResult ∧
    (testOver s).rd Fld.GLB_BIST_STAT_CERT = s.rd Fld.GLB_BIST_STAT_CERT ∧ (testOver s).rd Fld.GLB_BOOT_STAT_PHASE = 6 ∧
    (testOver s).rd Fld.GLB_BIST_STAT_PHASE = 0 := by
  unfold testOver
  extract_lets power test s1
  have hr : s1.regs = s.regs := State.regs_testPower s _ _
  refine ⟨rfl, rfl, ?_, State.rd_wr_same _ _ _ (by decide), ?_⟩
  · rw [State.rd_wr_ne _ _ _ _ (by decide), State.rd_wr_disj _ _ _ _ (by decide) (.inl (by decide)), State.rd_of_regs hr]
  · rw [State.rd_wr_ne _ _ _ _ (by decide), State.rd_wr_same _ _ _ (by decide)]
    rfl

/-- Step 6 of start-up begins, or with the policy NONE is over at once, or waits (R410, R697, R702): the certificate's result stands and
shows, and the phase is that of the step. -/
theorem startTest_result {s : State} (hb : s.power.boot = .test) :
    ((startTest s).power.boot = .test ∨ (startTest s).power.boot = .finish) ∧
    (startTest s).test.certResult = s.test.certResult ∧
    (startTest s).rd Fld.GLB_BIST_STAT_CERT = s.rd Fld.GLB_BIST_STAT_CERT ∧
    (startTest s).rd Fld.GLB_BOOT_STAT_PHASE = if (startTest s).power.boot = .test then s.rd Fld.GLB_BOOT_STAT_PHASE else 6 := by
  have hkept := testBegun_certKept s
  rw [startTest_eq]
  generalize testBegun s = a at hkept
  obtain ⟨hres, hboot, hcert, hphase⟩ := hkept
  split
  · split
    · obtain ⟨kboot, kres, kcert, kphase, -⟩ := testOver_result a
      rw [kphase, if_neg (by rw [kboot]; decide)]
      exact ⟨.inr kboot, kres.trans hres, kcert.trans hcert, rfl⟩
    · obtain ⟨kres, kboot, kcert, kphase⟩ := shortTests_begun_certKept a
      have htest := kboot.trans (hboot.trans hb)
      rw [if_pos htest]
      exact ⟨.inl htest, kres.trans hres, kcert.trans hcert, kphase.trans hphase⟩
  · exact ⟨.inl hb, rfl, rfl, rfl⟩

end Sys2Proof.Machine
end

section
/-! SUPPORT. Start-up step 5: the certificate, the repair map and the held repairs are applied (R367, R415, R704), and none of them changes the
certificate's result. -/
namespace Sys2Proof.Machine
open Sys2Proof

/-! ### The certificate window -/

/-- The certificate window ends when CERT_WAIT has passed (R700). -/
theorem certWindowExpiry_ends {s : State} (h : s.power.boot = .certWindow) : ∃ u, exec .certWindowExpiry s = .next u ∧
    u.power.boot = .certCheck ∧ u.now = max s.now (s.power.readyAt + tMs * s.rd Fld.GLB_BOOT_CTRL_CERT_WAIT) ∧
    u.rd Fld.GLB_BOOT_STAT_PHASE = 4 ∧ RegsKept s u [Off.GLB_BOOT_STAT] ∧ u = { s with now := u.now, regs := u.regs, power := u.power } := by
  have he : exec .certWindowExpiry s = .next (endCertWindow (s.atLeast (s.power.readyAt + tMs * s.rd Fld.GLB_BOOT_CTRL_CERT_WAIT))) := by
    show execCertWindowExpiry s = _
    rw [execCertWindowExpiry, if_pos h]
  generalize s.power.readyAt + tMs * s.rd Fld.GLB_BOOT_CTRL_CERT_WAIT = t at he
  have hend : endCertWindow (s.atLeast t) =
      State.wr { s.atLeast t with power := { (s.atLeast t).power with boot := .certCheck } } Fld.GLB_BOOT_STAT_PHASE 4 := if_pos h
  rw [hend] at he
  exact ⟨_, he, rfl, rfl, State.rd_wr_same _ _ _ (by decide),
    ((RegsKept.refl s [Off.GLB_BOOT_STAT]).of_regs rfl).wr (f := Fld.GLB_BOOT_STAT_PHASE) List.mem_cons_self 4, rfl⟩

/-! ### What is applied leaves the certificate's result -/

theorem certResult_ite {a b : State} {c : Prop} [Decidable c] {r : Nat} (ha : a.test.certResult = r) (hb : b.test.certResult = r) :
    (if c then a else b).test.certResult = r := by
  split <;> assumption

section
variable (s : State)

theorem markDown_test (n cause : Nat) : (markDown n cause s).test = s.test := (markDown_portMoved (.refl _ s) cause).test_eq

theorem retireStart_certResult (p cause : Nat) : (retireStart p cause s).test.certResult = s.test.certResult := by
  unfold retireStart
  split <;> rfl

theorem markSpare_certResult (p b j : Nat) : (markSpare p b j s).test.certResult = s.test.certResult := by
  unfold markSpare
  split <;> rfl

theorem skipEntry_certResult (i : Nat) : (skipEntry i s).test.certResult = s.test.certResult := rfl

theorem countEntry_certResult : (countEntry s).test.certResult = s.test.certResult := rfl

theorem entryMarks_certResult (w : Nat) : (entryMarks w s).test.certResult = s.test.certResult := by
  unfold entryMarks
  split
  · exact markSpare_certResult _ _ _ _
  · rfl

/-- An entry of the repair map that is applied: a spare row, a spare column or a mark, or an entry listed (R367). -/
theorem entryApply_certResult (i w : Nat) (bad : Bool) : (entryApply i w bad s).test.certResult = s.test.certResult := by
  have hskip := skipEntry_certResult s i
  have hretire : ∀ p, (retireStart p 2 (skipEntry i s)).test.certResult = s.test.certResult := fun p =>
    (retireStart_certResult _ p 2).trans hskip
  unfold entryApply
  extract_lets p b row q c cols
  refine certResult_ite hskip (certResult_ite (certResult_ite hskip ?row) (certResult_ite
    (certResult_ite hskip (certResult_ite (hretire p) rfl)) (certResult_ite (certResult_ite ?mark hskip) rfl)))
  case row =>
    split
    · rfl
    · exact hretire p
  case mark => exact (countEntry_certResult _).trans (certResult_ite (retireStart_certResult s p 1) rfl)

theorem startTake_certResult (p b row : Nat) : (startTake p b row s).test.certResult = s.test.certResult := by
  unfold startTake
  split
  · rfl
  · exact retireStart_certResult _ _ _

theorem forUpto_certResult {n : Nat} {f : Nat → State → State} (hf : ∀ i a, (f i a).test.certResult = a.test.certResult) :
    (forUpto n f s).test.certResult = s.test.certResult :=
  forUpto_induction (P := fun a => a.test.certResult = s.test.certResult) n f s rfl fun i a _ ha => (hf i a).trans ha

theorem foldl_certResult {α : Type} (l : List α) {f : State → α → State} (hf : ∀ a e, (f a e).test.certResult = a.test.certResult) :
    (l.foldl f s).test.certResult = s.test.certResult :=
  List.foldlRecOn (motive := fun a => a.test.certResult = s.test.certResult) l f rfl fun a ha e _ => (hf a e).trans ha

theorem applyMap_certResult : (applyMap s).test.certResult = s.test.certResult := by
  unfold applyMap
  generalize s.mapEntries = es
  exact (foldl_certResult _ es fun a e => entryApply_certResult a _ _ _).trans
    (foldl_certResult s es fun a e => certResult_ite rfl (entryMarks_certResult a _))

/-- An accepted certificate retires pavilions, marks lanes and ports, and marks spares (R415). -/
theorem applyCert_certResult : (applyCert s).test.certResult = s.test.certResult := by
  unfold applyCert
  extract_lets h n u s1 s2 s3
  clear_value h n u
  have h1 : s1.test.certResult = s.test.certResult :=
    forUpto_certResult s fun p a => certResult_ite (retireStart_certResult a p 6) rfl
  have h2 : s2.test.certResult = s1.test.certResult := forUpto_certResult s1 fun _ _ => certResult_ite rfl rfl
  have h3 : s3.test.certResult = s2.test.certResult :=
    forUpto_certResult s2 fun k a => certResult_ite (congrArg Test.certResult (markDown_test a k _)) rfl
  exact (forUpto_certResult s3 fun i a => markSpare_certResult a _ _ _).trans (h3.trans (h2.trans h1))

theorem applyCertSpares_certResult : (applyCertSpares s).test.certResult = s.test.certResult :=
  forUpto_certResult s fun _ a => certResult_ite rfl (startTake_certResult a _ _ _)

theorem applyHeld_certResult : (applyHeld s).test.certResult = s.test.certResult := by
  unfold applyHeld
  extract_lets held mask test s1 s2
  have h1 : s1.test.certResult = s.test.certResult := rfl
  clear_value s1
  have h2 : s2.test.certResult = s1.test.certResult :=
    foldl_certResult s1 held fun a e => certResult_ite rfl (certResult_ite rfl (startTake_certResult a _ _ _))
  clear_value s2
  exact (forUpto_certResult s2 fun p a => certResult_ite (retireStart_certResult a p 7) rfl).trans (h2.trans h1)

end

/-! ### The end of step 5 -/

/-- The certificate's result as step 5 takes it: code 5 where none was submitted (R415). -/
def State.certTaken (s : State) : Nat := match s.test.submitted with | some _ => s.test.certResult | none => 5

theorem State.certTaken_eq (s : State) : s.certTaken = if s.test.submitted.isSome = true then s.test.certResult else 5 := by
  unfold State.certTaken
  cases s.test.submitted <;> rfl

/-- Step 5's counts of what it applies begin at 0. -/
def certBegun (s : State) : State :=
  { s with test := { s.test with certResult := s.certTaken, mapApplied := 0, heldApplied := 0, skipped := [] } }

/-- What the certificate's result brings about first: it is applied when accepted, else its event is raised (R415). -/
def resultApplied (r : Nat) (s : State) : State :=
  if r = 0 then applyCert (s.raise (1008 + 2) (min 255 (leNat (s.certByte 100 2))))
  else if r = 5 then s else s.raise (1008 + 3) r

/-- The repair map, the certificate's spares and the held repairs applied in their order (R367, R415, R704). -/
def repairsApplied (r : Nat) (s : State) : State :=
  applyHeld (if r = 0 then applyCertSpares (applyMap s) else applyMap s)

/-- Step 5 ended: GLB_PARK_SEQ loaded (R412), the result shown, and the start-up test due. -/
def testDue (r : Nat) (s : State) : State :=
  let e := s.drawEntropy.1
  let s := s.drawEntropy.2.wr Fld.GLB_PARK_SEQ_S
    (if r = 0 then (leNat (s.drawEntropy.2.certByte 56 4) + 1) % 2 ^ 32 else (e.extractLsb' 0 32).toNat)
  let s := (s.wr Fld.GLB_BIST_STAT_CERT (if r = 5 then 0 else r + 1)).wr Fld.GLB_BIST_STAT_POLICY s.startPolicy
  State.wr { s with
    power := { s.power with boot := .test, testAt := s.now }
    test := { s.test with step := 1, startRunning := true, sampleS := (e.extractLsb' 32 6).toNat } } Fld.GLB_BOOT_STAT_PHASE 5

theorem exec_certCheckDone {s : State} (h : s.power.boot = .certCheck) :
    exec .certCheckDone s = .next (startTest (testDue s.certTaken (repairsApplied s.certTaken (resultApplied s.certTaken (certBegun s))))) := by
  show execCertCheckDone s = _
  rw [execCertCheckDone, if_pos h]
  rfl

theorem resultApplied_certResult (r : Nat) (s : State) : (resultApplied r s).test.certResult = s.test.certResult :=
  certResult_ite ((applyCert_certResult _).trans (congrArg Test.certResult (State.raise_test s _ _)))
    (certResult_ite rfl (congrArg Test.certResult (State.raise_test s _ _)))

theorem repairsApplied_certResult (r : Nat) (s : State) : (repairsApplied r s).test.certResult = s.test.certResult := by
  have h := applyMap_certResult s
  unfold repairsApplied
  generalize applyMap s = a at h
  exact (applyHeld_certResult _).trans (certResult_ite ((applyCertSpares_certResult a).trans h) h)

theorem testDue_shows (r : Nat) (s : State) : (testDue r s).power.boot = .test ∧ (testDue r s).test.certResult = s.test.certResult ∧
    (testDue r s).rd Fld.GLB_BIST_STAT_CERT = (if r = 5 then 0 else (r + 1) % 8) ∧ (testDue r s).rd Fld.GLB_BOOT_STAT_PHASE = 5 := by
  unfold testDue
  extract_lets e s1 s2
  refine ⟨rfl, rfl, ?_, State.rd_wr_same _ _ _ (by decide)⟩
  have hcert : s2.rd Fld.GLB_BIST_STAT_CERT = (if r = 5 then 0 else r + 1) % 8 := by
    unfold s2
    rw [State.rd_wr_disj _ _ _ _ (by decide) (.inl (by decide)), State.rd_wr_same _ _ _ (by decide)]
    rfl
  rw [State.rd_wr_ne _ _ _ _ (by decide), State.rd_of_regs (State.regs_testPower s2 _ _), hcert]
  split <;> rfl

/-- Step 5 ends with the certificate's result shown, and step 6, or with no test step 7, begins (R415, R697). -/
theorem certCheckDone_shows {s : State} (h : s.power.boot = .certCheck) : ∃ u, exec .certCheckDone s = .next u ∧
    (u.power.boot = .test ∨ u.power.boot = .finish) ∧ u.test.certResult = s.certTaken ∧
    u.rd Fld.GLB_BIST_STAT_CERT = (if u.test.certResult = 5 then 0 else (u.test.certResult + 1) % 8) ∧
    u.rd Fld.GLB_BOOT_STAT_PHASE = (if u.power.boot = .test then 5 else 6) := by
  obtain ⟨hboot, hres, hcert, hphase⟩ := testDue_shows s.certTaken (repairsApplied s.certTaken (resultApplied s.certTaken (certBegun s)))
  obtain ⟨kboot, kres, kcert, kphase⟩ := startTest_result hboot
  have hr := kres.trans (hres.trans ((repairsApplied_certResult _ _).trans (resultApplied_certResult _ _)))
  refine ⟨_, exec_certCheckDone h, kboot, hr, ?_, hphase ▸ kphase⟩
  rw [kcert, hcert, hr]
  rfl

end Sys2Proof.Machine
end

section
/-! SUPPORT. The ends of the logic test and of the TSV and lane tests at a start (R405 to R408): what they find is recorded, and what was found
stays. -/
namespace Sys2Proof.Machine
open Sys2Proof

/-! ### What the record of a finding leaves -/

/-- A running start-up test goes on: its bits stand, and links are as they were. -/
structure TestGoesOn (x s : State) : Prop where
  link : LinkKept x s
  running : s.test.startRunning = x.test.startRunning
  bits : s.test.startBits = x.test.startBits

theorem TestGoesOn.refl (s : State) : TestGoesOn s s := ⟨.refl s, rfl, rfl⟩

theorem TestGoesOn.trans {x s t : State} (h : TestGoesOn x s) (k : TestGoesOn s t) : TestGoesOn x t :=
  ⟨h.link.trans k.link, k.running.trans h.running, k.bits.trans h.bits⟩

theorem TestGoesOn.ite {x a b : State} {c : Prop} [Decidable c] (ha : TestGoesOn x a) (hb : TestGoesOn x b) :
    TestGoesOn x (if c then a else b) := by
  split <;> assumption

theorem raise_testGoesOn (ev d : Nat) (s : State) : TestGoesOn s (s.raise ev d) :=
  ⟨(LinkKept.refl s).raise ev d, congrArg Test.startRunning (State.raise_test s ev d), congrArg Test.startBits (State.raise_test s ev d)⟩

/-- The registers of pavilions are none that `LinkKept` speaks of. -/
theorem linkReg_pav {p k : Nat} (h1 : k < 0x1000) (h2 : k % 0x40 ≠ 0) (h3 : k ≠ 4) : LinkReg (0xC0000 + k + 0x1000 * p) := by
  simp only [LinkReg]
  omega

theorem wrPav_testGoesOn {f : Fld} (hf : LinkReg f.off) (v : Nat) (s : State) : TestGoesOn s (s.wr f v) :=
  ⟨(LinkKept.refl s).wr hf v, rfl, rfl⟩

/-- A pavilion that a start retires, with the cause of the start-up record. -/
def retiredTest (p cause : Nat) (s : State) : State := { s with test := { s.test with
  retiredStart := BitVec.ofNat 32 (bitPut s.test.retiredStart.toNat p true)
  retireCause := tabSet 0 s.test.retireCause p cause } }

theorem retireStart_of_unretired {p : Nat} (cause : Nat) {s : State} (h : bitAt s.retiredMask p = false) :
    retireStart p cause s = (retiredTest p cause s).wr (Fld.PAV_REPAIR_STAT_RETIRED p) 1 := if_neg (ne_true_of_eq_false h)

theorem retireStart_of_retired {p : Nat} (cause : Nat) {s : State} (h : bitAt s.retiredMask p = true) : retireStart p cause s = s :=
  if_pos h

theorem retireStart_testGoesOn (p cause : Nat) (s : State) : TestGoesOn s (retireStart p cause s) := by
  cases h : bitAt s.retiredMask p with
  | true =>
    rw [retireStart_of_retired cause h]
    exact .refl s
  | false =>
    rw [retireStart_of_unretired cause h]
    have h1 : TestGoesOn s (retiredTest p cause s) := ⟨(LinkKept.refl s).of_eq rfl rfl rfl, rfl, rfl⟩
    exact h1.trans (wrPav_testGoesOn (linkReg_pav (p := p) (k := 0x224) (by decide) (by decide) (by decide)) 1 _)

/-- What a start has found of pavilion p: whether it is retired, how that shows, and its cause (R705). -/
def pavFound (p : Nat) (s : State) : Bool × Nat × Nat :=
  (bitAt s.retiredMask p, s.rd (Fld.PAV_REPAIR_STAT_RETIRED p), tabGet 0 s.test.retireCause p)

theorem pavFound_of_eq {p : Nat} {s t : State} (hr : t.reg (Off.PAV_REPAIR_STAT p) = s.reg (Off.PAV_REPAIR_STAT p))
    (ht : t.test.retiredStart = s.test.retiredStart ∧ t.test.retireCause = s.test.retireCause) : pavFound p t = pavFound p s := by
  obtain ⟨hm, hc⟩ := ht
  simp only [pavFound, State.retiredMask, hm, hc, State.rd_of_reg (f := Fld.PAV_REPAIR_STAT_RETIRED p) hr]

theorem retireStart_found {p : Nat} (cause : Nat) {s : State} (h : bitAt s.retiredMask p = false) :
    (pavFound p (retireStart p cause s)).2 = (1, cause) := by
  rw [retireStart_of_unretired cause h, pavFound, State.rd_wr_same _ _ _ (by simp [Fld.PAV_REPAIR_STAT_RETIRED])]
  exact congrArg (Prod.mk 1) (tabGet_tabSet_same _ _ _ _)

/-- The retirement of one pavilion is no matter of another. -/
theorem retireStart_pavFound_ne {i p : Nat} (hi : i ≠ p) (cause : Nat) (s : State) : pavFound p (retireStart i cause s) = pavFound p s := by
  cases h : bitAt s.retiredMask i with
  | true => rw [retireStart_of_retired cause h]
  | false =>
    have hreg : Off.PAV_REPAIR_STAT p ≠ (Fld.PAV_REPAIR_STAT_RETIRED i).off := by
      simp only [Off.PAV_REPAIR_STAT, Fld.PAV_REPAIR_STAT_RETIRED]; omega
    have hbit : ∀ x : BitVec 32, (BitVec.ofNat 32 (bitPut x.toNat i true)).getLsbD p = x.getLsbD p := fun x => by
      rw [getLsbD_bitPut, if_neg (by omega)]
    rw [retireStart_of_unretired cause h, pavFound, pavFound]
    refine Prod.ext ?_ (Prod.ext (State.rd_of_reg (State.reg_wr_ne _ _ _ hreg)) (tabGet_tabSet_ne _ _ _ _ hi.symm))
    exact (bitAt_toNat _ _).trans ((hbit _).trans (bitAt_toNat _ _).symm)

/-- The raising of an event is no finding. -/
theorem raise_pavFound (p ev d : Nat) (s : State) : pavFound p (s.raise ev d) = pavFound p s :=
  pavFound_of_eq (State.raise_reg s ev d _) (by rw [State.raise_test]; exact ⟨rfl, rfl⟩)

/-! ### The logic test -/

/-- What the logic test finds in a pavilion (R405, R408). -/
def logicRound (fails : BitVec 32) (p : Nat) (a : State) : State :=
  if fails.getLsbD p then
    let a := a.raise (evPav p 19) 0
    if a.test.startRunning then retireStart p 4 a
    else { a with test := { a.test with tsvFailed := BitVec.ofNat 32 (bitPut a.test.tsvFailed.toNat p true) } }
  else a

/-- What the logic test finds in a port of a start marks it down (R408). -/
def logicPort (fails : BitVec 16) (n : Nat) (a : State) : State :=
  if fails.getLsbD n && a.portEnabled n then markDown n 3 a else a

/-- What the logic test finds in the ports. -/
def logicPorts (fails : BitVec 16) (s : State) : State :=
  if s.test.startRunning then forUpto 16 (logicPort fails) s
  else { s with test := { s.test with failPorts := s.test.failPorts ||| fails } }

/-- The test's step and result after its logic test. -/
def logicEnded (ok : Bool) (s : State) : State :=
  let bits (b : BitVec 4) : BitVec 4 := if ok then b ||| 1 else b
  { s with test := { s.test with
    step := 3
    startBits := if s.test.startRunning then bits s.test.startBits else s.test.startBits
    parkBits := if s.test.startRunning then s.test.parkBits else bits s.test.parkBits } }

theorem exec_logicTestDone (pavs : BitVec 32) (ports : BitVec 16) {s : State} (h : s.test.step = 2) :
    exec (.logicTestDone pavs ports) s = .next (laneTest (logicEnded (decide (pavs = 0) && decide (ports = 0))
      (logicPorts ports (forUpto 32 (logicRound pavs) (s.atLeast (s.power.testAt + 40 * tMs)))))) := by
  show execLogicTestDone pavs ports s = _
  rw [execLogicTestDone, if_pos h]
  rfl

section
variable {fails : BitVec 32} {p : Nat}

theorem logicRound_testGoesOn (fails : BitVec 32) (p : Nat) (a : State) : TestGoesOn a (logicRound fails p a) := by
  unfold logicRound
  refine .ite ?_ (.refl a)
  extract_lets b
  have hb : TestGoesOn a b := raise_testGoesOn _ _ a
  exact hb.trans (.ite (retireStart_testGoesOn p 4 b) ⟨(LinkKept.refl b).of_eq rfl rfl rfl, rfl, rfl⟩)

theorem logicRound_found (hf : fails.getLsbD p = true) {a : State} (hrun : a.test.startRunning = true)
    (h : bitAt a.retiredMask p = false) : (pavFound p (logicRound fails p a)).2 = (1, 4) := by
  have hraised : (a.raise (evPav p 19) 0).test = a.test := State.raise_test a _ _
  rw [logicRound, if_pos hf]
  dsimp only
  rw [if_pos (by rw [hraised]; exact hrun)]
  exact retireStart_found 4 (by rw [State.retiredMask, hraised]; exact h)

theorem logicRound_pavFound_ne (fails : BitVec 32) {i : Nat} (hi : i ≠ p) (a : State) : pavFound p (logicRound fails i a) = pavFound p a := by
  unfold logicRound
  split
  · extract_lets b
    have hb : pavFound p b = pavFound p a := raise_pavFound p _ _ a
    refine Eq.trans ?_ hb
    split
    · exact retireStart_pavFound_ne hi 4 b
    · exact pavFound_of_eq rfl ⟨rfl, rfl⟩
  · rfl

/-- The logic test goes over all pavilions. -/
theorem logicRounds_testGoesOn (fails : BitVec 32) (s : State) : TestGoesOn s (forUpto 32 (logicRound fails) s) :=
  forUpto_induction (P := TestGoesOn s) 32 _ s (.refl s) fun p a _ ha => ha.trans (logicRound_testGoesOn fails p a)

/-- A pavilion in which the logic test of a start finds a fault, and that is not retired, retires with cause 4 (R405, R408, R705). -/
theorem logicRounds_found (hp : p < 32) (hf : fails.getLsbD p = true) {s : State} (hrun : s.test.startRunning = true)
    (h : bitAt s.retiredMask p = false) : (pavFound p (forUpto 32 (logicRound fails) s)).2 = (1, 4) := by
  obtain ⟨a, hgoes, hsame, -, hpost⟩ := forUpto_at_round (R := TestGoesOn) (part := pavFound p) .refl .trans
    (logicRound_testGoesOn fails) (fun i a hi => logicRound_pavFound_ne fails hi a) hp s
  have hun : bitAt a.retiredMask p = false := (congrArg Prod.fst hsame).trans h
  rw [hpost]
  exact logicRound_found hf (hgoes.running.trans hrun) hun

end

theorem logicPort_portMoved (fails : BitVec 16) (n : Nat) (a : State) : PortMoved (Apart n) a (logicPort fails n a) :=
  .ite (markDown_portMoved (.refl _ a) 3) (.refl _ a)

theorem logicPorts_portMoved (fails : BitVec 16) (s : State) : PortMoved ApartAll s (forUpto 16 (logicPort fails) s) :=
  forUpto_portMoved (fun n a _ => logicPort_portMoved fails n a) s

/-- A port in which the logic test of a start finds a fault is marked down (R408). -/
theorem logicPorts_shows {fails : BitVec 16} {n : Nat} (hn : n < 16) (hf : fails.getLsbD n = true) {s : State} (he : s.portEnabled n = true) :
    (forUpto 16 (logicPort fails) s).rd (Fld.PRT_PHY_STAT_DOWN n) = 1 ∧ (forUpto 16 (logicPort fails) s).link n = lsDown := by
  have hfeat : ∀ i, Apart i Off.GLB_FEATURES :=
    apart_glb (by decide) (by simp only [CreditReg, Off.GLB_FEATURES]; omega) (by decide) (by decide)
  refine forUpto_of_round (P := fun a => a.rd (Fld.PRT_PHY_STAT_DOWN n) = 1 ∧ a.link n = lsDown) (Q := fun a => a.portEnabled n = true)
    (logicPort fails) s hn he (fun i a _ ha => ?_) (fun a ha => ?_) fun i a hi h16 _ ha => ?_
  · rw [State.portEnabled, State.rd_of_reg ((logicPort_portMoved fails i a).regs _ (hfeat i))]
    exact ha
  · rw [logicPort, if_pos (by rw [hf, ha]; rfl)]
    exact markDown_shows (by decide) a
  · obtain ⟨hlink, hphy⟩ := apart_otherPort (n := i) (m := n) (by omega)
    have hmoved := logicPort_portMoved fails i a
    exact ⟨(State.rd_of_reg (f := Fld.PRT_PHY_STAT_DOWN n) (hmoved.regs _ hphy)).trans ha.1,
      (State.link_of_reg (hmoved.regs _ hlink)).trans ha.2⟩

/-- The lane test that begins leaves links, marks and the test (R407). -/
theorem laneTest_kept (s : State) : LaneKept s (laneTest s) ∧ PortMoved ApartAll s (laneTest s) := by
  refine ⟨(LaneKept.refl s).forUpto fun n a _ ha => .ite (lanesTo_laneKept
    (ha.wrPhyStat (f := Fld.PRT_PHY_STAT_PLL_LOCK n) rfl 1 (.inl (by simp [Fld.PRT_PHY_STAT_PLL_LOCK]))) n 0xFF laLoop) ha, ?_⟩
  exact forUpto_portMoved (fun n a _ => .ite (lanesTo_portMoved ((PortMoved.refl _ a).wr (inPort_phyStat n) 1) 0xFF laLoop) (.refl _ a)) s

end Sys2Proof.Machine
end

section
/-! SUPPORT. The logic test of a start ends, then its TSV, save-buffer and lane tests (R405 to R408). -/
namespace Sys2Proof.Machine
open Sys2Proof

/-! ### The end of the logic test -/

theorem logicPorts_of_start {s : State} (h : s.test.startRunning = true) (fails : BitVec 16) :
    logicPorts fails s = forUpto 16 (logicPort fails) s := if_pos h

theorem logicEnded_start {s : State} (h : s.test.startRunning = true) (ok : Bool) : (logicEnded ok s).test = { s.test with
    step := 3
    startBits := if ok then s.test.startBits ||| 1 else s.test.startBits } := by
  unfold logicEnded
  dsimp only
  rw [if_pos h, if_pos h]

/-- The logic test of a start ends after 40 ms: what it found in a pavilion retires it, and in a port marks it down (R405, R408). -/
theorem logicTestDone_start (pavs : BitVec 32) (ports : BitVec 16) {s : State} (hstep : s.test.step = 2)
    (hrun : s.test.startRunning = true) : ∃ u, exec (.logicTestDone pavs ports) s = .next u ∧ u.test.step = 3 ∧
    u.now = max s.now (s.power.testAt + 40 * tMs) ∧
    u.test.startBits = (if pavs = 0 ∧ ports = 0 then s.test.startBits ||| 1 else s.test.startBits) ∧
    (∀ p < 32, pavs.getLsbD p = true → bitAt s.retiredMask p = false →
      u.rd (Fld.PAV_REPAIR_STAT_RETIRED p) = 1 ∧ tabGet 0 u.test.retireCause p = 4) ∧
    (∀ n < 16, ports.getLsbD n = true → s.portEnabled n = true → u.rd (Fld.PRT_PHY_STAT_DOWN n) = 1 ∧ u.link n = lsDown) := by
  have hfound := fun (p : Nat) (hp : p < 32) (hf : pavs.getLsbD p = true) =>
    logicRounds_found (s := s.atLeast (s.power.testAt + 40 * tMs)) hp hf hrun
  obtain ⟨hlink, hgoes, hbits⟩ := logicRounds_testGoesOn pavs (s.atLeast (s.power.testAt + 40 * tMs))
  have he := exec_logicTestDone pavs ports hstep
  generalize forUpto 32 (logicRound pavs) (s.atLeast (s.power.testAt + 40 * tMs)) = a at he hfound hlink hgoes hbits
  have harun : a.test.startRunning = true := hgoes.trans hrun
  rw [logicPorts_of_start harun] at he
  have hports := logicPorts_portMoved ports a
  have hshows := fun (n : Nat) (hn : n < 16) (hf : ports.getLsbD n = true) => logicPorts_shows (s := a) hn hf
  generalize forUpto 16 (logicPort ports) a = b at he hports hshows
  have hbrun : b.test.startRunning = true := by rw [hports.test_eq]; exact harun
  have htest := logicEnded_start hbrun (decide (pavs = 0) && decide (ports = 0))
  obtain ⟨hkept, hmoved⟩ := laneTest_kept (logicEnded (decide (pavs = 0) && decide (ports = 0)) b)
  refine ⟨_, he, ?_, ?_, ?_, fun p hp hf hun => ?_, fun n hn hf hen => ?_⟩
  · rw [hmoved.test_eq, htest]
  · exact hmoved.now_eq.trans (hports.now_eq.trans hlink.now)
  · rw [hmoved.test_eq, htest, hports.test_eq, hbits]
    simp only [Bool.and_eq_true, decide_eq_true_eq, State.atLeast_test]
  · have hpav := hfound p hp hf hun
    have hsame : pavFound p (laneTest (logicEnded (decide (pavs = 0) && decide (ports = 0)) b)) = pavFound p a := by
      refine pavFound_of_eq ((hmoved.regs _ (apartAll_repairStat p)).trans (hports.regs _ (apartAll_repairStat p))) ?_
      rw [hmoved.test_eq, htest, hports.test_eq]
      exact ⟨rfl, rfl⟩
    rw [← hsame] at hpav
    exact ⟨congrArg Prod.fst hpav, congrArg Prod.snd hpav⟩
  · have hena : a.portEnabled n = true := (State.portEnabled_of_linkFree hlink.reg n).1.trans hen
    obtain ⟨hdown, hl⟩ := hshows n hn hf hena
    exact ⟨(hkept.down n).trans hdown, (hkept.link_eq n).trans hl⟩

/-! ### TSV groups and save buffers -/

/-- What the TSV test finds in a group of a pavilion (R406, R408). -/
def tsvRound (start : Bool) (a : State) (e : PavId × Fin 16) : State :=
  let a := a.raise (evPav e.1 18) e.2.val
  if start then retireStart e.1 3 a
  else { a with test := { a.test with tsvFailed := BitVec.ofNat 32 (bitPut a.test.tsvFailed.toNat e.1 true) } }

/-- A save buffer found at fault (R406). -/
def saveRound (fails : BitVec 32) (p : Nat) (a : State) : State :=
  if fails.getLsbD p then (a.wr (Fld.PAV_BIST_STAT_SAVE_FAULT p) 1).raise (evPav p 17) 0 else a

theorem tsvRound_testGoesOn (start : Bool) (a : State) (e : PavId × Fin 16) : TestGoesOn a (tsvRound start a e) := by
  unfold tsvRound
  extract_lets b
  have hb : TestGoesOn a b := raise_testGoesOn _ _ a
  exact hb.trans (.ite (retireStart_testGoesOn e.1 3 b) ⟨(LinkKept.refl b).of_eq rfl rfl rfl, rfl, rfl⟩)

theorem saveRound_testGoesOn (fails : BitVec 32) (p : Nat) (a : State) : TestGoesOn a (saveRound fails p a) :=
  .ite ((wrPav_testGoesOn (linkReg_pav (p := p) (k := 0x304) (by decide) (by decide) (by decide)) 1 a).trans (raise_testGoesOn _ _ _))
    (.refl a)

/-- The pavilions' part of the tests. -/
def pavTests (start : Bool) (tsvFails : List (PavId × Fin 16)) (saveFails : BitVec 32) (s : State) : State :=
  forUpto 32 (saveRound saveFails) (tsvFails.foldl (tsvRound start) s)

theorem pavTests_testGoesOn (start : Bool) (tsvFails : List (PavId × Fin 16)) (saveFails : BitVec 32) (s : State) :
    TestGoesOn s (pavTests start tsvFails saveFails s) :=
  forUpto_induction (P := TestGoesOn s) 32 _ _
    (List.foldlRecOn (motive := TestGoesOn s) tsvFails _ (.refl s) fun a ha e _ => ha.trans (tsvRound_testGoesOn start a e))
    fun p a _ ha => ha.trans (saveRound_testGoesOn saveFails p a)

/-- A save buffer found at fault shows it (R406). -/
theorem pavTests_saveFault (start : Bool) (tsvFails : List (PavId × Fin 16)) {saveFails : BitVec 32} {p : Nat} (hp : p < 32)
    (hf : saveFails.getLsbD p = true) (s : State) :
    (pavTests start tsvFails saveFails s).rd (Fld.PAV_BIST_STAT_SAVE_FAULT p) = 1 := by
  refine forUpto_of_round (P := fun a => a.rd (Fld.PAV_BIST_STAT_SAVE_FAULT p) = 1) (Q := fun _ => True) (saveRound saveFails) _ hp trivial
    (fun _ _ _ _ => trivial) (fun a _ => ?_) fun i a hi _ _ ha => ?_
  · rw [saveRound, if_pos hf, State.raise_rd]
    exact State.rd_wr_same _ _ _ (by simp [Fld.PAV_BIST_STAT_SAVE_FAULT])
  · unfold saveRound
    split
    · rw [State.raise_rd, State.rd_wr_ne _ _ _ _ (by simp only [Fld.PAV_BIST_STAT_SAVE_FAULT]; omega)]
      exact ha
    · exact ha

/-! ### Lanes -/

/-- Lanes found bad. -/
def lanesMarked (n mask : Nat) (s : State) : State :=
  forUpto 8 (fun q b => if bitAt mask q then b.modLane n q (fun l => { l with bad := true }) else b) s

/-- What the lane test finds in a port (R407, R408). -/
def laneRound (start : Bool) (fails : BitVec 128) (n : Nat) (a : State) : State :=
  let bad := laneMask (fun q => fails.getLsbD (8 * n + q))
  if bad = 0 ∨ a.portEnabled n = false ∨ a.role n = 2 then a
  else
    let a := (lanesMarked n bad a).raise (1008 + 4) n
    if (pickActive (laneMask (fun q => !(a.lane n q).bad))).isSome then a
    else if start then markDown n 3 a
    else { a with test := { a.test with failPorts := BitVec.ofNat 16 (bitPut a.test.failPorts.toNat n true) } }

/-- The test's step and results after its lane test. -/
def shortEnded (start : Bool) (fails : BitVec 128) (bits : BitVec 4 → BitVec 4) (s : State) : State :=
  { s with test := { s.test with
    step := 4
    failLanes := if start then s.test.failLanes else s.test.failLanes ||| fails
    startBits := if start then bits s.test.startBits else s.test.startBits
    parkBits := if start then s.test.parkBits else bits s.test.parkBits } }

/-- The results of the TSV and lane tests (R406, R407). -/
def shortBits (tsvOk laneOk : Bool) (b : BitVec 4) : BitVec 4 := (if tsvOk then b ||| 2 else b) ||| (if laneOk then 4 else 0)

theorem shortBits_eq (tsvOk laneOk : Bool) (b : BitVec 4) :
    shortBits tsvOk laneOk b = (b ||| if tsvOk then 2 else 0) ||| (if laneOk then 4 else 0) := by
  cases tsvOk
  · exact congrArg (· ||| _) BitVec.or_zero.symm
  · rfl

theorem shortEnded_start (fails : BitVec 128) (bits : BitVec 4 → BitVec 4) (s : State) :
    (shortEnded true fails bits s).test.step = 4 ∧ (shortEnded true fails bits s).test.startBits = bits s.test.startBits := ⟨rfl, rfl⟩

theorem exec_tsvTestDone (tsvFails : List (PavId × Fin 16)) (saveFails : BitVec 32) (laneFails : BitVec 128) {s : State}
    (hstep : s.test.step = 3) (hrun : s.test.startRunning = true) : exec (.tsvTestDone tsvFails saveFails laneFails) s =
    .next (lanesBack 3 (shortEnded true laneFails (shortBits (tsvFails.isEmpty && decide (saveFails = 0)) (decide (laneFails = 0)))
      (forUpto 16 (laneRound true laneFails) (pavTests true tsvFails saveFails (s.atLeast (s.power.testAt + 72 * tMs)))))) := by
  show execTsvTestDone tsvFails saveFails laneFails s = _
  rw [← hrun, execTsvTestDone, if_pos hstep]
  rfl

/-- What the lane tests of ports leave: a lane found bad stays so. -/
structure LanesTested (x s : State) : Prop where
  test : s.test = x.test
  now : s.now = x.now
  regs : ∀ off, ApartAll off → s.reg off = x.reg off
  free : ∀ off, LinkFree off → s.reg off = x.reg off
  bad : ∀ k q, (x.lane k q).bad = true → (s.lane k q).bad = true

theorem LanesTested.refl (s : State) : LanesTested s s := ⟨rfl, rfl, fun _ _ => rfl, fun _ _ => rfl, fun _ _ h => h⟩

theorem LanesTested.trans {x s t : State} (h : LanesTested x s) (k : LanesTested s t) : LanesTested x t :=
  ⟨k.test.trans h.test, k.now.trans h.now, fun off ho => (k.regs off ho).trans (h.regs off ho),
    fun off ho => (k.free off ho).trans (h.free off ho), fun i q hb => k.bad i q (h.bad i q hb)⟩

theorem PortMoved.lanesTested {F : Nat → Prop} {x s : State} (h : PortMoved F x s) (hF : ∀ off, ApartAll off → F off)
    (hfree : ∀ off, LinkFree off → s.reg off = x.reg off) : LanesTested x s :=
  ⟨h.test_eq, h.now_eq, fun off ho => h.regs off (hF off ho), hfree, fun k q hb => (h.bad k q).trans hb⟩

theorem State.lane_of_index {s : State} {n q k j : Nat} (h : 8 * k + j = 8 * n + q) : s.lane k j = s.lane n q := by
  rw [State.lane, State.lane, h]

/-- A lane marked bad is bad, and no other lane becomes good. -/
theorem markBad_bad (n q : Nat) (s : State) : let u := s.modLane n q (fun l => { l with bad := true })
    (u.lane n q).bad = true ∧ ∀ k j, (s.lane k j).bad = true → (u.lane k j).bad = true := by
  have hown : ((s.modLane n q (fun l => { l with bad := true })).lane n q).bad = true := by rw [State.lane_modLane_same]
  refine ⟨hown, fun k j hb => ?_⟩
  by_cases h : 8 * k + j = 8 * n + q
  · rw [State.lane_of_index h]
    exact hown
  · rw [State.lane_modLane_ne s n q _ h]
    exact hb

theorem lanesMarked_lanesTested (n mask : Nat) (s : State) : LanesTested s (lanesMarked n mask s) :=
  forUpto_induction (P := LanesTested s) 8 _ s (.refl s) fun q b _ hb => by
    split
    · exact hb.trans ⟨rfl, rfl, fun _ _ => rfl, fun _ _ => rfl, (markBad_bad n q b).2⟩
    · exact hb

theorem lanesMarked_bad {n mask q : Nat} (hq : q < 8) (hm : bitAt mask q = true) (s : State) : ((lanesMarked n mask s).lane n q).bad = true := by
  refine forUpto_of_round (P := fun a => (a.lane n q).bad = true) (Q := fun _ => True) _ s hq trivial (fun _ _ _ _ => trivial)
    (fun a _ => ?_) fun i a _ _ _ ha => ?_
  · rw [if_pos hm]
    exact (markBad_bad n q a).1
  · split
    · exact (markBad_bad n i a).2 n q ha
    · exact ha

/-- The rest of a port's lane test, after its lanes are marked: its event, and a port left without lanes enough is marked down (R408). -/
def laneVerdict (n : Nat) (a : State) : State :=
  let a := a.raise (1008 + 4) n
  if (pickActive (laneMask (fun q => !(a.lane n q).bad))).isSome then a else markDown n 3 a

theorem laneVerdict_lanesTested {n : Nat} (hn : n < 16) (a : State) : LanesTested a (laneVerdict n a) := by
  unfold laneVerdict
  extract_lets b
  have hb : LanesTested a b := ((PortMoved.refl (Apart n) a).raise _ _).lanesTested (fun _ ho => ho n hn) fun _ _ => State.raise_reg _ _ _ _
  split
  · exact hb
  · exact hb.trans ((markDown_portMoved (.refl (Apart n) b) 3).lanesTested (fun _ ho => ho n hn)
      fun _ ho => markDown_linkFree n 3 b ho)

theorem laneRound_cases (fails : BitVec 128) (n : Nat) (a : State) : let bad := laneMask (fun q => fails.getLsbD (8 * n + q))
    (bad = 0 ∨ a.portEnabled n = false ∨ a.role n = 2) ∧ laneRound true fails n a = a ∨
    laneRound true fails n a = laneVerdict n (lanesMarked n bad a) := by
  unfold laneRound
  extract_lets bad
  split
  · next h => exact .inl ⟨h, rfl⟩
  · exact .inr rfl

theorem laneRound_lanesTested (fails : BitVec 128) {n : Nat} (hn : n < 16) (a : State) : LanesTested a (laneRound true fails n a) := by
  rcases laneRound_cases fails n a with ⟨-, h⟩ | h
  · rw [h]
    exact .refl a
  · rw [h]
    exact (lanesMarked_lanesTested n _ a).trans (laneVerdict_lanesTested hn _)

theorem laneRounds_lanesTested (fails : BitVec 128) (s : State) : LanesTested s (forUpto 16 (laneRound true fails) s) :=
  forUpto_induction (P := LanesTested s) 16 _ s (.refl s) fun _ a hn ha => ha.trans (laneRound_lanesTested fails hn a)

/-- A lane found at fault of a port that is enabled is marked bad (R407). -/
theorem laneRounds_bad {fails : BitVec 128} {n q : Nat} (hn : n < 16) (hq : q < 8) (hf : fails.getLsbD (8 * n + q) = true) {s : State}
    (he : s.portEnabled n = true) (hr : s.role n ≠ 2) : ((forUpto 16 (laneRound true fails) s).lane n q).bad = true := by
  refine forUpto_of_round (P := fun a => (a.lane n q).bad = true) (Q := LanesTested s) (laneRound true fails) s hn (.refl s)
    (fun i a hi ha => ha.trans (laneRound_lanesTested fails hi a)) (fun a ha => ?_)
    fun i a _ hi _ hb => (laneRound_lanesTested fails hi a).bad n q hb
  have hmask : bitAt (laneMask (fun q => fails.getLsbD (8 * n + q))) q = true := (bitAt_bitSum hq).trans hf
  obtain ⟨hen, hro⟩ := State.portEnabled_of_linkFree ha.free n
  rcases laneRound_cases fails n a with ⟨h0 | h0 | h0, -⟩ | h
  · rw [h0] at hmask
    exact absurd hmask (by simp [bitAt])
  · exact absurd (h0.symm.trans (hen.trans he)) (by decide)
  · exact absurd (hro.symm.trans h0) hr
  · rw [h]
    exact (laneVerdict_lanesTested hn _).bad n q (lanesMarked_bad hq hmask a)

theorem lanesBack_portMoved (step : Nat) (s : State) : PortMoved ApartAll s (lanesBack step s) :=
  .ite (forUpto_portMoved (fun _ a _ => startTraining_portMoved (.ite (parkLanes_portMoved (.refl _ a)) (.refl _ a))) s) (.refl _ s)

/-- The TSV, save-buffer and lane tests of a start end 32 ms after the logic test (R406 to R408). -/
theorem tsvTestDone_start (fails : List (PavId × Fin 16)) (save : BitVec 32) (lanes : BitVec 128) {s : State} (hstep : s.test.step = 3)
    (hrun : s.test.startRunning = true) : ∃ u, exec (.tsvTestDone fails save lanes) s = .next u ∧
    u.test.step = 4 ∧ u.now = max s.now (s.power.testAt + 72 * tMs) ∧
    u.test.startBits = (s.test.startBits ||| (if fails.isEmpty = true ∧ save = 0 then 2 else 0)) ||| (if lanes = 0 then 4 else 0) ∧
    (∀ p < 32, save.getLsbD p = true → u.rd (Fld.PAV_BIST_STAT_SAVE_FAULT p) = 1) ∧
    (∀ n < 16, ∀ q < 8, lanes.getLsbD (8 * n + q) = true → s.portEnabled n = true → s.role n ≠ 2 → (u.lane n q).bad = true) := by
  have hsave := fun (p : Nat) (hp : p < 32) (hf : save.getLsbD p = true) =>
    pavTests_saveFault true fails hp hf (s.atLeast (s.power.testAt + 72 * tMs))
  obtain ⟨hlink, -, hbits⟩ := pavTests_testGoesOn true fails save (s.atLeast (s.power.testAt + 72 * tMs))
  have he := exec_tsvTestDone fails save lanes hstep hrun
  generalize pavTests true fails save (s.atLeast (s.power.testAt + 72 * tMs)) = a at he hsave hlink hbits
  have htested := laneRounds_lanesTested lanes a
  have hbad := fun (n q : Nat) (hn : n < 16) (hq : q < 8) (hf : lanes.getLsbD (8 * n + q) = true) => laneRounds_bad (s := a) hn hq hf
  generalize forUpto 16 (laneRound true lanes) a = b at he htested hbad
  have hback := lanesBack_portMoved 3 (shortEnded true lanes (shortBits (fails.isEmpty && decide (save = 0)) (decide (lanes = 0))) b)
  refine ⟨_, he, ?_, ?_, ?_, fun p hp hf => ?_, fun n hn q hq hf hen hro => ?_⟩
  · rw [hback.test_eq, (shortEnded_start lanes _ b).1]
  · exact hback.now_eq.trans (htested.now.trans hlink.now)
  · have hstart : b.test.startBits = s.test.startBits := (congrArg Test.startBits htested.test).trans hbits
    rw [hback.test_eq, (shortEnded_start lanes _ b).2, hstart, shortBits_eq]
    simp only [Bool.and_eq_true, decide_eq_true_eq]
  · rw [State.rd_of_reg (f := Fld.PAV_BIST_STAT_SAVE_FAULT p)
      ((hback.regs _ (apartAll_pavBistStat p)).trans (htested.regs _ (apartAll_pavBistStat p)))]
    exact hsave p hp hf
  · obtain ⟨h1, h2⟩ := State.portEnabled_of_linkFree hlink.reg n
    exact (hback.bad n q).trans (hbad n q hn hq hf (h1.trans hen) (fun h => hro (h2.symm.trans h)))

end Sys2Proof.Machine
end

section
/-! SUPPORT. The end of the start-up test, the start-up record, and the recovery wait (R401, R410, R703, R705). -/
namespace Sys2Proof.Machine
open Sys2Proof

/-! ### The start-up test ends -/

/-- A start-up test whose slices may not start goes on waiting (R398, R401). -/
theorem exec_startupTestDone_waits {s : State} (h : s.testWaits = true) : exec .startupTestDone s = .next s := by
  show execStartupTestDone s = _
  rw [execStartupTestDone, if_neg]
  rintro ⟨-, -, -, hw⟩
  exact absurd (h.symm.trans hw) (by decide)

/-- The rows that no command has shown have passed: time and power stand. -/
theorem restPassed_kept (rows : Option Nat) (s : State) : (restPassed rows s).power = s.power ∧ (restPassed rows s).now = s.now :=
  forUpto_induction (P := fun a => a.power = s.power ∧ a.now = s.now) 32 _ s ⟨rfl, rfl⟩ fun p a _ ha => by
    split
    · exact ha
    · exact ha

/-- "All rows passed" shows where the start-up test tested rows and none failed (R410). -/
def rowsTested (s : State) : State :=
  match s.testRows with
  | some rows =>
    let s := restPassed rows s
    if s.test.parkFailed = 0 then { s with test := { s.test with startBits := s.test.startBits ||| 8 } } else s
  | none => s

theorem rowsTested_kept (s : State) : (rowsTested s).power = s.power ∧ (rowsTested s).now = s.now := by
  unfold rowsTested
  split
  · next rows _ =>
    have h := restPassed_kept rows s
    extract_lets a
    split <;> exact h
  · exact ⟨rfl, rfl⟩

/-- The pavilions that the tests of this start retired (R408, R705). -/
def State.testLosses (s : State) : Nat := (List.range 32).foldl (fun a p =>
  let c := tabGet 0 s.test.retireCause p
  a + b2n (c == 3 || c == 4 || c == 5)) 0

theorem exec_startupTestDone_ends {s : State} (hrun : s.test.startRunning = true) (hstep : s.test.step = 4) (hslices : s.slices = 0)
    (hw : s.testWaits = false) : exec .startupTestDone s =
    .next (testOver ((rowsTested s).raise 1008 (min 255 (rowsTested s).testLosses))) := by
  show execStartupTestDone s = _
  rw [execStartupTestDone, if_pos ⟨hrun, hstep, hslices, hw⟩]
  rfl

/-- The start-up test ends with its event and its time, and step 7 begins (R410, R421, R697). -/
theorem startupTestDone_ends {s : State} (hrun : s.test.startRunning = true) (hstep : s.test.step = 4) (hslices : s.slices = 0)
    (hw : s.testWaits = false) : ∃ u, exec .startupTestDone s = .next u ∧ u.power.boot = .finish ∧ u.test.step = 0 ∧
    u.test.startRunning = false ∧ u.power.testMs = (s.now - s.power.testAt) / tMs ∧ Raised u 1008 ∧ u.rd Fld.GLB_BOOT_STAT_PHASE = 6 ∧
    u.rd Fld.GLB_BIST_STAT_PHASE = 0 := by
  have he := exec_startupTestDone_ends hrun hstep hslices hw
  obtain ⟨hpower, hnow⟩ := rowsTested_kept s
  generalize rowsTested s = a at he hpower hnow
  have hraised : Raised (a.raise 1008 (min 255 a.testLosses)) 1008 := State.raise_sets_out _ _ _
  have hp : (a.raise 1008 (min 255 a.testLosses)).power = s.power := (State.raise_power a _ _).trans hpower
  have hn : (a.raise 1008 (min 255 a.testLosses)).now = s.now := (State.raise_now a _ _).trans hnow
  generalize a.raise 1008 (min 255 a.testLosses) = b at he hraised hp hn
  obtain ⟨hboot, -, -, hphase, hbist⟩ := testOver_result b
  refine ⟨_, he, hboot, rfl, rfl, ?_, hraised.of_crossing rfl, hphase, hbist⟩
  rw [← hp, ← hn]
  rfl

/-! ### The start-up record -/

/-- The record is 160 bytes and two for each entry it lists (R705). -/
theorem State.startRecord_length (s : State) : s.startRecord.length = 160 + 2 * min 64 s.test.skipped.length := by
  have hlist : ∀ l : List Nat, (l.flatMap (fun i => leBytes 2 i)).length = 2 * l.length := fun l => by
    rw [List.length_flatMap, List.map_congr_left (g := fun _ => 2) fun i _ => length_leBytes 2 i, List.map_const', List.sum_replicate]
    exact Nat.mul_comm _ _
  unfold State.startRecord
  simp only [List.length_append, length_leBytes, hlist, List.length_take, List.length_map, List.length_range, List.length_cons,
    List.length_nil, zeros, List.length_replicate]

/-- A start-up that is complete: its record is kept, and it is done (R705). -/
def startDone (s : State) : State :=
  State.wr { s with
    test := { s.test with record := s.startRecord }
    power := { s.power with boot := .done, doneAt := some s.now, recovDone := false } } Fld.GLB_BOOT_STAT_DONE 1

theorem exec_startupDone {s : State} (h : s.power.boot = .finish) : exec .startupDone s = .next (pumpAll (startDone s)) := by
  show execStartupDone s = _
  rw [execStartupDone, if_pos h]
  rfl

theorem startDone_regsKept (s : State) : RegsKept s (startDone s) [Off.GLB_BOOT_STAT] :=
  ((RegsKept.refl s [Off.GLB_BOOT_STAT]).of_regs (State.regs_testPower s _ _)).wr (f := Fld.GLB_BOOT_STAT_DONE) List.mem_cons_self 1

/-! ### The recovery wait -/

/-- Whether a host port has its link when the recovery wait ends (R703). -/
def State.hostUp (s : State) : Bool :=
  (List.range 16).any (fun n => s.portEnabled n && s.role n == 0 && (s.port n).train.hasLink)

/-- The recovery wait has passed. -/
def waitPassed (t : Nat) (s : State) : State :=
  { s.atLeast t with power := { s.power with recovDone := true } }

/-- Recovery begins: the record says so, and port 0 is to train with X1 = 1 (R703). -/
def hostSought (s : State) : State :=
  let flag : List Byte := [(s.test.record.getD 12 0) ||| 4]
  let s := { s with test := { s.test with record := s.test.record.take 12 ++ flag ++ s.test.record.drop 13 } }
  s.modTrain 0 (fun k => { k with x1 := true })

theorem exec_recovWaitExpiry {s : State} {t : Nat} (ht : s.power.doneAt = some t) (hboot : s.power.boot = .done)
    (hwait : s.power.recovDone = false) (hr : s.rd Fld.GLB_BOOT_CTRL_RECOV_WAIT ≠ 0) : exec .recovWaitExpiry s =
    .next (let a := waitPassed (t + s.rd Fld.GLB_BOOT_CTRL_RECOV_WAIT * (100 * tMs)) s
      if s.hostUp = true ∨ s.portEnabled 0 = false ∨ s.role 0 ≠ 0 then a else startTraining 0 (hostSought a)) := by
  have hnot : ¬ (s.power.recovDone = true ∨ s.rd Fld.GLB_BOOT_CTRL_RECOV_WAIT = 0 ∨ s.power.boot ≠ .done) := by
    simp [hwait, hr, hboot]
  show execRecovWaitExpiry s = _
  simp only [execRecovWaitExpiry, ht]
  rw [if_neg hnot]
  generalize t + s.rd Fld.GLB_BOOT_CTRL_RECOV_WAIT * (100 * tMs) = w
  by_cases hc : s.hostUp = true ∨ s.portEnabled 0 = false ∨ s.role 0 ≠ 0
  · rw [if_pos hc]
    exact if_pos hc
  · rw [if_neg hc]
    exact if_neg hc

theorem State.hostUp_iff (s : State) :
    s.hostUp = true ↔ ∃ n < 16, s.portEnabled n = true ∧ s.role n = 0 ∧ (s.port n).train.hasLink = true := by
  simp only [State.hostUp, List.any_eq_true, List.mem_range, Bool.and_eq_true, beq_iff_eq, and_assoc]

/-- Recovery leaves whether port 0 may train as it was. -/
theorem hostSought_mayTrain (t : Nat) (s : State) : (hostSought (waitPassed t s)).mayTrain 0 = s.mayTrain 0 := by
  have hport : (hostSought (waitPassed t s)).port 0 = { s.port 0 with train := { (s.port 0).train with x1 := true } } :=
    State.port_modPort_same _ 0 _
  unfold State.mayTrain
  rw [hport]
  rfl

/-- A training that starts leaves X1 to the port (R101). -/
theorem startTraining_x1 (n : Nat) (s : State) : ((startTraining n s).port n).train.x1 = (s.port n).train.x1 := by
  unfold startTraining
  split
  · rw [(lockRounds_lanesMoved n false s).wire, lockBegun_port]
    rfl
  · rfl

/-- The record with its recovery flag (R703, R705). -/
theorem recovRecord {l : List Byte} (h : 12 < l.length) : (l.take 12 ++ [l.getD 12 0 ||| 4] ++ l.drop 13).getD 12 0 = l.getD 12 0 ||| 4 ∧
    (l.take 12 ++ [l.getD 12 0 ||| 4] ++ l.drop 13).length = l.length := by
  have ht : (l.take 12).length = 12 := by rw [List.length_take]; omega
  refine ⟨?_, ?_⟩
  · rw [List.append_assoc, List.getD_append_right _ _ _ _ (by omega), ht]
    rfl
  · simp only [List.length_append, ht, List.length_drop, List.length_singleton]
    omega

/-- With a host port's link up, or without port 0 as a host, nothing follows the recovery wait; else port 0 trains with X1 = 1 (R703). -/
theorem recovWaitExpiry_result {s : State} {t : Nat} (ht : s.power.doneAt = some t) (hboot : s.power.boot = .done)
    (hwait : s.power.recovDone = false) (hr : s.rd Fld.GLB_BOOT_CTRL_RECOV_WAIT ≠ 0) : ∃ u, exec .recovWaitExpiry s = .next u ∧
    u.power.recovDone = true ∧ u.now = max s.now (t + s.rd Fld.GLB_BOOT_CTRL_RECOV_WAIT * (100 * tMs)) ∧
    ((∃ n < 16, s.portEnabled n = true ∧ s.role n = 0 ∧ (s.port n).train.hasLink = true) → u.regs = s.regs ∧ u.ports = s.ports) ∧
    ((∀ n < 16, s.portEnabled n = true → s.role n = 0 → (s.port n).train.hasLink = false) → s.portEnabled 0 = true → s.role 0 = 0 →
      (u.port 0).train.x1 = true ∧ (12 < s.test.record.length →
        u.test.record.getD 12 0 = s.test.record.getD 12 0 ||| 4 ∧ u.test.record.length = s.test.record.length) ∧
      (s.mayTrain 0 = true → u.link 0 = lsLock)) := by
  have he := exec_recovWaitExpiry ht hboot hwait hr
  generalize t + s.rd Fld.GLB_BOOT_CTRL_RECOV_WAIT * (100 * tMs) = w at he ⊢
  dsimp only at he
  by_cases hc : s.hostUp = true ∨ s.portEnabled 0 = false ∨ s.role 0 ≠ 0
  · rw [if_pos hc] at he
    refine ⟨_, he, rfl, rfl, fun _ => ⟨rfl, rfl⟩, fun hdown h0 hrole => ?_⟩
    rcases hc with hup | hno | hno
    · obtain ⟨n, hn, hen, hro, hl⟩ := s.hostUp_iff.mp hup
      exact absurd ((hdown n hn hen hro).symm.trans hl) (by decide)
    · exact absurd (hno.symm.trans h0) (by decide)
    · exact absurd hrole hno
  · rw [if_neg hc] at he
    have hmoved := startTraining_portMoved (.refl (Apart 0) (hostSought (waitPassed w s)))
    refine ⟨_, he, ?_, hmoved.now_eq, fun hup => absurd (.inl (s.hostUp_iff.mpr hup)) hc, fun _ _ _ => ⟨?_, fun hlen => ?_, fun hmay => ?_⟩⟩
    · rw [hmoved.power_eq]
      rfl
    · rw [startTraining_x1, hostSought, State.modTrain, State.port_modPort_same]
    · rw [hmoved.test_eq]
      exact recovRecord hlen
    · rw [startTraining, if_pos ((hostSought_mayTrain w s).trans hmay)]
      exact (enterLock_link 0 _ false).1

end Sys2Proof.Machine
end

section
/-! O57. From the certificate to the record: the last steps of start-up. -/
namespace Sys2Proof.Machine
open Sys2Proof

/-- Settles O57: step by step, `certWindowExpiry_ends`, `certCheckDone_shows` (what is applied leaves the certificate's result),
`logicTestDone_start` and `tsvTestDone_start` (what is found is recorded and no operation of a port undoes it, `PortMoved`), the end of the
start-up test or its waiting, the record's length, and `recovWaitExpiry_result`. -/
theorem startUpEnds : Obligations.StartUpEnds := by
  unfold Obligations.StartUpEnds
  refine fun s => ⟨certWindowExpiry_ends, fun h => ?check, fun pavs ports => logicTestDone_start pavs ports,
    fun fails save lanes => tsvTestDone_start fails save lanes, exec_startupTestDone_waits,
    fun hrun hstep hslices hw => startupTestDone_ends hrun hstep hslices hw, fun h => ?done,
    fun t ht hboot hwait hr => recovWaitExpiry_result ht hboot hwait hr⟩
  case check =>
    obtain ⟨u, he, hboot, hres, hcert, hphase⟩ := certCheckDone_shows h
    exact ⟨u, he, hboot, hres.trans s.certTaken_eq, hcert, hphase⟩
  case done =>
    exact ⟨_, exec_startupDone h, rfl, rfl, rfl, State.rd_wr_same _ _ _ (by decide), startDone_regsKept s, s.startRecord_length⟩

end Sys2Proof.Machine
end
